-- ==== Sys2Proof/Word.lean ====
section
/-! DEFINITION. The word types of the device and the plain data types built from them (R13: every structure, register
and flit is little-endian; bit 0 is least significant). -/

namespace Sys2Proof

/-- One byte of a structure, register or flit (R13). -/
abbrev Byte := BitVec 8
/-- A 16-bit field. -/
abbrev W16 := BitVec 16
/-- A 32-bit field or register. -/
abbrev W32 := BitVec 32
/-- A 64-bit field or register. -/
abbrev W64 := BitVec 64
/-- The bits of an IEEE 754 binary32 value (R48, FP32). -/
abbrev F32 := BitVec 32

/-- Sparse data by key: an absent key stands for the value a lookup names as its default. -/
abbrev Tab (α : Type) := List (Nat × α)

end Sys2Proof
end

