-- ==== Sys2Proof/Syntax.lean ====
section
/-! DEFINITION. The commands of the device: one constructor per row of the table of operations and events, with the operands
a row takes from outside (addresses, descriptors, buffers, and readings of pins and rails); and the records those operands
are made of. -/

namespace Sys2Proof

/-- What bring-up or a lane retrain measured on a lane: insertion loss in 1/16 dB in the worse direction, the largest
reflection, and whether the PRBS31Q check passes at each lane rate (R444). -/
structure LaneProbe where
  /-- Signal is present on the lane. -/
  signal   : Bool
  loss     : Nat
  reflSize : Nat
  reflAt   : Nat
  passFull : Bool
  passHalf : Bool
  deriving DecidableEq, Repr

/-- What a link-test checker counts on the two lanes by the time its registers are next read (R572). -/
structure LtSeen where
  /-- LOCKED, by lane. -/
  locked : Nat
  err0   : Nat
  err1   : Nat
  bits0  : Nat
  bits1  : Nat
  deriving DecidableEq, Repr


/-- Which part of a rewrite a REWRITE command stands for (R108): step 1, steps 2 to 5, or all of them. -/
inductive RewritePart where
  | begins | finishes | whole
  deriving DecidableEq, Repr

/-- The fields of a micro-op word below its OPCODE (R218). -/
structure Micro where
  typ  : Nat
  dst  : Nat
  a    : Nat
  b    : Nat
  c    : Nat
  mask : Nat
  imm  : Nat
  deriving DecidableEq, Repr

/-- A firmware program of a PROG_SLOT (R232): its blocks INIT, BODY, END0, END1 and END2, each a list of micro-op words, and its
constants X0 to X11. -/
structure VeProg where
  init   : List W64
  body   : List W64
  end0   : List W64
  end1   : List W64
  end2   : List W64
  consts : List W32
  deriving DecidableEq, Repr

/-- What host memory answers while the HQE fetches one submission entry: the entry, none where the fetch times out (R404); the
descriptors of its input and output buffer descriptor lists in the order they are read, until a read fails; and the input buffer's
bytes, none where a read of them fails (R374, R380). -/
structure HostAnswer where
  entry   : Option (List Byte)
  inList  : List (List Byte)
  outList : List (List Byte)
  data    : Option (List Byte)
  deriving DecidableEq, Repr


/-- What start-up finds: the straps as sampled, image slots that cannot be read, the L-tier sites that answer, L channels that fail
training, L pins found bad, F lanes replaced by a spare and F lanes failing without one (a lane counts 64 for pseudo-channel 1), SCs and
Merge Buffers that fail their start-up test, ports whose link trains, and quads whose reference clock is absent (R312, R333, R427, R548,
R552, R569). -/
structure BootInfo where
  profile   : Nat
  portMode  : Nat
  testMode  : Bool
  badSlots  : List Nat
  sites     : List Nat
  lFailed   : List Nat
  lBad      : List (Nat × Nat)
  fRepaired : List (Nat × Nat)
  fFailing  : List (Nat × Nat)
  scFail    : List Nat
  mbFail    : List Nat
  portsUp   : List Nat
  noQclk    : List Nat
  deriving DecidableEq, Repr

/-- What host memory answers while an admin request is served: the input buffer's bytes, none where a read of them fails; and the
descriptors of the input and output buffer descriptor lists in the order they are read, until a read fails (R380, R406). -/
structure AdminIo where
  data    : Option (List Byte)
  inList  : List (List Byte)
  outList : List (List Byte)
  deriving DecidableEq, Repr

/-- An SPDM request as the responder takes it apart (R438): the version a GET_CAPABILITIES is sent under, whether the algorithms offered
include the supported ones, the certificate slot, the measurement index, and whether a FINISH verifies. -/
inductive SpdmReq where
  | getVersion
  | getCapabilities (version : Nat)
  | negotiateAlgorithms (supported : Bool)
  | getDigests
  | getCertificate (slot : Nat)
  | challenge (slot : Nat)
  | getMeasurements (index : Nat)
  | keyExchange (slot : Nat)
  | finish (verifies : Bool)
  | heartbeat
  | endSession
  | chunkSend
  | chunkGet
  /-- PSK_EXCHANGE, mutual authentication, SET_CERTIFICATE, GET_CSR, KEY_UPDATE, or any other request. -/
  | unsupported
  deriving DecidableEq, Repr

/-- How the responder answers: with its response, or with an ERROR (R438). -/
inductive SpdmAnswer where
  | response
  | errorUnsupported
  /-- An ERROR for a request out of its order, or with a parameter the device does not serve. -/
  | errorOther
  deriving DecidableEq, Repr


/-- A data scan under a boundary instruction, and the state of the carrier's rails (R565, R566): the levels at the pins by cell when the
scan captures, and the values it loads into the update latches. -/
structure BScan where
  /-- The rails of group C, and of group P, are in regulation. -/
  railsC : Bool
  railsP : Bool
  pins   : List (Nat × Bool)
  load   : List (Nat × Bool)
  deriving DecidableEq, Repr

/-- Which path a debug operation takes: the debug window, or the internal address space (R568). -/
inductive DebugPath where
  | window | memory
  deriving DecidableEq, Repr

/-- What a debug operation asks of the shadow MP (R568). -/
inductive MpCommand where
  | halt | step | read
  deriving DecidableEq, Repr
/-- A command: an operation or an event of the table. -/
inductive Instr where
  /-- SYS_PWROK_RISE (R482): Rising edge of SYS_PWROK starts a COLD reset and start-up. -/
  | sysPwrokRise
  /-- SYS_PWROK_FALL (R482): Falling edge of SYS_PWROK holds the device in COLD reset. -/
  | sysPwrokFall
  /-- COLD_RESET (R494): The whole device resets, clearing the memory tiers and all volatile state except the kept always-on records. -/
  | coldReset
  /-- WARM_RESET (R497): A WARM reset begins: fetching stops, contexts are torn down, and controllers flush and put the L-tier in self-refresh. -/
  | warmReset
  /-- WARM_DRAIN_DONE (R497): The WARM drain ends; core, F-tier and link ports reset, or a COLD reset follows if the bound was missed. -/
  | warmDrainDone (missed : Bool) (unfinished : List Nat)
  /-- MP_RESET (R494): One management processor is reset and rejoins as shadow. -/
  | mpReset (mp : Nat)
  /-- RESET_HOLD_RELEASE (R494): After a rail or VCORE reset, all rails back in tolerance for 1 ms release the hold and start-up begins. -/
  | resetHoldRelease
  /-- START_UP (R498): The device resolves straps and profile, boots firmware, trains memory and links, restores geometry and sets READY. -/
  | startUp (b : BootInfo)
  /-- RAIL_FAULT (R483): A rail reading outside tolerance for 10 µs causes a COLD reset or a sideband and fuse refusal. -/
  | railFault (rail mv : Nat)
  /-- VCORE_WARNING_CROSSING (R492): A VCORE rail below its warning level starts or continues a brown-out episode and freezes admission. -/
  | vcoreWarningCrossing (half mv : Nat)
  /-- SUPPLY_WARN_ASSERT (R482): Assertion of SUPPLY_WARN# counts as a brown-out warning crossing of both rails. -/
  | supplyWarnAssert (mv : Nat)
  /-- VCORE_RESET_LEVEL (R492): A VCORE rail below its reset level causes a COLD reset within 100 ns. -/
  | vcoreResetLevel (half mv : Nat)
  /-- BROWNOUT_RECOVERY (R492): Rails above recovery levels for 10 µs lift the admission freeze. -/
  | brownoutRecovery (v0 v1 : Nat)
  /-- BROWNOUT_EPISODE_END (R492): Rails above recovery levels for 1 ms end the episode and raise BROWNOUT_RECOVERED. -/
  | brownoutEpisodeEnd (v0 v1 : Nat)
  /-- QUIESCE (R493): After 5 ms of frozen time the device cuts searches, completes pending commands with QUIESCED and stops background work. -/
  | quiesce (mv : Nat)
  /-- QUIESCE_END (R493): Rails above recovery for 100 ms end the quiesce and resume the data path. -/
  | quiesceEnd (v0 v1 : Nat)
  /-- THERMAL_TRIP (R488): Tj at 115 °C for 1 µs latches THERMTRIP# and holds the device in COLD reset. -/
  | thermalTrip (t : Int)
  /-- THERMAL_TICK (R488): The thermal limit Rtherm is lowered or raised by the Tj thresholds at its 1 ms or 10 ms tick. -/
  | thermalTick (sensors stackTemps : List Int)
  /-- POWER_SAMPLE (R487): Device power is measured every 100 µs into the 10 ms mean. -/
  | powerSample (adc : List Nat) (v0 v1 : Nat) (amps : List Nat)
  /-- ENVELOPE_TICK (R487): Every 1 ms the envelope limit Renv falls or rises by the power rule. -/
  | envelopeTick
  /-- AVL_TICK (R484): Every 10 µs each half's AVL raises, lowers or holds its VCORE setpoint. -/
  | avlTick (half : Nat) (counts : List Nat) (vread iread : Nat)
  /-- PACE_DEFICIT (R486): A half at 0.85 V below the floor rate for 100 µs raises a pace deficit and suspends bounded admission. -/
  | paceDeficit (half : Nat)
  /-- PACE_DEFICIT_DEGRADED (R486): A pace deficit lasting 100 ms sets DEGRADED cause PACE_DEFICIT. -/
  | paceDeficitDegraded (half : Nat)
  /-- PACE_RESTORED (R486): The measured rate at or above the floor for 1 s clears the deficit. -/
  | paceRestored (half : Nat)
  /-- MEMREFCLK_LOSS (R552): A missing or off-frequency MEMREFCLK holds the device in COLD reset. -/
  | memrefclkLoss
  /-- MEMREFCLK_RETURN (R552): MEMREFCLK back for 100 µs acts as a rising edge of SYS_PWROK. -/
  | memrefclkReturn
  /-- PE_REFCLK_LOSS (R552): Loss of PE_REFCLK takes every PCIe link down. -/
  | peRefclkLoss
  /-- QCLK_LOSS (R552): Loss of a quad reference clock drops both links of the quad. -/
  | qclkLoss (m : Nat)
  /-- QCLK_RETURN (R552): A quad clock back for 1 ms lets its links train again. -/
  | qclkReturn (m : Nat)
  /-- HEALTH_WORD_WRITE (R499): An MP writes its health word to the Stitch Arbiter. -/
  | healthWordWrite (mp : Nat) (w : W32)
  /-- HOLDER_FAILURE (R500): The holder's health word reports failure and the shadow takes the Ensign. -/
  | holderFailure
  /-- DOUBLE_CLAIM (R500): A double claim of the Ensign fences both MPs and holds the mailboxes. -/
  | doubleClaim
  /-- ENSIGN_FENCE_END (R500): At the end of the fence the senior MP takes the Ensign and the other is reset. -/
  | ensignFenceEnd
  /-- SHADOW_FAILURE (R500): The shadow's health word reports failure and the shadow is reset. -/
  | shadowFailure
  /-- ENSIGN_VACANT (R500): No MP holds the Ensign for 100 ms, so both MPs are reset, or after three times a WARM reset follows. -/
  | ensignVacant
  /-- SQ_TAIL_DOORBELL (R372): A write of a queue pair's SQ_TAIL doorbell makes entries available or puts the pair in ERROR. -/
  | sqTailDoorbell (f q v : Nat)
  /-- CQ_HEAD_DOORBELL (R401): A write of CQ_HEAD frees completion slots and restarts the coalescing timer. -/
  | cqHeadDoorbell (f q v : Nat)
  /-- SQE_FETCH (R374): The HQE fetches a submission entry when credit, room and arbitration allow, and checks it. -/
  | sqeFetch (f q : Nat) (host : HostAnswer)
  /-- SEARCH (R118): A single-vector k-nearest search through stages A to E. -/
  | search (stamp : Nat)
  /-- MSEARCH (R148): A multi-vector search cut into chunks and combined by MAX or SUM. -/
  | msearch (stamp : Nat)
  /-- RANGE (R150): A search whose final selection drops entries below a score threshold. -/
  | range (stamp : Nat)
  /-- GET (R384): Reads a vector's location, attributes and optionally codes by ID. -/
  | get (stamp : Nat)
  /-- INSERT (R386): Adds a new vector to the delta segment and ID map, or fails with ID_EXISTS. -/
  | insert (stamp : Nat)
  /-- UPSERT (R386): Writes a new delta entry and supersedes or tombstones any old copy. -/
  | upsert (stamp : Nat)
  /-- DELETE (R386): Tombstones or deletes a vector and vacates its ID map entry. -/
  | delete (stamp : Nat)
  /-- ATTR_SET (R386): Replaces selected attribute words where the vector lies. -/
  | attrSet (stamp : Nat)
  /-- FENCE (R389): Orders commands of its scope and holds its queue pair until they complete. -/
  | fence (stamp : Nat)
  /-- WRITE_ACCEPTANCE (R393): A write is accepted on its index in arrival order once earlier writes of its queue pair are accepted. -/
  | writeAcceptance (stamp : Nat)
  /-- WRITE_COMPLETION (R386): A write's completion is posted once its memory effects have been accepted. -/
  | writeCompletion (stamp : Nat)
  /-- FENCE_COMPLETION (R389): The FENCE completes once every command of its set, and with SETTLE every merge, has finished. -/
  | fenceCompletion (stamp : Nat)
  /-- INTERRUPT_COALESCE_TIMER (R401): A completion that has waited AGG_TIME sends the CQ's MSI-X message. -/
  | interruptCoalesceTimer (f q : Nat)
  /-- HOST_LOSS (R402): PERST#, hot reset, link disable or surprise-down deletes every queue pair of the port's functions. -/
  | hostLoss (p : Nat)
  /-- PORT_RETRAIN (R402): After the link returns the port's functions return to their reset state. -/
  | portRetrain (p : Nat)
  /-- BUS_MASTER_ENABLE_CLEAR (R402): Clearing Bus Master Enable stops fetching and holds host writes and messages for the function. -/
  | busMasterEnableClear (f : Nat)
  /-- BUS_MASTER_ENABLE_SET (R402): Setting Bus Master Enable releases the held writes and pending messages in order. -/
  | busMasterEnableSet (f : Nat)
  /-- FUNCTION_LEVEL_RESET (R403): An FLR or VF disable tears down the function, its queue pairs, log configuration and MSI-X state. -/
  | functionLevelReset (f : Nat)
  /-- HOIST_BOUNDARY (R338): At a burgee's Hoist boundary the candidate set closes, views publish and candidates are admitted. -/
  | hoistBoundary (b : Nat)
  /-- STAGE_START (R118): A stage's hoist tasks start once their inputs exist. -/
  | stageStart (stamp stage : Nat)
  /-- DIP_POINT_SCHEDULE (R341): At a dip point an SC chooses the next unit by rank and deficit round robin. -/
  | dipPointSchedule (sc cycles need : Nat) (usesVe : Bool) (tiles : List Nat)
  /-- SPILL_DONE (R355): When spill writes are accepted the preempting unit starts. -/
  | spillDone (sc : Nat)
  /-- CONTEXT_FILL (R355): A spilled victim's state returns to its banks and it resumes from its dip point. -/
  | contextFill (ctx : Nat)
  /-- UNIT_END (R160): A finished unit sends its list and record to the owning half's Merge Buffer. -/
  | unitEnd (stamp vec unit : Nat) (blocks : Option Nat)
  /-- FOLD_STEP (R161): The Merge Buffer folds the next unit or shard list in ascending order. -/
  | foldStep (stamp vec : Nat)
  /-- FINAL_SELECTION (R164): Stage E selects k entries, computes counts and mass sums, writes the result and posts the completion. -/
  | finalSelection (stamp : Nat)
  /-- DEADLINE_CUT (R152): At the deadline instant a command's tasks are stopped and remote requests cancelled. -/
  | deadlineCut (stamp : Nat)
  /-- REMOTE_LISTS_CLOSE (R152): At TD plus 25 µs missing shard lists are counted missing. -/
  | remoteListsClose (stamp : Nat)
  /-- LOCKSTEP_MISMATCH (R176): A lockstep pair mismatch discards the step and re-runs it, or takes the unit out of service. -/
  | lockstepMismatch (merge : Bool) (n who : Nat)
  /-- TAG_MISMATCH (R208): A block sequence tag mismatch restarts the stream, or tears the context down with SCALE_SKEW. -/
  | tagMismatch (sc ctx : Nat) (fAddr : Option Nat)
  /-- UNCORRECTABLE_READ (R262): An uncorrectable read poisons its slot and restarts the stream, or tears the context down. -/
  | uncorrectableRead (sc x : Nat)
  /-- TRANSFER_TIMEOUT (R262): A transfer outstanding for 400 µs is treated as uncorrectable. -/
  | transferTimeout (sc x : Nat)
  /-- TAG_LIMITED_EXIT (R255): An STE in recovery returns to service mode after 1 ms without a further event. -/
  | tagLimitedExit (sc ste : Nat)
  /-- PROGRESS_SAMPLE (R265): Every 1 µs the progress monitor rebuilds its wait-for graph and acts on cycles blocked for 50 µs. -/
  | progressSample (sc : Nat)
  /-- REMOTE_REPLY_ARRIVAL (R358): A reply is written to its slot or spill copy, or dropped when cancelled. -/
  | remoteReplyArrival (src tag : Nat) (bytes : List Byte)
  /-- BACKGROUND_REPLY_TIMEOUT (R358): A background remote request unanswered for 10 ms abandons its task. -/
  | backgroundReplyTimeout (tag : Nat)
  /-- ME_SCORE (R188): ME descriptor scoring centroids, delta entries or refine codes. -/
  | meScore (sc : Nat) (desc : List Byte)
  /-- ME_TABLE (R189): ME descriptor building PQ tables. -/
  | meTable (sc : Nat) (desc : List Byte)
  /-- ME_DENSE (R215): ME descriptor running a DENSE layer of the resident model. -/
  | meDense (sc : Nat) (desc : List Byte)
  /-- ME_TRAIN (R283): ME descriptor running a training matrix product. -/
  | meTrain (sc : Nat) (desc : List Byte)
  /-- SCAN_PQ (R193): CE pass scoring a slot block's PQ codes against up to 4 table sets. -/
  | scanPq (sc : Nat) (desc : List Byte)
  /-- SCAN_HAM (R193): CE pass scoring codes by Hamming distance against up to 4 query codes. -/
  | scanHam (sc : Nat) (desc : List Byte)
  /-- GATHER_PQ (R193): CE pass scoring gathered PQ codes for up to 4 requests. -/
  | gatherPq (sc : Nat) (desc : List Byte)
  /-- GATHER_HAM (R193): CE pass scoring gathered sketches for up to 8 requests. -/
  | gatherHam (sc : Nat) (desc : List Byte)
  /-- WALK_LEVEL0 (R134): WE context running a level-0 graph walk. -/
  | walkLevel0 (sc : Nat) (desc : List Byte)
  /-- WALK_CENTROID (R128): WE context walking the centroid graph by sketch key. -/
  | walkCentroid (sc : Nat) (desc : List Byte)
  /-- WALK_UPPER_DESCENT (R129): WE context descending the upper layers to the level-0 entry node. -/
  | walkUpperDescent (sc : Nat) (desc : List Byte)
  /-- EXPANSION_COMMIT (R137): A completed expansion commits to the beam, visited set and result list, or is squashed. -/
  | expansionCommit (sc ctx unit : Nat)
  /-- FU_SLOT_BLOCK (R204): FU descriptor forming admission masks for slot-block candidates. -/
  | fuSlotBlock (sc : Nat) (desc : List Byte)
  /-- FU_DELTA (R204): FU descriptor forming admission masks for delta entries. -/
  | fuDelta (sc : Nat) (desc : List Byte)
  /-- FU_NODE_RECORDS (R204): FU descriptor forming admission masks for graph nodes. -/
  | fuNodeRecords (sc : Nat) (desc : List Byte)
  /-- FU_CELL_SUMMARIES (R206): FU descriptor computing summary verdicts per cell. -/
  | fuCellSummaries (sc : Nat) (desc : List Byte)
  /-- VE_RUN (R231): VE descriptor running a firmware program over its loops and ports. -/
  | veRun (sc : Nat) (desc : List Byte) (prog : Option VeProg)
  /-- VE_MOV (R220): Micro-op moving a value. -/
  | veMov (sc ctx : Nat) (m : Micro)
  /-- VE_ADD (R220): Micro-op adding. -/
  | veAdd (sc ctx : Nat) (m : Micro)
  /-- VE_SUB (R220): Micro-op subtracting. -/
  | veSub (sc ctx : Nat) (m : Micro)
  /-- VE_MUL (R220): Micro-op multiplying. -/
  | veMul (sc ctx : Nat) (m : Micro)
  /-- VE_FMA (R220): Micro-op fused multiply-add with one rounding. -/
  | veFma (sc ctx : Nat) (m : Micro)
  /-- VE_MIN (R221): Micro-op minimum. -/
  | veMin (sc ctx : Nat) (m : Micro)
  /-- VE_MAX (R221): Micro-op maximum. -/
  | veMax (sc ctx : Nat) (m : Micro)
  /-- VE_ABS (R220): Micro-op absolute value. -/
  | veAbs (sc ctx : Nat) (m : Micro)
  /-- VE_NEG (R220): Micro-op negation. -/
  | veNeg (sc ctx : Nat) (m : Micro)
  /-- VE_DIV (R222): Micro-op division. -/
  | veDiv (sc ctx : Nat) (m : Micro)
  /-- VE_EXPO (R220): Micro-op extracting floor log2 of a value. -/
  | veExpo (sc ctx : Nat) (m : Micro)
  /-- VE_SCALB (R220): Micro-op scaling by a power of two. -/
  | veScalb (sc ctx : Nat) (m : Micro)
  /-- VE_RCP (R222): Micro-op reciprocal. -/
  | veRcp (sc ctx : Nat) (m : Micro)
  /-- VE_RSQRT (R222): Micro-op reciprocal square root. -/
  | veRsqrt (sc ctx : Nat) (m : Micro)
  /-- VE_SQRT (R222): Micro-op square root. -/
  | veSqrt (sc ctx : Nat) (m : Micro)
  /-- VE_EXP2 (R222): Micro-op power of two. -/
  | veExp2 (sc ctx : Nat) (m : Micro)
  /-- VE_LOG2 (R222): Micro-op base-2 logarithm. -/
  | veLog2 (sc ctx : Nat) (m : Micro)
  /-- VE_TANH (R222): Micro-op hyperbolic tangent. -/
  | veTanh (sc ctx : Nat) (m : Micro)
  /-- VE_RELU (R223): Micro-op ReLU activation. -/
  | veRelu (sc ctx : Nat) (m : Micro)
  /-- VE_GELU_TANH (R223): Micro-op GELU activation by the tanh form. -/
  | veGeluTanh (sc ctx : Nat) (m : Micro)
  /-- VE_SILU (R223): Micro-op SiLU activation. -/
  | veSilu (sc ctx : Nat) (m : Micro)
  /-- VE_SIGMOID (R223): Micro-op sigmoid activation. -/
  | veSigmoid (sc ctx : Nat) (m : Micro)
  /-- VE_CMPEQ (R221): Micro-op writing an equality mask. -/
  | veCmpeq (sc ctx : Nat) (m : Micro)
  /-- VE_CMPLT (R221): Micro-op writing a less-than mask. -/
  | veCmplt (sc ctx : Nat) (m : Micro)
  /-- VE_CMPLE (R221): Micro-op writing a less-or-equal mask. -/
  | veCmple (sc ctx : Nat) (m : Micro)
  /-- VE_CMPUN (R220): Micro-op writing an unordered (NaN) mask. -/
  | veCmpun (sc ctx : Nat) (m : Micro)
  /-- VE_SEL (R220): Micro-op selecting by mask. -/
  | veSel (sc ctx : Nat) (m : Micro)
  /-- VE_CVT (R224): Micro-op converting between formats as IMM selects. -/
  | veCvt (sc ctx : Nat) (m : Micro)
  /-- VE_ATTRF (R226): Micro-op reading a candidate attribute field as FP32. -/
  | veAttrf (sc ctx : Nat) (m : Micro)
  /-- VE_AND (R220): Micro-op bitwise and. -/
  | veAnd (sc ctx : Nat) (m : Micro)
  /-- VE_OR (R220): Micro-op bitwise or. -/
  | veOr (sc ctx : Nat) (m : Micro)
  /-- VE_XOR (R220): Micro-op bitwise exclusive or. -/
  | veXor (sc ctx : Nat) (m : Micro)
  /-- VE_SHL (R220): Micro-op left shift. -/
  | veShl (sc ctx : Nat) (m : Micro)
  /-- VE_SHR (R220): Micro-op logical right shift. -/
  | veShr (sc ctx : Nat) (m : Micro)
  /-- VE_SHFX (R227): Micro-op exchanging values between lanes by XOR distance. -/
  | veShfx (sc ctx : Nat) (m : Micro)
  /-- VE_SHFI (R227): Micro-op gathering values from indexed lanes. -/
  | veShfi (sc ctx : Nat) (m : Micro)
  /-- VE_BCASTL (R227): Micro-op broadcasting one lane to all lanes. -/
  | veBcastl (sc ctx : Nat) (m : Micro)
  /-- VE_XMAC (R225): Micro-op adding an exact product to the lane accumulator. -/
  | veXmac (sc ctx : Nat) (m : Micro)
  /-- VE_XCLOSE (R225): Micro-op rounding and clearing the exact accumulator. -/
  | veXclose (sc ctx : Nat) (m : Micro)
  /-- VE_LDL (R220): Micro-op loading a tile-buffer line. -/
  | veLdl (sc ctx : Nat) (m : Micro)
  /-- VE_STL (R220): Micro-op storing a tile-buffer line. -/
  | veStl (sc ctx : Nat) (m : Micro)
  /-- STREAM_IN (R245): Stream descriptor moving memory into a ring. -/
  | streamIn (sc ste : Nat) (prog : List W64) (desc : List Byte)
  /-- STREAM_OUT (R245): Stream descriptor moving a ring to memory or a link. -/
  | streamOut (sc ste : Nat) (prog : List W64) (desc : List Byte)
  /-- STREAM_COPY (R245): Stream descriptor copying memory to memory. -/
  | streamCopy (sc ste : Nat) (prog : List W64) (desc : List Byte)
  /-- MCAST_IN (R259): Stream descriptor multicasting memory to the rings of several SCs. -/
  | mcastIn (sc ste : Nat) (prog : List W64) (desc : List Byte)
  /-- AP_SETI (R249): Address-program instruction setting a register to an immediate. -/
  | apSeti (sc id : Nat)
  /-- AP_ADDI (R249): Address-program instruction adding an immediate. -/
  | apAddi (sc id : Nat)
  /-- AP_ADD (R249): Address-program instruction adding two registers. -/
  | apAdd (sc id : Nat)
  /-- AP_MULI (R249): Address-program instruction multiplying by an immediate. -/
  | apMuli (sc id : Nat)
  /-- AP_SHRI (R249): Address-program instruction shifting right. -/
  | apShri (sc id : Nat)
  /-- AP_ANDI (R249): Address-program instruction masking with an immediate. -/
  | apAndi (sc id : Nat)
  /-- AP_CTR (R249): Address-program instruction reading a loop counter. -/
  | apCtr (sc id : Nat)
  /-- AP_LOOP (R249): Address-program instruction opening a loop level. -/
  | apLoop (sc id : Nat)
  /-- AP_ENDL (R249): Address-program instruction closing or repeating a loop level. -/
  | apEndl (sc id : Nat)
  /-- AP_IDX (R249): Address-program instruction taking the next index-ring entry, waiting while it is empty. -/
  | apIdx (sc id : Nat)
  /-- AP_LDM (R249): Address-program instruction issuing a dependent read of a 64-bit word. -/
  | apLdm (sc id : Nat)
  /-- LDM_RETURN (R249): The word of an LDM returns and the program continues. -/
  | ldmReturn (sc id : Nat)
  /-- AP_XFER (R249): Address-program instruction issuing one transfer. -/
  | apXfer (sc id : Nat)
  /-- AP_XFERA (R249): Address-program instruction issuing an NMA operation. -/
  | apXfera (sc id : Nat)
  /-- AP_SLOT (R249): Address-program instruction closing the current slot and claiming the next. -/
  | apSlot (sc id : Nat)
  /-- AP_FENCE (R249): Address-program instruction waiting for all issued transfers. -/
  | apFence (sc id : Nat)
  /-- AP_END (R249): Address-program instruction ending the stream. -/
  | apEnd (sc id : Nat)
  /-- TRANSFER_COMPLETE (R243): A transfer completes and its slot enters FULL in order when filled. -/
  | transferComplete (sc x : Nat)
  /-- ADD_I32 (R329): NMA INT32 addition. -/
  | addI32 (own : Bool) (b a : Nat) (operand : List Byte)
  /-- ADD_I64 (R329): NMA INT64 addition. -/
  | addI64 (own : Bool) (b a : Nat) (operand : List Byte)
  /-- ADD_F32 (R329): NMA FP32 addition. -/
  | addF32 (own : Bool) (b a : Nat) (operand : List Byte)
  /-- ADD_BF16 (R329): NMA packed BF16 addition. -/
  | addBf16 (own : Bool) (b a : Nat) (operand : List Byte)
  /-- NMA_OR (R329): NMA bitwise or. -/
  | nmaOr (own : Bool) (b a : Nat) (operand : List Byte)
  /-- NMA_AND (R329): NMA bitwise and. -/
  | nmaAnd (own : Bool) (b a : Nat) (operand : List Byte)
  /-- MAX_U64 (R329): NMA unsigned maximum. -/
  | maxU64 (own : Bool) (b a : Nat) (operand : List Byte)
  /-- MAX_I32 (R329): NMA signed maximum. -/
  | maxI32 (own : Bool) (b a : Nat) (operand : List Byte)
  /-- MAX_F32 (R329): NMA FP32 maximum. -/
  | maxF32 (own : Bool) (b a : Nat) (operand : List Byte)
  /-- TADD_F32 (R331): NMA tagged FP32 addition applied in contributor order or held. -/
  | taddF32 (own : Bool) (b a n : Nat) (operand : List Byte)
  /-- TSKIP (R331): NMA advance of a tagged block's expected contributor without adding. -/
  | tskip (own : Bool) (b a n : Nat)
  /-- TRESET (R331): NMA opening of a tagged accumulator block. -/
  | treset (own : Bool) (b a n : Nat)
  /-- RETRAIN_TRIGGER (R321): A retrain trigger arises and waits until a window may start. -/
  | retrainTrigger (chan kind : Nat)
  /-- OSCILLATOR_DRIFT_SAMPLE (R321): Every 1 ms a channel's interval oscillator drift is measured. -/
  | oscillatorDriftSample (chan drift limit : Nat)
  /-- RETRAIN_WINDOW_START (R324): A retrain window starts and the channel drains into RETRAIN. -/
  | retrainWindowStart (chan : Nat)
  /-- RETRAIN_DRAIN_DONE (R324): The drain completes and JEDEC training begins. -/
  | retrainDrainDone (chan : Nat)
  /-- RETRAIN_TRAINING_DONE (R324): Training succeeds and the channel enters REPLAY. -/
  | retrainTrainingDone (chan : Nat) (bad : List Nat)
  /-- RETRAIN_WINDOW_EXPIRY (R324): At 2 ms previous values are restored, or the channel becomes FAILED. -/
  | retrainWindowExpiry (chan : Nat) (restored : Bool)
  /-- JOURNAL_REPLAY_DONE (R324): The journal is empty and the channel returns to IN_SERVICE. -/
  | journalReplayDone (chan : Nat)
  /-- ROW_REBUILD (R322): A row read on an out channel is rebuilt from its stripe after a wait of up to 1 µs. -/
  | rowRebuild (chan row : Nat)
  /-- STRIPE_ENTRY_LAPSE (R322): A Stripe Accumulator entry lapses 8 µs after its last use. -/
  | stripeEntryLapse (group row : Nat)
  /-- UNCORRECTABLE_ROW_REPAIR (R319): An uncorrectable row is rebuilt from its stripe and rewritten, or reported uncorrectable. -/
  | uncorrectableRowRepair (chan row : Nat) (read rebuilt : List (Nat × Nat × Nat))
  /-- LANE_FAILURE (R312): An F-tier lane that fails at run time is marked for lane-erasure mode. -/
  | laneFailure (chan lane : Nat)
  /-- PATROL_SCRUB (R319): Patrol scrub reads, corrects and rewrites rows at pennant 0. -/
  | patrolScrub (chan row : Nat) (read rebuilt : List (Nat × Nat × Nat))
  /-- FAILED_CHANNEL_REBUILD (R325): After a successful retrain a failed channel is rebuilt row by row and returns to service. -/
  | failedChannelRebuild (chan rows : Nat)
  /-- REFRESH_SAMPLE_L (R327): Every 4 ms each L-tier package's MR4 sets its refresh rate. -/
  | refreshSampleL (package rate : Nat) (isOver : Bool)
  /-- REFRESH_SAMPLE_F (R327): Every 1 ms each HBM4 stack temperature sets its refresh rate. -/
  | refreshSampleF (stack : Nat) (temp : Int) (isOver : Bool)
  /-- WCB_FLUSH (R328): A partial-row WCB entry is flushed by read-modify-write within 8 µs of its first write. -/
  | wcbFlush (chan key : Nat)
  /-- PLACEMENT_PERIOD_END (R335): At the end of a placement period units are ranked and marked for fill or eviction. -/
  | placementPeriodEnd (b : Nat)
  /-- PLACEMENT_FILL_DONE (R336): A fill's writes are accepted and its placement entry becomes valid. -/
  | placementFillDone (i unit : Nat)
  /-- PLACEMENT_SPACE_RELEASE (R115): F-tier space of a left entry returns to the pool after its view is released. -/
  | placementSpaceRelease (b fAddr : Nat)
  /-- MERGE_PASS (R98): A merge pass places live delta entries into cells or graph nodes. -/
  | mergePass (i : Nat) (lost : List Nat)
  /-- COMPACTION_PASS (R95): A compaction pass records the tombstoned slots of a cell and its view. -/
  | compactionPass (i n : Nat)
  /-- SLOT_FREE_RELEASE (R95): Tombstoned slots become free once the compaction view is released. -/
  | slotFreeRelease (i n : Nat)
  /-- REWRITE (R108): A re-encode or relocation copies a unit and cuts it over. -/
  | rewrite (i unit : Nat) (part : RewritePart) (reencode : Bool) (newCap : Nat)
  /-- PREV_COPY_FREE (R108): The previous copy is freed once its CUT_VIEW is released. -/
  | prevCopyFree (i unit : Nat)
  /-- REWRITE_RETRY (R110): An abandoned rewrite is retried no sooner than 10 ms later. -/
  | rewriteRetry (i unit : Nat)
  /-- CODEBOOK_FREE (R109): The old codebook set is freed after the last cut-over view is released. -/
  | codebookFree (i : Nat)
  /-- SETTLE_SWEEP (R81): A settle sweep writes released stored views to 0. -/
  | settleSweep (i : Nat)
  /-- ID_MAP_TIDY (R87): A tidy rewrites one run of the ID map so vacated entries become empty. -/
  | idMapTidy (i b : Nat)
  /-- DELTA_TAIL_ADVANCE (R106): DELTA_TAIL advances over released non-live entries. -/
  | deltaTailAdvance (i : Nat)
  /-- JOB_STEP (R283): A training job runs one step of forward, backward and optimiser work. -/
  | jobStep (no : Nat)
  /-- CHECKPOINT (R295): A checkpoint is written to the L-tier after CKPT_INTERVAL steps. -/
  | checkpoint (no : Nat)
  /-- JOB_PUBLISH (R297): After its last step a job evaluates and publishes its result. -/
  | jobPublish (no : Nat)
  /-- MAILBOX_TAIL_WRITE (R532): A write of MB_TAIL submits requests or sets OVERFLOW. -/
  | mailboxTailWrite (f v : Nat)
  /-- MAILBOX_HEAD_WRITE (R532): A write of MB_HEAD consumes completed responses. -/
  | mailboxHeadWrite (f v : Nat)
  /-- MAILBOX_REQUEST_WRITE (R532): A write of a request slot, discarded while the slot holds an outstanding request. -/
  | mailboxRequestWrite (f off : Nat) (bs : List Byte)
  /-- SIDEBAND_REQUEST (R408): An admin request arrives over MCTP at the sideband mailbox. -/
  | sidebandRequest (req data : List Byte) (secured : Bool)
  /-- SPDM_REQUEST (R438): An SPDM request is answered by the device's responder. -/
  | spdmRequest (r : SpdmReq)
  /-- ADMIN_REQUEST_START (R409): The Ensign holder starts the next mailbox request. -/
  | adminRequestStart
  /-- SHED_WINDOW_END (R420): At each 10 ms window end a shedding step engages or releases. -/
  | shedWindowEnd (load : Nat)
  /-- IDENTIFY (R411): Admin command returning the device identity. -/
  | identify (mb slot : Nat) (io : AdminIo)
  /-- GET_LOG_PAGE (R414): Admin command returning a log page, optionally clearing counters. -/
  | getLogPage (mb slot : Nat) (io : AdminIo)
  /-- GET_FEATURE (R416): Admin command returning a feature value. -/
  | getFeature (mb slot : Nat) (io : AdminIo)
  /-- SET_FEATURE (R416): Admin command setting a feature value. -/
  | setFeature (mb slot : Nat)
  /-- ASYNC_EVENT_REQUEST (R413): Admin request held until an event is delivered into its response. -/
  | asyncEventRequest (mb slot : Nat)
  /-- CREATE_QP (R370): Admin command creating a queue pair. -/
  | createQp (mb slot : Nat) (io : AdminIo)
  /-- DELETE_QP (R371): Admin command tearing down and deleting a queue pair. -/
  | deleteQp (mb slot : Nat)
  /-- CONFIGURE_FUNCTION (R411): Admin command assigning a function's burgee, permissions, QP_MAX and MSI-X size. -/
  | configureFunction (mb slot : Nat)
  /-- RESET (R495): Admin command requesting a COLD, WARM or SHADOW_MP reset. -/
  | reset (mb slot : Nat)
  /-- WRITE_GEOMETRY (R434): Admin command writing BURGEE_GEOMETRY as a counted setting. -/
  | writeGeometry (mb slot : Nat) (io : AdminIo)
  /-- GEOMETRY_DEFERRED (R434): A geometry write not accepted at a boundary within 1 s is abandoned with BUSY_RETRY. -/
  | geometryDeferred
  /-- SET_BURGEE_KEYS (R437): Admin command drawing new keys for a burgee as a crypto-erase FORMAT. -/
  | setBurgeeKeys (mb slot : Nat)
  /-- CREATE_INDEX (R417): Admin command creating an index from its specification, centroids and codebook. -/
  | createIndex (mb slot : Nat) (io : AdminIo)
  /-- DELETE_INDEX (R417): Admin command deleting an index and ending its commands and jobs. -/
  | deleteIndex (mb slot : Nat)
  /-- LOAD_FILTER (R418): Admin command loading a filter program. -/
  | loadFilter (mb slot : Nat) (io : AdminIo)
  /-- UNLOAD_FILTER (R418): Admin command unloading a filter program. -/
  | unloadFilter (mb slot : Nat)
  /-- LOAD_TRANSFORM (R418): Admin command loading or removing a score transform. -/
  | loadTransform (mb slot : Nat) (io : AdminIo)
  /-- LOAD_ADAPTER (R418): Admin command loading or removing a query adapter. -/
  | loadAdapter (mb slot : Nat) (io : AdminIo)
  /-- LOAD_MODEL (R418): Admin command loading the resident model. -/
  | loadModel (mb slot : Nat) (io : AdminIo)
  /-- UNLOAD_MODEL (R418): Admin command removing the resident model. -/
  | unloadModel (mb slot : Nat)
  /-- STAGE_DATA (R418): Admin command reserving, writing or freeing a staged area. -/
  | stageData (mb slot : Nat) (io : AdminIo)
  /-- RETRAIN_CHANNEL (R321): Admin command requesting a retrain window for a channel. -/
  | retrainChannel (mb slot : Nat)
  /-- SUBMIT_JOB (R419): Admin command submitting a training job. -/
  | submitJob (mb slot : Nat) (io : AdminIo)
  /-- STOP_JOB (R419): Admin command ending a job at its present step. -/
  | stopJob (mb slot : Nat)
  /-- RESUME_JOB (R419): Admin command restarting a stopped job from its checkpoint. -/
  | resumeJob (mb slot : Nat)
  /-- PUBLISH_JOB (R419): Admin command publishing a held job result. -/
  | publishJob (mb slot : Nat)
  /-- DISCARD_JOB (R419): Admin command freeing a job's result, checkpoints and reservation. -/
  | discardJob (mb slot : Nat)
  /-- SELF_TEST (R421): Admin command starting a SHORT or EXTENDED self-test. -/
  | selfTest (mb slot : Nat)
  /-- ABORT_SELF_TEST (R422): Admin command ending the running self-test as ABORTED. -/
  | abortSelfTest (mb slot : Nat)
  /-- SEGMENT_START (R422): A self-test segment starts when its resource is idle. -/
  | segmentStart (test res : Nat)
  /-- SEGMENT_YIELD (R422): A segment stops and returns its resource when host work arrives. -/
  | segmentYield (test res : Nat)
  /-- SEGMENT_DONE (R423): A segment completes, recording pass or failure. -/
  | segmentDone (test res : Nat) (pass repaired : Bool) (subtest : Nat) (detail : W64)
  /-- FORMAT (R424): Admin command deleting a scope's indexes and erasing its granules. -/
  | format (mb slot : Nat)
  /-- SANITISE (R424): Admin command erasing the whole device, or ending a failed sanitise. -/
  | sanitise (mb slot : Nat)
  /-- SANITISE_PROGRESS (R425): Each 64 GiB overwritten is journalled. -/
  | sanitiseProgress
  /-- SANITISE_COMPLETE (R425): All sanitise work is done; COMPLETE is journalled and SANITISE_DONE raised. -/
  | sanitiseComplete
  /-- SANITISE_FAILURE (R425): A failure during overwrite leaves the device in the sanitise-failed state. -/
  | sanitiseFailure
  /-- FW_DOWNLOAD (R430): Admin command placing an image piece in the staging area. -/
  | fwDownload (mb slot : Nat) (io : AdminIo)
  /-- FW_COMMIT (R430): Admin command checking and writing a staged image to a slot. -/
  | fwCommit (mb slot : Nat)
  /-- FW_ACTIVATE (R431): Admin command activating a slot live or at the next reset. -/
  | fwActivate (mb slot : Nat)
  /-- SHADOW_READY (R431): The shadow has booted the new image and the Ensign moves to it. -/
  | shadowReady
  /-- PROBATION_END (R431): After 60 s of good health the former holder resets into the new image. -/
  | probationEnd
  /-- FW_ROLLBACK (R432): Admin command activating the other valid slot live. -/
  | fwRollback (mb slot : Nat)
  /-- BOOT_HEALTH_TIMEOUT (R432): A boot that misses health within 60 s resets into the other valid slot. -/
  | bootHealthTimeout
  /-- WRITE_COUNTED (R434): Admin command writing a counted setting through the ledger and fuses. -/
  | writeCounted (mb slot : Nat)
  /-- DEBUG_UNLOCK (R441): Admin command issuing a nonce or opening debug access with a signed token. -/
  | debugUnlock (mb slot : Nat) (io : AdminIo)
  /-- SHOAL_FORM (R478): Shoal command setting SHOAL_ID, geometry and key. -/
  | shoalForm (mb slot : Nat) (io : AdminIo)
  /-- SHOAL_JOIN (R478): Shoal command admitting a hailing device on a position. -/
  | shoalJoin (mb slot : Nat) (io : AdminIo)
  /-- SHOAL_LEAVE (R478): Shoal command moving a device's shards and marking it LOST. -/
  | shoalLeave (mb slot : Nat) (io : AdminIo)
  /-- SHOAL_SET_ROLES (R478): Shoal command setting a position's roles. -/
  | shoalSetRoles (mb slot : Nat) (io : AdminIo)
  /-- SHOAL_CREATE_INDEX (R478): Shoal command creating a shoal index with its maps. -/
  | shoalCreateIndex (mb slot : Nat) (io : AdminIo)
  /-- SHOAL_MOVE_CELLS (R478): Shoal command moving cells between devices. -/
  | shoalMoveCells (mb slot : Nat) (io : AdminIo)
  /-- LINK_CONTROL (R478): Shoal command retraining, holding, releasing or rate-capping a link. -/
  | linkControl (mb slot : Nat)
  /-- LINK_BRING_UP (R444): A link detects signal, probes, chooses a rate, equalises and locks. -/
  | linkBringUp (link : Nat) (p0 p1 : LaneProbe) (partnerFull : Bool) (delay : Nat) (active : Bool)
  /-- LINK_TRAIN_TIMEOUT (R444): A link not up within its bound counts a failure and restarts. -/
  | linkTrainTimeout (link : Nat)
  /-- HAIL_SEND (R444): Each lane sends a HAIL flit every 100 µs. -/
  | hailSend (link lane : Nat)
  /-- HAIL_RECEIVED (R447): A partner's hail is judged and the link becomes UP or HELD. -/
  | hailReceived (link : Nat) (payload : List Byte)
  /-- MARGIN_WINDOW (R445): Every 1 ms each lane is classed GOOD, LOW or CRITICAL. -/
  | marginWindow (link lane worst : Nat) (uncorrectable : Bool)
  /-- LANE_RETRAIN_DONE (R445): A retrained lane returns to service. -/
  | laneRetrainDone (link lane : Nat) (probe : LaneProbe)
  /-- TXEQ (R445): A partner's request for a transmitter tap change is applied. -/
  | txeq (link lane change : Nat)
  /-- REPLAY_REQ (R455): A replay request makes the transmitter resend from the named SEQ. -/
  | replayReq (link seq : Nat)
  /-- KEEPALIVE_SEND (R456): A KEEPALIVE flit is sent every 10 µs on each lane. -/
  | keepaliveSend (link lane : Nat)
  /-- KEEPALIVE_MISSED (R456): No valid keep-alive for 30 µs drops the link. -/
  | keepaliveMissed (link : Nat)
  /-- LOSS_OF_SIGNAL (R456): Loss of signal on every lane drops the link. -/
  | lossOfSignal (link : Nat) (lanes : Nat)
  /-- ENTRY_REQUEST (R469): Message asking a holder to run stage A. -/
  | entryRequest (src tag : Nat) (resent : Bool) (payload : List Byte)
  /-- ENTRY_REPLY (R469): Message naming the shard devices chosen. -/
  | entryReply (src tag : Nat) (resent : Bool) (payload : List Byte)
  /-- SHARD_TASK (R469): Message giving a device its stage B task. -/
  | shardTask (src tag : Nat) (resent : Bool) (payload : List Byte)
  /-- SHARD_LIST (R163): Message carrying a shard's folded list to the owner. -/
  | shardList (src tag : Nat) (resent : Bool) (payload : List Byte)
  /-- REFINE_REQUEST (R470): Message asking a REFINE device to rescore candidates. -/
  | refineRequest (src tag : Nat) (resent : Bool) (payload : List Byte)
  /-- REFINE_REPLY (R470): Message returning refined keys. -/
  | refineReply (src tag : Nat) (resent : Bool) (payload : List Byte)
  /-- CANCEL (R471): Message cancelling a command's remote work. -/
  | cancel (src tag : Nat) (resent : Bool) (payload : List Byte)
  /-- CANCEL_HOLD_EXPIRY (R471): An early CANCEL kept for 1 ms is discarded. -/
  | cancelHoldExpiry (owner tag : Nat)
  /-- WRITE_FORWARD (R472): Message carrying a data-path write to its home. -/
  | writeForward (src tag : Nat) (resent : Bool) (payload : List Byte)
  /-- WRITE_REPLY (R472): Message returning a forwarded write's status and WRITE_SEQ. -/
  | writeReply (src tag : Nat) (resent : Bool) (payload : List Byte)
  /-- WRITE_FORWARD_RESEND (R472): A forwarded write with no reply for 1 ms is resent. -/
  | writeForwardResend (tag : Nat)
  /-- GET_FORWARD (R472): Message carrying a GET to the home or holder of the vector. -/
  | getForward (src tag : Nat) (resent : Bool) (payload : List Byte)
  /-- GET_REPLY (R472): Message returning GET output. -/
  | getReply (src tag : Nat) (resent : Bool) (payload : List Byte)
  /-- ASSIGN (R474): Message asking a holder for the cells of delta entries. -/
  | assign (src tag : Nat) (resent : Bool) (payload : List Byte)
  /-- ASSIGN_REPLY (R474): Message returning the nearest cells. -/
  | assignReply (src tag : Nat) (resent : Bool) (payload : List Byte)
  /-- SHIP (R474): Message shipping merge batches, cells, node blocks or refine codes. -/
  | ship (src tag : Nat) (resent : Bool) (payload : List Byte)
  /-- SHIP_REPLY (R474): Message acknowledging a shipment. -/
  | shipReply (src tag : Nat) (resent : Bool) (payload : List Byte)
  /-- MIRROR (R473): Message applying a home's write at its twin. -/
  | mirror (src tag : Nat) (resent : Bool) (payload : List Byte)
  /-- MIRROR_REPLY (R473): Message acknowledging a mirrored write. -/
  | mirrorReply (src tag : Nat) (resent : Bool) (payload : List Byte)
  /-- TRAIN (R452): Message carrying a training exchange. -/
  | train (src tag : Nat) (resent : Bool) (payload : List Byte)
  /-- TRAIN_REPLY (R452): Message answering a training exchange. -/
  | trainReply (src tag : Nat) (resent : Bool) (payload : List Byte)
  /-- DIRECTORY (R464): Message carrying directory updates and fetches between holders. -/
  | directory (src tag : Nat) (resent : Bool) (payload : List Byte)
  /-- NOTICE (R464): Message announcing link drops, epochs and shoal views. -/
  | notice (src tag : Nat) (resent : Bool) (payload : List Byte)
  /-- PROBE (R475): Liveness probe message and its answer. -/
  | probe (src tag : Nat) (resent : Bool) (payload : List Byte)
  /-- DEVICE_LOST (R475): The lead declares a device LOST and publishes a new epoch. -/
  | deviceLost (dev : Nat)
  /-- HOLDER_ISOLATION (R475): A device reaching fewer than two holders for 1 ms counts others missing. -/
  | holderIsolation
  /-- RESTORE_COMPLETE (R476): A restoring device's copy is complete and it is published as a member. -/
  | restoreComplete (dev : Nat)
  /-- FN_DEL_SIZE_WRITE (R529): A write of FN_DEL_SIZE configures or unconfigures the Deferred Error Log. -/
  | fnDelSizeWrite (f : Nat) (v : W32)
  /-- FN_DEL_HEAD_WRITE (R529): A write of FN_DEL_HEAD consumes log records. -/
  | fnDelHeadWrite (f : Nat) (v : W32)
  /-- FN_EVENT_STATUS_WRITE (R527): A write clearing function event bits, re-signalling if causes remain. -/
  | fnEventStatusWrite (f : Nat) (v : W32)
  /-- FN_EVENT_MASK_WRITE (R527): A write of the function event mask, signalling if unmasked causes remain. -/
  | fnEventMaskWrite (f : Nat) (v : W32)
  /-- SB_ALERT_STATUS_WRITE (R537): A block write clearing sideband alert bits, which moves ALERT#. -/
  | sbAlertStatusWrite (bs : List Byte) (pecOk : Bool)
  /-- SB_ALERT_MASK_WRITE (R537): A block write of the sideband alert mask, which moves ALERT#. -/
  | sbAlertMaskWrite (bs : List Byte) (pecOk : Bool)
  /-- SMBUS_ALERT_RESPONSE (R535): The device answers the Alert Response Address while ALERT# is asserted. -/
  | smbusAlertResponse
  /-- BAR0_SPLIT_READ (R506): A 4-byte read of a 64-bit register's lower half latches the upper half. -/
  | bar0SplitRead (f off : Nat)
  /-- BAR2_ACCESS (R307): A BAR2 access reaches the F-tier or is refused. -/
  | bar2Access (f off n : Nat) (write : Option (List Byte))
  /-- REGISTER_WRITE (R14): A write to a register with no row of its own takes effect by its access type. -/
  | registerWrite (f off : Nat) (bs : List Byte)
  /-- LT_OFF (R572): LT_CTRL MODE 0 stops the link test. -/
  | ltOff (fn link pattern rate lanes : Nat)
  /-- LT_NEAR_SERIAL (R572): LT_CTRL MODE 1 loops TX to RX inside the PHY. -/
  | ltNearSerial (fn link pattern rate lanes : Nat) (seen : LtSeen)
  /-- LT_NEAR_PARALLEL (R572): LT_CTRL MODE 2 loops after the FEC encoder. -/
  | ltNearParallel (fn link pattern rate lanes : Nat) (seen : LtSeen)
  /-- LT_TX_ONLY (R572): LT_CTRL MODE 3 sends a test pattern to the partner. -/
  | ltTxOnly (fn link pattern rate lanes : Nat)
  /-- LT_RX_ONLY (R572): LT_CTRL MODE 4 checks an incoming pattern. -/
  | ltRxOnly (fn link pattern rate lanes : Nat) (seen : LtSeen)
  /-- TAP_RESET (R561): TRST# or five TMS-high cycles reset the test access port. -/
  | tapReset
  /-- EXTEST (R563): Boundary instruction driving and capturing pins. -/
  | extest (scan : BScan)
  /-- SAMPLE_PRELOAD (R563): Boundary instruction sampling pins and loading output latches. -/
  | samplePreload (scan : BScan)
  /-- IDCODE (R563): Instruction selecting the IDCODE register. -/
  | idcode
  /-- CLAMP (R563): Instruction driving pins from the output latches. -/
  | clamp (scan : BScan)
  /-- HIGHZ (R563): Instruction putting every celled pin in high impedance. -/
  | highz (scan : BScan)
  /-- EXTEST_PULSE (R567): IEEE 1149.6 pulse test on AC ports. -/
  | extestPulse (scan : BScan)
  /-- EXTEST_TRAIN (R567): IEEE 1149.6 train test on AC ports. -/
  | extestTrain (scan : BScan)
  /-- BYPASS (R563): Instruction selecting the bypass register. -/
  | bypass
  /-- DEBUG_ACCESS (R568): Instruction selecting the 128-bit debug register. -/
  | debugAccess
  /-- DEBUG_READ (R568): Debug operation reading an address within the unlocked scope. -/
  | debugRead (busy : Bool) (path : DebugPath) (addr : Nat)
  /-- DEBUG_WRITE (R568): Debug operation writing an address within the unlocked scope. -/
  | debugWrite (busy : Bool) (path : DebugPath) (addr : Nat) (data : W64) (seen : LtSeen)
  /-- DEBUG_MP_COMMAND (R568): Debug operation halting, stepping or reading the shadow MP. -/
  | debugMpCommand (busy : Bool) (cmd : MpCommand) (addr : Nat)
  /-- TELEMETRY_SNAPSHOT (R576): Firmware snapshots each counter group every 100 ms, or 800 ms under shedding. -/
  | telemetrySnapshot (group : Nat)
  /-- TOKEN_BUCKET_REFILL (R345): Every 1 µs of the timebase each regulator bucket gains rate × 1,000 B up to its depth, HI overflow passes to LO, and stalled transfers may issue. -/
  | tokenBucketRefill
  /-- REMOTE_WAIT_ALLOWANCE_EXPIRY (R359): A remote request that has waited RW without a reply voids its command's bound, and the command continues at rank 3. -/
  | remoteWaitAllowanceExpiry (tag : Nat)
  /-- FLIT_RECEIPT (R450): A flit arrives at a link receiver and is checked by FEC, LCRC and SEQ, its ACK and credits are taken, and it is accepted, forwarded in transit, or dropped with a REPLAY_REQ. -/
  | flitReceipt (link : Nat) (fec : Bool) (flit : List Byte)
  /-- RAIL_RETURN (R483): VIO or VFUSE returns within tolerance and sideband and fuse writes are accepted again. -/
  | railReturn (rail mv : Nat)
  /-- VAUX_POWER_UP (R537): VAUX reaches regulation, the always-on domain starts, SMB_ADDR is sampled and the sideband alert registers take their reset values. -/
  | vauxPowerUp (smbAddr : Nat)
  /-- VAUX_REMOVED (R488): Removal of VAUX clears the THERMTRIP latch, the reset cause, the supply fault record and the episode count. -/
  | vauxRemoved
  deriving DecidableEq, Repr

end Sys2Proof
end

