-- ==== Sys2Proof/Decode.lean ====
section
/-! DEFINITION. The decoder. The table gives no row any bits, so no word spells a command; commands come in as commands. -/

namespace Sys2Proof

/-- The command a word spells by the bits of the table: none, as the table gives no row any. -/
def decodeTableWord (_nbits _w : Nat) : Option Instr := none

end Sys2Proof
end

