-- ==== Sys2Proof/Config.lean ====
section
/-! DEFINITION. What one part fixes at manufacture (R433, R508, R509, R562) and the values the spec leaves open. Each is an
opaque constant: a statement that holds, holds for every value of them. -/

namespace Sys2Proof.Config

/-- The 16 B device serial number as fused (R446, R508), byte i in bits 8i+7 to 8i. DESIGN CHOICE: free (log entry 1). -/
opaque serial : BitVec 128
/-- The ordering code: TPN-1A-X rather than TPN-1A-C (R9, R509). Fused; free (log entry 1). -/
opaque orderX : Bool
/-- The 11-bit JEP106 manufacturer code (R562). Fused; free (log entry 1). -/
opaque manufacturer : Nat
/-- The fused image key digest, the SHA-384 of the key that signs images (R430), byte i in bits 8i+7 to 8i. Free (log entry 1). -/
opaque imageKeyDigest : BitVec 384
/-- The fused debug key, an ECDSA P-384 public key of 96 B (R441), byte i in bits 8i+7 to 8i. Free (log entry 1). -/
opaque debugKey : BitVec 768
/-- Measurement 1, of the boot ROM (R439), as byte i. Fixed at manufacture; free (log entry 1). -/
opaque romDigestByte : Nat → Byte
/-- The SHA-384 of the factory image's header and body, measurement 2 while slot 0 runs (R427, R439), as byte i. Free (log entry 1). -/
opaque factoryDigestByte : Nat → Byte
/-- VERSION of the factory image of slot 0 (R427, R429). Fixed at manufacture; free (log entry 1). -/
opaque factoryVersion : W32
/-- SVN of the factory image of slot 0 (R427, R429). Fixed at manufacture; free (log entry 1). -/
opaque factorySvn : Byte
/-- A free byte: the n-th value the spec leaves open (log entry 2). -/
opaque freeByte : Nat → Byte
/-- A free 32-bit value (log entry 2). -/
opaque freeWord : Nat → W32
/-- A free truth value (log entry 2). -/
opaque freeBool : Nat → Bool
/-- A free number (log entry 2). -/
opaque freeNat : Nat → Nat
/-- What a byte reads as after key draw n replaced the key it was encrypted under (R437; log entry 3). -/
opaque erasedByte : Nat → Nat → Byte
/-- What CVT 7 and 8 give for a NaN, which R224 states for CVT 0 alone, by the conversion's number (log entry 2). -/
opaque cvtNaN : Nat → W32
/-- The natural logarithm, negated, of a softmax value, whose steps R278 does not state (log entry 23). -/
opaque negLog : W32 → W32
/-- The scale of a U8LOG block that holds a NaN, from its values: R66 states none (log entry 47). -/
opaque u8logNanScale : List W32 → Nat
/-- softplus of a model output, whose steps R278 does not state (log entry 23). -/
opaque softplus : W32 → W32
/-- Element i of the gradient of a row through a function that R284 lists no derivative for, from the function's input row and the gradient of its
output: 0 the normalisation of COS, else an ACT function by its number (log entry 23). -/
opaque gradOf (what : Nat) (x dy : List W32) (i : Nat) : W32

end Sys2Proof.Config
end

