-- ==== Sys2Proof/Machine/Float.lean ====
section
/-! DEFINITION. Exact values, rounding to the narrow formats, and the IEEE 754 operations of R221 (every rounding is to
nearest with ties to even, R268). A value is a sign, a natural magnitude and a power of two, so every sum and product here
is exact until it is rounded. -/
namespace Sys2Proof.Machine

/-- A value before rounding: NaN, an infinity, or (-1)^neg * mag * 2^exp. A zero keeps its sign. -/
inductive FVal where
  | nan
  | inf (neg : Bool)
  | fin (neg : Bool) (mag : Nat) (exp : Int)
  deriving DecidableEq, Repr

/-- A binary format: its exponent and mantissa widths, and whether its top exponent holds infinities (IEEE 754) or only
one NaN per sign (OFP8 E4M3, R49). -/
structure FFormat where
  ebits : Nat
  mbits : Nat
  ieee  : Bool
  deriving DecidableEq, Repr

/-- binary32 (R48). -/
def fmtFP32 : FFormat := ⟨8, 23, true⟩
/-- bfloat16 (R48). -/
def fmtBF16 : FFormat := ⟨8, 7, true⟩
/-- binary16 (R48). -/
def fmtFP16 : FFormat := ⟨5, 10, true⟩
/-- OFP8 E4M3 (R49): no infinity, 0x7F and 0xFF are NaN, the largest finite value is 448. -/
def fmtE4M3 : FFormat := ⟨4, 3, false⟩
/-- OFP8 E5M2 (R49). -/
def fmtE5M2 : FFormat := ⟨5, 2, true⟩
/-- E2M1, the element of MXFP4 (R52): every code is finite. It is decoded by `decodeE2M1`. -/
def fmtE2M1 : FFormat := ⟨2, 1, false⟩

/-- The exponent bias of a format. -/
def fBias (f : FFormat) : Int := (2 ^ (f.ebits - 1) : Nat) - 1

/-- The exponent of the last place of the smallest normal, and so of every subnormal. -/
def fQmin (f : FFormat) : Int := 1 - fBias f - (f.mbits : Int)

/-- The largest finite magnitude pattern of a format (R49). -/
def fMaxFinite (f : FFormat) : Nat :=
  if f = fmtE2M1 then 7
  else if f.ieee then (2 ^ f.ebits - 1) * 2 ^ f.mbits - 1
  else 2 ^ (f.ebits + f.mbits) - 2

/-- The canonical NaN of R221 and R50: 0x7FC0_0000, 0x7FC0, 0x7E00, and 0x7F for both OFP8 formats. -/
def fNaN (f : FFormat) : Nat :=
  if f = fmtE4M3 ∨ f = fmtE5M2 then 0x7F
  else (2 ^ f.ebits - 1) * 2 ^ f.mbits + 2 ^ (f.mbits - 1)

/-- The sign bit of a format as a number. -/
def fSign (f : FFormat) (neg : Bool) : Nat := if neg then 2 ^ (f.ebits + f.mbits) else 0

/-- The value a pattern of a format stands for (R48, R49, R52). -/
def fDecode (f : FFormat) (b : Nat) : FVal :=
  let neg := b.testBit (f.ebits + f.mbits)
  let mant := b % 2 ^ f.mbits
  let e := b / 2 ^ f.mbits % 2 ^ f.ebits
  if f.ieee && e == 2 ^ f.ebits - 1 then (if mant = 0 then .inf neg else .nan)
  else if f = fmtE4M3 ∧ b % 2 ^ (f.ebits + f.mbits) = 0x7F then .nan
  else if e = 0 then .fin neg mant (fQmin f)
  else .fin neg (2 ^ f.mbits + mant) (fQmin f + (e : Int) - 1)

/-- `m / 2^sh` rounded to the nearest integer, ties to even; `sticky` says that the true value lies strictly above `m`
within its last place. -/
def rneShift (m sh : Nat) (sticky : Bool) : Nat :=
  if sh = 0 then m
  else
    let q := m >>> sh
    let r := m % 2 ^ sh
    let half := 2 ^ (sh - 1)
    if r < half then q
    else if half < r || sticky then q + 1
    else if q % 2 = 1 then q + 1 else q

/-- The pattern of a finite value rounded once to a format (RNE). `sticky` marks a magnitude whose true value lies strictly
between `mag` and `mag + 1`; such a magnitude must carry more bits than the format. A result beyond the largest finite
magnitude is that magnitude when `sat` (R50), and an infinity of its sign otherwise (R221). -/
def fRound (f : FFormat) (sat neg : Bool) (mag : Nat) (exp : Int) (sticky : Bool) : Nat :=
  if mag = 0 then fSign f neg
  else
    let top := exp + (mag.log2 : Int) - (f.mbits : Int)
    let q := max top (fQmin f)
    let sig := if q < exp then mag <<< (exp - q).toNat else rneShift mag (q - exp).toNat sticky
    let body := (q - fQmin f).toNat * 2 ^ f.mbits + sig
    if body ≤ fMaxFinite f then fSign f neg + body
    else if sat || !f.ieee then fSign f neg + fMaxFinite f
    else fSign f neg + (2 ^ f.ebits - 1) * 2 ^ f.mbits

/-- The pattern of a value in a format by the arithmetic of R221: overflow gives an infinity, every NaN is canonical. -/
def fPack (f : FFormat) : FVal → Nat
  | .nan => fNaN f
  | .inf n => fSign f n + (2 ^ f.ebits - 1) * 2 ^ f.mbits
  | .fin n m e => fRound f false n m e false

/-- The saturating conversion of R50: an infinity becomes the largest finite value for E4M3 and stays an infinity
otherwise. -/
def fConvert (f : FFormat) : FVal → Nat
  | .nan => fNaN f
  | .inf n => if f.ieee then fSign f n + (2 ^ f.ebits - 1) * 2 ^ f.mbits else fSign f n + fMaxFinite f
  | .fin n m e => fRound f true n m e false

/-- The value of an FP32 pattern. -/
def f32Val (x : F32) : FVal := fDecode fmtFP32 x.toNat

/-- RNE to FP32 of an exact value. -/
def f32Of (v : FVal) : F32 := BitVec.ofNat 32 (fPack fmtFP32 v)

/-- The canonical FP32 NaN (R221). -/
def f32NaN : F32 := 0x7FC00000

/-- Sign change of a value. -/
def vNeg : FVal → FVal
  | .nan => .nan
  | .inf n => .inf (!n)
  | .fin n m e => .fin (!n) m e

/-- Magnitude of a value. -/
def vAbs : FVal → FVal
  | .nan => .nan
  | .inf _ => .inf false
  | .fin _ m e => .fin false m e

/-- The signed integer a finite value is of 2^e, for e at most its exponent. -/
def vScaled (neg : Bool) (m : Nat) (exp e : Int) : Int :=
  let a : Int := (m <<< (exp - e).toNat : Nat)
  if neg then -a else a

/-- The exact sum of two values. An exact zero sum is +0, except that (-0) + (-0) is -0 (R221); infinities of unlike sign
give NaN. -/
def vAdd : FVal → FVal → FVal
  | .nan, _ => .nan
  | _, .nan => .nan
  | .inf a, .inf b => if a = b then .inf a else .nan
  | .inf a, .fin .. => .inf a
  | .fin .., .inf b => .inf b
  | .fin n1 m1 e1, .fin n2 m2 e2 =>
    if m1 = 0 then (if m2 = 0 then .fin (n1 && n2) 0 e1 else .fin n2 m2 e2)
    else if m2 = 0 then .fin n1 m1 e1
    else
      let e := min e1 e2
      let s := vScaled n1 m1 e1 e + vScaled n2 m2 e2 e
      .fin (s < 0) s.natAbs e

/-- The exact difference of two values. -/
def vSub (a b : FVal) : FVal := vAdd a (vNeg b)

/-- The exact product of two values; a zero times an infinity is NaN. -/
def vMul : FVal → FVal → FVal
  | .nan, _ => .nan
  | _, .nan => .nan
  | .inf a, .inf b => .inf (a != b)
  | .inf a, .fin n m _ => if m = 0 then .nan else .inf (a != n)
  | .fin n m _, .inf b => if m = 0 then .nan else .inf (n != b)
  | .fin n1 m1 e1, .fin n2 m2 e2 => .fin (n1 != n2) (m1 * m2) (e1 + e2)

/-- The additive identity -0, from which an exact accumulation starts: a sum of -0 terms stays -0 and any other zero sum is
+0 (R58, R225). -/
def vNegZero : FVal := .fin true 0 0

/-- Plus zero. -/
def vZero : FVal := .fin false 0 0

/-- The value of an integer. -/
def vInt (i : Int) : FVal := .fin (i < 0) i.natAbs 0

/-- The value of an integer times a power of two. -/
def vIntScaled (i : Int) (e : Int) : FVal := .fin (i < 0) i.natAbs e

/-- A value times a power of two. -/
def vScale (v : FVal) (k : Int) : FVal :=
  match v with
  | .fin n m e => .fin n m (e + k)
  | w => w

/-- The integer square root, bit by bit from bit `n` down: the greatest r below 2^(n+1) + acc with r * r at most m. -/
def isqrtBits (m : Nat) : Nat → Nat → Nat
  | 0, r => if (r + 1) * (r + 1) ≤ m then r + 1 else r
  | n + 1, r => isqrtBits m n (if (r + 2 ^ (n + 1)) * (r + 2 ^ (n + 1)) ≤ m then r + 2 ^ (n + 1) else r)

/-- The integer square root of m. -/
def isqrt (m : Nat) : Nat := isqrtBits m (m.log2 / 2 + 1) 0

/-- RNE to a format of the quotient of two values (R222 DIV, R221 for its special cases): x/0 is an infinity, 0/0 and
inf/inf are NaN. -/
def fDiv (f : FFormat) (a b : FVal) : Nat :=
  match a, b with
  | .nan, _ => fNaN f
  | _, .nan => fNaN f
  | .inf _, .inf _ => fNaN f
  | .inf n, .fin k _ _ => fPack f (.inf (n != k))
  | .fin n _ _, .inf k => fSign f (n != k)
  | .fin n1 m1 e1, .fin n2 m2 e2 =>
    if m2 = 0 then (if m1 = 0 then fNaN f else fPack f (.inf (n1 != n2)))
    else if m1 = 0 then fSign f (n1 != n2)
    else
      let k := m2.log2 + 2 * f.mbits + 8
      fRound f false (n1 != n2) ((m1 <<< k) / m2) (e1 - e2 - (k : Int)) ((m1 <<< k) % m2 != 0)

/-- RNE to a format of the square root (R222): a zero keeps its sign, a negative value gives NaN. -/
def fSqrt (f : FFormat) : FVal → Nat
  | .nan => fNaN f
  | .inf n => if n then fNaN f else fPack f (.inf false)
  | .fin n m e =>
    if m = 0 then fSign f n
    else if n then fNaN f
    else
      let k := 2 * (f.mbits + 8)
      let k := if (e - (k : Int)) % 2 = 0 then k else k + 1
      let r := isqrt (m <<< k)
      fRound f false false r ((e - (k : Int)) / 2) (r * r != m <<< k)

/-- RNE to a format of the reciprocal square root (R222): +0 gives +inf, -0 gives -inf, +inf gives +0. -/
def fRsqrt (f : FFormat) : FVal → Nat
  | .nan => fNaN f
  | .inf n => if n then fNaN f else 0
  | .fin n m e =>
    if m = 0 then fPack f (.inf n)
    else if n then fNaN f
    else
      let (m, e) := if e % 2 = 0 then (m, e) else (2 * m, e - 1)
      let k := m.log2 + f.mbits + 16
      let r := isqrt ((1 <<< (2 * k)) / m)
      fRound f false false r (-(e / 2) - (k : Int)) (r * r * m != 1 <<< (2 * k))

/-- FP32 addition, one rounding (R221). -/
def f32Add (a b : F32) : F32 := f32Of (vAdd (f32Val a) (f32Val b))
/-- FP32 subtraction, one rounding (R221). -/
def f32Sub (a b : F32) : F32 := f32Of (vSub (f32Val a) (f32Val b))
/-- FP32 multiplication, one rounding (R221). -/
def f32Mul (a b : F32) : F32 := f32Of (vMul (f32Val a) (f32Val b))
/-- FP32 fused multiply-add, one rounding (R220 FMA). -/
def f32Fma (a b c : F32) : F32 := f32Of (vAdd (vMul (f32Val a) (f32Val b)) (f32Val c))
/-- FP32 division (R222). -/
def f32Div (a b : F32) : F32 := BitVec.ofNat 32 (fDiv fmtFP32 (f32Val a) (f32Val b))
/-- FP32 square root (R222). -/
def f32Sqrt (a : F32) : F32 := BitVec.ofNat 32 (fSqrt fmtFP32 (f32Val a))
/-- FP32 reciprocal (R222). -/
def f32Rcp (a : F32) : F32 := BitVec.ofNat 32 (fDiv fmtFP32 (.fin false 1 0) (f32Val a))
/-- FP32 reciprocal square root (R222). -/
def f32Rsqrt (a : F32) : F32 := BitVec.ofNat 32 (fRsqrt fmtFP32 (f32Val a))
/-- FP32 sign change; a NaN becomes canonical (R221). -/
def f32Neg (a : F32) : F32 := f32Of (vNeg (f32Val a))

/-- Whether a pattern is a NaN. -/
def f32IsNaN (a : F32) : Bool := f32Val a == .nan
/-- Whether a pattern is finite. -/
def f32IsFinite (a : F32) : Bool := (a.toNat / 2 ^ 23 % 256) != 255
/-- Whether a pattern is a positive normal number, as several fields of R55, R276 and R170 require. -/
def f32PosNormal (a : F32) : Bool :=
  !a.msb && a.toNat / 2 ^ 23 != 0 && a.toNat / 2 ^ 23 != 255

/-- The order of two values that are not NaN: negative, zero or positive as a is below, equal to or above b. -/
def vCmp : FVal → FVal → Int
  | .inf a, .inf b => (if a then -1 else 1) - (if b then -1 else 1)
  | .inf a, _ => if a then -1 else 1
  | _, .inf b => if b then 1 else -1
  | .fin n1 m1 e1, .fin n2 m2 e2 =>
    let e := min e1 e2
    vScaled n1 m1 e1 e - vScaled n2 m2 e2 e
  | _, _ => 0

/-- a < b by IEEE 754: false when either is NaN, and +0 equals -0 (R221). -/
def vLt (a b : FVal) : Bool := a != .nan && b != .nan && decide (vCmp a b < 0)
/-- a ≤ b by IEEE 754 (R221). -/
def vLe (a b : FVal) : Bool := a != .nan && b != .nan && decide (vCmp a b ≤ 0)
/-- a = b by IEEE 754 (R221). -/
def vEq (a b : FVal) : Bool := a != .nan && b != .nan && decide (vCmp a b = 0)

/-- Whether a value is a negative zero or below zero. -/
def vSignBit : FVal → Bool
  | .nan => false
  | .inf n => n
  | .fin n _ _ => n

/-- Whether a value is a zero of either sign. -/
def vIsZero : FVal → Bool
  | .fin _ m _ => m == 0
  | _ => false

/-- a orders below b with -0 below +0, the order of MIN and MAX (R221). -/
def vTotalLt (a b : FVal) : Bool :=
  if vCmp a b = 0 then vSignBit a && !vSignBit b else decide (vCmp a b < 0)

/-- MIN of R221: NaN if either is NaN, and -0 orders below +0. -/
def vMin (a b : FVal) : FVal :=
  if a == .nan || b == .nan then .nan else if vTotalLt b a then b else a

/-- MAX of R221. -/
def vMax (a b : FVal) : FVal :=
  if a == .nan || b == .nan then .nan else if vTotalLt a b then b else a

/-- FP32 minimum (R221). -/
def f32Min (a b : F32) : F32 := f32Of (vMin (f32Val a) (f32Val b))
/-- FP32 maximum (R221). -/
def f32Max (a b : F32) : F32 := f32Of (vMax (f32Val a) (f32Val b))

/-- rne_int of a finite value: the nearest integer, ties to even. An infinity or NaN has none and reads as 0; callers take
those cases first. -/
def vRneInt : FVal → Int
  | .fin n m e =>
    let a : Nat := if 0 ≤ e then m <<< e.toNat else rneShift m (-e).toNat false
    if n then -(a : Int) else a
  | _ => 0

/-- rne_int of an FP32 value that is finite. -/
def f32RneInt (a : F32) : Int := vRneInt (f32Val a)

/-- rne_int clamped to lo..hi; NaN gives 0 and an infinity the bound of its sign (R224 CVT 0, 7 and 8). -/
def vRneIntClamp (lo hi : Int) : FVal → Int
  | .nan => 0
  | .inf n => if n then lo else hi
  | .fin n m e => min hi (max lo (vRneInt (.fin n m e)))

/-- floor(log2 |a|) exactly, subnormals included; a zero gives -150, an infinity or NaN 128 (R220 EXPO). -/
def vExpo : FVal → Int
  | .fin _ m e => if m = 0 then -150 else e + (m.log2 : Int)
  | _ => 128

/-- The FP32 pattern of an integer, RNE. -/
def f32OfInt (i : Int) : F32 := f32Of (vInt i)

/-- The E2M1 magnitude of a 3-bit code (R52), in halves. -/
def e2m1Halves (c : Nat) : Nat :=
  match c % 8 with
  | 0 => 0 | 1 => 1 | 2 => 2 | 3 => 3 | 4 => 4 | 5 => 6 | 6 => 8 | _ => 12

/-- The value of an E2M1 code: the sign bit applies to every value (R52). -/
def decodeE2M1 (c : Nat) : FVal := .fin (c.testBit 3) (e2m1Halves c) (-1)

/-- The E2M1 code nearest a value, RNE, saturating at ±6.0, zeros keeping their sign (R224 CVT 6). A NaN has no code; R229
writes it as 0b0000. -/
def encodeE2M1 : FVal → Nat
  | .nan => 0
  | .inf n => (if n then 8 else 0) + 7
  | .fin n m e => fRound fmtE2M1 true n m e false

/-- The sum of a list of exact products, rounded once to FP32: one chunk of R58. -/
def chunkSum (ps : List FVal) : F32 := f32Of (ps.foldl vAdd vNegZero)

/-- A list cut into chunks of n elements, the last one shorter; `fuel` bounds the number of chunks. -/
def chunksOf (n : Nat) : Nat → List α → List (List α)
  | 0, _ => []
  | fuel + 1, xs => if xs.isEmpty then [] else xs.take n :: chunksOf n fuel (xs.drop n)

/-- FP32 accumulation in ascending order starting from chunk 0 (R58 step 3). -/
def foldChunks : List F32 → F32
  | [] => 0
  | c :: cs => cs.foldl f32Add c

/-- The dot product of R58 over two rows of exact values: chunks of 64, each an exact sum rounded once, accumulated in FP32
in ascending chunk order. -/
def dotVals (a b : List FVal) : F32 :=
  let ps := List.zipWith vMul a b
  foldChunks ((chunksOf 64 ps.length ps).map chunkSum)

/-- The ascending FP32 fold of R269 from a start value. -/
def sumAsc (start : F32) (xs : List F32) : F32 := xs.foldl f32Add start

end Sys2Proof.Machine
end

