-- ==== Sys2Proof/Machine/Transcend.lean ====
section
/-! DEFINITION. EXP2, LOG2 and TANH of R222 and the activation sequences of R223. A special function is evaluated in
fixed point with 192 fraction bits, far beyond the 24 bits kept, and then rounded once to FP32: the result is the FP32 value
nearest the exact one (R222), on the ground of log entry 12. -/

namespace Sys2Proof.Machine

/-- The fraction bits of the fixed-point evaluation. -/
def fxBits : Nat := 192

/-- ln 2 in fixed point. -/
def fxLn2 : Nat := 0xb17217f7d1cf79abc9e3b39803f2f6af40f343267298b62d

/-- Taylor terms of e^y from term n on, with `t` the present term and `acc` the sum so far, all in fixed point. -/
def fxExpSeries (y : Nat) : Nat → Nat → Nat → Nat → Nat
  | 0, _, _, acc => acc
  | fuel + 1, n, t, acc =>
    let t' := ((t * y) >>> fxBits) / n
    fxExpSeries y fuel (n + 1) t' (acc + t')

/-- 2^f for a fraction f in fixed point below 1: a fixed-point value from 1 to 2. -/
def fxExp2 (f : Nat) : Nat :=
  fxExpSeries ((f * fxLn2) >>> fxBits) 64 1 (1 <<< fxBits) (1 <<< fxBits)

/-- Odd powers of z over odd numbers from 2k + 1 on: the series of atanh z, in fixed point. -/
def fxAtanhSeries (z2 : Nat) : Nat → Nat → Nat → Nat → Nat
  | 0, _, _, acc => acc
  | fuel + 1, k, t, acc => fxAtanhSeries z2 fuel (k + 2) ((t * z2) >>> fxBits) (acc + t / k)

/-- log2 of m, for m in fixed point from 1 to 2: 2 atanh((m - 1)/(m + 1)) / ln 2. -/
def fxLog2 (m : Nat) : Nat :=
  let z := ((m - (1 <<< fxBits)) <<< fxBits) / (m + (1 <<< fxBits))
  ((2 * fxAtanhSeries ((z * z) >>> fxBits) 66 1 z 0) <<< fxBits) / fxLn2

/-- A finite value in fixed point, as an integer: floor of value * 2^192, and whether bits were lost. -/
def fxOf (neg : Bool) (m : Nat) (e : Int) : Int :=
  let s := e + (fxBits : Int)
  if 0 ≤ s then vScaled neg m s 0
  else
    let a : Int := (m >>> (-s).toNat : Nat)
    if neg then -(a + 1) else a

/-- The FP32 value nearest 2^x for an exact x: exp2_rn of R171 and EXP2 of R222; -inf gives +0, +inf gives +inf. -/
def exp2Rn : FVal → F32
  | .nan => f32NaN
  | .inf n => if n then 0 else 0x7F800000
  | .fin n m e =>
    if m = 0 then 0x3F800000
    else if 8 ≤ e + (m.log2 : Int) then (if n then 0 else 0x7F800000)
    else
      let a := fxOf n m e
      let k := a / ((1 <<< fxBits : Nat) : Int)
      let f := (a % ((1 <<< fxBits : Nat) : Int)).toNat
      BitVec.ofNat 32 (fRound fmtFP32 false false (fxExp2 f) (k - (fxBits : Int)) (f != 0))

/-- EXP2 of an FP32 value (R222). -/
def f32Exp2 (x : F32) : F32 := exp2Rn (f32Val x)

/-- LOG2 of R222: a zero gives -inf, 1 gives +0, +inf gives +inf, a negative value gives NaN. -/
def f32Log2 (x : F32) : F32 :=
  match f32Val x with
  | .nan => f32NaN
  | .inf n => if n then f32NaN else 0x7F800000
  | .fin n m e =>
    if m = 0 then 0xFF800000
    else if n then f32NaN
    else
      let k := e + (m.log2 : Int)
      let frac := fxLog2 (m <<< (fxBits - m.log2))
      let v := k * ((1 <<< fxBits : Nat) : Int) + (frac : Int)
      BitVec.ofNat 32 (fRound fmtFP32 false (v < 0) v.natAbs (-(fxBits : Int)) (frac != 0))

/-- TANH of R222: a zero gives itself, an infinity gives ±1. A magnitude below 2^-40 is its own nearest value, because
tanh x differs from x by less than a third of x cubed; from 2^6 on the nearest value is ±1. -/
def f32Tanh (x : F32) : F32 :=
  match f32Val x with
  | .nan => f32NaN
  | .inf n => if n then 0xBF800000 else 0x3F800000
  | .fin n m e =>
    let l := e + (m.log2 : Int)
    if m = 0 ∨ l < -40 then x
    else if 6 ≤ l then (if n then 0xBF800000 else 0x3F800000)
    else
      -- u = 2|x| / ln 2, t = 2^-u, tanh|x| = (1 - t)/(1 + t)
      let one := 1 <<< fxBits
      let u := (2 * (fxOf false m e).toNat <<< fxBits) / fxLn2
      let fl := u % one
      let t := if fl = 0 then one >>> (u / one) else (fxExp2 (one - fl)) >>> (u / one + 1)
      BitVec.ofNat 32 (fRound fmtFP32 false n (((one - t) <<< fxBits) / (one + t)) (-(fxBits : Int)) true)

/-- RELU of R223: max(x, +0). -/
def f32Relu (x : F32) : F32 := f32Max x 0

/-- SIGMOID of R223, each step rounded; 0xBFB8_AA3B is -log2 e. -/
def f32Sigmoid (x : F32) : F32 :=
  f32Rcp (f32Add 0x3F800000 (f32Exp2 (f32Mul x 0xBFB8AA3B)))

/-- SILU of R223. -/
def f32Silu (x : F32) : F32 := f32Mul x (f32Sigmoid x)

/-- The argument z of the tanh form of GELU (R223). -/
def f32GeluZ (x : F32) : F32 :=
  f32Mul (f32Mul x (f32Fma (f32Mul x x) 0x3D372713 0x3F800000)) 0x3F4C422A

/-- GELU_TANH of R223. -/
def f32GeluTanh (x : F32) : F32 :=
  let h := f32Mul 0x3F000000 x
  f32Fma h (f32Tanh (f32GeluZ x)) h

end Sys2Proof.Machine
end

