-- ==== Sys2Proof/Machine/Quant.lean ====
section
/-! DEFINITION. The stored and query forms of a vector: format codes (R48), microscaling blocks (R51 to R54), integers with
zero points (R55 to R57), product-quantised codes and tables (R60 to R63, R578), sign codes (R64, R65), U8LOG (R66), dot
products and distances (R58, R59), score keys (R67 to R70), the vector check (R47) and the query adapter (R274). -/

namespace Sys2Proof.Machine

/-- The formats of R48. -/
inductive VFmt where
  | fp32 | bf16 | fp16 | e4m3 | e5m2 | int8z | int4z
  | mxfp8e4m3 | mxfp8e5m2 | mxfp4 | mxint8 | mxint4
  | pq4 | pq8 | sign1 | bin1 | u8log
  deriving DecidableEq, Repr

/-- The format a 5-bit code names; 0x11 to 0x1F are reserved (R48). -/
def fmtOfCode : Nat → Option VFmt
  | 0x00 => some .fp32 | 0x01 => some .bf16 | 0x02 => some .fp16 | 0x03 => some .e4m3 | 0x04 => some .e5m2
  | 0x05 => some .int8z | 0x06 => some .int4z | 0x07 => some .mxfp8e4m3 | 0x08 => some .mxfp8e5m2
  | 0x09 => some .mxfp4 | 0x0A => some .mxint8 | 0x0B => some .mxint4 | 0x0C => some .pq4 | 0x0D => some .pq8
  | 0x0E => some .sign1 | 0x0F => some .bin1 | 0x10 => some .u8log | _ => none

/-- Bits one element takes in a format; 4 or 8 per subspace for the PQ codes (R48). -/
def fmtBits : VFmt → Nat
  | .fp32 => 32 | .bf16 => 16 | .fp16 => 16 | .e4m3 => 8 | .e5m2 => 8 | .int8z => 8 | .int4z => 4
  | .mxfp8e4m3 => 8 | .mxfp8e5m2 => 8 | .mxfp4 => 4 | .mxint8 => 8 | .mxint4 => 4
  | .pq4 => 4 | .pq8 => 8 | .sign1 => 1 | .bin1 => 1 | .u8log => 8

/-- Formats permitted as host input (R48, R46). -/
def fmtIsInput : VFmt → Bool
  | .fp32 | .bf16 | .fp16 | .e4m3 | .e5m2 | .bin1 => true
  | _ => false

/-- Formats permitted as a refine code (R48). -/
def fmtIsRefine : VFmt → Bool
  | .bf16 | .fp16 | .e4m3 | .e5m2 | .int8z | .int4z | .mxfp8e4m3 | .mxfp4 | .mxint8 | .mxint4 => true
  | _ => false

/-- Formats permitted as an ME operand (R48). -/
def fmtIsOperand : VFmt → Bool
  | .fp32 | .bf16 | .fp16 | .e4m3 | .e5m2 | .int8z | .int4z | .mxfp8e4m3 | .mxfp8e5m2 | .mxfp4 | .mxint8 | .mxint4 => true
  | _ => false

/-- The floating format of a format without block scales. -/
def fmtFloat : VFmt → Option FFormat
  | .fp32 => some fmtFP32 | .bf16 => some fmtBF16 | .fp16 => some fmtFP16 | .e4m3 => some fmtE4M3
  | .e5m2 => some fmtE5M2 | _ => none

/-- The metrics of R45. -/
inductive Metric where
  | ip | cos | l2sq | ham
  deriving DecidableEq, Repr

/-- The metric a code names; 4 to 7 are reserved (R45). -/
def metricOfCode : Nat → Option Metric
  | 0 => some .ip | 1 => some .cos | 2 => some .l2sq | 3 => some .ham | _ => none

/-- One 32-element microscaling block: its E8M0 scale and its element codes (R51, R52). -/
structure MxBlock where
  scale : Nat
  codes : List Nat
  deriving DecidableEq, Repr

/-- One zero-point block with its parameter entry (R55). -/
structure ZpBlock where
  scale  : F32
  rowSum : Int
  zero   : Int
  short  : Bool
  q      : List Int
  deriving DecidableEq, Repr

/-- A vector in one of its narrow forms. -/
inductive VForm where
  | plain (fmt : VFmt) (codes : List Nat)
  | mx    (fmt : VFmt) (blocks : List MxBlock)
  | zp    (fmt : VFmt) (blocks : List ZpBlock)
  deriving DecidableEq, Repr

/-! ### Microscaling -/

/-- emax of an MX format (R52). -/
def mxEmax : VFmt → Int
  | .mxfp8e4m3 => 8 | .mxfp8e5m2 => 15 | .mxfp4 => 2 | _ => 0

/-- Two's complement of a code of n bits. -/
def signedOf (n c : Nat) : Int := if c.testBit (n - 1) then (c % 2 ^ n : Nat) - (2 ^ n : Nat) else (c % 2 ^ n : Nat)

/-- The n-bit two's complement code of an integer in range. -/
def codeOf (n : Nat) (i : Int) : Nat := (i % (2 ^ n : Nat)).toNat

/-- An MX element before its block's scale is applied (R52, R53). -/
def mxElem (f : VFmt) (c : Nat) : FVal :=
  match f with
  | .mxfp8e4m3 => fDecode fmtE4M3 c
  | .mxfp8e5m2 => fDecode fmtE5M2 c
  | .mxfp4 => decodeE2M1 c
  | .mxint8 => vIntScaled (signedOf 8 c) (-6)
  | _ => vIntScaled (signedOf 4 c) (-2)

/-- Conversion of an already scaled value to an MX element (R54). -/
def mxConvert (f : VFmt) (v : FVal) : Nat :=
  match f with
  | .mxfp8e4m3 => fConvert fmtE4M3 v
  | .mxfp8e5m2 => fConvert fmtE5M2 v
  | .mxfp4 => encodeE2M1 v
  | .mxint8 => codeOf 8 (min 127 (max (-127) (vRneInt (vScale v 6))))
  | _ => codeOf 4 (min 7 (max (-7) (vRneInt (vScale v 2))))

/-- The values of a block: the scale times each element, every element NaN under scale 0xFF (R51). -/
def mxVals (f : VFmt) (b : MxBlock) : List FVal :=
  if b.scale = 0xFF then b.codes.map fun _ => FVal.nan
  else b.codes.map fun c => vScale (mxElem f c) ((b.scale : Int) - 127)

/-- The largest magnitude among FP32 values. -/
def amaxVal (xs : List F32) : FVal := xs.foldl (fun a x => vMax a (vAbs (f32Val x))) vZero

/-- The E8M0 scale that exact scaling chooses for a block (R54). -/
def mxScaleOf (f : VFmt) (xs : List F32) : Nat :=
  let a := amaxVal xs
  if vIsZero a then 0 else (min 254 (max 0 (vExpo a - mxEmax f + 127))).toNat

/-- Quantise a block under a given scale. -/
def mxEncodeAt (f : VFmt) (e : Nat) (xs : List F32) : MxBlock :=
  ⟨e, xs.map fun x => mxConvert f (vScale (f32Val x) (127 - (e : Int)))⟩

/-- Quantise a block of FP32 values to an MX format (R54). -/
def mxEncode (f : VFmt) (xs : List F32) : MxBlock :=
  if vIsZero (amaxVal xs) then ⟨0, xs.map fun _ => 0⟩ else mxEncodeAt f (mxScaleOf f xs) xs

/-! ### Integers with zero points -/

/-- lo, hi and L of R56. -/
def zpRange : VFmt → Int × Int × Int
  | .int4z => (-8, 7, 15)
  | _ => (-128, 127, 255)

/-- Quantise a block to INT8Z or INT4Z (R56). -/
def zpEncode (f : VFmt) (xs : List F32) : ZpBlock :=
  let mn := xs.foldl (fun a x => vMin a (f32Val x)) vZero
  let mx := xs.foldl (fun a x => vMax a (f32Val x)) vZero
  let short := xs.length == 32
  let (lo, hi, l) := zpRange f
  if vEq mx mn then ⟨0x3F800000, 0, 0, short, xs.map fun _ => 0⟩
  else
    let s := f32Max 0x00800000 (BitVec.ofNat 32 (fDiv fmtFP32 (vSub mx mn) (vInt l)))
    let z := min hi (max lo (lo - f32RneInt (f32Div (f32Of mn) s)))
    let q := xs.map fun x => min hi (max lo (f32RneInt (f32Div x s) + z))
    ⟨s, q.foldl (· + ·) 0, z, short, q⟩

/-- The values s (q - z) of a block (R55). -/
def zpVals (b : ZpBlock) : List FVal := b.q.map fun q => vMul (f32Val b.scale) (vInt (q - b.zero))

/-- corr of R57 for two blocks of the same length. -/
def zpCorr (x y : ZpBlock) : Int :=
  let p := (List.zipWith (· * ·) x.q y.q).foldl (· + ·) 0
  p - y.zero * x.rowSum - x.zero * y.rowSum + (y.q.length : Int) * x.zero * y.zero

/-- The block score of R57: exact product, one rounding; +0 when corr is 0 (R58). -/
def zpScore (x y : ZpBlock) : F32 :=
  if zpCorr x y = 0 then 0 else f32Of (vMul (vMul (f32Val x.scale) (f32Val y.scale)) (vInt (zpCorr x y)))

/-! ### Forms -/

/-- A vector in FP32 put into a narrow form (R50, R54, R56, R64, by R272's table). PQ codes have `pqEncode`. -/
def formOf (f : VFmt) (xs : List F32) : VForm :=
  match f with
  | .int8z | .int4z => .zp f ((chunksOf 64 xs.length xs).map (zpEncode f))
  | .mxfp8e4m3 | .mxfp8e5m2 | .mxfp4 | .mxint8 | .mxint4 => .mx f ((chunksOf 32 xs.length xs).map (mxEncode f))
  | .fp32 => .plain .fp32 (xs.map BitVec.toNat)
  | .sign1 | .bin1 => .plain f (xs.map fun x => if vLt vZero (f32Val x) then 1 else 0)
  | g => match fmtFloat g with
    | some ff => .plain g (xs.map fun x => fConvert ff (f32Val x))
    | none => .plain g []

/-- The exact values a form decodes to. -/
def formVals : VForm → List FVal
  | .plain f cs => match fmtFloat f with
    | some ff => cs.map (fDecode ff)
    | none => cs.map fun c : Nat => vInt (c : Int)
  | .mx f bs => (bs.map (mxVals f)).flatten
  | .zp _ bs => (bs.map zpVals).flatten

/-- A form decoded to FP32, each value rounded once (R281). -/
def formF32 (v : VForm) : List F32 := (formVals v).map f32Of

/-- The dot product of two forms (R58): block scores for zero-point operands, chunk sums otherwise. -/
def formDot (a b : VForm) : F32 :=
  match a, b with
  | .zp _ xs, .zp _ ys => foldChunks (List.zipWith zpScore xs ys)
  | a, b => dotVals (formVals a) (formVals b)

/-- The squared norm of a form: its dot product with itself (R59). -/
def formNorm (a : VForm) : F32 := formDot a a

/-- d squared of R59: max(+0, fp32(fp32(Nq + Nv) - fp32(2 dot))), a NaN staying NaN. -/
def l2sq (nq nv dot : F32) : F32 :=
  let d := f32Sub (f32Add nq nv) (f32Mul 0x40000000 dot)
  if f32IsNaN d then f32NaN else f32Max 0 d

/-- The score of a query form against a stored form under IP, COS or L2SQ (R45, R58, R59). -/
def formScore (m : Metric) (q v : VForm) : F32 :=
  match m with
  | .l2sq => f32Neg (l2sq (formNorm q) (formNorm v) (formDot q v))
  | _ => formDot q v

/-! ### Input vectors -/

/-- Little-endian value of a list of bytes (R13). -/
def leNat : List (BitVec 8) → Nat
  | [] => 0
  | b :: bs => b.toNat + 256 * leNat bs

/-- The n little-endian bytes of a value (R13). -/
def leBytes : Nat → Nat → List (BitVec 8)
  | 0, _ => []
  | n + 1, v => BitVec.ofNat 8 v :: leBytes n (v / 256)

/-- The elements of a vector in a host input format, converted exactly to FP32 (R46). A BIN1 vector gives 1.0 for a set bit
and +0 for a clear one, so that its sign sketch is itself (R64). -/
def inputElems (f : VFmt) (d : Nat) (bs : List (BitVec 8)) : List F32 :=
  match f with
  | .bin1 => (List.range d).map fun i => if (bs.getD (i / 8) 0).getLsbD (i % 8) then 0x3F800000 else 0
  | .fp32 => ((chunksOf 4 d bs).map fun b => BitVec.ofNat 32 (leNat b))
  | g => match fmtFloat g with
    | some ff => (chunksOf (fmtBits g / 8) d bs).map fun b => f32Of (fDecode ff (leNat b))
    | none => []

/-- Bytes of one input vector. -/
def inputBytes (f : VFmt) (d : Nat) : Nat := d * fmtBits f / 8

/-- The norm of R47: RNE to FP32 of the root of the exact sum of squares. -/
def vecNorm (xs : List F32) : F32 :=
  BitVec.ofNat 32 (fSqrt fmtFP32 ((xs.map fun x => vMul (f32Val x) (f32Val x)).foldl vAdd vZero))

/-- The vector check of R47: none for a rejected vector, the vector as the device uses it otherwise. -/
def checkVector (m : Metric) (xs : List F32) : Option (List F32) :=
  if xs.any fun x => !f32IsFinite x then none
  else if m = .cos then
    let n := vecNorm xs
    if n = 0 ∨ n = 0x7F800000 then none else some (xs.map fun x => f32Div x n)
  else some xs

/-! ### Sign codes -/

/-- The SIGN1 sketch of a vector (R64). -/
def signSketch (xs : List F32) : List Bool := xs.map fun x => vLt vZero (f32Val x)

/-- The Hamming distance of two codes (R65). -/
def hamming (a b : List Bool) : Nat := ((List.zipWith (· != ·) a b).filter id).length

/-- The score -h of R65. -/
def hammingScore (a b : List Bool) : F32 := f32OfInt (-(hamming a b : Int))

/-! ### Product quantisation -/

/-- A codebook: for each subspace its entries, each D/M BF16 patterns (R60). -/
abbrev Codebook := List (List (List Nat))

/-- The exact squared distance between a subvector and a codebook entry as one chunk of R58 (R61, R62). -/
def subDist (r : List F32) (b : List Nat) : F32 :=
  chunkSum (List.zipWith (fun x e => let d := vSub (f32Val x) (fDecode fmtBF16 e); vMul d d) r b)

/-- The index of the least value of a list of pairs (index, value); a tie keeps the lower index. -/
def argMin : List (Nat × F32) → Nat → F32 → Nat
  | [], i, _ => i
  | (j, v) :: t, i, best => if vLt (f32Val v) (f32Val best) then argMin t j v else argMin t i best

/-- The nearest entry of a subspace, the lower index on a tie (R61). -/
def nearestEntry (r : List F32) (entries : List (List Nat)) : Nat :=
  match entries.map (subDist r) with
  | [] => 0
  | v :: vs => argMin ((vs.zipIdx 1).map fun p => (p.2, p.1)) 0 v

/-- The PQ code of a vector or residual: one entry index per subspace (R61). -/
def pqEncode (cb : Codebook) (xs : List F32) : List Nat :=
  List.zipWith nearestEntry (chunksOf (xs.length / cb.length) cb.length xs) cb

/-- A vector less its centroid, element by element in FP32 with RNE (R61, R62). -/
def residual (xs cs : List F32) : List F32 := List.zipWith f32Sub xs cs

/-- The PQ tables of one query, or of one query and cell (R62). `xs` is the query, already less its centroid for L2SQ in a
CELL index. -/
def pqTables (m : Metric) (cb : Codebook) (xs : List F32) : List (List F32) :=
  List.zipWith (fun sub entries => entries.map fun b =>
      match m with
      | .l2sq => f32Neg (subDist sub b)
      | _ => chunkSum (List.zipWith (fun x e => vMul (f32Val x) (fDecode fmtBF16 e)) sub b))
    (chunksOf (xs.length / cb.length) cb.length xs) cb

/-- A quantised table set (R63); `finite` is clear for a set that R578 calls non-finite, which has no u and no delta. -/
structure PqSet where
  finite : Bool
  u      : List (List Nat)
  delta  : F32
  bsum   : F32
  deriving DecidableEq, Repr

/-- The least value of a row of finite values. -/
def rowMin (t : List F32) : F32 := match t with | [] => 0 | x :: xs => xs.foldl f32Min x
/-- The greatest value of a row. -/
def rowMax (t : List F32) : F32 := match t with | [] => 0 | x :: xs => xs.foldl f32Max x

/-- rg of R63. -/
def pqRange (t : List (List F32)) : F32 :=
  match t.map fun r => f32Sub (rowMax r) (rowMin r) with
  | [] => 0
  | x :: xs => xs.foldl f32Max x

/-- Table quantisation (R63, R578). -/
def pqQuantise (t : List (List F32)) : PqSet :=
  let bsum := (t.map rowMin).foldl f32Add 0
  if (t.any fun r => r.any fun x => !f32IsFinite x) || !f32IsFinite (pqRange t) then ⟨false, [], 0, bsum⟩
  else
    let delta := f32Div (pqRange t) 0x437F0000
    let u := t.map fun r => r.map fun x =>
      if vIsZero (f32Val delta) then 0
      else (min 255 (f32RneInt (f32Div (f32Sub x (rowMin r)) delta))).toNat
    ⟨true, u, delta, bsum⟩

/-- acc of R63: the exact sum of the 8-bit entries a code picks. -/
def pqAcc (s : PqSet) (code : List Nat) : Nat :=
  (List.zipWith (fun row c => row.getD c 0) s.u code).foldl (· + ·) 0

/-- The approximate score of R63; NaN for a non-finite set (R578). -/
def pqScore (s : PqSet) (code : List Nat) (cterm : F32) : F32 :=
  if s.finite then f32Add (f32Mul (f32OfInt (pqAcc s code)) s.delta) (f32Add s.bsum cterm) else f32NaN

/-! ### U8LOG -/

/-- The FP32 value nearest 2^(-n/d), for d a power of two (P and G of R66). -/
def pow2Frac (n : Nat) (logd : Nat) : F32 := f32Exp2 (f32Of (vIntScaled (-(n : Int)) (-(logd : Int))))

/-- U8LOG decode under scale e (R66). -/
def u8logDecode (e c : Nat) : F32 :=
  if c = 0 then 0
  else
    let n := 255 - c
    f32Of (vScale (f32Val (pow2Frac (n % 16) 4)) ((e : Int) - 127 - ((n / 16 : Nat) : Int)))

/-- Boundary B(n) of R66. -/
def u8logBound (e n : Nat) : FVal :=
  vScale (f32Val (pow2Frac (2 * (n % 16) + 1) 5)) ((e : Int) - 127 - ((n / 16 : Nat) : Int))

/-- U8LOG code of one value under scale e: the least step whose boundary the value reaches (R66). -/
def u8logEncode (e : Nat) (x : F32) : Nat :=
  let v := f32Val x
  if vLt vZero v then
    match (List.range 255).find? fun n => vLe (u8logBound e n) v with
    | some n => 255 - n
    | none => 0
  else 0

/-- Block scale of U8LOG: 127 + log2 of the smallest power of two at least amax, clamped; 0 for amax 0 (R66). DEDUCED: the
clamp gives an infinite amax 254. DESIGN CHOICE: of a block that holds a NaN R66 gives no scale, and it is a free value within the clamp (log
entry 47). -/
def u8logScale (xs : List F32) : Nat :=
  match amaxVal xs with
  | .fin _ m e =>
    if m = 0 then 0
    else
      let l := e + (m.log2 : Int) + (if m = 2 ^ m.log2 then 0 else 1)
      (min 254 (max 0 (l + 127))).toNat
  | .inf _ => 254
  | .nan => min 254 (Config.u8logNanScale xs)

/-- A U8LOG block and how many of its values are counted as not positive or NaN (R66). -/
def u8logBlock (xs : List F32) : MxBlock × Nat :=
  let e := u8logScale xs
  (⟨e, if vIsZero (amaxVal xs) then xs.map fun _ => 0 else xs.map (u8logEncode e)⟩,
   (xs.filter fun x => !vLt vZero (f32Val x)).length)

/-! ### Score keys -/

/-- The key of a score, none for NaN, which is counted and never selected (R67). -/
def scoreKey (s : F32) : Option W32 :=
  if f32IsNaN s then none
  else
    let b : F32 := if s = 0x80000000 then 0 else s
    some (if b.msb then ~~~b else b ||| 0x80000000)

/-- The score a key stands for (the inverse of R67). -/
def keyScore (k : W32) : F32 := if k.msb then k ^^^ 0x80000000 else ~~~k

/-- A candidate as selection orders it: its key and its ID. -/
abbrev Cand := W32 × W64

/-- The order of R70: the greater key first, the lower ID on equal keys. -/
def candBefore (a b : Cand) : Bool :=
  decide (b.1.toNat < a.1.toNat) || (a.1 == b.1 && decide (a.2.toNat < b.2.toNat))

/-- The filler ID of R71. -/
def fillerId : W64 := 0xFFFFFFFFFFFFFFFF

/-! ### The query adapter -/

/-- A query adapter: V of r rows of D elements and U of D rows of r elements, in BF16 (R274). Rank 0 is no adapter. -/
structure Adapter where
  rank : Nat
  v    : List (List Nat)
  u    : List (List Nat)
  deriving DecidableEq, Repr

/-- BF16 values of a row. -/
def bf16Row (r : List Nat) : List FVal := r.map (fDecode fmtBF16)

/-- y of R274 before any renormalisation. -/
def adapterApply (a : Adapter) (xs : List F32) : List F32 :=
  if a.rank = 0 then xs
  else
    let xb := formVals (formOf .bf16 xs)
    let t := a.v.map fun row => dotVals (bf16Row row) xb
    let tb := formVals (formOf .bf16 t)
    List.zipWith (fun x row => f32Add x (dotVals (bf16Row row) tb)) xs a.u

/-- A checked query through the adapter, and for COS the check again (R47, R274). -/
def adaptQuery (m : Metric) (a : Adapter) (x : List F32) : Option (List F32) :=
  if a.rank = 0 then some x
  else if m = .cos then checkVector .cos (adapterApply a x) else some (adapterApply a x)
/-- A query as the device scores it: the check of R47, then the adapter (R47, R274). -/
def prepareQuery (m : Metric) (a : Adapter) (xs : List F32) : Option (List F32) := (checkVector m xs).bind (adaptQuery m a)

/-- The mixing function of R82. -/
def mix64 (x : W64) : W64 :=
  let a := (x ^^^ (x >>> 33)) * 0xFF51AFD7ED558CCD
  let b := (a ^^^ (a >>> 33)) * 0xC4CEB9FE1A85EC53
  b ^^^ (b >>> 33)

end Sys2Proof.Machine
end

