-- ==== Sys2Proof/Machine/Hash.lean ====
section
/-! DEFINITION. The checks over bytes that the spec names: CRC-32 and CRC-32C of flits and descriptors (R295, R448), SHA-384
and HMAC-SHA-384 of images, the ledger, hails and measurements (R429, R435, R439, R446). -/

namespace Sys2Proof.Machine

/-- One bit of a reflected CRC of polynomial p. -/
def crcBit (p : W32) (c : W32) : W32 := if c.getLsbD 0 then (c >>> 1) ^^^ p else c >>> 1
/-- One byte of a reflected CRC of polynomial p. -/
def crcByte (p : W32) (c : W32) (b : Byte) : W32 :=
  (List.range 8).foldl (fun c _ => crcBit p c) (c ^^^ BitVec.ofNat 32 b.toNat)
/-- A reflected CRC with all-ones start and final inversion. -/
def crcOf (p : W32) (bs : List Byte) : W32 := ~~~(bs.foldl (crcByte p) 0xFFFFFFFF)
/-- CRC-32 (IEEE 802.3) (R448). -/
def crc32 (bs : List Byte) : W32 := crcOf 0xEDB88320 bs
/-- CRC-32C (Castagnoli) (R448). -/
def crc32c (bs : List Byte) : W32 := crcOf 0x82F63B78 bs

/-- Big-endian number of bytes. -/
def beNat (bs : List Byte) : Nat := bs.foldl (fun n b => n * 256 + b.toNat) 0
/-- A number as n big-endian bytes. -/
def beBytes (n v : Nat) : List Byte := (leBytes n v).reverse

/-- The primes below 410, of which there are 80: SHA-384 takes its constants from their roots. -/
def smallPrimes : List Nat := (List.range 410).filter fun n => 2 ≤ n && (List.range 21).all fun q => q < 2 || n ≤ q || n % q != 0
/-- The greatest r + x below r + 2^n whose k-th power does not pass v, found bit by bit from the top. -/
def rootFrom (k v : Nat) : Nat → Nat → Nat
  | 0, r => r
  | n + 1, r => rootFrom k v n (if (r + 2 ^ n) ^ k ≤ v then r + 2 ^ n else r)
/-- The first 64 bits of the fraction of the k-th root of a prime below 512. -/
def rootFraction (k p : Nat) : W64 := BitVec.ofNat 64 (rootFrom k (p * 2 ^ (64 * k)) 69 0)

/-- SHA-384 between two rounds: the chaining value in force and the sixteen schedule words still to come, the next first. -/
structure Digest where
  value : Vector W64 8
  ahead : List W64
  deriving DecidableEq, Repr

/-- The exclusive or of a word turned right by two amounts and by a third, which shifts instead where `shift` says so. -/
def turned (x : W64) (i j k : Nat) (shift : Bool) : W64 := x.rotateRight i ^^^ x.rotateRight j ^^^ (if shift then x >>> k else x.rotateRight k)
/-- The word that joins the schedule behind sixteen words. -/
def nextWord (ws : List W64) : W64 :=
  let at_ := fun (i : Nat) => ws.getD i 0
  at_ 0 + turned (at_ 1) 1 8 7 true + at_ 9 + turned (at_ 14) 19 61 6 true
/-- One round with its constant: the value moves one place on, and the schedule by one word. -/
def Digest.round (s : Digest) (c : W64) : Digest :=
  let v := fun (i : Nat) => s.value.toList.getD i 0
  let pick := v 6 ^^^ (v 4 &&& (v 5 ^^^ v 6))
  let most := (v 0 &&& v 1) ||| (v 2 &&& (v 0 ||| v 1))
  let inn := v 7 + pick + turned (v 4) 14 18 41 false + c + s.ahead.headD 0
  { value := #v[inn + most + turned (v 0) 28 34 39 false, v 0, v 1, v 2, v 3 + inn, v 4, v 5, v 6],
    ahead := s.ahead.drop 1 ++ [nextWord s.ahead] }
/-- A block of 16 words taken into a chaining value. -/
def takeBlock (ks : List W64) (value : Vector W64 8) (block : List W64) : Vector W64 8 :=
  let last := ks.foldl Digest.round ⟨value, block⟩
  Vector.ofFn fun i => value.get i + last.value.get i

/-- SHA-384 of bytes: 48 bytes. A message ends with 0x80, zeros and its length in bits, and starts from the roots of the 9th to the 16th prime. -/
def sha384 (bs : List Byte) : List Byte :=
  let n := bs.length
  let msg := bs ++ [0x80] ++ List.replicate ((239 - n % 128) % 128) 0 ++ beBytes 16 (8 * n)
  let ks := smallPrimes.map (rootFraction 3)
  let seed : Vector W64 8 := Vector.ofFn fun i => rootFraction 2 (smallPrimes.getD (8 + i.val) 0)
  let blocks := (chunksOf 128 msg.length msg).map fun b => (chunksOf 8 16 b).map fun w => BitVec.ofNat 64 (beNat w)
  ((blocks.foldl (takeBlock ks) seed).toList.take 6).flatMap fun w => beBytes 8 w.toNat

/-- HMAC-SHA-384. -/
def hmac384 (key msg : List Byte) : List Byte :=
  let k0 := if key.length ≤ 128 then key else sha384 key
  let k := k0 ++ List.replicate (128 - k0.length) 0
  sha384 (k.map (· ^^^ 0x5C) ++ sha384 (k.map (· ^^^ 0x36) ++ msg))

end Sys2Proof.Machine
end

