-- ==== Sys2Proof/Machine/Table.lean ====
section
/-! DEFINITION. Lookups and updates of sparse tables and of lists by position, shared by every part of the machine. -/

namespace Sys2Proof.Machine

/-- The value at a key; an absent key reads as `d`. -/
def tget (d : α) (k : Nat) : Tab α → α
  | [] => d
  | (j, v) :: t => if j = k then v else tget d k t

/-- The value at a key, if one is listed. -/
def tfind (k : Nat) : Tab α → Option α
  | [] => none
  | (j, v) :: t => if j = k then some v else tfind k t

/-- A table with the value at a key replaced; keys stay in ascending order when they were. -/
def tset (k : Nat) (v : α) : Tab α → Tab α
  | [] => [(k, v)]
  | (j, w) :: t => if k < j then (k, v) :: (j, w) :: t else if j = k then (k, v) :: t else (j, w) :: tset k v t

/-- A table with a key removed. -/
def tdel (k : Nat) : Tab α → Tab α
  | [] => []
  | (j, w) :: t => if j = k then tdel k t else (j, w) :: tdel k t

/-- A table with the value at a key changed; an absent key starts as `d`. -/
def tmod (d : α) (k : Nat) (f : α → α) (t : Tab α) : Tab α := tset k (f (tget d k t)) t

/-- A list with the element at a position changed; a position past the end changes nothing. -/
def lmod (k : Nat) (f : α → α) : List α → List α
  | [] => []
  | x :: xs => match k with
    | 0 => f x :: xs
    | k + 1 => x :: lmod k f xs

/-- The sum of a list of numbers. -/
def lsum (xs : List Nat) : Nat := xs.foldl (· + ·) 0

/-- The bits [hi:lo] of a number (R13). -/
def bits (hi lo n : Nat) : Nat := n / 2 ^ lo % 2 ^ (hi + 1 - lo)

/-- A number placed as a field from bit lo up. -/
def at_ (lo n : Nat) : Nat := n * 2 ^ lo

/-- A flag as the bit lo of a word. -/
def flagAt (lo : Nat) (b : Bool) : Nat := if b then 2 ^ lo else 0

/-- A count that stops at a limit. -/
def satAdd (limit n k : Nat) : Nat := min limit (n + k)

/-- A two's complement field of w bits holding an integer. -/
def twos (w : Nat) (i : Int) : Nat := (i % (2 ^ w : Nat)).toNat

end Sys2Proof.Machine
end

