-- ==== Sys2Proof/Machine/Filter.lean ====
section
/-! DEFINITION. Filter programs (R138 to R142), attribute views (R73) and the summary check (R143). -/

namespace Sys2Proof.Machine

/-- One operation of a filter program (R139). -/
structure FOp where
  opcode : Nat
  view   : Nat
  word   : Nat
  lsb    : Nat
  width  : Nat
  src    : Nat
  a      : W64
  b      : W64
  deriving DecidableEq, Repr

/-- A filter program (R138). -/
structure FilterProg where
  filterId : Nat
  indexNo  : Nat
  nParams  : Nat
  ops      : List FOp
  /-- Version: how many loads of this FILTER_ID came before it (R126, R467). -/
  version  : Nat := 0
  deriving DecidableEq, Repr

/-- A verdict of the summary check (R143). -/
inductive Verdict where
  | all | none | some
  deriving DecidableEq, Repr

/-- n bytes at an offset, as a little-endian number; bytes past the end read as 0. -/
def fieldAt (bs : List Byte) (off n : Nat) : Nat := leNat ((bs.drop off).take n)

/-- The operation at an offset of an image. -/
def parseFOp (bs : List Byte) (off : Nat) : FOp :=
  { opcode := fieldAt bs off 1, view := fieldAt bs (off + 1) 1, word := fieldAt bs (off + 2) 1
    lsb := fieldAt bs (off + 3) 1, width := fieldAt bs (off + 4) 1, src := fieldAt bs (off + 5) 1
    a := BitVec.ofNat 64 (fieldAt bs (off + 8) 8), b := BitVec.ofNat 64 (fieldAt bs (off + 16) 8) }

/-- A filter program read from its image (R138). -/
def parseFilter (bs : List Byte) : FilterProg :=
  { filterId := fieldAt bs 0 2, indexNo := fieldAt bs 2 2, nParams := fieldAt bs 5 1
    ops := (List.range (fieldAt bs 4 1)).map fun i => parseFOp bs (16 + 24 * i) }

/-- Whether an opcode compares a field: EQ to IN (R140). -/
def opCompares (c : Nat) : Bool := 3 ≤ c && c ≤ 9
/-- Whether an opcode tests a mask: ANY, ALL, NONE. -/
def opMasks (c : Nat) : Bool := 10 ≤ c && c ≤ 12
/-- Opcodes that read operand A. -/
def opReadsA (c : Nat) : Bool := opCompares c || opMasks c || c == 13
/-- Opcodes that read operand B: IN and ID_IN. -/
def opReadsB (c : Nat) : Bool := c == 9 || c == 13

/-- Truth values an opcode pops and pushes; none for a reserved opcode (R140). -/
def opStack (c : Nat) : Option (Nat × Nat) :=
  if 1 ≤ c ∧ c ≤ 13 then some (0, 1)
  else if c = 0x10 ∨ c = 0x11 ∨ c = 0x13 then some (2, 1)
  else if c = 0x12 then some (1, 1)
  else none

/-- Whether an FP32 pattern is NaN. -/
def isNaN32 (b : Nat) : Bool := f32IsNaN (BitVec.ofNat 32 b)

/-- The checks of R141 on one operation of an index with `attrs` attribute words. -/
def fopValid (attrs nParams : Nat) (o : FOp) : Bool :=
  let c := o.opcode
  (opStack c).isSome
  && (if opCompares c then o.view == 1 || o.view == 2 || o.view == 3 else if opMasks c then o.view == 4 else o.view == 0)
  && (if o.view == 1 || o.view == 2 then 1 ≤ o.width && o.width ≤ 64 && o.lsb + o.width ≤ 64 else o.width == 0)
  && (if o.view == 3 then o.lsb == 0 || o.lsb == 32 else if o.view == 4 then o.lsb == 0 else true)
  && (if o.view == 0 then o.word == 0 && o.lsb == 0 else o.word < attrs)
  && o.src < 4
  && (if o.src.testBit 0 then opReadsA c && o.a.toNat % 8 < nParams else true)
  && (if o.src.testBit 1 then opReadsB c && o.b.toNat % 8 < nParams else true)
  && (if o.view == 3 && !o.src.testBit 0 then !isNaN32 (o.a.toNat % 2 ^ 32) else true)
  && (if o.view == 3 && c == 9 && !o.src.testBit 1 then !isNaN32 (o.b.toNat % 2 ^ 32) else true)

/-- The stack discipline of R141 from a depth: never below empty, never above 16, exactly one value at the end. -/
def stackOk : List FOp → Nat → Bool
  | [], d => d == 1
  | o :: os, d => match opStack o.opcode with
    | none => false
    | some (p, q) => p ≤ d && d - p + q ≤ 16 && stackOk os (d - p + q)

/-- Every check of R141 on an image for an index with `attrs` attribute words. -/
def filterValid (attrs : Nat) (bs : List Byte) : Bool :=
  let p := parseFilter bs
  let n := p.ops.length
  1 ≤ n && n ≤ 32 && bs.length == 16 + 24 * n && 1 ≤ p.filterId && p.filterId ≤ 4095 && p.nParams ≤ 8
  && fieldAt bs 6 10 == 0
  && ((List.range n).all fun i => fieldAt bs (16 + 24 * i + 6) 2 == 0)
  && p.ops.all (fopValid attrs p.nParams) && stackOk p.ops 0

/-- The field of a word through a view: U and S as an integer (R73). -/
def viewInt (o : FOp) (w : W64) : Int :=
  let f := w.toNat / 2 ^ o.lsb % 2 ^ o.width
  if o.view = 2 then signedOf o.width f else (f : Int)

/-- An operand as the view compares it. -/
def operandInt (view : Nat) (x : W64) : Int := if view = 2 then x.toInt else (x.toNat : Int)

/-- An operand word: immediate or parameter (R139 SRC). -/
def operandWord (isParam : Bool) (x : W64) (ps : List W64) : W64 := if isParam then ps.getD (x.toNat % 8) 0 else x

/-- A comparison over integers (R140). -/
def cmpInt (c : Nat) (f a b : Int) : Bool :=
  match c with
  | 3 => f == a | 4 => f != a | 5 => f < a | 6 => f ≤ a | 7 => a < f | 8 => a ≤ f | _ => a ≤ f && f ≤ b

/-- A comparison over FP32 values by IEEE 754 (R140). -/
def cmpF32 (c : Nat) (f a b : FVal) : Bool :=
  match c with
  | 3 => vEq f a | 4 => !vEq f a | 5 => vLt f a | 6 => vLe f a | 7 => vLt a f | 8 => vLe a f | _ => vLe a f && vLe f b

/-- The FP32 value of a view or an operand. -/
def f32At (w : W64) (lsb : Nat) : FVal := f32Val (BitVec.ofNat 32 (w.toNat / 2 ^ lsb))

/-- The truth value a comparison, mask or ID operation pushes for a candidate (R140). -/
def fopTest (o : FOp) (ps : List W64) (id : W64) (attrs : List W64) : Bool :=
  let a := operandWord (o.src.testBit 0) o.a ps
  let b := operandWord (o.src.testBit 1) o.b ps
  let w := attrs.getD o.word 0
  match o.opcode with
  | 1 => true
  | 2 => false
  | 10 => (w &&& a) != 0
  | 11 => (w &&& a) == a
  | 12 => (w &&& a) == 0
  | 13 => a.toNat ≤ id.toNat && id.toNat ≤ b.toNat
  | c => if o.view = 3 then cmpF32 c (f32At w o.lsb) (f32At a 0) (f32At b 0)
         else cmpInt c (viewInt o w) (operandInt o.view a) (operandInt o.view b)

/-- One operation on the stack of truth values. -/
def fopRun (ps : List W64) (id : W64) (attrs : List W64) (st : List Bool) (o : FOp) : List Bool :=
  match o.opcode, st with
  | 0x10, x :: y :: t => (x && y) :: t
  | 0x11, x :: y :: t => (x || y) :: t
  | 0x13, x :: y :: t => (x != y) :: t
  | 0x12, x :: t => (!x) :: t
  | _, st => fopTest o ps id attrs :: st

/-- Whether a candidate passes a program (R142). -/
def filterPass (p : FilterProg) (ps : List W64) (id : W64) (attrs : List W64) : Bool :=
  (p.ops.foldl (fopRun ps id attrs) []).headD false

/-- A truth value as a verdict. -/
def verdictOf (b : Bool) : Verdict := if b then .all else .none

/-- The verdict of an unsigned comparison over fmin..fmax (R143). -/
def uVerdict (c : Nat) (lo hi a b : Int) : Verdict :=
  match c with
  | 3 => if lo = hi ∧ lo = a then .all else if a < lo ∨ hi < a then .none else .some
  | 4 => if a < lo ∨ hi < a then .all else if lo = hi ∧ lo = a then .none else .some
  | 5 => if hi < a then .all else if a ≤ lo then .none else .some
  | 6 => if hi ≤ a then .all else if a < lo then .none else .some
  | 7 => if a < lo then .all else if hi ≤ a then .none else .some
  | 8 => if a ≤ lo then .all else if hi < a then .none else .some
  | _ => if a ≤ lo ∧ hi ≤ b then .all else if hi < a ∨ b < lo ∨ b < a then .none else .some

/-- A cell's SUMMARY: AND_w and OR_w of each attribute word, valid or not (R90, R143). -/
structure Summary where
  valid : Bool
  andW  : List W64
  orW   : List W64
  deriving DecidableEq, Repr

/-- The verdict an operation that reads a word or the ID pushes (R143). -/
def fopVerdict (o : FOp) (ps : List W64) (s : Summary) : Verdict :=
  let a := operandWord (o.src.testBit 0) o.a ps
  let b := operandWord (o.src.testBit 1) o.b ps
  let lo := s.andW.getD o.word 0
  let hi := s.orW.getD o.word 0
  match o.opcode with
  | 1 => .all
  | 2 => .none
  | 13 => .some
  | c =>
    if !s.valid then .some
    else match c with
    | 10 => if (lo &&& a) != 0 then .all else if (hi &&& a) == 0 then .none else .some
    | 11 => if (lo &&& a) == a then .all else if (hi &&& a) != a then .none else .some
    | 12 => if (hi &&& a) == 0 then .all else if (lo &&& a) != 0 then .none else .some
    | c =>
      if o.view = 1 then
        uVerdict c (viewInt o lo) (viewInt o hi) (operandInt 1 a) (operandInt 1 b)
      else if o.view = 3 then
        (if lo.toNat / 2 ^ o.lsb % 2 ^ 32 = hi.toNat / 2 ^ o.lsb % 2 ^ 32 then
          verdictOf (cmpF32 c (f32At lo o.lsb) (f32At a 0) (f32At b 0)) else .some)
      else if viewInt o lo = viewInt o hi then
        verdictOf (cmpInt c (viewInt o lo) (operandInt 2 a) (operandInt 2 b))
      else .some

/-- AND of verdicts (R143). -/
def verdictAnd (x y : Verdict) : Verdict :=
  if x = .none ∨ y = .none then .none else if x = .all ∧ y = .all then .all else .some
/-- OR of verdicts (R143). -/
def verdictOr (x y : Verdict) : Verdict :=
  if x = .all ∨ y = .all then .all else if x = .none ∧ y = .none then .none else .some
/-- NOT of a verdict (R143). -/
def verdictNot : Verdict → Verdict
  | .all => .none | .none => .all | .some => .some
/-- XOR of verdicts (R143). -/
def verdictXor (x y : Verdict) : Verdict :=
  if x = .some ∨ y = .some then .some else verdictOf (x != y)

/-- One operation on the stack of verdicts. -/
def verdictRun (ps : List W64) (s : Summary) (st : List Verdict) (o : FOp) : List Verdict :=
  match o.opcode, st with
  | 0x10, x :: y :: t => verdictAnd x y :: t
  | 0x11, x :: y :: t => verdictOr x y :: t
  | 0x13, x :: y :: t => verdictXor x y :: t
  | 0x12, x :: t => verdictNot x :: t
  | _, st => fopVerdict o ps s :: st

/-- The verdict of a program on a cell with `live` live vectors: NONE for an empty cell (R143). -/
def cellVerdict (p : FilterProg) (ps : List W64) (s : Summary) (live : Nat) : Verdict :=
  if live = 0 then .none else (p.ops.foldl (verdictRun ps s) []).headD .some

end Sys2Proof.Machine
end

