-- ==== Sys2Proof/Machine/Model.lean ====
section
/-! DEFINITION. The resident model: its image (R210, R211), the load checks (R214), and its arithmetic (R212, R213). -/

namespace Sys2Proof.Machine

/-- A layer descriptor (R211). -/
structure Layer where
  kind    : Nat
  wFmt    : Nat
  aFmt    : Nat
  fn      : Nat
  inW     : Nat
  outW    : Nat
  pools   : Nat
  wOff    : Nat
  wBytes  : Nat
  bOff    : Nat
  gOff    : Nat
  eps     : F32
  deriving DecidableEq, Repr

/-- The layer descriptor of slot i of an image (R210, R211). -/
def parseLayer (bs : List Byte) (i : Nat) : Layer :=
  let o := 64 + 64 * i
  { kind := fieldAt bs o 1, wFmt := fieldAt bs (o + 1) 1, aFmt := fieldAt bs (o + 2) 1, fn := fieldAt bs (o + 3) 1
    inW := fieldAt bs (o + 4) 4, outW := fieldAt bs (o + 8) 4, pools := fieldAt bs (o + 12) 2
    wOff := fieldAt bs (o + 16) 8, wBytes := fieldAt bs (o + 24) 8, bOff := fieldAt bs (o + 32) 8
    gOff := fieldAt bs (o + 40) 8, eps := BitVec.ofNat 32 (fieldAt bs (o + 48) 4) }

/-- N_LAYERS of an image. -/
def modelLayers (bs : List Byte) : Nat := fieldAt bs 2 1
/-- INPUT_WIDTH of an image. -/
def modelInputWidth (bs : List Byte) : Nat := fieldAt bs 4 4
/-- WEIGHT_BYTES of an image. -/
def modelWeightBytes (bs : List Byte) : Nat := fieldAt bs 8 8

/-- padded_in of R211. -/
def paddedIn (n : Nat) : Nat := (n + 31) / 32 * 32

/-- Whether a format carries one E8M0 scale per 32 elements (R48). -/
def fmtIsMx : VFmt → Bool
  | .mxfp8e4m3 | .mxfp8e5m2 | .mxfp4 | .mxint8 | .mxint4 => true
  | _ => false

/-- row_bytes of R211. -/
def rowBytes (f : VFmt) (inW : Nat) : Nat :=
  let p := paddedIn inW
  (p * fmtBits f / 8 + (if fmtIsMx f then p / 32 else 0) + 63) / 64 * 64

/-- The weight formats a DENSE layer may name (R211). -/
def denseWFmt (c : Nat) : Option VFmt :=
  match fmtOfCode c with
  | some .bf16 => some .bf16 | some .fp16 => some .fp16 | some .e4m3 => some .e4m3
  | some .mxfp8e4m3 => some .mxfp8e4m3 | some .mxfp4 => some .mxfp4 | some .mxint8 => some .mxint8 | _ => none

/-- The input forms a DENSE layer may name (R211). -/
def denseAFmt (c : Nat) : Option VFmt :=
  match fmtOfCode c with
  | some .bf16 => some .bf16 | some .mxfp8e4m3 => some .mxfp8e4m3 | _ => none

/-- Elements a CROSS layer selects (R213). -/
def crossWidth (d p fn : Nat) : Nat :=
  (if fn.testBit 5 then 2 * d else 0) + (if fn.testBit 0 then d else 0) + (if fn.testBit 1 then d else 0)
    + (if fn.testBit 2 then p else 0) + (if fn.testBit 3 then p else 0) + (if fn.testBit 4 then 1 else 0)

/-- Whether n bytes at an offset lie inside the weight area. -/
def inWeights (wb off n : Nat) : Bool := off + n ≤ wb

/-- The checks of R214 on one layer, the i-th. DESIGN CHOICE: R214 rejects a misaligned weight or parameter offset and states an alignment for
W_OFFSET alone; the model asks none of B_OFFSET and G_OFFSET (log entry 49). -/
def layerValid (wb i : Nat) (l : Layer) : Bool :=
  l.outW ≤ 8192 && 1 ≤ l.outW && (i == 0 || l.inW ≤ 8192) &&
  (match l.kind with
  | 1 => (match denseWFmt l.wFmt, denseAFmt l.aFmt with
    | some f, some _ => l.fn == 0 && l.pools == 0 && l.gOff == 0 && l.wOff % 64 == 0
        && l.wBytes == l.outW * rowBytes f l.inW && inWeights wb l.wOff l.wBytes && inWeights wb l.bOff (4 * l.outW)
    | _, _ => false)
  | 2 => l.wFmt == 0 && l.aFmt == 0 && l.fn < 2 && l.pools == 0 && l.outW == l.inW && f32PosNormal l.eps
        && inWeights wb l.gOff (4 * l.inW) && (if l.fn == 1 then inWeights wb l.bOff (4 * l.inW) else l.bOff == 0)
  | 3 => l.wFmt == 0 && l.aFmt == 0 && l.fn < 6 && l.pools == 0 && l.outW == l.inW && l.bOff == 0 && l.gOff == 0
  | 4 =>
    let d := (l.inW - 1) / 2
    i == 0 && l.wFmt == 0 && l.aFmt == 0 && l.fn < 64 && d % 32 == 0 && 1 ≤ l.pools && (d / 32) % l.pools == 0
      && l.outW == crossWidth d l.pools l.fn && l.bOff == 0 && l.gOff == 0
  | _ => false)

/-- Whether each layer takes the width the one before it gives. -/
def widthsChain : Nat → List Layer → Bool
  | _, [] => true
  | w, l :: ls => l.inW == w && widthsChain l.outW ls

/-- Every check of R214 on a model image. -/
def modelValid (bs : List Byte) : Bool :=
  let n := modelLayers bs
  let w := modelInputWidth bs
  let ls := (List.range n).map (parseLayer bs)
  fieldAt bs 0 2 == 1 && 1 ≤ n && n ≤ 24 && fieldAt bs 3 1 == 0 && fieldAt bs 16 48 == 0
  && 65 ≤ w && w ≤ 8193 && w % 2 == 1 && modelWeightBytes bs ≤ 2 ^ 34 && bs.length == 2048 + modelWeightBytes bs
  && ((List.range 24).all fun i => i < n || fieldAt bs (64 + 64 * i) 64 == 0)
  && ((List.range n).all fun i => fieldAt bs (64 + 64 * i + 14) 2 == 0 && fieldAt bs (64 + 64 * i + 52) 12 == 0)
  && widthsChain w ls && (match ls.getLast? with | some l => l.outW == 1 | none => false)
  && ((ls.zipIdx).all fun q => layerValid (modelWeightBytes bs) q.2 q.1)

/-- Element k of a packed row of a format: 4-bit elements take the low bits first (R577, R55). -/
def packedElem (f : VFmt) (bs : List Byte) (k : Nat) : Nat :=
  if fmtBits f = 4 then (bs.getD (k / 2) 0).toNat / (if k % 2 = 0 then 1 else 16) % 16
  else fieldAt bs (k * fmtBits f / 8) (fmtBits f / 8)

/-- A row of n elements as exact values, its E8M0 scales following its elements (R211). -/
def rowVals (f : VFmt) (n : Nat) (bs : List Byte) : List FVal :=
  let codes := (List.range n).map (packedElem f bs)
  if fmtIsMx f then
    (((chunksOf 32 n codes).zipIdx).map fun q => mxVals f ⟨fieldAt bs (n * fmtBits f / 8 + q.2) 1, q.1⟩).flatten
  else match fmtFloat f with
    | some ff => codes.map (fDecode ff)
    | none => codes.map fun c : Nat => vInt (c : Int)

/-- An FP32 value of the weight area. -/
def weightF32 (wa : List Byte) (off i : Nat) : F32 := BitVec.ofNat 32 (fieldAt wa (off + 4 * i) 4)

/-- DENSE of R212. -/
def denseLayer (l : Layer) (wa : List Byte) (x : List F32) : List F32 :=
  match denseWFmt l.wFmt, denseAFmt l.aFmt with
  | some wf, some af =>
    let p := paddedIn l.inW
    let xin := formVals (formOf af (x ++ List.replicate (p - x.length) 0))
    (List.range l.outW).map fun j =>
      let row := rowVals wf p ((wa.drop (l.wOff + j * rowBytes wf l.inW)).take (rowBytes wf l.inW))
      f32Add (dotVals xin row) (weightF32 wa l.bOff j)
  | _, _ => []

/-- NORM of R212. -/
def normLayer (l : Layer) (wa : List Byte) (x : List F32) : List F32 :=
  let n := f32OfInt l.inW
  if l.fn = 0 then
    let ms := f32Div (sumAsc 0 (x.map fun v => f32Mul v v)) n
    let r := f32Rsqrt (f32Add ms l.eps)
    (x.zipIdx).map fun q => f32Mul (f32Mul q.1 r) (weightF32 wa l.gOff q.2)
  else
    let mu := f32Div (sumAsc 0 x) n
    let dv := x.map fun v => f32Sub v mu
    let var := f32Div (sumAsc 0 (dv.map fun v => f32Mul v v)) n
    let r := f32Rsqrt (f32Add var l.eps)
    (dv.zipIdx).map fun q => f32Fma (f32Mul q.1 r) (weightF32 wa l.gOff q.2) (weightF32 wa l.bOff q.2)

/-- The ACT functions of R211. -/
def actFn (fn : Nat) (x : F32) : F32 :=
  match fn with
  | 0 => f32Of (f32Val x)
  | 1 => f32Relu x
  | 2 => f32GeluTanh x
  | 3 => f32Silu x
  | 4 => f32Sigmoid x
  | _ => f32Tanh x

/-- CROSS of R213. -/
def crossLayer (l : Layer) (x : List F32) : List F32 :=
  let d := (l.inW - 1) / 2
  let q := x.take d
  let v := (x.drop d).take d
  let w := d / l.pools
  let qp := chunksOf w l.pools q
  let vp := chunksOf w l.pools v
  (if l.fn.testBit 5 then q ++ v else [])
    ++ (if l.fn.testBit 0 then List.zipWith f32Mul q v else [])
    ++ (if l.fn.testBit 1 then List.zipWith (fun a b => f32Of (vAbs (f32Val (f32Sub a b)))) q v else [])
    ++ (if l.fn.testBit 2 then List.zipWith (fun a b => dotVals (a.map f32Val) (b.map f32Val)) qp vp else [])
    ++ (if l.fn.testBit 3 then
          List.zipWith (fun a b => f32Neg (sumAsc 0 (List.zipWith (fun i j => let e := f32Sub i j; f32Mul e e) a b))) qp vp
        else [])
    ++ (if l.fn.testBit 4 then x.drop (2 * d) else [])

/-- One layer of the model on one row (R212, R213). -/
def runLayer (wa : List Byte) (x : List F32) (l : Layer) : List F32 :=
  match l.kind with
  | 1 => denseLayer l wa x
  | 2 => normLayer l wa x
  | 3 => x.map (actFn l.fn)
  | _ => crossLayer l x

/-- The model's single output for one input row (R147, R212). -/
def runModel (bs : List Byte) (x : List F32) : F32 :=
  let ls := (List.range (modelLayers bs)).map (parseLayer bs)
  (ls.foldl (runLayer (bs.drop 2048)) x).headD f32NaN

/-- A value as BF16, held in FP32 (R147, R50). -/
def asBf16 (x : F32) : F32 := f32Of (fDecode fmtBF16 (fConvert fmtBF16 (f32Val x)))

/-- The model's input row of R147: query and stored vector through BF16, then the present score. -/
def modelRow (q v : List F32) (score : F32) : List F32 := q.map asBf16 ++ v.map asBf16 ++ [score]

end Sys2Proof.Machine
end

