-- ==== Sys2Proof/Machine/Select.lean ====
section
/-! DEFINITION. Selection and merging (chapter 5): unit lists, the fold, final selection, mass sums, and the bytes of the
result buffer. Every function here depends only on candidates, keys and IDs. -/

namespace Sys2Proof.Machine

/-- A candidate as a list holds it (R160): its ID and key, where it was read, and what its INFO word will say (R180). -/
structure Entry where
  id     : W64
  key    : W32
  /-- SOURCE of R180: 0 cell slot, 1 graph node, 2 delta entry. -/
  source : Nat
  /-- Cell and slot, node number and 0, or delta entry index and 0: the state needed to read its refine code (R160). -/
  loc    : Nat × Nat
  /-- KEY_STAGE of R180. -/
  stage  : Nat := 0
  /-- VEC of R180. -/
  vec    : Nat := 0
  /-- SHARD of R180. -/
  shard  : Nat := 0
  deriving DecidableEq, Repr

/-- A mass record of R172: the number of +inf terms, and E and S unless it holds no finite term. -/
structure Mass where
  infN : Nat := 0
  body : Option (Int × F32) := none
  deriving DecidableEq, Repr

/-- A unit list with its record (R159, R160); `cap` is m'. -/
structure UnitList where
  cap       : Nat
  entries   : List Entry := []
  scored    : Nat := 0
  nanCount  : Nat := 0
  dupCount  : Nat := 0
  maxKey    : W32 := 0
  tail      : Mass := {}
  tailCount : Nat := 0
  /-- The largest key that went to the tail: MAX_KEY of R173 is taken over the tail's own keys. -/
  tailMax   : W32 := 0
  /-- EDGE_KEY, 0 while the list is not full. -/
  edgeKey   : W32 := 0
  /-- EDGE_TIES. -/
  edgeTies  : Nat := 0
  /-- Weight done of R153. -/
  done      : Nat := 0
  /-- Weight planned of R153. -/
  plan      : Nat := 0
  deriving DecidableEq, Repr

/-- The running record of a fold (R161); `edges` keeps EDGE_KEY and EDGE_TIES of every unit and fold step (R165). -/
structure Fold where
  list  : UnitList
  edges : List (W32 × Nat) := []
  deriving DecidableEq, Repr

/-- The larger of two keys. -/
def maxKey (a b : W32) : W32 := if a.toNat < b.toNat then b else a

/-- The integer at or above a finite value. -/
def vCeil : FVal → Int
  | .fin n m e =>
    let a : Nat := if 0 ≤ e then m <<< e.toNat else m >>> (-e).toNat
    let r := e < 0 ∧ m % 2 ^ (-e).toNat ≠ 0
    if n then -(a : Int) else if r then (a : Int) + 1 else a
  | _ => 0

/-- u of R171: beta times the score, rounded, clamped to ±2^22. -/
def massU (beta s : F32) : FVal :=
  match f32Val (f32Mul beta s) with
  | .inf n => .fin n (2 ^ 22) 0
  | .nan => vZero
  | v => if vLt (.fin false (2 ^ 22) 0) v then .fin false (2 ^ 22) 0
         else if vLt v (.fin true (2 ^ 22) 0) then .fin true (2 ^ 22) 0 else v

/-- The mass term of a candidate's key (R171). -/
def massTerm (beta : F32) (k : W32) : Mass :=
  match f32Val (keyScore k) with
  | .inf n => if n then {} else { infN := 1 }
  | _ =>
    let u := massU beta (keyScore k)
    let a := vCeil u
    { body := some (a, exp2Rn (vSub u (vInt a))) }

/-- Combination of mass records (R172). -/
def massAdd (r1 r2 : Mass) : Mass :=
  { infN := r1.infN + r2.infN
    body := match r1.body, r2.body with
      | none, b => b
      | b, none => b
      | some (e1, s1), some (e2, s2) =>
        let e := max e1 e2
        some (e, f32Of (vAdd (vScale (f32Val s1) (e1 - e)) (vScale (f32Val s2) (e2 - e)))) }

/-- An entry inserted in rank order (R70). -/
def rankInsert (c : Entry) : List Entry → List Entry
  | [] => [c]
  | e :: es => if candBefore (c.key, c.id) (e.key, e.id) then c :: e :: es else e :: rankInsert c es

/-- Entries put in rank order. -/
def rankSort (es : List Entry) : List Entry := es.foldr rankInsert []

/-- The lowest key of a list in rank order, 0 when it is empty. -/
def lowKey (es : List Entry) : W32 := match es.getLast? with | some e => e.key | none => 0

/-- EDGE_KEY and EDGE_TIES after a list changed and `moved` keys went to its tail: the ties restart when the edge rises
(R159). -/
def edgeUpdate (u : UnitList) (moved : Option W32) : UnitList :=
  if u.entries.length < u.cap then { u with edgeKey := 0, edgeTies := 0 }
  else
    let k := lowKey u.entries
    let base := if k = u.edgeKey then u.edgeTies else 0
    { u with edgeKey := k, edgeTies := base + (if moved = some k then 1 else 0) }

/-- to_tail of R159. -/
def toTail (beta : F32) (e : Entry) (u : UnitList) : UnitList :=
  { u with tail := massAdd u.tail (massTerm beta e.key), tailCount := u.tailCount + 1
           tailMax := maxKey u.tailMax e.key }

/-- A candidate inserted when the list has room, or traded against the lowest entry (R159). -/
def placeEntry (beta : F32) (c : Entry) (u : UnitList) : UnitList :=
  if u.entries.length < u.cap then edgeUpdate { u with entries := rankInsert c u.entries } none
  else match u.entries.getLast? with
    | none => edgeUpdate (toTail beta c u) (some c.key)
    | some low =>
      if candBefore (c.key, c.id) (low.key, low.id) then
        edgeUpdate (toTail beta low { u with entries := rankInsert c u.entries.dropLast }) (some low.key)
      else edgeUpdate (toTail beta c u) (some c.key)

/-- An entry with the same ID, if the list holds one. -/
def sameId (c : Entry) (es : List Entry) : Option Entry := es.find? fun e => e.id == c.id

/-- The list with the entry of an ID removed. -/
def dropId (i : W64) (es : List Entry) : List Entry := es.filter fun e => e.id != i

/-- The larger key of the two copies of an ID stays (R159). -/
def keepLarger (c e : Entry) (u : UnitList) : UnitList :=
  if e.key.toNat < c.key.toNat then
    edgeUpdate { u with entries := rankInsert c (dropId e.id u.entries), dupCount := u.dupCount + 1 } none
  else { u with dupCount := u.dupCount + 1 }

/-- offer of R159: a candidate's score, as a key or none for NaN, offered to its unit's list. -/
def offer (beta : F32) (u : UnitList) (key : Option W32) (c : Entry) : UnitList :=
  match key with
  | none => { u with nanCount := u.nanCount + 1 }
  | some k =>
    let c := { c with key := k }
    match sameId c u.entries with
    | some e => keepLarger c e u
    | none => placeEntry beta c { u with scored := u.scored + 1, maxKey := maxKey u.maxKey k }

/-- One entry of a unit list offered to the running list (R161 step 3). -/
def foldEntry (beta : F32) (u : UnitList) (c : Entry) : UnitList :=
  match sameId c u.entries with
  | some e => keepLarger c e { u with scored := u.scored - 1 }
  | none => placeEntry beta c u

/-- One fold step (R161): the unit list `n` folded into the running record. -/
def foldStep (beta : F32) (f : Fold) (n : UnitList) : Fold :=
  let r := f.list
  let r := { r with
    tail := massAdd r.tail n.tail
    scored := r.scored + n.scored, nanCount := r.nanCount + n.nanCount, dupCount := r.dupCount + n.dupCount
    tailCount := r.tailCount + n.tailCount, done := r.done + n.done, plan := r.plan + n.plan
    maxKey := maxKey r.maxKey n.maxKey, tailMax := maxKey r.tailMax n.tailMax }
  let r := n.entries.foldl (foldEntry beta) (edgeUpdate { r with edgeTies := 0 } none)
  { list := r
    edges := f.edges ++ (if n.edgeTies = 0 then [] else [(n.edgeKey, n.edgeTies)])
      ++ (if r.edgeTies = 0 then [] else [(r.edgeKey, r.edgeTies)]) }

/-- A fold's running list as it is sent on: its EDGE_TIES are those of every unit and fold step at its EDGE_KEY, since no tail copy at a lower key can
tie the last entry returned (R163, R165). -/
def Fold.sent (f : Fold) : UnitList :=
  { f.list with edgeTies := lsum ((f.edges.filter fun q => q.1 == f.list.edgeKey).map (·.2)) }

/-- What final selection needs to know of a command. -/
structure SelParams where
  k        : Nat
  ties     : Bool
  /-- RANGE: the threshold's key (R69, R168). -/
  minKey   : Option W32
  beta     : F32
  /-- Stage C or D ran, or the command is an MSEARCH, so that tail keys count for no tie (R165). -/
  reKeyed  : Bool
  /-- MSEARCH: SCORED is the size of the combined list and the tails enter no sum (R169, R173). -/
  msearch  : Bool
  deriving DecidableEq, Repr

/-- What final selection yields (R164 to R174). -/
structure Selected where
  returned     : List Entry
  outCount     : Nat
  maxKey       : W32
  massSel      : F32
  massOut      : F32
  massInf      : Bool
  tiesExcluded : Nat
  rangeExcess  : Nat
  tiesIncluded : Bool
  deriving DecidableEq, Repr

/-- A reported mass sum (R174). -/
def massReport (umax : FVal) (m : Mass) : F32 :=
  match m.body with
  | none => 0
  | some (e, s) =>
    let d := vSub (vInt e) umax
    let n := -(vCeil (vNeg d))
    let fr := vSub d (vInt n)
    f32Of (vScale (vMul (f32Val s) (f32Val (exp2Rn fr))) n)

/-- Final selection over the final candidate list `cands` with the command's fold `f` (R164 to R174). -/
def finalSelect (p : SelParams) (f : Fold) (cands : List Entry) : Selected :=
  let all := rankSort cands
  let kept := match p.minKey with | some t => all.filter fun (e : Entry) => decide (t.toNat ≤ e.key.toNat) | none => all
  let first := kept.take p.k
  let rest := kept.drop p.k
  let kth := lowKey first
  let full := first.length == p.k
  let extra := if p.ties && full then (rest.takeWhile fun (e : Entry) => e.key == kth).take 64 else []
  let ret := (first ++ extra)
  let out := all.filter fun (e : Entry) => !(ret.any fun r => r.id == e.id)
  let tailTies := if p.reKeyed then 0
    else lsum ((f.edges.filter fun q => q.1 == kth).map fun q => q.2)
  let sel := ret.foldl (fun m (e : Entry) => massAdd m (massTerm p.beta e.key)) {}
  let tail0 := if p.msearch then ({} : Mass) else f.list.tail
  let outM := out.foldl (fun m (e : Entry) => massAdd m (massTerm p.beta e.key)) tail0
  let listMax := cands.foldl (fun k (e : Entry) => maxKey k e.key) 0
  let mk := if p.msearch then listMax else maxKey listMax f.list.tailMax
  let umax := massU p.beta (keyScore mk)
  let anyInf := 0 < sel.infN + outM.infN
  let noMass := mk = 0 ∨ mk = 0x007FFFFF
  let scored := if p.msearch then cands.length else f.list.scored
  { returned := ret
    outCount := scored - min p.k ret.length
    maxKey := mk
    massSel := if anyInf then f32OfInt sel.infN else if noMass then 0 else massReport umax sel
    massOut := if anyInf then f32OfInt outM.infN else if noMass then 0 else massReport umax outM
    massInf := anyInf
    tiesExcluded := if full then (out.filter fun e => e.key == kth).length + tailTies else 0
    rangeExcess := if p.minKey.isSome then (kept.drop ret.length).length else 0
    tiesIncluded := !extra.isEmpty }

/-- The INFO word of R180. -/
def infoWord (tied : Bool) (e : Entry) : Nat :=
  at_ 30 e.source + at_ 28 e.stage + flagAt 27 tied + at_ 16 e.vec + e.shard

/-- One 16 B result entry (R179). -/
def entryBytes (kth : W32) (full : Bool) (e : Entry) : List Byte :=
  leBytes 8 e.id.toNat ++ leBytes 4 e.key.toNat ++ leBytes 4 (infoWord (full && e.key == kth) e)

/-- A filler entry (R166). -/
def fillerBytes : List Byte := leBytes 8 fillerId.toNat ++ leBytes 8 0

/-- The entries as written: returned ones, then fillers up to k (R166, R177). -/
def resultEntries (k : Nat) (s : Selected) : List Byte :=
  let kth := lowKey (s.returned.take k)
  let full := k ≤ s.returned.length
  (s.returned.map (entryBytes kth full)).flatten ++ (List.replicate (k - s.returned.length) fillerBytes).flatten

/-- What the header reports beside the selection (R177). -/
structure HeaderInfo where
  stageCut  : Nat
  coverage  : Nat
  nanCount  : Nat
  dupCount  : Nat
  startView : Nat
  shards    : Nat
  missing   : Nat
  cid       : Nat
  sqid      : Nat
  reruns    : Nat
  trunc     : Bool
  prefilter : Bool
  twin      : Bool
  deriving DecidableEq, Repr

/-- RFLAGS of R178. -/
def rflags (h : HeaderInfo) (s : Selected) : Nat :=
  flagAt 5 s.massInf + flagAt 4 s.tiesIncluded + flagAt 3 h.twin + flagAt 2 h.prefilter + flagAt 0 h.trunc

/-- The 64 B result header (R177). N_VALID is at most k: tied extras count in N_ENTRIES alone (R164). -/
def headerBytes (k : Nat) (h : HeaderInfo) (s : Selected) : List Byte :=
  leBytes 2 (min k s.returned.length) ++ leBytes 2 (max k s.returned.length) ++ leBytes 1 (rflags h s) ++ leBytes 1 h.stageCut
    ++ leBytes 2 h.coverage ++ leBytes 8 s.outCount ++ leBytes 4 s.maxKey.toNat ++ leBytes 4 s.massSel.toNat
    ++ leBytes 4 s.massOut.toNat ++ leBytes 4 s.tiesExcluded ++ leBytes 4 (min h.nanCount 0xFFFFFFFF)
    ++ leBytes 4 h.dupCount ++ leBytes 4 s.rangeExcess ++ leBytes 4 h.startView ++ leBytes 2 h.shards
    ++ leBytes 2 h.missing ++ leBytes 2 h.cid ++ leBytes 2 h.sqid ++ leBytes 1 (min h.reruns 255) ++ leBytes 7 0

/-- Coverage of R153 from the weights done and planned: 256 when the result is whole or cut after scoring. -/
def coverageOf (trunc : Bool) (stageCut done plan : Nat) : Nat :=
  if !trunc || stageCut == 3 || stageCut == 4 || stageCut == 5 || plan == 0 then 256
  else min 255 (256 * done / plan)

end Sys2Proof.Machine
end

