-- ==== Sys2Proof/Machine/StHost.lean ====
section
/-! DEFINITION. Ports, functions, queue pairs, the Deferred Error Log, mailboxes and MSI-X: the state of chapters 12, 13
(mailboxes) and 16 (function block), and the writes and messages the device sends. -/

namespace Sys2Proof.Machine

/-- Something the device sends out of itself: what its host, its sideband, its link partners or its carrier see. -/
inductive Emit where
  /-- A write of bytes to host memory by a function; `relaxed` marks the Relaxed Ordering attribute (R376). -/
  | hostWrite (fn addr : Nat) (relaxed : Bool) (bytes : List Byte)
  /-- An MSI-X message of a function's vector (R401, R527). -/
  | msix (fn vector : Nat)
  /-- A response on the sideband mailbox (R408). -/
  | sideband (bytes : List Byte)
  /-- An answer of the SPDM responder to a request, with the values it carries (R438, R439). -/
  | spdm (req : SpdmReq) (answer : SpdmAnswer) (bytes : List Byte)
  /-- A message sent into the shoal: destination device, MSG_KIND of R452, TAG, and its payload; `resent` marks RESENT. -/
  | shoal (dst kind tag : Nat) (resent : Bool) (bytes : List Byte)
  /-- A flit sent on a lane of a link: its FTYPE and its 256 bytes (R448, R454). -/
  | flit (link lane type : Nat) (bytes : List Byte)
  /-- A write of a VCORE setpoint over AVSBus, in mV (R484). -/
  | avs (half mv : Nat)
  /-- What a function's read of its BAR at an offset returns (R14, R307, R506). -/
  | barRead (fn off : Nat) (bytes : List Byte)
  /-- A value shifted out of the test access port (R563, R568). -/
  | tdo (value : Nat)
  deriving DecidableEq, Repr

/-- One MSI-X table entry (R533; PCIe layout). -/
structure MsixEntry where
  addr   : W64 := 0
  data   : W32 := 0
  /-- Per-vector mask; PCIe resets it to 1. -/
  masked : Bool := true
  deriving DecidableEq, Repr

/-- A queue pair (R370 to R375, R401). -/
@[ext] structure QueuePair where
  /-- OWNING_HALF as fixed at creation (R28). -/
  half      : Nat := 0
  weight    : Nat := 1
  sqSize    : Nat := 2
  cqSize    : Nat := 2
  vector    : Nat := 0
  aggCount  : Nat := 1
  aggTime   : Nat := 0
  sqBase    : Nat := 0
  cqBase    : Nat := 0
  irqEn     : Bool := false
  /-- SQ_TAIL as last accepted, reset 0 (R372). -/
  sqTail    : Nat := 0
  /-- The next entry the HQE fetches; SQHD (R375). -/
  sqHead    : Nat := 0
  /-- The next completion slot written. -/
  cqTail    : Nat := 0
  /-- CQ_HEAD as last accepted, reset 0 (R372). -/
  cqHead    : Nat := 0
  /-- PHASE of the next completion, starting at 1 (R375). -/
  phase     : Bool := true
  /-- Completions posted and not yet consumed. -/
  unread    : Nat := 0
  /-- Commands fetched and not yet completed (R374). -/
  inFlight  : Nat := 0
  /-- The pair is in ERROR (R373). -/
  err       : Bool := false
  /-- Completions posted since the last message for the CQ (R401). -/
  sinceMsg  : Nat := 0
  /-- Start of the coalescing timer of unconsumed completions, in ns (R401). -/
  waitFrom  : Option Nat := none
  /-- A deferred error record of this pair was written since its last completion with DEFERRED (R390, R399). -/
  deferred  : Bool := false
  /-- The FENCE, by fetch stamp, that holds fetching from the pair (R389). -/
  fencedBy  : Option Nat := none
  /-- Entries fetched in the pair's present arbitration turn (R374). -/
  turn      : Nat := 0
  deriving DecidableEq, Repr

/-- The state of one mailbox request slot (R405, R532). -/
inductive SlotState where
  /-- The slot holds no outstanding request. -/
  | idle
  /-- Submitted, not started. -/
  | waiting
  /-- Started by the Ensign holder (R409). -/
  | started
  /-- ASYNC_EVENT_REQUEST held for an event (R413). -/
  | heldForEvent
  /-- The response is written and MB_HEAD has not passed it (MB_DONE). -/
  | done
  deriving DecidableEq, Repr

/-- An event as the event log and the queues hold it (R413). -/
structure Event where
  /-- TYPE. -/
  type   : Nat
  /-- Burgee, or none for a device event. -/
  burgee : Option Nat
  /-- INFO. -/
  info   : W32
  deriving DecidableEq, Repr

/-- A mailbox: a function's window or the sideband mailbox (R405 to R408, R531). -/
@[ext] structure Mailbox where
  /-- MB_REQ_i, 64 B each, reset 0. -/
  req      : Tab (List Byte) := []
  /-- MB_RSP_i, 32 B each, reset 0. -/
  rsp      : Tab (List Byte) := []
  /-- What each slot holds. -/
  slots    : Tab SlotState := []
  /-- MB_TAIL, reset 0. -/
  tail     : Nat := 0
  /-- MB_HEAD, reset 0. -/
  head     : Nat := 0
  /-- MB_STATUS.OVERFLOW, reset 0. -/
  overflow : Bool := false
  /-- Tail writes discarded because more than 32 requests would be outstanding (R408). -/
  overflows : Nat := 0
  /-- Input data that came with a sideband request, by slot (R406). -/
  data     : Tab (List Byte) := []
  /-- Events waiting for an ASYNC_EVENT_REQUEST, oldest first, at most 64 (R413). -/
  events   : List Event := []
  /-- The last 256 events the mailbox received, newest first, with their times in ns (R414 page EVENTS). -/
  received : List (Nat × Event) := []
  /-- Events dropped because the queue was full (R413). -/
  evLost   : Nat := 0
  deriving DecidableEq, Repr

/-- The Deferred Error Log registers and counters of a function (R396, R528). -/
structure DefLog where
  /-- FN_DEL_BASE.BASE as a host address, reset 0. -/
  base    : Nat := 0
  /-- FN_DEL_SIZE.SIZE, reset 0. -/
  size    : Nat := 0
  /-- FN_DEL_HEAD.HEAD, reset 0. -/
  head    : Nat := 0
  /-- FN_DEL_TAIL.TAIL, reset 0. -/
  tail    : Nat := 0
  /-- FN_DEL_TAIL.PHASE, reset 1. -/
  phase   : Bool := true
  /-- FN_DEL_PENDING, reset 0. -/
  pending : Nat := 0
  /-- FN_DEL_LOST, saturating, reset 0. -/
  lost    : Nat := 0
  /-- Records discarded since the previous record written (R397 LOST). -/
  lostRec : Nat := 0
  /-- REC_SEQ of the last record, from 1 (R397). -/
  recSeq  : Nat := 0
  deriving DecidableEq, Repr

/-- The per-client counters of R361, in the order of the readback block of R522. -/
structure Account where
  bytesF    : Nat := 0
  bytesL    : Nat := 0
  bytesLink : Nat := 0
  bytesSpad : Nat := 0
  regStall  : Nat := 0
  preempted : Nat := 0
  spilled   : Nat := 0
  parked    : Nat := 0
  admBound  : Nat := 0
  admBest   : Nat := 0
  boundVoid : Nat := 0
  notAdm    : Nat := 0
  truncated : Nat := 0
  scCycles  : Nat := 0
  escapes   : Nat := 0
  teardowns : Nat := 0
  deriving DecidableEq, Repr

/-- One function: PF or VF (R368, R369, R524 to R533). -/
@[ext] structure Fn where
  /-- FN_IDENT.ASSIGNED, reset 0. -/
  assigned  : Bool := false
  /-- FN_IDENT.BURGEE, reset 0. -/
  burgee    : Nat := 0
  /-- FN_IDENT READ permission, reset 0. -/
  permRead  : Bool := false
  /-- FN_IDENT WRITE permission, reset 0. -/
  permWrite : Bool := false
  /-- FN_IDENT INDEX_ADMIN permission, reset 0. -/
  permAdmin : Bool := false
  /-- FN_CAP.QP_MAX, reset 0. -/
  qpMax     : Nat := 0
  /-- FN_CAP.MSIX_SIZE, reset 1. -/
  msixSize  : Nat := 1
  /-- FN_STATUS.BME, reset 0. -/
  bme       : Bool := false
  /-- VFs of this PF are enabled (SR-IOV, R403). -/
  vfEnable  : Bool := false
  /-- FN_EVENT_STATUS, reset 0. -/
  evStatus  : W32 := 0
  /-- FN_EVENT_MASK, reset 0. -/
  evMask    : W32 := 0
  /-- The Deferred Error Log. -/
  log       : DefLog := {}
  /-- Queue pairs that exist, by QID; FN_QP_LIVE_n and FN_QP_ERR_n read from it. -/
  qps       : Tab QueuePair := []
  /-- The function's mailbox window. -/
  mb        : Mailbox := {}
  /-- MSI-X table. -/
  msix      : Tab MsixEntry := []
  /-- MSI-X Pending Bit Array: the vectors pending. -/
  pba       : List Nat := []
  /-- The latched upper half of a split read: register offset and value (R506). -/
  latch     : Option (Nat × W32) := none
  /-- The lower half of a split write waiting for its upper half: register offset and value (R16). -/
  half      : Option (Nat × W32) := none
  /-- Writes that fell due while Bus Master Enable was clear, in order (R402). -/
  heldOut   : List Emit := []
  /-- The deferred flag of a deleted pair, carried by the function's next completion (R399). -/
  deferred  : Bool := false
  /-- The function's accounting as a client (R361). -/
  account   : Account := {}
  deriving DecidableEq, Repr

/-- A host port (R366, R402). -/
structure Port where
  /-- The port's PCIe link is up. -/
  up       : Bool := false
  /-- The port lost its host and has not retrained (R402). -/
  lost     : Bool := false
  /-- A port reset waits for READY after a WARM reset (R502). -/
  resetDue : Bool := false
  deriving DecidableEq, Repr

end Sys2Proof.Machine
end

