-- ==== Sys2Proof/Machine/StServe.lean ====
section
/-! DEFINITION. Burgees, the Hoist Scheduler, commands in flight, contexts and their remote waits, Search Cluster scheduling
and the Merge Buffers: the state of chapters 4, 5, 11 and of commands between fetch and completion (chapter 12). -/

namespace Sys2Proof.Machine

/-- Which I/O command an entry asks for (R378). -/
inductive IoOp where
  | search | msearch | range | get | insert | upsert | delete | attrSet | fence
  deriving DecidableEq, Repr

/-- Where a command stands. -/
inductive CmdPhase where
  /-- Fetched and checked; a search waits for admission, a write for acceptance, a GET or FENCE for its turn. -/
  | waiting
  /-- A search admitted at a Hoist boundary, or a write accepted. -/
  | active
  /-- Cut at its deadline; its tasks have stopped (R152). -/
  | cut
  /-- The remote lists have closed (R152). -/
  | closed
  deriving DecidableEq, Repr

/-- The search parameters of R119 and R382, resolved. -/
structure SearchParams where
  k         : Nat := 1
  probes    : Nat := 1
  beam      : Nat := 16
  expandMax : Nat := 0
  runAhead  : Nat := 4
  keep      : Nat := 16
  overfetch : Nat := 1
  filterId  : Nat := 0
  beta      : F32 := 0x3F800000
  stageC    : Bool := false
  stageD    : Bool := false
  ties      : Bool := false
  boundOnly : Bool := false
  threshold : Option W32 := none
  nvec      : Nat := 1
  aggSum    : Bool := false
  deriving DecidableEq, Repr

/-- The snapshot of R122. -/
structure Snapshot where
  startView : Nat
  startSeq  : Nat
  entryNode : Nat
  topLevel  : Nat
  /-- DELTA_TAIL and DELTA_HEAD when the snapshot was taken (R156). -/
  deltaTail : Nat
  deltaHead : Nat
  /-- The filter program, transform and resident model of the snapshot (R122, R126, R236). -/
  filter    : Option FilterProg
  transform : Nat
  model     : Nat
  deriving DecidableEq, Repr

/-- A list unit of R156. -/
inductive UnitId where
  /-- Delta unit d of a vector. -/
  | delta (d : Nat)
  /-- Code segment: cell and segment. -/
  | seg (cell s : Nat)
  /-- The walk. -/
  | walk
  deriving DecidableEq, Repr

/-- A piece of a command's or group's demand (R349, R351): units of one cost still to do, the tier and bytes each is charged, and the
bytes charged once while any is left. -/
structure Demand where
  /-- 0 survey, 1 centroid scan, 2 table build, 3 delta, 4 L2SQ tables, 5 code blocks, 6 centroid walk, 7 expansions, 8 stage C,
  9 stage D. -/
  step  : Nat
  units : Nat
  cu    : Nat
  lTier : Bool := true
  bytes : Nat := 0
  once  : Nat := 0
  deriving DecidableEq, Repr

/-- A batch group (R351): the work that one boundary's commands on one index share. -/
structure Batch where
  index   : Nat
  members : List Nat
  pieces  : List Demand
  deriving DecidableEq, Repr

/-- One query vector of a command with its own stages A and B, units and fold (R148, R169). -/
structure VecRun where
  /-- Stage A has run (R127 to R130). -/
  stageA   : Bool := false
  /-- Cells to scan, in probe order, each with its cell term (R127, R130, R144). -/
  cells    : List (Nat × F32) := []
  /-- The entry node of the level-0 walk (R129). -/
  entry    : Option Nat := none
  /-- Units in unit order (R156). -/
  units    : List UnitId := []
  /-- Units that have started. -/
  started  : List Nat := []
  /-- Unit lists sent to the Merge Buffer and not yet folded, by unit number (R160). -/
  arrived  : Tab UnitList := []
  /-- The next unit the fold takes (R161). -/
  nextFold : Nat := 0
  /-- The running record. -/
  fold     : Fold := { list := { cap := 1 } }
  /-- On a shoal index: the shard lists that have arrived, by device; the devices whose lists are folded; and their fold (R163). -/
  shards   : Tab UnitList := []
  joined   : List Nat := []
  merged   : Fold := { list := { cap := 1 } }
  deriving DecidableEq, Repr

/-- What a command of another device asks of this one, and where its answer goes (R359, R467 to R472). -/
structure RemoteOrigin where
  /-- The position of the device that sent the request. -/
  device : Nat
  /-- The request's tag. -/
  tag    : Nat
  /-- The link on which it arrived, which fixes the owning half (R28). -/
  link   : Nat
  /-- The requester's command was bounded (R359). -/
  bound  : Bool
  /-- MSG_KIND of the request: ENTRY_REQUEST, SHARD_TASK, REFINE_REQUEST or a forwarded write. -/
  kind   : Nat := 0x08
  /-- FETCH_STAMP of the command at its owner (R467). -/
  fetch  : Nat := 0
  /-- Transform version of the header (R467). -/
  xform  : Nat := 0
  /-- The candidates of a REFINE_REQUEST: ID and key in request order (R470). -/
  cands  : List (W64 × W32) := []
  /-- Its query vectors in the index's refine form (R146, R468). -/
  forms  : List VForm := []
  deriving DecidableEq, Repr

/-- A command in flight, from its fetch to its completion. -/
@[ext] structure Cmd where
  /-- The fetch stamp (R374). -/
  stamp     : Nat
  fn        : Nat
  qid       : Nat
  half      : Nat
  burgee    : Nat
  cid       : Nat
  indexNo   : Nat
  op        : IoOp
  /-- T0 in ns (R120, R374). -/
  t0        : Nat
  /-- Deadline instant in ns; none for commands without one. -/
  deadline  : Option Nat
  phase     : CmdPhase := .waiting
  /-- Result or GET buffer (R380): its segments as (address, length). -/
  out       : List (Nat × Nat)
  /-- ID of a GET or write. -/
  id        : W64 := 0
  /-- The entry's command-specific flags: GFLAGS, WORD_MASK, or FENCE SCOPE and FFLAGS. -/
  flags     : Nat := 0
  /-- Query vectors as prepared, or the write's vector (R121). -/
  vecs      : List (List F32) := []
  /-- Filter parameter words (R381). -/
  ps        : List W64 := []
  /-- Attribute words of a write (R385). -/
  attrs     : List W64 := []
  sp        : SearchParams := {}
  snap      : Option Snapshot := none
  /-- Bounded, best-effort rank 3, or background: the rank of its contexts (R340). -/
  rank      : Nat := 3
  /-- Admitted bounded, for the BOUND flag (R390), and whether that bound has been voided (R349, R359). -/
  bound     : Bool := false
  voided    : Bool := false
  /-- Chunks of 16 vectors admitted so far (R148). -/
  chunks    : Nat := 0
  /-- The admission instant in ns. -/
  admitted  : Nat := 0
  /-- The prefilter decision of R144. -/
  prefilter : Bool := false
  /-- One run per query vector. -/
  runs      : List VecRun := []
  /-- Stage reached: 1 A, 2 B, 3 C, 4 D, 5 selection (R151). -/
  stage     : Nat := 1
  /-- Merged candidates of stage B (R133, R149). -/
  listB     : List Entry := []
  /-- After stage C. -/
  listC     : Option (List Entry) := none
  /-- After stage D. -/
  listD     : Option (List Entry) := none
  /-- NaN scores of stages A, C and D (R127, R167). -/
  nanExtra  : Nat := 0
  /-- STAGE_CUT, 0 while not cut. -/
  stageCut  : Nat := 0
  /-- Lockstep re-runs (R176). -/
  reruns    : Nat := 0
  /-- Tag mismatches and poisoned slots of the command's contexts (R208, R262). -/
  restarts  : Nat := 0
  /-- Shards sent to, missing, and whether a twin answered (R154, R177). -/
  shards    : List Nat := []
  shardsIn  : List Nat := []
  shardCov  : List Nat := []
  /-- A shard's list carried TRUNC (R154). -/
  shardTrunc : Bool := false
  missing   : Nat := 0
  twin      : Bool := false
  /-- WRITE_SEQ of an accepted write (R386). -/
  writeSeq  : Nat := 0
  /-- A write's place in the order of acceptance of its index, and whether it has been applied: its status and effect are decided
  (R386, R393). -/
  accepted  : Option Nat := none
  applied   : Bool := false
  /-- The status decided at acceptance or by a fault; none while it is SUCCESS so far. -/
  status    : Option Nat := none
  /-- FENCE: the stamps of W that have not finished, and their count (R389). -/
  fenceSet  : List Nat := []
  fenceN    : Nat := 0
  /-- Bytes reserved in the Merge Buffer (R162). -/
  mbBytes   : Nat := 0
  /-- The request of another device that this task serves. -/
  remote    : Option RemoteOrigin := none
  /-- SHOAL_VIEW of the snapshot (R465). -/
  shoalView : Nat := 0
  /-- Remaining demand of its own, and its critical latency, in floor cycles (R349 to R351). -/
  work      : List Demand := []
  lat       : Nat := 0
  /-- Tags of its messages that await an answer: a write forwarded to its home, to a holder or to a twin, or a GET (R472, R473). -/
  forwarded : List Nat := []
  deriving DecidableEq, Repr

/-- STATE of a Remote Reply Table entry (R357). -/
inductive RrtState where
  | free | waiting | parked | cancelled
  deriving DecidableEq, Repr

/-- A Remote Reply Table entry (R357). -/
structure RrtEntry where
  tag      : Nat
  device   : Nat
  vc       : Nat
  state    : RrtState
  len      : Nat
  slotAddr : Nat
  deadline : Nat
  issued   : Nat
  reply    : List Byte := []
  deriving DecidableEq, Repr

/-- How a context stands on its SC. -/
inductive CtxState where
  | ready | running | yielded | spilled | remote
  deriving DecidableEq, Repr

/-- What a background context does (R209, R340). -/
inductive BgTask where
  | merge (index : Nat)
  | rewrite (index unit : Nat)
  | job (no : Nat)
  | other
  deriving DecidableEq, Repr

/-- A context: the work of one unit, or a background task, on one SC (R340, R354 to R358). -/
structure Ctx where
  id      : Nat
  /-- The command it serves, none for background and OWN work. -/
  cmd     : Option Nat
  /-- The background task it belongs to. -/
  task    : BgTask := .other
  burgee  : Nat
  rank    : Nat
  deadline : Nat := 0
  stamp   : Nat := 0
  unit    : Nat := 0
  /-- Query vector of the command it runs. -/
  vec     : Nat := 0
  sc      : Nat
  state   : CtxState := .ready
  /-- A unit that has started never moves (R360). -/
  started : Bool := false
  /-- When it started on its SC, for the choice of victims (R355). -/
  order   : Nat := 0
  /-- Banks it needs and holds on its SC. -/
  need    : Nat := 0
  banks   : List Nat := []
  /-- Tile buffers it holds. -/
  tiles   : List Nat := []
  /-- It uses the VE. -/
  usesVe  : Bool := false
  /-- Banks spilled, which fill brings back, each with the F-tier address that holds its bytes (R355). -/
  spilled : List (Nat × Nat) := []
  /-- Since when, in ns, it has waited for a Filter Unit slot (R203). -/
  fuWait  : Option Nat := none
  /-- Escape reservations of its rings, by F-tier address (R263). -/
  escapes : List Nat := []
  rrt     : List RrtEntry := []
  /-- Tag mismatches and poisoned slots of a background context: the first restarts, the second tears down (R208, R262). -/
  restarts : Nat := 0
  deriving DecidableEq, Repr

/-- One Search Cluster's scheduling state (R26, R341, R176). -/
structure ScSched where
  /-- Out of service after a second lockstep mismatch or a failed self-test (R176, R423). -/
  out      : Bool := false
  /-- Credits by burgee, in sixteenths of a cycle (R341). -/
  credit   : Tab Int := []
  /-- The context that holds the engines. -/
  running  : Option Nat := none
  /-- A preempting context that waits for spill writes (R355). -/
  starting : Option Nat := none
  /-- Lockstep mismatches counted. -/
  mismatch : Nat := 0
  /-- The step, by context, whose first mismatch was seen, and whether its re-run has begun (R176). -/
  suspect  : Option Nat := none
  rerun    : Bool := false
  /-- Dip points passed, for start order. -/
  dips     : Nat := 0
  deriving DecidableEq, Repr

/-- A Merge Buffer (R28, R162, R176). -/
structure MergeBuf where
  out      : Bool := false
  /-- Bytes reserved, of 32 MiB. -/
  used     : Nat := 0
  mismatch : Nat := 0
  /-- The command whose fold step saw its first mismatch. -/
  suspect  : Option Nat := none
  deriving DecidableEq, Repr

/-- A regulator bucket (R345). -/
structure Bucket where
  /-- Rate in GB/s. -/
  rate  : Nat := 0
  /-- Tokens in bytes; a charge may take them below 0. -/
  level : Int := 0
  deriving DecidableEq, Repr

/-- A placement-map entry: a copy of an L-tier unit held in the F-tier (R111 to R113). -/
structure Placed where
  index    : Nat
  /-- UNIT_KIND and unit number. -/
  kind     : Nat
  unit     : Nat
  fAddr    : Nat
  bytes    : Nat
  /-- The entry is valid for reads from this view on. -/
  valid    : Bool
  fromView : Nat
  deriving DecidableEq, Repr

/-- F-tier space of a left placement entry that returns to the pool once its view is released (R115). -/
structure LeftSpace where
  index : Nat
  view  : Nat
  fAddr : Nat
  bytes : Nat
  deriving DecidableEq, Repr

/-- A burgee's partition (R342 to R346, R334, R437, R522). -/
@[ext] structure Burgee where
  /-- ENABLED of its geometry record; BRG_STATE.ENABLED, reset 0. -/
  enabled   : Bool := false
  /-- HALF_LOCAL. -/
  halfLocal : Bool := false
  /-- SC_SET. -/
  scSet     : W64 := 0
  /-- FLOOR, CALL and SHARE per SC. -/
  floor     : List Nat := []
  call      : List Nat := []
  share     : List Nat := []
  /-- A geometry write that changes the burgee waits; GEOMETRY_WAIT, reset 0. -/
  geoWait   : Bool := false
  /-- H in µs, reset 100 (R337). -/
  hoist     : Nat := 100
  /-- The instant of the last boundary, in ns (R337). -/
  lastBound : Nat := 0
  /-- DEFAULT_DEADLINE in µs, reset 2000 (R120). -/
  defDead   : Nat := 2000
  /-- MAX_BATCH, 256 after configuration. -/
  maxBatch  : Nat := 256
  /-- RW in µs, 200 after configuration. -/
  rw        : Nat := 200
  /-- The smallest RW firmware computed at shoal formation (R359). -/
  rwMin     : Nat := 25
  /-- PREFETCH, 8 after configuration. -/
  prefetch  : Nat := 8
  /-- BURST in µs, 8 after configuration. -/
  burst     : Nat := 8
  /-- F_HI, F_LO, L_HI, L_LO, LINK_HI, LINK_LO, SPAD_HI, SPAD_LO; rates and levels reset 0. -/
  buckets   : List Bucket := List.replicate 8 {}
  /-- PLACEMENT quota in 256 MiB units, reset 0, and period in ms, reset 10 (R334). -/
  quota     : Nat := 0
  period    : Nat := 10
  /-- When the present placement period began, in ns. -/
  periodAt  : Nat := 0
  /-- Placement map entries (R111). -/
  placed    : List Placed := []
  /-- Space waiting for a view (R115). -/
  left      : List LeftSpace := []
  /-- Batch groups with work left (R351). -/
  groups    : List Batch := []
  /-- The key draw in force: 0 before the first, else the device's draw number (R437). -/
  keyEpoch  : Nat := 0
  /-- Transfers of the burgee refused by the owner of a granule (R306). -/
  refused   : Nat := 0
  /-- The readback counters of R523. -/
  readback  : Account := {}
  /-- The background client's counters (R361). -/
  bgAccount : Account := {}
  /-- Queue-wait histograms per client: the function, or 256 for the background client (R361, R362). -/
  qwait     : Tab (List Nat) := []
  /-- QWAIT_MAX per client, in µs. -/
  qwaitMax  : Tab Nat := []
  deriving DecidableEq, Repr

end Sys2Proof.Machine
end

