-- ==== Sys2Proof/Machine/StIndex.lean ====
section
/-! DEFINITION. Index structures (chapter 3): the index record, cells and slots, the graph, the delta segment, the ID map,
codebooks, loaded programs and rewrites. Their bytes as the L-tier holds them are given by Machine/Layout.lean. -/

namespace Sys2Proof.Machine

/-- KIND of R77. -/
inductive IndexKind where
  | flat | cell | graph
  deriving DecidableEq, Repr

/-- A slot position of a slot block with its refine code and scale record (R92, R93). The filler ID marks an unused one. -/
structure Slot where
  id     : W64
  /-- Primary code: one entry index per subspace, or one bit per dimension for SIGN1 (R60, R64). -/
  code   : List Nat
  attrs  : List W64
  /-- Refine code, when the index stores them (R93). -/
  refine : Option VForm := none
  /-- Nv of the scale record, for L2SQ (R59, R93). -/
  norm   : F32 := 0
  deriving DecidableEq, Repr

/-- A slot block's header fields beside its tag and its positions (R92). -/
structure BlockHead where
  /-- N_USED. -/
  used      : Nat := 0
  /-- FRESH_MASK as the positions it names. -/
  freshMask : List Nat := []
  /-- FRESH_VIEW; 0 counts as released. -/
  freshView : Nat := 0
  deriving DecidableEq, Repr

/-- One copy of a cell's set: its generation, extents and contents (R90, R92 to R95). -/
structure CellSet where
  gen        : Nat := 1
  seqBase    : Nat := 0
  refineSeq  : Nat := 0
  capBlocks  : Nat := 0
  slotBase   : Nat := 0
  tombBase   : Nat := 0
  refineBase : Nat := 0
  scaleBase  : Nat := 0
  slots      : Tab Slot := []
  blocks     : Tab BlockHead := []
  /-- Slots whose tombstone bit is 1 (R95). -/
  tombs      : List Nat := []
  deriving DecidableEq, Repr

/-- A record of the catch-up list of R110. -/
inductive CatchUp where
  | attr (slot : Nat) (words : List W64)
  | tomb (slot : Nat)
  | edge (node nbr : Nat)
  deriving DecidableEq, Repr

/-- A rewrite under way (R108, R110). -/
structure Rewrite where
  /-- Re-encode under TARGET_GEN, or relocation. -/
  reencode : Bool
  /-- Blocks of the new extent, for a relocation. -/
  newCap   : Nat
  /-- The new extent, its bytes, and whether they came from REWRITE_WINDOW. -/
  base     : Nat
  bytes    : Nat
  window   : Bool
  catchUp  : List CatchUp := []
  deriving DecidableEq, Repr

/-- A cell (R90 to R97, R209). -/
structure Cell where
  /-- CELL_STATE: 0 unused, 1 active, 2 rewriting. -/
  state     : Nat := 1
  /-- SUMMARY_VALID and SUMMARY (R91). -/
  summary   : Summary := ⟨true, [], []⟩
  /-- CUT_VIEW. -/
  cutView   : Nat := 0
  /-- N_SLOTS. -/
  nSlots    : Nat := 0
  /-- N_LIVE. -/
  nLive     : Nat := 0
  /-- MERGE_VIEW. -/
  mergeView : Nat := 0
  cur       : CellSet := {}
  /-- HAS_PREV and the previous set. -/
  prev      : Option CellSet := none
  /-- The rewrite under way. -/
  rewrite   : Option Rewrite := none
  /-- The previous copy's space returns to the window, or to free space (R108 step 6). -/
  prevBytes : Nat := 0
  prevWindow : Bool := false
  /-- An abandoned rewrite is retried no sooner than this instant (R110). -/
  retryAt   : Option Nat := none
  /-- Compaction passes: the view recorded and the slots that become free with it (R95). -/
  compact   : List (Nat × List Nat) := []
  /-- Free slots (R95). -/
  free      : List Nat := []
  /-- Consecutive rewrite attempts that met SCALE_SKEW (R209). -/
  skews     : Nat := 0
  /-- Marked failed under R209. -/
  failed    : Bool := false
  deriving DecidableEq, Repr

/-- A level-0 node block with its refine code (R100). -/
structure Node where
  id     : W64
  /-- NODE_VIEW; 0 counts as released. -/
  view   : Nat
  /-- UPPER_INDEX. -/
  upper  : Nat
  level  : Nat
  /-- NEIGHBOURS: the entries claimed, DEGREE of them. -/
  nbrs   : List Nat
  sketch : List Bool
  code   : List Nat
  attrs  : List W64
  refine : Option VForm := none
  norm   : F32 := 0
  deriving DecidableEq, Repr

/-- A node group (R99). -/
structure Group where
  /-- GROUP_STATE. -/
  state     : Nat := 1
  gen       : Nat := 1
  prevGen   : Nat := 0
  cutView   : Nat := 0
  refineSeq : Nat := 0
  /-- N_NODES. -/
  nNodes    : Nat := 0
  curBase   : Nat := 0
  prevBase  : Nat := 0
  /-- Nodes by position. -/
  nodes     : Tab Node := []
  /-- The previous copy's nodes, while PREV_BASE is not 0. -/
  prev      : Option (Tab Node) := none
  rewrite   : Option Rewrite := none
  prevBytes : Nat := 0
  prevWindow : Bool := false
  retryAt   : Option Nat := none
  /-- Consecutive rewrite attempts that met SCALE_SKEW (R209). -/
  skews     : Nat := 0
  failed    : Bool := false
  deriving DecidableEq, Repr

/-- A GRAPH structure: the groups, the upper-layer neighbour lists by block number and the entry (R99 to R104). -/
structure Graph where
  groups   : Tab Group := []
  /-- Upper-layer blocks by block number: node, level and neighbours. -/
  uppers   : Tab (Nat × Nat × List Nat) := []
  /-- Nodes allocated. -/
  nNodes   : Nat := 0
  /-- Upper-layer blocks allocated. -/
  nUppers  : Nat := 0
  /-- ENTRY_NODE as last published; 0xFFFF_FFFF while the index has no node. -/
  entry    : Nat := 0xFFFFFFFF
  /-- TOP_LEVEL. -/
  top      : Nat := 0
  /-- Nodes whose tombstone bit is 1. -/
  tombs    : List Nat := []
  deriving DecidableEq, Repr

/-- A delta entry (R105), with the write it came from for deferred errors (R397). -/
structure DeltaEntry where
  id       : W64
  endView  : Nat
  /-- STATE: 0 free, 1 live, 2 deleted, 3 superseded, 4 merged. -/
  state    : Nat
  upsert   : Bool
  failed   : Bool
  target   : Nat
  slot     : Nat
  logSeq   : Nat
  attrs    : List W64
  /-- The MXFP8_E4M3 vector, or the BIN1 vector as a SIGN1 form for HAM (R105). -/
  vec      : VForm
  fn       : Nat
  sqid     : Nat
  cid      : Nat
  /-- The fetch stamp of the write, for FENCE (R389). -/
  stamp    : Nat := 0
  /-- MERGE_NO_SPACE has been reported for it (R398). -/
  reported : Bool := false
  deriving DecidableEq, Repr

/-- Where the ID map says a vector lies (R83): KIND and LOCATION. -/
inductive Loc where
  | slot (cell slot : Nat)
  | node (n : Nat)
  | delta (e : Nat)
  deriving DecidableEq, Repr

/-- An index (R77) with its structures and loaded programs. -/
@[ext] structure Index where
  indexNo     : Nat
  kind        : IndexKind
  metric      : Metric
  dim         : Nat
  inputFmt    : VFmt
  primaryFmt  : VFmt
  /-- REFINE: the format when PRESENT is set. -/
  refine      : Option VFmt
  attrWords   : Nat
  subspaces   : Nat
  headroom    : Nat
  stageA      : Nat
  burgee      : Nat
  centroidFmt : VFmt
  liveGen     : Nat := 1
  targetGen   : Nat := 1
  /-- VIEW, starting at 1 (R81). -/
  view        : Nat := 1
  nCells      : Nat
  nCap        : Nat
  nLive       : Nat := 0
  hdrBase     : Nat
  /-- Where the parts of its fixed L-tier space lie (R77, R97). -/
  bases       : List Nat := []
  centroidBase : Nat
  codebookLiveBase : Nat
  codebookTargetBase : Nat
  idMapBase   : Nat
  idMapBuckets : Nat
  deltaEntries : Nat
  deltaFBase  : Nat
  deltaLogBase : Nat
  deltaHead   : Nat := 0
  deltaTail   : Nat := 0
  graphAuxBase : Nat
  refineBase  : Nat
  placementBase : Nat
  rewriteWindow : Nat
  /-- Centroids in ascending cell number (R88). -/
  centroids   : List VForm
  /-- Codebook sets by generation (R89). -/
  codebooks   : Tab Codebook
  /-- A codebook set that waits for the view of the last cut-over: its generation and that view (R109). -/
  oldBook     : Option (Nat × Nat) := none
  /-- The pending codebook set's generation, 0 for none, and the highest generation used (R298). -/
  pendingGen  : Nat := 0
  lastGen     : Nat := 1
  cells       : Tab Cell := []
  graph       : Graph := {}
  /-- The centroid graph of STAGE_A = 1 (R103). -/
  cgraph      : Graph := {}
  delta       : Tab DeltaEntry := []
  /-- LOG_SEQ and WRITE_SEQ assigned so far (R386, R122). -/
  writeSeq    : Nat := 0
  lastLogSeq  : Nat := 0
  /-- ID map: bucket to position to entry word (R83). -/
  idMap       : Tab (Tab W64) := []
  /-- As a home: locations on other devices that its ID map names, with their IDs (R472, R474). -/
  away        : List (Loc × W64) := []
  /-- Entries of KIND 1, 2 or 3 (R86). -/
  occupied    : Nat := 0
  filters     : Tab FilterProg := []
  /-- Loads of each FILTER_ID so far, which number its versions (R126, R467). -/
  filterLoads : Tab Nat := []
  /-- Loaded score transforms by version, and the current version; 0 is none (R236). -/
  transforms  : Tab (List Byte) := []
  transform   : Nat := 0
  lastTransform : Nat := 0
  adapter     : Adapter := ⟨0, [], []⟩
  /-- L-tier bytes reserved under R116 and taken beyond it by relocations. -/
  reserved    : Nat
  /-- Window bytes in use by superseded sets (R108). -/
  windowUsed  : Nat := 0
  /-- VIEW as its burgee's last Hoist boundary left it, 0 before one (R79). -/
  boundView   : Nat := 0
  /-- The VIEW when the present settle-sweep pass began, and waits counted for it (R81). -/
  sweepFrom   : Nat := 1
  viewWaits   : Nat := 0
  /-- Deleted: it lies past the index numbers, and its space is freed after release of this view (R417). -/
  deletedAt   : Option Nat := none
  /-- The shoal index it is a shard of, and its place there; none for a local one (R464, R478). -/
  shoalNo     : Option Nat := none
  /-- The cells it holds as a shard; empty for all. -/
  shoalCells  : List (Nat × Nat) := []
  /-- SHOAL_VIEW as last published (R465). -/
  shoalView   : Nat := 0
  deriving DecidableEq, Repr

end Sys2Proof.Machine
end

