-- ==== Sys2Proof/Machine/StLink.lean ====
section
/-! DEFINITION. Swiold Links and the shoal (chapter 14): lanes, bring-up, hails, flits, credits and replay, routing, the
directory, forwarded writes and remote requests; and the link-test registers of R572. -/

namespace Sys2Proof.Machine

/-- One lane of a link (R443 to R445). -/
structure Lane where
  /-- In service. -/
  up        : Bool := false
  /-- Insertion loss in 1/16 dB, and the largest reflection's size and position, as measured at bring-up. -/
  loss      : Nat := 0
  reflSize  : Nat := 0
  reflAt    : Nat := 0
  /-- Counts of GOOD, LOW and CRITICAL windows, and CRITICAL windows in a row. -/
  good      : Nat := 0
  low       : Nat := 0
  critical  : Nat := 0
  critRun   : Nat := 0
  /-- Start of the lane's retrain, in ns (R445). -/
  retrainAt : Option Nat := none
  /-- A retrain became due while admission was frozen (R445). -/
  retrainDue : Bool := false
  /-- When the lane last asked for a tap change, in ns (R445). -/
  txeqAt    : Option Nat := none
  /-- Transmitter tap changes applied at the partner's requests, newest last. -/
  taps      : List Nat := []
  deriving DecidableEq, Repr

/-- Where a link stands (R444, R447, R456). -/
inductive LinkState where
  /-- Held down by rule (R459), by its length or by its clock. -/
  | off
  /-- Training, from step 1. -/
  | training
  /-- Trained and locked, its partner's hail awaited (R444 step 5). -/
  | locked
  /-- Trained, carrying HAIL flits only. -/
  | held
  /-- Up on its management virtual channel only. -/
  | mgmtOnly
  | up
  deriving DecidableEq, Repr

/-- A flit kept for replay (R455). -/
structure SentFlit where
  seq   : Nat
  vc    : Nat
  leg   : Bool
  bytes : List Byte
  /-- The message it belongs to, by its number on the link. -/
  msg   : Nat
  /-- It carries its message's TAIL. -/
  tail  : Bool
  /-- It has been acknowledged, but its message's TAIL has not. -/
  acked : Bool := false
  deriving DecidableEq, Repr

/-- A message, whole: as queued for a link or as received (R451). -/
structure Msg where
  src    : Nat
  dst    : Nat
  tag    : Nat
  kind   : Nat
  vc     : Nat
  /-- TAGS of R448. -/
  tags   : Nat
  leg    : Bool := true
  resent : Bool := false
  detour : Bool := false
  hops   : Nat := 0
  /-- Its number on the link that sends it, and the payload bytes sent so far. -/
  no     : Nat := 0
  off    : Nat := 0
  bytes  : List Byte
  /-- The link on which it arrived whole, at the device that received it (R28). -/
  port   : Option Nat := none
  deriving DecidableEq, Repr

/-- A message being received on one virtual channel and leg of a link. -/
structure PartMsg where
  vc    : Nat
  leg   : Bool
  msg   : Msg
  /-- A flit of it failed its E2E_CRC (R450). -/
  bad   : Bool := false
  deriving DecidableEq, Repr

/-- Loopback and pattern tests of a link (R572). -/
structure LinkTest where
  /-- LT_CTRL.MODE, reset 0. -/
  mode    : Nat := 0
  /-- LT_CTRL.PATTERN, reset 0. -/
  pattern : Nat := 0
  /-- LT_CTRL.RATE, reset 0. -/
  rate    : Nat := 0
  /-- LT_CTRL.LANES, reset 0b11. -/
  lanes   : Nat := 3
  /-- LT_STATUS.REFUSED, saturating, reset 0. -/
  refused : Nat := 0
  /-- LT_STATUS.LOCKED, reset 0. -/
  locked  : Nat := 0
  /-- LT_ERR_0, LT_ERR_1, reset 0. -/
  err0    : W64 := 0
  err1    : W64 := 0
  /-- LT_BITS_0, LT_BITS_1, reset 0. -/
  bits0   : W64 := 0
  bits1   : W64 := 0
  deriving DecidableEq, Repr

/-- What a partner's hail said (R446). -/
structure Partner where
  device : Nat
  link   : Nat
  roles  : Nat
  spare  : Nat
  epoch  : Nat
  serial : List Byte
  deriving DecidableEq, Repr

/-- One Swiold Link. -/
@[ext] structure Link where
  state     : LinkState := .training
  /-- Its quad's reference clock runs (R442, R552). -/
  clock     : Bool := true
  /-- FULL rather than HALF (R443). -/
  full      : Bool := false
  /-- LINK_CONTROL caps it at HALF, or holds it (R478). -/
  capHalf   : Bool := false
  ctlHold   : Bool := false
  lane0     : Lane := {}
  lane1     : Lane := {}
  /-- Start of the present bring-up, in ns, whether the medium is active, and failures counted (R444). -/
  startAt   : Nat := 0
  active    : Bool := false
  failures  : Nat := 0
  /-- One-way delay measured, in ns (R444 step 5). -/
  delay     : Nat := 0
  /-- The partner's last hail, judged (R446, R447). -/
  partner   : Option Partner := none
  /-- ACCEPT of the next hail sent: the partner's last hail passed. -/
  accept    : Bool := false
  /-- Times of the last HAIL and KEEPALIVE sent on lane 0 and lane 1, and of the last valid KEEPALIVE received, in ns. -/
  hailAt0   : Option Nat := none
  hailAt1   : Option Nat := none
  keepAt0   : Option Nat := none
  keepAt1   : Option Nat := none
  keepRx    : Nat := 0
  /-- Credits held to send, by 2 x VC + LEG (R453). -/
  credits   : List Nat := [240, 240, 360, 360, 400, 400, 24, 24]
  /-- Credits to be returned to the partner, by 2 x VC + LEG. -/
  owed      : List Nat := List.replicate 8 0
  /-- SEQ of the next DATA flit, and the SEQ expected (R448, R450). -/
  txSeq     : Nat := 0
  rxSeq     : Nat := 0
  /-- The replay buffer, oldest first (R455). -/
  sent      : List SentFlit := []
  /-- Messages waiting or partly sent, in order (R451, R454), and messages sent whole but not wholly acknowledged. -/
  queue     : List Msg := []
  unacked   : List Msg := []
  nextMsg   : Nat := 0
  /-- Since when a class of 2 x VC + LEG has had no credit, in ns (R462). -/
  starved   : Tab Nat := []
  /-- Messages being received. -/
  parts     : List PartMsg := []
  /-- Time of the last REPLAY_REQ sent, and of the replays of the last millisecond (R455). -/
  reqAt     : Option Nat := none
  replays   : List Nat := []
  /-- The counters of the link block, in the order of R574: 16 of them. -/
  counters  : List Nat := List.replicate 16 0
  test      : LinkTest := {}
  deriving DecidableEq, Repr

/-- A device of the directory (R464). -/
structure Member where
  /-- 0 member, 1 unjoined, 2 restoring, 3 leaving, 4 LOST, as SPARE with LOST added. -/
  state : Nat := 1
  /-- SEARCH, REFINE and BUILD bits, as ROLES of R446. -/
  roles : Nat := 0
  deriving DecidableEq, Repr

/-- A shoal index as the directory holds it (R464 to R466, R470, R472). -/
structure ShoalIndex where
  no      : Nat
  burgee  : Nat
  /-- ROUTED rather than BROADCAST. -/
  routed  : Bool
  /-- The cells each position holds. -/
  shards  : Tab (List Nat)
  /-- The 256 home-map entries. -/
  homes   : List Nat
  /-- For each shard position, its REFINE position and COVER. -/
  refine  : Tab (Nat × Nat)
  /-- SHOAL_VIEW (R465). -/
  view    : Nat := 1
  /-- Shard maps that later ones replaced, each with the last view that used it (R465). -/
  past    : List (Nat × Tab (List Nat)) := []
  /-- When each view was applied here, in ns (R465). -/
  seenAt  : Tab Nat := []
  /-- The input data of R417 it was created from. -/
  spec    : List Byte := []
  deriving DecidableEq, Repr

/-- A write this device forwarded and keeps until its reply (R472). -/
structure Forwarded where
  stamp  : Nat
  home   : Nat
  fwdSeq : Nat
  tag    : Nat
  at_    : Nat
  bytes  : List Byte
  resent : Bool := false
  deriving DecidableEq, Repr

/-- A remote request outstanding at this device for one of its commands (R357, R358, R469). -/
structure Outstanding where
  tag   : Nat
  kind  : Nat
  stamp : Nat
  dst   : Nat
  at_   : Nat
  deriving DecidableEq, Repr

/-- A shipment under way from this device: delta entries of a merge, or cells that move (R474, R478). -/
structure ShipBatch where
  index   : Nat
  /-- Its number, which its SHIPs carry. -/
  tag     : Nat
  /-- Delta entries of the batch, with their IDs. -/
  entries : List (Nat × W64) := []
  /-- Places the targets gave: entry, cell, slot and device. -/
  places  : List (Nat × Nat × Nat × Nat) := []
  /-- Tags of the SHIPs whose SHIP_REPLY is awaited, each with the delta entries it carries. -/
  waiting : List (Nat × List Nat) := []
  /-- Entries that a write has changed while their place was awaited (R107). -/
  changed : List Nat := []
  /-- For cells that move: the move they belong to. -/
  move    : Option Nat := none
  /-- A SHIP of it was refused or has failed. -/
  failed  : Bool := false
  deriving DecidableEq, Repr

/-- A position of a shipment: its content under the generation the cell had, and whether it is tombstoned. -/
structure ShipSlot where
  cell : Nat
  slot : Nat
  gen  : Nat
  body : Slot
  tomb : Bool := false
  deriving DecidableEq, Repr

/-- Positions a target holds for a shipment whose view is not published yet: FRESH_VIEW is pending, and no command reads them (R474 step
3). -/
structure Received where
  src   : Nat
  tag   : Nat
  index : Nat
  slots : List ShipSlot
  deriving DecidableEq, Repr

/-- A refine store entry of a REFINE device (R470). -/
structure RefineRec where
  index : Nat
  id    : W64
  code  : VForm
  norm  : F32
  attrs : List W64
  deriving DecidableEq, Repr

/-- A management message that arrives in parts (R451; log entry 30). -/
structure Assembly where
  src   : Nat
  kind  : Nat
  what  : Nat
  total : Nat
  parts : List (Nat × List Byte)
  deriving DecidableEq, Repr

/-- A change of the directory that the lead makes: what it changes, its content, the device whose request asked for it, the RESULT for it, and
the holders that have not accepted it (R464, R478). -/
structure DirChange where
  what      : Nat
  bytes     : List Byte
  requester : Option Nat
  result    : Nat := 0
  sent      : Bool := false
  waiting   : List Nat := []
  deriving DecidableEq, Repr

/-- Cells that the lead has told their devices to move: for whom, where to, how many of those devices have not shipped yet, the shipments made,
and the device that leaves once they have moved (R478). -/
structure Move where
  id        : Nat
  requester : Nat
  index     : Nat
  cells     : List (Nat × Nat)
  left      : Nat
  ships     : List (Nat × Nat) := []
  failed    : Bool := false
  leaving   : Option Nat := none
  deriving DecidableEq, Repr

/-- The shoal as this device knows it. -/
@[ext] structure Shoal where
  /-- SHOAL_ID, 0 for none (R458). -/
  id        : W64 := 0
  /-- The shoal key's bytes. -/
  key       : List Byte := []
  groups    : Nat := 1
  members   : Nat := 1
  mirrored  : Bool := false
  /-- DEVICE_NO; 0 for a standalone device (R458). -/
  device    : Nat := 0
  /-- SHOAL_EPOCH. -/
  epoch     : Nat := 0
  /-- Members by device number. -/
  dir       : Tab Member := []
  indexes   : List ShoalIndex := []
  /-- The routing table: 256 entries by position (R460). -/
  routes    : Tab W32 := []
  /-- The Message Record: (SRC, TAG, MSG_KIND), newest first, 16,384 of them (R457). -/
  record    : List (Nat × Nat × Nat) := []
  /-- Messages received whole and not yet taken by their row, and messages of a reserved kind discarded (R452). -/
  inbox     : List Msg := []
  badKinds  : Nat := 0
  /-- CANCELs kept for their request: (OWNER, ENTRY_TAG, arrival) (R471). -/
  cancels   : List (Nat × Nat × Nat) := []
  /-- FWD_SEQ sent to each home, and next accepted from each owner (R472). -/
  fwdSent   : Tab Nat := []
  fwdNext   : Tab Nat := []
  /-- Replies kept for repeats: (owner, FWD_SEQ, reply). -/
  fwdKept   : List (Nat × Nat × List Byte) := []
  forwarded : List Forwarded := []
  /-- Requests outstanding for this device's own commands. -/
  pending   : List Outstanding := []
  nextTag   : Nat := 0
  ships     : List ShipBatch := []
  /-- Entry metadata held as a holder is complete (R475). -/
  complete  : Bool := true
  /-- Directory changes at the lead, the front under way (R464). -/
  changes   : List DirChange := []
  /-- Moves at the lead, and the number of the next (R478). -/
  moves     : List Move := []
  nextMove  : Nat := 1
  /-- Shipments received whose view is pending (R474). -/
  received  : List Received := []
  /-- Parts of management messages (R451). -/
  assembly  : List Assembly := []
  /-- An admin request waits for the resulting epoch: its mailbox, slot (R478). -/
  waitAdmin : Option (Nat × Nat) := none
  /-- Probes sent and when (R475). -/
  probes    : List (Nat × Nat) := []
  /-- Drops the lead has been told of: (reporter, device). -/
  reported  : List (Nat × Nat) := []
  /-- Since when fewer than two holders are reachable (R475). -/
  isolated  : Option Nat := none
  /-- The device counts all others missing. -/
  split     : Bool := false
  refined   : List RefineRec := []
  /-- Replies dropped because their entry was cancelled, and background requests abandoned after 10 ms (R358). -/
  lateReplies : Nat := 0
  bgTimeouts  : Nat := 0
  deriving DecidableEq, Repr

end Sys2Proof.Machine
end

