-- ==== Sys2Proof/Machine/StMem.lean ====
section
/-! DEFINITION. The two tiers' controllers and channels (chapter 10): channel states and retrain windows, journals, stripe
accumulators, write-combining buffers, tagged accumulation, refresh, ownership and the placement of index extents. The bytes
themselves are one sparse memory over the internal address space of R304. -/

namespace Sys2Proof.Machine

/-- STATE of a channel (R320). -/
inductive ChState where
  | absent | inService | retrain | replay | failed | rebuild
  deriving DecidableEq, Repr

/-- The value R320 gives a channel state. -/
def ChState.code : ChState → Nat
  | .absent => 0 | .inService => 1 | .retrain => 2 | .replay => 3 | .failed => 4 | .rebuild => 5

/-- Why a retrain window was asked for (R321). -/
inductive Trigger where
  | drift | corrected | mark | request
  deriving DecidableEq, Repr

/-- A Write-Combining Buffer entry: its key, a channel row (L-tier) or unit (F-tier), the time of its first write and the
byte ranges written, of 1,792 or 512 bytes (R328). -/
structure WcbEntry where
  key     : Nat
  first   : Nat
  written : List (Nat × Nat)
  deriving DecidableEq, Repr

/-- An open tagged accumulator block: its address, expected contributor and contributor count (R331). -/
structure TagBlock where
  addr     : Nat
  expected : Nat
  count    : Nat
  deriving DecidableEq, Repr

/-- A tagged operation that arrived early and is held (R331). -/
structure HeldTag where
  addr        : Nat
  contributor : Nat
  /-- The operand of TADD_F32; none for TSKIP. -/
  operand     : Option (List Byte)
  deriving DecidableEq, Repr

/-- A Stripe Accumulator entry: the channel row, the packages that have contributed, and its last use (R322). -/
structure StripeEntry where
  row  : Nat
  mask : List Nat
  last : Nat
  deriving DecidableEq, Repr

/-- The counters of a memory block, in the order of R574. -/
structure MemCounters where
  corrected  : Nat := 0
  uncorr     : Nat := 0
  rebuilds   : Nat := 0
  repairs    : Nat := 0
  windows    : Nat := 0
  winFails   : Nat := 0
  journal    : Nat := 0
  wcbRmw     : Nat := 0
  nmaOps     : Nat := 0
  tagHolds   : Nat := 0
  refused    : Nat := 0
  readsHi    : Nat := 0
  readsLo    : Nat := 0
  writes     : Nat := 0
  deriving DecidableEq, Repr

/-- A channel of either tier: 0 to 67 are L channels 17g + p, 68 to 195 are F channels 68 + 32x + c (R571, R573). -/
@[ext] structure Channel where
  state     : ChState := .absent
  /-- Pins marked (L), or lanes in lane-erasure mode (F): 64 times the pseudo-channel plus the lane, the check lanes 32 to 35 (R311, R316). -/
  marks     : List Nat := []
  /-- Symbols corrected within the last second, the latest first: when, the pin of L-tier symbols or else 0, and how many (R317, R321). -/
  recent    : List (Nat × Nat × Nat) := []
  /-- The retrain trigger that waits for a window (R321). -/
  trigger   : Option Trigger := none
  /-- RETRAIN_CHANNEL requests that wait for the window's start: mailbox and slot (R411). -/
  retrainReq : List (Nat × Nat) := []
  /-- Start of the present window, and of the previous one (R321, R324). -/
  windowAt  : Option Nat := none
  lastAt    : Option Nat := none
  /-- The channel was FAILED when the window started (R325). -/
  wasFailed : Bool := false
  /-- The drain of the window is done (R324). -/
  drained   : Bool := false
  /-- The journal: rows or units written during the window, in journal order (R323, R326). -/
  journal   : List Nat := []
  /-- The rebuild pointer of state REBUILD (R325). -/
  pointer   : Nat := 0
  /-- Write-Combining Buffer entries (R328). -/
  wcb       : List WcbEntry := []
  /-- The Tag Table and the operations held early (R331). -/
  tags      : List TagBlock := []
  heldTags  : List HeldTag := []
  /-- Stripe Accumulator of the group; used on Lg.16 (R322). -/
  stripes   : List StripeEntry := []
  /-- Rows and units whose stored symbols are beyond correction, until repaired (R316, R319). -/
  bad       : List Nat := []
  /-- Rows patrol scrub has read in the present pass (R319). -/
  scrubNext : Nat := 0
  counters  : MemCounters := {}
  deriving DecidableEq, Repr

/-- Space of one tier in use, and its owner: a burgee or, with none, the device. The Area Ownership Table follows from these:
a granule belongs to the owner of the space in use on it (R306). -/
structure Extent where
  base  : Nat
  len   : Nat
  owner : Option Nat
  deriving DecidableEq, Repr

/-- A range of the memory whose key has been replaced: what it held reads as unknown bytes (R437). -/
structure Erased where
  base : Nat
  len  : Nat
  /-- The draw that replaced the key, naming the free bytes. -/
  draw : Nat
  deriving DecidableEq, Repr

/-- The state of the memory tiers beside the bytes. -/
@[ext] structure Tiers where
  /-- Channels by number. -/
  chans      : Tab Channel := []
  /-- L-tier packages on the carrier: 17, 9, or 0 before training (R37, R313). -/
  packages   : Nat := 0
  /-- L-tier sites found at the last training (R37, R333). -/
  sites      : List Nat := []
  /-- Pseudo-channels disabled, in the full list of R309. -/
  disabled   : List Nat := []
  /-- The tiers are trained and serve (R333 step 7). -/
  trained    : Bool := false
  /-- A group has two channels that failed training: the data path stays disabled (R333). -/
  lFault     : Bool := false
  /-- Space in use on the F-tier and on the L-tier, in no order (R306, R418, R437). -/
  extF       : List Extent := []
  extL       : List Extent := []
  /-- Refresh rate per L-tier package and per stack, in multiples of the nominal rate (R327). -/
  refreshL   : List Nat := List.replicate 17 1
  refreshF   : List Nat := List.replicate 4 1
  /-- Ranges erased by a key draw (R437). -/
  erased     : List Erased := []
  /-- Draws made so far: of keys (R437), and of bytes that a self-test leaves unknown (R570). -/
  draws      : Nat := 0
  deriving DecidableEq, Repr

end Sys2Proof.Machine
end

