-- ==== Sys2Proof/Machine/StMgmt.lean ====
section
/-! DEFINITION. Firmware, flash, fuses, features, self-test, sanitise and security: the state of chapter 13. -/

namespace Sys2Proof.Machine

/-- What the fuses hold: the part's serial number and keys, and the values and write counts of the counted settings of R433. They survive
every reset. -/
structure Fuses where
  /-- The device serial number, byte i in bits 8i+7 to 8i (R446, R508). -/
  serial       : BitVec 128 := Config.serial
  /-- The image key digest, the SHA-384 of the key that signs images (R430). -/
  imageDigest  : BitVec 384 := Config.imageKeyDigest
  /-- The debug key, an ECDSA P-384 public key (R441). -/
  debugKey     : BitVec 768 := Config.debugKey
  /-- CARRIER_PROFILE, 0 unassigned (R5). -/
  profile      : Nat := 0
  /-- Writes of CARRIER_PROFILE consumed, of 4. -/
  profileUsed  : Nat := 0
  /-- Writes of BURGEE_GEOMETRY consumed, of 255. -/
  geometryUsed : Nat := 0
  /-- SECURITY_VERSION. -/
  svn          : Nat := 0
  /-- Writes of SECURITY_VERSION consumed, of 64. -/
  svnUsed      : Nat := 0
  /-- Writes of DEBUG_UNLOCK consumed, of 8. -/
  debugUsed    : Nat := 0
  /-- HALF_SENIORITY: 0 H0, 1 H1. -/
  seniority    : Nat := 0
  /-- Writes of HALF_SENIORITY consumed, of 2. -/
  seniorUsed   : Nat := 0
  /-- L_TIER_POPULATION: 0 unassigned, 1 seventeen packages, 2 nine. -/
  population   : Nat := 0
  /-- Writes of L_TIER_POPULATION consumed, of 4. -/
  popUsed      : Nat := 0
  deriving DecidableEq, Repr

/-- One Settings Ledger record (R435). -/
structure LedgerRec where
  /-- LSEQ, from 1. -/
  lseq      : Nat
  /-- SETTING, the number of R433. -/
  setting   : Nat
  /-- LSTATE: 1 INTENT, 2 COMMITTED, 3 ABANDONED. -/
  lstate    : Nat
  /-- WRITE_NO, from 1. -/
  writeNo   : Nat
  /-- OLD_VALUE. -/
  old       : W64
  /-- NEW_VALUE. -/
  new       : W64
  /-- REQUESTER: function number, 0xFFFF the sideband, 0xFFFE the device. -/
  requester : Nat
  /-- FW_VERSION of the running image. -/
  fwVersion : Nat
  /-- TIMEBASE in ns. -/
  timebase  : Nat
  /-- HOST_TIME at the write. -/
  hostTime  : Nat
  /-- CHAIN, 16 B. -/
  chain     : List Byte
  deriving DecidableEq, Repr

/-- A burgee's record in BURGEE_GEOMETRY (R342), as its bytes are read. -/
structure GeoRec where
  /-- The burgee is enabled. -/
  enabled : Bool := false
  /-- The 64 B record. -/
  raw     : List Byte := []
  deriving DecidableEq, Repr

/-- The sanitise journal's last record (R425, R426). -/
structure SanJournal where
  /-- STATE: 0 NEVER, 1 ACTIVE, 2 COMPLETE, 3 FAILED. -/
  state       : Nat := 0
  /-- The last action, SANACT; for FORMAT its SES. -/
  action      : Nat := 0
  /-- The keys have been replaced: record KEYS_DONE. -/
  keysDone    : Bool := false
  /-- The next offset to overwrite, of record PROGRESS. -/
  offset      : Nat := 0
  /-- Power cycles during the last sanitise. -/
  powerCycles : Nat := 0
  /-- HOST_TIME at its start. -/
  startTime   : Nat := 0
  /-- HOST_TIME at its completion. -/
  endTime     : Nat := 0
  /-- Records written so far, oldest first: 1 STARTED, 2 KEYS_DONE, 3 PROGRESS, 4 COMPLETE, 5 FAILED, each with an offset. -/
  records     : List (Nat × Nat) := []
  deriving DecidableEq, Repr

/-- The carrier's flash, laid out by R428. It survives every reset. -/
structure Flash where
  /-- Image slots 0 to 2: the bytes of each image. -/
  images    : Tab (List Byte) := []
  /-- Slots marked valid (R430); slot 0 holds the factory image (R427). -/
  valid     : List Nat := [0]
  /-- The slot the next boot takes: the one last run, or asked for since (R430 action 1, R431). -/
  nextBoot  : Option Nat := none
  /-- The settings journal's geometry: 16 records as bytes, empty when none was ever committed (R436). -/
  geometry  : List Byte := []
  /-- The memory repair record of the settings journal (R312, R317, R428): (channel, n) with n below 64 for a mark and 64 + lane for a
  repaired lane, and (256 + position, 0) for a disabled pseudo-channel. -/
  repairs   : List (Nat × Nat) := []
  /-- Settings Ledger records, oldest first (R435). -/
  ledger    : List LedgerRec := []
  /-- The sanitise journal (R425). -/
  sanitise  : SanJournal := {}
  /-- A flash region could not be written twice: reported in the HEALTH page (R428). -/
  writeFail : Bool := false
  deriving DecidableEq, Repr

/-- The device features of R416; all are volatile. -/
structure Features where
  /-- TARGET_RATE in 0.05e9 cycles/s, reset 44. -/
  targetRate : Nat := 44
  /-- DEVICE_ADMIN_PORTS mask, reset 0b0001. -/
  adminPorts : Nat := 1
  /-- BAR2 enable, reset disabled. -/
  bar2En     : Bool := false
  /-- BAR2 APERTURE_BASE, reset 0. -/
  bar2Base   : Nat := 0
  /-- HOST_TIME in ms, reset 0. -/
  hostTime   : Nat := 0
  /-- SIDEBAND_SECURE, reset 0. -/
  sbSecure   : Bool := false
  deriving DecidableEq, Repr

/-- One self-test segment (R570, R571). -/
structure Segment where
  /-- SEGMENT: 1 SC_LOGIC, 2 SC_ARRAY, 3 L_CHANNEL, 4 F_CHANNEL, 5 LINK. -/
  test : Nat
  /-- RESOURCE: the SC, channel or link. -/
  res  : Nat
  /-- Retrain windows of a channel segment still to come. -/
  wins : Nat := 0
  deriving DecidableEq, Repr

/-- A record of the SELF_TEST page (R571). -/
structure SegRec where
  seg      : Segment
  /-- SKIPPED. -/
  skipped  : Bool
  /-- REPAIRED. -/
  repaired : Bool
  /-- SUBTEST; 0xFFFF when none applies. -/
  subtest  : Nat
  /-- DETAIL. -/
  detail   : W64
  deriving DecidableEq, Repr

/-- The self-test of R421 to R423. -/
structure SelfTest where
  /-- Kind: 0 none so far, 1 SHORT, 2 EXTENDED. -/
  kind    : Nat := 0
  /-- RESULT: 0 PASSED, 1 FAILED, 2 ABORTED, 3 RUNNING. -/
  result  : Nat := 0
  /-- Segments still to run, in order. -/
  todo    : List Segment := []
  /-- Segments running now: at most one of an SC, and channels and links alongside (R570). -/
  running : List Segment := []
  /-- Segments passed, and failed. -/
  passed  : Nat := 0
  failed  : Nat := 0
  /-- Records of failed, skipped and repaired segments. -/
  records : List SegRec := []
  deriving DecidableEq, Repr

/-- The load-shedding state (R420). -/
@[ext] structure Shed where
  /-- Steps engaged, 0 to 4; DEV_STATUS.SHED, reset 0. -/
  steps   : Nat := 0
  /-- Consecutive windows above 85 %. -/
  isOver    : Nat := 0
  /-- The loads of the last windows in hundredths of a percent, newest first, for the MP_LOAD page. -/
  loads   : List Nat := []
  /-- BUSY_RETRY responses counted for the MP_LOAD page. -/
  busy    : Nat := 0
  deriving DecidableEq, Repr

/-- SPDM sessions and the debug unlock (R438 to R441, R568). -/
structure Security where
  /-- SPDM version negotiated: 0 none, 0x12 or 0x13. -/
  spdmVersion : Nat := 0
  /-- Capabilities have been exchanged. -/
  spdmCaps    : Bool := false
  /-- Algorithms have been negotiated. -/
  spdmAlgs    : Bool := false
  /-- KEY_EXCHANGE has been answered and FINISH is awaited. -/
  spdmExch    : Bool := false
  /-- A secured session is established. -/
  session     : Bool := false
  /-- The nonce DEBUG_UNLOCK phase 1 returned, until it is used or voided. -/
  nonce       : Option (List Byte) := none
  /-- The unlock scope in force, none while locked (R441, R568). -/
  unlocked    : Option (List Byte) := none
  deriving DecidableEq, Repr

/-- A staged area of a burgee's training area (R418). -/
structure Staged where
  addr : Nat
  len  : Nat
  deriving DecidableEq, Repr

/-- Management state that lives with the firmware (chapter 13). -/
@[ext] structure Mgmt where
  /-- Device features. -/
  feat     : Features := {}
  /-- Load shedding. -/
  shed     : Shed := {}
  /-- Self-test. -/
  test     : SelfTest := {}
  /-- Sessions and unlock. -/
  sec      : Security := {}
  /-- The slot of the running image (R427). -/
  slot     : Nat := 0
  /-- Since when the boot's health has been awaited, in ns (R432). -/
  bootAt   : Option Nat := none
  /-- The mailbox the holder serves next (R409). -/
  nextMb   : Nat := 0
  /-- Requests in the order they were started, oldest first: mailbox and slot (R409). -/
  started  : List (Nat × Nat) := []
  /-- A geometry write waiting for its boundaries: the mailbox, its slot, the records and when it was checked (R343, R434). -/
  geoWrite : Option (Nat × Nat × List Byte × Nat) := none
  deriving DecidableEq, Repr

end Sys2Proof.Machine
end

