-- ==== Sys2Proof/Machine/StPower.lean ====
section
/-! DEFINITION. The always-on domain, the supplies, the adaptive voltage loops, the power and thermal limits and the Ensign:
the state of chapters 15 and 16 that the power and reset commands act on. -/

namespace Sys2Proof.Machine

/-- Where the device stands between a reset and READY (R494, R497, R498). -/
inductive Phase where
  /-- Held in COLD reset: SYS_PWROK low, a rail hold, a thermal trip, a missing MEMREFCLK or TEST_MODE (R494, R552, R548). -/
  | held
  /-- A COLD reset has been done and start-up is next (R498 from step 1). -/
  | coldDone
  /-- A WARM reset drains the device (R497). -/
  | draining
  /-- The WARM drain has ended and start-up is next (R498 from step 3). -/
  | warmDone
  /-- Start-up found no image that can be read: no MP is seated and READY is never set (R550). -/
  | noImage
  /-- READY is set (R498 step 6). -/
  | ready
  deriving DecidableEq, Repr

/-- One entry of SUPPLY_FAULT_n (R520). -/
structure SupplyFault where
  /-- FSEQ, the fault number since VAUX was applied. -/
  fseq : Nat
  /-- RAIL, in the row order of R480. -/
  rail : Nat
  /-- KIND: 1 below tolerance, 2 above, 3 VCORE below its reset level. -/
  kind : Nat
  /-- MV, the reading at detection. -/
  mv   : Nat
  deriving DecidableEq, Repr

/-- A brown-out episode and its record (R492, R518). -/
structure Brownout where
  /-- BROWNOUT.EPISODE, reset 0. -/
  episode  : Bool := false
  /-- BROWNOUT.FROZEN: admission is frozen, reset 0. -/
  frozen   : Bool := false
  /-- BROWNOUT.WARN_PIN: SUPPLY_WARN# is asserted, reset 0. -/
  warnPin  : Bool := false
  /-- BROWNOUT.TRIGGER, reset 0. -/
  trigger  : Nat := 0
  /-- BROWNOUT.EPISODES, saturating at 0xFFFF, reset 0; kept through resets. -/
  episodes : Nat := 0
  /-- TS, the start of the episode in ns of the timebase (R492). -/
  ts       : Nat := 0
  /-- Frozen time of the episode's ended freezes, in ns (R492). -/
  frozenNs : Nat := 0
  /-- Start of the present freeze, in ns (R492). -/
  since    : Nat := 0
  deriving DecidableEq, Repr

/-- The always-on domain (R480 VAUX row, R483, R494, R519, R520, R537). -/
@[ext] structure Aon where
  /-- VAUX is in regulation (R481, R537). -/
  vaux       : Bool := true
  /-- SYS_PWROK as last seen (R482). -/
  sysPwrok   : Bool := false
  /-- MEMREFCLK is present and in tolerance (R552). -/
  memrefOk   : Bool := true
  /-- A COLD reset is held until every rail is back in tolerance (R494). -/
  railHold   : Bool := false
  /-- TEST_MODE was sampled as 1 (R548). -/
  testMode   : Bool := false
  /-- THERMTRIP# is latched (R488); THERMAL.TRIP_LATCHED, reset 0. -/
  trip       : Bool := false
  /-- SMB_ADDR as sampled at VAUX power-up (R535, R548). -/
  smbAddr    : Nat := 0
  /-- RESET_CAUSE.COLD_COUNT, saturating, reset 0 (R519). -/
  coldCount  : Nat := 0
  /-- RESET_CAUSE.RAIL, reset 0. -/
  causeRail  : Nat := 0
  /-- RESET_CAUSE.CAUSE, reset 0. -/
  cause      : Nat := 0
  /-- SUPPLY_FAULT_0 to _15, newest first, reset empty (R520). -/
  faults     : List SupplyFault := []
  /-- Supply faults since VAUX was applied (R520). -/
  faultSeq   : Nat := 0
  /-- RAIL_V_n, the latest ADC reading of each rail in mV, reset 0 (R520). -/
  railMv     : List Nat := List.replicate 11 0
  /-- VIO is out of tolerance: the sideband is refused (R483). -/
  vioOut     : Bool := false
  /-- VFUSE is out of tolerance: fuse writes are refused (R483). -/
  vfuseOut   : Bool := false
  /-- SB_ALERT_STATUS, reset 0x80: RESET reads 1 (R537). -/
  alert      : W32 := 0x80
  /-- SB_ALERT_MASK, reset 0 (R537). -/
  alertMask  : W32 := 0
  /-- The brown-out record (R492, R518). -/
  bo         : Brownout := {}
  /-- Answers of the SMBus Alert Response Address given so far, as the address byte each one carried (R535). -/
  araAnswers : List Nat := []
  deriving DecidableEq, Repr

/-- One half's adaptive voltage loop and pace monitor (R484, R486, R514, R515). -/
structure HalfPower where
  /-- AVL_Hh.VSET in mV, reset 780. -/
  vset       : Nat := 780
  /-- AVL_Hh.LOOP_EN, reset 0. -/
  loopEn     : Bool := false
  /-- AVL_Hh.VREAD in mV, reset 0. -/
  vread      : Nat := 0
  /-- AVL_Hh.IREAD in 0.1 A, reset 0. -/
  iread      : Nat := 0
  /-- The lowest Pace Counter of the half over the last 10 µs, in ME handshake cycles (R23); MEASURED is this / 100. -/
  pace       : Nat := 0
  /-- PACE_Hh.SLOWEST_SC, reset 0. -/
  slowest    : Nat := 0
  /-- Since when the deficit's condition has held, in ns (R486). -/
  belowAt    : Option Nat := none
  /-- Since when the measured rate has been at or above the floor rate, in ns (R486). -/
  aboveAt    : Option Nat := none
  /-- PACE_Hh.DEFICIT, reset 0. -/
  deficit    : Bool := false
  /-- When the deficit was raised, in ns. -/
  deficitAt  : Nat := 0
  /-- The deficit has set DEGRADED cause PACE_DEFICIT (R486). -/
  deficitDeg : Bool := false
  deriving DecidableEq, Repr

/-- The device's power and thermal limits (R485, R487, R488, R516, R517). -/
@[ext] structure Power where
  /-- H0's loop. -/
  h0        : HalfPower := {}
  /-- H1's loop. -/
  h1        : HalfPower := {}
  /-- RENV in 0.05e9 cycles/s, reset 44. -/
  renv      : Nat := 44
  /-- RTHERM in 0.05e9 cycles/s, reset 44. -/
  rtherm    : Nat := 44
  /-- The last 100 power samples in 0.1 mW, newest first (R487). -/
  samples   : List Nat := []
  /-- 100 µs samples in a row with P10 below 0.95 E since Renv last changed (R487). -/
  calm      : Nat := 0
  /-- 1 ms thermal ticks in a row below 97 °C since Rtherm last rose (R488). -/
  cool      : Nat := 0
  /-- THERMAL.TJ in 0.25 °C, reset 0. -/
  tj        : Int := 0
  /-- The highest reading as the thresholds of R488 take it, stacks included, in 0.25 °C. -/
  eff       : Int := 0
  /-- THERMAL.SENSOR, reset 0. -/
  sensor    : Nat := 0
  /-- THERMAL.TJ_LOW, reset 0. -/
  tjLow     : Bool := false
  /-- Tj is at or above 100 °C, or a memory is over its range: the throttle condition of R488 holds. -/
  hot       : Bool := false
  /-- HBM4 stacks above their operating range (R488). -/
  hotF      : List Nat := []
  /-- L-tier packages above their operating range (R488). -/
  hotL      : List Nat := []
  /-- A deep throttle was reported and has not ended (R485, R490 cause DEEP_THROTTLE). -/
  deep      : Bool := false
  deriving DecidableEq, Repr

/-- A health word of R499. -/
structure Health where
  /-- SEQ, reset 0. -/
  seq        : Nat := 0
  /-- STATE: 0 booting, 1 shadow, 2 holder, 3 fenced, 4 failed; reset 0. -/
  state      : Nat := 0
  /-- WATCHDOG, reset 0. -/
  watchdog   : Bool := false
  /-- MEM_FAULT, reset 0. -/
  memFault   : Bool := false
  /-- IMAGE_FAULT, reset 0. -/
  imageFault : Bool := false
  /-- SHADOW_STALE, reset 0. -/
  stale      : Bool := false
  /-- When SEQ last changed, in ns (R499). -/
  at_        : Nat := 0
  deriving DecidableEq, Repr

/-- A live activation (R431). -/
structure Activation where
  /-- The slot being activated, and the slot of the image that runs until then. -/
  slot      : Nat
  old       : Nat
  /-- The shadow's MP number. -/
  mp        : Nat
  /-- The image's version, to be reported. -/
  version   : Nat
  /-- The Ensign has moved to the new image and probation runs. -/
  probation : Bool
  /-- The end of probation or of the shadow's boot, in ns. -/
  until_    : Nat
  /-- FW_ROLLBACK asked for it (R432). -/
  back      : Bool
  /-- The request that waits for it: its mailbox and slot. -/
  req       : Nat × Nat
  deriving DecidableEq, Repr

/-- The Stitch Arbiter and the management processors (R33, R499, R500, R521). -/
@[ext] structure Ensign where
  /-- ENSIGN_STATUS.HOLDER: none, or the MP that holds the Ensign; reset none (2). -/
  holder       : Option Nat := none
  /-- ENSIGN_STATUS.FENCED, reset 0. -/
  fenced       : Bool := false
  /-- Start of the fence, in ns. -/
  fencedAt     : Nat := 0
  /-- Since when no MP has held the Ensign, in ns (R500). -/
  vacantAt     : Nat := 0
  /-- Health words of MP0 and MP1. -/
  health0      : Health := {}
  /-- Health word of MP1. -/
  health1      : Health := {}
  /-- Firmware version each MP runs, 0 for none (R508, R431). -/
  version0     : Nat := 0
  /-- Firmware version MP1 runs. -/
  version1     : Nat := 0
  /-- ENSIGN_STATUS.VACANT_RESETS, 0 to 3, reset 0. -/
  vacantResets : Nat := 0
  /-- ENSIGN_STATUS.TAKEOVERS, saturating, reset 0. -/
  takeovers    : Nat := 0
  /-- ENSIGN_FENCES.COUNT, saturating, reset 0. -/
  fences       : Nat := 0
  /-- ENSIGN_FENCES.LAST_US, reset 0. -/
  lastUs       : Nat := 0
  /-- The live activation in progress, if any (R431). -/
  activation   : Option Activation := none
  /-- A debug operation has halted the shadow MP (R568). -/
  shadowHalted : Bool := false
  /-- The shadow MP's debug-visible program counter (R568). -/
  shadowPc     : Nat := 0
  deriving DecidableEq, Repr

/-- Fields the straps gave at their last sampling (R548). -/
structure Straps where
  /-- PROFILE[1:0]. -/
  profile  : Nat := 0
  /-- PORT_MODE[1:0]. -/
  portMode : Nat := 0
  /-- The profile the device runs in: CARRIER_PROFILE as resolved at the last COLD reset, 0 for none (R6). -/
  inForce  : Nat := 0
  /-- HALF_SENIORITY as read at the last COLD reset (R433, R498 step 1). -/
  senior   : Nat := 0
  /-- Step 1 of R498 has been done since the last COLD reset. -/
  sampled  : Bool := false
  deriving DecidableEq, Repr

/-- One reset asked for by RESET or by the Stitch Arbiter that has not begun (R495, R500). -/
structure PendingReset where
  /-- COLD, or WARM. -/
  cold  : Bool
  /-- The RESET_CAUSE it will record (R519). -/
  cause : Nat
  /-- When it begins, in ns. -/
  at_   : Nat
  deriving DecidableEq, Repr

end Sys2Proof.Machine
end

