-- ==== Sys2Proof/Machine/StEngine.lean ====
section
/-! DEFINITION. The engines of a Search Cluster (chapters 6 and 7): the Finished Tile Queue, the Code Engine's table store
and Code Score Queue, the Walk Engine's contexts, the Filter Unit's slots, the Vector Engine's registers and tile buffers.
The scratchpad itself is part of the device memory (R304). -/

namespace Sys2Proof.Machine

/-- A Finished Tile Queue entry (R190). -/
structure FtqEntry where
  ctx    : Nat
  unit   : Nat
  tile   : Nat
  opcode : Nat
  rows   : Nat
  cols   : Nat
  /-- The 4,096 values, row-major; positions outside ROWS x COLS hold +0. -/
  values : List F32
  deriving DecidableEq, Repr

/-- A Code Score Queue entry: 64 x 4 scores, that of position i and query q at 4i + q, absent where the FU rejected the position
(R195; log entry 21), and the candidate of each position. -/
structure CsqEntry where
  ctx    : Nat
  unit   : Nat
  scores : List (Option F32)
  cands  : List Entry := []
  /-- The node whose expansion's gather request it answers (R199, R201). -/
  node   : Option Nat := none
  deriving DecidableEq, Repr

/-- A list the SE keeps for a unit of a context and one of the queries a descriptor serves (R156, R159). -/
structure SeList where
  ctx   : Nat
  unit  : Nat
  query : Nat
  list  : UnitList
  deriving DecidableEq, Repr

/-- A slot of the CE table store: a table set with its delta, or a query code (R192, R193). -/
inductive CeSlot where
  | table (s : PqSet)
  | code (c : List Bool)
  deriving DecidableEq, Repr

/-- A beam entry of a walk (R134). -/
structure BeamEntry where
  key      : W32
  id       : W64
  node     : Nat
  expanded : Bool
  deriving DecidableEq, Repr

/-- An expansion in flight: its node, the reads that the WE has asked of the STEs for it, as address and length, and whether its GATHER_HAM and
GATHER_PQ requests are outstanding (R137, R199). -/
structure Expansion where
  node  : Nat
  reads : List (Nat × Nat) := []
  ham   : Bool := true
  pq    : Bool := true
  deriving DecidableEq, Repr

/-- A walk context of the WE (R134 to R137, R197, R198). -/
structure Walk where
  ctx       : Nat
  unit      : Nat
  index     : Nat
  /-- MODE: 0 level-0 walk, 1 centroid walk, 2 upper-layer descent. -/
  mode      : Nat
  ham       : Bool
  /-- SKETCH_SLOT, TABLE_SLOT and FU_SET. -/
  sketch    : Nat
  table     : Nat
  fuSet     : Nat
  /-- POOL_ADDR and W. -/
  pool      : Nat
  bytes     : Nat
  runAhead  : Nat
  keep      : Nat
  /-- Effective beam width. -/
  width     : Nat
  expandMax : Nat
  startView : Nat
  beam      : List BeamEntry := []
  /-- Bits of the visited set that are set (R135). -/
  visited   : List Nat := []
  result    : UnitList
  expanded  : Nat := 0
  /-- Expansions in flight, the oldest first (R137). -/
  inFlight  : List Expansion := []
  /-- Nodes whose records the walk's ring still brings, in the order in which they were asked for (R199, R242). -/
  due       : List Nat := []
  squashed  : Nat := 0
  /-- The node a descent reached (R129). -/
  reached   : Nat := 0
  ended     : Bool := false
  deriving DecidableEq, Repr

/-- A tile buffer (R217): who holds it and its 128 lines. -/
structure TileBuf where
  owner : Option Nat := none
  /-- Held by the stream engines rather than the VE. -/
  bySte : Bool := false
  lines : Tab (BitVec 4096) := []
  deriving DecidableEq, Repr

/-- An exact accumulator of a VE lane (R225): its sum, starting at -0, and the products added since the last close. -/
structure LaneAcc where
  sum   : FVal := .fin true 0 0
  count : Nat := 0
  deriving DecidableEq, Repr

/-- The Vector Engine's registers and counters (R216, R240). -/
@[ext] structure Ve where
  /-- LANE_MODE of the descriptor in force. -/
  mode    : Nat := 0
  /-- V0 to V31, 512 B each. -/
  v       : Tab (BitVec 4096) := []
  /-- K1 to K7; K0 reads as all ones. -/
  k       : Tab (BitVec 512) := []
  /-- X0 to X15. -/
  x       : Tab W32 := []
  /-- One accumulator per lane. -/
  acc     : Tab LaneAcc := []
  /-- What each input port gives in the present iteration, as lanes (R230). -/
  ports   : Tab (List Nat) := []
  /-- What the present iteration writes to each output port, lane by lane; none where its mask bit is 0 (R218, R229). -/
  outs    : Tab (List (Option Nat)) := []
  /-- Lanes of the present lane group that are no tail lanes (R231). -/
  tail    : Nat := 512
  /-- Candidate attribute words by lane, for ATTRF. -/
  attrs   : Tab (List W64) := []
  /-- Programs by PROG_SLOT. -/
  progs   : Tab VeProg := []
  /-- Loop counters i0, i1, i2 and the lane group. -/
  loops   : Nat × Nat × Nat × Nat := (0, 0, 0, 0)
  /-- Writes of tile-buffer lines that take effect at the end of the iteration: buffer, line, value, and the bits written (R217). -/
  lineOut : List (Nat × Nat × BitVec 4096 × BitVec 4096) := []
  /-- Stall counters: FTQ_EMPTY, CSQ_EMPTY, TB_HELD, OUT_FULL, PROG_LOAD, NO_WORK. -/
  stalls  : List Nat := List.replicate 6 0
  /-- NaN values written to an E2M1 port (R229). -/
  e2m1NaN : Nat := 0
  deriving DecidableEq, Repr

/-- A Filter Unit's slots (R202, R203). -/
structure FuSlots where
  /-- Program images by slot 0 to 7. -/
  progs : Tab FilterProg := []
  /-- Parameter sets by slot 0 to 15: program slot and words. -/
  sets  : Tab (Nat × List W64) := []
  deriving DecidableEq, Repr

/-- The engines of one SC beside its streams. -/
@[ext] structure Engines where
  ftq     : List FtqEntry := []
  /-- The finished tile the ME holds while the FTQ is full (R191). -/
  ftqHeld : Option FtqEntry := none
  /-- Chunks in the output tile whose running sums lie at a scratchpad offset (R187). -/
  accTiles : Tab Nat := []
  /-- Times the ME stopped because the FTQ was full (R191). -/
  ftqFull : Nat := 0
  /-- The ME descriptor that waits for a ring slot, for room in the FTQ, or for a block read again (R191, R208, R243). -/
  meNext  : Option (List Byte) := none
  /-- CONTEXT and UNIT of what the ME and the FU have written to scratchpad, by its offset (R181). -/
  outTags : Tab (Nat × Nat) := []
  /-- PQ tables under construction: TABLE tiles that the VE has taken, not yet a whole set (R189). -/
  tables  : List FtqEntry := []
  ceSlots : Tab CeSlot := []
  csq     : List CsqEntry := []
  csqFull : Nat := 0
  /-- The CE descriptor that stopped at a full CSQ, a ring slot or a block read again, and the pass it stopped before (R195, R208, R243). -/
  ceNext  : Option (List Byte × Nat) := none
  /-- Scores of gather requests that the WE has not consumed, one entry for each request (R197, R201). -/
  gathered : List CsqEntry := []
  /-- Passes skipped because the FU rejected every position (R194). -/
  ceSkips : Nat := 0
  walks   : List Walk := []
  /-- WE descriptors that wait for room in their burgee's walk pool, the oldest first, and since when (R197). -/
  walkWait : List (List Byte × Nat) := []
  fu      : FuSlots := {}
  ve      : Ve := {}
  tb      : Tab TileBuf := []
  /-- The VE descriptor that waits for a queue entry, with the entries of the FTQ and the CSQ that it has read past, which have left their queues
  (R230, R240). -/
  veNext  : Option (List Byte × List FtqEntry × List CsqEntry) := none
  /-- VE records and tile buffers that spill holds, by context (R239, R355). -/
  savedVe : Tab Ve := []
  /-- FTQ entries of yielded contexts that their spill areas hold (R191). -/
  savedFtq : Tab (List FtqEntry) := []
  /-- Unfinished running sums of yielded contexts: scratchpad offset, chunks so far, and the 16 KiB of sums (R191). -/
  savedAcc : Tab (List (Nat × Nat × List Byte)) := []
  /-- The context whose VE state the registers hold (R239). -/
  veOwner : Option Nat := none
  savedTb : Tab (List (Nat × TileBuf)) := []
  /-- Unit lists the SE keeps, and as they stood when the present step began (R176). -/
  se      : List SeList := []
  seKept  : List SeList := []
  /-- Descriptor faults counted (R182). -/
  descFaults : Nat := 0
  /-- Tag mismatches counted (R208). -/
  tagMiss : Nat := 0
  deriving DecidableEq, Repr

end Sys2Proof.Machine
end

