-- ==== Sys2Proof/Machine/StStream.lean ====
section
/-! DEFINITION. The Stream Engines of a Search Cluster (chapter 8): semaphore pairs and rings, running streams with their
address programs, transfers, escape areas, the progress monitor and the stall counters. -/

namespace Sys2Proof.Machine

/-- A slot drained to its ring's escape area: its number in the sequence of the ring's slots since the pair became active, and its place,
which is also its place in the area (R263). -/
structure HeldSlot where
  number : Nat
  slot   : Nat
  deriving DecidableEq, Repr

/-- A semaphore pair and the ring it paces (R242 to R244). -/
structure SemPair where
  /-- ACTIVE, reset 0. -/
  active    : Bool := false
  /-- CHAINED, reset 0. -/
  chained   : Bool := false
  /-- ENDED, reset 0. -/
  ended     : Bool := false
  /-- N_SLOTS, reset 0. -/
  nSlots    : Nat := 0
  /-- EMPTY, reset 0. -/
  empty     : Nat := 0
  /-- FILLING, reset 0. -/
  filling   : Nat := 0
  /-- FULL, reset 0. -/
  full      : Nat := 0
  /-- The consumer holds a slot (R243). -/
  held      : Bool := false
  /-- HEAD, reset 0. -/
  head      : Nat := 0
  /-- TAIL, reset 0. -/
  tail      : Nat := 0
  /-- SLOTS_DONE, wrapping at 2^32, reset 0. -/
  done      : Nat := 0
  /-- The place of the slot the consumer holds. -/
  heldAt    : Nat := 0
  /-- The consumer holds the first slot of the escape area (R263). -/
  heldEsc   : Bool := false
  /-- Slots of FILLING whose bytes are complete and that wait for their turn to enter FULL (R243). -/
  filled    : List Nat := []
  /-- The escape area: slots drained and not yet received, in order; ESCAPED reads 1 while it is not empty (R263). -/
  escape    : List HeldSlot := []
  /-- The bound stream is an output stream: its producer is an engine and its consumer an STE (R243). -/
  isOut     : Bool := false
  /-- The number of the bound stream's first slot, counted as SLOTS_DONE counts (R246, R260). -/
  first     : Nat := 0
  /-- An engine waits for a slot of the ring: for FULL of an input ring, for EMPTY of an output ring (R243, R264). -/
  engineWaits : Bool := false
  /-- RING_ADDR, SLOT_BYTES and CONTEXT of the bound stream (R246). -/
  ringAddr  : Nat := 0
  slotBytes : Nat := 0
  ctx       : Nat := 0
  /-- ESC_BASE, pennant and STE of the bound stream (R263, R265). -/
  escBase   : Nat := 0
  pennant   : Nat := 0
  ste       : Nat := 0
  /-- CONSUMER_WAIT in cycles, reset 0 (R267). -/
  wait      : Nat := 0
  deriving DecidableEq, Repr

/-- What a stream waits for: the causes of R267 that hold it from issuing. -/
inductive Stall where
  | semEmpty | semFull | tagLimit | regulator | ctrlQueue | linkCredit | idxWait | ldmWait | unitWait | escape
  | streamSlot | progLoad
  deriving DecidableEq, Repr

/-- The number of a cause, in the order of R267. -/
def Stall.number : Stall → Nat
  | .semEmpty => 0 | .semFull => 1 | .tagLimit => 2 | .regulator => 3 | .ctrlQueue => 4 | .linkCredit => 5
  | .idxWait => 6 | .ldmWait => 7 | .unitWait => 8 | .escape => 9 | .streamSlot => 10 | .progLoad => 11

/-- An open loop level of an address program (R248, R249). -/
structure LoopLevel where
  level : Nat
  count : Nat
  /-- The instruction after the LOOP. -/
  body  : Nat
  deriving DecidableEq, Repr

/-- One piece of an XFER: its memory address and length, whether it writes memory, and its offset in the slot or the destination of a COPY
(R249, R250). -/
structure Piece where
  addr  : Nat
  len   : Nat
  write : Bool
  place : Nat
  deriving DecidableEq, Repr

/-- A transfer in flight, one piece of an XFER, XFERA or LDM (R250). -/
structure Transfer where
  id       : Nat
  stream   : Nat
  /-- The ring slot it fills or empties; 16 is added for a slot that came back from the escape area. -/
  slot     : Nat
  /-- The SC whose ring it fills, and whether it is the read that counts as outstanding: the copies of a multicast read for the other SCs
  are deliveries over Halyard (R241, R259). -/
  dst      : Nat := 0
  lead     : Bool := true
  /-- It writes memory. -/
  write    : Bool
  /-- It is the dependent read of an LDM, into this register. -/
  ldm      : Option Nat := none
  /-- It is a Near-Memory Atomic operation: its number, the contributor it carries, and whether the old value returns (R330). -/
  nma      : Option (Nat × Nat × Bool) := none
  addr     : Nat
  len      : Nat
  /-- Offset in the slot (IN, OUT) or the destination address (COPY). -/
  place    : Nat
  /-- The bytes read at its issue, or to be written. -/
  data     : List Byte
  /-- Issue time in ns. -/
  at_      : Nat
  deriving DecidableEq, Repr

/-- A running stream (R241, R245 to R252). -/
structure Stream where
  id        : Nat
  ste       : Nat
  /-- OPCODE: 1 IN, 2 OUT, 3 COPY, 4 MCAST_IN. -/
  opcode    : Nat
  progSlot  : Nat
  own       : Bool
  burgee    : Nat
  pennant   : Nat
  /-- PREFETCH P. -/
  prefetch  : Nat
  sem       : Nat
  idxSem    : Option Nat
  chain     : Bool
  ringAddr  : Nat
  slotBytes : Nat
  slotCount : Nat
  unit      : Nat
  ctx       : Nat
  escBase   : Nat
  mcMask    : Nat
  /-- A_INIT, and A0 to A7. -/
  init      : List W64
  regs      : List W64
  /-- C0 to C5. -/
  counters  : List Nat := List.replicate 6 0
  /-- Open loops, innermost first. -/
  loops     : List LoopLevel := []
  /-- The next instruction. -/
  pc        : Nat := 0
  /-- The ring slot the program fills or empties now; none while it waits to claim or take one; 16 is added for a slot in the escape area. -/
  slot      : Option Nat := none
  /-- Slots that a refill passes over without a transfer, before the first that its SC had not released (R260). -/
  skip      : Nat := 0
  /-- Slots of the program before the one that its ring's first slot was (R260). -/
  before    : Nat := 0
  /-- Pieces issued for the slots of its ring as they last were claimed, in order, each with its slot: what a slot read again is read from
  (R208, R261, R262). -/
  pieces    : List (Nat × Piece) := []
  /-- Slots discarded or spilled while their transfers were outstanding, which are read again whole (R261, R262). -/
  again     : List Nat := []
  /-- Ranges of the F-tier that it reads from the L-tier since a copy there became invalid: F-tier address, length, L-tier address (R262). -/
  moved     : List (Nat × Nat × Nat) := []
  /-- The turn of its STE in which it last issued (R254). -/
  turn      : Nat := 0
  /-- Bytes of the current slot have been placed by a transfer. -/
  placed    : Bool := false
  /-- Slots closed so far. -/
  closed    : Nat := 0
  /-- Entries of the index ring's current slot already taken (R249 IDX). -/
  idxTaken  : Nat := 0
  /-- LDM waits for its word. -/
  ldmWait   : Bool := false
  /-- It yielded with its context, or waits for its regulator. -/
  held      : Option Stall := none
  yielded   : Bool := false
  /-- END has been reached, or SLOT_COUNT slots closed. -/
  ended     : Bool := false
  /-- The unit register: the base address of the unit, the slot count of its read, and the unit's bytes (R252). -/
  unitReg   : Option (Nat × Nat × List Byte) := none
  /-- Bytes charged (R251). -/
  charged   : Nat := 0
  /-- SCs dropped from the mask (R260). -/
  dropped   : List Nat := []
  deriving DecidableEq, Repr

/-- One Stream Engine (R241, R255, R267). -/
structure Ste where
  /-- Tag-limited mode; at device reset true (R255). -/
  limited   : Bool := true
  /-- Recovery after a timeout or an uncorrectable read: the last event, in ns. -/
  recovery  : Option Nat := none
  /-- Transfers that were outstanding at the last recovery event (R255). -/
  watch     : List Nat := []
  /-- Descriptors waiting for a stream place, oldest first, as their 128 bytes (R241). -/
  waiting   : List (List Byte) := []
  /-- Turns in which a stream of the STE has issued (R254). -/
  turns     : Nat := 0
  /-- Stall cycles by cause, reset 0. -/
  stalls    : List Nat := List.replicate 12 0
  deriving DecidableEq, Repr

/-- A cycle of the wait-for graph that the progress monitor follows, and how long no slot on it has moved (R264). -/
structure BlockedCycle where
  /-- Its nodes: 0 to 63 the rings by semaphore pair, 64 to 67 the tile buffers, 68 the FTQ, 69 the CSQ. -/
  rings   : List Nat
  /-- EMPTY, FILLING, FULL and SLOTS_DONE of each ring as last seen, to tell a move. -/
  seen    : List (List Nat)
  /-- Blocked time in ns that counts, and the last sample. -/
  blocked : Nat
  at_     : Nat
  deriving DecidableEq, Repr

/-- The streams of one SC. -/
@[ext] structure Streams where
  /-- STE0 to STE3. -/
  stes    : List Ste := List.replicate 4 {}
  /-- Program slots 0 to 31; an absent slot is empty (R248). -/
  progs   : Tab (List W64) := []
  /-- Semaphore pairs 0 to 63. -/
  sems    : Tab SemPair := []
  /-- Pairs spilled with the banks of their rings, by context, each with its number (R261). -/
  saved   : Tab (List (Nat × SemPair)) := []
  /-- Streams whose slots this SC will fill again, by the context they now serve: multicast streams that dropped the SC, and streams that restart
  after a tag mismatch. Each is the stream, its program, and the number of the program's slots that were released (R208, R260). -/
  refills : List (Nat × Stream × List W64 × Nat) := []
  /-- Running streams in start order. -/
  running : List Stream := []
  /-- Streams that have finished while slots of theirs were still in their rings. -/
  past    : List Stream := []
  /-- Outstanding transfers, oldest first. -/
  xfers   : List Transfer := []
  /-- Numbers given to streams and to transfers so far. -/
  nextId  : Nat := 0
  /-- The progress monitor's cycles. -/
  blocked : List BlockedCycle := []
  deriving DecidableEq, Repr

end Sys2Proof.Machine
end

