-- ==== Sys2Proof/Machine/StTest.lean ====
section
/-! DEFINITION. The test access port and its boundary register, the unlocked-debug register, and the telemetry counters and
snapshots (chapter 18). -/

namespace Sys2Proof.Machine

/-- The instruction in effect at the test access port (R563). -/
inductive TapInstr where
  | extest | samplePreload | idcode | clamp | highz | extestPulse | extestTrain | debugAccess | bypass
  deriving DecidableEq, Repr

/-- The test access port (R561 to R568). -/
structure Tap where
  /-- Reset selects IDCODE. -/
  instr    : TapInstr := .idcode
  /-- The instruction register's code as loaded. -/
  code     : Nat := 2
  /-- Output latches of the boundary register, by cell; an absent latch is 0. -/
  latches  : Tab Bool := []
  /-- Cells as last captured. -/
  captured : Tab Bool := []
  /-- Cells that drive their pins under the present instruction: the pin of an output cell and its value. -/
  driven   : Tab Bool := []
  /-- Every pin with a cell is released (HIGHZ). -/
  highz    : Bool := false
  /-- Cells that toggle under EXTEST_PULSE or EXTEST_TRAIN. -/
  pulsing  : List Nat := []
  /-- A rising edge of SYS_PWROK came while a boundary instruction was in effect (R565). -/
  heldRise : Bool := false
  /-- STATUS and DATA of the last completed debug operation (R568). -/
  status   : Nat := 0
  data     : W64 := 0
  deriving DecidableEq, Repr

/-- The engine counters of an SC block beside those its engines hold, in cycles, events or bytes (R574). -/
structure ScCounters where
  meBusy     : Nat := 0
  meTiles    : Nat := 0
  cePasses   : Nat := 0
  weCommits  : Nat := 0
  weSquashes : Nat := 0
  fuGroups   : Nat := 0
  poisoned   : Nat := 0
  timeouts   : Nat := 0
  lockstep   : Nat := 0
  yields     : Nat := 0
  spilled    : Nat := 0
  deriving DecidableEq, Repr

/-- The counters of the device block (R574). -/
structure DevCounters where
  sqeFetched  : Nat := 0
  completions : Nat := 0
  msixSent    : Nat := 0
  doorbells   : Nat := 0
  bar2Refused : Nat := 0
  fills       : Nat := 0
  evictions   : Nat := 0
  fCopyReads  : Nat := 0
  mbReruns    : Nat := 0
  avlUp       : Nat := 0
  avlDown     : Nat := 0
  rewritesAbandoned : Nat := 0
  throttled   : Nat := 0
  deriving DecidableEq, Repr

/-- A snapshot of one counter group (R576). -/
structure GroupSnap where
  /-- When it was taken, in ns; 0 before the first. -/
  at_    : Nat := 0
  /-- Its interval in ms. -/
  every  : Nat := 100
  /-- The counters by their offset in the debug window, with their values. -/
  values : List (Nat × Nat) := []
  deriving DecidableEq, Repr

/-- What the TELEMETRY page reports (R576). -/
structure Telemetry where
  /-- The snapshots of groups 1 to 4. -/
  snaps   : List GroupSnap := List.replicate 4 {}
  deriving DecidableEq, Repr

end Sys2Proof.Machine
end

