-- ==== Sys2Proof/Machine/StTrain.lean ====
section
/-! DEFINITION. Training jobs (chapter 9): the job descriptor, masters and moments, predicted scaling, the agreement watch,
checkpoints and results. -/

namespace Sys2Proof.Machine

/-- JOB_TYPE (R276). -/
inductive JobType where
  | codebookFit | adapterTrain | rerankTune
  deriving DecidableEq, Repr

/-- The fields of a job descriptor (R276, R277). -/
structure JobDesc where
  type        : JobType
  predicted   : Bool
  noPublish   : Bool
  indexNo     : Nat
  steps       : Nat
  batch       : Nat
  watchN      : Nat
  watchWindow : Nat
  drift       : Nat
  guardShift  : Nat
  src         : Nat
  lr          : F32
  beta1       : F32
  beta2       : F32
  eps         : F32
  decay       : F32
  driftLimit  : F32
  warmup      : Nat
  ckpt        : Nat
  seed        : Nat
  srcAddr     : Nat
  srcCount    : Nat
  evalPct     : Nat
  loss        : Nat
  temp        : F32
  minGain     : F32
  stateBytes  : Nat
  /-- FIT_MODE, RANK or FWD_W_FMT. -/
  param       : Nat
  /-- INIT or LAYER_MASK. -/
  param2      : Nat
  /-- CRC-32 of the 256 B (R295). -/
  crc         : Nat
  deriving DecidableEq, Repr

/-- A narrow form that a job quantises each step, with its scale history, its guard counters and its watch (R287, R289, R292 to
R294). -/
structure Flow where
  /-- History bytes H_b of predicted scaling. -/
  history  : List Nat := []
  /-- Widened to BF16 (R294). -/
  wide     : Bool := false
  /-- ERR, REF and NF_MISMATCH of the present watch window, and the last ratio; NF_MISMATCH and drift events since job start (R415). -/
  err      : F32 := 0
  ref      : F32 := 0
  nf       : Nat := 0
  ratio    : F32 := 0
  nfTotal  : Nat := 0
  drifts   : Nat := 0
  /-- SAT, UNDER and SOFT_SAT. -/
  sat      : Nat := 0
  under    : Nat := 0
  softSat  : Nat := 0
  deriving DecidableEq, Repr

/-- A weight tensor: its FP32 masters in row-major order and, where it is trained, its stored moments and the form of its narrow
gradient (R283, R286). -/
structure Tensor where
  rows     : Nat
  cols     : Nat
  trained  : Bool
  master   : List F32
  /-- First moment, MXINT8 blocks. -/
  m        : List MxBlock := []
  /-- Second moment, U8LOG blocks: a scale byte and 32 codes. -/
  v        : List MxBlock := []
  /-- V_FLOOR. -/
  vFloor   : Nat := 0
  /-- The narrow gradient. -/
  grad     : Flow := {}
  deriving DecidableEq, Repr

/-- The counters of a job's log (R303, R419). -/
structure JobLog where
  rowsSkipped : Nat := 0
  stepsEmpty  : Nat := 0
  nonfinite   : Nat := 0
  replays     : Nat := 0
  restarts    : Nat := 0
  escapes     : Nat := 0
  /-- The job left predicted scaling (R290). -/
  leftPred    : Bool := false
  deriving DecidableEq, Repr

/-- What a checkpoint holds (R295). -/
structure Checkpoint where
  step    : Nat
  applied : Nat
  p1      : F32
  p2      : F32
  tensors : List Tensor
  /-- The activation and gradient forms: which are widened, and their counters and ratios. -/
  flows   : List Flow
  log     : JobLog
  /-- CRC-32 of the job descriptor, in the slot's header. -/
  crc     : Nat
  /-- The slot's L-tier address and bytes. -/
  addr    : Nat
  len     : Nat
  deriving DecidableEq, Repr

/-- Where a job stands. -/
inductive JobState where
  /-- It runs its steps. -/
  | running
  /-- Its last step is done and it evaluates and publishes next (R297). -/
  | evaluate
  /-- It is done and its result is held under NO_PUBLISH (R297). -/
  | held
  /-- It ended with a result of R303. -/
  | ended (result : Nat)
  deriving DecidableEq, Repr

/-- A training job. -/
structure Job where
  id       : Nat
  /-- The function that submitted it, or 0xFFFF for the sideband. -/
  fn       : Nat
  burgee   : Nat
  desc     : JobDesc
  state    : JobState := .running
  /-- Its reservation in the F-tier, 0 for none (R282). -/
  area     : Nat := 0
  /-- Its first step since it was submitted or resumed has started (R296, R420). -/
  begun    : Bool := false
  /-- Which of the jobs that ended on the device it was, by which its number expires (R419). -/
  endNo    : Nat := 0
  /-- The next step, and the optimiser steps applied: t of R286. -/
  step     : Nat := 0
  applied  : Nat := 0
  /-- p1 and p2 of R286, 1.0 at job start. -/
  p1       : F32 := 0x3F800000
  p2       : F32 := 0x3F800000
  tensors  : List Tensor := []
  /-- The forms of activations and gradients: four for each weight tensor, its input along its rows and along the batch, and its
  output's gradient likewise (R273, R283). -/
  flows    : List Flow := []
  /-- The model image the job started from and its sequence number (R302). -/
  model    : Option (Nat × List Byte) := none
  /-- Consecutive NONFINITE steps (R285). -/
  badRun   : Nat := 0
  /-- Steps still to run in exact scaling as warm-up (R291). -/
  warm     : Nat := 64
  /-- Which of the last 64 steps were replayed, newest first (R290). -/
  recent   : List Bool := []
  /-- A row was used since the present watch window began (R303 NO_SAMPLES). -/
  used     : Bool := false
  /-- A checkpoint is due before the next step (R295). -/
  ckptDue  : Bool := false
  /-- The two checkpoint slots, newest first. -/
  ckpts    : List Checkpoint := []
  /-- The STOP_JOB requests that wait for the end of the present step, where the job stops: mailbox and slot (R419). -/
  stopReq  : List (Nat × Nat) := []
  log      : JobLog := {}
  /-- Losses of the last step and of the evaluations (R297). -/
  loss     : F32 := 0
  lossOld  : F32 := 0
  lossNew  : F32 := 0
  deriving DecidableEq, Repr

end Sys2Proof.Machine
end

