-- ==== Sys2Proof/Machine/State.lean ====
section
/-! DEFINITION. The state of the device: everything the spec gives the TPN-1A, as plain data, and the queue of commands that
wait; the reset state; and the ways a command can stop. -/

namespace Sys2Proof.Machine

/-- The F-tier heat of a unit (R109, R335): PROBES of its placement-map entry and the previous period's heat. -/
structure Heat where
  index  : Nat
  kind   : Nat
  unit   : Nat
  probes : Nat
  prev   : Nat
  deriving DecidableEq, Repr

/-- Everything but the command queue. -/
@[ext] structure Device where
  /-- DEV_TIMEBASE in ns, reset 0 (R337, R508). -/
  now        : Nat := 0
  /-- MODEL: free values drawn so far, which names the next one; no spec register. -/
  fresh      : Nat := 0
  /-- MODEL: what the device has sent, newest first; no spec register. -/
  out        : List Emit := []
  /-- The bytes of the internal address space of R304, in canonical form; an unlisted byte reads 0. -/
  mem        : List Host.Cell := []
  /-- Where the device stands between a reset and READY (R498). -/
  phase      : Phase := .held
  aon        : Aon := {}
  power      : Power := {}
  ens        : Ensign := {}
  straps     : Straps := {}
  /-- Resets asked for that have not begun (R495, R500). -/
  resets     : List PendingReset := []
  /-- DEGRADED_CAUSE, reset 0 (R501). -/
  degraded   : W32 := 0
  /-- DEV_STATUS.PROFILE_MISMATCH, reset 0 (R6). -/
  profMis    : Bool := false
  /-- DEV_STATUS.PROFILE_UNASSIGNED, reset 0 (R6). -/
  profUn     : Bool := false
  /-- DEV_STATUS.POP_MISMATCH, reset 0 (R37). -/
  popMis     : Bool := false
  /-- DEV_STATUS.POP_FAULT, reset 0 (R37). -/
  popFault   : Bool := false
  /-- DEV_STATUS.STRAP_FAULT, reset 0 (R366). -/
  strapFault : Bool := false
  /-- DEV_STATUS.QUIESCED, reset 0 (R493). -/
  quiesced   : Bool := false
  fuses      : Fuses := {}
  flash      : Flash := {}
  mgmt       : Mgmt := {}
  /-- Functions by number, 64n + k (R525). -/
  fns        : Tab Fn := []
  /-- HP0 to HP3 (R366). -/
  ports      : List Port := List.replicate 4 {}
  /-- The sideband mailbox (R408). -/
  sideMb     : Mailbox := {}
  /-- Burgees 0 to 15 by number (R342). -/
  burgees    : Tab Burgee := []
  /-- BURGEE_GEOMETRY in force: a record per burgee (R342). -/
  geo        : List GeoRec := List.replicate 16 {}
  /-- Indexes by number (R77). -/
  indexes    : Tab Index := []
  /-- Resident model images by sequence number, the current one, and the last number given (R126, R214). -/
  models     : Tab (List Byte) := []
  model      : Nat := 0
  lastModel  : Nat := 0
  /-- Staged areas by burgee (R418). -/
  staged     : Tab (List Staged) := []
  /-- Commands in flight, in fetch order (R374). -/
  cmds       : List Cmd := []
  /-- Stamps given (R374). -/
  stamp      : Nat := 0
  /-- Where the HQE's round robin stands (R374): the pair whose turn it is, as fn x 1,024 + qid, at 0; the port last served at 1; the
  function last served of port p at 2 + p; the queue pair last served of function f at 16 + f. -/
  lastQp     : Tab Nat := []
  ctxs       : List Ctx := []
  /-- Search Clusters SC0 to SC63 (R26, R341). -/
  scs        : Tab ScSched := []
  engines    : Tab Engines := []
  streams    : Tab Streams := []
  scCnt      : Tab ScCounters := []
  /-- The Merge Buffers of H0 and H1 (R28). -/
  mbs        : List MergeBuf := [{}, {}]
  /-- The device regulator's buckets for F-tier, L-tier, links and scratchpad windows, charged by OWN transfers (R346). -/
  devBuckets : List Bucket := [{ rate := 768 }, { rate := 160 }, { rate := 256 }, { rate := 256 }]
  heat       : List Heat := []
  tiers      : Tiers := {}
  jobs       : List Job := []
  /-- The last job number given, and jobs ended so far (R419). -/
  lastJob    : Nat := 0
  endedJobs  : Nat := 0
  /-- SL0 to SL31 (R442). -/
  links      : Tab Link := []
  shoal      : Shoal := {}
  tap        : Tap := {}
  devCnt     : DevCounters := {}
  telem      : Telemetry := {}
  deriving DecidableEq, Repr

/-- The state of the block: the device and the commands waiting, first in, first out. -/
structure State where
  dev     : Device := {}
  /-- MODEL: commands that wait, the front first; no spec register. -/
  pending : List Instr := []
  deriving DecidableEq, Repr

/-- How a command stops the machine. -/
inductive Fault where
  /-- Raised by RAIL_FAULT on a reading beyond the absolute maximum ratings of R554: the spec states no behaviour of the
  part there. Safe: the machine stops where the spec says nothing. -/
  | beyondRating
  deriving DecidableEq, Repr

/-- How a command is refused. -/
inductive Refusal where
  /-- Raised by the dispatch for a command that has no meaning yet, by its mnemonic. Safe: no next state is claimed. -/
  | notModelled (mnemonic : String)
  deriving DecidableEq, Repr

/-- The state as VAUX reaches regulation, before SYS_PWROK has risen: held in COLD reset, every register at its reset value
(R494, R537; log entry 4). -/
def State.reset : State := {}

end Sys2Proof.Machine
end

