-- ==== Sys2Proof/Machine/Ops.lean ====
section
/-! DEFINITION. The named operations every command shares: access to the parts of the device, memory, free values, writes to
the host, MSI-X, function events, asynchronous events, completions, deferred error records, and the metering of transfers. -/

namespace Sys2Proof.Machine

/-- The outcome of a command that changes the device and nothing else. -/
def onDev (f : Device → Device) (s : State) : Host.Outcome State Fault Refusal := .next { s with dev := f s.dev }

/-! ### Parts by number -/

/-- The function of a number (R525). -/
def Device.fn (d : Device) (f : Nat) : Fn := tget {} f d.fns
/-- The device with a function changed; a number past 255 names none: a task of another device. -/
def Device.modFn (d : Device) (f : Nat) (g : Fn → Fn) : Device := if f < 256 then { d with fns := tmod {} f g d.fns } else d
/-- A queue pair, if it exists (R370). -/
def Device.qp (d : Device) (f q : Nat) : Option QueuePair := tfind q (d.fn f).qps
/-- The device with a queue pair that exists changed. -/
def Device.modQp (d : Device) (f q : Nat) (g : QueuePair → QueuePair) : Device :=
  match d.qp f q with
  | some p => d.modFn f fun n => { n with qps := tset q (g p) n.qps }
  | none => d
/-- The burgee of a number (R342). -/
def Device.burgee (d : Device) (b : Nat) : Burgee := tget {} b d.burgees
/-- The device with a burgee changed. -/
def Device.modBurgee (d : Device) (b : Nat) (g : Burgee → Burgee) : Device := { d with burgees := tmod {} b g d.burgees }
/-- The index of a number, if it exists and is not deleted (R77, R417). -/
def Device.index? (d : Device) (i : Nat) : Option Index :=
  match tfind i d.indexes with
  | some x => if x.deletedAt.isNone then some x else none
  | none => none
/-- This device is in a shoal (R458). -/
def Device.inShoal (d : Device) : Bool := d.shoal.id != 0
/-- A shoal index of the directory (R464). -/
def Device.shoalIndex? (d : Device) (i : Nat) : Option ShoalIndex := if d.inShoal then d.shoal.indexes.find? (·.no == i) else none
/-- The device with an index that exists changed. -/
def Device.modIndex (d : Device) (i : Nat) (g : Index → Index) : Device :=
  match tfind i d.indexes with
  | some x => { d with indexes := tset i (g x) d.indexes }
  | none => d
/-- The scheduling state of an SC. -/
def Device.sc (d : Device) (n : Nat) : ScSched := tget {} n d.scs
/-- The device with an SC's scheduling state changed. -/
def Device.modSc (d : Device) (n : Nat) (g : ScSched → ScSched) : Device := { d with scs := tmod {} n g d.scs }
/-- The engines of an SC. -/
def Device.eng (d : Device) (n : Nat) : Engines := tget {} n d.engines
/-- The device with an SC's engines changed. -/
def Device.modEng (d : Device) (n : Nat) (g : Engines → Engines) : Device := { d with engines := tmod {} n g d.engines }
/-- The streams of an SC. -/
def Device.str (d : Device) (n : Nat) : Streams := tget {} n d.streams
/-- The device with an SC's streams changed. -/
def Device.modStr (d : Device) (n : Nat) (g : Streams → Streams) : Device := { d with streams := tmod {} n g d.streams }
/-- The counters of an SC. -/
def Device.cnt (d : Device) (n : Nat) : ScCounters := tget {} n d.scCnt
/-- The device with an SC's counters changed. -/
def Device.modCnt (d : Device) (n : Nat) (g : ScCounters → ScCounters) : Device := { d with scCnt := tmod {} n g d.scCnt }
/-- A Swiold Link. -/
def Device.link (d : Device) (n : Nat) : Link := tget {} n d.links
/-- The device with a link changed. -/
def Device.modLink (d : Device) (n : Nat) (g : Link → Link) : Device := { d with links := tmod {} n g d.links }
/-- A memory channel of either tier. -/
def Device.chan (d : Device) (n : Nat) : Channel := tget {} n d.tiers.chans
/-- The device with a memory channel changed. -/
def Device.modChan (d : Device) (n : Nat) (g : Channel → Channel) : Device :=
  { d with tiers := { d.tiers with chans := tmod {} n g d.tiers.chans } }
/-- The command of a fetch stamp, if it is in flight. -/
def Device.cmd? (d : Device) (stamp : Nat) : Option Cmd := d.cmds.find? (·.stamp == stamp)
/-- The device with a command in flight changed. -/
def Device.modCmd (d : Device) (stamp : Nat) (g : Cmd → Cmd) : Device :=
  { d with cmds := d.cmds.map fun c => if c.stamp == stamp then g c else c }
/-- A context, if it exists. -/
def Device.ctx? (d : Device) (id : Nat) : Option Ctx := d.ctxs.find? (·.id == id)
/-- The device with a context changed. -/
def Device.modCtx (d : Device) (id : Nat) (g : Ctx → Ctx) : Device :=
  { d with ctxs := d.ctxs.map fun c => if c.id == id then g c else c }
/-- A Merge Buffer, by half. -/
def Device.mb (d : Device) (h : Nat) : MergeBuf := d.mbs.getD h {}
/-- The device with a Merge Buffer changed. -/
def Device.modMb (d : Device) (h : Nat) (g : MergeBuf → MergeBuf) : Device := { d with mbs := lmod h g d.mbs }
/-- A job, if it exists. -/
def Device.job? (d : Device) (j : Nat) : Option Job := d.jobs.find? (·.id == j)
/-- The device with a job changed. -/
def Device.modJob (d : Device) (j : Nat) (g : Job → Job) : Device :=
  { d with jobs := d.jobs.map fun x => if x.id == j then g x else x }

/-! ### Time (R337; log entry 5) -/

/-- Time has passed to an instant, where that lies ahead: an event whose rule sets its instant falls no sooner. -/
def Device.by (d : Device) (t : Nat) : Device := { d with now := max d.now t }
/-- Time has passed to dt after an instant, if there was one. -/
def Device.since (d : Device) (t : Option Nat) (dt : Nat) : Device := t.elim d fun t => d.by (t + dt)

/-! ### What is sent and what is open -/

/-- The device having sent something. -/
def Device.emit (d : Device) (e : Emit) : Device := { d with out := e :: d.out }
/-- The device having used n free values, and the number of the first. -/
def Device.draw (d : Device) (n : Nat) : Nat × Device := (d.fresh, { d with fresh := d.fresh + n })
/-- n free bytes from number k on. -/
def freeBytes (k n : Nat) : List Byte := (List.range n).map fun i => Config.freeByte (k + i)

/-! ### Memory (R304) -/

/-- The byte an address lists; an unlisted address reads 0. -/
def memByte (a : Nat) : List Host.Cell → Byte
  | [] => 0
  | (b, v) :: t => if b = a then v else memByte a t

/-- The cells that list bytes from address a on, zeros left out. -/
def cellsOf : Nat → List Byte → List Host.Cell
  | _, [] => []
  | a, b :: bs => if b = 0 then cellsOf (a + 1) bs else (a, b) :: cellsOf (a + 1) bs

/-- A memory with bytes stored from address a on. -/
def memStore (a : Nat) (bs : List Byte) (m : List Host.Cell) : List Host.Cell :=
  m.filter (fun c => decide (c.1 < a)) ++ (cellsOf a bs ++ m.filter (fun c => decide (a + bs.length ≤ c.1)))

/-- A memory is in canonical form: addresses strictly rise and no entry is 0, which an unlisted address reads as. -/
def Memory.wf : List Host.Cell → Bool
  | [] => true
  | [c] => c.2 != 0
  | c :: e :: t => c.2 != 0 && decide (c.1 < e.1) && Memory.wf (e :: t)

/-- The erased ranges left after bytes [a, a + n) have been written (R437). -/
def eraseTrim (a n : Nat) (es : List Erased) : List Erased :=
  es.flatMap fun e =>
    let lo := min (a - e.base) e.len
    let hi := min (a + n - e.base) e.len
    (if lo = 0 then [] else [{ e with len := lo }]) ++
      (if hi < e.len then [{ e with base := e.base + hi, len := e.len - hi }] else [])

/-- The byte an address reads as: unknown where its key was replaced and nothing has written it since (R437). -/
def Device.byteAt (d : Device) (a : Nat) : Byte :=
  match d.tiers.erased.find? fun e => decide (e.base ≤ a) && decide (a < e.base + e.len) with
  | some e => Config.erasedByte e.draw a
  | none => memByte a d.mem

/-- The n bytes from an address on. -/
def Device.read (d : Device) (a n : Nat) : List Byte :=
  if d.tiers.erased.isEmpty then
    let w := d.mem.filter fun c => decide (a ≤ c.1) && decide (c.1 < a + n)
    (List.range n).map fun i => memByte (a + i) w
  else (List.range n).map fun i => d.byteAt (a + i)

/-- The device with bytes stored from an address on. -/
def Device.write (d : Device) (a : Nat) (bs : List Byte) : Device :=
  { d with mem := memStore a bs d.mem, tiers := { d.tiers with erased := eraseTrim a bs.length d.tiers.erased } }

/-- The device with n bytes from an address on set to zero. -/
def Device.zero (d : Device) (a n : Nat) : Device :=
  { d with mem := d.mem.filter (fun c => decide (c.1 < a) || decide (a + n ≤ c.1)),
           tiers := { d.tiers with erased := eraseTrim a n d.tiers.erased } }

/-- The device with n bytes from an address on made unknown by a key draw (R437). -/
def Device.erase (d : Device) (a n draw : Nat) : Device :=
  let z := d.zero a n
  { z with tiers := { z.tiers with erased := ⟨a, n, draw⟩ :: z.tiers.erased } }

/-- Base of the scratchpad window of SCn (R304). -/
def scBase (n : Nat) : Nat := 0x800000000000 + 0x800000 * n
/-- Base of the L-tier data space (R304). -/
def lBase : Nat := 0x10000000000
/-- Enabled pseudo-channels, n_en of R309. -/
def Device.nen (d : Device) : Nat := 256 - d.tiers.disabled.length
/-- F-tier capacity in bytes (R309). -/
def Device.fCap (d : Device) : Nat := 0x30000000 * d.nen
/-- End of the populated L-tier in the internal address space (R304). -/
def Device.lEnd (d : Device) : Nat := if d.tiers.packages = 9 then 0x17000000000 else 0x1E000000000

/-- What a transfer address falls into (R304). -/
inductive Area where
  | fTier | lTier | scratch (sc : Nat) | merge | none
  deriving DecidableEq, Repr

/-- The area of an address (R304). -/
def Device.area (d : Device) (a : Nat) : Area :=
  if a < d.fCap then .fTier
  else if lBase ≤ a && a < d.lEnd then .lTier
  else if 0x800000000000 ≤ a && a < 0x800020000000 then .scratch ((a - 0x800000000000) / 0x800000)
  else if 0x800040000000 ≤ a && a < 0x800044000000 then .merge
  else .none

/-- The owner of the granule of g bytes that an address lies in: that of the space in use on it; a granule with none is the
device's (R306). -/
def ownerOf (g a : Nat) (es : List Extent) : Option Nat :=
  match es.find? fun e => decide (e.base / g ≤ a / g) && decide (a / g ≤ (e.base + e.len - 1) / g) with
  | some e => e.owner
  | none => none

/-- A transfer may touch the address: R305 and R306. OWN admits to every granule and to the Merge Buffers, and to no SC outside the burgee. -/
def Device.mayTouch (d : Device) (own : Bool) (burgee a : Nat) : Bool :=
  match d.area a with
  | .none => false
  | .merge => own
  | .scratch n => (d.burgee burgee).scSet.getLsbD n
  | .fTier => own || ownerOf 0x10000000 a d.tiers.extF == some burgee
  | .lTier => own || ownerOf 0x40000000 a d.tiers.extL == some burgee

/-- Bytes over which R305 and R306 give one answer: an ownership granule, an SC's window or a Merge Buffer's. -/
def Area.granule : Area → Nat
  | .fTier => 0x10000000
  | .lTier => 0x40000000
  | .scratch _ => 0x800000
  | .merge | .none => 0x2000000
/-- A transfer of n bytes may touch all of its bytes: its first and last, and the first of every granule between (R305, R306). -/
def Device.mayTouchAll (d : Device) (own : Bool) (burgee a n : Nat) : Bool :=
  let g := (d.area a).granule
  n == 0 || (d.mayTouch own burgee a && d.mayTouch own burgee (a + n - 1) &&
    (List.range ((a + n - 1) / g - a / g)).all fun i => d.mayTouch own burgee ((a / g + 1 + i) * g))

/-- The refusal of R306 rather than of R305 stops the transfer: the address exists and another burgee or the device owns it. -/
def Device.ownerRefuses (d : Device) (own : Bool) (burgee a : Nat) : Bool :=
  match d.area a with
  | .fTier | .lTier => !d.mayTouch own burgee a
  | _ => false

/-! ### Readiness -/

/-- READY (R498, R512). -/
def Device.ready (d : Device) : Bool := d.phase == .ready
/-- DATA_PATH_EN: READY, with a profile assigned, the L-tier population resolved and no L-tier fault (R6, R37, R333, R512). -/
def Device.dataPath (d : Device) : Bool := d.ready && !d.profUn && !d.popMis && !d.popFault && !d.tiers.lFault
/-- Admission is frozen by a brown-out (R492). -/
def Device.frozen (d : Device) : Bool := d.aon.bo.frozen
/-- The effective target rate in units of 0.05e9 cycles/s (R485). -/
def Device.reff (d : Device) : Nat := min d.mgmt.feat.targetRate (min d.power.renv d.power.rtherm)
/-- A sanitise is active, or failed and not ended since: the refusals of R424 hold (R425). -/
def Device.sanHeld (d : Device) : Bool := d.flash.sanitise.state == 1 || d.flash.sanitise.state == 3
/-- An MP holds the Ensign and no fence is in progress: the mailboxes are served (R33, R410). -/
def Device.seated (d : Device) : Bool := d.ens.holder.isSome && !d.ens.fenced

/-! ### To the host -/

/-- The port of a function (R525). -/
def portOf (f : Nat) : Nat := f / 64
/-- The port of a function has its link up and its host present. -/
def Device.portUp (d : Device) (f : Nat) : Bool :=
  match d.ports[portOf f]? with
  | some p => p.up && !p.lost
  | none => false

/-- A write to host memory by a function: sent, held while Bus Master Enable is clear (R402), or dropped with its port. -/
def Device.toHost (d : Device) (f addr : Nat) (relaxed : Bool) (bs : List Byte) : Device :=
  if !d.portUp f then d
  else if (d.fn f).bme then d.emit (.hostWrite f addr relaxed bs)
  else d.modFn f fun n => { n with heldOut := n.heldOut ++ [.hostWrite f addr relaxed bs] }

/-- A message of a function's vector: sent, or pended while the vector is masked or Bus Master Enable is clear
(R401, R402, R533). -/
def Device.msix (d : Device) (f v : Nat) : Device :=
  let n := d.fn f
  if !d.portUp f then d
  else if (tget ({} : MsixEntry) v n.msix).masked || !n.bme then
    d.modFn f fun n => { n with pba := if n.pba.contains v then n.pba else v :: n.pba }
  else { d.emit (.msix f v) with devCnt := { d.devCnt with msixSent := d.devCnt.msixSent + 1 } }

/-- A function event's cause sets its bit; vector 0 signals when no unmasked cause was set before (R527). -/
def Device.fnEvent (d : Device) (f bit : Nat) : Device :=
  let n := d.fn f
  let st := n.evStatus ||| BitVec.ofNat 32 (2 ^ bit)
  let d' := d.modFn f fun n => { n with evStatus := st }
  if n.evStatus &&& ~~~n.evMask == 0 && st &&& ~~~n.evMask != 0 then d'.msix f 0 else d'

/-- MB_RESPONSE, QP_ERROR, DEL_RECORD, DEL_LOST, DEVICE_READY and QUEUES_LOST of R526, by bit. -/
def evMbResponse : Nat := 0
/-- QP_ERROR (R526). -/
def evQpError : Nat := 1
/-- DEL_RECORD (R526). -/
def evDelRecord : Nat := 2
/-- DEL_LOST (R526). -/
def evDelLost : Nat := 3
/-- DEVICE_READY (R526). -/
def evDeviceReady : Nat := 4
/-- QUEUES_LOST (R526). -/
def evQueuesLost : Nat := 5

/-- Bits of SB_ALERT_STATUS set (R537). -/
def Device.alert (d : Device) (bit : Nat) : Device :=
  { d with aon := { d.aon with alert := d.aon.alert ||| BitVec.ofNat 32 (2 ^ bit) } }
/-- ALERT# is asserted (R537). -/
def Device.alertPin (d : Device) : Bool := d.aon.alert &&& ~~~d.aon.alertMask != 0

/-! ### Mailboxes (R405 to R413) -/

/-- The number of the sideband mailbox; function mailboxes carry their function's number. -/
def sbMb : Nat := 256
/-- A mailbox. -/
def Device.mbox (d : Device) (m : Nat) : Mailbox := if m = sbMb then d.sideMb else (d.fn m).mb
/-- The device with a mailbox changed. -/
def Device.modMbox (d : Device) (m : Nat) (g : Mailbox → Mailbox) : Device :=
  if m = sbMb then { d with sideMb := g d.sideMb } else d.modFn m fun n => { n with mb := g n.mb }

/-- The count of the request that a slot holds: of a function mailbox, the one of [head, tail) congruent to it (R531); of the sideband
mailbox, the latest request that took the slot. -/
def Mailbox.countOf (m : Nat) (b : Mailbox) (slot : Nat) : Nat :=
  if m = sbMb then (b.tail + 31 - slot) / 32 * 32 + slot - 32 else b.head + (slot + 32 - b.head % 32) % 32

/-- The 32 B of a response to a request whose bytes are given; a slot never written reads as zeros (R407, R531). -/
def responseBytes (rq : List Byte) (status detail retry written result : Nat) (phase : Bool) : List Byte :=
  let rq := rq ++ List.replicate 4 0
  (rq.drop 2).take 2 ++ rq.take 2 ++ leBytes 2 status ++ leBytes 2 detail ++ leBytes 4 retry ++ leBytes 4 written ++
    leBytes 8 (if status = 0 then result else 0) ++ leBytes 6 0 ++ leBytes 2 (flagAt 15 phase)

/-- A response to the request of a slot, with the output bytes written or, at the sideband, sent with it: the slot, MB_DONE and then
MB_RESPONSE (R406 to R408, R532). A slot whose request a reset discarded takes none (R532). BUSY_RETRY is counted (R414 MP_LOAD). -/
def Device.respondWith (d : Device) (m slot status detail retry result : Nat) (out : List Byte) : Device :=
  let b := d.mbox m
  let st := tget SlotState.idle slot b.slots
  if st != .started && st != .heldForEvent then d
  else
    let bs := responseBytes (tget [] slot b.req) status detail retry out.length result (b.countOf m slot / 32 % 2 == 0)
    let d1 := if status = 0x2004 then
        { d with mgmt := { d.mgmt with shed := { d.mgmt.shed with busy := d.mgmt.shed.busy + 1 } } } else d
    if m = sbMb then
      { d1.emit (.sideband (bs ++ out)) with
        sideMb := { b with rsp := tset slot bs b.rsp, slots := tset slot .idle b.slots, data := tdel slot b.data } }
    else
      (d1.modMbox m fun b => { b with rsp := tset slot bs b.rsp, slots := tset slot .done b.slots }).fnEvent m evMbResponse
/-- A response without output (R407). -/
def Device.respond (d : Device) (m slot status detail retry result : Nat) : Device := d.respondWith m slot status detail retry result []

/-- The RESULT of an event's delivery (R413). -/
def eventWord (e : Event) : Nat :=
  e.type + (match e.burgee with | some b => at_ 16 b | none => flagAt 20 true) + at_ 32 e.info.toNat

/-- The slots of a mailbox in request order, the oldest request first. -/
def Mailbox.order (m : Nat) (b : Mailbox) : List Nat := (List.range 32).map fun i => ((if m = sbMb then b.tail else b.head) + i) % 32
/-- Slots of a mailbox holding an ASYNC_EVENT_REQUEST, in request order. -/
def Mailbox.eventSlots (m : Nat) (b : Mailbox) : List Nat := (b.order m).filter fun s => tget SlotState.idle s b.slots == .heldForEvent

/-- An event reaches a mailbox: into a waiting request's response, else into its queue of 64, else counted (R413). -/
def Device.eventTo (d : Device) (e : Event) (m : Nat) : Device :=
  let d := d.modMbox m fun b => { b with received := ((d.now, e) :: b.received).take 256 }
  match (d.mbox m).eventSlots m with
  | s :: _ => d.respond m s 0 0 0 (eventWord e)
  | [] =>
    if (d.mbox m).events.length < 64 then
      let d' := d.modMbox m fun b => { b with events := b.events ++ [e] }
      if m = sbMb then d'.alert 8 else d'
    else d.modMbox m fun b => { b with evLost := b.evLost + 1 }

/-- The device-admin PFs: the PF of each port named in DEVICE_ADMIN_PORTS (R405). -/
def Device.adminPfs (d : Device) : List Nat :=
  ((List.range 4).filter fun p => d.mgmt.feat.adminPorts.testBit p).map (64 * ·)

/-- The mailboxes an event goes to (R413). -/
def Device.eventMbs (d : Device) (e : Event) : List Nat :=
  match e.burgee with
  | none => sbMb :: d.adminPfs
  | some b => (d.fns.filter fun p => p.2.assigned && p.2.burgee == b && p.2.permAdmin).map (·.1)

/-- An asynchronous event is raised (R413). -/
def Device.raise (d : Device) (e : Event) : Device := (d.eventMbs e).foldl (fun d m => d.eventTo e m) d

/-- A device event of a type and INFO. -/
def Device.raiseDev (d : Device) (type info : Nat) : Device := d.raise ⟨type, none, BitVec.ofNat 32 info⟩
/-- A burgee event of a type and INFO. -/
def Device.raiseBrg (d : Device) (b type info : Nat) : Device := d.raise ⟨type, some b, BitVec.ofNat 32 info⟩

/-- A cause of DEGRADED sets: an event and an alert when its bit was clear (R501, R537). -/
def Device.degrade (d : Device) (bit : Nat) : Device :=
  if d.degraded.getLsbD bit then d
  else
    let w := d.degraded ||| BitVec.ofNat 32 (2 ^ bit)
    (({ d with degraded := w }).alert 5).raiseDev 4 w.toNat
/-- A cause of DEGRADED clears (R501). -/
def Device.undegrade (d : Device) (bit : Nat) : Device :=
  { d with degraded := d.degraded &&& ~~~(BitVec.ofNat 32 (2 ^ bit)) }

/-- A POWER_THERMAL event of a cause, half (3: not applicable) and value, with its sideband alert (R490, R537). -/
def Device.powerEvent (d : Device) (cause half : Nat) (value : Int) : Device :=
  let d1 := d.raiseDev 0x0011 (cause + at_ 8 half + at_ 16 (twos 16 value))
  match cause with
  | 0x03 | 0x0C | 0x0D => d1.alert 1
  | 0x06 => d1.alert 2
  | 0x08 => d1.alert 3
  | 0x0A => d1.alert 4
  | _ => d1

/-! ### Accounting (R361, R523) -/

/-- An account with its value under a counter changed, for the client of a command (a function) or the background client of
a burgee, and for the burgee's readback. -/
def Device.account (d : Device) (client : Option Nat) (b : Nat) (g : Account → Account) : Device :=
  let d' := match client with
    | some f => d.modFn f fun n => { n with account := g n.account }
    | none => d.modBurgee b fun x => { x with bgAccount := g x.bgAccount }
  d'.modBurgee b fun x => { x with readback := g x.readback }

/-! ### Completions (R375, R390, R391, R401) -/

/-- The interrupt of a CQ fires: the count and the timer restart (R401). -/
def Device.cqSignal (d : Device) (f q : Nat) : Device :=
  match d.qp f q with
  | some p => (d.modQp f q fun p => { p with sinceMsg := 0, waitFrom := none }).msix f p.vector
  | none => d

/-- The 32 B of a completion (R390). -/
def completionBytes (spec elapsed pending sqhd sqid cid index status flags : Nat) : List Byte :=
  leBytes 8 spec ++ leBytes 4 (min elapsed 0xFFFFFFFF) ++ leBytes 2 (min pending 0xFFFF) ++ leBytes 2 0 ++
    leBytes 2 sqhd ++ leBytes 2 sqid ++ leBytes 2 cid ++ leBytes 2 index ++ leBytes 4 0 ++ leBytes 2 status ++ leBytes 2 flags

/-- A completion is posted on a queue pair that still exists: one 32 B write at the tail, with its interrupt (R375, R390,
R399, R401). -/
def Device.post (d : Device) (f q cid index t0 status spec : Nat) (bound trunc : Bool) : Device :=
  match d.qp f q with
  | none => d
  | some p =>
    let n := d.fn f
    let flags := flagAt 15 p.phase + flagAt 14 (p.deferred || n.deferred) + flagAt 13 bound + flagAt 12 trunc
    let bs := completionBytes spec ((d.now - t0) / 1000) n.log.pending p.sqHead q cid index status flags
    let wrap := p.cqTail + 1 == p.cqSize
    let d1 := d.toHost f (p.cqBase + 32 * p.cqTail) false bs
    let d2 := d1.modQp f q fun p => { p with
      cqTail := if wrap then 0 else p.cqTail + 1, phase := if wrap then !p.phase else p.phase, unread := p.unread + 1,
      inFlight := p.inFlight - 1, deferred := false, sinceMsg := p.sinceMsg + 1, waitFrom := p.waitFrom.or (some d.now) }
    let d3 := d2.modFn f fun n => { n with deferred := false }
    let d4 := { d3 with devCnt := { d3.devCnt with completions := d3.devCnt.completions + 1 } }
    if p.irqEn && (p.aggTime == 0 || decide (max 1 p.aggCount ≤ p.sinceMsg + 1)) then d4.cqSignal f q else d4

/-! ### Deferred errors (R396 to R399) -/

/-- The 64 B of a Deferred Error Log record (R397). -/
def defRecord (l : DefLog) (code sqid cid index : Nat) (wseq : Nat) (id : W64) (now target : Nat) : List Byte :=
  leBytes 8 (l.recSeq + 1) ++ leBytes 2 code ++ leBytes 2 sqid ++ leBytes 2 cid ++ leBytes 2 index ++ leBytes 8 wseq ++
    leBytes 8 id.toNat ++ leBytes 8 now ++ leBytes 4 target ++ leBytes 4 l.lostRec ++ leBytes 15 0 ++
    leBytes 1 (flagAt 0 l.phase)

/-- A deferred error record of a function: written at the ring's tail, or counted while the ring is full or not configured or the
port has lost its host (R396, R402, R529), and its queue pair's next completion flagged (R399). -/
def Device.defError (d : Device) (f code sqid cid index wseq : Nat) (id : W64) (target : Nat) : Device :=
  let l := (d.fn f).log
  if l.size = 0 || l.pending = l.size || !d.portUp f then
    (d.modFn f fun n => { n with log := { l with lost := min 0xFFFFFFFF (l.lost + 1), lostRec := l.lostRec + 1 } }).fnEvent f evDelLost
  else
    let d1 := d.toHost f (l.base + 64 * l.tail) false (defRecord l code sqid cid index wseq id d.now target)
    let wrap := l.tail + 1 == l.size
    let l' := { l with tail := if wrap then 0 else l.tail + 1, phase := if wrap then !l.phase else l.phase,
                       pending := l.pending + 1, lostRec := 0, recSeq := l.recSeq + 1 }
    let d2 := d1.modFn f fun n => { n with log := l' }
    let d3 := if (d.qp f sqid).isSome then d2.modQp f sqid fun p => { p with deferred := true }
              else if sqid = 0xFFFF then d2 else d2.modFn f fun n => { n with deferred := true }
    d3.fnEvent f evDelRecord

/-! ### Metering (R251, R345, R346) -/

/-- The metered resources in the order of the buckets: F-tier, L-tier, links, scratchpad windows. -/
inductive Metered where
  | f | l | link | spad
  deriving DecidableEq, Repr
/-- Position of a resource. -/
def Metered.pos : Metered → Nat
  | .f => 0 | .l => 1 | .link => 2 | .spad => 3

/-- The bucket of a transfer: HI for pennants 5 to 7, LO otherwise (R345). -/
def bucketNo (r : Metered) (pennant : Nat) : Nat := 2 * r.pos + (if 5 ≤ pennant then 0 else 1)

/-- A transfer may issue: its bucket holds more than 0 tokens (R345). -/
def Device.tokens (d : Device) (own : Bool) (b : Nat) (r : Metered) (pennant : Nat) : Bool :=
  if own then decide (0 < (d.devBuckets.getD r.pos {}).level)
  else decide (0 < ((d.burgee b).buckets.getD (bucketNo r pennant) {}).level)

/-- A charge taken from its bucket and counted for the client (R251, R345, R361). -/
def Device.charge (d : Device) (own : Bool) (client : Option Nat) (b : Nat) (r : Metered) (pennant n : Nat) : Device :=
  let sub := fun (k : Bucket) => { k with level := k.level - (n : Int) }
  if own then { d with devBuckets := lmod r.pos sub d.devBuckets }
  else
    let d' := d.modBurgee b fun x => { x with buckets := lmod (bucketNo r pennant) sub x.buckets }
    d'.account client b fun a => match r with
      | .f => { a with bytesF := a.bytesF + n }
      | .l => { a with bytesL := a.bytesL + n }
      | .link => { a with bytesLink := a.bytesLink + n }
      | .spad => { a with bytesSpad := a.bytesSpad + n }

/-- The client of a context: the function of its command, or the background client (R361). -/
def Device.clientOf (d : Device) (ctx : Nat) : Option Nat :=
  match d.ctx? ctx with
  | some c => match c.cmd.bind d.cmd? with
    | some m => some m.fn
    | none => none
  | none => none

end Sys2Proof.Machine
end

