-- ==== Sys2Proof/Machine/Links.lean ====
section
/-! DEFINITION. The transport of messages over Swiold Links (R442 to R463): cabling and routes, flits, credits, replay,
link drops and the hail. -/

namespace Sys2Proof.Machine

/-! ### Cabling (R458, R459) -/

/-- Number of devices N of the shoal (R458). -/
def Shoal.size (h : Shoal) : Nat := h.groups * h.members
/-- Position of a device number (R458). -/
def posOf (dev : Nat) : Nat := dev % 256
/-- Which shoal of a mirrored pair a device number lies in (R458). -/
def sideOf (dev : Nat) : Nat := dev / 256
/-- The twin of a device (R458). -/
def twinOf (dev : Nat) : Nat := if sideOf dev = 0 then dev + 256 else dev - 256

/-- Links a partner at offset o receives of s slots in a dimension of size k (R459). -/
def slotCount (s k o : Nat) : Nat :=
  let b := s / (k - 1)
  let r := s % (k - 1)
  b + (if o ≤ r / 2 || k - r / 2 ≤ o || (r % 2 = 1 && 2 * o = k) then 1 else 0)

/-- The slots of offset o: the first and how many (R459). -/
def slotRange (s k o : Nat) : Nat × Nat :=
  (lsum ((List.range (o - 1)).map fun i => slotCount s k (i + 1)), slotCount s k o)

/-- The offset whose slots hold slot j, if any. -/
def slotOffset (s k j : Nat) : Option Nat :=
  (List.range (k - 1)).map (· + 1) |>.find? fun o =>
    let r := slotRange s k o
    decide (r.1 ≤ j) && decide (j < r.1 + r.2)

/-- One dimension serves all links (R459). -/
def Shoal.flat (h : Shoal) : Bool := h.groups == 1 || h.members == 1

/-- The links of the trunk from this device to a partner position one hop away, in ascending order (R459). -/
def Shoal.trunk (h : Shoal) (tgts : Nat) : List Nat :=
  let self := posOf h.device
  if h.flat then
    let n := h.size
    if tgts = self || n < 2 then [] else
      let r := slotRange 30 n ((tgts + n - self) % n)
      (List.range r.2).map (r.1 + ·)
  else
    let m := h.members
    let (g1, m1, g2, m2) := (self / m, self % m, tgts / m, tgts % m)
    if g1 = g2 && m1 != m2 then
      let r := slotRange 15 m ((m2 + m - m1) % m)
      (List.range r.2).map (r.1 + ·)
    else if m1 = m2 && g1 != g2 then
      let r := slotRange 15 h.groups ((g2 + h.groups - g1) % h.groups)
      (List.range r.2).map fun i => 15 + r.1 + i
    else []

/-- The device number the cabling rule places on a link; none where the link serves no partner (R459). -/
def Shoal.partnerOf (h : Shoal) (l : Nat) : Option Nat :=
  let self := posOf h.device
  let side := 256 * sideOf h.device
  if 30 ≤ l then (if h.mirrored then some (twinOf h.device) else none)
  else if h.flat then (slotOffset 30 h.size l).map fun o => side + (self + o) % h.size
  else
    let m := h.members
    if l < 15 then (slotOffset 15 m l).map fun o => side + (self / m * m + (self % m + o) % m)
    else (slotOffset 15 h.groups (l - 15)).map fun o => side + ((self / m + o) % h.groups * m + self % m)

/-- A link carries messages of every virtual channel. -/
def Link.isUp (l : Link) : Bool := l.state == .up
/-- Links of a trunk that are UP. -/
def Device.upLinks (d : Device) (ls : List Nat) : List Nat := ls.filter fun l => (d.link l).isUp
/-- Links of a trunk that carry a virtual channel: those that are UP, for management also where they are UP for it alone (R447). -/
def Device.linksFor (d : Device) (vc : Nat) (ls : List Nat) : List Nat :=
  ls.filter fun l => (d.link l).isUp || (vc == 3 && (d.link l).state == .mgmtOnly)
/-- The twin trunk (R459). -/
def Shoal.twinTrunk (h : Shoal) : List Nat := if h.mirrored then [30, 31] else []

/-! ### Routes (R460, R461) -/

/-- The next device of the primary route to a position: groups before members (R461). -/
def Shoal.primaryHop (h : Shoal) (self tgts : Nat) : Nat :=
  let m := h.members
  if tgts / m != self / m then tgts / m * m + self % m else tgts

/-- The intermediate coordinate along a dimension of size k from own coordinate c to target t (R461). -/
def midCoord (k c t : Nat) : Option Nat :=
  let j0 := (t + k / 2) % k
  ((List.range k).map fun i => (j0 + i) % k).find? fun j => j != c && j != t

/-- The intermediate device of the detour to a position (R461). -/
def Shoal.detourHop (h : Shoal) (self tgts : Nat) : Option Nat :=
  let m := h.members
  if h.flat then midCoord h.size self tgts
  else if tgts % m != self % m then (midCoord m (self % m) (tgts % m)).map fun j => self / m * m + j
  else (midCoord h.groups (self / m) (tgts / m)).map fun j => j * m + self % m

/-- Hops of the primary route between two positions. -/
def Shoal.hops (h : Shoal) (a b : Nat) : Nat :=
  if a = b then 0 else if h.flat || a / h.members = b / h.members || a % h.members = b % h.members then 1 else 2

/-- A routing entry's word (R460). -/
def routeWord (pri det priHops detHops state : Nat) : W32 :=
  BitVec.ofNat 32 (at_ 24 pri + at_ 16 det + at_ 10 priHops + at_ 8 detHops + state)
/-- STATE of a routing entry. -/
def routeState (w : W32) : Nat := bits 2 0 w.toNat

/-- The routing entry of a position as the links and the directory stand (R460, R461). -/
def Device.routeOf (d : Device) (p : Nat) : W32 :=
  let h := d.shoal
  let self := posOf h.device
  if p = self then routeWord p 0 0 0 0
  else if h.size ≤ p then 0
  else
    let pri := h.primaryHop self p
    let det := h.detourHop self p
    let detHops := match det with | some j => 1 + h.hops j p | none => 0
    let up := fun (q : Nat) => !(d.upLinks (h.trunk q)).isEmpty
    let lost := (tget ({} : Member) (256 * sideOf h.device + p) h.dir).state == 4
    let st := if lost then 4 else if up pri then 1
              else match det with | some j => if up (h.primaryHop self j) then 2 else 3 | none => 3
    routeWord pri (det.getD 0) (h.hops self p) detHops st

/-! ### Holders (R464) -/

/-- The holders of a shoal of the pair: the three SEARCH devices of lowest position that are not LOST and have joined (R464, R476). -/
def Device.holdersOf (d : Device) (side : Nat) : List Nat :=
  (((List.range d.shoal.size).map (256 * side + ·)).filter fun n =>
    let m := tget ({ state := 4 } : Member) n d.shoal.dir
    m.state != 4 && m.state != 1 && m.roles.testBit 0).take 3
/-- The holders of this device's own shoal. -/
def Device.holders (d : Device) : List Nat := d.holdersOf (sideOf d.shoal.device)
/-- The lead of this device's shoal (R464). -/
def Device.lead (d : Device) : Option Nat := d.holders[0]?
/-- This device leads its shoal. -/
def Device.isLead (d : Device) : Bool := d.lead == some d.shoal.device
/-- The lead of a mirrored pair: that of shoal 0 (R464). -/
def Device.pairLead (d : Device) : Option Nat := (d.holdersOf 0 ++ d.holdersOf 1)[0]?

/-- The routing table written anew (R460). -/
def Device.setRoutes (d : Device) : Device :=
  if d.inShoal then
    let rs := (List.range d.shoal.size).map fun p => (p, d.routeOf p)
    let near := (d.holders.filter fun h => [0, 1, 2].contains (routeState (tget 0 (posOf h) rs))).length
    { d with shoal := { d.shoal with routes := rs, isolated := if near < 2 then d.shoal.isolated.or (some d.now) else none } }
  else d

/-! ### Messages and flits (R448 to R454) -/

/-- The virtual channel of a message kind (R452); none for a reserved kind. -/
def kindVc : Nat → Option Nat
  | 0x01 | 0x03 | 0x05 | 0x07 | 0x08 | 0x0A | 0x0C | 0x0E | 0x10 | 0x12 => some 0
  | 0x02 | 0x06 | 0x09 | 0x0B | 0x0D | 0x0F | 0x11 | 0x13 => some 1
  | 0x04 => some 2
  | 0x14 | 0x15 | 0x16 => some 3
  | _ => none
/-- The pennant of a message kind (R452). -/
def kindPennant : Nat → Nat
  | 0x04 => 7
  | 0x01 | 0x02 | 0x03 | 0x05 | 0x06 | 0x07 | 0x0A | 0x0B => 6
  | 0x14 | 0x15 | 0x16 => 5
  | 0x08 | 0x09 | 0x10 | 0x11 => 4
  | 0x0C | 0x0D | 0x0E | 0x0F => 3
  | _ => 1
/-- Management messages carry burgee 0 with OWN set; the others carry their burgee (R29). -/
def tagsOf (kind burgee : Nat) : Nat :=
  if kindVc kind == some 3 then 0x80 + kindPennant kind else at_ 3 burgee + kindPennant kind

/-- The 256 B of a flit (R448). -/
def flitBytes (ftype vc : Nat) (leg : Bool) (seq ack crdClass crd : Nat) (body : List Byte) : List Byte :=
  let head := leBytes 1 (ftype + at_ 4 vc + flagAt 6 leg) ++ leBytes 2 seq ++ leBytes 2 ack ++
    leBytes 1 (crdClass / 2 + flagAt 2 (crdClass % 2 = 1) + at_ 3 crd) ++ leBytes 2 0
  let mid := (body ++ List.replicate 240 0).take 240
  let e2e := crc32c (mid.take 10 ++ [0] ++ mid.drop 11)
  let pre := head ++ mid ++ leBytes 4 e2e.toNat
  pre ++ leBytes 4 (crc32 pre).toNat

/-- Bytes 8 to 247 of a DATA flit of a message from its offset on (R448). -/
def dataBody (m : Msg) (pay : List Byte) (tail : Bool) : List Byte :=
  leBytes 2 m.dst ++ leBytes 2 m.src ++ leBytes 2 m.tag ++ leBytes 1 m.kind ++
    leBytes 1 (flagAt 0 (m.off == 0) + flagAt 1 tail) ++ leBytes 1 m.tags ++ leBytes 1 pay.length ++
    leBytes 1 (flagAt 0 m.resent + flagAt 1 m.detour + at_ 2 m.hops) ++ leBytes 1 0 ++ leBytes 4 m.off ++ pay

/-- The class of credits of a message: 2 x VC + LEG (R453). -/
def Msg.cls (m : Msg) : Nat := 2 * m.vc + (if m.leg then 1 else 0)

/-- Add n to a counter of a link's block (R574). -/
def Device.linkCount (d : Device) (l c n : Nat) : Device :=
  d.modLink l fun k => { k with counters := lmod c (· + n) k.counters }

/-- Flits sent and not acknowledged. -/
def Link.open_ (k : Link) : Nat := (k.sent.filter fun f => !f.acked).length

/-- A flit of a message may leave as far as the regulators go: transit flits meet none, and a message of this device needs tokens for links of its
burgee, or of the device with OWN set (R345, R463). -/
def Device.flitTokens (d : Device) (m : Msg) : Bool :=
  m.src != d.shoal.device || d.tokens (m.tags.testBit 7) (bits 6 3 m.tags) .link (bits 2 0 m.tags)
/-- A flit charged at its source: 256 B, for the function whose command awaits the message's reply, else for the background client (R251, R361,
R463). -/
def Device.chargeFlit (d : Device) (m : Msg) : Device :=
  if m.src != d.shoal.device then d
  else
    let fn := (d.shoal.pending.find? fun o => o.tag == m.tag && o.dst == m.dst).bind fun o => (d.cmd? o.stamp).map (·.fn)
    d.charge (m.tags.testBit 7) (fn.filter fun f => decide (f < 0x10000)) (bits 6 3 m.tags) .link (bits 2 0 m.tags) 256

/-- The message a link sends a flit of next: one in progress on its virtual channel before another, the highest pennant
first, each with credit and with tokens (R345, R451, R454). -/
def Link.pick (k : Link) (tokens : Msg → Bool) : Option Msg :=
  let ready := k.queue.filter fun m =>
    tokens m &&
    (k.state == .up || m.vc == 3) &&
    decide (0 < k.credits.getD m.cls 0) &&
    (k.queue.find? fun o => o.vc == m.vc && decide (0 < o.off)).elim true (·.no == m.no) &&
    (k.queue.find? fun o => o.vc == m.vc).elim true (fun o => decide (bits 2 0 m.tags ≠ bits 2 0 o.tags) || o.no == m.no)
  ready.foldl (fun b m => match b with
    | none => some m
    | some o => if bits 2 0 o.tags < bits 2 0 m.tags then some m else some o) none

/-- One DATA flit is sent, if one may be (R453 to R455). -/
def Device.sendFlit (d : Device) (l : Nat) : Device :=
  let k := d.link l
  match k.pick d.flitTokens with
  | none => d
  | some m =>
    if 1024 ≤ k.open_ then d else
    let pay := (m.bytes.drop m.off).take 224
    let tail := decide (m.bytes.length ≤ m.off + 224)
    let bs := flitBytes 1 m.vc m.leg k.txSeq ((k.rxSeq + 4095) % 4096) 0 0 (dataBody m pay tail)
    let m' := { m with off := m.off + 224 }
    let left := k.credits.getD m.cls 0 - 1
    let d1 := d.modLink l fun k => { k with
      credits := lmod m.cls (fun n => n - 1) k.credits, txSeq := (k.txSeq + 1) % 4096,
      starved := if left = 0 then tset m.cls d.now k.starved else k.starved,
      sent := k.sent ++ [{ seq := k.txSeq, vc := m.vc, leg := m.leg, bytes := bs, msg := m.no, tail := tail }],
      queue := if tail then k.queue.filter (·.no != m.no) else k.queue.map fun o => if o.no == m.no then m' else o,
      unacked := if tail then k.unacked ++ [{ m with off := 0 }] else k.unacked }
    ((d1.linkCount l 0 1).chargeFlit m).emit (.flit l (if k.lane0.up then 0 else 1) 1 bs)

/-- Every flit that may be sent now is sent. -/
def Device.pump (d : Device) (l : Nat) : Device :=
  let n := lsum ((d.link l).queue.map fun m => m.bytes.length / 224 + 1)
  (List.range n).foldl (fun d _ => if (d.link l).isUp || (d.link l).state == .mgmtOnly then d.sendFlit l else d) d

/-- A message joins a link's queue. -/
def Device.onLink (d : Device) (l : Nat) (m : Msg) : Device :=
  (d.modLink l fun k => { k with queue := k.queue ++ [{ m with no := k.nextMsg, off := 0 }], nextMsg := k.nextMsg + 1 }).pump l

/-- The trunk link a message takes: (SRC + TAG) mod L over the trunk's links that are UP (R459). -/
def Device.trunkLink (d : Device) (m : Msg) (ls : List Nat) : Option Nat :=
  let up := d.linksFor m.vc ls
  up[(m.src + m.tag) % up.length]?

/-- The LINK event of R478. -/
def Device.linkEvent (d : Device) (cause link dev : Nat) : Device :=
  d.raiseDev 0x12 (cause + at_ 8 link + at_ 16 dev)

/-- The counter of UNREACHABLE drops of a link block (R574). -/
def cntUnreachable : Nat := 13

/-- A message cannot go on: dropped, counted and reported (R461, R462). -/
def Device.dropMsg (d : Device) (m : Msg) (l : Nat) : Device := (d.linkCount l cntUnreachable 1).linkEvent 0x10 l m.dst

/-- A message over the links of one trunk, or dropped where none is UP. -/
def Device.overTrunk (d : Device) (m : Msg) (ls : List Nat) : Device :=
  match d.trunkLink m ls with
  | some l => d.onLink l m
  | none => d.dropMsg m (ls.getD 0 0)

/-- The primary trunk has held no credit of the message's class for 2 µs (R462). -/
def Device.starvedFor (d : Device) (m : Msg) (ls : List Nat) : Bool :=
  let up := d.upLinks ls
  !up.isEmpty && up.all fun l => match tfind m.cls (d.link l).starved with
    | some t => decide (t + 2000 ≤ d.now)
    | none => false

/-- The source sends a message on its way; a management message reaches a device that has not joined as well (R447, R461, R462, R476). -/
def Device.route (d : Device) (m : Msg) : Device :=
  let h := d.shoal
  let self := posOf h.device
  if sideOf m.dst != sideOf h.device then
    if !(d.linksFor m.vc h.twinTrunk).isEmpty then d.overTrunk { m with leg := true } h.twinTrunk
    else if posOf m.dst = self then d.dropMsg m 30
    else d.overTrunk { m with leg := false } (h.trunk (h.primaryHop self (posOf m.dst)))
  else
    let p := posOf m.dst
    let w := tget (d.routeOf p) p h.routes
    let pri := h.trunk (bits 31 24 w.toNat)
    let det := h.trunk (h.primaryHop self (bits 23 16 w.toNat))
    let goPri := d.overTrunk { m with leg := true } pri
    let goDet := d.overTrunk { m with leg := false, detour := true } det
    if m.vc = 3 then
      if !(d.linksFor 3 pri).isEmpty then goPri
      else if decide (0 < bits 9 8 w.toNat) && !(d.linksFor 3 det).isEmpty then goDet.linkCount (det.getD 0 0) 14 1
      else d.dropMsg m (pri.getD 0 0)
    else match routeState w with
    | 1 =>
      if decide (m.vc < 2) && d.starvedFor m pri && decide (0 < bits 9 8 w.toNat) &&
          (d.upLinks det).any (fun l => decide (0 < (d.link l).credits.getD (2 * m.vc) 0)) then
        (goDet.linkCount (det.getD 0 0) 14 1)
      else goPri
    | 2 => goDet.linkCount (det.getD 0 0) 14 1
    | _ => d.dropMsg m (pri.getD 0 0)

/-- A transit device forwards a message: by PRI_HOP at LEG 1, or a LEG 0 message for the other shoal under R461 (R462). -/
def Device.forward (d : Device) (m0 : Msg) : Device :=
  let h := d.shoal
  let self := posOf h.device
  let m := { m0 with hops := m0.hops + 1 }
  if sideOf m.dst != sideOf h.device then
    if !(d.linksFor m.vc h.twinTrunk).isEmpty then d.overTrunk { m with leg := true } h.twinTrunk
    else if posOf m.dst = self then d.dropMsg m 30
    else d.overTrunk { m with leg := false } (h.trunk (h.primaryHop self (posOf m.dst)))
  else d.overTrunk { m with leg := true } (h.trunk (h.primaryHop self (posOf m.dst)))

/-- This device sends a message of a kind to a device, for a burgee (R29, R452). -/
def Device.send (d : Device) (dst kind tag burgee : Nat) (resent : Bool) (bs : List Byte) : Device :=
  let m : Msg := { src := d.shoal.device, dst := dst, tag := tag, kind := kind, vc := (kindVc kind).getD 0,
                   tags := tagsOf kind burgee, resent := resent, bytes := bs }
  (d.emit (.shoal dst kind tag resent bs)).route m

/-! ### Management messages (R456, R464, R475) -/

/-- A fresh tag for a message of this device (R357). -/
def Device.newTag (d : Device) : Nat × Device :=
  (d.shoal.nextTag, { d with shoal := { d.shoal with nextTag := (d.shoal.nextTag + 1) % 65536 } })
/-- A DIRECTORY or NOTICE message, in parts of at most 61,440 B, each after its kind, the whole length and its own offset as 8 B words
(log entry 30). -/
def Device.sendDir (d : Device) (dst kind what : Nat) (bs : List Byte) : Device :=
  (List.range (max 1 ((bs.length + 61439) / 61440))).foldl (fun d i =>
    let (tag, d1) := d.newTag
    d1.send dst kind tag 0 false (leBytes 8 what ++ leBytes 8 bs.length ++ leBytes 8 (61440 * i) ++ (bs.drop (61440 * i)).take 61440)) d
/-- A NOTICE of two numbers to every holder but this device (R456). -/
def Device.notifyHolders (d : Device) (what a b : Nat) : Device :=
  (d.holders.filter (· != d.shoal.device)).foldl (fun d h => d.sendDir h 0x15 what (leBytes 8 a ++ leBytes 8 b)) d

/-! ### Acknowledgement, credits and replay (R448, R453, R455) -/

/-- A DATA SEQ lies at or before the acknowledged one, modulo 4,096 with a window of 1,024. -/
def seqAcked (seq ack : Nat) : Bool := (ack + 4096 - seq) % 4096 < 2048

/-- An ACK taken: flits of messages whose TAIL is acknowledged leave the replay buffer (R455). -/
def Link.ack (k : Link) (a : Nat) : Link :=
  let sent := k.sent.map fun f => if seqAcked f.seq a then { f with acked := true } else f
  let done := (sent.filter fun f => f.acked && f.tail).map (·.msg)
  { k with sent := sent.filter fun f => !done.contains f.msg, unacked := k.unacked.filter fun m => !done.contains m.no }

/-- Credits returned (R453). -/
def Link.credit (k : Link) (cls n : Nat) : Link :=
  if n = 0 then k else { k with credits := lmod cls (· + n) k.credits, starved := tdel cls k.starved }

/-- Flits from a SEQ on are sent again, go-back-N (R455). -/
def Device.replay (d : Device) (l seq : Nat) : Device :=
  let k := d.link l
  let again := k.sent.filter fun f => !seqAcked f.seq ((seq + 4095) % 4096)
  let d1 := d.modLink l fun k => { k with replays := d.now :: k.replays.filter fun t => decide (d.now < t + 1000000) }
  again.foldl (fun d f => d.emit (.flit l (if k.lane0.up then 0 else 1) 1 f.bytes)) (d1.linkCount l 6 1)

/-! ### Link drop (R456) -/

/-- The credits of a link that has just come up (R453). -/
def fullCredits : List Nat := [240, 240, 360, 360, 400, 400, 24, 24]

/-- A link drops: partial messages are discarded, messages not wholly acknowledged are resent whole elsewhere, credits and
SEQ reset, routes change, the holders are told, and training restarts from step 1 (R456). -/
def Device.dropLink (d : Device) (l cause : Nat) : Device :=
  let k := d.link l
  if !(k.state == .up || k.state == .mgmtOnly) then d
  else
    let again := k.unacked ++ k.queue
    let d1 := d.modLink l fun k => { k with
      state := .training, startAt := d.now, credits := fullCredits, owed := List.replicate 8 0, starved := [],
      txSeq := 0, rxSeq := 0, sent := [], queue := [], unacked := [], parts := [], replays := [], reqAt := none,
      partner := none, lane0 := { k.lane0 with up := false }, lane1 := { k.lane1 with up := false } }
    let d2 := ((d1.linkCount l 8 1).setRoutes).linkEvent cause l ((k.partner.map (·.device)).getD 0)
    let d3 := again.foldl (fun d m =>
      let m' := { m with resent := true, off := 0 }
      (if m.src == d.shoal.device then d.route m' else d.forward { m' with hops := m.hops - 1 }).linkCount l 9 1) d2
    if d3.inShoal then d3.notifyHolders 1 l ((k.partner.map (·.device)).getD 0) else d3

/-! ### Reception (R450, R451, R457) -/

/-- A message received whole: a repeat is dropped, a reserved kind discarded, any other joins the inbox (R452, R457). -/
def Device.deliver (d : Device) (l : Nat) (m : Msg) : Device :=
  let key := (m.src, m.tag, m.kind)
  if (kindVc m.kind).isNone then { d with shoal := { d.shoal with badKinds := d.shoal.badKinds + 1 } }
  else if m.resent && d.shoal.record.contains key then d.linkCount l 10 1
  else { d with shoal := { d.shoal with record := (key :: d.shoal.record).take 16384, inbox := d.shoal.inbox ++ [{ m with port := some l }] } }

/-- A DATA flit accepted in order: its payload joins its message; at TAIL the message is forwarded, delivered, or discarded
for a bad E2E_CRC (R450, R451). -/
def Device.takeData (d : Device) (l : Nat) (bs : List Byte) : Device :=
  let k := d.link l
  let vc := bits 5 4 (fieldAt bs 0 1)
  let leg := (fieldAt bs 0 1).testBit 6
  let mid := (bs.drop 8).take 240
  let good := (crc32c (mid.take 10 ++ [0] ++ mid.drop 11)).toNat == fieldAt bs 248 4
  let mflags := fieldAt bs 15 1
  let hopf := fieldAt bs 18 1
  let pay := (bs.drop 24).take (min (fieldAt bs 17 1) 224)
  let old := k.parts.find? fun p => p.vc == vc && p.leg == leg
  let fresh : Msg := {
    src := fieldAt bs 10 2, dst := fieldAt bs 8 2, tag := fieldAt bs 12 2, kind := fieldAt bs 14 1, vc := vc,
    tags := fieldAt bs 16 1, leg := leg, resent := hopf.testBit 0, detour := hopf.testBit 1, hops := bits 5 2 hopf, bytes := [] }
  let part : PartMsg := match old, mflags.testBit 0 with
    | some p, false => p
    | _, _ => { vc := vc, leg := leg, msg := fresh }
  let part := { part with msg := { part.msg with bytes := part.msg.bytes ++ pay }, bad := part.bad || !good }
  let rest := k.parts.filter fun p => !(p.vc == vc && p.leg == leg)
  let cls := 2 * vc + (if leg then 1 else 0)
  let d1 := d.modLink l fun k => { k with rxSeq := (k.rxSeq + 1) % 4096, owed := lmod cls (· + 1) k.owed,
                                          parts := if mflags.testBit 1 then rest else part :: rest }
  if !mflags.testBit 1 then d1
  else if part.msg.dst != d.shoal.device then d1.forward part.msg
  else if part.bad then (d1.linkCount l 11 1).linkEvent 0x0F l part.msg.src
  else d1.deliver l part.msg

/-- A flit arrives (R448 to R450, R453, R455). `fec` says that every RS codeword of it was corrected. -/
def flitReceipt (l : Nat) (fec : Bool) (bs : List Byte) (d : Device) : Device :=
  let k := d.link l
  if !(k.state == .up || k.state == .mgmtOnly || k.state == .held || k.state == .locked) || bs.length != 256 then d else
  let rtt := 2 * k.delay + 320
  let ask := fun (d : Device) =>
    if (k.reqAt.elim true fun t => decide (t + rtt ≤ d.now)) then
      let body := List.replicate 16 0 ++ leBytes 2 k.rxSeq
      (d.modLink l fun k => { k with reqAt := some d.now }).emit
        (.flit l (if k.lane0.up then 0 else 1) 4 (flitBytes 4 0 false 0 ((k.rxSeq + 4095) % 4096) 0 0 body))
    else d
  if !fec then ask (d.linkCount l 3 1)
  else if (crc32 (bs.take 252)).toNat != fieldAt bs 252 4 then ask d
  else
    let ftype := bits 3 0 (fieldAt bs 0 1)
    let crd := fieldAt bs 5 1
    let cls := 2 * bits 1 0 crd + (if crd.testBit 2 then 1 else 0)
    let d1 := ((d.linkCount l 1 1).modLink l fun k => (k.ack (fieldAt bs 3 2 % 4096)).credit cls (bits 7 3 crd)).pump l
    match ftype with
    | 0 => d1
    | 1 => if k.state == .held || k.state == .locked then d1
           else if fieldAt bs 1 2 % 4096 = k.rxSeq then d1.takeData l bs else ask d1
    | 2 => d1.modLink l fun k => { k with keepRx := d.now }
    | 3 | 4 | 5 => d1
    | _ => d1.linkCount l 12 1

/-! ### Hails (R446, R447) -/

/-- Lanes of a link in service. -/
def Link.lanes (k : Link) : List Nat := (if k.lane0.up then [0] else []) ++ (if k.lane1.up then [1] else [])

/-- The roles this device holds: all three while it is standalone (R42). -/
def Device.roles (d : Device) : Nat := if d.inShoal then (tget ({} : Member) d.shoal.device d.shoal.dir).roles % 8 else 7
/-- The ROLES byte of this device's hail (R446). -/
def Device.rolesByte (d : Device) : Nat := d.roles + flagAt 3 (d.holders.contains d.shoal.device)

/-- SPARE of this device's hail (R446): unjoined without a shoal. -/
def Device.spareByte (d : Device) : Nat :=
  let st := (tget ({} : Member) d.shoal.device d.shoal.dir).state
  if d.inShoal && st != 4 then st else 1

/-- Bytes 0 to 63 of this device's hail on a lane of a link (R446). -/
def Device.hailHead (d : Device) (l lane fwVersion : Nat) : List Byte :=
  let k := d.link l
  let h := d.shoal
  leBytes 1 1 ++ leBytes 1 (flagAt 0 (lane = 1) + flagAt 1 k.accept) ++
    leBytes 2 (if d.inShoal then h.device else 0xFFFF) ++ leBytes 1 l ++ leBytes 1 d.rolesByte ++ leBytes 1 d.spareByte ++
    leBytes 1 (if k.capHalf then 2 else 3) ++ leBytes 8 h.id.toNat ++ leBytes 4 h.epoch ++ leBytes 1 h.groups ++
    leBytes 1 h.members ++ leBytes 1 (if h.mirrored then 1 else 0) ++
    leBytes 1 (flagAt 0 k.lane0.up + flagAt 1 k.lane1.up) ++ leBytes 16 d.fuses.serial.toNat ++
    leBytes 4 0x10000 ++ leBytes 4 fwVersion ++ leBytes 2 (max k.lane0.loss k.lane1.loss) ++ leBytes 2 k.delay ++ leBytes 12 0

/-- HAIL_MAC over bytes 0 to 63 under the shoal key; zero without a shoal (R446). -/
def hailMac (h : Shoal) (head : List Byte) : List Byte :=
  if h.id = 0 then List.replicate 32 0 else (hmac384 h.key head).take 32

/-- Firmware version of the running image, 0 while no MP holds the Ensign (R508). -/
def Device.fwVersion (d : Device) : Nat :=
  match d.ens.holder with
  | some 0 => d.ens.version0
  | some _ => d.ens.version1
  | none => 0

/-- How a hail is judged: the state it gives the link and the LINK cause it raises, by the first row of R447 that applies. -/
def Device.judgeHail (d : Device) (l : Nat) (p : List Byte) : LinkState × Option Nat :=
  let sid := fieldAt p 8 8
  let spare := fieldAt p 6 1
  let mac := (p.drop 64).take 32
  if fieldAt p 40 4 / 65536 != 1 then (.held, some 0x0B)
  else if sid != d.shoal.id.toNat || mac != hailMac d.shoal (p.take 64) then (.held, some 0x09)
  else if spare = 1 && d.inShoal then (.mgmtOnly, none)
  else if d.inShoal && d.shoal.partnerOf l != some (fieldAt p 2 2) then (.held, some 0x0A)
  else (.up, some 0x01)

end Sys2Proof.Machine
end

