-- ==== Sys2Proof/Machine/LinkEvents.lean ====
section
/-! DEFINITION. The commands of the link layer: bring-up, hails, margins, retrains, replay, keep-alives, flits (R442 to R456)
and the link test (R572). -/

namespace Sys2Proof.Machine

/-- A lane of a link. -/
def Link.lane (k : Link) (i : Nat) : Lane := if i = 0 then k.lane0 else k.lane1
/-- A link with a lane changed. -/
def Link.modLane (k : Link) (i : Nat) (g : Lane → Lane) : Link :=
  if i = 0 then { k with lane0 := g k.lane0 } else { k with lane1 := g k.lane1 }

/-- Insertion loss limits of FULL and HALF rate, 36 and 44 dB, in 1/16 dB (R443). -/
def fullLoss : Nat := 576
/-- The HALF limit (R443). -/
def halfLoss : Nat := 704

/-- The lane trains at the rate chosen: within the loss limit, with its check passed (R443, R444). -/
def laneTrains (full : Bool) (p : LaneProbe) : Bool :=
  p.signal && decide (p.loss ≤ halfLoss) && (if full then decide (p.loss ≤ fullLoss) && p.passFull else p.passHalf)

/-- The link may train: its clock runs and no rule holds it down (R6, R459, R478, R552). -/
def Device.linkMayTrain (d : Device) (l : Nat) : Bool :=
  let k := d.link l
  decide (l < 32) && k.clock && !k.ctlHold && !d.profUn && d.phase == .ready &&
    (decide (l < 30) || !d.inShoal || d.shoal.mirrored)

/-- A lane as its bring-up measured it. -/
def probed (p : LaneProbe) (up : Bool) (a : Lane) : Lane :=
  { a with up := up, loss := p.loss, reflSize := p.reflSize, reflAt := p.reflAt, critRun := 0, retrainAt := none, retrainDue := false }

/-- LINK_BRING_UP: steps 1 to 5 of R444 up to lock. -/
def linkBringUpEff (l : Nat) (p0 p1 : LaneProbe) (partnerFull : Bool) (delay : Nat) (active : Bool) (d : Device) : Device :=
  let k := d.link l
  if !d.linkMayTrain l || k.state != .training then d
  else if 900 < delay then
    (d.modLink l fun k => { k with state := .off, delay := delay, active := active }).linkEvent 0x08 l 0xFFFF
  else
    let wantFull := !k.capHalf && partnerFull && decide (p0.loss ≤ fullLoss) && decide (p1.loss ≤ fullLoss)
    let full := wantFull && laneTrains true p0 && laneTrains true p1
    let u0 := laneTrains full p0
    let u1 := laneTrains full p1
    let d1 := d.modLink l fun k => { k with
      full := full, delay := delay, active := active, lane0 := probed p0 u0 k.lane0, lane1 := probed p1 u1 k.lane1,
      state := if u0 || u1 then .locked else .training }
    if halfLoss < p0.loss || halfLoss < p1.loss then d1.linkEvent 0x07 l 0xFFFF else d1

/-- The meaning of LINK_BRING_UP. -/
def execLinkBringUp (l : Nat) (p0 p1 : LaneProbe) (partnerFull : Bool) (delay : Nat) (active : Bool) (s : State) :
    Host.Outcome State Fault Refusal := onDev (linkBringUpEff l p0 p1 partnerFull delay active) s

/-- The bound of a bring-up: 50 ms on passive copper, 200 ms on active media (R444). -/
def trainBound (k : Link) : Nat := if k.active then 200000000 else 50000000

/-- LINK_TRAIN_TIMEOUT: a link that is not up within its bound counts a failure and starts again from step 1 (R444). -/
def linkTrainTimeoutEff (l : Nat) (d : Device) : Device :=
  let k := d.link l
  if d.linkMayTrain l && (k.state == .training || k.state == .locked) then
    let d := d.by (k.startAt + trainBound k)
    d.modLink l fun k => { k with failures := k.failures + 1, startAt := d.now, state := .training,
                                  lane0 := { k.lane0 with up := false }, lane1 := { k.lane1 with up := false } }
  else d

/-- The meaning of LINK_TRAIN_TIMEOUT. -/
def execLinkTrainTimeout (l : Nat) (s : State) : Host.Outcome State Fault Refusal := onDev (linkTrainTimeoutEff l) s

/-- Interval of HAIL flits: 100 µs, or one per second on a held link (R444, R447). -/
def hailInterval (k : Link) : Nat := if k.state == .held then 1000000000 else 100000

/-- An instant last noted, none or at least dt ago. -/
def dueAfter (t : Option Nat) (dt now : Nat) : Bool := t.elim true fun t => decide (t + dt ≤ now)

/-- HAIL_SEND: a lane in service sends a HAIL flit when one is due (R444, R446, R454). -/
def hailSendEff (l lane : Nat) (d : Device) : Device :=
  let k := d.link l
  let last := if lane = 0 then k.hailAt0 else k.hailAt1
  if (k.state == .training || k.state == .off) || !(k.lane lane).up then d
  else
    let d := d.since last (hailInterval k)
    let head := d.hailHead l lane d.fwVersion
    let body := List.replicate 16 0 ++ head ++ hailMac d.shoal head
    let d1 := d.modLink l fun k => if lane = 0 then { k with hailAt0 := some d.now } else { k with hailAt1 := some d.now }
    (d1.emit (.flit l lane 3 (flitBytes 3 0 false 0 ((k.rxSeq + 4095) % 4096) 0 0 body))).linkCount l 0 1

/-- The meaning of HAIL_SEND. -/
def execHailSend (l lane : Nat) (s : State) : Host.Outcome State Fault Refusal := onDev (hailSendEff l lane) s

/-- HAIL_RECEIVED: the partner's hail is judged in the order of R447 and the link becomes UP, HELD or management only. -/
def hailReceivedEff (l : Nat) (p : List Byte) (d : Device) : Device :=
  let k := d.link l
  if k.state == .training || k.state == .off then d
  else
    let (st, cause) := d.judgeHail l p
    let partner : Partner := { device := fieldAt p 2 2, link := fieldAt p 4 1, roles := fieldAt p 5 1, spare := fieldAt p 6 1,
                               epoch := fieldAt p 16 4, serial := (p.drop 24).take 16 }
    let rises := st == .up || st == .mgmtOnly
    let d1 := d.modLink l fun k => { k with state := st, partner := some partner, accept := rises, keepRx := d.now,
                                            credits := if k.state == st then k.credits else fullCredits }
    let d2 := if k.state == st then d1 else
      let d1 := d1.setRoutes
      match cause with
      | some c => d1.linkEvent c l (fieldAt p 2 2)
      | none => d1
    if st == .up && d.inShoal && decide (d.shoal.epoch < fieldAt p 16 4) then
      match d2.lead.or (if (fieldAt p 5 1).testBit 3 then some (fieldAt p 2 2) else none) with
      | some h => d2.sendDir h 0x14 0 (leBytes 8 d.shoal.epoch)
      | none => d2
    else d2.pump l

/-- The meaning of HAIL_RECEIVED. -/
def execHailReceived (l : Nat) (p : List Byte) (s : State) : Host.Outcome State Fault Refusal := onDev (hailReceivedEff l p) s

/-- A lane begins its retrain: the link runs on the other lane, or drops when that is not in service (R445, R456). -/
def Device.retrainLane (d : Device) (l lane : Nat) : Device :=
  let k := d.link l
  if d.frozen then d.modLink l fun k => k.modLane lane fun a => { a with retrainDue := true }
  else if (k.lane (1 - lane)).up then
    ((d.modLink l fun k => k.modLane lane fun a => { a with up := false, retrainAt := some d.now, retrainDue := false, critRun := 0 }
      ).linkCount l 7 1).linkEvent 0x05 l 0xFFFF
  else (d.linkCount l 7 1).dropLink l 0x04

/-- A lane asks its partner's transmitter for a tap change, at most once per millisecond (R445). -/
def Device.askTxeq (d : Device) (l lane : Nat) : Device :=
  let k := d.link l
  if dueAfter (k.lane lane).txeqAt 1000000 d.now then
    let d1 := d.modLink l fun k => k.modLane lane fun a => { a with txeqAt := some d.now }
    (d1.emit (.flit l lane 5 (flitBytes 5 0 false 0 ((k.rxSeq + 4095) % 4096) 0 0 []))).linkCount l 0 1
  else d

/-- MARGIN_WINDOW: a lane's 1 ms window is GOOD, LOW or CRITICAL by its worst codeword; after three CRITICAL windows in a row
the lane retrains (R445). -/
def marginWindowEff (l lane worst : Nat) (uncorr : Bool) (d : Device) : Device :=
  let k := d.link l
  if k.state != .up || !(k.lane lane).up then d
  else if uncorr || 12 ≤ worst then
    let d1 := (d.modLink l fun k => k.modLane lane fun a => { a with critical := a.critical + 1, critRun := a.critRun + 1 }).linkCount l 5 1
    if 3 ≤ ((d1.link l).lane lane).critRun then d1.retrainLane l lane else d1
  else if 8 ≤ worst then
    ((d.modLink l fun k => k.modLane lane fun a => { a with low := a.low + 1, critRun := 0 }).linkCount l 4 1).askTxeq l lane
  else d.modLink l fun k => k.modLane lane fun a => { a with good := a.good + 1, critRun := 0 }

/-- The meaning of MARGIN_WINDOW. -/
def execMarginWindow (l lane worst : Nat) (uncorr : Bool) (s : State) : Host.Outcome State Fault Refusal :=
  onDev (marginWindowEff l lane worst uncorr) s

/-- LANE_RETRAIN_DONE: a lane that retrained through steps 2 to 5 of R444 returns to service, or is held down (R445). -/
def laneRetrainDoneEff (l lane : Nat) (p : LaneProbe) (d : Device) : Device :=
  let k := d.link l
  if k.state != .up || (k.lane lane).retrainAt.isNone then d
  else if laneTrains k.full p then
    (d.modLink l fun k => k.modLane lane (probed p true)).linkEvent 0x06 l 0xFFFF
  else
    let d1 := d.modLink l fun k => k.modLane lane (probed p false)
    if halfLoss < p.loss then d1.linkEvent 0x07 l 0xFFFF else d1

/-- The meaning of LANE_RETRAIN_DONE. -/
def execLaneRetrainDone (l lane : Nat) (p : LaneProbe) (s : State) : Host.Outcome State Fault Refusal :=
  onDev (laneRetrainDoneEff l lane p) s

/-- TXEQ: the tap change a partner asked for is applied to the lane's transmitter (R445). -/
def txeqEff (l lane change : Nat) (d : Device) : Device :=
  if (d.link l).state == .up && ((d.link l).lane lane).up then
    d.modLink l fun k => k.modLane lane fun a => { a with taps := a.taps ++ [change] }
  else d

/-- The meaning of TXEQ. -/
def execTxeq (l lane change : Nat) (s : State) : Host.Outcome State Fault Refusal := onDev (txeqEff l lane change) s

/-- REPLAY_REQ: the transmitter resends from the SEQ named; 64 replays within 1 ms retrain the whole link (R455, R456). -/
def replayReqEff (l seq : Nat) (d : Device) : Device :=
  let k := d.link l
  if !(k.state == .up || k.state == .mgmtOnly) then d
  else
    let d1 := d.replay l (seq % 4096)
    if 64 ≤ (d1.link l).replays.length then d1.dropLink l 0x04 else d1

/-- The meaning of REPLAY_REQ. -/
def execReplayReq (l seq : Nat) (s : State) : Host.Outcome State Fault Refusal := onDev (replayReqEff l seq) s

/-- KEEPALIVE_SEND: a lane in service of an UP link sends a KEEPALIVE flit every 10 µs (R456). -/
def keepaliveSendEff (l lane : Nat) (d : Device) : Device :=
  let k := d.link l
  let last := if lane = 0 then k.keepAt0 else k.keepAt1
  if k.state != .up || !(k.lane lane).up then d
  else
    let d := d.since last 10000
    let d1 := d.modLink l fun k => if lane = 0 then { k with keepAt0 := some d.now } else { k with keepAt1 := some d.now }
    (d1.emit (.flit l lane 2 (flitBytes 2 0 false 0 ((k.rxSeq + 4095) % 4096) 0 0 []))).linkCount l 0 1

/-- The meaning of KEEPALIVE_SEND. -/
def execKeepaliveSend (l lane : Nat) (s : State) : Host.Outcome State Fault Refusal := onDev (keepaliveSendEff l lane) s

/-- KEEPALIVE_MISSED: no valid KEEPALIVE on any lane for 30 µs drops the link (R456). -/
def keepaliveMissedEff (l : Nat) (d : Device) : Device :=
  let k := d.link l
  if k.state == .up || k.state == .mgmtOnly then (d.by (k.keepRx + 30000)).dropLink l 0x03 else d

/-- The meaning of KEEPALIVE_MISSED. -/
def execKeepaliveMissed (l : Nat) (s : State) : Host.Outcome State Fault Refusal := onDev (keepaliveMissedEff l) s

/-- LOSS_OF_SIGNAL: loss of signal on every lane in service drops the link (R456). -/
def lossOfSignalEff (l lanes : Nat) (d : Device) : Device :=
  if (d.link l).lanes.all fun i => lanes.testBit i then d.dropLink l 0x02 else d

/-- The meaning of LOSS_OF_SIGNAL. -/
def execLossOfSignal (l lanes : Nat) (s : State) : Host.Outcome State Fault Refusal := onDev (lossOfSignalEff l lanes) s

/-- The meaning of FLIT_RECEIPT (R448 to R455). -/
def execFlitReceipt (l : Nat) (fec : Bool) (bs : List Byte) (s : State) : Host.Outcome State Fault Refusal :=
  onDev (flitReceipt l fec bs) s

/-! ### The link test (R572) -/

/-- The function is a device-admin PF (R405, R505). -/
def Device.isAdminPf (d : Device) (f : Nat) : Bool := d.adminPfs.contains f

/-- A write of LT_CTRL with a MODE: refused while the link is UP and not held, else taken; a reserved PATTERN or RATE keeps its field
(R15, R572). -/
def ltTake (mode l pattern rate lanes : Nat) (seen : LtSeen) (d : Device) : Device :=
  let k := d.link l
  let t := k.test
  if mode != 0 && k.state == .up && !k.ctlHold then
    d.modLink l fun k => { k with test := { t with refused := min 0xFFFF (t.refused + 1) } }
  else
    let base : LinkTest := { t with mode := mode, pattern := if pattern < 4 then pattern else t.pattern,
                                    rate := if rate < 2 then rate else t.rate, lanes := lanes % 4 }
    let new : LinkTest :=
      if mode = 0 then { base with locked := 0 }
      else { base with locked := seen.locked % 4, err0 := BitVec.ofNat 64 seen.err0, err1 := BitVec.ofNat 64 seen.err1,
                       bits0 := BitVec.ofNat 64 seen.bits0, bits1 := BitVec.ofNat 64 seen.bits1 }
    d.modLink l fun k => { k with test := new }
/-- LT_CTRL is written by a device-admin PF alone (R572). -/
def ltWrite (mode : Nat) (f l pattern rate lanes : Nat) (seen : LtSeen) (d : Device) : Device :=
  if !d.isAdminPf f || 32 ≤ l then d else ltTake mode l pattern rate lanes seen d

/-- The meaning of LT_OFF. -/
def execLtOff (f l pattern rate lanes : Nat) (s : State) : Host.Outcome State Fault Refusal :=
  onDev (ltWrite 0 f l pattern rate lanes ⟨0, 0, 0, 0, 0⟩) s
/-- The meaning of LT_NEAR_SERIAL. -/
def execLtNearSerial (f l pattern rate lanes : Nat) (seen : LtSeen) (s : State) : Host.Outcome State Fault Refusal :=
  onDev (ltWrite 1 f l pattern rate lanes seen) s
/-- The meaning of LT_NEAR_PARALLEL. -/
def execLtNearParallel (f l pattern rate lanes : Nat) (seen : LtSeen) (s : State) : Host.Outcome State Fault Refusal :=
  onDev (ltWrite 2 f l pattern rate lanes seen) s
/-- The meaning of LT_TX_ONLY: the pattern goes to the partner, whose end checks it. -/
def execLtTxOnly (f l pattern rate lanes : Nat) (s : State) : Host.Outcome State Fault Refusal :=
  onDev (ltWrite 3 f l pattern rate lanes ⟨0, 0, 0, 0, 0⟩) s
/-- The meaning of LT_RX_ONLY. -/
def execLtRxOnly (f l pattern rate lanes : Nat) (seen : LtSeen) (s : State) : Host.Outcome State Fault Refusal :=
  onDev (ltWrite 4 f l pattern rate lanes seen) s

end Sys2Proof.Machine
end

