-- ==== Sys2Proof/Machine/Faults.lean ====
section
/-! DEFINITION. Teardown (R364, R365), the end of a command, of a background task (R209) and of a training job (R303), and
descriptor faults (R182). -/

namespace Sys2Proof.Machine

/-- The opcode of an I/O command (R378). -/
def IoOp.code : IoOp → Nat
  | .search => 0x01 | .msearch => 0x02 | .range => 0x03 | .get => 0x04 | .insert => 0x08 | .upsert => 0x09
  | .delete => 0x0A | .attrSet => 0x0B | .fence => 0x10

/-- The command is a search (R118). -/
def IoOp.isSearch : IoOp → Bool
  | .search | .msearch | .range => true
  | _ => false
/-- The command is a write (R386). -/
def IoOp.isWrite : IoOp → Bool
  | .insert | .upsert | .delete | .attrSet => true
  | _ => false

/-- STATUS values of R392. -/
def stInvalidField : Nat := 0x1001
/-- INVALID_VECTOR (R392). -/
def stInvalidVector : Nat := 0x1002
/-- INVALID_BUFFER (R392). -/
def stInvalidBuffer : Nat := 0x1003
/-- HOST_ACCESS (R392). -/
def stHostAccess : Nat := 0x1004
/-- INDEX_ABSENT (R392). -/
def stIndexAbsent : Nat := 0x1005
/-- ACCESS_DENIED (R392). -/
def stAccessDenied : Nat := 0x1006
/-- CAPACITY_EXCEEDED (R392). -/
def stCapacity : Nat := 0x2001
/-- DELTA_FULL (R392). -/
def stDeltaFull : Nat := 0x2002
/-- INSUFFICIENT_SPACE (R392). -/
def stNoSpace : Nat := 0x2003
/-- BUSY_RETRY (R392). -/
def stBusy : Nat := 0x2004
/-- ID_NOT_FOUND (R392). -/
def stIdNotFound : Nat := 0x3001
/-- ID_EXISTS (R392). -/
def stIdExists : Nat := 0x3002
/-- NO_MODEL (R392). -/
def stNoModel : Nat := 0x3003
/-- INDEX_DELETED (R392). -/
def stIndexDeleted : Nat := 0x3004
/-- SCALE_SKEW (R392). -/
def stScaleSkew : Nat := 0x4001
/-- UNCORRECTABLE_DATA (R392). -/
def stUncorrectable : Nat := 0x4002
/-- STREAM_DEADLOCK (R392). -/
def stDeadlock : Nat := 0x4003
/-- SELECT_FAULT (R392). -/
def stSelectFault : Nat := 0x4004
/-- BURGEE_OFFLINE (R392). -/
def stOffline : Nat := 0x4005
/-- DATA_PATH_DISABLED (R392). -/
def stDataPath : Nat := 0x4006
/-- QUIESCED (R392). -/
def stQuiesced : Nat := 0x4007

/-! ### The task header (R467) -/

/-- The 64 B that begin ENTRY_REQUEST, SHARD_TASK, REFINE_REQUEST and CANCEL, for a command of this device (R467). -/
def Device.taskHeader (d : Device) (c : Cmd) (tag : Nat) : List Byte :=
  let p := c.sp
  let sn := c.snap
  let bound := match c.remote with | some r => r.bound | none => c.bound && !c.voided
  leBytes 1 c.op.code ++
  leBytes 1 (flagAt 0 bound + flagAt 1 p.stageC + flagAt 2 p.stageD + flagAt 3 p.ties) ++
  leBytes 2 c.indexNo ++ leBytes 4 (min 0xFFFFFFFF ((c.deadline.getD d.now) - d.now)) ++
  leBytes 4 c.shoalView ++ leBytes 2 (c.remote.elim d.shoal.device (·.device)) ++ leBytes 2 p.filterId ++
  leBytes 4 ((sn.bind (·.filter)).elim 0 (·.version)) ++ leBytes 4 (sn.elim 0 (·.transform)) ++ leBytes 2 p.k ++
  leBytes 2 p.probes ++ leBytes 2 p.beam ++ leBytes 2 p.expandMax ++ leBytes 4 p.beta.toNat ++ leBytes 1 p.overfetch ++
  leBytes 1 p.runAhead ++ leBytes 1 p.keep ++ leBytes 1 (if p.aggSum then 1 else 0) ++ leBytes 2 p.nvec ++
  leBytes 1 c.ps.length ++ leBytes 1 0 ++ leBytes 4 ((p.threshold.getD 0).toNat) ++ leBytes 8 (c.remote.elim c.stamp (·.fetch)) ++ leBytes 2 tag ++ leBytes 6 0

/-- Every device that holds a task or request of a command is sent a CANCEL, and the requests are forgotten (R358, R471). -/
def Device.cancelRemote (d : Device) (c : Cmd) : Device :=
  let mine := d.shoal.pending.filter (·.stamp == c.stamp)
  let d1 := { d with shoal := { d.shoal with pending := d.shoal.pending.filter (·.stamp != c.stamp) } }
  mine.foldl (fun d p => d.send p.dst 0x07 p.tag c.burgee false (d.taskHeader c p.tag)) d1

/-! ### Contexts -/

/-- A context's streams, transfers, rings and refills are gone from an SC (R261, R364). -/
def Streams.release (s : Streams) (ctx : Nat) : Streams :=
  let gone := (s.running.filter (·.ctx == ctx)).map (·.id)
  { s with running := s.running.filter (·.ctx != ctx), past := s.past.filter (·.ctx != ctx), xfers := s.xfers.filter fun t => !gone.contains t.stream,
           sems := s.sems.map fun p => if p.2.active && p.2.ctx == ctx then (p.1, { wait := p.2.wait }) else p,
           saved := tdel ctx s.saved, refills := s.refills.filter (·.1 != ctx) }

/-- A context's tiles, scores, walks, tile buffers and lists are gone from an SC's engines (R364). -/
def Engines.release (e : Engines) (ctx : Nat) : Engines :=
  { e with ftq := e.ftq.filter (·.ctx != ctx), csq := e.csq.filter (·.ctx != ctx), walks := e.walks.filter (·.ctx != ctx),
           ftqHeld := e.ftqHeld.filter (·.ctx != ctx), ceNext := e.ceNext.filter fun p => fieldAt p.1 52 4 != ctx,
           meNext := e.meNext.filter fun b => fieldAt b 48 4 != ctx, veNext := e.veNext.filter fun p => fieldAt p.1 40 4 != ctx,
           outTags := e.outTags.filter (·.2.1 != ctx),
           tables := e.tables.filter (·.ctx != ctx), walkWait := e.walkWait.filter fun p => fieldAt p.1 36 4 != ctx,
           gathered := e.gathered.filter (·.ctx != ctx), savedFtq := tdel ctx e.savedFtq, savedAcc := tdel ctx e.savedAcc,
           savedVe := tdel ctx e.savedVe, savedTb := tdel ctx e.savedTb, veOwner := e.veOwner.filter (· != ctx),
           tb := e.tb.filter fun p => p.2.owner != some ctx, se := e.se.filter (·.ctx != ctx), seKept := e.seKept.filter (·.ctx != ctx) }
/-- The FTQ entries of a resuming context return to the queue, as far as it has room (R191). -/
def Engines.unsaveFtq (e : Engines) (ctx : Nat) : Engines :=
  let es := tget [] ctx e.savedFtq
  if es.isEmpty then e
  else
    let n := 8 - e.ftq.length
    { e with ftq := e.ftq ++ es.take n, savedFtq := if es.length ≤ n then tdel ctx e.savedFtq else tset ctx (es.drop n) e.savedFtq }

/-- A context stops and releases what it holds, without spill; its spill space and escape reservations are released (R263, R364). -/
def Device.releaseCtx (d : Device) (id : Nat) : Device :=
  match d.ctx? id with
  | none => d
  | some c =>
    let d1 := d.modSc c.sc fun s => { s with
      running := if s.running == some id then none else s.running, starting := if s.starting == some id then none else s.starting }
    let d2 := (d1.modStr c.sc (·.release id)).modEng c.sc (·.release id)
    { d2 with ctxs := d2.ctxs.filter (·.id != id),
              tiers := { d2.tiers with extF := d2.tiers.extF.filter fun (e : Extent) => !(c.escapes.contains e.base || c.spilled.any (·.2 == e.base)) } }

/-- Every context of a command stops (R364). -/
def Device.releaseCmdCtxs (d : Device) (stamp : Nat) : Device :=
  ((d.ctxs.filter (·.cmd == some stamp)).map (·.id)).foldl (fun d i => d.releaseCtx i) d

/-- A command leaves the device: its contexts, remote work and Merge Buffer reservation are released (R364). -/
def Device.dropCmd (d : Device) (c : Cmd) : Device :=
  let d1 := (d.releaseCmdCtxs c.stamp).cancelRemote c
  let d2 := d1.modMb c.half fun m => { m with used := m.used - c.mbBytes }
  { d2 with cmds := d2.cmds.filter (·.stamp != c.stamp) }

/-- The reply to a forwarded write: its status and WRITE_SEQ, kept for a repeat of its FWD_SEQ (R472). -/
def Device.answerWrite (d : Device) (c : Cmd) (r : RemoteOrigin) (status spec : Nat) : Device :=
  let bs := leBytes 8 status ++ leBytes 8 spec
  ({ d with shoal := { d.shoal with fwdKept := d.shoal.fwdKept ++ [(r.device, r.fetch, bs)] } }).send r.device 0x09 r.tag c.burgee false bs

/-- A command completes with a status other than SUCCESS: SPEC is 0 and no result is written; a forwarded write is answered, and another task of
another device posts nothing (R364, R391, R472). -/
def Device.endCmd (d : Device) (stamp status : Nat) : Device :=
  match d.cmd? stamp with
  | none => d
  | some c =>
    let d1 := d.dropCmd c
    match c.remote with
    | some r => if c.op.isWrite then d1.answerWrite c r status 0 else d1
    | none => (d1.post c.fn c.qid c.cid c.indexNo c.t0 status 0 (c.bound && c.op.isSearch) false).modQp c.fn c.qid fun p =>
      { p with fencedBy := if p.fencedBy == some c.stamp then none else p.fencedBy }

/-- A command is torn down with no completion (R364). -/
def Device.killCmd (d : Device) (stamp : Nat) : Device :=
  match d.cmd? stamp with
  | none => d
  | some c => (d.dropCmd c).modQp c.fn c.qid fun p => { p with inFlight := p.inFlight - 1 }

/-- A bounded command meets an event of R353, or R349 or R359: its bound is voided once and counted (R353, R361). -/
def Device.voidBound (d : Device) (stamp : Nat) : Device :=
  match d.cmd? stamp with
  | some c =>
    if c.bound && !c.voided then
      ((d.modCmd stamp fun c => { c with voided := true, rank := 3 }).account (some c.fn) c.burgee
        fun a => { a with boundVoid := a.boundVoid + 1 })
    else d
  | none => d

/-! ### Background tasks (R209) and jobs (R303) -/

/-- A job has ended, with a result or holding one. -/
def Job.isOver (j : Job) : Bool :=
  match j.state with
  | .ended _ | .held => true
  | _ => false
/-- The F-tier reservations of jobs given back (R282, R419). -/
def Device.freeJobs (d : Device) (js : List Job) : Device :=
  { d with tiers := { d.tiers with extF := d.tiers.extF.filter fun (e : Extent) => !js.any fun j => j.area != 0 && j.area == e.base } }
/-- The L-tier slots of checkpoints given back (R295). -/
def Device.freeCkpts (d : Device) (cs : List Checkpoint) : Device :=
  { d with tiers := { d.tiers with extL := d.tiers.extL.filter fun (e : Extent) => !cs.any fun c => c.addr == e.base } }
/-- A job has ended: jobs after which 64 have ended lose their numbers (R419). -/
def Device.retireJobs (d : Device) (j : Nat) : Device :=
  let n := d.endedJobs + 1
  let js := d.jobs.map fun (x : Job) => if x.id == j then { x with endNo := n } else x
  let (out, kept) := js.partition fun (x : Job) => x.isOver && decide (x.endNo + 64 ≤ n)
  (({ d with endedJobs := n, jobs := kept } : Device).freeJobs out).freeCkpts (out.flatMap (·.ckpts))
/-- A job's contexts stop and the STOP_JOB requests that waited for it are answered (R419). -/
def Device.quitJob (d : Device) (x : Job) : Device :=
  let d1 := ((d.ctxs.filter (·.task == .job x.id)).map (·.id)).foldl (fun d i => d.releaseCtx i) d
  x.stopReq.foldl (fun d q => d.respond q.1 q.2 0 0 0 0) (d1.modJob x.id fun x => { x with stopReq := [] })
/-- A training job ends with a result: its event, its training area released, its checkpoints kept only where it stopped, and the STOP_JOB
requests that waited answered (R282, R295, R303, R419). -/
def Device.endJob (d : Device) (j result : Nat) : Device :=
  match d.job? j with
  | none => d
  | some x =>
    match x.state with
    | .ended _ => d
    | _ =>
      let d1 := ((d.modJob j fun x => { x with
        state := .ended result, area := 0, ckpts := if result ≤ 1 then [] else x.ckpts }).freeJobs [x]).freeCkpts (if result ≤ 1 then x.ckpts else [])
      ((d1.retireJobs j).raiseBrg x.burgee 0x0007 (j + at_ 16 result)).quitJob x

/-- The functions of a burgee that are assigned. -/
def Device.fnsOf (d : Device) (b : Nat) : List Nat := (d.fns.filter fun p => p.2.assigned && p.2.burgee == b).map (·.1)

/-- A unit is reported failed in the log of every function of its burgee (R209, R399). -/
def Device.unitFailed (d : Device) (b index target : Nat) : Device :=
  (d.fnsOf b).foldl (fun d f => d.defError f 0x5004 0xFFFF 0xFFFF index 0 fillerId target) d

/-- The space of a rewrite's new copy given back: to the window, or to free L-tier space (R108, R110). -/
def Device.dropCopy (d : Device) (i : Nat) (r : Option Rewrite) : Device :=
  match r with
  | none => d
  | some r =>
    ({ d with tiers := { d.tiers with extL := d.tiers.extL.filter (·.base != r.base) } } : Device).modIndex i fun x =>
      if r.window then { x with windowUsed := x.windowUsed - r.bytes } else { x with reserved := x.reserved - r.bytes }
/-- CELL_STATE or GROUP_STATE of a unit written active, in the L-tier and in a valid copy that holds the cell's header (R90, R99, R114). -/
def Device.unitActive (d : Device) (x : Index) (unit : Nat) : Device :=
  if x.kind == .graph then d.write (x.hdrBase + 32 * unit + 30) [1]
  else
    let copies := (d.burgee x.burgee).placed.filter fun p => p.index == x.indexNo && p.unit == unit && p.kind == 0 && p.valid
    copies.foldl (fun d p => d.write (p.fAddr + 4) [1]) (d.write (x.hdrBase + 256 * unit + 4) [1])
/-- A rewrite is abandoned: its new copy is freed, its unit is active again, and it is retried no sooner than 10 ms later; `skew` counts towards
marking the unit failed (R110, R209). -/
def Device.abandonRewrite (d : Device) (i unit : Nat) (skew : Bool) : Device :=
  match tfind i d.indexes with
  | none => d
  | some x =>
    let d0 := { d with devCnt := { d.devCnt with rewritesAbandoned := d.devCnt.rewritesAbandoned + 1 } }
    if x.kind == .graph then
      match tfind unit x.graph.groups with
      | none => d
      | some g =>
        let n := if skew then g.skews + 1 else 0
        let g' := { g with rewrite := none, state := 1, retryAt := some (d.now + 10000000), skews := n, failed := g.failed || 3 ≤ n }
        let d1 := ((d0.modIndex i fun x => { x with graph := { x.graph with groups := tset unit g' x.graph.groups } }).dropCopy i g.rewrite).unitActive x unit
        if 3 ≤ n && !g.failed then d1.unitFailed x.burgee i unit else d1
    else
      match tfind unit x.cells with
      | none => d
      | some c =>
        let n := if skew then c.skews + 1 else 0
        let c' := { c with rewrite := none, state := 1, retryAt := some (d.now + 10000000), skews := n, failed := c.failed || 3 ≤ n }
        let d1 := ((d0.modIndex i fun x => { x with cells := tset unit c' x.cells }).dropCopy i c.rewrite).unitActive x unit
        if 3 ≤ n && !c.failed then d1.unitFailed x.burgee i unit else d1

/-- The job result that stands for a status (R303). -/
def jobResultOf (status : Nat) : Nat :=
  if status = stScaleSkew then 0x05 else if status = stDeadlock then 0x06 else 0x07

/-- A context is torn down on every SC for a fault: its command completes with the status, its job stops, or its background
task ends under R209; the event is counted and reported (R208, R262, R265, R364). -/
def Device.tearDown (d : Device) (ctx status : Nat) : Device :=
  match d.ctx? ctx with
  | none => d
  | some c =>
    let idx := match c.cmd.bind d.cmd?, c.task with
      | some m, _ => m.indexNo
      | none, .merge i => i
      | none, .rewrite i _ => i
      | none, .job j => (d.job? j).elim 0xFFFF (·.desc.indexNo)
      | none, .other => 0xFFFF
    let d1 := d.account (d.clientOf ctx) c.burgee fun a => { a with teardowns := a.teardowns + 1 }
    let d2 := d1.raiseBrg c.burgee 0x0005 (status + at_ 16 idx)
    match c.cmd, c.task with
    | some st, _ => d2.endCmd st status
    | none, .job j => (d2.releaseCtx ctx).endJob j (jobResultOf status)
    | none, .rewrite i u => (d2.releaseCtx ctx).abandonRewrite i u (status == stScaleSkew)
    | none, _ => d2.releaseCtx ctx

/-- A descriptor fault on an SC: counted, and the command the descriptor serves completes with INVALID_FIELD (R182). -/
def Device.descFault (d : Device) (sc ctx : Nat) : Device :=
  let d1 := d.modEng sc fun e => { e with descFaults := e.descFaults + 1 }
  match d1.ctx? ctx with
  | none => d1
  | some c => match c.cmd with
    | some st => d1.endCmd st stInvalidField
    | none => d1.releaseCtx ctx

end Sys2Proof.Machine
end

