-- ==== Sys2Proof/Machine/Rs.lean ====
section
/-! DEFINITION. The symbol codes of the two tiers: GF(2^8) of R315, RS(32,28) of an L-tier row and RS(36,32) of an F-tier burst
(R311, R315, R316). The codes are linear, so what a decoder does to a read depends on the read's error pattern alone. -/

namespace Sys2Proof.Machine

/-- Doubling in GF(2^8) with alpha a root of x^8 + x^4 + x^3 + x^2 + 1 (R315). -/
def gfDouble (a : Nat) : Nat := if a < 128 then 2 * a else (2 * a % 256) ^^^ 0x1D
/-- Product in GF(2^8), over the bits of b from bit n - 1 down. -/
def gfMulBits (a b : Nat) : Nat → Nat
  | 0 => 0
  | n + 1 => gfDouble (gfMulBits a (b / 2) n) ^^^ (if b % 2 = 1 then a else 0)
/-- Product in GF(2^8). -/
def gfMul (a b : Nat) : Nat := gfMulBits a b 8
/-- Power in GF(2^8). -/
def gfPow (a : Nat) : Nat → Nat
  | 0 => 1
  | n + 1 => gfMul (gfPow a n) a
/-- alpha to a power. -/
def gfAlpha (n : Nat) : Nat := gfPow 2 (n % 255)
/-- Inverse in GF(2^8); 0 for 0. -/
def gfInv (a : Nat) : Nat := gfPow a 254

/-- Coefficients, from x^0 up, of the product of (x + X) over a list of locators. -/
def gfPoly : List Nat → List Nat
  | [] => [1]
  | x :: xs =>
    let p := gfPoly xs
    List.zipWith (· ^^^ ·) (0 :: p) ((p.map (gfMul x)) ++ [0])

/-- The generator of both codes: coefficients of (x + 1)(x + a)(x + a^2)(x + a^3) from x^0 up (R311, R315). -/
def rsGen : List Nat := gfPoly ((List.range 4).map gfAlpha)
/-- The remainder of r(x) x^4 + s x^4 divided by g(x): one more data symbol s taken into a remainder held from x^3 down. -/
def rsTake (r : List Nat) (s : Nat) : List Nat :=
  let f := s ^^^ r.getD 0 0
  (List.range 4).map fun i => r.getD (i + 1) 0 ^^^ gfMul f (rsGen.getD (3 - i) 0)
/-- The check symbols of a codeword's data: the remainder of d(x) x^4 divided by g(x) (R315). -/
def rsCheck (data : List Nat) : List Nat := data.foldl rsTake [0, 0, 0, 0]
/-- A codeword: its data symbols and then its check symbols (R311, R315). -/
def rsEncode (data : List Nat) : List Nat := data ++ rsCheck data

/-- Where position i of codeword w of an L-tier row travels: its burst, its pin and the first of its 8 beats, which is bit 0 (R315). -/
def rowSymbolAt (w i : Nat) : Nat × Nat × Nat := (w / 2, i / 2, 8 * (2 * (w % 2) + i % 2))
/-- Where data byte b of an L-tier row lies: its codeword and position (R315). -/
def rowByteAt (b : Nat) : Nat × Nat := (b / 28, b % 28)
/-- The codewords of an L-tier row, of its 1,792 data bytes (R315). -/
def rowCodewords (data : List Byte) : List (List Nat) :=
  (List.range 64).map fun w => rsEncode (((data.drop (28 * w)).take 28).map (·.toNat))
/-- Where byte b of a 512 B F-tier unit lies: its burst, which is its codeword, and its lane (R308, R311). -/
def unitByteAt (b : Nat) : Nat × Nat := (b / 32, b % 32)
/-- The codewords of a 512 B F-tier unit, one for each of its 16 bursts (R311). -/
def unitCodewords (data : List Byte) : List (List Nat) :=
  (List.range 16).map fun w => rsEncode (((data.drop (32 * w)).take 32).map (·.toNat))
/-- The syndromes S0 to S3 of a whole codeword: 0 where it is a multiple of the generator (R315). -/
def rsWordSyndromes (word : List Nat) : List Nat :=
  (List.range 4).map fun j => word.foldl (fun s c => gfMul s (gfAlpha j) ^^^ c) 0

/-- An error pattern of one codeword: positions and the symbols added there. -/
abbrev SymErrs := List (Nat × Nat)

/-- The locator of position i in a codeword of n symbols: the power of x it stands at (R315). -/
def rsLoc (n i : Nat) : Nat := gfAlpha (n - 1 - i)

/-- Syndromes S0 to S3 of an error pattern in a codeword of n symbols. -/
def rsSyndromes (n : Nat) (es : SymErrs) : List Nat :=
  (List.range 4).map fun j => es.foldl (fun s e => s ^^^ gfMul e.2 (gfPow (rsLoc n e.1) j)) 0

/-- The symbols at given positions that explain the first syndromes. -/
def rsSolve (n : Nat) (syn : List Nat) (ps : List Nat) : SymErrs :=
  ps.map fun p =>
    let others := (ps.filter (· != p)).map (rsLoc n)
    let num := (List.zipWith gfMul (gfPoly others) syn).foldl (· ^^^ ·) 0
    let den := others.foldl (fun d x => gfMul d (rsLoc n p ^^^ x)) 1
    (p, gfMul num (gfInv den))

/-- The pattern at given positions, if it explains all four syndromes. -/
def rsTry (n : Nat) (syn : List Nat) (ps : List Nat) : Option SymErrs :=
  let e := (rsSolve n syn ps).filter fun p => p.2 != 0
  if rsSyndromes n e = syn then some e else none

/-- The pattern a decoder corrects in a codeword of n symbols: none, then up to the erasures and one further symbol when
positions are marked, else up to two symbols; `none` when it cannot resolve the codeword (R311, R316). -/
def rsDecode (n : Nat) (marked : List Nat) (es : SymErrs) : Option SymErrs :=
  let syn := rsSyndromes n es
  if syn.all (· == 0) then some []
  else if marked.isEmpty then
    match (List.range n).findSome? fun i => rsTry n syn [i] with
    | some e => some e
    | none => (List.range n).findSome? fun i => (List.range i).findSome? fun j => rsTry n syn [j, i]
  else
    match rsTry n syn marked with
    | some e => some e
    | none => (List.range n).findSome? fun i => if marked.contains i then none else rsTry n syn (i :: marked)

/-- An error pattern of a row or unit: codeword, position and symbol. -/
abbrev RowErrs := List (Nat × Nat × Nat)

/-- The errors of one codeword. -/
def errsOf (w : Nat) (es : RowErrs) : SymErrs := (es.filter (·.1 == w)).map (·.2)

/-- The codewords an error pattern touches. -/
def wordsOf (es : RowErrs) : List Nat := (es.map (·.1)).eraseDups

/-- What the decoder corrects in a row or unit, or `none` when a codeword of it cannot be resolved (R316). -/
def rowDecode (n : Nat) (marked : List Nat) (es : RowErrs) : Option RowErrs :=
  (wordsOf es).foldr (fun w acc => match acc, rsDecode n marked (errsOf w es) with
    | some xs, some e => some (e.map (fun p => (w, p.1, p.2)) ++ xs)
    | _, _ => none) (some [])

/-- Symbols of an L-tier codeword that pin q carries (R316). -/
def pinSymbols (q : Nat) : List Nat := [2 * q, 2 * q + 1]

end Sys2Proof.Machine
end

