-- ==== Sys2Proof/Machine/Channels.lean ====
section
/-! DEFINITION. The memory controllers (chapter 10): where an address lies on the channels, accepted writes and the
Write-Combining Buffer, retrain windows, rebuild, scrub, marks and refresh; and the commands that drive them. -/

namespace Sys2Proof.Machine

/-! ### The maps (R309, R314) -/

/-- Data packages, n_p of R314. -/
def Device.np (d : Device) : Nat := if d.tiers.packages = 9 then 8 else 16

/-- Where a data row lies: its group, package and channel row (R314). -/
def lPlace (np r : Nat) : Nat × Nat × Nat := (r % 4, r / 4 % np, r / (4 * np))
/-- The channel number of Lg.p (R571). -/
def lChan (g p : Nat) : Nat := 17 * g + p
/-- Bank, rank and device row of a channel row (R314). -/
def lBankOf (cr : Nat) : Nat × Nat × Nat := ((cr % 16) ^^^ (cr / 32 % 16) ^^^ (cr / 1024 % 16), cr / 16 % 2, cr / 32)
/-- The parity group of an L channel, and the stack of an F channel plus 4 (R313, R321). -/
def chanGroup (c : Nat) : Nat := if c < 68 then c / 17 else 4 + (c - 68) / 32
/-- An L-tier channel. -/
def isL (c : Nat) : Bool := decide (c < 68)
/-- The controller of a channel, by its first channel: four F channels of a stack share one, an L channel has its own (R308, R313). -/
def chanCtrl (c : Nat) : Nat := if c < 68 then c else 68 + (c - 68) / 4 * 4
/-- The channels of a controller, by its first channel (R308, R313). -/
def ctrlChans (c : Nat) : List Nat := if c < 68 then [c] else (List.range 4).map (c + ·)
/-- Pseudo-channels enabled, in the order of the full list (R309). -/
def Device.enabled (d : Device) : List Nat := (List.range 256).filter fun j => !d.tiers.disabled.contains j
/-- Channel number and pseudo-channel of an entry of the full list (R309). -/
def fChan (j : Nat) : Nat × Nat := (68 + 32 * (j % 4) + j / 4 % 32, j / 128)
/-- Where a 512 B unit lies: its channel and its key on it, the unit within the pseudo-channel and the pseudo-channel. -/
def Device.fPlace (d : Device) (u : Nat) : Nat × Nat :=
  let j := d.enabled.getD (u % d.nen) 0
  ((fChan j).1, 2 * (u / d.nen) + (fChan j).2)

/-- The channel and the row or unit key of an address of either tier; none elsewhere. -/
def Device.chanOf (d : Device) (a : Nat) : Option (Nat × Nat) :=
  match d.area a with
  | .lTier =>
    let (g, p, cr) := lPlace d.np ((a - lBase) / 1792)
    some (lChan g p, cr)
  | .fTier => some (d.fPlace (a / 512))
  | _ => none

/-- Bytes of a row or unit. -/
def keyBytes (c : Nat) : Nat := if isL c then 1792 else 512

/-! ### Counters and events -/

/-- A channel's counters changed. -/
def Device.memCount (d : Device) (c : Nat) (g : MemCounters → MemCounters) : Device :=
  d.modChan c fun k => { k with counters := g k.counters }

/-- A channel enters a state: the event of R413 type 0x10, and the DEGRADED cause of a failed L channel (R320, R325, R501). -/
def Device.chanState (d : Device) (c : Nat) (s : ChState) : Device :=
  if (d.chan c).state == s then d
  else
    let d1 := (d.modChan c fun k => { k with state := s }).raiseDev 0x0010 (s.code + at_ 8 c)
    let bad := (List.range 68).any fun i => (d1.chan i).state == .failed || (d1.chan i).state == .rebuild
    if bad then d1.degrade 1 else d1.undegrade 1

/-- The channel is out of service: its reads are rebuilt or redirected (R320). -/
def Channel.out (k : Channel) : Bool := k.state == .retrain || k.state == .failed

/-- Another channel of the same parity group or stack is in RETRAIN, REPLAY, FAILED or REBUILD (R321). -/
def Device.groupBusy (d : Device) (c : Nat) : Bool :=
  d.tiers.chans.any fun p => p.1 != c && chanGroup p.1 == chanGroup c &&
    (p.2.state == .retrain || p.2.state == .replay || p.2.state == .failed || p.2.state == .rebuild)

/-! ### The Write-Combining Buffer (R318, R323, R328) -/

/-- A byte range joined to disjoint ranges in ascending order. -/
def addRange (r : Nat × Nat) : List (Nat × Nat) → List (Nat × Nat)
  | [] => [r]
  | (a, b) :: t =>
    if r.2 < a then r :: (a, b) :: t
    else if b < r.1 then (a, b) :: addRange r t
    else addRange (min r.1 a, max r.2 b) t

/-- Entries a controller's WCB holds: 256 rows or 1,024 units (R328). -/
def wcbSize (c : Nat) : Nat := if isL c then 256 else 1024

/-- The parity row of a flushed data row joins the WCB of the group's parity channel (R318). -/
def Device.parityDelta (d : Device) (c key : Nat) : Device :=
  if isL c && c % 17 != 16 then
    d.modChan (lChan (c / 17) 16) fun k =>
      if k.wcb.any (·.key == key) then k else { k with wcb := k.wcb ++ [{ key := key, first := d.now, written := [] }] }
  else d

/-- A WCB entry is flushed: written whole, or by reading, merging and writing back, which is counted; the parity row of a
data row takes its delta, and parity work is charged to the device regulator (R318, R328). -/
def Device.flush (d : Device) (c key : Nat) : Device :=
  match (d.chan c).wcb.find? (·.key == key) with
  | none => d
  | some e =>
    let whole := e.written == [(0, keyBytes c)]
    let d1 := d.modChan c fun k => { k with wcb := k.wcb.filter (·.key != key) }
    let d2 := if whole then d1 else d1.memCount c fun m => { m with wcbRmw := m.wcbRmw + 1 }
    if isL c && c % 17 == 16 then d2.charge true none 0 .l 0 4096 else d2.parityDelta c key

/-- The entries of the WCB of a channel's controller, with their channels (R308, R328). -/
def Device.ctrlWcb (d : Device) (c : Nat) : List (Nat × WcbEntry) :=
  (ctrlChans (chanCtrl c)).flatMap fun e => (d.chan e).wcb.map fun w => (e, w)
/-- The entry of earliest first write (log entry 58). -/
def oldestOf : List (Nat × WcbEntry) → Option (Nat × WcbEntry)
  | [] => none
  | w :: ws => some (ws.foldl (fun o x => if x.2.first < o.2.first then x else o) w)
/-- Room for one more entry in the WCB of a channel's controller: a full one flushes its oldest (R308, R328). -/
def Device.wcbRoom (d : Device) (c : Nat) : Device :=
  let ws := d.ctrlWcb c
  if ws.length < wcbSize c then d else (oldestOf ws).elim d fun o => d.flush o.1 o.2.key

/-- A write to part of a row or unit is accepted: in the WCB, or in the journal while the channel is out (R323, R326, R328). -/
def Device.acceptPart (d : Device) (c key lo hi : Nat) : Device :=
  let k := d.chan c
  let d0 := d.memCount c fun m => { m with writes := m.writes + 1 }
  let journal := fun (d : Device) =>
    if (d.chan c).journal.contains key then d
    else (d.modChan c fun k => { k with journal := k.journal ++ [key] }).memCount c fun m => { m with journal := m.journal + 1 }
  match k.state with
  | .retrain => (journal d0).parityDelta c key
  | .replay => if k.journal.contains key then d0.parityDelta c key else d0
  | .failed => if isL c then d0.parityDelta c key else journal d0
  | _ =>
    let old := (k.wcb.find? (·.key == key)).getD { key := key, first := d.now, written := [] }
    let e := { old with written := addRange (lo, hi) old.written }
    let d1 := if k.wcb.any (·.key == key) then d0 else d0.wcbRoom c
    let d2 := d1.modChan c fun k => { k with wcb := k.wcb.filter (·.key != key) ++ [e] }
    if e.written == [(0, keyBytes c)] then d2.flush c key else d2

/-- The pieces of a byte range by row or unit: the start, the channel and key, and the range within it. -/
def Device.pieces (d : Device) (a n : Nat) : List (Nat × Nat × Nat × Nat) :=
  if n = 0 then [] else
  match d.area a with
  | .lTier =>
    let o := a - lBase
    (List.range ((o + n - 1) / 1792 - o / 1792 + 1)).map fun i =>
      let r := o / 1792 + i
      let (g, p, cr) := lPlace d.np r
      (lChan g p, cr, max o (1792 * r) - 1792 * r, min (o + n) (1792 * (r + 1)) - 1792 * r)
  | .fTier =>
    (List.range ((a + n - 1) / 512 - a / 512 + 1)).map fun i =>
      let u := a / 512 + i
      let (c, key) := d.fPlace u
      (c, key, max a (512 * u) - 512 * u, min (a + n) (512 * (u + 1)) - 512 * u)
  | _ => []

/-- A write is accepted by its memory controllers and stored (R253, R328). -/
def Device.memWrite (d : Device) (a : Nat) (bs : List Byte) : Device :=
  (d.pieces a bs.length).foldl (fun d p => d.acceptPart p.1 p.2.1 p.2.2.1 p.2.2.2) (d.write a bs)

/-- A corrected row read on a group with a channel out joins its stripe's accumulator entry (R322). -/
def Device.stripeNote (d : Device) (c key : Nat) : Device :=
  if isL c && d.tiers.chans.any (fun p => isL p.1 && p.1 / 17 == c / 17 && p.2.out) then
    d.modChan (lChan (c / 17) 16) fun k =>
      let old := (k.stripes.find? (·.row == key)).getD { row := key, mask := [], last := d.now }
      let e := { old with mask := if old.mask.contains (c % 17) then old.mask else (c % 17) :: old.mask, last := d.now }
      { k with stripes := (e :: k.stripes.filter (·.row != key)).take 64 }
  else d

/-- The accesses of a read counted by pennant, and noted for rebuilds (R322, R574). -/
def Device.memReadCount (d : Device) (a n pennant : Nat) : Device :=
  (d.pieces a n).foldl (fun d p =>
    (d.memCount p.1 fun m => if 6 ≤ pennant then { m with readsHi := m.readsHi + 1 } else { m with readsLo := m.readsLo + 1 }).stripeNote
      p.1 p.2.1) d

/-! ### Whose traffic moves (R29 to R31, R251) -/

/-- The tags of a transfer and the client it is counted for: OWN, the burgee and the pennant (R29, R30, R361). -/
structure Traffic where
  own     : Bool := false
  client  : Option Nat := none
  burgee  : Nat
  pennant : Nat
  deriving DecidableEq, Repr
/-- The resource that an access of either tier is metered on and its charge: 512 B per F-tier unit touched, 2,048 B per L-tier row read or written
whole, 4,096 B per row written in part (R251). -/
def Device.tierCharge (d : Device) (a n : Nat) (write : Bool) : Option (Metered × Nat) :=
  match d.area a with
  | .fTier => some (.f, 512 * (d.pieces a n).length)
  | .lTier => some (.l, lsum ((d.pieces a n).map fun p => if write && !(p.2.2.1 == 0 && p.2.2.2 == 1792) then 4096 else 2048))
  | _ => none
/-- An access of n bytes at an address charged to its traffic (R251). -/
def Device.chargeAt (d : Device) (t : Traffic) (a n : Nat) (write : Bool) : Device :=
  match d.tierCharge a n write with
  | some (r, c) => d.charge t.own t.client t.burgee r t.pennant c
  | none => d
/-- NMA operations charged to their traffic: 64 B each (R251). -/
def Device.chargeNma (d : Device) (t : Traffic) (n : Nat) : Device := d.charge t.own t.client t.burgee .l t.pennant (64 * n)
/-- A read charged to its traffic and counted by its controllers (R251, R574). -/
def Device.readFor (d : Device) (t : Traffic) (a n : Nat) : Device := (d.chargeAt t a n false).memReadCount a n t.pennant

/-! ### Mirrored areas (R310) -/

/-- The primary address of logical byte b of the mirrored area at a; its mirror lies 1,024 B above (R310). -/
def primaryAt (a b : Nat) : Nat := a + 2048 * (b / 1024) + b % 1024
/-- The unit of an F-tier address can be read: its channel is in service and its stored symbols can be corrected (R310, R316). -/
def Device.unitServes (d : Device) (a : Nat) : Bool :=
  (d.chanOf a).all fun p => !(d.chan p.1).out && !(d.chan p.1).bad.contains p.2
/-- Where a read of logical byte b of the mirrored area at a goes: to the primary, or to the mirror where the primary's pseudo-channel is out of
service or the primary cannot be corrected (R310). -/
def Device.mirrorAt (d : Device) (a b : Nat) : Nat :=
  if d.unitServes (primaryAt a b) then primaryAt a b else primaryAt a b + 1024
/-- The first n logical bytes of the mirrored area at a, in F-tier units (R310). -/
def Device.mirrorRead (d : Device) (a n : Nat) : List Byte :=
  (List.range (n / 512)).flatMap fun i => d.read (d.mirrorAt a (512 * i)) 512
/-- n logical bytes of the mirrored area at a from logical byte b on (R310). -/
def Device.mirrorBytes (d : Device) (a b n : Nat) : List Byte := ((d.mirrorRead a ((b + n + 511) / 512 * 512)).drop b).take n
/-- The read of unit i of the mirrored area at a, as d's channels stand, is counted as REBUILDS on the primary's channel where it goes to the
mirror (R310, R574). -/
def Device.mirrorNote (d : Device) (a : Nat) (e : Device) (i : Nat) : Device :=
  if d.unitServes (primaryAt a (512 * i)) then e
  else (d.chanOf (primaryAt a (512 * i))).elim e fun q => e.memCount q.1 fun m => { m with rebuilds := m.rebuilds + 1 }
/-- The reads of the first n logical bytes of the mirrored area at a, counted (R310, R574). -/
def Device.mirrorCount (d : Device) (a n : Nat) : Device := (List.range (n / 512)).foldl (d.mirrorNote a) d
/-- Bytes from logical byte b on, cut at the KiB ends of a mirrored area, each piece with its logical place; `fuel` bounds the pieces. -/
def mirrorCuts : Nat → Nat → List Byte → List (Nat × List Byte)
  | 0, _, _ => []
  | fuel + 1, b, bs =>
    if bs.isEmpty then [] else
    let n := 1024 - b % 1024
    (b, bs.take n) :: mirrorCuts fuel (b + n) (bs.drop n)
/-- Bytes written from logical byte b of the mirrored area at a on: to both copies (R310). -/
def Device.writeMirrored (d : Device) (a b : Nat) (bs : List Byte) : Device :=
  (mirrorCuts (bs.length / 1024 + 2) b bs).foldl (fun d p => (d.memWrite (primaryAt a p.1) p.2).memWrite (primaryAt a p.1 + 1024) p.2) d

/-! ### Retrain windows (R320, R321, R324) -/

/-- The trigger a number names. -/
def triggerOf : Nat → Option Trigger
  | 0 => some .drift | 1 => some .corrected | 2 => some .mark | 3 => some .request | _ => none

/-- RETRAIN_TRIGGER: a trigger arises and waits until a window may start (R321). -/
def retrainTriggerEff (c kind : Nat) (d : Device) : Device :=
  match triggerOf kind with
  | none => d
  | some t => if (d.chan c).state == .absent || (d.chan c).trigger.isSome then d
              else d.modChan c fun k => { k with trigger := some t }
/-- The meaning of RETRAIN_TRIGGER. -/
def execRetrainTrigger (c kind : Nat) (s : State) : Host.Outcome State Fault Refusal := onDev (retrainTriggerEff c kind) s

/-- The meaning of OSCILLATOR_DRIFT_SAMPLE: a drift beyond the threshold set at training is a trigger (R321). -/
def execOscillatorDriftSample (c drift limit : Nat) (s : State) : Host.Outcome State Fault Refusal :=
  onDev (fun d => if limit < drift then retrainTriggerEff c 0 d else d) s

/-- A window may start on a channel (R321); one that was asked for waits while shedding step 2 is engaged (R420). -/
def Device.mayRetrain (d : Device) (c : Nat) : Bool :=
  let k := d.chan c
  k.trigger.isSome && !(k.trigger == some .request && decide (2 ≤ d.mgmt.shed.steps)) && (k.state == .inService || k.state == .failed) && !d.groupBusy c && !d.frozen

/-- RETRAIN_WINDOW_START: 100 ms after its previous window at the soonest, the channel drains, its parity deltas go to the
parity channel, it enters RETRAIN, and the RETRAIN_CHANNEL requests that waited complete (R321, R324, R411). -/
def retrainWindowStartEff (c : Nat) (d : Device) : Device :=
  if !d.mayRetrain c then d
  else
    let d := d.since (d.chan c).lastAt 100000000
    let keys := (d.chan c).wcb.map (·.key)
    let d1 := keys.foldl (fun d k => d.flush c k) d
    let reqs := (d1.chan c).retrainReq
    let d2 := d1.modChan c fun k => { k with windowAt := some d.now, drained := false, wasFailed := k.state == .failed, retrainReq := [] }
    reqs.foldl (fun d q => d.respond q.1 q.2 0 0 0 0) ((d2.memCount c fun m => { m with windows := m.windows + 1 }).chanState c .retrain)
/-- The meaning of RETRAIN_WINDOW_START. -/
def execRetrainWindowStart (c : Nat) (s : State) : Host.Outcome State Fault Refusal := onDev (retrainWindowStartEff c) s

/-- RETRAIN_DRAIN_DONE: the drain ends and JEDEC training begins, within 2 µs (R324). -/
def retrainDrainDoneEff (c : Nat) (d : Device) : Device :=
  if (d.chan c).state == .retrain then d.modChan c fun k => { k with drained := true } else d
/-- The meaning of RETRAIN_DRAIN_DONE. -/
def execRetrainDrainDone (c : Nat) (s : State) : Host.Outcome State Fault Refusal := onDev (retrainDrainDoneEff c) s

/-- The memory repair record holds a channel's marks (R312, R317). -/
def Device.recordMarks (d : Device) (c : Nat) : Device :=
  { d with flash := { d.flash with repairs := (d.flash.repairs.filter fun r => r.1 != c || decide (128 ≤ r.2)) ++ (d.chan c).marks.map fun m => (c, m) } }
/-- A lane of an F-tier channel: its pseudo-channel's 32 data lanes and 4 check lanes (R311). -/
def isLane (m : Nat) : Bool := decide (m < 128) && decide (m % 64 < 36)
/-- The pseudo-channels of an F-tier channel with two or more of some lanes (R312). -/
def lostHalves (lanes : List Nat) : List Nat := [0, 1].filter fun pc => decide (2 ≤ (lanes.filter (· / 64 == pc)).length)
/-- A retrain of an F-tier channel writes to the memory repair record the marked lanes it has replaced by spares and the positions that two
failing lanes without a spare disable (R312). -/
def Device.recordLanes (d : Device) (c : Nat) (was bad : List Nat) : Device :=
  let done := ((was.filter fun m => !bad.contains m).map fun m => (c, 128 + m)) ++
    (lostHalves bad).map fun pc => (256 + ((c - 68) % 32 + 32 * pc), 0)
  { d with flash := { d.flash with repairs := d.flash.repairs ++ done.filter fun r => !d.flash.repairs.contains r } }

/-- RETRAIN_TRAINING_DONE: training succeeds with pin and lane repair, and leaves the failing pins or lanes named. Marks of pins it shows healthy
clear; a second failing pin, or two failing lanes of one pseudo-channel, fail the channel (log entry 57); a channel that was FAILED goes to
REBUILD and any other to REPLAY (R312, R317, R324, R325). -/
def retrainTrainingDoneEff (c : Nat) (bad : List Nat) (d : Device) : Device :=
  let k := d.chan c
  if !(k.state == .retrain && k.drained && k.windowAt.elim false fun t => decide (d.now ≤ t + 2000000)) then d
  else
    let bad := bad.eraseDups
    let d0 := (d.modChan c fun k => { k with marks := bad, recent := [] }).recordMarks c
    let d1 := if isL c then d0 else d0.recordLanes c k.marks bad
    if (if isL c then decide (2 ≤ bad.length) else !(lostHalves bad).isEmpty) then d1.chanState c .failed
    else if k.wasFailed then
      if isL c then (d1.modChan c fun k => { k with pointer := 0 }).chanState c .rebuild
      else d1.chanState c .replay
    else d1.chanState c .replay
/-- The meaning of RETRAIN_TRAINING_DONE. -/
def execRetrainTrainingDone (c : Nat) (bad : List Nat) (s : State) : Host.Outcome State Fault Refusal :=
  onDev (retrainTrainingDoneEff c bad) s

/-- RETRAIN_WINDOW_EXPIRY: at 2 ms the previous values are restored; where they pass the channel replays, else it fails
(R324). -/
def retrainWindowExpiryEff (c : Nat) (restored : Bool) (d : Device) : Device :=
  let k := d.chan c
  if k.state != .retrain then d
  else
  let d := d.since k.windowAt 2000000
  if restored && !k.wasFailed then (d.memCount c fun m => { m with winFails := m.winFails + 1 }).chanState c .replay
  else (d.modChan c fun k => { k with windowAt := none, lastAt := k.windowAt, trigger := none, journal := if isL c then [] else k.journal }).chanState c .failed
/-- The meaning of RETRAIN_WINDOW_EXPIRY. -/
def execRetrainWindowExpiry (c : Nat) (restored : Bool) (s : State) : Host.Outcome State Fault Refusal :=
  onDev (retrainWindowExpiryEff c restored) s

/-- JOURNAL_REPLAY_DONE: the journal is written back and the channel returns to IN_SERVICE; replay waits for a freeze to lift
(R324, R332). -/
def journalReplayDoneEff (c : Nat) (d : Device) : Device :=
  if (d.chan c).state == .replay && !d.frozen then
    (d.modChan c fun k => { k with journal := [], windowAt := none, lastAt := k.windowAt, trigger := none, wasFailed := false }).chanState c .inService
  else d
/-- The meaning of JOURNAL_REPLAY_DONE. -/
def execJournalReplayDone (c : Nat) (s : State) : Host.Outcome State Fault Refusal := onDev (journalReplayDoneEff c) s

/-! ### Rebuild and repair (R317, R319, R322, R325) -/

/-- ROW_REBUILD: a row of an out L-tier channel is rebuilt from its stripe: the rows and the parity row not yet in the
accumulator entry are read (R322). A second out channel of the group leaves it uncorrectable (R325). -/
def rowRebuildEff (c row : Nat) (d : Device) : Device :=
  let k := d.chan c
  if !(isL c && c % 17 != 16 && (k.out || (k.state == .rebuild && decide (k.pointer ≤ row)))) then d
  else if d.tiers.chans.any fun p => isL p.1 && p.1 != c && p.1 / 17 == c / 17 && p.2.state == .failed then
    d.memCount c fun m => { m with uncorr := m.uncorr + 1 }
  else
    let g := c / 17
    let have_ := (((d.chan (lChan g 16)).stripes.find? (·.row == row)).map (·.mask)).getD []
    let need := ((List.range d.np).filter fun p => p != c % 17 && !have_.contains p) ++ (if have_.contains 16 then [] else [16])
    let d1 := need.foldl (fun d p => (d.memCount (lChan g p) fun m => { m with readsHi := m.readsHi + 1 }).stripeNote (lChan g p) row) d
    d1.memCount c fun m => { m with rebuilds := m.rebuilds + 1 }
/-- The meaning of ROW_REBUILD. -/
def execRowRebuild (c row : Nat) (s : State) : Host.Outcome State Fault Refusal := onDev (rowRebuildEff c row) s

/-- STRIPE_ENTRY_LAPSE: a Stripe Accumulator entry lapses 8 µs after its last use (R322). -/
def stripeEntryLapseEff (g row : Nat) (d : Device) : Device :=
  match (d.chan (lChan g 16)).stripes.find? (·.row == row) with
  | none => d
  | some e => (d.by (e.last + 8000)).modChan (lChan g 16) fun k => { k with stripes := k.stripes.filter (·.row != row) }
/-- The meaning of STRIPE_ENTRY_LAPSE. -/
def execStripeEntryLapse (g row : Nat) (s : State) : Host.Outcome State Fault Refusal :=
  onDev (fun d => if g < 4 then stripeEntryLapseEff g row d else d) s

/-- A pin or lane is marked: its channel's mode changes, the mark is recorded, and a retrain window is wanted; a second
marked pin fails an L channel (R312, R317). -/
def Device.markPin (d : Device) (c pin : Nat) : Device :=
  let k := d.chan c
  if k.marks.contains pin then d
  else
    let d1 := (d.modChan c fun k => { k with marks := k.marks ++ [pin] }).recordMarks c
    if isL c && !k.marks.isEmpty then d1.chanState c .failed else retrainTriggerEff c 2 d1

/-- Codewords of a row corrected at a pin's positions (R317). -/
def pinWords (q : Nat) (es : RowErrs) : Nat := ((es.filter fun e => e.2.1 / 2 == q).map (·.1)).eraseDups.length
/-- Symbols of a channel corrected within the last second, at one pin or at all (R317, R321). -/
def Channel.inLast (k : Channel) (pin : Option Nat) : Nat := lsum ((k.recent.filter fun r => pin.all (· == r.2.1)).map (·.2.2))
/-- Corrected symbols counted, and the triggers of R317 and R321 over the second that ends now. -/
def Device.corrected (d : Device) (c : Nat) (es : RowErrs) : Device :=
  let n := es.length
  let mine := (List.range 16).filterMap fun q =>
    let m := if isL c then (es.filter fun e => e.2.1 / 2 == q).length else if q = 0 then n else 0
    if m = 0 then none else some (d.now, q, m)
  let d1 := (d.modChan c fun k => { k with recent := mine ++ k.recent.filter fun r => decide (d.now < r.1 + 1000000000) }).memCount c
      fun m => { m with corrected := m.corrected + n }
  let d2 := if 4096 ≤ (d1.chan c).inLast none then retrainTriggerEff c 1 d1 else d1
  if !isL c then d2 else
  (List.range 16).foldl (fun d q => if 16 ≤ pinWords q es || 1024 ≤ (d.chan c).inLast (some q) then d.markPin c q else d) d2

/-- Symbols of a codeword, and the positions marked, of a row of an L channel or a unit of an F channel's pseudo-channel (R311, R316). -/
def Channel.code (k : Channel) (c key : Nat) : Nat × List Nat :=
  if isL c then (32, (k.marks.take 1).flatMap pinSymbols)
  else (36, ((k.marks.filter (· / 64 == key % 2)).take 1).map (· % 64))

/-- What a read of a row or unit brings: the device with its corrections counted, or none where it is uncorrectable. A row that marks its pin
by its own codewords is decoded again in pin-erasure mode (R311, R316, R317). -/
def Device.decodeRead (d : Device) (c row : Nat) (read : RowErrs) : Option Device :=
  let code := (d.chan c).code c row
  (rowDecode code.1 code.2 read).bind fun es =>
    let d1 := d.corrected c es
    let again := isL c && (d1.chan c).state == .inService &&
      (List.range 16).any fun q => decide (16 ≤ pinWords q es) && !(d.chan c).marks.contains q
    if again && (rowDecode code.1 ((d1.chan c).code c row).2 read).isNone then none else some d1

/-- A row read is decoded in its channel's mode; an uncorrectable one is rebuilt from its stripe and rewritten where no other
channel of the group is out, else it stays uncorrectable (R316, R319). -/
def rowRepair (c row : Nat) (read rebuilt : RowErrs) (d : Device) : Device :=
  let k := d.chan c
  if k.state != .inService then d
  else
    match d.decodeRead c row read with
    | some d1 => d1
    | none =>
      let canRebuild := isL c && !d.groupBusy c
      match (if canRebuild then rowDecode 32 [] rebuilt else none) with
      | some es => ((d.corrected c es).modChan c fun k => { k with bad := k.bad.filter (· != row) }).memCount c fun m => { m with repairs := m.repairs + 1 }
      | none => (d.modChan c fun k => { k with bad := if k.bad.contains row then k.bad else row :: k.bad }).memCount c fun m => { m with uncorr := m.uncorr + 1 }
/-- The meaning of UNCORRECTABLE_ROW_REPAIR (R319). -/
def execUncorrectableRowRepair (c row : Nat) (read rebuilt : List (Nat × Nat × Nat)) (s : State) :
    Host.Outcome State Fault Refusal := onDev (rowRepair c row read rebuilt) s

/-- The meaning of PATROL_SCRUB: a row is read at pennant 0, corrected and rewritten in the same way (R319). -/
def execPatrolScrub (c row : Nat) (read rebuilt : List (Nat × Nat × Nat)) (s : State) : Host.Outcome State Fault Refusal :=
  onDev (fun d => if (d.chan c).state != .inService then d else
    ((rowRepair c row read rebuilt d).modChan c fun k => { k with scrubNext := row + 1 }).memCount c
      fun m => { m with readsLo := m.readsLo + 1 }) s

/-- The meaning of LANE_FAILURE: an F-tier lane that fails at run time is marked for lane-erasure mode at once (R312). -/
def execLaneFailure (c lane : Nat) (s : State) : Host.Outcome State Fault Refusal :=
  onDev (fun d => if isL c || (d.chan c).state == .absent || !isLane lane then d else d.markPin c lane) s

/-- Channel rows of an L-tier channel: 16 GiB of 2 KiB rows (R35, R313). -/
def rowsPerChan : Nat := 0x800000

/-- FAILED_CHANNEL_REBUILD: rows of a channel in REBUILD are rebuilt from their stripes and written; past the last row it
returns to IN_SERVICE (R325). -/
def failedChannelRebuildEff (c rows : Nat) (d : Device) : Device :=
  if (d.chan c).state != .rebuild then d
  else
    let p := (d.chan c).pointer + rows
    if rowsPerChan ≤ p then
      (d.modChan c fun k => { k with pointer := 0, windowAt := none, lastAt := k.windowAt, trigger := none, wasFailed := false }).chanState c .inService
    else d.modChan c fun k => { k with pointer := p }
/-- The meaning of FAILED_CHANNEL_REBUILD. -/
def execFailedChannelRebuild (c rows : Nat) (s : State) : Host.Outcome State Fault Refusal := onDev (failedChannelRebuildEff c rows) s

/-! ### Refresh (R327, R488) -/

/-- An event of R353 that overlaps every bounded command: each bound is voided once. -/
def Device.voidAll (d : Device) : Device := (d.cmds.map (·.stamp)).foldl (fun d s => d.voidBound s) d

/-- The throttle condition of R488 from its parts; entering it raises THERMAL_THROTTLE and voids bounds (R353, R489). -/
def Device.setHot (d : Device) : Device :=
  let hot := decide (400 ≤ d.power.eff) || !d.power.hotF.isEmpty || !d.power.hotL.isEmpty
  let d1 := { d with power := { d.power with hot := hot } }
  if hot && !d.power.hot then d1.voidAll.powerEvent 0x03 3 d.power.tj else d1

/-- REFRESH_SAMPLE_L: a package's MR4 sets its refresh rate, never below nominal; entering its over-range condition raises
MEM_HOT (R327, R488). -/
def refreshSampleLEff (p rate : Nat) (isOver : Bool) (d : Device) : Device :=
  if 17 ≤ p then d else
  let d1 := { d with tiers := { d.tiers with refreshL := lmod p (fun _ => max 1 rate) d.tiers.refreshL } }
  let was := d.power.hotL.contains p
  let hl := if isOver then (if was then d.power.hotL else p :: d.power.hotL) else d.power.hotL.filter (· != p)
  let d2 := ({ d1 with power := { d1.power with hotL := hl } }).setHot
  if isOver && !was then d2.powerEvent 0x0D 3 (0x100 + p) else d2
/-- The meaning of REFRESH_SAMPLE_L. -/
def execRefreshSampleL (p rate : Nat) (isOver : Bool) (s : State) : Host.Outcome State Fault Refusal :=
  onDev (refreshSampleLEff p rate isOver) s

/-- REFRESH_SAMPLE_F: a stack's temperature, in 0.25 °C, sets its refresh rate: twice nominal above 85 °C until below 83 °C
(R327); above its operating range it raises MEM_HOT (R488). -/
def refreshSampleFEff (k : Nat) (t : Int) (isOver : Bool) (d : Device) : Device :=
  if 4 ≤ k then d else
  let d1 := { d with tiers := { d.tiers with refreshF := lmod k (fun r => if 340 < t then 2 else if t < 332 then 1 else r) d.tiers.refreshF } }
  let was := d.power.hotF.contains k
  let hf := if isOver then (if was then d.power.hotF else k :: d.power.hotF) else d.power.hotF.filter (· != k)
  let d2 := ({ d1 with power := { d1.power with hotF := hf } }).setHot
  if isOver && !was then d2.powerEvent 0x0D 3 k else d2
/-- The meaning of REFRESH_SAMPLE_F. -/
def execRefreshSampleF (k : Nat) (t : Int) (isOver : Bool) (s : State) : Host.Outcome State Fault Refusal :=
  onDev (refreshSampleFEff k t isOver) s

/-- The meaning of WCB_FLUSH (R328): while a freeze holds, no flush starts (R332). -/
def execWcbFlush (c key : Nat) (s : State) : Host.Outcome State Fault Refusal :=
  onDev (fun d => if d.frozen then d else d.flush c key) s

end Sys2Proof.Machine
end

