-- ==== Sys2Proof/Machine/Settings.lean ====
section
/-! DEFINITION. Image headers, the counted settings and the Settings Ledger (R427 to R436), the resolution of the carrier
profile (R6) and of the L-tier population (R37), and BURGEE_GEOMETRY put in force (R342, R436, R437). -/

namespace Sys2Proof.Machine

/-! ### Image slots (R427, R429) -/

/-- VERSION of the image of a slot; the factory image's is the part's own (R427, R429). -/
def Device.imageVersion (d : Device) (s : Nat) : Nat :=
  if s = 0 then Config.factoryVersion.toNat else fieldAt (tget [] s d.flash.images) 4 4
/-- SVN of the image of a slot (R429). -/
def Device.imageSvn (d : Device) (s : Nat) : Nat :=
  if s = 0 then Config.factorySvn.toNat else fieldAt (tget [] s d.flash.images) 8 1

/-- Slots whose SVN lies below the fused SECURITY_VERSION become invalid, slot 0 included (R427, R433). -/
def Device.dropOldSlots (d : Device) : Device :=
  { d with flash := { d.flash with valid := d.flash.valid.filter fun s => decide (d.fuses.svn ≤ d.imageSvn s) } }

/-- The slot a boot takes: the one chosen for it where that is valid, else slot 1 or 2 where valid, else slot 0 where valid
(R427). -/
def Device.bootSlot (d : Device) (unreadable : List Nat) : Option Nat :=
  let ok := fun s => d.flash.valid.contains s && !unreadable.contains s && decide (d.fuses.svn ≤ d.imageSvn s)
  match d.flash.nextBoot with
  | some s => if s != 0 && ok s then some s else [1, 2, 0].find? ok
  | none => [1, 2, 0].find? ok

/-! ### The counted settings (R433) -/

/-- The value of HOST_TIME, in ms: what a host last set, 0 until one does; the device does not advance it (R416, R435). -/
def Device.hostTime (d : Device) : Nat := d.mgmt.feat.hostTime

/-- Writes a setting allows (R433). -/
def settingLimit : Nat → Nat
  | 1 => 4 | 2 => 255 | 3 => 64 | 4 => 8 | 5 => 2 | 6 => 4 | _ => 0
/-- Writes of a setting consumed (R433). -/
def Fuses.used (f : Fuses) : Nat → Nat
  | 1 => f.profileUsed | 2 => f.geometryUsed | 3 => f.svnUsed | 4 => f.debugUsed | 5 => f.seniorUsed | 6 => f.popUsed | _ => 0
/-- Present value of a fused setting (R433). -/
def Fuses.value (f : Fuses) : Nat → Nat
  | 1 => f.profile | 3 => f.svn | 5 => f.seniority | 6 => f.population | _ => 0
/-- Fuses with one write of a setting consumed, and a fused value programmed (R434 step 3). -/
def Fuses.consume (f : Fuses) (setting v : Nat) : Fuses :=
  match setting with
  | 1 => { f with profileUsed := f.profileUsed + 1, profile := v }
  | 2 => { f with geometryUsed := f.geometryUsed + 1 }
  | 3 => { f with svnUsed := f.svnUsed + 1, svn := v }
  | 4 => { f with debugUsed := f.debugUsed + 1 }
  | 5 => { f with seniorUsed := f.seniorUsed + 1, seniority := v }
  | 6 => { f with popUsed := f.popUsed + 1, population := v }
  | _ => f

/-- Values the table of R433 gives a fused setting. -/
def settingValueOk (setting v : Nat) : Bool :=
  match setting with
  | 1 => decide (1 ≤ v) && decide (v ≤ 3)
  | 3 => decide (v ≤ 255)
  | 5 => decide (v ≤ 1)
  | 6 => decide (1 ≤ v) && decide (v ≤ 2)
  | _ => false

/-- DETAIL values of a refused counted write (R410, R433): NONE, COUNT_EXHAUSTED, SAME_VALUE, SVN_TOO_LOW, SVN_ABOVE_IMAGE,
by the order of the checks. -/
inductive SettingRefusal where
  | none | countExhausted | sameValue | svnTooLow | svnAboveImage
  deriving DecidableEq, Repr

/-- The checks of R433, in order. -/
def Device.settingCheck (d : Device) (setting v : Nat) : Option SettingRefusal :=
  if !settingValueOk setting v then some .none
  else if settingLimit setting ≤ d.fuses.used setting then some .countExhausted
  else if d.fuses.value setting = v then some .sameValue
  else if setting = 3 && v < d.fuses.svn then some .svnTooLow
  else if setting = 3 && d.imageSvn d.mgmt.slot < v then some .svnAboveImage
  else Option.none

/-! ### The Settings Ledger (R435) -/

/-- Bytes 0 to 47 of a ledger record (R435). -/
def LedgerRec.head (r : LedgerRec) : List Byte :=
  leBytes 4 r.lseq ++ leBytes 1 r.setting ++ leBytes 1 r.lstate ++ leBytes 2 r.writeNo ++ leBytes 8 r.old.toNat ++
    leBytes 8 r.new.toNat ++ leBytes 2 r.requester ++ leBytes 4 r.fwVersion ++ leBytes 2 0 ++ leBytes 8 r.timebase ++
    leBytes 8 r.hostTime
/-- CHAIN of a record after the previous record's (R435). -/
def chainOf (prev : List Byte) (r : LedgerRec) : List Byte := (sha384 (prev ++ r.head)).take 16
/-- The CHAIN the next record follows: the last record's, or 16 zero bytes (R435). -/
def Device.chainHead (d : Device) : List Byte := (d.flash.ledger.getLast?.map (·.chain)).getD (List.replicate 16 0)

/-- A record appended to the ledger (R435). DESIGN CHOICE: for a record written before firmware boots (R6) the spec gives no FW_VERSION; the model
takes the version of the slot the device last booted from, the factory slot on a device that never booted (log entry 46). -/
def Device.ledgerAdd (d : Device) (setting lstate writeNo : Nat) (old new : W64) (requester : Nat) : Device :=
  let r : LedgerRec := { lseq := d.flash.ledger.length + 1, setting := setting, lstate := lstate, writeNo := writeNo, old := old,
                         new := new, requester := requester, fwVersion := d.imageVersion d.mgmt.slot, timebase := d.now,
                         hostTime := d.hostTime, chain := [] }
  { d with flash := { d.flash with ledger := d.flash.ledger ++ [{ r with chain := chainOf d.chainHead r }] } }

/-- Every CHAIN of the ledger verifies (R436). -/
def chainsOk : List Byte → List LedgerRec → Bool
  | _, [] => true
  | prev, r :: rs => r.chain == chainOf prev r && chainsOk r.chain rs

/-- The first 8 B of SHA-384 over geometry records (R435). -/
def geoDigest (g : List Byte) : W64 := BitVec.ofNat 64 (leNat ((sha384 g).take 8))

/-- A counted write of a fused setting, after its checks: INTENT, the fuses, COMMITTED, its event (R434). -/
def Device.countedWrite (d : Device) (setting v requester : Nat) : Device :=
  let no := d.fuses.used setting + 1
  let old := BitVec.ofNat 64 (d.fuses.value setting)
  let new := BitVec.ofNat 64 v
  let d1 := d.ledgerAdd setting 1 no old new requester
  let d2 := { d1 with fuses := d1.fuses.consume setting v }
  let d3 := d2.ledgerAdd setting 2 no old new requester
  let d4 := if setting = 3 then d3.dropOldSlots else d3
  d4.raiseDev 0x000C setting

/-- An INTENT without a COMMITTED or ABANDONED of the same write is settled at start-up: COMMITTED where the fuses show its
write consumed, else ABANDONED (R436). -/
def Device.settleIntents (d : Device) : Device :=
  d.flash.ledger.foldl (fun d r =>
    if r.lstate = 1 && !d.flash.ledger.any (fun q => q.setting == r.setting && q.writeNo == r.writeNo && q.lstate != 1 && decide (r.lseq < q.lseq)) then
      d.ledgerAdd r.setting (if r.writeNo ≤ d.fuses.used r.setting then 2 else 3) r.writeNo r.old r.new 0xFFFE
    else d) d

/-! ### BURGEE_GEOMETRY (R342, R436, R437) -/

/-- The 256 B record of a burgee. -/
def geoSlice (g : List Byte) (b : Nat) : List Byte := (g.drop (256 * b)).take 256
/-- The 64 bytes of a per-SC field of a record. -/
def geoField (r : List Byte) (off : Nat) : List Nat := (List.range 64).map fun n => fieldAt r (off + n) 1

/-- A burgee's partition takes a record; its keys are drawn when it is first enabled (R342, R437). -/
def Device.setGeoRec (d : Device) (b : Nat) (r : List Byte) : Device :=
  let en := fieldAt r 0 1 == 1
  let first := en && (d.burgee b).keyEpoch == 0
  let d1 := if first then { d with tiers := { d.tiers with draws := d.tiers.draws + 1 } } else d
  let d2 := d1.modBurgee b fun x => { x with
    enabled := en, halfLocal := fieldAt r 1 1 % 2 == 1, scSet := BitVec.ofNat 64 (fieldAt r 8 8),
    floor := geoField r 16, call := geoField r 80, share := geoField r 144, geoWait := false,
    keyEpoch := if first then d1.tiers.draws else x.keyEpoch }
  { d2 with geo := lmod b (fun _ => { enabled := en, raw := r }) d2.geo }

/-- All 16 records put in force (R342). -/
def Device.setGeometry (d : Device) (g : List Byte) : Device :=
  (List.range 16).foldl (fun d b => d.setGeoRec b (geoSlice g b)) d

/-- Start-up takes the journal's geometry where its digest is the last committed one's and the ledger's chains verify; where
none was ever committed every burgee is disabled; else every burgee is disabled and damage is reported (R436). -/
def Device.restoreGeometry (d : Device) : Device :=
  let last := (d.flash.ledger.filter fun r => r.setting == 2 && r.lstate == 2).getLast?
  let zero := List.replicate 4096 (0 : Byte)
  let chains := chainsOk (List.replicate 16 0) d.flash.ledger
  match last with
  | none => if chains && d.flash.geometry.isEmpty then d.setGeometry zero else (d.setGeometry zero).degrade 7
  | some r => if chains && geoDigest d.flash.geometry == r.new then d.setGeometry d.flash.geometry
              else (d.setGeometry zero).degrade 7

/-! ### Carrier profile (R6) and population (R37) -/

/-- The resolution of R6 from the fused value and the straps: the profile in force, unassigned as 0. -/
def Device.resolveProfile (d : Device) (strap : Nat) : Device :=
  let f := d.fuses.profile
  if f = 0 then
    if strap = 0 then { d with profUn := true, profMis := false, straps := { d.straps with profile := 0, inForce := 0 } }
    else
      let d1 := d.countedWrite 1 strap 0xFFFE
      { d1 with profUn := false, profMis := false, straps := { d1.straps with profile := strap, inForce := strap } }
  else
    let d1 := { d with profUn := false, profMis := f != strap, straps := { d.straps with profile := strap, inForce := f } }
    if f != strap then d1.raiseDev 0x000D strap else d1

/-- The population a set of sites shows: 1 for all seventeen, 2 for sites 0 to 7 and 16, 0 for any other set (R37, R433). -/
def populationOf (sites : List Nat) : Nat :=
  if sites == List.range 17 then 1 else if sites == List.range 8 ++ [16] then 2 else 0

/-- The resolution of R37 for the sites found. -/
def Device.resolvePopulation (d : Device) (sites : List Nat) : Device :=
  let p := populationOf sites
  let d0 := { d with tiers := { d.tiers with sites := sites, packages := if p = 1 then 17 else if p = 2 then 9 else 0 } }
  if p = 0 then { d0 with popFault := true, popMis := false }
  else if d.fuses.population = 0 then
    { d0.countedWrite 6 p 0xFFFE with popFault := false, popMis := false }
  else
    let d1 := { d0 with popFault := false, popMis := d.fuses.population != p }
    if d.fuses.population != p then d1.raiseDev 0x000D d.straps.profile else d1

/-- The power envelope of the profile in force, in W: 600 for CARD and the unassigned case, 950 for MODULE, 750 for COMPANION
(R4, R6). -/
def Device.envelope (d : Device) : Nat :=
  match d.straps.inForce with
  | 2 => 950
  | 3 => 750
  | _ => 600

end Sys2Proof.Machine
end

