-- ==== Sys2Proof/Machine/Layout.lean ====
section
/-! DEFINITION. The bytes of the index structures of chapter 3: packing of codes, sizes, and each structure as the tiers hold
it. A field that is an L-tier address holds an address of the data space of R74, an F-tier one an address of the internal space of R304. -/

namespace Sys2Proof.Machine

/-! ### Packing (R48, R55, R60, R64, R577) -/

/-- The code of a format (R48). -/
def VFmt.code : VFmt → Nat
  | .fp32 => 0x00 | .bf16 => 0x01 | .fp16 => 0x02 | .e4m3 => 0x03 | .e5m2 => 0x04 | .int8z => 0x05 | .int4z => 0x06
  | .mxfp8e4m3 => 0x07 | .mxfp8e5m2 => 0x08 | .mxfp4 => 0x09 | .mxint8 => 0x0A | .mxint4 => 0x0B | .pq4 => 0x0C
  | .pq8 => 0x0D | .sign1 => 0x0E | .bin1 => 0x0F | .u8log => 0x10
/-- The code of a metric (R45). -/
def Metric.code : Metric → Nat
  | .ip => 0 | .cos => 1 | .l2sq => 2 | .ham => 3
/-- The code of an index kind (R77). -/
def IndexKind.code : IndexKind → Nat
  | .flat => 0 | .cell => 1 | .graph => 2

/-- Values of w bits packed into bytes, the lower-numbered in the lower bits, for w of 1, 4 or a multiple of 8. -/
def packCodes (w : Nat) (cs : List Nat) : List Byte :=
  if w < 8 then (chunksOf (8 / w) cs.length cs).map fun g =>
      BitVec.ofNat 8 ((g.zipIdx.map fun p => p.1 % 2 ^ w * 2 ^ (w * p.2)).foldl (· + ·) 0)
  else cs.flatMap fun c => leBytes (w / 8) c
/-- Truth values packed, element i in bit i mod 8 of byte i div 8 (R64). -/
def packBools (bs : List Bool) : List Byte := packCodes 1 (bs.map fun b => if b then 1 else 0)
/-- Values of w bits read back from packed bytes. -/
def unpackCodes (w n : Nat) (bs : List Byte) : List Nat :=
  let v := leNat bs
  (List.range n).map fun i => v / 2 ^ (w * i) % 2 ^ w
/-- A list of bytes cut or zero-padded to n. -/
def fit (n : Nat) (bs : List Byte) : List Byte := bs.take n ++ List.replicate (n - bs.length) 0

/-- The element bytes of a form. -/
def formBytes : VForm → List Byte
  | .plain f cs => packCodes (fmtBits f) cs
  | .mx f bs => packCodes (fmtBits f) (bs.flatMap (·.codes))
  | .zp f bs => packCodes (fmtBits f) ((bs.flatMap (·.q)).map (twos (fmtBits f)))
/-- A block parameter entry (R55). -/
def zpEntry (b : ZpBlock) : List Byte :=
  leBytes 4 b.scale.toNat ++ leBytes 2 (twos 16 b.rowSum) ++ leBytes 1 (twos 8 b.zero) ++ leBytes 1 (if b.short then 1 else 0)
/-- The scales of a form: block parameter entries (R55) or E8M0 bytes (R51). -/
def formScales : VForm → List Byte
  | .plain _ _ => []
  | .mx _ bs => bs.map fun b => BitVec.ofNat 8 b.scale
  | .zp _ bs => bs.flatMap zpEntry

/-- The form that element bytes and scale bytes hold, for D elements. -/
def formRead (f : VFmt) (n : Nat) (elems scales : List Byte) : VForm :=
  let cs := unpackCodes (fmtBits f) n elems
  match f with
  | .int8z | .int4z =>
    .zp f (((chunksOf 64 n cs).zipIdx).map fun p =>
      let o := 8 * p.2
      { scale := BitVec.ofNat 32 (fieldAt scales o 4), rowSum := signedOf 16 (fieldAt scales (o + 4) 2),
        zero := signedOf 8 (fieldAt scales (o + 6) 1), short := (fieldAt scales (o + 7) 1).testBit 0,
        q := p.1.map (signedOf (fmtBits f)) })
  | .mxfp8e4m3 | .mxfp8e5m2 | .mxfp4 | .mxint8 | .mxint4 =>
    .mx f (((chunksOf 32 n cs).zipIdx).map fun p => { scale := fieldAt scales p.2 1, codes := p.1 })
  | _ => .plain f cs

/-! ### Sizes (R76, R90, R93, R105, R116) -/

/-- n rounded up to a multiple of m. -/
def roundUp (m n : Nat) : Nat := (n + m - 1) / m * m
/-- The data-space address of an L-tier internal address, as structures hold it; 0 for none (R74, R304). -/
def lData (a : Nat) : Nat := a - lBase

/-- C: bytes of a primary code. -/
def Index.codeLen (x : Index) : Nat :=
  match x.primaryFmt with
  | .pq4 => x.subspaces / 2
  | .pq8 => x.subspaces
  | _ => x.dim / 8
/-- R: bytes of a refine code; 0 without refine codes. -/
def Index.refLen (x : Index) : Nat := x.refine.elim 0 fun f => x.dim * fmtBits f / 8
/-- S: bytes of a scale record (R93). -/
def Index.scaleLen (x : Index) : Nat :=
  match x.refine with
  | none => 0
  | some f =>
    let norm := if x.metric == .l2sq then 4 else 0
    let sc := match f with
      | .int8z | .int4z => 8 * ((x.dim + 63) / 64)
      | .mxfp8e4m3 | .mxfp8e5m2 | .mxfp4 | .mxint8 | .mxint4 => x.dim / 32
      | _ => 0
    roundUp 4 (norm + sc)
/-- E: bytes of a delta entry (R105). -/
def Index.deltaLen (x : Index) : Nat := roundUp 64 (32 + 8 * x.attrWords + x.dim + x.dim / 32)
/-- K: entries of a codebook's subspace. -/
def Index.bookK (x : Index) : Nat := match x.primaryFmt with | .pq4 => 16 | .pq8 => 256 | _ => 0
/-- Bytes of a codebook set (R89). -/
def Index.bookLen (x : Index) : Nat := 64 + 2 * x.bookK * x.dim
/-- Bytes of a slot block (R92). -/
def Index.blockLen (x : Index) : Nat := 576 + 64 * x.codeLen + 512 * x.attrWords
/-- Bytes of a refine data block, 0 without refine codes. -/
def Index.refBlock (x : Index) : Nat := if x.refine.isSome then 64 + 64 * x.refLen else 0
/-- Bytes of a scale block, 0 where there is none. -/
def Index.scaleBlock (x : Index) : Nat := if x.scaleLen = 0 then 0 else 64 + 64 * x.scaleLen
/-- CAP_BLOCKS at creation (R97). -/
def Index.firstCap (x : Index) : Nat :=
  let d := 4096 * x.nCells
  min 16384 ((x.nCap * (64 + x.headroom) + d - 1) / d)
/-- Bytes of a centroid (R88). -/
def Index.centroidLen (x : Index) : Nat :=
  match x.kind with
  | .cell => if x.centroidFmt == .int8z then x.dim + 8 * ((x.dim + 63) / 64) else 2 * x.dim
  | _ => 0
/-- Node groups an index's tables have room for: its capacity with headroom (R116). -/
def Index.maxGroups (x : Index) : Nat := (x.nCap * (64 + x.headroom) + 4095) / 4096
/-- Upper-layer blocks an index has room for: 1/15 of its capacity with headroom (R116). -/
def Index.maxUppers (x : Index) : Nat := (x.nCap * (64 + x.headroom) + 959) / 960

/-- The reservation of R116 in bytes. -/
def Index.reservation (x : Index) : Nat :=
  let r := if x.refine.isSome then 1 + x.refLen + (if x.scaleLen = 0 then 0 else 1 + x.scaleLen) else 0
  let idmap := 256 * ((x.nCap + 23) / 24)
  let fixed := 2 * x.bookLen + x.nCells * x.centroidLen + x.deltaEntries * x.deltaLen + x.rewriteWindow
  match x.kind with
  | .graph =>
    -- g + up + 1/2 in units of 1/120 byte, times (64 + h)/64
    let g := 120 * (448 + r) + 15 + 448 * 8 + 60
    fixed + (x.nCap * g * (64 + x.headroom) + 7679) / 7680 + idmap
  | _ =>
    let s8 := 8 * (9 + 8 * x.attrWords + x.codeLen + r) + 1
    fixed + (x.nCap * s8 * (64 + x.headroom) + 511) / 512 + x.nCells * (256 + 4 * s8) + idmap

/-- L-tier bytes available to indexes (R116). -/
def Device.lIndexCap (d : Device) : Nat :=
  if d.tiers.packages = 9 then 440 * 0x40000000 else if d.tiers.packages = 17 then 888 * 0x40000000 else 0
/-- Free L-tier bytes: what is available less every index's reservation and growth (R116). -/
def Device.lFree (d : Device) : Nat := d.lIndexCap - lsum (d.indexes.map (·.2.reserved))

/-! ### Finding space (R306) -/

/-- A stretch [c, c + n) meets no space in use, and shares no granule with another owner's. -/
def fitsAt (g : Nat) (es : List Extent) (owner : Option Nat) (c n : Nat) : Bool :=
  es.all fun e =>
    (decide (c + n ≤ e.base) || decide (e.base + e.len ≤ c)) &&
      (e.owner == owner || decide ((e.base + e.len - 1) / g < c / g) || decide ((c + n - 1) / g < e.base / g))

/-- The lowest place of n bytes in [lo, hi), starting at a multiple of `align` above `base`, free for the owner. -/
def findSpace (g lo hi base align : Nat) (es : List Extent) (owner : Option Nat) (n : Nat) : Option Nat :=
  let al := fun c => base + roundUp align (c - base)
  let cs := al lo :: es.flatMap fun e => [al (e.base + e.len), al (roundUp g (e.base + e.len))]
  let ok := cs.filter fun c => decide (lo ≤ c) && decide (c + n ≤ hi) && fitsAt g es owner c n
  match ok with
  | [] => none
  | c :: t => some (t.foldl min c)

/-- L-tier space for an owner: row-aligned space for indexes (R304, R306). -/
def Device.takeL (d : Device) (owner : Option Nat) (n : Nat) : Option (Nat × Device) :=
  match findSpace 0x40000000 (lBase + 0x200000000) d.lEnd lBase 1792 d.tiers.extL owner n with
  | some c => some (c, { d with tiers := { d.tiers with extL := ⟨c, n, owner⟩ :: d.tiers.extL } })
  | none => none
/-- F-tier space for an owner, on a 512 B boundary; the first granule is the device's (R428, R570; log entry 25). -/
def Device.takeF (d : Device) (owner : Option Nat) (n : Nat) : Option (Nat × Device) :=
  match findSpace 0x10000000 0x10000000 d.fCap 0 512 d.tiers.extF owner n with
  | some c => some (c, { d with tiers := { d.tiers with extF := ⟨c, n, owner⟩ :: d.tiers.extF } })
  | none => none
/-- What is left of an extent without n bytes from a on. -/
def Extent.without (e : Extent) (a n : Nat) : List Extent :=
  if n = 0 then [e] else
  (if e.base < a then [{ e with len := min (e.base + e.len) a - e.base }] else []) ++
    (if a + n < e.base + e.len then [{ e with base := max e.base (a + n), len := e.base + e.len - max e.base (a + n) }] else [])
/-- n bytes of L-tier space from a on given back, which may lie within a larger extent. -/
def Device.freeL (d : Device) (a n : Nat) : Device := { d with tiers := { d.tiers with extL := d.tiers.extL.flatMap fun e => e.without a n } }
/-- F-tier space given back. -/
def Device.freeF (d : Device) (a : Nat) : Device := { d with tiers := { d.tiers with extF := d.tiers.extF.filter (·.base != a) } }

/-! ### Cells (R90 to R97) -/

/-- Bytes between the slot extents of neighbouring cells as created. -/
def Index.cellStride (x : Index) : Nat := roundUp 1792 (x.firstCap * x.blockLen)
/-- A summary no vector has entered: OR 0 and AND all ones for the words the index has (R91). -/
def emptySummary (a : Nat) : Summary :=
  { valid := true, orW := List.replicate 8 0, andW := (List.range 8).map fun w => if w < a then 0xFFFFFFFFFFFFFFFF else 0 }

/-- The level of a node (R102). -/
def nodeLevel (id : W64) : Nat :=
  let h := (mix64 id).toNat
  ((List.range 7).takeWhile fun l => h / 2 ^ (4 * l) % 16 == 0).length

/-- Upper-layer blocks of the centroid graph of n centroids (R102, R103). -/
def centroidUppers (n : Nat) : Nat := lsum ((List.range n).map fun i => nodeLevel (BitVec.ofNat 64 i))
/-- Bytes of a set's tombstone bitmap of cap blocks (R76). -/
def tombLen (cap : Nat) : Nat := roundUp 64 (8 * cap)
/-- Bytes of the fixed parts of an index in the L-tier, in whole rows: headers, centroids, the codebook sets, the ID map, the delta log, the cells'
slot extents, tombstone bitmaps, refine and scale blocks, graph parts (R76, R97, R99). -/
def Index.parts (x : Index) : List Nat :=
  let n := x.nCells
  let cap := x.firstCap
  let g := x.kind == .graph
  let sizes := [ if g then 32 * x.maxGroups else 256 * n, n * x.centroidLen, x.bookLen, x.bookLen, 256 * x.idMapBuckets,
                 x.deltaEntries * x.deltaLen,
                 if g then 448 * x.maxUppers else n * x.cellStride,
                 if g then x.maxGroups * (x.refBlock + x.scaleBlock) else n * tombLen cap,
                 if g then 8 * x.maxGroups else n * cap * x.refBlock,
                 if g then 0 else n * cap * x.scaleBlock,
                 if x.stageA = 1 then 448 * (n + centroidUppers n) else 0 ]
  sizes.map (roundUp 1792)
/-- Where part i of an index lies. -/
def Index.part (x : Index) (i : Nat) : Nat := x.bases.getD i 0

/-- Cell n as creation leaves it. -/
def Index.newCell (x : Index) (n : Nat) : Cell :=
  { summary := emptySummary x.attrWords
    cur := { gen := x.liveGen, capBlocks := x.firstCap, slotBase := x.part 6 + n * x.cellStride,
             tombBase := x.part 7 + n * tombLen x.firstCap,
             refineBase := if x.refine.isSome then x.part 8 + n * x.firstCap * x.refBlock else 0,
             scaleBase := if x.scaleLen = 0 then 0 else x.part 9 + n * x.firstCap * x.scaleBlock } }

/-- A cell header (R90). -/
def cellHeader (n : Nat) (c : Cell) : List Byte :=
  let k := c.cur
  let p := c.prev.getD { gen := 0 }
  let flags := flagAt 0 c.prev.isSome + flagAt 1 c.summary.valid
  leBytes 4 n ++ leBytes 1 c.state ++ leBytes 1 flags ++ leBytes 2 k.seqBase ++ leBytes 4 k.gen ++ leBytes 4 p.gen ++
    leBytes 4 c.cutView ++ leBytes 2 k.refineSeq ++ leBytes 2 p.seqBase ++ leBytes 4 c.nSlots ++ leBytes 4 c.nLive ++
    leBytes 4 k.capBlocks ++ leBytes 4 p.capBlocks ++ leBytes 8 (lData k.slotBase) ++ leBytes 8 (lData p.slotBase) ++ leBytes 8 (lData k.tombBase) ++
    leBytes 8 (lData p.tombBase) ++ leBytes 8 (lData k.refineBase) ++ leBytes 8 (lData k.scaleBase) ++ leBytes 8 (lData p.refineBase) ++
    leBytes 8 (lData p.scaleBase) ++
    leBytes 4 c.mergeView ++ List.replicate 20 0 ++
    (List.range 8).flatMap fun w => leBytes 8 (c.summary.orW.getD w 0).toNat ++ leBytes 8 (c.summary.andW.getD w 0).toNat

/-- A primary code's bytes (R60, R64). -/
def Index.codeBytes (x : Index) (code : List Nat) : List Byte :=
  packCodes (match x.primaryFmt with | .pq4 => 4 | .pq8 => 8 | _ => 1) code
/-- The tag of block b in a sequence (R94). -/
def seqTag (base b : Nat) : Nat := (base + b) % 65536

/-- The 64 B header of a block (R92). -/
def blockHeader (tag kind used cell gen index : Nat) (mask : Nat) (view : Nat) : List Byte :=
  leBytes 2 tag ++ leBytes 1 kind ++ leBytes 1 used ++ leBytes 4 cell ++ leBytes 4 gen ++ leBytes 4 index ++ leBytes 8 mask ++
    leBytes 4 view ++ List.replicate 36 0
/-- Positions as a mask. -/
def maskOf (ps : List Nat) : Nat := lsum (ps.map fun p => 2 ^ p)

/-- Slot block b of a set of cell n (R92). -/
def Index.slotBlock (x : Index) (n : Nat) (s : CellSet) (b : Nat) : List Byte :=
  let h := tget ({} : BlockHead) b s.blocks
  let at_ := fun i => tfind (64 * b + i) s.slots
  let is := List.range 64
  blockHeader (seqTag s.seqBase b) 1 h.used n s.gen b (maskOf h.freshMask) h.freshView ++
    (is.flatMap fun i => fit x.codeLen ((at_ i).elim [] fun v => x.codeBytes v.code)) ++
    (is.flatMap fun i => leBytes 8 ((at_ i).elim fillerId (·.id)).toNat) ++
    is.flatMap fun i => (List.range x.attrWords).flatMap fun w => leBytes 8 ((at_ i).elim 0 fun v => v.attrs.getD w 0).toNat

/-- A scale record (R93). -/
def Index.scaleRec (x : Index) (norm : F32) (v : Option VForm) : List Byte :=
  fit x.scaleLen ((if x.metric == .l2sq then leBytes 4 norm.toNat else []) ++ v.elim [] formScales)

/-- Refine data block b and scale block b of a set of cell n (R93, R94). -/
def Index.refBlocks (x : Index) (n : Nat) (s : CellSet) (b : Nat) : List Byte × List Byte :=
  let h := tget ({} : BlockHead) b s.blocks
  let at_ := fun i => tfind (64 * b + i) s.slots
  let is := List.range 64
  (blockHeader (seqTag s.refineSeq b) 2 h.used n 0 b 0 0 ++
     (is.flatMap fun i => fit x.refLen (((at_ i).bind (·.refine)).elim [] formBytes)),
   blockHeader (seqTag s.refineSeq b) 3 h.used n 0 b 0 0 ++
     is.flatMap fun i => x.scaleRec ((at_ i).elim 0 (·.norm)) ((at_ i).bind (·.refine)))

/-- The tombstone bitmap of a set (R95). -/
def tombBytes (s : CellSet) : List Byte := packBools ((List.range (64 * s.capBlocks)).map fun i => s.tombs.contains i)

/-! ### Graphs (R99 to R103) -/

/-- A node block at level 0 (R100). -/
def Index.nodeBlock (x : Index) (entry : Bool) (n : Node) : List Byte :=
  leBytes 8 n.id.toNat ++ leBytes 4 n.view ++ leBytes 4 n.upper ++ leBytes 4 n.nbrs.length ++ leBytes 1 n.level ++
    leBytes 1 0 ++ leBytes 1 (flagAt 0 entry) ++ List.replicate 9 0 ++
    ((List.range 32).flatMap fun i => leBytes 4 (n.nbrs.getD i 0xFFFFFFFF)) ++ fit 128 (packBools (n.sketch.take 1024)) ++
    fit 96 (if x.metric == .ham then [] else x.codeBytes n.code) ++
    (List.range 8).flatMap fun w => leBytes 8 (if w < x.attrWords then n.attrs.getD w 0 else 0).toNat
/-- An unused node block: the filler ID (R100). -/
def unusedNode : List Byte := leBytes 8 fillerId.toNat ++ List.replicate 440 0
/-- An upper-layer block of a node for a level, with its neighbours (R102). -/
def upperBlock (entry : Bool) (n : Node) (level : Nat) (nbrs : List Nat) : List Byte :=
  leBytes 8 n.id.toNat ++ leBytes 4 n.view ++ leBytes 4 n.upper ++ leBytes 4 nbrs.length ++ leBytes 1 n.level ++
    leBytes 1 level ++ leBytes 1 (2 + flagAt 0 entry) ++ List.replicate 9 0 ++
    ((List.range 32).flatMap fun i => leBytes 4 (nbrs.getD i 0xFFFFFFFF)) ++ fit 128 (packBools (n.sketch.take 1024)) ++
    List.replicate 160 0
/-- The trailer of node n's 512 B F-tier slot: SLOT_NODE, SLOT_GEN and ORIGIN for a block at an internal address (R112). -/
def slotTrailer (n gen origin : Nat) : List Byte := leBytes 4 n ++ leBytes 4 gen ++ leBytes 8 (lData origin) ++ List.replicate 48 0
/-- A node group record (R99). -/
def groupRecord (g : Group) : List Byte :=
  leBytes 8 (lData g.curBase) ++ leBytes 8 (lData g.prevBase) ++ leBytes 4 g.gen ++ leBytes 4 g.prevGen ++ leBytes 4 g.cutView ++
    leBytes 2 g.refineSeq ++ leBytes 1 g.state ++ leBytes 1 g.nNodes
/-- The 64 node blocks of a group. -/
def Index.groupBlocks (x : Index) (gr : Graph) (q : Nat) (ns : Tab Node) : List Byte :=
  (List.range 64).flatMap fun i => match tfind i ns with
    | some n => x.nodeBlock (gr.entry == 64 * q + i) n
    | none => unusedNode
/-- Refine data block and scale block of a group (R93, R99). -/
def Index.groupRefine (x : Index) (q : Nat) (g : Group) : List Byte × List Byte :=
  let is := List.range 64
  (blockHeader (seqTag g.refineSeq q) 2 g.nNodes q 0 q 0 0 ++
     (is.flatMap fun i => fit x.refLen (((tfind i g.nodes).bind (·.refine)).elim [] formBytes)),
   blockHeader (seqTag g.refineSeq q) 3 g.nNodes q 0 q 0 0 ++
     is.flatMap fun i => x.scaleRec ((tfind i g.nodes).elim 0 (·.norm)) ((tfind i g.nodes).bind (·.refine)))

/-! ### The rest (R77, R83, R88, R89, R105) -/

/-- A codebook set (R89). -/
def Index.bookBytes (x : Index) (gen : Nat) (cb : Codebook) : List Byte :=
  leBytes 4 gen ++ leBytes 1 x.primaryFmt.code ++ leBytes 1 0 ++ leBytes 2 x.subspaces ++ leBytes 2 x.bookK ++
    List.replicate 54 0 ++ cb.flatMap fun sub => sub.flatMap fun e => e.flatMap (leBytes 2)
/-- The codebook that the bytes after a set's header hold (R89). -/
def readBook (k m dsub : Nat) (bs : List Byte) : Codebook :=
  (List.range m).map fun i => (List.range k).map fun j => (List.range dsub).map fun e => fieldAt bs (((i * k + j) * dsub + e) * 2) 2
/-- A bucket of the ID map (R83). -/
def bucketBytes (t : Tab W64) : List Byte := (List.range 32).flatMap fun i => leBytes 8 (tget 0 i t).toNat
/-- A delta entry (R105). -/
def Index.deltaBytes (x : Index) (e : DeltaEntry) : List Byte :=
  fit x.deltaLen (leBytes 8 e.id.toNat ++ leBytes 4 e.endView ++ leBytes 1 e.state ++ leBytes 1 (flagAt 0 e.upsert + flagAt 1 e.failed) ++
    leBytes 2 0 ++ leBytes 4 e.target ++ leBytes 4 e.slot ++ leBytes 8 e.logSeq ++
    ((List.range x.attrWords).flatMap fun w => leBytes 8 (e.attrs.getD w 0).toNat) ++ fit x.dim (formBytes e.vec) ++ formScales e.vec)
/-- The index record (R77). -/
def Index.record (x : Index) : List Byte :=
  leBytes 2 x.indexNo ++ leBytes 1 x.kind.code ++ leBytes 1 x.metric.code ++ leBytes 2 x.dim ++ leBytes 1 x.inputFmt.code ++
    leBytes 1 x.primaryFmt.code ++ leBytes 1 (x.refine.elim 0 fun f => 128 + f.code) ++ leBytes 1 x.attrWords ++
    leBytes 2 x.subspaces ++ leBytes 1 x.headroom ++ leBytes 1 x.stageA ++ leBytes 1 x.burgee ++
    leBytes 1 (if x.kind == .cell then x.centroidFmt.code else 0) ++ leBytes 4 x.liveGen ++ leBytes 4 x.targetGen ++
    leBytes 4 x.view ++ leBytes 4 x.nCells ++ leBytes 8 x.nCap ++ leBytes 8 x.nLive ++ leBytes 8 (lData x.hdrBase) ++
    leBytes 8 (lData x.centroidBase) ++ leBytes 8 (lData x.codebookLiveBase) ++ leBytes 8 (lData x.codebookTargetBase) ++
    leBytes 8 (lData x.idMapBase) ++
    leBytes 4 x.idMapBuckets ++ leBytes 4 x.deltaEntries ++ leBytes 8 x.deltaFBase ++ leBytes 8 (lData x.deltaLogBase) ++
    leBytes 4 x.deltaHead ++ leBytes 4 x.deltaTail ++ leBytes 8 (lData x.graphAuxBase) ++
    leBytes 8 (lData x.refineBase) ++
    leBytes 8 x.placementBase ++ leBytes 8 x.rewriteWindow ++ leBytes 4 x.graph.entry ++ leBytes 1 x.graph.top ++
    List.replicate 99 0
/-- Where an index's record lies in the index directory of the device's L-tier area, past the rows reserved for test (R77, R570;
log entry 25). -/
def recordAddr (i : Nat) : Nat := lBase + 0x1000000 + 256 * i
/-- The mirrored area of the device's F-tier granule that holds the working copies of the index records (R77, R310; log entry 25). -/
def recordCopyArea : Nat := 0xF000000
/-- A placement map entry (R113). -/
def placementEntry (fBase setView state kind probes : Nat) : List Byte :=
  leBytes 8 fBase ++ leBytes 4 setView ++ leBytes 1 state ++ leBytes 1 kind ++ leBytes 2 probes

end Sys2Proof.Machine
end

