-- ==== Sys2Proof/Machine/Walk.lean ====
section
/-! DEFINITION. The graph walk (R101, R129, R134 to R137): greedy descent by sketch key, the level-0 beam walk and the visited
set, over a graph as one view reads it. -/

namespace Sys2Proof.Machine

/-- A value inserted into a list kept in an order. -/
def insBy (before : α → α → Bool) (x : α) : List α → List α
  | [] => [x]
  | y :: ys => if before x y then x :: y :: ys else y :: insBy before x ys
/-- A list put into an order; earlier elements stay first among equals. -/
def sortBy (before : α → α → Bool) (xs : List α) : List α := xs.foldl (fun acc x => insBy before x acc) []

/-! ### Views of a graph -/

/-- A view number is newer than another (R79). -/
def viewNewer (a b : Nat) : Bool :=
  let k := (a + 0x100000000 - b % 0x100000000) % 0x100000000
  decide (1 ≤ k) && decide (k ≤ 0x7FFFFFFF)

/-- A node by number in the current copies. -/
def Graph.node? (g : Graph) (n : Nat) : Option Node := (tfind (n / 64) g.groups).bind fun q => tfind (n % 64) q.nodes
/-- A node as a START_VIEW reads it: from the previous copy of a group cut over since (R109), or the current one. -/
def Graph.nodeAt (g : Graph) (start n : Nat) : Option Node :=
  (tfind (n / 64) g.groups).bind fun q =>
    match q.prev with
    | some p => if q.cutView != 0 && viewNewer q.cutView start then tfind (n % 64) p else tfind (n % 64) q.nodes
    | none => tfind (n % 64) q.nodes
/-- The generation of the copy of a node's group that a START_VIEW reads (R109). -/
def Graph.genAt (g : Graph) (start n : Nat) : Nat :=
  match tfind (n / 64) g.groups with
  | some q => if q.prev.isSome && q.cutView != 0 && viewNewer q.cutView start then q.prevGen else q.gen
  | none => 0
/-- The neighbour list of a node at a level (R101, R102). -/
def Graph.nbrs (g : Graph) (v : Node) (level : Nat) : List Nat :=
  (if level = 0 then v.nbrs
   else if v.level < level then []
   else match tfind (v.upper + level - 1) g.uppers with
     | some b => b.2.2
     | none => []).filter (· != 0xFFFFFFFF)

/-- What a walk reads: a node by number, its neighbours at a level, and whether the view sees it (R101). -/
structure WalkView where
  node : Nat → Option Node
  nbrs : Nat → Nat → List Nat
  sees : Nat → Bool

/-- The graph as a START_VIEW reads it. -/
def Graph.viewAt (g : Graph) (start : Nat) : WalkView :=
  { node := g.nodeAt start
    nbrs := fun n l => (g.nodeAt start n).elim [] fun v => g.nbrs v l
    sees := fun n => (g.nodeAt start n).elim false fun v => v.view == 0 || !viewNewer v.view start }
/-- The graph as a merge pass has left it: every node is seen (R104 step 3). -/
def Graph.viewAll (g : Graph) : WalkView :=
  { node := g.node?, nbrs := fun n l => (g.node? n).elim [] fun v => g.nbrs v l, sees := fun n => (g.node? n).isSome }

/-- The sketch key of a node against a query sketch (R65, R67). -/
def sketchKey (sk : List Bool) (v : Node) : W32 := (scoreKey (hammingScore sk (v.sketch.take sk.length))).getD 0

/-! ### The descent (R129) -/

/-- Whether (key, ID, node) a comes before b: the higher key, then the lower ID, then the lower node number (R129, R134). -/
def rankBefore (a b : W32 × W64 × Nat) : Bool :=
  decide (b.1.toNat < a.1.toNat) || (a.1 == b.1 && (decide (a.2.1.toNat < b.2.1.toNat) || (a.2.1 == b.2.1 && decide (a.2.2 < b.2.2))))

/-- Greedy moves by sketch key on one level, at most `fuel` of them. -/
def greedy (w : WalkView) (sk : List Bool) (level : Nat) : Nat → Nat → Nat
  | 0, n => n
  | fuel + 1, n =>
    let cs := (w.nbrs n level).filterMap fun m => if w.sees m then (w.node m).map fun v => (sketchKey sk v, v.id, m) else none
    match sortBy rankBefore cs with
    | [] => n
    | c :: _ => if ((w.node n).elim 0 (sketchKey sk)).toNat < c.1.toNat then greedy w sk level fuel c.2.2 else n

/-- The node a descent from level `top` reaches when it has finished level `low`; keys only rise, so `fuel` nodes bound each
level's moves (R129). -/
def descend (w : WalkView) (sk : List Bool) (fuel low : Nat) : Nat → Nat → Nat
  | 0, n => n
  | top + 1, n => if top + 1 < low then n else descend w sk fuel low top (greedy w sk (top + 1) fuel n)

/-! ### The beam walk (R134 to R136) -/

/-- A walk under way: its committed beam, visited bits, expansions, and every node scored in order with its key, none where the
score is NaN. -/
structure Walked where
  beam     : List BeamEntry := []
  visited  : List Nat := []
  expanded : Nat := 0
  offers   : List (Nat × Option W32) := []
  deriving DecidableEq, Repr

/-- The visited bit of a node (R135). -/
def visitBit (n : Nat) : Nat := (mix64 (BitVec.ofNat 64 n)).toNat % 0x40000
/-- Beam order: key, ID, node number (R134). -/
def beamBefore (a b : BeamEntry) : Bool := rankBefore (a.key, a.id, a.node) (b.key, b.id, b.node)

/-- Scored nodes entered in the beam and offered, in order; the beam is cut to its width (R134 steps 3 to 5). -/
def Walked.enter (r : Walked) (w : WalkView) (width : Nat) (ns : List (Nat × Option W32)) : Walked :=
  let new := ns.filterMap fun p => p.2.bind fun k => (w.node p.1).map fun v => ({ key := k, id := v.id, node := p.1, expanded := false } : BeamEntry)
  { r with beam := (new.foldl (fun b e => insBy beamBefore e b) r.beam).take width, offers := r.offers ++ ns }

/-- One expansion of a node committed (R134 steps 1 to 6). -/
def Walked.expand (r : Walked) (w : WalkView) (level width keep : Nat) (sk : List Bool) (fin : Nat → Option W32) (x : Nat) : Walked :=
  let rem := (w.nbrs x level).filter fun m => w.sees m && !r.visited.contains (visitBit m)
  let ranked := sortBy rankBefore (rem.filterMap fun m => (w.node m).map fun v => (sketchKey sk v, v.id, m))
  let chosen := (ranked.take keep).map fun c => (c.2.2, fin c.2.2)
  let r1 := { r with visited := rem.foldl (fun s m => if s.contains (visitBit m) then s else visitBit m :: s) r.visited,
                     beam := r.beam.map fun (e : BeamEntry) => if e.node == x then { e with expanded := true } else e }
  { r1.enter w width chosen with expanded := r.expanded + 1 }

/-- The unexpanded entry with the highest key of the committed beam. -/
def nextOf (beam : List BeamEntry) : Option BeamEntry := beam.find? fun e => !e.expanded

/-- The walk from its start: the entry node scored, entered, marked and offered (R134). -/
def walkStart (w : WalkView) (width : Nat) (fin : Nat → Option W32) (start : Nat) : Walked :=
  { ({} : Walked).enter w width [(start, fin start)] with visited := [visitBit start] }

/-- Expansions until the beam has no unexpanded entry or the budget is spent (R136). -/
def walkLoop (w : WalkView) (level width keep : Nat) (sk : List Bool) (fin : Nat → Option W32) : Nat → Walked → Walked
  | 0, r => r
  | fuel + 1, r => match nextOf r.beam with
    | none => r
    | some e => walkLoop w level width keep sk fin fuel (r.expand w level width keep sk fin e.node)

/-- A whole walk on a level with a budget of expansions (R134, R136). -/
def runWalk (w : WalkView) (level width budget keep : Nat) (sk : List Bool) (fin : Nat → Option W32) (start : Nat) : Walked :=
  walkLoop w level width keep sk fin budget (walkStart w width fin start)

end Sys2Proof.Machine
end

