-- ==== Sys2Proof/Machine/Store.lean ====
section
/-! DEFINITION. The operations on an index that writes, merges and maintenance share: views (R79 to R81), the ID map (R82 to
R86), the bytes of each structure as they change (R96, R105, R114), and placed copies (R111 to R115). -/

namespace Sys2Proof.Machine

/-! ### Views (R79 to R81) -/

/-- The view after one: 0 is never taken (R81). -/
def nextView (v : Nat) : Nat := if v = 0xFFFFFFFF then 1 else v + 1
/-- How far view a lies past view b. -/
def viewGap (a b : Nat) : Nat := (a + 0x100000000 - b % 0x100000000) % 0x100000000

/-- OLDEST_VIEW: the oldest START_VIEW of an admitted command on the index, or its VIEW (R80). -/
def Device.oldestView (d : Device) (i : Nat) : Nat :=
  let vs := d.cmds.filterMap fun c => if c.indexNo == i then c.snap.map (·.startView) else none
  vs.foldl (fun o v => if viewNewer o v then v else o) ((tfind i d.indexes).elim 0 (·.view))
/-- A stored view has been released; 0 counts as released (R80, R81). -/
def Device.released (d : Device) (i v : Nat) : Bool := v == 0 || viewNewer (d.oldestView i) v

/-- The oldest SHOAL_VIEW of an admitted command or remote task on a shoal index, or the index's own (R81, R465). -/
def Device.oldestShoalView (d : Device) (i : Nat) (si : ShoalIndex) : Nat :=
  let vs := d.cmds.filterMap fun c => if c.indexNo == i && c.snap.isSome then some c.shoalView else none
  vs.foldl (fun o v => if viewNewer o v then v else o) si.view
/-- A view that a merge gave, FRESH_VIEW or END_VIEW, has been released; on a ROUTED shoal index it is a SHOAL_VIEW (R80, R81, R465). -/
def Device.mergeReleased (d : Device) (i v : Nat) : Bool :=
  match d.shoalIndex? i with
  | some si => if si.routed then v == 0 || viewNewer (d.oldestShoalView i si) v else d.released i v
  | none => d.released i v
/-- A delta entry's END_VIEW lets the entry go: one that a merge gave on a ROUTED shoal index also waits until 1.1 s after the SHOAL_VIEW was
published (R106, R465). -/
def Device.endReleased (d : Device) (i : Nat) (e : DeltaEntry) : Bool :=
  if e.state != 4 then d.released i e.endView
  else d.mergeReleased i e.endView && ((d.shoalIndex? i).elim true fun si =>
    !si.routed || e.endView == 0 || (tfind e.endView si.seenAt).elim true fun t => decide (t + 1100000000 ≤ d.now))

/-- The limits of R81 let VIEW advance. -/
def Device.mayAdvance (d : Device) (i : Nat) : Bool :=
  match tfind i d.indexes with
  | some x => decide (viewGap (nextView x.view) (d.oldestView i) ≤ 0x20000000) && decide (viewGap x.view x.sweepFrom < 0x20000000)
  | none => false

/-! ### Bytes -/

/-- The index record and its F-tier working copy rewritten (R76, R77). -/
def Device.syncRecord (d : Device) (i : Nat) : Device :=
  match tfind i d.indexes with
  | some x => (d.memWrite (recordAddr i) x.record).writeMirrored recordCopyArea (256 * i) x.record
  | none => d

/-- VIEW advances by one: a publication or the end of a cadence (R79). -/
def Device.advanceView (d : Device) (i : Nat) : Device :=
  (d.modIndex i fun x => { x with view := nextView x.view }).syncRecord i
/-- A wait for the limits of R81 is counted. -/
def Device.countWait (d : Device) (i : Nat) : Device := d.modIndex i fun x => { x with viewWaits := x.viewWaits + 1 }

/-- Cell n of an index, as creation left it where nothing has changed it (R90). -/
def Index.cell (x : Index) (n : Nat) : Cell := (tfind n x.cells).getD (x.newCell n)
/-- An index with a cell changed. -/
def Index.modCell (x : Index) (n : Nat) (g : Cell → Cell) : Index := { x with cells := tset n (g (x.cell n)) x.cells }
/-- An index with a group that exists changed. -/
def Index.modGroup (x : Index) (q : Nat) (g : Group → Group) : Index :=
  match tfind q x.graph.groups with
  | some k => { x with graph := { x.graph with groups := tset q (g k) x.graph.groups } }
  | none => x
/-- An index with a node that exists changed in its group's current copy. -/
def Index.modNode (x : Index) (n : Nat) (g : Node → Node) : Index :=
  x.modGroup (n / 64) fun q => match tfind (n % 64) q.nodes with
    | some v => { q with nodes := tset (n % 64) (g v) q.nodes }
    | none => q

/-- Where the parts of an index's fixed F-tier area start: the delta segment, the placement map, the codebook sets of LIVE_GEN and
TARGET_GEN, the upper layers; and its whole length (R105, R113, R334). -/
def Index.fParts (x : Index) : List Nat :=
  let units := if x.kind == .graph then x.maxGroups else x.nCells
  let sizes := [ x.deltaEntries * x.deltaLen, 16 * (units + 3), x.bookLen, x.bookLen,
                 if x.kind == .graph then 512 * x.maxUppers else if x.stageA = 1 then 512 * centroidUppers x.nCells else 0 ]
  sizes.foldl (fun acc s => acc ++ [(acc.getLastD 0) + roundUp 512 s]) [0]

/-! ### Placed copies (R111 to R115) -/

/-- UNIT_KIND 0 for a cell, or 1 or 2 for a node group placed full or as codes (R111). -/
def Index.unitForm (x : Index) (kind unit : Nat) : List Byte :=
  if kind = 0 then
    let c := x.cell unit
    let head := cellHeader unit c ++ tombBytes c.cur
    fit (roundUp 512 head.length) head ++ (List.range c.cur.capBlocks).flatMap fun b => x.slotBlock unit c.cur b
  else
    match tfind unit x.graph.groups with
    | none => []
    | some g => (List.range 64).flatMap fun i =>
      match tfind i g.nodes with
      | none => if kind = 1 then unusedNode ++ slotTrailer (64 * unit + i) g.gen (g.curBase + 448 * i)
                else List.replicate 224 0 ++ leBytes 8 fillerId.toNat ++ List.replicate 24 0
      | some v =>
        if kind = 1 then x.nodeBlock (x.graph.entry == 64 * unit + i) v ++ slotTrailer (64 * unit + i) g.gen (g.curBase + 448 * i)
        else fit 128 (packBools (v.sketch.take 1024)) ++ fit 96 (if x.metric == .ham then [] else x.codeBytes v.code) ++
          leBytes 8 v.id.toNat ++ leBytes 4 v.view ++ List.replicate 20 0

/-- F-tier bytes of a unit (R111, R335). -/
def Index.unitBytes (x : Index) (kind unit : Nat) : Nat :=
  if kind = 0 then
    let c := (x.cell unit).cur
    roundUp 512 (roundUp 512 (256 + 8 * c.capBlocks) + c.capBlocks * x.blockLen)
  else if kind = 1 then 32768 else 16384

/-- The entry of a unit in its burgee's placement map. -/
def Device.placed? (d : Device) (x : Index) (unit : Nat) : Option Placed :=
  (d.burgee x.burgee).placed.find? fun p => p.index == x.indexNo && p.unit == unit && decide (p.kind ≤ 2)

/-- A placement map entry written, with the probes its unit has counted: 0 absent, 1 filling, 2 valid, 3 invalid (R113). -/
def Device.mapEntry (d : Device) (x : Index) (unit fBase setView state kind : Nat) : Device :=
  let probes := (d.heat.find? fun h => h.index == x.indexNo && h.unit == unit).elim 0 (·.probes)
  d.memWrite (x.placementBase + 16 * unit) (placementEntry fBase setView state kind probes)

/-- The CUT_VIEW of the set a unit's current copy holds (R108, R114). -/
def Index.cutViewOf (x : Index) (unit : Nat) : Nat :=
  if x.kind == .graph then (tfind unit x.graph.groups).elim 0 (·.cutView) else (x.cell unit).cutView
/-- A reader of a START_VIEW uses a unit's previous copy (R109). -/
def Index.readsPrev (x : Index) (unit start : Nat) : Bool :=
  if x.kind == .graph then (tfind unit x.graph.groups).any fun q => q.prev.isSome && q.cutView != 0 && viewNewer q.cutView start
  else (x.cell unit).prev.isSome && (x.cell unit).cutView != 0 && viewNewer (x.cell unit).cutView start
/-- The F-tier copy from which a reader of a START_VIEW reads a unit: its entry's STATE is valid and its SET_VIEW is the CUT_VIEW of the set that
the reader uses; without one it reads the L-tier (R114). -/
def Device.copyFor (d : Device) (x : Index) (unit start : Nat) : Option Placed :=
  (d.placed? x unit).filter fun p =>
    p.valid && !x.readsPrev unit start && fieldAt (d.read (x.placementBase + 16 * unit) 16) 8 4 == x.cutViewOf unit

/-- An entry leaves valid or filling: its space returns once the present view is released (R114, R115). -/
def Device.unplace (d : Device) (x : Index) (unit state : Nat) : Device :=
  match d.placed? x unit with
  | none => d
  | some p =>
    let d1 := d.modBurgee x.burgee fun b => { b with
      placed := b.placed.filter fun q => !(q.index == x.indexNo && q.unit == unit && decide (q.kind ≤ 2)),
      left := b.left ++ [{ index := x.indexNo, view := x.view, fAddr := p.fAddr, bytes := p.bytes }] }
    d1.mapEntry x unit (if state = 3 then p.fAddr else 0) 0 state p.kind

/-- The placement map's entry k past its units, with its bytes: of the upper layers at 0, of the codebook sets of LIVE_GEN and TARGET_GEN at 1
and 2; these copies lie in the index's fixed F-tier area (R113, R334). -/
def Index.fixedEntry (x : Index) (k state : Nat) : Nat × List Byte :=
  let units := if x.kind == .graph then x.maxGroups else x.nCells
  let a := x.deltaFBase + x.fParts.getD (if k = 0 then 4 else k + 1) 0
  (x.placementBase + 16 * (units + k), placementEntry (if state = 0 then 0 else a) 0 state (if k = 0 then 3 else 4) 0)
/-- The STATE that entry k past the units holds (R113). -/
def Device.fixedState (d : Device) (x : Index) (k : Nat) : Nat := fieldAt (d.read (x.fixedEntry k 0).1 16) 12 1
/-- The parts of a placed unit: where each lies in the L-tier, its length, and where its copy lies (R111, R112). -/
def Index.copyParts (x : Index) (p : Placed) : List (Nat × Nat × Nat) :=
  if p.kind = 0 then
    let c := (x.cell p.unit).cur
    [(x.hdrBase + 256 * p.unit, 256, p.fAddr), (c.tombBase, 8 * c.capBlocks, p.fAddr + 256),
     (c.slotBase, c.capBlocks * x.blockLen, p.fAddr + roundUp 512 (256 + 8 * c.capBlocks))]
  else
    match tfind p.unit x.graph.groups with
    | none => []
    | some g => (List.range 64).flatMap fun i =>
      let a := g.curBase + 448 * i
      if p.kind = 1 then [(a, 448, p.fAddr + 512 * i)]
      else
        let f := p.fAddr + 256 * i
        [(a + 160, 128, f), (a + 288, 96, f + 128), (a, 8, f + 224), (a + 8, 4, f + 232)]
/-- The parts of the copies past the units that n bytes at a may meet, each with its entry: upper-layer blocks of a graph, or of a centroid graph
after its level-0 blocks, and the codebook sets (R111, R112). -/
def Index.fixedParts (x : Index) (a n : Nat) : List (Nat × Nat × Nat × Nat) :=
  let u := x.graphAuxBase + (if x.kind == .graph then 0 else 448 * x.nCells)
  let count := if x.kind == .graph then x.graph.nUppers else x.cgraph.nUppers - x.nCells
  let f := fun k => x.deltaFBase + x.fParts.getD k 0
  ((List.range ((a + n - u + 447) / 448 - (a - u) / 448)).filterMap fun j =>
    let b := (a - u) / 448 + j
    if b < count && x.graphAuxBase != 0 then some (0, u + 448 * b, 448, f 4 + 512 * b) else none) ++
  (if x.bookK = 0 then [] else [(1, x.codebookLiveBase, x.bookLen, f 2), (2, x.codebookTargetBase, x.bookLen, f 3)])
/-- The channel that would take any of n bytes at a is under retrain or has failed (R114). -/
def Device.channelOut (d : Device) (a n : Nat) : Bool :=
  (d.pieces a n).any fun q => (d.chan q.1).state == .retrain || (d.chan q.1).state == .failed
/-- Bytes written at a, without those at either end that memory already holds there. -/
def Device.changed (d : Device) (a : Nat) (bs : List Byte) : Nat × List Byte :=
  let old := d.read a bs.length
  let same := ((List.zip bs old).takeWhile fun p => p.1 == p.2).length
  let tail := ((List.zip (bs.drop same).reverse (old.drop same).reverse).takeWhile fun p => p.1 == p.2).length
  (a + same, (bs.drop same).take (bs.length - same - tail))
/-- The part of bytes at a that lies in n bytes at lo, and its offset there. -/
def cutTo (a : Nat) (bs : List Byte) (lo n : Nat) : Nat × List Byte :=
  (max a lo - lo, (bs.drop (lo - a)).take (min (a + bs.length) (lo + n) - max a lo))
/-- Bytes written to the L-tier reach the placed copies of the index that hold them; a copy that is filling, or whose channel that would take the
write is out, becomes invalid first (R114). -/
def Device.mirrorFor (d : Device) (x : Index) (a : Nat) (bs : List Byte) : Device :=
  let meets := fun (lo n : Nat) => decide (lo < a + bs.length) && decide (a < lo + n)
  let units := (d.burgee x.burgee).placed.filter fun p => p.index == x.indexNo && decide (p.kind ≤ 2)
  let d1 := units.foldl (fun d p =>
    let puts := ((x.copyParts p).filter fun s => meets s.1 s.2.1).map fun s => (s.2.2 + (cutTo a bs s.1 s.2.1).1, (cutTo a bs s.1 s.2.1).2)
    if puts.isEmpty then d
    else if !p.valid || puts.any (fun w => d.channelOut w.1 w.2.length) then d.unplace x p.unit 3
    else puts.foldl (fun d w => d.memWrite w.1 w.2) d) d
  ((x.fixedParts a bs.length).filter fun s => meets s.2.1 s.2.2.1).foldl (fun d s =>
    let w := cutTo a bs s.2.1 s.2.2.1
    if d.fixedState x s.1 != 2 then d
    else if d.channelOut (s.2.2.2 + w.1) w.2.length then d.memWrite (x.fixedEntry s.1 3).1 (x.fixedEntry s.1 3).2
    else d.memWrite (s.2.2.2 + w.1) w.2) d1
/-- Bytes of an index's structure written to the L-tier and to the copies that hold what changes in them (R114). -/
def Device.put (d : Device) (x : Index) (a : Nat) (bs : List Byte) : Device :=
  (d.mirrorFor x (d.changed a bs).1 (d.changed a bs).2).memWrite a bs
/-- Bytes written to the L-tier reach every placed copy of them (R114). -/
def Device.mirror (d : Device) (a : Nat) (bs : List Byte) : Device :=
  if d.area a != .lTier then d else d.indexes.foldl (fun d ix => d.mirrorFor ix.2 a bs) d
/-- A write to memory and to placed copies of what it writes (R114). -/
def Device.memWriteAll (d : Device) (a : Nat) (bs : List Byte) : Device := (d.mirror a bs).memWrite a bs

/-- A row or unit that n bytes at a touch cannot be corrected (R316, R319). -/
def Device.uncorrectable (d : Device) (a n : Nat) : Bool := (d.pieces a n).any fun q => (d.chan q.1).bad.contains q.2.1

/-! ### Structures written -/

/-- A cell header written (R90, R114). -/
def Device.syncCell (d : Device) (i n : Nat) : Device :=
  match tfind i d.indexes with
  | some x => d.put x (x.hdrBase + 256 * n) (cellHeader n (x.cell n))
  | none => d
/-- A slot block of a set of a cell, with its refine and scale blocks, written (R92, R93, R114). -/
def Device.putBlock (d : Device) (x : Index) (n b : Nat) (s : CellSet) : Device :=
  let d1 := d.put x (s.slotBase + b * x.blockLen) (x.slotBlock n s b)
  let (r, k) := x.refBlocks n s b
  let d2 := if x.refine.isSome then d1.memWrite (s.refineBase + b * x.refBlock) r else d1
  if x.scaleLen = 0 then d2 else d2.memWrite (s.scaleBase + b * x.scaleBlock) k
/-- A slot block of a cell's current set written. -/
def Device.syncBlock (d : Device) (i n b : Nat) : Device :=
  match tfind i d.indexes with
  | none => d
  | some x => d.putBlock x n b (x.cell n).cur
/-- Every block of a cell's current set written: one without a vector holds filler IDs, zero bytes and its tag (R92, R94). -/
def Device.syncSet (d : Device) (i n : Nat) : Device :=
  match tfind i d.indexes with
  | none => d
  | some x => (List.range (x.cell n).cur.capBlocks).foldl (fun d b => d.syncBlock i n b) d
/-- A cell's tombstone bitmap written (R95, R114). -/
def Device.syncTomb (d : Device) (i n : Nat) : Device :=
  match tfind i d.indexes with
  | some x => d.put x (x.cell n).cur.tombBase (tombBytes (x.cell n).cur)
  | none => d

/-- A node's block, or the unused block at a number of an existing group (R99, R100, R114). -/
def Device.putNode (d : Device) (x : Index) (n : Nat) (g : Group) : Device :=
  d.put x (g.curBase + 448 * (n % 64)) ((tfind (n % 64) g.nodes).elim unusedNode (x.nodeBlock (x.graph.entry == n)))
/-- A group's refine and scale blocks (R93, R99). -/
def Device.putRefine (d : Device) (x : Index) (q : Nat) (g : Group) : Device :=
  let (r, k) := x.groupRefine q g
  let a := x.refineBase + q * (x.refBlock + x.scaleBlock)
  let d1 := if x.refine.isSome then d.memWrite a r else d
  if x.scaleLen = 0 then d1 else d1.memWrite (a + x.refBlock) k
/-- A node block, its group's refine and scale blocks, and the copy, written (R99, R100, R114). -/
def Device.syncNode (d : Device) (i n : Nat) : Device :=
  match tfind i d.indexes with
  | none => d
  | some x => match tfind (n / 64) x.graph.groups with
    | some g => (d.putNode x n g).putRefine x (n / 64) g
    | none => d
/-- Every block of a node group written: one without a node holds the filler ID (R100). -/
def Device.syncNodes (d : Device) (i q : Nat) : Device :=
  match (tfind i d.indexes).bind fun x => (tfind q x.graph.groups).map fun g => (x, g) with
  | none => d
  | some (x, g) => ((List.range 64).foldl (fun d k => d.putNode x (64 * q + k) g) d).putRefine x q g
/-- A node group's record written (R99). -/
def Device.syncGroup (d : Device) (i q : Nat) : Device :=
  match tfind i d.indexes with
  | some x => match tfind q x.graph.groups with
    | some g => d.memWrite (x.hdrBase + 32 * q) (groupRecord g)
    | none => d
  | none => d
/-- An upper-layer block and its slot's trailer: its bytes, its L-tier address and its F-tier slot; none where its node is not in the graph
(R102, R103, R112, R334). -/
structure UpperCopy where
  addr    : Nat
  fSlot   : Nat
  block   : List Byte
  trailer : List Byte
  deriving DecidableEq, Repr
/-- Upper-layer block b of an index's graph. -/
def Index.upperCopy (x : Index) (b : Nat) : Option UpperCopy :=
  match tfind b x.graph.uppers with
  | none => none
  | some u => (x.graph.node? u.1).map fun v =>
    let a := x.graphAuxBase + 448 * b
    { addr := a, fSlot := x.deltaFBase + x.fParts.getD 4 0 + 512 * b, block := upperBlock (x.graph.entry == u.1) v u.2.1 u.2.2,
      trailer := slotTrailer u.1 ((tfind (u.1 / 64) x.graph.groups).elim 0 (·.gen)) a }
/-- Upper-layer block b of a centroid graph. -/
def Index.centroidUpper (x : Index) (b : Nat) : Option UpperCopy :=
  match tfind b x.cgraph.uppers with
  | none => none
  | some u => (x.cgraph.node? u.1).map fun v =>
    let a := x.graphAuxBase + 448 * b
    { addr := a, fSlot := x.deltaFBase + x.fParts.getD 4 0 + 512 * (b - x.nCells), block := upperBlock (x.cgraph.entry == u.1) v u.2.1 u.2.2,
      trailer := slotTrailer u.1 1 a }
/-- An upper-layer block written to the L-tier and, with its trailer, to the F-tier slot that holds it while its entry is valid (R102, R111 kind 3,
R114, R334). -/
def Device.putUpper (d : Device) (x : Index) (u : UpperCopy) : Device :=
  let d1 := d.put x u.addr u.block
  if d1.fixedState x 0 == 2 then d1.memWrite (u.fSlot + 448) u.trailer else d1
/-- An upper-layer block of an index's graph written. -/
def Device.syncUpper (d : Device) (i b : Nat) : Device :=
  match tfind i d.indexes with
  | none => d
  | some x => (x.upperCopy b).elim d (d.putUpper x)
/-- An ID map bucket written (R83). -/
def Device.syncBucket (d : Device) (i b : Nat) : Device :=
  match tfind i d.indexes with
  | some x => d.memWrite (x.idMapBase + 256 * b) (bucketBytes (tget [] b x.idMap))
  | none => d
/-- A delta entry written to both rings (R105, R106). -/
def Device.syncDelta (d : Device) (i e : Nat) : Device :=
  match tfind i d.indexes with
  | none => d
  | some x =>
    match tfind e x.delta with
    | none => (d.memWrite (x.deltaFBase + e * x.deltaLen) (List.replicate x.deltaLen 0)).memWrite (x.deltaLogBase + e * x.deltaLen)
        (List.replicate x.deltaLen 0)
    | some v => (d.memWrite (x.deltaFBase + e * x.deltaLen) (x.deltaBytes v)).memWrite (x.deltaLogBase + e * x.deltaLen) (x.deltaBytes v)
/-- An entry past the units written. -/
def Device.syncFixed (d : Device) (i k state : Nat) : Device :=
  match tfind i d.indexes with
  | some x => d.memWrite (x.fixedEntry k state).1 (x.fixedEntry k state).2
  | none => d
/-- A codebook set written to the L-tier and to its F-tier copy, whose entry becomes valid: the live set at 0, the target set at 1 (R89, R111
kind 4). -/
def Device.syncBook (d : Device) (i slot gen : Nat) : Device :=
  match tfind i d.indexes with
  | none => d
  | some x =>
    match tfind gen x.codebooks with
    | none => d
    | some cb =>
      let bs := x.bookBytes gen cb
      ((d.memWrite (if slot = 0 then x.codebookLiveBase else x.codebookTargetBase) bs).memWrite (x.deltaFBase + x.fParts.getD (2 + slot) 0)
        bs).syncFixed i (1 + slot) 2

/-- What a reset that keeps the L-tier puts back into the F-tier for an index: its delta segment from the delta log, codebook
copies, upper layers, the record's working copy and an empty placement map (R76, R105, R496). -/
def Device.reloadF (d : Device) (i : Nat) : Device :=
  match tfind i d.indexes with
  | none => d
  | some x =>
    let d1 := x.delta.foldl (fun d p => d.write (x.deltaFBase + p.1 * x.deltaLen) (x.deltaBytes p.2)) d
    let put := fun (d : Device) (slot gen : Nat) => match tfind gen x.codebooks with
      | some cb =>
        let e := x.fixedEntry (1 + slot) 2
        (d.write (x.deltaFBase + x.fParts.getD (2 + slot) 0) (x.bookBytes gen cb)).write e.1 e.2
      | none => d
    let d2 := put d1 0 x.liveGen
    let d3 := if x.targetGen = x.liveGen then d2 else put d2 1 x.targetGen
    let d4 := if x.kind == .graph || x.stageA = 1 then d3.write (x.fixedEntry 0 2).1 (x.fixedEntry 0 2).2 else d3
    let up := fun (d : Device) (u : Option UpperCopy) => u.elim d fun u => d.write u.fSlot (u.block ++ u.trailer)
    let d5 := x.cgraph.uppers.foldl (fun d p => up d (x.centroidUpper p.1)) d4
    let d6 := x.graph.uppers.foldl (fun d p => up d (x.upperCopy p.1)) d5
    let a := primaryAt recordCopyArea (256 * i)
    (d6.write a x.record).write (a + 1024) x.record

/-! ### The ID map (R82 to R86) -/

/-- fprint and home bucket of an ID (R82). -/
def idHash (buckets : Nat) (id : W64) : Nat × Nat :=
  let h := (mix64 id).toNat
  (h / 2 ^ 48, h % 2 ^ 48 * buckets / 2 ^ 48)
/-- An ID map entry (R83). -/
def idWord (fp : Nat) (l : Loc) : W64 :=
  let (kind, loc) := match l with
    | .slot c s => (1, at_ 20 c + s)
    | .node n => (2, n)
    | .delta e => (3, e)
  BitVec.ofNat 64 (at_ 48 fp + at_ 46 kind + loc)
/-- The location an entry names, none for an empty or vacated one (R83). -/
def idLoc (w : W64) : Option Loc :=
  let l := bits 45 0 w.toNat
  match bits 47 46 w.toNat with
  | 1 => some (.slot (l / 2 ^ 20) (l % 2 ^ 20))
  | 2 => some (.node (l % 2 ^ 32))
  | 3 => some (.delta (l % 2 ^ 26))
  | _ => none
/-- The entry is empty: KIND 0 with LOCATION 0 (R83). -/
def idEmpty (w : W64) : Bool := bits 47 0 w.toNat == 0

/-- The ID stored at a location (R84). -/
def Index.idAt (x : Index) (l : Loc) : Option W64 :=
  match x.away.find? fun p => p.1 == l with
  | some p => some p.2
  | none => match l with
    | .slot c s => (tfind s (x.cell c).cur.slots).map (·.id)
    | .node n => (x.graph.node? n).map (·.id)
    | .delta e => (tfind e x.delta).map (·.id)

/-- A bucket's entry. -/
def Index.idEntry (x : Index) (b p : Nat) : W64 := tget 0 p (tget [] b x.idMap)
/-- The position in a bucket whose location holds the ID (R84). -/
def Index.bucketFind (x : Index) (fp : Nat) (id : W64) (b : Nat) : Option (Nat × Loc) :=
  (List.range 32).findSome? fun p =>
    let w := x.idEntry b p
    match idLoc w with
    | some l => if bits 63 48 w.toNat == fp && x.idAt l == some id then some (p, l) else none
    | none => none
/-- A bucket holds an empty entry. -/
def Index.bucketOpen (x : Index) (b : Nat) : Bool := (List.range 32).any fun p => idEmpty (x.idEntry b p)

/-- A probe from bucket b on, over at most `fuel` buckets (R84): the entry found. -/
def Index.probe (x : Index) (fp : Nat) (id : W64) : Nat → Nat → Option (Nat × Nat × Loc)
  | 0, _ => none
  | fuel + 1, b =>
    match x.bucketFind fp id b with
    | some (p, l) => some (b, p, l)
    | none => if x.bucketOpen b then none else x.probe fp id fuel ((b + 1) % x.idMapBuckets)
/-- Where the ID map finds an ID: bucket, position and location (R84). -/
def Index.lookup (x : Index) (id : W64) : Option (Nat × Nat × Loc) :=
  let (fp, b) := idHash x.idMapBuckets id
  x.probe fp id x.idMapBuckets b

/-- The first empty or vacated entry in probe order (R85). -/
def Index.freeEntry (x : Index) : Nat → Nat → Option (Nat × Nat)
  | 0, _ => none
  | fuel + 1, b =>
    match (List.range 32).find? fun p => (idLoc (x.idEntry b p)).isNone with
    | some p => some (b, p)
    | none => x.freeEntry fuel ((b + 1) % x.idMapBuckets)

/-- An ID map entry written (R85). -/
def Device.idPut (d : Device) (i b p : Nat) (w : W64) : Device :=
  (d.modIndex i fun x => { x with idMap := tset b (tset p w (tget [] b x.idMap)) x.idMap }).syncBucket i b
/-- The entry of an ID takes a new location, in place (R85). -/
def Device.idMove (d : Device) (i : Nat) (id : W64) (l : Loc) : Device :=
  match tfind i d.indexes with
  | none => d
  | some x => match x.lookup id with
    | some (b, p, _) => d.idPut i b p (idWord (idHash x.idMapBuckets id).1 l)
    | none => d
/-- The entry of an ID becomes vacated (R85). -/
def Device.idVacate (d : Device) (i b p : Nat) : Device :=
  (d.idPut i b p 1).modIndex i fun x => { x with occupied := x.occupied - 1 }
/-- An ID takes the first empty or vacated entry (R85). -/
def Device.idInsert (d : Device) (i : Nat) (id : W64) (l : Loc) : Device :=
  match tfind i d.indexes with
  | none => d
  | some x =>
    let (fp, home) := idHash x.idMapBuckets id
    match x.freeEntry x.idMapBuckets home with
    | some (b, p) => (d.idPut i b p (idWord fp l)).modIndex i fun x => { x with occupied := x.occupied + 1 }
    | none => d

end Sys2Proof.Machine
end

