-- ==== Sys2Proof/Machine/Merge.lean ====
section
/-! DEFINITION. Background work on an index: merge passes (R96 to R98, R104), compaction (R95), rewrites (R108 to R110, R300),
settle sweeps (R81), tidies of the ID map (R87), and the release of what waits for a view. -/

namespace Sys2Proof.Machine

/-- Background work may run: the device is READY and not quiesced (R493, R498). -/
def Device.bgOk (d : Device) : Bool := d.ready && !d.quiesced

/-! ### Codes of a stored vector (R61, R64, R272, R300) -/

/-- A PQ code decoded through a codebook, exactly in FP32 (R300). -/
def pqDecode (cb : Codebook) (code : List Nat) : List F32 :=
  (List.zipWith (fun sub c => (sub.getD c []).map fun e => f32Of (fDecode fmtBF16 e)) cb code).flatten
/-- The codebook set of a generation. -/
def Index.book (x : Index) (gen : Nat) : Codebook := tget [] gen x.codebooks
/-- The centroid of a cell as FP32 values, none where the index has no centroids. -/
def Index.centroid (x : Index) (n : Nat) : Option (List F32) := if x.kind == .cell then (x.centroids[n]?).map formF32 else none
/-- The primary code of a vector in cell n under a generation (R61, R272). -/
def Index.codeFor (x : Index) (gen n : Nat) (xs : List F32) : List Nat :=
  if x.metric == .ham then (signSketch xs).map fun b => if b then 1 else 0
  else pqEncode (x.book gen) (match x.centroid n with | some c => residual xs c | none => xs)
/-- The refine code and norm stored for a decoded vector (R93, R272). -/
def Index.refineFor (x : Index) (xs : List F32) : Option VForm × F32 :=
  match x.refine with
  | none => (none, 0)
  | some f => let v := formOf f xs; (some v, if x.metric == .l2sq then formNorm v else 0)

/-! ### Choosing a cell (R98) -/

/-- Slots per cell (R78). -/
def maxSlots : Nat := 1048576

/-- A cell takes another slot. -/
def Cell.room (c : Cell) : Bool := !c.free.isEmpty || decide (c.nSlots < maxSlots)
/-- The slot the next vector takes: the lowest free one, else N_SLOTS (R97, R98). -/
def Cell.nextSlot (c : Cell) : Nat :=
  match c.free with
  | [] => c.nSlots
  | s :: t => t.foldl min s

/-- Cells in descending centroid key against a vector, ties to the lower number; a NaN score takes none (R98, R127). -/
def Index.cellOrder (x : Index) (xs : List F32) : List Nat :=
  let q := formOf x.centroidFmt xs
  let ks := x.centroids.zipIdx.filterMap fun p => (scoreKey (formScore x.metric q p.1)).map fun k => (k, p.2)
  (sortBy (fun a b => decide (b.1.toNat < a.1.toNat) || (a.1 == b.1 && decide (a.2 < b.2))) ks).map (·.2)

/-- The cell an entry goes to, if one can take it (R98). -/
def Index.targetCell (x : Index) (xs : List F32) : Option Nat :=
  match x.kind with
  | .cell => (x.cellOrder xs).find? fun n => (x.cell n).room
  | _ =>
    match (List.range x.nCells).find? fun n => !(x.cell n).free.isEmpty with
    | some n => some n
    | none => (List.range x.nCells).find? fun n => decide ((x.cell n).nSlots < maxSlots)

/-- The places a merge pass has chosen: batches by cell and slot block, each with its entries and slots in order; entries that
fail, with the cell concerned; and cells that must first be relocated. -/
structure Placing where
  x        : Index
  batches  : List ((Nat × Nat) × List (Nat × Nat)) := []
  fails    : List (Nat × Nat) := []
  relocate : List Nat := []
  /-- Free L-tier bytes that the relocations chosen so far leave (R97). -/
  space    : Nat
  deriving DecidableEq, Repr

/-- Bytes of an extent of cap blocks with its bitmap, refine and scale blocks (R97, R108). -/
def Index.extentBytes (x : Index) (cap : Nat) : Nat := roundUp 1792 (cap * x.blockLen) + tombLen cap + cap * (x.refBlock + x.scaleBlock)
/-- CAP_BLOCKS of the larger extent of R97. -/
def grownCap (cap : Nat) : Nat := min 16384 ((cap * 5 + 3) / 4)

/-- The place of one entry (R97, R98); `rel` says which views are released. -/
def Placing.step (rel : Nat → Bool) (p : Placing) (e : Nat × DeltaEntry) : Placing :=
  match p.x.targetCell (formF32 e.2.vec) with
  | none => { p with fails := p.fails ++ [(e.1, 0xFFFFFFFF)] }
  | some n =>
    let c := p.x.cell n
    if c.state == 2 || p.relocate.contains n then p
    else
      let s := c.nextSlot
      let key := (n, s / 64)
      if 64 * c.cur.capBlocks ≤ s then
        let need := p.x.extentBytes (grownCap c.cur.capBlocks)
        if p.fails.any (·.2 == n) || p.space < need then { p with fails := p.fails ++ [(e.1, n)] }
        else { p with relocate := p.relocate ++ [n], space := p.space - need }
      else
        let mine := p.batches.any (·.1 == key)
        if !mine && !rel (tget ({} : BlockHead) (s / 64) c.cur.blocks).freshView then p
        else
          let x := p.x.modCell n fun c => { c with free := c.free.filter (· != s), nSlots := max c.nSlots (s + 1) }
          { p with x := x, batches := if mine then p.batches.map fun b => if b.1 == key then (b.1, b.2 ++ [(e.1, s)]) else b
                                      else p.batches ++ [(key, [(e.1, s)])] }

/-! ### Applying a batch (R91, R96) -/

/-- A summary that takes a vector's words (R91). -/
def Summary.take (s : Summary) (ws : List W64) : Summary :=
  { s with orW := (s.orW.zipIdx).map fun p => p.1 ||| ws.getD p.2 0,
           andW := (s.andW.zipIdx).map fun p => if p.2 < ws.length then p.1 &&& ws.getD p.2 0 else p.1 }

/-- The summary of cell n after the NMA operations that add vectors' words to it. Where they are reported failed, since the header's row cannot be
corrected, SUMMARY_VALID is cleared (R91, R262). -/
def Device.summaryAfter (d : Device) (x : Index) (n : Nat) (s : Summary) (news : List (List W64)) : Summary :=
  if x.attrWords != 0 && d.uncorrectable (x.hdrBase + 256 * n + 128) (16 * x.attrWords) then { s with valid := false }
  else news.foldl Summary.take s

/-- The slot that a delta entry becomes in cell n (R96 step 1, R272). -/
def Index.slotOf (x : Index) (n : Nat) (e : DeltaEntry) : Slot :=
  let xs := formF32 e.vec
  let (r, nv) := x.refineFor xs
  { id := e.id, code := x.codeFor (x.cell n).cur.gen n xs, attrs := e.attrs, refine := r, norm := nv }

/-- The entry of a merged vector: merged at view v, and whether its recovery is to be reported (R96 step 4, R106, R398). -/
def DeltaEntry.merged (e : DeltaEntry) (v target slot : Nat) : DeltaEntry :=
  { e with endView := v, state := 4, target := target, slot := slot, failed := false }

/-- A delta entry takes its place: the entry is merged, the ID map moves, and a recovery is reported (R96, R398). -/
def Device.entryMerged (d : Device) (i ei v target slot : Nat) (l : Loc) : Device :=
  match (tfind i d.indexes).bind fun x => tfind ei x.delta with
  | none => d
  | some e =>
    let d1 := d.idMove i e.id l
    let d2 := (d1.modIndex i fun x => { x with delta := tset ei (e.merged v target slot) x.delta }).syncDelta i ei
    if e.reported then d2.defError e.fn 0x5002 e.sqid e.cid i e.logSeq e.id target else d2

/-- The traffic of an index's maintenance (R29, R30). -/
def Index.upkeep (x : Index) : Traffic := { burgee := x.burgee, pennant := 3 }
/-- What taking a vector from the delta segment moves: its entry is read, END_VIEW and STATE are written to both rings, and its ID map bucket is
rewritten (R85, R96, R105). -/
def Device.chargeMerged (d : Device) (x : Index) (e : Nat) : Device :=
  let t := x.upkeep
  let f := x.deltaFBase + e * x.deltaLen
  let b := (tfind e x.delta).elim 0 fun v => (idHash x.idMapBuckets v.id).2
  (((d.readFor t f x.deltaLen).chargeAt t f 32 true).chargeAt t (x.deltaLogBase + e * x.deltaLen) 32 true).chargeAt t (x.idMapBase + 256 * b) 256 true
/-- What a merge batch into a slot block of a cell moves, by delta entry and slot: each position's code, ID and attribute words and its refine code and
scale record, the tombstone, summary and N_LIVE updates of the NMA, and the block header (R96). -/
def Device.chargeBatch (d : Device) (x : Index) (n blk : Nat) (ps : List (Nat × Nat)) : Device :=
  let t := x.upkeep
  let s := (x.cell n).cur
  let b := s.slotBase + blk * x.blockLen
  let one := fun (d : Device) (p : Nat × Nat) =>
    let k := p.2 % 64
    let d1 := ((d.chargeMerged x p.1).chargeAt t (b + 64 + k * x.codeLen) x.codeLen true).chargeAt t (b + 64 + 64 * x.codeLen + 8 * k) 8 true
    let d2 := d1.chargeAt t (b + 576 + 64 * x.codeLen + 8 * x.attrWords * k) (8 * x.attrWords) true
    let d3 := if x.refine.isSome then d2.chargeAt t (s.refineBase + blk * x.refBlock + 64 + k * x.refLen) x.refLen true else d2
    let d4 := if x.scaleLen = 0 then d3 else d3.chargeAt t (s.scaleBase + blk * x.scaleBlock + 64 + k * x.scaleLen) x.scaleLen true
    d4.chargeNma t (1 + 2 * x.attrWords)
  ((ps.foldl one d).chargeNma t 2).chargeAt t b 64 true

/-- A merge batch into one slot block publishes its view (R96). -/
def Device.mergeBatch (d : Device) (i : Nat) (b : (Nat × Nat) × List (Nat × Nat)) : Device :=
  match tfind i d.indexes with
  | none => d
  | some x =>
    if !d.mayAdvance i then d.countWait i
    else
      let (n, blk) := b.1
      let v := nextView x.view
      let news := b.2.filterMap fun p => (tfind p.1 x.delta).map fun e => (p.1, p.2, x.slotOf n e)
      let x1 := x.modCell n fun c =>
        let slots := news.foldl (fun t p => tset p.2.1 p.2.2 t) c.cur.slots
        let ns := news.foldl (fun m p => max m (p.2.1 + 1)) c.nSlots
        let used := min 64 (ns - 64 * blk)
        { c with
          nSlots := ns, nLive := c.nLive + news.length, mergeView := v,
          free := c.free.filter fun s => !(news.any fun p => p.2.1 == s),
          summary := d.summaryAfter x n c.summary (news.map (·.2.2.attrs))
          cur := { c.cur with slots := slots, tombs := c.cur.tombs.filter fun s => !(news.any fun p => p.2.1 == s),
                              blocks := tset blk { used := used, freshMask := news.map fun p => p.2.1 % 64, freshView := v } c.cur.blocks } }
      let x2 := { x1 with nLive := x1.nLive + news.length }
      let d0 := d.chargeBatch x n blk (news.map fun p => (p.1, p.2.1))
      let d1 := (((d0.modIndex i fun _ => x2).syncBlock i n blk).syncTomb i n).syncCell i n
      let d2 := news.foldl (fun d p => d.entryMerged i p.1 v n p.2.1 (.slot n p.2.1)) d1
      d2.advanceView i

/-- An entry that cannot merge: MERGE_FAILED, and one MERGE_NO_SPACE record for its write (R97, R106, R398). -/
def Device.entryFailed (d : Device) (i ei target : Nat) : Device :=
  match (tfind i d.indexes).bind fun x => tfind ei x.delta with
  | none => d
  | some e =>
    let d1 := (d.modIndex i fun x => { x with delta := tset ei { e with failed := true, reported := true } x.delta }).syncDelta i ei
    if e.reported then d1 else d1.defError e.fn 0x5001 e.sqid e.cid i e.logSeq e.id target

/-- An entry unreadable in both rings: set deleted, its ID map entry vacated, ENTRY_LOST (R395). -/
def Device.entryLost (d : Device) (i ei : Nat) : Device :=
  match (tfind i d.indexes).bind fun x => (tfind ei x.delta).map fun e => (x, e) with
  | none => d
  | some (x, e) =>
    if e.state != 1 then d
    else
      let d1 := match x.lookup e.id with
        | some (b, p, _) => d.idVacate i b p
        | none => d
      let d2 := (d1.modIndex i fun y => { y with delta := tset ei { e with state := 2, endView := y.view } y.delta }).syncDelta i ei
      d2.defError e.fn 0x5003 e.sqid e.cid i e.logSeq e.id 0xFFFFFFFF

/-- Live delta entries in ascending LOG_SEQ (R98). -/
def Index.liveEntries (x : Index) : List (Nat × DeltaEntry) :=
  sortBy (fun a b => decide (a.2.logSeq < b.2.logSeq)) (x.delta.filter fun p => p.2.state == 1)

/-! ### Rewrites (R108 to R110) -/

/-- Step 1 of a relocation: the whole new extent from free L-tier space; none without it (R97, R108). -/
def Device.beginRelocation (d : Device) (i n newCap : Nat) : Device :=
  match tfind i d.indexes with
  | none => d
  | some x =>
    let bytes := x.extentBytes newCap
    if d.lFree < bytes || (x.cell n).state != 1 then d
    else match d.takeL (some x.burgee) bytes with
    | none => d
    | some (base, d0) => (d0.modIndex i fun x =>
      { x.modCell n fun c => { c with state := 2, rewrite := some { reencode := false, newCap := newCap, base := base, bytes := bytes, window := false } }
        with reserved := x.reserved + bytes }).syncCell i n

/-- Bytes of a unit's own extent that a re-encode copies (R108). -/
def Index.unitExtent (x : Index) (unit : Nat) : Nat :=
  if x.kind == .graph then 28672 else let c := (x.cell unit).cur; roundUp 1792 (c.capBlocks * x.blockLen) + tombLen c.capBlocks
/-- The unit that a re-encode takes next: the lowest one not under TARGET_GEN and not marked failed, while no other is being re-encoded (R209,
R299). -/
def Index.nextReencode (x : Index) : Option Nat :=
  let busy := fun (r : Option Rewrite) => r.any (·.reencode)
  if x.kind == .graph then
    if x.graph.groups.any fun p => busy p.2.rewrite then none
    else (List.range x.nCells).find? fun q => (tfind q x.graph.groups).any fun g => g.gen != x.targetGen && !g.failed
  else if x.cells.any fun p => busy p.2.rewrite then none
  else (List.range x.nCells).find? fun n => (x.cell n).cur.gen != x.targetGen && !(x.cell n).failed

/-- Step 1 of a re-encode of the unit whose turn it is: its extent from REWRITE_WINDOW, or for an oversized unit from free L-tier space while no
rewrite of the index holds window space; else it waits (R108, R299). -/
def Device.beginReencode (d : Device) (i unit : Nat) : Device :=
  match tfind i d.indexes with
  | none => d
  | some x =>
    let bytes := x.unitExtent unit
    let isOver := decide (x.rewriteWindow < bytes)
    let ok := if isOver then decide (bytes ≤ d.lFree) && x.windowUsed == 0 else decide (x.windowUsed + bytes ≤ x.rewriteWindow)
    if !ok || x.targetGen = x.liveGen || x.nextReencode != some unit then d
    else match d.takeL (some x.burgee) bytes with
    | none => d
    | some (base, d0) =>
      let w : Rewrite := { reencode := true, newCap := 0, base := base, bytes := bytes, window := !isOver }
      let grow := fun (x : Index) => if isOver then { x with reserved := x.reserved + bytes } else { x with windowUsed := x.windowUsed + bytes }
      if x.kind == .graph then
        match tfind unit x.graph.groups with
        | some g => if g.state != 1 then d
                    else (d0.modIndex i fun x => grow (x.modGroup unit fun g => { g with state := 2, rewrite := some w })).syncGroup i unit
        | none => d
      else if (x.cell unit).state != 1 then d
      else (d0.modIndex i fun x => grow (x.modCell unit fun c => { c with state := 2, rewrite := some w })).syncCell i unit

/-- The source value from which a re-encode makes a code (R300). -/
def Index.source (x : Index) (gen : Nat) (refine : Option VForm) (c : Option (List F32)) (code : List Nat) : List F32 :=
  match refine with
  | some v => match c with
    | some k => residual (formF32 v) k
    | none => formF32 v
  | none => pqDecode (x.book gen) code

/-- The L-tier space of a set of a cell: its slot blocks, its bitmap, and its refine and scale blocks where `own` says that no other copy has
them (R97, R108). -/
def Index.setRanges (x : Index) (s : CellSet) (own : Bool) : List (Nat × Nat) :=
  [(s.slotBase, roundUp 1792 (s.capBlocks * x.blockLen)), (s.tombBase, tombLen s.capBlocks)] ++
    (if own && x.refine.isSome then [(s.refineBase, s.capBlocks * x.refBlock)] else []) ++
    (if own && x.scaleLen != 0 then [(s.scaleBase, s.capBlocks * x.scaleBlock)] else [])

/-- The LIVE_GEN of an index all of whose units have been re-encoded becomes TARGET_GEN; the old set waits for the last cut-over's
view. A unit marked failed has not been re-encoded (R109, R209). -/
def Index.settleGen (x : Index) (v : Nat) : Index :=
  let done := if x.kind == .graph then x.graph.groups.all fun p => p.2.gen == x.targetGen
              else (List.range x.nCells).all fun n => (x.cell n).cur.gen == x.targetGen
  if done && x.targetGen != x.liveGen then
    { x with oldBook := some (x.liveGen, v), liveGen := x.targetGen, codebookLiveBase := x.codebookTargetBase,
             codebookTargetBase := x.codebookLiveBase }
  else x

/-- A cell after steps 2 to 4 of its rewrite: the new set current, the old one previous, CUT_VIEW = v (R108). The copy holds what
the old one holds, the catch-up list replayed. -/
def Index.cutCell (x : Index) (n v base : Nat) (r : Rewrite) : Index :=
  x.modCell n fun c =>
    let o := c.cur
    let cap := if r.reencode then o.capBlocks else r.newCap
    let slots := if !r.reencode || x.metric == .ham then o.slots
      else o.slots.map fun p => (p.1, { p.2 with code := pqEncode (x.book x.targetGen) (x.source o.gen p.2.refine (x.centroid n) p.2.code) })
    let tomb := base + roundUp 1792 (cap * x.blockLen)
    let ref := tomb + tombLen cap
    let live := slots.filter fun p => !o.tombs.contains p.1
    { c with
      state := 1, prev := some o, cutView := v, rewrite := none, prevBytes := r.bytes, prevWindow := r.window, skews := 0,
      summary := live.foldl (fun s p => s.take p.2.attrs) (emptySummary x.attrWords)
      cur := { o with
        gen := if r.reencode then x.targetGen else o.gen, seqBase := (o.seqBase + 32768) % 65536, capBlocks := cap, slots := slots,
        slotBase := base, tombBase := tomb,
        refineSeq := if r.reencode then o.refineSeq else (o.refineSeq + 32768) % 65536,
        refineBase := if r.reencode || x.refine.isNone then o.refineBase else ref,
        scaleBase := if r.reencode || x.scaleLen = 0 then o.scaleBase else ref + cap * x.refBlock } }

/-- A node group after steps 2 to 4 of its re-encode (R108). -/
def Index.cutGroup (x : Index) (q v base : Nat) (r : Rewrite) : Index :=
  x.modGroup q fun g => { g with
    state := 1, prev := some g.nodes, prevGen := g.gen, prevBase := g.curBase, curBase := base, gen := x.targetGen, cutView := v,
    rewrite := none, prevBytes := r.bytes, prevWindow := r.window, skews := 0,
    nodes := if x.metric == .ham then g.nodes
             else g.nodes.map fun p => (p.1, { p.2 with code := pqEncode (x.book x.targetGen) (x.source g.gen p.2.refine none p.2.code) }) }

/-- Steps 2 to 5 of a rewrite under way: copied, caught up, cut over and published, at pennant 2 for a re-encode and 3 for a relocation; its placement
entry becomes invalid (R30, R108, R114). It waits while the unit still has a previous copy: a unit names one (log entry 41). -/
def Device.finishRewrite (d : Device) (i unit : Nat) : Device :=
  match tfind i d.indexes with
  | none => d
  | some x =>
    let r := if x.kind == .graph then (tfind unit x.graph.groups).bind (·.rewrite) else (x.cell unit).rewrite
    match r with
    | none => d
    | some r =>
      let waits := if x.kind == .graph then (tfind unit x.graph.groups).any (·.prev.isSome) else (x.cell unit).prev.isSome
      if waits then d
      else if !d.mayAdvance i then d.countWait i
      else
        let v := nextView x.view
        let t : Traffic := { burgee := x.burgee, pennant := if r.reencode then 2 else 3 }
        let old := if x.kind == .graph then [((tfind unit x.graph.groups).elim 0 (·.curBase), 28672)] else x.setRanges (x.cell unit).cur (!r.reencode)
        let d0 := (old.foldl (fun d s => d.readFor t s.1 s.2) d).chargeAt t r.base r.bytes true
        let d1 := d0.unplace x unit 3
        let live := fun (d : Device) => match tfind i d.indexes with
          | some y => if y.liveGen = x.liveGen then d else d.syncBook i 0 y.liveGen
          | none => d
        if x.kind == .graph then
          let d2 := (d1.modIndex i fun x => (x.cutGroup unit v r.base r).settleGen v).syncNodes i unit
          (live (d2.syncGroup i unit)).advanceView i
        else
          let d2 := (d1.modIndex i fun x => (x.cutCell unit v r.base r).settleGen v)
          (live (((d2.syncSet i unit).syncTomb i unit).syncCell i unit)).advanceView i

/-- A write to a unit under rewrite joins its catch-up list; one that would overflow 4,096 records abandons the rewrite (R110). -/
def Device.catchUp (d : Device) (i unit : Nat) (r : CatchUp) : Device :=
  match tfind i d.indexes with
  | none => d
  | some x =>
    let add := fun (w : Rewrite) => { w with catchUp := w.catchUp ++ [r] }
    if x.kind == .graph then
      match (tfind unit x.graph.groups).bind (·.rewrite) with
      | none => d
      | some w => if 4096 ≤ w.catchUp.length then d.abandonRewrite i unit false
                  else d.modIndex i fun x => x.modGroup unit fun g => { g with rewrite := some (add w) }
    else
      match (x.cell unit).rewrite with
      | none => d
      | some w => if 4096 ≤ w.catchUp.length then d.abandonRewrite i unit false
                  else d.modIndex i fun x => x.modCell unit fun c => { c with rewrite := some (add w) }

/-! ### Building a graph (R101, R104) -/

/-- Neighbours chosen among candidates for a node y by a build score: candidates closer to y than to every one kept, then the rest in
order, up to 32 (R104 step 4). -/
def chooseNbrs (s : Nat → Nat → W32) (idOf : Nat → W64) (cands : List Nat) (y : Nat) : List Nat :=
  let order := (sortBy rankBefore (cands.map fun c => (s c y, idOf c, c))).map fun t => (t.2.2, t.1)
  let kept := order.foldl (fun (ks : List Nat) c =>
    if ks.length < 32 && ks.all fun n => decide ((s c.1 n).toNat < c.2.toNat) then ks ++ [c.1] else ks) []
  kept ++ ((order.map (·.1)).filter fun c => !kept.contains c).take (32 - kept.length)

/-- The vector the build score takes for a node: its refine code decoded, else its primary code through its generation's codebook
(R104). -/
def Index.nodeVec (x : Index) (n : Nat) : List F32 :=
  match x.graph.node? n with
  | none => []
  | some v => match v.refine with
    | some r => formF32 r
    | none => pqDecode (x.book ((tfind (n / 64) x.graph.groups).elim 0 (·.gen))) v.code
/-- The build score key of two nodes, where node m has the vector xs; a NaN score orders below every other (R104). -/
def Index.buildKey (x : Index) (m : Nat) (xs : List F32) (a b : Nat) : W32 :=
  let vec := fun n => if n = m then xs else x.nodeVec n
  (scoreKey (formScore x.metric (formOf .fp32 (vec a)) (formOf .fp32 (vec b)))).getD 0
/-- The sketch key of two nodes (R104 step 6 and HAM). -/
def Graph.sketchPair (g : Graph) (a b : Nat) : W32 :=
  match g.node? a, g.node? b with
  | some u, some v => (scoreKey (hammingScore u.sketch v.sketch)).getD 0
  | _, _ => 0
/-- The ID of a node; the filler ID where there is none. -/
def Graph.idOf (g : Graph) (n : Nat) : W64 := (g.node? n).elim fillerId (·.id)

/-- A neighbour list of a node at a level replaced. -/
def Index.setNbrs (x : Index) (n level : Nat) (ns : List Nat) : Index :=
  if level = 0 then x.modNode n fun v => { v with nbrs := ns }
  else match x.graph.node? n with
    | some v => { x with graph := { x.graph with uppers := tset (v.upper + level - 1) (n, level, ns) x.graph.uppers } }
    | none => x

/-- The edges of a new node on one level: its list, and itself in each neighbour's list (R101, R104 steps 4 and 5). -/
def Index.link (x : Index) (s : Nat → Nat → W32) (level new : Nat) (cands : List Nat) : Index :=
  let mine := chooseNbrs s x.graph.idOf cands new
  mine.foldl (fun x y =>
    let old := (x.graph.node? y).elim [] fun v => x.graph.nbrs v level
    x.setNbrs y level (if old.length < 32 then old ++ [new] else chooseNbrs s x.graph.idOf (old ++ [new]) y))
    (x.setNbrs new level mine)

/-- The score of a node on level 0: by sketch for HAM, else by its primary code, with the tables of its generation and a cell term of 0 (R63,
R134 step 3). -/
def Index.walkScore (x : Index) (q : List F32) (sk : List Bool) (gen : Nat) (v : Node) : F32 :=
  if x.metric == .ham then hammingScore sk (v.sketch.take sk.length) else pqScore (pqQuantise (pqTables x.metric (x.book gen) q)) v.code 0
/-- The key by which a node enters a beam (R134). -/
def Index.walkKey (x : Index) (q : List F32) (sk : List Bool) (gen : Nat) (v : Node) : Option W32 := scoreKey (x.walkScore q sk gen v)

/-- A delta entry placed as a graph node, seen from view v (R104); none where no node number is left, or no place in the structures that R116 reserves
(log entry 42). -/
def Device.placeNode (d : Device) (i v : Nat) (e : DeltaEntry) : Option (Nat × Device) :=
  match tfind i d.indexes with
  | none => none
  | some x =>
    let g := x.graph
    let n := g.nNodes
    let q := n / 64
    let lvl := nodeLevel e.id
    if 0xFFFFFFFE < n || x.maxGroups ≤ q || x.maxUppers < g.nUppers + lvl then none
    else
      let have_ := (tfind q g.groups).isSome
      let room := if have_ then some (0, d) else
        d.takeL (some x.burgee) 28672
      match room with
      | none => none
      | some (base, d0) =>
        let xs := formF32 e.vec
        let sk := (signSketch xs).take 1024
        let gen := (tfind q g.groups).elim x.targetGen (·.gen)
        let (r, nv) := x.refineFor xs
        let node : Node := { id := e.id, view := v, upper := if lvl = 0 then 0xFFFFFFFF else g.nUppers, level := lvl, nbrs := [],
                             sketch := sk, code := if x.metric == .ham then [] else pqEncode (x.book gen) xs, attrs := e.attrs,
                             refine := r, norm := nv }
        let groups := tmod ({ gen := gen, curBase := base } : Group) q
          (fun k => { k with nodes := tset (n % 64) node k.nodes, nNodes := n % 64 + 1 }) g.groups
        let uppers := (List.range lvl).foldl (fun t l => tset (g.nUppers + l) (n, l + 1, []) t) g.uppers
        let x1 := { x with nCells := if have_ then x.nCells else x.nCells + 1,
                           graph := { g with groups := groups, uppers := uppers, nNodes := n + 1, nUppers := g.nUppers + lvl } }
        let ham := x.metric == .ham
        let fuel := n + 1
        let linked :=
          if g.entry = 0xFFFFFFFF then x1
          else
            let w := g.viewAll
            let fin := fun m => (g.node? m).bind fun u => x.walkKey xs sk ((tfind (m / 64) g.groups).elim 0 (·.gen)) u
            let start := descend w sk fuel 1 g.top g.entry
            let beam := (runWalk w 0 128 512 16 sk fin start).beam.map (·.node)
            let s0 := if ham then x1.graph.sketchPair else x1.buildKey n xs
            let x2 := x1.link s0 0 n beam
            ((List.range (min lvl g.top)).reverse.map (· + 1)).foldl (fun x l =>
              let st := descend w sk fuel (l + 1) g.top g.entry
              let fl := fun m => (g.node? m).map (sketchKey sk)
              let b := (runWalk w l 32 512 32 sk fl st).beam.map (·.node)
              x.link x.graph.sketchPair l n b) x2
        let up := g.entry = 0xFFFFFFFF || g.top < lvl
        let x3 := if up then { linked with graph := { linked.graph with entry := n, top := lvl } } else linked
        some (n, d0.modIndex i fun _ => { x3 with nLive := x3.nLive + 1 })

/-- Every node, group and upper-layer block that a placed node touched is written (R101, R104). -/
def Device.syncPlaced (d : Device) (i n : Nat) : Device :=
  match tfind i d.indexes with
  | none => d
  | some x =>
    match x.graph.node? n with
    | none => d
    | some v =>
      let ups := (List.range v.level).map (v.upper + ·)
      let far := ups.flatMap fun b => (tfind b x.graph.uppers).elim [] fun u => u.2.2.filterMap fun m =>
        (x.graph.node? m).map fun k => k.upper + u.2.1 - 1
      let d0 := if n % 64 = 0 then d.syncNodes i (n / 64) else d
      let d1 := (v.nbrs ++ [n]).foldl (fun d m => d.syncNode i m) d0
      (((ups ++ far).eraseDups.foldl (fun d b => d.syncUpper i b) d1).syncGroup i (n / 64))

/-- Edges added to nodes whose groups are under rewrite join the groups' catch-up lists (R110). -/
def Device.catchEdges (d : Device) (i n : Nat) : Device :=
  match (tfind i d.indexes).bind fun x => (x.graph.node? n).map (·.nbrs) with
  | some ns => ns.foldl (fun d y => d.catchUp i (y / 64) (.edge y n)) d
  | none => d
/-- A delta entry merged as node n of an index, at view v (R104 steps 4 to 7); its traffic is charged (R251). -/
def Device.nodeMerged (d : Device) (i v n e : Nat) : Device :=
  match tfind i d.indexes with
  | none => d
  | some x => match x.graph.node? n with
    | none => d
    | some k =>
      let t := x.upkeep
      let at_ := fun m => (tfind (m / 64) x.graph.groups).elim 0 (·.curBase) + 448 * (m % 64)
      let d1 := (d.chargeMerged x e).chargeAt t (at_ n) 448 true
      let d2 := k.nbrs.foldl (fun (d : Device) m => (d.chargeNma t 1).chargeAt t (at_ m + 32) 128 true) d1
      let d3 := (List.range k.level).foldl (fun (d : Device) l => d.chargeAt t (x.graphAuxBase + 448 * (k.upper + l)) 448 true) d2
      (((d3.chargeNma t 1).catchEdges i n).syncPlaced i n).entryMerged i e v n 0xFFFFFFFF (.node n)
/-- The entries of a GRAPH merge placed in turn; the first whose node would lie in a group under rewrite is deferred, with those after it (R104,
R110). -/
def Device.placeAll (i v : Nat) : List (Nat × DeltaEntry) → Device → Device
  | [], d => d
  | p :: ps, d =>
    if (tfind i d.indexes).any fun x => (tfind (x.graph.nNodes / 64) x.graph.groups).any fun g => g.state == 2 then d
    else match d.placeNode i v p.2 with
      | none => Device.placeAll i v ps (d.entryFailed i p.1 0xFFFFFFFF)
      | some (n, d') => Device.placeAll i v ps (d'.nodeMerged i v n p.1)
/-- The blocks of a node, of level 0 and above, written. -/
def Device.syncEntry (d : Device) (i n : Nat) : Device :=
  match (tfind i d.indexes).bind fun x => x.graph.node? n with
  | some v => (List.range v.level).foldl (fun d l => d.syncUpper i (v.upper + l)) (d.syncNode i n)
  | none => d
/-- A merge pass into a GRAPH index: its entries one at a time, published together; an entry node that another replaces loses its ENTRY flag (R100,
R104). -/
def Device.graphPass (d : Device) (i : Nat) (es : List (Nat × DeltaEntry)) : Device :=
  match tfind i d.indexes with
  | none => d
  | some x =>
    if es.isEmpty then d
    else if !d.mayAdvance i then d.countWait i
    else
      let d1 := Device.placeAll i (nextView x.view) es d
      match tfind i d1.indexes with
      | none => d1
      | some y =>
        if y.graph.nNodes = x.graph.nNodes then d1
        else (if y.graph.entry = x.graph.entry then d1 else d1.syncEntry i x.graph.entry).advanceView i

/-! ### The commands -/

/-- MERGE_PASS: one pass over an index's live delta entries; `lost` are entries unreadable in both rings (R96 to R98, R104, R395). -/
def mergePassEff (i : Nat) (lost : List Nat) (d : Device) : Device :=
  if !d.bgOk || (d.index? i).isNone then d
  else
    let d1 := lost.foldl (fun d e => d.entryLost i e) d
    match d1.index? i with
    | none => d1
    | some x =>
      if x.kind == .graph then d1.graphPass i x.liveEntries
      else
        let p := x.liveEntries.foldl (Placing.step (fun v => d1.mergeReleased i v)) { x := x, space := d1.lFree }
        let d2 := p.batches.foldl (fun d b => d.mergeBatch i b) d1
        let d3 := p.fails.foldl (fun d f => d.entryFailed i f.1 f.2) d2
        p.relocate.foldl (fun d n => d.beginRelocation i n (grownCap (x.cell n).cur.capBlocks)) d3

/-- COMPACTION_PASS: a cell's tombstoned slots are recorded with the present view (R95). -/
def compactionPassEff (i n : Nat) (d : Device) : Device :=
  match d.index? i with
  | some x =>
    let c := x.cell n
    let known := c.free ++ c.compact.flatMap (·.2)
    let new := c.cur.tombs.filter fun s => !known.contains s
    if !d.bgOk || x.kind == .graph || x.nCells ≤ n || new.isEmpty then d
    else d.modIndex i fun x => x.modCell n fun c => { c with compact := c.compact ++ [(x.view, new)] }
  | none => d
/-- The meaning of COMPACTION_PASS. -/
def execCompactionPass (i n : Nat) (s : State) : Host.Outcome State Fault Refusal := onDev (compactionPassEff i n) s

/-- SLOT_FREE_RELEASE: recorded slots whose view is released become free (R95). -/
def slotFreeReleaseEff (i n : Nat) (d : Device) : Device :=
  match d.index? i with
  | some x =>
    if (x.cell n).compact.isEmpty then d
    else d.modIndex i fun x => x.modCell n fun c =>
      let (out, rest) := c.compact.partition fun p => d.released i p.1
      { c with compact := rest, free := c.free ++ out.flatMap (·.2) }
  | none => d
/-- The meaning of SLOT_FREE_RELEASE. -/
def execSlotFreeRelease (i n : Nat) (s : State) : Host.Outcome State Fault Refusal := onDev (slotFreeReleaseEff i n) s

/-- The rewrites of an index are held back by shedding step 2 (R420). -/
def Device.shedHolds (d : Device) : Bool := decide (2 ≤ d.mgmt.shed.steps)

/-- REWRITE: a re-encode or a relocation begins, finishes, or both (R108); new extents of a relocation have `newCap` blocks. -/
def rewriteEff (i unit : Nat) (part : RewritePart) (reencode : Bool) (newCap : Nat) (d : Device) : Device :=
  match d.index? i with
  | none => d
  | some x =>
    if !d.bgOk then d
    else
      let begin_ := fun (d : Device) =>
        if reencode then if d.shedHolds then d else d.beginReencode i unit
        else if x.kind == .graph || x.nCells ≤ unit || newCap < (x.cell unit).cur.capBlocks || 16384 < newCap then d
        else d.beginRelocation i unit newCap
      match part with
      | .begins => begin_ d
      | .finishes => d.finishRewrite i unit
      | .whole => (begin_ d).finishRewrite i unit
/-- The meaning of REWRITE. -/
def execRewrite (i unit : Nat) (part : RewritePart) (reencode : Bool) (newCap : Nat) (s : State) :
    Host.Outcome State Fault Refusal := onDev (rewriteEff i unit part reencode newCap) s

/-- PREV_COPY_FREE: once CUT_VIEW is released the previous copy is freed (R108 step 6). -/
def prevCopyFreeEff (i unit : Nat) (d : Device) : Device :=
  match tfind i d.indexes with
  | none => d
  | some x =>
    let back := fun (x : Index) (bytes : Nat) (window : Bool) =>
      if window then { x with windowUsed := x.windowUsed - bytes } else { x with reserved := x.reserved - bytes }
    if x.kind == .graph then
      match tfind unit x.graph.groups with
      | some g => if g.prev.isNone || !d.released i g.cutView then d
                  else ((d.freeL g.prevBase 28672).modIndex i fun x => back (x.modGroup unit fun g =>
                    { g with prev := none, prevBase := 0, prevBytes := 0, prevWindow := false }) g.prevBytes g.prevWindow).syncGroup i unit
      | none => d
    else
      let c := x.cell unit
      match c.prev with
      | none => d
      | some p =>
        if !d.released i c.cutView then d
        else
          let space := x.setRanges p (p.refineBase != c.cur.refineBase)
          let old := if c.prevWindow then c.prevBytes else lsum (space.map (·.2))
          ((space.foldl (fun d s => d.freeL s.1 s.2) d).modIndex i fun x => back (x.modCell unit fun c =>
            { c with prev := none, prevBytes := 0, prevWindow := false }) old c.prevWindow).syncCell i unit
/-- The meaning of PREV_COPY_FREE. -/
def execPrevCopyFree (i unit : Nat) (s : State) : Host.Outcome State Fault Refusal := onDev (prevCopyFreeEff i unit) s

/-- REWRITE_RETRY: 10 ms after it was abandoned, a re-encode begins again (R110, R209). -/
def rewriteRetryEff (i unit : Nat) (d : Device) : Device :=
  match d.index? i with
  | none => d
  | some x =>
    let (at_, failed) := if x.kind == .graph then ((tfind unit x.graph.groups).bind (·.retryAt), (tfind unit x.graph.groups).any (·.failed))
               else ((x.cell unit).retryAt, (x.cell unit).failed)
    match at_ with
    | none => d
    | some t =>
      if failed || !d.bgOk then d
      else
        let d1 := (d.by t).modIndex i fun x =>
          if x.kind == .graph then x.modGroup unit fun g => { g with retryAt := none } else x.modCell unit fun c => { c with retryAt := none }
        if x.targetGen != x.liveGen then d1.beginReencode i unit
        else if x.kind == .graph then d1
        else d1.beginRelocation i unit (grownCap (x.cell unit).cur.capBlocks)
/-- The meaning of REWRITE_RETRY. -/
def execRewriteRetry (i unit : Nat) (s : State) : Host.Outcome State Fault Refusal := onDev (rewriteRetryEff i unit) s

/-- CODEBOOK_FREE: the old codebook set is freed once the last cut-over's view is released, and a pending set becomes the next target
(R109, R299). -/
def codebookFreeEff (i : Nat) (d : Device) : Device :=
  match tfind i d.indexes with
  | none => d
  | some x => match x.oldBook with
    | some (gen, v) => 
      if d.released i v then
        let d1 := d.modIndex i fun x => { x with oldBook := none, codebooks := tdel gen x.codebooks }
        if x.pendingGen = 0 then d1.syncFixed i 2 0
        else ((d1.modIndex i fun x => { x with targetGen := x.pendingGen, pendingGen := 0 }).syncBook i 1 x.pendingGen).syncRecord i
      else d
    | none => d
/-- The meaning of CODEBOOK_FREE. -/
def execCodebookFree (i : Nat) (s : State) : Host.Outcome State Fault Refusal := onDev (codebookFreeEff i) s

/-- A set of a cell whose released FRESH_VIEWs have been written 0, with their masks (R81). -/
def CellSet.settle (merge : Nat → Bool) (s : CellSet) : CellSet :=
  { s with blocks := s.blocks.map fun p => if merge p.2.freshView then (p.1, { p.2 with freshView := 0, freshMask := [] }) else p }
/-- Nodes whose released NODE_VIEWs have been written 0 (R81). -/
def settleNodes (rel : Nat → Bool) (ns : Tab Node) : Tab Node := ns.map fun q => (q.1, { q.2 with view := if rel q.2.view then 0 else q.2.view })
/-- A cell whose released view fields have been written 0 (R81). -/
def Cell.settle (rel merge : Nat → Bool) (c : Cell) : Cell :=
  { c with
    cutView := if c.prev.isNone && rel c.cutView then 0 else c.cutView
    mergeView := if merge c.mergeView then 0 else c.mergeView
    cur := c.cur.settle merge
    prev := c.prev.map fun s => s.settle merge }

/-- SETTLE_SWEEP: one pass over an index writes released view fields 0, in its previous copies too, and SET_VIEW of a valid placement entry
(R81). -/
def settleSweepEff (i : Nat) (d : Device) : Device :=
  match d.index? i with
  | none => d
  | some x =>
    if !d.bgOk then d
    else
      let rel := fun v => d.released i v
      let groups := x.graph.groups.map fun p => (p.1, { p.2 with
        cutView := if p.2.prev.isNone && rel p.2.cutView then 0 else p.2.cutView
        nodes := settleNodes rel p.2.nodes, prev := p.2.prev.map (settleNodes rel) })
      let merge := fun v => d.mergeReleased i v
      let delta := x.delta.map fun p => (p.1, if p.2.state != 1 && (if p.2.state = 4 then merge else rel) p.2.endView then { p.2 with endView := 0 } else p.2)
      let x1 := { x with cells := x.cells.map fun p => (p.1, p.2.settle rel merge), delta := delta,
                         graph := { x.graph with groups := groups }, sweepFrom := x.view }
      let d1 := d.modIndex i fun _ => x1
      let d2 := x1.cells.foldl (fun d p => ((p.2.cur :: p.2.prev.toList).foldl (fun d s => s.blocks.foldl (fun d b => d.putBlock x1 p.1 b.1 s) d) d).syncCell
        i p.1) d1
      let old := fun (d : Device) (p : Nat × Group) => p.2.prev.elim d fun ns => ns.foldl (fun d q =>
        d.memWrite (p.2.prevBase + 448 * q.1) (x1.nodeBlock (x1.graph.entry == 64 * p.1 + q.1) q.2)) d
      let d3 := x1.graph.groups.foldl (fun d p => (old (p.2.nodes.foldl (fun d q => d.syncNode i (64 * p.1 + q.1)) d) p).syncGroup i p.1) d2
      let d3 := x1.graph.uppers.foldl (fun d p => d.syncUpper i p.1) d3
      let d4 := x1.delta.foldl (fun d p => d.syncDelta i p.1) d3
      let stale := (d4.burgee x.burgee).placed.filter fun p =>
        p.index == i && p.valid && decide (p.kind ≤ 2) && x1.cutViewOf p.unit != x.cutViewOf p.unit
      stale.foldl (fun d p => d.mapEntry x1 p.unit p.fAddr (x1.cutViewOf p.unit) 2 p.kind) d4
/-- The meaning of SETTLE_SWEEP. -/
def execSettleSweep (i : Nat) (s : State) : Host.Outcome State Fault Refusal := onDev (settleSweepEff i) s

/-- The run of buckets that holds a bucket: consecutive ones without an empty entry, and the one that follows (R87). -/
def Index.runFrom (x : Index) : Nat → Nat → List Nat
  | 0, _ => []
  | fuel + 1, b => b :: (if x.bucketOpen b then [] else x.runFrom fuel ((b + 1) % x.idMapBuckets))
/-- The first bucket of the run that a bucket lies in: back over the buckets before it that hold no empty entry (R87). -/
def Index.runStart (x : Index) : Nat → Nat → Nat
  | 0, b => b
  | fuel + 1, b =>
    let p := (b + x.idMapBuckets - 1) % x.idMapBuckets
    if x.bucketOpen p then b else x.runStart fuel p

/-- ID_MAP_TIDY: the run of a bucket is rewritten so that its vacated entries become empty (R87). -/
def idMapTidyEff (i b : Nat) (d : Device) : Device :=
  match d.index? i with
  | none => d
  | some x =>
    if !d.bgOk || x.idMapBuckets ≤ b then d
    else
      let first := x.runStart x.idMapBuckets b
      let run := x.runFrom x.idMapBuckets first
      let words := run.flatMap fun k => (List.range 32).map fun p => x.idEntry k p
      if !(words.any fun w => (idLoc w).isNone && !idEmpty w) then d
      else
        let place := fun (w : W64) => (idLoc w).bind fun l => (x.idAt l).map fun id =>
          let home := (idHash x.idMapBuckets id).2
          ((home + x.idMapBuckets - first) % x.idMapBuckets, w)
        let es := sortBy (fun (a b : Nat × W64) => decide (a.1 < b.1)) (words.filterMap place)
        -- positions of the run in probe order, filled one by one
        let filled := es.foldl (fun (t : Tab W64) e =>
          let lo := 32 * (e.1 % x.idMapBuckets)
          match ((List.range (32 * run.length)).drop lo ++ (List.range (32 * run.length)).take lo).find? fun p => (tfind p t).isNone with
          | some p => tset p e.2 t
          | none => t) []
        let maps := run.zipIdx.foldl (fun (m : Tab (Tab W64)) r =>
          let t := (List.range 32).filterMap fun p => (tfind (32 * r.2 + p) filled).map fun w => (p, w)
          if t.isEmpty then tdel r.1 m else tset r.1 t m) x.idMap
        run.foldl (fun d k => d.syncBucket i k) (d.modIndex i fun x => { x with idMap := maps })
/-- The meaning of ID_MAP_TIDY. -/
def execIdMapTidy (i b : Nat) (s : State) : Host.Outcome State Fault Refusal := onDev (idMapTidyEff i b) s

/-- DELTA_TAIL past consecutive entries that are not live and whose END_VIEW is released (R106). -/
def Index.tailPast (x : Index) (gone : DeltaEntry → Bool) : Nat → Nat → Nat
  | 0, t => t
  | fuel + 1, t =>
    if t = x.deltaHead then t
    else match tfind t x.delta with
      | some e => if e.state != 1 && gone e then x.tailPast gone fuel ((t + 1) % x.deltaEntries) else t
      | none => x.tailPast gone fuel ((t + 1) % x.deltaEntries)

/-- DELTA_TAIL_ADVANCE: the tail moves over released entries, which become free (R105, R106). -/
def deltaTailAdvanceEff (i : Nat) (d : Device) : Device :=
  match d.index? i with
  | none => d
  | some x =>
    let t := x.tailPast (d.endReleased i) (x.delta.length + 1) x.deltaTail
    if t = x.deltaTail then d
    else
      let n := (t + x.deltaEntries - x.deltaTail) % x.deltaEntries
      let gone := (List.range n).map fun k => (x.deltaTail + k) % x.deltaEntries
      let d1 := d.modIndex i fun x => { x with deltaTail := t, delta := x.delta.filter fun p => !gone.contains p.1 }
      (gone.foldl (fun d e => d.syncDelta i e) d1).syncRecord i
/-- The meaning of DELTA_TAIL_ADVANCE. -/
def execDeltaTailAdvance (i : Nat) (s : State) : Host.Outcome State Fault Refusal := onDev (deltaTailAdvanceEff i) s

end Sys2Proof.Machine
end

