-- ==== Sys2Proof/Machine/Placement.lean ====
section
/-! DEFINITION. The placement loop: which cells and node groups hold F-tier copies (R111 to R115, R334 to R336). -/

namespace Sys2Proof.Machine

/-- A unit of a burgee as the loop ranks it: its index, kind, number, heat and value (R335). -/
structure Ranked where
  index : Nat
  kind  : Nat
  unit  : Nat
  heat  : Nat
  value : Nat
  bytes : Nat
  deriving DecidableEq, Repr

/-- Ranking order: descending value, then ascending kind, number and index (R335). -/
def Ranked.before (a b : Ranked) : Bool :=
  if a.value != b.value then decide (b.value < a.value)
  else if a.kind != b.kind then decide (a.kind < b.kind)
  else if a.unit != b.unit then decide (a.unit < b.unit)
  else decide (a.index < b.index)

/-- The kind in which a unit of an index is held or, not placed, would be placed (R335). -/
def Device.kindOf (d : Device) (x : Index) (unit : Nat) : Nat :=
  if x.kind == .graph then (d.placed? x unit).elim 2 (·.kind) else 0

/-- The units of a burgee that have heat or a copy, ranked (R335). -/
def Device.ranked (d : Device) (b : Nat) : List Ranked :=
  let hot : List (Nat × Nat) := d.heat.map fun h => (h.index, h.unit)
  let held : List (Nat × Nat) := (d.burgee b).placed.filterMap fun p => if p.kind ≤ 2 then some (p.index, p.unit) else none
  let us := (hot ++ held).eraseDups
  sortBy Ranked.before (us.filterMap fun iu =>
    match d.index? iu.1 with
    | none => none
    | some x =>
      if x.burgee != b then none
      else
        let h := match d.heat.find? (fun (h : Heat) => h.index == iu.1 && h.unit == iu.2) with
          | some h => h.probes + h.prev / 2
          | none => 0
        let k := d.kindOf x iu.2
        let n := x.unitBytes k iu.2
        some { index := iu.1, kind := k, unit := iu.2, heat := h, value := h * 0x100000 / n, bytes := n })

/-- A probe counted for a unit, in its heat and in its placement map entry, stopping at 0xFFFF (R113, R335). -/
def Device.probe (d : Device) (x : Index) (unit : Nat) : Device :=
  let kind := if x.kind == .graph then 2 else 0
  let h := (d.heat.find? fun h => h.index == x.indexNo && h.unit == unit).getD ⟨x.indexNo, kind, unit, 0, 0⟩
  let p := satAdd 0xFFFF h.probes 1
  let d1 := { d with heat := d.heat.filter (fun (h : Heat) => !(h.index == x.indexNo && h.unit == unit)) ++ [{ h with probes := p }] }
  d1.memWrite (x.placementBase + 16 * unit + 14) (leBytes 2 p)

/-- The units to evict so that an unplaced one fits: the lowest-ranked placed units whose value it exceeds twice, while they
are needed; none where it would still not fit (R335). -/
def roomFor (quota used : Nat) (u : Ranked) : List Ranked → Option (Nat × List Ranked)
  | [] => if used + u.bytes ≤ quota then some (used, []) else none
  | p :: ps =>
    if used + u.bytes ≤ quota then some (used, [])
    else if 2 * p.value < u.value then (roomFor quota (used - p.bytes) u ps).map fun r => (r.1, p :: r.2)
    else none

/-- The loop's marks: the placed units that stay, highest-ranked first, and the units to fill (R335). -/
def markUnits (quota : Nat) : List Ranked → Nat → List Ranked → List Ranked → List Ranked × List Ranked
  | [], _, keep, fill => (keep, fill)
  | u :: us, used, keep, fill =>
    match roomFor quota used u keep.reverse with
    | none => (keep, fill)
    | some (used', out) => markUnits quota us (used' + u.bytes) (keep.filter fun p => !out.contains p) (fill ++ [u])

/-- The placed units that fit a quota, from the highest rank down (R334). -/
def fitQuota (quota : Nat) : List Ranked → Nat → List Ranked
  | [], _ => []
  | u :: us, used => if used + u.bytes ≤ quota then u :: fitQuota quota us (used + u.bytes) else fitQuota quota us used

/-- A fill begins: space is taken and the entry reads filling (R113, R336). -/
def Device.beginFill (d : Device) (b : Nat) (r : Ranked) (kind : Nat) : Device :=
  match d.index? r.index with
  | none => d
  | some x =>
    let n := x.unitBytes kind r.unit
    match d.takeF (some b) n with
    | none => d
    | some (a, d1) =>
      (d1.modBurgee b fun g => { g with placed := g.placed ++
        [{ index := r.index, kind := kind, unit := r.unit, fAddr := a, bytes := n, valid := false, fromView := 0 }] }).mapEntry x
        r.unit a 0 1 kind

/-- A unit's copy leaves: an eviction sets its entry absent (R336). -/
def Device.evict (d : Device) (r : Ranked) : Device :=
  match d.index? r.index with
  | none => d
  | some x => { d.unplace x r.unit 0 with devCnt := { d.devCnt with evictions := d.devCnt.evictions + 1 } }

/-- PLACEMENT_PERIOD_END: a burgee's placement period ends: heat is taken, units are ranked, and fills and evictions begin
unless shedding holds them (R334 to R336). -/
def placementPeriodEndEff (b : Nat) (d : Device) : Device :=
  if !d.ready || !(d.burgee b).enabled then d
  else
    let g := d.burgee b
    let d0 := d.by (g.periodAt + g.period * 1000000)
    let quota := g.quota * 0x10000000
    let all := d0.ranked b
    let isPlaced := fun (r : Ranked) => g.placed.any fun p => p.index == r.index && p.unit == r.unit && decide (p.kind ≤ 2)
    let placed := all.filter isPlaced
    let stay := fitQuota quota (placed.filter fun r => r.value != 0) 0
    let (keep, fill) := markUnits quota (all.filter fun r => !isPlaced r && r.value != 0) (lsum (stay.map (·.bytes))) stay []
    let out := placed.filter fun r => !keep.contains r
    let rank := sortBy Ranked.before (keep ++ fill)
    let top := rank.take (rank.length / 4)
    let grow := keep.filter fun r => r.kind == 2 && top.contains r
    let mine := fun (h : Heat) => (d0.index? h.index).elim false fun x => x.burgee == b
    let cooled := d0.heat.filterMap fun h =>
      let v := h.probes + h.prev / 2
      if !mine h then some h else if v = 0 then none else some { h with probes := 0, prev := v }
    let d1 := { d0 with heat := cooled }
    let d2 := (d0.heat.filter mine).foldl (fun d h => match d.index? h.index with
      | some x => d.memWrite (x.placementBase + 16 * h.unit + 14) (leBytes 2 0)
      | none => d) d1
    let d3 := d2.modBurgee b fun g => { g with periodAt := d0.now }
    if d3.shedHolds || d3.quiesced || d3.frozen then d3
    else
      let d4 := (out ++ grow).foldl Device.evict d3
      let d5 := grow.foldl (fun d r => d.beginFill b r 1) d4
      fill.foldl (fun d r => d.beginFill b r (if r.kind == 2 && top.contains r then 1 else r.kind)) d5
/-- The meaning of PLACEMENT_PERIOD_END. -/
def execPlacementPeriodEnd (b : Nat) (s : State) : Host.Outcome State Fault Refusal := onDev (placementPeriodEndEff b) s

/-- The units of an index that its placement map counts before the entries of its fixed copies (R113). -/
def Index.units (x : Index) : Nat := if x.kind == .graph then x.maxGroups else x.nCells
/-- The upper-layer blocks, or a codebook set, of an index are copied again and their entry k past the units is valid: they are always placed, so one
that a write has made invalid is filled anew (R114, R334). -/
def Device.fillFixed (d : Device) (x : Index) (k : Nat) : Device :=
  let put := fun (d : Device) (src a : Nat) (bs : List Byte) =>
    ((d.readFor x.upkeep src bs.length).chargeAt x.upkeep a bs.length true).memWrite a bs
  let up := fun (d : Device) (u : Option UpperCopy) => u.elim d fun u => put d u.addr u.fSlot (u.block ++ u.trailer)
  let d1 :=
    if k = 0 then x.cgraph.uppers.foldl (fun d p => up d (x.centroidUpper p.1)) (x.graph.uppers.foldl (fun d p => up d (x.upperCopy p.1)) d)
    else
      let (src, gen) := if k = 1 then (x.codebookLiveBase, x.liveGen) else (x.codebookTargetBase, x.targetGen)
      match tfind gen x.codebooks with
      | some cb => put d src (x.deltaFBase + x.fParts.getD (k + 1) 0) (x.bookBytes gen cb)
      | none => d
  let d2 := d1.memWrite (x.fixedEntry k 2).1 (x.fixedEntry k 2).2
  { d2 with devCnt := { d2.devCnt with fills := d2.devCnt.fills + 1 } }

/-- PLACEMENT_FILL_DONE: the unit's bytes are in the F-tier and its entry becomes valid; so does one of the entries past the units that a write has
made invalid (R114, R334, R336). -/
def placementFillDoneEff (i unit : Nat) (d : Device) : Device :=
  match d.index? i with
  | none => d
  | some x => match d.placed? x unit with
    | none =>
      let k := unit - x.units
      if x.units ≤ unit && decide (k ≤ 2) && d.ready && d.fixedState x k == 3 && !d.shedHolds && !d.quiesced && !d.frozen then d.fillFixed x k else d
    | some p =>
      if !d.ready || p.valid || d.shedHolds || d.quiesced || d.frozen then d
      else
        let bs := x.unitForm p.kind unit
        let d1 := (((x.copyParts p).foldl (fun d s => d.readFor x.upkeep s.1 s.2.1) d).chargeAt x.upkeep p.fAddr bs.length true).memWrite p.fAddr bs
        let d2 := d1.modBurgee x.burgee fun g => { g with placed := g.placed.map fun q =>
          if q == p then { q with valid := true, fromView := x.view } else q }
        let d3 := d2.mapEntry x unit p.fAddr (x.cutViewOf unit) 2 p.kind
        { d3 with devCnt := { d3.devCnt with fills := d3.devCnt.fills + 1 } }
/-- The meaning of PLACEMENT_FILL_DONE. -/
def execPlacementFillDone (i unit : Nat) (s : State) : Host.Outcome State Fault Refusal := onDev (placementFillDoneEff i unit) s

/-- PLACEMENT_SPACE_RELEASE: the space of a left entry returns to the pool once its view is released (R115). -/
def placementSpaceReleaseEff (b fAddr : Nat) (d : Device) : Device :=
  match (d.burgee b).left.find? (·.fAddr == fAddr) with
  | none => d
  | some l =>
    if d.released l.index l.view || (tfind l.index d.indexes).isNone then
      (d.modBurgee b fun g => { g with left := g.left.filter (· != l) }).freeF fAddr
    else d
/-- The meaning of PLACEMENT_SPACE_RELEASE. -/
def execPlacementSpaceRelease (b fAddr : Nat) (s : State) : Host.Outcome State Fault Refusal := onDev (placementSpaceReleaseEff b fAddr) s

end Sys2Proof.Machine
end

