-- ==== Sys2Proof/Machine/Operands.lean ====
section
/-! DEFINITION. The operand forms of requests: buffers and buffer descriptor lists (R380), and the fields of an admin request (R406). -/

namespace Sys2Proof.Machine

/-! ### Buffers (R380) -/

/-- The walk of a buffer descriptor list from an address on: its data segments, or a status. `n` descriptors have been read. -/
def bdlWalk : List (List Byte) → Nat → Nat → List (Nat × Nat) → Except Nat (List (Nat × Nat))
  | [], _, n, _ => .error (if 256 ≤ n then stInvalidBuffer else stHostAccess)
  | b :: bs, pos, n, acc =>
    let addr := fieldAt b 0 8
    let len := fieldAt b 8 4
    let fl := fieldAt b 12 4
    if 256 ≤ n || 4 ≤ fl then .error stInvalidBuffer
    else if fl.testBit 1 then
      if fl.testBit 0 || pos % 64 != 48 || addr % 64 != 0 then .error stInvalidBuffer else bdlWalk bs addr (n + 1) acc
    else if addr % 4 != 0 then .error stInvalidBuffer
    else if fl.testBit 0 then .ok (acc ++ [(addr, len)])
    else if len % 4 != 0 then .error stInvalidBuffer
    else bdlWalk bs (pos + 16) (n + 1) (acc ++ [(addr, len)])

/-- A buffer's segments: contiguous, or those of its list, whose data must come to the length for an input buffer and to at least
it for an output buffer (R380). -/
def segsOf (bdl input : Bool) (addr len : Nat) (list : List (List Byte)) : Except Nat (List (Nat × Nat)) :=
  if len = 0 then .ok []
  else if !bdl then .ok [(addr, len)]
  else if addr % 64 != 0 then .error stInvalidBuffer
  else match bdlWalk list addr 0 [] with
    | .error e => .error e
    | .ok ss =>
      let total := lsum (ss.map (·.2))
      if (if input then total == len else len ≤ total) then .ok ss else .error stInvalidBuffer

/-- Bytes cut along segments, each piece with its address; what exceeds the segments is dropped. -/
def cutSegs : List (Nat × Nat) → List Byte → List (Nat × List Byte)
  | [], _ => []
  | (a, n) :: ss, bs => if bs.isEmpty then [] else (a, bs.take n) :: cutSegs ss (bs.drop n)
/-- Segments without their first n bytes. -/
def dropSegs : Nat → List (Nat × Nat) → List (Nat × Nat)
  | _, [] => []
  | n, (a, l) :: ss => if n < l then (a + n, l - n) :: ss else dropSegs (n - l) ss

/-! ### Admin requests (R406) -/

/-- The fields of an admin request (R406). -/
structure AdminReq where
  /-- OPCODE. -/
  op       : Nat
  /-- AFLAGS. -/
  flags    : Nat
  /-- TARGET. -/
  target   : Nat
  /-- DATA_ADDR. -/
  dataAddr : Nat
  /-- DATA_LEN. -/
  dataLen  : Nat
  /-- OUT_LEN. -/
  outLen   : Nat
  /-- OUT_ADDR. -/
  outAddr  : Nat
  /-- PARAMS. -/
  p        : List Byte
  deriving DecidableEq, Repr

/-- The request that 64 bytes hold (R406). -/
def adminReq (bs : List Byte) : AdminReq :=
  { op := fieldAt bs 0 2, flags := fieldAt bs 4 1, target := fieldAt bs 6 2, dataAddr := fieldAt bs 8 8, dataLen := fieldAt bs 16 4,
    outLen := fieldAt bs 20 4, outAddr := fieldAt bs 24 8, p := bs.drop 32 }
/-- DATA_BDL (R406). -/
def AdminReq.dataBdl (r : AdminReq) : Bool := r.flags.testBit 0
/-- STAGED (R406). -/
def AdminReq.staged (r : AdminReq) : Bool := r.flags.testBit 1
/-- OUT_BDL (R406). -/
def AdminReq.outBdl (r : AdminReq) : Bool := r.flags.testBit 2
/-- A little-endian field of PARAMS, by its offset in PARAMS. -/
def AdminReq.param (r : AdminReq) (off n : Nat) : Nat := fieldAt r.p off n

end Sys2Proof.Machine
end

