-- ==== Sys2Proof/Machine/Nma.lean ====
section
/-! DEFINITION. Near-Memory Atomic operations (R329 to R331): the element operations, the tagged accumulator blocks, and the
commands that bring one operation to its controller. -/

namespace Sys2Proof.Machine

/-- The operations of R329 by their number in IMM[15:12]. -/
inductive NmaOp where
  | addI32 | addI64 | addF32 | addBf16 | or_ | and_ | maxU64 | maxI32 | maxF32 | tadd | tskip | treset
  deriving DecidableEq, Repr

/-- The operation a number names; 0x0 and 0xD to 0xF are reserved (R329). -/
def nmaOfCode : Nat → Option NmaOp
  | 1 => some .addI32 | 2 => some .addI64 | 3 => some .addF32 | 4 => some .addBf16 | 5 => some .or_ | 6 => some .and_
  | 7 => some .maxU64 | 8 => some .maxI32 | 9 => some .maxF32 | 0xA => some .tadd | 0xB => some .tskip | 0xC => some .treset
  | _ => none

/-- Element width in bytes, and the block lengths allowed beside 64 (R329). -/
def NmaOp.width : NmaOp → Nat
  | .addI64 | .or_ | .and_ | .maxU64 => 8
  | .addBf16 => 2
  | _ => 4
/-- A length the operation takes (R329). -/
def NmaOp.lenOk (o : NmaOp) (n : Nat) : Bool :=
  n == 64 || (match o with
    | .tadd | .tskip | .treset => false
    | .addBf16 => n == 4
    | _ => n == o.width)
/-- The operation carries an operand as long as its block; TSKIP and TRESET carry none (R329). -/
def NmaOp.hasOperand : NmaOp → Bool
  | .tskip | .treset => false
  | _ => true

/-- One element of a block after an operation (R221, R329). -/
def NmaOp.elem (o : NmaOp) (x y : Nat) : Nat :=
  match o with
  | .addI32 => (x + y) % 2 ^ 32
  | .addI64 => (x + y) % 2 ^ 64
  | .addF32 | .tadd => (f32Add (BitVec.ofNat 32 x) (BitVec.ofNat 32 y)).toNat
  | .addBf16 => fPack fmtBF16 (vAdd (fDecode fmtBF16 x) (fDecode fmtBF16 y))
  | .or_ => x ||| y
  | .and_ => x &&& y
  | .maxU64 => max x y
  | .maxI32 => if signedOf 32 x < signedOf 32 y then y else x
  | .maxF32 => (f32Max (BitVec.ofNat 32 x) (BitVec.ofNat 32 y)).toNat
  | .tskip => x
  | .treset => 0

/-- A block after an operation, element by element (R329). -/
def NmaOp.block (o : NmaOp) (old operand : List Byte) : List Byte :=
  (List.range (old.length / o.width)).flatMap fun i =>
    leBytes o.width (o.elem (fieldAt old (o.width * i) o.width) (fieldAt operand (o.width * i) o.width))

/-! ### One operation at its controller -/

/-- What a controller does with an operation. -/
inductive NmaResult where
  /-- Applied, or held to be applied in its turn. -/
  | taken (d : Device)
  /-- It waits and is retried under the CTRL_QUEUE stall cause (R331). -/
  | waits

/-- Open blocks a Tag Table holds, and early operations a controller holds (R331). -/
def tagTableSize : Nat := 16384
/-- Early operations a controller holds (R331). -/
def tagHoldSize : Nat := 512

/-- Open blocks of the Tag Table of a channel's controller (R308, R331). -/
def Device.tagsOpen (d : Device) (c : Nat) : Nat := lsum ((ctrlChans (chanCtrl c)).map fun e => (d.chan e).tags.length)
/-- Early operations that a channel's controller holds (R308, R331). -/
def Device.tagsHeld (d : Device) (c : Nat) : Nat := lsum ((ctrlChans (chanCtrl c)).map fun e => (d.chan e).heldTags.length)
/-- The open block of an address. -/
def Channel.tag? (k : Channel) (a : Nat) : Option TagBlock := k.tags.find? (·.addr == a)

/-- The expected contributor advances; the block closes after the last contributor (R331). -/
def Device.tagAdvance (d : Device) (c a : Nat) : Device :=
  d.modChan c fun k => { k with tags := k.tags.filterMap fun t =>
    if t.addr == a then (if t.count ≤ t.expected + 1 then none else some { t with expected := t.expected + 1 }) else some t }

/-- A tagged operation applied: added, or skipped, and the tag advanced (R331). -/
def Device.tagApply (d : Device) (c a : Nat) (operand : Option (List Byte)) : Device :=
  let d1 := match operand with
    | some v => d.memWriteAll a (NmaOp.tadd.block (d.read a 64) v)
    | none => d
  d1.tagAdvance c a

/-- Held operations whose turn has come are applied in ascending contributor order (R331). -/
def Device.tagDrain (d : Device) (c a : Nat) : Nat → Device
  | 0 => d
  | n + 1 => match (d.chan c).tag? a with
    | none => d
    | some t => match (d.chan c).heldTags.find? fun h => h.addr == a && h.contributor == t.expected with
      | none => d
      | some h =>
        let d1 := d.modChan c fun k => { k with heldTags := k.heldTags.filter fun g => !(g.addr == a && g.contributor == t.expected) }
        (d1.tagApply c a h.operand).tagDrain c a n

/-- An operation reaches the controller of its block (R329 to R331). The address, the length and the operand have been checked. -/
def Device.nma (d : Device) (o : NmaOp) (a contributor : Nat) (operand : List Byte) : NmaResult :=
  match d.chanOf a with
  | none => .taken d
  | some (c, _) =>
    let k := d.chan c
    let dc := d.memCount c fun m => { m with nmaOps := m.nmaOps + 1 }
    let tagged := fun (v : Option (List Byte)) =>
      match k.tag? a with
      | some t =>
        if t.expected = contributor then .taken ((dc.tagApply c a v).tagDrain c a (k.heldTags.length + 1))
        else if contributor < t.expected then .taken dc
        else if d.tagsHeld c < tagHoldSize then
          .taken ((dc.modChan c fun k => { k with heldTags := k.heldTags ++ [⟨a, contributor, v⟩] }).memCount c
            fun m => { m with tagHolds := m.tagHolds + 1 })
        else .waits
      | none =>
        if d.tagsHeld c < tagHoldSize then
          .taken ((dc.modChan c fun k => { k with heldTags := k.heldTags ++ [⟨a, contributor, v⟩] }).memCount c
            fun m => { m with tagHolds := m.tagHolds + 1 })
        else .waits
    match o with
    | .tadd => tagged (some operand)
    | .tskip => tagged none
    | .treset =>
      if (k.tag? a).isNone && decide (tagTableSize ≤ d.tagsOpen c) then .waits
      else
        let d1 := dc.memWriteAll a (List.replicate 64 0)
        let d2 := d1.modChan c fun k => { k with tags := k.tags.filter (·.addr != a) ++ (if contributor = 0 then [] else [⟨a, 0, contributor⟩]) }
        .taken (d2.tagDrain c a (k.heldTags.length + 1))
    | _ => .taken (dc.memWriteAll a (o.block (d.read a operand.length) operand))

/-- An operation is well formed: its operand has a length of R329, its block is aligned and lies in a tier, and its sender may
touch it (R305, R306, R329). -/
def Device.nmaOk (d : Device) (o : NmaOp) (own : Bool) (b a : Nat) (operand : List Byte) : Bool :=
  let n := if o.hasOperand then operand.length else 64
  o.lenOk n && a % n == 0 && (d.chanOf a).isSome && d.mayTouchAll own b a n

/-- One operation sent to its controller by the device or for a burgee; one that is not well formed, or that must wait, leaves
the block as it is (R330, R331). -/
def nmaEff (o : NmaOp) (own : Bool) (b a contributor : Nat) (operand : List Byte) (d : Device) : Device :=
  if !d.tiers.trained || !d.nmaOk o own b a operand then d
  else match d.nma o a contributor operand with
    | .taken d' => d'
    | .waits => d

/-- ADD_I32: the operation of R329 on a block. -/
def execAddI32 (own : Bool) (b a : Nat) (operand : List Byte) (s : State) : Host.Outcome State Fault Refusal := onDev (nmaEff .addI32 own b a 0 operand) s
/-- ADD_I64: the operation of R329 on a block. -/
def execAddI64 (own : Bool) (b a : Nat) (operand : List Byte) (s : State) : Host.Outcome State Fault Refusal := onDev (nmaEff .addI64 own b a 0 operand) s
/-- ADD_F32: the operation of R329 on a block. -/
def execAddF32 (own : Bool) (b a : Nat) (operand : List Byte) (s : State) : Host.Outcome State Fault Refusal := onDev (nmaEff .addF32 own b a 0 operand) s
/-- ADD_BF16: the operation of R329 on a block. -/
def execAddBf16 (own : Bool) (b a : Nat) (operand : List Byte) (s : State) : Host.Outcome State Fault Refusal := onDev (nmaEff .addBf16 own b a 0 operand) s
/-- NMA_OR: the operation of R329 on a block. -/
def execNmaOr (own : Bool) (b a : Nat) (operand : List Byte) (s : State) : Host.Outcome State Fault Refusal := onDev (nmaEff .or_ own b a 0 operand) s
/-- NMA_AND: the operation of R329 on a block. -/
def execNmaAnd (own : Bool) (b a : Nat) (operand : List Byte) (s : State) : Host.Outcome State Fault Refusal := onDev (nmaEff .and_ own b a 0 operand) s
/-- MAX_U64: the operation of R329 on a block. -/
def execMaxU64 (own : Bool) (b a : Nat) (operand : List Byte) (s : State) : Host.Outcome State Fault Refusal := onDev (nmaEff .maxU64 own b a 0 operand) s
/-- MAX_I32: the operation of R329 on a block. -/
def execMaxI32 (own : Bool) (b a : Nat) (operand : List Byte) (s : State) : Host.Outcome State Fault Refusal := onDev (nmaEff .maxI32 own b a 0 operand) s
/-- MAX_F32: the operation of R329 on a block. -/
def execMaxF32 (own : Bool) (b a : Nat) (operand : List Byte) (s : State) : Host.Outcome State Fault Refusal := onDev (nmaEff .maxF32 own b a 0 operand) s
/-- TADD_F32: the operation of R329 on a block, with the contributor number it carries (R331). -/
def execTaddF32 (own : Bool) (b a n : Nat) (operand : List Byte) (s : State) : Host.Outcome State Fault Refusal := onDev (nmaEff .tadd own b a n operand) s
/-- TSKIP: the operation of R329 on a block, with the contributor number it carries (R331). -/
def execTskip (own : Bool) (b a n : Nat) (s : State) : Host.Outcome State Fault Refusal := onDev (nmaEff .tskip own b a n []) s
/-- TRESET: the operation of R329 on a block, with the contributor number it carries (R331). -/
def execTreset (own : Bool) (b a n : Nat) (s : State) : Host.Outcome State Fault Refusal := onDev (nmaEff .treset own b a n []) s

end Sys2Proof.Machine
end

