-- ==== Sys2Proof/Machine/Rings.lean ====
section
/-! DEFINITION. Scratchpad rings and their semaphore pairs: the bytes of a ring, the four movements of R243, escape areas
(R263), and the tile buffers a ring may lie in (R217, R242). -/

namespace Sys2Proof.Machine

/-! ### Bytes of a ring place (R217, R242) -/

/-- The bytes of a tile-buffer line. -/
def TileBuf.line (b : TileBuf) (l : Nat) : List Byte := leBytes 512 (tget 0 l b.lines).toNat
/-- A tile buffer with a line written. -/
def TileBuf.setLine (b : TileBuf) (l : Nat) (bs : List Byte) : TileBuf :=
  { b with lines := tset l (BitVec.ofNat 4096 (leNat bs)) b.lines }
/-- n bytes of a tile buffer from an offset on. -/
def TileBuf.read (b : TileBuf) (off n : Nat) : List Byte :=
  if n = 0 then [] else
  let lo := off / 512
  let hi := (off + n - 1) / 512
  ((((List.range (hi - lo + 1)).flatMap fun i => b.line (lo + i)).drop (off % 512))).take n
/-- A tile buffer with bytes written from an offset on. -/
def TileBuf.write (b : TileBuf) (off : Nat) (bs : List Byte) : TileBuf :=
  if bs.isEmpty then b else
  let lo := off / 512
  let hi := (off + bs.length - 1) / 512
  let old := (List.range (hi - lo + 1)).flatMap fun i => b.line (lo + i)
  let new := old.take (off % 512) ++ bs ++ old.drop (off % 512 + bs.length)
  (List.range (hi - lo + 1)).foldl (fun b i => b.setLine (lo + i) ((new.drop (512 * i)).take 512)) b

/-- RING_ADDR names a tile buffer (R245). -/
def inTile (ring : Nat) : Bool := ring.testBit 31
/-- n bytes at an offset from a ring's address, in scratchpad or in a tile buffer (R242, R245). -/
def Device.placeRead (d : Device) (sc ring off n : Nat) : List Byte :=
  if inTile ring then (tget ({} : TileBuf) (bits 17 16 ring) (d.eng sc).tb).read (bits 15 0 ring + off) n
  else d.read (scBase sc + ring + off) n
/-- The device with bytes written at an offset from a ring's address. -/
def Device.placeWrite (d : Device) (sc ring off : Nat) (bs : List Byte) : Device :=
  if inTile ring then d.modEng sc fun e => { e with tb := tmod {} (bits 17 16 ring) (·.write (bits 15 0 ring + off) bs) e.tb }
  else d.write (scBase sc + ring + off) bs

/-! ### The movements of R243 -/

/-- A semaphore pair of an SC. -/
def Device.sem (d : Device) (sc k : Nat) : SemPair := tget {} k (d.str sc).sems
/-- The consumer holds a slot. -/
def SemPair.holds (p : SemPair) : Bool := p.held || p.heldEsc
/-- The ring of an active pair lies in a tile buffer that its engine has not taken or claimed a slot of: the STEs hold the buffer (R217, R242). -/
def SemPair.steHolds (p : SemPair) (buf : Nat) : Bool :=
  p.active && inTile p.ringAddr && bits 17 16 p.ringAddr == buf && (if p.isOut then decide (p.filling ≤ p.filled.length) else !p.holds)
/-- Who holds a tile buffer, as the pairs of the rings in it stand (R217, R242). -/
def Device.syncTile (d : Device) (sc buf : Nat) : Device :=
  d.modEng sc fun e => { e with tb := tmod {} buf (fun b => { b with bySte := (d.str sc).sems.any fun p => p.2.steHolds buf }) e.tb }
/-- The device with a semaphore pair changed, and with it the holding of the tile buffer that its ring lies in. -/
def Device.modSem (d : Device) (sc k : Nat) (g : SemPair → SemPair) : Device :=
  let d1 := d.modStr sc fun s => { s with sems := tmod {} k g s.sems }
  if inTile (d1.sem sc k).ringAddr then d1.syncTile sc (bits 17 16 (d1.sem sc k).ringAddr) else d1

/-- Claim: EMPTY falls, FILLING rises and HEAD advances; the place that the consumer still holds is not claimed (R243). -/
def SemPair.claim (p : SemPair) : Option (Nat × SemPair) :=
  if p.empty = 0 || (p.held && p.head == p.heldAt) then none
  else some (p.head, { p with empty := p.empty - 1, filling := p.filling + 1, head := (p.head + 1) % p.nSlots })
/-- The claim of a slot in which nothing was placed is given back (R249 END). -/
def SemPair.unclaim (p : SemPair) : SemPair :=
  { p with empty := p.empty + 1, filling := p.filling - 1, head := (p.head + p.nSlots - 1) % p.nSlots }
/-- Filled slots enter FULL strictly in slot order (R243). -/
def SemPair.enter (p : SemPair) : Nat → SemPair
  | 0 => p
  | n + 1 =>
    let s := (p.head + p.nSlots - p.filling) % p.nSlots
    if p.filling = 0 || !p.filled.contains s then p
    else ({ p with filling := p.filling - 1, full := p.full + 1, filled := p.filled.filter (· != s) }).enter n
/-- Fill: a claimed slot's bytes are complete (R243). -/
def SemPair.fill (p : SemPair) (s : Nat) : SemPair := ({ p with filled := p.filled ++ [s] }).enter p.nSlots
/-- Take: FULL falls and the consumer holds the slot at TAIL; an escaped slot is taken from the escape area when its number is next, and is
named by 16 more than its place (R243, R263). -/
def SemPair.take (p : SemPair) : Option (Nat × SemPair) :=
  if p.holds then none
  else match p.escape.find? (·.number == p.done) with
    | some h => some (16 + h.slot, { p with heldEsc := true, engineWaits := false })
    | none =>
      if p.full = 0 then none else some (p.tail, { p with full := p.full - 1, held := true, heldAt := p.tail, engineWaits := false })
/-- Release: EMPTY rises and TAIL advances; an escaped slot leaves the escape area (R243, R263). -/
def SemPair.release (p : SemPair) : SemPair :=
  if p.heldEsc then { p with heldEsc := false, escape := p.escape.filter (·.number != p.done), done := (p.done + 1) % 0x100000000 }
  else { p with held := false, empty := p.empty + 1, tail := (p.tail + 1) % p.nSlots, done := (p.done + 1) % 0x100000000 }
/-- The producer has ended and no slot is left but the one that the consumer holds. -/
def SemPair.lastHeld (p : SemPair) : Bool :=
  p.ended && p.filling == 0 && p.full == 0 && decide (p.escape.length ≤ if p.heldEsc then 1 else 0)
/-- The pair becomes inactive once its stream has ended and its slots are drained (R244, R246). -/
def SemPair.settle (p : SemPair) : SemPair :=
  if p.active && p.lastHeld && !p.holds then { p with active := false } else p

/-- The place of the slot that the consumer takes next (R243, R263). -/
def SemPair.nextPlace (p : SemPair) : Nat := ((p.escape.find? (·.number == p.done)).map (·.slot)).getD p.tail
/-- The consumer holds the slot of a place. -/
def SemPair.holdsPlace (p : SemPair) (s : Nat) : Bool :=
  (p.held && p.heldAt == s) || (p.heldEsc && (p.escape.find? (·.number == p.done)).any (·.slot == s))
/-- The slot that the engine of an output ring has claimed and not yet filled (R243). -/
def SemPair.unfilled (p : SemPair) : Option Nat :=
  let s := (p.head + p.nSlots - 1) % p.nSlots
  if p.filling = 0 || p.filled.contains s then none else some s
/-- The engine of an output ring has written the slot it claimed (R243). -/
def SemPair.fillOut (p : SemPair) : SemPair := p.unfilled.elim p p.fill
/-- A place whose bytes are on their way: claimed and not yet full, or next to be taken while none is full. -/
def SemPair.coming (p : SemPair) (s : Nat) : Bool :=
  (p.full == 0 && p.nextPlace == s && !p.holdsPlace s) ||
    (List.range p.filling).any fun i => (p.head + p.nSlots - 1 - i) % p.nSlots == s

/-- The word of a semaphore pair (R244). -/
def SemPair.word (p : SemPair) : Nat :=
  flagAt 63 p.active + flagAt 62 (!p.escape.isEmpty) + flagAt 61 p.chained + flagAt 60 p.ended + at_ 56 p.nSlots +
    at_ 52 p.empty + at_ 48 p.filling + at_ 44 p.full + at_ 40 p.head + at_ 36 p.tail + p.done

/-- The bytes of a slot as its consumer receives it: from its place, or from the escape area (R263, R310). -/
def Device.slotRead (d : Device) (sc : Nat) (p : SemPair) (s : Nat) : List Byte :=
  if s < 16 then d.placeRead sc p.ringAddr (s * p.slotBytes) p.slotBytes else d.mirrorBytes p.escBase ((s - 16) * p.slotBytes) p.slotBytes
/-- A pair of a context, live or spilled with its ring's banks (R261). -/
def Device.pairOf (d : Device) (sc k ctx : Nat) : SemPair :=
  let p := d.sem sc k
  if p.active && p.ctx == ctx then p
  else (((d.str sc).saved.flatMap (·.2)).find? fun q => q.1 == k && q.2.ctx == ctx).elim p (·.2)
/-- The device with that pair changed. -/
def Device.modPair (d : Device) (sc k ctx : Nat) (g : SemPair → SemPair) : Device :=
  let p := d.sem sc k
  if p.active && p.ctx == ctx then d.modSem sc k g
  else d.modStr sc fun s => { s with saved := s.saved.map fun c => (c.1, c.2.map fun q => if q.1 == k && q.2.ctx == ctx then (k, g q.2) else q) }

/-! ### Escapes (R263) -/

/-- How many of the slots in FILLING that were claimed last are filled: what can return to EMPTY beside the FULL ones. -/
def SemPair.filledLast (p : SemPair) : Nat :=
  ((List.range p.filling).takeWhile fun i => p.filled.contains ((p.head + 2 * p.nSlots - 1 - i) % p.nSlots)).length
/-- The slots a drain moves, in slot order: the FULL ones and the filled ones at the end of FILLING (DEDUCED, log entry 34: a filled slot before
one still being filled keeps its place, so that the consumer's order stands). -/
def SemPair.drainable (p : SemPair) : List HeldSlot :=
  let first := p.done + (if p.held then 1 else 0)
  let tail := p.tail + (if p.held then 1 else 0)
  let m := p.filledLast
  ((List.range p.full).map fun i => (⟨first + i, (tail + i) % p.nSlots⟩ : HeldSlot)) ++
    (List.range m).map fun i => ⟨first + p.full + (p.filling - m) + i, (p.head + p.nSlots - m + i) % p.nSlots⟩
/-- The pair once those slots have been drained. -/
def SemPair.drained (p : SemPair) : SemPair :=
  let m := p.filledLast
  { p with escape := p.escape ++ p.drainable, full := 0, filling := p.filling - m, empty := p.empty + p.full + m,
           filled := p.filled.filter fun s => !(p.drainable.any (·.slot == s)),
           tail := (p.tail + p.full) % p.nSlots, head := (p.head + p.nSlots - m) % p.nSlots }
/-- A ring's filled slots are written to its escape area, a mirrored area, in slot order, and return to EMPTY (R263, R310). -/
def Device.drainRing (d : Device) (sc k : Nat) : Device :=
  let p := d.sem sc k
  let d1 := p.drainable.foldl (fun d h =>
    d.writeMirrored p.escBase (h.slot * p.slotBytes) (d.placeRead sc p.ringAddr (h.slot * p.slotBytes) p.slotBytes)) d
  d1.modSem sc k (·.drained)

/-- A refusal under R306 is counted for the transfer's burgee, and by the controller of the address (R306, R574). -/
def Device.refusedAt (d : Device) (own : Bool) (b a : Nat) : Device :=
  if d.ownerRefuses own b a then match d.chanOf a with
    | some (c, _) => (d.memCount c fun m => { m with refused := m.refused + 1 }).modBurgee b fun g => { g with refused := g.refused + 1 }
    | none => d
  else d

/-! ### Two events of one context: restart, then teardown (R208, R262) -/

/-- Tag mismatches and poisoned slots counted for the command or background task of a context. -/
def Device.restartsOf (d : Device) (ctx : Nat) : Nat :=
  match d.ctx? ctx with
  | none => 0
  | some c => match c.cmd.bind d.cmd? with
    | some m => m.restarts
    | none => c.restarts
/-- One more event counted; its bound is voided (R353). -/
def Device.countRestart (d : Device) (ctx : Nat) : Device :=
  match d.ctx? ctx with
  | none => d
  | some c => match c.cmd with
    | some st => (d.modCmd st fun m => { m with restarts := m.restarts + 1 }).voidBound st
    | none => d.modCtx ctx fun c => { c with restarts := c.restarts + 1 }

/-- The placed copy that an F-tier address lies in: its index and entry, and the L-tier address of the byte (R111, R112). -/
def Device.copyAt (d : Device) (a : Nat) : Option (Index × Placed × Nat) :=
  d.indexes.findSome? fun ix =>
    ((d.burgee ix.2.burgee).placed.filter fun p => p.index == ix.1).findSome? fun p =>
      ((ix.2.copyParts p).find? fun s => decide (s.2.2 ≤ a) && decide (a < s.2.2 + s.2.1)).map fun s => (ix.2, p, s.1 + (a - s.2.2))

end Sys2Proof.Machine
end

