-- ==== Sys2Proof/Machine/Flags.lean ====
section
/-! DEFINITION. The status words: the conditions they report and the device registers that hold them (R508 to R521, R537). -/

namespace Sys2Proof.Machine

/-! ### Conditions the status registers report -/

/-- A health word reports failure (R499). -/
def Health.failed (h : Health) (now : Nat) : Bool := h.state == 4 || h.watchdog || h.memFault || h.imageFault || decide (h.at_ + 5000000 ≤ now)
/-- The health word of an MP. -/
def Ensign.health (e : Ensign) (m : Nat) : Health := if m = 0 then e.health0 else e.health1
/-- The half whose MP wins a fence now, by HALF_SENIORITY as the last COLD reset read it (R33, R433, R521). -/
def Device.senior (d : Device) : Nat :=
  if (d.ens.health d.straps.senior).failed d.now then 1 - d.straps.senior else d.straps.senior
/-- A half's loop and monitor. -/
def Power.half (p : Power) (h : Nat) : HalfPower := if h = 0 then p.h0 else p.h1
/-- The device with a half's loop changed. -/
def Device.modHalf (d : Device) (h : Nat) (g : HalfPower → HalfPower) : Device :=
  { d with power := if h = 0 then { d.power with h0 := g d.power.h0 } else { d.power with h1 := g d.power.h1 } }
/-- The lowest Tj of the ordering code, in 0.25 °C (R9). -/
def tjMin : Int := if Config.orderX then -80 else 0
/-- Bounded admission is suspended device-wide (R489). -/
def Device.boundSuspended (d : Device) : Bool :=
  decide (d.reff < 32) || d.power.h0.deficit || d.power.h1.deficit || d.power.tjLow || decide (420 ≤ d.power.eff)
/-- Places held by a command: 1 for a single vector, 16 for each admitted MSEARCH chunk (R339). -/
def Cmd.places (c : Cmd) : Nat := if c.phase == .waiting then 0 else if c.op == .msearch then 16 * c.chunks else 1
/-- Places held by a burgee's running batch (R339). -/
def Device.places (d : Device) (b : Nat) : Nat :=
  lsum ((d.cmds.filter fun c => c.burgee == b && c.op.isSearch).map (·.places))
/-- The reset, warning and recovery levels of a VCORE rail in 0.1 mV, each rounded down (R491, R518). -/
def boReset (vset : Nat) : Nat := max (vset * 85 / 10) 6000
/-- The warning level (R491). -/
def boWarn (vset : Nat) : Nat := max (vset * 92 / 10) (boReset vset + 100)
/-- The recovery level (R491). -/
def boRecover (vset : Nat) : Nat := boWarn vset + 100
/-- P and P10 in W (R487, R516). -/
def Power.p (p : Power) : Nat := p.samples.headD 0 / 10000
/-- The mean of the last 100 samples, in W (R487). -/
def Power.p10 (p : Power) : Nat := if p.samples.isEmpty then 0 else lsum p.samples / p.samples.length / 10000

/-! ### Device registers (R508 to R521) -/

/-- DEV_IDENT (R509). -/
def Device.devIdent (d : Device) : Nat :=
  at_ 48 0x0E1A + flagAt 32 Config.orderX + at_ 30 d.fuses.profile + at_ 28 d.straps.profile + at_ 26 d.straps.portMode +
    at_ 24 d.fuses.population
/-- DEV_CAP0 (R510). -/
def devCap0 : Nat := at_ 56 64 + at_ 48 32 + at_ 32 4096 + at_ 20 2048 + at_ 16 15 + 1024
/-- DEV_CAP1: 0 until the tiers are trained (R511). -/
def Device.devCap1 (d : Device) : Nat :=
  if !d.tiers.trained then 0
  else at_ 48 (768 - 12 * ((256 - d.nen) / 4)) + at_ 32 (if d.tiers.packages = 9 then 440 else 888) +
    at_ 24 (if d.tiers.packages = 9 then 32 else 64) + at_ 16 d.tiers.sites.length + d.nen
/-- DEV_STATUS.SANITISE (R425, R512). -/
def Device.sanitiseField (d : Device) : Nat :=
  match d.flash.sanitise.state with
  | 1 => 1 | 3 => 2 | _ => 0
/-- DEV_STATUS (R512). -/
def Device.devStatus (d : Device) : Nat :=
  flagAt 31 d.ready + flagAt 30 d.dataPath + flagAt 29 (d.degraded != 0) + flagAt 28 d.aon.bo.frozen + flagAt 27 d.aon.bo.episode +
    flagAt 26 d.quiesced + flagAt 25 d.boundSuspended + flagAt 24 (decide (d.reff < 32)) + at_ 22 d.sanitiseField +
    at_ 19 d.mgmt.shed.steps + flagAt 18 d.profMis + flagAt 17 d.profUn + flagAt 16 d.popMis + flagAt 15 d.popFault +
    flagAt 14 d.strapFault
/-- PACE_Hh (R514). -/
def Device.paceReg (d : Device) (h : Nat) : Nat :=
  let p := d.power.half h
  flagAt 31 p.deficit + at_ 16 (p.slowest % 256) + p.pace / 100 % 65536
/-- AVL_Hh (R515). -/
def Device.avlReg (d : Device) (h : Nat) : Nat :=
  let p := d.power.half h
  at_ 48 (p.iread % 65536) + at_ 32 (p.vread % 65536) + at_ 16 p.vset + flagAt 15 p.loopEn + flagAt 14 (p.loopEn && d.frozen)
/-- RATE_LIMITS (R516). -/
def Device.rateLimits (d : Device) : Nat := at_ 24 d.reff + at_ 16 d.mgmt.feat.targetRate + at_ 8 d.power.renv + d.power.rtherm
/-- POWER (R516). -/
def Device.powerReg (d : Device) : Nat := at_ 16 (d.power.p10 % 65536) + d.power.p % 65536
/-- THERMAL (R517). -/
def Device.thermalReg (d : Device) : Nat :=
  at_ 16 (twos 16 d.power.tj) + at_ 9 (d.power.sensor % 128) + flagAt 8 d.aon.trip + flagAt 7 d.power.tjLow +
    flagAt 6 (decide (d.power.rtherm < 44)) + flagAt 5 (!d.power.hotF.isEmpty || !d.power.hotL.isEmpty)
/-- BROWNOUT (R518). -/
def Device.brownoutReg (d : Device) : Nat :=
  let b := d.aon.bo
  flagAt 31 b.episode + flagAt 30 b.frozen + flagAt 29 b.warnPin + at_ 27 b.trigger + b.episodes
/-- BO_LEVEL_Hh (R518). -/
def Device.boLevel (d : Device) (h : Nat) : Nat :=
  let v := (d.power.half h).vset
  at_ 32 (boReset v) + at_ 16 (boWarn v) + boRecover v
/-- RESET_CAUSE (R519). -/
def Device.resetCause (d : Device) : Nat := at_ 16 d.aon.coldCount + at_ 8 d.aon.causeRail + d.aon.cause
/-- SUPPLY_FAULT_n (R520). -/
def Device.supplyFault (d : Device) (n : Nat) : Nat :=
  match d.aon.faults[n]? with
  | some f => at_ 32 f.fseq + at_ 24 f.rail + at_ 16 f.kind + f.mv % 65536
  | none => 0
/-- ENSIGN_STATUS (R521). -/
def Device.ensignStatus (d : Device) : Nat :=
  at_ 30 (d.ens.holder.getD 2) + flagAt 29 d.ens.fenced + at_ 28 d.senior + at_ 27 d.fuses.seniority +
    flagAt 26 d.ens.activation.isSome + at_ 24 d.ens.vacantResets + d.ens.takeovers
/-- ENSIGN_FENCES (R521). -/
def Device.ensignFences (d : Device) : Nat := at_ 16 d.ens.fences + d.ens.lastUs
/-- A health word (R499). -/
def Health.word (h : Health) : Nat :=
  Machine.at_ 16 (h.seq % 65536) + Machine.at_ 8 h.state + flagAt 3 h.watchdog + flagAt 2 h.memFault + flagAt 1 h.imageFault + flagAt 0 h.stale

/-! ### The sideband's status (R537) -/

/-- SB_STATUS (R537). -/
def Device.sbStatus (d : Device) : Nat :=
  flagAt 31 d.ready + flagAt 30 d.ens.holder.isSome + flagAt 29 (!d.aon.sysPwrok || d.phase == .held || d.phase == .coldDone) +
    flagAt 28 (d.phase == .draining || d.phase == .warmDone) + flagAt 27 d.aon.trip + flagAt 26 (d.degraded != 0) +
    flagAt 25 d.aon.bo.episode + flagAt 24 d.quiesced + at_ 22 d.fuses.profile
end Sys2Proof.Machine
end

