-- ==== Sys2Proof/Machine/Regs.lean ====
section
/-! DEFINITION. The registers of BAR0, of the VF BAR, of the debug window and of the SMBus view as they read (R504 to R537, R573,
R574), and the writes that no chapter of their own governs (R14 to R17). -/

namespace Sys2Proof.Machine

/-! ### Burgee readback (R522) -/

/-- The counters of an account in their order (R522). -/
def Account.list (a : Account) : List Nat :=
  [a.bytesF, a.bytesL, a.bytesLink, a.bytesSpad, a.regStall, a.preempted, a.spilled, a.parked, a.admBound, a.admBest, a.boundVoid,
   a.notAdm, a.truncated, a.scCycles, a.escapes, a.teardowns]
/-- The register of a burgee's readback block at an offset: its width in bytes and its value (R522). -/
def Device.brgReg (d : Device) (b off : Nat) : Option (Nat × Nat) :=
  let g := d.burgee b
  let bk := fun i => g.buckets.getD i {}
  if off = 0 then some (4, flagAt 31 g.enabled + flagAt 30 g.geoWait +
    at_ 16 ((List.range 64).filter fun n => g.scSet.getLsbD n).length + d.places b)
  else if 8 ≤ off ∧ off < 0x18 ∧ off % 4 = 0 then
    let i := (off - 8) / 4
    some (4, at_ 16 ((bk (2 * i)).rate % 65536) + (bk (2 * i + 1)).rate % 65536)
  else if 0x20 ≤ off ∧ off < 0x40 ∧ off % 4 = 0 then some (4, twos 32 (bk ((off - 0x20) / 4)).level)
  else if 0x40 ≤ off ∧ off < 0xC0 ∧ off % 8 = 0 then some (8, g.readback.list.getD ((off - 0x40) / 8) 0)
  else none

/-! ### The function block (R524 to R533) -/

/-- A function is the PF of its port. -/
def isPf (f : Nat) : Bool := f % 64 == 0
/-- A bitmap over QIDs 32n to 32n + 31 (R530). -/
def Fn.qpBits (n : Fn) (sel : QueuePair → Bool) (w : Nat) : Nat :=
  lsum ((List.range 32).map fun j => match tfind (32 * w + j) n.qps with
    | some p => flagAt j (sel p && decide (32 * w + j < n.qpMax))
    | none => 0)
/-- A slot of a mailbox holds an outstanding request (R532). -/
def Mailbox.outstanding (b : Mailbox) (slot : Nat) : Bool :=
  tget SlotState.idle slot b.slots != .idle
/-- MB_DONE (R531). -/
def Mailbox.doneBits (b : Mailbox) : Nat :=
  lsum ((List.range 32).map fun i => flagAt i (tget SlotState.idle i b.slots == .done))
/-- MB_STATUS (R531). -/
def Device.mbStatus (d : Device) (b : Mailbox) : Nat :=
  let out := (b.tail + 65536 - b.head) % 65536
  at_ 8 out + flagAt 2 (!d.seated) + flagAt 1 b.overflow + flagAt 0 (out == 32)

/-- The register of a function's block at an offset: its width in bytes and its value (R524 to R533). Doorbells are write-only
and read 0. -/
def Device.fnReg (d : Device) (f off : Nat) : Option (Nat × Nat) :=
  let n := d.fn f
  let l := n.log
  match off with
  | 0x00 => some (4, at_ 16 f + at_ 8 n.burgee + flagAt 7 n.assigned + flagAt 2 n.permAdmin + flagAt 1 n.permWrite + flagAt 0 n.permRead)
  | 0x04 => some (4, at_ 16 n.msixSize + n.qpMax)
  | 0x08 => some (4, flagAt 31 d.ready + flagAt 30 n.bme + flagAt 29 d.dataPath + flagAt 28 (l.size != 0) + n.qps.length)
  | 0x10 => some (4, n.evStatus.toNat)
  | 0x14 => some (4, n.evMask.toNat)
  | 0x20 => some (8, l.base)
  | 0x28 => some (4, l.size)
  | 0x2C => some (4, l.head)
  | 0x30 => some (4, flagAt 12 l.phase + l.tail)
  | 0x34 => some (4, l.pending)
  | 0x38 => some (4, l.lost)
  | _ =>
    if 0x100 ≤ off ∧ off < 0x180 ∧ off % 4 = 0 then some (4, n.qpBits (·.err) ((off - 0x100) / 4))
    else if 0x180 ≤ off ∧ off < 0x200 ∧ off % 4 = 0 then some (4, n.qpBits (fun _ => true) ((off - 0x180) / 4))
    else if 0x800 ≤ off ∧ off < 0x900 then
      (d.brgReg n.burgee (off - 0x800)).map fun r => if n.assigned then r else (r.1, 0)
    else if 0x1000 ≤ off ∧ off < 0x1800 ∧ off % 8 = 0 then some (8, fieldAt (tget [] ((off - 0x1000) / 64) n.mb.req) (off % 64) 8)
    else if 0x1800 ≤ off ∧ off < 0x1C00 ∧ off % 8 = 0 then some (8, fieldAt (tget [] ((off - 0x1800) / 32) n.mb.rsp) (off % 32) 8)
    else if off = 0x1C00 then some (4, n.mb.tail)
    else if off = 0x1C04 then some (4, n.mb.head)
    else if off = 0x1C08 then some (4, d.mbStatus n.mb)
    else if off = 0x1C0C then some (4, n.mb.doneBits)
    else if 0x4000 ≤ off ∧ off < 0x4100 ∧ off % 8 = 0 then
      some (8, lsum ((List.range 64).map fun j => flagAt j (n.pba.contains (8 * (off - 0x4000) + j) && decide (8 * (off - 0x4000) + j < n.msixSize))))
    else if 0x8000 ≤ off ∧ off < 0x8000 + 16 * n.msixSize ∧ off < 0x10000 ∧ off % 8 = 0 then
      let e := tget ({} : MsixEntry) ((off - 0x8000) / 16) n.msix
      some (8, if off % 16 = 0 then e.addr.toNat else e.data.toNat + flagAt 32 e.masked)
    else none

/-! ### The debug window (R573, R574) -/

/-- The engine counters of an SC in their order (R574). -/
def Device.scCounters (d : Device) (n : Nat) : List Nat :=
  let c := d.cnt n
  let e := d.eng n
  [c.meBusy, e.ftqFull, e.csqFull, c.meTiles, c.cePasses, e.ceSkips, c.weCommits, c.weSquashes, c.fuGroups, e.descFaults, e.tagMiss,
   c.poisoned, c.timeouts, c.lockstep, c.yields, c.spilled]
/-- The counters of a memory block in their order (R574). -/
def MemCounters.list (m : MemCounters) : List Nat :=
  [m.corrected, m.uncorr, m.rebuilds, m.repairs, m.windows, m.winFails, m.journal, m.wcbRmw, m.nmaOps, m.tagHolds, m.refused,
   m.readsHi, m.readsLo, m.writes]
/-- The counters of the device block in their order (R574). -/
def DevCounters.list (c : DevCounters) : List Nat :=
  [c.sqeFetched, c.completions, c.msixSent, c.doorbells, c.bar2Refused, c.fills, c.evictions, c.fCopyReads, c.mbReruns, c.avlUp,
   c.avlDown, c.rewritesAbandoned, c.throttled]

/-- The register of the debug window at a BAR0 offset (R572, R573). -/
def Device.dbgReg (d : Device) (off : Nat) : Option (Nat × Nat) :=
  let nth := fun (xs : List Nat) (i : Nat) => (xs[i]?).map fun v => (8, v % 2 ^ 64)
  if off < 0x60000 then
    let n := (off - 0x20000) / 0x1000
    let o := off % 0x1000
    if o % 8 != 0 then none
    else if o < 0x80 then nth (d.scCounters n) (o / 8)
    else if 0x100 ≤ o ∧ o < 0x300 then
      match (d.str n).stes[(o - 0x100) / 0x80]? with
      | some e => nth e.stalls (o % 0x80 / 8)
      | none => none
    else if 0x300 ≤ o ∧ o < 0x330 then nth (d.eng n).ve.stalls ((o - 0x300) / 8)
    else if 0x400 ≤ o ∧ o < 0x600 then some (8, (d.sem n ((o - 0x400) / 8)).word)
    else if 0x600 ≤ o ∧ o < 0x800 then some (8, (d.sem n ((o - 0x600) / 8)).wait)
    else none
  else if off < 0x60000 + 0x100 * 196 then if off % 8 = 0 then nth (d.chan ((off - 0x60000) / 0x100)).counters.list (off % 0x100 / 8) else none
  else if 0x70000 ≤ off ∧ off < 0x72000 then if off % 8 = 0 then nth (d.link ((off - 0x70000) / 0x100)).counters (off % 0x100 / 8) else none
  else if 0x74000 ≤ off ∧ off < 0x74800 then
    let t := (d.link ((off - 0x74000) / 0x40)).test
    match off % 0x40 with
    | 0x00 => some (4, at_ 12 t.mode + at_ 8 t.pattern + at_ 6 t.rate + at_ 4 t.lanes)
    | 0x04 => some (4, t.locked + at_ 16 t.refused)
    | 0x08 => some (8, t.err0.toNat)
    | 0x10 => some (8, t.err1.toNat)
    | 0x18 => some (8, t.bits0.toNat)
    | 0x20 => some (8, t.bits1.toNat)
    | _ => none
  else if 0x80000 ≤ off then if off % 8 = 0 then nth d.devCnt.list ((off - 0x80000) / 8) else none
  else none

/-! ### BAR0 as a whole (R504 to R506) -/

/-- The device register at a PF BAR0 offset: its width in bytes and its value, for a function that may read it (R504, R505). -/
def Device.devReg (d : Device) (f off : Nat) : Option (Nat × Nat) :=
  match off with
  | 0x00 => some (8, d.devIdent)
  | 0x08 => some (8, d.fuses.serial.toNat % 2 ^ 64)
  | 0x10 => some (8, d.fuses.serial.toNat / 2 ^ 64)
  | 0x18 => some (4, d.fwVersion)
  | 0x20 => some (8, devCap0)
  | 0x28 => some (8, d.devCap1)
  | 0x30 => some (4, d.devStatus)
  | 0x34 => some (4, d.degraded.toNat)
  | 0x38 => some (8, d.now % 2 ^ 64)
  | 0x100 => some (4, d.paceReg 0)
  | 0x104 => some (4, d.paceReg 1)
  | 0x108 => some (8, d.avlReg 0)
  | 0x110 => some (8, d.avlReg 1)
  | 0x118 => some (4, d.rateLimits)
  | 0x11C => some (4, d.powerReg)
  | 0x120 => some (4, d.thermalReg)
  | 0x124 => some (4, d.brownoutReg)
  | 0x128 => some (8, d.boLevel 0)
  | 0x130 => some (8, d.boLevel 1)
  | 0x138 => some (4, d.resetCause)
  | 0x200 => some (4, d.ensignStatus)
  | 0x204 => some (4, d.ensignFences)
  | 0x208 => some (4, d.ens.health0.word)
  | 0x20C => some (4, d.ens.health1.word)
  | _ =>
    if 0x140 ≤ off ∧ off < 0x1C0 ∧ off % 8 = 0 then some (8, d.supplyFault ((off - 0x140) / 8))
    else if 0x1C0 ≤ off ∧ off < 0x1EC ∧ off % 4 = 0 then some (4, d.aon.railMv.getD ((off - 0x1C0) / 4) 0 % 65536)
    else if 0x1000 ≤ off ∧ off < 0x2000 then if d.isAdminPf f then d.brgReg ((off - 0x1000) / 0x100) (off % 0x100) else none
    else if 0x20000 ≤ off ∧ off < 0x100000 then if d.isAdminPf f then d.dbgReg off else none
    else if 0x100000 ≤ off ∧ off < 0x110000 then d.fnReg f (off - 0x100000)
    else none

/-- The register at an offset of a function's BAR: BAR0 for a PF, the VF BAR for a VF (R504). -/
def Device.barReg (d : Device) (f off : Nat) : Option (Nat × Nat) := if isPf f then d.devReg f off else d.fnReg f off
/-- What an aligned read of n bytes returns: the register's value, a half of it, or zeros (R17, R506). -/
def Device.barRead (d : Device) (f off n : Nat) : Nat :=
  match d.barReg f off with
  | some (w, v) => if n ≤ w && (n == 4 || n == 8) then v % 2 ^ (8 * n) else 0
  | none => match d.barReg f (off - 4) with
    | some (8, v) => if n = 4 && off % 8 = 4 then v / 2 ^ 32 else 0
    | _ => 0

/-- A BAR access of a function reaches the device: its port's link is up and the device is not held in reset (R503, R534). -/
def Device.barUp (d : Device) (f : Nat) : Bool := f < 256 && d.portUp f && d.phase != .held
/-- Another BAR access forgets a latched upper half (R506). -/
def Device.unlatch (d : Device) (f : Nat) : Device := d.modFn f fun n => { n with latch := none }

/-- BAR0_SPLIT_READ: a 4-byte read: the lower half of a 64-bit register latches its upper half, and the next read, of that upper
half, returns the latched value (R506). -/
def bar0SplitReadEff (f off : Nat) (d : Device) : Device :=
  if !d.barUp f then d
  else if off % 4 != 0 then (d.unlatch f).emit (.barRead f off (List.replicate 4 0))
  else
    let v := match (d.fn f).latch with
      | some (o, w) => if o + 4 = off then w.toNat else d.barRead f off 4
      | none => d.barRead f off 4
    let keep := match d.barReg f off with
      | some (8, x) => some (off, BitVec.ofNat 32 (x / 2 ^ 32))
      | _ => none
    (d.modFn f fun n => { n with latch := keep }).emit (.barRead f off (leBytes 4 v))
/-- The meaning of BAR0_SPLIT_READ. -/
def execBar0SplitRead (f off : Nat) (s : State) : Host.Outcome State Fault Refusal := onDev (bar0SplitReadEff f off) s

/-! ### BAR2 (R307) -/

/-- BAR2_ACCESS: a PF's access reaches the F-tier, or is refused: it reads zeros or is discarded, and is counted (R307, R368); a sanitise refuses it
(R424, R425). -/
def bar2AccessEff (f off n : Nat) (write : Option (List Byte)) (d : Device) : Device :=
  if !d.barUp f || !isPf f || 0x1000000000 < off + n then d
  else
    let d0 := d.unlatch f
    let a := d.mgmt.feat.bar2Base + off
    let len := write.elim n (·.length)
    let b := (d.fn f).burgee
    if d.mgmt.feat.bar2En && !d.sanHeld && d.tiers.trained && (d.fn f).assigned && d.mayTouchAll false b a len && d.area a == .fTier then
      match write with
      | some bs => (d0.charge false (some f) b .f 3 (512 * ((a + len - 1) / 512 - a / 512 + 1))).memWriteAll a bs
      | none => ((d0.charge false (some f) b .f 3 (512 * ((a + len - 1) / 512 - a / 512 + 1))).memReadCount a n 3).emit
          (.barRead f off (d.read a n))
    else
      let d1 := { d0.refusedAt false b a with devCnt := { d0.devCnt with bar2Refused := d0.devCnt.bar2Refused + 1 } }
      match write with
      | some _ => d1
      | none => d1.emit (.barRead f off (List.replicate n 0))
/-- The meaning of BAR2_ACCESS. -/
def execBar2Access (f off n : Nat) (write : Option (List Byte)) (s : State) : Host.Outcome State Fault Refusal :=
  onDev (bar2AccessEff f off n write) s

/-! ### Writes (R14 to R16, R527 to R529, R533) -/

/-- FN_EVENT_STATUS: each 1 clears its bit, and vector 0 signals while an unmasked cause remains (R526, R527). -/
def fnEventStatusWriteEff (f : Nat) (v : W32) (d : Device) : Device :=
  if !d.barUp f then d
  else
    let d1 := (d.unlatch f).modFn f fun n => { n with evStatus := n.evStatus &&& ~~~v }
    if (d1.fn f).evStatus &&& ~~~(d1.fn f).evMask != 0 then d1.msix f 0 else d1
/-- The meaning of FN_EVENT_STATUS_WRITE. -/
def execFnEventStatusWrite (f : Nat) (v : W32) (s : State) : Host.Outcome State Fault Refusal := onDev (fnEventStatusWriteEff f v) s

/-- FN_EVENT_MASK: the mask is set, and vector 0 signals while an unmasked cause remains (R526, R527). -/
def fnEventMaskWriteEff (f : Nat) (v : W32) (d : Device) : Device :=
  if !d.barUp f then d
  else
    let d1 := (d.unlatch f).modFn f fun n => { n with evMask := v &&& 0x3F }
    if (d1.fn f).evStatus &&& ~~~(d1.fn f).evMask != 0 then d1.msix f 0 else d1
/-- The meaning of FN_EVENT_MASK_WRITE. -/
def execFnEventMaskWrite (f : Nat) (v : W32) (s : State) : Host.Outcome State Fault Refusal := onDev (fnEventMaskWriteEff f v) s

/-- FN_DEL_SIZE: configures an unconfigured ring, unconfigures a configured one with 0, and is otherwise discarded (R528, R529). -/
def fnDelSizeWriteEff (f : Nat) (v : W32) (d : Device) : Device :=
  if !d.barUp f then d
  else
    let n := v.toNat % 8192
    (d.unlatch f).modFn f fun x =>
      if n = 0 then { x with log := { x.log with size := 0 } }
      else if x.log.size != 0 || n < 64 || 4096 < n then x
      else { x with log := { base := x.log.base, size := n } }
/-- The meaning of FN_DEL_SIZE_WRITE. -/
def execFnDelSizeWrite (f : Nat) (v : W32) (s : State) : Host.Outcome State Fault Refusal := onDev (fnDelSizeWriteEff f v) s

/-- FN_DEL_HEAD: records up to the new head are consumed; a head at or past SIZE, or past the records written, is discarded
(R529). -/
def fnDelHeadWriteEff (f : Nat) (v : W32) (d : Device) : Device :=
  if !d.barUp f then d
  else
    let h := v.toNat % 4096
    (d.unlatch f).modFn f fun x =>
      let taken := (h + x.log.size - x.log.head) % max 1 x.log.size
      if x.log.size ≤ h || x.log.pending < taken then x
      else { x with log := { x.log with head := h, pending := x.log.pending - taken } }
/-- The meaning of FN_DEL_HEAD_WRITE. -/
def execFnDelHeadWrite (f : Nat) (v : W32) (s : State) : Host.Outcome State Fault Refusal := onDev (fnDelHeadWriteEff f v) s

/-- A 32-bit word of an MSI-X table entry is written; a pending vector that is unmasked sends its message (R533). -/
def Device.msixWrite (d : Device) (f e k : Nat) (v : W32) : Device :=
  let d1 := d.modFn f fun n =>
    let m := tget ({} : MsixEntry) e n.msix
    let m' := match k with
      | 0 => { m with addr := (m.addr &&& 0xFFFFFFFF00000000) ||| (v.zeroExtend 64 &&& 0xFFFFFFFC) }
      | 1 => { m with addr := (m.addr &&& 0xFFFFFFFF) ||| (v.zeroExtend 64 <<< 32) }
      | 2 => { m with data := v }
      | _ => { m with masked := v.getLsbD 0 }
    { n with msix := tset e m' n.msix }
  let n := d1.fn f
  if k = 3 && !v.getLsbD 0 && n.pba.contains e && n.bme then
    (d1.modFn f fun n => { n with pba := n.pba.filter (· != e) }).msix f e
  else d1

/-- A write within a function's block to a register that has no row of its own: FN_DEL_BASE, MB_STATUS.OVERFLOW and the MSI-X
table; every other write is discarded (R14, R16, R17, R528, R531, R533). DESIGN CHOICE: the spec does not say what the upper half of a 64-bit
register is joined to when no lower half was written before it, nor what a write of 1 or 2 bytes does; the model takes the register's present
lower half, and discards the write (log entry 45). -/
def Device.fnWrite (d : Device) (f off : Nat) (bs : List Byte) : Device :=
  let v := leNat bs
  let w := BitVec.ofNat 32 v
  let n := d.fn f
  let setBase := fun (x : Nat) => d.modFn f fun n =>
    { n with half := none, log := if n.log.size = 0 then { n.log with base := x % 2 ^ 64 / 4096 * 4096 } else n.log }
  match bs.length with
  | 8 =>
    if off = 0x20 then setBase v
    else if 0x8000 ≤ off ∧ off % 8 = 0 ∧ off < 0x8000 + 16 * n.msixSize then
      let e := (off - 0x8000) / 16
      (d.msixWrite f e (off % 16 / 4) w).msixWrite f e (off % 16 / 4 + 1) (BitVec.ofNat 32 (v / 2 ^ 32))
    else d
  | 4 =>
    if off = 0x20 then d.modFn f fun n => { n with half := some (0x20, w) }
    else if off = 0x24 then setBase ((n.half.elim (n.log.base % 2 ^ 32) (·.2.toNat)) + v * 2 ^ 32)
    else if off = 0x1C08 then d.modFn f fun n => { n with mb := { n.mb with overflow := n.mb.overflow && !w.getLsbD 1 } }
    else if 0x8000 ≤ off ∧ off % 4 = 0 ∧ off < 0x8000 + 16 * n.msixSize then d.msixWrite f ((off - 0x8000) / 16) (off % 16 / 4) w
    else d
  | _ => d

/-- LT_CTRL of a link written whole through the debug window of BAR0: a reserved MODE keeps its field, and with it what the test has counted, and
the rest is taken; a test just begun has checked nothing (R15, R572, R573). -/
def Device.ltRegister (d : Device) (l v : Nat) : Device :=
  let t := (d.link l).test
  let m := bits 15 12 v
  let seen : LtSeen := if m < 5 then ⟨0, 0, 0, 0, 0⟩ else ⟨t.locked, t.err0.toNat, t.err1.toNat, t.bits0.toNat, t.bits1.toNat⟩
  ltTake (if m < 5 then m else t.mode) l (bits 11 8 v) (bits 7 6 v) (bits 5 4 v) seen d

/-- REGISTER_WRITE: a BAR write to a register with no row of its own takes effect by its access type; a read-only, reserved,
misaligned or unimplemented one is discarded (R14 to R17, R505, R573). -/
def registerWriteEff (f off : Nat) (bs : List Byte) (d : Device) : Device :=
  if !d.barUp f then d
  else
    let d0 := d.unlatch f
    if !isPf f then d0.fnWrite f off bs
    else if 0x100000 ≤ off ∧ off < 0x110000 then d0.fnWrite f (off - 0x100000) bs
    else if 0x74000 ≤ off ∧ off < 0x74800 ∧ off % 0x40 = 0 ∧ bs.length = 4 ∧ d0.isAdminPf f then d0.ltRegister ((off - 0x74000) / 0x40) (leNat bs)
    else d0
/-- The meaning of REGISTER_WRITE. -/
def execRegisterWrite (f off : Nat) (bs : List Byte) (s : State) : Host.Outcome State Fault Refusal := onDev (registerWriteEff f off bs) s

/-! ### The SMBus view (R535 to R537) -/

/-- A register of the sideband view by its command code; a field that needs a running core or a seated MP reads 0 while neither
is available (R536). -/
def Device.sbReg (d : Device) (code : Nat) : Option Nat :=
  let core := fun (v : Nat) => some (if d.phase == .held && d.ens.holder.isNone then 0 else v)
  match code with
  | 0x20 => some (d.devIdent / 2 ^ 32)
  | 0x21 => some d.sbStatus
  | 0x22 => some d.aon.alert.toNat
  | 0x23 => some d.aon.alertMask.toNat
  | 0x24 => some d.thermalReg
  | 0x25 => core d.powerReg
  | 0x26 => core (d.paceReg 0)
  | 0x27 => core (d.paceReg 1)
  | 0x28 => some d.resetCause
  | 0x29 => core d.degraded.toNat
  | 0x2A => core d.ensignStatus
  | 0x2B => core d.fwVersion
  | _ =>
    if 0x2C ≤ code ∧ code < 0x30 then some (d.fuses.serial.toNat / 2 ^ (32 * (code - 0x2C)) % 2 ^ 32)
    else if 0x30 ≤ code ∧ code < 0x3B then some (d.aon.railMv.getD (code - 0x30) 0 % 65536)
    else none

/-- The sideband answers: VAUX is in regulation and VIO is in tolerance (R483, R503). -/
def Device.sideband (d : Device) : Bool := d.aon.vaux && !d.aon.vioOut
/-- A block write of a sideband register is accepted: 4 bytes, and a right PEC where one is sent (R535). -/
def Device.sbAccepts (d : Device) (bs : List Byte) (pecOk : Bool) : Bool := d.sideband && bs.length == 4 && pecOk

/-- SB_ALERT_STATUS_WRITE: each 1 clears its bit (R14, R535, R537). -/
def sbAlertStatusWriteEff (bs : List Byte) (pecOk : Bool) (d : Device) : Device :=
  if !d.sbAccepts bs pecOk then d
  else { d with aon := { d.aon with alert := d.aon.alert &&& ~~~(BitVec.ofNat 32 (leNat bs)) } }
/-- The meaning of SB_ALERT_STATUS_WRITE. -/
def execSbAlertStatusWrite (bs : List Byte) (pecOk : Bool) (s : State) : Host.Outcome State Fault Refusal :=
  onDev (sbAlertStatusWriteEff bs pecOk) s
/-- SB_ALERT_MASK_WRITE: the mask is set; its reserved bits stay 0 (R535, R537). -/
def sbAlertMaskWriteEff (bs : List Byte) (pecOk : Bool) (d : Device) : Device :=
  if !d.sbAccepts bs pecOk then d
  else { d with aon := { d.aon with alertMask := BitVec.ofNat 32 (leNat bs % 1024) } }
/-- The meaning of SB_ALERT_MASK_WRITE. -/
def execSbAlertMaskWrite (bs : List Byte) (pecOk : Bool) (s : State) : Host.Outcome State Fault Refusal :=
  onDev (sbAlertMaskWriteEff bs pecOk) s
/-- SMBUS_ALERT_RESPONSE: while ALERT# is asserted the device answers the Alert Response Address with its own address; that does
not deassert ALERT# (R535). -/
def smbusAlertResponseEff (d : Device) : Device :=
  if d.sideband && d.alertPin then { d with aon := { d.aon with araAnswers := (0x48 + d.aon.smbAddr) :: d.aon.araAnswers } } else d
/-- The meaning of SMBUS_ALERT_RESPONSE. -/
def execSmbusAlertResponse (s : State) : Host.Outcome State Fault Refusal := onDev smbusAlertResponseEff s

end Sys2Proof.Machine
end

