-- ==== Sys2Proof/Machine/Writes.lean ====
section
/-! DEFINITION. Writes, GET and FENCE: their effect on an index (R84 to R86, R95, R106, R384 to R389), acceptance (R393), and
their way to another device's home (R472, R473). -/

namespace Sys2Proof.Machine

/-! ### Effects on the structures of an index (R386) -/

/-- The byte of a graph's tombstone bitmap that holds node n's bit, written. -/
def Device.syncNodeTomb (d : Device) (i n : Nat) : Device :=
  match tfind i d.indexes with
  | none => d
  | some x => d.memWrite (x.part 8 + n / 8) (packBools ((List.range 8).map fun k => x.graph.tombs.contains (n / 8 * 8 + k)))

/-- A slot's tombstone bit set and N_LIVE of its cell and index lowered (R95). -/
def Device.tombSlot (d : Device) (i n s : Nat) : Device :=
  let d1 := d.modIndex i fun x =>
    let y := x.modCell n fun c => { c with nLive := c.nLive - 1, cur := { c.cur with tombs := if c.cur.tombs.contains s then c.cur.tombs else c.cur.tombs ++ [s] } }
    { y with nLive := y.nLive - 1 }
  ((((d1.catchUp i n (.tomb s)).syncTomb i n).syncCell i n)).syncRecord i
/-- A node's tombstone bit set and N_LIVE of the index lowered (R95). -/
def Device.tombNode (d : Device) (i n : Nat) : Device :=
  let d1 := d.modIndex i fun x =>
    { x with graph := { x.graph with tombs := if x.graph.tombs.contains n then x.graph.tombs else x.graph.tombs ++ [n] }, nLive := x.nLive - 1 }
  ((d1.catchUp i (n / 64) (.tomb (n % 64))).syncNodeTomb i n).syncRecord i
/-- A delta entry's STATE becomes deleted (2) or superseded (3) and its END_VIEW the present VIEW (R106). -/
def Device.endDelta (d : Device) (i e state : Nat) : Device :=
  (d.modIndex i fun x => match tfind e x.delta with
    | some v => { x with delta := tset e { v with state := state, endView := x.view } x.delta }
    | none => x).syncDelta i e
/-- The vector at a location ceases to be live: tombstoned, or its delta entry ended in a state (R95, R106). A location of
another device is left to it (R472). -/
def Device.endVector (d : Device) (i : Nat) (l : Loc) (state : Nat) : Device :=
  match (tfind i d.indexes).bind fun x => x.away.find? fun p => p.1 == l with
  | some _ => d.modIndex i fun x => { x with away := x.away.filter fun p => p.1 != l }
  | none => match l with
    | .slot n s => d.tombSlot i n s
    | .node n => d.tombNode i n
    | .delta e => d.endDelta i e state

/-- Words selected by a mask replaced, in ascending word order (R72, R385). -/
def maskWords (mask : Nat) (new old : List W64) : List W64 :=
  (old.zipIdx).map fun p =>
    if mask.testBit p.2 then new.getD ((List.range p.2).filter fun w => mask.testBit w).length p.1 else p.1

/-- ATTR_SET at a location: the selected words replaced where the vector lies, and the cell's summary kept true (R91, R386). -/
def Device.setAttrs (d : Device) (i : Nat) (l : Loc) (mask : Nat) (ws : List W64) : Device :=
  match tfind i d.indexes with
  | none => d
  | some x =>
    if x.away.any fun p => p.1 == l then d
    else match l with
    | .slot n s =>
      match tfind s (x.cell n).cur.slots with
      | none => d
      | some v =>
        let new := maskWords mask ws v.attrs
        let d1 := d.modIndex i fun x => x.modCell n fun c =>
          { c with summary := d.summaryAfter x n c.summary [new], cur := { c.cur with slots := tset s { v with attrs := new } c.cur.slots } }
        ((d1.catchUp i n (.attr s new)).syncBlock i n (s / 64)).syncCell i n
    | .node n =>
      match x.graph.node? n with
      | none => d
      | some v =>
        let new := maskWords mask ws v.attrs
        ((d.modIndex i fun x => x.modNode n fun v => { v with attrs := new }).catchUp i (n / 64) (.attr (n % 64) new)).syncNode i n
    | .delta e =>
      (d.modIndex i fun x => match tfind e x.delta with
        | some v => { x with delta := tset e { v with attrs := maskWords mask ws v.attrs } x.delta }
        | none => x).syncDelta i e

/-- A data-path write as an index takes it, whoever submitted it. -/
structure WriteReq where
  op    : IoOp
  id    : W64
  /-- The vector after R47. -/
  vec   : List F32
  attrs : List W64
  mask  : Nat
  fn    : Nat
  qid   : Nat
  cid   : Nat
  stamp : Nat
  deriving DecidableEq, Repr

/-- The write of a command. -/
def Cmd.writeReq (c : Cmd) : WriteReq :=
  { op := c.op, id := c.id, vec := c.vecs.headD [], attrs := c.attrs, mask := c.flags, fn := c.fn, qid := c.qid, cid := c.cid, stamp := c.stamp }

/-- The delta entry of an INSERT or UPSERT with the next LOG_SEQ (R105). -/
def Index.deltaOf (x : Index) (w : WriteReq) : DeltaEntry :=
  { id := w.id, endView := 0, state := 1, upsert := w.op == .upsert, failed := false, target := 0xFFFFFFFF, slot := 0xFFFFFFFF,
    logSeq := x.writeSeq + 1, attrs := w.attrs,
    vec := if x.metric == .ham then formOf .sign1 w.vec else formOf .mxfp8e4m3 w.vec,
    fn := w.fn, sqid := w.qid, cid := w.cid, stamp := w.stamp }

/-- DELTA_HEAD cannot advance (R106). -/
def Index.deltaFull (x : Index) : Bool := (x.deltaHead + 1) % x.deltaEntries == x.deltaTail

/-- The status a write meets at acceptance on an index, in the order of check 7 of R379: CAPACITY_EXCEEDED (R86), DELTA_FULL (R106),
and the rules of R386. -/
def Index.writeStatus (x : Index) (op : IoOp) (found : Bool) : Nat :=
  match op with
  | .insert => if found then stIdExists else if x.nCap ≤ x.occupied then stCapacity else if x.deltaFull then stDeltaFull else 0
  | .upsert => if !found && decide (x.nCap ≤ x.occupied) then stCapacity else if x.deltaFull then stDeltaFull else 0
  | _ => if found then 0 else stIdNotFound

/-- A new delta entry at DELTA_HEAD in both rings, which the ID map names (R85, R106). -/
def Device.addDelta (d : Device) (i : Nat) (w : WriteReq) (found : Bool) : Device :=
  match tfind i d.indexes with
  | none => d
  | some x =>
    let e := x.deltaHead
    let d1 := (d.modIndex i fun x => { x with delta := tset e (x.deltaOf w) x.delta, deltaHead := (e + 1) % x.deltaEntries,
                                              lastLogSeq := x.writeSeq + 1 }).syncDelta i e
    if found then d1.idMove i w.id (.delta e) else d1.idInsert i w.id (.delta e)

/-- The traffic of a data-path write, for the function that submitted it (R29, R30, R361). -/
def Index.dataPath (x : Index) (w : WriteReq) : Traffic :=
  { client := if w.fn < 0x10000 then some w.fn else none, burgee := x.burgee, pennant := 4 }
/-- What ending the vector at a place moves: the NMA operations of a tombstone, or STATE and END_VIEW in both rings (R95, R106). -/
def Device.chargeEnd (d : Device) (x : Index) (t : Traffic) : Loc → Device
  | .slot _ _ => d.chargeNma t 3
  | .node _ => d.chargeNma t 2
  | .delta e => (d.chargeAt t (x.deltaFBase + e * x.deltaLen) 32 true).chargeAt t (x.deltaLogBase + e * x.deltaLen) 32 true
/-- What new attribute words at a place move: the words, and the NMA operations on a cell's summary (R91). -/
def Device.chargeAttrs (d : Device) (x : Index) (t : Traffic) (mask : Nat) : Loc → Device
  | .slot n s =>
    let a := (x.cell n).cur.slotBase + s / 64 * x.blockLen + 576 + 64 * x.codeLen + 8 * x.attrWords * (s % 64)
    let ws := (List.range x.attrWords).filter fun w => mask.testBit w
    (ws.foldl (fun d w => d.chargeAt t (a + 8 * w) 8 true) d).chargeNma t (2 * ws.length)
  | .node n => d.chargeAt t ((tfind (n / 64) x.graph.groups).elim 0 (·.curBase) + 448 * (n % 64) + 384) 64 true
  | .delta e => (d.chargeAt t (x.deltaFBase + e * x.deltaLen + 32) (8 * x.attrWords) true).chargeAt t (x.deltaLogBase + e * x.deltaLen + 32) (8 * x.attrWords) true
/-- What a write moves (R30, R85, R251): its ID map bucket, a new delta entry in both rings, and what it does to a vector held before. -/
def Device.chargeWrite (d : Device) (x : Index) (w : WriteReq) (loc : Option Loc) : Device :=
  let t := x.dataPath w
  let e := x.deltaHead
  let bucket := fun (d : Device) => d.chargeAt t (x.idMapBase + 256 * (idHash x.idMapBuckets w.id).2) 256 true
  let entry := fun (d : Device) =>
    (d.chargeAt t (x.deltaFBase + e * x.deltaLen) x.deltaLen true).chargeAt t (x.deltaLogBase + e * x.deltaLen) x.deltaLen true
  match w.op with
  | .insert => bucket (entry d)
  | .upsert => loc.elim (bucket (entry d)) fun l => (bucket (entry d)).chargeEnd x t l
  | .delete => loc.elim d fun l => (bucket d).chargeEnd x t l
  | .attrSet => loc.elim d fun l => d.chargeAttrs x t w.mask l
  | _ => d

/-- A write applied to an index: its status, its WRITE_SEQ (0 without an effect), and the device (R386). -/
def Device.applyWrite (d : Device) (i : Nat) (w : WriteReq) : Nat × Nat × Device :=
  match d.index? i with
  | none => (stIndexDeleted, 0, d)
  | some x =>
    let at_ := x.lookup w.id
    let st := x.writeStatus w.op at_.isSome
    if st ≠ 0 then (st, 0, d)
    else
      let d0 := d.chargeWrite x w (at_.map (·.2.2))
      let d1 := match w.op, at_ with
        | .insert, _ => d0.addDelta i w false
        | .upsert, none => d0.addDelta i w false
        | .upsert, some (_, _, l) => (d0.addDelta i w true).endVector i l 3
        | .delete, some (b, p, l) => (d0.endVector i l 2).idVacate i b p
        | .attrSet, some (_, _, l) => d0.setAttrs i l w.mask w.attrs
        | _, _ => d0
      let d2 := (d1.modIndex i fun x => { x with writeSeq := x.writeSeq + 1 }).syncRecord i
      (0, x.writeSeq + 1, d2)

/-! ### Homes and twins (R472, R473) -/

/-- The device of a position in this device's own shoal (R458). -/
def Device.devAt (d : Device) (pos : Nat) : Nat := pos + 256 * sideOf d.shoal.device
/-- A device is this one, or a member that is neither LOST nor counted missing (R475). -/
def Device.serves (d : Device) (dev : Nat) : Bool :=
  dev == d.shoal.device || (!d.shoal.split && (tget ({ state := 4 } : Member) dev d.shoal.dir).state != 4)
/-- The device that serves an ID of a shoal index: its home, or the home's twin; none where neither serves (R472). -/
def Device.homeOf (d : Device) (si : ShoalIndex) (id : W64) : Option Nat :=
  let h := d.devAt (si.homes.getD ((mix64 id).toNat / 2 ^ 56) 0)
  if d.serves h then some h
  else if d.shoal.mirrored && d.serves (twinOf h) then some (twinOf h)
  else none

/-- A WRITE_FORWARD's or MIRROR's payload: its sequence number, opcode, index, ID, word mask, attribute words and vector elements,
as 8 B words and FP32 elements (log entry 30). -/
def writeBytes (seq i : Nat) (w : WriteReq) : List Byte :=
  leBytes 8 seq ++ leBytes 8 w.op.code ++ leBytes 8 i ++ leBytes 8 w.id.toNat ++ leBytes 8 w.mask ++ leBytes 8 w.attrs.length ++
    leBytes 8 w.vec.length ++ w.attrs.flatMap (fun (a : W64) => leBytes 8 a.toNat) ++ w.vec.flatMap (fun (x : F32) => leBytes 4 x.toNat)

/-- A write goes to another device under the next FWD_SEQ, kept until its reply; 0 stands for no command (R472). -/
def Device.sendWrite (d : Device) (stamp i burgee home : Nat) (w : WriteReq) : Nat × Device :=
  let seq := tget 1 home d.shoal.fwdSent
  let (tag, d1) := d.newTag
  let bs := writeBytes seq i w
  let f : Forwarded := { stamp := stamp, home := home, fwdSeq := seq, tag := tag, at_ := d.now, bytes := bs }
  let d2 := { d1 with shoal := { d1.shoal with fwdSent := tset home (seq + 1) d1.shoal.fwdSent, forwarded := d1.shoal.forwarded ++ [f] } }
  (tag, d2.send home 0x08 tag burgee false bs)
/-- A command's write is forwarded, to its home or to a device that holds its vector (R472). -/
def Device.forwardWrite (d : Device) (c : Cmd) (home : Nat) : Device :=
  let (tag, d1) := d.sendWrite c.stamp c.indexNo c.burgee home c.writeReq
  d1.modCmd c.stamp fun c => { c with forwarded := c.forwarded ++ [tag] }

/-- The home sends an applied write to its twin, which must answer before the completion unless it is LOST (R473). -/
def Device.mirrorWrite (d : Device) (c : Cmd) (seq : Nat) : Device :=
  if (d.shoalIndex? c.indexNo).isNone || !d.shoal.mirrored || !d.serves (twinOf d.shoal.device) then d
  else
    let (tag, d1) := d.newTag
    let twin := twinOf d.shoal.device
    let p : Outstanding := { tag := tag, kind := 0x10, stamp := c.stamp, dst := twin, at_ := d.now }
    let d2 := { d1 with shoal := { d1.shoal with pending := d1.shoal.pending ++ [p] } }
    (d2.modCmd c.stamp fun c => { c with forwarded := c.forwarded ++ [tag] }).send twin 0x10 tag c.burgee false (writeBytes seq c.indexNo c.writeReq)

/-- The device that serves a position of this device's shoal: its own, or its twin's where that has stopped (R475). -/
def Device.posDev (d : Device) (pos : Nat) : Nat :=
  let p := d.devAt pos
  if d.serves p || !d.shoal.mirrored || !d.serves (twinOf p) then p else twinOf p
/-- The position that holds a cell of a ROUTED index (R466). -/
def ShoalIndex.cellPos (si : ShoalIndex) (n : Nat) : Option Nat := (si.shards.find? fun p => p.2.contains n).map (·.1)
/-- The device that holds a vector a home's ID map names elsewhere: the holder of its cell (R472, R474). -/
def Device.holderOf (d : Device) (si : ShoalIndex) : Loc → Option Nat
  | .slot n _ => (si.cellPos n).map d.posDev
  | _ => none
/-- The REFINE device of an ID whose vector a position holds, where the refine map covers it (R470). -/
def Device.refineFor (d : Device) (si : ShoalIndex) (pos : Nat) (id : W64) : Option Nat :=
  match tfind pos si.refine with
  | some (p, cover) => if (mix64 id).toNat % 1024 < cover then some (d.posDev p) else none
  | none => none
/-- Where this device's own cells hold a live vector of an ID. -/
def Index.findSlot (x : Index) (id : W64) : Option Loc :=
  x.cells.findSome? fun p => (p.2.cur.slots.find? fun q => q.2.id == id && !p.2.cur.tombs.contains q.1).map fun q => Loc.slot p.1 q.1
/-- A tombstone or attribute words for a vector that a shipment holds here, whose view is not published yet (R107, R474). -/
def Device.shippedWrite (d : Device) (i : Nat) (w : WriteReq) : Device :=
  let set := w.op == .attrSet
  let one := fun (s : ShipSlot) =>
    if s.body.id != w.id then s
    else if set then { s with body := { s.body with attrs := maskWords w.mask w.attrs s.body.attrs } } else { s with tomb := true }
  { d with shoal := { d.shoal with received := d.shoal.received.map fun r => if r.index == i then { r with slots := r.slots.map one } else r } }
/-- The part of a write that a device does which only holds the vector, or its refine code, or has it in a shipment: a tombstone, or the attribute
words (R107, R472). -/
def Device.holderWrite (d : Device) (i : Nat) (w : WriteReq) : Device :=
  match d.index? i with
  | none => d
  | some x =>
    let set := w.op == .attrSet
    let d1 := match x.findSlot w.id with
      | none => d
      | some l => if set then d.setAttrs i l w.mask w.attrs else match l with
        | .slot n s => d.tombSlot i n s
        | _ => d
    let g := fun (r : RefineRec) => if set && r.index == i && r.id == w.id then { r with attrs := maskWords w.mask w.attrs r.attrs } else r
    { (d1.shippedWrite i w) with shoal := { (d1.shippedWrite i w).shoal with refined := d1.shoal.refined.map g } }
/-- The shipments under way that carry a delta entry: the devices that have placed it, and none for one that is awaited (R474). -/
def Device.shippedTo (d : Device) (i e : Nat) : List (Option Nat) :=
  (d.shoal.ships.filter fun b => b.index == i && b.entries.any fun p => p.1 == e).map fun b => (b.places.find? fun p => p.1 == e).map fun p => p.2.2.2
/-- A write to a delta entry that is being shipped: the place it has here takes it, one that is not known yet is noted (R107). -/
def Device.noteShipped (d : Device) (i e : Nat) (w : WriteReq) : Device :=
  let devs := d.shippedTo i e
  let d1 := if devs.contains (some d.shoal.device) then d.shippedWrite i w else d
  if devs.contains none then
    { d1 with shoal := { d1.shoal with ships := d1.shoal.ships.map fun b =>
        if b.index == i && (b.entries.any fun p => p.1 == e) && !(b.places.any fun p => p.1 == e) then { b with changed := e :: b.changed } else b } }
  else d1
/-- A DELETE, UPSERT or ATTR_SET reaches the device that holds the vector or to which its delta entry has been shipped, and an ATTR_SET the REFINE
device of a covered ID, as WRITE_FORWARDs whose replies the completion awaits (R107, R472). -/
def Device.tellHolder (d : Device) (c : Cmd) (l : Loc) : Device :=
  match d.shoalIndex? c.indexNo with
  | none => d
  | some si =>
    let self := d.shoal.device
    let away := (d.index? c.indexNo).any fun x => x.away.any fun p => p.1 == l
    let holder := if away then d.holderOf si l else none
    let pos := match l with | .slot n _ => si.cellPos n | _ => none
    let refine := if c.op == .attrSet then (pos.getD (posOf self) |> fun p => d.refineFor si p c.id) else none
    let (ships, d1) := match l with
      | .delta e => ((d.shippedTo c.indexNo e).filterMap id, d.noteShipped c.indexNo e c.writeReq)
      | _ => ([], d)
    ((holder.toList ++ (refine.toList ++ ships)).eraseDups.filter fun h => h != self && d.serves h).foldl (fun d h => d.forwardWrite c h) d1

/-! ### Acceptance, application and completion (R386, R393) -/

/-- Earlier-fetched writes of the same queue pair to the same index have been applied (R393). -/
def Device.writesAhead (d : Device) (c : Cmd) : Bool :=
  d.cmds.any fun e => e.op.isWrite && e.remote.isNone && e.fn == c.fn && e.qid == c.qid && e.indexNo == c.indexNo
    && decide (e.stamp < c.stamp) && e.accepted.isNone

/-- WRITE_ACCEPTANCE: the write takes its place in its index's order of acceptance, once every write to the index fetched earlier
from its queue pair has one; a quiesced device or a deleted index ends it (R393, R493). -/
def writeAcceptanceEff (stamp : Nat) (d : Device) : Device :=
  match d.cmd? stamp with
  | none => d
  | some c =>
    if !c.op.isWrite || c.accepted.isSome || d.writesAhead c then d
    else if d.quiesced then d.endCmd stamp stQuiesced
    else if (d.index? c.indexNo).isNone then d.endCmd stamp stIndexDeleted
    else
      let n := (d.cmds.filterMap (·.accepted)).foldl max 0 + 1
      let d1 := d.modCmd stamp fun c => { c with accepted := some n, phase := .active }
      match d.shoalIndex? c.indexNo, c.remote with
      | some si, none => match d.homeOf si c.id with
        | some h => if h == d.shoal.device then d1 else d1.forwardWrite c h
        | none => d1.endCmd stamp stOffline
      | _, _ => d1
/-- WRITE_ACCEPTANCE (R393). -/
def execWriteAcceptance (stamp : Nat) (s : State) : Host.Outcome State Fault Refusal := onDev (writeAcceptanceEff stamp) s

/-- A write accepted earlier on the same index waits to be applied. -/
def Device.unapplied (d : Device) (c : Cmd) : Bool :=
  d.cmds.any fun e => e.op.isWrite && e.indexNo == c.indexNo && !e.applied && e.forwarded.isEmpty
    && decide ((e.accepted.getD 0) < (c.accepted.getD 0)) && e.accepted.isSome

/-- An accepted write of an opcode is applied to its index, in the order of acceptance (R386): its status, WRITE_SEQ and effect are
decided, and a mirrored home tells its twin. -/
def writeEff (op : IoOp) (stamp : Nat) (d : Device) : Device :=
  match d.cmd? stamp with
  | none => d
  | some c =>
    if c.op != op || c.accepted.isNone || c.applied || !c.forwarded.isEmpty || d.unapplied c then d
    else
      let loc := ((d.index? c.indexNo).bind fun x => x.lookup c.id).map fun p => p.2.2
      let (st, seq, d1) := d.applyWrite c.indexNo c.writeReq
      let d2 := d1.modCmd stamp fun c => { c with applied := true, writeSeq := seq, status := if st = 0 then none else some st }
      if st ≠ 0 then d2
      else match loc with
        | some l => (d2.tellHolder c l).mirrorWrite c seq
        | none => d2.mirrorWrite c seq

/-- INSERT: a new delta entry of LOG_SEQ WRITE_SEQ with an ID map entry of KIND 3, or ID_EXISTS (R386). -/
def execInsert (stamp : Nat) (s : State) : Host.Outcome State Fault Refusal := onDev (writeEff .insert stamp) s
/-- UPSERT: a new delta entry, and any old copy superseded or tombstoned (R386). -/
def execUpsert (stamp : Nat) (s : State) : Host.Outcome State Fault Refusal := onDev (writeEff .upsert stamp) s
/-- DELETE: the vector tombstoned or its delta entry deleted, and its ID map entry vacated, or ID_NOT_FOUND (R386). -/
def execDelete (stamp : Nat) (s : State) : Host.Outcome State Fault Refusal := onDev (writeEff .delete stamp) s
/-- ATTR_SET: the selected words replaced where the vector lies, or ID_NOT_FOUND (R386). -/
def execAttrSet (stamp : Nat) (s : State) : Host.Outcome State Fault Refusal := onDev (writeEff .attrSet stamp) s

/-- A command completes: with its status and SPEC on its queue pair, or for a task of another device with a reply message (R375,
R390, R472). -/
def Device.finishCmd (d : Device) (c : Cmd) (status spec : Nat) (trunc : Bool) : Device :=
  let d1 := d.dropCmd c
  match c.remote with
  | none =>
    (d1.post c.fn c.qid c.cid c.indexNo c.t0 status spec (c.bound && c.op.isSearch) trunc).modQp c.fn c.qid fun p =>
      { p with fencedBy := if p.fencedBy == some c.stamp then none else p.fencedBy }
  | some r => if c.op.isWrite then d1.answerWrite c r status spec else d1

/-- WRITE_COMPLETION: an applied write whose memory effects, twin and holders have accepted it posts its completion: WRITE_SEQ in
SPEC, 0 where it had no effect (R386, R391, R472, R473). -/
def writeCompletionEff (stamp : Nat) (d : Device) : Device :=
  match d.cmd? stamp with
  | none => d
  | some c => if c.op.isWrite && c.applied && c.forwarded.isEmpty then d.finishCmd c (c.status.getD 0) c.writeSeq false else d
/-- WRITE_COMPLETION (R386). -/
def execWriteCompletion (stamp : Nat) (s : State) : Host.Outcome State Fault Refusal := onDev (writeCompletionEff stamp) s

/-! ### GET (R383, R384) -/

/-- Zero padding to a multiple of 64 B. -/
def pad64 (bs : List Byte) : List Byte := fit (roundUp 64 bs.length) bs
/-- Bytes of the code section of GET: the larger of C and D + D/32 (R384). -/
def Index.getCodeLen (x : Index) : Nat := roundUp 64 (max x.codeLen (x.dim + x.dim / 32))
/-- The bytes a GET writes for its GFLAGS (R384). -/
def Index.getLen (x : Index) (gflags : Nat) : Nat :=
  64 + roundUp 64 (8 * x.attrWords) + (if gflags.testBit 0 then x.getCodeLen else 0) +
    (if gflags.testBit 1 then roundUp 64 (x.refLen + x.scaleLen) else 0)

/-- What GET reads at a location: KIND, LOCATION, generation, attribute words, code bytes, refine bytes (R384). -/
def Index.getAt (x : Index) (l : Loc) : Option (Nat × Nat × Nat × List W64 × List Byte × List Byte) :=
  match l with
  | .slot n s =>
    let c := x.cell n
    (tfind s c.cur.slots).map fun v => (1, at_ 20 n + s, c.cur.gen, v.attrs, x.codeBytes v.code,
      (v.refine.elim [] fun r => formBytes r) ++ x.scaleRec v.norm v.refine)
  | .node n =>
    (x.graph.node? n).map fun v => (2, n, (tfind (n / 64) x.graph.groups).elim 0 (·.gen), v.attrs, x.codeBytes v.code,
      (v.refine.elim [] fun r => formBytes r) ++ x.scaleRec v.norm v.refine)
  | .delta e => (tfind e x.delta).map fun v => (3, e, 0, v.attrs, formBytes v.vec ++ formScales v.vec, [])

/-- The output of GET (R384). -/
def Index.getBytes (x : Index) (id : W64) (gflags : Nat) (l : Loc) : Option (Nat × List Byte) :=
  (x.getAt l).map fun (kind, loc, gen, attrs, code, ref) =>
    let codes := gflags.testBit 0
    let refine := gflags.testBit 1
    let codeN := if codes then (if kind = 3 then x.dim + x.dim / 32 else x.codeLen) else 0
    let refN := if refine && kind != 3 then x.refLen + x.scaleLen else 0
    let head := leBytes 8 id.toNat ++ leBytes 1 kind ++ leBytes 1 x.attrWords ++ leBytes 2 codeN ++ leBytes 2 refN ++ leBytes 2 0 ++
      leBytes 8 loc ++ leBytes 4 gen ++ leBytes 4 x.view ++ List.replicate 32 0
    (kind, head ++ pad64 (attrs.flatMap fun (a : W64) => leBytes 8 a.toNat) ++ (if codes then fit x.getCodeLen (code.take codeN) else [])
      ++ (if refine then fit (roundUp 64 (x.refLen + x.scaleLen)) (ref.take refN) else []))

/-- What a GET reads: its ID map bucket, and of the vector's place the ID, code, attribute words and refine code that its flags ask for, or its delta
entry (R84, R384). -/
def Device.chargeGet (d : Device) (x : Index) (t : Traffic) (id : W64) (gflags : Nat) (l : Option Loc) : Device :=
  let d1 := d.readFor t (x.idMapBase + 256 * (idHash x.idMapBuckets id).2) 256
  match l with
  | none => d1
  | some (.delta e) => d1.readFor t (x.deltaFBase + e * x.deltaLen) x.deltaLen
  | some (.node n) => d1.readFor t ((tfind (n / 64) x.graph.groups).elim 0 (·.curBase) + 448 * (n % 64)) 448
  | some (.slot n s) =>
    let c := (x.cell n).cur
    let (b, k) := (c.slotBase + s / 64 * x.blockLen, s % 64)
    let d2 := d1.readFor t (b + 64 + 64 * x.codeLen + 8 * k) 8
    let d3 := if gflags.testBit 0 then d2.readFor t (b + 64 + k * x.codeLen) x.codeLen else d2
    let d4 := if x.attrWords = 0 then d3 else d3.readFor t (b + 576 + 64 * x.codeLen + 8 * x.attrWords * k) (8 * x.attrWords)
    if gflags.testBit 1 && x.refine.isSome then d4.readFor t (c.refineBase + s / 64 * x.refBlock + 64 + k * x.refLen) x.refLen else d4

/-- Output bytes written to a command's output buffer (R376, R380). -/
def Device.putOut (d : Device) (c : Cmd) (relaxed : Bool) (bs : List Byte) : Device :=
  (cutSegs c.out bs).foldl (fun d p => d.toHost c.fn p.1 relaxed p.2) d

/-- GET: once every write to the index fetched earlier from its queue pair has been applied, the vector's location is read from the
ID map and its output written, or ID_NOT_FOUND; on a shoal index whose home is another device a GET_FORWARD is sent (R384, R393,
R472). -/
def getEff (stamp : Nat) (d : Device) : Device :=
  match d.cmd? stamp with
  | none => d
  | some c =>
    let waits := d.cmds.any fun e => e.op.isWrite && e.indexNo == c.indexNo && !e.applied &&
      ((e.fn == c.fn && e.qid == c.qid && decide (e.stamp < c.stamp)) || e.accepted.isSome)
    if c.op != .get || c.remote.isSome || c.phase != .waiting || waits then d
    else if d.quiesced then d.endCmd stamp stQuiesced
    else match d.index? c.indexNo with
    | none => d.endCmd stamp stIndexDeleted
    | some x =>
      let here := fun (d : Device) =>
        let t : Traffic := { client := some c.fn, burgee := x.burgee, pennant := 6 }
        let d := d.chargeGet x t c.id c.flags ((x.lookup c.id).map (·.2.2))
        match (x.lookup c.id).bind fun p => x.getBytes c.id c.flags p.2.2 with
        | none => d.endCmd stamp stIdNotFound
        | some (kind, bs) => (d.putOut c false bs).finishCmd c 0 (kind + at_ 32 bs.length) false
      match d.shoalIndex? c.indexNo with
      | none => here d
      | some si =>
        let away := (x.lookup c.id).bind fun p => if x.away.any (fun q => q.1 == p.2.2) then d.holderOf si p.2.2 else none
        match d.homeOf si c.id with
        | none => d.endCmd stamp stOffline
        | some h =>
          let dst := if h == d.shoal.device then away.getD h else h
          if dst == d.shoal.device then here d
          else if !d.serves dst then d.endCmd stamp stOffline
          else
            let (tag, d1) := d.newTag
            let p : Outstanding := { tag := tag, kind := 0x0A, stamp := stamp, dst := dst, at_ := d.now }
            let d2 := { d1 with shoal := { d1.shoal with pending := d1.shoal.pending ++ [p] } }
            (d2.modCmd stamp fun c => { c with phase := .active, forwarded := c.forwarded ++ [tag] }).send dst 0x0A tag c.burgee false
              (leBytes 8 c.indexNo ++ leBytes 8 c.id.toNat ++ leBytes 8 c.flags ++ leBytes 8 d.shoal.device ++ leBytes 8 tag)
/-- GET (R384). -/
def execGet (stamp : Nat) (s : State) : Host.Outcome State Fault Refusal := onDev (getEff stamp) s

/-! ### FENCE (R388, R389) -/

/-- A queue pair of function f lies in the SCOPE of a FENCE. -/
def Device.inScope (d : Device) (c : Cmd) (scope f q : Nat) : Bool :=
  match scope with
  | 0 => f == c.fn && q == c.qid
  | 1 => f == c.fn
  | _ => (d.fn f).assigned && (d.fn f).burgee == (d.fn c.fn).burgee
/-- SCOPE and FFLAGS of a FENCE, as its command keeps them. -/
def Cmd.scope (c : Cmd) : Nat := c.flags % 256
/-- ALL_INDEXES, READS and SETTLE. -/
def Cmd.fflag (c : Cmd) (b : Nat) : Bool := c.flags.testBit (8 + b)

/-- W of a FENCE: the commands in flight that were fetched before it, in its scope and on its index or any (R389). -/
def Device.fenceW (d : Device) (c : Cmd) : List Nat :=
  (d.cmds.filter fun e => e.remote.isNone && decide (e.stamp < c.stamp) && (e.op.isWrite || (c.fflag 1 && e.op != .fence))
    && (c.fflag 0 || e.indexNo == c.indexNo) && d.inScope c c.scope e.fn e.qid).map (·.stamp)

/-- FENCE: its set W is taken, and its queue pair is held until it completes (R389). -/
def fenceEff (stamp : Nat) (d : Device) : Device :=
  match d.cmd? stamp with
  | none => d
  | some c =>
    if c.op != .fence || c.phase != .waiting then d
    else
      let w := d.fenceW c
      d.modCmd stamp fun c => { c with phase := .active, fenceSet := w, fenceN := w.length }
/-- FENCE (R389). -/
def execFence (stamp : Nat) (s : State) : Host.Outcome State Fault Refusal := onDev (fenceEff stamp) s

/-- An INSERT or UPSERT of a FENCE's set still waits to merge, with no MERGE_FAILED record written for it (R389). -/
def Device.unsettled (d : Device) (c : Cmd) : Bool :=
  d.indexes.any fun p => (c.fflag 0 || p.1 == c.indexNo) && p.2.burgee == (d.fn c.fn).burgee &&
    p.2.delta.any fun q => q.2.state == 1 && !q.2.reported && decide (q.2.stamp < c.stamp) && decide (q.2.fn < 256) && d.inScope c c.scope q.2.fn q.2.sqid

/-- FENCE_COMPLETION: every command of W has completed or been torn down, and with SETTLE every merge has finished: the completion
is posted with the number of commands in W, and its queue pair is released (R389, R391). -/
def fenceCompletionEff (stamp : Nat) (d : Device) : Device :=
  match d.cmd? stamp with
  | none => d
  | some c =>
    let open_ := c.fenceSet.any fun s => (d.cmd? s).isSome
    if c.op != .fence || c.phase != .active || open_ || (c.fflag 2 && d.unsettled c) then d
    else d.finishCmd c 0 (min c.fenceN 0xFFFFFFFF) false
/-- FENCE_COMPLETION (R389). -/
def execFenceCompletion (stamp : Nat) (s : State) : Host.Outcome State Fault Refusal := onDev (fenceCompletionEff stamp) s

end Sys2Proof.Machine
end

