-- ==== Sys2Proof/Machine/Queues.lean ====
section
/-! DEFINITION. Queue pairs: doorbells, fetching and arbitration, the checks of a submission entry, interrupts, and what becomes of
queue pairs on host loss, Bus Master Enable and function reset (R366 to R385, R400 to R404). -/

namespace Sys2Proof.Machine

/-! ### Doorbells (R372, R373, R401) -/

/-- The queue pair enters ERROR and QP_ERROR is raised (R373). -/
def Device.qpError (d : Device) (f q : Nat) : Device := (d.modQp f q fun p => { p with err := true }).fnEvent f evQpError

/-- SQ_TAIL_DOORBELL: VALUE becomes SQ_TAIL, or the pair enters ERROR where it is at or above SQ_SIZE (R372, R373). -/
def sqTailDoorbellEff (f q v : Nat) (d : Device) : Device :=
  match d.qp f q with
  | none => d
  | some p => if p.sqSize ≤ v % 65536 then d.qpError f q else d.modQp f q fun p => { p with sqTail := v % 65536 }
/-- SQ_TAIL_DOORBELL (R372). -/
def execSqTailDoorbell (f q v : Nat) (s : State) : Host.Outcome State Fault Refusal := onDev (sqTailDoorbellEff f q v) s

/-- CQ_HEAD_DOORBELL: VALUE becomes CQ_HEAD and frees the slots it passes, or the pair enters ERROR; completions left unconsumed start
their coalescing time anew (R373, R401). -/
def cqHeadDoorbellEff (f q v : Nat) (d : Device) : Device :=
  match d.qp f q with
  | none => d
  | some p =>
    let h := v % 65536
    let freed := (h + p.cqSize - p.cqHead) % p.cqSize
    if p.cqSize ≤ h || p.unread < freed then d.qpError f q
    else
      let left := p.unread - freed
      let d1 := d.modQp f q fun p => { p with cqHead := h, unread := left, waitFrom := if left = 0 then none else some d.now }
      if p.irqEn && 0 < left && p.aggTime == 0 then d1.cqSignal f q else d1
/-- CQ_HEAD_DOORBELL (R401). -/
def execCqHeadDoorbell (f q v : Nat) (s : State) : Host.Outcome State Fault Refusal := onDev (cqHeadDoorbellEff f q v) s

/-- INTERRUPT_COALESCE_TIMER: posted completions have waited AGG_TIME without a message: the CQ's vector is sent (R401). -/
def interruptCoalesceTimerEff (f q : Nat) (d : Device) : Device :=
  match d.qp f q with
  | none => d
  | some p => match p.irqEn, p.waitFrom with
    | true, some t => (d.by (t + 1000 * p.aggTime)).cqSignal f q
    | _, _ => d
/-- INTERRUPT_COALESCE_TIMER (R401). -/
def execInterruptCoalesceTimer (f q : Nat) (s : State) : Host.Outcome State Fault Refusal := onDev (interruptCoalesceTimerEff f q) s

/-! ### Fetching and arbitration (R374) -/

/-- Commands of this device's hosts in flight. -/
def Device.hostCmds (d : Device) : Nat := (d.cmds.filter (·.remote.isNone)).length

/-- The HQE may fetch an entry from a queue pair (R374, R389, R402, R493). -/
def Device.mayFetch (d : Device) (f q : Nat) : Bool :=
  match d.qp f q with
  | none => false
  | some p =>
    d.ready && (!d.frozen || d.quiesced) && (d.fn f).bme && d.portUp f && !p.err && p.fencedBy.isNone && p.sqTail != p.sqHead
      && decide (p.inFlight + p.unread < p.cqSize - 1) && decide (d.hostCmds < 65536)

/-- The first number of an ascending list past the one served last, going round (R374). -/
def roundRobin (last : Option Nat) (xs : List Nat) : Option Nat :=
  match last with
  | none => xs.head?
  | some l => (xs.find? fun x => decide (l < x)).or xs.head?

/-- Queue pairs with an entry the HQE may fetch, in ascending order. -/
def Device.fetchable (d : Device) : List (Nat × Nat) :=
  d.fns.flatMap fun p => (p.2.qps.map fun q => (p.1, q.1)).filter fun k => d.mayFetch k.1 k.2

/-- The queue pair the next entry comes from: the one whose turn it is until it has given FETCH_WEIGHT entries, else the next by
ports, then functions of the port, then queue pairs of the function (R374). -/
def Device.nextPair (d : Device) : Option (Nat × Nat) :=
  let can := d.fetchable
  let cur := (tfind 0 d.lastQp).map fun k => (k / 1024, k % 1024)
  match cur.filter fun k => can.contains k && (d.qp k.1 k.2).elim false fun p => decide (0 < p.turn) && decide (p.turn < p.weight) with
  | some k => some k
  | none =>
    (roundRobin (tfind 1 d.lastQp) ((List.range 4).filter fun h => can.any fun k => portOf k.1 == h)).bind fun h =>
      (roundRobin (tfind (2 + h) d.lastQp) ((List.range 64).map (64 * h + ·) |>.filter fun f => can.any fun k => k.1 == f)).bind fun f =>
        (roundRobin (tfind (16 + f) d.lastQp) ((can.filter fun k => k.1 == f).map (·.2))).map fun q => (f, q)

/-- The arbiter's record of an entry taken from a pair. -/
def Device.tookFrom (d : Device) (f q : Nat) : Device :=
  let same := tfind 0 d.lastQp == some (1024 * f + q) && (d.qp f q).elim false fun p => decide (0 < p.turn) && decide (p.turn < p.weight)
  let d1 := { d with lastQp := tset (16 + f) q (tset (2 + portOf f) f (tset 1 (portOf f) (tset 0 (1024 * f + q) d.lastQp))) }
  d1.modQp f q fun p => { p with turn := if same then p.turn + 1 else 1 }

/-! ### The checks of R379 -/

/-- The command of an OPCODE (R378). -/
def ioOpOf : Nat → Option IoOp
  | 0x01 => some .search | 0x02 => some .msearch | 0x03 => some .range | 0x04 => some .get | 0x08 => some .insert
  | 0x09 => some .upsert | 0x0A => some .delete | 0x0B => some .attrSet | 0x10 => some .fence | _ => none

/-- β of R170 is in range: ±0, or positive, normal and at most 2^16. -/
def betaOk (b : F32) : Bool := vIsZero (f32Val b) || (f32PosNormal b && vLe (f32Val b) (.fin false 1 16))

/-- Check 1 on the fields of the three search commands (R119, R170, R382). -/
def searchFixed (op : IoOp) (e : List Byte) : Bool :=
  let k := fieldAt e 32 2
  let dl := fieldAt e 40 4
  let fid := fieldAt e 48 2
  let th := BitVec.ofNat 32 (fieldAt e 56 4)
  1 ≤ k && k ≤ 1024 && fieldAt e 53 1 < 16 && (dl == 0 || (100 ≤ dl && dl ≤ 1000000)) && fid ≤ 4095 && fieldAt e 61 1 ≤ 8
    && (fid != 0 || fieldAt e 61 1 == 0) && betaOk (BitVec.ofNat 32 (fieldAt e 44 4))
    && (if op == .msearch then 1 ≤ fieldAt e 54 2 && fieldAt e 54 2 ≤ 512 && fieldAt e 60 1 ≤ 1 else fieldAt e 54 2 == 0 && fieldAt e 60 1 == 0)
    && (if op == .range then !f32IsNaN th else th == 0)

/-- Check 1: reserved values and fixed ranges of the entry (R377 to R388). -/
def entryFixed (e : List Byte) : Bool :=
  let inLen := fieldAt e 16 4
  let outLen := fieldAt e 20 4
  let cf := fieldAt e 1 1
  match ioOpOf (fieldAt e 0 1) with
  | none => false
  | some op =>
    cf < 4 && inLen ≤ 0x1000000 && outLen ≤ 0x1000000
      && (inLen == 0 || cf.testBit 0 || fieldAt e 8 8 % 4 == 0) && (outLen == 0 || cf.testBit 1 || fieldAt e 24 8 % 4 == 0)
      && (fieldAt e 4 2 < 1024 || (op == .fence && (fieldAt e 33 1).testBit 0))
      && (match op with
          | .fence => fieldAt e 32 1 ≤ 2 && fieldAt e 33 1 < 8 && inLen == 0 && outLen == 0
          | .get => inLen == 0 && fieldAt e 40 1 < 4
          | .attrSet => fieldAt e 40 1 != 0
          | .insert | .upsert | .delete => fieldAt e 40 1 == 0
          | _ => searchFixed op e)

/-- F in force: OVERFETCH where stage C or D runs, else 1 (R119). -/
def SearchParams.f (p : SearchParams) : Nat := if p.stageC || p.stageD then p.overfetch else 1
/-- m' of R157. -/
def SearchParams.cap (p : SearchParams) : Nat := p.k * p.f + (if p.ties then 64 else 0)
/-- The effective beam width of R119. -/
def SearchParams.width (p : SearchParams) : Nat := max p.beam (p.k * p.f)
/-- EXPAND_MAX as R119 resolves it. -/
def SearchParams.budget (p : SearchParams) : Nat := if p.expandMax = 0 then min 4096 (4 * p.width) else p.expandMax
/-- RUN_AHEAD as R119 resolves it. -/
def SearchParams.ahead (p : SearchParams) : Nat := if p.runAhead = 0 then 4 else p.runAhead
/-- SKETCH_KEEP as R119 resolves it. -/
def SearchParams.kept (p : SearchParams) : Nat := if p.keep = 0 then 16 else p.keep

/-- The search parameters of an entry for an index (R119, R382): OVERFETCH, STAGE_C and STAGE_D are ignored for HAM. -/
def searchParams (op : IoOp) (e : List Byte) (x : Index) : SearchParams :=
  let ham := x.metric == .ham
  let sf := fieldAt e 53 1
  let b := BitVec.ofNat 32 (fieldAt e 44 4)
  { k := fieldAt e 32 2, probes := fieldAt e 34 2, beam := fieldAt e 36 2, expandMax := fieldAt e 38 2,
    runAhead := fieldAt e 51 1, keep := fieldAt e 52 1, overfetch := fieldAt e 50 1, filterId := fieldAt e 48 2,
    beta := if vIsZero (f32Val b) then 0x3F800000 else b, stageC := sf.testBit 0 && !ham, stageD := sf.testBit 1 && !ham,
    ties := sf.testBit 2, boundOnly := sf.testBit 3,
    threshold := if op == .range then some (BitVec.ofNat 32 (fieldAt e 56 4)) else none,
    nvec := if op == .msearch then fieldAt e 54 2 else 1, aggSum := op == .msearch && fieldAt e 60 1 == 1 }

/-- Bytes from one input vector to the next (R381). -/
def Index.stride (x : Index) : Nat := roundUp 64 (inputBytes x.inputFmt x.dim)

/-- Check 4 for a search: fields whose range depends on the index, and IN_LEN and OUT_LEN (R119, R141, R381). DESIGN CHOICE: STAGE_C,
which is ignored for a HAM index, counts as clear there for AGG SUM too, which the model therefore rejects (log entry 48). -/
def searchRanges (op : IoOp) (e : List Byte) (x : Index) : Bool :=
  let p := searchParams op e x
  let later := p.stageC || p.stageD
  (!later || (x.refine.isSome && 1 ≤ p.overfetch && p.overfetch ≤ 8)) && (!p.aggSum || p.stageC)
    && (x.kind != .cell || (1 ≤ p.probes && p.probes ≤ (if x.stageA = 1 then 512 else 4096) && (x.stageA != 1 || p.runAhead ≤ 4)))
    && (x.kind != .graph || (16 ≤ p.beam && p.beam ≤ 1024 && p.expandMax ≤ 4096 && p.runAhead ≤ 4
          && (p.keep == 0 || (4 ≤ p.keep && p.keep ≤ 32)) && p.k * p.f ≤ 1024))
    && (p.filterId == 0 || (match tfind p.filterId x.filters with | some g => g.nParams == fieldAt e 61 1 | none => false))
    && fieldAt e 16 4 == p.nvec * x.stride + 8 * fieldAt e 61 1
    && 64 + 16 * (p.k + (if p.ties then 64 else 0)) ≤ fieldAt e 20 4

/-- Check 4 (R71, R72, R119, R141, R381, R383 to R385). -/
def entryRanges (op : IoOp) (e : List Byte) (x : Index) : Bool :=
  let inLen := fieldAt e 16 4
  let outLen := fieldAt e 20 4
  let mask := fieldAt e 40 1
  let idOk := BitVec.ofNat 64 (fieldAt e 32 8) != fillerId
  match op with
  | .fence => true
  | .get => idOk && (!mask.testBit 1 || x.refine.isSome) && x.getLen mask ≤ outLen
  | .insert | .upsert => idOk && outLen == 0 && inLen == x.stride + 8 * x.attrWords
  | .delete => idOk && outLen == 0 && inLen == 0
  | .attrSet => idOk && outLen == 0 && mask < 2 ^ x.attrWords && inLen == 8 * ((List.range 8).filter fun w => mask.testBit w).length
  | _ => searchRanges op e x

/-- The permission an opcode needs (R369, R378). -/
def permOk (n : Fn) (op : IoOp) : Bool :=
  match op with
  | .fence => true
  | .search | .msearch | .range | .get => n.permRead
  | _ => n.permWrite

/-- The words of 8 B from an offset on. -/
def wordsAt (bs : List Byte) (off n : Nat) : List W64 := (List.range n).map fun i => BitVec.ofNat 64 (fieldAt bs (off + 8 * i) 8)

/-- Every value of a list of options, or none. -/
def allSome : List (Option α) → Option (List α)
  | [] => some []
  | x :: xs => x.bind fun v => (allSome xs).map fun vs => v :: vs

/-- Vectors of the input buffer, checked by R47; a query also passes the adapter (R121). -/
def inputVectors (op : IoOp) (x : Index) (n : Nat) (data : List Byte) : Option (List (List F32)) :=
  allSome ((List.range n).map fun j =>
    let xs := inputElems x.inputFmt x.dim ((data.drop (j * x.stride)).take x.stride)
    if op.isSearch then prepareQuery x.metric x.adapter xs else checkVector x.metric xs)

/-- The resident model suits an index: its input width is 2D + 1 (R147). -/
def Device.modelFits (d : Device) (x : Index) : Bool :=
  match tfind d.model d.models with
  | some m => modelInputWidth m == 2 * x.dim + 1
  | none => false

/-- The checks of R379 in their order: the first that fails gives a status, else the command with its data. -/
def Device.checkEntry (d : Device) (f q stamp : Nat) (e : List Byte) (h : HostAnswer) : Except Nat Cmd :=
  let n := d.fn f
  let i := fieldAt e 4 2
  let cf := fieldAt e 1 1
  if !entryFixed e then .error stInvalidField
  else match ioOpOf (fieldAt e 0 1) with
  | none => .error stInvalidField
  | some op =>
    let c0 : Cmd := { stamp := stamp, fn := f, qid := q, half := (d.qp f q).elim 0 (·.half), burgee := n.burgee, cid := fieldAt e 2 2,
                      indexNo := i, op := op, t0 := d.now, deadline := none, out := [] }
    if op == .fence then
      if !(fieldAt e 33 1).testBit 0 && !((d.index? i).elim false fun x => x.burgee == n.burgee) then .error stIndexAbsent
      else .ok { c0 with flags := fieldAt e 32 1 + at_ 8 (fieldAt e 33 1) }
    else match d.index? i with
    | none => .error stIndexAbsent
    | some x =>
      if x.burgee != n.burgee then .error stIndexAbsent
      else if !permOk n op then .error stAccessDenied
      else if !entryRanges op e x then .error stInvalidField
      else match segsOf (cf.testBit 0) true (fieldAt e 8 8) (fieldAt e 16 4) h.inList with
      | .error s => .error s
      | .ok _ => match segsOf (cf.testBit 1) false (fieldAt e 24 8) (fieldAt e 20 4) h.outList with
      | .error s => .error s
      | .ok outs => match (if fieldAt e 16 4 = 0 then some [] else h.data) with
      | none => .error stHostAccess
      | some raw =>
        let data := fit (fieldAt e 16 4) raw
        let sp := if op.isSearch then searchParams op e x else {}
        let nv := if op.isSearch then sp.nvec else if op == .insert || op == .upsert then 1 else 0
        match inputVectors op x nv data with
        | none => .error stInvalidVector
        | some vs =>
          if op.isSearch && sp.stageD && !d.modelFits x then .error stNoModel
          else if op.isSearch && (d.mb 0).out && (d.mb 1).out then .error stSelectFault
          else
            let dl := fieldAt e 40 4
            .ok { c0 with
              out := outs, vecs := vs, sp := sp,
              id := if op.isSearch then 0 else BitVec.ofNat 64 (fieldAt e 32 8),
              flags := if op.isSearch then fieldAt e 53 1 else fieldAt e 40 1,
              deadline := if op.isSearch then some (d.now + 1000 * (if dl = 0 then (d.burgee n.burgee).defDead else dl)) else none,
              ps := if op.isSearch then wordsAt data (nv * x.stride) (fieldAt e 61 1) else [],
              attrs := if op == .attrSet then wordsAt data 0 (fieldAt e 16 4 / 8)
                       else if op == .insert || op == .upsert then wordsAt data x.stride x.attrWords else [] }

/-- SQE_FETCH: where it is the pair's turn, the HQE takes its next entry, stamps and checks it; a command that fails a check, or that
meets a quiesce or a disabled data path, completes at once, and a fetch that times out puts the pair in ERROR (R374, R379, R404). -/
def sqeFetchEff (f q : Nat) (host : HostAnswer) (d : Device) : Device :=
  if d.nextPair != some (f, q) then d
  else match host.entry with
  | none => (d.tookFrom f q).qpError f q
  | some raw =>
    let e := fit 64 raw
    let stamp := d.stamp + 1
    let d1 := ({ d with stamp := stamp }.tookFrom f q).modQp f q fun p =>
      { p with sqHead := if p.sqHead + 1 == p.sqSize then 0 else p.sqHead + 1, inFlight := p.inFlight + 1 }
    let fail := fun st => d1.post f q (fieldAt e 2 2) (fieldAt e 4 2) d.now st 0 false false
    if d.quiesced then fail stQuiesced
    else if !d.dataPath then fail stDataPath
    else match d1.checkEntry f q stamp e host with
    | .error st => fail st
    | .ok c =>
      let d2 := { d1 with cmds := d1.cmds ++ [c] }
      if c.op == .fence then d2.modQp f q fun p => { p with fencedBy := some stamp } else d2
/-- SQE_FETCH (R374). -/
def execSqeFetch (f q : Nat) (host : HostAnswer) (s : State) : Host.Outcome State Fault Refusal := onDev (sqeFetchEff f q host) s

/-! ### Teardown of queue pairs and functions (R364, R371, R402, R403) -/

/-- Writes that have been accepted take effect in the order of acceptance, whatever becomes of their commands (R365, R393). -/
def Device.applyAccepted (d : Device) : Device :=
  let ws := d.cmds.filter fun c => c.op.isWrite && c.accepted.isSome && !c.applied && c.forwarded.isEmpty
  (sortBy (fun (a b : Cmd) => decide (a.accepted.getD 0 < b.accepted.getD 0)) ws).foldl (fun d c => writeEff c.op c.stamp d) d

/-- A queue pair is torn down: accepted writes stay, its commands end with no completion, and it is gone; a deferred error it had still to flag is left to
the function (R371, R399). -/
def Device.dropQp (d0 : Device) (f q : Nat) : Device :=
  let d := d0.applyAccepted
  let d1 := ((d.cmds.filter fun c => c.remote.isNone && c.fn == f && c.qid == q).map (·.stamp)).foldl (fun d s => d.killCmd s) d
  let def_ := (d.qp f q).elim false (·.deferred)
  d1.modFn f fun n => { n with qps := tdel q n.qps, deferred := n.deferred || def_ }
/-- Every queue pair of a function is torn down. -/
def Device.dropQps (d : Device) (f : Nat) : Device := ((d.fn f).qps.map (·.1)).foldl (fun d q => d.dropQp f q) d

/-- A mailbox after a function reset: nothing outstanding, TAIL, HEAD and MB_DONE 0 (R532). -/
def Mailbox.clear (b : Mailbox) : Mailbox := { b with slots := [], tail := 0, head := 0, overflow := false }
/-- A function at its reset values but for its assignment (R402, R534). -/
def Fn.cleared (n : Fn) : Fn :=
  { assigned := n.assigned, burgee := n.burgee, permRead := n.permRead, permWrite := n.permWrite, permAdmin := n.permAdmin,
    qpMax := n.qpMax, msixSize := n.msixSize, mb := n.mb.clear, account := n.account }

/-- Started requests of a function that wait are abandoned before their commit point, or run on with no response to write (R532). -/
def Device.dropRequests (d : Device) (f : Nat) : Device :=
  let d1 := match d.mgmt.geoWrite with
    | some (m, _, _, _) => if m = f then
        { d with mgmt := { d.mgmt with geoWrite := none }, burgees := d.burgees.map fun (p : Nat × Burgee) => (p.1, { p.2 with geoWait := false }) } else d
    | none => d
  let act := d1.ens.activation.map fun (a : Activation) => if a.req.1 = f then { a with req := (512, 0) } else a
  let wait := d1.shoal.waitAdmin.filter fun (w : Nat × Nat) => w.1 != f
  let keep := fun (q : Nat × Nat) => q.1 != f
  { d1 with ens := { d1.ens with activation := act }, shoal := { d1.shoal with waitAdmin := wait },
            jobs := d1.jobs.map fun (j : Job) => { j with stopReq := j.stopReq.filter keep },
            tiers := { d1.tiers with chans := d1.tiers.chans.map fun (p : Nat × Channel) => (p.1, { p.2 with retrainReq := p.2.retrainReq.filter keep }) } }
/-- A function reset of one function (R363, R403, R532). -/
def Device.resetFn (d0 : Device) (f : Nat) : Device :=
  let d := d0.dropRequests f
  let d1 := (d.dropQps f).modFn f fun n => { n.cleared with account := {} }
  if (d.fn f).assigned then
    d1.modBurgee (d.fn f).burgee fun b => { b with qwait := tdel f b.qwait, qwaitMax := tdel f b.qwaitMax }
  else d1

/-- FUNCTION_LEVEL_RESET: the function is torn down; a PF's reset clears VF Enable and tears down every VF of its port (R403). -/
def functionLevelResetEff (f : Nat) (d : Device) : Device :=
  if f % 64 = 0 then
    let fs := f :: (d.fns.map (·.1)).filter fun g => portOf g == portOf f && g != f
    (fs.foldl (fun d g => d.resetFn g) d).modFn f fun n => { n with vfEnable := false }
  else d.resetFn f
/-- FUNCTION_LEVEL_RESET (R403). -/
def execFunctionLevelReset (f : Nat) (s : State) : Host.Outcome State Fault Refusal := onDev (functionLevelResetEff f) s

/-- Functions of a port that the device keeps state for. -/
def Device.portFns (d : Device) (p : Nat) : List Nat := (d.fns.map (·.1)).filter fun f => portOf f == p

/-- HOST_LOSS: every queue pair of the port's functions is deleted, and the writes and messages not yet sent are discarded (R402); during
a WARM reset it takes effect after READY (R502). -/
def hostLossEff (p : Nat) (d : Device) : Device :=
  let warm := d.phase == .draining || d.phase == .warmDone
  if warm then { d with ports := lmod p (fun k => { k with resetDue := true }) d.ports } else
  let d1 := { d with ports := lmod p (fun k => { k with up := false, lost := true, resetDue := false }) d.ports }
  (d1.portFns p).foldl (fun d f => (d.dropQps f).modFn f fun n => { n with heldOut := [] }) d1
/-- HOST_LOSS (R402). -/
def execHostLoss (p : Nat) (s : State) : Host.Outcome State Fault Refusal := onDev (hostLossEff p) s

/-- PORT_RETRAIN: after the link returns, the port's functions are at their reset values but for their assignment, with QUEUES_LOST set
(R402, R534). -/
def portRetrainEff (p : Nat) (d : Device) : Device :=
  match d.ports[p]? with
  | none => d
  | some k =>
    if !k.lost then d
    else
      let d1 := { d with ports := lmod p (fun k => { k with up := true, lost := false }) d.ports }
      (d1.portFns p).foldl (fun d f => (d.modFn f Fn.cleared).fnEvent f evQueuesLost) d1
/-- PORT_RETRAIN (R402). -/
def execPortRetrain (p : Nat) (s : State) : Host.Outcome State Fault Refusal := onDev (portRetrainEff p) s

/-- BUS_MASTER_ENABLE_CLEAR: the HQE stops fetching for the function, and its writes and messages wait (R402). -/
def execBusMasterEnableClear (f : Nat) (s : State) : Host.Outcome State Fault Refusal := onDev (fun d => d.modFn f fun n => { n with bme := false }) s

/-- Messages of vectors that are pending and not masked are sent, and their pending bits clear (R402, R533). -/
def Device.sendPending (d : Device) (f : Nat) : Device :=
  let n := d.fn f
  let go := n.pba.filter fun v => !(tget ({} : MsixEntry) v n.msix).masked
  let d1 := d.modFn f fun n => { n with pba := n.pba.filter fun v => !go.contains v }
  go.reverse.foldl (fun d v => d.msix f v) d1
/-- BUS_MASTER_ENABLE_SET: the writes that waited are made in their order, and then the pending messages (R402). -/
def busMasterEnableSetEff (f : Nat) (d : Device) : Device :=
  let held := (d.fn f).heldOut
  let d1 := d.modFn f fun n => { n with bme := true, heldOut := [] }
  (held.foldl (fun d e => d.emit e) d1).sendPending f
/-- BUS_MASTER_ENABLE_SET (R402). -/
def execBusMasterEnableSet (f : Nat) (s : State) : Host.Outcome State Fault Refusal := onDev (busMasterEnableSetEff f) s

end Sys2Proof.Machine
end

