-- ==== Sys2Proof/Machine/VeOps.lean ====
section
/-! DEFINITION. The micro-ops of the Vector Engine (R216 to R227): what each does to one lane, to the registers and to the exact
accumulators; and element programs, the score transforms of indexes (R233 to R235). -/

namespace Sys2Proof.Machine

/-! ### Micro-ops and their types -/

/-- A micro-op word: its OPCODE and its other fields (R218). -/
def microOf (w : W64) : Nat × Micro :=
  let n := w.toNat
  (bits 63 56 n, { typ := bits 55 53 n, dst := bits 52 47 n, a := bits 46 41 n, b := bits 40 35 n, c := bits 34 29 n,
                   mask := bits 28 26 n, imm := bits 25 0 n })

/-- The TYPEs an opcode takes: 0 FP32, 1 INT32, 2 BF16, 3 FP16, 4 INT8; none for a reserved opcode (R220). -/
def microTypes (op : Nat) : List Nat :=
  if op = 1 ∨ op = 2 ∨ op = 3 ∨ op = 6 ∨ op = 7 then [0, 1, 2, 3, 4]
  else if op = 4 then [0, 1, 2, 3]
  else if op = 5 ∨ op = 8 ∨ op = 9 then [0, 2, 3]
  else if op = 0x0A ∨ op = 0x0B ∨ op = 0x0C then [0]
  else if 0x10 ≤ op ∧ op ≤ 0x15 then [0]
  else if op = 0x20 then [0, 2]
  else if 0x21 ≤ op ∧ op ≤ 0x23 then [0]
  else if 0x30 ≤ op ∧ op ≤ 0x32 then [0, 1, 2, 3, 4]
  else if op = 0x33 then [0, 2, 3]
  else if op = 0x34 then [0, 1, 2, 3, 4]
  else if op = 0x40 then [0, 1]
  else if op = 0x41 then [0]
  else if 0x50 ≤ op ∧ op ≤ 0x52 then [1, 4]
  else if op = 0x53 ∨ op = 0x54 then [1]
  else if 0x60 ≤ op ∧ op ≤ 0x62 then [0, 1, 2, 3, 4]
  else if op = 0x70 ∨ op = 0x71 then [0]
  else if op = 0x80 ∨ op = 0x81 then [0, 1, 2, 3, 4]
  else []

/-- Sources an opcode reads, of A, B and C (R220). -/
def microArity (op : Nat) : Nat :=
  if op = 5 then 3
  else if op = 1 ∨ op = 8 ∨ op = 9 ∨ op = 0x0B ∨ (0x10 ≤ op ∧ op ≤ 0x23) ∨ op = 0x40 ∨ op = 0x60 ∨ op = 0x62 ∨ op = 0x81 then 1
  else if op = 0x41 ∨ op = 0x71 ∨ op = 0x80 then 0
  else 2

/-- The opcode writes a mask register (R220). -/
def microCompares (op : Nat) : Bool := 0x30 ≤ op && op ≤ 0x33

/-- LANE_MODE of a TYPE (R218). -/
def modeOfType (t : Nat) : Nat := if t ≤ 1 then 0 else if t ≤ 3 then 1 else 2
/-- Lanes of a mode (R216). -/
def lanesN (mode : Nat) : Nat := if mode = 0 then 128 else if mode = 1 then 256 else 512
/-- Lane width of a mode in bits (R216). -/
def laneBits (mode : Nat) : Nat := if mode = 0 then 32 else if mode = 1 then 16 else 8
/-- The floating-point format of a TYPE; integer types have none. -/
def typeFloat : Nat → Option FFormat
  | 0 => some fmtFP32 | 2 => some fmtBF16 | 3 => some fmtFP16 | _ => none
/-- Lane width of a TYPE in bits. -/
def typeBits (t : Nat) : Nat := laneBits (modeOfType t)

/-- The bits of IMM an opcode uses are all that is set of it (R218). -/
def immOk (op imm : Nat) : Bool :=
  if op = 0x40 then imm ≤ 8
  else if op = 0x41 then imm % 256 == 0 && bits 22 21 imm != 3
  else if op = 0x60 ∨ op = 0x62 then imm < 512
  else if op = 0x80 ∨ op = 0x81 then imm % 0x20000 == 0
  else imm == 0

/-! ### One lane -/

/-- An attribute field as FP32 (R73, R226). -/
def attrF32 (view lsb width : Nat) (w : W64) : F32 :=
  let f := w.toNat / 2 ^ lsb % 2 ^ width
  match view with
  | 0 => f32OfInt f
  | 1 => f32OfInt (signedOf width f)
  | _ => f32Of (f32Val (BitVec.ofNat 32 (w.toNat / 2 ^ lsb)))
/-- The field of an ATTRF is valid under R73. -/
def attrfOk (imm : Nat) : Bool :=
  let lsb := bits 20 15 imm
  let w := bits 14 8 imm
  match bits 22 21 imm with
  | 0 | 1 => 1 ≤ w && lsb + w ≤ 64
  | 2 => (lsb == 0 || lsb == 32) && w == 0
  | _ => false

/-- The conversions of CVT (R224). -/
def cvtLane (which : Nat) (a : Nat) : Nat :=
  let v := fDecode fmtFP32 a
  let via := fun (f : FFormat) => fPack fmtFP32 (fDecode f (fConvert f v))
  match which with
  | 0 => twos 32 (vRneIntClamp (-0x80000000) 0x7FFFFFFF v)
  | 1 => (f32OfInt (signedOf 32 a)).toNat
  | 2 => via fmtBF16
  | 3 => via fmtFP16
  | 4 => via fmtE4M3
  | 5 => via fmtE5M2
  | 6 => if v == .nan then fNaN fmtFP32 else fPack fmtFP32 (decodeE2M1 (encodeE2M1 v))
  | 7 => if v == .nan then (Config.cvtNaN 7).toNat else twos 32 (vRneIntClamp (-127) 127 v)
  | _ => if v == .nan then (Config.cvtNaN 8).toNat else twos 32 (vRneIntClamp (-7) 7 v)

/-- A lane result of a floating-point micro-op (R220 to R223). -/
def floatLane (f : FFormat) (op a b c : Nat) : Nat :=
  let x := fDecode f a
  let y := fDecode f b
  match op with
  | 0x01 => fPack f x
  | 0x02 => fPack f (vAdd x y)
  | 0x03 => fPack f (vSub x y)
  | 0x04 => fPack f (vMul x y)
  | 0x05 => fPack f (vAdd (vMul x y) (fDecode f c))
  | 0x06 => fPack f (vMin x y)
  | 0x07 => fPack f (vMax x y)
  | 0x08 => fPack f (vAbs x)
  | 0x09 => fPack f (vNeg x)
  | 0x0A => fDiv f x y
  | 0x0B => twos 32 (vExpo x)
  | 0x0C => fPack f (vScale x (max (-1000) (min 1000 (signedOf 32 b))))
  | 0x10 => fDiv f (.fin false 1 0) x
  | 0x11 => fRsqrt f x
  | 0x12 => fSqrt f x
  | 0x13 => (exp2Rn x).toNat
  | 0x14 => (f32Log2 (BitVec.ofNat 32 a)).toNat
  | 0x15 => (f32Tanh (BitVec.ofNat 32 a)).toNat
  | 0x20 => fPack f (vMax x vZero)
  | 0x21 => (f32GeluTanh (BitVec.ofNat 32 a)).toNat
  | 0x22 => (f32Silu (BitVec.ofNat 32 a)).toNat
  | _ => (f32Sigmoid (BitVec.ofNat 32 a)).toNat

/-- A lane result of an integer micro-op of n bits: arithmetic wraps, order is signed (R221). -/
def intLane (n op a b : Nat) : Nat :=
  let m := 2 ^ n
  match op with
  | 0x01 => a % m
  | 0x02 => (a + b) % m
  | 0x03 => (a + m - b % m) % m
  | 0x04 => a * b % m
  | 0x06 => if signedOf n a ≤ signedOf n b then a else b
  | 0x07 => if signedOf n a ≤ signedOf n b then b else a
  | 0x50 => a &&& b
  | 0x51 => a ||| b
  | 0x52 => a ^^^ b
  | 0x53 => a * 2 ^ (b % 32) % m
  | _ => a / 2 ^ (b % 32)

/-- A lane value as a result of a TYPE: every NaN result is canonical (R221). -/
def canonLane (typ v : Nat) : Nat :=
  match typeFloat typ with
  | some f => fPack f (fDecode f v)
  | none => v

/-- A lane result of a micro-op that computes a value from its lane alone; `k` is the lane's bit of SEL's mask and `attr` the
lane's attribute word of an ATTRF. -/
def valueLane (op typ imm : Nat) (attr : W64) (k : Bool) (a b c : Nat) : Nat :=
  if op = 0x34 then canonLane typ (if k then a else b)
  else if op = 0x40 then cvtLane (imm % 16) a
  else if op = 0x41 then (attrF32 (bits 22 21 imm) (bits 20 15 imm) (bits 14 8 imm) attr).toNat
  else match typeFloat typ with
    | some f => floatLane f op a b c
    | none => intLane (typeBits typ) op a b

/-- What a compare writes to a lane's mask bit (R220, R221). -/
def compareLane (op typ a b : Nat) : Bool :=
  match typeFloat typ with
  | some f =>
    let x := fDecode f a
    let y := fDecode f b
    match op with
    | 0x30 => vEq x y
    | 0x31 => vLt x y
    | 0x32 => vLe x y
    | _ => x == .nan || y == .nan
  | none =>
    let i := signedOf (typeBits typ) a
    let j := signedOf (typeBits typ) b
    match op with
    | 0x30 => decide (i = j)
    | 0x31 => decide (i < j)
    | _ => decide (i ≤ j)

/-! ### The registers -/

/-- The lanes of a register. -/
def lanesOf (mode : Nat) (v : BitVec 4096) : List Nat :=
  (List.range (lanesN mode)).map fun l => v.toNat / 2 ^ (l * laneBits mode) % 2 ^ laneBits mode
/-- A register from its lanes. -/
def ofLanes (mode : Nat) (xs : List Nat) : BitVec 4096 :=
  BitVec.ofNat 4096 (xs.foldr (fun x acc => x % 2 ^ laneBits mode + acc * 2 ^ laneBits mode) 0)

/-- A predicate's bit for a lane; K0 reads as all ones, and so does a mask register that nothing has written (R216, R231). -/
def Ve.kBit (e : Ve) (k l : Nat) : Bool := k == 0 || (tget (BitVec.allOnes 512) k e.k).getLsbD l

/-- What a source selector gives every lane; none for a reserved selector or a port with no input (R219). -/
def Ve.src (e : Ve) (s : Nat) : Option (List Nat) :=
  if s < 32 then some (lanesOf e.mode (tget 0 s e.v))
  else if s < 48 then some (List.replicate (lanesN e.mode) ((tget 0 (s - 32) e.x).toNat % 2 ^ laneBits e.mode))
  else if s < 54 then tfind (s - 48) e.ports
  else if s = 54 then some (List.replicate (lanesN e.mode) 0)
  else none

/-- The sources of an opcode: those it reads; zeros stand for the others. -/
def Ve.srcs (e : Ve) (op : Nat) (m : Micro) : Option (List Nat × List Nat × List Nat) :=
  let z := List.replicate (lanesN e.mode) 0
  let n := microArity op
  match (if 1 ≤ n then e.src m.a else some z), (if 2 ≤ n then e.src m.b else some z), (if 3 ≤ n then e.src m.c else some z) with
  | some a, some b, some c => some (a, b, c)
  | _, _, _ => none

/-- Lane values written under a predicate to a destination selector; none for a reserved one (R218, R219). -/
def Ve.put (e : Ve) (dst mask : Nat) (xs : List Nat) : Option Ve :=
  if dst < 32 then
    let old := lanesOf e.mode (tget 0 dst e.v)
    let new := (xs.zipIdx.zip old).map fun p => if e.kBit mask p.1.2 then p.1.1 else p.2
    some { e with v := tset dst (ofLanes e.mode new) e.v }
  else if 48 ≤ dst ∧ dst < 54 then
    some { e with outs := tset (dst - 48) (xs.zipIdx.map fun p => if e.kBit mask p.2 && p.2 < e.tail then some p.1 else none) e.outs }
  else none

/-- Mask bits written under a predicate to K1 to K7. -/
def Ve.putMask (e : Ve) (dst mask : Nat) (xs : List Bool) : Option Ve :=
  if 1 ≤ dst ∧ dst ≤ 7 then
    let n := (xs.zipIdx.map fun p => flagAt p.2 (if e.kBit mask p.2 then p.1 else e.kBit dst p.2)).foldl (· + ·) 0
    some { e with k := tset dst (BitVec.ofNat 512 n) e.k }
  else none

/-- The micro-op's TYPE suits its opcode and the lane mode, and its IMM is in range (R218, R220). -/
def microOk (mode op : Nat) (m : Micro) : Bool :=
  (microTypes op).contains m.typ && modeOfType m.typ == mode && immOk op m.imm

/-- XMAC on the lanes its predicate names; none where an accumulator takes its 2^24th product (R225). -/
def Ve.xmac (e : Ve) (mask : Nat) (a b : List Nat) : Option Ve :=
  let step := fun (acc : Option (Tab LaneAcc)) (p : (Nat × Nat) × Nat) =>
    acc.bind fun t =>
      if !e.kBit mask p.2 then some t
      else
        let q := tget ({} : LaneAcc) p.2 t
        if q.count + 1 < 2 ^ 24 then
          some (tset p.2 { sum := vAdd q.sum (vMul (fDecode fmtFP32 p.1.1) (fDecode fmtFP32 p.1.2)), count := q.count + 1 } t)
        else none
  ((a.zip b).zipIdx.foldl step (some e.acc)).map fun t => { e with acc := t }

/-- XCLOSE: the sums rounded once, and the accumulators of the lanes written cleared (R225). -/
def Ve.xclose (e : Ve) (dst mask : Nat) : Option Ve :=
  let xs := (List.range (lanesN e.mode)).map fun l => fPack fmtFP32 (tget ({} : LaneAcc) l e.acc).sum
  (e.put dst mask xs).map fun e1 => { e1 with acc := e1.acc.filter fun p => !e.kBit mask p.1 }

/-- One micro-op; `line` reads a tile-buffer line. None is a descriptor fault (R182, R217 to R227). -/
def Ve.micro (e : Ve) (line : Nat → Nat → BitVec 4096) (op : Nat) (m : Micro) : Option Ve :=
  if !microOk e.mode op m then none
  else match e.srcs op m with
  | none => none
  | some (a, b, c) =>
    let n := lanesN e.mode
    let buf := bits 25 24 m.imm
    let ln := bits 23 17 m.imm
    if microCompares op then e.putMask m.dst m.mask ((a.zip b).map fun p => compareLane op m.typ p.1 p.2)
    else match op with
    | 0x60 =>
      let k := m.imm % 512
      if 0 < k && k < n && 2 ^ k.log2 == k then e.put m.dst m.mask ((List.range n).map fun l => canonLane m.typ (a.getD (l ^^^ k) 0)) else none
    | 0x61 => e.put m.dst m.mask (b.map fun i => canonLane m.typ (a.getD (i % n) 0))
    | 0x62 => if m.imm % 512 < n then e.put m.dst m.mask (List.replicate n (canonLane m.typ (a.getD (m.imm % 512) 0))) else none
    | 0x70 => e.xmac m.mask a b
    | 0x71 => e.xclose m.dst m.mask
    | 0x80 => e.put m.dst m.mask ((lanesOf e.mode (line buf ln)).map (canonLane m.typ))
    | 0x81 =>
      if m.dst ≠ 0 then none
      else
        let on := fun (l : Nat) => e.kBit m.mask l && decide (l < e.tail)
        some { e with lineOut := e.lineOut ++
          [(buf, ln, ofLanes e.mode a, ofLanes e.mode ((List.range n).map fun l => if on l then 2 ^ laneBits e.mode - 1 else 0))] }
    | 0x41 =>
      if attrfOk m.imm then
        e.put m.dst m.mask ((List.range n).map fun l =>
          valueLane op m.typ m.imm ((tget [] l e.attrs).getD (bits 25 23 m.imm) 0) true 0 0 0)
      else none
    | _ =>
      if op = 0x34 && 8 ≤ m.c then none
      else
        e.put m.dst m.mask (((a.zip b).zip c).zipIdx.map fun p =>
          valueLane op m.typ m.imm 0 (e.kBit m.c p.2) p.1.1.1 p.1.1.2 p.1.2)

/-! ### Element programs (R233 to R235) -/

/-- An element program's state on one element: V registers, mask bits, and what PORT1 was given. -/
structure Elem where
  v   : Tab Nat := []
  k   : Tab Bool := []
  out : Option Nat := none
  deriving DecidableEq, Repr

/-- A source of an element program. -/
def Elem.src (e : Elem) (consts : List W32) (score : F32) (s : Nat) : Nat :=
  if s < 32 then tget 0 s e.v
  else if s < 48 then (consts.getD (s - 32) 0).toNat
  else if s = 48 then score.toNat
  else 0

/-- One micro-op of an element program on one element. -/
def Elem.step (consts : List W32) (score : F32) (attrs : List W64) (e : Elem) (w : W64) : Elem :=
  let (op, m) := microOf w
  let on := fun k => k == 0 || tget true k e.k
  if !on m.mask then e
  else
    let a := e.src consts score m.a
    let b := e.src consts score m.b
    let c := e.src consts score m.c
    if microCompares op then { e with k := tset m.dst (compareLane op m.typ a b) e.k }
    else
      let r := valueLane op m.typ m.imm (attrs.getD (bits 25 23 m.imm) 0) (on m.c) a b c
      if m.dst < 32 then { e with v := tset m.dst r e.v } else { e with out := some r }

/-- N_OPS micro-op words of an element program image (R233). -/
def elemOps (bs : List Byte) : List W64 := (List.range (fieldAt bs 3 1)).map fun i => BitVec.ofNat 64 (fieldAt bs (48 + 8 * i) 8)
/-- The constants of an element program image, loaded into X0 to X7. -/
def elemConsts (bs : List Byte) : List W32 := (List.range 8).map fun i => BitVec.ofNat 32 (fieldAt bs (16 + 4 * i) 4)

/-- A score through an index's transform: its element program, or the score itself where there is none (R235). -/
def transformScore (prog : List Byte) (attrs : List W64) (score : F32) : F32 :=
  if prog.isEmpty then score
  else
    let e := (elemOps prog).foldl (Elem.step (elemConsts prog) score attrs) {}
    BitVec.ofNat 32 (e.out.getD 0)

/-- A micro-op opcode allowed in an element program (R234). -/
def elemOpcode (op imm : Nat) : Bool :=
  (!(microTypes op).isEmpty) && (op ≤ 0x23 || (0x30 ≤ op && op ≤ 0x34) || (op == 0x40 && imm % 16 ≤ 5) || op == 0x41 ||
    (0x50 ≤ op && op ≤ 0x54))

/-- A source an element program may name (R234). -/
def elemSrc (nConst s : Nat) : Bool := s < 32 || (32 ≤ s && s < 32 + nConst) || s == 48 || s == 54

/-- The checks of R234 on each micro-op in turn: the masks written so far and the image's constants are known; `last` marks the
final one. -/
def elemOpOk (attrWords nConst : Nat) (consts : List W32) (masks : List Nat) (last : Bool) (w : W64) : Bool :=
  let (op, m) := microOf w
  let n := microArity op
  let nanConst := fun s => 32 ≤ s && s < 40 && m.typ == 0 && f32IsNaN (consts.getD (s - 32) 0)
  let maskOk := fun k => k == 0 || masks.contains k
  elemOpcode op m.imm && (microTypes op).contains m.typ && m.typ ≤ 1 && immOk op m.imm
    && (n < 1 || (elemSrc nConst m.a && !nanConst m.a)) && (n < 2 || (elemSrc nConst m.b && (op == 0x0C || !nanConst m.b)))
    && (n < 3 || (elemSrc nConst m.c && !nanConst m.c))
    && (op != 0x34 || m.c ≤ 7)
    && maskOk m.mask
    && (op != 0x41 || (attrfOk m.imm && bits 25 23 m.imm < attrWords))
    && (if microCompares op then !last && 1 ≤ m.dst && m.dst ≤ 7
        else if last then m.dst == 49 && m.mask == 0 else m.dst < 32)

/-- The checks over a list of micro-ops. -/
def elemOpsOk (attrWords nConst : Nat) (consts : List W32) : List Nat → List W64 → Bool
  | _, [] => true
  | masks, w :: ws =>
    elemOpOk attrWords nConst consts masks ws.isEmpty w &&
      elemOpsOk attrWords nConst consts (if microCompares (microOf w).1 then (microOf w).2.dst :: masks else masks) ws

/-- An element program image passes R234 for an index with a number of attribute words. -/
def elemValid (attrWords : Nat) (bs : List Byte) : Bool :=
  let n := fieldAt bs 3 1
  let nc := fieldAt bs 4 1
  bs.length == 48 + 8 * n && fieldAt bs 2 1 == 1 && 1 ≤ n && n ≤ 32 && nc ≤ 8 && fieldAt bs 5 11 == 0
    && elemOpsOk attrWords nc (elemConsts bs) [] (elemOps bs)

end Sys2Proof.Machine
end

