-- ==== Sys2Proof/Machine/Bound.lean ====
section
/-! DEFINITION. The static delay bound (R348 to R352): the cost of each piece of work, a command's and a group's demand, and the test
that a candidate is bounded. -/

namespace Sys2Proof.Machine

/-- n divided by m, rounded up. -/
def ceilDiv (n m : Nat) : Nat := (n + m - 1) / m

/-- Latency bounds of the tiers at the floor rate, in cycles (R257, as R352's example takes them). -/
def latF : Nat := 1600
/-- The L-tier's. -/
def latL : Nat := 3200

/-- m of R349 for a unit of x transfers: at least one transfer is in flight. -/
def memTerm (prefetch limit x lat : Nat) : Nat := ceilDiv lat (max 1 (min prefetch (limit / x)))
/-- Rows of the L-tier that n bytes touch at most, and the bytes charged for them (R349). -/
def rowsOf (n : Nat) : Nat := (n - 1) / 1792 + 2
/-- Bytes charged for n bytes of the F-tier, in 512 B units (R349). -/
def fBytes (n : Nat) : Nat := roundUp 512 n

/-- Twice the ME's cycles per depth element for an operand format (R184). -/
def fmtCost2 : VFmt → Nat
  | .int4z | .mxfp4 | .mxint4 => 1
  | .bf16 | .fp16 => 8
  | .fp32 => 32
  | _ => 2

/-- COST_D of one layer for n rows (R215, R238): DENSE tiles on one SC, and the VE's bounds. -/
def layerCost (n : Nat) (l : Layer) : Nat :=
  let g1 := ceilDiv n 128
  let ge := ceilDiv (n * l.inW) 128
  match l.kind with
  | 1 => ceilDiv n 64 * ceilDiv l.outW 64 * (paddedIn l.inW * max (((denseWFmt l.wFmt).elim 2 fmtCost2)) (((denseAFmt l.aFmt).elim 2 fmtCost2)) / 2)
  | 2 => if l.fn = 0 then g1 * (8 * l.inW + 52) + 104 else g1 * (14 * l.inW + 84) + 156
  | 3 => match l.fn with
    | 2 => 40 + ge * 10 + 44 | 3 => 40 + ge * 11 + 46 | 4 => 40 + ge * 10 + 40 | 5 => 40 + ge * 4 + 14 | _ => 40 + ge + 6
  | _ =>
    let dim := (l.inW - 1) / 2
    let w := dim / max 1 l.pools
    let gp := ceilDiv (n * l.pools) 128
    let nd := ceilDiv (n * dim) 128
    let part := fun b c => if l.fn.testBit b then c else 0
    part 0 (46 + nd) + part 1 (52 + 2 * nd) + part 2 (46 + gp * (24 + w + 20 * ceilDiv w 64)) + part 3 (58 + gp * (6 * w + 24))
      + part 4 (46 + g1) + part 5 (46 + ceilDiv (2 * n * dim) 128)
/-- COST_D of a model image for n rows (R349). -/
def modelCost (img : List Byte) (n : Nat) : Nat := lsum ((List.range (modelLayers img)).map fun i => layerCost n (parseLayer img i))
/-- Σ W_BYTES of a model image. -/
def modelWBytes (img : List Byte) : Nat := lsum ((List.range (modelLayers img)).map fun i => (parseLayer img i).wBytes)

/-- The burgee's limit on transfers in flight: 16 where an STE of an SC of its set is tag-limited (R255, R349). -/
def Device.xferLimit (d : Device) (b : Nat) : Nat :=
  let g := d.burgee b
  if (List.range 64).any fun n => g.scSet.getLsbD n && (d.str n).stes.any fun e => e.limited then 16 else 384

/-- MAX_BLOCKS: the largest CAP_BLOCKS of any active cell (R349). -/
def Index.maxBlocks (x : Index) : Nat := (x.cells.filter fun p => p.2.state == 1).foldl (fun m p => max m p.2.cur.capBlocks) x.firstCap
/-- Slot blocks in use over every cell. -/
def Index.usedBlocks (x : Index) : Nat := lsum (x.cells.map fun p => ceilDiv p.2.nSlots 64)
/-- Delta entries that R123 admits under a snapshot of the present (R122). -/
def Index.liveDelta (x : Index) : Nat := (x.delta.filter fun p => p.2.state == 1).length
/-- PROBES in force: at most N_CELLS (R119). -/
def Index.probesOf (x : Index) (sp : SearchParams) : Nat := min sp.probes x.nCells

/-- ceil(D x c) of a query against a stored format on the ME. -/
def Index.meCycles (x : Index) (f : VFmt) : Nat := x.dim * fmtCost2 f / 2
/-- Cycles of a PQ table build (R189, R349). -/
def Index.tableCycles (x : Index) : Nat := 4 * x.dim * ceilDiv x.bookK 64 + 4 * ceilDiv (64 * x.subspaces * x.bookK) 128 + 40
/-- Cycles of one slot block for one query (R349). -/
def Index.blockCycles (x : Index) : Nat :=
  match x.primaryFmt with
  | .pq4 => ceilDiv x.subspaces 32
  | .pq8 => ceilDiv x.subspaces 16
  | _ => ceilDiv x.dim 1024

/-- The pieces of a batch group of Q queries with S pairs of program and parameters (R349). -/
def Index.groupPieces (x : Index) (prefetch limit q s : Nat) : List Demand :=
  let m := memTerm prefetch limit
  let per := ceilDiv q 64
  let cen := x.centroidLen
  let tables := x.metric != .l2sq && x.metric != .ham
  (if s = 0 || x.kind == .graph then []
   else [{ step := 0, units := ceilDiv x.nCells 64 * ceilDiv s 4, cu := 64 + m 11 latL, bytes := 11 * 2048 }]) ++
  (if x.kind == .cell && x.stageA = 0 then
     [{ step := 1, units := ceilDiv x.nCells 64 * per, cu := x.meCycles x.centroidFmt + m (max 1 (ceilDiv (64 * cen) 2048)) latF,
        lTier := false, bytes := fBytes (64 * cen) }] else []) ++
  (if tables then [{ step := 2, units := per, cu := x.tableCycles, lTier := false, once := fBytes x.bookLen }] else []) ++
  [{ step := 3, units := ceilDiv x.liveDelta 64 * per, cu := x.dim + m (max 1 (ceilDiv (64 * x.deltaLen) 2048)) latF, lTier := false,
     bytes := fBytes (64 * x.deltaLen) }]

/-- The pieces a command is charged alone (R349); an MSEARCH is costed as NVEC queries. -/
def Index.ownPieces (x : Index) (prefetch limit : Nat) (model : List Byte) (sp : SearchParams) : List Demand :=
  let m := memTerm prefetch limit
  let n := sp.nvec
  let walk := ceilDiv (2 * latL) sp.ahead
  let list := ceilDiv (sp.k * sp.f) 64
  let blocks := if x.kind == .flat then x.usedBlocks else x.probesOf sp * x.maxBlocks
  let sumList := ceilDiv (min 8192 (n * sp.k * sp.f)) 64
  (if x.kind != .graph && x.metric == .l2sq then
     [{ step := 4, units := n * (if x.kind == .flat then 1 else x.probesOf sp), cu := x.tableCycles, lTier := false, once := fBytes x.bookLen }] else []) ++
  (if x.kind != .graph then
     [{ step := 5, units := n * blocks, cu := x.blockCycles + m (rowsOf x.blockLen) latL, bytes := rowsOf x.blockLen * 2048 }] else []) ++
  (if x.kind == .cell && x.stageA = 1 then
     [{ step := 6, units := n * min x.nCells (8 * max 64 (2 * sp.probes)), cu := 164 + walk, bytes := 33 * 2048 }] else []) ++
  (if x.kind == .graph then
     [{ step := 7, units := n * sp.budget, cu := 164 + ceilDiv x.subspaces 32 + walk, bytes := 33 * 2048 }] else []) ++
  (if sp.stageC then
     [{ step := 8, units := if sp.aggSum then n * sumList else n * list, cu := x.meCycles (x.refine.getD .bf16) + m 128 latL, bytes := 128 * 2048 }] else []) ++
  (if sp.stageD then
     [{ step := 9, units := 1, cu := modelCost model (64 * list), lTier := false, once := fBytes (modelWBytes model) }] else [])

/-- Lat of R350. A FLAT index's stage A does no work and adds no term (log entry 16). -/
def Device.latOf (d : Device) (x : Index) (sp : SearchParams) (hoistCycles rw : Nat) : Nat :=
  let shoal := d.shoalIndex? x.indexNo
  let waits := match shoal with | none => 0 | some si => (if si.routed then 2 else 1) + (if sp.stageC then 1 else 0)
  (if sp.filterId != 0 && x.kind != .graph then 40 + latL else 0) +
  (match x.kind with | .flat => 0 | .cell => 40 + (if x.stageA = 1 then latL else latF) | .graph => 40 + latL) +
  (40 + latL) + (if sp.stageC then 40 + latL else 0) + (if sp.stageD then 40 + latF else 0) +
  (if x.kind == .graph then x.graph.top * (latL + 160) else 0) + waits * rw * 1600 +
  (ceilDiv (ceilDiv sp.nvec 16) 4 - 1) * hoistCycles + 40000

/-! ### Remaining demand (R351) -/

/-- Wrem of a list of pieces, in SC-cycles. -/
def wrem (ps : List Demand) : Nat := lsum (ps.map fun (p : Demand) => p.units * p.cu)
/-- Yrem on a tier. -/
def yrem (lTier : Bool) (ps : List Demand) : Nat :=
  lsum ((ps.filter fun (p : Demand) => p.lTier == lTier).map fun (p : Demand) => p.units * p.bytes + (if p.units = 0 then 0 else p.once))
/-- The largest cu of units still to do. -/
def cuMax (ps : List Demand) : Nat := (ps.filter fun (p : Demand) => p.units != 0).foldl (fun m (p : Demand) => max m p.cu) 0
/-- Units of a step done. -/
def piecesDone (step n : Nat) (ps : List Demand) : List Demand :=
  ps.map fun (p : Demand) => if p.step = step then { p with units := p.units - n } else p

/-- Units of a command's own work done. -/
def Device.workDone (d : Device) (stamp step n : Nat) : Device := d.modCmd stamp fun c => { c with work := piecesDone step n c.work }
/-- Steps of the groups a command belongs to done. -/
def Device.groupDone (d : Device) (b stamp : Nat) (steps : List Nat) : Device :=
  let one := fun (q : Batch) => if q.members.contains stamp then { q with pieces := q.pieces.filter fun (p : Demand) => !steps.contains p.step } else q
  d.modBurgee b fun g => { g with groups := g.groups.map one }
/-- A group all of whose members have gone counts no more. -/
def Device.groupsLeave (d : Device) (b stamp : Nat) : Device :=
  let one := fun (q : Batch) => { q with members := q.members.filter (· != stamp) }
  let live := fun (q : Batch) => !q.members.isEmpty && !q.pieces.isEmpty
  d.modBurgee b fun g => { g with groups := (g.groups.map one).filter live }

/-! ### The check (R352) -/

/-- An item of the list of R352: its deadline in ns, its place among equals, its demand and its latency. -/
structure BoundItem where
  deadline : Nat
  order    : Nat
  work     : Nat
  yF       : Nat
  yL       : Nat
  cu       : Nat
  lat      : Nat
  deriving DecidableEq, Repr

/-- Ascending deadline, then fetch order. -/
def BoundItem.before (a b : BoundItem) : Bool := decide (a.deadline < b.deadline) || (a.deadline == b.deadline && decide (a.order < b.order))
/-- The item of a command. -/
def Cmd.boundItem (c : Cmd) : BoundItem :=
  { deadline := c.deadline.getD 0, order := c.stamp, work := wrem c.work, yF := yrem false c.work, yL := yrem true c.work,
    cu := cuMax c.work, lat := c.lat }
/-- The item of a group: the earliest deadline and the largest Lat of its bounded members; none without one (R351, R352). -/
def Batch.boundItem (q : Batch) (cs : List Cmd) : Option BoundItem :=
  match cs.filter fun (c : Cmd) => q.members.contains c.stamp with
  | [] => none
  | c :: t => some
    { deadline := t.foldl (fun m (e : Cmd) => min m (e.deadline.getD 0)) (c.deadline.getD 0), order := t.foldl (fun m (e : Cmd) => min m e.stamp) c.stamp,
      work := wrem q.pieces, yF := yrem false q.pieces, yL := yrem true q.pieces, cu := cuMax q.pieces,
      lat := t.foldl (fun m (e : Cmd) => max m e.lat) c.lat }

/-- ceil(bytes / (0.625 x rate)) in floor cycles: none within reach where the rate is 0 and bytes are left (R352). -/
def transferCycles (bytes rate : Nat) : Option Nat := if bytes = 0 then some 0 else if rate = 0 then none else some (ceilDiv (8 * bytes) (5 * rate))

/-- In-service SCs of a burgee's set. -/
def Device.inService (d : Device) (b : Nat) : List Nat :=
  (List.range 64).filter fun n => (d.burgee b).scSet.getLsbD n && !(d.sc n).out && !d.mgmt.test.running.any fun g => g.test ≤ 2 && g.res == n
/-- pb of R352. -/
def Device.preemptBound (d : Device) (b : Nat) : Nat :=
  let g := d.burgee b
  let nsc := ((List.range 64).filter fun n => g.scSet.getLsbD n).length
  1024 + (3534 + 3200 * g.call.foldl max 0) * ceilDiv nsc 16

/-- Every item of a list in order passes: its demand with all before it ends by its deadline (R352); `share` is Σ share, 16 nb. -/
def itemsPass (ta share pb umax rF rL : Nat) : List BoundItem → Nat → Nat → Nat → Bool
  | [], _, _, _ => true
  | k :: ks, w, yF, yL =>
    let w := w + k.work
    let yF := yF + k.yF
    let yL := yL + k.yL
    (match transferCycles yF rF, transferCycles yL rL with
     | some f, some l =>
       decide (0 < share) && decide (ta ≤ k.deadline) &&
         decide (5 * (pb + max (ceilDiv (16 * w) share) (max f l) + umax + k.lat) ≤ 8 * (k.deadline - ta))
     | _, _ => false) && itemsPass ta share pb umax rF rL ks w yF yL

/-- The pair of filter program and parameter words of a command, if it names one. -/
def Cmd.pair (c : Cmd) : Option (Nat × Nat × List W64) := (c.snap.bind (·.filter)).map fun f => (c.indexNo, f.filterId * 0x100000000 + f.version, c.ps)

/-- The check of R352 over a burgee's bounded commands with the candidate among them, at admission instant ta in ns. -/
def Device.boundCheck (d : Device) (b ta : Nat) (cs : List Cmd) (gs : List Batch) : Bool :=
  let g := d.burgee b
  let pairs := (cs.filterMap (·.pair)).eraseDups
  let vers := (pairs.map fun p => (p.1, p.2.1)).eraseDups
  let items := (cs.map (·.boundItem) ++ gs.filterMap fun (q : Batch) => q.boundItem cs).foldl (fun acc x => insBy BoundItem.before x acc) []
  let share := lsum ((d.inService b).map fun n => g.share.getD n 0)
  let umax := items.foldl (fun m (i : BoundItem) => max m i.cu) 0 + 640
  decide (vers.length ≤ 8) && decide (pairs.length ≤ 16) &&
    itemsPass ta share (d.preemptBound b) umax (g.buckets.getD 0 {}).rate (g.buckets.getD 2 {}).rate items 0 0 0

end Sys2Proof.Machine
end

