-- ==== Sys2Proof/Machine/Search.lean ====
section
/-! DEFINITION. The stages of a search (R118 to R150): stage A, the list units of stage B with their scores, stage C, stage D, and what
final selection writes. -/

namespace Sys2Proof.Machine

/-! ### What a snapshot sees (R109, R123) -/

/-- The index's shoal index is ROUTED: positions and delta entries that a shipped batch changed carry SHOAL_VIEW values (R465). -/
def Device.routed (d : Device) (i : Nat) : Bool := (d.shoalIndex? i).elim false (·.routed)
/-- START_VIEW of a command. -/
def Cmd.startView (c : Cmd) : Nat := c.snap.elim 0 (·.startView)
/-- The view that FRESH_VIEW and the END_VIEW of merged entries are compared with (R123, R465). -/
def Device.freshBase (d : Device) (c : Cmd) : Nat := if d.routed c.indexNo then c.shoalView else c.startView

/-- The copy of a cell that a START_VIEW reads (R109). -/
def Cell.copyAt (c : Cell) (start : Nat) : CellSet :=
  match c.prev with
  | some p => if c.cutView != 0 && viewNewer c.cutView start then p else c.cur
  | none => c.cur
/-- Positions of a block that a view may read (R96, R123): in use and not fresh. -/
def CellSet.admits (s : CellSet) (base b i : Nat) : Bool :=
  let h := tget ({} : BlockHead) b s.blocks
  (tfind (64 * b + i) s.slots).any (fun v => v.id != fillerId) && !(h.freshView != 0 && viewNewer h.freshView base && h.freshMask.contains i)
/-- A delta entry that a snapshot reads (R123); `merged` is the view its merge compares with. -/
def DeltaEntry.seen (e : DeltaEntry) (startSeq start base : Nat) : Bool :=
  e.state != 0 && decide (e.logSeq ≤ startSeq) &&
    (e.state == 1 || (e.endView != 0 && viewNewer e.endView (if e.state == 4 then base else start)))

/-- A candidate passes the command's filter (R142). -/
def Cmd.passes (c : Cmd) (id : W64) (attrs : List W64) : Bool :=
  match c.snap.bind (·.filter) with
  | some f => filterPass f c.ps id attrs
  | none => true
/-- The verdict of the command's filter on a cell (R143, R144). -/
def Cmd.verdict (c : Cmd) (k : Cell) : Verdict :=
  match c.snap.bind (·.filter) with
  | some f => cellVerdict f c.ps k.summary k.nLive
  | none => if k.nLive = 0 then .none else .all
/-- The image of the transform of the snapshot (R236). -/
def Cmd.transform (c : Cmd) (x : Index) : List Byte := tget [] (c.snap.elim 0 (·.transform)) x.transforms
/-- Query vector j. -/
def Cmd.query (c : Cmd) (j : Nat) : List F32 := c.vecs.getD j []

/-! ### Stage A (R127 to R130, R144) -/

/-- Centroid scores of cells against a query (R127), each with its cell. -/
def Index.centroidScores (x : Index) (q : List F32) (cells : List Nat) : List (Nat × F32) :=
  let f := formOf x.centroidFmt q
  cells.filterMap fun n => (x.centroids[n]?).map fun v => (n, formScore x.metric f v)
/-- The cell term of a centroid score (R62). -/
def Index.cellTerm (x : Index) (s : F32) : F32 := if x.metric == .l2sq then 0 else s
/-- The final beam of the centroid walk (R128, R198): the centroids it holds. It has no budget, and SKETCH_KEEP does not apply
(log entry 20). -/
def Index.centroidBeam (x : Index) (sp : SearchParams) (q : List F32) : List Nat :=
  let g := x.cgraph
  if g.entry = 0xFFFFFFFF then []
  else
    let w := g.viewAll
    let sk := (signSketch q).take 1024
    let width := max 64 (2 * sp.probes)
    let start := descend w sk (g.nNodes + 1) 1 g.top g.entry
    (runWalk w 0 width (g.nNodes + 1) 32 sk (fun m => (g.node? m).map (sketchKey sk)) start).beam.map (·.node)

/-- The cells a query scans with their cell terms, in probe order, and the NaN scores of stage A: every centroid is scored, or every one of the
centroid walk's final beam, and of those the open cells are probed; a command that prefilters forms terms of the open cells alone (R127, R128, R130,
R144). A cell that is not `own`, one of a ROUTED index on another device, has no N_LIVE and no summary here and is never left out (R464, DEDUCED, log entry 29). -/
def Cmd.probeList (c : Cmd) (own : Nat → Bool) (x : Index) (q : List F32) : List (Nat × F32) × Nat :=
  let open_ := (List.range x.nCells).filter fun n => !own n || ((x.cell n).nLive != 0 && c.verdict (x.cell n) != .none)
  match x.kind with
  | .graph => ([], 0)
  | .flat => (open_.map fun n => (n, 0), 0)
  | .cell =>
    let from_ := if c.prefilter then open_
      else if x.stageA = 1 then x.centroidBeam c.sp q else List.range x.nCells
    let ss := x.centroidScores q from_
    let nan := (ss.filter fun p => (scoreKey p.2).isNone).length
    if c.prefilter then (ss.map fun p => (p.1, x.cellTerm p.2), nan)
    else
      let ks := (ss.filter fun p => open_.contains p.1).filterMap fun p => (scoreKey p.2).map fun k => (k, p.1, p.2)
      let ord := sortBy (fun a b => decide (b.1.toNat < a.1.toNat) || (a.1 == b.1 && decide (a.2.1 < b.2.1))) ks
      ((ord.take (x.probesOf c.sp)).map fun p => (p.2.1, x.cellTerm p.2.2), nan)

/-- The entry node of the level-0 walk (R129). -/
def Cmd.entryOf (c : Cmd) (x : Index) (q : List F32) : Option Nat :=
  match c.snap with
  | some s => if x.kind != .graph || s.entryNode = 0xFFFFFFFF then none
              else some (descend (x.graph.viewAt s.startView) ((signSketch q).take 1024) (x.graph.nNodes + 1) 1 s.topLevel s.entryNode)
  | none => none

/-- R144: the command switches to pre-filtered brute force; on a ROUTED index no device holds every cell, and none switches (DEDUCED, log
entry 29). -/
def Cmd.prefilters (c : Cmd) (x : Index) : Bool :=
  x.kind != .graph && !(x.kind == .cell && x.shoalNo.isSome) && c.sp.filterId != 0 &&
    decide (100 * lsum ((List.range x.nCells).map fun n => if c.verdict (x.cell n) == .none then 0 else (x.cell n).nLive) < x.nLive)

/-! ### List units (R156 to R159) -/

/-- Delta units of a snapshot (R156). -/
def deltaUnits (x : Index) (s : Snapshot) : List UnitId :=
  (List.range (ceilDiv ((s.deltaHead + x.deltaEntries - s.deltaTail) % x.deltaEntries) 1024)).map .delta
/-- Code segments of the cells to scan, in their order (R156). -/
def segUnits (x : Index) (cells : List (Nat × F32)) : List UnitId :=
  cells.flatMap fun p => (List.range (ceilDiv (ceilDiv (x.cell p.1).nSlots 64) 64)).map fun s => UnitId.seg p.1 s

/-- A candidate's score as it is keyed: transformed (R235). -/
def Cmd.keyed (c : Cmd) (x : Index) (attrs : List W64) (score : F32) : Option W32 := scoreKey (transformScore (c.transform x) attrs score)

/-- The score of a delta entry against a query (R132). -/
def Index.deltaScore (x : Index) (q : List F32) (v : VForm) : F32 :=
  if x.metric == .ham then hammingScore (signSketch q) ((formVals v).map fun e => vLt vZero e)
  else formScore x.metric (formOf .mxfp8e4m3 q) v
/-- The table set of a cell's copy for a query (R62, R63, R131). -/
def Index.tablesOf (x : Index) (gen n : Nat) (q : List F32) : PqSet :=
  pqQuantise (pqTables x.metric (x.book gen) (if x.metric == .l2sq then (match x.centroid n with | some c => residual q c | none => q) else q))
/-- The score of a primary code (R63, R65). -/
def Index.codeScore (x : Index) (t : PqSet) (q : List F32) (cterm : F32) (code : List Nat) : F32 :=
  if x.metric == .ham then hammingScore (signSketch q) (code.map (· == 1)) else pqScore t code cterm

/-- One candidate offered to a unit's list (R158, R159). -/
structure Offer where
  key   : Option W32
  entry : Entry
  deriving DecidableEq, Repr

/-- A unit list from its offers in order, with its weights (R153, R159). -/
def listOf (cap : Nat) (beta : F32) (os : List Offer) (done plan : Nat) : UnitList :=
  { (os.foldl (fun u (o : Offer) => offer beta u o.key o.entry) ({ cap := cap } : UnitList)) with done := done, plan := plan }

/-- The offers of one slot block, and its weight (R131, R153). -/
def Device.blockOffers (d : Device) (c : Cmd) (x : Index) (q : List F32) (t : PqSet) (cterm : F32) (n b : Nat) : List Offer × Nat :=
  let s := (x.cell n).copyAt c.startView
  let base := d.freshBase c
  let ps := (List.range 64).filter fun i => s.admits base b i
  (ps.filterMap fun i =>
    if s.tombs.contains (64 * b + i) then none
    else (tfind (64 * b + i) s.slots).bind fun v =>
      if !c.passes v.id v.attrs then none
      else some { key := c.keyed x v.attrs (x.codeScore t q cterm v.code),
                  entry := { id := v.id, key := 0, source := 0, loc := (n, 64 * b + i), shard := d.shoal.device } }, ps.length)

/-- The offers of up to 64 delta entries from a ring position on, and their weight (R132, R153). -/
def Device.deltaOffers (d : Device) (c : Cmd) (x : Index) (q : List F32) (s : Snapshot) (from_ n : Nat) : List Offer × Nat :=
  let es := (List.range n).filterMap fun j =>
    let e := (s.deltaTail + from_ + j) % x.deltaEntries
    (tfind e x.delta).bind fun v => if v.seen s.startSeq s.startView (d.freshBase c) then some (e, v) else none
  (es.filterMap fun p =>
    if !c.passes p.2.id p.2.attrs then none
    else some { key := c.keyed x p.2.attrs (x.deltaScore q p.2.vec),
                entry := { id := p.2.id, key := 0, source := 2, loc := (p.1, 0), shard := d.shoal.device } }, es.length)

/-- The unit list of a walk of at most `budget` expansions, which `whole` says is all of it; a walk that converged planned what it expanded
(R134, R153, R158). -/
def Device.walkList (d : Device) (c : Cmd) (x : Index) (q : List F32) (start budget : Nat) (whole : Bool) : UnitList :=
  let sv := c.startView
  let sk := (signSketch q).take 1024
  let fin := fun m => (x.graph.nodeAt sv m).bind fun v => x.walkKey q sk (x.graph.genAt sv m) v
  let r := runWalk (x.graph.viewAt sv) 0 c.sp.width budget c.sp.kept sk fin start
  let os := r.offers.filterMap fun p => (x.graph.nodeAt sv p.1).bind fun v =>
    if x.graph.tombs.contains p.1 || !c.passes v.id v.attrs then none
    else some ({ key := c.keyed x v.attrs (x.walkScore q sk (x.graph.genAt sv p.1) v),
                 entry := { id := v.id, key := 0, source := 1, loc := (p.1, 0), shard := d.shoal.device } } : Offer)
  listOf c.sp.cap c.sp.beta os (32 * r.expanded) (if whole || (nextOf r.beam).isNone then 32 * r.expanded else 32 * c.sp.budget)

/-- The list and record of a unit of query vector j, whole or with its first `lim` blocks or expansions alone (R156 to R160, R175). -/
def Device.unitList (d : Device) (c : Cmd) (j : Nat) (u : UnitId) (lim : Option Nat) : UnitList :=
  let q := c.query j
  let cap := c.sp.cap
  match d.index? c.indexNo, c.snap with
  | some x, some s =>
    match u with
    | .delta k =>
      let total := min 1024 ((s.deltaHead + x.deltaEntries - s.deltaTail) % x.deltaEntries - 1024 * k)
      let bs := (List.range (ceilDiv total 64)).map fun b => d.deltaOffers c x q s (1024 * k + 64 * b) (min 64 (total - 64 * b))
      let ran := bs.take (lim.getD bs.length)
      listOf cap c.sp.beta (ran.flatMap (·.1)) (lsum (ran.map (·.2))) (lsum (bs.map (·.2)))
    | .seg n g =>
      let cterm := ((c.runs.getD j {}).cells.find? (·.1 == n)).elim 0 (·.2)
      let t := x.tablesOf ((x.cell n).copyAt c.startView).gen n q
      let nb := ceilDiv (x.cell n).nSlots 64
      let bs := (List.range (min 64 (nb - 64 * g))).map fun b => d.blockOffers c x q t cterm n (64 * g + b)
      let ran := bs.take (lim.getD bs.length)
      listOf cap c.sp.beta (ran.flatMap (·.1)) (lsum (ran.map (·.2))) (lsum (bs.map (·.2)))
    | .walk =>
      match (c.runs.getD j {}).entry with
      | none => listOf cap c.sp.beta [] 0 0
      | some e => match lim with
        | none => d.walkList c x q e c.sp.budget true
        | some n => d.walkList c x q e (min n c.sp.budget) false
  | _, _ => { cap := cap }

/-- The weight a unit that sent no list was planned at (R153). -/
def Device.unitPlan (d : Device) (c : Cmd) (j : Nat) (u : UnitId) : Nat := (d.unitList c j u (some 0)).plan

/-! ### The stage B list (R149, R169) -/

/-- A run's own fold, or on a shoal index the fold of its shards' lists (R163). -/
def Device.runFold (d : Device) (c : Cmd) (r : VecRun) : Fold :=
  if (d.shoalIndex? c.indexNo).isSome && c.remote.isNone then r.merged else r.fold

/-- Entries of several vectors' lists united: one per ID with the larger key, the earlier vector on a tie (R149). -/
def uniteLists (ls : List (Nat × List Entry)) : List Entry :=
  (ls.flatMap fun (p : Nat × List Entry) => p.2.map fun (e : Entry) => { e with vec := p.1 }).foldl (fun acc (e : Entry) =>
    match sameId e acc with
    | some o => if o.key.toNat < e.key.toNat then rankInsert e (dropId e.id acc) else acc
    | none => rankInsert e acc) []

/-- The stage B list of a command: its fold's list, or for an MSEARCH the combination of its vectors' lists (R133, R149). -/
def Device.stageBList (d : Device) (c : Cmd) : List Entry :=
  if c.op == .msearch then
    let all := uniteLists ((c.runs.zipIdx).map fun p => (p.2, (d.runFold c p.1).list.entries))
    if c.sp.aggSum then (all.take (min 8192 (c.sp.nvec * c.sp.k * c.sp.f) + (if c.sp.ties then 64 else 0))).map fun e => { e with vec := 0 }
    else all.take c.sp.cap
  else rankSort ((d.runFold c (c.runs.headD {})).list.entries)

/-! ### Stage C (R145, R149) -/

/-- What stage C reads of a candidate held here: its refine code, stored norm and attribute words (R109, R123, R145). -/
def Device.storedOf (d : Device) (c : Cmd) (e : Entry) : Option (VForm × F32 × List W64) :=
  (d.index? c.indexNo).bind fun x => match e.source with
    | 0 => (tfind e.loc.2 ((x.cell e.loc.1).copyAt c.startView).slots).bind fun v => v.refine.map fun r => (r, v.norm, v.attrs)
    | 1 => (x.graph.nodeAt c.startView e.loc.1).bind fun v => v.refine.map fun r => (r, v.norm, v.attrs)
    | _ => none
/-- The query form that meets a refine format: INT8Z for the zero-point formats, MXFP8_E4M3 for the 8-bit floating and MX formats (R121). -/
def refineForm : VFmt → VFmt
  | .int4z => .int8z
  | .e4m3 | .e5m2 | .mxfp8e5m2 | .mxfp4 | .mxint8 | .mxint4 => .mxfp8e4m3
  | f => f
/-- A query in its index's refine form (R121). -/
def Index.refineQuery (x : Index) (q : List F32) : VForm := formOf (refineForm (x.refine.getD .bf16)) q
/-- The score of a query's refine form against a stored refine code with its stored norm (R57 to R59, R145). -/
def Index.formRefined (x : Index) (f r : VForm) (norm : F32) : F32 :=
  if x.metric == .l2sq then f32Neg (l2sq (formNorm f) norm (formDot f r)) else formDot f r
/-- The refined score of a query (R145). -/
def Index.refinedScore (x : Index) (q : List F32) (r : VForm) (norm : F32) : F32 := x.formRefined (x.refineQuery q) r norm

/-- The scores of a candidate against every vector as stage C has them, transformed: refined, or for a delta entry those of the delta
scan; none where nothing is stored to refine (R145, R149, R235). -/
def Device.refineScores (d : Device) (c : Cmd) (e : Entry) : Option (List F32) :=
  (d.index? c.indexNo).bind fun x =>
    let tr := fun (attrs : List W64) (s : F32) => transformScore (c.transform x) attrs s
    if e.source = 2 then (tfind e.loc.1 x.delta).map fun v => c.vecs.map fun q => tr v.attrs (x.deltaScore q v.vec)
    else (d.storedOf c e).map fun (r, n, attrs) => c.vecs.map fun q => tr attrs (x.refinedScore q r n)

/-- A candidate's place after stage C: its entry, if it stays, and the NaN scores counted (R145, R149, R167). A candidate whose scores are NaN for
every vector of an AGG MAX counts as one NaN score (DESIGN CHOICE, log entry 40). -/
def Cmd.refined (c : Cmd) (e : Entry) (ss : Option (List F32)) : Option Entry × Nat :=
  match ss with
  | none => (some e, 0)
  | some ss =>
    let st := if e.source = 2 then 0 else 1
    if c.sp.aggSum then
      match ss with
      | [] => (some e, 0)
      | s :: t => match scoreKey (t.foldl f32Add s) with
        | some k => if ss.any (fun s => (scoreKey s).isNone) then (none, 1) else (some { e with key := k, stage := 3, vec := 0 }, 0)
        | none => (none, 1)
    else if c.op == .msearch then
      let ks := (ss.zipIdx).filterMap fun p => (scoreKey p.1).map fun k => (k, p.2)
      match ks with
      | [] => (none, 1)
      | k :: t =>
        let b := t.foldl (fun m n => if m.1.toNat < n.1.toNat then n else m) k
        (some { e with key := b.1, stage := st, vec := b.2 }, ss.length - ks.length)
    else if e.source = 2 then (some e, 0)
    else match (ss.head?).bind scoreKey with
      | some k => (some { e with key := k, stage := 1 }, 0)
      | none => (none, 1)

/-- Stage C over a list held here: the entries that stay, in rank order, and the NaN scores (R145). -/
def Device.runStageC (d : Device) (c : Cmd) (es : List Entry) : List Entry × Nat :=
  let rs := es.map fun e => c.refined e (d.refineScores c e)
  (rankSort (rs.filterMap (·.1)), lsum (rs.map (·.2)))

/-- What a REFINE device keeps for a covered ID: its refine code, norm and attribute words, through its refine store (R470). -/
def Device.refineStore (d : Device) (i : Nat) (id : W64) : Option (VForm × F32 × List W64) :=
  ((d.shoal.refined.find? fun r => r.index == i && r.id == id).map fun r => (r.code, r.norm, r.attrs)).or <|
  (d.index? i).bind fun x => (x.lookup id).bind fun p => match p.2.2 with
    | .slot n s => (tfind s (x.cell n).cur.slots).bind fun v => v.refine.map fun r => (r, v.norm, v.attrs)
    | .node n => (x.graph.node? n).bind fun v => v.refine.map fun r => (r, v.norm, v.attrs)
    | .delta _ => none

/-! ### Stage D (R147) -/

/-- The stored vector that stage D puts in the row of a candidate held here. -/
def Device.rowVec (d : Device) (c : Cmd) (e : Entry) : Option (List F32) :=
  if e.source = 2 then (d.index? c.indexNo).bind fun x => (tfind e.loc.1 x.delta).map fun v => formF32 v.vec
  else (d.storedOf c e).map fun p => formF32 p.1
/-- A vector of n free elements from number k on. -/
def freeVec (k n : Nat) : List F32 := (List.range n).map fun i => Config.freeWord (k + i)
/-- Stage D over a list: the model's output for each entry, NaN outputs removed and counted (R147, R167). The owner runs it for candidates of other
shards too (R469), and the spec carries no stored vector to it: one that its own refine store does not hold is a free value, numbered from k on (log
entry 50). -/
def Device.runStageD (d : Device) (c : Cmd) (k : Nat) (es : List Entry) : List Entry × Nat :=
  let img := tget [] (c.snap.elim 0 (·.model)) d.models
  let dim := (c.query 0).length
  let vec := fun (e : Entry) (i : Nat) =>
    if e.shard == d.shoal.device then d.rowVec c e
    else some (((d.refineStore c.indexNo e.id).map fun p => formF32 p.1).getD (freeVec (k + dim * i) dim))
  let rs := (es.zipIdx).map fun (e, i) => match vec e i with
    | none => (some e, 0)
    | some v => match scoreKey (runModel img (modelRow (c.query 0) v (keyScore e.key))) with
      | some k => (some { e with key := k, stage := 2 }, 0)
      | none => (none, 1)
  (rankSort (rs.filterMap (·.1)), lsum (rs.map (·.2)))

/-! ### Stages as steps of a command -/

/-- Query vectors of the chunks admitted so far (R148). -/
def Cmd.admittedVecs (c : Cmd) : List Nat := List.range (min c.vecs.length (16 * c.chunks))
/-- A command runs: admitted and not cut. -/
def Cmd.runs? (c : Cmd) : Bool := c.op.isSearch && c.phase == .active && c.snap.isSome
/-- Every query vector has been admitted, stage A has run for it, and its units are folded (R133). -/
def Device.folded (d : Device) (c : Cmd) : Bool :=
  decide (c.vecs.length ≤ 16 * c.chunks) && c.runs.all fun r =>
    r.stageA && decide (r.units.length ≤ r.nextFold) &&
      (c.remote.isSome || (d.shoalIndex? c.indexNo).isNone || (!c.shards.isEmpty && c.shards.all fun p => r.joined.contains p))

/-- The SCs that may run a command's units (R342, R360). -/
def Device.scsFor (d : Device) (c : Cmd) : List Nat :=
  let all := d.inService c.burgee
  if (d.burgee c.burgee).halfLocal then all.filter fun n => n / 32 == c.half else all
/-- A context for unit u of vector j, placed by its number (R340, R360). -/
def Device.unitCtx (d : Device) (c : Cmd) (j u : Nat) : Device :=
  let scs := d.scsFor c
  match scs[u % max 1 scs.length]? with
  | none => d
  | some sc =>
    let x : Ctx := { id := d.ctxs.foldl (fun m (k : Ctx) => max m (k.id + 1)) 0, cmd := some c.stamp, burgee := c.burgee, rank := c.rank,
                     deadline := c.deadline.getD 0, stamp := c.stamp, unit := u, vec := j, sc := sc }
    { d with ctxs := d.ctxs ++ [x] }
/-- Units appended to a run of a command, each with its context. -/
def Device.addUnits (d : Device) (c : Cmd) (j : Nat) (us : List UnitId) : Device :=
  let n := (((d.cmd? c.stamp).elim [] (·.runs)).getD j {}).units.length
  let d1 := d.modCmd c.stamp fun c => { c with runs := lmod j (fun r => { r with units := r.units ++ us }) c.runs }
  (List.range us.length).foldl (fun d k => d.unitCtx c j (n + k)) d1

/-- A cell of an index is this device's own: any cell but one that a ROUTED index places elsewhere (R466). -/
def Device.ownCell (d : Device) (i n : Nat) : Bool :=
  match d.shoalIndex? i with
  | some si => !si.routed || si.cellPos n == some (posOf d.shoal.device)
  | none => true
/-- Stage A of a command run here for the vectors admitted (R127 to R130, R144), its probes counted (R335). -/
def Device.stageA (d : Device) (c : Cmd) (x : Index) : Device :=
  let js := c.admittedVecs.filter fun j => !(c.runs.getD j {}).stageA
  js.foldl (fun d j =>
    let (cells, nan) := c.probeList (d.ownCell c.indexNo) x (c.query j)
    let e := c.entryOf x (c.query j)
    let d1 := d.modCmd c.stamp fun c => { c with
      nanExtra := c.nanExtra + nan, runs := lmod j (fun r => { r with stageA := true, cells := cells, entry := e }) c.runs }
    cells.foldl (fun d p => d.probe x p.1) d1) d
/-- Stage B's units that stage A allows: code segments, or the walk (R156). -/
def Device.stageB (d : Device) (c : Cmd) (x : Index) : Device :=
  (List.range c.runs.length).foldl (fun d j =>
    let r := c.runs.getD j {}
    let have_ := r.units.any fun u => match u with | .delta _ => false | _ => true
    let us := if x.kind == .graph then (if r.entry.isSome then [UnitId.walk] else []) else segUnits x r.cells
    if !r.stageA || have_ then d else d.addUnits c j us) d

/-- A unit of a vector has sent its list. -/
def VecRun.ended (r : VecRun) (u : Nat) : Bool := decide (u < r.nextFold) || (tfind u r.arrived).isSome
/-- A unit's list and record arrive at the Merge Buffer (R160), and its work is done (R351). -/
def Device.unitArrives (d : Device) (c : Cmd) (j u : Nat) (l : UnitList) : Device :=
  let kind := (c.runs.getD j {}).units[u]?
  let d1 := d.modCmd c.stamp fun c => { c with runs := lmod j (fun r => { r with arrived := tset u l r.arrived }) c.runs }
  let mine := d1.ctxs.filter fun (k : Ctx) => k.cmd == some c.stamp && k.vec == j && k.unit == u
  let d2 := mine.foldl (fun d (k : Ctx) => d.releaseCtx k.id) d1
  match kind with
  | some (.seg n g) => d2.workDone c.stamp 5 (min 64 (ceilDiv ((d.index? c.indexNo).elim 0 fun x => (x.cell n).nSlots) 64 - 64 * g))
  | some .walk => d2.workDone c.stamp 7 c.sp.budget
  | _ => d2

/-- The next unit list of a run is folded into its running record (R161). -/
def VecRun.foldNext (cap : Nat) (beta : F32) (r : VecRun) : VecRun :=
  match tfind r.nextFold r.arrived with
  | none => r
  | some l =>
    let f := if r.nextFold = 0 then { r.fold with list := { r.fold.list with cap := cap } } else r.fold
    { r with fold := foldStep beta f l, nextFold := r.nextFold + 1, arrived := tdel r.nextFold r.arrived }
/-- The next shard list of a run is folded, in ascending device number (R163): every lower shard has been, unless the lists have
closed. -/
def VecRun.joinNext (cap : Nat) (beta : F32) (shards : List Nat) (closed : Bool) (r : VecRun) : VecRun :=
  match (sortBy (fun a b => decide (a < b)) shards).find? fun p => !r.joined.contains p && (!closed || (tfind p r.shards).isSome) with
  | none => r
  | some p => match tfind p r.shards with
    | none => r
    | some l =>
      let f := if r.joined.isEmpty then { r.merged with list := { r.merged.list with cap := cap } } else r.merged
      { r with merged := foldStep beta f l, joined := r.joined ++ [p] }

/-- The owner's own shard list: its own units are folded, and their fold stands as this device's list (R163, R469). -/
def Device.ownShard (d : Device) (c : Cmd) : Device :=
  d.modCmd c.stamp fun c =>
    if c.shards.contains d.shoal.device && c.remote.isNone && c.runs.all (fun r => r.stageA && decide (r.units.length ≤ r.nextFold)) then
      { c with runs := c.runs.map fun (r : VecRun) =>
          if (tfind d.shoal.device r.shards).isSome then r else { r with shards := tset d.shoal.device r.fold.sent r.shards } }
    else c

/-! ### Final selection (R164 to R180, R391) -/

/-- Whether a vector's fold ran with keys of a later stage or of several vectors (R165). -/
def Cmd.selParams (c : Cmd) (late : Bool) : SelParams :=
  { k := c.sp.k, ties := c.sp.ties, minKey := c.sp.threshold.bind scoreKey, beta := c.sp.beta, reKeyed := late || c.op == .msearch,
    msearch := c.op == .msearch }

/-- A command as its cut leaves it for selection: every list that arrived is folded in its order (R161, R175). -/
def Device.closeFolds (d : Device) (c : Cmd) : Cmd :=
  let close := fun (r : VecRun) => r.arrived.foldl (fun r p => { r with fold := foldStep c.sp.beta { r.fold with list := { r.fold.list with cap := c.sp.cap } } p.2 }) r
  let shoal := (d.shoalIndex? c.indexNo).isSome && c.remote.isNone
  let self := d.shoal.device
  let join := fun (r : VecRun) =>
    let r := if shoal && c.shards.contains self && (tfind self r.shards).isNone then { r with shards := tset self r.fold.sent r.shards } else r
    let rest := (sortBy (fun a b => decide (a < b)) (r.shards.map (·.1))).filter fun p => c.shards.contains p && !r.joined.contains p
    rest.foldl (fun (r : VecRun) _ => r.joinNext c.sp.cap c.sp.beta c.shards true) r
  { c with runs := c.runs.map fun r => let r1 := { close r with arrived := [] }; if shoal then join r1 else r1 }

/-- The device scans its delta for a command: it holds BUILD in a shoal, or stands alone (R466). -/
def Device.scansDelta (d : Device) (i : Nat) : Bool :=
  (d.shoalIndex? i).isNone || (tget ({} : Member) d.shoal.device d.shoal.dir).roles.testBit 2

/-- Weight planned for vector j of units that are not yet assigned (R153): the delta blocks of a vector whose chunk is not admitted, and the
slot blocks or expansions that do not wait for stage A's probe list (DEDUCED, log entry 28). -/
def Device.unassigned (d : Device) (c : Cmd) (j : Nat) (r : VecRun) : Nat :=
  match d.index? c.indexNo, c.snap with
  | some x, some s =>
    if c.remote.isSome then 0
    else
      let ds := if c.admittedVecs.contains j || !d.scansDelta c.indexNo then [] else deltaUnits x s
      let us := if r.stageA || x.kind == .graph || !(x.kind == .flat || c.prefilter) then [] else segUnits x (c.probeList (d.ownCell c.indexNo) x (c.query j)).1
      lsum ((ds ++ us).map (d.unitPlan c j)) +
        (if !r.stageA && x.kind == .graph && s.entryNode != 0xFFFFFFFF then 32 * c.sp.budget else 0)
  | _, _ => 0
/-- Weights done and planned of a command (R153); units that sent no list count as planned, and an MSEARCH's sums run over all its vectors. -/
def Device.weights (d : Device) (c : Cmd) : Nat × Nat :=
  let per := (c.runs.zipIdx).map fun p =>
    let r := p.1
    let l := r.fold.list
    let missing := (List.range r.units.length).filter fun u => !r.ended u
    (l.done + lsum (r.arrived.map fun q => q.2.done),
     l.plan + lsum (r.arrived.map fun q => q.2.plan) + lsum (missing.map fun u => (r.units[u]?).elim 0 (d.unitPlan c p.2)) +
       d.unassigned c p.2 r)
  (lsum (per.map (·.1)), lsum (per.map (·.2)))

/-- Coverage of a command (R153, R154). -/
def Device.coverage (d : Device) (c : Cmd) (trunc : Bool) : Nat :=
  if c.stageCut = 6 then 0
  else if (d.shoalIndex? c.indexNo).isSome && c.remote.isNone then
    let n := c.shards.length
    let own := let (a, b) := d.weights c; coverageOf trunc c.stageCut a b
    let cov := lsum (c.shards.map fun p =>
      if p == d.shoal.device then own else match c.shardsIn.zip c.shardCov |>.find? (·.1 == p) with | some q => q.2 | none => 0)
    let all := if n = 0 then 0 else cov / n
    if trunc || c.shardTrunc || c.missing != 0 || decide (c.shardsIn.length + (if c.shards.contains d.shoal.device then 1 else 0) < n) then min 255 all else all
  else let (a, b) := d.weights c; coverageOf trunc c.stageCut a b

/-- The final candidate list by the stage a command reached (R151). -/
def Device.finalList (d : Device) (c : Cmd) : List Entry :=
  match c.stageCut with
  | 1 => (d.stageBList c).filter fun (e : Entry) => e.source == 2
  | 2 => d.stageBList c
  | 3 => c.listB
  | 4 => c.listC.getD c.listB
  | _ => (c.listD.or c.listC).getD c.listB

/-- The result of a search: its entries, then the 64 B header before them in the result buffer, and its completion (R177, R391). -/
def Device.postResult (d : Device) (c0 : Cmd) : Device :=
  let trunc := c0.stageCut != 0
  let cov := d.coverage c0 trunc
  let c := d.closeFolds c0
  let late := c.stageCut == 0 || c.stageCut == 4 || c.stageCut == 5
  let reKeyed := late && (c.sp.stageC || (c.sp.stageD && c.stageCut != 4))
  let f := if c.op == .msearch then ({ list := { cap := c.sp.cap } } : Fold) else d.runFold c (c.runs.headD {})
  let s := finalSelect (c.selParams reKeyed) f (d.finalList c)
  let sum := fun (g : UnitList → Nat) => lsum (c.runs.map fun r => g (d.runFold c r).list)
  let shoal := (d.shoalIndex? c.indexNo).isSome
  let h : HeaderInfo :=
    { stageCut := c.stageCut, coverage := cov, nanCount := sum (·.nanCount) + c.nanExtra, dupCount := sum (·.dupCount),
      startView := c.startView, shards := if shoal then max 1 c.shards.length else 1, missing := c.missing, cid := c.cid, sqid := c.qid,
      reruns := c.reruns, trunc := trunc, prefilter := c.prefilter, twin := c.twin }
  let body := resultEntries c.sp.k s
  let parts := cutSegs (dropSegs 64 c.out) body ++ cutSegs c.out (headerBytes c.sp.k h s)
  let d1 := parts.foldl (fun d p => d.toHost c.fn p.1 true p.2) d
  let d2 := if trunc then d1.account (some c.fn) c.burgee fun a => { a with truncated := a.truncated + 1 } else d1
  (d2.groupsLeave c.burgee c.stamp).finishCmd c 0
    (min c.sp.k s.returned.length + at_ 16 cov + at_ 32 c.stageCut + at_ 40 (rflags h s)) trunc

end Sys2Proof.Machine
end

