-- ==== Sys2Proof/Machine/Hoist.lean ====
section
/-! DEFINITION. The Hoist boundary of a burgee: a pending geometry write, publication, and admission with its snapshot (R79, R122, R162,
R337 to R344, R348, R359, R362, R434). -/

namespace Sys2Proof.Machine

/-! ### A geometry write (R342, R343, R434) -/

/-- The burgees whose record a geometry write changes. -/
def Device.geoChanges (d : Device) (g : List Byte) : List Nat :=
  (List.range 16).filter fun b => geoSlice g b != fit 256 ((d.geo.getD b {}).raw)
/-- SCs that a geometry write removes from a burgee's set. -/
def Device.geoRemoves (d : Device) (g : List Byte) (b : Nat) : List Nat :=
  (List.range 64).filter fun n => (d.burgee b).scSet.getLsbD n && !((fieldAt (geoSlice g b) 8 8).testBit n)
/-- No burgee whose record changes has an admitted command, or a search context on an SC that the change removes (R343). -/
def Device.geoIdle (d : Device) (g : List Byte) : Bool :=
  (d.geoChanges g).all fun b =>
    (d.cmds.all fun c => c.burgee != b || !c.op.isSearch || c.phase == .waiting) &&
      d.ctxs.all fun k => k.burgee != b || k.cmd.isNone || !(d.geoRemoves g b).contains k.sc

/-- A background context leaves an SC its burgee loses: its banks are spilled, and it resumes on the first SC of the new set with the
same banks (R343). -/
def Device.moveCtx (d : Device) (k : Ctx) (sc : Nat) : Device :=
  let bytes := k.banks.flatMap fun n => [(n, d.read (scBase k.sc + 0x40000 * n) 0x40000)]
  let d1 := bytes.foldl (fun d p => d.write (scBase sc + 0x40000 * p.1) p.2) d
  let d2 := d1.account none k.burgee fun a => { a with spilled := a.spilled + 0x40000 * k.banks.length }
  let d3 := d2.modSc k.sc fun s => { s with running := if s.running == some k.id then none else s.running }
  d3.modCtx k.id fun k => { k with sc := sc, state := .yielded }

/-- A burgee's staged areas are freed (R418). -/
def Device.freeStaged (d : Device) (b : Nat) : Device :=
  let as := tget [] b d.staged
  let d1 := as.foldl (fun d a => d.freeF a.addr) d
  { d1 with staged := tdel b d1.staged }

/-- A burgee disabled by a geometry write: its contexts stop, its admitted commands complete with BURGEE_OFFLINE, its jobs end, and its
counters clear (R363, R364). -/
def Device.disableBurgee (d0 : Device) (b : Nat) : Device :=
  let d := d0.applyAccepted
  let d1 := ((d.cmds.filter fun c => c.burgee == b && c.remote.isNone && c.phase != .waiting).map (·.stamp)).foldl (fun d s => d.endCmd s stOffline) d
  let d2 := ((d1.jobs.filter fun j => j.burgee == b).map (·.id)).foldl (fun d j => d.endJob j 0x02) d1
  let d3 := ((d2.ctxs.filter fun k => k.burgee == b).map (·.id)).foldl (fun d i => d.releaseCtx i) d2
  let d4 := ((d3.fnsOf b).foldl (fun d f => d.modFn f fun n => { n with account := {} }) d3).freeStaged b
  d4.modBurgee b fun x => { x with readback := {}, bgAccount := {}, qwait := [], qwaitMax := [], groups := [] }

/-- Steps 2 to 5 of a counted geometry write: INTENT, its count, the settings journal, COMMITTED, and the records in force (R434). -/
def Device.acceptGeometry (d : Device) (m slot : Nat) (g : List Byte) : Device :=
  let no := d.fuses.used 2 + 1
  let old := geoDigest ((List.range 16).flatMap fun b => fit 256 ((d.geo.getD b {}).raw))
  let new := geoDigest g
  let who := if m = sbMb then 0xFFFF else m
  let changes := d.geoChanges g
  let moves := changes.flatMap fun b => (d.ctxs.filter fun k => k.burgee == b && k.cmd.isNone && (d.geoRemoves g b).contains k.sc).map fun k => (k, b)
  let gone := changes.filter fun b => (d.burgee b).enabled && fieldAt (geoSlice g b) 0 1 == 0
  let d1 := d.ledgerAdd 2 1 no old new who
  let d2 := { d1 with fuses := d1.fuses.consume 2 0 }
  let d3 := { d2 with flash := { d2.flash with geometry := g }, mgmt := { d2.mgmt with geoWrite := none } }
  let d4 := d3.ledgerAdd 2 2 no old new who
  let d5 := changes.foldl (fun d b => d.setGeoRec b (geoSlice g b)) d4
  let d6 := gone.foldl Device.disableBurgee d5
  let d7 := moves.foldl (fun d p => match d.inService p.2 with
    | [] => d.releaseCtx p.1.id
    | sc :: _ => d.moveCtx p.1 sc) d6
  (d7.raiseDev 0x000C 2).respond m slot 0 0 0 0
/-- GEOMETRY_ACCEPT: a pending geometry write is put in force at a boundary where the burgees it changes are idle (R343). -/
def Device.geometryAccept (d : Device) : Device :=
  match d.mgmt.geoWrite with
  | some (m, slot, g, _) => if d.geoIdle g then d.acceptGeometry m slot g else d
  | none => d
/-- A burgee's boundaries pass without admission while a geometry write that changes it waits (R343). -/
def Device.geoHolds (d : Device) (b : Nat) : Bool :=
  match d.mgmt.geoWrite with
  | some (_, _, g, _) => (d.geoChanges g).contains b
  | none => false

/-! ### Publication (R79, R81, R338) -/

/-- A deleted index whose view at deletion has been released leaves: all its L-tier and F-tier space is free (R80, R417). -/
def Device.reap (d : Device) (i : Nat) : Device :=
  match tfind i d.indexes with
  | none => d
  | some x =>
    if !(x.deletedAt.elim false fun v => d.released i v) then d
    else
      let sets := x.cells.flatMap fun p => (p.2.cur :: p.2.prev.toList).flatMap fun s => x.setRanges s true
      let groups := x.graph.groups.flatMap fun p => [(p.2.curBase, 28672), (p.2.prevBase, if p.2.prevBase = 0 then 0 else 28672)]
      let new := (x.cells.filterMap (·.2.rewrite) ++ x.graph.groups.filterMap (·.2.rewrite)).map fun r => (r.base, r.bytes)
      let d1 := (x.bases.zip x.parts ++ (sets ++ (groups ++ new))).foldl (fun d s => d.freeL s.1 s.2) d
      let g := d1.burgee x.burgee
      let copies := (g.placed.filter fun p => p.index == i).map (·.fAddr) ++ (g.left.filter fun l => l.index == i).map (·.fAddr)
      let d2 := (x.deltaFBase :: copies).foldl (fun d a => d.freeF a) d1
      let d3 := d2.modBurgee x.burgee fun b => { b with placed := b.placed.filter (·.index != i), left := b.left.filter (·.index != i) }
      { d3 with indexes := tdel i d3.indexes }

/-- VIEW_CADENCE_ADVANCE: an index of a burgee that published nothing in the cadence advances its VIEW, unless R81 holds it; a deleted index
advances too, so that its last view is released (R417). -/
def Device.cadence (d : Device) (b : Nat) : Device :=
  ((d.indexes.filter fun p => p.2.burgee == b).map (·.1)).foldl (fun d i =>
    match tfind i d.indexes with
    | none => d
    | some x =>
      if x.deletedAt.isSome then (d.modIndex i fun x => { x with view := nextView x.view }).reap i
      else
        let d1 := if x.view != x.boundView then d else if d.mayAdvance i then d.advanceView i else d.countWait i
        d1.modIndex i fun x => { x with boundView := x.view }) d

/-! ### Queue wait (R362) -/

/-- The bucket of a queue wait in µs (R362). -/
def qwaitBucket (w : Nat) : Nat := if w = 0 then 0 else min 21 (w.log2 + 1)
/-- A queue wait in ns recorded for a command's client (R361, R362). -/
def Device.recordWait (d : Device) (c : Cmd) (ns : Nat) : Device :=
  if c.remote.isSome then d
  else
    let w := ns / 1000
    d.modBurgee c.burgee fun b => { b with
      qwait := tmod (List.replicate 22 0) c.fn (fun h => lmod (qwaitBucket w) (· + 1) h) b.qwait,
      qwaitMax := tmod 0 c.fn (fun m => min 0xFFFFFFFF (max m w)) b.qwaitMax }

/-! ### Admission (R122, R162, R339, R348) -/

/-- Bytes of the Merge Buffer a command reserves (R162, R466). -/
def Device.mbNeed (d : Device) (c : Cmd) : Nat :=
  let m := c.sp.cap
  let s := match d.shoalIndex? c.indexNo with
    | some _ => if c.remote.isSome then 0 else ((d.shoal.dir.filter fun p => (p.2.roles.testBit 0 || p.2.roles.testBit 2) && sideOf p.1 == sideOf d.shoal.device)).length + 2
    | none => 0
  16 * 66 * m + 1024 + 16 * s * m
/-- The Merge Buffer a command's folds run in: its owning half's, or the other's while that is out of service (R176). -/
def Device.foldHalf (d : Device) (c : Cmd) : Nat := if (d.mb c.half).out then 1 - c.half else c.half
/-- The reservation is free (R162). -/
def Device.mbFree (d : Device) (c : Cmd) : Bool := decide ((d.mb (d.foldHalf c)).used + d.mbNeed c ≤ 0x2000000)

/-- Earlier-fetched writes of the command's queue pair to its index have been accepted (R393). -/
def Device.writesDone (d : Device) (c : Cmd) : Bool :=
  !(d.cmds.any fun e => e.op.isWrite && e.remote.isNone && e.fn == c.fn && e.qid == c.qid && e.indexNo == c.indexNo && decide (e.stamp < c.stamp)
      && (e.accepted.isNone || (!e.applied && e.forwarded.isEmpty)))

/-- The snapshot of an index (R122). -/
def Device.snapshot (d : Device) (x : Index) (filter : Option FilterProg) : Snapshot :=
  { startView := x.view, startSeq := x.lastLogSeq, entryNode := x.graph.entry, topLevel := x.graph.top, deltaTail := x.deltaTail,
    deltaHead := x.deltaHead, filter := filter, transform := x.transform, model := d.model }

/-- An admitted command takes its Merge Buffer space, and its delta units and their contexts where it has any (R122, R156, R162). -/
def Device.enter (d : Device) (x : Index) (c : Cmd) : Device :=
  let need := d.mbNeed c
  let half := d.foldHalf c
  let d1 := d.modCmd c.stamp fun _ => { c with mbBytes := need, half := half }
  let d2 := d1.modMb half fun m => { m with used := m.used + need }
  let refine := c.remote.elim false fun r => r.kind != 0x03
  match c.snap with
  | some s =>
    if refine || !d.scansDelta c.indexNo then d2
    else c.admittedVecs.foldl (fun d j => d.addUnits c j (deltaUnits x s)) d2
  | none => d2

/-- Further chunks of an admitted MSEARCH, at most 4 at one boundary, while their places fit (R148, R339). -/
def Device.moreChunks (d : Device) (maxBatch : Nat) (c : Cmd) : Device :=
  let left := ceilDiv c.vecs.length 16 - c.chunks
  let room := (maxBatch - d.places c.burgee) / 16
  let n := min 4 (min left room)
  if n = 0 then d
  else
    let old := c.admittedVecs.length
    let c1 := { c with chunks := c.chunks + n }
    let d1 := d.modCmd c.stamp fun _ => c1
    match d.index? c.indexNo, c.snap with
    | some x, some s => if d.scansDelta c.indexNo then (c1.admittedVecs.drop old).foldl (fun d j => d.addUnits c1 j (deltaUnits x s)) d1 else d1
    | _, _ => d1

/-- The candidate as admission would leave it, unbounded so far. -/
def Device.asAdmitted (d : Device) (x : Index) (filter : Option FilterProg) (ta room : Nat) (c : Cmd) : Cmd :=
  let g := d.burgee c.burgee
  let limit := d.xferLimit c.burgee
  let chunks := if c.op == .msearch then min 4 (min (ceilDiv c.vecs.length 16) (room / 16)) else 1
  let sn := d.snapshot x filter
  let sn := match c.remote with | some r => { sn with transform := r.xform } | none => sn
  let c1 := { c with
    phase := .active, snap := some sn, admitted := ta, chunks := chunks, rank := 3, bound := false,
    runs := if c.runs.isEmpty then c.vecs.map fun _ => { fold := { list := { cap := c.sp.cap } }, merged := { list := { cap := c.sp.cap } } } else c.runs,
    shoalView := if c.remote.isSome then c.shoalView else (d.shoalIndex? c.indexNo).elim 0 (·.view),
    work := x.ownPieces g.prefetch limit (tget [] d.model d.models) c.sp, lat := d.latOf x c.sp (g.hoist * 1600) g.rw }
  { c1 with prefilter := c1.prefilters x }

/-- STATIC_BOUND_CHECK and admission of one candidate (R348, R351, R352, R359): `new` are the stamps this boundary has admitted. -/
def Device.admitChecked (d : Device) (x : Index) (ta : Nat) (new : List Nat) (c : Cmd) : Device × List Nat :=
  let b := c.burgee
  let g := d.burgee b
  let on := d.cmds.filter fun e => new.contains e.stamp && e.indexNo == c.indexNo
  let q := lsum (on.map (·.sp.nvec)) + c.sp.nvec
  let s := ((on ++ [c]).filterMap (·.pair)).eraseDups.length
  let mine := fun (k : Batch) => k.index == c.indexNo && k.members.any fun m => new.contains m
  let members := (g.groups.filter mine).flatMap (·.members)
  let pieces := x.groupPieces g.prefetch (d.xferLimit b) q s
  let others := g.groups.filter fun k => !mine k
  let withC := { index := c.indexNo, members := members ++ [c.stamp], pieces := pieces } :: others
  let bounded := d.cmds.filter fun e => e.burgee == b && e.phase == .active && e.bound && !e.voided
  let may := c.remote.elim true (·.bound)
  let ok := may && !d.boundSuspended && d.boundCheck b ta (bounded ++ [c]) withC
  if ok then
    let d1 := (d.enter x { c with bound := true, rank := 4 }).modBurgee b fun g => { g with groups := withC }
    ((if c.remote.isNone then d1.account (some c.fn) b fun a => { a with admBound := a.admBound + 1 } else d1), new ++ [c.stamp])
  else if c.sp.boundOnly && c.remote.isNone then (d, new)
  else
    let gs := if members.isEmpty then g.groups else { index := c.indexNo, members := members, pieces := pieces } :: others
    let d1 := (d.enter x c).modBurgee b fun g => { g with groups := gs }
    ((if c.remote.isNone then d1.account (some c.fn) b fun a => { a with admBest := a.admBest + 1 } else d1), new ++ [c.stamp])

/-- One candidate considered for admission at a boundary with admission instant ta; its filter program and resident model are those of its admission,
and it fails there without them (R122, R126, R147, R339, R393, R465). -/
def Device.consider (ta : Nat) (p : Device × List Nat) (stamp : Nat) : Device × List Nat :=
  let (d, new) := p
  match d.cmd? stamp with
  | none => p
  | some c =>
    match d.index? c.indexNo with
    | none => (d.endCmd stamp stIndexDeleted, new)
    | some x =>
      let room := (d.burgee c.burgee).maxBatch - d.places c.burgee
      let behind := c.remote.isSome && viewNewer c.shoalView ((d.shoalIndex? c.indexNo).elim 0 (·.view))
      if behind || !d.writesDone c || room < (if c.op == .msearch then 16 else 1) || !d.mbFree c then p
      else
        let f := if c.sp.filterId = 0 then none else tfind c.sp.filterId x.filters
        if c.sp.filterId != 0 && (f.elim true fun g => g.nParams != c.ps.length) then
          ((d.recordWait c (ta - c.t0)).endCmd stamp stInvalidField, new)
        else if c.sp.stageD && c.remote.isNone && !d.modelFits x then ((d.recordWait c (ta - c.t0)).endCmd stamp stNoModel, new)
        else
          let (d1, new1) := d.admitChecked x ta new (d.asAdmitted x f ta room c)
          if new1.length = new.length then (d1, new1) else (d1.recordWait c (ta - c.t0), new1)

/-- ADMISSION: the pending chunks of admitted MSEARCH commands in the order of their first admission, then new commands by deadline and
fetch order (R339). -/
def Device.admission (d : Device) (b ta : Nat) : Device :=
  let mine := d.cmds.filter fun c => c.burgee == b && c.op.isSearch
  let early := fun (x y : Nat × Nat × Nat) => decide (x.1 < y.1) || (x.1 == y.1 && decide (x.2.1 < y.2.1))
  let old := sortBy early ((mine.filter fun c => c.phase == .active && c.snap.isSome && decide (16 * c.chunks < c.vecs.length)).map fun c => (c.admitted, c.stamp, 0))
  let due := fun (c : Cmd) => c.deadline.elim true fun t => decide (d.now < t)
  let fresh := sortBy early ((mine.filter fun c => c.phase == .waiting && due c).map fun c => (c.deadline.getD 0, c.stamp, 0))
  let d1 := old.foldl (fun d p => (d.cmd? p.2.1).elim d fun c => d.moreChunks (d.burgee b).maxBatch c) d
  ((fresh.map (·.2.1)).foldl (Device.consider ta) (d1, [])).1

/-- The instant of a burgee's next boundary: the first multiple of H after its last (R337). -/
def Device.nextBoundary (d : Device) (b : Nat) : Nat :=
  let h := 1000 * (d.burgee b).hoist
  ceilDiv (max d.now ((d.burgee b).lastBound + 1)) h * h

/-- HOIST_BOUNDARY: a burgee's next Hoist boundary: a geometry write that can be is accepted, views publish, and unless admission is
frozen, quiesced or held for a geometry write, candidates are admitted within 2 µs (R338). -/
def hoistBoundaryEff (b : Nat) (d : Device) : Device :=
  if !d.ready || 16 ≤ b then d
  else
    let t := d.nextBoundary b
    let d1 := (d.by t).modBurgee b fun g => { g with lastBound := t }
    let d2 := d1.geometryAccept.cadence b
    if d2.frozen || d2.quiesced || d2.geoHolds b || !(d2.burgee b).enabled || !d2.dataPath then d2
    else (d2.admission b (t + 2000)).by (t + 2000)
/-- HOIST_BOUNDARY (R338). -/
def execHoistBoundary (b : Nat) (s : State) : Host.Outcome State Fault Refusal := onDev (hoistBoundaryEff b) s

end Sys2Proof.Machine
end

