-- ==== Sys2Proof/Machine/Remote.lean ====
section
/-! DEFINITION. Queries across devices: what ENTRY_REQUEST, SHARD_TASK, SHARD_LIST and the REFINE messages carry, and how a command's
owner asks for them (R357, R358, R467 to R471). Layouts the spec leaves open follow log entry 30. -/

namespace Sys2Proof.Machine

/-! ### Bytes (R467, R468) -/

/-- Query vectors as FP32, then parameter words, each part padded to 64 B. -/
def queryBytes (vecs : List (List F32)) (ps : List W64) : List Byte :=
  pad64 (vecs.flatten.flatMap fun (x : F32) => leBytes 4 x.toNat) ++ pad64 (ps.flatMap fun (p : W64) => leBytes 8 p.toNat)
/-- A probe sublist: a count, 8 B per cell with its rank, and an FP32 term per cell, padded to 64 B. -/
def sublistBytes (cells : List (Nat × Nat × F32)) : List Byte :=
  pad64 (leBytes 8 cells.length ++ (cells.flatMap fun (p : Nat × Nat × F32) => leBytes 4 p.1 ++ leBytes 2 p.2.1 ++ leBytes 2 0) ++
    cells.flatMap fun (p : Nat × Nat × F32) => leBytes 4 p.2.2.toNat)
/-- A list entry of 16 B (R468). -/
def listEntryBytes (e : Entry) : List Byte := leBytes 8 e.id.toNat ++ leBytes 4 e.key.toNat ++ leBytes 4 (at_ 30 e.source + e.shard)
/-- A unit record of R160, 128 B, with the coverage of the shard and whether it was cut. -/
def recordBytes (vec coverage : Nat) (trunc : Bool) (u : UnitList) : List Byte :=
  let (has, e, s) := match u.tail.body with | none => (false, 0, 0) | some (e, s) => (true, twos 64 e, s.toNat)
  leBytes 8 vec ++ leBytes 8 u.scored ++ leBytes 8 u.nanCount ++ leBytes 8 u.dupCount ++ leBytes 4 u.maxKey.toNat ++ leBytes 4 u.edgeKey.toNat ++
    leBytes 8 u.edgeTies ++ leBytes 8 u.tailCount ++ leBytes 8 u.tail.infN ++ leBytes 8 (if has then 1 else 0) ++ leBytes 8 e ++ leBytes 4 s ++
    leBytes 4 u.tailMax.toNat ++ leBytes 8 u.done ++ leBytes 8 u.plan ++ leBytes 8 u.entries.length ++ leBytes 8 (coverage + flagAt 16 trunc) ++
    leBytes 8 u.cap
/-- A SHARD_LIST: a record and its entries for each query vector. -/
def shardListBytes (coverage : Nat) (trunc : Bool) (ls : List UnitList) : List Byte :=
  (ls.zipIdx).flatMap fun p => recordBytes p.2 coverage trunc p.1 ++ p.1.entries.flatMap listEntryBytes

/-- A unit record read back, with its length in entries, coverage and TRUNC (R160, R468). -/
def parseRecord (bs : List Byte) : UnitList × Nat × Nat × Bool :=
  let w := fun o => fieldAt bs o 8
  let e : Int := signedOf 64 (w 72)
  ({ cap := w 120, scored := w 8, nanCount := w 16, dupCount := w 24, maxKey := BitVec.ofNat 32 (fieldAt bs 32 4),
     edgeKey := BitVec.ofNat 32 (fieldAt bs 36 4), edgeTies := w 40, tailCount := w 48,
     tail := { infN := w 56, body := if w 64 = 0 then none else some (e, BitVec.ofNat 32 (fieldAt bs 80 4)) },
     tailMax := BitVec.ofNat 32 (fieldAt bs 84 4), done := w 88, plan := w 96 }, w 104, w 112 % 65536, (w 112).testBit 16)
/-- An entry of 16 B read back: its location is known at its shard alone (R468). -/
def parseListEntry (bs : List Byte) : Entry :=
  let i := fieldAt bs 12 4
  { id := BitVec.ofNat 64 (fieldAt bs 0 8), key := BitVec.ofNat 32 (fieldAt bs 8 4), source := i / 2 ^ 30, loc := (0, 0), shard := i % 65536 }
/-- The lists of a SHARD_LIST in vector order, with the shard's coverage and TRUNC; `fuel` bounds the vectors read. -/
def parseShardList : Nat → List Byte → List UnitList × Nat × Bool
  | 0, _ => ([], 0, false)
  | fuel + 1, bs =>
    if bs.isEmpty then ([], 0, false)
    else
      let (u, n, cov, tr) := parseRecord bs
      let es := (List.range n).map fun i => parseListEntry (bs.drop (128 + 16 * i))
      let (rest, c2, t2) := parseShardList fuel (bs.drop (128 + 16 * n))
      ({ u with entries := es } :: rest, if rest.isEmpty then cov else c2, tr || t2)

/-- A probe sublist read back, and the bytes after it. -/
def parseSublist (bs : List Byte) : List (Nat × Nat × F32) × List Byte :=
  let n := fieldAt bs 0 8
  ((List.range n).map fun i => (fieldAt bs (8 + 8 * i) 4, fieldAt bs (12 + 8 * i) 2, BitVec.ofNat 32 (fieldAt bs (8 + 8 * n + 4 * i) 4)),
   bs.drop (roundUp 64 (8 + 12 * n)))

/-! ### Requests of an owner (R357, R358) -/

/-- REMOTE_REQUEST_ISSUE: a request is sent under a new tag; a context holds its RRT entry and yields its engine. The reply slot's
address is the firmware's choice: a free value (log entry 2). -/
def Device.issueRemote (d : Device) (c : Cmd) (kind dst replyVc replyLen : Nat) (mk : Nat → List Byte) : Device :=
  let (tag, d1) := d.newTag
  let (k, d2) := d1.draw 1
  let o : Outstanding := { tag := tag, kind := kind, stamp := c.stamp, dst := dst, at_ := d.now }
  let e : RrtEntry := { tag := tag, device := dst, vc := replyVc, state := .waiting, len := min 65535 (max 1 (ceilDiv replyLen 64)),
                        slotAddr := Config.freeNat k, deadline := c.deadline.getD 0xFFFFFFFFFFFFFFFF, issued := d.now }
  let x : Ctx := { id := d2.ctxs.foldl (fun m (k : Ctx) => max m (k.id + 1)) 0, cmd := some c.stamp, burgee := c.burgee, rank := c.rank,
                   deadline := c.deadline.getD 0, stamp := c.stamp, unit := 0xFFFFFFFF, sc := (d2.scsFor c).headD 0, state := .remote,
                   started := true, rrt := [e] }
  let d3 := { d2 with shoal := { d2.shoal with pending := d2.shoal.pending ++ [o] }, ctxs := d2.ctxs ++ [x] }
  d3.send dst kind tag c.burgee false (mk tag)

/-- Requests of a command of the kinds that its cut cancels: CANCELs are sent, and their RRT entries read cancelled; shard lists stay
awaited until the lists close (R152, R358, R467, R471; log entry 17). -/
def Device.cancelKinds (d : Device) (c : Cmd) (kinds : List Nat) : Device :=
  let mine := d.shoal.pending.filter fun o => o.stamp == c.stamp && kinds.contains o.kind
  let tags := mine.map (·.tag)
  let cut := fun (e : RrtEntry) => if tags.contains e.tag then { e with state := .cancelled } else e
  let d1 := { d with shoal := { d.shoal with pending := d.shoal.pending.filter fun o => !mine.contains o },
                     ctxs := d.ctxs.map fun k => { k with rrt := k.rrt.map cut } }
  mine.foldl (fun d o => d.send o.dst 0x07 o.tag c.burgee false (d.taskHeader c o.tag)) d1

/-- A reply meets its RRT entry: it is consumed where the context is resident, parked and counted while it is spilled, dropped and
counted when the entry was cancelled (R358). The answer says whether it is to be consumed now. -/
def Device.takeReply (d : Device) (tag : Nat) (bytes : List Byte) : Bool × Device :=
  match d.ctxs.find? fun k => k.rrt.any fun e => e.tag == tag with
  | none => (d.shoal.pending.any fun o => o.tag == tag, d)
  | some k =>
    let set := fun (s : RrtState) (e : RrtEntry) => if e.tag == tag then { e with state := s, reply := bytes } else e
    let st := (k.rrt.find? fun e => e.tag == tag).elim RrtState.free (·.state)
    if st == .cancelled then
      (false, ({ d with shoal := { d.shoal with lateReplies := d.shoal.lateReplies + 1 } }).modCtx k.id fun k => { k with rrt := k.rrt.filter fun e => e.tag != tag })
    else if k.state == .spilled then
      (false, (d.modCtx k.id fun k => { k with rrt := k.rrt.map (set .parked) }).account (d.clientOf k.id) k.burgee
        fun a => { a with parked := a.parked + bytes.length })
    else if st == .waiting then
      (true, d.modCtx k.id fun k => { k with rrt := k.rrt.filter fun e => e.tag != tag, state := .ready })
    else (false, d)

/-! ### Shards (R466, R469) -/

/-- Devices that serve the positions of this device's shoal with a role bit: a LOST one's twin, or itself, which then is missing (R475). -/
def Device.membersWith (d : Device) (role : Nat) : List Nat :=
  (d.shoal.dir.filter fun p => p.2.roles.testBit role && p.2.state != 1 && sideOf p.1 == sideOf d.shoal.device).map fun p => d.posDev (posOf p.1)
/-- The SEARCH and BUILD devices, which run a BROADCAST command (R469). -/
def Device.broadcastTo (d : Device) : List Nat := sortBy (fun a b => decide (a < b)) ((d.membersWith 0 ++ d.membersWith 2).eraseDups)
/-- The device that holds a cell of a ROUTED index (R466). -/
def Device.cellHolder (d : Device) (si : ShoalIndex) (n : Nat) : Option Nat := (si.cellPos n).map d.posDev
/-- The maps in force at a SHOAL_VIEW (R465). -/
def ShoalIndex.asOf (si : ShoalIndex) (v : Nat) : ShoalIndex :=
  match si.past.find? fun p => !viewNewer v p.1 with
  | some p => { si with shards := p.2 }
  | none => si
/-- A shard of a command is missing: its list counts as one without entries and coverage (R154, R358). -/
def Device.markMissing (d : Device) (stamp dev : Nat) : Device :=
  d.modCmd stamp fun c =>
    match c.shards.find? fun p => posOf p == posOf dev with
    | none => c
    | some p =>
      if c.shardsIn.contains p then c
      else { c with missing := c.missing + 1, shardsIn := c.shardsIn ++ [p], shardCov := c.shardCov ++ [0],
                    runs := c.runs.map fun (r : VecRun) => { r with shards := tset p ({ cap := c.sp.cap } : UnitList) r.shards } }
/-- The shards of a command whose devices do not serve are missing (R475). -/
def Device.missLost (d : Device) (stamp : Nat) : Device :=
  (((d.cmd? stamp).elim [] (·.shards)).filter fun p => !d.serves p).foldl (fun d p => d.markMissing stamp p) d

/-- The part of a probe list that a device's shard holds, with its ranks (R468). -/
def Device.sublist (d : Device) (si : ShoalIndex) (dev : Nat) (cells : List (Nat × F32)) : List (Nat × Nat × F32) :=
  (cells.zipIdx).filterMap fun p => if d.cellHolder si p.1.1 == some dev then some (p.1.1, p.2, p.1.2) else none
/-- The devices a ROUTED command is sent to: those that hold a probed cell, and every BUILD device (R469). -/
def Device.routedTo (d : Device) (si : ShoalIndex) (c : Cmd) : List Nat :=
  let held := (c.runs.flatMap (·.cells)).filterMap fun p => d.cellHolder si p.1
  sortBy (fun a b => decide (a < b)) ((held ++ d.membersWith 2).eraseDups)
/-- A SHARD_TASK's payload for a device (R468). -/
def Device.shardTask (d : Device) (si : ShoalIndex) (c : Cmd) (dev tag : Nat) : List Byte :=
  d.taskHeader c tag ++ queryBytes c.vecs c.ps ++ (if si.routed then c.runs.flatMap fun r => sublistBytes (d.sublist si dev r.cells) else [])

/-- The holder that a ROUTED command's owner asks: (owner position + FETCH_STAMP) mod 3, or the next that can be reached (R469). -/
def Device.entryHolder (d : Device) (c : Cmd) : Option Nat :=
  let hs := d.holders
  let k := (posOf d.shoal.device + c.stamp) % 3
  let ord := (List.range 3).filterMap fun i => hs[(k + i) % 3]?
  ord.find? fun h => d.serves h

/-- A SHARD_LIST sent to the owner of a task for its lists as they stand; NaN scores of stage A counted here go with the first list (R163, R167,
R468; DESIGN CHOICE, log entry 51: a holder that is no shard of the command sends no list, and those it counts reach no header). -/
def Device.sendList (d : Device) (c : Cmd) (r : RemoteOrigin) (trunc : Bool) : Device :=
  let cov := let (a, b) := d.weights c; coverageOf trunc c.stageCut a b
  let c1 := d.closeFolds c
  d.send r.device 0x04 r.tag c.burgee false (shardListBytes cov trunc ((c1.runs.zipIdx).map fun p =>
    let l := p.1.fold.sent
    if p.2 = 0 then { l with nanCount := l.nanCount + c.nanExtra } else l))

/-- This device's own part of a shard's cells, taken by a command that runs here. -/
def Device.takeCells (d : Device) (stamp : Nat) (subs : List (List (Nat × Nat × F32))) : Device :=
  let order := fun (s : List (Nat × Nat × F32)) => (sortBy (fun (a b : Nat × Nat × F32) => decide (a.2.1 < b.2.1)) s).map fun p => (p.1, p.2.2)
  d.modCmd stamp fun c => { c with runs := (c.runs.zipIdx).map fun p => { p.1 with stageA := true, cells := order (subs.getD p.2 []) } }

/-- Stage A of a ROUTED command run at this holder: each shard device is sent its sublist; the shards are answered (R469 step 3). -/
def Device.routeShards (d : Device) (si : ShoalIndex) (c : Cmd) (tag : Nat) : List Nat × Device :=
  let tgts := d.routedTo si c
  let self := d.shoal.device
  let owner := c.remote.elim self (·.device)
  (tgts, (tgts.filter fun p => p != self && d.serves p).foldl (fun d p => if p == owner && c.remote.isNone then d else d.send p 0x03 tag c.burgee false (d.shardTask si c p tag)) d)

/-- Stage A of a command on a shoal index (R469 steps 2 and 3). -/
def Device.shoalStageA (d : Device) (si0 : ShoalIndex) (c : Cmd) (x : Index) : Device :=
  let self := d.shoal.device
  let si := si0.asOf c.shoalView
  match c.remote with
  | none =>
    if !c.shards.isEmpty || d.shoal.pending.any (fun o => o.stamp == c.stamp) then d
    else if si.routed then
      match d.entryHolder c with
      | none => d
      | some h =>
        if h == self then
          let d1 := d.stageA c x
          let c1 := (d1.cmd? c.stamp).getD c
          let (tag, d2) := d1.newTag
          let (tgts, d3) := d2.routeShards si c1 tag
          let os := (tgts.filter fun p => p != self && d.serves p).map fun p => ({ tag := tag, kind := 0x03, stamp := c.stamp, dst := p, at_ := d.now } : Outstanding)
          let d4 := { d3 with shoal := { d3.shoal with pending := d3.shoal.pending ++ os } }
          ((d4.modCmd c.stamp fun c => { c with shards := tgts }).takeCells c.stamp (c1.runs.map fun r => d4.sublist si self r.cells)).missLost c.stamp
        else d.issueRemote c 0x01 h 1 64 fun tag => d.taskHeader c tag ++ queryBytes c.vecs c.ps
    else
      let tgts := d.broadcastTo
      let d1 := (tgts.filter fun p => p != self && d.serves p).foldl (fun d p => d.issueRemote c 0x03 p 2 65536 fun tag => d.shardTask si c p tag) d
      let d2 := (d1.modCmd c.stamp fun c => { c with shards := tgts }).missLost c.stamp
      let c2 := (d2.cmd? c.stamp).getD c
      if (d.membersWith 0).contains self then d2.stageA c2 x else d2.takeCells c.stamp []
  | some r =>
    if r.kind = 0x01 then
      let d1 := d.stageA c x
      let c1 := (d1.cmd? c.stamp).getD c
      let (tgts, d2) := d1.routeShards si c1 r.tag
      let d3 := d2.send r.device 0x02 r.tag c.burgee false (leBytes 2 tgts.length ++ tgts.flatMap fun p => leBytes 2 p)
      if tgts.contains self then
        (d3.modCmd c.stamp fun c => { c with remote := some { r with kind := 0x03 } }).takeCells c.stamp (c1.runs.map fun q => d3.sublist si self q.cells)
      else d3.dropCmd c1
    else if r.kind = 0x03 && !si.routed then
      if (d.membersWith 0).contains self then d.stageA c x else d.takeCells c.stamp []
    else d

/-! ### Stage C on REFINE devices (R146, R470) -/

/-- The REFINE device of a candidate's shard (R470); none where the refine map names none. -/
def Device.refineDev (d : Device) (si : ShoalIndex) (e : Entry) : Option Nat := (tfind (posOf e.shard) si.refine).map fun p => d.posDev p.1
/-- Candidates of a list by the device that refines them, this one excepted. -/
def Device.refineTo (d : Device) (si : ShoalIndex) (es : List Entry) : List (Nat × List Entry) :=
  let devs := ((es.filter fun e => e.source != 2).filterMap fun e => d.refineDev si e).eraseDups.filter fun p => p != d.shoal.device
  devs.map fun p => (p, es.filter fun e => e.source != 2 && d.refineDev si e == some p)
/-- Bytes of the elements and of the scales of a query in its refine form (R48, R51, R55). -/
def Index.refineFormLens (x : Index) : Nat × Nat :=
  let f := refineForm (x.refine.getD .bf16)
  (ceilDiv (x.dim * fmtBits f) 8, match f with
    | .int8z => 8 * ceilDiv x.dim 64
    | .mxfp8e4m3 => ceilDiv x.dim 32
    | _ => 0)
/-- A REFINE_REQUEST's body after its header: each query vector in its refine form, elements and then scales, and the candidates (R146, R468). -/
def refineBody (x : Index) (c : Cmd) (es : List Entry) : List Byte :=
  pad64 ((c.vecs.map x.refineQuery).flatMap fun f => formBytes f ++ formScales f) ++ pad64 (leBytes 8 es.length) ++ pad64 (es.flatMap listEntryBytes)
/-- The refine forms after a task header, and what follows them. -/
def headerForms (x : Index) (nvec : Nat) (b : List Byte) : List VForm × List Byte :=
  let q := b.drop 64
  let (n, k) := x.refineFormLens
  ((List.range nvec).map fun j =>
     formRead (refineForm (x.refine.getD .bf16)) x.dim ((q.drop ((n + k) * j)).take n) ((q.drop ((n + k) * j + n)).take k),
   q.drop (roundUp 64 ((n + k) * nvec)))
/-- Stage C of an owner on a shoal index: candidates are sent to their REFINE devices, and those held here are refined here; the others
keep their stage B keys (R146, R470). -/
def Device.shoalStageC (d : Device) (si : ShoalIndex) (c : Cmd) (es : List Entry) : Device :=
  let away := d.refineTo si es
  let here := es.map fun (e : Entry) =>
    if e.shard == d.shoal.device && (e.source == 2 || (d.refineDev si e).elim true fun p => p == d.shoal.device) then c.refined e (d.refineScores c e) else (some e, 0)
  let d1 := d.modCmd c.stamp fun c => { c with listC := some (rankSort (here.filterMap (·.1))), nanExtra := c.nanExtra + lsum (here.map (·.2)) }
  match d.index? c.indexNo with
  | none => d1
  | some x => (away.filter fun p => d.serves p.1).foldl (fun d p =>
      d.issueRemote c 0x05 p.1 1 (16 * p.2.length) fun tag => d.taskHeader c tag ++ refineBody x c p.2) d1

/-- The entries of a REFINE_REPLY, in request order: ID, key, REFINED and NAN (R468). -/
def parseRefineReply (bs : List Byte) : List (W64 × W32 × Bool × Bool) :=
  (List.range (bs.length / 16)).map fun i =>
    (BitVec.ofNat 64 (fieldAt bs (16 * i) 8), BitVec.ofNat 32 (fieldAt bs (16 * i + 8) 4), (fieldAt bs (16 * i + 12) 1).testBit 0,
     (fieldAt bs (16 * i + 12) 1).testBit 1)
/-- The answers to a REFINE_REQUEST taken into a stage C list (R470). -/
def applyRefine (sum : Bool) (rs : List (W64 × W32 × Bool × Bool)) (es : List Entry) : List Entry × Nat :=
  let look := fun (e : Entry) => rs.find? fun r => r.1 == e.id
  let out := es.map fun (e : Entry) => match look e with
    | some (_, k, refd, nan) => if nan then (none, 1) else if refd then (some { e with key := k, stage := if sum then 3 else 1 }, 0) else (some e, 0)
    | none => (some e, 0)
  (rankSort (out.filterMap (·.1)), lsum (out.map (·.2)))

/-- A REFINE device's answer for one candidate (R470). -/
def Device.refineAnswer (d : Device) (c : Cmd) (forms : List VForm) (p : W64 × W32) : List Byte :=
  let base := fun (k : W32) (w : Nat) => leBytes 8 p.1.toNat ++ leBytes 4 k.toNat ++ leBytes 4 w
  match d.index? c.indexNo, d.refineStore c.indexNo p.1 with
  | some x, some (r, n, attrs) =>
    let ss := forms.map fun q => transformScore (c.transform x) attrs (x.formRefined q r n)
    let e : Entry := { id := p.1, key := p.2, source := 0, loc := (0, 0) }
    match c.refined e (some ss) with
    | (some e, _) => base e.key 1
    | (none, _) => base 0 2
  | _, _ => base p.2 0
/-- A REFINE_REPLY (R468, R470). -/
def Device.refineReply (d : Device) (c : Cmd) (r : RemoteOrigin) : Device :=
  d.send r.device 0x06 r.tag c.burgee false (r.cands.flatMap (d.refineAnswer c r.forms))

end Sys2Proof.Machine
end

