-- ==== Sys2Proof/Machine/Streams.lean ====
section
/-! DEFINITION. Stream descriptors and address programs (R241 to R262): starting a stream, one instruction at a time, transfers
and their completion, and the tag-limited mode. -/

namespace Sys2Proof.Machine

/-! ### Address programs (R247, R248) -/

/-- Fields of an address-program instruction (R247). -/
def apOp (w : W64) : Nat := bits 63 58 w.toNat
/-- DA. -/
def apDa (w : W64) : Nat := bits 57 55 w.toNat
/-- SA. -/
def apSa (w : W64) : Nat := bits 54 52 w.toNat
/-- SB. -/
def apSb (w : W64) : Nat := bits 51 49 w.toNat
/-- LV. -/
def apLv (w : W64) : Nat := bits 48 46 w.toNat
/-- IMM, unsigned. -/
def apImm (w : W64) : Nat := bits 31 0 w.toNat
/-- IMM sign-extended to a register. -/
def apImmS (w : W64) : W64 := (w.truncate 32 : BitVec 32).signExtend 64

/-- Opcodes that R249 names. -/
def apOpcodes : List Nat := [1, 2, 3, 4, 5, 6, 7, 0x10, 0x11, 0x18, 0x19, 0x20, 0x21, 0x28, 0x29, 0x3F]

/-- The loops of a program nest as R248 requires, from a list of the open levels, innermost first. -/
def loopsOk : List W64 → List Nat → Bool
  | [], _ => true
  | w :: ws, open_ =>
    if apOp w = 0x10 then !open_.contains (apLv w) && decide (open_.length < 6) && loopsOk ws (apLv w :: open_)
    else if apOp w = 0x11 then (match open_ with
      | l :: t => l == apLv w && loopsOk ws t
      | [] => false)
    else loopsOk ws open_

/-- A program is accepted into the store (R248). -/
def apValid (ws : List W64) : Bool :=
  ws.length ≤ 64 && (ws.getLast?.elim false fun w => apOp w == 0x3F) &&
    ws.all (fun w => apOpcodes.contains (apOp w) && (decide (apLv w < 6) || !([7, 0x10, 0x11, 0x18].contains (apOp w)))) && loopsOk ws []

/-- A program is written to its slot; one that fails its check leaves the slot empty (R248). -/
def Device.loadAp (d : Device) (sc slot : Nat) (ws : List W64) : Device :=
  d.modStr sc fun s => { s with progs := if apValid ws then tset slot ws s.progs else tdel slot s.progs }

/-! ### Starting a stream (R241, R245, R246, R259) -/

/-- The stream a descriptor asks for (R245). -/
def parseStream (id ste : Nat) (bs : List Byte) : Stream :=
  let f := fieldAt bs
  { id := id, ste := ste, opcode := f 0 1, progSlot := f 1 1, own := (f 2 1).testBit 7, burgee := bits 6 3 (f 2 1),
    pennant := bits 2 0 (f 2 1), prefetch := bits 3 0 (f 3 1), sem := bits 5 0 (f 4 1),
    idxSem := if (f 5 1).testBit 6 then some (bits 5 0 (f 5 1)) else none, chain := (f 6 1).testBit 0, ringAddr := f 8 4,
    slotBytes := f 12 4, slotCount := f 16 4, unit := f 20 4, ctx := f 24 4, escBase := f 32 8, mcMask := f 40 8,
    init := (List.range 8).map fun i => BitVec.ofNat 64 (f (64 + 8 * i) 8), regs := (List.range 8).map fun i => BitVec.ofNat 64 (f (64 + 8 * i) 8) }

/-- The stream has a ring. -/
def Stream.hasRing (t : Stream) : Bool := t.opcode != 3
/-- The SCs whose rings the stream fills (R259, R260). -/
def Stream.scs (t : Stream) (sc : Nat) : List Nat :=
  if t.opcode = 4 then (List.range 64).filter fun n => t.mcMask.testBit n && !t.dropped.contains n else [sc]
/-- Slots of the stream's ring (R242). -/
def Stream.nSlots (t : Stream) : Nat := t.prefetch + 1

/-- A ring lies in its context's banks or tile buffer (R242). -/
def Device.ringFits (d : Device) (t : Stream) : Bool :=
  match d.ctx? t.ctx with
  | none => false
  | some c =>
    let n := t.nSlots * t.slotBytes
    if inTile t.ringAddr then bits 15 0 t.ringAddr + n ≤ 65536 && c.tiles.contains (bits 17 16 t.ringAddr)
    else t.ringAddr + n ≤ 0x800000 &&
      (List.range ((t.ringAddr + n - 1) / 0x40000 - t.ringAddr / 0x40000 + 1)).all fun i => c.banks.contains (t.ringAddr / 0x40000 + i)

/-- A stream with CHAIN continues the pair of the stream before it, in every SC it fills (R246). -/
def Device.chainOk (d : Device) (sc : Nat) (t : Stream) : Bool :=
  !t.chain || (t.scs sc).all fun n =>
    let p := d.sem n t.sem
    p.active && p.ringAddr == t.ringAddr && p.slotBytes == t.slotBytes && p.nSlots == t.nSlots && p.ctx == t.ctx
/-- The descriptor breaks no rule of R182, R242, R245, R246, R248 or R259. -/
def Device.streamOk (d : Device) (sc : Nat) (t : Stream) : Bool :=
  decide (t.progSlot ≤ 31) && (tfind t.progSlot (d.str sc).progs).isSome && decide (t.slotCount ≤ 16777215) &&
    (t.opcode == 4 || t.mcMask == 0) &&
    (!t.hasRing || (
      decide (1 ≤ t.prefetch) && decide (t.prefetch ≤ 8) && t.slotBytes % 64 == 0 && decide (64 ≤ t.slotBytes) &&
      decide (t.slotBytes ≤ 65536) && t.escBase != 0 && t.escBase % 512 == 0 &&
      d.mayTouchAll t.own t.burgee t.escBase (t.nSlots * t.slotBytes) && d.ringFits t &&
      (t.opcode != 4 || (List.range 64).all fun n => !t.mcMask.testBit n ||
        ((d.burgee t.burgee).scSet.getLsbD n && !(d.sc n).out)) && d.chainOk sc t))

/-- A place is free on the stream's STE (R241). -/
def Device.placeFree (d : Device) (sc ste : Nat) : Bool :=
  decide (((d.str sc).running.filter fun (r : Stream) => r.ste == ste).length < 8)
/-- The stream can begin now: a place is free on its STE, and its pair is inactive or, with CHAIN, its predecessor has reached
END (R241, R246). -/
def Device.streamFree (d : Device) (sc : Nat) (t : Stream) : Bool :=
  d.placeFree sc t.ste &&
    (!t.hasRing || (t.scs sc).all fun n => if t.chain then (d.sem n t.sem).ended else !(d.sem n t.sem).active)

/-- A semaphore pair as a stream binds it (R243, R244, R246). -/
def SemPair.bind (p : SemPair) (t : Stream) : SemPair :=
  let q := if t.chain then { p with chained := true, ended := false, first := p.done + (if p.holds then 1 else 0) + p.filling + p.full + p.escape.length -
             (if p.heldEsc then 1 else 0) }
           else { wait := p.wait, active := true, nSlots := t.nSlots, empty := t.nSlots }
  { q with ringAddr := t.ringAddr, slotBytes := t.slotBytes, ctx := t.ctx, escBase := t.escBase, pennant := t.pennant, ste := t.ste,
           isOut := t.opcode == 2 }

/-- An IN stream claims its next slot in every SC it fills, and an OUT stream takes its next slot, when it has none
(R243, R249, R259). -/
def Device.acquire (d : Device) (sc : Nat) (t : Stream) : Option (Nat × Device) :=
  if t.opcode = 2 then
    match (d.sem sc t.sem).take with
    | some (s, p) => some (s, d.modSem sc t.sem fun _ => p)
    | none => none
  else if (t.scs sc).all fun n => (d.sem n t.sem).claim.isSome then
    let s := ((t.scs sc).head?.elim 0 fun n => (d.sem n t.sem).head)
    some (s, (t.scs sc).foldl (fun d n => d.modSem n t.sem fun p => (p.claim.elim p (·.2))) d)
  else none

/-- A running stream. -/
def Device.stream? (d : Device) (sc id : Nat) : Option Stream := (d.str sc).running.find? (·.id == id)
/-- The device with a running stream changed. -/
def Device.modStream (d : Device) (sc id : Nat) (g : Stream → Stream) : Device :=
  d.modStr sc fun s => { s with running := s.running.map fun t => if t.id == id then g t else t }

/-- A stream takes the slot it fills or empties next, if there is one; a refill that still passes slots over takes none (R243, R260). -/
def Device.takeSlot (d : Device) (sc id : Nat) : Device :=
  match d.stream? sc id with
  | none => d
  | some t =>
    if !t.hasRing || t.slot.isSome || t.skip != 0 then d
    else match d.acquire sc t with
      | some (s, d1) => d1.modStream sc id fun t => { t with slot := some s, held := none, pieces := t.pieces.filter (·.1 != s) }
      | none => d
/-- A stream starts, its escape reservation taken where no other space in use meets it (R241, R246, R248, R263). -/
def Device.startStream (d : Device) (sc : Nat) (t : Stream) : Device :=
  let n := 2 * (t.nSlots * t.slotBytes)
  let d0 := if !t.hasRing || d.tiers.extF.any (fun e => decide (e.base < t.escBase + n) && decide (t.escBase < e.base + e.len)) then d
    else ({ d with tiers := { d.tiers with extF := ⟨t.escBase, n, if t.own then none else some t.burgee⟩ :: d.tiers.extF } } : Device).modCtx t.ctx
      fun k => { k with escapes := t.escBase :: k.escapes }
  let d1 := if t.hasRing then (t.scs sc).foldl (fun d n => d.modSem n t.sem (·.bind t)) d0 else d0
  let (t1, d2) := match if !t.hasRing || t.skip != 0 then none else d1.acquire sc t with
    | some (s, d2) => ({ t with slot := some s }, d2)
    | none => (t, d1)
  d2.modStr sc fun s => { s with running := s.running ++ [t1], nextId := max s.nextId (t.id + 1) }

/-- The device with one STE changed. -/
def Device.modSte (d : Device) (sc ste : Nat) (g : Ste → Ste) : Device := d.modStr sc fun s => { s with stes := lmod ste g s.stes }
/-- A stall cycle of an STE counted under a cause (R267). -/
def Device.stall (d : Device) (sc ste : Nat) (c : Stall) : Device :=
  d.modSte sc ste fun e => { e with stalls := lmod c.number (· + 1) e.stalls }

/-- The refill of a ring whose SC a multicast stream dropped: an IN stream that runs the same program from the first slot not released
(R260); its program takes a slot of the store that holds it, or is free. -/
def Device.startRefill (d : Device) (sc ctx : Nat) (t : Stream) (prog : List W64) (from_ : Nat) : Device :=
  let progs := (d.str sc).progs
  let free := fun n => (tfind n progs).elim true (· == prog)
  let slot := if free t.progSlot then t.progSlot else ((List.range 32).find? free).getD t.progSlot
  let ste := ((List.range 4).find? fun e => d.placeFree sc ((t.ste + e) % 4)).elim t.ste fun e => (t.ste + e) % 4
  let u : Stream :=
    { id := (d.str sc).nextId, ste := ste, opcode := 1, progSlot := slot, own := t.own, burgee := t.burgee, pennant := t.pennant,
      prefetch := t.prefetch, sem := t.sem, idxSem := t.idxSem, chain := false, ringAddr := t.ringAddr, slotBytes := t.slotBytes,
      slotCount := t.slotCount, unit := t.unit, ctx := ctx, escBase := t.escBase, mcMask := 0, init := t.init, regs := t.init,
      skip := from_, before := from_, moved := t.moved }
  (d.modStr sc fun s => { s with progs := tset slot prog s.progs }).startStream sc u
/-- Descriptors and refills waiting on an SC start as their place and pair come free, the oldest of each STE first; a CHAIN stream whose pair
has become inactive is a descriptor fault (R182, R241, R246, R260). Those that waited for a place a command's end gave up start with the SC's next
event that starts waiting streams, its dip point at the latest (DESIGN CHOICE, log entry 59). -/
def Device.startWaiting (d : Device) (sc : Nat) : Device :=
  let d1 := (List.range 4).foldl (fun d e =>
    match ((d.str sc).stes[e]?).bind (·.waiting.head?) with
    | none => d
    | some bs =>
      let t := parseStream (d.str sc).nextId e bs
      let next := fun (d : Device) => d.modSte sc e fun x => { x with waiting := x.waiting.drop 1 }
      if t.hasRing && !d.chainOk sc t then (next d).descFault sc t.ctx
      else if d.streamFree sc t then (next d).startStream sc t else d) d
  match (d1.str sc).refills.find? fun r => (d1.ctx? r.1).any (fun k => k.spilled.isEmpty) && !(d1.sem sc r.2.1.sem).active &&
      (List.range 4).any (d1.placeFree sc) with
  | some r => (d1.modStr sc fun s => { s with refills := s.refills.filter (· != r) }).startRefill sc r.1 r.2.1 r.2.2.1 r.2.2.2
  | none => d1

/-- A context is torn down on every SC, and descriptors that waited for the places of its streams start (R208, R241, R262, R265). -/
def Device.tornDown (d : Device) (ctx status : Nat) : Device :=
  let e := d.tearDown ctx status
  (e.streams.map (·.1)).foldl Device.startWaiting e

/-! ### Engines as the consumers and producers of rings (R217, R242, R243) -/

/-- A ring address with its unused bits clear (R245). -/
def ringBase (r : Nat) : Nat := if inTile r then 0x80000000 + r % 0x40000 else r
/-- The ring address of a byte of a tile buffer. -/
def tileAddr (buf off : Nat) : Nat := 0x80000000 + 0x10000 * buf + off
/-- The active pair of a context in whose ring an address lies, with the place of the slot there. -/
def Device.ringOver (d : Device) (sc ctx a : Nat) : Option (Nat × SemPair × Nat) :=
  ((d.str sc).sems.find? fun p => p.2.active && p.2.ctx == ctx && decide (ringBase p.2.ringAddr ≤ a) &&
    decide (a < ringBase p.2.ringAddr + p.2.nSlots * p.2.slotBytes)).map fun p => (p.1, p.2, (a - ringBase p.2.ringAddr) / p.2.slotBytes)
/-- The input rings of a context in which addresses lie. -/
def Device.ringsOver (d : Device) (sc ctx : Nat) (as_ : List Nat) : List Nat :=
  (as_.filterMap fun a => (d.ringOver sc ctx a).bind fun r => if r.2.1.isOut then none else some r.1).eraseDups

/-- An engine's work on rings: the device, the pairs it has taken or claimed slots of, and bytes to put back where escaped slots stand in their
places, as ring address, offset and bytes. -/
structure RingWork where
  dev  : Device
  took : List Nat := []
  put  : List (Nat × Nat × List Byte) := []
  deriving DecidableEq, Repr

/-- The engine's work reaches an address. In an input ring the slot there is taken if it is next, after the one taken before it is released; in an
output ring it is claimed if it is at HEAD, after the one claimed before it is filled; a slot that is not yet there is waited for, and the pair is
answered. A place that is neither is used as it lies (R243, R263; DESIGN CHOICE, log entry 37). -/
def RingWork.touch (w : RingWork) (sc ctx a : Nat) : Except Nat RingWork :=
  match w.dev.ringOver sc ctx a with
  | none => .ok w
  | some (k, p, s) =>
    let mine := w.took.contains k
    if p.isOut then
      if p.unfilled == some s || p.head != s then .ok w
      else match (if mine then p.fillOut else p).claim with
        | none => .error k
        | some (_, q) => .ok { w with dev := w.dev.modSem sc k fun _ => { q with engineWaits := false }, took := k :: w.took }
    else if p.holdsPlace s then .ok w
    else
      let q := if mine then p.release else p
      if q.holds || q.nextPlace != s then .ok w
      else match q.take with
        | none => .error k
        | some (t, q1) =>
          let d1 := w.dev.modSem sc k fun _ => q1
          if t < 16 then .ok { w with dev := d1, took := k :: w.took }
          else .ok { dev := d1.placeWrite sc p.ringAddr (s * p.slotBytes) (w.dev.slotRead sc q t), took := k :: w.took,
                     put := (p.ringAddr, s * p.slotBytes, w.dev.placeRead sc p.ringAddr (s * p.slotBytes) p.slotBytes) :: w.put }
/-- The addresses of an engine's work reached in turn. -/
def RingWork.touchAll (sc ctx : Nat) : RingWork → List Nat → Except Nat RingWork
  | w, [] => .ok w
  | w, a :: as_ => match w.touch sc ctx a with
    | .ok w1 => w1.touchAll sc ctx as_
    | .error k => .error k
/-- The device after the work, what it moved put back. -/
def RingWork.restored (w : RingWork) (sc : Nat) : Device := w.put.foldl (fun d p => d.placeWrite sc p.1 p.2.1 p.2.2) w.dev
/-- The work is delivered: slots taken are released, slots claimed are filled (R243). -/
def RingWork.delivered (w : RingWork) (sc ctx : Nat) : Device :=
  if w.took.isEmpty then w.restored sc
  else (w.took.eraseDups.foldl (fun d k => d.modPair sc k ctx fun p =>
    if p.isOut then p.fillOut else if p.holds then p.release.settle else p) (w.restored sc)).startWaiting sc
/-- An engine waits for a slot of a ring; a wait for FULL counts as CONSUMER_WAIT (R243, R267). -/
def Device.engineWait (d : Device) (sc k : Nat) : Device :=
  d.modSem sc k fun p => { p with engineWaits := true, wait := if p.isOut then p.wait else p.wait + 1 }
/-- Engine work that reads or writes at addresses: it waits for the slots there, or runs; answered is whether its tile or pass was delivered
(R243). -/
def Device.withRings (d : Device) (sc ctx : Nat) (as_ : List Nat) (f : Device → Device × Bool) : Device × Bool :=
  match ({ dev := d } : RingWork).touchAll sc ctx as_ with
  | .error k => (d.engineWait sc k, false)
  | .ok w =>
    let (d1, ok) := f w.dev
    (if ok then { w with dev := d1 }.delivered sc ctx else { w with dev := d1 }.restored sc, ok)
/-- Engine work that reads a slot without being its consumer: it waits while the slot is on its way (R204, R243). -/
def Device.afterRings (d : Device) (sc ctx : Nat) (as_ : List Nat) (f : Device → Device) : Device :=
  match as_.findSome? fun a => (d.ringOver sc ctx a).bind fun r => if !r.2.1.isOut && r.2.1.coming r.2.2 then some r.1 else none with
  | some k => d.engineWait sc k
  | none => f d

/-! ### Stream descriptors (R182, R241, R245, R248) -/

/-- A stream descriptor reaches an STE: its program is written where one comes with it, it is checked, and it starts or waits
(R182, R241, R245, R248). The row names the opcode; another valid opcode is not this row's. -/
def streamEff (op sc ste : Nat) (prog : List W64) (desc : List Byte) (d : Device) : Device :=
  if !d.ready || (d.sc sc).out || 64 ≤ sc || 4 ≤ ste then d
  else
    let t := parseStream (d.str sc).nextId ste desc
    if 1 ≤ t.opcode && t.opcode ≤ 4 && t.opcode != op then d
    else
      let d1 := if prog.isEmpty then d else d.loadAp sc t.progSlot prog
      if t.opcode != op || !d1.streamOk sc t then d1.descFault sc t.ctx
      else if d1.streamFree sc t then d1.startStream sc t
      else
        let d2 := d1.modSte sc ste fun e => { e with waiting := e.waiting ++ [desc] }
        if d1.placeFree sc ste then d2 else d2.stall sc ste .streamSlot
/-- The meaning of STREAM_IN. -/
def execStreamIn (sc ste : Nat) (prog : List W64) (desc : List Byte) (s : State) : Host.Outcome State Fault Refusal :=
  onDev (streamEff 1 sc ste prog desc) s
/-- The meaning of STREAM_OUT. -/
def execStreamOut (sc ste : Nat) (prog : List W64) (desc : List Byte) (s : State) : Host.Outcome State Fault Refusal :=
  onDev (streamEff 2 sc ste prog desc) s
/-- The meaning of STREAM_COPY. -/
def execStreamCopy (sc ste : Nat) (prog : List W64) (desc : List Byte) (s : State) : Host.Outcome State Fault Refusal :=
  onDev (streamEff 3 sc ste prog desc) s
/-- The meaning of MCAST_IN. -/
def execMcastIn (sc ste : Nat) (prog : List W64) (desc : List Byte) (s : State) : Host.Outcome State Fault Refusal :=
  onDev (streamEff 4 sc ste prog desc) s

/-! ### Closing a slot and ending (R243, R249) -/

/-- Transfers of a stream still outstanding. -/
def Device.outstanding (d : Device) (sc id : Nat) : List Transfer := (d.str sc).xfers.filter (·.stream == id)

/-- Transfers of a stream outstanding for a slot of an SC's ring. -/
def Device.slotOut (d : Device) (sc id n slot : Nat) : Bool := (d.outstanding sc id).any fun x => x.slot == slot && x.dst == n && x.ldm.isNone
/-- A slot of one SC's ring that its stream has closed and whose transfers are done: filled, or released (R243, R259). -/
def Device.slotDone (d : Device) (sc : Nat) (t : Stream) (n slot : Nat) : Device :=
  if t.opcode = 2 then (d.modPair sc t.sem t.ctx fun p => p.release.settle).startWaiting sc
  else d.modPair n t.sem t.ctx fun p => (p.fill slot).settle

/-- The current slot of a stream closes (R249 SLOT, END). -/
def Device.closeSlot (d : Device) (sc : Nat) (t : Stream) : Device :=
  match t.slot with
  | none => d
  | some s =>
    let d1 := d.modStream sc t.id fun t => { t with slot := none, placed := false, closed := t.closed + 1 }
    (t.scs sc).foldl (fun d n => if d.slotOut sc t.id n s then d else d.slotDone sc t n s) d1

/-- A stream that has reached END and has nothing outstanding stops; its place serves the descriptors that wait
(R241, R246, R249). -/
def Device.finishStream (d : Device) (sc id : Nat) : Device :=
  match d.stream? sc id with
  | none => d
  | some t =>
    if !t.ended || !(d.outstanding sc id).isEmpty || !t.again.isEmpty then d
    else
      let d1 := d.modStr sc fun s => { s with
        running := s.running.filter (·.id != id),
        past := (s.past.filter fun u => u.sem != t.sem && (tget {} u.sem s.sems).active) ++ if (tget {} t.sem s.sems).active then [t] else [] }
      d1.startWaiting sc

/-- A stream reaches END: its current slot closes if a transfer was placed in it, else goes back; ENDED is set, and a CHAIN stream that waited
begins to claim (R246, R249). -/
def Device.endStream (d : Device) (sc id : Nat) : Device :=
  match d.stream? sc id with
  | none => d
  | some t =>
    let d1 := if t.slot.isSome && !t.placed then
        (if t.opcode = 2 then d.modPair sc t.sem t.ctx (·.release)
         else (t.scs sc).foldl (fun d n => d.modPair n t.sem t.ctx (·.unclaim)) d).modStream sc id fun t => { t with slot := none }
      else d.closeSlot sc t
    let d2 := d1.modStream sc id fun t => { t with ended := true }
    let d3 := if t.hasRing then
        ((t.scs sc).foldl (fun d n => d.modPair n t.sem t.ctx fun p => { p with ended := true }) d2).startWaiting sc
      else d2
    let d4 := if t.hasRing then (t.scs sc).foldl (fun d n => d.modPair n t.sem t.ctx (·.settle)) d3 else d3
    d4.finishStream sc id

/-! ### Transfers (R250 to R254) -/

/-- The pieces of a transfer: split at every L-tier row and at every 2,048 B elsewhere (R250). -/
def splitPieces (a : Nat) : Nat → Nat → List (Nat × Nat)
  | 0, _ => []
  | fuel + 1, n =>
    if n = 0 then []
    else
      let room := if lBase ≤ a && a < 0x1E000000000 then 1792 - (a - lBase) % 1792 else 2048 - a % 2048
      let k := min n room
      (a, k) :: splitPieces (a + k) fuel (n - k)

/-- The pieces of a COPY: split at the boundaries of its source and of its destination (R250). -/
def splitCopy (a b n : Nat) : List (Nat × Nat) :=
  (splitPieces a 64 n).flatMap fun p => (splitPieces (b + (p.1 - a)) 64 p.2).map fun q => (p.1 + (q.1 - (b + (p.1 - a))), q.2)

/-- The resource a transfer is metered on and its charge (R251). Its own SC's scratchpad is not metered. -/
def Device.meter (d : Device) (sc a n : Nat) (write : Bool) : Option (Metered × Nat) :=
  match d.area a with
  | .scratch k => if k = sc then none else some (.spad, 64 * ((a + n - 1) / 64 - a / 64 + 1))
  | _ => d.tierCharge a n write

/-- The limit of outstanding transfers of an STE (R241, R255). -/
def Ste.limit (e : Ste) : Nat := if e.limited then 16 else 384
/-- Outstanding transfers of an STE. -/
def Device.steOut (d : Device) (sc ste : Nat) : Nat :=
  let s := d.str sc
  (s.xfers.filter fun x => x.lead && s.running.any fun t => t.id == x.stream && t.ste == ste).length

/-- The unit that holds the last byte of a read: one L-tier row or one 512 B F-tier unit (R252). -/
def Device.unitAt (d : Device) (a n : Nat) : Option (Nat × Nat) :=
  match d.area a with
  | .fTier => some ((a + n - 1) / 512 * 512, 512)
  | .lTier => some (lBase + (a - lBase) / 1792 * 1792, 1792)
  | _ => none

/-- An instruction whose stream cannot issue: the stream is held under a cause, and a stall cycle of its STE goes to the cause of the held
stream of highest pennant, whose client stalls under the regulator (R254, R267, R361). -/
def Device.hold (d : Device) (sc : Nat) (t : Stream) (c : Stall) : Device :=
  let d1 := d.modStream sc t.id fun t => { t with held := some c }
  let held := (d1.str sc).running.filter fun u => u.ste == t.ste && u.held.isSome
  let top := held.foldl (fun m u => max m u.pennant) 0
  let u := (held.find? (·.pennant == top)).getD t
  let cause := u.held.getD c
  let d2 := if cause == .regulator && !u.own then d1.account (d1.clientOf u.ctx) u.burgee fun a => { a with regStall := a.regStall + 1 } else d1
  d2.stall sc t.ste cause

/-- A read piece served from the stream's unit register (R252). -/
def Device.fromUnit (d : Device) (t : Stream) (p : Piece) : Option (List Byte) :=
  match t.unitReg with
  | some (base, count, bs) =>
    if (t.closed = count || t.closed = count + 1) && base ≤ p.addr && p.addr + p.len ≤ base + bs.length && (d.area p.addr == d.area base)
    then some ((bs.drop (p.addr - base)).take p.len) else none
  | none => none
/-- The pieces of a transfer that make a memory access or a write: a read that the unit register serves, or that lies in the unit of the read
before it, makes none (R252). -/
def Device.needing (d : Device) (t : Stream) : Option (Nat × Nat) → List Piece → List Piece
  | _, [] => []
  | last, p :: ps =>
    let u := d.unitAt p.addr p.len
    let served := !p.write && t.opcode != 3 && ((d.fromUnit t p).isSome && last.isNone || (u.isSome && u == last &&
      decide ((u.elim 0 (·.1)) ≤ p.addr)))
    if served then d.needing t last ps else p :: d.needing t (if p.write then last else u) ps

/-- The queue class of a pennant at a memory controller, and how many requests it takes (R332). -/
def queueRoom (c pennant : Nat) : Nat := if isL c then (if 6 ≤ pennant then 16 else 32) else 64
/-- Requests outstanding at the controller of a channel in the class of a pennant (R332; DESIGN CHOICE, log entry 35: a request keeps its place
in the queue until its transfer completes). -/
def Device.queued (d : Device) (c pennant : Nat) : Nat :=
  lsum (d.streams.map fun s => (s.2.xfers.filter fun x => x.lead && (d.chanOf x.addr).any (fun p => chanCtrl p.1 == chanCtrl c) &&
    (s.2.running.find? (·.id == x.stream)).any fun t => decide (6 ≤ t.pennant) == decide (6 ≤ pennant)).length)

/-- An outstanding transfer of a stream, or one for each SC that a multicast read fills (R241, R259). -/
def Device.addXfers (d : Device) (sc : Nat) (t : Stream) (x : Transfer) : Device :=
  let dsts := if t.opcode = 4 then t.scs sc else [sc]
  d.modStr sc fun s => { s with
    nextId := s.nextId + dsts.length,
    xfers := s.xfers ++ dsts.zipIdx.map fun p => { x with id := s.nextId + p.2, dst := p.1, lead := p.2 == 0 } }
/-- A charge taken for a stream and counted on it (R251). -/
def Device.chargeStream (d : Device) (sc : Nat) (t : Stream) (m : Option (Metered × Nat)) : Device :=
  match m with
  | some (r, c) => (d.charge t.own (d.clientOf t.ctx) t.burgee r t.pennant c).modStream sc t.id fun t => { t with charged := t.charged + c }
  | none => d

/-- One piece of a transfer issues for a slot: charged, its data captured, and outstanding; a read that the unit register serves lands at
once and is not charged, and the write of a COPY so served is (R250 to R253). -/
def Device.issuePiece (d : Device) (sc id slot : Nat) (p : Piece) : Device :=
  match d.stream? sc id with
  | none => d
  | some t =>
    let x : Transfer := { id := 0, stream := id, slot := slot, write := p.write, addr := p.addr, len := p.len, place := p.place, data := [], at_ := d.now }
    let d0 := if t.hasRing && t.opcode != 2 then d.modStream sc id fun t => { t with placed := true, pieces := t.pieces ++ [(slot, p)] }
              else d.modStream sc id fun t => { t with placed := true }
    match (if t.opcode = 2 then none else d.fromUnit t p) with
    | some bs =>
      if t.opcode = 3 then (d0.chargeStream sc t (d.meter sc p.place p.len true)).addXfers sc t { x with write := true, addr := p.place, data := bs }
      else (t.scs sc).foldl (fun d n => d.placeWrite n t.ringAddr (slot * t.slotBytes + p.place) bs) d0
    | none =>
      let d1 := d0.chargeStream sc t (d.meter sc p.addr p.len p.write)
      let d2 := if t.opcode = 3 then d1.chargeStream sc t (d.meter sc p.place p.len true) else d1
      if p.write then
        let data := ((d.slotRead sc (d.pairOf sc t.sem t.ctx) slot).drop p.place).take p.len
        d2.addXfers sc t { x with data := data }
      else
        let d3 := d2.memReadCount p.addr p.len t.pennant
        let d4 := match d.unitAt p.addr p.len with
          | some (b, n) => d3.modStream sc id fun t => { t with unitReg := some (b, t.closed, d.read b n) }
          | none => d3.modStream sc id fun t => { t with unitReg := none }
        d4.addXfers sc t { x with data := d.read p.addr p.len }

/-- A stream is gone with its transfers, and the descriptors that waited for its place start (R182, R241). -/
def Device.dropStream (d : Device) (sc id : Nat) : Device :=
  (d.modStr sc fun s => { s with running := s.running.filter (·.id != id), xfers := s.xfers.filter (·.stream != id) }).startWaiting sc
/-- A stream's descriptor fault while it runs: counted, and its command ends (R182). -/
def Device.streamFault (d : Device) (sc : Nat) (t : Stream) : Device := (d.descFault sc t.ctx).dropStream sc t.id

/-- The L-tier address that a stream reads for an F-tier address of a copy that has become invalid (R262). -/
def Stream.movedTo (t : Stream) (a n : Nat) : Nat :=
  match t.moved.find? fun m => decide (m.1 ≤ a) && decide (a + n ≤ m.1 + m.2.1) with
  | some m => m.2.2 + (a - m.1)
  | none => a
/-- The memory address, the length, and the slot offset or destination that an XFER names (R249). -/
def Stream.xferOf (t : Stream) (w : W64) : Nat × Nat × Nat :=
  let n := apImm w % 4096
  let ra := (t.regs.getD (apSa w) 0).toNat % 0x1000000000000
  let rb := (t.regs.getD (apSb w) 0).toNat % 0x1000000000000
  if t.opcode = 2 then (rb, n, ra) else (t.movedTo ra n, n, rb)
/-- The pieces of an XFER (R250). -/
def Stream.piecesOf (t : Stream) (w : W64) : List Piece :=
  let (mem, n, other) := t.xferOf w
  let ps := if t.opcode = 3 then splitCopy mem other n else splitPieces mem 64 n
  ps.map fun p => ⟨p.1, p.2, t.opcode == 2, other + (p.1 - mem)⟩
/-- Why pieces of a stream cannot issue now, if they cannot: a unit register's data that is on its way, the outstanding limit, a regulator
without tokens, or a memory controller's full queue (R252, R254, R255). -/
def Device.heldBy (d : Device) (sc : Nat) (t : Stream) (ps : List Piece) : Option Stall :=
  let need := d.needing t none ps
  let unitBusy := t.opcode != 2 && ps.any fun p => (d.fromUnit t p).isSome &&
    (d.outstanding sc t.id).any fun x => !x.write && d.unitAt x.addr x.len == (t.unitReg.bind fun u => d.unitAt u.1 1)
  let noTokens := fun (m : Option (Metered × Nat)) => m.any fun m => !d.tokens t.own t.burgee m.1 t.pennant
  let full := fun (a : Nat) => (d.chanOf a).any fun c => decide (queueRoom c.1 t.pennant ≤ d.queued c.1 t.pennant)
  if unitBusy then some .unitWait
  else if ((d.str sc).stes[t.ste]?.elim 0 (·.limit)) < d.steOut sc t.ste + need.length then some .tagLimit
  else if need.any fun p => noTokens (d.meter sc p.addr p.len p.write) || (t.opcode == 3 && noTokens (d.meter sc p.place p.len true)) then some .regulator
  else if need.any fun p => full p.addr || (t.opcode == 3 && full p.place) then some .ctrlQueue
  else none
/-- The pieces that an instruction of a stream would issue: of XFER, of XFERA's operation, and of LDM's read. -/
def Stream.wants (t : Stream) (w : W64) : List Piece :=
  match apOp w with
  | 0x19 => [⟨t.movedTo (((t.regs.getD (apSa w) 0) + apImmS w).toNat % 0x1000000000000) 8, 8, false, 0⟩]
  | 0x20 => t.piecesOf w
  | 0x21 => [⟨(t.regs.getD (apSb w) 0).toNat % 0x1000000000000, apImm w % 4096, true, 0⟩]
  | _ => []
/-- A running stream is ready to issue a transfer now (R254). -/
def Device.wantsIssue (d : Device) (sc : Nat) (u : Stream) : Bool :=
  match (tget [] u.progSlot (d.str sc).progs)[u.pc]? with
  | some w => !(u.wants w).isEmpty && !u.ended && !u.yielded && !u.ldmWait && u.skip == 0 && (!u.hasRing || u.slot.isSome || (d.acquire sc u).isSome) &&
      (d.heldBy sc u (u.wants w)).isNone
  | none => false
/-- It is a stream's turn to issue: no stream of its STE that is ready has a higher pennant, or the same and last issued longer ago (R254). -/
def Device.turnToIssue (d : Device) (sc : Nat) (t : Stream) : Bool :=
  (d.str sc).running.all fun u => u.id == t.id || u.ste != t.ste || decide (u.pennant < t.pennant) ||
    (u.pennant == t.pennant && decide (t.turn ≤ u.turn)) || !d.wantsIssue sc u
/-- A stream has issued in its turn (R254). -/
def Device.tookTurn (d : Device) (sc : Nat) (t : Stream) : Device :=
  let n := ((d.str sc).stes[t.ste]?.elim 0 (·.turns)) + 1
  (d.modSte sc t.ste fun e => { e with turns := n }).modStream sc t.id fun t => { t with turn := n }

/-- XFER: one transfer, in its pieces; a refill passes over the slots before its first (R249, R250, R254, R260). -/
def Device.xfer (d : Device) (sc : Nat) (t : Stream) (w : W64) : Device :=
  let (mem, n, other) := t.xferOf w
  let aligned := n % 32 == 0 && decide (32 ≤ n) && decide (n ≤ 2048) && mem % 32 == 0 && (t.opcode != 3 || other % 32 == 0)
  let inSlot := t.opcode == 3 || decide (other + n ≤ t.slotBytes)
  let touch := d.mayTouchAll t.own t.burgee mem n && (t.opcode != 3 || d.mayTouchAll t.own t.burgee other n)
  let next := fun (d : Device) => d.modStream sc t.id fun t => { t with pc := t.pc + 1, held := none }
  if t.skip != 0 then next d
  else if !aligned || !inSlot then d.streamFault sc t
  else if !touch then ((d.refusedAt t.own t.burgee mem).refusedAt t.own t.burgee (if t.opcode = 3 then other else mem)).streamFault sc t
  else match d.heldBy sc t (t.piecesOf w) with
    | some c => d.hold sc t c
    | none =>
      if !d.turnToIssue sc t then d
      else next (((t.piecesOf w).foldl (fun d p => d.issuePiece sc t.id (t.slot.getD 0) p) d).tookTurn sc t)

/-- XFERA: one NMA operation, outstanding until its controller takes it (R249, R329 to R331). -/
def Device.xfera (d : Device) (sc : Nat) (t : Stream) (w : W64) : Device :=
  let off := (t.regs.getD (apSa w) 0).toNat % 0x1000000000000
  let full := (t.regs.getD (apSb w) 0).toNat
  let a := full % 0x1000000000000
  let n := apImm w % 4096
  match nmaOfCode (bits 15 12 (apImm w)) with
  | none => d.streamFault sc t
  | some o =>
    if t.opcode != 2 || !o.lenOk n || a % n != 0 || t.slotBytes < off + n || (d.chanOf a).isNone then d.streamFault sc t
    else if !d.mayTouchAll t.own t.burgee a n then (d.refusedAt t.own t.burgee a).streamFault sc t
    else match d.heldBy sc t (t.wants w) with
      | some c => d.hold sc t c
      | none =>
        if !d.turnToIssue sc t then d
        else
          let r := if isL ((d.chanOf a).elim 0 (·.1)) then Metered.l else Metered.f
          let slot := t.slot.getD 0
          let bs := ((d.slotRead sc (d.pairOf sc t.sem t.ctx) slot).drop off).take n
          let d1 := (d.chargeStream sc t (some (r, 64))).modStream sc t.id fun t => { t with pc := t.pc + 1, held := none, placed := true }
          (d1.addXfers sc t { id := 0, stream := t.id, slot := slot, write := true, addr := a, len := n, place := off, data := bs, at_ := d.now,
                              nma := some (bits 15 12 (apImm w), full / 0x1000000000000, (apImm w).testBit 16) }).tookTurn sc t

/-! ### Instructions (R249) -/

/-- The instruction after the ENDL of a level, from a position on. -/
def afterEndl (ws : List W64) (lv : Nat) : Nat → Nat → Option Nat
  | 0, _ => none
  | fuel + 1, pc => match ws[pc]? with
    | none => none
    | some w => if apOp w = 0x11 && apLv w = lv then some (pc + 1) else afterEndl ws lv fuel (pc + 1)

/-- The stream's register DA gets a value and the program goes on. -/
def Device.setReg (d : Device) (sc : Nat) (t : Stream) (w v : W64) : Device :=
  d.modStream sc t.id fun t => { t with regs := t.regs.set (apDa w) v, pc := t.pc + 1, held := none }

/-- LOOP opens a level, or skips past its ENDL on a count of 0 (R249). -/
def Device.apLoop (d : Device) (sc : Nat) (t : Stream) (ws : List W64) (w : W64) : Device :=
  let n := if apImm w = 0 then (t.regs.getD (apSa w) 0).toNat else apImm w
  if 0x1000000 ≤ n then d.streamFault sc t
  else
    let d1 := d.modStream sc t.id fun t => { t with counters := t.counters.set (apLv w) 0 }
    if n = 0 then match afterEndl ws (apLv w) 64 (t.pc + 1) with
      | some p => d1.modStream sc t.id fun t => { t with pc := p }
      | none => d.streamFault sc t
    else d1.modStream sc t.id fun t => { t with loops := ⟨apLv w, n, t.pc + 1⟩ :: t.loops, pc := t.pc + 1 }

/-- ENDL repeats its level or closes it (R249). -/
def Device.apEndl (d : Device) (sc : Nat) (t : Stream) (w : W64) : Device :=
  let c := t.counters.getD (apLv w) 0 + 1
  match t.loops with
  | [] => d.streamFault sc t
  | l :: ls => d.modStream sc t.id fun t =>
    if c < l.count then { t with counters := t.counters.set (apLv w) c, pc := l.body }
    else { t with counters := t.counters.set (apLv w) c, pc := t.pc + 1, loops := ls }

/-- Open levels once a level and those inside it are closed. -/
def closeLevel (lv : Nat) : List LoopLevel → List LoopLevel
  | [] => []
  | l :: ls => if l.level = lv then ls else closeLevel lv ls

/-- IDX takes the next entry of the index ring, waits, or leaves its level (R249). -/
def Device.apIdx (d : Device) (sc : Nat) (t : Stream) (ws : List W64) (w : W64) : Device :=
  match t.idxSem with
  | none => d.streamFault sc t
  | some k =>
    let p := d.sem sc k
    let entries := p.slotBytes / 4
    let entry := fun (d : Device) (bs : List Byte) (i : Nat) (drop : Device → Device) =>
      let d1 := d.setReg sc t w (BitVec.ofNat 64 (fieldAt bs (4 * i) 4))
      if i + 1 < entries then d1.modStream sc t.id fun t => { t with idxTaken := i + 1 }
      else drop (d1.modStream sc t.id fun t => { t with idxTaken := 0 })
    let mine := if p.held then some (p.heldAt, p) else if p.heldEsc then (p.escape.find? (·.number == p.done)).map fun h => (16 + h.slot, p) else p.take
    match mine with
    | some (s, q) =>
      let d1 := if p.holds then d else d.modSem sc k fun _ => q
      entry d1 (d.slotRead sc p s) t.idxTaken fun d => (d.modSem sc k fun p => p.release.settle).startWaiting sc
    | none =>
      if !p.lastHeld then d.hold sc t .idxWait
      else match afterEndl ws (apLv w) 64 (t.pc + 1) with
        | some pc => d.modStream sc t.id fun t => { t with pc := pc, loops := closeLevel (apLv w) t.loops, held := none }
        | none => d.streamFault sc t

/-- LDM issues its dependent read, charged as a read of its tier, and its program waits; a read that the unit register serves returns at once,
and any other loads the register (R249, R251, R252). -/
def Device.apLdm (d : Device) (sc : Nat) (t : Stream) (w : W64) : Device :=
  let a := t.movedTo (((t.regs.getD (apSa w) 0) + apImmS w).toNat % 0x1000000000000) 8
  let p : Piece := ⟨a, 8, false, 0⟩
  if !d.mayTouchAll t.own t.burgee a 8 then (d.refusedAt t.own t.burgee a).streamFault sc t
  else match d.heldBy sc t [p] with
    | some c => d.hold sc t c
    | none =>
      if !d.turnToIssue sc t then d
      else match d.fromUnit t p with
        | some bs => (d.setReg sc t w (BitVec.ofNat 64 (leNat bs))).tookTurn sc t
        | none =>
          let d1 := ((d.chargeStream sc t (d.meter sc a 8 false)).memReadCount a 8 t.pennant).modStream sc t.id fun t =>
            { t with ldmWait := true, held := none, unitReg := (d.unitAt a 8).map fun u => (u.1, t.closed, d.read u.1 u.2) }
          (d1.modStr sc fun s => { s with
            nextId := s.nextId + 1
            xfers := s.xfers ++ [{ id := s.nextId, stream := t.id, slot := 0, dst := sc, write := false, ldm := some (apDa w), addr := a, len := 8, place := 0,
                                   data := d.read a 8, at_ := d.now }] }).tookTurn sc t

/-- What an instruction does (R249). -/
def Device.apStep (d : Device) (sc : Nat) (t : Stream) (ws : List W64) (w : W64) : Device :=
  let a := t.regs.getD (apSa w) 0
  match apOp w with
  | 0x01 => d.setReg sc t w (apImmS w)
  | 0x02 => d.setReg sc t w (a + apImmS w)
  | 0x03 => d.setReg sc t w (a + t.regs.getD (apSb w) 0)
  | 0x04 => d.setReg sc t w (a * BitVec.ofNat 64 (apImm w))
  | 0x05 => d.setReg sc t w (a >>> (apImm w % 64))
  | 0x06 => d.setReg sc t w (a &&& BitVec.ofNat 64 (apImm w))
  | 0x07 => d.setReg sc t w (BitVec.ofNat 64 (t.counters.getD (apLv w) 0))
  | 0x10 => d.apLoop sc t ws w
  | 0x11 => d.apEndl sc t w
  | 0x18 => d.apIdx sc t ws w
  | 0x19 => d.apLdm sc t w
  | 0x20 => d.xfer sc t w
  | 0x21 => d.xfera sc t w
  | 0x28 =>
    let d1 := (d.closeSlot sc t).modStream sc t.id fun t => { t with pc := t.pc + 1 }
    if !t.hasRing then d1
    else
      let d2 := if t.skip = 0 then d1 else d1.modStream sc t.id fun t => { t with skip := t.skip - 1, closed := t.closed + 1 }
      if t.slotCount != 0 && t.slotCount ≤ t.closed + 1 then d2.endStream sc t.id else d2.takeSlot sc t.id
  | 0x29 => if (d.outstanding sc t.id).isEmpty then d.modStream sc t.id fun t => { t with pc := t.pc + 1, held := none } else d
  | _ => d.endStream sc t.id

/-- A running stream executes its next instruction, if that is the row's: a yielded stream, one that waits for its word and one
that has ended execute none, and a stream without its slot claims or waits for one first (R243, R249, R254, R261). -/
def apEff (op sc id : Nat) (d : Device) : Device :=
  match d.stream? sc id with
  | none => d
  | some t =>
    let ws := tget [] t.progSlot (d.str sc).progs
    match ws[t.pc]? with
    | none => d
    | some w =>
      if !d.ready || t.yielded || t.ended || apOp w != op then d
      else if t.ldmWait then d.hold sc t .ldmWait
      else if t.hasRing && t.slot.isNone && t.skip = 0 then
        let d1 := d.takeSlot sc id
        match d1.stream? sc id with
        | some t => if t.slot.isSome then d1.apStep sc t ws w else d.hold sc t (if t.opcode = 2 then .semFull else .semEmpty)
        | none => d
      else d.apStep sc t ws w
/-- The meaning of AP_SETI. -/
def execApSeti (sc id : Nat) (s : State) : Host.Outcome State Fault Refusal := onDev (apEff 0x01 sc id) s
/-- The meaning of AP_ADDI. -/
def execApAddi (sc id : Nat) (s : State) : Host.Outcome State Fault Refusal := onDev (apEff 0x02 sc id) s
/-- The meaning of AP_ADD. -/
def execApAdd (sc id : Nat) (s : State) : Host.Outcome State Fault Refusal := onDev (apEff 0x03 sc id) s
/-- The meaning of AP_MULI. -/
def execApMuli (sc id : Nat) (s : State) : Host.Outcome State Fault Refusal := onDev (apEff 0x04 sc id) s
/-- The meaning of AP_SHRI. -/
def execApShri (sc id : Nat) (s : State) : Host.Outcome State Fault Refusal := onDev (apEff 0x05 sc id) s
/-- The meaning of AP_ANDI. -/
def execApAndi (sc id : Nat) (s : State) : Host.Outcome State Fault Refusal := onDev (apEff 0x06 sc id) s
/-- The meaning of AP_CTR. -/
def execApCtr (sc id : Nat) (s : State) : Host.Outcome State Fault Refusal := onDev (apEff 0x07 sc id) s
/-- The meaning of AP_LOOP. -/
def execApLoop (sc id : Nat) (s : State) : Host.Outcome State Fault Refusal := onDev (apEff 0x10 sc id) s
/-- The meaning of AP_ENDL. -/
def execApEndl (sc id : Nat) (s : State) : Host.Outcome State Fault Refusal := onDev (apEff 0x11 sc id) s
/-- The meaning of AP_IDX. -/
def execApIdx (sc id : Nat) (s : State) : Host.Outcome State Fault Refusal := onDev (apEff 0x18 sc id) s
/-- The meaning of AP_LDM. -/
def execApLdm (sc id : Nat) (s : State) : Host.Outcome State Fault Refusal := onDev (apEff 0x19 sc id) s
/-- The meaning of AP_XFER. -/
def execApXfer (sc id : Nat) (s : State) : Host.Outcome State Fault Refusal := onDev (apEff 0x20 sc id) s
/-- The meaning of AP_XFERA. -/
def execApXfera (sc id : Nat) (s : State) : Host.Outcome State Fault Refusal := onDev (apEff 0x21 sc id) s
/-- The meaning of AP_SLOT. -/
def execApSlot (sc id : Nat) (s : State) : Host.Outcome State Fault Refusal := onDev (apEff 0x28 sc id) s
/-- The meaning of AP_FENCE. -/
def execApFence (sc id : Nat) (s : State) : Host.Outcome State Fault Refusal := onDev (apEff 0x29 sc id) s
/-- The meaning of AP_END. -/
def execApEnd (sc id : Nat) (s : State) : Host.Outcome State Fault Refusal := onDev (apEff 0x3F sc id) s

/-! ### Completion (R243, R249, R253) -/

/-- LDM_RETURN: the word of a stream's LDM arrives and its program continues (R249). -/
def ldmReturnEff (sc id : Nat) (d : Device) : Device :=
  match d.stream? sc id, (d.outstanding sc id).find? (·.ldm.isSome) with
  | some _, some x =>
    let d1 := d.modStr sc fun s => { s with xfers := s.xfers.filter (·.id != x.id) }
    d1.modStream sc id fun t =>
      { t with regs := t.regs.set (x.ldm.getD 0) (BitVec.ofNat 64 (leNat x.data)), pc := t.pc + 1, ldmWait := false, held := none }
  | _, _ => d
/-- The meaning of LDM_RETURN. -/
def execLdmReturn (sc id : Nat) (s : State) : Host.Outcome State Fault Refusal := onDev (ldmReturnEff sc id) s

/-- A transfer that is done leaves, and its slot is filled or released if its stream has closed it (R243, R259). -/
def Device.retire (d : Device) (sc : Nat) (t : Stream) (x : Transfer) : Device :=
  let d1 := d.modStr sc fun s => { s with xfers := s.xfers.filter (·.id != x.id) }
  let d2 := if t.hasRing && t.slot != some x.slot && !d1.slotOut sc t.id x.dst x.slot then d1.slotDone sc t x.dst x.slot else d1
  d2.finishStream sc t.id

/-- TRANSFER_COMPLETE: the bytes of a read land in their slots, a write is accepted by its controller, or an NMA operation is
taken (R243, R253, R259, R330). -/
def transferCompleteEff (sc x : Nat) (d : Device) : Device :=
  match (d.str sc).xfers.find? (·.id == x) with
  | none => d
  | some f => match d.stream? sc f.stream with
    | none => d
    | some t =>
      if !d.ready || f.ldm.isSome then d
      else match f.nma with
        | some (code, contributor, back) =>
          match nmaOfCode code with
          | none => d
          | some o =>
            let old := d.read f.addr f.len
            match d.nma o f.addr contributor f.data with
            | .waits => d.stall sc t.ste .ctrlQueue
            | .taken d1 =>
              (if back then d1.placeWrite sc t.ringAddr (f.slot % 16 * t.slotBytes + f.place) old else d1).retire sc t f
        | none =>
          let d1 := if f.write then d.memWriteAll f.addr f.data
            else if t.opcode = 3 then d.memWriteAll f.place f.data
            else d.placeWrite f.dst t.ringAddr (f.slot * t.slotBytes + f.place) f.data
          d1.retire sc t f


/-! ### Uncorrectable reads, timeouts and tags (R208, R255, R262) -/

/-- An STE enters recovery on a transfer: tag-limited, until what else is outstanding now is done and 1 ms has passed (R255). -/
def Device.recover (d : Device) (sc ste x : Nat) : Device :=
  let s := d.str sc
  let out := (s.xfers.filter fun y => y.id != x && s.running.any fun t => t.id == y.stream && t.ste == ste).map (·.id)
  d.modSte sc ste fun e => { e with limited := true, recovery := some d.now, watch := out }

/-- The placement entry of the copy at an address becomes invalid; the parts of the copy, as F-tier address, length and L-tier address
(R114, R208, R262). -/
def Device.backToL (d : Device) (a : Nat) : List (Nat × Nat × Nat) × Device :=
  match d.copyAt a with
  | some (x, p, _) => ((x.copyParts p).map fun s => (s.2.2, s.2.1, s.1), d.unplace x p.unit 3)
  | none => ([], d)
/-- A slot of a stream is read again whole: its outstanding transfers are dropped, and the pieces issued for it issue again, from the L-tier
where the stream's copy has become invalid (R261, R262; DEDUCED, log entry 36: slots after it that are whole are kept). -/
def Device.readAgain (d : Device) (sc id slot : Nat) : Device :=
  match d.stream? sc id with
  | none => d
  | some t =>
    let ps := (t.pieces.filter (·.1 == slot)).map (·.2)
    let d1 := (d.modStr sc fun s => { s with xfers := s.xfers.filter fun x => !(x.stream == id && x.slot == slot && x.ldm.isNone) }).modStream sc id
      fun t => { t with pieces := t.pieces.filter (·.1 != slot), unitReg := none, again := t.again.filter (· != slot) }
    ps.foldl (fun d p => d.issuePiece sc id slot { p with addr := t.movedTo p.addr p.len }) d1

/-- An uncorrectable read: the copy it came from becomes invalid, its slot is discarded and read again from the L-tier, and so are the word of
an LDM and a COPY's piece; or its context is torn down on the second event (R262). -/
def Device.badRead (d : Device) (sc : Nat) (t : Stream) (x : Transfer) : Device :=
  let d0 := (d.modCnt sc fun c => { c with poisoned := c.poisoned + 1 }).recover sc t.ste x.id
  if 1 ≤ d.restartsOf t.ctx then (d0.countRestart t.ctx).tornDown t.ctx stUncorrectable
  else
    let (moved, d1) := (d0.countRestart t.ctx).backToL x.addr
    let d2 := d1.modStream sc t.id fun t => { t with moved := moved ++ t.moved }
    if t.opcode = 3 || x.ldm.isSome then
      let a := ({ t with moved := moved ++ t.moved } : Stream).movedTo x.addr x.len
      (d2.chargeStream sc t (d2.meter sc a x.len false)).modStr sc fun s => { s with
        nextId := s.nextId + 1, xfers := s.xfers.map fun y => if y.id == x.id then
          { y with id := s.nextId, addr := a, data := d2.read a y.len, at_ := d.now } else y }
    else d2.readAgain sc t.id x.slot

/-- UNCORRECTABLE_READ: an outstanding read returns poisoned data (R262). -/
def uncorrectableReadEff (sc x : Nat) (d : Device) : Device :=
  match (d.str sc).xfers.find? (·.id == x) with
  | none => d
  | some f => match d.stream? sc f.stream with
    | none => d
    | some t => if f.write then d else d.badRead sc t f

/-- TRANSFER_TIMEOUT: a transfer has been outstanding for 400 us: an uncorrectable read, or a failed write, which makes the copy it was for
invalid (R114, R262). -/
def transferTimeoutEff (sc x : Nat) (d : Device) : Device :=
  match (d.str sc).xfers.find? (·.id == x) with
  | none => d
  | some f => match d.stream? sc f.stream with
    | none => d
    | some t =>
      let d1 := (d.by (f.at_ + 400000)).modCnt sc fun c => { c with timeouts := c.timeouts + 1 }
      if f.write then (((d1.recover sc t.ste f.id).backToL f.addr).2.countRestart t.ctx).tornDown t.ctx stUncorrectable else d1.badRead sc t f

/-- A stream gives up the ring of an SC: a multicast stream drops the SC from its mask, any other stops; the ring is filled again for a context
from the first slot not released (R208, R260). `on` is the SC that runs the stream. -/
def Device.giveUpRing (d : Device) (on sc k ctx : Nat) (t : Stream) (moved : List (Nat × Nat × Nat)) : Device :=
  let p := d.sem sc k
  let prog := tget [] t.progSlot (d.str on).progs
  let d1 := d.modStr sc fun s => { s with
    sems := tset k { wait := p.wait } s.sems, past := s.past.filter (·.sem != k),
    refills := s.refills ++ [(ctx, { t with moved := moved ++ t.moved }, prog, t.before + (p.done + 0x100000000 - p.first) % 0x100000000)] }
  let d1 := if inTile p.ringAddr then d1.syncTile sc (bits 17 16 p.ringAddr) else d1
  let d2 := d1.modStr on fun s => { s with xfers := s.xfers.filter fun x => !(x.stream == t.id && x.dst == sc && x.ldm.isNone) }
  if t.opcode = 4 && (t.scs on).any (· != sc) then
    d2.modStream on t.id fun t => { t with dropped := sc :: t.dropped, yielded := t.yielded && t.ctx != ctx }
  else d2.modStr on fun s => { s with running := s.running.filter (·.id != t.id), xfers := s.xfers.filter (·.stream != t.id) }
/-- The stream that fills a ring of an SC, running or finished, with the SC that runs it. -/
def Device.fillerOf (d : Device) (sc k : Nat) : Option (Nat × Stream) :=
  let p := d.sem sc k
  (d.streams.findSome? fun s => (s.2.running.find? fun t => t.hasRing && t.opcode != 2 && t.sem == k && t.ctx == p.ctx && (t.scs s.1).contains sc).map
    fun t => (s.1, t)).or (((d.str sc).past.find? fun t => t.opcode != 2 && t.sem == k && t.ctx == p.ctx).map fun t => (sc, t))
/-- The block in a ring's current slot is faulty: its F-tier copy, where it came from one, becomes invalid, and its stream restarts from that
slot, reading the L-tier (R114, R208). -/
def Device.restartRing (d : Device) (sc k : Nat) : Device :=
  match d.fillerOf sc k with
  | none => d
  | some (on, t) =>
    let p := d.sem sc k
    let (moved, d1) := ((t.pieces.filter (·.1 == (if p.held then p.heldAt else p.tail))).map (·.2.addr)).foldl
      (fun (m, d) a => let (n, d) := d.backToL a; (n ++ m, d)) (([] : List (Nat × Nat × Nat)), d)
    (d1.giveUpRing on sc k p.ctx t moved).startWaiting sc

/-- A block's tag differs: counted, the streams of the rings it came by restart from it, or the context is torn down with SCALE_SKEW on its second
event (R208). -/
def Device.tagMiss (d : Device) (sc ctx : Nat) (rings : List Nat) : Device :=
  let d0 := d.modEng sc fun e => { e with tagMiss := e.tagMiss + 1 }
  if 1 ≤ d.restartsOf ctx then (d0.countRestart ctx).tornDown ctx stScaleSkew
  else rings.foldl (fun d k => d.restartRing sc k) (d0.countRestart ctx)
/-- TAG_MISMATCH: a block's tag differs in a context's engine: the streams that fill the context's rings restart from what is not delivered, from
the L-tier, a faulty F-tier copy becoming invalid, or the context is torn down with SCALE_SKEW on the second event (R208). -/
def tagMismatchEff (sc ctx : Nat) (fAddr : Option Nat) (d : Device) : Device :=
  match d.ctx? ctx with
  | none => d
  | some _ =>
    let first := decide (d.restartsOf ctx < 1)
    let d1 := match first, fAddr with
      | true, some a => (d.backToL a).2
      | _, _ => d
    d1.tagMiss sc ctx (((d.str sc).sems.filter fun p => p.2.active && p.2.ctx == ctx && !p.2.isOut).map (·.1))
/-- The meaning of TAG_MISMATCH. -/
def execTagMismatch (sc ctx : Nat) (fAddr : Option Nat) (s : State) : Host.Outcome State Fault Refusal :=
  onDev (tagMismatchEff sc ctx fAddr) s

/-- A self-test holds the SC, or it is out of service: its STEs stay in tag-limited mode (R255). -/
def Device.scWithheld (d : Device) (sc : Nat) : Bool :=
  (d.sc sc).out || d.mgmt.test.running.any fun g => (g.test == 1 || g.test == 2) && g.res == sc
/-- TAG_LIMITED_EXIT: the recovery of an STE ends, 1 ms after the last event and once every transfer then outstanding is done; it returns to
service mode unless its SC is withheld (R255). -/
def tagLimitedExitEff (sc ste : Nat) (d : Device) : Device :=
  match ((d.str sc).stes[ste]?) with
  | none => d
  | some e =>
    if e.recovery.isNone || (d.str sc).xfers.any (fun x => e.watch.contains x.id) then d
    else (d.since e.recovery 1000000).modSte sc ste fun e => { e with limited := d.scWithheld sc, recovery := none, watch := [] }
/-- The meaning of TAG_LIMITED_EXIT. -/
def execTagLimitedExit (sc ste : Nat) (s : State) : Host.Outcome State Fault Refusal := onDev (tagLimitedExitEff sc ste) s

/-! ### The progress monitor (R264, R265) -/

/-- The counts of a node of the wait-for graph that show whether a slot on it moved (R264). -/
def Device.ringSeen (d : Device) (sc k : Nat) : List Nat :=
  let p := d.sem sc k
  if k < 64 then [p.empty, p.filling, p.full, p.done, p.escape.length]
  else if k = 68 then [(d.eng sc).ftq.length]
  else if k = 69 then [(d.eng sc).csq.length]
  else []
/-- The stream on a ring of the cycle is stalled under REGULATOR, or its context has yielded: that time does not count (R264). -/
def Device.ringExcused (d : Device) (sc k : Nat) : Bool :=
  (d.str sc).running.any fun t => t.sem == k && t.hasRing && (t.yielded || t.held == some .regulator)

/-- The rings that a context waits on: those whose slots its engines wait for, and those its streams wait on (R264). -/
def Device.ringsAwaited (d : Device) (sc ctx : Nat) : List Nat :=
  ((d.str sc).sems.filter fun p => p.2.active && p.2.ctx == ctx && p.2.engineWaits).map (·.1)
/-- The ring that a stream waits on: its own as the consumer of an output ring, or its index ring (R264). -/
def Stream.waitsOn (t : Stream) : List Nat :=
  match t.held with
  | some .semFull => [t.sem]
  | some .idxWait => t.idxSem.elim [] (fun k => [k])
  | _ => []
/-- The edges from a node of an SC's wait-for graph (R264). A ring whose producer waits for EMPTY leads to what its consumer waits on, and a ring
whose slot its consumer holds to what the consumer waits on; a ring whose producer is a stream that waits for an index ring leads to that ring;
a tile buffer, the FTQ and the CSQ lead to what the contexts that hold them wait on. -/
def Device.waitEdges (d : Device) (sc k : Nat) : List Nat :=
  let e := d.eng sc
  let ofCtxs := fun (cs : List Nat) => cs.flatMap (d.ringsAwaited sc)
  if k < 64 then
    let p := d.sem sc k
    if !p.active then []
    else
      let mine := (d.str sc).running.filter fun t => t.hasRing && t.sem == k
      let consumer := if p.isOut then mine.flatMap (·.waitsOn) else d.ringsAwaited sc p.ctx
      let blocked := if p.isOut then p.engineWaits else mine.any fun t => t.held == some .semEmpty
      ((if blocked || p.holds then consumer else []) ++ (if p.isOut then [] else mine.flatMap (·.waitsOn)) ++
        (if p.isOut && p.full == 0 then (d.ringsAwaited sc p.ctx) else [])).filter (· != k)
  else if k < 68 then (tfind (k - 64) e.tb).elim [] fun b => ofCtxs b.owner.toList
  else if k = 68 then (if e.ftqHeld.isSome then ofCtxs (e.ftq.map (·.ctx)).eraseDups else [])
  else if e.ceNext.isSome then ofCtxs (e.csq.map (·.ctx)).eraseDups else []
/-- The cycles through a node, as paths that return to it over larger nodes alone, so that each cycle is found at its lowest node. -/
def Device.cyclesFrom (d : Device) (sc k : Nat) : Nat → List Nat → Nat → List (List Nat)
  | 0, _, _ => []
  | fuel + 1, path, at_ => (d.waitEdges sc at_).eraseDups.flatMap fun n =>
      if n == k then [path] else if k < n && !path.contains n then d.cyclesFrom sc k fuel (path ++ [n]) n else []
/-- The cycles of an SC's wait-for graph, as it stands (R264). -/
def Device.waitCycles (d : Device) (sc : Nat) : List (List Nat) :=
  ((d.str sc).sems.map (·.1)).flatMap fun k => d.cyclesFrom sc k 70 [k] k

/-- The order in which the monitor chooses among rings: lowest pennant, then higher STE, then higher pair (R265). -/
def Device.ringBefore (d : Device) (sc a b : Nat) : Bool :=
  let p := d.sem sc a
  let q := d.sem sc b
  if p.pennant != q.pennant then decide (p.pennant < q.pennant)
  else if p.ste != q.ste then decide (q.ste < p.ste) else decide (b < a)
/-- Rings in ascending order of a relation, by insertion. -/
def orderRings (before : Nat → Nat → Bool) (ks : List Nat) : List Nat :=
  ks.foldr (fun k acc => acc.takeWhile (fun j => before j k) ++ k :: acc.dropWhile (fun j => before j k)) []

/-- A cycle blocked for longer than 50 us: a ring is drained, which is counted for its burgee, or the context of the lowest-pennant stream is
torn down (R265). -/
def Device.unblock (d : Device) (sc : Nat) (c : BlockedCycle) : Device :=
  let ks := orderRings (d.ringBefore sc) (c.rings.filter fun k => decide (k < 64))
  match ks.find? fun k => (d.sem sc k).escape.isEmpty with
  | some k =>
    let ctx := (d.sem sc k).ctx
    let d1 := (d.account (d.clientOf ctx) ((d.ctx? ctx).elim 0 (·.burgee)) fun a => { a with escapes := a.escapes + 1 }).drainRing sc k
    let d2 := d1.stall sc (d.sem sc k).ste .escape
    match (d.ctx? ctx).bind (·.cmd) with
    | some st => d2.voidBound st
    | none => d2
  | none => ks.head?.elim d fun low => d.tornDown (d.sem sc low).ctx stDeadlock

/-- PROGRESS_SAMPLE: the monitor's 1 us sample of an SC: the wait-for graph is rebuilt, and the blocked time of each of its cycles advanced or
cleared (R264, R265). -/
def progressSampleEff (sc : Nat) (d : Device) : Device :=
  if !d.ready then d
  else
    let d0 := d.by (d.now + 1000)
    let old := (d.str sc).blocked
    let new := (d.waitCycles sc).map fun ks =>
      let seen := ks.map (d.ringSeen sc)
      match old.find? fun c => c.rings == ks && c.seen == seen with
      | some c => { c with blocked := if ks.any (d.ringExcused sc) then c.blocked else c.blocked + (d0.now - c.at_), at_ := d0.now }
      | none => (⟨ks, seen, 0, d0.now⟩ : BlockedCycle)
    let late := new.filter fun c => decide (50000 < c.blocked)
    let d1 := d0.modStr sc fun s => { s with blocked := new.filter fun c => !late.contains c }
    late.foldl (fun d c => d.unblock sc c) d1
/-- The meaning of PROGRESS_SAMPLE. -/
def execProgressSample (sc : Nat) (s : State) : Host.Outcome State Fault Refusal := onDev (progressSampleEff sc) s

end Sys2Proof.Machine
end

