-- ==== Sys2Proof/Machine/Sched.lean ====
section
/-! DEFINITION. The events of a search in flight: stages, units, folds, final selection, deadlines, lockstep, remote replies, and the
time of an SC (R118, R148, R150 to R155, R160 to R164, R176, R341, R345, R355, R358 to R360). -/

namespace Sys2Proof.Machine

/-! ### Stages (R118) -/

/-- Stage A starts (R127 to R130, R469). -/
def Device.startA (d : Device) (c : Cmd) (x : Index) : Device :=
  let d1 := match d.shoalIndex? c.indexNo with
    | some si => d.shoalStageA si c x
    | none => d.stageA c x
  let done := (d1.cmd? c.stamp).elim false fun c => c.runs.any (·.stageA)
  let d2 := d1.groupDone c.burgee c.stamp (if done then [0, 1, 2] else [])
  d2.modCmd c.stamp fun c => { c with stage := if done then max 2 c.stage else c.stage, work := if done then piecesDone 6 0xFFFFFFFF (piecesDone 4 0xFFFFFFFF c.work) else c.work }

/-- Stage C starts on a command whose stage B is folded: its stage B list stands, and stage C runs where it is asked for (R133, R145,
R149); a task of another device answers with its lists (R163, R469 step 4). -/
def Device.startC (d : Device) (c : Cmd) : Device :=
  match c.remote with
  | some r => if r.kind = 0x05 then (d.refineReply c r).dropCmd c
              else if r.kind = 0x03 && d.folded c then (d.sendList c r false).dropCmd c else d
  | none =>
    if !d.folded c || 3 ≤ c.stage then d
    else
      let b := d.stageBList c
      let d1 := (d.groupDone c.burgee c.stamp [3]).modCmd c.stamp fun c => { c with listB := b, stage := if c.sp.stageC then 3 else if c.sp.stageD then 4 else 5 }
      if !c.sp.stageC then d1
      else match d.shoalIndex? c.indexNo with
        | some si => d1.shoalStageC si c b
        | none =>
          let (l, n) := d1.runStageC c b
          d1.modCmd c.stamp fun c => { c with listC := some l, nanExtra := c.nanExtra + n }
/-- Stage C has ended once no request of it is outstanding; what follows is stage D or the final selection (R118). -/
def Device.endC (d : Device) (stamp : Nat) : Device :=
  let open_ := d.shoal.pending.any fun o => o.stamp == stamp && o.kind == 0x05
  d.modCmd stamp fun c => if c.stage == 3 && c.listC.isSome && !open_ then
    { c with stage := if c.sp.stageD then 4 else 5, work := piecesDone 8 0xFFFFFFFF c.work } else c
/-- Stage D (R147). -/
def Device.startD (d : Device) (c : Cmd) : Device :=
  if c.stage != 4 || c.remote.isSome then d
  else
    let es := c.listC.getD c.listB
    let (k, d1) := d.draw ((c.query 0).length * es.length)
    let (l, n) := d.runStageD c k es
    d1.modCmd c.stamp fun c => { c with listD := some l, nanExtra := c.nanExtra + n, stage := 5, work := piecesDone 9 0xFFFFFFFF c.work }

/-- STAGE_START: a stage (1 A, 2 B, 3 C, 4 D) of an admitted command starts once its inputs exist (R118). -/
def stageStartEff (stamp stage : Nat) (d : Device) : Device :=
  match d.cmd? stamp with
  | none => d
  | some c =>
    if !c.runs? || d.quiesced then d
    else match d.index? c.indexNo, stage with
      | some x, 1 => if c.remote.elim false fun r => r.kind == 0x05 then d else d.startA c x
      | some x, 2 => d.stageB c x
      | some _, 3 => (d.startC c).endC stamp
      | some _, 4 => d.startD c
      | _, _ => d
/-- STAGE_START (R118). -/
def execStageStart (stamp stage : Nat) (s : State) : Host.Outcome State Fault Refusal := onDev (stageStartEff stamp stage) s

/-! ### Units and folds (R160 to R163) -/

/-- A unit may start: every unit numbered below j - 63 of its vector is folded (R162). -/
def VecRun.mayStart (r : VecRun) (j : Nat) : Bool := decide (j < r.units.length) && decide (j ≤ r.nextFold + 63) && !r.ended j

/-- A unit of a command runs: it has started, and has not sent its list. -/
def Device.unitsRun (d : Device) (stamp : Nat) : Bool := d.ctxs.any fun k => k.cmd == some stamp && k.started
/-- A task of another device that was cut sends its lists once its running units have stopped (R152, R175). -/
def Device.endTask (d : Device) (c : Cmd) : Device :=
  match c.remote with
  | some r => if r.kind != 0x03 then d.dropCmd c else if d.unitsRun c.stamp then d else (d.sendList c r true).dropCmd c
  | none => d

/-- UNIT_END: a unit that has started sends its list and record; one that a cut stopped sends what its first blocks or expansions
gave (R160, R175). -/
def unitEndEff (stamp vec unit : Nat) (blocks : Option Nat) (d : Device) : Device :=
  match d.cmd? stamp with
  | none => d
  | some c =>
    let r := c.runs.getD vec {}
    let started := d.ctxs.any fun k => k.cmd == some stamp && k.vec == vec && k.unit == unit && k.started
    if !started || !r.mayStart unit || !(c.phase == .active || c.phase == .cut) then d
    else match r.units[unit]? with
      | none => d
      | some u =>
        let d1 := d.unitArrives c vec unit (d.unitList c vec u (if c.phase == .active then none else blocks))
        match d1.cmd? stamp with
        | some c1 => if c1.phase == .cut && c1.remote.isSome then d1.endTask c1 else d1
        | none => d1
/-- UNIT_END (R160). -/
def execUnitEnd (stamp vec unit : Nat) (blocks : Option Nat) (s : State) : Host.Outcome State Fault Refusal := onDev (unitEndEff stamp vec unit blocks) s

/-- One fold step of a vector: its own next unit list, or on a shoal index the next shard list; a step that ends is no longer suspect (R161, R163,
R176). -/
def Device.foldStepOf (d : Device) (c : Cmd) (vec : Nat) : Device :=
  let r := c.runs.getD vec {}
  let step := fun (r : VecRun) =>
    if (tfind r.nextFold r.arrived).isSome then r.foldNext c.sp.cap c.sp.beta
    else r.joinNext c.sp.cap c.sp.beta c.shards (c.phase == .closed)
  if (tfind r.nextFold r.arrived).isNone && c.shards.isEmpty then d
  else ((d.modCmd c.stamp fun c => { c with runs := lmod vec step c.runs }).ownShard c).modMb c.half fun m =>
    { m with suspect := m.suspect.filter (· != c.stamp) }
/-- FOLD_STEP: the Merge Buffer folds the next list of a vector in ascending order (R161). -/
def foldStepEff (stamp vec : Nat) (d : Device) : Device :=
  match d.cmd? stamp with
  | none => d
  | some c => if !c.op.isSearch || c.phase == .waiting || (d.mb c.half).out then d else d.foldStepOf c vec
/-- FOLD_STEP (R161). -/
def execFoldStep (stamp vec : Nat) (s : State) : Host.Outcome State Fault Refusal := onDev (foldStepEff stamp vec) s

/-- FINAL_SELECTION: all scoring of a command is complete, or it was cut and its lists have closed: stage E selects, writes the result
and posts the completion (R164 to R180, R152). -/
def finalSelectionEff (stamp : Nat) (d : Device) : Device :=
  match d.cmd? stamp with
  | none => d
  | some c =>
    let whole := c.phase == .active && c.stage == 5
    let cut := c.phase == .closed || (c.phase == .cut && (d.shoalIndex? c.indexNo).isNone)
    if !c.op.isSearch || c.remote.isSome || !(whole || cut) then d else d.postResult c
/-- FINAL_SELECTION (R164). -/
def execFinalSelection (stamp : Nat) (s : State) : Host.Outcome State Fault Refusal := onDev (finalSelectionEff stamp) s

/-! ### A command as a whole (R118, R148, R150) -/

/-- Every unit of a vector ends and is folded, in order. -/
def Device.runUnits (d : Device) (stamp vec : Nat) : Device :=
  let n := (((d.cmd? stamp).elim [] (·.runs)).getD vec {}).units.length
  (List.range n).foldl (fun d u => match d.cmd? stamp with
    | none => d
    | some c =>
      let r := c.runs.getD vec {}
      let d1 := if r.ended u then d else match r.units[u]? with
        | some k => d.unitArrives c vec u (d.unitList c vec k none)
        | none => d
      match d1.cmd? stamp with
      | some c1 => d1.foldStepOf c1 vec
      | none => d1) d

/-- An admitted, uncut command runs every stage that its inputs allow, to its completion where they all do: on a shoal index, up to what
it waits for from other devices; an MSEARCH, for the chunks admitted. -/
def searchEff (op : IoOp) (stamp : Nat) (d : Device) : Device :=
  match d.cmd? stamp with
  | none => d
  | some c =>
    if c.op != op || !c.runs? || d.quiesced || (d.mb c.half).out then d
    else
      let d1 := stageStartEff stamp 2 (stageStartEff stamp 1 d)
      let d2 := (List.range c.vecs.length).foldl (fun d j => d.runUnits stamp j) d1
      let d3 := stageStartEff stamp 4 (stageStartEff stamp 3 d2)
      match d3.cmd? stamp with
      | some c3 => if c3.phase == .active && c3.stage == 5 && c3.remote.isNone then d3.postResult c3 else d3
      | none => d3
/-- SEARCH: a single-vector search through stages A to E (R118). -/
def execSearch (stamp : Nat) (s : State) : Host.Outcome State Fault Refusal := onDev (searchEff .search stamp) s
/-- MSEARCH: the vectors of its admitted chunks, combined by MAX or SUM (R148, R149). -/
def execMsearch (stamp : Nat) (s : State) : Host.Outcome State Fault Refusal := onDev (searchEff .msearch stamp) s
/-- RANGE: as a SEARCH, whose final selection drops the entries below the threshold (R150, R168). -/
def execRange (stamp : Nat) (s : State) : Host.Outcome State Fault Refusal := onDev (searchEff .range stamp) s

/-! ### Deadlines (R151 to R155, R471) -/

/-- STAGE_CUT of a command cut now (R151). -/
def Device.cutCode (d : Device) (c : Cmd) : Nat :=
  if c.phase == .waiting then 6
  else if 3 ≤ c.stage then c.stage
  else if d.folded c then (if c.sp.stageC then 3 else if c.sp.stageD then 4 else 5)
  else if c.runs.any (·.stageA) then 2 else 1

/-- A command is cut: no further task starts, its requests are cancelled, and its lists stay as they stand; a task of another device sends its lists
as they stand when its running units have stopped (R152, R175). -/
def Device.cutCmd (d : Device) (c : Cmd) : Device :=
  match c.remote with
  | some _ =>
    let d1 := d.cancelKinds c [0x01, 0x05]
    if c.phase == .waiting then d1.dropCmd c
    else
      let code := d.cutCode c
      let cut := fun (c : Cmd) => { c with phase := .cut, stageCut := code }
      (d1.modCmd c.stamp cut).endTask (cut c)
  | none =>
    if c.phase == .waiting then
      let d1 := (d.recordWait c (d.now - c.t0)).account (some c.fn) c.burgee fun a => { a with notAdm := a.notAdm + 1 }
      d1.postResult { c with stageCut := 6, chunks := 0 }
    else
      let code := d.cutCode c
      let b := if c.listB.isEmpty && 3 ≤ code then d.stageBList c else c.listB
      (d.cancelKinds c [0x01, 0x05]).modCmd c.stamp fun c => { c with phase := .cut, stageCut := code, listB := b }

/-- DEADLINE_CUT: a command whose completion has not been posted reaches its deadline instant: it is cut, or not admitted completes with
STAGE_CUT 6 (R152, R155). -/
def deadlineCutEff (stamp : Nat) (d : Device) : Device :=
  match d.cmd? stamp with
  | none => d
  | some c => match c.deadline with
    | none => d
    | some t => if !c.op.isSearch || !(c.phase == .waiting || c.phase == .active) then d else (d.by t).cutCmd c
/-- DEADLINE_CUT (R152). -/
def execDeadlineCut (stamp : Nat) (s : State) : Host.Outcome State Fault Refusal := onDev (deadlineCutEff stamp) s

/-- REMOTE_LISTS_CLOSE: 25 µs after the deadline instant, shards whose lists have not arrived are missing and are sent CANCELs; without
an ENTRY_REPLY the command counts one shard, missing (R152, R154, R469). -/
def remoteListsCloseEff (stamp : Nat) (d : Device) : Device :=
  match d.cmd? stamp with
  | none => d
  | some c =>
    if c.phase != .cut || c.remote.isSome then d
    else
      let d1 := (d.by (c.deadline.getD d.now + 25000)).cancelKinds c [0x03]
      let shoal := (d.shoalIndex? c.indexNo).isSome
      let late := (c.shards.filter fun p => p != d.shoal.device && !c.shardsIn.contains p).length
      d1.modCmd stamp fun c => { c with
        phase := .closed, missing := if !shoal then 0 else if c.shards.isEmpty then 1 else c.missing + late,
        stageCut := if shoal && c.shards.isEmpty then 1 else c.stageCut }
/-- REMOTE_LISTS_CLOSE (R152). -/
def execRemoteListsClose (stamp : Nat) (s : State) : Host.Outcome State Fault Refusal := onDev (remoteListsCloseEff stamp) s

/-! ### Lockstep (R176) -/

/-- Another SC of a burgee than one given. -/
def Device.otherSc (d : Device) (b sc : Nat) : Option Nat := (d.inService b).find? fun n => n != sc

/-- A context goes to another SC of its burgee; a started one begins its step anew there, with the lists kept at the step's start (R176, R364). -/
def Device.replaceCtx (d : Device) (k : Ctx) : Device :=
  match d.otherSc k.burgee k.sc with
  | none => d
  | some sc =>
    let lists := (d.eng k.sc).seKept.filter (·.ctx == k.id)
    let d1 := d.modSc k.sc fun s => { s with running := if s.running == some k.id then none else s.running }
    (((d1.modStr k.sc (·.release k.id)).modEng k.sc (·.release k.id)).modCtx k.id fun k => { k with sc := sc, state := .ready, banks := [], tiles := [] }).modEng
      sc fun e => { e with se := e.se ++ lists, seKept := e.seKept ++ lists }

/-- An SC that leaves service is dropped from the masks of the multicast streams of other SCs (R260). -/
def Device.dropSc (d : Device) (sc : Nat) : Device :=
  { d with streams := d.streams.map fun s => (s.1, if s.1 = sc then s.2 else { s.2 with
      running := s.2.running.map fun t => if t.opcode = 4 && t.mcMask.testBit sc then { t with dropped := sc :: t.dropped } else t,
      xfers := s.2.xfers.filter (·.dst != sc) }) }
/-- An SC leaves service: it is reported, multicast streams drop it, and its contexts go to other SCs (R176, R260, R364). -/
def Device.scOut (d : Device) (sc : Nat) : Device :=
  let d1 := ((d.modSc sc fun s => { s with out := true, suspect := none, rerun := false }).raiseDev 0x0002 sc).dropSc sc
  (d1.ctxs.filter fun k => k.sc == sc).foldl (fun d k => d.replaceCtx k) (d1.modStr sc fun s => { s with refills := [] })

/-- A mismatch in an SE: the step's output is discarded, the lists kept at its start are restored and it re-runs; the second in the same step
takes the SC out of service (R176). -/
def Device.seMismatch (d : Device) (sc ctx : Nat) : Device :=
  let again := (d.sc sc).suspect == some ctx
  let d1 := (d.modSc sc fun s => { s with mismatch := s.mismatch + 1, suspect := some ctx, rerun := false }).modCnt sc
    fun c => { c with lockstep := c.lockstep + 1 }
  let d2 := d1.modEng sc fun e => { e with se := e.se.filter (fun p => p.ctx != ctx) ++ e.seKept.filter (fun p => p.ctx == ctx) }
  let d3 := match (d2.ctx? ctx).bind (·.cmd) with
    | some st => (d2.modCmd st fun c => { c with reruns := c.reruns + 1 }).voidBound st
    | none => d2
  if again then d3.scOut sc else d3

/-- A Merge Buffer leaves service: its folds and reservations move to the other, or with both out every search command completes with
SELECT_FAULT (R176). -/
def Device.mbOut (d : Device) (h : Nat) : Device :=
  let moved := (d.mb h).used
  let d1 := (d.modMb h fun m => { m with out := true, used := 0, suspect := none }).raiseDev 0x0003 h
  let d2 := (d1.modMb (1 - h) fun m => { m with used := m.used + moved })
  let d3 := { d2 with cmds := d2.cmds.map fun c => if c.half == h && c.mbBytes != 0 then { c with half := 1 - h } else c }
  if (d.mb (1 - h)).out then
    ((d3.cmds.filter fun c => c.op.isSearch).map (·.stamp)).foldl (fun d s => d.endCmd s stSelectFault) (d3.degrade 0)
  else d3
/-- A mismatch in a merge datapath: the fold step re-runs from its kept state; the second in the same fold step takes the Merge Buffer
out of service (R176). -/
def Device.mbMismatch (d : Device) (h stamp : Nat) : Device :=
  let again := (d.mb h).suspect == some stamp
  let d1 := d.modMb h fun m => { m with mismatch := m.mismatch + 1, suspect := some stamp }
  let d2 := { d1 with devCnt := { d1.devCnt with mbReruns := d1.devCnt.mbReruns + 1 } }
  let d3 := (d2.modCmd stamp fun c => { c with reruns := c.reruns + 1 }).voidBound stamp
  if again then d3.mbOut h else d3
/-- LOCKSTEP_MISMATCH: in the SE of an SC while a context's step runs, or in the merge datapath of a half during a fold step of a
command (R176). -/
def lockstepMismatchEff (merge : Bool) (n who : Nat) (d : Device) : Device :=
  if merge then (if 2 ≤ n || (d.mb n).out then d else d.mbMismatch n who)
  else if 64 ≤ n || (d.sc n).out then d else d.seMismatch n who
/-- LOCKSTEP_MISMATCH (R176). -/
def execLockstepMismatch (merge : Bool) (n who : Nat) (s : State) : Host.Outcome State Fault Refusal := onDev (lockstepMismatchEff merge n who) s

/-! ### Replies (R358, R359) -/

/-- What a reply does when it is consumed: an ENTRY_REPLY names the shards, a SHARD_LIST joins its command, a REFINE_REPLY re-keys its
candidates (R469, R470). -/
def Device.consume (d : Device) (o : Outstanding) (bytes : List Byte) : Device :=
  let d1 := { d with shoal := { d.shoal with pending := d.shoal.pending.filter fun p => p != o } }
  match d1.cmd? o.stamp with
  | none => d1
  | some c =>
    match o.kind with
    | 0x01 =>
      let n := fieldAt bytes 0 2
      let tgts := (List.range n).map fun i => fieldAt bytes (2 + 2 * i) 2
      let self := d.shoal.device
      let known := d1.shoal.pending.filterMap fun p => if p.kind == 0x03 && p.stamp == c.stamp then some p.dst else none
      let os := (tgts.filter fun p => p != self && d.serves p && !c.shardsIn.contains p && !known.contains p).map fun p => ({ tag := o.tag, kind := 0x03, stamp := c.stamp, dst := p, at_ := d.now } : Outstanding)
      let d2 := { d1 with shoal := { d1.shoal with pending := d1.shoal.pending ++ os } }
      let d3 := (d2.modCmd c.stamp fun c => { c with shards := tgts, stage := max 2 c.stage }).missLost c.stamp
      if tgts.contains self then d3 else (d3.takeCells c.stamp []).modCmd c.stamp fun c => { c with runs := c.runs.map fun r => { r with units := [], started := [] } }
    | 0x03 =>
      let shard := (c.shards.find? fun p => posOf p == posOf o.dst).getD o.dst
      if c.shardsIn.any fun p => posOf p == posOf o.dst then d1
      else
        let (ls, cov, cut) := parseShardList (c.runs.length + 1) bytes
        d1.modCmd c.stamp fun c => { c with
          shardsIn := c.shardsIn ++ [shard], twin := c.twin || sideOf o.dst != sideOf d.shoal.device, shardCov := c.shardCov ++ [cov], shardTrunc := c.shardTrunc || cut,
          runs := (c.runs.zipIdx).map fun p => match ls[p.2]? with
            | some l => { p.1 with shards := tset shard { l with cap := c.sp.cap } p.1.shards }
            | none => p.1 }
    | 0x05 =>
      let (l, n) := applyRefine c.sp.aggSum (parseRefineReply bytes) (c.listC.getD c.listB)
      (d1.modCmd c.stamp fun c => { c with listC := some l, nanExtra := c.nanExtra + n }).endC c.stamp
    | _ => d1

/-- A reply for a tag arrives from a device: matched with its request, and consumed, parked or dropped (R358). -/
def Device.replyFrom (d : Device) (src tag : Nat) (bytes : List Byte) : Device :=
  let o := d.shoal.pending.find? fun o => o.tag == tag && o.dst == src
  let (now, d1) := d.takeReply tag bytes
  match o with
  | none => if now then d1 else if d1 == d then { d with shoal := { d.shoal with lateReplies := d.shoal.lateReplies + 1 } } else d1
  | some o => if now then d1.consume o bytes else d1
/-- REMOTE_REPLY_ARRIVAL: a reply is written to its slot and consumed, parked while its context is spilled, or dropped (R358). -/
def execRemoteReplyArrival (src tag : Nat) (bytes : List Byte) (s : State) : Host.Outcome State Fault Refusal :=
  onDev (fun d => d.replyFrom src tag bytes) s

/-- BACKGROUND_REPLY_TIMEOUT: a background request unanswered for 10 ms abandons its task: its delta entries stay live (R209, R358). -/
def backgroundReplyTimeoutEff (tag : Nat) (d : Device) : Device :=
  match d.shoal.pending.find? fun o => o.tag == tag && o.stamp == 0 with
  | none => d
  | some o =>
    let d1 := d.by (o.at_ + 10000000)
    let gone := fun (s : ShipBatch) => s.tag == tag || s.waiting.any fun p => p.1 == tag
    let told := (d1.shoal.ships.filter gone).flatMap fun s => (s.places.map (·.2.2.2)).eraseDups.map fun p => (p, s.index, s.tag)
    let d2 := { d1 with shoal := { d1.shoal with pending := d1.shoal.pending.filter (· != o), ships := d1.shoal.ships.filter fun s => !gone s,
                                                 bgTimeouts := d1.shoal.bgTimeouts + 1 } }
    (told.filter fun p => p.1 != d.shoal.device).foldl (fun d p => d.sendDir p.1 0x15 6 (leBytes 8 p.2.1 ++ leBytes 8 p.2.2)) d2
/-- BACKGROUND_REPLY_TIMEOUT (R358). -/
def execBackgroundReplyTimeout (tag : Nat) (s : State) : Host.Outcome State Fault Refusal := onDev (backgroundReplyTimeoutEff tag) s

/-- REMOTE_WAIT_ALLOWANCE_EXPIRY: a request of a command has waited RW without a reply: the command's bound is void and it goes on at
rank 3 (R359). -/
def remoteWaitAllowanceExpiryEff (tag : Nat) (d : Device) : Device :=
  match d.shoal.pending.find? fun o => o.tag == tag && o.stamp != 0 with
  | none => d
  | some o => match d.cmd? o.stamp with
    | none => d
    | some c =>
      let d1 := (d.by (o.at_ + 1000 * (d.burgee c.burgee).rw)).voidBound c.stamp
      { d1 with ctxs := d1.ctxs.map fun k => if k.cmd == some c.stamp && k.rank == 4 && c.bound then { k with rank := 3 } else k }
/-- REMOTE_WAIT_ALLOWANCE_EXPIRY (R359). -/
def execRemoteWaitAllowanceExpiry (tag : Nat) (s : State) : Host.Outcome State Fault Refusal := onDev (remoteWaitAllowanceExpiryEff tag) s

/-! ### Regulator buckets (R345, R346) -/

/-- A bucket's depth in bytes: its rate for BURST. -/
def Bucket.depth (k : Bucket) (burst : Nat) : Int := (k.rate * burst * 1000 : Nat)
/-- A microsecond's tokens for the HI and LO buckets of one resource; what HI cannot hold passes to LO (R345). -/
def refillPair (burst : Nat) (hi lo : Bucket) : List Bucket :=
  let h := hi.level + (hi.rate * 1000 : Nat)
  let isOver := max 0 (h - hi.depth burst)
  [{ hi with level := min h (hi.depth burst) }, { lo with level := min (lo.level + (lo.rate * 1000 : Nat) + isOver) (lo.depth burst) }]
/-- The buckets of a burgee after a microsecond. -/
def refillAll (burst : Nat) : List Bucket → List Bucket
  | hi :: lo :: t => refillPair burst hi lo ++ refillAll burst t
  | bs => bs
/-- TOKEN_BUCKET_REFILL: the timebase reaches its next microsecond: every bucket gains its rate up to its depth, and flits that waited for tokens leave
(R345, R346). The device regulator's burst is taken as 8 µs (log entry 18). -/
def tokenBucketRefillEff (d : Device) : Device :=
  let d1 := d.by ((d.now / 1000 + 1) * 1000)
  let l := if d.tiers.packages = 9 then 80 else 160
  let d2 := { d1 with
    burgees := d1.burgees.map fun p => (p.1, { p.2 with buckets := refillAll p.2.burst p.2.buckets }),
    devBuckets := (d1.devBuckets.zipIdx).map fun p =>
      let k := if p.2 = 1 then { p.1 with rate := l } else p.1
      { k with level := min (k.level + (k.rate * 1000 : Nat)) (k.depth 8) } }
  (List.range 32).foldl Device.pump d2
/-- TOKEN_BUCKET_REFILL (R345). -/
def execTokenBucketRefill (s : State) : Host.Outcome State Fault Refusal := onDev tokenBucketRefillEff s

end Sys2Proof.Machine
end

