-- ==== Sys2Proof/Machine/TrainMath.lean ====
section
/-! DEFINITION. The arithmetic of training (chapter 9): narrow forms with exact and predicted scaling (R273, R289), the products of
a step with the agreement watch (R283, R292), derivatives (R284), the optimiser (R286, R288), and samples (R279 to R281). -/

namespace Sys2Proof.Machine

/-! ### Narrow forms (R273, R283, R289) -/

/-- One pass of a training step: whether blocks are scaled from history, the step, WATCH_N, the forms as they stand, and whether a
guard limit was exceeded (R290), and the FP32 rows it has written to the F-tier for a second quantising pass (R273). -/
structure Pass where
  pred  : Bool
  step  : Nat
  watch : Nat
  shift : Nat
  flows : List Flow
  isOver  : Bool := false
  made  : List (List F32) := []
  deriving DecidableEq, Repr

/-- The largest amax for which R54 would choose scale h (R289). -/
def rangeOf (f : VFmt) (h : Nat) : FVal := vScale (vInt 1) ((h : Int) - 127 + mxEmax f + 1)

/-- A block quantised in a step (R289): its form, its new history byte, and whether it counts under SAT, UNDER and SOFT_SAT. -/
def quantBlock (pred : Bool) (step : Nat) (f : VFmt) (h : Nat) (xs : List F32) : MxBlock × Nat × Nat × Nat × Nat :=
  let a := amaxVal xs
  let e := mxScaleOf f xs
  let r := rangeOf f h
  let sat := pred && vLt (vScale r 2) a
  let under := pred && !vIsZero a && vLt a (vScale r (-8))
  let soft := pred && vLt r a && !sat
  let n := fun (b : Bool) => if b then 1 else 0
  (if pred then mxEncodeAt f h xs else mxEncode f xs, max e (if step % 16 = 15 then h - 1 else h), n sat, n under, n soft)

/-- A form of a tensor quantised by blocks of 32 along its rows: the exact values its elements stand for, the form with its history
and counters, and whether SAT or UNDER exceeds its limit; a widened form is taken in BF16 (R283, R289, R290, R294). -/
def Flow.quantise (w : Flow) (pred : Bool) (step shift : Nat) (f : VFmt) (rows : List (List F32)) : List (List FVal) × Flow × Bool :=
  if w.wide then (rows.map fun r => formVals (formOf .bf16 r), w, false)
  else
    let blocks := rows.map fun r => chunksOf 32 r.length r
    let flat := blocks.flatten
    let hs := w.history ++ List.replicate (flat.length - w.history.length) 0
    let qs := List.zipWith (quantBlock pred step f) hs flat
    let per := (blocks.headD []).length
    let vals := (chunksOf per rows.length (qs.map fun q => mxVals f q.1)).map (·.flatten)
    let sat := lsum (qs.map fun q => q.2.2.1)
    let under := lsum (qs.map fun q => q.2.2.2.1)
    let lim := flat.length / 2 ^ shift
    (vals, { w with history := qs.map fun q => q.2.1, sat := w.sat + sat, under := w.under + under,
                    softSat := w.softSat + lsum (qs.map fun q => q.2.2.2.2) },
      decide (lim < sat) || decide (lim < under))

/-- Form k of a pass quantised. -/
def Pass.quant (p : Pass) (k : Nat) (f : VFmt) (rows : List (List F32)) : List (List FVal) × Pass :=
  let (vs, w, o) := (p.flows.getD k {}).quantise p.pred p.step p.shift f rows
  (vs, { p with flows := lmod k (fun _ => w) p.flows, isOver := p.isOver || o, made := if p.pred then p.made else p.made ++ rows })

/-! ### Products and the agreement watch (R283, R292) -/

/-- The rows of a product of two lists of rows of exact values, each element by R58. -/
def prodRows (a b : List (List FVal)) : List (List F32) := a.map fun x => b.map (dotVals x)

/-- ERR, REF and NF_MISMATCH of the results of one checked tile, in row-major order (R292). -/
def tileSums (ps : List (F32 × F32)) : F32 × F32 × Nat :=
  let both := ps.filter fun q => f32IsFinite q.1 == f32IsFinite q.2
  (sumAsc 0 (both.map fun q => f32Of (vAbs (f32Val (f32Sub q.1 q.2)))), sumAsc 0 (both.map fun q => f32Of (vAbs (f32Val q.2))),
    ps.length - both.length)

/-- The tiles of 64 x 64 results in row-major order, each as its (narrow, wide) pairs. -/
def tilesOf (n w : List (List F32)) : List (List (F32 × F32)) :=
  let rows := List.zipWith (fun a b => List.zip a b) n w
  (chunksOf 64 rows.length rows).flatMap fun band =>
    let cols := ((band.headD []).length + 63) / 64
    (List.range cols).map fun t => band.flatMap fun r => (r.drop (64 * t)).take 64

/-- A product of a step: narrow operands, the tiles the watch checks added to the form of its A operand, which stands for the tensor of the product's
role: activations, input gradient or weight gradient (R283, R292, R415; log entry 54). -/
def Pass.prod (p : Pass) (k : Nat) (aw bw : List (List F32)) (an bn : List (List FVal)) : List (List F32) × Pass :=
  let n := prodRows an bn
  if p.watch = 0 then (n, p)
  else
    let wide := prodRows (aw.map fun r => r.map f32Val) (bw.map fun r => r.map f32Val)
    let hits := ((tilesOf n wide).zipIdx).filter fun t => (t.2 + p.step) % p.watch == 0
    (n, { p with flows := lmod k (fun w => hits.foldl (fun w t =>
      let (e, r, m) := tileSums t.1
      { w with err := f32Add w.err e, ref := f32Add w.ref r, nf := w.nf + m, nfTotal := w.nfTotal + m }) w) p.flows })

/-- Rows turned into columns. -/
def transposed (rows : List (List F32)) : List (List F32) :=
  (List.range (rows.headD []).length).map fun j => rows.map fun r => r.getD j 0
/-- Rows padded with zeros to a multiple of 32 (R211). -/
def padRows (rows : List (List F32)) : List (List F32) := rows.map fun r => r ++ List.replicate (paddedIn r.length - r.length) 0

/-- The masters of a tensor as rows. -/
def Tensor.mat (t : Tensor) : List (List F32) := chunksOf t.cols t.rows t.master

/-- Forward Y = X Wᵀ of weight tensor k: X in MXFP8_E4M3, W in its forward format (R283). -/
def Pass.forward (p : Pass) (k : Nat) (wf : VFmt) (x w : List (List F32)) : List (List F32) × Pass :=
  let x' := padRows x
  let w' := padRows w
  let (xn, p1) := p.quant (4 * k) .mxfp8e4m3 x'
  p1.prod (4 * k) x' w' xn (w'.map fun r => formVals (formOf wf r))
/-- Input gradient dX = dY W: dY in MXFP8_E5M2, Wᵀ in MXFP8_E4M3 (R283). -/
def Pass.inputGrad (p : Pass) (k : Nat) (dy w : List (List F32)) : List (List F32) × Pass :=
  let a := padRows dy
  let b := padRows (transposed w)
  let (an, p1) := p.quant (4 * k + 2) .mxfp8e5m2 a
  p1.prod (4 * k + 2) a b an (b.map fun r => formVals (formOf .mxfp8e4m3 r))
/-- Weight gradient dW = dYᵀ X, blocked along the batch: dYᵀ in MXFP8_E5M2, Xᵀ in MXFP8_E4M3. Chunks of 64 rows are the
contributors whose partials R271 folds in ascending order (R271, R283). -/
def Pass.weightGrad (p : Pass) (k : Nat) (dy x : List (List F32)) : List (List F32) × Pass :=
  let a := padRows (transposed dy)
  let b := padRows (transposed x)
  let (an, p1) := p.quant (4 * k + 3) .mxfp8e5m2 a
  let (bn, p2) := p1.quant (4 * k + 1) .mxfp8e4m3 b
  p2.prod (4 * k + 3) a b an bn

/-- The product of a codebook fit: the residual slices of each subspace against its entries (R283, R292; log entry 56). The codes are those of R61. -/
def Pass.codebook (p : Pass) (w : Nat) (book : List (List (List F32))) (rs : List (List F32)) : Pass :=
  let xs := (List.range book.length).map fun m => padRows (rs.map fun r => (r.drop (w * m)).take w)
  let (xn, p1) := p.quant 0 .mxfp8e4m3 xs.flatten
  ((xs.zip (chunksOf rs.length book.length xn)).zip book).foldl (fun p q =>
    let b := padRows q.2
    (p.prod 0 q.1.1 b q.1.2 (b.map fun r => formVals (formOf .mxfp8e4m3 r))).2) p1

/-! ### Derivatives (R284) -/

/-- The derivative of an ACT function at x, none where R284 lists none. -/
def actDeriv (fn : Nat) (x : F32) : Option F32 :=
  let one : F32 := 0x3F800000
  match fn with
  | 0 => some one
  | 1 => some (if vLt vZero (f32Val x) then one else 0)
  | 2 =>
    let h := f32Tanh (f32GeluZ x)
    let a := f32Mul 0x3F000000 (f32Add one h)
    let b := f32Mul (f32Mul (f32Mul (f32Mul 0x3F000000 x) (f32Sub one (f32Mul h h))) 0x3F4C422A)
               (f32Fma (f32Mul 0x40400000 0x3D372713) (f32Mul x x) one)
    some (f32Add a b)
  | 3 =>
    let g := f32Sigmoid x
    some (f32Add g (f32Mul (f32Mul x g) (f32Sub one g)))
  | 4 =>
    let y := f32Sigmoid x
    some (f32Mul y (f32Sub one y))
  | _ => none

/-- The gradient of a NORM layer's input row from that of its output: with h the output's gradient times the gain, r(h - mean h - n mean(h n)) of the
normalised values n, the mean of h for LAYER alone, each reduction by sum_asc over the row (R212, R284; DEDUCED, log entry 23). -/
def normGrad (wa : List Byte) (l : Layer) (x dy : List F32) : List F32 :=
  let n := f32OfInt l.inW
  let mean := fun (xs : List F32) => f32Div (sumAsc 0 xs) n
  let dv := if l.fn = 0 then x else let mu := mean x; x.map fun v => f32Sub v mu
  let r := f32Rsqrt (f32Add (mean (dv.map fun v => f32Mul v v)) l.eps)
  let nv := dv.map fun v => f32Mul v r
  let h := (dy.zipIdx).map fun q => f32Mul q.1 (weightF32 wa l.gOff q.2)
  let m1 := if l.fn = 0 then (0 : F32) else mean h
  let m2 := mean (List.zipWith f32Mul h nv)
  List.zipWith (fun a v => f32Mul r (f32Sub (if l.fn = 0 then a else f32Sub a m1) (f32Mul v m2))) h nv
/-- A row's gradient through a function whose derivative R284 does not list: free values that its operands fix (R270, R284; log entry 23). -/
def openGrad (what : Nat) (x dy : List F32) : List F32 := (List.range x.length).map (Config.gradOf what x dy)
/-- The gradient of a layer's input from that of its output, for the layers without weights (R284). -/
def elementGrad (wa : List Byte) (l : Layer) (x dy : List (List F32)) : List (List F32) :=
  if l.kind = 2 then List.zipWith (normGrad wa l) x dy
  else if l.fn = 5 then List.zipWith (openGrad l.fn) x dy
  else List.zipWith (fun xs gs => List.zipWith (fun a g => f32Mul g ((actDeriv l.fn a).getD 0)) xs gs) x dy

/-! ### The optimiser (R286, R287) -/

/-- The terms of R286 that a step's parameters share: fp32(1 - beta1), beta1, fp32(1 - beta2), beta2, c1, c2, lr_t. -/
structure AdamStep where
  g1  : F32
  b1  : F32
  g2  : F32
  b2  : F32
  c1  : F32
  c2  : F32
  lr  : F32
  eps : F32
  wd  : F32
  deriving DecidableEq, Repr

/-- m', v' and w' of one parameter (R286). -/
def adamOne (s : AdamStep) (g m v w : F32) : F32 × F32 × F32 :=
  let m' := f32Fma s.g1 g (f32Mul s.b1 m)
  let v' := f32Fma s.g2 (f32Mul g g) (f32Mul s.b2 v)
  let den := f32Add (f32Sqrt (f32Div v' s.c2)) s.eps
  let upd := f32Div (f32Div m' s.c1) den
  (m', v', f32Sub w (f32Mul s.lr (f32Add upd (f32Mul s.wd w))))

/-- Stored moments decoded, +0 where none has been stored. -/
def mDecode (bs : List MxBlock) (n : Nat) : List F32 :=
  if bs.isEmpty then List.replicate n 0 else (bs.flatMap (mxVals .mxint8)).map f32Of
/-- Stored second moments decoded (R66). -/
def vDecode (bs : List MxBlock) (n : Nat) : List F32 :=
  if bs.isEmpty then List.replicate n 0 else bs.flatMap fun b => b.codes.map (u8logDecode b.scale)

/-- A tensor after one optimiser step with its decoded narrow gradient (R286, R287). -/
def Tensor.adam (t : Tensor) (s : AdamStep) (g : List F32) : Tensor :=
  let n := t.master.length
  let mv := List.zip (mDecode t.m n) (vDecode t.v n)
  let rs := List.zipWith (fun (p : F32 × F32) (q : F32 × F32) => adamOne s p.1 q.1 q.2 p.2) (List.zip g t.master) mv
  let vs := (chunksOf 32 n (rs.map fun r => r.2.1)).map fun xs => (u8logBlock xs, xs)
  let floors := lsum (vs.map fun b => b.1.2 + ((List.zip b.1.1.codes b.2).filter fun q => q.1 = 0 && vLt vZero (f32Val q.2)).length)
  { t with master := rs.map fun r => r.2.2, m := (chunksOf 32 n (rs.map (·.1))).map (mxEncode .mxint8),
           v := vs.map fun b => b.1.1, vFloor := t.vFloor + floors }

/-- The shared terms of optimiser step t, and p1 and p2 after it (R286). -/
def adamTerms (j : JobDesc) (t : Nat) (p1 p2 : F32) : AdamStep × F32 × F32 :=
  let one : F32 := 0x3F800000
  let q1 := f32Mul p1 j.beta1
  let q2 := f32Mul p2 j.beta2
  let lr := if j.warmup = 0 || j.warmup ≤ t then j.lr else f32Mul j.lr (f32Div (f32OfInt t) (f32OfInt j.warmup))
  (⟨f32Sub one j.beta1, j.beta1, f32Sub one j.beta2, j.beta2, f32Sub one q1, f32Sub one q2, lr, j.eps, j.decay⟩, q1, q2)

/-! ### Samples (R279 to R281) -/

/-- A training record: its vector, the stored vector it names where it names one, its label, and the cell of a stored vector. -/
structure Sample where
  vec    : List F32
  stored : Option VForm := none
  norm   : F32 := 0
  label  : F32 := 0
  cell   : Option Nat := none
  deriving DecidableEq, Repr

/-- The form from which a stored vector is decoded, and its stored norm (R281). -/
def Index.formAt (x : Index) (l : Loc) : Option (VForm × F32) :=
  match l with
  | .delta e => (tfind e x.delta).map fun v => (v.vec, 0)
  | .slot c s => (tfind s (x.cell c).cur.slots).bind fun v => v.refine.map fun r => (r, v.norm)
  | .node n => (x.graph.node? n).bind fun v => v.refine.map fun r => (r, v.norm)

/-- The stored form of a live ID, none where it is absent or holds no form a job reads (R280, R281). -/
def Index.liveForm (x : Index) (id : W64) : Option (VForm × F32) :=
  (x.lookup id).bind fun p => x.formAt p.2.2

/-- Live stored refine codes in ascending cell and slot number, or node number (R280). -/
def Index.liveSlots (x : Index) : List Sample :=
  if x.kind == .graph then
    (List.range x.graph.nNodes).filterMap fun n => if x.graph.tombs.contains n then none
      else (x.formAt (.node n)).map fun f => { vec := formF32 f.1 }
  else (List.range x.nCells).flatMap fun c => (List.range (x.cell c).nSlots).filterMap fun s =>
    if (x.cell c).cur.tombs.contains s then none else (x.formAt (.slot c s)).map fun f => { vec := formF32 f.1, cell := some c }

/-- Bytes of a host record before its vector (R279). -/
def JobType.lead : JobType → Nat
  | .codebookFit => 0 | _ => 16

/-- Host record k of a job: none where its vector is rejected by R47, or its ID is not live (R279, R280). -/
def Device.hostRecord (d : Device) (x : Index) (j : JobDesc) (k : Nat) : Option Sample :=
  let n := inputBytes x.inputFmt x.dim
  let bs := d.read (j.srcAddr + k * roundUp 64 (j.type.lead + n)) (j.type.lead + n)
  match checkVector x.metric (inputElems x.inputFmt x.dim (bs.drop j.type.lead)) with
  | none => none
  | some v =>
    if j.type == .codebookFit then some { vec := v }
    else (x.liveForm (BitVec.ofNat 64 (fieldAt bs 0 8))).map fun f =>
      { vec := v, stored := some f.1, norm := f.2, label := BitVec.ofNat 32 (fieldAt bs 8 4) }

/-- The records of a job's source under the present snapshot: the count, and each record where it can be used (R279, R280). -/
def Device.records (d : Device) (x : Index) (j : JobDesc) : Nat × (Nat → Option Sample) :=
  match j.src with
  | 0 => (j.srcCount, d.hostRecord x j)
  | 1 =>
    let es := (sortBy (fun (a b : Nat × DeltaEntry) => decide (a.1 < b.1)) x.delta).filter fun e => e.2.state == 1
    (es.length, fun k => (es[k]?).map fun e => { vec := formF32 e.2.vec })
  | _ =>
    let ss := x.liveSlots
    (ss.length, fun k => ss[k]?)

/-- Record k is held out for evaluation (R280). -/
def heldOut (j : JobDesc) (k : Nat) : Bool :=
  decide ((mix64 (BitVec.ofNat 64 j.seed ^^^ BitVec.ofNat 64 k)).toNat % 100 < j.evalPct)
/-- The training records, by number, in ascending order (R280). -/
def trainRecords (j : JobDesc) (n : Nat) : List Nat := (List.range n).filter fun k => !heldOut j k
/-- The record of row i of step s among N training records (R280). -/
def sampleOf (j : JobDesc) (s i n : Nat) : Nat :=
  (mix64 (BitVec.ofNat 64 j.seed ^^^ mix64 (BitVec.ofNat 64 s) ^^^ BitVec.ofNat 64 i)).toNat % n

/-- The rows of step s: none for a row whose record cannot be used (R280). -/
def Device.rowsOfStep (d : Device) (x : Index) (j : JobDesc) (s : Nat) : List (Option Sample) :=
  let (n, rec_) := d.records x j
  let ks := trainRecords j n
  if ks.isEmpty then [] else (List.range j.batch).map fun i => rec_ (ks.getD (sampleOf j s i ks.length) 0)

end Sys2Proof.Machine
end

