-- ==== Sys2Proof/Machine/Training.lean ====
section
/-! DEFINITION. Training jobs: the step of each type (R283 to R291), the watch (R292 to R294), checkpoints and restart (R295, R296), and
publication (R297 to R303). -/

namespace Sys2Proof.Machine

/-! ### The tensors of a job -/

/-- What stands for a tensor that a job does not have. -/
def noTensor : Tensor := { rows := 0, cols := 0, trained := false, master := [] }

/-- The dense layers of a model image, by layer number. -/
def denseLayers (img : List Byte) : List (Nat × Layer) :=
  (((List.range (modelLayers img)).map (parseLayer img)).zipIdx.filter fun q => q.1.kind == 1).map fun q => (q.2, q.1)

/-- The weights of a DENSE layer decoded to FP32, row-major without padding. -/
def denseMaster (wa : List Byte) (l : Layer) : List F32 :=
  match denseWFmt l.wFmt with
  | none => []
  | some f => (List.range l.outW).flatMap fun j =>
      ((rowVals f (paddedIn l.inW) ((wa.drop (l.wOff + j * rowBytes f l.inW)).take (rowBytes f l.inW))).take l.inW).map f32Of

/-- A BF16 pattern as FP32. -/
def ofBf16 (c : Nat) : F32 := f32Of (fDecode fmtBF16 c)
/-- An FP32 value as a BF16 pattern (R50). -/
def toBf16 (x : F32) : Nat := fConvert fmtBF16 (f32Val x)

/-- Element k of V under INIT = 1 (R277). -/
def initV (seed k : Nat) : F32 :=
  let m := (mix64 (BitVec.ofNat 64 seed ^^^ BitVec.ofNat 64 k) >>> 40).toNat
  f32Of (vScale (vSub (vIntScaled (m : Int) (-24)) (vIntScaled 1 (-1))) (-4))

/-- The weight tensors a job starts from: the codebook, V and U, or the model's DENSE layers (R277, R286). -/
def startTensors (x : Index) (j : JobDesc) (img : List Byte) : List Tensor :=
  match j.type with
  | .codebookFit =>
    let cb := x.book x.liveGen
    [{ rows := x.subspaces * x.bookK, cols := x.dim / max 1 x.subspaces, trained := true, master := (cb.flatten.flatten).map ofBf16 }]
  | .adapterTrain =>
    let a := x.adapter
    let v := if j.param2 = 0 then (a.v.flatten).map ofBf16 else (List.range (j.param * x.dim)).map (initV j.seed)
    let u := if j.param2 = 0 then (a.u.flatten).map ofBf16 else List.replicate (x.dim * j.param) 0
    [{ rows := j.param, cols := x.dim, trained := true, master := v }, { rows := x.dim, cols := j.param, trained := true, master := u }]
  | .rerankTune =>
    (denseLayers img).map fun q =>
      { rows := q.2.outW, cols := q.2.inW, trained := j.param2.testBit q.1, master := denseMaster (img.drop 2048) q.2 }

/-- Forms of activations and gradients that a job's products take: those of its tensors and, for ADAPTER_TRAIN, of the product with
the positives. -/
def startFlows (j : JobDesc) (ts : List Tensor) : List Flow :=
  List.replicate (4 * (ts.length + (if j.type == .adapterTrain then 1 else 0))) {}

/-- The layer of each of a job's weight tensors (R415). -/
def Job.layers (j : Job) : List Nat :=
  match j.desc.type with
  | .rerankTune => (denseLayers ((j.model.map (·.2)).getD [])).map (·.1)
  | _ => List.range j.tensors.length
/-- The TENSOR number of form k of a job's products: 1 activations, 2 input gradient, 3 weight gradient of its layer (R415; log entry 54). -/
def Job.tensorNo (j : Job) (k : Nat) : Nat := 4 * j.layers.getD (k / 4) (k / 4) + max 1 (k % 4)

/-! ### What one pass of a step gives -/

/-- The outcome of one pass: the loss, the FP32 gradient sum of each weight tensor, and the pass. -/
structure PassOut where
  loss  : F32
  grads : List (Option (List F32))
  pass  : Pass
  deriving DecidableEq, Repr

/-- ‖r - b‖² of a residual and its reconstruction, in the chunks of R58. -/
def distSq (r b : List F32) : F32 :=
  let e := List.zipWith (fun x y => vSub (f32Val x) (f32Val y)) r b
  dotVals e e

/-- The residual that a codebook fit encodes: the vector less its cell's centroid for CELL (R61, R278). -/
def Index.fitResidual (x : Index) (s : Sample) : List F32 :=
  let c := s.cell.or (if x.kind == .cell then (x.cellOrder s.vec).head? else none)
  match c.bind x.centroid with
  | some k => residual s.vec k
  | none => s.vec

/-- A codebook from its masters: BF16 entries by subspace (R298). -/
def Index.bookOf (x : Index) (master : List F32) : Codebook :=
  let w := x.dim / max 1 x.subspaces
  let es := chunksOf w master.length (master.map toBf16)
  chunksOf x.bookK x.subspaces es

/-- Codes and residuals of the rows of a fit (R278). -/
def Index.fitRows (x : Index) (cb : Codebook) (rows : List (Option Sample)) : List (Option (List F32 × List Nat)) :=
  rows.map fun r => r.map fun s => let v := x.fitResidual s; (v, pqEncode cb v)

/-- The mean RECON loss over rows in ascending order (R278, R297). -/
def reconLoss (cb : Codebook) (rs : List (List F32 × List Nat)) : F32 :=
  f32Div (sumAsc 0 (rs.map fun q => distSq q.1 (pqDecode cb q.2))) (f32OfInt rs.length)

/-- The slices of a list of vectors that chose entry c of subspace m, of w elements each, in row order. -/
def chosen (w m c : Nat) (rs : List (List F32 × List Nat)) : List (List F32) :=
  (rs.filter fun q => q.2.getD m 0 == c).map fun q => (q.1.drop (w * m)).take w

/-- RECON gradients of a codebook: each row adds to the entry it chose, by contributors of 64 rows (R271, R284). -/
def Index.reconGrad (x : Index) (cb : Codebook) (rows : List (Option (List F32 × List Nat))) : List F32 :=
  let w := x.dim / max 1 x.subspaces
  let n := f32OfInt (rows.filterMap id).length
  let tiles := (chunksOf 64 rows.length rows).map fun t => t.filterMap id
  (cb.zipIdx).flatMap fun sub => (sub.1.zipIdx).flatMap fun e =>
    let b := e.1.map ofBf16
    (List.range w).map fun i =>
      sumAsc 0 (tiles.map fun t => sumAsc 0 ((chosen w sub.2 e.2 t).map fun r =>
        f32Div (f32Mul 0x40000000 (f32Sub (b.getD i 0) (r.getD i 0))) n))

/-- The LLOYD update: each entry the mean of the slices that chose it (R288). -/
def Index.lloyd (x : Index) (master : List F32) (cb : Codebook) (rows : List (List F32 × List Nat)) : List F32 :=
  let w := x.dim / max 1 x.subspaces
  (cb.zipIdx).flatMap fun sub => (sub.1.zipIdx).flatMap fun e =>
    let rs := chosen w sub.2 e.2 rows
    let at_ := (sub.2 * x.bookK + e.2) * w
    (List.range w).map fun i =>
      if rs.isEmpty then master.getD (at_ + i) 0 else f32Div (sumAsc 0 (rs.map fun r => r.getD i 0)) (f32OfInt rs.length)

/-- The softmax of a row of scores, entries that no row backs left out (R284). -/
def softmaxRow (used : List Bool) (ss : List F32) : List F32 :=
  let live := ((List.zip used ss).filter (·.1)).map (·.2)
  let mx := match live with | [] => 0 | s :: t => t.foldl f32Max s
  let es := List.zipWith (fun u s => if u then some (f32Exp2 (f32Mul (f32Sub s mx) 0x3FB8AA3B)) else none) used ss
  let sum := sumAsc 0 (es.filterMap id)
  es.map fun e => e.elim 0 fun v => f32Div v sum

/-- The mean over used rows of the negated logarithm of a row's own softmax value (R278). -/
def softmaxLoss (used : List Bool) (sm : List (List F32)) : F32 :=
  let ls := ((List.zip used sm).zipIdx).filterMap fun q => if q.1.1 then some (Config.negLog (q.1.2.getD q.2 0)) else none
  f32Div (sumAsc 0 ls) (f32OfInt ls.length)

/-- ADAPTER_TRAIN: y = x + U V x, its products with the positives, and the gradients of U and V (R278, R283, R284). The loss's own logarithm and the
gradient through the normalisation of COS have no stated steps: they are free values that their operands fix (R270; log entry 23). -/
def adapterPass (x : Index) (j : JobDesc) (ts : List Tensor) (rows : List (Option Sample)) (p : Pass) : PassOut :=
  let v := (ts.getD 0 noTensor).mat
  let u := (ts.getD 1 noTensor).mat
  let zero := List.replicate x.dim (0 : F32)
  let xs := rows.map fun r => r.elim zero (·.vec)
  let ps := rows.map fun r => r.elim zero fun s => (s.stored.map formF32).getD zero
  let used := rows.map (·.isSome)
  let n := f32OfInt (used.filter id).length
  let (t, p1) := p.forward 0 .mxfp8e4m3 xs v
  let (ut, p2) := p1.forward 1 .mxfp8e4m3 t u
  let y0 := List.zipWith (fun a b => List.zipWith f32Add a b) xs ut
  let y := if x.metric == .cos then y0.map fun r => (checkVector .cos r).getD r else y0
  let (s, p3) := p2.forward 2 .mxfp8e4m3 y ps
  let sm := s.map fun r => softmaxRow used (r.map fun e => f32Div e j.temp)
  let g := ((List.zip used sm).zipIdx).map fun q => (q.1.2.zipIdx).map fun e =>
    if q.1.1 && used.getD e.2 false then f32Div (f32Sub e.1 (if e.2 = q.2 then 0x3F800000 else 0)) (f32Mul j.temp n) else 0
  let (dy0, p4) := p3.inputGrad 2 g ps
  let dy := if x.metric == .cos then List.zipWith (openGrad 0) y0 dy0 else dy0
  let (du, p6) := p4.weightGrad 1 dy t
  let (dt, p7) := p6.inputGrad 1 dy u
  let (dv, p8) := p7.weightGrad 0 dt xs
  ⟨softmaxLoss used sm, [some dv.flatten, some du.flatten], p8⟩

/-- The forward pass of a model over rows: the inputs of every layer, and the outputs (R212, R213, R283). -/
def modelForward (wa : List Byte) (wf : VFmt) (ts : List Tensor) : List Layer → Nat → List (List F32) → Pass → List (List (List F32)) × List (List F32) × Pass
  | [], _, rows, p => ([], rows, p)
  | l :: ls, k, rows, p =>
    if l.kind = 1 then
      let w := (ts.getD k noTensor).mat
      let (y, p1) := p.forward k wf rows w
      let out := y.map fun r => (r.zipIdx).map fun e => f32Add e.1 (weightF32 wa l.bOff e.2)
      let (ins, o, p2) := modelForward wa wf ts ls (k + 1) out p1
      (rows :: ins, o, p2)
    else
      let (ins, o, p2) := modelForward wa wf ts ls k (rows.map fun r => runLayer wa r l) p
      (rows :: ins, o, p2)

/-- The backward pass over layers from the last to the first: the gradient of each DENSE layer's weights, the last layer's first. It
ends below the lowest trained layer, and at a CROSS (R283, R284). -/
def modelBackward (wa : List Byte) (ts : List Tensor) : List (Layer × List (List F32)) → Nat → List (List F32) → Pass → List (Option (List F32)) × Pass
  | [], _, _, p => ([], p)
  | (l, x) :: ls, k, dy, p =>
    if l.kind = 1 then
      let t := ts.getD (k - 1) noTensor
      let (g, p1) := if t.trained then let (dw, q) := p.weightGrad (k - 1) dy x; (some dw.flatten, q) else (none, p)
      if (List.range (k - 1)).any fun i => (ts.getD i noTensor).trained then
        let (dx, p2) := p1.inputGrad (k - 1) dy t.mat
        let (gs, p3) := modelBackward wa ts ls (k - 1) dx p2
        (g :: gs, p3)
      else (g :: List.replicate (k - 1) none, p1)
    else if l.kind = 4 then ([], p)
    else modelBackward wa ts ls k (elementGrad wa l x dy) p

/-- The model's input row for a sample, whose vector R47 has checked (R147, R278, R279). -/
def Index.sampleRow (x : Index) (s : Sample) : List F32 :=
  match adaptQuery x.metric x.adapter s.vec, s.stored with
  | some q, some f => modelRow q (formF32 f) (if x.refine.isSome then x.refinedScore q f s.norm else x.deltaScore q f)
  | _, _ => List.replicate (2 * x.dim + 1) 0
/-- The loss of one output: MSE, or BCE with a softplus whose steps are not stated (R278; log entry 23). -/
def outputLoss (loss : Nat) (o label : F32) : F32 :=
  if loss = 2 then let e := f32Sub o label; f32Mul e e else f32Sub (Config.softplus o) (f32Mul label o)
/-- The mean loss of outputs with their labels, in ascending order (R278, R297). -/
def meanLoss (loss : Nat) (os : List (F32 × F32)) : F32 :=
  f32Div (sumAsc 0 (os.map fun q => outputLoss loss q.1 q.2)) (f32OfInt os.length)

/-- RERANK_TUNE: the model over the rows' inputs of R147, its loss, and the gradients of the layers trained (R278, R283, R284). -/
def rerankPass (x : Index) (j : JobDesc) (img : List Byte) (ts : List Tensor) (rows : List (Option Sample)) (p : Pass) : PassOut :=
  let layers := (List.range (modelLayers img)).map (parseLayer img)
  let wf := (fmtOfCode j.param).getD .mxfp8e4m3
  let ins := rows.map fun r => r.elim (List.replicate (2 * x.dim + 1) 0) x.sampleRow
  let (xs, outs, p1) := modelForward (img.drop 2048) wf ts layers 0 ins p
  let used := rows.filterMap id
  let n := f32OfInt used.length
  let pairs := List.zipWith (fun r (o : List F32) => r.map fun (s : Sample) => (o.headD f32NaN, s.label)) rows outs
  let grad := pairs.map fun q => [q.elim 0 fun (o, label) =>
    if j.loss = 2 then f32Div (f32Mul 0x40000000 (f32Sub o label)) n else f32Div (f32Sub (f32Sigmoid o) label) n]
  let (gs, p2) := modelBackward (img.drop 2048) ts (List.zip layers xs).reverse ts.length grad p1
  ⟨meanLoss j.loss (pairs.filterMap id), gs.reverse, p2⟩

/-! ### A step (R283 to R294) -/

/-- One pass of a step of a job over its rows. -/
def Job.pass (j : Job) (x : Index) (rows : List (Option Sample)) (p : Pass) : PassOut :=
  match j.desc.type with
  | .codebookFit =>
    let cb := x.bookOf ((j.tensors.headD noTensor).master)
    let rs := x.fitRows cb rows
    let w := x.dim / max 1 x.subspaces
    let book := chunksOf x.bookK x.subspaces (chunksOf w (x.subspaces * x.bookK) (j.tensors.headD noTensor).master)
    ⟨reconLoss cb (rs.filterMap fun r => r), [if j.desc.param = 0 then some (x.reconGrad cb rs) else none],
      p.codebook w book (rs.filterMap fun r => r.map (·.1))⟩
  | .adapterTrain => adapterPass x j.desc j.tensors rows p
  | .rerankTune => rerankPass x j.desc ((j.model.map (·.2)).getD []) j.tensors rows p

/-- The narrow gradients of a pass: for each tensor its decoded values, and the tensor with its history, or none (R273, R284, R289). -/
def narrowGrads (p : Pass) (ts : List Tensor) (gs : List (Option (List F32))) : List (Tensor × Option (List F32)) × Bool :=
  let rs := (ts.zipIdx).map fun q =>
    match (gs.getD q.2 none) with
    | some g =>
      let (vs, w, o) := q.1.grad.quantise p.pred p.step p.shift .mxfp8e5m2 [g]
      (({ q.1 with grad := w }, some ((vs.flatten).map f32Of)), o)
    | none => ((q.1, none), false)
  (rs.map (·.1), p.isOver || rs.any (·.2))

/-- What the passes of a step leave: the loss, the tensors with their decoded narrow gradients, the forms, whether the step was replayed, and the FP32
values written to the F-tier and read back to be quantised (R273, R290). -/
structure StepOut where
  loss   : F32
  grads  : List (Tensor × Option (List F32))
  flows  : List Flow
  replay : Bool
  made   : List F32
  deriving DecidableEq, Repr

/-- The FP32 values of a pass that exact scaling writes to the F-tier: its activations and gradients, and the gradient sums (R273). -/
def PassOut.madeFp32 (o : PassOut) : List F32 :=
  if o.pass.pred then [] else o.pass.made.flatten ++ (o.grads.filterMap id).flatten

/-- A pass with its narrow gradients: predicted, and where a guard limit is exceeded replayed exactly on the same rows, keeping the
discarded pass's counters (R290). -/
def Job.runPass (j : Job) (x : Index) (rows : List (Option Sample)) (pred : Bool) : StepOut :=
  let p0 : Pass := { pred := pred, step := j.step, watch := j.desc.watchN, shift := j.desc.guardShift, flows := j.flows }
  let o := j.pass x rows p0
  let (gs, isOver) := narrowGrads o.pass j.tensors o.grads
  if pred && isOver then
    let o2 := j.pass x rows { p0 with pred := false }
    let (gs2, _) := narrowGrads o2.pass j.tensors o2.grads
    let keep := fun (w c : Flow) => { w with sat := c.sat, under := c.under, softSat := c.softSat }
    ⟨o2.loss, List.zipWith (fun a b => ({ a.1 with grad := keep a.1.grad b.1.grad }, a.2)) gs2 gs,
      List.zipWith keep o2.pass.flows o.pass.flows, true, o2.madeFp32⟩
  else ⟨o.loss, gs, o.pass.flows, false, o.madeFp32⟩

/-- A watch form at the end of a window: its ratio, cleared, and whether it drifts (R293). -/
def Flow.closeWindow (w : Flow) (limit : F32) : Flow × Bool :=
  let r := if vIsZero (f32Val w.ref) then (if vIsZero (f32Val w.err) then 0 else 0x7F800000) else f32Div w.err w.ref
  let drift := vLt (f32Val limit) (f32Val r) || decide (0 < w.nf)
  ({ w with ratio := r, err := 0, ref := 0, nf := 0, drifts := if drift then w.drifts + 1 else w.drifts }, drift)

/-- The job leaves predicted scaling: more than 16 of its last 64 steps were replayed (R290). -/
def leavesPred (recent : List Bool) : Bool := decide (16 < (recent.filter id).length)

/-- The end of a watch window: ratios, drift events that name the tensor, the policy, and NO_SAMPLES; WIDEN takes the tensor in BF16 as A operand, and
a weight gradient's sum with it (R293, R294, R303, R415). -/
def Device.closeWindow (d : Device) (no : Nat) : Device :=
  match d.job? no with
  | none => d
  | some j =>
    if j.desc.watchN = 0 then (if j.used then d.modJob no fun j => { j with used := false } else d.endJob no 0x0A)
    else
      let ws := j.flows.map fun w => w.closeWindow j.desc.driftLimit
      let drifts := (ws.zipIdx.filter fun q => q.1.2).map (·.2)
      let d1 := drifts.foldl (fun d k => d.raiseBrg j.burgee 6 (no + at_ 16 (j.tensorNo k))) d
      let widen := fun (k : Nat) (w : Flow) => if j.desc.drift = 1 && drifts.contains k then { w with wide := true } else w
      let flows := (ws.map (·.1)).zipIdx.map fun q => widen q.2 q.1
      let ts := (j.tensors.zipIdx).map fun q => { q.1 with grad := widen (4 * q.2 + 3) q.1.grad }
      let d2 := d1.modJob no fun j => { j with flows := flows, tensors := ts, used := false }
      if !drifts.isEmpty && j.desc.drift = 2 then d2.endJob no 0x03
      else if j.used then d2 else d2.endJob no 0x0A

/-- The FP32 values of a step's tensors written to the job's part of the F-tier and read back for their second pass, 8 B of traffic an element at
pennant 1 (R30, R273; DESIGN CHOICE: they lie one after another from the start of the job's reservation, log entry 52). -/
def Device.secondPass (d : Device) (j : Job) (made : List F32) : Device :=
  if made.isEmpty then d
  else
    let bs := (made.flatMap fun (x : F32) => leBytes 4 x.toNat).take j.desc.stateBytes
    ((d.memWriteAll j.area bs).memReadCount j.area bs.length 1).charge false none j.burgee .f 1 (8 * made.length)

/-- JOB_STEP: one step of a job on the rows it samples: forward, backward and the optimiser (R283 to R291), the agreement watch
(R292 to R294), and the step that follows. Its next step waits for a checkpoint that is due (R295). -/
def jobStepEff (no : Nat) (d : Device) : Device :=
  match d.job? no with
  | none => d
  | some j =>
    match d.index? j.desc.indexNo with
    | none => d
    | some x =>
      if j.state != .running || j.ckptDue || !d.bgOk || (!j.begun && d.shedHolds) then d
      else
        let rows := d.rowsOfStep x j.desc j.step
        let used := (rows.filterMap id).length
        let skip := rows.length - used
        if rows.isEmpty then d.endJob no 0x0A
        else
          let pred := j.desc.predicted && !j.log.leftPred && j.warm = 0
          let o : StepOut := if used = 0 then ⟨0, [], j.flows, false, []⟩ else j.runPass x rows pred
          let gs := o.grads
          let finite := f32IsFinite o.loss && gs.all fun g => g.2.elim true fun vs => vs.all f32IsFinite
          let lloyd := j.desc.type == .codebookFit && j.desc.param = 1
          let (terms, q1, q2) := adamTerms j.desc (j.applied + 1) j.p1 j.p2
          let go := decide (0 < used) && finite
          let upd := fun (t : Tensor × Option (List F32)) => match t.2 with
            | some g => t.1.adam terms g
            | none => t.1
          let fit := fun (t : Tensor) =>
            let cb := x.bookOf t.master
            { t with master := x.lloyd t.master cb ((x.fitRows cb rows).filterMap id) }
          let tensors := if used = 0 then j.tensors
            else if !finite then gs.map (·.1)
            else if lloyd then j.tensors.map fit
            else gs.map upd
          let bad := if used = 0 then j.badRun else if finite then 0 else j.badRun + 1
          let recent := (o.replay :: j.recent).take 64
          let log := { j.log with
            rowsSkipped := j.log.rowsSkipped + skip, stepsEmpty := j.log.stepsEmpty + (if used = 0 then 1 else 0),
            nonfinite := j.log.nonfinite + (if used ≠ 0 && !finite then 1 else 0), replays := j.log.replays + (if o.replay then 1 else 0),
            leftPred := j.log.leftPred || (j.desc.predicted && leavesPred recent) }
          let adam := go && !lloyd
          let j' := { j with
            begun := true, step := j.step + 1, applied := if adam then j.applied + 1 else j.applied, p1 := if adam then q1 else j.p1,
            p2 := if adam then q2 else j.p2, tensors := tensors, flows := o.flows, badRun := bad, warm := j.warm - 1, recent := recent,
            used := j.used || decide (0 < used), loss := if used = 0 then j.loss else o.loss, log := log,
            ckptDue := decide ((j.step + 1) % j.desc.ckpt = 0) }
          let d1 := (d.secondPass j o.made).modJob no fun _ => j'
          let d2 := if j'.step % j.desc.watchWindow = 0 then d1.closeWindow no else d1
          if bad ≥ 8 then d2.endJob no 0x04
          else if !j.stopReq.isEmpty then d2.endJob no 0x02
          else match d2.job? no with
            | some k => if k.state == .running && k.desc.steps ≤ k.step then d2.modJob no fun k => { k with state := .evaluate } else d2
            | none => d2
/-- JOB_STEP (R283). -/
def execJobStep (no : Nat) (s : State) : Host.Outcome State Fault Refusal := onDev (jobStepEff no) s

/-! ### Checkpoints and restart (R295, R296) -/

/-- Bytes of a checkpoint slot of a job: its header, its counters and forms, and its masters and moments (R295; log entry 53). -/
def Job.ckptLen (j : Job) : Nat :=
  roundUp 64 (512 + j.flows.length + lsum (j.tensors.map fun t => 4 * t.rows * t.cols + 66 * ((t.rows * t.cols + 31) / 32)))
/-- What a checkpoint keeps of a job: no scale history (R295). -/
def Job.checkpoint (j : Job) (addr : Nat) : Checkpoint :=
  let bare := fun (w : Flow) => { w with history := [] }
  { step := j.step, applied := j.applied, p1 := j.p1, p2 := j.p2, tensors := j.tensors.map fun t => { t with grad := bare t.grad },
    flows := j.flows.map bare, log := j.log, crc := j.desc.crc, addr := addr, len := j.ckptLen }
/-- The header of a checkpoint slot: the step, a valid flag and the descriptor's CRC-32 (R295; log entry 53). -/
def Checkpoint.header (c : Checkpoint) : List Byte := fit 64 (leBytes 8 c.step ++ leBytes 4 1 ++ leBytes 4 c.crc)
/-- What follows the header (R295; log entry 53). -/
def Checkpoint.body (c : Checkpoint) : List Byte :=
  let block := fun (b : MxBlock) => leBytes 1 b.scale ++ b.codes.flatMap (leBytes 1)
  let tensor := fun (t : Tensor) => (t.master.flatMap fun (x : F32) => leBytes 4 x.toNat) ++ t.m.flatMap block ++ t.v.flatMap block
  fit 448 (leBytes 8 c.applied ++ leBytes 4 c.p1.toNat ++ leBytes 4 c.p2.toNat ++ leBytes 8 c.log.rowsSkipped ++ leBytes 8 c.log.stepsEmpty ++
      leBytes 8 c.log.nonfinite ++ leBytes 8 c.log.replays ++ leBytes 8 c.log.restarts) ++
    (c.flows.flatMap fun w => leBytes 1 (if w.wide then 1 else 0)) ++ c.tensors.flatMap tensor
/-- The slot that a job's next checkpoint takes: a new one while it has fewer than two, then the older (R295). -/
def Device.ckptSlot (d : Device) (j : Job) : Option (Nat × Device) :=
  match j.ckpts with
  | _ :: c :: _ => some (c.addr, d)
  | _ => (findSpace 0x40000000 (lBase + 0x100000000) (lBase + 0x200000000) lBase 1792 d.tiers.extL none j.ckptLen).map fun a =>
      (a, { d with tiers := { d.tiers with extL := ⟨a, j.ckptLen, none⟩ :: d.tiers.extL } })

/-- CHECKPOINT: a checkpoint that is due is written to the older of the two slots, its header last, at pennant 1; without space for a slot it waits
(R30, R295; log entry 53). -/
def checkpointEff (no : Nat) (d : Device) : Device :=
  match d.job? no with
  | some j =>
    if !(j.ckptDue && (j.state == .running || j.state == .evaluate) && d.bgOk) then d
    else match d.ckptSlot j with
      | none => d
      | some (a, d1) =>
        let c := j.checkpoint a
        let t : Traffic := { burgee := j.burgee, pennant := 1 }
        let put := fun (d : Device) (a : Nat) (bs : List Byte) => (d.memWriteAll a bs).chargeAt t a bs.length true
        (put (put d1 (a + 64) c.body) a c.header).modJob no fun j => { j with ckptDue := false, ckpts := (c :: j.ckpts).take 2 }
  | none => d
/-- CHECKPOINT (R295). -/
def execCheckpoint (no : Nat) (s : State) : Host.Outcome State Fault Refusal := onDev (checkpointEff no) s

/-- A checkpoint is valid: its slot can be read, and its header is of this job's descriptor (R295). -/
def Device.ckptOk (d : Device) (j : Job) (c : Checkpoint) : Bool := c.crc == j.desc.crc && !d.uncorrectable c.addr c.len
/-- A job as its last valid checkpoint leaves it, or at step 0 without one (R296). -/
def Device.restarted (d : Device) (j : Job) : Job :=
  let base := { j with state := .running, badRun := 0, warm := 64, recent := [], used := false, ckptDue := false, stopReq := [] }
  match j.ckpts.find? (d.ckptOk j) with
  | some c => { base with
      step := c.step, applied := c.applied, p1 := c.p1, p2 := c.p2, tensors := c.tensors, flows := c.flows,
      log := { c.log with restarts := j.log.restarts + 1 } }
  | none =>
    let ts := match tfind j.desc.indexNo d.indexes with
      | some x => startTensors x j.desc ((j.model.map (·.2)).getD [])
      | none => j.tensors
    { base with step := 0, applied := 0, p1 := 0x3F800000, p2 := 0x3F800000, tensors := ts, flows := startFlows j.desc ts,
                log := { restarts := j.log.restarts + 1 } }

/-- Every running job restarts from its last valid checkpoint (R296). -/
def Device.restartJobs (d : Device) : Device :=
  { d with jobs := d.jobs.map fun j => match j.state with
      | .running | .evaluate => d.restarted j
      | _ => j }

/-- An F-tier read at an address failed: a running job whose training state lies there restarts from its last valid checkpoint, which its log counts
(R296). -/
def Device.trainingLost (d : Device) (a : Nat) : Device :=
  { d with jobs := d.jobs.map fun j =>
      if (j.state == .running || j.state == .evaluate) && j.area != 0 && decide (j.area ≤ a) && decide (a < j.area + j.desc.stateBytes) then d.restarted j
      else j }
/-- The address that an outstanding read of an SC reads, if it is one. -/
def Device.readAddr (d : Device) (sc x : Nat) : Nat :=
  ((d.str sc).xfers.find? fun f => f.id == x && !f.write && (d.stream? sc f.stream).isSome).elim 0 (·.addr)
/-- The meaning of UNCORRECTABLE_READ (R262, R296). -/
def execUncorrectableRead (sc x : Nat) (s : State) : Host.Outcome State Fault Refusal :=
  onDev (fun d => (uncorrectableReadEff sc x d).trainingLost (d.readAddr sc x)) s
/-- The meaning of TRANSFER_TIMEOUT: a read that times out is an uncorrectable read (R262, R296). -/
def execTransferTimeout (sc x : Nat) (s : State) : Host.Outcome State Fault Refusal :=
  onDev (fun d => (transferTimeoutEff sc x d).trainingLost (d.readAddr sc x)) s

/-! ### Publication (R297 to R302) -/

/-- The records on which a job evaluates: those held out in ascending order, or its last step's rows (R297). -/
def Device.evalRows (d : Device) (x : Index) (j : Job) : List (Option Sample) :=
  if j.desc.evalPct = 0 then d.rowsOfStep x j.desc (j.step - 1)
  else
    let (n, rec_) := d.records x j.desc
    ((List.range n).filter (heldOut j.desc)).map rec_

/-- The model image of a RERANK_TUNE result: its DENSE weights are the masters in each layer's W_FMT (R302). -/
def Job.image (j : Job) : List Byte :=
  let img := (j.model.map (·.2)).getD []
  ((denseLayers img).zip j.tensors).foldl (fun img q =>
    if !q.2.trained then img
    else match denseWFmt q.1.2.wFmt with
      | none => img
      | some f =>
        let stride := rowBytes f q.1.2.inW
        let rows := (padRows q.2.mat).flatMap fun r =>
          let v := formOf f r
          fit stride (formBytes v ++ formScales v)
        let at_ := 2048 + q.1.2.wOff
        img.take at_ ++ fit (stride * q.1.2.outW) rows ++ img.drop (at_ + stride * q.1.2.outW)) img

/-- The adapter of an ADAPTER_TRAIN result: its factors in BF16 (R301). -/
def Job.adapter (j : Job) : Adapter :=
  let row := fun (t : Tensor) => t.mat.map fun (r : List F32) => r.map toBf16
  ⟨j.desc.param, row (j.tensors.getD 0 noTensor), row (j.tensors.getD 1 noTensor)⟩
/-- The SOFTMAX loss of an adapter over rows: the queries it adapts by R274 against the rows' positives (R278, R297; DEDUCED, log entry 55). -/
def adapterLoss (x : Index) (a : Adapter) (tau : F32) (rows : List Sample) : F32 :=
  let ps := rows.map fun s => ((s.stored.map formF32).getD []).map f32Val
  let used := rows.map fun _ => true
  softmaxLoss used (rows.map fun s =>
    let y := ((adaptQuery x.metric a s.vec).getD s.vec).map f32Val
    softmaxRow used (ps.map fun p => f32Div (dotVals y p) tau))

/-- The evaluation losses of a job's present and new results (R297, R298, R301, R302). -/
def Device.evalLosses (d : Device) (x : Index) (j : Job) : F32 × F32 :=
  let rows := (d.evalRows x j).filterMap id
  match j.desc.type with
  | .codebookFit =>
    let new := x.bookOf ((j.tensors.headD noTensor).master)
    let old := x.book x.liveGen
    let loss := fun cb => reconLoss cb ((x.fitRows cb (rows.map some)).filterMap id)
    (loss old, loss new)
  | .rerankTune =>
    let loss := fun (img : List Byte) => meanLoss j.desc.loss (rows.map fun s => (runModel img (x.sampleRow s), s.label))
    (loss ((j.model.map (·.2)).getD []), loss j.image)
  | .adapterTrain => (adapterLoss x x.adapter j.desc.temp rows, adapterLoss x j.adapter j.desc.temp rows)

/-- The loss test of R298 and R301. -/
def Job.gains (j : Job) : Bool :=
  vLe (f32Val j.lossNew) (f32Val (f32Mul j.lossOld (f32Sub 0x3F800000 j.desc.minGain)))

/-- An accepted codebook becomes a set of a new generation: the next target, or the pending set (R298). -/
def Device.publishBook (d : Device) (i : Nat) (cb : Codebook) : Device :=
  match tfind i d.indexes with
  | none => d
  | some x =>
    let gen := x.lastGen + 1
    let d1 := d.modIndex i fun x => { x with
      lastGen := gen, codebooks := tset gen cb (if x.pendingGen = 0 then x.codebooks else tdel x.pendingGen x.codebooks) }
    if x.targetGen = x.liveGen && x.oldBook.isNone then
      let d2 := (d1.modIndex i fun x => { x with targetGen := gen }).syncBook i 1 gen
      (if x.kind == .graph && x.graph.groups.isEmpty then (d2.modIndex i fun x => x.settleGen x.view).syncBook i 0 gen else d2).syncRecord i
    else d1.modIndex i fun x => { x with pendingGen := gen }

/-- A model image takes the resident model's place under a new sequence number (R126, R302). -/
def Device.installModel (d : Device) (img : List Byte) : Device :=
  let n := d.lastModel + 1
  { d with models := tset n img d.models, model := n, lastModel := n }
/-- Models whose sequence number no admitted command holds are freed (R126). -/
def Device.freeModels (d : Device) : Device :=
  { d with models := d.models.filter fun m => m.1 == d.model || d.cmds.any fun c => (c.snap.elim 0 (·.model)) == m.1 }

/-- A finished job's result published, or refused by its tests: the job ends with its result (R298, R301 to R303). -/
def Device.publish (d : Device) (no : Nat) : Device :=
  match d.job? no with
  | none => d
  | some j =>
    match d.index? j.desc.indexNo with
    | none => d.endJob no 0x08
    | some x =>
      if j.desc.type == .rerankTune && (j.model.map (·.1)) != some d.model then d.endJob no 0x09
      else if !j.gains then d.endJob no 0x01
      else
        let d1 := match j.desc.type with
          | .codebookFit => d.publishBook j.desc.indexNo (x.bookOf ((j.tensors.headD noTensor).master))
          | .adapterTrain => d.modIndex j.desc.indexNo fun x => { x with adapter := j.adapter }
          | .rerankTune => (d.installModel j.image).freeModels
        d1.endJob no 0x00

/-- JOB_PUBLISH: after its last step a job evaluates, and publishes its result or holds it under NO_PUBLISH; while shedding step 2
is engaged it waits (R296, R297, R420). -/
def jobPublishEff (no : Nat) (d : Device) : Device :=
  match d.job? no with
  | none => d
  | some j =>
    match d.index? j.desc.indexNo with
    | none => d
    | some x =>
      if j.state != .evaluate || j.ckptDue || d.shedHolds || !d.bgOk then d
      else
        let (old, new) := d.evalLosses x j
        let d1 := d.modJob no fun j => { j with lossOld := old, lossNew := new }
        if j.desc.noPublish then
          ((((d1.freeCkpts j.ckpts).modJob no fun j => { j with state := .held, ckpts := [] }).retireJobs no).raiseBrg j.burgee 0x0007 no).quitJob j
        else d1.publish no
/-- JOB_PUBLISH (R297). -/
def execJobPublish (no : Nat) (s : State) : Host.Outcome State Fault Refusal := onDev (jobPublishEff no) s

end Sys2Proof.Machine
end

