-- ==== Sys2Proof/Machine/Power.lean ====
section
/-! DEFINITION. Supplies and their monitors, the reset kinds, brown-out and quiesce, the adaptive voltage loops, the power envelope and the
thermal responses, and the reference clocks (R480 to R497, R552). -/

namespace Sys2Proof.Machine

/-! ### Resets (R494 to R497) -/

/-- SYS_PWROK is asserted and MEMREFCLK is present, which R552 makes the same condition. -/
def Device.powered (d : Device) : Bool := d.aon.vaux && d.aon.sysPwrok && d.aon.memrefOk

/-- The device as a COLD reset leaves it: everything at its reset value but for what the always-on domain, the flash and the fuses keep
(R494, R496, R519, R520). The test access port and what has been sent are no part of it. -/
def Device.coldState (d : Device) : Device :=
  let a := d.aon
  let m := d.mgmt.test
  let t : SelfTest := if m.result = 3 then { kind := m.kind, result := 2, passed := m.passed, failed := m.failed, records := m.records } else {}
  { fresh := d.fresh, out := d.out, fuses := d.fuses, flash := d.flash, tap := d.tap, tiers := { draws := d.tiers.draws },
    mgmt := { test := t },
    aon := { vaux := a.vaux, sysPwrok := a.sysPwrok, memrefOk := a.memrefOk, railHold := a.railHold, testMode := a.testMode, trip := a.trip,
             smbAddr := a.smbAddr, coldCount := a.coldCount, causeRail := a.causeRail, cause := a.cause, faults := a.faults,
             faultSeq := a.faultSeq, railMv := a.railMv, vioOut := a.vioOut, vfuseOut := a.vfuseOut,
             bo := { warnPin := a.bo.warnPin, episodes := a.bo.episodes }, araAnswers := a.araAnswers } }

/-- The start voltage is written again over AVSBus where a loop had left it (R484, R494). -/
def Device.startVolts (d : Device) (was : Power) : Device :=
  let d1 := if was.h0.vset = 780 then d else d.emit (.avs 0 780)
  if was.h1.vset = 780 then d1 else d1.emit (.avs 1 780)

/-- A COLD reset with its RESET_CAUSE: held, or with start-up next (R494, R519). -/
def Device.coldReset (d : Device) (cause rail : Nat) (held : Bool) : Device :=
  let s := d.coldState.startVolts d.power
  { s with phase := if held then .held else .coldDone,
           mgmt := { s.mgmt with bootAt := if held then none else some 0 },
           aon := { s.aon with coldCount := min 65535 (s.aon.coldCount + 1), cause := cause, causeRail := rail } }

/-- A COLD reset caused by a rail: held until every rail is back in tolerance; while a reset is already held nothing more happens
(R494). A trip or a deasserted SYS_PWROK keep their own hold. -/
def Device.railReset (d : Device) (cause rail : Nat) : Device :=
  if d.phase = .held then d
  else
    let r := if d.phase = .draining && cause = 3 then d.coldReset 6 0 true else d.coldReset cause rail true
    { r with aon := { r.aon with railHold := true } }

/-- A supply fault recorded, newest first, at most 16 (R520, R537). -/
def Device.recordFault (d : Device) (rail kind mv : Nat) : Device :=
  let a := d.aon
  { d with aon := { a with faultSeq := a.faultSeq + 1, faults := (SupplyFault.mk (a.faultSeq + 1) rail kind mv :: a.faults).take 16 } }.alert 0

/-- An instruction at the test access port that drives or releases pins (R563, R565). -/
def TapInstr.boundary : TapInstr → Bool
  | .extest | .clamp | .highz | .extestPulse | .extestTrain => true
  | _ => false

/-- The rising edge of SYS_PWROK, or what acts as one: a COLD reset, and start-up next unless a trip is latched (R482, R488, R552). -/
def Device.riseReset (d : Device) : Device :=
  let r := d.coldReset 1 0 d.aon.trip
  { r with aon := { r.aon with railHold := false } }

/-- SYS_PWROK_RISE: a COLD reset; held while MEMREFCLK is missing (R552), and not begun while a boundary instruction is in effect
(R565). -/
def sysPwrokRiseEff (d : Device) : Device :=
  if !d.aon.vaux || d.aon.sysPwrok then d
  else
    let d1 := { d with aon := { d.aon with sysPwrok := true } }
    if d.tap.instr.boundary then { d1 with tap := { d1.tap with heldRise := true } }
    else if !d.aon.memrefOk then d1 else d1.riseReset
/-- SYS_PWROK_RISE (R482). -/
def execSysPwrokRise (s : State) : Host.Outcome State Fault Refusal := onDev sysPwrokRiseEff s

/-- SYS_PWROK_FALL: the device is held in COLD reset (R482). -/
def sysPwrokFallEff (d : Device) : Device :=
  if !d.aon.sysPwrok then d
  else
    let s := d.coldState.startVolts d.power
    { s with phase := .held, tap := { s.tap with heldRise := false }, aon := { s.aon with sysPwrok := false, railHold := false } }
/-- SYS_PWROK_FALL (R482). -/
def execSysPwrokFall (s : State) : Host.Outcome State Fault Refusal := onDev sysPwrokFallEff s

/-- COLD_RESET: the reset that RESET with TARGET 1 asked for, 1 ms after its response (R494, R495). -/
def coldResetEff (d : Device) : Device :=
  match d.resets.find? (·.cold) with
  | none => d
  | some r => if d.phase = .held then d else (d.by r.at_).coldReset r.cause 0 false
/-- COLD_RESET (R494). -/
def execColdReset (s : State) : Host.Outcome State Fault Refusal := onDev coldResetEff s

/-! ### The WARM reset (R496, R497) -/

/-- Every Write-Combining Buffer entry is flushed: data channels first, and then the parity rows they changed (R318, R328). -/
def Device.flushAll (d : Device) : Device :=
  let one := fun (d : Device) (c : Nat) => ((d.chan c).wcb.map (·.key)).foldl (fun d k => d.flush c k) d
  let parity := (List.range 4).map fun g => lChan g 16
  (((d.tiers.chans.map (·.1)).filter fun c => !parity.contains c) ++ parity).foldl one d

/-- A running self-test ends ABORTED (R422, R423). -/
def Device.abortTest (d : Device) : Device :=
  if d.mgmt.test.result = 3 then
    { d with mgmt := { d.mgmt with test := { d.mgmt.test with result := 2, todo := [], running := [] } } }.raiseDev 0x0008 2
  else d

/-- Every rewrite in progress is abandoned (R107, R209, R496). -/
def Device.dropRewrites (d : Device) : Device :=
  d.indexes.foldl (fun d p =>
    let us := if p.2.kind == .graph then (p.2.graph.groups.filter (·.2.rewrite.isSome)).map (·.1) else (p.2.cells.filter (·.2.rewrite.isSome)).map (·.1)
    us.foldl (fun d u => d.abandonRewrite p.1 u false) d) d

/-- WARM_RESET: the reset that RESET with TARGET 2 or the Stitch Arbiter asked for begins its drain: fetching stops, every context is torn
down, accepted writes stay, and controllers flush (R497, R502). -/
def warmResetEff (d0 : Device) : Device :=
  match d0.resets.find? (!·.cold) with
  | none => d0
  | some r =>
    if d0.phase != .ready then d0
    else
      let d := (d0.by r.at_).applyAccepted.abortTest
      let d1 := (d.fns.map (·.1)).foldl (fun d f => d.dropQps f) d
      let d2 := (d1.ctxs.map (·.id)).foldl (fun d i => d.releaseCtx i) { d1 with cmds := [] }
      let d3 := d2.dropRewrites.flushAll
      let d4 := if d3.quiesced then (({ d3 with quiesced := false }).undegrade 3).powerEvent 0x0B 3 0 else d3
      let d5 := (d4.alert 7).alert 6
      { d5 with phase := .draining, resets := [],
                aon := { d5.aon with cause := r.cause, causeRail := 0, bo := { d5.aon.bo with frozen := false } } }
/-- WARM_RESET (R497). -/
def execWarmReset (s : State) : Host.Outcome State Fault Refusal := onDev warmResetEff s

/-- A channel at the end of the drain: its window is over, finished or FAILED (R324, R497). -/
def Channel.drainedBy (k : Channel) (failed : Bool) : Channel :=
  match k.state with
  | .retrain | .replay =>
    { k with state := if failed then .failed else .inService, journal := [], windowAt := none, trigger := none, drained := false, wasFailed := false }
  | _ => { k with trigger := none }

/-- A link as a WARM reset leaves it: down, to be trained again; its counters stay (R496, R575). -/
def Link.warm (k : Link) : Link := { state := if k.clock then .training else .off, clock := k.clock, counters := k.counters }

/-- The shoal as this device knows it after a WARM reset or a quiesce: its identity, and itself as one that returns (R476, R496). -/
def Shoal.rejoin (h : Shoal) : Shoal :=
  { id := h.id, key := h.key, groups := h.groups, members := h.members, mirrored := h.mirrored, device := h.device, epoch := h.epoch,
    dir := tset h.device { state := 1, roles := (tget ({} : Member) h.device h.dir).roles } h.dir, nextTag := h.nextTag }

/-- A job once a WARM reset has cleared the F-tier: a result that was held there is lost (R297, R496; log entry 24). -/
def Job.afterWarm (j : Job) : Job := if j.state == .held then { j with state := .ended 0, area := 0 } else j
/-- F-tier space that an index or a job that goes on holds for itself stays its own; placed copies, spills, staged areas and held results are
discarded (R496). -/
def Device.indexAreas (d : Device) : List Extent :=
  d.tiers.extF.filter fun e => d.indexes.any (fun p => p.2.deltaFBase == e.base) || d.jobs.any fun j => j.afterWarm.area == e.base

/-- The device once a WARM reset has reset the core, the F-tier and the link ports (R494, R496, R534). -/
def Device.warmState (d : Device) : Device :=
  { now := d.now, fresh := d.fresh, out := d.out, mem := d.mem.filter fun c => decide (lBase ≤ c.1) && decide (c.1 < 0x800000000000),
    phase := .warmDone, aon := d.aon,
    power := { tj := d.power.tj, eff := d.power.eff, sensor := d.power.sensor, tjLow := d.power.tjLow, hot := d.power.hot,
               hotF := d.power.hotF, hotL := d.power.hotL },
    ens := { vacantResets := d.ens.vacantResets, takeovers := d.ens.takeovers, fences := d.ens.fences, lastUs := d.ens.lastUs, vacantAt := d.now },
    straps := d.straps, degraded := d.degraded &&& 0x87, profMis := d.profMis, profUn := d.profUn, popMis := d.popMis,
    popFault := d.popFault, strapFault := d.strapFault, fuses := d.fuses, flash := d.flash,
    mgmt := { feat := d.mgmt.feat, test := d.mgmt.test, sec := { unlocked := d.mgmt.sec.unlocked }, slot := d.mgmt.slot, bootAt := some d.now },
    fns := d.fns.map fun p => (p.1, { p.2 with evStatus := 0, qps := [], mb := p.2.mb.clear, latch := none, half := none, heldOut := [] }),
    ports := d.ports,
    burgees := d.burgees.map fun p => (p.1, { p.2 with
      geoWait := false, buckets := p.2.buckets.map (fun k => { k with level := 0 }), placed := [], left := [], groups := [] }),
    geo := d.geo, indexes := d.indexes.map fun p => (p.1, { p.2 with windowUsed := 0 }), models := d.models, model := d.model,
    lastModel := d.lastModel, stamp := d.stamp, scs := d.scs.map fun p => (p.1, { out := p.2.out }),
    mbs := d.mbs.map fun m => { out := m.out }, jobs := d.jobs.map Job.afterWarm, lastJob := d.lastJob, endedJobs := d.endedJobs,
    tiers := { chans := d.tiers.chans.filter fun p => isL p.1, packages := d.tiers.packages, sites := d.tiers.sites, disabled := d.tiers.disabled,
               extF := d.indexAreas, extL := d.tiers.extL, lFault := d.tiers.lFault, draws := d.tiers.draws,
               erased := d.tiers.erased.filter fun e => decide (lBase ≤ e.base) },
    links := d.links.map fun p => (p.1, p.2.warm), shoal := d.shoal.rejoin, tap := d.tap, devCnt := d.devCnt, telem := d.telem }

/-- WARM_DRAIN_DONE: within its 10 ms the L-tier goes to self-refresh and the rest is reset; a drain that misses its bound turns into a
COLD reset (R497). -/
def warmDrainDoneEff (missed : Bool) (unfinished : List Nat) (d : Device) : Device :=
  if d.phase != .draining then d
  else if missed then d.coldReset 6 0 false
  else
    let d1 := { d with tiers := { d.tiers with chans := d.tiers.chans.map fun (p : Nat × Channel) => (p.1, p.2.drainedBy (unfinished.contains p.1)) } }
    d1.warmState.startVolts d.power
/-- WARM_DRAIN_DONE (R497). -/
def execWarmDrainDone (missed : Bool) (unfinished : List Nat) (s : State) : Host.Outcome State Fault Refusal :=
  onDev (warmDrainDoneEff missed unfinished) s

/-! ### Supply monitors (R480, R483, R494) -/

/-- Nominal voltage in mV and tolerance in thousandths of each rail, in the row order of R480; a VCORE rail's is its setpoint's. -/
def Device.railSpec (d : Device) (rail : Nat) : Nat × Nat :=
  match rail with
  | 0 => (850, 30) | 1 => (1800, 50) | 2 => (1800, 50)
  | 3 => (d.power.h0.vset, 10) | 4 => (d.power.h1.vset, 10)
  | 5 => (800, 20) | 6 => (750, 20) | 7 => (1100, 30) | 8 => (500, 25) | 9 => (750, 20) | _ => (1200, 30)
/-- A rail's absolute maximum in mV (R554). -/
def railMax : Nat → Nat
  | 0 => 950 | 1 => 2000 | 2 => 2000 | 3 => 950 | 4 => 950 | 5 => 900 | 6 => 850 | 7 => 1250 | 8 => 600 | 9 => 850 | _ => 1350
/-- How a reading leaves its rail's tolerance: 1 below, 2 above; a VCORE reading counts only above (R483, R520). -/
def Device.railOut (d : Device) (rail mv : Nat) : Option Nat :=
  let (n, t) := d.railSpec rail
  if n * (1000 + t) < mv * 1000 then some 2
  else if mv * 1000 < n * (1000 - t) && rail != 3 && rail != 4 then some 1
  else none

/-- RAIL_FAULT: a reading outside its tolerance for 10 µs. VAUX or a rail of group C or P: a COLD reset; VIO or VFUSE: the sideband and
fuse writes are refused (R483). Groups C and P are judged while SYS_PWROK is asserted (R481). -/
def railFaultEff (rail mv : Nat) (d : Device) : Device :=
  if !d.aon.vaux || 11 ≤ rail then d
  else match d.railOut rail mv with
    | none => d
    | some kind =>
      if rail = 1 || rail = 2 then
        let d1 := (d.recordFault rail kind mv)
        let d2 := { d1 with aon := { d1.aon with vioOut := d1.aon.vioOut || rail == 1, vfuseOut := d1.aon.vfuseOut || rail == 2 } }
        if d2.ens.holder.isSome then d2.powerEvent 0x0E 3 rail else d2
      else if rail != 0 && !d.aon.sysPwrok then d
      else (d.recordFault rail kind mv).railReset 2 rail
/-- RAIL_FAULT (R483); a reading beyond the absolute maximum ratings faults: no statement of the spec holds there (R554). -/
def execRailFault (rail mv : Nat) (s : State) : Host.Outcome State Fault Refusal :=
  if s.dev.aon.vaux && decide (rail < 11) && decide (railMax rail < mv) then .fault .beyondRating else onDev (railFaultEff rail mv) s

/-- RAIL_RETURN: VIO or VFUSE is back within its tolerance (R483). -/
def railReturnEff (rail mv : Nat) (d : Device) : Device :=
  if (d.railOut rail mv).isSome then d
  else if rail = 1 then { d with aon := { d.aon with vioOut := false } }
  else if rail = 2 then { d with aon := { d.aon with vfuseOut := false } }
  else d
/-- RAIL_RETURN (R483). -/
def execRailReturn (rail mv : Nat) (s : State) : Host.Outcome State Fault Refusal := onDev (railReturnEff rail mv) s

/-- RESET_HOLD_RELEASE: every rail has been back in tolerance for 1 ms: start-up is next, without a new edge of SYS_PWROK (R494). -/
def resetHoldReleaseEff (d : Device) : Device :=
  if d.aon.railHold && d.powered && !d.aon.trip then
    { d with phase := .coldDone, aon := { d.aon with railHold := false }, mgmt := { d.mgmt with bootAt := some d.now } }
  else d
/-- RESET_HOLD_RELEASE (R494). -/
def execResetHoldRelease (s : State) : Host.Outcome State Fault Refusal := onDev resetHoldReleaseEff s

/-- VAUX_POWER_UP: the always-on domain starts and samples SMB_ADDR (R537, R548). -/
def vauxPowerUpEff (smbAddr : Nat) (d : Device) : Device :=
  if d.aon.vaux then d
  else { fresh := d.fresh, out := d.out, fuses := d.fuses, flash := d.flash, tiers := { draws := d.tiers.draws },
         aon := { smbAddr := smbAddr % 4, memrefOk := d.aon.memrefOk } }
/-- VAUX_POWER_UP (R537). -/
def execVauxPowerUp (smbAddr : Nat) (s : State) : Host.Outcome State Fault Refusal := onDev (vauxPowerUpEff smbAddr) s

/-- VAUX_REMOVED: the always-on domain loses what it keeps: the trip latch, the reset cause, the supply faults and the episode count
(R483, R488, R518). -/
def vauxRemovedEff (d : Device) : Device :=
  if !d.aon.vaux then d
  else { fresh := d.fresh, out := d.out, fuses := d.fuses, flash := d.flash, tiers := { draws := d.tiers.draws },
         aon := { vaux := false, memrefOk := d.aon.memrefOk } }
/-- VAUX_REMOVED (R488). -/
def execVauxRemoved (s : State) : Host.Outcome State Fault Refusal := onDev vauxRemovedEff s

/-! ### Brown-out and quiesce (R491 to R493) -/

/-- A rail voltage lies below a setpoint's reset level (R491). -/
def belowReset (vset mv : Nat) : Bool := decide (mv * 100 < max (85 * vset) 60000)
/-- A rail voltage lies below a setpoint's warning level (R491). -/
def belowWarn (vset mv : Nat) : Bool := decide (mv * 100 < max (92 * vset) (max (85 * vset) 60000 + 1000))
/-- A rail voltage lies above a setpoint's recovery level (R491). -/
def aboveRecover (vset mv : Nat) : Bool := decide (max (92 * vset) (max (85 * vset) 60000 + 1000) + 1000 < mv * 100)

/-- Admission freezes now: bounds that it overlaps are voided, and no pace deficit builds up (R486, R492, R502). -/
def Device.freeze (d : Device) : Device :=
  let d1 := (d.voidAll.modHalf 0 fun h => { h with belowAt := none }).modHalf 1 fun h => { h with belowAt := none }
  { d1 with aon := { d1.aon with bo := { d1.aon.bo with frozen := true, since := d1.now } } }

/-- A warning crossing or SUPPLY_WARN#: an episode starts or continues, and admission freezes where it is not frozen (R492). -/
def Device.brownout (d : Device) (trigger mv : Nat) : Device :=
  if !d.powered || d.phase = .held then d
  else
    let b := d.aon.bo
    let b1 := if b.episode then b else
      { b with episode := true, trigger := trigger, episodes := min 65535 (b.episodes + 1), ts := d.now, frozenNs := 0 }
    let d1 := { d with aon := { d.aon with bo := b1 } }
    let d2 := if b.episode then d1 else d1.alert 3
    if d.phase != .ready || b.frozen || d.quiesced then d2
    else d2.freeze.raiseDev 0x0011 (0x08 + at_ 8 trigger + at_ 16 (mv % 65536))

/-- The meaning of VCORE_WARNING_CROSSING (R492). -/
def execVcoreWarningCrossing (half mv : Nat) (s : State) : Host.Outcome State Fault Refusal :=
  onDev (fun d => if half < 2 && belowWarn (d.power.half half).vset mv then d.brownout half mv else d) s

/-- The meaning of SUPPLY_WARN_ASSERT: SUPPLY_WARN# counts as a warning crossing of both rails; the lower rail's voltage is given
(R482, R492). -/
def execSupplyWarnAssert (mv : Nat) (s : State) : Host.Outcome State Fault Refusal :=
  onDev (fun d => if !d.aon.vaux then d else ({ d with aon := { d.aon with bo := { d.aon.bo with warnPin := true } } }).brownout 2 mv) s

/-- VCORE_RESET_LEVEL: a supply fault and a COLD reset; a drain turns into one (R492, R494, R497). -/
def vcoreResetLevelEff (half mv : Nat) (d : Device) : Device :=
  if 2 ≤ half || !d.aon.vaux || !d.aon.sysPwrok || !belowReset (d.power.half half).vset mv then d
  else (d.recordFault (3 + half) 3 mv).railReset 3 (3 + half)
/-- VCORE_RESET_LEVEL (R492). -/
def execVcoreResetLevel (half mv : Nat) (s : State) : Host.Outcome State Fault Refusal := onDev (vcoreResetLevelEff half mv) s

/-- Both rails lie above their recovery levels (R491). -/
def Device.recovered (d : Device) (v0 v1 : Nat) : Bool := aboveRecover d.power.h0.vset v0 && aboveRecover d.power.h1.vset v1

/-- Lane retrains that became due during a freeze start (R445). -/
def Device.dueRetrains (d : Device) : Device :=
  d.links.foldl (fun d p => [0, 1].foldl (fun d i => if (p.2.lane i).retrainDue then d.retrainLane p.1 i else d) d) d

/-- BROWNOUT_RECOVERY: the freeze lifts when both rails have been above their recovery levels for 10 µs with SUPPLY_WARN# deasserted, before
5 ms of frozen time (R492). -/
def brownoutRecoveryEff (v0 v1 : Nat) (d : Device) : Device :=
  if !d.aon.bo.frozen || d.quiesced || !d.recovered v0 v1 then d
  else
    let d1 := d.by (d.aon.bo.since + 10000)
    let b := d1.aon.bo
    let t := b.frozenNs + (d1.now - b.since)
    if 5000000 ≤ t then d
    else ({ d1 with aon := { d1.aon with bo := { b with frozen := false, frozenNs := t, warnPin := false } } }).dueRetrains
/-- BROWNOUT_RECOVERY (R492). -/
def execBrownoutRecovery (v0 v1 : Nat) (s : State) : Host.Outcome State Fault Refusal := onDev (brownoutRecoveryEff v0 v1) s

/-- BROWNOUT_EPISODE_END: both rails have been above their recovery levels for 1 ms: the episode ends with its length in µs
(R490, R492). -/
def brownoutEpisodeEndEff (v0 v1 : Nat) (d : Device) : Device :=
  let b := d.aon.bo
  if !b.episode || (b.frozen && !d.quiesced) || !d.recovered v0 v1 then d
  else
    let d1 := d.by (b.ts + 1000000)
    let d2 := { d1 with aon := { d1.aon with bo := { b with episode := false, warnPin := false } } }
    if d.phase = .ready then d2.powerEvent 0x09 b.trigger (min 65535 ((d1.now - b.ts) / 1000)) else d2
/-- BROWNOUT_EPISODE_END (R492). -/
def execBrownoutEpisodeEnd (v0 v1 : Nat) (s : State) : Host.Outcome State Fault Refusal := onDev (brownoutEpisodeEndEff v0 v1) s

/-- QUIESCE: frozen time reaches 5 ms with the rails above the reset level: steps 1 to 6 of R493. -/
def quiesceEff (mv : Nat) (d0 : Device) : Device :=
  let b := d0.aon.bo
  if !b.frozen || d0.quiesced || d0.phase != .ready then d0
  else
    let d := d0.by (b.since + (5000000 - b.frozenNs))
    let d1 := ((d.cmds.filter fun c => c.op.isSearch && c.phase == .active).map (·.stamp)).foldl (fun d s => (d.cmd? s).elim d d.cutCmd) d
    let d2 := ((d1.cmds.filter fun c => c.op == .get || (c.op.isWrite && c.accepted.isNone)).map (·.stamp)).foldl (fun d s => d.endCmd s stQuiesced) d1
    let d3 := ((d2.ctxs.filter (·.cmd.isNone)).map (·.id)).foldl (fun d i => d.releaseCtx i) d2
    let d4 := d3.flushAll
    let d5 := if d4.inShoal then d4.notifyHolders 2 d4.shoal.device 0 else d4
    ({ d5 with quiesced := true }.degrade 3).powerEvent 0x0A b.trigger (mv : Nat)
/-- QUIESCE (R493). -/
def execQuiesce (mv : Nat) (s : State) : Host.Outcome State Fault Refusal := onDev (quiesceEff mv) s

/-- QUIESCE_END: both rails have been above their recovery levels for 100 ms: the data path resumes, jobs restart from their checkpoints
and a shoal member rejoins (R296, R476, R493). -/
def quiesceEndEff (v0 v1 : Nat) (d0 : Device) : Device :=
  if !d0.quiesced || !d0.recovered v0 v1 then d0
  else
    let d := d0.by (d0.aon.bo.since + 100000000)
    let d1 := { d with quiesced := false, aon := { d.aon with bo := { d.aon.bo with frozen := false } } }
    let d2 := (d1.undegrade 3).powerEvent 0x0B 3 0
    let d3 := d2.restartJobs.dueRetrains
    if d3.inShoal then { d3 with shoal := d3.shoal.rejoin } else d3
/-- QUIESCE_END (R493). -/
def execQuiesceEnd (v0 v1 : Nat) (s : State) : Host.Outcome State Fault Refusal := onDev (quiesceEndEff v0 v1) s

/-! ### The adaptive voltage loop and pace (R23, R484, R486) -/

/-- Position and value of the lowest count. -/
def lowest : List Nat → Nat × Nat
  | [] => (0, 0)
  | x :: xs => ((List.range xs.length).foldl (fun (p : Nat × Nat) i => if xs.getD i 0 < p.2 then (i + 1, xs.getD i 0) else p) (0, x))

/-- The setpoint after one AVL decision on a measured count of handshake cycles in 10 µs (R484). -/
def avlNext (frozen : Bool) (reff count vset : Nat) : Nat :=
  if frozen then vset
  else if count < reff * 500 && vset < 850 then vset + 5
  else if reff * 500 + 200 < count && 620 < vset then vset - 5
  else vset

/-- AVL_TICK: a half's Pace Counters over the last 10 µs and the regulator's readings set its pace, its setpoint and the timers of a pace
deficit (R23, R484, R486, R515). -/
def avlTickEff (half : Nat) (counts : List Nat) (vread iread : Nat) (d : Device) : Device :=
  let p := d.power.half half
  if 2 ≤ half || counts.length != 32 || !p.loopEn then d
  else
    let (i, n) := lowest counts
    let v := avlNext d.frozen d.reff n p.vset
    let low := decide (850 ≤ v) && decide (n < 16000) && decide (32 ≤ d.reff) && !d.frozen
    let d1 := d.modHalf half fun p => { p with
      vset := v, vread := vread, iread := iread, pace := n, slowest := 32 * half + i,
      belowAt := if low then p.belowAt.or (some d.now) else none,
      aboveAt := if 16000 ≤ n then p.aboveAt.or (some d.now) else none }
    if v = p.vset then d1
    else
      let c := d1.devCnt
      { d1.emit (.avs half v) with devCnt := if p.vset < v then { c with avlUp := c.avlUp + 1 } else { c with avlDown := c.avlDown + 1 } }
/-- AVL_TICK (R484). -/
def execAvlTick (half : Nat) (counts : List Nat) (vread iread : Nat) (s : State) : Host.Outcome State Fault Refusal :=
  onDev (avlTickEff half counts vread iread) s

/-- PACE_DEFICIT: the condition has held for 100 µs (R486, R489). -/
def paceDeficitEff (half : Nat) (d : Device) : Device :=
  let p := d.power.half half
  match p.belowAt with
  | none => d
  | some t =>
    if 2 ≤ half || p.deficit then d
    else
      let d1 := (d.by (t + 100000)).voidAll
      (d1.modHalf half fun p => { p with deficit := true, deficitAt := d1.now, deficitDeg := false }).powerEvent 0x06 half (p.pace / 100 : Nat)
/-- PACE_DEFICIT (R486). -/
def execPaceDeficit (half : Nat) (s : State) : Host.Outcome State Fault Refusal := onDev (paceDeficitEff half) s

/-- PACE_DEFICIT_DEGRADED: the deficit has lasted 100 ms (R486). -/
def paceDeficitDegradedEff (half : Nat) (d : Device) : Device :=
  let p := d.power.half half
  if 2 ≤ half || !p.deficit then d
  else ((d.by (p.deficitAt + 100000000)).modHalf half fun p => { p with deficitDeg := true }).degrade 4
/-- PACE_DEFICIT_DEGRADED (R486). -/
def execPaceDeficitDegraded (half : Nat) (s : State) : Host.Outcome State Fault Refusal := onDev (paceDeficitDegradedEff half) s

/-- PACE_RESTORED: the measured rate has been at or above the floor for 1 s (R486). -/
def paceRestoredEff (half : Nat) (d : Device) : Device :=
  let p := d.power.half half
  match p.aboveAt with
  | none => d
  | some t =>
    if 2 ≤ half || !p.deficit then d
    else
      let d1 := (d.by (t + 1000000000)).modHalf half fun p => { p with deficit := false, deficitDeg := false }
      let d2 := if (d1.power.half (1 - half)).deficitDeg then d1 else d1.undegrade 4
      d2.powerEvent 0x07 half (p.pace / 100 : Nat)
/-- PACE_RESTORED (R486). -/
def execPaceRestored (half : Nat) (s : State) : Host.Outcome State Fault Refusal := onDev (paceRestoredEff half) s

/-! ### The envelope and temperature (R485, R487, R488) -/

/-- A deep throttle begins or ends with Reff: its event, and the bounds it voids (R485, R489, R490). -/
def Device.deepCheck (d : Device) : Device :=
  if 32 ≤ d.reff then { d with power := { d.power with deep := false } }
  else if d.power.deep then d
  else ({ d with power := { d.power with deep := true } }).voidAll.powerEvent 0x05 2 (d.reff : Nat)

/-- POWER_SAMPLE: every 100 µs, from the ADC readings in mV, the VCORE voltages read over AVSBus and the rails' currents in 0.1 A
(R487, R516, R520). -/
def powerSampleEff (adc : List Nat) (v0 v1 : Nat) (amps : List Nat) (d : Device) : Device :=
  if d.phase != .ready || adc.length != 11 || amps.length != 11 then d
  else
    let volts := fun (i : Nat) => if i = 3 then v0 else if i = 4 then v1 else adc.getD i 0
    let s := lsum ((List.range 11).map fun i => volts i * amps.getD i 0)
    let ss := (s :: d.power.samples).take 100
    let low := decide (lsum ss * 20 < 19 * d.envelope * 10000 * ss.length)
    { d with aon := { d.aon with railMv := adc },
             power := { d.power with samples := ss, calm := if low then d.power.calm + 1 else 0 } }
/-- POWER_SAMPLE (R487). -/
def execPowerSample (adc : List Nat) (v0 v1 : Nat) (amps : List Nat) (s : State) : Host.Outcome State Fault Refusal :=
  onDev (powerSampleEff adc v0 v1 amps) s

/-- ENVELOPE_TICK: every 1 ms Renv falls while P10 exceeds the envelope, and rises after 10 ms of samples below 0.95 of it (R487). -/
def envelopeTickEff (d : Device) : Device :=
  let p := d.power
  if d.phase != .ready then d
  else if d.envelope * 10000 * p.samples.length < lsum p.samples && 20 < p.renv then
    let d1 := { d with power := { p with renv := p.renv - 1, calm := 0 } }
    (if p.renv = 44 then d1.powerEvent 0x01 2 (p.renv - 1 : Nat) else d1).deepCheck
  else if 100 ≤ p.calm && p.renv < 44 then
    let d1 := { d with power := { p with renv := p.renv + 1, calm := 0 } }
    (if p.renv = 43 then d1.powerEvent 0x02 2 44 else d1).deepCheck
  else d
/-- ENVELOPE_TICK (R487). -/
def execEnvelopeTick (s : State) : Host.Outcome State Fault Refusal := onDev envelopeTickEff s

/-- The highest of some readings, in 0.25 °C, and its position. -/
def hottest : List Int → Nat × Int
  | [] => (0, 0)
  | x :: xs => ((List.range xs.length).foldl (fun (p : Nat × Int) i => if p.2 < xs.getD i 0 then (i + 1, xs.getD i 0) else p) (0, x))

/-- Rtherm at a 1 ms tick, and the ticks in a row below 97 °C: down while the throttle condition holds, at most 1.60 from 105 °C, up every
10 ms below 97 °C (R488). -/
def thermNext (hot : Bool) (eff : Int) (rtherm cool : Nat) : Nat × Nat :=
  if hot then (max 20 (if 420 ≤ eff then min 32 (rtherm - 1) else rtherm - 1), 0)
  else if eff < 388 then (if 9 ≤ cool then (min 44 (rtherm + 1), 0) else (rtherm, cool + 1))
  else (rtherm, 0)

/-- THERMAL_TICK: the 72 die sensors and the four stacks are read, each in 0.25 °C, and the responses of R488 follow once the device
is up. -/
def thermalTickEff (sensors stackTemps : List Int) (d : Device) : Device :=
  if !d.aon.vaux || sensors.length != 72 || stackTemps.length != 4 then d
  else
    let (n, tj) := hottest sensors
    let eff := stackTemps.foldl (fun m t => max m (t + 20)) tj
    let low := decide (tj < tjMin)
    let d1 := { d with power := { d.power with tj := tj, eff := eff, sensor := n, tjLow := low } }
    if d.phase != .ready then d1
    else
      let d2 := if low && !d.power.tjLow then d1.powerEvent 0x0C 3 tj else d1
      let d3 := d2.setHot
      let (r, c) := thermNext d3.power.hot eff d3.power.rtherm d3.power.cool
      let d4 := { d3 with power := { d3.power with rtherm := r, cool := c } }
      let d5 := if r = 44 && d3.power.rtherm < 44 then d4.powerEvent 0x04 3 tj else d4
      let d6 := if 420 ≤ eff then d5.degrade 5 else if eff < 412 then d5.undegrade 5 else d5
      d6.deepCheck
/-- THERMAL_TICK (R488). -/
def execThermalTick (sensors stackTemps : List Int) (s : State) : Host.Outcome State Fault Refusal := onDev (thermalTickEff sensors stackTemps) s

/-- THERMAL_TRIP: a temperature at 115 °C or above for 1 µs latches THERMTRIP# and holds the device in COLD reset until VAUX is removed
(R488, R494). -/
def thermalTripEff (t : Int) (d : Device) : Device :=
  if !d.aon.vaux || d.aon.trip || t < 460 then d
  else
    let d1 := ({ d with aon := { d.aon with trip := true } }).alert 9
    if d.phase = .held then d1 else d1.coldReset 4 0 true
/-- THERMAL_TRIP (R488). -/
def execThermalTrip (t : Int) (s : State) : Host.Outcome State Fault Refusal := onDev (thermalTripEff t) s

/-! ### Reference clocks (R552) -/

/-- MEMREFCLK_LOSS: as SYS_PWROK deasserted (R552). -/
def memrefclkLossEff (d : Device) : Device :=
  if !d.aon.memrefOk then d
  else if !d.powered then { d with aon := { d.aon with memrefOk := false } }
  else
    let s := d.coldState.startVolts d.power
    { s with phase := .held, aon := { s.aon with memrefOk := false, railHold := false } }
/-- MEMREFCLK_LOSS (R552). -/
def execMemrefclkLoss (s : State) : Host.Outcome State Fault Refusal := onDev memrefclkLossEff s
/-- MEMREFCLK_RETURN: the clock back for 100 µs acts as the rising edge of SYS_PWROK (R552). -/
def memrefclkReturnEff (d : Device) : Device :=
  if d.aon.memrefOk then d
  else
    let d1 := { d with aon := { d.aon with memrefOk := true } }
    if !d.aon.vaux || !d.aon.sysPwrok || d.tap.heldRise then d1 else d1.riseReset
/-- MEMREFCLK_RETURN (R552). -/
def execMemrefclkReturn (s : State) : Host.Outcome State Fault Refusal := onDev memrefclkReturnEff s

/-- PE_REFCLK_LOSS: every port's link goes down, and R402 applies to each (R552). -/
def peRefclkLossEff (d : Device) : Device :=
  ((List.range 4).filter fun p => (d.ports.getD p {}).up).foldl (fun d p => hostLossEff p d) d
/-- PE_REFCLK_LOSS (R552). -/
def execPeRefclkLoss (s : State) : Host.Outcome State Fault Refusal := onDev peRefclkLossEff s

/-- QCLK_LOSS: both links of the quad drop with cause DOWN_LOS and stay in electrical idle (R552). -/
def qclkLossEff (m : Nat) (d : Device) : Device :=
  if 16 ≤ m then d
  else [2 * m, 2 * m + 1].foldl (fun d l => (d.dropLink l 0x02).modLink l fun k => { k with state := .off, clock := false }) d
/-- QCLK_LOSS (R552). -/
def execQclkLoss (m : Nat) (s : State) : Host.Outcome State Fault Refusal := onDev (qclkLossEff m) s
/-- QCLK_RETURN: the clock back for 1 ms lets the quad's links train (R552). -/
def qclkReturnEff (m : Nat) (d : Device) : Device :=
  if 16 ≤ m then d
  else [2 * m, 2 * m + 1].foldl (fun d l => d.modLink l fun k =>
    if k.clock then k else { k with clock := true, state := .training, startAt := d.now }) d
/-- QCLK_RETURN (R552). -/
def execQclkReturn (m : Nat) (s : State) : Host.Outcome State Fault Refusal := onDev (qclkReturnEff m) s

end Sys2Proof.Machine
end

