-- ==== Sys2Proof/Machine/Ensign.lean ====
section
/-! DEFINITION. The Stitch Arbiter: health words, takeover, fences and vacancy of the Ensign, and MP resets (R33, R410, R432, R494, R499,
R500). MPh is the management processor of half h. -/

namespace Sys2Proof.Machine

/-- A health word changed. -/
def Ensign.modHealth (e : Ensign) (m : Nat) (g : Health → Health) : Ensign :=
  if m = 0 then { e with health0 := g e.health0 } else { e with health1 := g e.health1 }
/-- The firmware version an MP runs set. -/
def Ensign.setVersion (e : Ensign) (m v : Nat) : Ensign := if m = 0 then { e with version0 := v } else { e with version1 := v }

/-- The MPs run: start-up is over. -/
def Device.mpsRun (d : Device) : Bool := d.phase == .ready

/-- An MP reset: the MP boots the running image again and rejoins as shadow when its word shows STATE 1 (R494, R500). -/
def Device.mpReset (d : Device) (m : Nat) : Device :=
  let e := (d.ens.modHealth m fun _ => { at_ := d.now }).setVersion m (d.imageVersion d.mgmt.slot)
  { d with ens := { e with shadowHalted := false, shadowPc := 0 } }

/-- Requests that had been started and not answered start again from the beginning under the new holder (R410). -/
def Mailbox.restart (b : Mailbox) : Mailbox :=
  { b with slots := b.slots.map fun p => (p.1, if p.2 == .started then .waiting else p.2) }
/-- Every mailbox's started requests start again (R410). -/
def Device.restartRequests (d : Device) : Device :=
  { d with fns := d.fns.map (fun p => (p.1, { p.2 with mb := p.2.mb.restart })), sideMb := d.sideMb.restart,
           burgees := d.burgees.map (fun p => (p.1, { p.2 with geoWait := false })),
           mgmt := { d.mgmt with geoWrite := none }, shoal := { d.shoal with waitAdmin := none },
           jobs := d.jobs.map (fun j => { j with stopReq := [] }),
           tiers := { d.tiers with chans := d.tiers.chans.map (fun p => (p.1, { p.2 with retrainReq := [] })) } }

/-- An MP takes the Ensign: requests start again and jobs restart from their checkpoints (R296, R410). -/
def Device.seat (d : Device) (m : Nat) : Device :=
  ({ d with ens := { d.ens with holder := some m, fenced := false, vacantResets := 0 } }).restartRequests.restartJobs

/-- The instant from which a health word reports failure: now where a bit or its STATE says so, else 5 ms after its last change of SEQ
(R499). -/
def Device.byFailure (d : Device) (m : Nat) : Device :=
  let h := d.ens.health m
  if h.state = 4 || h.watchdog || h.memFault || h.imageFault then d else d.by (h.at_ + 5000000)

/-- The running image becomes that of another slot. -/
def Device.runSlot (d : Device) (s : Nat) : Device :=
  { d with mgmt := { d.mgmt with slot := s }, flash := { d.flash with nextBoot := some s } }

/-- A failed probation: the running image is again the one that ran before (R432). -/
def Device.rollBack (d : Device) : Device :=
  match d.ens.activation with
  | some a => if a.probation then (({ d with ens := { d.ens with activation := none } }).runSlot a.old).raiseDev 0x000B a.old
              else { d with ens := { d.ens with activation := none } }
  | none => d

/-- HEALTH_WORD_WRITE: an MP writes its word in the layout of R499. A claim of the Ensign while none holds it seats the MP; a word that
reports health ends DEGRADED cause ENSIGN_UNHEALTHY (R500). A shadow that debug has halted writes nothing (R568; DEDUCED, log entry 32). -/
def healthWordWriteEff (m : Nat) (w : W32) (d : Device) : Device :=
  if 2 ≤ m || !d.mpsRun || (d.ens.shadowHalted && d.ens.holder == some (1 - m)) then d
  else
    let n := w.toNat
    let old := d.ens.health m
    let seq := bits 31 16 n
    let h : Health := { seq := seq, state := bits 15 8 n, watchdog := n.testBit 3, memFault := n.testBit 2, imageFault := n.testBit 1,
                        stale := n.testBit 0, at_ := if seq = old.seq then old.at_ else d.now }
    let d1 := { d with ens := d.ens.modHealth m fun _ => h }
    let d2 := if h.failed d.now then d1 else d1.undegrade 6
    if h.state = 2 && d2.ens.holder.isNone && !d2.ens.fenced && !h.failed d.now then d2.seat m else d2
/-- HEALTH_WORD_WRITE (R499). -/
def execHealthWordWrite (m : Nat) (w : W32) (s : State) : Host.Outcome State Fault Refusal := onDev (healthWordWriteEff m w) s

/-- HOLDER_FAILURE: the shadow takes the Ensign unless its own word reports failure or staleness; the failed MP is reset. During probation
this is a rollback (R432, R500). -/
def holderFailureEff (d : Device) : Device :=
  match d.ens.holder with
  | none => d
  | some h =>
    if d.ens.fenced || !d.mpsRun then d
    else
      let d1 := (d.byFailure h).rollBack
      let s := d1.ens.health (1 - h)
      let d2 := d1.mpReset h
      if s.failed d1.now || s.stale || s.state != 1 then { d2 with ens := { d2.ens with holder := none, vacantAt := d2.now } }
      else ({ d2 with ens := { d2.ens with takeovers := min 65535 (d2.ens.takeovers + 1) } }).seat (1 - h)
/-- HOLDER_FAILURE (R500). -/
def execHolderFailure (s : State) : Host.Outcome State Fault Refusal := onDev holderFailureEff s

/-- DOUBLE_CLAIM: both MPs are fenced and the mailboxes held; a live activation is abandoned and the running image kept
(R410, R500, R502). -/
def doubleClaimEff (d : Device) : Device :=
  if d.ens.holder.isNone || d.ens.fenced || !d.mpsRun then d
  else
    { d with ens := { d.ens with fenced := true, fencedAt := d.now, activation := none } }
/-- DOUBLE_CLAIM (R500). -/
def execDoubleClaim (s : State) : Host.Outcome State Fault Refusal := onDev doubleClaimEff s

/-- ENSIGN_FENCE_END: the senior half's MP takes the Ensign unless only its word reports failure; where both do, it does, and the device is
degraded; the other MP is reset, and the fence's length in µs, at most 10,000, is reported (R500, R521). -/
def ensignFenceEndEff (d : Device) : Device :=
  if !d.ens.fenced then d
  else
    let us := min 10000 ((d.now - d.ens.fencedAt) / 1000)
    let bad := fun m => (d.ens.health m).failed d.now
    let both := bad 0 && bad 1
    let w := if both then d.straps.senior else d.senior
    let d1 := { d with ens := { d.ens with fences := min 65535 (d.ens.fences + 1), lastUs := us } }
    let d2 := (d1.mpReset (1 - w)).seat w
    let d3 := if both then d2.degrade 6 else d2
    d3.raiseDev 0x0001 us
/-- ENSIGN_FENCE_END (R500). -/
def execEnsignFenceEnd (s : State) : Host.Outcome State Fault Refusal := onDev ensignFenceEndEff s

/-- The boot of a live activation fails: the shadow returns to the running image, and the command completes with INVALID_FIELD and detail
IMAGE_MISMATCH (R431). -/
def Device.activationFails (d : Device) : Device :=
  match d.ens.activation with
  | some a => if a.probation then d
              else ({ d with ens := { d.ens with activation := none } }).respond a.req.1 a.req.2 stInvalidField 0x000C 0 0
  | none => d

/-- SHADOW_FAILURE: the holder continues and the shadow is reset (R500); a live activation still booting in it fails (R431). -/
def shadowFailureEff (d : Device) : Device :=
  match d.ens.holder with
  | none => d
  | some h => if d.ens.fenced || !d.mpsRun then d else ((d.byFailure (1 - h)).activationFails).mpReset (1 - h)
/-- SHADOW_FAILURE (R500). -/
def execShadowFailure (s : State) : Host.Outcome State Fault Refusal := onDev shadowFailureEff s

/-- ENSIGN_VACANT: no MP has held the Ensign for 100 ms: both MPs are reset; after three such resets the Stitch Arbiter asks for a WARM
reset (R500, R519). -/
def ensignVacantEff (d : Device) : Device :=
  if d.ens.holder.isSome || d.ens.fenced || !d.mpsRun then d
  else
    let d1 := d.by (d.ens.vacantAt + 100000000)
    if d1.ens.vacantResets < 3 then
      let d2 := (d1.mpReset 0).mpReset 1
      { d2 with ens := { d2.ens with vacantResets := d2.ens.vacantResets + 1, vacantAt := d2.now } }
    else { d1 with resets := d1.resets ++ [{ cold := false, cause := 8, at_ := d1.now }] }
/-- ENSIGN_VACANT (R500). -/
def execEnsignVacant (s : State) : Host.Outcome State Fault Refusal := onDev ensignVacantEff s

/-- The meaning of MP_RESET: one MP is reset; the holder's reset leaves the Ensign to a shadow that can take it (R494, R500). -/
def execMpReset (m : Nat) (s : State) : Host.Outcome State Fault Refusal :=
  onDev (fun d =>
    if 2 ≤ m || !d.mpsRun then d
    else if d.ens.holder = some m then holderFailureEff { d with ens := d.ens.modHealth m fun h => { h with state := 4 } }
    else d.mpReset m) s

end Sys2Proof.Machine
end

