-- ==== Sys2Proof/Machine/StartUp.lean ====
section
/-! DEFINITION. Start-up after a COLD or a WARM reset (R312, R333, R366, R427, R498, R552, R569), and the whole-device erase that a sanitise
and start-up share (R424, R425, R437). -/

namespace Sys2Proof.Machine

/-! ### Erase (R424, R425, R437) -/

/-- Keys are drawn anew for every burgee: whatever either tier held reads as unknown (R437). -/
def Device.eraseAll (d : Device) : Device :=
  let n := d.tiers.draws + 1
  let d1 := { d with tiers := { d.tiers with draws := n } }
  let d2 := (d1.erase 0 d1.fCap n).erase lBase (d1.lEnd - lBase) n
  { d2 with burgees := d2.burgees.map fun p => (p.1, if p.2.keyEpoch = 0 then p.2 else { p.2 with keyEpoch := n }) }

/-- Bytes an overwrite of both tiers covers, F-tier first. -/
def Device.tierBytes (d : Device) : Nat := d.fCap + (d.lEnd - lBase)
/-- The overwrite has written zeros over [lo, hi) of the tiers (R424). -/
def Device.overwrite (d : Device) (lo hi : Nat) : Device :=
  let d1 := d.zero (min lo d.fCap) (min hi d.fCap - min lo d.fCap)
  let l := fun x => lBase + (x - d.fCap)
  d1.zero (l lo) (l hi - l lo)

/-! ### Step 1: straps and profile -/

/-- The straps are sampled, the profile is resolved and HALF_SENIORITY is read (R6, R366, R433, R498, R548). -/
def Device.sampleStraps (d : Device) (b : BootInfo) : Device :=
  let d1 := d.resolveProfile (b.profile % 4)
  { d1 with strapFault := b.portMode % 4 == 3, aon := { d1.aon with testMode := false },
            straps := { d1.straps with portMode := b.portMode % 4, senior := d1.fuses.seniority, sampled := true } }

/-! ### Step 2: firmware -/

/-- The boot ROM takes the slot; the senior half's MP takes the Ensign and the other boots as shadow (R427, R498). -/
def Device.boot (d : Device) (bad : List Nat) : Option Device :=
  (d.bootSlot bad).map fun s =>
    let sn := d.straps.senior
    let h := fun (m : Nat) => ({ seq := 1, state := if m = sn then 2 else 1, at_ := d.now } : Health)
    ({ d with ens := { d.ens with holder := some sn, health0 := h 0, health1 := h 1, version0 := d.imageVersion s, version1 := d.imageVersion s } }).runSlot s

/-! ### Steps 3 and 4: ports, links and memory -/

/-- Ports that a port mode makes (R366). -/
def portsOf (mode : Nat) : List Nat := if mode = 1 then [0, 1] else if mode = 2 then [0, 1, 2, 3] else [0]

/-- L-tier training: the population, each channel's pin marks, and the channels that fail (R37, R317, R325, R333). After a WARM reset the population
stays as the last COLD reset resolved it, and a channel that was out holds stale rows and is rebuilt. -/
def Device.trainL (d : Device) (b : BootInfo) (warm : Bool) : Device :=
  let sites := (List.range 17).filter b.sites.contains
  let pins := fun (c : Nat) => ((b.lBad.filter fun p => p.1 == c).map (·.2)).eraseDups
  let fails := fun (c : Nat) => b.lFailed.contains c || decide (2 ≤ (pins c).length)
  let one := fun (d : Device) (c : Nat) =>
    let was := (d.chan c).state
    let d1 := (d.modChan c fun k => { k with marks := pins c, pointer := 0, recent := [] }).recordMarks c
    if fails c then d1.chanState c .failed
    else if was == .failed || was == .rebuild then d1.chanState c .rebuild
    else d1.modChan c fun k => { k with state := .inService }
  let chans := fun (g : Nat) => sites.map (lChan g)
  let d1 := ((List.range 4).flatMap chans).foldl one (if warm then d else d.resolvePopulation sites)
  { d1 with tiers := { d1.tiers with lFault := (List.range 4).any fun g => decide (2 ≤ ((chans g).filter fails).length) } }

/-- F-tier training: lane repairs, lane-erasure marks and disabled positions, written to the memory repair record (R309, R312). -/
def Device.trainF (d : Device) (b : BootInfo) : Device :=
  let lanes := fun (c pc : Nat) => ((b.fFailing.filter fun p => p.1 == c && p.2 / 64 == pc).map (·.2)).eraseDups
  let cs := (List.range 128).map (68 + ·)
  let old := (d.flash.repairs.filter fun r => decide (256 ≤ r.1)).map fun r => r.1 - 256
  let new := cs.flatMap fun c => ([0, 1].filter fun pc => decide (2 ≤ (lanes c pc).length)).map fun pc => (c - 68) % 32 + 32 * pc
  let bad := (old ++ new).eraseDups
  let marks := fun (c : Nat) => [0, 1].flatMap fun pc => if bad.contains ((c - 68) % 32 + 32 * pc) then [] else lanes c pc
  let kept := d.flash.repairs.filter fun r => decide (r.1 < 256) && (isL r.1 || decide (128 ≤ r.2))
  let fresh := (b.fRepaired.map fun p => (p.1, 128 + p.2)).filter fun r => !kept.contains r
  let d1 := { d with
    flash := { d.flash with repairs := kept ++ fresh ++ (cs.flatMap fun c => (marks c).map fun m => (c, m)) ++ bad.map fun p => (256 + p, 0) },
    tiers := { d.tiers with disabled := (List.range 256).filter fun j => bad.contains (j / 4) } }
  let d2 := cs.foldl (fun d c => d.modChan c fun k => { k with state := .inService, marks := marks c }) d1
  if bad.isEmpty then d2.undegrade 2 else d2.degrade 2

/-- The start-up test's failures leave service (R176, R569). -/
def Device.startTest (d : Device) (b : BootInfo) : Device :=
  let d1 := ((List.range 64).filter b.scFail.contains).foldl (fun d n => d.scOut n) d
  ([0, 1].filter b.mbFail.contains).foldl (fun d h => d.mbOut h) d1

/-- Links begin to train; a quad without its clock and every link of a device with no profile stay in electrical idle
(R6, R444, R552). -/
def Device.startLinks (d : Device) (b : BootInfo) : Device :=
  (List.range 32).foldl (fun d l => d.modLink l fun k =>
    let clock := !b.noQclk.contains (l / 2)
    { k with clock := clock, startAt := d.now, state := if clock && !d.profUn then .training else .off }) d

/-- Memory is trained and every STE enters service (R255, R333). -/
def Device.startMemory (d : Device) (b : BootInfo) (warm : Bool) : Device :=
  let d1 := (d.trainL b warm).trainF b
  { d1 with tiers := { d1.tiers with trained := true },
            streams := (List.range 64).map fun n => (n, { stes := List.replicate 4 { limited := false } }) }

/-! ### Steps 5 and 6 -/

/-- A sanitise that a reset interrupted: ended where the tiers were cleared, and taken up again where the L-tier was kept (R425). -/
def Device.startSanitise (d : Device) (warm : Bool) : Device :=
  let j := d.flash.sanitise
  if j.state != 1 then d
  else if warm then
    let d1 := d.eraseAll
    let d2 := if j.action = 2 || j.action = 3 then d1.overwrite 0 j.offset else d1
    { d2 with flash := { d2.flash with sanitise := { j with keysDone := true, records := j.records ++ [(2, j.offset)] } } }
  else
    ({ d with flash := { d.flash with sanitise := { j with
        state := 2, keysDone := true, powerCycles := j.powerCycles + 1, endTime := d.hostTime, records := j.records ++ [(4, j.offset)] } } }).raiseDev 0x0009 0

/-- READY is set: the loops run, an open brown-out episode freezes admission anew, functions are told after a WARM reset, and port resets that
waited take effect (R484, R493, R498, R502, R534). -/
def Device.setReady (d : Device) (warm : Bool) : Device :=
  let d1 := ({ d with phase := .ready, mgmt := { d.mgmt with bootAt := none } }).alert 6
  let d2 := (d1.modHalf 0 fun h => { h with loopEn := true }).modHalf 1 fun h => { h with loopEn := true }
  let d3 := if d2.aon.bo.episode then ({ d2 with aon := { d2.aon with bo := { d2.aon.bo with frozenNs := 0 } } }).freeze else d2
  let d4 := if warm then (d3.fns.map (·.1)).foldl (fun d f => (d.fnEvent f evQueuesLost).fnEvent f evDeviceReady) d3 else d3
  ((List.range 4).filter fun p => (d4.ports.getD p {}).resetDue).foldl (fun d p => hostLossEff p d) d4

/-- Start-up from step 1 (R498). -/
def Device.startCold (d : Device) (b : BootInfo) : Device :=
  if b.testMode then { d with phase := .held, aon := { d.aon with testMode := true }, mgmt := { d.mgmt with bootAt := none } }
  else
    let d1 := if d.straps.sampled then d else d.sampleStraps b
    match d1.boot b.badSlots with
    | none => { d1 with phase := .noImage, mgmt := { d1.mgmt with bootAt := none } }
    | some d2 =>
      let up := (portsOf d2.straps.portMode).filter b.portsUp.contains
      let d3 := { d2 with ports := (List.range 4).map fun p => { up := up.contains p } }
      let d4 := ((d3.startMemory b false).startTest b).startLinks b
      (d4.settleIntents.restoreGeometry.startSanitise false).setReady false

/-- Start-up from step 3, after a WARM reset: memory is trained again, the F-tier is reloaded, and jobs restart from their checkpoints
(R105, R296, R496, R498). -/
def Device.startWarm (d : Device) (b : BootInfo) : Device :=
  match d.boot b.badSlots with
  | none => { d with phase := .noImage, mgmt := { d.mgmt with bootAt := none } }
  | some d2 =>
    let d3 := (d2.startMemory b true).startLinks b
    let d4 := d3.settleIntents.restoreGeometry
    let d5 := (d4.indexes.map (·.1)).foldl (fun d i => d.reloadF i) d4
    (d5.restartJobs.startSanitise true).setReady true

/-- START_UP (R498): after a COLD reset from step 1, after a WARM reset from step 3. -/
def startUpEff (b : BootInfo) (d : Device) : Device :=
  match d.phase with
  | .coldDone => d.startCold b
  | .warmDone => d.startWarm b
  | _ => d
/-- START_UP (R498). -/
def execStartUp (b : BootInfo) (s : State) : Host.Outcome State Fault Refusal := onDev (startUpEff b) s

end Sys2Proof.Machine
end

