-- ==== Sys2Proof/Machine/Pages.lean ====
section
/-! DEFINITION. The log pages and the telemetry counters (R361, R414, R415, R423, R426, R427, R435, R479, R571 to R576). A page whose bytes no
rule lays out holds its contents as 8 B little-endian words in the order the rule names them (log entry 30). -/

namespace Sys2Proof.Machine

/-- Numbers as 8 B words (log entry 30). -/
def words (ns : List Nat) : List Byte := ns.flatMap (leBytes 8)
/-- A Boolean as a number. -/
def bnum (b : Bool) : Nat := if b then 1 else 0

/-! ### Telemetry counters (R573 to R576) -/

/-- Offsets in the debug window of a group's counters, in window order: 1 the SC blocks, 2 memory, 3 links, 4 the device (R573 to R575). -/
def groupOffsets : Nat → List Nat
  | 1 => (List.range 64).flatMap fun n =>
      let at_ := fun (base k : Nat) => (List.range k).map fun i => 0x20000 + 0x1000 * n + base + 8 * i
      at_ 0 16 ++ ((List.range 4).flatMap fun s => at_ (0x100 + 0x80 * s) 12) ++ at_ 0x300 6 ++ at_ 0x400 64 ++ at_ 0x600 64
  | 2 => (List.range 196).flatMap fun c => (List.range 14).map fun i => 0x60000 + 0x100 * c + 8 * i
  | 3 => (List.range 32).flatMap fun n => (List.range 16).map fun i => 0x70000 + 0x100 * n + 8 * i
  | 4 => (List.range 13).map fun i => 0x80000 + 8 * i
  | _ => []

/-- An SC's engine counter at a place of R574 less what was reported of it. -/
def Device.subSc (d : Device) (n i v : Nat) : Device :=
  match i with
  | 1 => d.modEng n fun e => { e with ftqFull := e.ftqFull - v }
  | 2 => d.modEng n fun e => { e with csqFull := e.csqFull - v }
  | 5 => d.modEng n fun e => { e with ceSkips := e.ceSkips - v }
  | 9 => d.modEng n fun e => { e with descFaults := e.descFaults - v }
  | 10 => d.modEng n fun e => { e with tagMiss := e.tagMiss - v }
  | _ => d.modCnt n fun c => match i with
    | 0 => { c with meBusy := c.meBusy - v }
    | 3 => { c with meTiles := c.meTiles - v }
    | 4 => { c with cePasses := c.cePasses - v }
    | 6 => { c with weCommits := c.weCommits - v }
    | 7 => { c with weSquashes := c.weSquashes - v }
    | 8 => { c with fuGroups := c.fuGroups - v }
    | 11 => { c with poisoned := c.poisoned - v }
    | 12 => { c with timeouts := c.timeouts - v }
    | 13 => { c with lockstep := c.lockstep - v }
    | 14 => { c with yields := c.yields - v }
    | _ => { c with spilled := c.spilled - v }
/-- A memory counter at a place of R574 less what was reported of it. -/
def MemCounters.sub (m : MemCounters) (i v : Nat) : MemCounters :=
  match i with
  | 0 => { m with corrected := m.corrected - v } | 1 => { m with uncorr := m.uncorr - v } | 2 => { m with rebuilds := m.rebuilds - v }
  | 3 => { m with repairs := m.repairs - v } | 4 => { m with windows := m.windows - v } | 5 => { m with winFails := m.winFails - v }
  | 6 => { m with journal := m.journal - v } | 7 => { m with wcbRmw := m.wcbRmw - v } | 8 => { m with nmaOps := m.nmaOps - v }
  | 9 => { m with tagHolds := m.tagHolds - v } | 10 => { m with refused := m.refused - v } | 11 => { m with readsHi := m.readsHi - v }
  | 12 => { m with readsLo := m.readsLo - v } | _ => { m with writes := m.writes - v }
/-- A device counter at a place of R574 less what was reported of it. -/
def DevCounters.sub (c : DevCounters) (i v : Nat) : DevCounters :=
  match i with
  | 0 => { c with sqeFetched := c.sqeFetched - v } | 1 => { c with completions := c.completions - v }
  | 2 => { c with msixSent := c.msixSent - v } | 3 => { c with doorbells := c.doorbells - v }
  | 4 => { c with bar2Refused := c.bar2Refused - v } | 5 => { c with fills := c.fills - v }
  | 6 => { c with evictions := c.evictions - v } | 7 => { c with fCopyReads := c.fCopyReads - v }
  | 8 => { c with mbReruns := c.mbReruns - v } | 9 => { c with avlUp := c.avlUp - v } | 10 => { c with avlDown := c.avlDown - v }
  | 11 => { c with rewritesAbandoned := c.rewritesAbandoned - v } | _ => { c with throttled := c.throttled - v }

/-- CLEAR: a live counter less the value reported; semaphore states are never cleared (R575, R576). -/
def Device.subCounter (d : Device) (off v : Nat) : Device :=
  if v = 0 then d
  else if off < 0x60000 then
    let n := (off - 0x20000) / 0x1000
    let o := off % 0x1000
    if o < 0x80 then d.subSc n (o / 8) v
    else if o < 0x300 then d.modStr n fun s => { s with stes := lmod ((o - 0x100) / 0x80) (fun e => { e with stalls := lmod (o % 0x80 / 8) (· - v) e.stalls }) s.stes }
    else if o < 0x400 then d.modEng n fun e => { e with ve := { e.ve with stalls := lmod ((o - 0x300) / 8) (· - v) e.ve.stalls } }
    else if o < 0x600 then d
    else d.modStr n fun s => { s with sems := tmod {} ((o - 0x600) / 8) (fun p => { p with wait := p.wait - v }) s.sems }
  else if off < 0x70000 then d.modChan ((off - 0x60000) / 0x100) fun k => { k with counters := k.counters.sub (off % 0x100 / 8) v }
  else if off < 0x74000 then d.modLink ((off - 0x70000) / 0x100) fun k => { k with counters := lmod (off % 0x100 / 8) (· - v) k.counters }
  else { d with devCnt := d.devCnt.sub ((off - 0x80000) / 8) v }

/-- The present values of a group's counters. -/
def Device.groupNow (d : Device) (g : Nat) : List (Nat × Nat) :=
  (groupOffsets g).map fun o => (o, ((d.dbgReg o).map (·.2)).getD 0)
/-- The TELEMETRY page of a group: its header and its blocks in window order (R576). -/
def Device.telemetryPage (d : Device) (g : Nat) : List Byte :=
  let s := d.telem.snaps.getD (g - 1) {}
  let vs := if s.values.isEmpty then (groupOffsets g).map fun _ => 0 else s.values.map (·.2)
  fit 64 (leBytes 2 g ++ leBytes 8 s.at_ ++ leBytes 4 s.every) ++ words vs
/-- A group's counters after a CLEAR of what its page reported (R576). -/
def Device.clearGroup (d : Device) (g : Nat) : Device :=
  let s := d.telem.snaps.getD (g - 1) {}
  let d1 := s.values.foldl (fun d p => d.subCounter p.1 p.2) d
  { d1 with telem := { snaps := lmod (g - 1) (fun s => { s with values := s.values.map fun p => (p.1, 0) }) d1.telem.snaps } }

/-! ### Pages of the device -/

/-- IDENTIFY: the device's identity (R405, R411, R508 to R511, R562; log entry 30). -/
def Device.identity (d : Device) : List Byte :=
  words [d.devIdent, d.fuses.serial.toNat % 2 ^ 64, d.fuses.serial.toNat / 2 ^ 64, d.fwVersion, devCap0,
    d.devCap1, Config.manufacturer % 2048]
/-- HEALTH (R414, R428, R436). -/
def Device.healthPage (d : Device) : List Byte :=
  let bad := fun (l : Bool) => ((List.range 196).filter fun c => isL c == l && ((d.chan c).state == .failed || (d.chan c).state == .rebuild)).length
  words [d.degraded.toNat, ((List.range 64).filter fun n => (d.sc n).out).length, bad true, bad false, bnum (d.mb 0).out + 2 * bnum (d.mb 1).out,
    d.straps.inForce, d.tiers.packages, maskOf d.tiers.sites, bnum d.popMis + 2 * bnum d.popFault, d.mgmt.shed.steps, bnum d.flash.writeFail]
/-- EVENTS of a mailbox: its last events, newest first, each as its time and the word of R413, and the discard count (R413, R414). -/
def eventsPage (b : Mailbox) : List Byte := words ((b.received.flatMap fun p => [p.1, eventWord p.2]) ++ [b.evLost])
/-- FIRMWARE (R414, R427). -/
def Device.firmwarePage (d : Device) : List Byte :=
  words ((List.range 3).flatMap fun s => [d.imageVersion s, d.imageSvn s, bnum (d.flash.valid.contains s), bnum (d.mgmt.slot == s)])
/-- A Settings Ledger record's 64 B (R435). -/
def LedgerRec.bytes (r : LedgerRec) : List Byte := r.head ++ fit 16 r.chain
/-- LEDGER from a start record on (R414, R435). -/
def Device.ledgerPage (d : Device) (start : Nat) : List Byte := (d.flash.ledger.drop start).flatMap LedgerRec.bytes
/-- A record of the SELF_TEST page (R571). -/
def SegRec.bytes (r : SegRec) : List Byte :=
  leBytes 1 r.seg.test ++ leBytes 1 (flagAt 0 r.skipped + flagAt 1 r.repaired) ++ leBytes 2 r.seg.res ++ leBytes 2 r.subtest ++ leBytes 2 0 ++
    leBytes 8 r.detail.toNat
/-- SELF_TEST (R423, R571). -/
def Device.selfTestPage (d : Device) : List Byte :=
  let t := d.mgmt.test
  words [t.kind, bnum (t.result == 3), t.result, t.passed, t.failed, t.todo.length + t.running.length] ++ t.records.flatMap SegRec.bytes
/-- Progress of a sanitise in units of 1/65,536 of its work: the overwrite's offset, or all once it is complete (R426). -/
def Device.sanProgress (d : Device) : Nat :=
  let j := d.flash.sanitise
  if j.state = 2 then 65536 else if d.tierBytes = 0 then 0 else min 65536 (j.offset * 65536 / d.tierBytes)
/-- SANITISE (R426). -/
def Device.sanitisePage (d : Device) : List Byte :=
  let j := d.flash.sanitise
  words [j.action, j.state, d.sanProgress, j.powerCycles, j.startTime, j.endTime]
/-- The counters of a client in the order of R361 (R414 ACCOUNTING). -/
def accountWords (a : Account) (waits : List Nat) (waitMax : Nat) : List Byte :=
  words ([a.admBound, a.admBest, a.boundVoid, a.notAdm, a.truncated] ++ ((List.range 22).map fun i => waits.getD i 0) ++
    [waitMax, a.scCycles, a.bytesF, a.bytesL, a.bytesLink, a.bytesSpad, a.regStall, a.preempted, a.spilled, a.parked, a.escapes, a.teardowns])
/-- ACCOUNTING of a client of a burgee: a function, or the background client (R361, R414). -/
def Device.accountPage (d : Device) (b : Nat) (client : Option Nat) : List Byte :=
  let g := d.burgee b
  let k := client.getD 256
  accountWords (client.elim g.bgAccount fun f => (d.fn f).account) (tget [] k g.qwait) (tget 0 k g.qwaitMax)
/-- A client's counters cleared (R363). -/
def Device.clearAccount (d : Device) (b : Nat) (client : Option Nat) : Device :=
  let k := client.getD 256
  let d1 := d.modBurgee b fun g => { g with qwait := tdel k g.qwait, qwaitMax := tdel k g.qwaitMax,
                                            bgAccount := if client.isNone then {} else g.bgAccount }
  client.elim d1 fun f => d1.modFn f fun n => { n with account := {} }
/-- MEMORY: for every channel its state, marks, repairs, retrain windows, and corrected and uncorrectable counts (R414). -/
def Device.memoryPage (d : Device) : List Byte :=
  (List.range 196).flatMap fun c =>
    let k := d.chan c
    words [k.state.code, k.marks.length, (d.flash.repairs.filter fun r => r.1 == c && decide (128 ≤ r.2)).length, k.counters.windows,
      k.counters.corrected, k.counters.uncorr]
/-- The counts of the MEMORY page cleared (R414). -/
def Device.clearMemory (d : Device) : Device :=
  { d with tiers := { d.tiers with chans := d.tiers.chans.map fun (p : Nat × Channel) =>
      (p.1, { p.2 with counters := { p.2.counters with windows := 0, corrected := 0, uncorr := 0 } }) } }
/-- MP_LOAD: the loads of the windows of the last second, the steps engaged, and BUSY_RETRY responses (R414, R420). -/
def Device.loadPage (d : Device) : List Byte :=
  words (((List.range 100).map fun i => d.mgmt.shed.loads.getD i 0) ++ [d.mgmt.shed.steps, d.mgmt.shed.busy])

/-! ### JOB and INDEX (R414, R415) -/

/-- A tensor record of the JOB page: the form that the watch checks first, with any other form of the tensor (R415; log entry 54). -/
def tensorRecord (no : Nat) (fs : List Flow) (pred : Bool) (vFloor : Nat) : List Byte :=
  let sat := fun (n : Nat) => leBytes 4 (min n 0xFFFFFFFF)
  let sum := fun (f : Flow → Nat) => lsum (fs.map f)
  leBytes 2 no ++ leBytes 1 (flagAt 0 (fs.any (·.wide)) + flagAt 1 pred) ++ leBytes 1 0 ++ sat (sum (·.sat)) ++ sat (sum (·.under)) ++
    sat (sum (·.softSat)) ++ sat vFloor ++ sat (sum (·.nfTotal)) ++ leBytes 4 (fs.head?.elim (0 : F32) fun (f : Flow) => f.ratio).toNat ++
    sat (sum (·.drifts))
/-- JOB (R415; log entry 24). -/
def Job.page (j : Job) : List Byte :=
  let sat := fun (n : Nat) => leBytes 4 (min n 0xFFFFFFFF)
  let res := match j.state with | .ended r => r | .held => 0 | _ => 0xFF
  let running := j.state == .running || j.state == .evaluate
  let typ := match j.desc.type with | .codebookFit => 1 | .adapterTrain => 2 | .rerankTune => 3
  let pred := j.desc.predicted && !j.log.leftPred
  fit 64 (leBytes 2 j.id ++ leBytes 1 typ ++ leBytes 1 res ++ leBytes 2 j.desc.indexNo ++
      leBytes 2 (flagAt 0 running + flagAt 1 (j.state == .held) + flagAt 2 (running && pred) + flagAt 3 (j.desc.predicted && j.log.leftPred)) ++
      sat j.step ++ leBytes 4 ((j.ckpts.head?.map (·.step)).getD 0xFFFFFFFF) ++ leBytes 8 j.log.rowsSkipped ++ sat j.log.stepsEmpty ++
      sat j.log.nonfinite ++ sat j.log.replays ++ leBytes 4 j.lossOld.toNat ++ leBytes 4 j.lossNew.toNat ++ leBytes 2 (4 * j.tensors.length)) ++
    ((j.tensors.zip j.layers).zipIdx).flatMap fun p =>
      let t := p.1.1
      let f := fun (k : Nat) => j.flows.getD (4 * p.2 + k) {}
      tensorRecord (4 * p.1.2) [] pred t.vFloor ++ tensorRecord (4 * p.1.2 + 1) [f 0, f 1] pred 0 ++
        tensorRecord (4 * p.1.2 + 2) [f 2] pred 0 ++ tensorRecord (4 * p.1.2 + 3) [f 3, t.grad] pred 0
/-- INDEX (R414). -/
def Index.page (x : Index) : List Byte :=
  fit 256 x.record ++ words ([x.reserved, x.pendingGen, x.filters.length] ++ (x.filters.flatMap fun p => [p.1, p.2.version]) ++
    [x.transforms.length] ++ (x.transforms.map (·.1)))

/-! ### Shoal pages (R479) -/

/-- A link's state as LINKS reports it. -/
def LinkState.code : LinkState → Nat
  | .off => 0 | .training => 1 | .locked => 2 | .held => 3 | .mgmtOnly => 4 | .up => 5
/-- LINKS (R479). -/
def Device.linksPage (d : Device) : List Byte :=
  (List.range 32).flatMap fun n =>
    let k := d.link n
    let lane := fun (a : Lane) => [a.loss, a.reflSize, a.reflAt, a.good, a.low, a.critical]
    words ([k.state.code, bnum k.full, bnum k.lane0.up + 2 * bnum k.lane1.up] ++ lane k.lane0 ++ lane k.lane1 ++
      [k.delay, k.counters.getD 6 0, k.counters.getD 9 0, (k.partner.map (·.device)).getD 0xFFFF])
/-- The counts of LINKS cleared (R479). -/
def Device.clearLinks (d : Device) : Device :=
  let lane := fun (a : Lane) => { a with good := 0, low := 0, critical := 0 }
  { d with links := d.links.map fun (p : Nat × Link) =>
      (p.1, { p.2 with lane0 := lane p.2.lane0, lane1 := lane p.2.lane1, counters := lmod 6 (fun _ => 0) (lmod 9 (fun _ => 0) p.2.counters) }) }
/-- A shoal index's entry in the directory: its mode, maps and SHOAL_VIEW (R464 to R472). -/
def ShoalIndex.words (s : ShoalIndex) : List Nat :=
  [s.no, s.burgee, bnum s.routed, s.view, s.shards.length] ++ (s.shards.flatMap fun p => p.1 :: p.2.length :: p.2) ++ s.homes ++
    [s.refine.length] ++ s.refine.flatMap fun p => [p.1, p.2.1, p.2.2]
/-- SHOAL: the directory, SHOAL_EPOCH, the views, states and holders (R464, R479). -/
def Device.shoalPage (d : Device) : List Byte :=
  let h := d.shoal
  words ([h.id.toNat, h.groups, h.members, bnum h.mirrored, h.device, h.epoch, h.dir.length] ++
    (h.dir.flatMap fun p => [p.1, p.2.state, p.2.roles]) ++ [d.holders.length] ++ d.holders ++ [h.indexes.length] ++ h.indexes.flatMap ShoalIndex.words)
/-- ROUTES: the 256 entries of R460 (R479). -/
def Device.routesPage (d : Device) : List Byte := (List.range 256).flatMap fun p => leBytes 4 (d.routeOf p).toNat

end Sys2Proof.Machine
end

