-- ==== Sys2Proof/Machine/Admin.lean ====
section
/-! DEFINITION. Mailboxes and the service of admin requests: mailbox writes, the sideband mailbox, the start of a request with its checks, and
the shape every admin command shares (R405 to R413, R420, R431, R440, R530 to R532). -/

namespace Sys2Proof.Machine

/-! ### Mailbox writes (R408, R531, R532) -/

/-- MAILBOX_TAIL_WRITE: the requests up to the new tail are submitted; a write that would make more than 32 outstanding is discarded, sets
OVERFLOW and is counted and reported (R408, R413, R532). -/
def mailboxTailWriteEff (f v : Nat) (d0 : Device) : Device :=
  if !d0.barUp f then d0
  else
    let d := d0.unlatch f
    let b := (d.fn f).mb
    let n := (v % 65536 + 65536 - b.tail) % 65536
    let out := (b.tail + 65536 - b.head) % 65536
    if 32 < out + n then
      (d.modMbox f fun b => { b with overflow := true, overflows := b.overflows + 1 }).raiseDev 0x000F f
    else
      let new := (List.range n).map fun i => (b.tail + i) % 32
      d.modMbox f fun b => { b with tail := v % 65536, slots := new.foldl (fun t s => tset s .waiting t) b.slots }
/-- MAILBOX_TAIL_WRITE (R532). -/
def execMailboxTailWrite (f v : Nat) (s : State) : Host.Outcome State Fault Refusal := onDev (mailboxTailWriteEff f v) s

/-- MAILBOX_HEAD_WRITE: completed responses are consumed; a write that would pass a slot without one is discarded (R532). -/
def mailboxHeadWriteEff (f v : Nat) (d0 : Device) : Device :=
  if !d0.barUp f then d0
  else
    let d := d0.unlatch f
    let b := (d.fn f).mb
    let n := (v % 65536 + 65536 - b.head) % 65536
    let passed := (List.range (min n 33)).map fun i => (b.head + i) % 32
    if (b.tail + 65536 - b.head) % 65536 < n || passed.any (fun s => tget SlotState.idle s b.slots != .done) then d
    else d.modMbox f fun b => { b with head := v % 65536, slots := passed.foldl (fun t s => tset s .idle t) b.slots }
/-- MAILBOX_HEAD_WRITE (R532). -/
def execMailboxHeadWrite (f v : Nat) (s : State) : Host.Outcome State Fault Refusal := onDev (mailboxHeadWriteEff f v) s

/-- Bytes put at an offset of a list of n bytes. -/
def putBytes (n off : Nat) (bs old : List Byte) : List Byte := fit n ((fit n old).take off ++ bs ++ (fit n old).drop (off + bs.length))
/-- MAILBOX_REQUEST_WRITE: 4 or 8 bytes at an offset of the request slots; discarded while the slot holds an outstanding request
(R532). -/
def mailboxRequestWriteEff (f off : Nat) (bs : List Byte) (d0 : Device) : Device :=
  if !d0.barUp f then d0
  else
    let d := d0.unlatch f
    let n := bs.length
    let slot := off / 64
    if (n != 4 && n != 8) || off % n != 0 || 2048 ≤ off || (d.fn f).mb.outstanding slot then d
    else d.modMbox f fun b => { b with req := tset slot (putBytes 64 (off % 64) bs (tget [] slot b.req)) b.req }
/-- MAILBOX_REQUEST_WRITE (R532). -/
def execMailboxRequestWrite (f off : Nat) (bs : List Byte) (s : State) : Host.Outcome State Fault Refusal :=
  onDev (mailboxRequestWriteEff f off bs) s

/-! ### The command set (R411, R412) -/

/-- Who may send a command (R411): a function for itself, INDEX_ADMIN of the burgee or the sideband, a device-admin PF or the sideband, or the
sideband alone. -/
inductive AdminScope where
  | f | b | dev | side
  deriving DecidableEq, Repr

/-- Features of a burgee (R416). -/
def isBurgeeFeature (id : Nat) : Bool := decide (2 ≤ id) && decide (id ≤ 4)
/-- Scope of a log page, none for a reserved one (R414). -/
def pageScope (page : Nat) : Option AdminScope :=
  if page = 0 || 0x0F < page then none
  else some (if page = 1 || page = 2 || page = 3 || page = 7 then .f else if page = 9 || page = 0x0A then .b else .dev)
/-- Scope of a SET_FEATURE, none for a reserved feature (R416). -/
def featureScope (id : Nat) : Option AdminScope :=
  if id = 0 || 8 < id then none else some (if isBurgeeFeature id then .b else .dev)
/-- Scope of a request, none for one whose opcode, log page or feature is reserved, which is an invalid field whoever sends it (R18, R411, R414,
R416, R478). -/
def AdminReq.scope (r : AdminReq) : Option AdminScope :=
  match r.op with
  | 0x0001 | 0x0003 | 0x0005 | 0x0010 | 0x0011 => some .f
  | 0x0002 => pageScope (r.param 0 1)
  | 0x0004 => featureScope (r.param 0 1)
  | 0x0012 | 0x0013 | 0x0020 | 0x0021 | 0x0036 | 0x0037 | 0x0039 | 0x0050 | 0x0051 | 0x0080 | 0x0084 | 0x0090 | 0x0091 | 0x0092 | 0x0093
  | 0x00A0 | 0x00B0 | 0x00B1 | 0x00B2 | 0x00B3 | 0x00B4 | 0x00B5 | 0x00B6 => some .dev
  | 0x0030 | 0x0031 | 0x0032 | 0x0033 | 0x0034 | 0x0035 | 0x0038 | 0x0040 | 0x0041 | 0x0042 | 0x0043 | 0x0044 => some .b
  | 0x00A1 => some .side
  | _ => none
/-- Essential commands, which are never shed (R411). -/
def essential (op : Nat) : Bool := [0x01, 0x02, 0x05, 0x10, 0x11, 0x12, 0x13, 0x41, 0x44, 0x51].contains op
/-- Commands a sanitise refuses (R424). -/
def sanRefused (op : Nat) : Bool := [0x10, 0x30, 0x40, 0x32, 0x33, 0x34, 0x35, 0x36, 0x37, 0x38].contains op
/-- Device commands (R405, R440). -/
def AdminReq.deviceCmd (r : AdminReq) : Bool := r.scope == some .dev || r.scope == some .side
/-- The sender of a mailbox is a device-admin PF or the sideband (R405). -/
def Device.devAdmin (d : Device) (m : Nat) : Bool := m == sbMb || d.adminPfs.contains m
/-- The sender of a mailbox holds INDEX_ADMIN in a burgee, or is the sideband (R411). -/
def Device.brgAdmin (d : Device) (m b : Nat) : Bool := m == sbMb || ((d.fn m).assigned && (d.fn m).permAdmin && (d.fn m).burgee == b)

/-- The checks a request meets at its start, before those of its command: the opcode and AFLAGS, the scope, shedding, a live activation, a
sanitise and the sideband's size. A refusal is a STATUS, a DETAIL and RETRY_MS (R405, R406, R411, R412, R420, R424, R425, R431). -/
def Device.startCheck (d : Device) (m : Nat) (r : AdminReq) : Option (Nat × Nat × Nat) :=
  let sb := m == sbMb
  match r.scope with
  | none => some (stInvalidField, 0, 0)
  | some sc =>
    if 8 ≤ r.flags then some (stInvalidField, 0, 0)
    else if sb && (r.op == 0x10 || r.op == 0x11) then some (stAccessDenied, 0, 0)
    else if !sb && sc == .side then some (stAccessDenied, 0, 0)
    else if sc == .dev && !d.devAdmin m then some (stAccessDenied, 7, 0)
    else if sc == .b && !sb && !((d.fn m).assigned && (d.fn m).permAdmin) then some (stAccessDenied, 0, 0)
    else if 4 ≤ d.mgmt.shed.steps && !essential r.op then some (stBusy, 2, max 10 (min 1000 (10 * (d.mgmt.shed.isOver - 3))))
    else if d.ens.activation.any (fun a => !a.probation) && !essential r.op then some (stBusy, 0x10, 1000)
    else if d.sanHeld && sanRefused r.op then some (stAccessDenied, if d.flash.sanitise.state = 1 then 8 else 9, 0)
    else if sb && ((4096 < r.dataLen && !r.staged) || 4096 < r.outLen) then some (stInvalidField, 0x0D, 0)
    else none

/-! ### The sideband mailbox (R406, R408, R440) -/

/-- SIDEBAND_REQUEST: a request with its input data arrives over MCTP. With 32 outstanding it is answered at once with BUSY_RETRY, and so is
a device command that SIDEBAND_SECURE refuses; else it takes the next free slot (R408, R440; log entry 26). -/
def sidebandRequestEff (req data : List Byte) (secured : Bool) (d : Device) : Device :=
  if !d.sideband || !d.ready || req.length != 64 then d
  else
    let b := d.sideMb
    let now := fun (status detail retry : Nat) (d : Device) =>
      let (k, d1) := d.draw 1
      d1.emit (.sideband (responseBytes req status detail retry 0 0 (Config.freeBool k)))
    if d.mgmt.feat.sbSecure && (adminReq req).deviceCmd && !(secured && d.mgmt.sec.session) then now stAccessDenied 0x13 0 d
    else
      match ((List.range 32).map (b.tail + ·)).find? fun c => !b.outstanding (c % 32) with
      | none =>
        let d1 := { d with sideMb := { b with overflows := b.overflows + 1 },
                           mgmt := { d.mgmt with shed := { d.mgmt.shed with busy := d.mgmt.shed.busy + 1 } } }
        now stBusy 1 10 (d1.raiseDev 0x000F 0xFFFF)
      | some c =>
        { d with sideMb := { b with tail := (c + 1) % 65536, req := tset (c % 32) req b.req, data := tset (c % 32) data b.data,
                                    slots := tset (c % 32) .waiting b.slots } }
/-- SIDEBAND_REQUEST (R408). -/
def execSidebandRequest (req data : List Byte) (secured : Bool) (s : State) : Host.Outcome State Fault Refusal :=
  onDev (sidebandRequestEff req data secured) s

/-! ### Starting (R409, R410) -/

/-- A mailbox has a request that waits. -/
def Mailbox.hasWaiting (b : Mailbox) : Bool := b.slots.any fun p => p.2 == .waiting
/-- Mailboxes with a waiting request, in ascending order. -/
def Device.waitingMbs (d : Device) : List Nat :=
  ((d.fns.filter fun p => p.2.mb.hasWaiting).map (·.1)) ++ (if d.sideMb.hasWaiting then [sbMb] else [])
/-- The request that a slot of a mailbox holds. -/
def Device.adminAt (d : Device) (m slot : Nat) : AdminReq := adminReq (tget [] slot (d.mbox m).req)
/-- A slot's request has been started and not answered. -/
def Device.startedAt (d : Device) (m slot : Nat) : Bool := tget SlotState.idle slot (d.mbox m).slots == .started

/-- ADMIN_REQUEST_START: the Ensign holder starts the next mailbox's oldest waiting request; one that its checks refuse is answered at once
(R409, R410). -/
def adminRequestStartEff (d : Device) : Device :=
  if !d.ready || !d.seated then d
  else
    let ms := d.waitingMbs
    match (ms.find? fun m => decide (d.mgmt.nextMb ≤ m)).or ms.head? with
    | none => d
    | some m =>
      match ((d.mbox m).order m).find? fun s => tget SlotState.idle s (d.mbox m).slots == .waiting with
      | none => d
      | some slot =>
        let before := d.mgmt.started.filter fun q => d.startedAt q.1 q.2
        let d1 := { d with mgmt := { d.mgmt with nextMb := m + 1, started := before ++ [(m, slot)] } }
        let d2 := d1.modMbox m fun b => { b with slots := tset slot .started b.slots }
        match d2.startCheck m (d2.adminAt m slot) with
        | some (st, det, retry) => d2.respond m slot st det retry 0
        | none => d2
/-- ADMIN_REQUEST_START (R409). -/
def execAdminRequestStart (s : State) : Host.Outcome State Fault Refusal := onDev adminRequestStartEff s

/-- What a request touches, as (kind, number): 0 an index, 1 a burgee, 2 a job, 3 a feature, 4 a counted setting, 5 a firmware slot, 6 the directory of the shoal; the
number 65,536 stands for all of a kind (R409). -/
def AdminReq.touches (r : AdminReq) : List (Nat × Nat) :=
  let all := 65536
  let page := r.param 0 1
  match r.op with
  | 0x0002 => if page = 9 then [(2, r.target)] else if page = 0x0A then [(0, r.target)] else []
  | 0x0003 | 0x0004 => (3, page) :: (if isBurgeeFeature page then [(1, r.target)] else [])
  | 0x0020 => [(4, 2), (1, all)]
  | 0x0021 => [(1, r.target), (0, all), (2, all)]
  | 0x0030 => [(0, all)]
  | 0x0031 => [(0, r.target), (2, all)]
  | 0x0032 | 0x0033 | 0x0034 | 0x0035 => [(0, r.target)]
  | 0x0038 => [(1, r.target)]
  | 0x0040 => [(0, r.target), (2, all)]
  | 0x0041 | 0x0042 | 0x0043 | 0x0044 => [(2, r.target)]
  | 0x0080 => [(0, all), (1, if page = 0 then r.target else all), (2, all)]
  | 0x0084 => [(0, all), (1, all), (2, all)]
  | 0x0091 | 0x0092 => [(5, r.target)]
  | 0x0093 => [(5, all)]
  | 0x00A0 => [(4, r.target)]
  | 0x00A1 => [(4, 4), (0, all), (1, all), (2, all)]
  | 0x00B0 | 0x00B1 | 0x00B2 | 0x00B3 | 0x00B4 | 0x00B5 => [(6, 0)]
  | _ => []
/-- Two requests touch the same thing (R409). -/
def AdminReq.meets (a b : AdminReq) : Bool :=
  a.touches.any fun p => b.touches.any fun q => p.1 == q.1 && (p.2 == q.2 || p.2 == 65536 || q.2 == 65536)
/-- Every earlier started request that touches what this one does has been answered (R409). -/
def Device.turnOf (d : Device) (m slot : Nat) : Bool :=
  (d.mgmt.started.takeWhile (· != (m, slot))).all fun q => !d.startedAt q.1 q.2 || !(d.adminAt q.1 q.2).meets (d.adminAt m slot)
/-- A request has passed its checks and waits for what it asked for: a geometry write for its boundaries, an activation, a job's step, a retrain
window or a shoal epoch. -/
def Device.adminWaits (d : Device) (m slot : Nat) : Bool :=
  d.mgmt.geoWrite.any (fun g => g.1 == m && g.2.1 == slot) || d.ens.activation.any (fun a => a.req == (m, slot)) ||
    d.shoal.waitAdmin == some (m, slot) || d.jobs.any (fun j => j.stopReq.contains (m, slot)) ||
    d.tiers.chans.any fun p => p.2.retrainReq.contains (m, slot)

/-! ### What a command answers -/

/-- The outcome of an admin command at its commit point: the device, and the response with its output; or the response waits (R407, R409). -/
structure Reply where
  dev    : Device
  status : Nat := 0
  detail : Nat := 0
  retry  : Nat := 0
  result : Nat := 0
  out    : List Byte := []
  waits  : Bool := false
  deriving DecidableEq, Repr

/-- SUCCESS with no result. -/
def Device.done (d : Device) : Reply := { dev := d }
/-- SUCCESS with a RESULT. -/
def Device.result (d : Device) (n : Nat) : Reply := { dev := d, result := n }
/-- A refusal, which leaves the device as it was (R407). -/
def Device.refuse (d : Device) (status detail : Nat) : Reply := { dev := d, status := status, detail := detail }
/-- INVALID_FIELD with detail NONE. -/
def Device.badField (d : Device) : Reply := d.refuse stInvalidField 0
/-- BUSY_RETRY with its detail and hint (R412, R420). -/
def Device.busy (d : Device) (detail ms : Nat) : Reply := { dev := d, status := stBusy, detail := detail, retry := ms }
/-- The response comes later. -/
def Device.waits (d : Device) : Reply := { dev := d, waits := true }

/-- The segments of a request's output buffer; at the sideband the output travels in the message (R380, R406). -/
def AdminReq.outSegs (r : AdminReq) (m : Nat) (io : AdminIo) : Except Nat (List (Nat × Nat)) :=
  if m = sbMb then .ok [] else segsOf r.outBdl false r.outAddr r.outLen io.outList
/-- Output bytes written to host memory along the segments, in order. -/
def Device.putSegs (d : Device) (m : Nat) (segs : List (Nat × Nat)) (bs : List Byte) : Device :=
  (cutSegs segs bs).foldl (fun d p => d.toHost m p.1 false p.2) d

/-- No output and no buffers. -/
def noIo : AdminIo := { data := some [], inList := [], outList := [] }

/-- An admin command acts on the request of a slot that has been started with its opcode and does not wait already: it takes effect and answers,
after what it must follow (R406, R407, R409). -/
def Device.adminCmd (d : Device) (op m slot : Nat) (io : AdminIo) (f : AdminReq → Reply) : Device :=
  let r := d.adminAt m slot
  if !d.ready || !d.seated || 256 < m || 32 ≤ slot || !d.startedAt m slot || r.op != op || d.adminWaits m slot || !d.turnOf m slot then d
  else
    match r.outSegs m io with
    | .error e => d.respond m slot e 0 0 0
    | .ok segs =>
      let a := f r
      if a.waits then a.dev
      else
        let out := if a.status = 0 then a.out.take r.outLen else []
        (a.dev.putSegs m segs out).respondWith m slot a.status a.detail a.retry a.result out

/-- The input bytes of a request: of host memory, of the sideband message, or with STAGED of the F-tier, in granules of the burgee the request
names; from the sideband a device command may name those of any burgee (R380, R406; log entry 26). -/
def Device.adminIn (d : Device) (r : AdminReq) (m : Nat) (slot : Nat) (burgee : Option Nat) (io : AdminIo) : Except Nat (List Byte) :=
  if r.dataLen = 0 then .ok []
  else if r.staged then
    let bs := if m = sbMb then burgee.elim (List.range 16) fun b => [b] else [(d.fn m).burgee]
    if bs.any fun b => d.area r.dataAddr == .fTier && d.mayTouchAll false b r.dataAddr r.dataLen then .ok (d.read r.dataAddr r.dataLen)
    else .error stInvalidField
  else if m = sbMb then
    let bs := tget [] slot d.sideMb.data
    if bs.length = r.dataLen then .ok bs else .error stInvalidField
  else match segsOf r.dataBdl true r.dataAddr r.dataLen io.inList with
    | .error e => .error e
    | .ok _ => match io.data with
      | some bs => if bs.length = r.dataLen then .ok bs else .error stHostAccess
      | none => .error stHostAccess

/-- A command with input data, where a read of it can fail. -/
def Device.withInput (d : Device) (r : AdminReq) (m slot : Nat) (burgee : Option Nat) (io : AdminIo) (f : List Byte → Reply) : Reply :=
  match d.adminIn r m slot burgee io with
  | .error e => d.refuse e 0
  | .ok bs => f bs

/-- The index a request names, which another burgee's function sees as absent, and where INDEX_ADMIN fails as denied (R379, R411). -/
def Device.withIndex (d : Device) (m i : Nat) (f : Index → Reply) : Reply :=
  match d.index? i with
  | none => d.refuse stIndexAbsent 0
  | some x => if m != sbMb && (d.fn m).burgee != x.burgee then d.refuse stIndexAbsent 0 else f x

/-! ### Load shedding (R420) -/

/-- SHED_WINDOW_END: a 10 ms window ends with a load in hundredths of a percent: a step engages after each further window above 85 % in a row, one
is released after each below 70 %, and a change is reported (R420). -/
def shedWindowEndEff (load : Nat) (d0 : Device) : Device :=
  if !d0.ready then d0
  else
    let d := d0.by ((d0.now / 10000000 + 1) * 10000000)
    let s := d.mgmt.shed
    let isOver := if 8500 < load then s.isOver + 1 else 0
    let steps := if 8500 < load then max s.steps (min 4 isOver) else if load < 7000 then s.steps - 1 else s.steps
    let d1 := { d with mgmt := { d.mgmt with shed := { s with steps := steps, isOver := isOver, loads := (load :: s.loads).take 100 } } }
    if steps = s.steps then d1 else d1.raiseDev 0x000E steps
/-- SHED_WINDOW_END (R420). -/
def execShedWindowEnd (load : Nat) (s : State) : Host.Outcome State Fault Refusal := onDev (shedWindowEndEff load) s

end Sys2Proof.Machine
end

