-- ==== Sys2Proof/Machine/AdminBasic.lean ====
section
/-! DEFINITION. Admin commands on the device and its functions: IDENTIFY, log pages, features, events, queue pairs, function configuration
and RESET (R369 to R371, R411 to R416, R495); and the SPDM responder (R438, R439). -/

namespace Sys2Proof.Machine

/-! ### SPDM (R438, R439) -/

/-- Measurement n (R439). -/
def Device.measurement (d : Device) (n : Nat) : List Byte :=
  match n with
  | 1 => (List.range 48).map Config.romDigestByte
  | 2 => if d.mgmt.slot = 0 then (List.range 48).map Config.factoryDigestByte
         else let img := tget [] d.mgmt.slot d.flash.images; sha384 (img.take (256 + fieldAt img 12 4))
  | 3 => leBytes 8 d.fuses.profile ++ leBytes 8 d.fuses.svn ++ leBytes 8 d.fuses.seniority ++ leBytes 8 d.fuses.population
  | 4 => fit 16 d.chainHead
  | 5 => if d.mgmt.sec.unlocked.isSome then leBytes 8 d.fuses.debugUsed else leBytes 8 0
  | 6 => leBytes 8 d.fuses.svn
  | _ => []

/-- What a request needs of the connection, and what its answer carries: version and capabilities first, then the algorithms, then the rest; the
contents of certificates, digests of them and signatures are free (R438; log entries 2 and 27). -/
def spdmRequestEff (r : SpdmReq) (d : Device) : Device :=
  if !d.sideband || !d.ready then d
  else
    let s := d.mgmt.sec
    let set := fun (t : Security) => { d with mgmt := { d.mgmt with sec := t } }
    let bad := fun (d : Device) => d.emit (.spdm r .errorOther [])
    let ok := fun (d : Device) (bs : List Byte) => d.emit (.spdm r .response bs)
    let free := fun (d : Device) =>
      let (k, d1) := d.draw 65537
      ok d1 (freeBytes (k + 1) (Config.freeNat k % 65536))
    match r with
    | .getVersion => ok (set { s with spdmVersion := 0, spdmCaps := false, spdmAlgs := false, spdmExch := false, session := false }) [0x12, 0x13]
    | .getCapabilities v =>
      if v = 0x12 || v = 0x13 then ok (set { s with spdmVersion := v, spdmCaps := true, spdmAlgs := false }) [] else bad d
    | .negotiateAlgorithms sup => if s.spdmCaps && sup then ok (set { s with spdmAlgs := true }) [] else bad d
    | .getDigests => if s.spdmAlgs then free d else bad d
    | .getCertificate slot => if s.spdmAlgs && slot == 0 then free d else bad d
    | .challenge slot => if s.spdmAlgs && slot == 0 then free d else bad d
    | .getMeasurements n =>
      if !s.spdmAlgs then bad d
      else if n = 0 then ok d [6]
      else if n = 255 then ok d (([1, 2, 3, 4, 5, 6]).flatMap d.measurement)
      else if n ≤ 6 then ok d (d.measurement n)
      else bad d
    | .keyExchange slot => if s.spdmAlgs && slot == 0 then free (set { s with spdmExch := true }) else bad d
    | .finish v => if s.spdmExch && v then ok (set { s with spdmExch := false, session := true }) [] else bad d
    | .heartbeat => if s.session then ok d [] else bad d
    | .endSession => if s.session then ok (set { s with session := false }) [] else bad d
    | .chunkSend => if s.spdmCaps then ok d [] else bad d
    | .chunkGet => if s.spdmCaps then ok d [] else bad d
    | .unsupported => d.emit (.spdm r .errorUnsupported [])
/-- SPDM_REQUEST (R438). -/
def execSpdmRequest (r : SpdmReq) (s : State) : Host.Outcome State Fault Refusal := onDev (spdmRequestEff r) s

/-! ### IDENTIFY and log pages (R411, R414, R479) -/

/-- The meaning of IDENTIFY. -/
def execIdentify (mb slot : Nat) (io : AdminIo) (s : State) : Host.Outcome State Fault Refusal :=
  onDev (fun d => d.adminCmd 0x0001 mb slot io fun _ => { dev := d, out := d.identity }) s

/-- A page's bytes from an offset on, and what CLEAR does to it where its row allows CLEAR (R414). -/
def Device.givePage (d : Device) (off : Nat) (clear : Bool) (bs : List Byte) (clr : Option (Device → Device)) : Reply :=
  match clear, clr with
  | true, none => d.badField
  | true, some f => { dev := f d, out := bs.drop off }
  | false, _ => { dev := d, out := bs.drop off }

/-- The ACCOUNTING page: a function's own counters, its burgee's background client under 0xFFFF, or any function's for a device admin
(R361, R414). -/
def Device.accounting (d : Device) (m target off : Nat) (clear : Bool) : Reply :=
  let give := fun (b : Nat) (c : Option Nat) => d.givePage off clear (d.accountPage b c) (some fun d => d.clearAccount b c)
  if target = 0xFFFF then if m = sbMb then d.badField else give (d.fn m).burgee none
  else if 255 < target then d.badField
  else if target != m && !d.devAdmin m then d.refuse stAccessDenied 7
  else give (d.fn target).burgee (some target)

/-- A log page by number (R414, R479). -/
def Device.logPage (d : Device) (m : Nat) (r : AdminReq) : Reply :=
  let off := r.param 8 8
  let lf := r.param 1 1
  let give := fun (bs : List Byte) (clr : Option (Device → Device)) => d.givePage off (lf == 1) bs clr
  if 2 ≤ lf || off % 64 != 0 then d.badField
  else match r.param 0 1 with
    | 0x01 => give d.healthPage none
    | 0x02 => give (eventsPage (d.mbox m)) (some fun d => d.modMbox m fun b => { b with evLost := 0 })
    | 0x03 => give d.firmwarePage none
    | 0x04 => give (d.ledgerPage r.target) none
    | 0x05 => give d.selfTestPage none
    | 0x06 => give d.sanitisePage none
    | 0x07 => d.accounting m r.target off (lf == 1)
    | 0x08 => give d.memoryPage (some Device.clearMemory)
    | 0x09 => match d.job? r.target with
      | some j => if d.brgAdmin m j.burgee then give j.page none else d.badField
      | none => d.badField
    | 0x0A => d.withIndex m r.target fun x => give x.page none
    | 0x0B => if 1 ≤ r.target && r.target ≤ 4 then give (d.telemetryPage r.target) (some fun d => d.clearGroup r.target) else d.badField
    | 0x0C => give d.loadPage (some fun d => { d with mgmt := { d.mgmt with shed := { d.mgmt.shed with busy := 0 } } })
    | 0x0D => give d.linksPage (some Device.clearLinks)
    | 0x0E => give d.shoalPage none
    | 0x0F => give d.routesPage none
    | _ => d.badField
/-- The meaning of GET_LOG_PAGE. -/
def execGetLogPage (mb slot : Nat) (io : AdminIo) (s : State) : Host.Outcome State Fault Refusal :=
  onDev (fun d => d.adminCmd 0x0002 mb slot io (d.logPage mb)) s

/-! ### Features (R416) -/

/-- The rates of a burgee's REGULATOR feature: RATE_HI and RATE_LO of each resource, in the order of the buckets (log entry 26). -/
def Burgee.rates (b : Burgee) : List Nat := (List.range 8).map fun i => (b.buckets.getD i {}).rate
/-- The 24 B value of a feature (R416). -/
def Device.featureValue (d : Device) (id b : Nat) : List Byte :=
  let f := d.mgmt.feat
  let g := d.burgee b
  fit 24 (match id with
    | 1 => leBytes 2 f.targetRate
    | 2 => leBytes 2 g.hoist ++ leBytes 4 g.defDead ++ leBytes 2 g.maxBatch ++ leBytes 2 g.rw ++ leBytes 1 g.prefetch ++ leBytes 1 g.burst
    | 3 => g.rates.flatMap (leBytes 2)
    | 4 => leBytes 4 g.quota ++ leBytes 2 g.period
    | 5 => leBytes 1 f.adminPorts
    | 6 => leBytes 1 (flagAt 0 f.bar2En + at_ 1 (f.bar2Base / 0x1000000000))
    | 7 => leBytes 8 d.hostTime
    | _ => leBytes 1 (if f.sbSecure then 1 else 0))
/-- A feature number is not reserved, and a burgee feature names a burgee (R416). -/
def featureOk (id target : Nat) : Bool := decide (1 ≤ id) && decide (id ≤ 8) && (!isBurgeeFeature id || decide (target < 16))

/-- Limits on the sum of RATE_HI and RATE_LO over all burgees, in GB/s (R346). -/
def Device.rateLimit (d : Device) (res : Nat) : Nat :=
  match res with
  | 0 => 6656 - 192 * (d.tiers.disabled.length / 4)
  | 1 => if d.tiers.packages = 9 then 512 else 1024
  | 2 => 2880
  | _ => 4096
/-- Rates of a burgee keep every sum within its limit (R346). -/
def Device.ratesFit (d : Device) (b : Nat) (rs : List Nat) : Bool :=
  (List.range 4).all fun i =>
    let pair := fun (xs : List Nat) => xs.getD (2 * i) 0 + xs.getD (2 * i + 1) 0
    decide (lsum ((List.range 16).map fun k => if k = b then pair rs else pair (d.burgee k).rates) ≤ d.rateLimit i)
/-- A burgee's rates changed: bounds of its commands are voided where a rate differs (R346, R353). -/
def Device.setRates (d : Device) (b : Nat) (rs : List Nat) : Device :=
  let d1 := if (d.burgee b).rates == rs then d
    else ((d.cmds.filter fun c => c.burgee == b).map (·.stamp)).foldl (fun d s => d.voidBound s) d
  d1.modBurgee b fun g => { g with buckets := (List.range 8).map fun i => { g.buckets.getD i {} with rate := rs.getD i 0 } }

/-- A feature's new value, or none where it is out of range (R22, R334, R344 to R346, R359, R405, R416). -/
def Device.setFeature (d : Device) (id b : Nat) (v : List Byte) : Option Device :=
  let f := d.mgmt.feat
  let put := fun (f : Features) => some { d with mgmt := { d.mgmt with feat := f } }
  match id with
  | 1 =>
    let r := fieldAt v 0 2
    if r < 32 || 44 < r then none else some ({ d with mgmt := { d.mgmt with feat := { f with targetRate := r } } }.deepCheck)
  | 2 =>
    let h := fieldAt v 0 2
    let dd := fieldAt v 2 4
    let mx := fieldAt v 6 2
    let rw := fieldAt v 8 2
    let pf := fieldAt v 10 1
    let bu := fieldAt v 11 1
    if h < 25 || 250 < h || dd < 100 || 1000000 < dd || mx < 16 || 1024 < mx || rw < 25 || 1000 < rw || rw < (d.burgee b).rwMin ||
        pf < 1 || 8 < pf || bu < 1 || 64 < bu then none
    else some (d.modBurgee b fun g => { g with hoist := h, defDead := dd, maxBatch := mx, rw := rw, prefetch := pf, burst := bu })
  | 3 =>
    let rs := (List.range 8).map fun i => fieldAt v (2 * i) 2
    if d.ratesFit b rs then some (d.setRates b rs) else none
  | 4 =>
    let p := fieldAt v 4 2
    if p < 1 || 100 < p then none else some (d.modBurgee b fun g => { g with quota := fieldAt v 0 4, period := p })
  | 5 => let ports := fieldAt v 0 1 % 16; if ports = 0 then none else put { f with adminPorts := ports }
  | 6 =>
    let x := fieldAt v 0 1
    if bits 2 1 x = 3 then none else put { f with bar2En := x.testBit 0, bar2Base := 0x1000000000 * bits 2 1 x }
  | 7 => put { f with hostTime := fieldAt v 0 8 }
  | _ => put { f with sbSecure := (fieldAt v 0 1).testBit 0 }

/-- The meaning of GET_FEATURE: a function reads features of the device and of its own burgee (R411, R416; log entry 26). -/
def execGetFeature (mb slot : Nat) (io : AdminIo) (s : State) : Host.Outcome State Fault Refusal :=
  onDev (fun d => d.adminCmd 0x0003 mb slot io fun r =>
    let id := r.param 0 1
    if !featureOk id r.target then d.badField
    else if isBurgeeFeature id && !d.devAdmin mb && (d.fn mb).burgee != r.target then d.refuse stAccessDenied 0
    else
      let v := d.featureValue id r.target
      { dev := d, out := v, result := fieldAt v 0 8 }) s
/-- The meaning of SET_FEATURE (R411, R416). -/
def execSetFeature (mb slot : Nat) (s : State) : Host.Outcome State Fault Refusal :=
  onDev (fun d => d.adminCmd 0x0004 mb slot noIo fun r =>
    let id := r.param 0 1
    if !featureOk id r.target then d.badField
    else if isBurgeeFeature id && !d.brgAdmin mb r.target then d.refuse stAccessDenied 0
    else match d.setFeature id r.target ((r.p.drop 8).take 24) with
      | some d1 => d1.done
      | none => d.badField) s

/-! ### Events (R413) -/

/-- The meaning of ASYNC_EVENT_REQUEST: an event that waits is delivered; else the request holds its slot, four to a mailbox at most. -/
def execAsyncEventRequest (mb slot : Nat) (s : State) : Host.Outcome State Fault Refusal :=
  onDev (fun d => d.adminCmd 0x0005 mb slot noIo fun _ =>
    let b := d.mbox mb
    match b.events with
    | e :: es => (d.modMbox mb fun b => { b with events := es }).result (eventWord e)
    | [] =>
      if 4 ≤ (b.eventSlots mb).length then d.refuse stInvalidField 0x0E
      else (d.modMbox mb fun b => { b with slots := tset slot .heldForEvent b.slots }).waits) s

/-! ### Queue pairs and functions (R369 to R371, R411) -/

/-- Queue pairs that a half owns (R28). -/
def Device.pairsOf (d : Device) (h : Nat) : Nat := lsum (d.fns.map fun p => (p.2.qps.filter fun q => q.2.half == h).length)
/-- The queue pair a parameter block describes for a function, or none where a field breaks its range (R370). -/
def Device.newQp (d : Device) (f : Nat) (b : List Byte) : Option (Nat × QueuePair) :=
  let n := d.fn f
  let q := fieldAt b 0 2
  let h := fieldAt b 2 1
  let w := fieldAt b 3 1
  let sq := fieldAt b 4 4
  let cq := fieldAt b 8 4
  let v := fieldAt b 12 2
  let sqb := fieldAt b 16 8
  let cqb := fieldAt b 24 8
  let fl := fieldAt b 32 1
  if b.length != 64 || n.qpMax ≤ q || (tfind q n.qps).isSome || 2 < h || w < 1 || 16 < w || sq < 2 || 65536 < sq || cq < 2 || 65536 < cq ||
      n.msixSize ≤ v || sqb % 4096 != 0 || cqb % 4096 != 0 || 1 < fl || n.log.size = 0 then none
  else
    let half := if h = 2 then if d.pairsOf 1 < d.pairsOf 0 then 1 else 0 else h
    some (q, { half := half, weight := w, sqSize := sq, cqSize := cq, vector := v, aggCount := fieldAt b 14 1, aggTime := fieldAt b 15 1,
               sqBase := sqb, cqBase := cqb, irqEn := fl.testBit 0 })
/-- The meaning of CREATE_QP (R370). -/
def execCreateQp (mb slot : Nat) (io : AdminIo) (s : State) : Host.Outcome State Fault Refusal :=
  onDev (fun d => d.adminCmd 0x0010 mb slot io fun r => d.withInput r mb slot none io fun bs =>
    match d.newQp mb bs with
    | some (q, p) => (d.modFn mb fun n => { n with qps := tset q p n.qps }).done
    | none => d.badField) s
/-- The meaning of DELETE_QP: the pair is torn down; its commands post nothing (R364, R371). -/
def execDeleteQp (mb slot : Nat) (s : State) : Host.Outcome State Fault Refusal :=
  onDev (fun d => d.adminCmd 0x0011 mb slot noIo fun r => if (d.qp mb r.target).isSome then (d.dropQp mb r.target).done else d.badField) s

/-- The meaning of CONFIGURE_FUNCTION: the assignment of R369, within the sums over all assigned functions; a change of burgee with queue pairs, or a
size below a live pair's, is an invalid field (R369, R411; log entry 26). -/
def execConfigureFunction (mb slot : Nat) (s : State) : Host.Outcome State Fault Refusal :=
  onDev (fun d => d.adminCmd 0x0012 mb slot noIo fun r =>
    let f := r.target
    let b := r.param 0 1
    let perms := r.param 1 1
    let q := r.param 2 2
    let v := r.param 4 2
    let n := d.fn f
    let others := (d.fns.filter fun p => p.1 != f && p.2.assigned).map (·.2)
    if 255 < f || 15 < b || 7 < perms || 1024 < q || v < 1 || 2048 < v || 4096 < q + lsum (others.map (·.qpMax)) ||
        2048 < v + lsum (others.map (·.msixSize)) || (!n.qps.isEmpty && n.burgee != b) ||
        n.qps.any (fun p => decide (q ≤ p.1) || decide (v ≤ p.2.vector)) then d.badField
    else (d.modFn f fun n => { n with
      assigned := true, burgee := b, permRead := perms.testBit 0, permWrite := perms.testBit 1, permAdmin := perms.testBit 2,
      qpMax := q, msixSize := v }).done) s

/-! ### RESET (R495) -/

/-- The meaning of RESET: a COLD or WARM reset begins 1 ms after the response; SHADOW_MP resets the MP that does not hold the Ensign (R495,
R519). -/
def execReset (mb slot : Nat) (s : State) : Host.Outcome State Fault Refusal :=
  onDev (fun d => d.adminCmd 0x0013 mb slot noIo fun r =>
    let later := fun (cold : Bool) (cause : Nat) => ({ d with resets := d.resets ++ [{ cold := cold, cause := cause, at_ := d.now + 1000000 }] } : Device).done
    match r.target, d.ens.holder with
    | 1, _ => later true 5
    | 2, _ => later false 7
    | 3, some h =>
      let w := d.ens.health (1 - h)
      if w.state = 1 && !w.failed d.now then (d.activationFails.mpReset (1 - h)).done else d.badField
    | _, _ => d.badField) s

end Sys2Proof.Machine
end

