-- ==== Sys2Proof/Machine/Engines.lean ====
section
/-! DEFINITION. The Matrix Engine, the Code Engine, the Walk Engine and the Filter Unit: what their descriptors do to an SC's
scratchpad and queues (R181 to R208, R215, R283; log entry 21). -/

namespace Sys2Proof.Machine

/-! ### What the engines share (R181, R182, R207) -/

/-- Bytes of an SC's scratchpad window (R24, R304). -/
def spadBytes : Nat := 0x800000
/-- n bytes of an SC's scratchpad from an offset on. -/
def Device.spad (d : Device) (sc off n : Nat) : List Byte := d.read (scBase sc + off) n
/-- The device with bytes written to an SC's scratchpad. -/
def Device.spadWrite (d : Device) (sc off : Nat) (bs : List Byte) : Device := d.write (scBase sc + off) bs
/-- n bytes from an offset on lie in the scratchpad. -/
def inSpad (off n : Nat) : Bool := decide (off + n ≤ spadBytes)
/-- A list of FP32 values from bytes. -/
def f32sOf (n : Nat) (bs : List Byte) : List F32 := (chunksOf 4 n bs).map fun b => BitVec.ofNat 32 (leNat b)
/-- FP32 values as bytes. -/
def f32Bytes (xs : List F32) : List Byte := xs.flatMap fun x => leBytes 4 x.toNat

/-- The command a context serves, with its index (R181). -/
def Device.ctxCmd (d : Device) (ctx : Nat) : Option Cmd := (d.ctx? ctx).bind fun k => k.cmd.bind d.cmd?
/-- The index a context reads. -/
def Device.ctxIndex (d : Device) (ctx : Nat) : Option Index := (d.ctxCmd ctx).bind fun c => d.index? c.indexNo

/-- A descriptor's effect, once its OPCODE byte and the checks of R182 allow it: a reserved OPCODE and a failed check are descriptor
faults, and a descriptor with another OPCODE is not this command's. -/
def Device.runDesc (d : Device) (sc ctx got want last : Nat) (ok : Bool) (f : Device → Device) : Device :=
  if 64 ≤ sc then d
  else if got = want then if ok then f d else d.descFault sc ctx
  else if last < got then d.descFault sc ctx else d

/-- Two 64 B block headers name the same block in sequence (R94, R207). -/
def headersAgree (a b : List Byte) : Bool :=
  fieldAt a 0 2 == fieldAt b 0 2 && fieldAt a 4 4 == fieldAt b 4 4 && fieldAt a 12 4 == fieldAt b 12 4

/-! ### Matrix Engine (R184 to R191) -/

/-- The class of an operand format: 0 Z, 1 M, 2 W (R184). -/
def meClass : VFmt → Nat
  | .int8z | .int4z => 0
  | .e4m3 | .e5m2 | .mxfp8e4m3 | .mxfp8e5m2 | .mxint8 | .mxfp4 | .mxint4 => 1
  | _ => 2
/-- Twice the cycles an operand takes for each depth element (R184). -/
def meCost2 : VFmt → Nat
  | .int4z | .mxfp4 | .mxint4 => 1
  | .bf16 | .fp16 => 8
  | .fp32 => 32
  | _ => 2
/-- Two formats may be paired (R184). -/
def mePairs (a b : VFmt) : Bool := (meClass a == 0) == (meClass b == 0)
/-- Operand formats of a code (R48, R184). -/
def meFmt (c : Nat) : Option VFmt := (fmtOfCode c).filter fmtIsOperand
/-- A plain 8-bit operand that has block scales is taken with them (R184). -/
def meScaled (f : VFmt) (param : Nat) : VFmt :=
  if param = 0 then f else match f with
    | .e4m3 => .mxfp8e4m3
    | .e5m2 => .mxfp8e5m2
    | f => f
/-- The format has parameter entries or scales of its own. -/
def meNeedsParam (f : VFmt) : Bool := meClass f == 0 || fmtIsMx f
/-- Bytes of the parameter entries or scales of one row (R51, R55). -/
def meParamBytes (f : VFmt) (depth : Nat) : Nat :=
  if meClass f = 0 then 8 * ceilDiv depth 64 else if fmtIsMx f then ceilDiv depth 32 else 0
/-- Row i of an operand in scratchpad (R188); rows' parameter entries follow one another (log entry 21). -/
def Device.meRow (d : Device) (sc : Nat) (f : VFmt) (depth addr stride param i : Nat) : VForm :=
  formRead f depth (d.spad sc (addr + i * stride) (ceilDiv (depth * fmtBits f) 8))
    (d.spad sc (param + i * meParamBytes f depth) (meParamBytes f depth))
/-- The chunk values of two rows in ascending order (R57, R58, R185). -/
def meChunks (a b : VForm) : List F32 :=
  match a, b with
  | .zp _ x, .zp _ y => List.zipWith zpScore x y
  | _, _ =>
    let ps := List.zipWith vMul (formVals a) (formVals b)
    (chunksOf 64 ps.length ps).map chunkSum
/-- A cell's running sum after its chunks: from the sum so far, or from the first chunk (R58, R187). -/
def meSum (acc : Option F32) (cs : List F32) : F32 := acc.elim (foldChunks cs) fun a => cs.foldl f32Add a

/-- The fields of an ME descriptor (R188). -/
structure MeDesc where
  op     : Nat
  aFmt   : Option VFmt
  bFmt   : Option VFmt
  ctl    : Nat
  rows   : Nat
  cols   : Nat
  depth  : Nat
  chunk0 : Nat
  aAddr  : Nat
  bAddr  : Nat
  aStr   : Nat
  bStr   : Nat
  aPar   : Nat
  bPar   : Nat
  acc    : Nat
  out    : Nat
  unit   : Nat
  tile   : Nat
  ctx    : Nat
  expSeq : Nat
  deriving DecidableEq, Repr

/-- The descriptor that bytes hold (R188). -/
def parseMe (b : List Byte) : MeDesc :=
  let aPar := fieldAt b 24 4
  let bPar := fieldAt b 28 4
  { op := fieldAt b 0 1, aFmt := (meFmt (fieldAt b 1 1)).map (meScaled · aPar), bFmt := (meFmt (fieldAt b 2 1)).map (meScaled · bPar),
    ctl := fieldAt b 3 1, rows := fieldAt b 4 2, cols := fieldAt b 6 2, depth := fieldAt b 8 2, chunk0 := fieldAt b 10 2,
    aAddr := fieldAt b 12 4, bAddr := fieldAt b 16 4, aStr := fieldAt b 20 2, bStr := fieldAt b 22 2, aPar := aPar, bPar := bPar,
    acc := fieldAt b 32 4, out := fieldAt b 36 4, unit := fieldAt b 40 4, tile := fieldAt b 44 4, ctx := fieldAt b 48 4,
    expSeq := fieldAt b 52 2 }
/-- ACC_IN. -/
def MeDesc.accIn (m : MeDesc) : Bool := m.ctl.testBit 2
/-- TAG_CHECK. -/
def MeDesc.tags (m : MeDesc) : Bool := m.ctl.testBit 3
/-- The output goes to scratchpad. -/
def MeDesc.toSpad (m : MeDesc) : Bool := m.ctl % 4 == 1

/-- The operands' ranges lie in the scratchpad. -/
def MeDesc.rowsFit (m : MeDesc) (f : VFmt) (n addr stride param : Nat) : Bool :=
  inSpad addr ((n - 1) * stride + ceilDiv (m.depth * fmtBits f) 8) && inSpad param (n * meParamBytes f m.depth)
/-- The checks of R184, R187 and R188. -/
def Device.meOk (d : Device) (sc : Nat) (m : MeDesc) : Bool :=
  match m.aFmt, m.bFmt with
  | some a, some b =>
    mePairs a b && (m.ctl % 4 ≤ 1) && (m.ctl < 16) && decide (1 ≤ m.rows ∧ m.rows ≤ 64 ∧ 1 ≤ m.cols ∧ m.cols ≤ 64)
      && (if m.op = 2 then decide (1 ≤ m.depth ∧ m.depth ≤ 8192) else decide (32 ≤ m.depth ∧ m.depth ≤ 8192) && m.depth % 32 == 0)
      && m.aStr % 32 == 0 && m.bStr % 32 == 0
      && (!meNeedsParam a || m.aPar != 0) && (!meNeedsParam b || m.bPar != 0)
      && (if m.accIn then inSpad m.acc 16384 && m.chunk0 == tget 0 m.acc (d.eng sc).accTiles else m.chunk0 == 0)
      && (!m.toSpad || inSpad m.out 16384) && (!m.tags || decide (64 ≤ m.bAddr))
      && m.rowsFit a m.rows m.aAddr m.aStr m.aPar && m.rowsFit b m.cols m.bAddr m.bStr m.bPar
  | _, _ => false

/-- The B block passes the check of R207: its header agrees with its scale block's, or, where it has no partner stream, has the expected tag
(DESIGN CHOICE, log entry 39: a block's header lies in the 64 B before row 0 and before B_PARAM, and B has a partner where B_PARAM is not 0). -/
def Device.meTagOk (d : Device) (sc : Nat) (m : MeDesc) : Bool :=
  let h := d.spad sc (m.bAddr - 64) 64
  !m.tags || (if m.bPar = 0 then fieldAt h 0 2 == m.expSeq else headersAgree h (d.spad sc (m.bPar - 64) 64))

/-- A TABLE entry of R62 for L2SQ: the negated squared distance of two rows, as one chunk rounded once. -/
def meDist (a b : VForm) : F32 :=
  f32Neg (chunkSum (List.zipWith (fun x y => let e := vSub x y; vMul e e) (formVals a) (formVals b)))
/-- TABLE makes entries of R62 for the index of the context's command: negated squared distances for L2SQ, dot products for the other metrics
(R189; DEDUCED, log entry 38). -/
def Device.meDistances (d : Device) (m : MeDesc) : Bool := m.op == 2 && (d.ctxIndex m.ctx).any (·.metric == .l2sq)
/-- The 4,096 values of an output tile, row-major; positions outside ROWS x COLS hold +0 (R185, R187, R189, R190). -/
def Device.meValues (d : Device) (sc : Nat) (m : MeDesc) (a b : VFmt) : List F32 :=
  let dist := d.meDistances m
  let as_ := (List.range m.rows).map (d.meRow sc a m.depth m.aAddr m.aStr m.aPar)
  let bs := (List.range m.cols).map (d.meRow sc b m.depth m.bAddr m.bStr m.bPar)
  let old := if m.accIn then f32sOf 4096 (d.spad sc m.acc 16384) else []
  (List.range 64).flatMap fun i => (List.range 64).map fun j =>
    match as_[i]?, bs[j]? with
    | some x, some y => if dist then meDist x y else meSum (if m.accIn then some (old.getD (64 * i + j) 0) else none) (meChunks x y)
    | _, _ => 0

/-- A finished tile enters the FTQ, or is held while the queue has its 8 entries (R190, R191). -/
def Device.pushFtq (d : Device) (sc : Nat) (e : FtqEntry) : Device :=
  d.modEng sc fun g => if g.ftq.length < 8 then { g with ftq := g.ftq ++ [e] } else { g with ftqHeld := some e, ftqFull := g.ftqFull + 1 }
/-- The tile the ME holds enters the FTQ once there is room (R191). -/
def Engines.unholdFtq (g : Engines) : Engines :=
  match g.ftqHeld with
  | some e => if g.ftq.length < 8 then { g with ftq := g.ftq ++ [e], ftqHeld := none } else g
  | none => g

/-- A tile computed and delivered: to the FTQ, or with its chunk count to scratchpad (R187, R190). -/
def Device.meTile (d : Device) (sc : Nat) (m : MeDesc) (a b : VFmt) : Device :=
  let vs := d.meValues sc m a b
  let n := m.chunk0 + ceilDiv m.depth 64
  let d1 := d.modCnt sc fun c => { c with meTiles := c.meTiles + 1, meBusy := c.meBusy + ceilDiv (m.depth * max (meCost2 a) (meCost2 b)) 2 }
  let d2 := if m.accIn then d1.modEng sc fun g => { g with accTiles := tdel m.acc g.accTiles } else d1
  if m.toSpad then
    (d2.spadWrite sc m.out (f32Bytes vs)).modEng sc fun g =>
      { g with accTiles := tset m.out n g.accTiles, outTags := tset m.out (m.ctx, m.unit) g.outTags }
  else d2.pushFtq sc { ctx := m.ctx, unit := m.unit, tile := m.tile, opcode := m.op, rows := m.rows, cols := m.cols, values := vs }

/-- The addresses at which a tile reads and writes: its operands, their parameters, and where it goes (R188). -/
def MeDesc.touches (m : MeDesc) : List Nat :=
  [m.aAddr, m.bAddr] ++ [m.aPar, m.bPar].filter (· != 0) ++ (if m.toSpad then [m.out] else [])
/-- A tile that may run: a block whose tag differs is discarded and its streams restart (R191, R207, R208); answered is whether it was delivered. -/
def Device.meTry (d : Device) (sc : Nat) (m : MeDesc) : Device × Bool :=
  if (d.eng sc).ftqHeld.isSome then (d.modEng sc fun g => { g with ftqFull := g.ftqFull + 1 }, false)
  else
    let rings := d.ringsOver sc m.ctx ([m.bAddr] ++ if m.bPar = 0 then [] else [m.bPar])
    d.withRings sc m.ctx m.touches fun d =>
      if !d.meTagOk sc m then (d.tagMiss sc m.ctx rings, false)
      else match m.aFmt, m.bFmt with
        | some a, some b => (d.meTile sc m a b, true)
        | _, _ => (d, true)
/-- The ME runs a descriptor, or keeps it while it holds a finished tile, waits for a ring slot or reads a block again (R191, R208, R243). -/
def Device.meGo (d : Device) (sc : Nat) (desc : List Byte) : Device :=
  let m := parseMe desc
  let (d1, ok) := d.meTry sc m
  if ok || ((d.ctx? m.ctx).isSome && (d1.ctx? m.ctx).isNone) then d1 else d1.modEng sc fun g => { g with meNext := some desc }
/-- The ME goes on with the descriptor it kept. -/
def Device.meResume (d : Device) (sc : Nat) : Device :=
  match (d.eng sc).meNext with
  | none => d
  | some desc => (d.modEng sc fun g => { g with meNext := none }).meGo sc desc
/-- An ME descriptor of an OPCODE runs (R184 to R191, R207, R208); an ME that still keeps another takes none. -/
def meEff (op sc : Nat) (desc : List Byte) (d : Device) : Device :=
  let m := parseMe desc
  d.runDesc sc m.ctx (if m.op = 0 then 5 else m.op) op 4 (d.meOk sc m) fun d =>
    let d1 := d.meResume sc
    if (d1.eng sc).meNext.isSome then d1 else d1.meGo sc desc

/-- ME_SCORE (R188). -/
def execMeScore (sc : Nat) (desc : List Byte) (s : State) : Host.Outcome State Fault Refusal := onDev (meEff 1 sc desc) s
/-- ME_TABLE (R189). -/
def execMeTable (sc : Nat) (desc : List Byte) (s : State) : Host.Outcome State Fault Refusal := onDev (meEff 2 sc desc) s
/-- ME_DENSE (R215). -/
def execMeDense (sc : Nat) (desc : List Byte) (s : State) : Host.Outcome State Fault Refusal := onDev (meEff 3 sc desc) s
/-- ME_TRAIN (R283). -/
def execMeTrain (sc : Nat) (desc : List Byte) (s : State) : Host.Outcome State Fault Refusal := onDev (meEff 4 sc desc) s

/-! ### Code Engine (R192 to R196) -/

/-- The fields of a CE descriptor (R196). -/
structure CeDesc where
  op     : Nat
  fmt    : Option VFmt
  m      : Nat
  dim    : Nat
  nq     : Nat
  flags  : Nat
  slots  : List Nat
  code   : Nat
  n      : Nat
  expSeq : Nat
  base   : List F32
  mask   : Nat
  cell   : Nat
  unit   : Nat
  ctx    : Nat
  deriving DecidableEq, Repr

/-- The descriptor that bytes hold (R196). -/
def parseCe (b : List Byte) : CeDesc :=
  { op := fieldAt b 0 1, fmt := fmtOfCode (fieldAt b 1 1), m := fieldAt b 2 2, dim := fieldAt b 4 2, nq := fieldAt b 6 1,
    flags := fieldAt b 7 1, slots := (List.range 8).map fun i => fieldAt b (8 + i) 1, code := fieldAt b 16 4, n := fieldAt b 20 2,
    expSeq := fieldAt b 22 2, base := (List.range 4).map fun i => BitVec.ofNat 32 (fieldAt b (24 + 4 * i) 4),
    mask := fieldAt b 40 4, cell := fieldAt b 44 4, unit := fieldAt b 48 4, ctx := fieldAt b 52 4 }
/-- The mode reads table sets. -/
def CeDesc.pq (c : CeDesc) : Bool := c.op == 1 || c.op == 3
/-- The mode gathers. -/
def CeDesc.gathers (c : CeDesc) : Bool := c.op == 3 || c.op == 4
/-- Most queries or requests of a pass (R193). -/
def CeDesc.maxQ (c : CeDesc) : Nat := if c.op = 4 then 8 else 4
/-- Entries of a table row: K. -/
def CeDesc.k (c : CeDesc) : Nat := if c.fmt = some .pq4 then 16 else 256
/-- Table sets the store holds (R192). -/
def CeDesc.sets (c : CeDesc) : Nat := min 16 (524288 / max 1 (c.m * c.k))
/-- Bits of an element of a code, elements of a code, and bytes of a code (R60, R64). -/
def CeDesc.codeShape (c : CeDesc) : Nat × Nat × Nat :=
  match c.fmt with
  | some .pq4 => (4, c.m, ceilDiv c.m 2)
  | some .pq8 => (8, c.m, c.m)
  | _ => (1, c.dim, ceilDiv c.dim 8)
/-- Bytes of a slot block with a number of attribute words (R92). -/
def CeDesc.blockBytes (c : CeDesc) (attrs : Nat) : Nat := 576 + 64 * c.codeShape.2.2 + 512 * attrs

/-- The checks of R192, R193 and R196. -/
def CeDesc.ok (c : CeDesc) (attrs : Nat) : Bool :=
  decide (1 ≤ c.nq ∧ c.nq ≤ c.maxQ) && c.flags < 2
    && (if c.pq then (c.fmt == some .pq4 || c.fmt == some .pq8) && decide (1 ≤ c.m)
        else c.fmt == some .sign1 && c.m == 0 && decide (1 ≤ c.dim) && c.base.all (· == 0))
    && (c.slots.take c.nq).all (fun s => s < 16 && (!c.pq || s < c.sets))
    && (if c.gathers then inSpad c.code (8 * c.n)
        else decide (1 ≤ c.n ∧ c.n ≤ 64) && inSpad c.code (c.n * c.blockBytes attrs) && inSpad c.mask (8 * c.n * c.nq))

/-- The score of a code against what a slot of the store holds: a table set with its delta, or a query code; a slot that nothing has
loaded reads as zeros (R195; log entry 4). -/
def ceScore (slot : Option CeSlot) (pq : Bool) (base : F32) (code : List Nat) : F32 :=
  match pq, slot with
  | true, some (.table t) => if t.finite then f32Add (f32Mul (f32OfInt (pqAcc t code)) t.delta) base else f32NaN
  | true, _ => f32Add 0 base
  | false, some (.code q) => hammingScore q (code.map (· == 1))
  | false, _ => hammingScore (code.map fun _ => false) (code.map (· == 1))

/-- The list of a unit in an SE, where the context's command says how long it is. -/
def Engines.seList (g : Engines) (cap ctx unit q : Nat) : UnitList :=
  ((g.se.find? fun l => l.ctx == ctx && l.unit == unit && l.query == q).map (·.list)).getD { cap := cap }
/-- The SE with candidates offered to a list, in order (R158, R159). -/
def Engines.seOffer (g : Engines) (cap : Nat) (beta : F32) (ctx unit q : Nat) (os : List Offer) : Engines :=
  if os.isEmpty then g else
  let u := os.foldl (fun u (o : Offer) => offer beta u o.key o.entry) (g.seList cap ctx unit q)
  { g with se := g.se.filter (fun l => !(l.ctx == ctx && l.unit == unit && l.query == q)) ++ [{ ctx := ctx, unit := unit, query := q, list := u }] }

/-- A scan pass over the slot block at an offset (R193 to R195): scores of the admitted positions, and their candidates. -/
def Device.cePass (d : Device) (sc : Nat) (c : CeDesc) (attrs b : Nat) : CsqEntry :=
  let len := c.codeShape.2.2
  let blk := d.spad sc (c.code + b * c.blockBytes attrs) (576 + 64 * len)
  let masks := (List.range c.nq).map fun q => leNat (d.spad sc (c.mask + 8 * (b * c.nq + q)) 8)
  let at_ := fun (i : Nat) => unpackCodes c.codeShape.1 c.codeShape.2.1 ((blk.drop (64 + i * len)).take len)
  { ctx := c.ctx, unit := c.unit,
    scores := (List.range 64).flatMap fun i => (List.range 4).map fun q =>
      if q < c.nq && (masks.getD q 0).testBit i then
        some (ceScore (tfind (c.slots.getD q 0) (d.eng sc).ceSlots) c.pq (c.base.getD q 0) (at_ i))
      else none,
    cands := (List.range 64).map fun i =>
      { id := BitVec.ofNat 64 (fieldAt blk (64 + 64 * len + 8 * i) 8), key := 0, source := 0,
        loc := (c.cell, 64 * fieldAt blk 12 4 + i), shard := d.shoal.device } }
/-- The offers of one query of a pass. -/
def CsqEntry.offers (e : CsqEntry) (q : Nat) : List Offer :=
  e.cands.zipIdx.filterMap fun p => (e.scores.getD (4 * p.2 + q) none).map fun s => { key := scoreKey s, entry := p.1 }
/-- A pass delivered: to the CSQ for the VE where the index has a score transform, to the SE otherwise (R195). -/
def Device.ceDeliver (d : Device) (sc : Nat) (c : CeDesc) (e : CsqEntry) : Device :=
  match d.ctxCmd c.ctx, d.ctxIndex c.ctx with
  | some m, some x =>
    if (m.transform x).isEmpty then
      d.modEng sc fun g => (List.range c.nq).foldl (fun g q => g.seOffer m.sp.cap m.sp.beta c.ctx c.unit q (e.offers q)) g
    else d.modEng sc fun g => { g with csq := g.csq ++ [e] }
  | _, _ => d.modEng sc fun g => { g with csq := g.csq ++ [e] }

/-- The block's tag and cell are those expected (R207). -/
def Device.ceTagOk (d : Device) (sc : Nat) (c : CeDesc) (attrs b : Nat) : Bool :=
  let h := d.spad sc (c.code + b * c.blockBytes attrs) 64
  c.flags == 0 || (fieldAt h 0 2 == (c.expSeq + b) % 65536 && fieldAt h 4 4 == c.cell)

/-- One pass over block b: skipped where the FU rejected every position, and delivered otherwise (R194, R195). -/
def Device.cePassEff (d : Device) (sc : Nat) (c : CeDesc) (attrs b : Nat) : Device :=
  let e := d.cePass sc c attrs b
  if e.scores.all (·.isNone) then d.modEng sc fun g => { g with ceSkips := g.ceSkips + 1 }
  else (d.ceDeliver sc c e).modCnt sc fun k => { k with cePasses := k.cePasses + 1 }
/-- Passes of a scan from block b on, `n` of them, until the CSQ is full, a ring slot is waited for, or a tag differs; the CE keeps the rest of the
descriptor (R194, R195, R207, R208, R243). -/
def Device.ceRun (d : Device) (sc : Nat) (desc : List Byte) (c : CeDesc) (attrs : Nat) : Nat → Nat → Device
  | 0, _ => d
  | n + 1, b =>
    let keep := fun (d : Device) => d.modEng sc fun g => { g with ceNext := some (desc, b) }
    if 8 ≤ (d.eng sc).csq.length then keep (d.modEng sc fun g => { g with csqFull := g.csqFull + 1 })
    else
      let at_ := c.code + b * c.blockBytes attrs
      let rings := d.ringsOver sc c.ctx [at_]
      let (d1, ok) := d.withRings sc c.ctx [at_] fun d =>
        if d.ceTagOk sc c attrs b then (d.cePassEff sc c attrs b, true) else (d.tagMiss sc c.ctx rings, false)
      if ok then d1.ceRun sc desc c attrs n (b + 1)
      else if (d.ctx? c.ctx).isSome && (d1.ctx? c.ctx).isNone then d1 else keep d1
/-- The CE goes on with the descriptor it stopped in (R195). -/
def Device.ceResume (d : Device) (sc : Nat) : Device :=
  match (d.eng sc).ceNext with
  | none => d
  | some (desc, b) =>
    let c := parseCe desc
    (d.modEng sc fun g => { g with ceNext := none }).ceRun sc desc c ((d.ctxIndex c.ctx).elim 0 (·.attrWords)) (c.n - b) b

/-- The scores of one gather request (R193, R196); none where it breaks a range. A PQ request takes the BASE of its place modulo N_Q (DESIGN
CHOICE, log entry 39). -/
def Device.ceRequest (d : Device) (sc : Nat) (c : CeDesc) (r : Nat) : Option CsqEntry :=
  let q := d.spad sc (c.code + 8 * r) 8
  let off := fieldAt q 0 4
  let n := fieldAt q 4 1
  let slot := fieldAt q 5 1
  let len := c.codeShape.2.2
  if (if c.op = 4 then 32 else 64) < n || 16 ≤ slot || (c.pq && c.sets ≤ slot) || !inSpad off (n * len) then none
  else
    let bs := d.spad sc off (n * len)
    let score := fun (i : Nat) => some (ceScore (tfind slot (d.eng sc).ceSlots) c.pq (c.base.getD (r % c.nq) 0)
      (unpackCodes c.codeShape.1 c.codeShape.2.1 ((bs.drop (i * len)).take len)))
    some { ctx := c.ctx, unit := c.unit, scores := (List.range n).map score }

/-- The scores of gather requests reach the WE. Those of a context and unit that walks here answer, in their order, the requests its expansions in
flight still wait for; scores for a squashed expansion are discarded (R199, R201). -/
def Engines.gather (g : Engines) (c : CeDesc) (rs : List CsqEntry) : Engines :=
  match g.walks.find? fun w => w.ctx == c.ctx && w.unit == c.unit && !w.ended with
  | none => { g with gathered := g.gathered ++ rs }
  | some w =>
    let waits := fun (e : Expansion) => if c.op = 4 then e.ham else e.pq
    let asked := (w.inFlight.filter waits).take rs.length
    { g with
      gathered := g.gathered ++ (rs.zip asked).map fun p => { p.1 with node := some p.2.node }
      walks := g.walks.map fun v => if v.ctx == c.ctx && v.unit == c.unit && !v.ended then
        { v with inFlight := v.inFlight.map fun e => if asked.contains e then (if c.op = 4 then { e with ham := false } else { e with pq := false }) else e }
        else v }

/-- A CE descriptor of an OPCODE runs (R192 to R196); a stopped CE first goes on with its own, and takes no other while it is stopped. -/
def ceEff (op sc : Nat) (desc : List Byte) (d : Device) : Device :=
  let c := parseCe desc
  let attrs := (d.ctxIndex c.ctx).elim 0 (·.attrWords)
  d.runDesc sc c.ctx (if c.op = 0 then 5 else c.op) op 4 (c.ok attrs) fun d =>
    let d := d.ceResume sc
    if (d.eng sc).ceNext.isSome then d
    else if c.gathers then
      let rs := (List.range c.n).map (d.ceRequest sc c)
      if rs.any (·.isNone) then d.descFault sc c.ctx
      else (d.modEng sc fun g => g.gather c (rs.filterMap id)).modCnt sc fun k => { k with cePasses := k.cePasses + ceilDiv c.n c.nq }
    else d.ceRun sc desc c attrs c.n 0

/-- SCAN_PQ (R193). -/
def execScanPq (sc : Nat) (desc : List Byte) (s : State) : Host.Outcome State Fault Refusal := onDev (ceEff 1 sc desc) s
/-- SCAN_HAM (R193). -/
def execScanHam (sc : Nat) (desc : List Byte) (s : State) : Host.Outcome State Fault Refusal := onDev (ceEff 2 sc desc) s
/-- GATHER_PQ (R193). -/
def execGatherPq (sc : Nat) (desc : List Byte) (s : State) : Host.Outcome State Fault Refusal := onDev (ceEff 3 sc desc) s
/-- GATHER_HAM (R193). -/
def execGatherHam (sc : Nat) (desc : List Byte) (s : State) : Host.Outcome State Fault Refusal := onDev (ceEff 4 sc desc) s

/-! ### Walk Engine (R128, R129, R134 to R137, R197 to R201) -/

/-- W: bytes of a walk's context (R197). -/
def walkBytes (width cap runAhead : Nat) : Nat := 32768 + 16 * width + 128 + 16 * cap + 1024 * runAhead

/-- The WE context descriptor that bytes hold (R198); a mode-1 EXPAND_MAX of 0 is no budget. SCORE_ENTRY changes nothing: R134 scores the entry
node of every walk (DESIGN CHOICE, log entry 39). -/
def parseWalk (b : List Byte) : Walk :=
  let mode := fieldAt b 0 1
  let width := fieldAt b 4 2
  { ctx := fieldAt b 36 4, unit := fieldAt b 32 4, index := fieldAt b 28 4, mode := mode, ham := (fieldAt b 3 1).testBit 0,
    sketch := fieldAt b 13 1, table := fieldAt b 14 1, fuSet := fieldAt b 26 2, pool := fieldAt b 20 4,
    bytes := walkBytes width (fieldAt b 24 2) (fieldAt b 1 1),
    runAhead := fieldAt b 1 1, keep := if mode = 0 then fieldAt b 2 1 else 32, width := width, expandMax := fieldAt b 6 2,
    startView := fieldAt b 16 4, result := { cap := fieldAt b 24 2 } }
/-- The ranges of R198. -/
def walkOk (b : List Byte) (w : Walk) : Bool :=
  decide (1 ≤ w.runAhead ∧ w.runAhead ≤ 4) && (w.mode != 0 || decide (4 ≤ w.keep ∧ w.keep ≤ 32)) && fieldAt b 3 1 < 4
    && decide (16 ≤ w.width ∧ w.width ≤ 1024) && w.expandMax ≤ 4096 && (w.mode == 1 || w.expandMax != 0)
    && (w.mode == 0 || w.result.cap == 0) && (w.mode != 2 || fieldAt b 12 1 ≤ 7) && w.sketch < 16 && w.table < 16 && w.fuSet < 16 && inSpad w.pool w.bytes

/-- The graph a walk reads: an index's graph, or its centroid graph in mode 1 (R103, R198). -/
def Walk.graph (w : Walk) (x : Index) : Graph := if w.mode = 1 then x.cgraph else x.graph
/-- The view of it a walk reads. -/
def Walk.view (w : Walk) (x : Index) : WalkView := if w.mode = 1 then x.cgraph.viewAll else x.graph.viewAt w.startView
/-- The query sketch in a walk's SKETCH_SLOT. -/
def Walk.sk (w : Walk) (g : Engines) : List Bool :=
  match tfind w.sketch g.ceSlots with
  | some (.code q) => q.take 1024
  | _ => List.replicate 1024 false
/-- The score of a node: by its sketch, or by its primary code and the table set in TABLE_SLOT (R128, R134 step 3). -/
def Walk.score (w : Walk) (g : Engines) (v : Node) : F32 :=
  if w.mode = 1 || w.ham then hammingScore (w.sk g) (v.sketch.take (w.sk g).length)
  else ceScore (tfind w.table g.ceSlots) true (match tfind w.table g.ceSlots with | some (.table t) => t.bsum | _ => 0) v.code
/-- The key that enters a node in the beam. -/
def Walk.fin (w : Walk) (x : Index) (g : Engines) (n : Nat) : Option W32 := ((w.view x).node n).bind fun v => scoreKey (w.score g v)

/-- What a Filter Unit's parameter set gives of a candidate; no program admits all (R204). -/
def FuSlots.admits (f : FuSlots) (prog set : Nat) (id : W64) (attrs : List W64) : Bool :=
  match tfind prog f.progs with
  | some p => filterPass p (tget (0, []) set f.sets).2 id attrs
  | none => true
/-- The nodes a walk offers to its result list, each with its transformed score: not tombstoned and admitted (R134 step 5, R204, R235). -/
def Walk.offers (w : Walk) (x : Index) (g : Engines) (prog : List Byte) (shard : Nat) (ns : List (Nat × Option W32)) : List Offer :=
  if w.mode ≠ 0 then [] else ns.filterMap fun p => ((w.view x).node p.1).bind fun v =>
    if x.graph.tombs.contains p.1 || !g.fu.admits (tget (8, []) w.fuSet g.fu.sets).1 w.fuSet v.id v.attrs then none
    else some { key := scoreKey (transformScore prog v.attrs (w.score g v)), entry := { id := v.id, key := 0, source := 1, loc := (p.1, 0), shard := shard } }
/-- The walk as it stands, in the terms of R134. -/
def Walk.walked (w : Walk) : Walked := { beam := w.beam, visited := w.visited, expanded := w.expanded }
/-- The walk after what an expansion gave, with its offers (R134). -/
def Walk.took (w : Walk) (x : Index) (g : Engines) (beta : F32) (prog : List Byte) (shard : Nat) (r : Walked) : Walk :=
  let os := w.offers x g prog shard r.offers
  { w with beam := r.beam, visited := r.visited, expanded := r.expanded,
           result := os.foldl (fun u (o : Offer) => offer beta u o.key o.entry) w.result }
/-- The walk has converged or spent its budget (R136). -/
def Walk.isOver (w : Walk) : Bool := (nextOf w.beam).isNone || (w.expandMax != 0 && decide (w.expandMax ≤ w.expanded))
/-- The expansions in flight after a commit: those still in the beam stay, the slots refill with its best unexpanded entries; with the walk are
the squashed nodes and the new ones. Expansions still in flight when the walk ends on its budget are squashed too (R137; DESIGN CHOICE, log
entry 39). -/
def Walk.refill (w : Walk) : Walk × List Nat × List Nat :=
  if w.isOver then ({ w with inFlight := [], ended := true }, w.inFlight.map (·.node), [])
  else
    let live := w.beam.filter (!·.expanded)
    let kept := w.inFlight.filter fun e => live.any (·.node == e.node)
    let more := ((live.map (·.node)).filter fun n => !kept.any (·.node == n)).take (w.runAhead - kept.length)
    ({ w with inFlight := kept ++ more.map fun n => { node := n, pq := w.mode == 0 && !w.ham } },
     (w.inFlight.filter fun e => !kept.contains e).map (·.node), more)

/-! ### Node records (R109, R112, R114, R199, R200) -/

/-- The L-tier address of the copy of a node's block that a START_VIEW reads (R99, R109). -/
def Index.nodeAddr (x : Index) (start n : Nat) : Nat :=
  (tfind (n / 64) x.graph.groups).elim 0 fun q =>
    (if q.prev.isSome && q.cutView != 0 && viewNewer q.cutView start then q.prevBase else q.curBase) + 448 * (n % 64)
/-- Where a walk reads a node: its F-tier slot, its codes-only record where codes are enough, or its L-tier block; address and length (R114,
R200). -/
def Device.nodePlace (d : Device) (x : Index) (w : Walk) (codes : Bool) (n : Nat) : Nat × Nat :=
  if w.mode = 1 then (x.graphAuxBase + 448 * n, 448)
  else match d.copyFor x (n / 64) w.startView with
    | some p => if p.kind = 1 then (p.fAddr + 512 * (n % 64), 512)
                else if codes then (p.fAddr + 256 * (n % 64), 256) else (x.nodeAddr w.startView n, 448)
    | none => (x.nodeAddr w.startView n, 448)
/-- What an F-tier slot or record holds is the node asked for: SLOT_NODE and SLOT_GEN of a slot, NODE_ID of a record (R200). -/
def Device.nodePlaceOk (d : Device) (x : Index) (w : Walk) (n : Nat) (p : Nat × Nat) : Bool :=
  if p.2 = 512 then fieldAt (d.read (p.1 + 448) 8) 0 4 == n && fieldAt (d.read (p.1 + 448) 8) 4 4 == x.graph.genAt w.startView n
  else if p.2 = 256 then fieldAt (d.read (p.1 + 224) 8) 0 8 == ((x.graph.nodeAt w.startView n).elim 0 fun v => v.id.toNat)
  else true
/-- The reads of one expansion: the node block, and the records of the neighbours that step 1 of R134 keeps (R199). -/
def Device.expansionReads (d : Device) (x : Index) (w : Walk) (n : Nat) : List (Nat × Nat × Nat) :=
  let p := d.nodePlace x w false n
  (n, p.1, p.2) :: (((w.view x).nbrs n 0).filter fun m => (w.view x).sees m).map fun m =>
    let q := d.nodePlace x w true m
    (m, q.1, q.2)
/-- The first F-tier address among an expansion's reads that fails its check (R200). -/
def Device.expansionMiss (d : Device) (x : Index) (w : Walk) (n : Nat) : Option Nat :=
  ((d.expansionReads x w n).find? fun r => !d.nodePlaceOk x w r.1 r.2).map (·.2.1)
/-- The ring whose slots bring a walk's expansions: that of an input stream of its context and unit (R199, R242). -/
def Device.walkRing (d : Device) (sc : Nat) (w : Walk) : Option (Nat × SemPair) :=
  (((d.str sc).running ++ (d.str sc).past).find? fun t => t.opcode == 1 && t.ctx == w.ctx && t.unit == w.unit).bind fun t =>
    let p := d.sem sc t.sem
    if p.active && p.ctx == w.ctx then some (t.sem, p) else none
/-- A read asked for at pennant 6 is charged to its context (R29, R199, R251). -/
def Device.askRead (d : Device) (sc ctx : Nat) (r : Nat × Nat) : Device :=
  let d1 := match d.meter sc r.1 r.2 false with
    | some m => d.charge false (d.clientOf ctx) ((d.ctx? ctx).elim 0 (·.burgee)) m.1 6 m.2
    | none => d
  d1.memReadCount r.1 r.2 6
/-- New expansions of a walk: their reads are asked of the STEs at pennant 6, by the stream that fills the walk's ring or, without one, at once;
their gather requests are outstanding (R199). -/
def Device.ask (d : Device) (sc : Nat) (x : Index) (w : Walk) (new : List Nat) : Device × Walk :=
  let reads := fun n => (d.expansionReads x w n).map (·.2)
  let w1 := { w with inFlight := w.inFlight.map fun e => if new.contains e.node then { e with reads := reads e.node } else e }
  match d.walkRing sc w with
  | some _ => (d, { w1 with due := w.due ++ new })
  | none => ((new.flatMap reads).foldl (fun d r => d.askRead sc w.ctx r) d, w1)

/-- beta of the command a context serves; 1 without one. -/
def Device.ctxBeta (d : Device) (ctx : Nat) : F32 := (d.ctxCmd ctx).elim 0x3F800000 (·.sp.beta)
/-- The score transform of the command a context serves; none without one (R235, R236). -/
def Device.ctxTransform (d : Device) (ctx : Nat) (x : Index) : List Byte := (d.ctxCmd ctx).elim [] (·.transform x)
/-- Two ranges of scratchpad overlap. -/
def rangesMeet (a n b m : Nat) : Bool := decide (a < b + m) && decide (b < a + n)

/-- Bytes of a burgee's walk pool on an SC: 28 banks (R197). -/
def walkPoolBytes : Nat := 28 * 0x40000
/-- A walk's W fits: the SC has fewer than 256 contexts, its burgee's pool holds W more, and its place there is free (R197). -/
def Device.walkFits (d : Device) (sc : Nat) (w : Walk) : Bool :=
  let ws := (d.eng sc).walks
  let b := fun (c : Nat) => (d.ctx? c).elim 0 (·.burgee)
  decide (ws.length < 256) && !(ws.any fun o => rangesMeet o.pool o.bytes w.pool w.bytes) &&
    decide (lsum ((ws.filter fun o => b o.ctx == b w.ctx).map (·.bytes)) + w.bytes ≤ walkPoolBytes)
/-- A walk starts (R129, R134, R198): a mode-2 context makes its whole descent. -/
def Device.startWalk (d : Device) (sc : Nat) (desc : List Byte) : Device :=
  let w := parseWalk desc
  let entry := fieldAt desc 8 4
  let g := d.eng sc
  match d.index? w.index with
  | none => d
  | some x =>
    if w.mode = 2 then d.modEng sc fun g => { g with walks := g.walks ++
      [{ w with reached := descend (w.view x) (w.sk g) ((w.graph x).nNodes + 1) 1 (fieldAt desc 12 1) entry, ended := true }] }
    else
      let (w1, _, new) := (w.took x g (d.ctxBeta w.ctx) (d.ctxTransform w.ctx x) d.shoal.device (walkStart (w.view x) w.width (w.fin x g) entry)).refill
      let (d1, w2) := d.ask sc x w1 new
      d1.modEng sc fun g => { g with walks := g.walks ++ [w2] }
/-- Walks that wait start as their W fits, the oldest first, and their wait is queue wait of their command (R197). -/
def Device.startWalks (d : Device) (sc : Nat) : Device :=
  (d.eng sc).walkWait.foldl (fun d p =>
    let w := parseWalk p.1
    if d.walkFits sc w then
      let d1 := (d.modEng sc fun g => { g with walkWait := g.walkWait.filter (· != p) }).startWalk sc p.1
      (d.ctxCmd w.ctx).elim d1 fun c => d1.recordWait c (d.now - p.2)
    else d) d
/-- A walk context of a MODE starts where its W fits, and otherwise waits (R197, R198). -/
def walkEff (mode sc : Nat) (desc : List Byte) (d : Device) : Device :=
  let w := parseWalk desc
  d.runDesc sc w.ctx w.mode mode 2 (walkOk desc w && (d.index? w.index).isSome) fun d =>
    let d1 := d.startWalks sc
    if (d1.eng sc).walkWait.isEmpty && d1.walkFits sc w then d1.startWalk sc desc
    else d1.modEng sc fun g => { g with walkWait := g.walkWait ++ [(desc, d.now)] }
/-- WALK_LEVEL0 (R134). -/
def execWalkLevel0 (sc : Nat) (desc : List Byte) (s : State) : Host.Outcome State Fault Refusal := onDev (walkEff 0 sc desc) s
/-- WALK_CENTROID (R128). -/
def execWalkCentroid (sc : Nat) (desc : List Byte) (s : State) : Host.Outcome State Fault Refusal := onDev (walkEff 1 sc desc) s
/-- WALK_UPPER_DESCENT (R129). -/
def execWalkUpperDescent (sc : Nat) (desc : List Byte) (s : State) : Host.Outcome State Fault Refusal := onDev (walkEff 2 sc desc) s

/-- The walk under way of a context and unit. -/
def Engines.walk? (g : Engines) (ctx unit : Nat) : Option Walk := g.walks.find? fun w => w.ctx == ctx && w.unit == unit && !w.ended
/-- The walk under way of a context and unit changed. -/
def Engines.modWalk (g : Engines) (ctx unit : Nat) (f : Walk → Walk) : Engines :=
  { g with walks := g.walks.map fun w => if w.ctx == ctx && w.unit == unit && !w.ended then f w else w }
/-- The WE takes the slots of its walk's ring until a node's record has come, each into its record; none where it must wait, with the pair
(R199, R242, R243). -/
def Device.takeDue (d : Device) (sc : Nat) (w : Walk) (n : Nat) : Nat → Except Nat Device
  | 0 => .ok d
  | fuel + 1 =>
    match (d.eng sc).walk? w.ctx w.unit with
    | none => .ok d
    | some v =>
      if !v.due.contains n then .ok d
      else match d.walkRing sc w with
        | none => .ok (d.modEng sc fun g => g.modWalk w.ctx w.unit fun v => { v with due := [] })
        | some (k, p) => match p.take with
          | none => .error k
          | some (_, q) =>
            (((d.modSem sc k fun _ => q.release.settle).startWaiting sc).modEng sc fun g => g.modWalk w.ctx w.unit fun v =>
              { v with due := v.due.drop 1 }).takeDue sc w n fuel
/-- One commit: the expansion of an entry of the beam enters the committed walk, squashed expansions lose their records and gathered scores,
and their slots refill (R134, R137, R201). -/
def Device.commitWalk (d : Device) (sc : Nat) (x : Index) (w : Walk) (n : Nat) : Device :=
  let g := d.eng sc
  let r := w.walked.expand (w.view x) 0 w.width w.keep (w.sk g) (w.fin x g) n
  let w1 := { (w.took x g (d.ctxBeta w.ctx) (d.ctxTransform w.ctx x) d.shoal.device r) with inFlight := w.inFlight.filter (·.node != n) }
  let (w2, out, new) := w1.refill
  let (d1, w3) := d.ask sc x { w2 with squashed := w2.squashed + out.length } new
  (d1.modEng sc fun g => { g.modWalk w.ctx w.unit (fun _ => w3) with
    gathered := g.gathered.filter fun o => !(o.ctx == w.ctx && o.unit == w.unit && (o.node.elim true fun m => m == n || out.contains m)) }).modCnt sc
    fun k => { k with weCommits := k.weCommits + 1, weSquashes := k.weSquashes + out.length }
/-- EXPANSION_COMMIT: the expansion of the best unexpanded entry of a walk's committed beam commits once its record has come; a record that fails
its check is a tag mismatch (R134, R137, R200). -/
def expansionCommitEff (sc ctx unit : Nat) (d : Device) : Device :=
  match (d.eng sc).walk? ctx unit with
  | none => d
  | some w =>
    match d.index? w.index, nextOf w.beam with
    | some x, some e => match d.takeDue sc w e.node (w.due.length + 1) with
      | .error k => d.engineWait sc k
      | .ok d1 => match d1.expansionMiss x w e.node with
        | some a => tagMismatchEff sc ctx (some a) d1
        | none => d1.commitWalk sc x ((d1.eng sc).walk? ctx unit |>.getD w) e.node
    | _, _ => d
/-- EXPANSION_COMMIT (R137). -/
def execExpansionCommit (sc ctx unit : Nat) (s : State) : Host.Outcome State Fault Refusal := onDev (expansionCommitEff sc ctx unit) s

/-! ### Filter Unit (R202 to R206) -/

/-- The fields of an FU descriptor (R205). -/
structure FuDesc where
  source   : Nat
  prog     : Nat
  nSets    : Nat
  sets     : List Nat
  src      : Nat
  count    : Nat
  tomb     : Nat
  start    : Nat
  startSeq : Nat
  mask     : Nat
  unit     : Nat
  ctx      : Nat
  deriving DecidableEq, Repr
/-- The descriptor that bytes hold (R205). -/
def parseFu (b : List Byte) : FuDesc :=
  { source := fieldAt b 0 1, prog := fieldAt b 1 1, nSets := fieldAt b 2 1, sets := (List.range 4).map fun i => fieldAt b (4 + i) 1,
    src := fieldAt b 8 4, count := fieldAt b 12 4, tomb := fieldAt b 16 4, start := fieldAt b 20 4, startSeq := fieldAt b 24 8,
    mask := fieldAt b 32 4, unit := fieldAt b 36 4, ctx := fieldAt b 40 4 }
/-- The index whose layout the candidates have: that of the context's command, or that of the program. -/
def Device.fuIndex (d : Device) (sc : Nat) (f : FuDesc) : Option Index :=
  (d.ctxIndex f.ctx).or ((tfind f.prog (d.eng sc).fu.progs).bind fun p => d.index? p.indexNo)
/-- Bytes of the source: blocks of 64 candidates, entries, nodes or headers (R90, R92, R100, R105). -/
def FuDesc.bytes (f : FuDesc) (x : Index) : Nat :=
  match f.source with
  | 0 => ceilDiv f.count 64 * x.blockLen
  | 1 => f.count * x.deltaLen
  | 2 => f.count * 448
  | _ => f.count * 256
/-- Bytes of the masks, 8 for each group and set, or of the two-bit verdicts, 16 for each 64 cells and set (R204, R206). -/
def FuDesc.maskBytes (f : FuDesc) : Nat := (if f.source = 3 then 16 else 8) * ceilDiv f.count 64 * f.nSets
/-- The checks of R205. -/
def Device.fuOk (d : Device) (sc : Nat) (f : FuDesc) : Bool :=
  (f.prog == 255 || (f.prog < 8 && (tfind f.prog (d.eng sc).fu.progs).isSome)) && decide (1 ≤ f.nSets ∧ f.nSets ≤ 4)
    && (f.sets.take f.nSets).all (· < 16) && f.count ≤ 65536 && (f.source == 0 || f.tomb == 0)
    && (d.fuIndex sc f).elim false (fun x => inSpad f.src (f.bytes x))
    && inSpad f.mask (f.maskBytes)

/-- Attribute words at an offset of bytes. -/
def attrsAt (bs : List Byte) (off n : Nat) : List W64 := (List.range n).map fun w => BitVec.ofNat 64 (fieldAt bs (off + 8 * w) 8)
/-- A candidate of the source: its ID and attribute words, if R123 admits it and its position is in use and not tombstoned (R204);
`base` is the view that freshness compares with. A TOMB_ADDR of 0 names no bitmap (DESIGN CHOICE, log entry 39). -/
def Device.fuCand (d : Device) (sc : Nat) (f : FuDesc) (x : Index) (base i : Nat) : Option (W64 × List W64) :=
  let idOk := fun (id : Nat) (as_ : List W64) => if id = fillerId.toNat then none else some (BitVec.ofNat 64 id, as_)
  match f.source with
  | 0 =>
    let b := d.spad sc (f.src + i / 64 * x.blockLen) x.blockLen
    let j := i % 64
    let view := fieldAt b 24 4
    let fresh := view != 0 && viewNewer view base && (fieldAt b 16 8).testBit j
    let tomb := f.tomb != 0 && (fieldAt (d.spad sc (f.tomb + i / 8) 1) 0 1).testBit (i % 8)
    if fresh || tomb || fieldAt b 3 1 ≤ j then none
    else idOk (fieldAt b (64 + 64 * x.codeLen + 8 * j) 8) (attrsAt b (576 + 64 * x.codeLen + 8 * x.attrWords * j) x.attrWords)
  | 1 =>
    let b := d.spad sc (f.src + i * x.deltaLen) x.deltaLen
    let st := fieldAt b 12 1
    let ev := fieldAt b 8 4
    let seen := st != 0 && decide (fieldAt b 24 8 ≤ f.startSeq) &&
      (st == 1 || (ev != 0 && viewNewer ev (if st == 4 then base else f.start)))
    if seen then idOk (fieldAt b 0 8) (attrsAt b 32 x.attrWords) else none
  | _ =>
    let b := d.spad sc (f.src + i * 448) 448
    idOk (fieldAt b 0 8) (attrsAt b 384 x.attrWords)

/-- The mask of a group for one parameter set (R204). -/
def Device.fuMask (d : Device) (sc : Nat) (f : FuDesc) (x : Index) (base g set : Nat) : Nat :=
  lsum ((List.range 64).map fun j =>
    let i := 64 * g + j
    if i < f.count then
      (d.fuCand sc f x base i).elim 0 fun (id, as_) => if (d.eng sc).fu.admits f.prog set id as_ then 2 ^ j else 0
    else 0)
/-- The verdict of a cell header for one parameter set (R143, R206): 0 NONE, 1 SOME, 2 ALL. -/
def Device.fuVerdict (d : Device) (sc : Nat) (f : FuDesc) (x : Index) (c set : Nat) : Nat :=
  let b := d.spad sc (f.src + 256 * c) 256
  let live := fieldAt b 28 4
  let w := fun (o : Nat) => (List.range 8).map fun i => BitVec.ofNat 64 (fieldAt b (128 + 16 * i + o) 8)
  let s : Summary := { emptySummary x.attrWords with valid := (fieldAt b 5 1).testBit 1, orW := w 0, andW := w 8 }
  let v := match tfind f.prog (d.eng sc).fu.progs with
    | some p => cellVerdict p (tget (0, []) set (d.eng sc).fu.sets).2 s live
    | none => if live = 0 then Verdict.none else Verdict.all
  match v with
  | .none => 0
  | .some => 1
  | .all => 2

/-- The masks or verdicts of an FU descriptor (R204, R206). Masks lie group by group and set by set, verdicts cell by cell and set by set
(log entry 21). -/
def Device.fuOut (d : Device) (sc : Nat) (f : FuDesc) (x : Index) : List Byte :=
  let base := (d.ctxCmd f.ctx).elim f.start fun c => if d.routed c.indexNo then c.shoalView else f.start
  let sets := f.sets.take f.nSets
  if f.source = 3 then packCodes 2 ((List.range f.count).flatMap fun c => sets.map fun q => d.fuVerdict sc f x c q)
  else (List.range (ceilDiv f.count 64)).flatMap fun g => sets.flatMap fun q => leBytes 8 (d.fuMask sc f x base g q)
/-- The masks or verdicts written, tagged with their context and unit (R181, R204). -/
def Device.fuGo (d : Device) (sc : Nat) (f : FuDesc) (x : Index) : Device :=
  ((d.spadWrite sc f.mask (d.fuOut sc f x)).modEng sc fun g => { g with outTags := tset f.mask (f.ctx, f.unit) g.outTags }).modCnt sc
    fun k => { k with fuGroups := k.fuGroups + ceilDiv f.count 64 }
/-- An FU descriptor of a SOURCE runs (R202 to R206). The CE, the ME or the WE is the consumer of a slot whose candidates it filters, and it is
the consumer of cell headers (R242, R243; log entry 37). -/
def fuEff (source sc : Nat) (desc : List Byte) (d : Device) : Device :=
  let f := parseFu desc
  d.runDesc sc f.ctx f.source source 3 (d.fuOk sc f) fun d =>
    match d.fuIndex sc f with
    | none => d
    | some x =>
      if source = 3 then (d.withRings sc f.ctx [f.src] fun d => (d.fuGo sc f x, true)).1
      else d.afterRings sc f.ctx [f.src] fun d => d.fuGo sc f x
/-- FU_SLOT_BLOCK (R204). -/
def execFuSlotBlock (sc : Nat) (desc : List Byte) (s : State) : Host.Outcome State Fault Refusal := onDev (fuEff 0 sc desc) s
/-- FU_DELTA (R204). -/
def execFuDelta (sc : Nat) (desc : List Byte) (s : State) : Host.Outcome State Fault Refusal := onDev (fuEff 1 sc desc) s
/-- FU_NODE_RECORDS (R204). -/
def execFuNodeRecords (sc : Nat) (desc : List Byte) (s : State) : Host.Outcome State Fault Refusal := onDev (fuEff 2 sc desc) s
/-- FU_CELL_SUMMARIES (R206). -/
def execFuCellSummaries (sc : Nat) (desc : List Byte) (s : State) : Host.Outcome State Fault Refusal := onDev (fuEff 3 sc desc) s

/-! ### Engines that waited -/

/-- The ME and the CE of an SC go on with what they kept (R195, R208, R243). -/
def Device.enginesResume (d : Device) (sc : Nat) : Device := (d.meResume sc).ceResume sc
/-- The meaning of TRANSFER_COMPLETE: after it, engines that waited for a slot go on. -/
def execTransferComplete (sc x : Nat) (s : State) : Host.Outcome State Fault Refusal :=
  onDev (fun d => (transferCompleteEff sc x d).enginesResume sc) s

end Sys2Proof.Machine
end

