-- ==== Sys2Proof/Machine/Dip.lean ====
section
/-! DEFINITION. The time of an SC: dip points, deficit round robin, work stealing, preemption, spill and fill (R340, R341, R354 to R356,
R360). -/

namespace Sys2Proof.Machine

/-- Bytes of a scratchpad bank (R24). -/
def bankBytes : Nat := 0x40000

/-! ### Banks (R354) -/

/-- What a bank of an SC is: a floor bank or a call bank of a burgee, or shared. -/
inductive BankKind where
  | floor (b : Nat)
  | call (b : Nat)
  | shared
  deriving DecidableEq, Repr

/-- The 32 banks of an SC: each burgee's floor, then its call, in ascending burgee, the rest shared (R354; log entry 19). -/
def Device.bankKinds (d : Device) (sc : Nat) : List BankKind :=
  let own := (List.range 16).flatMap fun b =>
    let g := d.burgee b
    if g.enabled then List.replicate (g.floor.getD sc 0) (BankKind.floor b) ++ List.replicate (g.call.getD sc 0) (BankKind.call b) else []
  (own ++ List.replicate 32 BankKind.shared).take 32
/-- The context that holds a bank of an SC. -/
def Device.bankHolder (d : Device) (sc n : Nat) : Option Ctx := d.ctxs.find? fun k => k.sc == sc && k.banks.contains n

/-- A context may hold a bank of a kind: floor banks are for the burgee's rank-4 contexts, call banks for its search contexts (R354). -/
def Ctx.mayHold (k : Ctx) : BankKind → Bool
  | .floor b => k.burgee == b && k.rank == 4
  | .call b => k.burgee == b && decide (3 ≤ k.rank)
  | .shared => true

/-- Free banks a context may take, floor and call banks of its burgee first, each in ascending number. -/
def Device.freeBanks (d : Device) (k : Ctx) : List Nat :=
  let ks := d.bankKinds k.sc
  let free := (List.range 32).filter fun n => (d.bankHolder k.sc n).isNone && k.mayHold (ks.getD n .shared)
  (free.filter fun n => ks.getD n .shared != .shared) ++ free.filter fun n => ks.getD n .shared == .shared
/-- Banks a context may take by spill, in the order of their choice: the holder of lowest rank, then the most recently started, then the
highest bank number; floor banks are never spilled (R354, R355). -/
def Device.victimBanks (d : Device) (k : Ctx) : List (Nat × Nat) :=
  let ks := d.bankKinds k.sc
  let cand := (List.range 32).filterMap fun n =>
    match ks.getD n .shared, d.bankHolder k.sc n with
    | .floor _, _ => none
    | kind, some v => if k.mayHold kind && decide (v.rank < k.rank) then some (v.rank, v.order, n, v.id) else none
    | _, none => none
  let before := fun (a b : Nat × Nat × Nat × Nat) =>
    if a.1 != b.1 then decide (a.1 < b.1) else if a.2.1 != b.2.1 then decide (b.2.1 < a.2.1) else decide (b.2.2.1 < a.2.2.1)
  (sortBy before cand).map fun c => (c.2.2.1, c.2.2.2)

/-! ### Spill and fill (R355, R356) -/

/-- F-tier space for a mirrored area of n logical bytes, on a 2,048 B boundary (R310; DESIGN CHOICE, log entry 33: taken when it is needed). -/
def Device.takeSpill (d : Device) (owner : Option Nat) (n : Nat) : Option (Nat × Device) :=
  (findSpace 0x10000000 0x10000000 d.fCap 0 2048 d.tiers.extF owner (2 * n)).map fun c =>
    (c, { d with tiers := { d.tiers with extF := ⟨c, 2 * n, owner⟩ :: d.tiers.extF } })
/-- The rings of an SC that lie in a bank. -/
def Device.ringsIn (d : Device) (sc n : Nat) : List Nat :=
  ((d.str sc).sems.filter fun p => p.2.active && !inTile p.2.ringAddr && decide (p.2.ringAddr < bankBytes * (n + 1)) &&
    decide (bankBytes * n < p.2.ringAddr + p.2.nSlots * p.2.slotBytes)).map (·.1)
/-- A ring's pair is spilled with its bank: a multicast stream drops the SC, which fills the ring again on resume; any other pair is kept with its
context, and slots of an input ring whose transfers are outstanding will be read again whole (R260, R261). -/
def Device.spillRing (d : Device) (sc ctx k : Nat) : Device :=
  let p := d.sem sc k
  match d.fillerOf sc k with
  | some (on, t) =>
    if t.opcode = 4 then d.giveUpRing on sc k ctx t []
    else
      let slots := (((d.outstanding sc t.id).filter (·.ldm.isNone)).map (·.slot)).eraseDups
      (d.modStream sc t.id fun t => { t with again := t.again ++ slots }).modStr sc fun s => { s with
        xfers := s.xfers.filter (fun x => !(x.stream == t.id && x.ldm.isNone)), sems := tset k { wait := p.wait } s.sems,
        saved := tmod [] ctx (· ++ [(k, p)]) s.saved }
  | none => d.modStr sc fun s => { s with sems := tset k { wait := p.wait } s.sems, saved := tmod [] ctx (· ++ [(k, p)]) s.saved }
/-- The pairs spilled with a context's banks return, its streams go on, and slots discarded at the spill are read again whole (R261). -/
def Device.fillRings (d : Device) (sc ctx : Nat) : Device :=
  let saved := tget [] ctx (d.str sc).saved
  let d1 := d.modStr sc fun s => { s with
    sems := saved.foldl (fun t p => tset p.1 { p.2 with wait := (tget {} p.1 s.sems).wait } t) s.sems, saved := tdel ctx s.saved,
    running := s.running.map fun t => if t.ctx == ctx then { t with yielded := false } else t }
  let again := ((d1.str sc).running.filter (·.ctx == ctx)).flatMap fun t => t.again.map fun s => (t.id, s)
  (again.foldl (fun d p => d.readAgain sc p.1 p.2) d1).startWaiting sc

/-- A bank of a context is spilled to mirrored F-tier space with the rings in it: its bytes are copied, and counted against the client (R261,
R310, R355, R356); none where no space is free. -/
def Device.spillBank (d : Device) (n ctx : Nat) : Option Device :=
  match d.ctx? ctx with
  | none => none
  | some k => match d.takeSpill (some k.burgee) bankBytes with
    | none => none
    | some (a, d1) =>
      let bytes := d.read (scBase k.sc + bankBytes * n) bankBytes
      let both := (chunksOf 1024 (bankBytes / 1024) bytes).flatMap fun c => c ++ c
      let d2 := ((d.ringsIn k.sc n).foldl (fun d r => d.spillRing k.sc ctx r) (d1.write a both)).modCtx ctx fun k => { k with
        banks := k.banks.filter (· != n), spilled := k.spilled ++ [(n, a)], state := .spilled,
        rrt := k.rrt.map fun e => { e with slotAddr := a } }
      some ((d2.account (d.clientOf ctx) k.burgee fun x => { x with spilled := x.spilled + bankBytes }).modCnt k.sc
        fun c => { c with spilled := c.spilled + bankBytes })
/-- Bytes of a spilled VE record and of a tile buffer (R217, R239). -/
def veBytes : Nat := 27328
/-- Bytes spilled, counted for a context on its SC (R356). -/
def Device.countSpill (d : Device) (sc ctx n : Nat) : Device :=
  match d.ctx? ctx with
  | none => d
  | some k => if n = 0 then d else
    (d.account (d.clientOf ctx) k.burgee fun x => { x with spilled := x.spilled + n }).modCnt sc fun c => { c with spilled := c.spilled + n }
/-- The VE state of another context that the registers still hold is written to that context's spill area, for a context with VE work (R239,
R355). -/
def Device.spillVe (d : Device) (sc ctx : Nat) : Device :=
  match (d.eng sc).veOwner with
  | none => d
  | some v =>
    if v = ctx || (d.ctx? v).isNone then d
    else (d.modEng sc fun e => { e with
      savedVe := tset v e.ve e.savedVe, ve := { progs := e.ve.progs, stalls := e.ve.stalls, e2m1NaN := e.ve.e2m1NaN }, veOwner := none }).countSpill sc v veBytes
/-- Tile buffers that a context needs and others hold are written to their holders' spill areas (R217, R239, R355). -/
def Device.spillTiles (d : Device) (sc ctx : Nat) (tiles : List Nat) : Device :=
  tiles.foldl (fun d b => match tfind b (d.eng sc).tb with
    | some t => match t.owner with
      | some v => if v = ctx then d else
        (d.modEng sc fun e => { e with savedTb := tmod [] v (· ++ [(b, t)]) e.savedTb, tb := tdel b e.tb }).countSpill sc v 65536
      | none => d
    | none => d) d
/-- A yielding context's finished tiles and unfinished running sums go to its spill area, 16,448 B and 16 KiB each; the entries of other contexts
keep their places (R191). -/
def Device.spillFtq (d : Device) (sc ctx : Nat) : Device :=
  match d.ctx? ctx with
  | none => d
  | some k =>
    let e := d.eng sc
    let mine := (e.ftq.filter fun f => f.ctx == ctx) ++ (e.ftqHeld.filter (·.ctx == ctx)).toList
    let sums := (e.accTiles.filter fun p => k.banks.contains (p.1 / bankBytes)).map fun p => (p.1, p.2, d.read (scBase sc + p.1) 16384)
    (d.modEng sc fun e => { e with
      ftq := e.ftq.filter (fun f => f.ctx != ctx), ftqHeld := e.ftqHeld.filter (·.ctx != ctx),
      savedFtq := if mine.isEmpty then e.savedFtq else tset ctx (tget [] ctx e.savedFtq ++ mine) e.savedFtq,
      accTiles := sums.foldl (fun t p => tdel p.1 t) e.accTiles,
      savedAcc := if sums.isEmpty then e.savedAcc else tset ctx sums e.savedAcc }).countSpill sc ctx (16448 * mine.length + 16384 * sums.length)
/-- A context takes its SC's engines again: its finished tiles, running sums, VE state and tile buffers return, and its streams go on (R191, R239,
R261). -/
def Device.resumeOn (d : Device) (sc : Nat) (k : Ctx) : Device :=
  let d1 := if k.usesVe then d.spillVe sc k.id else d
  let d2 := d1.spillTiles sc k.id ((tget [] k.id (d1.eng sc).savedTb).map (·.1))
  let sums := tget [] k.id (d2.eng sc).savedAcc
  let d3 := sums.foldl (fun d p => d.write (scBase sc + p.1) p.2.2) d2
  let d4 := d3.modEng sc fun e =>
    let e := e.unsaveFtq k.id
    { e with ve := if k.usesVe then (tfind k.id e.savedVe).elim e.ve fun v => { v with progs := e.ve.progs, stalls := e.ve.stalls, e2m1NaN := e.ve.e2m1NaN } else e.ve,
             savedVe := tdel k.id e.savedVe, veOwner := if k.usesVe then some k.id else e.veOwner,
             tb := (tget [] k.id e.savedTb).foldl (fun t p => tset p.1 p.2 t) e.tb, savedTb := tdel k.id e.savedTb,
             accTiles := sums.foldl (fun t p => tset p.1 p.2.1 t) e.accTiles, savedAcc := tdel k.id e.savedAcc }
  d4.fillRings sc k.id

/-- Several banks spilled in turn; none where one has no space. -/
def Device.spillAll (d : Device) : List (Nat × Nat) → Option Device
  | [] => some d
  | p :: ps => (d.spillBank p.1 p.2).bind fun d => d.spillAll ps

/-- SPILL_DONE: the spill writes of a preemption are accepted, and the preempting unit starts (R355). -/
def spillDoneEff (sc : Nat) (d : Device) : Device :=
  match (d.sc sc).starting with
  | none => d
  | some id => (d.modSc sc fun s => { s with starting := none, running := some id }).modCtx id fun k => { k with state := .running, started := true }
/-- SPILL_DONE (R355). -/
def execSpillDone (sc : Nat) (s : State) : Host.Outcome State Fault Refusal := onDev (spillDoneEff sc) s

/-! ### The choice at a dip point (R341, R360) -/

/-- A context can run: its command has not been cut, its unit may start (R162), and it waits for nothing. -/
def Device.ctxReady (d : Device) (k : Ctx) : Bool :=
  (k.state == .ready || k.state == .yielded || k.state == .running) && k.spilled.isEmpty &&
    (k.started || match k.cmd.bind d.cmd? with
      | some c => c.phase == .active && (c.runs.getD k.vec {}).mayStart k.unit
      | none => true)
/-- Order within a burgee: rank, then deadline, fetch order and unit number; a running context first among equals, which never preempt
one another (R340, R341). -/
def Ctx.before (a b : Ctx) : Bool :=
  if a.rank != b.rank then decide (b.rank < a.rank)
  else if (a.state == .running) != (b.state == .running) then a.state == .running
  else if 3 ≤ a.rank && a.deadline != b.deadline then decide (a.deadline < b.deadline)
  else if 3 ≤ a.rank && a.stamp != b.stamp then decide (a.stamp < b.stamp)
  else if a.unit != b.unit then decide (a.unit < b.unit) else decide (a.id < b.id)

/-- Credits after cycles have passed: ready burgees gain their share, the running one is charged, and a burgee without a ready search
unit has none (R341). -/
def Device.credits (d : Device) (sc cycles : Nat) : Tab Int :=
  let here := d.ctxs.filter fun k => k.sc == sc
  let run := ((d.sc sc).running.bind d.ctx?).map (·.burgee)
  (List.range 16).filterMap fun b =>
    let ready := here.any fun k => k.burgee == b && decide (3 ≤ k.rank) && d.ctxReady k
    let g : Int := ((d.burgee b).share.getD sc 0 * cycles : Nat)
    let c := tget 0 b (d.sc sc).credit
    let spent : Int := if run == some b then (16 * cycles : Nat) else 0
    if ready then some (b, min ((262144 : Nat) : Int) (c + g - spent)) else none

/-- The context an SC runs next: of the burgee with the largest credit among those with a ready search unit, the lower number on a tie;
without one, the highest rank, by credit again (R341). -/
def Device.nextCtx (d : Device) (sc : Nat) : Option Ctx :=
  let ready := d.ctxs.filter fun k => k.sc == sc && d.ctxReady k && k.state != .remote
  let search := ready.filter fun k => decide (3 ≤ k.rank)
  let pool := if search.isEmpty then
      let top := ready.foldl (fun m (k : Ctx) => max m k.rank) 0
      ready.filter fun k => k.rank == top
    else search
  let credit := fun (b : Nat) => tget (0 : Int) b (d.sc sc).credit
  let better := fun (a b : Ctx) => if a.burgee == b.burgee then a.before b
    else if credit a.burgee != credit b.burgee then decide (credit b.burgee < credit a.burgee) else decide (a.burgee < b.burgee)
  (sortBy better pool).head?

/-- WORK_STEAL: an SC without a ready unit of a burgee takes one that has not started from the SC with the most of them at the highest
rank: the one that SC would start last (R360). -/
def Device.steal (d : Device) (sc b : Nat) : Device :=
  let g := d.burgee b
  let own := d.ctxs.any fun k => k.sc == sc && k.burgee == b && d.ctxReady k
  if !g.scSet.getLsbD sc || (d.sc sc).out || own then d
  else
    let fits := fun (k : Ctx) => match k.cmd.bind d.cmd? with | some c => (d.scsFor c).contains sc | none => true
    let open_ := d.ctxs.filter fun k => k.burgee == b && k.sc != sc && !k.started && d.ctxReady k && fits k
    let top := open_.foldl (fun m (k : Ctx) => max m k.rank) 0
    let cand := open_.filter fun k => k.rank == top
    let count := fun n => (cand.filter fun k => k.sc == n).length
    let most := cand.foldl (fun m (k : Ctx) => max m (count k.sc)) 0
    match (List.range 64).find? fun n => decide (0 < most) && count n == most with
    | none => d
    | some v => match (sortBy Ctx.before (cand.filter fun k => k.sc == v)).getLast? with
      | some k => d.modCtx k.id fun k => { k with sc := sc }
      | none => d

/-- The running context gives way at its dip point: its streams stop issuing, its tiles and running sums are spilled, and a lower-ranked one suffers
a preemption (R191, R261, R355, R356). -/
def Device.yieldCtx (d : Device) (sc : Nat) (k : Ctx) : Device :=
  match (d.sc sc).running.bind d.ctx? with
  | none => d
  | some v =>
    if v.id == k.id then d
    else
      let d1 := ((d.modCtx v.id fun v => { v with state := .yielded }).modSc sc fun s => { s with running := none }).modStr sc fun s =>
        { s with running := s.running.map fun t => if t.ctx == v.id then { t with yielded := true } else t }
      let d2 := (d1.modCnt sc fun c => { c with yields := c.yields + 1 }).spillFtq sc v.id
      if v.rank < k.rank then d2.account (d.clientOf v.id) v.burgee fun a => { a with preempted := a.preempted + 1 } else d2

/-- A slot of `n` for a unit: the one that already serves it, else a free one, else one that no running unit uses and that yielded
contexts or contexts of lower rank hold (R203). -/
def slotFor (n : Nat) (serves : Nat → Bool) (users : Nat → List Ctx) (rank : Nat) : Option Nat :=
  let is := List.range n
  (is.find? serves).or ((is.find? fun i => (users i).isEmpty).or
    (is.find? fun i => (users i).all fun v => v.state != .running && (v.state == .yielded || v.state == .spilled || decide (v.rank < rank))))
/-- The program and parameter-set slots of a unit that needs the FU, loaded where another unit's were reloaded over; none where the unit
waits for a slot (R202, R203). -/
def Device.takeFu (d : Device) (sc : Nat) (k : Ctx) : Option Device :=
  match (k.cmd.bind d.cmd?).bind fun c => (c.snap.bind (·.filter)).map fun p => (p, c.ps) with
  | none => some d
  | some (p, ps) =>
    let fu := (d.eng sc).fu
    let uses := fun (v : Ctx) => (v.cmd.bind d.cmd?).bind fun c => (c.snap.bind (·.filter)).map fun p => (p, c.ps)
    let held := d.ctxs.filter fun v => v.sc == sc && v.id != k.id && v.started
    let progUsers := fun i => held.filter fun v => (uses v).any fun u => tfind i fu.progs == some u.1
    match slotFor 8 (fun i => tfind i fu.progs == some p) progUsers k.rank with
    | none => none
    | some i =>
      let setUsers := fun j => held.filter fun v => (uses v).any fun u =>
        (tfind j fu.sets).any fun q => tfind q.1 fu.progs == some u.1 && q.2 == u.2
      match slotFor 16 (fun j => tfind j fu.sets == some (i, ps)) setUsers k.rank with
      | none => none
      | some j =>
        let load := (if tfind i fu.progs == some p then 0 else 40) + (if tfind j fu.sets == some (i, ps) then 0 else 8)
        let d1 := d.modEng sc fun e => { e with fu := { progs := tset i p e.fu.progs, sets := tset j (i, ps) e.fu.sets } }
        some (if k.started then d1.account (d.clientOf k.id) k.burgee fun a => { a with scCycles := a.scCycles + load } else d1)

/-- T: table sets of an index that the CE table store holds (R192). -/
def Index.tableSets (x : Index) : Nat := max 1 (min 16 (524288 / max 1 (x.subspaces * x.bookK)))
/-- A stopped scan still reads a slot of the table store (R192). -/
def Engines.readsSlot (g : Engines) (s : Nat) : Bool :=
  g.ceNext.any fun p => let c := parseCe p.1; !c.gathers && (c.slots.take c.nq).contains s
/-- The slot of the table store that a query's set or code takes among `t`: its number modulo t, or the next one that no stopped scan reads
(R192; DESIGN CHOICE, log entry 38). -/
def Engines.setSlot (g : Engines) (t q : Nat) : Nat :=
  (((List.range t).map fun i => (q + i) % t).find? fun s => !g.readsSlot s).getD (q % t)
/-- A table set or a query code loaded into a slot of the table store. -/
def Engines.putSlot (g : Engines) (t q : Nat) (s : CeSlot) : Engines := { g with ceSlots := tset (g.setSlot t q) s g.ceSlots }
/-- The CE table store as a starting unit has it loaded: its vector's table set, or its query code or sketch (R63, R131, R134, R192; log
entry 21). -/
def Device.loadTables (d : Device) (sc : Nat) (k : Ctx) : Device :=
  match k.cmd.bind d.cmd? with
  | none => d
  | some c => match d.index? c.indexNo with
    | none => d
    | some x =>
      let q := c.query k.vec
      let put := fun (d : Device) (n : Nat) (s : CeSlot) => d.modEng sc (·.putSlot (if x.metric == .ham then 16 else x.tableSets) n s)
      let sketch := CeSlot.code ((signSketch q).take 1024)
      match (c.runs.getD k.vec {}).units[k.unit]? with
      | some (.seg n _) =>
        if x.metric == .ham then put d k.vec (.code (signSketch q))
        else put d k.vec (.table (x.tablesOf ((x.cell n).copyAt c.startView).gen n q))
      | some .walk => (put d k.vec (.table (x.tablesOf x.liveGen 0 q))).modEng sc fun e => { e with ceSlots := tset (15 - k.vec % 16) sketch e.ceSlots }
      | some (.delta _) => if x.metric == .ham then put d k.vec (.code (signSketch q)) else d
      | none => d

/-- A unit waits for a Filter Unit slot: the wait is its command's queue wait, and where units of another burgee at rank 4 hold the slots, an event
of R353 (R203). -/
def Device.waitFu (d : Device) (sc : Nat) (k : Ctx) : Device :=
  let d1 := d.modCtx k.id fun k => { k with fuWait := k.fuWait.or (some d.now) }
  let others := d.ctxs.any fun v => v.sc == sc && v.started && v.burgee != k.burgee && v.rank == 4
  match k.cmd with
  | some st => if k.rank = 4 && others then d1.voidBound st else d1
  | none => d1
/-- A unit has its slots: its wait for them ends (R203). -/
def Device.gotFu (d : Device) (k : Ctx) : Device :=
  match k.fuWait, k.cmd.bind d.cmd? with
  | some t, some c => (d.recordWait c (d.now - t)).modCtx k.id fun k => { k with fuWait := none }
  | _, _ => d
/-- CONTEXT_FILL: a spilled context's banks, and the pairs of its rings, are free again: its bytes and pairs return to their places, a parked
reply is consumed, and it resumes from its dip point where the SC is free and has slots of the Filter Unit for it (R203, R261, R355, R358). -/
def contextFillEff (ctx : Nat) (d : Device) : Device :=
  match d.ctx? ctx with
  | none => d
  | some k =>
    let free := k.spilled.all (fun p => (d.bankHolder k.sc p.1).isNone) &&
      (tget [] ctx (d.str k.sc).saved).all fun p => !(d.sem k.sc p.1).active
    if k.state != .spilled || !free then d
    else
      let d1 := k.spilled.foldl (fun d p =>
        ((d.mirrorCount p.2 bankBytes).write (scBase k.sc + bankBytes * p.1) (d.mirrorRead p.2 bankBytes)).freeF p.2) d
      let parked := k.rrt.filter fun r => r.state == .parked
      let back := { k with banks := k.banks ++ k.spilled.map (·.1), spilled := [], rrt := k.rrt.filter (fun r => r.state != .parked), state := .yielded }
      let d2 := d1.modCtx ctx fun _ => back
      let d3 := if (d2.sc k.sc).running.isSome then d2 else match d2.takeFu k.sc back with
        | none => d2
        | some e => ((e.resumeOn k.sc back).modCtx ctx fun k => { k with state := .running }).modSc k.sc fun s => { s with running := some ctx }
      parked.foldl (fun d r => match d.shoal.pending.find? fun o => o.tag == r.tag with
        | some o => d.consume o r.reply
        | none => d) d3
/-- CONTEXT_FILL (R355). -/
def execContextFill (ctx : Nat) (s : State) : Host.Outcome State Fault Refusal := onDev (contextFillEff ctx) s


/-- The chosen context takes the SC: it goes on, starts in free banks, or starts once the banks it needs are spilled (R355); a unit
that cannot have its banks or its Filter Unit slots leaves the SC as it is (R203). -/
def Device.takeSc (d : Device) (sc need : Nat) (usesVe : Bool) (tiles : List Nat) (k : Ctx) : Device :=
  if (d.sc sc).running == some k.id then d
  else match d.takeFu sc k with
  | none => d.waitFu sc k
  | some d =>
    let want := if k.started then 0 else need
    let free := d.freeBanks k
    let take := free.take want
    let vict := (d.victimBanks k).take (want - take.length)
    if take.length + vict.length < want then d
    else
      match ((d.gotFu k).yieldCtx sc k).spillAll vict with
      | none => d
      | some d1 =>
        let n := (d1.sc sc).dips
        let d1 := if k.started then d1.resumeOn sc k
          else
            let d2 := ((if usesVe then d1.spillVe sc k.id else d1).spillTiles sc k.id tiles).loadTables sc k
            d2.modEng sc fun e => { e with veOwner := if usesVe then some k.id else e.veOwner }
        let d2 := d1.modCtx k.id fun k => { k with
          banks := k.banks ++ take ++ vict.map (·.1), tiles := if k.started then k.tiles else tiles, usesVe := k.usesVe || usesVe,
          need := if k.started then k.need else need, order := if k.started then k.order else n,
          state := if vict.isEmpty then .running else .ready, started := k.started || vict.isEmpty }
        d2.modSc sc fun s => if vict.isEmpty then { s with running := some k.id } else { s with starting := some k.id }

/-- A step of an SC's SE ends at a dip point: the lists it keeps are those the next step begins with, and a step that has run again without a
mismatch is no longer suspect (R176). -/
def Device.seStep (d : Device) (sc : Nat) : Device :=
  let s := d.sc sc
  let d1 := d.modEng sc fun e => { e with seKept := e.se }
  if s.suspect.isNone then d1
  else d1.modSc sc fun s => { s with suspect := if s.rerun then none else s.suspect, rerun := !s.rerun }

/-- DIP_POINT_SCHEDULE: an SC reaches a dip point after a number of cycles, in which a VE without a descriptor counts NO_WORK (R240): credits are settled, units are stolen, and the unit of
highest right runs; `need`, `usesVe` and `tiles` are its footprint in its hoist table (R341, R355, R360). -/
def dipPointScheduleEff (sc cycles need : Nat) (usesVe : Bool) (tiles : List Nat) (d : Device) : Device :=
  if !d.ready || 64 ≤ sc || (d.sc sc).out || (d.sc sc).starting.isSome then d
  else
    let run := (d.sc sc).running.bind d.ctx?
    let d1 := match run with
      | some k => d.account (d.clientOf k.id) k.burgee fun a => { a with scCycles := a.scCycles + cycles }
      | none => d
    let cr := d1.credits sc cycles
    let ve := (d1.eng sc).veNext.isSome || run.any (·.usesVe)
    let idle := fun (e : Engines) => if ve then e else { e with ve := { e.ve with stalls := lmod 5 (· + cycles) e.ve.stalls } }
    let d2 := (((((d1.modEng sc idle).seStep sc).startWaiting sc).startWalks sc).enginesResume sc).modSc sc fun s => { s with credit := cr, dips := s.dips + 1 }
    let d3 := (List.range 16).foldl (fun d b => d.steal sc b) d2
    match d3.nextCtx sc with
    | none => d3
    | some k => d3.takeSc sc need usesVe tiles k
/-- DIP_POINT_SCHEDULE (R341). -/
def execDipPointSchedule (sc cycles need : Nat) (usesVe : Bool) (tiles : List Nat) (s : State) : Host.Outcome State Fault Refusal :=
  onDev (dipPointScheduleEff sc cycles need usesVe tiles) s

end Sys2Proof.Machine
end

