-- ==== Sys2Proof/Machine/Ecdsa.lean ====
section
/-! DEFINITION. ECDSA over P-384 with SHA-384, as image and debug signatures use it (R429, R441). The coordinates and the two halves of a
signature are 48 B little-endian numbers, as R13 gives every structure (log entry 31). -/

namespace Sys2Proof.Machine

/-- The prime of the field of P-384. -/
def ecP : Nat := 2 ^ 384 - 2 ^ 128 - 2 ^ 96 + 2 ^ 32 - 1
/-- The order of the group of P-384. -/
def ecN : Nat := 0xFFFFFFFFFFFFFFFFFFFFFFFFFFFFFFFFFFFFFFFFFFFFFFFFC7634D81F4372DDF581A0DB248B0A77AECEC196ACCC52973
/-- The coefficient b of y² = x³ - 3x + b. -/
def ecB : Nat := 0xB3312FA7E23EE7E4988E056BE3F82D19181D9C6EFE8141120314088F5013875AC656398D8A2ED19D2A85C8EDD3EC2AEF
/-- The base point's coordinates. -/
def ecGx : Nat := 0xAA87CA22BE8B05378EB1C71EF320AD746E1D3B628BA79B9859F741E082542A385502F25DBF55296C3A545E3872760AB7
/-- The base point's y. -/
def ecGy : Nat := 0x3617DE4A96262C6F5D9E98BF9292DC29F8F41DBD289A147CE9DA3113B5F0B8C00A60B1CE1D7E819D7A431D7C90EA0E5F

/-- a - b in the field. -/
def ecSub (a b : Nat) : Nat := (a + ecP - b % ecP) % ecP
/-- b to the power k modulo m, over the low bits of k. -/
def powMod (m : Nat) : Nat → Nat → Nat → Nat
  | 0, _, _ => 1
  | n + 1, b, k => (if k.testBit 0 then b else 1) * powMod m n (b * b % m) (k / 2) % m
/-- The inverse modulo a prime. -/
def invMod (m a : Nat) : Nat := powMod m 384 (a % m) (m - 2)

/-- A point in Jacobian coordinates; Z = 0 is the point at infinity. -/
structure EcPoint where
  x : Nat
  y : Nat
  z : Nat
  deriving DecidableEq, Repr

/-- Twice a point. -/
def EcPoint.double (a : EcPoint) : EcPoint :=
  if a.z = 0 then a
  else
    let zz := a.z * a.z % ecP
    let m := 3 * (ecSub a.x zz * (a.x + zz)) % ecP
    let yy := a.y * a.y % ecP
    let s := 4 * a.x * yy % ecP
    let x := ecSub (m * m % ecP) (2 * s)
    { x := x, y := ecSub (m * ecSub s x % ecP) (8 * yy * yy), z := 2 * a.y * a.z % ecP }
/-- The sum of two points. -/
def EcPoint.add (a b : EcPoint) : EcPoint :=
  if a.z = 0 then b
  else if b.z = 0 then a
  else
    let za := a.z * a.z % ecP
    let zb := b.z * b.z % ecP
    let u1 := a.x * zb % ecP
    let u2 := b.x * za % ecP
    let s1 := a.y * (zb * b.z % ecP) % ecP
    let s2 := b.y * (za * a.z % ecP) % ecP
    if u1 = u2 then if s1 = s2 then a.double else { x := 1, y := 1, z := 0 }
    else
      let h := ecSub u2 u1
      let r := ecSub s2 s1
      let hh := h * h % ecP
      let hhh := h * hh % ecP
      let v := u1 * hh % ecP
      let x := ecSub (r * r % ecP) (hhh + 2 * v)
      { x := x, y := ecSub (r * ecSub v x % ecP) (s1 * hhh), z := h * (a.z * b.z % ecP) % ecP }
/-- A point times the low n bits of a number. -/
def EcPoint.times : Nat → EcPoint → Nat → EcPoint
  | 0, _, _ => { x := 1, y := 1, z := 0 }
  | n + 1, a, k => let r := a.double.times n (k / 2); if k.testBit 0 then a.add r else r

/-- A 96 B signature verifies over bytes under a 96 B public key (R429, R441). -/
def ecdsaVerify (key msg sig : List Byte) : Bool :=
  let x := leNat (key.take 48)
  let y := leNat ((key.drop 48).take 48)
  let r := leNat (sig.take 48)
  let s := leNat ((sig.drop 48).take 48)
  let onCurve := decide (x < ecP) && decide (y < ecP) && y * y % ecP == (x * x % ecP * x + ecP * 3 - 3 * x + ecB) % ecP
  if !onCurve || r = 0 || ecN ≤ r || s = 0 || ecN ≤ s then false
  else
    let w := invMod ecN s
    let u := beNat (sha384 msg) * w % ecN
    let v := r * w % ecN
    let p := (({ x := ecGx, y := ecGy, z := 1 } : EcPoint).times 384 u).add (({ x := x, y := y, z := 1 } : EcPoint).times 384 v)
    if p.z = 0 then false
    else
      let zi := invMod ecP p.z
      p.x * (zi * zi % ecP) % ecP % ecN == r

end Sys2Proof.Machine
end

