-- ==== Sys2Proof/Machine/IndexAdmin.lean ====
section
/-! DEFINITION. Admin commands that create and delete indexes: the index specification with its checks, the place an index takes in both tiers, the
centroid graph, and deletion (R78, R88, R89, R103, R116, R417). -/

namespace Sys2Proof.Machine

/-! ### The specification (R46, R48, R60, R77, R78, R417) -/

/-- KIND of a code (R77). -/
def kindOfCode : Nat → Option IndexKind
  | 0 => some .flat | 1 => some .cell | 2 => some .graph | _ => none

/-- The index that a specification describes, before it has a number and a place; none for a reserved code (R77, R417). -/
def specIndex (s : List Byte) (burgee : Nat) : Option Index :=
  let at_ := fieldAt s
  let ref := at_ 8 1
  match kindOfCode (at_ 2 1), metricOfCode (at_ 3 1), fmtOfCode (at_ 6 1), fmtOfCode (at_ 7 1), fmtOfCode (ref % 32), fmtOfCode (at_ 14 1) with
  | some k, some m, some i, some p, some r, some c =>
    some { indexNo := at_ 0 2, kind := k, metric := m, dim := at_ 4 2, inputFmt := i, primaryFmt := p,
           refine := if ref.testBit 7 then some r else none, attrWords := at_ 9 1, subspaces := at_ 10 2, headroom := at_ 12 1,
           stageA := at_ 13 1, burgee := burgee, centroidFmt := c, nCells := at_ 16 4, nCap := at_ 24 8, hdrBase := 0, centroidBase := 0,
           codebookLiveBase := 0, codebookTargetBase := 0, idMapBase := 0, idMapBuckets := (at_ 24 8 + 23) / 24,
           deltaEntries := at_ 20 4, deltaFBase := 0, deltaLogBase := 0, graphAuxBase := 0, refineBase := 0, placementBase := 0,
           rewriteWindow := at_ 32 8, centroids := [], codebooks := [], reserved := 0 }
  | _, _, _, _, _, _ => none

/-- n is a multiple of m from lo to hi. -/
def inSteps (m lo hi n : Nat) : Bool := n % m == 0 && decide (lo ≤ n) && decide (n ≤ hi)

/-- The limits of R77 and R78 on the fields of a specification: each kind and metric with what goes with it (R46, R48, R60). -/
def Index.specOk (x : Index) (s : List Byte) : Bool :=
  let ham := x.metric == .ham
  let ref := fieldAt s 8 1
  (decide (x.indexNo < 1024) || x.indexNo == 0xFFFF) && decide (1 ≤ x.nCap) && decide (x.nCap ≤ 103079215080) && inSteps 32 32 4096 x.dim &&
    fmtIsInput x.inputFmt && (ham == (x.inputFmt == .bin1)) &&
    (if ham then x.primaryFmt == .sign1 && x.subspaces == 0
     else (x.primaryFmt == .pq4 || x.primaryFmt == .pq8) && inSteps 32 32 512 x.subspaces && x.dim % max 1 x.subspaces == 0 &&
       decide (x.dim / max 1 x.subspaces ≤ 64)) &&
    bits 6 5 ref == 0 && (if ref.testBit 7 then !ham && fmtIsRefine ((fmtOfCode (ref % 32)).getD .fp32) else ref % 32 == 0) &&
    decide (x.attrWords ≤ 8) && decide (x.headroom ≤ 16) && (!ham || x.kind == .flat || (x.kind == .graph && decide (x.dim ≤ 1024))) &&
    (match x.kind with
     | .cell => (x.centroidFmt == .bf16 || x.centroidFmt == .int8z) && inSteps 1 1 4194304 x.nCells && decide (x.stageA ≤ 1) &&
         (x.stageA == 0 || decide (65536 ≤ x.nCells))
     | .flat => fieldAt s 14 1 == 0 && x.stageA == 0 && inSteps 1 1 4194304 x.nCells
     | .graph => fieldAt s 14 1 == 0 && x.stageA == 0 && x.nCells == 0 && (ham || decide (x.codeLen ≤ 96))) &&
    inSteps 0x100000 0x100000 0x4000000 x.deltaEntries && inSteps 0x4000000 0x4000000 0x400000000 x.rewriteWindow

/-- A BF16 pattern is finite. -/
def bf16Finite (c : Nat) : Bool := c / 128 % 256 != 255

/-- A block parameter entry of an INT8Z centroid meets R55, for the block's integers (R417). -/
def zpEntryOk (e : List Byte) (b : ZpBlock) : Bool :=
  f32PosNormal b.scale && b.rowSum == b.q.foldl (· + ·) 0 && fieldAt e 7 1 == (if b.q.length = 32 then 1 else 0)

/-- The centroid that its bytes hold, or none where an element or an entry breaks R417. -/
def Index.readCentroid (x : Index) (bs : List Byte) : Option VForm :=
  let scales := bs.drop x.dim
  match formRead x.centroidFmt x.dim bs scales with
  | .plain f cs => if cs.all bf16Finite then some (.plain f cs) else none
  | .zp f zs => if zs.zipIdx.all fun p => zpEntryOk ((scales.drop (8 * p.2)).take 8) p.1 then some (.zp f zs) else none
  | .mx _ _ => none

/-- The codebook set of a specification's input data, or none where its header or an entry breaks R417. -/
def Index.readBookSet (x : Index) (bs : List Byte) : Option Codebook :=
  let w := x.dim / max 1 x.subspaces
  let cb := readBook x.bookK x.subspaces w (bs.drop 64)
  if fieldAt bs 4 1 == x.primaryFmt.code && fieldAt bs 5 1 == 0 && fieldAt bs 6 2 == x.subspaces && fieldAt bs 8 2 == x.bookK &&
      (bs.take 64).drop 10 == List.replicate 54 0 && cb.all fun s => s.all fun e => e.all bf16Finite then some cb else none

/-- The input data of CREATE_INDEX taken apart: the index with its centroids and its codebook, or none where a check fails (R417). -/
def parseSpec (bs : List Byte) (burgee : Nat) : Option Index :=
  match specIndex bs burgee with
  | none => none
  | some x =>
    let cent := if x.kind == .cell then x.nCells * x.centroidLen else 0
    let book := if x.primaryFmt == .sign1 then 0 else x.bookLen
    let bookAt := roundUp 64 (128 + cent)
    if !(decide (128 ≤ bs.length) && x.specOk bs && fieldAt bs 40 8 == cent && fieldAt bs 48 8 == book &&
        bs.length == (if book = 0 then 128 + cent else bookAt + book)) then none
    else
      let cells := if x.kind == .cell then allSome ((chunksOf x.centroidLen x.nCells ((bs.drop 128).take cent)).map x.readCentroid) else some []
      let cb := if book = 0 then some [] else x.readBookSet (bs.drop bookAt)
      match cells, cb with
      | some cs, some b => some { x with centroids := cs, codebooks := [(1, b)] }
      | _, _ => none

/-! ### The centroid graph (R103, R104; log entry 20) -/

/-- A centroid added to the graph in `graph` as the node of its number, by the steps of R104 with sketch keys. -/
def Index.withCentroid (x : Index) (n : Nat) (c : VForm) : Index :=
  let g := x.graph
  let id := BitVec.ofNat 64 n
  let lvl := nodeLevel id
  let sk := (signSketch (formF32 c)).take 1024
  let node : Node := { id := id, view := 0, upper := if lvl = 0 then 0xFFFFFFFF else g.nUppers, level := lvl, nbrs := [], sketch := sk, code := [],
                       attrs := [], refine := some c }
  let groups := tmod ({} : Group) (n / 64) (fun k => { k with nodes := tset (n % 64) node k.nodes, nNodes := n % 64 + 1 }) g.groups
  let uppers := (List.range lvl).foldl (fun t l => tset (g.nUppers + l) (n, l + 1, []) t) g.uppers
  let x1 := { x with graph := { g with groups := groups, uppers := uppers, nNodes := n + 1, nUppers := g.nUppers + lvl } }
  let fin := fun m => (g.node? m).map (sketchKey sk)
  let linked :=
    if g.entry = 0xFFFFFFFF then x1
    else
      let w := g.viewAll
      let start := descend w sk (n + 1) 1 g.top g.entry
      let x2 := x1.link (x1.buildKey n (formF32 c)) 0 n ((runWalk w 0 128 512 32 sk fin start).beam.map (·.node))
      ((List.range (min lvl g.top)).reverse.map (· + 1)).foldl (fun x l =>
        let st := descend w sk (n + 1) (l + 1) g.top g.entry
        x.link x.graph.sketchPair l n ((runWalk w l 32 512 32 sk fin st).beam.map (·.node))) x2
  if g.entry = 0xFFFFFFFF || g.top < lvl then { linked with graph := { linked.graph with entry := n, top := lvl } } else linked

/-- The centroid graph of an index's centroids: its upper-layer blocks are numbered after its level-0 blocks (R103). -/
def Index.centroidGraph (x : Index) : Graph :=
  let y := x.centroids.zipIdx.foldl (fun (x : Index) p => x.withCentroid p.2 p.1) { x with graph := { nUppers := x.nCells } }
  let bare := fun (t : Tab Node) => t.map fun (p : Nat × Node) => (p.1, { p.2 with refine := none })
  { y.graph with groups := y.graph.groups.map fun (p : Nat × Group) => (p.1, { p.2 with nodes := bare p.2.nodes }) }

/-- The centroid graph's blocks written to the L-tier, and its upper layers to the F-tier (R103, R334). -/
def Device.syncCentroidGraph (d : Device) (i : Nat) : Device :=
  match tfind i d.indexes with
  | none => d
  | some x =>
    let g := x.cgraph
    let d1 := (List.range x.nCells).foldl (fun d n => match g.node? n with
      | some v => d.memWrite (x.graphAuxBase + 448 * n) (x.nodeBlock (g.entry == n) v)
      | none => d) d
    g.uppers.foldl (fun d p => (x.centroidUpper p.1).elim d (d.putUpper x)) d1

/-! ### CREATE_INDEX (R116, R417) -/

/-- Space for each of an index's parts in turn: where they lie, none where one has none (R116). -/
def Device.takeParts (d : Device) (owner : Option Nat) : List Nat → Option (List Nat × Device)
  | [] => some ([], d)
  | 0 :: ns => (d.takeParts owner ns).map fun r => (0 :: r.1, r.2)
  | n :: ns => match d.takeL owner n with
    | none => none
    | some (a, d1) => (d1.takeParts owner ns).map fun r => (a :: r.1, r.2)
/-- The index with the addresses of its parts, from those of its L-tier parts and its F-tier base (R77). -/
def Index.placedAt (x : Index) (ls : List Nat) (f : Nat) : Index :=
  let at_ := fun i => ls.getD i 0
  let g := x.kind == .graph
  { x with bases := ls, hdrBase := at_ 0, centroidBase := if x.kind == .cell then at_ 1 else 0, codebookLiveBase := if x.bookK = 0 then 0 else at_ 2,
           codebookTargetBase := if x.bookK = 0 then 0 else at_ 3, idMapBase := at_ 4, deltaFBase := f, deltaLogBase := at_ 5,
           graphAuxBase := if g then at_ 6 else if x.stageA = 1 then at_ 10 else 0, refineBase := if g && x.refine.isSome then at_ 7 else 0,
           placementBase := f + x.fParts.getD 1 0, reserved := x.reservation }

/-- The lowest index number not in use (R417). -/
def Device.freeIndexNo (d : Device) : Option Nat := (List.range 1024).find? fun i => (tfind i d.indexes).isNone

/-- An index created under its number: its space taken in both tiers and zeroed, and its structures written; none where space is short
(R92, R116, R417; log entry 43). -/
def Device.createIndex (d : Device) (x0 : Index) : Option Device :=
  if d.lFree < x0.reservation then none
  else match d.takeParts (some x0.burgee) x0.parts with
    | none => none
    | some (ls, d1) => match d1.takeF (some x0.burgee) (x0.fParts.getLastD 0) with
      | none => none
      | some (f, d2) =>
        let x1 := x0.placedAt ls f
        let x := if x1.stageA = 1 then { x1 with cgraph := x1.centroidGraph } else x1
        let i := x.indexNo
        let d3 := ((ls.zip x.parts).foldl (fun d s => d.zero s.1 s.2) d2).zero f (x.fParts.getLastD 0)
        let d4 := { d3 with indexes := tset i x d3.indexes }
        let d5 := if x.kind == .graph then d4 else (List.range x.nCells).foldl (fun d n => (d.syncSet i n).syncCell i n) d4
        let d6 := if x.kind == .cell then d5.memWrite x.centroidBase (x.centroids.flatMap fun c => formBytes c ++ formScales c) else d5
        let d7 := if x.bookK = 0 then d6 else d6.syncBook i 0 1
        let d8 := if x.kind == .graph || x.stageA = 1 then d7.syncFixed i 0 2 else d7
        some ((d8.syncCentroidGraph i).syncRecord i)

/-- The burgee that a request of scope B concerns: the function's own, where the parameter block must name 0, or from the sideband an enabled one
that it names (R417). -/
def Device.requestBurgee (d : Device) (m named : Nat) : Option Nat :=
  if m = sbMb then (if named < 16 && (d.burgee named).enabled then some named else none)
  else if named = 0 then some (d.fn m).burgee else none

/-- The meaning of CREATE_INDEX. -/
def execCreateIndex (mb slot : Nat) (io : AdminIo) (s : State) : Host.Outcome State Fault Refusal :=
  onDev (fun d => d.adminCmd 0x0030 mb slot io fun r =>
    match d.requestBurgee mb (r.param 0 1) with
    | none => d.badField
    | some b => d.withInput r mb slot (some b) io fun bs =>
      match parseSpec bs b with
      | none => d.badField
      | some x =>
        match if x.indexNo = 0xFFFF then d.freeIndexNo else if (tfind x.indexNo d.indexes).isSome then none else some x.indexNo with
        | none => d.badField
        | some i => match d.createIndex { x with indexNo := i } with
          | none => d.refuse stNoSpace 0
          | some d1 => d1.result i) s

/-! ### DELETE_INDEX (R80, R296, R417) -/

/-- The smallest number past the index numbers that no index waiting for its release has. -/
def Device.graveNo (d : Device) : Nat := 1024 + ((List.range (d.indexes.length + 1)).find? fun k => (tfind (1024 + k) d.indexes).isNone).getD 0
/-- A background context that works for an index. -/
def BgTask.onIndex (t : BgTask) (i : Nat) : Bool :=
  match t with
  | .merge j => j == i
  | .rewrite j _ => j == i
  | _ => false
/-- A command in flight is on an index: it names the index, and no FENCE of every index does (R389, R417). -/
def Cmd.onIndex (c : Cmd) (i : Nat) : Bool := c.indexNo == i && !(c.op == .fence && c.fflag 0)

/-- An index is removed: its commands complete with INDEX_DELETED, its jobs end with INDEX_GONE, its programs are discarded, and its space waits
for the release of its view (R417). -/
def Device.deleteIndex (d0 : Device) (i : Nat) : Device :=
  let d := d0.applyAccepted
  match d.index? i with
  | none => d
  | some x =>
    let d1 := ((d.cmds.filter (·.onIndex i)).map (·.stamp)).foldl (fun d s => d.endCmd s stIndexDeleted) d
    let d2 := ((d1.jobs.filter fun j => j.desc.indexNo == i).map (·.id)).foldl (fun d j => d.endJob j 0x08) d1
    let d3 := ((d2.ctxs.filter fun k => k.cmd.isNone && k.task.onIndex i).map (·.id)).foldl (fun d k => d.releaseCtx k) d2
    let n := d3.graveNo
    let gone := { x with indexNo := n, deletedAt := some x.view, delta := [], filters := [], transforms := [], transform := 0,
                         adapter := ⟨0, [], []⟩, pendingGen := 0 }
    let d4 := d3.modBurgee x.burgee fun b => { b with
      placed := b.placed.map fun (p : Placed) => if p.index == i then { p with index := n } else p,
      left := b.left.map fun (p : LeftSpace) => if p.index == i then { p with index := n } else p,
      groups := b.groups.filter (·.index != i) }
    let d4 := d4.freeCkpts ((d4.jobs.filter (·.desc.indexNo == i)).flatMap (·.ckpts))
    (({ d4 with indexes := tset n gone (tdel i d4.indexes), heat := d4.heat.filter (·.index != i),
                jobs := d4.jobs.map fun (j : Job) => if j.desc.indexNo == i then { j with ckpts := [] } else j }).zero (recordAddr i)
      256).writeMirrored recordCopyArea (256 * i) (List.replicate 256 0)

/-- The meaning of DELETE_INDEX. -/
def execDeleteIndex (mb slot : Nat) (s : State) : Host.Outcome State Fault Refusal :=
  onDev (fun d => d.adminCmd 0x0031 mb slot noIo fun r => d.withIndex mb r.target fun _ => (d.deleteIndex r.target).done) s

end Sys2Proof.Machine
end

