-- ==== Sys2Proof/Machine/LoadAdmin.lean ====
section
/-! DEFINITION. The loading commands: filter programs, score transforms, adapters, the resident model, staged areas (R418), and RETRAIN_CHANNEL
(R321, R411). -/

namespace Sys2Proof.Machine

/-! ### Filter programs (R126, R138, R141, R418) -/

/-- The meaning of LOAD_FILTER: a valid image for this index replaces the program of its FILTER_ID under the next version. -/
def execLoadFilter (mb slot : Nat) (io : AdminIo) (s : State) : Host.Outcome State Fault Refusal :=
  onDev (fun d => d.adminCmd 0x0032 mb slot io fun r => d.withIndex mb r.target fun x => d.withInput r mb slot (some x.burgee) io fun bs =>
    let p := parseFilter bs
    if !filterValid x.attrWords bs || p.filterId != r.param 0 2 || p.indexNo != r.target then d.badField
    else
      let n := tget 0 p.filterId x.filterLoads
      (d.modIndex r.target fun x => { x with filters := tset p.filterId { p with version := n } x.filters,
                                             filterLoads := tset p.filterId (n + 1) x.filterLoads }).done) s
/-- The meaning of UNLOAD_FILTER. -/
def execUnloadFilter (mb slot : Nat) (s : State) : Host.Outcome State Fault Refusal :=
  onDev (fun d => d.adminCmd 0x0033 mb slot noIo fun r => d.withIndex mb r.target fun x =>
    let n := r.param 0 2
    if (tfind n x.filters).isNone then d.badField else (d.modIndex r.target fun x => { x with filters := tdel n x.filters }).done) s

/-! ### Score transforms (R233, R234, R236) -/

/-- The admitted commands on an index that hold a version of its transform older than the current one (R236). -/
def Device.oldTransforms (d : Device) (x : Index) : List Cmd :=
  d.cmds.filter fun c => c.indexNo == x.indexNo && c.snap.elim false fun n => n.transform != x.transform && n.transform != 0
/-- RETRY_MS under VERSION_HELD: to the latest deadline of the commands that hold the older version, in whole ms (R420). -/
def Device.heldRetry (d : Device) (cs : List Cmd) : Nat :=
  max 1 (((cs.map fun c => c.deadline.getD d.now).foldl max d.now - d.now + 999999) / 1000000)
/-- The meaning of LOAD_TRANSFORM: PARAMS[0] of 0 removes the transform; a load while an older version is held is told to come back. -/
def execLoadTransform (mb slot : Nat) (io : AdminIo) (s : State) : Host.Outcome State Fault Refusal :=
  onDev (fun d => d.adminCmd 0x0034 mb slot io fun r => d.withIndex mb r.target fun x =>
    let held := d.oldTransforms x
    let put := fun (v last : Nat) (ts : Tab (List Byte)) => (d.modIndex r.target fun x => { x with
      transforms := ts.filter fun (p : Nat × List Byte) => p.1 == v || p.1 == x.transform, transform := v, lastTransform := last }).done
    if r.param 0 1 = 0 then if held.isEmpty then put 0 x.lastTransform x.transforms else d.busy 4 (d.heldRetry held)
    else d.withInput r mb slot (some x.burgee) io fun bs =>
      if !elemValid x.attrWords bs || fieldAt bs 0 2 != r.target then d.badField
      else if !held.isEmpty then d.busy 4 (d.heldRetry held)
      else put (x.lastTransform + 1) (x.lastTransform + 1) (tset (x.lastTransform + 1) bs x.transforms)) s

/-! ### Adapters (R274, R275) -/

/-- The adapter an image holds, or none where it breaks R418. -/
def readAdapter (dim : Nat) (bs : List Byte) : Option Adapter :=
  let r := fieldAt bs 0 2
  let e := fun (k : Nat) => fieldAt bs (16 + 2 * k) 2
  let v := (List.range r).map fun i => (List.range dim).map fun j => e (i * dim + j)
  let u := (List.range dim).map fun i => (List.range r).map fun j => e (r * dim + i * r + j)
  if (r = 0 || r = 32 || r = 64 || r = 128) && bs.length == 16 + 4 * r * dim && (v ++ u).all (fun row => row.all bf16Finite) then some ⟨r, v, u⟩ else none
/-- The meaning of LOAD_ADAPTER: it serves commands fetched from now on; rank 0 removes the adapter (R275, R418). -/
def execLoadAdapter (mb slot : Nat) (io : AdminIo) (s : State) : Host.Outcome State Fault Refusal :=
  onDev (fun d => d.adminCmd 0x0035 mb slot io fun r => d.withIndex mb r.target fun x => d.withInput r mb slot (some x.burgee) io fun bs =>
    match readAdapter x.dim bs with
    | some a => (d.modIndex r.target fun x => { x with adapter := a }).done
    | none => d.badField) s

/-! ### The resident model (R126, R210, R214) -/

/-- The meaning of LOAD_MODEL. -/
def execLoadModel (mb slot : Nat) (io : AdminIo) (s : State) : Host.Outcome State Fault Refusal :=
  onDev (fun d => d.adminCmd 0x0036 mb slot io fun r => d.withInput r mb slot none io fun bs =>
    if modelValid bs then (d.installModel bs).freeModels.done else d.badField) s
/-- The meaning of UNLOAD_MODEL: commands admitted before keep the model they hold. -/
def execUnloadModel (mb slot : Nat) (s : State) : Host.Outcome State Fault Refusal :=
  onDev (fun d => d.adminCmd 0x0037 mb slot noIo fun _ => ({ d with model := 0 } : Device).freeModels.done) s

/-! ### Staged areas (R418) -/

/-- A staged area of a burgee, by its address. -/
def Device.stagedAt (d : Device) (b a : Nat) : Option Staged := (tget [] b d.staged).find? fun s => s.addr == a
/-- STAGE_DATA with its data: an area reserved and begun, a piece written into one, or one freed (R418; log entry 26). -/
def Device.stageData (d : Device) (r : AdminReq) (b : Nat) (bs : List Byte) : Reply :=
  let addr := r.param 8 8
  let off := r.param 24 8
  if addr = 0 then
    let n := if r.param 16 8 = 0 then bs.length else r.param 16 8
    if n = 0 || n < bs.length then d.badField
    else match d.takeF (some b) n with
      | none => d.refuse stNoSpace 0
      | some (a, d1) => ((({ d1 with staged := tmod [] b (fun l => l ++ [⟨a, n⟩]) d1.staged } : Device).zero a n).memWrite a bs).result a
  else match d.stagedAt b addr with
    | none => d.badField
    | some s =>
      if r.dataLen = 0 then (({ d with staged := tmod [] b (fun l => l.filter (· != s)) d.staged } : Device).freeF addr).result addr
      else if off % 64 != 0 || s.len < off + bs.length then d.badField
      else (d.memWrite (addr + off) bs).result addr
/-- The meaning of STAGE_DATA: a function stages for its own burgee, the sideband for the enabled one that TARGET names. -/
def execStageData (mb slot : Nat) (io : AdminIo) (s : State) : Host.Outcome State Fault Refusal :=
  onDev (fun d => d.adminCmd 0x0038 mb slot io fun r =>
    if 15 < r.target || !(d.burgee r.target).enabled then d.badField
    else if !d.brgAdmin mb r.target then d.refuse stAccessDenied 0
    else d.withInput r mb slot (some r.target) io (d.stageData r r.target)) s

/-! ### RETRAIN_CHANNEL (R321, R411) -/

/-- The meaning of RETRAIN_CHANNEL: a trigger waits for the channel's window, and the response for its start. -/
def execRetrainChannel (mb slot : Nat) (s : State) : Host.Outcome State Fault Refusal :=
  onDev (fun d => d.adminCmd 0x0039 mb slot noIo fun r =>
    if 196 ≤ r.target || (d.chan r.target).state == .absent then d.badField
    else (d.modChan r.target fun k => { k with trigger := k.trigger.or (some .request), retrainReq := k.retrainReq ++ [(mb, slot)] }).waits) s

end Sys2Proof.Machine
end

