-- ==== Sys2Proof/Machine/JobAdmin.lean ====
section
/-! DEFINITION. Admin commands on training jobs: the job descriptor with its checks, and starting, stopping, resuming, publishing and discarding a
job (R276 to R278, R282, R295 to R297, R303, R419, R420). -/

namespace Sys2Proof.Machine

/-! ### The descriptor (R276 to R278) -/

/-- An FP32 pattern at an offset. -/
def f32FieldAt (b : List Byte) (off : Nat) : F32 := BitVec.ofNat 32 (fieldAt b off 4)
/-- 0 ≤ x < 1. -/
def f32InUnit (x : F32) : Bool := f32IsFinite x && vLe vZero (f32Val x) && vLt (f32Val x) (f32Val 0x3F800000)
/-- The bytes of a descriptor that are reserved for its type are zero (R18, R276, R277). -/
def jobReservedOk (b : List Byte) : Bool :=
  let zero := fun (from_ to_ : Nat) => (List.range (to_ - from_)).all fun i => b.getD (from_ + i) 0 == 0
  zero 70 72 && zero 88 128 && zero 136 256 &&
    match fieldAt b 0 1 with
    | 1 => zero 129 136
    | 2 => zero 131 136
    | _ => zero 129 132
/-- The descriptor in a 256 B block; none for a reserved JOB_TYPE (R276, R277). -/
def readJob (b : List Byte) : Option JobDesc :=
  let n := fieldAt b
  let f := f32FieldAt b
  let make := fun (t : JobType) (param param2 : Nat) => some ({
    type := t, predicted := (n 1 1).testBit 0, noPublish := (n 1 1).testBit 1, indexNo := n 2 2, steps := n 4 4, batch := n 8 2, watchN := n 10 2,
    watchWindow := n 12 1, drift := n 13 1, guardShift := n 14 1, src := n 15 1, lr := f 16, beta1 := f 20, beta2 := f 24, eps := f 28,
    decay := f 32, driftLimit := f 36, warmup := n 40 4, ckpt := n 44 4, seed := n 48 8, srcAddr := n 56 8, srcCount := n 64 4,
    evalPct := n 68 1, loss := n 69 1, temp := f 72, minGain := f 76, stateBytes := n 80 8, param := param, param2 := param2,
    crc := (crc32 b).toNat } : JobDesc)
  match n 0 1 with
  | 1 => make .codebookFit (n 128 1) 0
  | 2 => make .adapterTrain (n 128 2) (n 130 1)
  | 3 => make .rerankTune (n 128 1) (n 132 4)
  | _ => none

/-- The ranges of R276 and of R277 that concern the descriptor alone. -/
def JobDesc.rangesOk (j : JobDesc) : Bool :=
  inSteps 1 1 10000000 j.steps && inSteps 64 64 8192 j.batch && (j.watchN == 0 || (decide (8 ≤ j.watchN) && decide (j.watchN ≤ 4096) &&
    j.watchN == 2 ^ j.watchN.log2)) && inSteps 1 4 64 j.watchWindow && decide (j.drift ≤ 2) && inSteps 1 6 16 j.guardShift && decide (j.src ≤ 2) &&
    f32PosNormal j.lr && f32InUnit j.beta1 && f32InUnit j.beta2 && f32PosNormal j.eps && f32IsFinite j.decay && vLe vZero (f32Val j.decay) &&
    f32PosNormal j.driftLimit && decide (j.warmup ≤ 1000000) && inSteps (max 1 j.watchWindow) 64 1000000 j.ckpt &&
    (j.src == 0 || (j.srcAddr == 0 && j.srcCount == 0)) && decide (j.evalPct ≤ 50) && f32InUnit j.minGain &&
    (if j.loss = 1 then f32PosNormal j.temp else j.temp == 0) &&
    match j.type with
    | .codebookFit => decide (j.param ≤ 1)
    | .adapterTrain => (j.param == 32 || j.param == 64 || j.param == 128) && decide (j.param2 ≤ 1)
    | .rerankTune => (j.param == 7 || j.param == 9) && decide (j.param2 < 0x1000000)

/-- The source and loss suit the type and the index, which holds what the job needs (R277, R278). -/
def JobDesc.suits (j : JobDesc) (x : Index) : Bool :=
  x.metric != .ham &&
    match j.type with
    | .codebookFit => j.loss == 0 && (j.src != 2 || x.refine.isSome)
    | .adapterTrain => j.src == 0 && j.loss == 1 && (j.param2 == 1 || x.adapter.rank == j.param)
    | .rerankTune => j.src == 0 && (j.loss == 2 || j.loss == 3)

/-- Bytes of a record of the host sample set (R279). -/
def JobDesc.recordLen (j : JobDesc) (x : Index) : Nat :=
  roundUp 64 ((if j.type == .codebookFit then 0 else 16) + inputBytes x.inputFmt x.dim)
/-- Trained parameters of a job's tensors. -/
def trainedParams (ts : List Tensor) : Nat := lsum (ts.map fun t => if t.trained then t.rows * t.cols else 0)
/-- The state that R282 requires: 11 + 3/32 B per trained parameter and 12 × BATCH × W (log entry 24). -/
def JobDesc.required (j : JobDesc) (x : Index) (ts : List Tensor) (img : List Byte) : Nat :=
  let w := match j.type with
    | .rerankTune => ((List.range (modelLayers img)).map (parseLayer img)).foldl (fun m l => max m (max l.inW l.outW)) 1
    | _ => x.dim
  (355 * trainedParams ts + 31) / 32 + 12 * j.batch * w

/-! ### Limits (R282) -/

/-- A job is running. -/
def Job.live (j : Job) : Bool := j.state == .running || j.state == .evaluate
/-- A job of this type on this index would break a count limit (R282). -/
def Device.jobLimit (d : Device) (type : JobType) (index : Nat) : Bool :=
  let js := d.jobs.filter Job.live
  decide (3 < js.length) || js.any fun j => j.desc.type == type && (j.desc.indexNo == index || type == .rerankTune)
/-- The next job number not in use, of 1 to 65,535 (R419). -/
def Device.nextJobNo (d : Device) : Nat :=
  let at_ := fun (k : Nat) => (d.lastJob + k) % 65535 + 1
  ((List.range (d.jobs.length + 1)).find? fun k => (d.job? (at_ k)).isNone).elim 0 at_

/-- SUBMIT_JOB with its descriptor, on its index (R276 to R282, R419). -/
def Device.submitJob (d : Device) (m : Nat) (x : Index) (bs : List Byte) : Reply :=
  match readJob bs with
  | none => d.badField
  | some j =>
    let img := tget [] d.model d.models
    let mine := j.src != 0 || d.mayTouchAll false x.burgee j.srcAddr (j.srcCount * j.recordLen x)
    if bs.length != 256 || !jobReservedOk bs || 4 ≤ fieldAt bs 1 1 || j.indexNo != x.indexNo || !j.rangesOk || !j.suits x ||
        (j.src == 0 && (d.area j.srcAddr != .fTier || !mine)) then d.badField
    else if j.type == .rerankTune && !d.modelFits x then d.refuse stNoModel 0
    else if d.jobLimit j.type x.indexNo then d.busy 3 1000
    else
      let ts := startTensors x j img
      if j.stateBytes < j.required x ts img then d.badField
      else match d.takeF (some x.burgee) j.stateBytes with
        | none => d.refuse stNoSpace 0
        | some (a, d1) =>
          let n := d.nextJobNo
          let job : Job := { id := n, fn := if m = sbMb then 0xFFFF else m, burgee := x.burgee, desc := j, area := a, tensors := ts,
                             flows := startFlows j ts, model := if j.type == .rerankTune then some (d.model, img) else none }
          ({ d1 with jobs := d1.jobs ++ [job], lastJob := n } : Device).result n
/-- The meaning of SUBMIT_JOB. -/
def execSubmitJob (mb slot : Nat) (io : AdminIo) (s : State) : Host.Outcome State Fault Refusal :=
  onDev (fun d => d.adminCmd 0x0040 mb slot io fun r => d.withIndex mb r.target fun x => d.withInput r mb slot (some x.burgee) io (d.submitJob mb x)) s

/-! ### Control (R419) -/

/-- The job a request names; one of another burgee is as one that does not exist. -/
def Device.withJob (d : Device) (m no : Nat) (f : Job → Reply) : Reply :=
  match d.job? no with
  | some j => if d.brgAdmin m j.burgee then f j else d.badField
  | none => d.badField

/-- The meaning of STOP_JOB: the job ends when its present step does; one that is between its steps and a checkpoint or evaluation, or that has
not begun, ends at once. -/
def execStopJob (mb slot : Nat) (s : State) : Host.Outcome State Fault Refusal :=
  onDev (fun d => d.adminCmd 0x0041 mb slot noIo fun r => d.withJob mb r.target fun j =>
    if !j.live then d.badField
    else if j.state == .running && j.begun && !j.ckptDue then (d.modJob j.id fun j => { j with stopReq := j.stopReq ++ [(mb, slot)] }).waits
    else (d.endJob j.id 0x02).done) s
/-- The meaning of RESUME_JOB: a job that stopped restarts from its last valid checkpoint, admitted as a new job is (R282, R296). -/
def execResumeJob (mb slot : Nat) (s : State) : Host.Outcome State Fault Refusal :=
  onDev (fun d => d.adminCmd 0x0042 mb slot noIo fun r => d.withJob mb r.target fun j =>
    if j.live || j.state == .held || j.ckpts.isEmpty || (d.index? j.desc.indexNo).isNone then d.badField
    else if d.jobLimit j.desc.type j.desc.indexNo then d.busy 3 1000
    else match d.takeF (some j.burgee) j.desc.stateBytes with
      | none => d.refuse stNoSpace 0
      | some (a, d1) => (d1.modJob j.id fun j => { d1.restarted j with area := a, begun := false }).done) s
/-- The meaning of PUBLISH_JOB: a held result is published or refused by its tests; while shedding step 2 is engaged it waits (R420). -/
def execPublishJob (mb slot : Nat) (s : State) : Host.Outcome State Fault Refusal :=
  onDev (fun d => d.adminCmd 0x0043 mb slot noIo fun r => d.withJob mb r.target fun j =>
    if j.state != .held then d.badField else if d.shedHolds then d.waits else (d.publish j.id).done) s
/-- The meaning of DISCARD_JOB: a job that is not running is gone with its result, checkpoints and reservation. -/
def execDiscardJob (mb slot : Nat) (s : State) : Host.Outcome State Fault Refusal :=
  onDev (fun d => d.adminCmd 0x0044 mb slot noIo fun r => d.withJob mb r.target fun j =>
    if j.live then d.badField
    else ((({ d with jobs := d.jobs.filter fun (x : Job) => x.id != j.id } : Device).freeJobs [j]).freeCkpts j.ckpts).done) s

end Sys2Proof.Machine
end

