-- ==== Sys2Proof/Machine/EraseAdmin.lean ====
section
/-! DEFINITION. Admin commands on the counted settings (R342, R343, R433, R434), FORMAT, SANITISE and SET_BURGEE_KEYS with their journal (R424 to
R426, R437), and DEBUG_UNLOCK (R441, R568). -/

namespace Sys2Proof.Machine

/-! ### Counted settings (R433, R434) -/

/-- The REQUESTER of a mailbox (R435). -/
def requester (m : Nat) : Nat := if m = sbMb then 0xFFFF else m
/-- DETAIL of a refused counted write (R412, R433). -/
def SettingRefusal.detail : SettingRefusal → Nat
  | .none => 0 | .countExhausted => 5 | .sameValue => 6 | .svnTooLow => 0x0B | .svnAboveImage => 0x14

/-- L_TIER_POPULATION has been written: while the data path is disabled under R37 the L-tier is trained again by steps 2, 3 and 5 of R333, which zero
it, and the population is resolved anew; training finds what it last found (R37, R433; log entry 44). A write made while the data path is enabled
waits for the next COLD reset. -/
def Device.populationWritten (d : Device) : Device :=
  if !(d.popMis || d.popFault) then d
  else
    let cs := (List.range 68).filter fun c => (d.chan c).state != .absent
    let b : BootInfo := {
      profile := d.straps.profile, portMode := d.straps.portMode, testMode := false, badSlots := [], sites := d.tiers.sites,
      lFailed := cs.filter fun c => (d.chan c).state == .failed, lBad := cs.flatMap fun c => (d.chan c).marks.map fun m => (c, m),
      fRepaired := [], fFailing := [], scFail := [], mbFail := [], portsUp := [], noQclk := [] }
    let isL := fun (a : Nat) => decide (lBase ≤ a) && decide (a < 0x1E000000000)
    let d1 := { d with mem := d.mem.filter fun c => !isL c.1 }
    ({ d1 with tiers := { d1.tiers with erased := d1.tiers.erased.filter fun e => !isL e.base } } : Device).trainL b false
/-- The meaning of WRITE_COUNTED; while VFUSE is out of tolerance a fuse write is told to come back (R433, R434, R483; log entry 26). -/
def execWriteCounted (mb slot : Nat) (s : State) : Host.Outcome State Fault Refusal :=
  onDev (fun d => d.adminCmd 0x00A0 mb slot noIo fun r =>
    let v := r.param 0 8
    match d.settingCheck r.target v with
    | some e => d.refuse stInvalidField e.detail
    | none =>
      if d.aon.vfuseOut then d.busy 0 10
      else
        let d1 := d.countedWrite r.target v (requester mb)
        (if r.target = 6 then d1.populationWritten else d1).done) s

/-! ### BURGEE_GEOMETRY (R342, R343, R434) -/

/-- The limits of R342 on one record, and those of R343 that concern one burgee; an enabled burgee has an SC. -/
def geoRecOk (r : List Byte) : Bool :=
  let set := fieldAt r 8 8
  decide (fieldAt r 0 1 ≤ 1) && decide (fieldAt r 1 1 ≤ 1) && (fieldAt r 0 1 == 0 || set != 0) &&
    (List.range 64).all fun n =>
      let f := fieldAt r (16 + n) 1
      let c := fieldAt r (80 + n) 1
      let h := fieldAt r (144 + n) 1
      decide (f ≤ 28) && decide (c ≤ 8) && decide (h ≤ 16) &&
        (if set.testBit n then decide (1 ≤ h) && decide (4 ≤ f) else f == 0 && c == 0 && h == 0)
/-- The limits of R343 on the sums over burgees. -/
def geoSumsOk (g : List Byte) : Bool :=
  (List.range 64).all fun n =>
    let sum := fun (off : Nat) => lsum ((List.range 16).map fun b => fieldAt (geoSlice g b) (off + n) 1)
    decide (sum 16 + sum 80 ≤ 28) && decide (sum 144 ≤ 16)
/-- The banks that the walk pool and the hoist tables of a burgee's indexes need on each of its SCs, which the spec leaves to firmware: free values
for a burgee that has an index, none for the rest (R197, R343; log entry 2). -/
def Device.floorNeed (d : Device) (k b : Nat) : Nat := if d.indexes.any fun p => p.2.burgee == b then Config.freeNat (k + b) % 29 else 0
/-- Every FLOOR holds what its burgee needs (R343). -/
def Device.floorsOk (d : Device) (k : Nat) (g : List Byte) : Bool :=
  (List.range 16).all fun b => (List.range 64).all fun n =>
    !(fieldAt (geoSlice g b) 8 8).testBit n || decide (d.floorNeed k b ≤ fieldAt (geoSlice g b) (16 + n) 1)

/-- The meaning of WRITE_GEOMETRY: checked, it waits for a boundary that accepts it, and the burgees it changes wait with it (R343, R434). -/
def execWriteGeometry (mb slot : Nat) (io : AdminIo) (s : State) : Host.Outcome State Fault Refusal :=
  onDev (fun d => d.adminCmd 0x0020 mb slot io fun r => d.withInput r mb slot none io fun g =>
    let (k, d1) := d.draw 16
    if g.length != 4096 || !((List.range 16).all fun b => geoRecOk (geoSlice g b)) || !geoSumsOk g then d.badField
    else if !d.floorsOk k g then d1.badField
    else if settingLimit 2 ≤ d.fuses.geometryUsed then d1.refuse stInvalidField 5
    else if (d.geoChanges g).isEmpty then d1.refuse stInvalidField 6
    else if d.aon.vfuseOut then d1.busy 0 10
    else
      let d2 := (d.geoChanges g).foldl (fun d b => d.modBurgee b fun x => { x with geoWait := true }) d1
      ({ d2 with mgmt := { d2.mgmt with geoWrite := some (mb, slot, g, d.now) } } : Device).waits) s

/-- GEOMETRY_DEFERRED: a geometry write not accepted within 1 s of its checks is abandoned (R434). -/
def geometryDeferredEff (d : Device) : Device :=
  match d.mgmt.geoWrite with
  | none => d
  | some (m, slot, _, t) =>
    let d1 := d.by (t + 1000000000)
    ({ d1 with mgmt := { d1.mgmt with geoWrite := none },
               burgees := d1.burgees.map fun (p : Nat × Burgee) => (p.1, { p.2 with geoWait := false }) } : Device).respond m slot stBusy 0x0011 10 0
/-- GEOMETRY_DEFERRED (R434). -/
def execGeometryDeferred (s : State) : Host.Outcome State Fault Refusal := onDev geometryDeferredEff s

/-! ### FORMAT and keys (R424, R425, R437) -/

/-- A record of the sanitise journal (R425). -/
def Device.journal (d : Device) (kind off : Nat) : Device :=
  { d with flash := { d.flash with sanitise := { d.flash.sanitise with records := d.flash.sanitise.records ++ [(kind, off)] } } }
/-- Granules of g bytes that a burgee owns, by their base addresses (R306). -/
def ownGranules (g b : Nat) (es : List Extent) : List Nat :=
  ((es.filter fun e => e.owner == some b && e.len != 0).flatMap fun e =>
    (List.range ((e.base + e.len - 1) / g + 1 - e.base / g)).map fun i => (e.base / g + i) * g).eraseDups
/-- The granules of a burgee in both tiers, each with its size. -/
def Device.granules (d : Device) (b : Nat) : List (Nat × Nat) :=
  ((ownGranules 0x10000000 b d.tiers.extF).map fun a => (a, 0x10000000)) ++ (ownGranules 0x40000000 b d.tiers.extL).map fun a => (a, 0x40000000)

/-- Indexes of a burgee deleted; the queue pairs of the commands that end are torn down (R424). -/
def Device.formatIndexes (d : Device) (b : Nat) : Device :=
  let is := (d.indexes.filter fun p => p.2.burgee == b && p.2.deletedAt.isNone).map (·.1)
  let qs := ((d.applyAccepted.cmds.filter fun c => c.remote.isNone && is.any c.onIndex).map fun c => (c.fn, c.qid)).eraseDups
  let d1 := is.foldl (fun d i => d.deleteIndex i) d
  qs.foldl (fun d q => d.dropQp q.1 q.2) d1
/-- The erase named by SES on a burgee's granules: none, zeros, or new keys (R424, R437). -/
def Device.formatErase (d : Device) (b ses : Nat) : Device :=
  if ses = 0 then d
  else if ses = 1 then (d.granules b).foldl (fun d g => d.zero g.1 g.2) d
  else
    let n := d.tiers.draws + 1
    let d1 := (d.granules b).foldl (fun d g => d.erase g.1 g.2 n) { d with tiers := { d.tiers with draws := n } }
    d1.modBurgee b fun x => { x with keyEpoch := n }
/-- FORMAT of burgees: journalled from STARTED to COMPLETE, and reported (R424, R425). -/
def Device.format (d : Device) (bs : List Nat) (ses : Nat) : Device :=
  let d1 := bs.foldl Device.formatIndexes (d.journal 1 0)
  let d2 := bs.foldl (fun d b => d.formatErase b ses) d1
  let d3 := if ses = 2 then d2.journal 2 0 else d2
  (d3.journal 4 0).raiseDev 0x0009 0

/-- The meaning of FORMAT. -/
def execFormat (mb slot : Nat) (s : State) : Host.Outcome State Fault Refusal :=
  onDev (fun d => d.adminCmd 0x0080 mb slot noIo fun r =>
    let all := r.param 0 1
    if 1 < all || 2 < r.param 1 1 || (all = 0 && 15 < r.target) then d.badField
    else (d.format (if all = 1 then List.range 16 else [r.target]) (r.param 1 1)).done) s
/-- The meaning of SET_BURGEE_KEYS: a FORMAT of the burgee with SES 2 (R437). -/
def execSetBurgeeKeys (mb slot : Nat) (s : State) : Host.Outcome State Fault Refusal :=
  onDev (fun d => d.adminCmd 0x0021 mb slot noIo fun r => if 15 < r.target then d.badField else (d.format [r.target] 2).done) s

/-! ### SANITISE (R424, R425) -/

/-- Steps 1 to 3 of a sanitise: admitted commands complete with BURGEE_OFFLINE, every queue pair is torn down, every index, job, staged area, program
and model is deleted, and keys are drawn for every burgee (R424). -/
def Device.wipe (d0 : Device) : Device :=
  let d := d0.applyAccepted
  let d1 := ((d.cmds.filter fun c => c.remote.isNone && c.phase != .waiting).map (·.stamp)).foldl (fun d s => d.endCmd s stOffline) d
  let d2 := (d1.fns.map (·.1)).foldl (fun d f => d.dropQps f) d1
  let d3 := (d2.cmds.map (·.stamp)).foldl (fun d s => d.killCmd s) d2
  let d4 := ((d3.indexes.filter fun p => p.2.deletedAt.isNone).map (·.1)).foldl (fun d i => d.deleteIndex i) d3
  let d5 := (d4.ctxs.map (·.id)).foldl (fun d k => d.releaseCtx k) d4
  let mine := fun (es : List Extent) => es.filter fun (e : Extent) => e.owner.isNone
  let d6 := { d5 with
    indexes := [], jobs := [], staged := [], models := [], model := 0, heat := [],
    tiers := { d5.tiers with extF := mine d5.tiers.extF, extL := mine d5.tiers.extL },
    burgees := d5.burgees.map fun (p : Nat × Burgee) => (p.1, { p.2 with placed := [], left := [], groups := [] }) }
  d6.eraseAll

/-- The meaning of SANITISE: action 1 ends a sanitise-failed state, actions 2 to 4 begin (R424, R425; log entry 26). -/
def execSanitise (mb slot : Nat) (s : State) : Host.Outcome State Fault Refusal :=
  onDev (fun d => d.adminCmd 0x0084 mb slot noIo fun r =>
    let a := r.param 0 1
    let j := d.flash.sanitise
    if a = 0 || 4 < a then d.badField
    else if a = 1 then
      if j.state = 3 then ({ d with flash := { d.flash with sanitise := { j with state := 0, action := 1 } } } : Device).done else d.done
    else
      let j' : SanJournal := { state := 1, action := a, startTime := d.hostTime, endTime := j.endTime, records := j.records ++ [(1, 0)] }
      let d1 := ({ d with flash := { d.flash with sanitise := j' } } : Device).wipe
      (({ d1 with flash := { d1.flash with sanitise := { d1.flash.sanitise with keysDone := true } } } : Device).journal 2 0).done) s

/-- The journal's present state changed, with a record. -/
def Device.sanStep (d : Device) (kind off : Nat) (g : SanJournal → SanJournal) : Device :=
  ({ d with flash := { d.flash with sanitise := g d.flash.sanitise } } : Device).journal kind off
/-- An overwrite is under way (R425). -/
def Device.sanOverwrites (d : Device) : Bool :=
  d.flash.sanitise.state == 1 && d.flash.sanitise.keysDone && (d.flash.sanitise.action == 2 || d.flash.sanitise.action == 3)

/-- SANITISE_PROGRESS: 64 GiB more have been overwritten (R425). -/
def sanitiseProgressEff (d : Device) : Device :=
  let o := d.flash.sanitise.offset
  let n := o + 0x1000000000
  if !d.ready || !d.sanOverwrites || d.tierBytes < n then d else (d.overwrite o n).sanStep 3 n fun j => { j with offset := n }
/-- SANITISE_PROGRESS (R425). -/
def execSanitiseProgress (s : State) : Host.Outcome State Fault Refusal := onDev sanitiseProgressEff s

/-- SANITISE_COMPLETE: the rest is overwritten, COMPLETE is journalled, and SANITISE_DONE is raised (R425). -/
def sanitiseCompleteEff (d : Device) : Device :=
  if !d.ready || d.flash.sanitise.state != 1 || !d.flash.sanitise.keysDone then d
  else
    let n := if d.sanOverwrites then d.tierBytes else 0
    let d1 := if d.sanOverwrites then d.overwrite d.flash.sanitise.offset n else d
    (d1.sanStep 4 n fun j => { j with state := 2, offset := n, endTime := d.hostTime }).raiseDev 0x0009 0
/-- SANITISE_COMPLETE (R425). -/
def execSanitiseComplete (s : State) : Host.Outcome State Fault Refusal := onDev sanitiseCompleteEff s

/-- SANITISE_FAILURE: a failure during the overwrite leaves the device in the sanitise-failed state (R425). -/
def sanitiseFailureEff (d : Device) : Device :=
  if !d.ready || !d.sanOverwrites then d
  else (d.sanStep 5 d.flash.sanitise.offset fun j => { j with state := 3 }).raiseDev 0x0009 1
/-- SANITISE_FAILURE (R425). -/
def execSanitiseFailure (s : State) : Host.Outcome State Fault Refusal := onDev sanitiseFailureEff s

/-! ### DEBUG_UNLOCK (R441, R568) -/

/-- A token verifies: the part's serial number, the nonce given, a scope without reserved bits, and a signature by the debug key over the 64 B
before it (R441, R568; log entry 31). -/
def Fuses.tokenOk (f : Fuses) (t nonce : List Byte) : Bool :=
  let scope := (t.drop 48).take 16
  t.length == 160 && t.take 16 == leBytes 16 f.serial.toNat && (t.drop 16).take 32 == nonce &&
    decide (fieldAt scope 0 1 < 16) && scope.drop 1 == List.replicate 15 0 &&
    ecdsaVerify (leBytes 96 f.debugKey.toNat) (t.take 64) (t.drop 64)

/-- Phase 2 of DEBUG_UNLOCK: a token that verifies consumes a write, wipes the device and opens the access its scope names; one that does not voids
the nonce (R433, R434, R441). -/
def Device.unlock (d : Device) (m : Nat) (t : List Byte) : Reply :=
  let void := { d with mgmt := { d.mgmt with sec := { d.mgmt.sec with nonce := none } } }
  match d.mgmt.sec.nonce with
  | none => d.refuse stInvalidField 0x000A
  | some n =>
    if !d.fuses.tokenOk t n then void.refuse stInvalidField 0x000A
    else if settingLimit 4 ≤ d.fuses.debugUsed then d.refuse stInvalidField 5
    else if d.mgmt.sec.unlocked.isSome then d.refuse stInvalidField 6
    else if d.aon.vfuseOut then d.busy 0 10
    else
      let d1 := (void.countedWrite 4 1 (requester m)).wipe
      ({ d1 with mgmt := { d1.mgmt with sec := { d1.mgmt.sec with unlocked := some ((t.drop 48).take 16) } } } : Device).done
/-- The meaning of DEBUG_UNLOCK: phase 1 gives a nonce, phase 2 takes a token. -/
def execDebugUnlock (mb slot : Nat) (io : AdminIo) (s : State) : Host.Outcome State Fault Refusal :=
  onDev (fun d => d.adminCmd 0x00A1 mb slot io fun r =>
    if r.target = 1 then
      let (k, d1) := d.draw 32
      let n := freeBytes k 32
      { dev := { d1 with mgmt := { d1.mgmt with sec := { d1.mgmt.sec with nonce := some n } } }, out := n }
    else if r.target = 2 then d.withInput r mb slot none io (d.unlock mb)
    else d.badField) s

end Sys2Proof.Machine
end

