-- ==== Sys2Proof/Machine/FirmwareAdmin.lean ====
section
/-! DEFINITION. Firmware images: download, commit, live activation with its probation, rollback and the boot's health (R427 to R432). -/

namespace Sys2Proof.Machine

/-! ### Download and commit (R427 to R430) -/

/-- The staging area: 16 MiB of the device's F-tier area (R428; log entry 25). -/
def stageBase : Nat := 0x8000000
/-- The largest image, header and signature included (R427). -/
def imageMax : Nat := 0x1000000

/-- The meaning of FW_DOWNLOAD: a piece placed at its offset in the staging area (R430). -/
def execFwDownload (mb slot : Nat) (io : AdminIo) (s : State) : Host.Outcome State Fault Refusal :=
  onDev (fun d => d.adminCmd 0x0090 mb slot io fun r => d.withInput r mb slot none io fun bs =>
    let off := r.param 0 4
    if off % 4096 != 0 || imageMax < off + bs.length then d.badField else (d.memWrite (stageBase + off) bs).done) s

/-- The staged image: its header, and its body by the header's length. -/
def Device.stagedImage (d : Device) : List Byte :=
  let h := d.read stageBase 256
  h ++ d.read (stageBase + 256) (min (imageMax - 256) (fieldAt h 12 4))
/-- Check 1: the signing key is the part's, and its signature covers bytes 0 to 159 and the body (R430). -/
def Fuses.imageSigned (f : Fuses) (img : List Byte) : Bool :=
  let key := (img.drop 16).take 96
  sha384 key == leBytes 48 f.imageDigest.toNat && ecdsaVerify key (img.take 160 ++ img.drop 256) ((img.drop 160).take 96)
/-- Check 3: the image is for stepping A1 and for the profile in force (R429, R430, R509). -/
def Device.imageSuits (d : Device) (img : List Byte) : Bool :=
  (fieldAt img 10 2).testBit 0 && d.straps.inForce != 0 && (fieldAt img 9 1).testBit (d.straps.inForce - 1)
/-- The checks of a staged image in their order: a DETAIL of INVALID_FIELD for the first that fails (R427, R429, R430). -/
def Device.imageCheck (d : Device) (img : List Byte) : Option Nat :=
  if fieldAt img 0 2 != 1 || fieldAt img 2 2 != 256 || imageMax < 256 + fieldAt img 12 4 then some 0
  else if !d.fuses.imageSigned img then some 0x000A
  else if fieldAt img 8 1 < d.fuses.svn then some 0x000B
  else if !d.imageSuits img then some 0x000C
  else none

/-! ### Live activation (R431) -/

/-- A slot may be booted: valid, and slot 0 only where no other is (R427). -/
def Device.bootable (d : Device) (s : Nat) : Bool :=
  d.flash.valid.contains s && (s != 0 || !(d.flash.valid.contains 1 || d.flash.valid.contains 2))
/-- Step 1 of a live activation: the shadow MP resets and boots the new image, and the response waits. While an activation is under probation
another is told to come back, and without a holder none starts (R431). -/
def Device.activate (d : Device) (m slot s : Nat) (back : Bool) : Reply :=
  match d.ens.holder with
  | none => d.busy 0x0010 1000
  | some h =>
    if d.ens.activation.isSome then d.busy 0x0010 1000
    else
      let a : Activation := { slot := s, old := d.mgmt.slot, mp := 1 - h, version := d.imageVersion s, probation := false,
                              until_ := d.now + 30000000000, back := back, req := (m, slot) }
      let d1 := d.mpReset (1 - h)
      ({ d1 with ens := { d1.ens.setVersion (1 - h) a.version with activation := some a } } : Device).waits

/-- The meaning of FW_COMMIT: a staged image that passes its checks is written to slot 1 or 2, and with action 1 or 2 is booted next or activated
live. The slot that runs is never written (R430). -/
def execFwCommit (mb slot : Nat) (s : State) : Host.Outcome State Fault Refusal :=
  onDev (fun d => d.adminCmd 0x0091 mb slot noIo fun r =>
    let img := d.stagedImage
    let t := r.target
    let act := r.param 0 1
    if (t != 1 && t != 2) || 2 < act || t = d.mgmt.slot then d.badField
    else if act = 2 && d.ens.activation.isSome then d.busy 0x0010 1000
    else match d.imageCheck img with
      | some e => d.refuse stInvalidField e
      | none =>
        let d1 := { d with flash := { d.flash with
          images := tset t img d.flash.images, valid := if d.flash.valid.contains t then d.flash.valid else t :: d.flash.valid,
          nextBoot := if act = 1 then some t else d.flash.nextBoot } }
        if act = 2 then d1.activate mb slot t false else d1.done) s

/-- The meaning of FW_ACTIVATE: the slot boots at the next reset, or is activated live (R431). -/
def execFwActivate (mb slot : Nat) (s : State) : Host.Outcome State Fault Refusal :=
  onDev (fun d => d.adminCmd 0x0092 mb slot noIo fun r =>
    if 1 < r.param 0 1 || !d.bootable r.target then d.badField
    else if r.param 0 1 = 0 then ({ d with flash := { d.flash with nextBoot := some r.target } } : Device).done
    else d.activate mb slot r.target false) s

/-- SHADOW_READY: the shadow runs the new image: the request completes, the Ensign moves, jobs restart from their checkpoints, and probation begins
(R431, R432). -/
def shadowReadyEff (d : Device) : Device :=
  match d.ens.activation with
  | none => d
  | some a =>
    if a.probation || d.ens.fenced || !d.mpsRun || d.ens.holder.isNone then d
    else
      let d1 := d.respond a.req.1 a.req.2 0 0 0 0
      let d2 := { d1 with ens := { d1.ens with activation := some { a with probation := true, until_ := d.now + 60000000000 } } }
      let d3 := ((d2.runSlot a.slot).seat a.mp).raiseDev 0x000A a.slot
      if a.back then d3.raiseDev 0x000B a.slot else d3
/-- SHADOW_READY (R431). -/
def execShadowReady (s : State) : Host.Outcome State Fault Refusal := onDev shadowReadyEff s

/-- PROBATION_END: after 60 s with the new holder's word good, the former holder resets into the new image (R431). -/
def probationEndEff (d : Device) : Device :=
  match d.ens.activation with
  | none => d
  | some a =>
    let h := d.ens.health a.mp
    if !a.probation || d.ens.holder != some a.mp || !d.mpsRun || h.state = 4 || h.watchdog || h.memFault || h.imageFault then d
    else
      let d1 := d.by a.until_
      { d1 with ens := { d1.ens with activation := none } }.mpReset (1 - a.mp)
/-- PROBATION_END (R431). -/
def execProbationEnd (s : State) : Host.Outcome State Fault Refusal := onDev probationEndEff s

/-! ### Rollback (R432) -/

/-- The other valid slot, whose SVN the fuses allow (R427, R432). -/
def Device.otherSlot (d : Device) (s : Nat) : Option Nat :=
  [1, 2].find? fun t => t != s && d.flash.valid.contains t && decide (d.fuses.svn ≤ d.imageSvn t)
/-- The meaning of FW_ROLLBACK. -/
def execFwRollback (mb slot : Nat) (s : State) : Host.Outcome State Fault Refusal :=
  onDev (fun d => d.adminCmd 0x0093 mb slot noIo fun _ =>
    match d.otherSlot d.mgmt.slot with
    | none => d.refuse stInvalidField 0x0012
    | some t => d.activate mb slot t true) s

/-- BOOT_HEALTH_TIMEOUT: a boot that has not reached health within 60 s: the device resets into the other valid slot, where there is one (R432). -/
def bootHealthTimeoutEff (d : Device) : Device :=
  if d.phase != .coldDone && d.phase != .warmDone then d
  else match d.mgmt.bootAt, d.bootSlot [] with
    | some t, some s => match d.otherSlot s with
      | none => d
      | some o =>
        let d1 := d.by (t + 60000000000)
        ({ d1 with flash := { d1.flash with nextBoot := some o }, mgmt := { d1.mgmt with bootAt := some d1.now } } : Device).raiseDev 0x000B o
    | _, _ => d
/-- BOOT_HEALTH_TIMEOUT (R432). -/
def execBootHealthTimeout (s : State) : Host.Outcome State Fault Refusal := onDev bootHealthTimeoutEff s

end Sys2Proof.Machine
end

