-- ==== Sys2Proof/Machine/SelfTests.lean ====
section
/-! DEFINITION. The self-test: its start and abort, and its segments on SCs, channels and links (R421 to R423, R570 to R572). -/

namespace Sys2Proof.Machine

/-! ### Segments (R570) -/

/-- SC_LOGIC or SC_ARRAY. -/
def Segment.onSc (g : Segment) : Bool := g.test == 1 || g.test == 2
/-- L_CHANNEL or F_CHANNEL. -/
def Segment.onChan (g : Segment) : Bool := g.test == 3 || g.test == 4
/-- The segments of a test: two on every SC in ascending order, and one on every channel and link (R570). -/
def Device.testPlan (d : Device) (kind : Nat) : List Segment :=
  let wins := if kind = 1 then 1 else 8
  let chans := (List.range 196).filter fun c => (d.chan c).state != .absent
  ((List.range 64).flatMap fun n => [({ test := 1, res := n } : Segment), { test := 2, res := n }]) ++
    (chans.map fun c => { test := if isL c then 3 else 4, res := c, wins := wins }) ++ (List.range 32).map fun l => { test := 5, res := l }

/-- The test with another state. -/
def Device.setTest (d : Device) (t : SelfTest) : Device := { d with mgmt := { d.mgmt with test := t } }

/-- An SC is idle: no burgee that has it in its set has a candidate or an admitted command, and no unit is ready on it (R422). -/
def Device.scIdle (d : Device) (n : Nat) : Bool :=
  (d.cmds.all fun c => !c.op.isSearch || !(d.burgee c.burgee).scSet.getLsbD n) && d.ctxs.all fun k => k.sc != n
/-- A link is idle: not UP, or held by LINK_CONTROL (R570). -/
def Device.linkIdle (d : Device) (l : Nat) : Bool := (d.link l).state != .up || (d.link l).ctlHold

/-- The STEs of an SC enter or leave the tag-limited mode of a self-test; one in recovery stays in it (R255). -/
def Device.limitStes (d : Device) (n : Nat) (on : Bool) : Device :=
  d.modStr n fun s => { s with stes := s.stes.map fun e => { e with limited := on || e.recovery.isSome } }

/-- The data addresses of a channel's test rows or test units, each with its length: rows 0 to 63 of an L-tier channel, the first 64 units of each
pseudo-channel of an F-tier channel (R570). -/
def Device.testRows (d : Device) (c : Nat) : List (Nat × Nat) :=
  if isL c then
    ((List.range (64 * 4 * d.np)).filter fun r => let p := lPlace d.np r; lChan p.1 p.2.1 == c).map fun r => (lBase + 1792 * r, 1792)
  else ((List.range (64 * d.nen)).filter fun u => (d.fPlace u).1 == c).map fun u => (512 * u, 512)

/-- A segment leaves its resource: an SC's STEs serve again where the SC is in service (R255), and the banks a march test wrote hold no stated value; a channel's test rows are
written as zeros (R422, R570). -/
def Device.leaveSegment (d : Device) (g : Segment) : Device :=
  let d1 := d.setTest { d.mgmt.test with running := d.mgmt.test.running.filter (· != g) }
  if g.onSc then
    let d2 := d1.limitStes g.res (d1.sc g.res).out
    if g.test = 2 then
      let n := d2.tiers.draws + 1
      { d2 with tiers := { d2.tiers with draws := n } }.erase (scBase g.res) 0x800000 n
    else d2
  else if g.onChan then (d1.testRows g.res).foldl (fun d p => d.zero p.1 p.2) d1
  else d1

/-- The end of a test: its result and SELF_TEST_DONE (R423). -/
def Device.endTest (d : Device) (result : Nat) : Device :=
  (d.setTest { d.mgmt.test with result := result, todo := [], running := [] }).raiseDev 0x0008 result
/-- A test with nothing left to run ends PASSED or FAILED. -/
def Device.checkTest (d : Device) : Device :=
  let t := d.mgmt.test
  if t.result = 3 && t.todo.isEmpty && t.running.isEmpty then d.endTest (if t.failed = 0 then 0 else 1) else d

/-! ### The commands (R421, R422) -/

/-- The meaning of SELF_TEST. -/
def execSelfTest (mb slot : Nat) (s : State) : Host.Outcome State Fault Refusal :=
  onDev (fun d => d.adminCmd 0x0050 mb slot noIo fun r =>
    let k := r.param 0 1
    if k = 0 || 2 < k then d.badField
    else if d.mgmt.test.result = 3 then d.busy 0x000F 1000
    else (d.setTest { kind := k, result := 3, todo := d.testPlan k }).done) s
/-- The meaning of ABORT_SELF_TEST: the running segments stop and the test ends as ABORTED. -/
def execAbortSelfTest (mb slot : Nat) (s : State) : Host.Outcome State Fault Refusal :=
  onDev (fun d => d.adminCmd 0x0051 mb slot noIo fun _ =>
    if d.mgmt.test.result = 3 then ((d.mgmt.test.running.foldl (fun d g => d.leaveSegment g) d).endTest 2).done else d.done) s

/-! ### Segments start, yield and end (R422, R423) -/

/-- A segment moves from those to run to those that run. -/
def Device.runSegment (d : Device) (g : Segment) : Device :=
  let t := d.mgmt.test
  d.setTest { t with todo := t.todo.filter (· != g), running := t.running ++ [g] }

/-- SEGMENT_START: a segment still to run takes its resource where that is idle, or where R321 admits its window; of the SC segments the first does,
when no other runs. An UP link that is not held is recorded as SKIPPED. None starts while shedding step 3 is engaged (R420 to R422, R570, R572). -/
def segmentStartEff (test res : Nat) (d : Device) : Device :=
  let t := d.mgmt.test
  match t.todo.find? fun g => g.test == test && g.res == res with
  | none => d
  | some g =>
    if t.result != 3 || !d.ready || 3 ≤ d.mgmt.shed.steps then d
    else if g.onSc then
      if (t.todo.find? Segment.onSc) != some g || t.running.any Segment.onSc || !d.scIdle res then d else (d.runSegment g).limitStes res true
    else if g.onChan then
      let d1 := d.modChan res fun k => { k with trigger := k.trigger.or (some .request) }
      if d1.mayRetrain res then (retrainWindowStartEff res d1).runSegment g else d
    else if d.linkIdle res then (d.modLink res fun k => { k with test := { k.test with mode := 0 } }).runSegment g
    else
      (d.setTest { t with todo := t.todo.filter (· != g),
                          records := t.records ++ [{ seg := g, skipped := true, repaired := false, subtest := 0xFFFF, detail := 0 }] }).checkTest
/-- SEGMENT_START (R422). -/
def execSegmentStart (test res : Nat) (s : State) : Host.Outcome State Fault Refusal := onDev (segmentStartEff test res) s

/-- SEGMENT_YIELD: a segment on an SC or a link stops for host work or for shedding step 3; its partial result is discarded and it runs again from
its beginning (R420, R422). -/
def segmentYieldEff (test res : Nat) (d : Device) : Device :=
  let t := d.mgmt.test
  match t.running.find? fun g => g.test == test && g.res == res with
  | none => d
  | some g =>
    let work := if g.onSc then !d.scIdle res else !d.linkIdle res
    if g.onChan || !(work || decide (3 ≤ d.mgmt.shed.steps)) then d
    else
      let d1 := d.leaveSegment g
      d1.setTest { d1.mgmt.test with todo := g :: d1.mgmt.test.todo }
/-- SEGMENT_YIELD (R422). -/
def execSegmentYield (test res : Nat) (s : State) : Host.Outcome State Fault Refusal := onDev (segmentYieldEff test res) s

/-- A failed resource leaves service: an SC as under R176, a channel under R325 (R423). -/
def Device.failSegment (d : Device) (g : Segment) : Device :=
  if g.onSc then (d.scOut g.res).limitStes g.res true else if g.onChan then d.chanState g.res .failed else d
/-- An SC both of whose segments have passed in this test is back in service (R176, R423). -/
def Device.passSegment (d : Device) (g : Segment) : Device :=
  if g.test = 2 && !d.mgmt.test.records.any (fun r => r.seg.test == 1 && r.seg.res == g.res && !r.skipped && !r.repaired) then
    (d.modSc g.res fun s => { s with out := false, suspect := none, rerun := false }).limitStes g.res false
  else d

/-- SEGMENT_DONE: a segment ends and is counted; a channel segment whose window has closed goes on to its next window, where it has one. A failure, or
a pass that used spare rows, leaves a record (R423, R570, R571). -/
def segmentDoneEff (test res : Nat) (pass repaired : Bool) (subtest : Nat) (detail : W64) (d : Device) : Device :=
  match d.mgmt.test.running.find? fun g => g.test == test && g.res == res with
  | none => d
  | some g =>
    if g.onChan && (d.chan res).state == .retrain then d
    else
      let d1 := d.leaveSegment g
      let t := d1.mgmt.test
      let rec_ : SegRec := { seg := g, skipped := false, repaired := pass && repaired, subtest := subtest % 65536, detail := detail }
      if !pass then ((d1.setTest { t with failed := t.failed + 1, records := t.records ++ [rec_] }).failSegment g).checkTest
      else if g.onChan && 1 < g.wins then d1.setTest { t with todo := { g with wins := g.wins - 1 } :: t.todo }
      else
        let recs := if repaired then t.records ++ [rec_] else t.records
        ((d1.setTest { t with passed := t.passed + 1, records := recs }).passSegment g).checkTest
/-- SEGMENT_DONE (R423). -/
def execSegmentDone (test res : Nat) (pass repaired : Bool) (subtest : Nat) (detail : W64) (s : State) : Host.Outcome State Fault Refusal :=
  onDev (segmentDoneEff test res pass repaired subtest detail) s

end Sys2Proof.Machine
end

