-- ==== Sys2Proof/Machine/Ship.lean ====
section
/-! DEFINITION. What devices of a shoal ship to one another (R470, R474, R476): merge batches, cells, node blocks, refine codes and the contents
of a restored position; how a target places and publishes them. Layouts the spec leaves open follow log entry 30. -/

namespace Sys2Proof.Machine

/-- The 8 B words of a message. -/
def wordList (bs : List Byte) : List Nat := (List.range (bs.length / 8)).map fun i => fieldAt bs (8 * i) 8

/-! ### Records -/

/-- Code values of a stored vector: one per subspace, or one per dimension for HAM. -/
def Index.codeCount (x : Index) : Nat := if x.metric == .ham then x.dim else x.subspaces
/-- Bytes of a form's elements, and with its scales. -/
def formLen (f : VFmt) (n : Nat) : Nat := n * fmtBits f / 8
/-- Bytes of a form's scales (R51, R55). -/
def scalesLen (f : VFmt) (n : Nat) : Nat :=
  match f with
  | .int8z | .int4z => 8 * ((n + 63) / 64)
  | .mxfp8e4m3 | .mxfp8e5m2 | .mxfp4 | .mxint8 | .mxint4 => (n + 31) / 32
  | _ => 0
/-- A form as bytes: its elements, then its scales. -/
def formAll (v : VForm) : List Byte := formBytes v ++ formScales v
/-- A form of n elements read back. -/
def formFrom (f : VFmt) (n : Nat) (bs : List Byte) : VForm := formRead f n bs (bs.drop (formLen f n))

/-- A slot with its number and tombstone bit: words, then its refine form. -/
def slotRec (s : ShipSlot) : List Byte :=
  words ([s.slot, bnum s.tomb, s.body.id.toNat, s.body.norm.toNat] ++ s.body.code ++ s.body.attrs.map (·.toNat)) ++ s.body.refine.elim [] formAll
/-- Bytes of a slot's record. -/
def Index.slotRecLen (x : Index) : Nat :=
  8 * (4 + x.codeCount + x.attrWords) + x.refine.elim 0 fun f => formLen f x.dim + scalesLen f x.dim
/-- A slot's record read back. -/
def Index.readSlotRec (x : Index) (cell gen : Nat) (bs : List Byte) : ShipSlot :=
  let ws := wordList bs
  let n := x.codeCount
  { cell := cell, slot := ws.getD 0 0, gen := gen, tomb := ws.getD 1 0 == 1,
    body := { id := BitVec.ofNat 64 (ws.getD 2 0), norm := BitVec.ofNat 32 (ws.getD 3 0), code := (ws.drop 4).take n,
              attrs := ((ws.drop (4 + n)).take x.attrWords).map (BitVec.ofNat 64),
              refine := x.refine.map fun f => formFrom f x.dim (bs.drop (8 * (4 + n + x.attrWords))) } }

/-- A vector on its way to its cell or its REFINE device: delta entry, cell, ID, attribute words and FP32 elements. -/
structure ShipItem where
  entry : Nat
  cell  : Nat
  id    : W64
  attrs : List W64
  vec   : List F32
  deriving DecidableEq, Repr
/-- An item's bytes. -/
def ShipItem.bytes (e : ShipItem) : List Byte :=
  words ([e.entry, e.cell, e.id.toNat] ++ e.attrs.map (·.toNat)) ++ e.vec.flatMap fun (v : F32) => leBytes 4 v.toNat
/-- Bytes of an item of an index. -/
def Index.itemLen (x : Index) : Nat := 8 * (3 + x.attrWords) + 4 * x.dim
/-- An item read back. -/
def Index.readItem (x : Index) (bs : List Byte) : ShipItem :=
  let ws := wordList (bs.take (8 * (3 + x.attrWords)))
  let o := 8 * (3 + x.attrWords)
  { entry := ws.getD 0 0, cell := ws.getD 1 0, id := BitVec.ofNat 64 (ws.getD 2 0), attrs := (ws.drop 3).map (BitVec.ofNat 64),
    vec := (List.range x.dim).map fun k => BitVec.ofNat 32 (fieldAt bs (o + 4 * k) 4) }
/-- n records of a length read one after another. -/
def recordsOf (len n : Nat) (bs : List Byte) : List (List Byte) := (List.range n).map fun k => (bs.drop (len * k)).take len

/-! ### A target places a batch (R96, R97, R474 step 3) -/

/-- Slots of a cell that shipments hold, their views pending. -/
def Device.heldSlots (d : Device) (i n : Nat) : List Nat :=
  (d.shoal.received.filter (·.index == i)).flatMap fun r => (r.slots.filter (·.cell == n)).map (·.slot)
/-- The slot the next shipped vector takes in a cell: the lowest free one in a block whose FRESH_VIEW is released, else one past N_SLOTS (R97). -/
def Device.slotFor (d : Device) (i : Nat) (c : Cell) (taken : List Nat) : Option Nat :=
  let ok := fun s => !taken.contains s && d.mergeReleased i (tget ({} : BlockHead) (s / 64) c.cur.blocks).freshView
  let past := (List.range (min (taken.length + 65) (64 * c.cur.capBlocks - c.nSlots))).map (c.nSlots + ·)
  (sortBy (fun a b => decide (a < b)) c.free ++ past).find? ok
/-- Places for the items of a batch, in order; none where one has none. -/
def Device.placesFor (d : Device) (i : Nat) (x : Index) : List ShipItem → List ShipSlot → Option (List ShipSlot)
  | [], got => some got
  | e :: es, got =>
    let c := x.cell e.cell
    if c.state == 2 || x.nCells ≤ e.cell then none
    else match d.slotFor i c (d.heldSlots i e.cell ++ (got.filter (·.cell == e.cell)).map (·.slot)) with
      | none => none
      | some s =>
        let (r, nv) := x.refineFor e.vec
        let body : Slot := { id := e.id, code := x.codeFor c.cur.gen e.cell e.vec, attrs := e.attrs, refine := r, norm := nv }
        d.placesFor i x es (got ++ [{ cell := e.cell, slot := s, gen := c.cur.gen, body := body }])
/-- A batch taken: the device and the slots in item order. Without room the batch is abandoned; a full cell that may grow is relocated first
(R97, R474). The second answer says that a later pass may succeed. -/
def Device.takeBatch (d : Device) (src tag i : Nat) (es : List ShipItem) : Device × Option (List Nat) × Bool :=
  match d.index? i with
  | none => (d, none, false)
  | some x => match d.placesFor i x es [] with
    | some ss =>
      let r : Received := { src := src, tag := tag, index := i, slots := ss }
      ({ d with shoal := { d.shoal with received := d.shoal.received ++ [r] } }, some (ss.map (·.slot)), true)
    | none =>
      let full := ((es.map (·.cell)).eraseDups).filter fun n =>
        let c := x.cell n
        c.state == 1 && decide (c.cur.capBlocks < 16384) && (d.slotFor i c (d.heldSlots i n)).isNone
      let grows := full.filter fun n => decide (x.extentBytes (grownCap (x.cell n).cur.capBlocks) ≤ d.lFree)
      let busy := es.any fun e => (x.cell e.cell).state == 2
      (grows.foldl (fun d n => d.beginRelocation i n (grownCap (x.cell n).cur.capBlocks)) d, none, busy || full.isEmpty || grows.length == full.length)

/-- The refine codes, scale records and attribute words of covered IDs kept in the refine store (R470). -/
def Device.keepRefine (d : Device) (i : Nat) (es : List ShipItem) : Device :=
  match d.index? i with
  | none => d
  | some x => es.foldl (fun d e => match x.refineFor e.vec with
    | (some v, nv) =>
      let rest := d.shoal.refined.filter fun r => !(r.index == i && r.id == e.id)
      let r : RefineRec := { index := i, id := e.id, code := v, norm := nv, attrs := e.attrs }
      { d with shoal := { d.shoal with refined := rest ++ [r] } }
    | (none, _) => d) d

/-! ### Publication (R96, R465, R474 step 5) -/

/-- A shipped position as its cell takes it now: re-encoded where the cell's generation has changed since (R109, R300). -/
def Index.bodyNow (x : Index) (s : ShipSlot) : Slot :=
  let g := (x.cell s.cell).cur.gen
  if g = s.gen || x.metric == .ham then s.body
  else { s.body with code := pqEncode (x.book g) (x.source s.gen s.body.refine (x.centroid s.cell) s.body.code) }
/-- Shipped positions of one cell put in place with FRESH_VIEW v (R96, R474). -/
def Device.putCell (d : Device) (i v n : Nat) (ss : List ShipSlot) : Device :=
  match tfind i d.indexes with
  | none => d
  | some x =>
    let news := ss.map fun s => (s.slot, x.bodyNow s, s.tomb)
    let live := news.filter fun p => !p.2.2
    let blks := (news.map fun p => p.1 / 64).eraseDups
    let x1 := x.modCell n fun c =>
      let ns := news.foldl (fun m p => max m (p.1 + 1)) c.nSlots
      let head := fun (t : Tab BlockHead) b =>
        tset b ({ used := min 64 (ns - 64 * b), freshMask := (news.filter fun p => p.1 / 64 == b).map fun p => p.1 % 64, freshView := v } : BlockHead) t
      let kept := c.cur.tombs.filter fun s => !(news.any fun p => p.1 == s)
      let cur := { c.cur with slots := news.foldl (fun t p => tset p.1 p.2.1 t) c.cur.slots, blocks := blks.foldl head c.cur.blocks,
                              tombs := kept ++ (news.filter (·.2.2)).map (·.1) }
      { c with nSlots := ns, nLive := c.nLive + live.length, mergeView := v, free := c.free.filter fun s => !(news.any fun p => p.1 == s),
               summary := d.summaryAfter x n c.summary (live.map (·.2.1.attrs)), cur := cur }
    let d0 := ss.foldl (fun d s => d.chargeAt x.upkeep ((x.cell n).cur.slotBase + s.slot / 64 * x.blockLen) (x.blockLen / 64) true) d
    let d1 := d0.modIndex i fun _ => { x1 with nLive := x1.nLive + live.length }
    (((blks.foldl (fun d b => d.syncBlock i n b) d1).syncTomb i n).syncCell i n).syncRecord i
/-- Shipped positions put in place with FRESH_VIEW v. -/
def Device.putShipped (d : Device) (i v : Nat) (ss : List ShipSlot) : Device :=
  ((ss.map (·.cell)).eraseDups).foldl (fun d n => d.putCell i v n (ss.filter (·.cell == n))) d

/-- The home's part of a publication at view v: each entry of the batch that is live is merged and its ID map entry names its place; one that has
ended meanwhile keeps its STATE, its place having been told (R107, R474 step 5). -/
def Device.shipMerged (d : Device) (i v : Nat) (b : ShipBatch) : Device :=
  b.places.foldl (fun d p =>
    let (e, n, s, dev) := p
    match (d.index? i).bind fun x => (tfind e x.delta).map fun v => (x, v), b.entries.find? fun q => q.1 == e with
    | some (_, v'), some (_, id) =>
      let l := Loc.slot n s
      let away := dev != d.shoal.device
      if v'.state == 1 && v'.id == id then
        let d1 := d.entryMerged i e v n s l
        if away then d1.modIndex i fun x => { x with away := x.away ++ [(l, id)] } else d1
      else d
    | _, _ => d) d

/-- A shoal index of the directory changed. -/
def Device.modShoalIndex (d : Device) (i : Nat) (g : ShoalIndex → ShoalIndex) : Device :=
  { d with shoal := { d.shoal with indexes := d.shoal.indexes.map fun (s : ShoalIndex) => if s.no == i then g s else s } }
/-- SHOAL_VIEW v of an index applied here: the shipments it publishes are put in place, and at their home they are merged (R465, R474). -/
def Device.publishView (d : Device) (i v : Nat) (ships : List (Nat × Nat)) : Device :=
  let d1 := d.modShoalIndex i fun s => { s with view := v, seenAt := tset v d.now s.seenAt }
  let mine := fun (r : Received) => r.index == i && ships.contains (r.src, r.tag)
  let d2 := (d1.shoal.received.filter mine).foldl (fun d r => d.putShipped i v r.slots) d1
  let d3 := { d2 with shoal := { d2.shoal with received := d2.shoal.received.filter fun r => !mine r } }
  let own := d3.shoal.ships.filter fun b => b.index == i && ships.contains (d.shoal.device, b.tag)
  let d4 := own.foldl (fun d b => d.shipMerged i v b) d3
  { d4 with shoal := { d4.shoal with ships := d4.shoal.ships.filter fun b => !own.contains b } }

/-! ### The contents of a restored position (R476) -/

/-- A node with its group's header words: entry, top level and counts of its graph, the node, its neighbour lists of every level, its code and its
refine form. -/
def nodeRec (x : Index) (n : Nat) (v : Node) : List Byte :=
  let g := x.graph
  let list := fun (ns : List Nat) => ns.length :: (ns ++ List.replicate (32 - ns.length) 0)
  words ([g.entry, g.top, g.nNodes, g.nUppers, n, v.id.toNat, v.view, v.upper, v.level, bnum (g.tombs.contains n), v.norm.toNat] ++ list v.nbrs ++
    ((List.range v.level).flatMap fun l => list (g.nbrs v (l + 1))) ++ v.code ++ v.attrs.map (·.toNat)) ++ packBools v.sketch ++ v.refine.elim [] formAll
/-- A node restored (R101, R476). -/
def Device.restoreNode (d : Device) (i : Nat) (bs : List Byte) : Device :=
  match d.index? i with
  | none => d
  | some x =>
    let w := fun k => fieldAt bs (8 * k) 8
    let list := fun k => (List.range (min 32 (w k))).map fun j => w (k + 1 + j)
    let n := w 4
    let lvl := min 32 (w 8)
    let k := 11 + 33 * (lvl + 1)
    let nSk := min 1024 x.dim
    let skAt := 8 * (k + x.codeCount + x.attrWords)
    let sk := (unpackCodes 1 nSk (bs.drop skAt)).map (· == 1)
    let node : Node := { id := BitVec.ofNat 64 (w 5), view := w 6, upper := w 7, level := w 8, nbrs := list 11, sketch := sk,
                         code := if x.metric == .ham then [] else (List.range x.codeCount).map fun j => w (k + j),
                         attrs := (List.range x.attrWords).map fun j => BitVec.ofNat 64 (w (k + x.codeCount + j)), norm := BitVec.ofNat 32 (w 10),
                         refine := x.refine.map fun f => formFrom f x.dim (bs.drop (skAt + (nSk + 7) / 8)) }
    let fresh := (tfind (n / 64) x.graph.groups).isNone
    let room := if fresh then d.takeL (some x.burgee) 28672 else some (0, d)
    match room with
    | none => d
    | some (base, d0) =>
      let groups := tmod ({ gen := x.targetGen, curBase := base } : Group) (n / 64)
        (fun q => { q with nodes := tset (n % 64) node q.nodes, nNodes := max q.nNodes (n % 64 + 1) }) x.graph.groups
      let uppers := (List.range lvl).foldl (fun t l => tset (w 7 + l) (n, l + 1, list (11 + 33 * (l + 1))) t) x.graph.uppers
      let tombs := if w 9 = 1 && !x.graph.tombs.contains n then x.graph.tombs ++ [n] else x.graph.tombs
      let g := { x.graph with groups := groups, uppers := uppers, tombs := tombs, entry := w 0, top := w 1, nNodes := w 2, nUppers := w 3 }
      let live := x.nLive + (if w 9 = 1 || (x.graph.node? n).isSome then 0 else 1)
      let d1 := d0.modIndex i fun x => { x with graph := g, nCells := if fresh then x.nCells + 1 else x.nCells, nLive := live }
      let d2 := if fresh then d1.syncNodes i (n / 64) else d1.syncNode i n
      (((List.range lvl).foldl (fun d l => d.syncUpper i (w 7 + l)) d2).syncGroup i (n / 64)).syncRecord i

/-- The format of a delta entry's vector (R105). -/
def Index.deltaFmt (x : Index) : VFmt := if x.metric == .ham then .sign1 else .mxfp8e4m3
/-- A delta entry with the delta segment's ends and the write order. -/
def deltaRec (x : Index) (e : Nat) (v : DeltaEntry) : List Byte :=
  words ([x.deltaHead, x.deltaTail, x.writeSeq, x.lastLogSeq, e, v.id.toNat, v.endView, v.state, bnum v.upsert, bnum v.failed, v.target, v.slot, v.logSeq]
    ++ v.attrs.map (·.toNat)) ++ formAll v.vec
/-- A delta entry restored (R105, R476). -/
def Device.putDelta (d : Device) (i : Nat) (bs : List Byte) : Device :=
  match d.index? i with
  | none => d
  | some x =>
    let w := fun k => fieldAt bs (8 * k) 8
    let e : DeltaEntry := { id := BitVec.ofNat 64 (w 5), endView := w 6, state := w 7, upsert := w 8 == 1, failed := w 9 == 1, target := w 10,
                            slot := w 11, logSeq := w 12, attrs := (List.range x.attrWords).map fun j => BitVec.ofNat 64 (w (13 + j)),
                            vec := formFrom x.deltaFmt x.dim (bs.drop (8 * (13 + x.attrWords))), fn := 0x10000, sqid := 0, cid := 0 }
    ((d.modIndex i fun x => { x with delta := tset (w 4) e x.delta, deltaHead := w 0, deltaTail := w 1, writeSeq := w 2, lastLogSeq := w 3 }).syncDelta i
      (w 4)).syncRecord i

/-- KIND and LOCATION of a place as two words. -/
def Loc.words : Loc → List Nat
  | .slot n s => [1, n, s]
  | .node n => [2, n, 0]
  | .delta e => [3, e, 0]
/-- The place that words name. -/
def locOf (k a b : Nat) : Loc := if k = 1 then .slot a b else if k = 2 then .node a else .delta a
/-- The IDs of an index's ID map with their places, and whether they lie on other devices. -/
def Index.idList (x : Index) : List (W64 × Loc × Bool) :=
  (x.idMap.flatMap fun p => p.2.map (·.2)).filterMap fun w => (idLoc w).bind fun l => (x.idAt l).map fun id => (id, l, x.away.any fun q => q.1 == l)
/-- An ID map entry restored: an entry for an ID not yet there (R85, R476). -/
def Device.putId (d : Device) (i : Nat) (bs : List Byte) : Device :=
  let w := fun k => fieldAt bs (8 * k) 8
  let id := BitVec.ofNat 64 (w 0)
  let l := locOf (w 1) (w 2) (w 3)
  match d.index? i with
  | none => d
  | some x =>
    let d1 := if w 4 = 1 then d.modIndex i fun x => { x with away := x.away ++ [(l, id)] } else d
    if (x.lookup id).isSome then d1.idMove i id l else d1.idInsert i id l

/-- SHIP contents by kind: 0 a merge batch, 1 refine codes, 2 a cell's positions, 3 a node block, 4 a delta entry, 5 ID map entries. -/
def shipBytes (kind i tag a n : Nat) (body : List Byte) : List Byte := words [kind, i, tag, a, n] ++ body
/-- A cell's positions as records. -/
def Index.cellRecs (x : Index) (n : Nat) : List (List Byte) :=
  let c := x.cell n
  c.cur.slots.filterMap fun p => if p.2.id == fillerId then none
    else some (slotRec { cell := n, slot := p.1, gen := c.cur.gen, body := p.2, tomb := c.cur.tombs.contains p.1 })
/-- Lists of records cut so that a message holds at most 61,440 B of them. -/
def perMessage (len : Nat) (rs : List α) : List (List α) :=
  let n := max 1 (61440 / max 1 len)
  chunksOf n rs.length rs
/-- The tag that marks positions put in place at once. -/
def atOnce : Nat := 0xFFFFFFFF

/-- Everything a position's twin needs of an index, as SHIP payloads (R476). -/
def Index.copyMsgs (x : Index) : List (List Byte) :=
  let i := x.indexNo
  let cells := if x.kind == .graph then [] else (List.range x.nCells).flatMap fun n =>
    (perMessage x.slotRecLen (x.cellRecs n)).map fun rs => shipBytes 2 i atOnce n rs.length (words [(x.cell n).cur.gen] ++ rs.flatten)
  let nodes := x.graph.groups.flatMap fun q => q.2.nodes.map fun p => shipBytes 3 i atOnce 0 1 (nodeRec x (64 * q.1 + p.1) p.2)
  let delta := x.delta.map fun p => shipBytes 4 i atOnce 0 1 (deltaRec x p.1 p.2)
  let ids := (perMessage 40 x.idList).map fun rs =>
    shipBytes 5 i atOnce 0 rs.length (rs.flatMap fun p => words ([p.1.toNat] ++ p.2.1.words ++ [bnum p.2.2]))
  cells ++ (nodes ++ (delta ++ ids))
/-- The twin sends a restoring device its position's contents (R476). -/
def Device.sendCopy (d : Device) (dev : Nat) : Device :=
  (d.indexes.filter fun p => p.2.shoalNo.isSome && p.2.deletedAt.isNone).foldl (fun d p =>
    p.2.copyMsgs.foldl (fun d m =>
      let (tag, d1) := d.newTag
      d1.send dev 0x0E tag p.2.burgee false m) d) d

end Sys2Proof.Machine
end

