-- ==== Sys2Proof/Machine/Directory.lean ====
section
/-! DEFINITION. The directory of a shoal and its lead: changes, epochs and views, a device that is LOST, cells that move, and merges that ship
(R464, R465, R474 to R476, R478). Layouts the spec leaves open follow log entry 30. -/

namespace Sys2Proof.Machine

/-! ### The directory as bytes -/

/-- A shoal index as its words, then the input data it was created from. -/
def ShoalIndex.bytes (s : ShoalIndex) : List Byte :=
  let ws := s.words
  Sys2Proof.Machine.words (ws.length :: ws) ++ Sys2Proof.Machine.words [s.spec.length] ++ fit (roundUp 8 s.spec.length) s.spec
/-- Shard maps read back: a position, a count and its cells, n times. -/
def readShards : Nat → List Nat → Tab (List Nat) × List Nat
  | 0, ws => ([], ws)
  | n + 1, p :: k :: ws => let (t, r) := readShards n (ws.drop k); ((p, ws.take k) :: t, r)
  | _ + 1, ws => ([], ws)
/-- A shoal index read back, and what follows it. -/
def readShoalIndex (bs : List Byte) : ShoalIndex × List Byte :=
  let n := fieldAt bs 0 8
  let ws := wordList ((bs.drop 8).take (8 * n))
  let (sh, t) := readShards (ws.getD 4 0) (ws.drop 5)
  let r := t.drop 256
  let ref := (List.range (r.headD 0)).map fun k => (r.getD (1 + 3 * k) 0, r.getD (2 + 3 * k) 0, r.getD (3 + 3 * k) 0)
  let len := fieldAt bs (8 * (n + 1)) 8
  let o := 8 * (n + 2)
  ({ no := ws.getD 0 0, burgee := ws.getD 1 0, routed := ws.getD 2 0 == 1, view := ws.getD 3 0, shards := sh, homes := t.take 256, refine := ref,
     spec := (bs.drop o).take len }, bs.drop (o + roundUp 8 len))
/-- n shoal indexes read back. -/
def readIndexes : Nat → List Byte → List ShoalIndex
  | 0, _ => []
  | n + 1, bs => let (s, r) := readShoalIndex bs; s :: readIndexes n r
/-- The whole directory: SHOAL_EPOCH, the members and the indexes. -/
def Shoal.bytes (h : Shoal) : List Byte :=
  words ([h.epoch, h.dir.length] ++ (h.dir.flatMap fun p => [p.1, p.2.state, p.2.roles]) ++ [h.indexes.length]) ++ h.indexes.flatMap ShoalIndex.bytes

/-! ### Requests that a stopped device leaves open (R358, R472, R474, R475) -/

/-- An RRT entry is closed: its context is ready again. -/
def Device.closeRrt (d : Device) (tag : Nat) : Device :=
  { d with ctxs := d.ctxs.map fun (k : Ctx) =>
      if k.rrt.any fun e => e.tag == tag then { k with rrt := k.rrt.filter (fun e => e.tag != tag), state := if k.state == .spilled then .spilled else .ready } else k }
/-- A request outstanding to a device that is LOST goes to its twin, an ENTRY_REQUEST to the next holder; without a twin a shard is missing,
candidates keep their keys, a GET completes with BURGEE_OFFLINE, a mirrored write waits no longer, and a shipment is abandoned (R358, R472 to
R475). -/
def Device.lostRequest (d0 : Device) (o : Outstanding) : Device :=
  let d := ({ d0 with shoal := { d0.shoal with pending := d0.shoal.pending.filter (· != o) } } : Device).closeRrt o.tag
  let twin := if d.shoal.mirrored && d.serves (twinOf o.dst) then some (twinOf o.dst) else none
  match d.cmd? o.stamp with
  | none =>
    let gone := fun (s : ShipBatch) => s.tag == o.tag || s.waiting.any fun p => p.1 == o.tag
    { d with shoal := { d.shoal with ships := d.shoal.ships.filter fun s => !gone s } }
  | some c =>
    match o.kind, d.shoalIndex? c.indexNo, d.index? c.indexNo with
    | 0x01, some si, some x => d.shoalStageA si c x
    | 0x03, some si, some _ =>
      match twin with
      | none => d.markMissing c.stamp o.dst
      | some t =>
        if !si.routed then d.issueRemote c 0x03 t 2 65536 fun tag => d.shardTask si c t tag
        else match d.entryHolder c with
          | some h => if h == d.shoal.device then d.markMissing c.stamp o.dst
                      else d.issueRemote c 0x01 h 1 64 fun tag => d.taskHeader c tag ++ queryBytes c.vecs c.ps
          | none => d.markMissing c.stamp o.dst
    | 0x05, some si, some x =>
      match twin with
      | none => d.endC c.stamp
      | some t =>
        let es := (c.listC.getD c.listB).filter fun e => e.source != 2 && d.refineDev si e == some t
        d.issueRemote c 0x05 t 1 (16 * es.length) fun tag => d.taskHeader c tag ++ refineBody x c es
    | 0x0A, _, _ =>
      match twin with
      | none => d.endCmd c.stamp stOffline
      | some t =>
        ({ d with shoal := { d.shoal with pending := d.shoal.pending ++ [{ o with dst := t, at_ := d.now }] } } : Device).send t 0x0A o.tag c.burgee false
          (words [c.indexNo, c.id.toNat, c.flags, d.shoal.device, o.tag])
    | 0x10, _, _ => d.modCmd c.stamp fun c => { c with forwarded := c.forwarded.filter (· != o.tag) }
    | _, _, _ => d
/-- A write forwarded to a device that is LOST goes to its twin; without one, a write at its owner completes with BURGEE_OFFLINE, and what only
told a holder waits no longer (R472). -/
def Device.lostWrite (d0 : Device) (f : Forwarded) : Device :=
  let d := { d0 with shoal := { d0.shoal with forwarded := d0.shoal.forwarded.filter (· != f) } }
  match d.cmd? f.stamp with
  | none => d
  | some c =>
    let d1 := d.modCmd c.stamp fun c => { c with forwarded := c.forwarded.filter (· != f.tag) }
    if d.shoal.mirrored && d.serves (twinOf f.home) then d1.forwardWrite { c with forwarded := c.forwarded.filter (· != f.tag) } (twinOf f.home)
    else if c.applied then d1
    else d1.endCmd c.stamp stOffline
/-- A device is LOST: what this device asked of it goes elsewhere or closes (R475). -/
def Device.onLost (d : Device) (dev : Nat) : Device :=
  let d1 := (d.shoal.pending.filter fun o => o.dst == dev).foldl (fun d o => d.lostRequest o) d
  let d2 := (d1.shoal.forwarded.filter fun f => f.home == dev).foldl (fun d f => d.lostWrite f) d1
  let keep := fun (r : Received) => r.src != dev
  { d2 with shoal := { d2.shoal with received := d2.shoal.received.filter keep, probes := d2.shoal.probes.filter fun p => p.1 != dev,
                                     reported := d2.shoal.reported.filter fun p => p.2 != dev,
                                     changes := d2.shoal.changes.map fun c => { c with waiting := c.waiting.filter (· != dev) } } }

/-! ### Changes applied (R464, R475, R476) -/

/-- A shoal index joins the directory, and is created here where this device has none of its number (R466, R478). -/
def Device.applyIndex (d : Device) (s : ShoalIndex) : Device :=
  let d1 := { d with shoal := { d.shoal with indexes := (d.shoal.indexes.filter fun (t : ShoalIndex) => t.no != s.no) ++ [s] } }
  if (tfind s.no d1.indexes).isSome then d1
  else match parseSpec s.spec s.burgee with
    | none => d1
    | some x => (d1.createIndex { x with indexNo := s.no, shoalNo := some s.no }).getD d1
/-- A device's state and roles change (R464): LOST and joined devices raise events, a new holder copies from another, and a twin that is to be
restored is sent its contents (R475, R476, R478). -/
def Device.applyMember (d : Device) (dev : Nat) (m : Member) : Device :=
  let self := d.shoal.device
  let old := tget ({ state := 4 } : Member) dev d.shoal.dir
  let was := d.holders.contains self
  let d1 := ({ d with shoal := { d.shoal with dir := tset dev m d.shoal.dir } } : Device).setRoutes
  let d2 := if m.state = 4 && old.state != 4 then (d1.linkEvent 0x0C 0xFF dev).onLost dev
            else if m.state = 0 && old.state != 0 then d1.linkEvent 0x0D 0xFF dev
            else d1
  let d3 := if m.state = 2 && d2.shoal.mirrored && dev == twinOf self then d2.sendCopy dev else d2
  if was || !d3.holders.contains self then d3
  else match d3.holders.find? fun h => h != self && h != dev && d3.serves h with
    | none => d3
    | some h => ({ d3 with shoal := { d3.shoal with complete := false } } : Device).sendDir h 0x14 0 (words [d3.shoal.epoch])
/-- Cells that a shard map moves to or from this device: where the ID map of this home says its vectors lie (R472, R478). -/
def Device.moveAway (d : Device) (i : Nat) (old new : ShoalIndex) : Device :=
  let self := posOf d.shoal.device
  match d.index? i with
  | none => d
  | some x =>
    let cellOf := fun (l : Loc) => match l with | .slot n _ => some n | _ => none
    let at_ := fun (s : ShoalIndex) (l : Loc) => (cellOf l).bind s.cellPos
    let back := x.away.filter fun p => !(at_ new p.1 == some self && at_ old p.1 != some self)
    let out := (x.idList.filter fun p => !p.2.2 && at_ old p.2.1 == some self && at_ new p.2.1 != some self).map fun p => (p.2.1, p.1)
    d.modIndex i fun x => { x with away := back ++ out }
/-- New maps of a shoal index, with the shipments they publish (R465, R478). -/
def Device.applyMaps (d : Device) (ships : List (Nat × Nat)) (new : ShoalIndex) : Device :=
  match d.shoalIndex? new.no with
  | none => d.applyIndex new
  | some old =>
    let v := nextView old.view
    let d1 := d.modShoalIndex new.no fun s => { s with shards := new.shards, past := s.past ++ [(s.view, s.shards)] }
    (d1.moveAway new.no old new).publishView new.no v ships
/-- A directory change: 0 a member, 1 an index, 2 maps. -/
def Device.applyChange (d : Device) (what : Nat) (bs : List Byte) : Device :=
  let w := fun k => fieldAt bs (8 * k) 8
  match what with
  | 0 => d.applyMember (w 0) { state := w 1, roles := w 2 }
  | 1 => d.applyIndex (readShoalIndex bs).1
  | 2 =>
    let n := w 0
    d.applyMaps ((List.range n).map fun k => (w (1 + 2 * k), w (2 + 2 * k))) (readShoalIndex (bs.drop (8 * (1 + 2 * n)))).1
  | _ => d

/-- The admin request that waits for the shoal is answered (R478). -/
def Device.answerShoal (d : Device) (status detail result : Nat) : Device :=
  match d.shoal.waitAdmin with
  | none => d
  | some (m, slot) => ({ d with shoal := { d.shoal with waitAdmin := none } } : Device).respond m slot status detail 0 result
/-- An epoch is applied: its change, its event, and the answer to the request that asked for it (R464, R475, R478). The content: epoch, kind of
change, requester, RESULT, then the change. -/
def Device.applyEpoch (d : Device) (bs : List Byte) : Device :=
  let w := fun k => fieldAt bs (8 * k) 8
  let d1 := ({ d with shoal := { d.shoal with epoch := w 0, split := false } } : Device).applyChange (w 1) (bs.drop 32)
  let d2 := d1.linkEvent 0x0E 0xFF d.shoal.device
  if w 2 = d.shoal.device then d2.answerShoal 0 0 (w 3) else d2
/-- An epoch that arrives is applied when it is the next; after a gap the directory is fetched from its sender (R447, R464). -/
def Device.takeEpoch (d : Device) (src : Nat) (bs : List Byte) : Device :=
  let e := fieldAt bs 0 8
  if e = d.shoal.epoch + 1 then d.applyEpoch bs
  else if d.shoal.epoch < e then d.sendDir src 0x14 0 (words [d.shoal.epoch])
  else d
/-- The whole directory taken over, where it is no older (R447, R464). -/
def Device.takeDirectory (d : Device) (bs : List Byte) : Device :=
  let w := fun k => fieldAt bs (8 * k) 8
  let n := w 1
  if w 0 < d.shoal.epoch then d
  else
    let ms := (List.range n).map fun k => (w (2 + 3 * k), ({ state := w (3 + 3 * k), roles := w (4 + 3 * k) } : Member))
    let d1 := ms.foldl (fun d p => if tget ({ state := 4 } : Member) p.1 d.shoal.dir == p.2 then d else d.applyMember p.1 p.2) d
    let is := readIndexes (w (2 + 3 * n)) (bs.drop (8 * (3 + 3 * n)))
    let d2 := is.foldl (fun d s => d.applyIndex s) d1
    ({ d2 with shoal := { d2.shoal with epoch := w 0, split := false, complete := true } } : Device).setRoutes

/-! ### The lead (R464, R475) -/

/-- Members of this device's own shoal that take part, this one excepted. -/
def Device.fellows (d : Device) : List Nat :=
  (d.shoal.dir.filter fun p => p.1 != d.shoal.device && sideOf p.1 == sideOf d.shoal.device && p.2.state != 4 && p.2.state != 1).map (·.1)
/-- The device that a change of a member concerns. -/
def DirChange.dev (c : DirChange) : Option Nat := if c.what = 0 then some (fieldAt c.bytes 0 8) else none
/-- An accepted change is published: SHOAL_EPOCH advances, every member is sent a NOTICE, the other shoal's lead a copy, and the change is
applied here (R464). -/
def Device.publishChange (d : Device) (c : DirChange) : Device :=
  let bs := words [d.shoal.epoch + 1, c.what, c.requester.getD 0xFFFF, c.result] ++ c.bytes
  let self := d.shoal.device
  let lost := c.what = 0 && fieldAt c.bytes 8 8 = 4
  let tgts := ((d.fellows ++ c.dev.toList).eraseDups).filter fun p => p != self && !(lost && c.dev == some p) && sideOf p == sideOf self
  let d1 := tgts.foldl (fun d p => d.sendDir p 0x15 3 bs) d
  let d2 := match (d.holdersOf (1 - sideOf self)).head? with
    | some h => if d.shoal.mirrored && d.pairLead == some self then d1.sendDir h 0x14 6 bs else d1
    | none => d1
  d2.applyEpoch bs
/-- The lead's changes go on: the front one is written to the other holders, and published once they have accepted it (R464). -/
def Device.leadStep : Nat → Device → Device
  | 0, d => d
  | fuel + 1, d =>
    match d.shoal.changes with
    | [] => d
    | c :: rest =>
      if c.sent then
        if c.waiting.isEmpty then Device.leadStep fuel (({ d with shoal := { d.shoal with changes := rest } } : Device).publishChange c) else d
      else
        let others := d.holders.filter fun h => h != d.shoal.device && c.dev != some h && d.serves h
        let d1 := others.foldl (fun d h => d.sendDir h 0x14 3 (words [c.what] ++ c.bytes)) d
        Device.leadStep fuel { d1 with shoal := { d1.shoal with changes := { c with sent := true, waiting := others } :: rest } }
/-- A change joins those of the lead. -/
def Device.change (d : Device) (c : DirChange) : Device :=
  Device.leadStep (2 * d.shoal.changes.length + 4) { d with shoal := { d.shoal with changes := d.shoal.changes ++ [c] } }
/-- A member's state or roles are to change. -/
def Device.changeMember (d : Device) (dev state roles : Nat) (requester : Option Nat) : Device :=
  d.change { what := 0, bytes := words [dev, state, roles], requester := requester }
/-- A holder has accepted the change under way (R464). -/
def Device.accepted (d : Device) (h : Nat) : Device :=
  match d.shoal.changes with
  | [] => d
  | c :: rest =>
    Device.leadStep (2 * rest.length + 4) { d with shoal := { d.shoal with changes := { c with waiting := c.waiting.filter (· != h) } :: rest } }
/-- A request of a device is refused by the lead. -/
def Device.refuseShoal (d : Device) (requester status detail : Nat) : Device :=
  if requester == d.shoal.device then d.answerShoal status detail 0 else if requester = 0xFFFF then d else d.sendDir requester 0x14 2 (words [status, detail])
/-- The lead declares a device LOST and publishes the epoch (R475); the roles of a device that has left go with it. -/
def Device.declareLost (d : Device) (dev : Nat) (left : Bool) (requester : Option Nat) : Device :=
  let m := tget ({ state := 4 } : Member) dev d.shoal.dir
  if m.state = 4 then d else d.changeMember dev 4 (if left then 0 else m.roles) requester

/-- A view with shipments is published to every member of this shoal (R465, R474 step 4). -/
def Device.leadView (d : Device) (i : Nat) (home tag : Nat) : Device :=
  match d.shoalIndex? i with
  | none => d
  | some si =>
    let v := nextView si.view
    (d.fellows.foldl (fun d p => d.sendDir p 0x15 5 (words [i, v, home, tag])) d).publishView i v [(home, tag)]

/-! ### Moves and shipments (R474, R478) -/

/-- A device has shipped its cells of a move, or could not: once all have, the new shard map is published, or the request refused; a device that
leaves is then LOST (R465, R478). -/
def Device.moveDone (d : Device) (id home tag : Nat) (failed : Bool) : Device :=
  match d.shoal.moves.find? fun m => m.id == id with
  | none => d
  | some m0 =>
    let m := { m0 with left := m0.left - 1, failed := m0.failed || failed, ships := if failed then m0.ships else m0.ships ++ [(home, tag)] }
    if m.left != 0 then { d with shoal := { d.shoal with moves := d.shoal.moves.map fun k => if k.id == id then m else k } }
    else
      let d1 := { d with shoal := { d.shoal with moves := d.shoal.moves.filter fun k => k.id != id } }
      if m.failed then
        let apart := fun (k : Move) => if m.leaving.isSome && k.leaving == m.leaving then { k with leaving := none, requester := 0xFFFF } else k
        let d2 := ({ d1 with shoal := { d1.shoal with moves := d1.shoal.moves.map apart } } : Device).refuseShoal m.requester stNoSpace 0
        match m.leaving with
        | some dev => d2.changeMember dev 0 (tget ({} : Member) dev d2.shoal.dir).roles none
        | none => d2
      else
        let d2 := match d1.shoalIndex? m.index with
          | none => d1
          | some si =>
            let moved := fun (n : Nat) => (m.cells.find? fun p => p.1 == n).map (·.2)
            let all := (si.shards.flatMap fun p => p.2.map fun n => (n, (moved n).getD p.1))
            let ps := ((si.shards.map (·.1)) ++ m.cells.map (·.2)).eraseDups
            let sh := ps.foldl (fun (t : Tab (List Nat)) p => tset p ((all.filter fun q => q.2 == p).map (·.1)) t) []
            d1.change { what := 2, bytes := words (m.ships.length :: m.ships.flatMap fun p => [p.1, p.2]) ++ ({ si with shards := sh } : ShoalIndex).bytes,
                        requester := if m.leaving.isSome then none else some m.requester }
        match m.leaving with
        | some dev => if d2.shoal.moves.any fun k => k.leaving == some dev then d2 else d2.declareLost dev true (some m.requester)
        | none => d2

/-- A shipment whose SHIPs are all answered asks the lead to publish it: a merge's new view, or a move's new map (R474 step 4, R478). -/
def Device.shipDone (d : Device) (tag : Nat) : Device :=
  match d.shoal.ships.find? fun b => b.tag == tag with
  | none => d
  | some b =>
    let self := d.shoal.device
    let drop := fun (d : Device) => { d with shoal := { d.shoal with ships := d.shoal.ships.filter fun k => k.tag != tag } }
    if !b.waiting.isEmpty then d
    else match b.move with
      | some id =>
        if d.isLead then (drop d).moveDone id self tag b.failed
        else match d.lead with
          | some h => (drop d).sendDir h 0x15 4 (words [b.index, tag, 1 + bnum b.failed, id])
          | none => d
      | none =>
        if b.places.isEmpty then drop d
        else if d.isLead then d.leadView b.index self tag
        else match d.lead with
          | some h => d.sendDir h 0x15 4 (words [b.index, tag, 0, 0])
          | none => d
/-- A SHIP leaves for a device and is awaited. -/
def Device.ship (d : Device) (batch dst burgee : Nat) (entries : List Nat) (bs : List Byte) : Device :=
  let (tag, d1) := d.newTag
  let o : Outstanding := { tag := tag, kind := 0x0E, stamp := 0, dst := dst, at_ := d.now }
  let ships := d1.shoal.ships.map fun (b : ShipBatch) => if b.tag == batch then { b with waiting := b.waiting ++ [(tag, entries)] } else b
  ({ d1 with shoal := { d1.shoal with pending := d1.shoal.pending ++ [o], ships := ships } } : Device).send dst 0x0E tag burgee false bs
/-- Entries of a batch that cannot ship are reported where nothing may help, and stay live (R97, R395, R474). -/
def Device.shipFails (d : Device) (i batch : Nat) (es : List Nat) (report : Bool) : Device :=
  let d1 := if report then es.foldl (fun d e => d.entryFailed i e 0xFFFFFFFF) d else d
  { d1 with shoal := { d1.shoal with ships := d1.shoal.ships.map fun (b : ShipBatch) =>
      if b.tag == batch then { b with entries := b.entries.filter fun p => !es.contains p.1, failed := true } else b } }

/-- A batch's entries have their cells: they are shipped to the devices that hold them, and refine codes of covered IDs to REFINE devices (R470,
R474 step 2). -/
def Device.assigned (d : Device) (tag : Nat) (cells : List (Nat × Nat)) : Device :=
  match d.shoal.ships.find? fun b => b.tag == tag with
  | none => d
  | some b =>
    match d.index? b.index, d.shoalIndex? b.index with
    | some x, some si =>
      let i := b.index
      let self := d.shoal.device
      let items := cells.filterMap fun p => (tfind p.1 x.delta).bind fun v =>
        if v.state == 1 && decide (p.2 < x.nCells) then some ({ entry := p.1, cell := p.2, id := v.id, attrs := v.attrs, vec := formF32 v.vec } : ShipItem) else none
      let lost := (b.entries.map (·.1)).filter fun e => !(items.any fun k => k.entry == e)
      let d1 := d.shipFails i tag lost true
      let dest := fun (e : ShipItem) => (si.cellPos e.cell).map d.posDev
      let devs := (items.filterMap dest).eraseDups
      let d2 := (devs.filter (· != self)).foldl (fun d p =>
        (perMessage x.itemLen (items.filter fun e => dest e == some p)).foldl (fun d es =>
          d.ship tag p x.burgee (es.map (·.entry)) (shipBytes 0 i tag 0 es.length (es.flatMap ShipItem.bytes))) d) d1
      let mine := items.filter fun e => dest e == some self
      let d3 := if mine.isEmpty then d2
        else match d2.takeBatch self tag i mine with
          | (d3, some ss, _) =>
            let places := (mine.zip ss).map fun p => (p.1.entry, p.1.cell, p.2, self)
            { d3 with shoal := { d3.shoal with ships := d3.shoal.ships.map fun (k : ShipBatch) => if k.tag == tag then { k with places := k.places ++ places } else k } }
          | (d3, none, later) => d3.shipFails i tag (mine.map (·.entry)) (!later)
      let rdev := fun (e : ShipItem) => (si.cellPos e.cell).bind fun p => d.refineFor si p e.id
      let rs := (items.filterMap rdev).eraseDups
      let d4 := rs.foldl (fun d p =>
        let es := items.filter fun e => rdev e == some p
        if p == self then d.keepRefine i es
        else (perMessage x.itemLen es).foldl (fun d es => d.ship tag p x.burgee [] (shipBytes 1 i tag 0 es.length (es.flatMap ShipItem.bytes))) d) d3
      d4.shipDone tag
    | _, _ => d

/-- The cell of a vector: the nearest by R127 with PROBES = 1 (R474 step 1). -/
def Index.assignCell (x : Index) (xs : List F32) : Nat := (x.cellOrder xs).headD 0xFFFFFFFF
/-- A merge pass of a ROUTED shoal index at a home: its live entries that are not under way, as many as one ASSIGN holds, at most 4,096, are
assigned cells by a holder (R474 step 1). -/
def Device.beginShip (d : Device) (i : Nat) : Device :=
  match d.index? i with
  | none => d
  | some x =>
    let busy := (d.shoal.ships.filter (·.index == i)).flatMap fun b => b.entries.map (·.1)
    let n := max 1 (min 4096 (61440 / (8 + 4 * x.dim)))
    let es := (x.liveEntries.filter fun p => !busy.contains p.1).take n
    if es.isEmpty then d
    else
      let (tag, d1) := d.newTag
      let b : ShipBatch := { index := i, tag := tag, entries := es.map fun p => (p.1, p.2.id) }
      let d2 := { d1 with shoal := { d1.shoal with ships := d1.shoal.ships ++ [b] } }
      if d.holders.contains d.shoal.device && d.shoal.complete then d2.assigned tag (es.map fun p => (p.1, x.assignCell (formF32 p.2.vec)))
      else match d.holders.find? fun h => d.serves h with
        | none => d
        | some h =>
          let o : Outstanding := { tag := tag, kind := 0x0C, stamp := 0, dst := h, at_ := d.now }
          let body := es.flatMap fun p => leBytes 8 p.1 ++ (formF32 p.2.vec).flatMap fun (v : F32) => leBytes 4 v.toNat
          ({ d2 with shoal := { d2.shoal with pending := d2.shoal.pending ++ [o] } } : Device).send h 0x0C tag x.burgee false (words [i, es.length] ++ body)

/-- Cells that a move takes from this device are shipped to their new one (R478). -/
def Device.beginMove (d : Device) (i id : Nat) (cells : List (Nat × Nat)) : Device :=
  match d.index? i, d.shoalIndex? i with
  | some x, some si =>
    let mine := cells.filter fun p => si.cellPos p.1 == some (posOf d.shoal.device)
    let (tag, d1) := d.newTag
    let b : ShipBatch := { index := i, tag := tag, move := some id }
    let d2 := { d1 with shoal := { d1.shoal with ships := d1.shoal.ships ++ [b] } }
    let d3 := mine.foldl (fun d p => (perMessage x.slotRecLen (x.cellRecs p.1)).foldl (fun d rs =>
      d.ship tag (d.posDev p.2) x.burgee [] (shipBytes 2 i tag p.1 rs.length (words [(x.cell p.1).cur.gen] ++ rs.flatten))) d) d2
    d3.shipDone tag
  | _, _ => d

/-- The lead starts a move of cells to positions: each device that holds some of them is told (R478). -/
def Device.leadMove (d : Device) (i : Nat) (cells : List (Nat × Nat)) (requester : Nat) (leaving : Option Nat) : Device :=
  match d.shoalIndex? i with
  | none => d
  | some si =>
    let from_ := ((cells.filterMap fun p => si.cellPos p.1).eraseDups).map d.posDev
    let id := d.shoal.nextMove
    let m : Move := { id := id, requester := requester, index := i, cells := cells, left := from_.length, leaving := leaving }
    let d1 := { d with shoal := { d.shoal with moves := d.shoal.moves ++ [m], nextMove := id + 1 } }
    from_.foldl (fun d p =>
      if p == d.shoal.device then d.beginMove i id cells
      else d.sendDir p 0x15 7 (words ([i, id, cells.length] ++ cells.flatMap fun q => [q.1, q.2]))) d1

/-! ### Requests at the lead (R478) -/

/-- Bytes of the maps that follow R417's input data: 256 home positions, a position per cell for ROUTED, and per position a REFINE position and a
COVER (log entry 30). -/
def mapsLen (routed : Bool) (nCells : Nat) : Nat := 256 + (if routed then nCells else 0) + 1024
/-- The shoal index that input data describes, or none where a map is not one (R466, R470, R472). -/
def Device.readMaps (d : Device) (x : Index) (routed : Bool) (spec bs : List Byte) : Option ShoalIndex :=
  let role := fun (p b : Nat) => (tfind (d.devAt p) d.shoal.dir).any fun m => m.state != 4 && m.roles.testBit b
  let homes := (bs.take 256).map (·.toNat)
  let cellAt := if routed then ((bs.drop 256).take x.nCells).map (·.toNat) else []
  let o := 256 + (if routed then x.nCells else 0)
  let ref := ((List.range 256).map fun p => (p, fieldAt bs (o + 4 * p) 1, fieldAt bs (o + 4 * p + 2) 2)).filter fun p => p.2.1 != 0xFF
  let ps := cellAt.eraseDups
  let sh := ps.foldl (fun (t : Tab (List Nat)) p => tset p (((cellAt.zipIdx).filter fun q => q.1 == p).map (·.2)) t) []
  let ok := homes.all (fun p => role p 2) && ps.all (fun p => role p 0) && ref.all fun p => role p.2.1 1 && decide (1 ≤ p.2.2) && decide (p.2.2 ≤ 1024)
  if bs.length == mapsLen routed x.nCells && ok && routed == (x.kind == .cell) then
    some { no := x.indexNo, burgee := x.burgee, routed := routed, shards := sh, homes := homes, refine := ref, spec := spec }
  else none

/-- A shoal request at the lead, of a device: a refusal as STATUS and DETAIL, or the device with the request under way; a device holds at least one
role (R42, R478). -/
def Device.leadRequest (d : Device) (from_ : Nat) (r : AdminReq) (data : List Byte) : Except (Nat × Nat) Device :=
  let h := d.shoal
  let dev := r.target
  let m := tget ({ state := 4 } : Member) dev h.dir
  let known := decide (posOf dev < h.size) && decide (sideOf dev ≤ bnum h.mirrored)
  let bad : Except (Nat × Nat) Device := .error (stInvalidField, 0)
  match r.op with
  | 0x00B1 =>
    if !known || m.state = 0 || m.state = 2 || m.state = 3 || r.param 0 1 % 8 = 0 then bad
    else
      let twin := h.mirrored && (tget ({ state := 4 } : Member) (twinOf dev) h.dir).state == 0
      .ok (d.changeMember dev (if twin then 2 else 0) (r.param 0 1 % 8) (some from_))
  | 0x00B2 =>
    if !known || m.state != 0 then bad
    else
      let d1 := d.changeMember dev 3 m.roles none
      let rest := (d1.membersWith 0).filter fun p => p != dev && (tget ({ state := 4 } : Member) p d1.shoal.dir).state == 0
      let held := d1.shoal.indexes.filterMap fun (s : ShoalIndex) => match tfind (posOf dev) s.shards with
        | some ns => if s.routed && !ns.isEmpty then some (s.no, ns) else none
        | none => none
      if held.isEmpty then .ok (d1.declareLost dev true (some from_))
      else if rest.isEmpty then .error (stNoSpace, 0)
      else .ok (held.foldl (fun d p =>
        d.leadMove p.1 ((p.2.zipIdx).map fun q => (q.1, posOf (rest.getD (q.2 % rest.length) 0))) from_ (some dev)) d1)
  | 0x00B3 => if !known || m.state = 4 || m.state = 1 || r.param 0 1 % 8 = 0 then bad else .ok (d.changeMember dev m.state (r.param 0 1 % 8) (some from_))
  | 0x00B4 =>
    let n := r.param 8 8
    let b := r.param 0 1
    if 16 ≤ b || !(d.burgee b).enabled || data.length < n then bad
    else match parseSpec (data.take n) b with
      | none => bad
      | some x0 =>
        match if x0.indexNo = 0xFFFF then d.freeIndexNo else if (tfind x0.indexNo d.indexes).isSome then none else some x0.indexNo with
        | none => bad
        | some i =>
          let x := { x0 with indexNo := i }
          match d.readMaps x (r.param 1 1 == 1) (data.take n) (data.drop n) with
          | none => bad
          | some s => match d.createIndex x with
            | none => .error (stNoSpace, 0)
            | some _ => .ok (d.change { what := 1, bytes := s.bytes, requester := some from_, result := i })
  | 0x00B5 =>
    match d.shoalIndex? dev, d.index? dev with
    | some si, some x =>
      let c := r.param 0 4
      let n := r.param 4 4
      let dst := r.param 8 2
      let tgts := tget ({ state := 4 } : Member) dst h.dir
      if !si.routed || n = 0 || x.nCells < c + n || tgts.state != 0 || !tgts.roles.testBit 0 || sideOf dst != sideOf h.device then bad
      else
        let cells := ((List.range n).map (c + ·)).filter fun k => si.cellPos k != some (posOf dst)
        if cells.isEmpty then .ok (d.answerShoal 0 0 0) else .ok (d.leadMove dev (cells.map fun k => (k, posOf dst)) from_ none)
    | _, _ => .error (stIndexAbsent, 0)
  | _ => bad

/-- A shoal request of a device at the lead: its refusal is sent back (R478). -/
def Device.serveRequest (d : Device) (from_ : Nat) (r : AdminReq) (data : List Byte) : Device :=
  match d.leadRequest from_ r data with
  | .error e => d.refuseShoal from_ e.1 e.2
  | .ok d1 => d1

end Sys2Proof.Machine
end

