-- ==== Sys2Proof/Machine/ShoalMsgs.lean ====
section
/-! DEFINITION. The messages of a shoal as their destination takes them (R452, R467 to R476), and the events of the shoal: an early CANCEL's expiry,
a resend, a device declared LOST, isolation and the end of a restore. A message row takes a message received whole over a link's flits, or one
given as it stands. -/

namespace Sys2Proof.Machine

/-! ### Taking a message (R450, R457) -/

/-- The link port on which a message reaches this device when it comes by the primary route: of the trunk to the last device before this one (groups
are crossed before members, and the twin trunk first), the link (SRC + TAG) mod L of those that are UP (R28, R459, R461). -/
def Device.portOfDev (d : Device) (src tag : Nat) : Nat :=
  let h := d.shoal
  let (self, p) := (posOf h.device, posOf src)
  let last := if h.primaryHop p self = self then p else h.primaryHop p self
  let ls := if p = self then h.twinTrunk else h.trunk last
  let up := d.upLinks ls
  if up.isEmpty then ls.headD 30 else up.getD ((src + tag) % up.length) 30
/-- A message of a kind from a device is taken, with the link on which it came: one that FLIT_RECEIPT received, or one that arrives now; a resent one
that the Message Record holds is dropped and counted (R457). -/
def Device.onMsg (d : Device) (kind src tag : Nat) (resent : Bool) (bs : List Byte) (f : Nat → Device → Device) : Device :=
  let port := d.portOfDev src tag
  if !d.inShoal || !d.ready then d
  else
    match d.shoal.inbox.find? fun m => m.kind == kind && m.src == src && m.tag == tag && m.bytes == bs with
    | some m => f (m.port.getD port) { d with shoal := { d.shoal with inbox := d.shoal.inbox.filter (· != m) } }
    | none =>
      let key := (src, tag, kind)
      if resent && d.shoal.record.contains key then d.linkCount port 10 1
      else f port { d with shoal := { d.shoal with record := (key :: d.shoal.record).take 16384 } }
/-- A message kept for its turn, as if it had just been received on a link. -/
def Device.holdMsg (d : Device) (kind src tag link : Nat) (bs : List Byte) : Device :=
  let m : Msg := { src := src, dst := d.shoal.device, tag := tag, kind := kind, vc := (kindVc kind).getD 0, tags := tagsOf kind 0, bytes := bs, port := some link }
  { d with shoal := { d.shoal with inbox := d.shoal.inbox ++ [m] } }

/-! ### Tasks (R467 to R471) -/

/-- The search parameters of a task header (R467). -/
def headerParams (op : IoOp) (b : List Byte) : SearchParams :=
  let fl := fieldAt b 1 1
  { k := fieldAt b 24 2, probes := fieldAt b 26 2, beam := fieldAt b 28 2, expandMax := fieldAt b 30 2, runAhead := fieldAt b 37 1,
    keep := fieldAt b 38 1, overfetch := fieldAt b 36 1, filterId := fieldAt b 14 2, beta := BitVec.ofNat 32 (fieldAt b 32 4),
    stageC := fl.testBit 1, stageD := fl.testBit 2, ties := fl.testBit 3, nvec := fieldAt b 40 2, aggSum := fieldAt b 39 1 == 1,
    threshold := if op == .range then some (BitVec.ofNat 32 (fieldAt b 44 4)) else none }
/-- Query vectors and parameter words after a task header, and what follows them (R468). -/
def headerQuery (dim nvec nparam : Nat) (b : List Byte) : List (List F32) × List W64 × List Byte :=
  let q := b.drop 64
  let vecs := (List.range nvec).map fun j => (List.range dim).map fun k => BitVec.ofNat 32 (fieldAt q (4 * (dim * j + k)) 4)
  let r := q.drop (roundUp 64 (4 * dim * nvec))
  (vecs, (List.range nparam).map fun j => BitVec.ofNat 64 (fieldAt r (8 * j) 8), r.drop (roundUp 64 (8 * nparam)))
/-- Probe sublists, one per query vector (R468). -/
def readSublists : Nat → List Byte → List (List (Nat × Nat × F32))
  | 0, _ => []
  | n + 1, bs => let (s, r) := parseSublist bs; s :: readSublists n r
/-- The number of a new command of another device, past every fetch stamp. -/
def Device.remoteStamp (d : Device) : Nat := d.cmds.foldl (fun m c => max m (c.stamp + 1)) 0x10000000000000000
/-- A remote task joins the commands of this device, to be admitted at its burgee's next Hoist boundary (R359, R467); an early CANCEL drops it
(R471). `cells` are the probe sublists of a ROUTED task. -/
def Device.addTask (d : Device) (kind src link : Nat) (b : List Byte) (op : IoOp) (x : Index) (cells : Option (List (List (Nat × Nat × F32))))
    (cands : List (W64 × W32)) : Device :=
  let owner := fieldAt b 12 2
  let tag := fieldAt b 56 2
  let early := fun (c : Nat × Nat × Nat) => c.1 == owner && c.2.1 == tag && decide (d.now ≤ c.2.2 + 1000000)
  if d.shoal.cancels.any early then { d with shoal := { d.shoal with cancels := d.shoal.cancels.filter fun c => !early c } }
  else if d.quiesced then d
  else
    let sp := headerParams op b
    let forms := if kind = 0x05 then (headerForms x sp.nvec b).1 else []
    let (vecs, ps, _) := headerQuery x.dim sp.nvec (fieldAt b 42 1) b
    let vecs := if kind = 0x05 then forms.map formF32 else vecs
    let ps := if kind = 0x05 then [] else ps
    let r : RemoteOrigin := { device := owner, tag := tag, link := link, bound := (fieldAt b 1 1).testBit 0, kind := kind,
                              fetch := fieldAt b 48 8, xform := fieldAt b 20 4, cands := cands, forms := forms }
    let order := fun (s : List (Nat × Nat × F32)) => (sortBy (fun (a b : Nat × Nat × F32) => decide (a.2.1 < b.2.1)) s).map fun p => (p.1, p.2.2)
    let empty : VecRun := { fold := { list := { cap := sp.cap } }, merged := { list := { cap := sp.cap } } }
    let runs := (vecs.zipIdx).map fun p => match cells with
      | some ss => { empty with stageA := true, cells := order (ss.getD p.2 []) }
      | none => empty
    let c : Cmd := { stamp := d.remoteStamp, fn := 0x10000, qid := src, half := r.link / 16, burgee := x.burgee, cid := 0, indexNo := fieldAt b 2 2, op := op,
                     t0 := d.now, deadline := some (d.now + fieldAt b 4 4), out := [], vecs := vecs, ps := ps, sp := sp, runs := runs, remote := some r,
                     shoalView := fieldAt b 8 4 }
    { d with cmds := d.cmds ++ [c] }
/-- A task whose opcode is a search on an index of this device. -/
def Device.withTask (d : Device) (b : List Byte) (f : IoOp → Index → Device) : Device :=
  match ioOpOf (fieldAt b 0 1), d.index? (fieldAt b 2 2) with
  | some op, some x => if op.isSearch then f op x else d
  | _, _ => d

/-- ENTRY_REQUEST: a holder admits stage A for the owner; one whose copy is incomplete passes it to the next holder (R469 step 3, R475). -/
def execEntryRequest (src tag : Nat) (resent : Bool) (b : List Byte) (s : State) : Host.Outcome State Fault Refusal :=
  onDev (fun d => d.onMsg 0x01 src tag resent b fun link d => d.withTask b fun op x =>
    if d.shoal.complete then d.addTask 0x01 src link b op x none []
    else match d.holders.find? fun h => h != d.shoal.device && d.serves h with
      | some h => d.send h 0x01 tag x.burgee false b
      | none => d) s
/-- SHARD_TASK: stage B of a shard; the owner's own part joins its command (R469 step 4). -/
def execShardTask (src tag : Nat) (resent : Bool) (b : List Byte) (s : State) : Host.Outcome State Fault Refusal :=
  onDev (fun d => d.onMsg 0x03 src tag resent b fun link d => d.withTask b fun op x =>
    let routed := (d.shoalIndex? (fieldAt b 2 2)).elim false (·.routed)
    let (_, _, rest) := headerQuery x.dim (fieldAt b 40 2) (fieldAt b 42 1) b
    let subs := if routed then some (readSublists (fieldAt b 40 2) rest) else none
    if fieldAt b 12 2 = d.shoal.device then
      match d.cmd? (fieldAt b 48 8), subs with
      | some c, some ss => if c.remote.isNone && c.phase == .active && c.runs.all fun (r : VecRun) => !r.stageA then d.takeCells c.stamp ss else d
      | _, _ => d
    else d.addTask 0x03 src link b op x subs []) s
/-- REFINE_REQUEST: a REFINE device is to rescore candidates (R470). -/
def execRefineRequest (src tag : Nat) (resent : Bool) (b : List Byte) (s : State) : Host.Outcome State Fault Refusal :=
  onDev (fun d => d.onMsg 0x05 src tag resent b fun link d => d.withTask b fun op x =>
    let (_, rest) := headerForms x (fieldAt b 40 2) b
    let n := fieldAt rest 0 8
    let cands := (List.range n).map fun k => let e := parseListEntry (rest.drop (64 + 16 * k)); (e.id, e.key)
    d.addTask 0x05 src link b op x none cands) s

/-- A reply to a request of a kind: consumed, parked or dropped under R358. -/
def Device.replyTo (d : Device) (kind src tag : Nat) (bs : List Byte) : Device :=
  match d.shoal.pending.find? fun o => o.kind == kind && o.tag == tag && o.dst == src with
  | none => { d with shoal := { d.shoal with lateReplies := d.shoal.lateReplies + 1 } }
  | some o =>
    let (now, d1) := d.takeReply tag bs
    if now then d1.consume o bs else d1
/-- ENTRY_REPLY: the shards chosen (R469). -/
def execEntryReply (src tag : Nat) (resent : Bool) (bs : List Byte) (s : State) : Host.Outcome State Fault Refusal :=
  onDev (fun d => d.onMsg 0x02 src tag resent bs fun _ d =>
    match d.shoal.pending.find? fun o => o.kind == 0x01 && o.tag == tag with
    | some o => d.replyTo 0x01 o.dst tag bs
    | none => d.replyTo 0x01 src tag bs) s
/-- SHARD_LIST: a shard's folded list joins its command; it may arrive before the ENTRY_REPLY that names the shard (R163, R468, R469). -/
def execShardList (src tag : Nat) (resent : Bool) (bs : List Byte) (s : State) : Host.Outcome State Fault Refusal :=
  onDev (fun d => d.onMsg 0x04 src tag resent bs fun _ d =>
    match d.shoal.pending.find? fun o => o.kind == 0x03 && o.tag == tag && posOf o.dst == posOf src with
    | some o => d.replyTo 0x03 o.dst tag bs
    | none => match d.shoal.pending.find? fun o => o.kind == 0x01 && o.tag == tag with
      | some o => d.consume { o with kind := 0x03, dst := src } bs
      | none => { d with shoal := { d.shoal with lateReplies := d.shoal.lateReplies + 1 } }) s
/-- REFINE_REPLY: refined keys (R470). -/
def execRefineReply (src tag : Nat) (resent : Bool) (bs : List Byte) (s : State) : Host.Outcome State Fault Refusal :=
  onDev (fun d => d.onMsg 0x06 src tag resent bs fun _ d => d.replyTo 0x05 src tag bs) s

/-- CANCEL: the tasks of a request stop and post nothing; one that comes before its request is kept (R471). -/
def execCancel (src tag : Nat) (resent : Bool) (b : List Byte) (s : State) : Host.Outcome State Fault Refusal :=
  onDev (fun d => d.onMsg 0x07 src tag resent b fun _ d =>
    let owner := fieldAt b 12 2
    let t := fieldAt b 56 2
    let mine := d.cmds.filter fun c => c.remote.any fun r => r.device == owner && r.tag == t && r.kind != 0x08
    if mine.isEmpty then { d with shoal := { d.shoal with cancels := d.shoal.cancels ++ [(owner, t, d.now)] } }
    else mine.foldl (fun d c => (d.groupsLeave c.burgee c.stamp).dropCmd c) d) s
/-- CANCEL_HOLD_EXPIRY: a CANCEL kept for 1 ms is discarded (R471). -/
def cancelHoldExpiryEff (owner tag : Nat) (d : Device) : Device :=
  match d.shoal.cancels.find? fun c => c.1 == owner && c.2.1 == tag with
  | none => d
  | some c => let d1 := d.by (c.2.2 + 1000000); { d1 with shoal := { d1.shoal with cancels := d1.shoal.cancels.filter (· != c) } }
/-- The meaning of CANCEL_HOLD_EXPIRY. -/
def execCancelHoldExpiry (owner tag : Nat) (s : State) : Host.Outcome State Fault Refusal := onDev (cancelHoldExpiryEff owner tag) s

/-! ### Writes (R472, R473) -/

/-- A forwarded or mirrored write read back: its sequence number, its index and the write. -/
def readWrite (bs : List Byte) : Option (Nat × Nat × WriteReq) :=
  let w := fun k => fieldAt bs (8 * k) 8
  let na := w 5
  match ioOpOf (w 1) with
  | none => none
  | some op =>
    let attrs := (List.range na).map fun k => BitVec.ofNat 64 (w (7 + k))
    let vec := (List.range (w 6)).map fun k => BitVec.ofNat 32 (fieldAt bs (56 + 8 * na + 4 * k) 4)
    if op.isWrite then
      some (w 0, w 2, { op := op, id := BitVec.ofNat 64 (w 3), vec := vec, attrs := attrs, mask := w 4, fn := 0x10000, qid := 0, cid := 0, stamp := 0 })
    else none
/-- A reply to a forwarded write that needs no command, kept for a repeat. -/
def Device.answerPart (d : Device) (src tag seq burgee status : Nat) : Device :=
  let bs := words [status, 0]
  ({ d with shoal := { d.shoal with fwdKept := d.shoal.fwdKept ++ [(src, seq, bs)] } } : Device).send src 0x09 tag burgee false bs
/-- A forwarded write in its turn: at its home it becomes a command; elsewhere this device does its part (R472). -/
def Device.acceptWrite (d0 : Device) (src tag link seq i : Nat) (w : WriteReq) : Device :=
  let d := { d0 with shoal := { d0.shoal with fwdNext := tset src (seq + 1) d0.shoal.fwdNext } }
  match d.index? i, d.shoalIndex? i with
  | some x, some si =>
    if d.homeOf si w.id == some d.shoal.device then
      let r : RemoteOrigin := { device := src, tag := tag, link := link, bound := false, kind := 0x08, fetch := seq }
      let c : Cmd := { stamp := d.remoteStamp, fn := 0x10000, qid := src, half := r.link / 16, burgee := x.burgee, cid := 0, indexNo := i, op := w.op,
                       t0 := d.now, deadline := none, out := [], id := w.id, flags := w.mask, vecs := [w.vec], attrs := w.attrs, remote := some r }
      { d with cmds := d.cmds ++ [c] }
    else (d.holderWrite i w).answerPart src tag seq x.burgee 0
  | _, _ => d.answerPart src tag seq 0 stIndexDeleted
/-- A WRITE_FORWARD in FWD_SEQ order: a repeat is answered as before, an early one waits for its turn (R472). -/
def Device.takeWrite (d : Device) (src tag link : Nat) (bs : List Byte) : Device :=
  match readWrite bs with
  | none => d
  | some (seq, i, w) =>
    let next := tget 1 src d.shoal.fwdNext
    if seq < next then match d.shoal.fwdKept.find? fun k => k.1 == src && k.2.1 == seq with
      | some k => d.send src 0x09 tag ((d.index? i).elim 0 (·.burgee)) false k.2.2
      | none => d
    else if next < seq then d.holdMsg 0x08 src tag link bs
    else d.acceptWrite src tag link seq i w
/-- Writes that waited for their turn. -/
def Device.heldWrites : Nat → Nat → Device → Device
  | 0, _, d => d
  | fuel + 1, src, d =>
    match d.shoal.inbox.find? fun m => m.kind == 0x08 && m.src == src && fieldAt m.bytes 0 8 == tget 1 src d.shoal.fwdNext with
    | none => d
    | some m => Device.heldWrites fuel src (({ d with shoal := { d.shoal with inbox := d.shoal.inbox.filter (· != m) } } : Device).takeWrite src m.tag (m.port.getD (d.portOfDev src m.tag)) m.bytes)
/-- WRITE_FORWARD (R472). -/
def execWriteForward (src tag : Nat) (resent : Bool) (bs : List Byte) (s : State) : Host.Outcome State Fault Refusal :=
  onDev (fun d => d.onMsg 0x08 src tag resent bs fun link d => Device.heldWrites d.shoal.inbox.length src (d.takeWrite src tag link bs)) s
/-- WRITE_REPLY: a forwarded write is answered: at its owner its status and WRITE_SEQ are known; a holder's answer is awaited no more (R472). -/
def execWriteReply (src tag : Nat) (resent : Bool) (bs : List Byte) (s : State) : Host.Outcome State Fault Refusal :=
  onDev (fun d => d.onMsg 0x09 src tag resent bs fun _ d =>
    match d.shoal.forwarded.find? fun f => f.tag == tag && f.home == src with
    | none => { d with shoal := { d.shoal with lateReplies := d.shoal.lateReplies + 1 } }
    | some f =>
      let st := fieldAt bs 0 8
      let d1 := { d with shoal := { d.shoal with forwarded := d.shoal.forwarded.filter (· != f) } }
      d1.modCmd f.stamp fun c =>
        let c1 := { c with forwarded := c.forwarded.filter (· != tag) }
        if c.applied then c1 else { c1 with applied := true, writeSeq := fieldAt bs 8 8, status := if st = 0 then none else some st }) s
/-- WRITE_FORWARD_RESEND: 1 ms without a reply, a forwarded write is sent again with RESENT (R472). -/
def writeForwardResendEff (tag : Nat) (d : Device) : Device :=
  match d.shoal.forwarded.find? fun f => f.tag == tag with
  | none => d
  | some f =>
    let d1 := d.by (f.at_ + 1000000)
    let fs := d1.shoal.forwarded.map fun (g : Forwarded) => if g == f then { g with at_ := d1.now, resent := true } else g
    let b := (readWrite f.bytes).elim 0 fun w => (d.index? w.2.1).elim 0 (·.burgee)
    ({ d1 with shoal := { d1.shoal with forwarded := fs } } : Device).send f.home 0x08 tag b true f.bytes
/-- The meaning of WRITE_FORWARD_RESEND. -/
def execWriteForwardResend (tag : Nat) (s : State) : Host.Outcome State Fault Refusal := onDev (writeForwardResendEff tag) s

/-- A mirrored write applied at the twin in WRITE_SEQ order, with its own holders told (R472, R473). -/
def Device.applyMirror (d : Device) (i : Nat) (x : Index) (w : WriteReq) : Device :=
  let loc := (x.lookup w.id).map fun p => p.2.2
  let (_, _, d1) := d.applyWrite i w
  match loc, d.shoalIndex? i with
  | some l, some si =>
    let away := x.away.any fun p => p.1 == l
    let pos := match l with | .slot n _ => si.cellPos n | _ => none
    let refine := if w.op == .attrSet then d.refineFor si (pos.getD (posOf d.shoal.device)) w.id else none
    let tgts := ((if away then d.holderOf si l else none).toList ++ refine.toList).eraseDups.filter (· != d.shoal.device)
    tgts.foldl (fun d h => (d.sendWrite 0 i x.burgee h w).2) d1
  | _, _ => d1
/-- A MIRROR in WRITE_SEQ order: a repeat is answered again, an early one waits (R473). -/
def Device.takeMirror (d : Device) (src tag link : Nat) (bs : List Byte) : Device :=
  match readWrite bs with
  | none => d
  | some (seq, i, w) => match d.index? i with
    | none => d.send src 0x11 tag 0 false (words [0])
    | some x =>
      if x.writeSeq + 1 < seq then d.holdMsg 0x10 src tag link bs
      else (if seq = x.writeSeq + 1 then d.applyMirror i x w else d).send src 0x11 tag x.burgee false (words [0])
/-- MIRRORs that waited for their turn. -/
def Device.heldMirrors : Nat → Nat → Device → Device
  | 0, _, d => d
  | fuel + 1, src, d =>
    let due := fun (m : Msg) => m.kind == 0x10 && m.src == src &&
      (readWrite m.bytes).any fun w => (d.index? w.2.1).any fun x => w.1 == x.writeSeq + 1
    match d.shoal.inbox.find? due with
    | none => d
    | some m => Device.heldMirrors fuel src (({ d with shoal := { d.shoal with inbox := d.shoal.inbox.filter (· != m) } } : Device).takeMirror src m.tag (m.port.getD (d.portOfDev src m.tag)) m.bytes)
/-- MIRROR (R473). -/
def execMirror (src tag : Nat) (resent : Bool) (bs : List Byte) (s : State) : Host.Outcome State Fault Refusal :=
  onDev (fun d => d.onMsg 0x10 src tag resent bs fun link d => Device.heldMirrors d.shoal.inbox.length src (d.takeMirror src tag link bs)) s
/-- MIRROR_REPLY: the twin has accepted a write (R473). -/
def execMirrorReply (src tag : Nat) (resent : Bool) (bs : List Byte) (s : State) : Host.Outcome State Fault Refusal :=
  onDev (fun d => d.onMsg 0x11 src tag resent bs fun _ d =>
    match d.shoal.pending.find? fun o => o.kind == 0x10 && o.tag == tag && o.dst == src with
    | none => { d with shoal := { d.shoal with lateReplies := d.shoal.lateReplies + 1 } }
    | some o =>
      ({ d with shoal := { d.shoal with pending := d.shoal.pending.filter (· != o) } } : Device).modCmd o.stamp fun c =>
        { c with forwarded := c.forwarded.filter (· != tag) }) s

/-! ### GET (R472) -/

/-- A GET_REPLY: a status and KIND, then the output of R384 (log entry 30). -/
def Device.answerGet (d : Device) (owner tag burgee status kind : Nat) (bs : List Byte) : Device :=
  d.send owner 0x0B tag burgee false (words [status, kind] ++ bs)
/-- GET_FORWARD: the home answers the owner, or passes it to the device that holds the vector, which does (R472). -/
def execGetForward (src tag : Nat) (resent : Bool) (bs : List Byte) (s : State) : Host.Outcome State Fault Refusal :=
  onDev (fun d => d.onMsg 0x0A src tag resent bs fun _ d =>
    let w := fun k => fieldAt bs (8 * k) 8
    let id := BitVec.ofNat 64 (w 1)
    match d.index? (w 0), d.shoalIndex? (w 0) with
    | some x, some si =>
      let home := (d.homeOf si id).any fun h => posOf h == posOf d.shoal.device
      let loc := ((x.lookup id).map fun p => p.2.2).or (x.findSlot id)
      let away := if home then loc.bind fun l => if x.away.any (fun q => q.1 == l) then d.holderOf si l else none else none
      match if d.quiesced then none else loc, away with
      | none, _ => d.answerGet (w 3) (w 4) x.burgee (if d.quiesced then stQuiesced else stIdNotFound) 0 []
      | some _, some h => if d.serves h then d.send h 0x0A tag x.burgee false bs else d.answerGet (w 3) (w 4) x.burgee stOffline 0 []
      | some l, none => match x.getBytes id (w 2) l with
        | some (kind, out) => (d.chargeGet x { burgee := x.burgee, pennant := 6 } id (w 2) (some l)).answerGet (w 3) (w 4) x.burgee 0 kind out
        | none => d.answerGet (w 3) (w 4) x.burgee stIdNotFound 0 []
    | _, _ => d.answerGet (w 3) (w 4) 0 stIndexDeleted 0 []) s
/-- GET_REPLY: the GET's output is written and its completion posted (R384, R472). -/
def execGetReply (src tag : Nat) (resent : Bool) (bs : List Byte) (s : State) : Host.Outcome State Fault Refusal :=
  onDev (fun d => d.onMsg 0x0B src tag resent bs fun _ d =>
    match d.shoal.pending.find? fun o => o.kind == 0x0A && o.tag == tag with
    | none => { d with shoal := { d.shoal with lateReplies := d.shoal.lateReplies + 1 } }
    | some o =>
      let d1 := { d with shoal := { d.shoal with pending := d.shoal.pending.filter (· != o) } }
      match d1.cmd? o.stamp with
      | none => d1
      | some c =>
        let out := bs.drop 16
        if fieldAt bs 0 8 != 0 then d1.endCmd c.stamp (fieldAt bs 0 8)
        else (d1.putOut c false out).finishCmd c 0 (fieldAt bs 8 8 + at_ 32 out.length) false) s

/-! ### Merges that ship (R474) -/

/-- The refine codes of covered IDs that a merge of a BROADCAST index placed here go to their REFINE device, which keeps the code of every
covered ID (R470; DEDUCED, log entry 29: R474 says it of a ROUTED index alone). -/
def Device.shipRefine (d : Device) (i : Nat) (es : List (Nat × DeltaEntry)) : Device :=
  match d.index? i, d.shoalIndex? i with
  | some x, some si =>
    let self := d.shoal.device
    let merged := es.filter fun p => (tfind p.1 x.delta).any fun e => e.state == 4
    let items := merged.filterMap fun p => (d.refineFor si (posOf self) p.2.id).map fun dev =>
      (dev, ({ entry := p.1, cell := 0, id := p.2.id, attrs := p.2.attrs, vec := formF32 p.2.vec } : ShipItem))
    if x.refine.isNone || items.isEmpty then d
    else
      let d0 := d.keepRefine i ((items.filter fun p => p.1 == self).map (·.2))
      let (tag, d1) := d0.newTag
      let d2 := { d1 with shoal := { d1.shoal with ships := d1.shoal.ships ++ [({ index := i, tag := tag } : ShipBatch)] } }
      let devs := ((items.map (·.1)).eraseDups).filter (· != self)
      let d3 := devs.foldl (fun d p => (perMessage x.itemLen ((items.filter fun q => q.1 == p).map (·.2))).foldl (fun d es =>
        d.ship tag p x.burgee [] (shipBytes 1 i tag 0 es.length (es.flatMap ShipItem.bytes))) d) d2
      d3.shipDone tag
  | _, _ => d

/-- MERGE_PASS: on a ROUTED shoal index, a home ships its live delta entries; any other index merges here (R96, R474). -/
def mergePassStep (i : Nat) (lost : List Nat) (d : Device) : Device :=
  if !d.routed i then (mergePassEff i lost d).shipRefine i ((d.index? i).elim [] (·.liveEntries))
  else if !d.bgOk || (d.index? i).isNone then d
  else (lost.foldl (fun d e => d.entryLost i e) d).beginShip i
/-- The meaning of MERGE_PASS. -/
def execMergePass (i : Nat) (lost : List Nat) (s : State) : Host.Outcome State Fault Refusal := onDev (mergePassStep i lost) s

/-- ASSIGN: a holder answers with the cell of each entry (R474 step 1). -/
def execAssign (src tag : Nat) (resent : Bool) (bs : List Byte) (s : State) : Host.Outcome State Fault Refusal :=
  onDev (fun d => d.onMsg 0x0C src tag resent bs fun _ d =>
    let i := fieldAt bs 0 8
    let n := fieldAt bs 8 8
    match d.index? i with
    | none => d.send src 0x0D tag 0 false (words [i, 0])
    | some x =>
      let cells := (recordsOf (8 + 4 * x.dim) n (bs.drop 16)).flatMap fun r =>
        [fieldAt r 0 8, x.assignCell ((List.range x.dim).map fun k => BitVec.ofNat 32 (fieldAt r (8 + 4 * k) 4))]
      d.send src 0x0D tag x.burgee false (words ([i, n] ++ cells))) s
/-- ASSIGN_REPLY: the home ships its entries to their cells (R474 step 2). -/
def execAssignReply (src tag : Nat) (resent : Bool) (bs : List Byte) (s : State) : Host.Outcome State Fault Refusal :=
  onDev (fun d => d.onMsg 0x0D src tag resent bs fun _ d =>
    match d.shoal.pending.find? fun o => o.kind == 0x0C && o.tag == tag && o.dst == src with
    | none => { d with shoal := { d.shoal with lateReplies := d.shoal.lateReplies + 1 } }
    | some o =>
      let n := fieldAt bs 8 8
      ({ d with shoal := { d.shoal with pending := d.shoal.pending.filter (· != o) } } : Device).assigned tag
        ((List.range n).map fun k => (fieldAt bs (16 + 16 * k) 8, fieldAt bs (24 + 16 * k) 8))) s
/-- SHIP's effect and its answer: 1 accepted with the cells and slots, 0 refused, 2 refused for now (R470, R474, R476, R478; log entry 30). -/
def Device.takeShip (d : Device) (src : Nat) (bs : List Byte) : Device × List Nat :=
  let w := fun k => fieldAt bs (8 * k) 8
  let i := w 1
  let body := bs.drop 40
  match d.index? i with
  | none => (d, [0])
  | some x =>
    match w 0 with
    | 0 =>
      let es := (recordsOf x.itemLen (w 4) body).map x.readItem
      match d.takeBatch src (w 2) i es with
      | (d1, some ss, _) => (d1, 1 :: (es.zip ss).flatMap fun p => [p.1.cell, p.2])
      | (d1, none, later) => (d1, [if later then 2 else 0])
    | 1 => (d.keepRefine i ((recordsOf x.itemLen (w 4) body).map x.readItem), [1])
    | 2 =>
      let ss := (recordsOf x.slotRecLen (w 4) (body.drop 8)).map (x.readSlotRec (w 3) (fieldAt body 0 8))
      if w 2 = atOnce then (d.putShipped i 0 ss, [1])
      else
        let r : Received := { src := src, tag := w 2, index := i, slots := ss }
        ({ d with shoal := { d.shoal with received := d.shoal.received ++ [r] } }, [1])
    | 3 => (d.restoreNode i body, [1])
    | 4 => (d.putDelta i body, [1])
    | 5 => ((recordsOf 40 (w 4) body).foldl (fun d r => d.putId i r) d, [1])
    | _ => (d, [0])
/-- SHIP (R474). -/
def execShip (src tag : Nat) (resent : Bool) (bs : List Byte) (s : State) : Host.Outcome State Fault Refusal :=
  onDev (fun d => d.onMsg 0x0E src tag resent bs fun _ d =>
    let (d1, a) := d.takeShip src bs
    d1.send src 0x0F tag ((d.index? (fieldAt bs 8 8)).elim 0 (·.burgee)) false (words a)) s
/-- An entry that a write changed while its place was awaited: its place is told what the entry is now, a tombstone or its attribute words (R107). -/
def Device.correctShip (d : Device) (b : ShipBatch) (dev e : Nat) : Device :=
  match (d.index? b.index).bind fun x => (tfind e x.delta).map fun v => (x, v), b.entries.find? fun q => q.1 == e with
  | some (x, v), some (_, id) =>
    let w : WriteReq := { op := if v.state == 1 && v.id == id then .attrSet else .delete, id := id, vec := [], attrs := v.attrs,
                          mask := 2 ^ x.attrWords - 1, fn := 0, qid := 0, cid := 0, stamp := 0 }
    (d.sendWrite 0 b.index x.burgee dev w).2
  | _, _ => d
/-- SHIP_REPLY: a target has taken its part of a shipment, or abandoned it: its entries stay live (R474). -/
def execShipReply (src tag : Nat) (resent : Bool) (bs : List Byte) (s : State) : Host.Outcome State Fault Refusal :=
  onDev (fun d => d.onMsg 0x0F src tag resent bs fun _ d =>
    let o := d.shoal.pending.find? fun o => o.kind == 0x0E && o.tag == tag && o.dst == src
    let b := d.shoal.ships.find? fun b => b.waiting.any fun p => p.1 == tag
    match o, b with
    | some o, some b =>
      let es := ((b.waiting.find? fun p => p.1 == tag).map (·.2)).getD []
      let st := fieldAt bs 0 8
      let d1 := { d with shoal := { d.shoal with pending := d.shoal.pending.filter (· != o) } }
      let new := (es.zipIdx).map fun p => (p.1, fieldAt bs (8 + 16 * p.2) 8, fieldAt bs (16 + 16 * p.2) 8, src)
      let g := fun (k : ShipBatch) => if k.tag == b.tag then
        { k with waiting := k.waiting.filter fun p => p.1 != tag, places := if st = 1 then k.places ++ new else k.places } else k
      let d2 := { d1 with shoal := { d1.shoal with ships := d1.shoal.ships.map g } }
      let d2 := if st = 1 then (es.filter fun e => b.changed.contains e).foldl (fun d e => d.correctShip b src e) d2 else d2
      let d3 := if st = 1 then d2 else d2.shipFails b.index b.tag es (st == 0)
      d3.shipDone b.tag
    | some o, none => { d with shoal := { d.shoal with pending := d.shoal.pending.filter (· != o) } }
    | none, _ => d) s

/-! ### Training exchanges (R452) -/

/-- TRAIN: the spec names the message and gives its contents no effect; it is taken (R452). -/
def execTrain (src tag : Nat) (resent : Bool) (bs : List Byte) (s : State) : Host.Outcome State Fault Refusal :=
  onDev (fun d => d.onMsg 0x12 src tag resent bs fun _ d => d) s
/-- TRAIN_REPLY: a training exchange's reply closes its request (R358, R452). -/
def execTrainReply (src tag : Nat) (resent : Bool) (bs : List Byte) (s : State) : Host.Outcome State Fault Refusal :=
  onDev (fun d => d.onMsg 0x13 src tag resent bs fun _ d => d.replyTo 0x12 src tag bs) s

/-! ### Management messages (R456, R464, R465, R475, R476) -/

/-- A management message that is whole: its kind and content; or its part is kept until the others have come (R451; log entry 30). -/
def Device.assemble (d : Device) (kind src : Nat) (bs : List Byte) : Option (Nat × List Byte) × Device :=
  let w := fun k => fieldAt bs (8 * k) 8
  let body := bs.drop 24
  if w 1 ≤ body.length then (some (w 0, body), d)
  else
    let same := fun (a : Assembly) => a.src == src && a.kind == kind && a.what == w 0 && a.total == w 1
    let a0 : Assembly := (d.shoal.assembly.find? same).getD { src := src, kind := kind, what := w 0, total := w 1, parts := [] }
    let parts := (a0.parts.filter fun p => p.1 != w 2) ++ [(w 2, body)]
    let rest := d.shoal.assembly.filter fun a => !same a
    if w 1 ≤ lsum (parts.map fun p => p.2.length) then
      (some (w 0, (sortBy (fun (a b : Nat × List Byte) => decide (a.1 < b.1)) parts).flatMap (·.2)), { d with shoal := { d.shoal with assembly := rest } })
    else (none, { d with shoal := { d.shoal with assembly := rest ++ [{ a0 with parts := parts }] } })

/-- A device whose copy is complete becomes a member (R476). -/
def Device.restored (d : Device) (dev : Nat) : Device :=
  let m := tget ({ state := 4 } : Member) dev d.shoal.dir
  if m.state = 2 then d.changeMember dev 0 m.roles none else d
/-- A DIRECTORY message: 0 a fetch, 1 an admin request for the lead, 2 its refusal, 3 a change for a holder, 4 its acceptance, 5 the directory,
6 the other shoal's lead's decision, 7 a restored device. -/
def Device.takeDir (d : Device) (src what : Nat) (bs : List Byte) : Device :=
  let w := fun k => fieldAt bs (8 * k) 8
  let self := d.shoal.device
  match what with
  | 0 => d.sendDir src 0x14 5 d.shoal.bytes
  | 1 => if d.pairLead == some self then d.serveRequest src (adminReq (bs.take 64)) (bs.drop 64) else d.refuseShoal src stBusy 0
  | 2 => d.answerShoal (w 0) (w 1) 0
  | 3 => d.sendDir src 0x14 4 []
  | 4 => d.accepted src
  | 5 => d.takeDirectory bs
  | 6 => (d.fellows.foldl (fun d p => d.sendDir p 0x15 3 bs) d).takeEpoch src bs
  | 7 => if d.pairLead == some self then d.restored (w 0) else d
  | _ => d
/-- DIRECTORY (R464). -/
def execDirectory (src tag : Nat) (resent : Bool) (bs : List Byte) (s : State) : Host.Outcome State Fault Refusal :=
  onDev (fun d => d.onMsg 0x14 src tag resent bs fun _ d => match d.assemble 0x14 src bs with
    | (some (what, body), d1) => d1.takeDir src what body
    | (none, d1) => d1) s

/-- The lead hears of a drop: its first notice of a device makes it probe the device (R475). -/
def Device.dropNoticed (d : Device) (src dev : Nat) : Device :=
  let first := !d.shoal.reported.any fun p => p.2 == dev
  let d1 := { d with shoal := { d.shoal with reported := if d.shoal.reported.contains (src, dev) then d.shoal.reported else d.shoal.reported ++ [(src, dev)] } }
  if first && dev != d.shoal.device && d.serves dev then
    let (tag, d2) := d1.newTag
    ({ d2 with shoal := { d2.shoal with probes := d2.shoal.probes ++ [(dev, d.now)] } } : Device).send dev 0x16 tag 0 false (words [0])
  else d1
/-- A NOTICE: 1 a link drop, 2 a quiesce, 3 an epoch, 4 a request to publish, 5 a view, 6 a shipment given up, 7 cells to move. -/
def Device.takeNotice (d : Device) (src what : Nat) (bs : List Byte) : Device :=
  let w := fun k => fieldAt bs (8 * k) 8
  let self := d.shoal.device
  let relay := fun (d : Device) => match d.pairLead with
    | some h => if d.isLead && h != self && sideOf src == sideOf self then d.sendDir h 0x15 what bs else d
    | none => d
  match what with
  | 1 => if d.pairLead == some self then d.dropNoticed src (w 1) else relay d
  | 2 => if d.pairLead == some self then d.declareLost (w 0) false none else relay d
  | 3 => d.takeEpoch src bs
  | 4 => if !d.isLead || d.shoal.split then d
         else if w 2 = 0 then d.leadView (w 0) src (w 1)
         else d.moveDone (w 3) src (w 1) (w 2 == 2)
  | 5 => d.publishView (w 0) (w 1) [(w 2, w 3)]
  | 6 => { d with shoal := { d.shoal with received := d.shoal.received.filter fun r => !(r.src == src && r.index == w 0 && r.tag == w 1) } }
  | 7 => d.beginMove (w 0) (w 1) ((List.range (w 2)).map fun k => (w (3 + 2 * k), w (4 + 2 * k)))
  | _ => d
/-- NOTICE (R456, R464, R465). -/
def execNotice (src tag : Nat) (resent : Bool) (bs : List Byte) (s : State) : Host.Outcome State Fault Refusal :=
  onDev (fun d => d.onMsg 0x15 src tag resent bs fun _ d => match d.assemble 0x15 src bs with
    | (some (what, body), d1) => d1.takeNotice src what body
    | (none, d1) => d1) s
/-- PROBE: a probe is answered; an answer shows that the device runs (R475). -/
def execProbe (src tag : Nat) (resent : Bool) (bs : List Byte) (s : State) : Host.Outcome State Fault Refusal :=
  onDev (fun d => d.onMsg 0x16 src tag resent bs fun _ d =>
    if fieldAt bs 0 8 = 0 then d.send src 0x16 tag 0 false (words [1])
    else { d with shoal := { d.shoal with probes := d.shoal.probes.filter fun p => p.1 != src, reported := d.shoal.reported.filter fun p => p.2 != src } }) s

/-! ### Events of the shoal (R475, R476) -/

/-- DEVICE_LOST: the lead, or with the lead lost the next holder, declares a device LOST and publishes the epoch (R475). -/
def deviceLostEff (dev : Nat) (d : Device) : Device :=
  let self := d.shoal.device
  let next := ((d.holdersOf 0 ++ d.holdersOf 1).filter (· != dev)).head?
  if !d.inShoal || !d.ready || d.shoal.split || dev == self || next != some self then d
  else
    let cs := d.shoal.changes.map fun (c : DirChange) => { c with waiting := c.waiting.filter (· != dev) }
    ({ d with shoal := { d.shoal with changes := cs } } : Device).declareLost dev false none
/-- The meaning of DEVICE_LOST. -/
def execDeviceLost (dev : Nat) (s : State) : Host.Outcome State Fault Refusal := onDev (deviceLostEff dev) s

/-- HOLDER_ISOLATION: fewer than two holders reached for 1 ms: every other device counts as missing, and writes with remote homes complete with
BURGEE_OFFLINE (R475). -/
def holderIsolationEff (d : Device) : Device :=
  match d.shoal.isolated with
  | none => d
  | some t =>
    if !d.inShoal || !d.ready || d.shoal.split then d
    else
      let d0 := d.by (t + 1000000)
      let d1 := ({ d0 with shoal := { d0.shoal with split := true } } : Device).linkEvent 0x11 0xFF d.shoal.device
      let d2 := d1.shoal.pending.foldl (fun d o => d.lostRequest o) d1
      let d3 := d2.shoal.forwarded.foldl (fun d f => d.lostWrite f) d2
      ((d3.cmds.filter (·.remote.isNone)).map (·.stamp)).foldl (fun d s => d.missLost s) d3
/-- The meaning of HOLDER_ISOLATION. -/
def execHolderIsolation (s : State) : Host.Outcome State Fault Refusal := onDev holderIsolationEff s

/-- RESTORE_COMPLETE: a restoring device's copy is complete: it tells the lead, which publishes it as a member (R476). -/
def restoreCompleteEff (dev : Nat) (d : Device) : Device :=
  let self := d.shoal.device
  if !d.inShoal || !d.ready then d
  else if d.pairLead == some self then d.restored dev
  else if dev == self && (tget ({ state := 4 } : Member) self d.shoal.dir).state = 2 then
    match d.pairLead with
    | some h => d.sendDir h 0x14 7 (words [self])
    | none => d
  else d
/-- The meaning of RESTORE_COMPLETE. -/
def execRestoreComplete (dev : Nat) (s : State) : Host.Outcome State Fault Refusal := onDev (restoreCompleteEff dev) s

end Sys2Proof.Machine
end

