-- ==== Sys2Proof/Machine/ShoalAdmin.lean ====
section
/-! DEFINITION. The shoal commands (R478). The places of their parameters, which the spec leaves open, follow log entry 30. -/

namespace Sys2Proof.Machine

/-- SHOAL_FORM: SHOAL_ID, G, M, MIRRORED and the shoal key of this device, with its own number and roles: PARAMS 0–7 the SHOAL_ID, 8 G, 9 M, 10
MIRRORED and JOINING, 12–13 the device number, 14 the roles; the input data is the key. A device that joins waits to be admitted (R458, R476,
R478). A device holds one role or more (R42). -/
def Device.formShoal (d : Device) (r : AdminReq) (key : List Byte) : Reply :=
  let id := r.param 0 8
  let g := r.param 8 1
  let m := r.param 9 1
  let fl := r.param 10 1
  let dev := r.param 12 2
  let ok := id != 0 && decide (1 ≤ g) && decide (g ≤ 16) && decide (1 ≤ m) && decide (m ≤ 16) && decide (2 ≤ g * m) && decide (g * m ≤ 256) &&
    decide (posOf dev < g * m) && decide (sideOf dev ≤ fl % 2) && !key.isEmpty && decide (fl < 4) &&
    decide (1 ≤ r.param 14 1) && decide (r.param 14 1 < 8)
  if !ok then d.badField
  else
    let join := fl.testBit 1
    let h : Shoal := { id := BitVec.ofNat 64 id, key := key, groups := g, members := m, mirrored := fl.testBit 0, device := dev,
                       epoch := if join then 0 else 1, dir := [(dev, { state := if join then 1 else 0, roles := r.param 14 1 })],
                       nextTag := d.shoal.nextTag, waitAdmin := none }
    let d1 := if fl.testBit 0 then d else [30, 31].foldl (fun d l => d.dropLink l 0x04) d
    ((({ d1 with shoal := h } : Device).setRoutes).linkEvent 0x0E 0xFF dev).done
/-- The meaning of SHOAL_FORM. -/
def execShoalForm (mb slot : Nat) (io : AdminIo) (s : State) : Host.Outcome State Fault Refusal :=
  onDev (fun d => d.adminCmd 0x00B0 mb slot io fun r => d.withInput r mb slot none io fun key => d.formShoal r key) s

/-- A shoal command is passed to the lead, which serves it; the response comes once the resulting epoch has been applied, and until a lead is
known the request is refused as busy (R478). -/
def Device.shoalCmd (d : Device) (op mb slot : Nat) (io : AdminIo) : Device :=
  d.adminCmd op mb slot io fun r =>
    if !d.inShoal then d.badField
    else d.withInput r mb slot none io fun bs =>
      let d1 := { d with shoal := { d.shoal with waitAdmin := some (mb, slot) } }
      match d.pairLead with
      | none => d.busy 0 10
      | some h =>
        if h == d.shoal.device then (d1.serveRequest h r bs).waits
        else (d1.sendDir h 0x14 1 (tget [] slot (d.mbox mb).req ++ bs)).waits
/-- SHOAL_JOIN: TARGET is the device to admit, PARAMS 0 its roles (R476, R478). -/
def execShoalJoin (mb slot : Nat) (io : AdminIo) (s : State) : Host.Outcome State Fault Refusal := onDev (fun d => d.shoalCmd 0x00B1 mb slot io) s
/-- SHOAL_LEAVE: TARGET is the device that leaves (R478). -/
def execShoalLeave (mb slot : Nat) (io : AdminIo) (s : State) : Host.Outcome State Fault Refusal := onDev (fun d => d.shoalCmd 0x00B2 mb slot io) s
/-- SHOAL_SET_ROLES: TARGET is the device, PARAMS 0 its roles (R478). -/
def execShoalSetRoles (mb slot : Nat) (io : AdminIo) (s : State) : Host.Outcome State Fault Refusal := onDev (fun d => d.shoalCmd 0x00B3 mb slot io) s
/-- SHOAL_CREATE_INDEX: PARAMS 0 the burgee, 1 ROUTED, 8–15 the length of R417's input data, which the maps follow (R466, R478). -/
def execShoalCreateIndex (mb slot : Nat) (io : AdminIo) (s : State) : Host.Outcome State Fault Refusal := onDev (fun d => d.shoalCmd 0x00B4 mb slot io) s
/-- SHOAL_MOVE_CELLS: TARGET is the index, PARAMS 0–3 the first cell, 4–7 how many, 8–9 their new device (R465, R478). -/
def execShoalMoveCells (mb slot : Nat) (io : AdminIo) (s : State) : Host.Outcome State Fault Refusal := onDev (fun d => d.shoalCmd 0x00B5 mb slot io) s

/-- LINK_CONTROL: TARGET is a link; PARAMS 0 is 0 to retrain it, 1 to hold it, 2 to release it, 3 to cap its lane rate at HALF (R478). -/
def Device.linkControl (d : Device) (r : AdminReq) : Reply :=
  let l := r.target
  let again := fun (d : Device) => (d.dropLink l 0x04).modLink l fun k =>
    { k with state := if k.state == .off then .off else .training, startAt := d.now, lane0 := { k.lane0 with up := false }, lane1 := { k.lane1 with up := false } }
  if 32 ≤ l then d.badField
  else match r.param 0 1 with
    | 0 => (again d).done
    | 1 => ((again d).modLink l fun k => { k with ctlHold := true }).done
    | 2 => (d.modLink l fun k => { k with ctlHold := false, capHalf := false, startAt := d.now }).done
    | 3 => ((again d).modLink l fun k => { k with capHalf := true }).done
    | _ => d.badField
/-- The meaning of LINK_CONTROL. -/
def execLinkControl (mb slot : Nat) (s : State) : Host.Outcome State Fault Refusal :=
  onDev (fun d => d.adminCmd 0x00B6 mb slot noIo fun r => d.linkControl r) s

end Sys2Proof.Machine
end

