-- ==== Sys2Proof/Machine/Package.lean ====
section
/-! DEFINITION. The package: the names and nets of its balls (R539 to R546) and the cells of the boundary register (R566). -/

namespace Sys2Proof.Machine

/-! ### Balls (R539 to R546) -/

/-- The letters of a row designator (R539). -/
def rowLetters : List String := ["A", "B", "C", "D", "E", "F", "G", "H", "J", "K", "L", "M", "N", "P", "T", "U", "V", "W", "Y"]
/-- The designator of row y (R539). -/
def rowName (y : Nat) : String :=
  let l := fun (i : Nat) => rowLetters.getD i ""
  if y < 19 then l y else l (y / 19 - 1) ++ l (y % 19)
/-- The name of the position at row y and column x (R539). -/
def ballName (y x : Nat) : String := rowName y ++ toString x
/-- A position holds a ball (R539). -/
def hasBall (y x : Nat) : Bool := 1 ≤ y && y ≤ 94 && 2 ≤ x && x ≤ 95
/-- The quadrant of a ball and its local coordinates (R540). -/
def quadrant (y x : Nat) : Nat × Nat × Nat :=
  let top := y ≤ 47
  let left := x ≤ 48
  ((if top then 0 else 2) + (if left then 0 else 1), if top then y - 1 else 94 - y, if left then x - 2 else 95 - x)
/-- The row and column of local coordinates (R540). -/
def ballAt (q u v : Nat) : Nat × Nat := (if q < 2 then 1 + u else 94 - u, if q % 2 = 0 then 2 + v else 95 - v)

/-- A signal of a channel block by its place, without its prefix; none for VSS (R542). -/
def blockSignal (a b : Nat) : Option String :=
  let two := fun (x y : String) => some (if b = 0 then x else y)
  match a with
  | 0 => two "DQ0" "DQ1" | 1 => two "DQ2" "DQ3" | 2 => two "RDQS0_t" "RDQS0_c" | 3 => if b = 1 then some "DMI0" else none
  | 4 => two "WCK0_t" "WCK0_c" | 6 => two "DQ4" "DQ5" | 7 => two "DQ6" "DQ7" | 9 => two "CK_t" "CK_c"
  | 10 => two "CA0" "CA1" | 11 => two "CA2" "CA3" | 12 => two "CA4" "CA5" | 13 => if b = 0 then some "CA6" else none
  | 14 => two "CS0" "CS1" | 16 => two "DQ8" "DQ9" | 17 => two "DQ10" "DQ11" | 18 => two "RDQS1_t" "RDQS1_c"
  | 19 => if b = 1 then some "DMI1" else none | 20 => two "WCK1_t" "WCK1_c" | 22 => two "DQ12" "DQ13" | 23 => two "DQ14" "DQ15"
  | _ => none

/-- The net of a memory-band position (R542). -/
def memoryNet (q u v : Nat) : String :=
  let p := (v - 13) / 2
  match blockSignal u ((v - 13) % 2) with
  | some s => "L" ++ toString q ++ "_" ++ toString p ++ "_" ++ s
  | none => if q = 0 && u = 8 && (v - 13) % 2 = 0 then "LRESET_N_" ++ toString p else "VSS"

/-- The net of a link-band position (R543). -/
def linkNet (q u v : Nat) : String :=
  if u = 32 then "VSS"
  else
    let n := 8 * q + u / 4
    let sl := fun (s : String) => "SL" ++ toString n ++ s
    match u % 4, v with
    | 1, 1 => sl "_0_TXP" | 1, 2 => sl "_0_TXN" | 1, 4 => sl "_1_TXP" | 1, 5 => sl "_1_TXN"
    | 3, 1 => sl "_0_RXP" | 3, 2 => sl "_0_RXN" | 3, 4 => sl "_1_RXP" | 3, 5 => sl "_1_RXN"
    | 2, 1 => if n % 2 = 0 then "QCLK" ++ toString (n / 2) ++ "_P" else "VSS"
    | 2, 2 => if n % 2 = 0 then "QCLK" ++ toString (n / 2) ++ "_N" else "VSS"
    | 1, 7 | 1, 9 | 2, 7 | 2, 9 | 2, 11 | 3, 7 | 3, 9 => "VPHY"
    | 1, 11 | 3, 11 => "VPHYH"
    | _, _ => "VSS"

/-- The net of a position of the PCIe port, r its row (R544). -/
def pcieNet (r v : Nat) : String :=
  let pair := fun (s : String) (base : Nat) =>
    if v % 3 = 0 then "VSS" else "PE_" ++ s ++ (if v % 3 = 1 then "P_" else "N_") ++ toString (base + v / 3)
  match r with
  | 0 => pair "TX" 0 | 2 => pair "TX" 4 | 4 => pair "TX" 8 | 6 => pair "TX" 12
  | 8 => pair "RX" 0 | 10 => pair "RX" 4 | 12 => pair "RX" 8 | 13 => pair "RX" 12
  | 7 => if v = 1 then "PE_REFCLK_P" else if v = 2 then "PE_REFCLK_N" else if 4 ≤ v && v ≤ 7 then "PERST" ++ toString (v - 4) ++ "#"
         else if 8 ≤ v && v ≤ 11 then "WAKE" ++ toString (v - 8) ++ "#" else "VSS"
  | _ => "VSS"

/-- The sideband signals of a row of Q1's service region, from column 1 on (R545). -/
def sidebandRow (r : Nat) : List String :=
  match r with
  | 1 => ["SMB_SCL", "SMB_SDA", "SMB_ADDR0", "SMB_ADDR1", "ALERT#", "THERMTRIP#", "SYS_PWROK", "SUPPLY_WARN#", "PROFILE0", "PROFILE1"]
  | 3 => ["PORT_MODE0", "PORT_MODE1", "TEST_MODE", "TCK", "TMS", "TDI", "TDO", "TRST#", "MEMREFCLK_P", "MEMREFCLK_N"]
  | 5 => ["XSPI_SCK", "XSPI_CS#", "XSPI_DQS", "XSPI_RESET#", "XSPI_DQ0", "XSPI_DQ1", "XSPI_DQ2", "XSPI_DQ3", "XSPI_DQ4", "XSPI_DQ5"]
  | 7 => ["XSPI_DQ6", "XSPI_DQ7", "AVS0_CLK", "AVS0_MDATA", "AVS0_SDATA", "AVS1_CLK", "AVS1_MDATA", "AVS1_SDATA", "VCORE0_SENSE_P",
          "VCORE0_SENSE_N"]
  | _ => []

/-- The net of a position of a service region of Q1 to Q3 (R545). -/
def serviceNet (q r v : Nat) : String :=
  match r with
  | 9 => if 1 ≤ v && v ≤ 8 then "VAUX" else "VSS"
  | 11 => if v = 1 || v = 2 then "VIO" else if q = 1 && (v = 4 || v = 5) then "VFUSE" else "VSS"
  | 13 => if 1 ≤ v && v ≤ 8 then "DNC" else "VSS"
  | _ =>
    if q = 1 && 1 ≤ v then (sidebandRow r).getD (v - 1) "VSS"
    else if q = 3 && r = 1 && v = 1 then "VCORE1_SENSE_P"
    else if q = 3 && r = 1 && v = 2 then "VCORE1_SENSE_N"
    else "VSS"

/-- The net of a core position (R546). -/
def coreNet (q u v : Nat) : String :=
  if v % 3 = 0 then "VSS"
  else if u = 24 then "VMEML"
  else if u ≤ 26 then "VMEMF"
  else if u = 27 then "VHBM"
  else if u ≤ 29 then "VSRAM"
  else if q < 2 then "VCORE0" else "VCORE1"

/-- The net of the ball at a row and a column, none where no ball is (R541). -/
def netAt (y x : Nat) : Option String :=
  if !hasBall y x then none
  else
    let (q, u, v) := quadrant y x
    some (if u ≤ 23 && 13 ≤ v then memoryNet q u v
      else if v < 13 && u ≤ 32 then linkNet q u v
      else if v < 13 then (if q = 0 then pcieNet (u - 33) v else serviceNet q (u - 33) v)
      else coreNet q u v)

/-! ### The boundary register (R566) -/

/-- A port's direction (R566). -/
inductive PortDir where
  | input | output | both
  deriving DecidableEq, Repr
/-- What a boundary cell is (R566). -/
inductive CellKind where
  | input | output | enable
  deriving DecidableEq, Repr

/-- A port's cells in their order (R566). -/
def PortDir.cells : PortDir → List CellKind
  | .input => [.input]
  | .output => [.output, .enable]
  | .both => [.input, .output, .enable]

/-- The ports of a channel in block order (R542, R566). -/
def channelPorts : List PortDir :=
  let dq := List.replicate 4 PortDir.both
  dq ++ [.input, .both, .output] ++ dq ++ List.replicate 10 .output ++ dq ++ [.input, .both, .output] ++ dq
/-- The ports of a link (R566). -/
def linkPorts : List PortDir := [.output, .input, .output, .input]
/-- The sideband ports in ascending r and then v, then PERSTn# and WAKEn# (R545, R566). -/
def sidebandPorts : List PortDir :=
  [.both, .both, .input, .input, .output, .input, .input, .input, .input, .input, .input, .output, .output, .both, .output] ++
    List.replicate 8 .both ++ [.output, .output, .input, .output, .output, .input] ++ List.replicate 4 .input ++ List.replicate 4 .output

/-- The cells of an instance's ports. -/
def portCells (ps : List PortDir) : List CellKind := ps.flatMap PortDir.cells

/-- Cells of the boundary register. -/
def boundaryCells : Nat := 5803

/-- What a cell of the boundary register is; none past its end (R566). -/
def cellKind (n : Nat) : Option CellKind :=
  let in_ := fun (ps : List PortDir) (i : Nat) => (portCells ps)[i]?
  if n < 5440 then in_ channelPorts (n % 80)
  else if n < 5474 then in_ [.output] (n % 2)
  else if n < 5666 then in_ linkPorts ((n - 5474) % 6)
  else if n < 5682 then some .input
  else if n < 5730 then in_ [.output, .input] ((n - 5682) % 3)
  else if n < 5732 then some .input
  else in_ sidebandPorts (n - 5732)

/-- The cell belongs to an AC port: a Swiold or a PCIe lane (R567). -/
def acCell (n : Nat) : Bool := (5474 ≤ n && n < 5666) || (5682 ≤ n && n < 5730)

end Sys2Proof.Machine
end

