-- ==== Sys2Proof/Machine/TapDebug.lean ====
section
/-! DEFINITION. The test access port: its instructions, the boundary register and the unlocked-debug register (R561 to R568); and the
telemetry snapshots (R576). A TAP command is the load of its instruction followed by one data scan. -/

namespace Sys2Proof.Machine

/-! ### Boundary instructions (R563 to R567) -/

/-- BSCAN_OK: the conditions under which a boundary instruction takes effect (R564, R565). -/
def Device.bscanOk (d : Device) (b : BScan) : Bool :=
  !d.aon.sysPwrok && !d.aon.vioOut && !d.aon.vfuseOut && b.railsC && b.railsP && d.phase == .held

/-- What Capture-IR loads into the instruction register (R564). -/
def Device.captureIr (d : Device) (b : BScan) : Nat := flagAt 3 (d.bscanOk b) + flagAt 2 d.mgmt.sec.unlocked.isSome + 1

/-- The port takes another instruction or a reset: pins go back to their functional use, and a start-up that a rising edge of SYS_PWROK
asked for meanwhile begins (R561, R565). -/
def Device.tapLoad (d : Device) (i : TapInstr) (code : Nat) : Device :=
  let d1 := { d with tap := { d.tap with instr := i, code := code, driven := [], highz := false, pulsing := [], heldRise := false } }
  if d.tap.heldRise && d.aon.memrefOk then d1.riseReset else d1

/-- The cells of a list of pin levels that satisfy a test, set over a table of cells. -/
def setCells (keep : Nat → Bool) (ps : List (Nat × Bool)) (t : Tab Bool) : Tab Bool :=
  (ps.filter fun p => keep p.1).foldl (fun t p => tset p.1 p.2 t) t

/-- A cell is an input cell. -/
def isInputCell (n : Nat) : Bool := cellKind n == some .input
/-- A cell has an update latch: it is an output or an enable cell. -/
def isLatchCell (n : Nat) : Bool := cellKind n == some .output || cellKind n == some .enable

/-- The output latches after Update. -/
def Tap.update (t : Tap) (b : BScan) : Tap := { t with latches := setCells isLatchCell b.load t.latches }
/-- The input cells after Capture. -/
def Tap.capture (t : Tap) (b : BScan) : Tap := { t with captured := setCells isInputCell b.pins t.captured }
/-- The pins that the latches drive: those of output cells whose enable cell, the next one, holds 1 (R566). -/
def Tap.drivenNow (t : Tap) : Tab Bool :=
  (t.latches.filter fun p => p.2 && cellKind p.1 == some .enable).map fun p => (p.1 - 1, tget false (p.1 - 1) t.latches)

/-- A boundary instruction: with BSCAN_OK it takes effect, else it selects the bypass register and the pins stay functional (R565). -/
def Device.boundary (d : Device) (i : TapInstr) (code : Nat) (b : BScan) (act : Tap → Tap) : Device :=
  if !d.aon.vaux then d
  else if d.bscanOk b then
    let d1 := d.tapLoad i code
    { d1 with tap := act d1.tap }
  else d.tapLoad .bypass code

/-- EXTEST: output cells drive the pins and input cells capture them (R563). -/
def extestEff (b : BScan) (d : Device) : Device :=
  d.boundary .extest 0x00 b fun t =>
    let t1 := (t.capture b).update b
    { t1 with driven := t1.drivenNow }
/-- The meaning of EXTEST. -/
def execExtest (b : BScan) (s : State) : Host.Outcome State Fault Refusal := onDev (extestEff b) s

/-- SAMPLE/PRELOAD: pins stay functional, Capture samples the pins of all cells and Update loads the latches; it needs the rails of groups C
and P (R563, R565). -/
def samplePreloadEff (b : BScan) (d : Device) : Device :=
  if !d.aon.vaux then d
  else if b.railsC && b.railsP then
    let d1 := d.tapLoad .samplePreload 0x01
    { d1 with tap := ({ d1.tap with captured := setCells (fun n => decide (n < boundaryCells)) b.pins d1.tap.captured }).update b }
  else d.tapLoad .bypass 0x01
/-- The meaning of SAMPLE_PRELOAD. -/
def execSamplePreload (b : BScan) (s : State) : Host.Outcome State Fault Refusal := onDev (samplePreloadEff b) s

/-- CLAMP: the pins are driven from the output latches, and the bypass register is selected (R563). -/
def clampEff (b : BScan) (d : Device) : Device := d.boundary .clamp 0x03 b fun t => { t with driven := t.drivenNow }
/-- The meaning of CLAMP. -/
def execClamp (b : BScan) (s : State) : Host.Outcome State Fault Refusal := onDev (clampEff b) s

/-- HIGHZ: every pin with a cell is high-impedance (R563). -/
def highzEff (b : BScan) (d : Device) : Device := d.boundary .highz 0x04 b fun t => { t with highz := true }
/-- The meaning of HIGHZ. -/
def execHighz (b : BScan) (s : State) : Host.Outcome State Fault Refusal := onDev (highzEff b) s

/-- EXTEST_PULSE and EXTEST_TRAIN: as EXTEST, but the TX output cells of AC ports drive their pairs with IEEE 1149.6 signals (R567). -/
def Tap.acTest (t : Tap) (b : BScan) : Tap :=
  let t1 := (t.capture b).update b
  let on := t1.drivenNow
  { t1 with driven := on.filter (fun p => !acCell p.1), pulsing := (on.filter fun p => acCell p.1).map (·.1) }
/-- EXTEST_PULSE (R567). -/
def extestPulseEff (b : BScan) (d : Device) : Device := d.boundary .extestPulse 0x05 b fun t => t.acTest b
/-- The meaning of EXTEST_PULSE. -/
def execExtestPulse (b : BScan) (s : State) : Host.Outcome State Fault Refusal := onDev (extestPulseEff b) s
/-- EXTEST_TRAIN (R567). -/
def extestTrainEff (b : BScan) (d : Device) : Device := d.boundary .extestTrain 0x06 b fun t => t.acTest b
/-- The meaning of EXTEST_TRAIN. -/
def execExtestTrain (b : BScan) (s : State) : Host.Outcome State Fault Refusal := onDev (extestTrainEff b) s

/-! ### IDCODE, BYPASS, DEBUG_ACCESS and the port's reset (R561 to R563) -/

/-- The IDCODE register of stepping A1 (R562). -/
def idcode : Nat := flagAt 28 Config.orderX + at_ 12 0x0E1A + at_ 1 (Config.manufacturer % 2048) + 1

/-- TAP_RESET: IDCODE is selected, every pin is released, and the update latches are 0 (R561, R566). -/
def tapResetEff (d : Device) : Device :=
  if !d.aon.vaux then d
  else
    let d1 := d.tapLoad .idcode 0x02
    { d1 with tap := { d1.tap with latches := [] } }
/-- The meaning of TAP_RESET. -/
def execTapReset (s : State) : Host.Outcome State Fault Refusal := onDev tapResetEff s

/-- IDCODE: the IDCODE register is shifted out (R562, R563). -/
def idcodeEff (d : Device) : Device := if !d.aon.vaux then d else (d.tapLoad .idcode 0x02).emit (.tdo idcode)
/-- The meaning of IDCODE. -/
def execIdcode (s : State) : Host.Outcome State Fault Refusal := onDev idcodeEff s

/-- BYPASS (R563). -/
def bypassEff (d : Device) : Device := if !d.aon.vaux then d else d.tapLoad .bypass 0xFF
/-- The meaning of BYPASS. -/
def execBypass (s : State) : Host.Outcome State Fault Refusal := onDev bypassEff s

/-- DEBUG_ACCESS: Capture-DR returns STATUS and DATA of the last completed operation; while debug is locked it acts as BYPASS (R563,
R568). -/
def debugAccessEff (d : Device) : Device :=
  if !d.aon.vaux then d
  else if d.mgmt.sec.unlocked.isSome then
    let d1 := d.tapLoad .debugAccess 0x10
    d1.emit (.tdo (at_ 64 d1.tap.status + d1.tap.data.toNat))
  else d.tapLoad .bypass 0x10
/-- The meaning of DEBUG_ACCESS. -/
def execDebugAccess (s : State) : Host.Outcome State Fault Refusal := onDev debugAccessEff s

/-! ### Debug operations (R568) -/

/-- A bit of the open scope's SCOPE byte. -/
def Device.scopeBit (d : Device) (b : Nat) : Bool :=
  match d.mgmt.sec.unlocked with
  | some s => (s.headD 0).getLsbD b
  | none => false

/-- The port is at the debug register: DEBUG_ACCESS is loaded and a scope is open (R563, R568). -/
def Device.atDebug (d : Device) : Bool := d.aon.vaux && d.tap.instr == .debugAccess && d.mgmt.sec.unlocked.isSome

/-- An operation ends with a STATUS and DATA. -/
def Device.debugEnd (d : Device) (status : Nat) (data : W64) : Device := { d with tap := { d.tap with status := status, data := data } }

/-- The 8 bytes from an address on lie in the internal address space as populated and trained, all of which the scope MEMORY reads; the
tiers answer only once they are trained (R304, R568). -/
def Device.debugReach (d : Device) (a : Nat) : Bool :=
  let tier := fun (x : Nat) => d.area x == .fTier || d.area x == .lTier
  d.area a != .none && d.area (a + 7) != .none && (d.tiers.trained || !(tier a || tier (a + 7)))

/-- An operation at the debug register: one that meets an operation not complete is refused with STATUS 2, and one outside the scope with
STATUS 1 (R568). -/
def Device.debugOp (d : Device) (busy allowed : Bool) (run : Device → Device) : Device :=
  if !d.atDebug then d
  else if busy then d.debugEnd 2 d.tap.data
  else if !allowed then d.debugEnd 1 d.tap.data
  else run d

/-- DEBUG_READ: 64 bits of the debug window or of the internal address space (R568, R573). -/
def debugReadEff (busy : Bool) (path : DebugPath) (a : Nat) (d : Device) : Device :=
  match path with
  | .window =>
    d.debugOp busy (d.scopeBit 0) fun d =>
      if 0x20000 ≤ a ∧ a < 0x100000 then d.debugEnd 0 (BitVec.ofNat 64 (((d.dbgReg a).map (·.2)).getD 0)) else d.debugEnd 3 d.tap.data
  | .memory =>
    d.debugOp busy (d.scopeBit 1) fun d =>
      if d.debugReach a then (d.memReadCount a 8 0).debugEnd 0 (BitVec.ofNat 64 (leNat (d.read a 8))) else d.debugEnd 3 d.tap.data
/-- The meaning of DEBUG_READ. -/
def execDebugRead (busy : Bool) (path : DebugPath) (a : Nat) (s : State) : Host.Outcome State Fault Refusal :=
  onDev (debugReadEff busy path a) s

/-- A write through the debug window: LT_CTRL is taken, a reserved MODE keeping its field, and every other write is discarded (R15, R572,
R573). -/
def Device.debugWindowWrite (d : Device) (a : Nat) (v : W64) (seen : LtSeen) : Device :=
  if 0x74000 ≤ a ∧ a < 0x74800 ∧ a % 0x40 = 0 then
    let l := (a - 0x74000) / 0x40
    let n := v.toNat
    let m := bits 15 12 n
    ltTake (if m < 5 then m else (d.link l).test.mode) l (bits 11 8 n) (bits 7 6 n) (bits 5 4 n) seen d
  else d

/-- DEBUG_WRITE: 64 bits through the debug window or to the internal address space, within the WRITE scope (R568). -/
def debugWriteEff (busy : Bool) (path : DebugPath) (a : Nat) (v : W64) (seen : LtSeen) (d : Device) : Device :=
  match path with
  | .window =>
    d.debugOp busy (d.scopeBit 2) fun d =>
      if 0x20000 ≤ a ∧ a < 0x100000 then (d.debugWindowWrite a v seen).debugEnd 0 d.tap.data else d.debugEnd 3 d.tap.data
  | .memory =>
    d.debugOp busy (d.scopeBit 2) fun d =>
      if d.debugReach a then (d.memWriteAll a (leBytes 8 v.toNat)).debugEnd 0 d.tap.data else d.debugEnd 3 d.tap.data
/-- The meaning of DEBUG_WRITE. -/
def execDebugWrite (busy : Bool) (path : DebugPath) (a : Nat) (v : W64) (seen : LtSeen) (s : State) : Host.Outcome State Fault Refusal :=
  onDev (debugWriteEff busy path a v seen) s

/-- A free 64-bit value drawn by a debug operation (log entry 2). -/
def Device.drawWord (d : Device) : W64 × Device :=
  (BitVec.ofNat 64 ((Config.freeWord d.fresh).toNat + 2 ^ 32 * (Config.freeWord (d.fresh + 1)).toNat), { d with fresh := d.fresh + 2 })

/-- DEBUG_MP_COMMAND: halts, steps or reads the shadow MP, whose program and registers the spec does not give: a step moves its program
counter, and a read returns a free value. With no MP as shadow the address names nothing (R500, R568; log entries 2, 32). -/
def debugMpCommandEff (busy : Bool) (cmd : MpCommand) (_addr : Nat) (d : Device) : Device :=
  d.debugOp busy (d.scopeBit 3) fun d =>
    if d.ens.holder.isNone || !d.mpsRun then d.debugEnd 3 d.tap.data
    else match cmd with
      | .halt => { (d.debugEnd 0 d.tap.data) with ens := { d.ens with shadowHalted := true } }
      | .step =>
        if !d.ens.shadowHalted then d.debugEnd 0 d.tap.data
        else
          let (v, d1) := d.drawWord
          { (d1.debugEnd 0 d.tap.data) with ens := { d1.ens with shadowPc := v.toNat } }
      | .read =>
        let (v, d1) := d.drawWord
        d1.debugEnd 0 v
/-- The meaning of DEBUG_MP_COMMAND. -/
def execDebugMpCommand (busy : Bool) (cmd : MpCommand) (addr : Nat) (s : State) : Host.Outcome State Fault Refusal :=
  onDev (debugMpCommandEff busy cmd addr) s

/-! ### Telemetry snapshots (R420, R576) -/

/-- TELEMETRY_SNAPSHOT: firmware takes a group's counters, 100 ms after the last time, or 800 ms after it under shedding step 1 (R420,
R576). -/
def telemetrySnapshotEff (g : Nat) (d : Device) : Device :=
  if g < 1 || 4 < g || d.phase != .ready || d.ens.holder.isNone then d
  else
    let every := if 1 ≤ d.mgmt.shed.steps then 800 else 100
    let last := (d.telem.snaps.getD (g - 1) {}).at_
    let d1 := d.by (last + 1000000 * every)
    { d1 with telem := { snaps := lmod (g - 1) (fun _ => { at_ := d1.now, every := every, values := d1.groupNow g }) d1.telem.snaps } }
/-- The meaning of TELEMETRY_SNAPSHOT. -/
def execTelemetrySnapshot (g : Nat) (s : State) : Host.Outcome State Fault Refusal := onDev (telemetrySnapshotEff g) s

end Sys2Proof.Machine
end

