-- ==== Sys2Proof/Machine/Vector.lean ====
section
/-! DEFINITION. The Vector Engine: micro-ops as commands (R217 to R227), and VE descriptors with their loops and ports (R228 to R232,
R239, R240; log entry 22). -/

namespace Sys2Proof.Machine

/-! ### Micro-ops as commands -/

/-- A tile buffer may be used by a context: no other owns it (R217). -/
def Engines.tileOk (g : Engines) (ctx buf : Nat) : Bool := (tget ({} : TileBuf) buf g.tb).owner.all (· == ctx)
/-- The stream engines hold a tile buffer (R217). -/
def Engines.tileHeld (g : Engines) (buf : Nat) : Bool := (tget ({} : TileBuf) buf g.tb).bySte
/-- A line of a tile buffer. -/
def Engines.tileLine (g : Engines) (buf ln : Nat) : BitVec 4096 := tget 0 ln (tget ({} : TileBuf) buf g.tb).lines
/-- The lines a block or a micro-op wrote take effect (R217). -/
def Engines.commitLines (g : Engines) : Engines :=
  { g with tb := g.ve.lineOut.foldl (fun t p => tmod ({} : TileBuf) p.1 (fun b => { b with
      lines := tset p.2.1 ((tget 0 p.2.1 b.lines &&& ~~~ p.2.2.2) ||| (p.2.2.1 &&& p.2.2.2)) b.lines }) t) g.tb,
           ve := { g.ve with lineOut := [] } }
/-- A stall of the VE counted under a cause: FTQ_EMPTY, CSQ_EMPTY, TB_HELD, OUT_FULL, PROG_LOAD, NO_WORK (R240). -/
def Engines.veStall (g : Engines) (cause : Nat) : Engines := { g with ve := { g.ve with stalls := lmod cause (· + 1) g.ve.stalls } }

/-- The opcode reads or writes a tile-buffer line (R220). -/
def usesTile (op : Nat) : Bool := op == 0x80 || op == 0x81

/-- The ring address of the tile-buffer line that a micro-op names (R220). -/
def microLine (m : Micro) : Nat := tileAddr (bits 25 24 m.imm) (512 * bits 23 17 m.imm)
/-- A micro-op of a context on an SC's VE, in the lane mode of its TYPE (R217 to R227); an access to a buffer that the STEs hold waits, and a slot
of a ring there is taken or claimed for it (R217, R243). -/
def veEff (op sc ctx : Nat) (m : Micro) (d : Device) : Device :=
  let buf := bits 25 24 m.imm
  if 64 ≤ sc then d
  else if usesTile op && !(d.eng sc).tileOk ctx buf then d.descFault sc ctx
  else
    let (d1, ok) := d.withRings sc ctx (if usesTile op then [microLine m] else []) fun d =>
      let g := d.eng sc
      if usesTile op && g.tileHeld buf then (d, false)
      else match { g.ve with mode := modeOfType m.typ }.micro g.tileLine op m with
        | none => (d.descFault sc ctx, true)
        | some v => (d.modEng sc fun g => ({ g with ve := v } : Engines).commitLines, true)
    if ok then d1 else d1.modEng sc (·.veStall 2)

/-- VE_MOV (R220). -/
def execVeMov (sc ctx : Nat) (m : Micro) (s : State) : Host.Outcome State Fault Refusal := onDev (veEff 0x01 sc ctx m) s
/-- VE_ADD (R220). -/
def execVeAdd (sc ctx : Nat) (m : Micro) (s : State) : Host.Outcome State Fault Refusal := onDev (veEff 0x02 sc ctx m) s
/-- VE_SUB (R220). -/
def execVeSub (sc ctx : Nat) (m : Micro) (s : State) : Host.Outcome State Fault Refusal := onDev (veEff 0x03 sc ctx m) s
/-- VE_MUL (R220). -/
def execVeMul (sc ctx : Nat) (m : Micro) (s : State) : Host.Outcome State Fault Refusal := onDev (veEff 0x04 sc ctx m) s
/-- VE_FMA (R220). -/
def execVeFma (sc ctx : Nat) (m : Micro) (s : State) : Host.Outcome State Fault Refusal := onDev (veEff 0x05 sc ctx m) s
/-- VE_MIN (R221). -/
def execVeMin (sc ctx : Nat) (m : Micro) (s : State) : Host.Outcome State Fault Refusal := onDev (veEff 0x06 sc ctx m) s
/-- VE_MAX (R221). -/
def execVeMax (sc ctx : Nat) (m : Micro) (s : State) : Host.Outcome State Fault Refusal := onDev (veEff 0x07 sc ctx m) s
/-- VE_ABS (R220). -/
def execVeAbs (sc ctx : Nat) (m : Micro) (s : State) : Host.Outcome State Fault Refusal := onDev (veEff 0x08 sc ctx m) s
/-- VE_NEG (R220). -/
def execVeNeg (sc ctx : Nat) (m : Micro) (s : State) : Host.Outcome State Fault Refusal := onDev (veEff 0x09 sc ctx m) s
/-- VE_DIV (R222). -/
def execVeDiv (sc ctx : Nat) (m : Micro) (s : State) : Host.Outcome State Fault Refusal := onDev (veEff 0x0A sc ctx m) s
/-- VE_EXPO (R220). -/
def execVeExpo (sc ctx : Nat) (m : Micro) (s : State) : Host.Outcome State Fault Refusal := onDev (veEff 0x0B sc ctx m) s
/-- VE_SCALB (R220). -/
def execVeScalb (sc ctx : Nat) (m : Micro) (s : State) : Host.Outcome State Fault Refusal := onDev (veEff 0x0C sc ctx m) s
/-- VE_RCP (R222). -/
def execVeRcp (sc ctx : Nat) (m : Micro) (s : State) : Host.Outcome State Fault Refusal := onDev (veEff 0x10 sc ctx m) s
/-- VE_RSQRT (R222). -/
def execVeRsqrt (sc ctx : Nat) (m : Micro) (s : State) : Host.Outcome State Fault Refusal := onDev (veEff 0x11 sc ctx m) s
/-- VE_SQRT (R222). -/
def execVeSqrt (sc ctx : Nat) (m : Micro) (s : State) : Host.Outcome State Fault Refusal := onDev (veEff 0x12 sc ctx m) s
/-- VE_EXP2 (R222). -/
def execVeExp2 (sc ctx : Nat) (m : Micro) (s : State) : Host.Outcome State Fault Refusal := onDev (veEff 0x13 sc ctx m) s
/-- VE_LOG2 (R222). -/
def execVeLog2 (sc ctx : Nat) (m : Micro) (s : State) : Host.Outcome State Fault Refusal := onDev (veEff 0x14 sc ctx m) s
/-- VE_TANH (R222). -/
def execVeTanh (sc ctx : Nat) (m : Micro) (s : State) : Host.Outcome State Fault Refusal := onDev (veEff 0x15 sc ctx m) s
/-- VE_RELU (R223). -/
def execVeRelu (sc ctx : Nat) (m : Micro) (s : State) : Host.Outcome State Fault Refusal := onDev (veEff 0x20 sc ctx m) s
/-- VE_GELU_TANH (R223). -/
def execVeGeluTanh (sc ctx : Nat) (m : Micro) (s : State) : Host.Outcome State Fault Refusal := onDev (veEff 0x21 sc ctx m) s
/-- VE_SILU (R223). -/
def execVeSilu (sc ctx : Nat) (m : Micro) (s : State) : Host.Outcome State Fault Refusal := onDev (veEff 0x22 sc ctx m) s
/-- VE_SIGMOID (R223). -/
def execVeSigmoid (sc ctx : Nat) (m : Micro) (s : State) : Host.Outcome State Fault Refusal := onDev (veEff 0x23 sc ctx m) s
/-- VE_CMPEQ (R221). -/
def execVeCmpeq (sc ctx : Nat) (m : Micro) (s : State) : Host.Outcome State Fault Refusal := onDev (veEff 0x30 sc ctx m) s
/-- VE_CMPLT (R221). -/
def execVeCmplt (sc ctx : Nat) (m : Micro) (s : State) : Host.Outcome State Fault Refusal := onDev (veEff 0x31 sc ctx m) s
/-- VE_CMPLE (R221). -/
def execVeCmple (sc ctx : Nat) (m : Micro) (s : State) : Host.Outcome State Fault Refusal := onDev (veEff 0x32 sc ctx m) s
/-- VE_CMPUN (R220). -/
def execVeCmpun (sc ctx : Nat) (m : Micro) (s : State) : Host.Outcome State Fault Refusal := onDev (veEff 0x33 sc ctx m) s
/-- VE_SEL (R220). -/
def execVeSel (sc ctx : Nat) (m : Micro) (s : State) : Host.Outcome State Fault Refusal := onDev (veEff 0x34 sc ctx m) s
/-- VE_CVT (R224). -/
def execVeCvt (sc ctx : Nat) (m : Micro) (s : State) : Host.Outcome State Fault Refusal := onDev (veEff 0x40 sc ctx m) s
/-- VE_ATTRF (R226). -/
def execVeAttrf (sc ctx : Nat) (m : Micro) (s : State) : Host.Outcome State Fault Refusal := onDev (veEff 0x41 sc ctx m) s
/-- VE_AND (R220). -/
def execVeAnd (sc ctx : Nat) (m : Micro) (s : State) : Host.Outcome State Fault Refusal := onDev (veEff 0x50 sc ctx m) s
/-- VE_OR (R220). -/
def execVeOr (sc ctx : Nat) (m : Micro) (s : State) : Host.Outcome State Fault Refusal := onDev (veEff 0x51 sc ctx m) s
/-- VE_XOR (R220). -/
def execVeXor (sc ctx : Nat) (m : Micro) (s : State) : Host.Outcome State Fault Refusal := onDev (veEff 0x52 sc ctx m) s
/-- VE_SHL (R220). -/
def execVeShl (sc ctx : Nat) (m : Micro) (s : State) : Host.Outcome State Fault Refusal := onDev (veEff 0x53 sc ctx m) s
/-- VE_SHR (R220). -/
def execVeShr (sc ctx : Nat) (m : Micro) (s : State) : Host.Outcome State Fault Refusal := onDev (veEff 0x54 sc ctx m) s
/-- VE_SHFX (R227). -/
def execVeShfx (sc ctx : Nat) (m : Micro) (s : State) : Host.Outcome State Fault Refusal := onDev (veEff 0x60 sc ctx m) s
/-- VE_SHFI (R227). -/
def execVeShfi (sc ctx : Nat) (m : Micro) (s : State) : Host.Outcome State Fault Refusal := onDev (veEff 0x61 sc ctx m) s
/-- VE_BCASTL (R227). -/
def execVeBcastl (sc ctx : Nat) (m : Micro) (s : State) : Host.Outcome State Fault Refusal := onDev (veEff 0x62 sc ctx m) s
/-- VE_XMAC (R225). -/
def execVeXmac (sc ctx : Nat) (m : Micro) (s : State) : Host.Outcome State Fault Refusal := onDev (veEff 0x70 sc ctx m) s
/-- VE_XCLOSE (R225). -/
def execVeXclose (sc ctx : Nat) (m : Micro) (s : State) : Host.Outcome State Fault Refusal := onDev (veEff 0x71 sc ctx m) s
/-- VE_LDL (R220). -/
def execVeLdl (sc ctx : Nat) (m : Micro) (s : State) : Host.Outcome State Fault Refusal := onDev (veEff 0x80 sc ctx m) s
/-- VE_STL (R220). -/
def execVeStl (sc ctx : Nat) (m : Micro) (s : State) : Host.Outcome State Fault Refusal := onDev (veEff 0x81 sc ctx m) s

/-! ### Ports (R229, R230) -/

/-- A port record (R229). -/
structure PortRec where
  kind  : Nat
  fmt   : Nat
  split : Nat
  dir   : Nat
  addr  : Nat
  ls    : Int
  lsh   : Int
  gs    : Int
  s0    : Int
  s1    : Int
  s2    : Int
  deriving DecidableEq, Repr

/-- The port record of PORT p in a descriptor (R228, R229). -/
def parsePort (b : List Byte) (p : Nat) : PortRec :=
  let o := 64 + 24 * p
  let s := fun (i n : Nat) => signedOf (8 * n) (fieldAt b (o + i) n)
  { kind := fieldAt b o 1, fmt := fieldAt b (o + 1) 1, split := fieldAt b (o + 2) 1, dir := fieldAt b (o + 3) 1,
    addr := fieldAt b (o + 4) 4, ls := s 8 2, lsh := s 10 2, gs := s 12 4, s0 := s 16 2, s1 := s 18 2, s2 := s 20 2 }
/-- Bits of an element of a port format. -/
def portBits : Nat → Nat
  | 0 | 3 => 32 | 1 | 2 => 16 | 7 => 4 | _ => 8
/-- The ranges of R229, for a lane mode: modes 1 and 2 take the formats of their lane types (log entry 22). -/
def PortRec.ok (r : PortRec) (mode : Nat) : Bool :=
  r.kind ≤ 5 && r.fmt ≤ 8 && r.split ≤ 9 && r.dir ≤ 1 && (r.kind == 0 || ((mode == 0 || (mode == 1 && (r.fmt == 1 || r.fmt == 2)) || (mode == 2 && (r.fmt == 4 || r.fmt == 8)))
    && (if r.kind = 1 then decide (r.addr < 0x40000) else if r.kind = 2 then true else r.addr == 0 && r.fmt == 0)
    && (!(r.kind == 3 || r.kind == 4) || r.dir == 0) && (r.kind != 5 || r.dir == 1)))
/-- off of R230. -/
def PortRec.off (r : PortRec) (g l i0 i1 i2 : Nat) : Int :=
  (g : Int) * r.gs + (l % 2 ^ r.split : Nat) * r.ls + (l / 2 ^ r.split : Nat) * r.lsh + (i0 : Int) * r.s0 + (i1 : Int) * r.s1 + (i2 : Int) * r.s2
/-- An element as the lane takes it (R229). -/
def portWiden (mode fmt raw : Nat) : Nat :=
  if mode ≠ 0 then raw
  else match fmt with
    | 1 => fPack fmtFP32 (fDecode fmtBF16 raw)
    | 2 => fPack fmtFP32 (fDecode fmtFP16 raw)
    | 4 => twos 32 (signedOf 8 raw)
    | 5 => fPack fmtFP32 (fDecode fmtE4M3 raw)
    | 6 => fPack fmtFP32 (fDecode fmtE5M2 raw)
    | 7 => fPack fmtFP32 (decodeE2M1 raw)
    | _ => raw
/-- A lane's value as an element (R50, R229). -/
def portNarrow (mode fmt v : Nat) : Nat :=
  if mode = 1 then
    let f := if fmt = 2 then fmtFP16 else fmtBF16
    fConvert f (fDecode f v)
  else if mode ≠ 0 then (if fmt = 8 then (max 0 (signedOf 8 v)).toNat else v)
  else
    let x := fDecode fmtFP32 v
    match fmt with
    | 1 => fConvert fmtBF16 x
    | 2 => fConvert fmtFP16 x
    | 4 => twos 8 (max (-128) (min 127 (signedOf 32 v)))
    | 5 => fConvert fmtE4M3 x
    | 6 => fConvert fmtE5M2 x
    | 7 => if x == .nan then 0 else encodeE2M1 x
    | 8 => (max 0 (min 255 (signedOf 32 v))).toNat
    | _ => v
/-- The value of a tail lane (R231); a narrower lane takes the low bits, and a BF16 or FP16 lane its format's value. -/
def tailValue (fill mode fmt : Nat) : Nat :=
  let inf := if fmt = 2 then 0x7C00 else 0x7F80
  match mode, fill with
  | 1, 0 => 0x8000
  | 1, 2 => 0x8000 + inf
  | 1, 3 => inf
  | _, 0 => 0x80000000 % 2 ^ laneBits mode
  | _, 2 => 0xFF800000 % 2 ^ laneBits mode
  | _, 3 => 0x7F800000 % 2 ^ laneBits mode
  | _, 5 => 0x80000000 % 2 ^ laneBits mode
  | _, 6 => 0x7FFFFFFF % 2 ^ laneBits mode
  | _, _ => 0

/-! ### A descriptor's run (R228, R231, R232) -/

/-- Why a descriptor's run stops before its end. -/
inductive VeStop where
  | fault | tag | ftqEmpty | csqEmpty | tbHeld | outFull | slotWait
  deriving DecidableEq, Repr

/-- The fields of a VE descriptor (R228). -/
structure VeDesc where
  op     : Nat
  slot   : Nat
  mode   : Nat
  fill   : Nat
  extent : Nat
  n0     : Nat
  n1     : Nat
  n2     : Nat
  attrStride : Nat
  xinit  : List W32
  attrAddr : Nat
  unit   : Nat
  ctx    : Nat
  tile   : Nat
  flags  : Nat
  ports  : List PortRec
  deriving DecidableEq, Repr
/-- The descriptor that bytes hold (R228). -/
def parseVe (b : List Byte) : VeDesc :=
  { op := fieldAt b 0 1, slot := fieldAt b 1 1, mode := fieldAt b 2 1, fill := fieldAt b 3 1, extent := fieldAt b 4 4,
    n0 := fieldAt b 8 2, n1 := fieldAt b 10 2, n2 := fieldAt b 12 2, attrStride := fieldAt b 14 2,
    xinit := (List.range 4).map fun i => BitVec.ofNat 32 (fieldAt b (16 + 4 * i) 4),
    attrAddr := fieldAt b 32 4, unit := fieldAt b 36 4, ctx := fieldAt b 40 4, tile := fieldAt b 44 4, flags := fieldAt b 48 1,
    ports := (List.range 6).map (parsePort b) }

/-- Ports that micro-ops read and write (R219). -/
def portsRead (ws : List W64) : List Nat :=
  (List.range 6).filter fun p => ws.any fun w =>
    let (op, m) := microOf w
    let n := microArity op
    (decide (1 ≤ n) && m.a == 48 + p) || (decide (2 ≤ n) && m.b == 48 + p) || (decide (3 ≤ n) && m.c == 48 + p)
/-- How many micro-ops write a port. -/
def portWrites (ws : List W64) (p : Nat) : Nat :=
  (ws.filter fun w => let (op, m) := microOf w; !microCompares op && op != 0x81 && m.dst == 48 + p).length
/-- Blocks of a program. -/
def progBlocks (p : VeProg) : List (List W64) := [p.init, p.body, p.end0, p.end1, p.end2]
/-- The limits of R232, with the ports of a descriptor. -/
def VeDesc.progOk (v : VeDesc) (p : VeProg) : Bool :=
  lsum ((progBlocks p).map (·.length)) ≤ 64 && !p.body.isEmpty && p.consts.length ≤ 12
    && (progBlocks p).all (fun ws => ws.all (fun w => let (op, m) := microOf w; microOk v.mode op m)
      && (List.range 6).all fun i =>
        let r := v.ports.getD i (parsePort [] 0)
        portWrites ws i ≤ 1 && (portWrites ws i == 0 || (r.kind != 0 && r.dir == 1)) && (!(portsRead ws).contains i || (r.kind != 0 && r.dir == 0)))
/-- The ranges of R228. -/
def VeDesc.ok (v : VeDesc) : Bool :=
  v.slot < 64 && v.mode ≤ 2 && v.fill ≤ 6 && decide (1 ≤ v.extent ∧ v.extent ≤ 1048576) && decide (1 ≤ v.n0 ∧ 1 ≤ v.n1 ∧ 1 ≤ v.n2)
    && v.flags < 2 && v.ports.all (·.ok v.mode)

/-- A run: the device with what earlier blocks wrote, the registers, the queues as they stood at the start, the furthest entry of each
that has been read, and scores for the SE. -/
structure VeRunning where
  dev  : Device
  ve   : Ve
  ftq  : List FtqEntry
  csq  : List CsqEntry
  ftqAt : Option Nat := none
  csqAt : Option Nat := none
  toSe : List (Nat × Offer) := []
  /-- Ring pairs taken or claimed, and bytes to put back. -/
  took : List Nat := []
  put  : List (Nat × Nat × List Byte) := []
  stop : Option VeStop := none
  /-- The pair whose slot the run waits for. -/
  wait : Option Nat := none
  deriving DecidableEq, Repr

/-- A run that stops. -/
def VeRunning.halt (r : VeRunning) (s : VeStop) : VeRunning := { r with stop := r.stop.or (some s) }
/-- n bits of an element lie in a limit of bytes, from a byte address and an offset in elements; the bit position. -/
def elemPos (base limit n : Nat) (off : Int) : Option Nat :=
  let p := (8 * base : Int) + off * (n : Int)
  if 0 ≤ p && p + (n : Int) ≤ (8 * limit : Int) then some p.toNat else none
/-- A context may use a byte of scratchpad: it lies in a bank of its own; work that belongs to no context may use all (R230; DESIGN CHOICE, log
entry 22). -/
def Device.spadMine (d : Device) (ctx pos : Nat) : Bool := (d.ctx? ctx).elim true fun k => k.banks.contains (pos / 8 / bankBytes)
/-- Addresses that a run is about to access: slots of rings there are taken or claimed, or the run stops for one (R217, R240, R243). -/
def VeRunning.reach (r : VeRunning) (sc ctx : Nat) (as_ : List Nat) : VeRunning :=
  match ({ dev := r.dev, took := r.took, put := r.put } : RingWork).touchAll sc ctx as_ with
  | .ok w => { r with dev := w.dev, took := w.took, put := w.put }
  | .error k =>
    let p := r.dev.sem sc k
    { r.halt (if inTile p.ringAddr then .tbHeld else if p.isOut then .outFull else .slotWait) with wait := some k }
/-- The ring addresses of a port's elements at offsets; those outside have none. -/
def PortRec.reaches (p : PortRec) (offs : List Int) : List Nat :=
  offs.filterMap fun off =>
    if p.kind = 1 then (elemPos (bits 15 0 p.addr) 65536 (portBits p.fmt) off).map fun q => tileAddr (bits 17 16 p.addr) (q / 8)
    else (elemPos p.addr spadBytes (portBits p.fmt) off).map (· / 8)

/-- An element of a tile buffer or scratchpad; none outside (R230). -/
def VeRunning.elem (r : VeRunning) (sc ctx : Nat) (p : PortRec) (off : Int) : Option Nat :=
  let n := portBits p.fmt
  let pick := fun (pos : Nat) (bs : List Byte) => leNat bs / 2 ^ (pos % 8) % 2 ^ n
  if p.kind = 1 then
    (elemPos (bits 15 0 p.addr) 65536 n off).map fun pos =>
      pick pos ((tget ({} : TileBuf) (bits 17 16 p.addr) (r.dev.eng sc).tb).read (pos / 8) (ceilDiv n 8))
  else (elemPos p.addr spadBytes n off).bind fun pos =>
    if r.dev.spadMine ctx pos then some (pick pos (r.dev.spad sc (pos / 8) (ceilDiv n 8))) else none
/-- An element written; none outside. -/
def VeRunning.store (r : VeRunning) (sc ctx : Nat) (p : PortRec) (off : Int) (v : Nat) : Option VeRunning :=
  let n := portBits p.fmt
  let r := if p.fmt = 7 && fDecode fmtFP32 v == .nan then { r with ve := { r.ve with e2m1NaN := r.ve.e2m1NaN + 1 } } else r
  let v := portNarrow r.ve.mode p.fmt v
  if p.kind = 1 then
    (elemPos (bits 15 0 p.addr) 65536 n off).map fun pos =>
      let buf := bits 17 16 p.addr
      let bs := (tget ({} : TileBuf) buf (r.dev.eng sc).tb).read (pos / 8) (ceilDiv n 8)
      let k := 2 ^ (pos % 8)
      let o := leNat bs
      let out := leBytes (ceilDiv n 8) (o - o / k % 2 ^ n * k + v % 2 ^ n * k)
      { r with dev := r.dev.modEng sc fun g => { g with tb := tmod ({} : TileBuf) buf (·.write (pos / 8) out) g.tb } }
  else (elemPos p.addr spadBytes n off).bind fun pos =>
    if r.dev.spadMine ctx pos then
      let bs := r.dev.spad sc (pos / 8) (ceilDiv n 8)
      let k := 2 ^ (pos % 8)
      let o := leNat bs
      some { r with dev := r.dev.spadWrite sc (pos / 8) (leBytes (ceilDiv n 8) (o - o / k % 2 ^ n * k + v % 2 ^ n * k)) }
    else none

/-- Values of a queue port's lanes, by entry and place; a score the FU rejected has no value (log entry 22). -/
def VeRunning.queueLane (r : VeRunning) (kind : Nat) (off : Nat) : Nat :=
  if kind = 3 then ((r.ftq[off / 4096]?).elim 0 fun e => (e.values.getD (off % 4096) 0).toNat)
  else match (r.csq[off / 256]?).bind fun e => e.scores.getD (off % 256) none with
    | some s => s.toNat
    | none => (Config.freeWord (r.dev.fresh + off)).toNat
/-- The check of R230 on one FTQ entry. -/
def VeDesc.entryOk (v : VeDesc) (n : Nat) (e : FtqEntry) : Bool :=
  v.flags == 0 || (e.ctx == v.ctx && e.unit == v.unit && e.tile == (v.tile + n) % 0x100000000)

/-- A queue port read on lanes at offsets, all of one block (R230). -/
def VeRunning.readQueue (r : VeRunning) (v : VeDesc) (p : PortRec) (offs : List Int) : VeRunning × List Nat :=
  let per := if p.kind = 3 then 4096 else 256
  let have_ := if p.kind = 3 then r.ftq.length else r.csq.length
  let at_ := if p.kind = 3 then r.ftqAt else r.csqAt
  let es := offs.map fun o => o / (per : Int)
  let top := es.foldl max 0
  if es.any (fun e => decide (e < 0)) || at_.any (fun a => es.any fun e => decide (e < (a : Int))) then (r.halt .fault, [])
  else if (have_ : Int) ≤ top then (r.halt (if p.kind = 3 then .ftqEmpty else .csqEmpty), [])
  else
    let bad := p.kind == 3 && es.any fun e => !((r.ftq[e.toNat]?).elim false (v.entryOk e.toNat))
    if bad then (r.halt .tag, [])
    else
      let r1 := if p.kind = 3 then { r with ftqAt := some top.toNat } else { r with csqAt := some top.toNat }
      (r1, offs.map fun o => r.queueLane p.kind o.toNat)

/-- An input port's lanes at an iteration (R230, R231). -/
def VeRunning.readPort (r : VeRunning) (sc : Nat) (v : VeDesc) (g i0 i1 i2 : Nat) (i : Nat) : VeRunning :=
  if r.stop.isSome then r
  else
    let p := v.ports.getD i (parsePort [] 0)
    let n := lanesN v.mode
    let live := min n r.ve.tail
    let offs := (List.range live).map fun l => p.off g l i0 i1 i2
    let fill := List.replicate (n - live) (tailValue v.fill v.mode p.fmt)
    let give := fun (r : VeRunning) (xs : List Nat) => { r with ve := { r.ve with ports := tset i (xs ++ fill) r.ve.ports } }
    if p.kind = 3 || p.kind = 4 then
      let (r1, xs) := r.readQueue v p offs
      give r1 xs
    else
      let buf := bits 17 16 p.addr
      let r := r.reach sc v.ctx (p.reaches offs)
      if r.stop.isSome then r
      else if p.kind = 1 && (r.dev.eng sc).tileHeld buf then r.halt .tbHeld
      else
        let xs := offs.map (r.elem sc v.ctx p)
        if xs.any (·.isNone) then r.halt .fault else give r (xs.map fun x => portWiden v.mode p.fmt (x.getD 0))

/-- The candidate of a column of a finished tile: a cell in stage A, the delta entry of a delta unit in stage B, a candidate of stage B's list in
stage C, 64 to a tile in their order (R127, R132, R145, R230). -/
def Device.tileCand (d : Device) (e : FtqEntry) (col : Nat) : Option Entry :=
  match d.ctxCmd e.ctx, d.ctxIndex e.ctx, d.ctx? e.ctx with
  | some c, some x, some k =>
    let n := 64 * e.tile + col
    if c.stage = 1 then if n < x.nCells then some { id := BitVec.ofNat 64 n, key := 0, source := 0, loc := (n, 0), shard := d.shoal.device } else none
    else if c.stage = 3 then c.listB[n]?
    else match (c.runs.getD k.vec {}).units[k.unit]?, c.snap with
      | some (.delta u), some s =>
        let p := (s.deltaTail + 1024 * u + n) % x.deltaEntries
        (tfind p x.delta).map fun v => { id := v.id, key := 0, source := 2, loc := (p, 0), shard := d.shoal.device }
      | _, _ => none
  | _, _, _ => none
/-- The candidate whose score lies at an offset of a queue port, with its query: that of a CSQ position or of a tile's column (R230). -/
def VeRunning.candAt (r : VeRunning) (kind off : Nat) : Option (Nat × Entry) :=
  if kind = 4 then
    (r.csq[off / 256]?).bind fun e =>
      let k := off % 256
      if (e.scores.getD k none).isSome then (e.cands[k / 4]?).map fun c => (k % 4, c) else none
  else
    (r.ftq[off / 4096]?).bind fun e =>
      let k := off % 4096
      if k / 64 < e.rows && k % 64 < e.cols then (r.dev.tileCand e (k % 64)).map fun c => (k / 64, c) else none

/-- An output port's lanes at an iteration are written (R229, R230). -/
def VeRunning.writePort (r : VeRunning) (sc : Nat) (v : VeDesc) (g i0 i1 i2 : Nat) (o : Nat × List (Option Nat)) : VeRunning :=
  if r.stop.isSome then r
  else
    let p := v.ports.getD o.1 (parsePort [] 0)
    let buf := bits 17 16 p.addr
    if p.kind = 5 then
      let from_ := v.ports.find? fun q => q.kind == 3 || q.kind == 4
      let os := o.2.zipIdx.filterMap fun x => x.1.bind fun s => from_.bind fun q =>
        let off := q.off g x.2 i0 i1 i2
        if off < 0 then none
        else (r.candAt q.kind off.toNat).map fun c => (c.1, ({ key := scoreKey (BitVec.ofNat 32 s), entry := c.2 } : Offer))
      { r with toSe := r.toSe ++ os }
    else
      let r := r.reach sc v.ctx (p.reaches (o.2.zipIdx.filterMap fun x => x.1.map fun _ => p.off g x.2 i0 i1 i2))
      if r.stop.isSome then r
      else if p.kind = 1 && (r.dev.eng sc).tileHeld buf then r.halt .tbHeld
      else o.2.zipIdx.foldl (fun r x => match x.1 with
        | none => r
        | some s => if r.stop.isSome then r else (r.store sc v.ctx p (p.off g x.2 i0 i1 i2) s).getD (r.halt .fault)) r

/-- One micro-op of a block. -/
def VeRunning.op (r : VeRunning) (sc ctx : Nat) (w : W64) : VeRunning :=
  if r.stop.isSome then r
  else
    let (op, m) := microOf w
    let buf := bits 25 24 m.imm
    if usesTile op && !(r.dev.eng sc).tileOk ctx buf then r.halt .fault
    else
      let r := if usesTile op then r.reach sc ctx [microLine m] else r
      let g := r.dev.eng sc
      if r.stop.isSome then r
      else if usesTile op && g.tileHeld buf then r.halt .tbHeld
      else match r.ve.micro g.tileLine op m with
        | none => r.halt .fault
        | some v => { r with ve := v }
/-- One execution of a block: its reads, candidate attribute words among them, its micro-ops, then its writes (R217, R226, R231). -/
def VeRunning.block (r : VeRunning) (sc : Nat) (v : VeDesc) (ws : List W64) (g i0 i1 i2 : Nat) : VeRunning :=
  if ws.isEmpty || r.stop.isSome then r
  else
    let n := lanesN v.mode
    let attrs := if ws.any fun w => (microOf w).1 == 0x41 then (List.range n).map fun l =>
      (l, attrsAt (r.dev.spad sc (v.attrAddr + (g * n + l) * v.attrStride) 64) 0 8) else r.ve.attrs
    let r0 := { r with ve := { r.ve with outs := [], loops := (i0, i1, i2, g), attrs := attrs } }
    let r1 := (portsRead ws).foldl (fun r i => r.readPort sc v g i0 i1 i2 i) r0
    let r2 := ws.foldl (fun r w => r.op sc v.ctx w) r1
    let r3 := r2.ve.outs.foldl (fun r o => r.writePort sc v g i0 i1 i2 o) r2
    let e := ({ r3.dev.eng sc with ve := r3.ve } : Engines).commitLines
    { r3 with dev := r3.dev.modEng sc (fun _ => e), ve := e.ve }
/-- The loops of R231 over one lane group. -/
def VeRunning.group (r : VeRunning) (sc : Nat) (v : VeDesc) (p : VeProg) (g : Nat) : VeRunning :=
  let n := lanesN v.mode
  let r0 := { r with ve := { r.ve with v := [], k := [], acc := [], tail := min n (v.extent - g * n) } }
  let r1 := r0.block sc v p.init g 0 0 0
  let r2 := (List.range v.n2).foldl (fun r i2 =>
    let r3 := (List.range v.n1).foldl (fun r i1 =>
      let r4 := (List.range v.n0).foldl (fun r i0 => r.block sc v p.body g i0 i1 i2) r
      r4.block sc v p.end0 g (v.n0 - 1) i1 i2) r
    r3.block sc v p.end1 g (v.n0 - 1) (v.n1 - 1) i2) r1
  r2.block sc v p.end2 g (v.n0 - 1) (v.n1 - 1) (v.n2 - 1)

/-- TABLE tiles that the VE has taken: once every subspace and entry of a query group is there, each query's tables are quantised and loaded into
the CE table store (R63, R189; DESIGN CHOICE, log entry 38: tiles of a group count subspace by subspace, and in a subspace 64 entries by 64). -/
def Device.takeTable (d : Device) (sc : Nat) (e : FtqEntry) : Device :=
  match d.ctxIndex e.ctx with
  | none => d
  | some x =>
    let per := ceilDiv x.bookK 64
    let n := x.subspaces * per
    if e.opcode ≠ 2 || n = 0 then d
    else
      let group := e.tile / n
      let same := fun (t : FtqEntry) => t.ctx == e.ctx && t.unit == e.unit && t.tile / n == group
      let all := (d.eng sc).tables.filter (fun t => !(same t && t.tile == e.tile)) ++ [e]
      let tile := fun (i : Nat) => all.find? fun t => same t && t.tile % n == i
      if (List.range n).any fun i => (tile i).isNone then d.modEng sc fun g => { g with tables := all }
      else
        let row := fun (r m : Nat) => (List.range per).flatMap fun k =>
          (tile (m * per + k)).elim [] fun t => ((t.values.drop (64 * r)).take t.cols)
        (List.range e.rows).foldl (fun d r => d.modEng sc (·.putSlot x.tableSets (64 * group + r)
          (.table (pqQuantise ((List.range x.subspaces).map (row r)))))) (d.modEng sc fun g => { g with tables := all.filter fun t => !same t })

/-- The run of a descriptor from its start, with the queue entries it had already read past (R228, R231). -/
def Device.veStart (d : Device) (sc : Nat) (v : VeDesc) (p : VeProg) (past : List FtqEntry × List CsqEntry) : VeRunning :=
  let g := d.eng sc
  let xs := (p.consts.zipIdx.map fun q => (q.2, q.1)) ++ v.xinit.zipIdx.map fun q => (12 + q.2, q.1)
  let ve0 := { g.ve with mode := v.mode, x := xs, ports := [], outs := [], lineOut := [] }
  let start : VeRunning := { dev := d, ve := ve0, ftq := past.1 ++ g.ftq, csq := past.2 ++ g.csq }
  (List.range (ceilDiv v.extent (lanesN v.mode))).foldl (fun r n => r.group sc v p n) start
/-- Entries leave the heads of the queues, tables among them go to the table store, and what waited for room enters (R189, R191, R195, R230). -/
def Device.veLeave (d : Device) (sc ctx nf nc : Nat) : Device :=
  let gone := (d.eng sc).ftq.take nf
  let d1 := d.modEng sc fun g => ({ g with ftq := g.ftq.drop nf, csq := g.csq.drop nc } : Engines).unholdFtq.unsaveFtq ctx
  (gone.foldl (fun d e => d.takeTable sc e) d1).enginesResume sc
/-- A run that has ended: its writes stand, the entries it read have left, its slots of rings are delivered, and its scores reach the SE. -/
def VeRunning.finish (r : VeRunning) (sc : Nat) (v : VeDesc) (past : List FtqEntry × List CsqEntry) : Device :=
  let d0 := r.dev.modEng sc fun g => { g with ve := r.ve, veNext := none }
  let d1 := ({ dev := d0, took := r.took, put := r.put } : RingWork).delivered sc v.ctx
  let d2 := d1.veLeave sc v.ctx (r.ftqAt.elim 0 (· + 1) - past.1.length) (r.csqAt.elim 0 (· + 1) - past.2.length)
  let d3 := { d2 with fresh := d2.fresh + 2048 }
  match d3.ctxCmd v.ctx with
  | some c => d3.modEng sc fun g => r.toSe.foldl (fun g o => g.seOffer c.sp.cap c.sp.beta v.ctx v.unit o.1 [o.2]) g
  | none => d3
/-- A descriptor runs, or waits (R228 to R232, R240). Where it waits for a queue entry, the entries it has read past leave, and it runs again as soon
as the entry is there; a wait for a buffer or a slot leaves everything as it was. -/
def Device.veGo (d : Device) (sc : Nat) (desc : List Byte) (p : VeProg) : Nat → List FtqEntry × List CsqEntry → Device
  | 0, _ => d
  | fuel + 1, past =>
    let v := parseVe desc
    let r := d.veStart sc v p past
    let keep := fun (cause : Nat) =>
      let nf := r.ftqAt.getD 0 - past.1.length
      let nc := r.csqAt.getD 0 - past.2.length
      let past1 := (r.ftq.take (past.1.length + nf), r.csq.take (past.2.length + nc))
      let d1 := d.modEng sc fun g => { g.veStall cause with veNext := some (desc, past1) }
      if nf + nc = 0 then d1 else (d1.veLeave sc v.ctx nf nc).veGo sc desc p fuel past1
    let waits := fun (cause : Option Nat) =>
      let d1 := r.wait.elim d (d.engineWait sc)
      cause.elim d1 fun c => d1.modEng sc (·.veStall c)
    match r.stop with
    | none => r.finish sc v past
    | some .fault => (d.modEng sc fun g => { g with veNext := none }).descFault sc v.ctx
    | some .tag => tagMismatchEff sc v.ctx none (d.modEng sc fun g => { g with veNext := none })
    | some .ftqEmpty => keep 0
    | some .csqEmpty => keep 1
    | some .tbHeld => waits (some 2)
    | some .outFull => waits (some 3)
    | some .slotWait => waits none
/-- The VE goes on with the descriptor that waits for a queue entry. -/
def Device.veResume (d : Device) (sc : Nat) : Device :=
  match (d.eng sc).veNext with
  | none => d
  | some (desc, past) => match tfind (parseVe desc).slot (d.eng sc).ve.progs with
    | some p => d.veGo sc desc p 16 past
    | none => d

/-- VE_RUN: firmware has loaded a program, where one is given, and the descriptor runs over its lane groups, loops and ports (R228 to
R232); a slot whose program has not come is waited for (R240), and a port that names another context's buffer is a fault, used or not (R217). -/
def veRunEff (sc : Nat) (desc : List Byte) (prog : Option VeProg) (d : Device) : Device :=
  let v := parseVe desc
  if 64 ≤ sc then d
  else
    let d0 := match prog with
      | some p => d.modEng sc fun g => { g with ve := { g.ve with progs := tset v.slot p g.ve.progs } }
      | none => d
    let d1 := d0.veResume sc
    let mine := v.ports.all fun r => r.kind != 1 || (d0.eng sc).tileOk v.ctx (bits 17 16 r.addr)
    if (d0.eng sc).veNext.isSome && ((d1.eng sc).veNext.isSome || (d0.eng sc).veNext.any (·.1 == desc)) then d1
    else match tfind v.slot (d1.eng sc).ve.progs with
      | none => if v.op ≠ 1 || !v.ok then d1.descFault sc v.ctx else d1.modEng sc (·.veStall 4)
      | some p =>
        if v.op ≠ 1 || !v.ok || !v.progOk p || !mine then d1.descFault sc v.ctx
        else d1.veGo sc desc p 16 ([], [])
/-- VE_RUN (R231). -/
def execVeRun (sc : Nat) (desc : List Byte) (prog : Option VeProg) (s : State) : Host.Outcome State Fault Refusal :=
  onDev (veRunEff sc desc prog) s

end Sys2Proof.Machine
end

