-- ==== Sys2Proof/Machine/Dispatch.lean ====
section
/-! DEFINITION. The dispatch: one arm per command, each a direct call of its meaning. -/

namespace Sys2Proof.Machine

def exec (i : Instr) (s : State) : Host.Outcome State Fault Refusal :=
  match i with
  | .sysPwrokRise => Sys2Proof.Machine.execSysPwrokRise s
  | .sysPwrokFall => Sys2Proof.Machine.execSysPwrokFall s
  | .coldReset => Sys2Proof.Machine.execColdReset s
  | .warmReset => Sys2Proof.Machine.execWarmReset s
  | .warmDrainDone missed unfinished => Sys2Proof.Machine.execWarmDrainDone missed unfinished s
  | .mpReset mp => Sys2Proof.Machine.execMpReset mp s
  | .resetHoldRelease => Sys2Proof.Machine.execResetHoldRelease s
  | .startUp b => Sys2Proof.Machine.execStartUp b s
  | .railFault rail mv => Sys2Proof.Machine.execRailFault rail mv s
  | .vcoreWarningCrossing half mv => Sys2Proof.Machine.execVcoreWarningCrossing half mv s
  | .supplyWarnAssert mv => Sys2Proof.Machine.execSupplyWarnAssert mv s
  | .vcoreResetLevel half mv => Sys2Proof.Machine.execVcoreResetLevel half mv s
  | .brownoutRecovery v0 v1 => Sys2Proof.Machine.execBrownoutRecovery v0 v1 s
  | .brownoutEpisodeEnd v0 v1 => Sys2Proof.Machine.execBrownoutEpisodeEnd v0 v1 s
  | .quiesce mv => Sys2Proof.Machine.execQuiesce mv s
  | .quiesceEnd v0 v1 => Sys2Proof.Machine.execQuiesceEnd v0 v1 s
  | .thermalTrip t => Sys2Proof.Machine.execThermalTrip t s
  | .thermalTick sensors stackTemps => Sys2Proof.Machine.execThermalTick sensors stackTemps s
  | .powerSample adc v0 v1 amps => Sys2Proof.Machine.execPowerSample adc v0 v1 amps s
  | .envelopeTick => Sys2Proof.Machine.execEnvelopeTick s
  | .avlTick half counts vread iread => Sys2Proof.Machine.execAvlTick half counts vread iread s
  | .paceDeficit half => Sys2Proof.Machine.execPaceDeficit half s
  | .paceDeficitDegraded half => Sys2Proof.Machine.execPaceDeficitDegraded half s
  | .paceRestored half => Sys2Proof.Machine.execPaceRestored half s
  | .memrefclkLoss => Sys2Proof.Machine.execMemrefclkLoss s
  | .memrefclkReturn => Sys2Proof.Machine.execMemrefclkReturn s
  | .peRefclkLoss => Sys2Proof.Machine.execPeRefclkLoss s
  | .qclkLoss m => Sys2Proof.Machine.execQclkLoss m s
  | .qclkReturn m => Sys2Proof.Machine.execQclkReturn m s
  | .healthWordWrite mp w => Sys2Proof.Machine.execHealthWordWrite mp w s
  | .holderFailure => Sys2Proof.Machine.execHolderFailure s
  | .doubleClaim => Sys2Proof.Machine.execDoubleClaim s
  | .ensignFenceEnd => Sys2Proof.Machine.execEnsignFenceEnd s
  | .shadowFailure => Sys2Proof.Machine.execShadowFailure s
  | .ensignVacant => Sys2Proof.Machine.execEnsignVacant s
  | .sqTailDoorbell f q v => Sys2Proof.Machine.execSqTailDoorbell f q v s
  | .cqHeadDoorbell f q v => Sys2Proof.Machine.execCqHeadDoorbell f q v s
  | .sqeFetch f q host => Sys2Proof.Machine.execSqeFetch f q host s
  | .search stamp => Sys2Proof.Machine.execSearch stamp s
  | .msearch stamp => Sys2Proof.Machine.execMsearch stamp s
  | .range stamp => Sys2Proof.Machine.execRange stamp s
  | .get stamp => Sys2Proof.Machine.execGet stamp s
  | .insert stamp => Sys2Proof.Machine.execInsert stamp s
  | .upsert stamp => Sys2Proof.Machine.execUpsert stamp s
  | .delete stamp => Sys2Proof.Machine.execDelete stamp s
  | .attrSet stamp => Sys2Proof.Machine.execAttrSet stamp s
  | .fence stamp => Sys2Proof.Machine.execFence stamp s
  | .writeAcceptance stamp => Sys2Proof.Machine.execWriteAcceptance stamp s
  | .writeCompletion stamp => Sys2Proof.Machine.execWriteCompletion stamp s
  | .fenceCompletion stamp => Sys2Proof.Machine.execFenceCompletion stamp s
  | .interruptCoalesceTimer f q => Sys2Proof.Machine.execInterruptCoalesceTimer f q s
  | .hostLoss p => Sys2Proof.Machine.execHostLoss p s
  | .portRetrain p => Sys2Proof.Machine.execPortRetrain p s
  | .busMasterEnableClear f => Sys2Proof.Machine.execBusMasterEnableClear f s
  | .busMasterEnableSet f => Sys2Proof.Machine.execBusMasterEnableSet f s
  | .functionLevelReset f => Sys2Proof.Machine.execFunctionLevelReset f s
  | .hoistBoundary b => Sys2Proof.Machine.execHoistBoundary b s
  | .stageStart stamp stage => Sys2Proof.Machine.execStageStart stamp stage s
  | .dipPointSchedule sc cycles need usesVe tiles => Sys2Proof.Machine.execDipPointSchedule sc cycles need usesVe tiles s
  | .spillDone sc => Sys2Proof.Machine.execSpillDone sc s
  | .contextFill ctx => Sys2Proof.Machine.execContextFill ctx s
  | .unitEnd stamp vec unit blocks => Sys2Proof.Machine.execUnitEnd stamp vec unit blocks s
  | .foldStep stamp vec => Sys2Proof.Machine.execFoldStep stamp vec s
  | .finalSelection stamp => Sys2Proof.Machine.execFinalSelection stamp s
  | .deadlineCut stamp => Sys2Proof.Machine.execDeadlineCut stamp s
  | .remoteListsClose stamp => Sys2Proof.Machine.execRemoteListsClose stamp s
  | .lockstepMismatch merge n who => Sys2Proof.Machine.execLockstepMismatch merge n who s
  | .tagMismatch sc ctx fAddr => Sys2Proof.Machine.execTagMismatch sc ctx fAddr s
  | .uncorrectableRead sc x => Sys2Proof.Machine.execUncorrectableRead sc x s
  | .transferTimeout sc x => Sys2Proof.Machine.execTransferTimeout sc x s
  | .tagLimitedExit sc ste => Sys2Proof.Machine.execTagLimitedExit sc ste s
  | .progressSample sc => Sys2Proof.Machine.execProgressSample sc s
  | .remoteReplyArrival src tag bytes => Sys2Proof.Machine.execRemoteReplyArrival src tag bytes s
  | .backgroundReplyTimeout tag => Sys2Proof.Machine.execBackgroundReplyTimeout tag s
  | .meScore sc desc => Sys2Proof.Machine.execMeScore sc desc s
  | .meTable sc desc => Sys2Proof.Machine.execMeTable sc desc s
  | .meDense sc desc => Sys2Proof.Machine.execMeDense sc desc s
  | .meTrain sc desc => Sys2Proof.Machine.execMeTrain sc desc s
  | .scanPq sc desc => Sys2Proof.Machine.execScanPq sc desc s
  | .scanHam sc desc => Sys2Proof.Machine.execScanHam sc desc s
  | .gatherPq sc desc => Sys2Proof.Machine.execGatherPq sc desc s
  | .gatherHam sc desc => Sys2Proof.Machine.execGatherHam sc desc s
  | .walkLevel0 sc desc => Sys2Proof.Machine.execWalkLevel0 sc desc s
  | .walkCentroid sc desc => Sys2Proof.Machine.execWalkCentroid sc desc s
  | .walkUpperDescent sc desc => Sys2Proof.Machine.execWalkUpperDescent sc desc s
  | .expansionCommit sc ctx unit => Sys2Proof.Machine.execExpansionCommit sc ctx unit s
  | .fuSlotBlock sc desc => Sys2Proof.Machine.execFuSlotBlock sc desc s
  | .fuDelta sc desc => Sys2Proof.Machine.execFuDelta sc desc s
  | .fuNodeRecords sc desc => Sys2Proof.Machine.execFuNodeRecords sc desc s
  | .fuCellSummaries sc desc => Sys2Proof.Machine.execFuCellSummaries sc desc s
  | .veRun sc desc prog => Sys2Proof.Machine.execVeRun sc desc prog s
  | .veMov sc ctx m => Sys2Proof.Machine.execVeMov sc ctx m s
  | .veAdd sc ctx m => Sys2Proof.Machine.execVeAdd sc ctx m s
  | .veSub sc ctx m => Sys2Proof.Machine.execVeSub sc ctx m s
  | .veMul sc ctx m => Sys2Proof.Machine.execVeMul sc ctx m s
  | .veFma sc ctx m => Sys2Proof.Machine.execVeFma sc ctx m s
  | .veMin sc ctx m => Sys2Proof.Machine.execVeMin sc ctx m s
  | .veMax sc ctx m => Sys2Proof.Machine.execVeMax sc ctx m s
  | .veAbs sc ctx m => Sys2Proof.Machine.execVeAbs sc ctx m s
  | .veNeg sc ctx m => Sys2Proof.Machine.execVeNeg sc ctx m s
  | .veDiv sc ctx m => Sys2Proof.Machine.execVeDiv sc ctx m s
  | .veExpo sc ctx m => Sys2Proof.Machine.execVeExpo sc ctx m s
  | .veScalb sc ctx m => Sys2Proof.Machine.execVeScalb sc ctx m s
  | .veRcp sc ctx m => Sys2Proof.Machine.execVeRcp sc ctx m s
  | .veRsqrt sc ctx m => Sys2Proof.Machine.execVeRsqrt sc ctx m s
  | .veSqrt sc ctx m => Sys2Proof.Machine.execVeSqrt sc ctx m s
  | .veExp2 sc ctx m => Sys2Proof.Machine.execVeExp2 sc ctx m s
  | .veLog2 sc ctx m => Sys2Proof.Machine.execVeLog2 sc ctx m s
  | .veTanh sc ctx m => Sys2Proof.Machine.execVeTanh sc ctx m s
  | .veRelu sc ctx m => Sys2Proof.Machine.execVeRelu sc ctx m s
  | .veGeluTanh sc ctx m => Sys2Proof.Machine.execVeGeluTanh sc ctx m s
  | .veSilu sc ctx m => Sys2Proof.Machine.execVeSilu sc ctx m s
  | .veSigmoid sc ctx m => Sys2Proof.Machine.execVeSigmoid sc ctx m s
  | .veCmpeq sc ctx m => Sys2Proof.Machine.execVeCmpeq sc ctx m s
  | .veCmplt sc ctx m => Sys2Proof.Machine.execVeCmplt sc ctx m s
  | .veCmple sc ctx m => Sys2Proof.Machine.execVeCmple sc ctx m s
  | .veCmpun sc ctx m => Sys2Proof.Machine.execVeCmpun sc ctx m s
  | .veSel sc ctx m => Sys2Proof.Machine.execVeSel sc ctx m s
  | .veCvt sc ctx m => Sys2Proof.Machine.execVeCvt sc ctx m s
  | .veAttrf sc ctx m => Sys2Proof.Machine.execVeAttrf sc ctx m s
  | .veAnd sc ctx m => Sys2Proof.Machine.execVeAnd sc ctx m s
  | .veOr sc ctx m => Sys2Proof.Machine.execVeOr sc ctx m s
  | .veXor sc ctx m => Sys2Proof.Machine.execVeXor sc ctx m s
  | .veShl sc ctx m => Sys2Proof.Machine.execVeShl sc ctx m s
  | .veShr sc ctx m => Sys2Proof.Machine.execVeShr sc ctx m s
  | .veShfx sc ctx m => Sys2Proof.Machine.execVeShfx sc ctx m s
  | .veShfi sc ctx m => Sys2Proof.Machine.execVeShfi sc ctx m s
  | .veBcastl sc ctx m => Sys2Proof.Machine.execVeBcastl sc ctx m s
  | .veXmac sc ctx m => Sys2Proof.Machine.execVeXmac sc ctx m s
  | .veXclose sc ctx m => Sys2Proof.Machine.execVeXclose sc ctx m s
  | .veLdl sc ctx m => Sys2Proof.Machine.execVeLdl sc ctx m s
  | .veStl sc ctx m => Sys2Proof.Machine.execVeStl sc ctx m s
  | .streamIn sc ste prog desc => Sys2Proof.Machine.execStreamIn sc ste prog desc s
  | .streamOut sc ste prog desc => Sys2Proof.Machine.execStreamOut sc ste prog desc s
  | .streamCopy sc ste prog desc => Sys2Proof.Machine.execStreamCopy sc ste prog desc s
  | .mcastIn sc ste prog desc => Sys2Proof.Machine.execMcastIn sc ste prog desc s
  | .apSeti sc id => Sys2Proof.Machine.execApSeti sc id s
  | .apAddi sc id => Sys2Proof.Machine.execApAddi sc id s
  | .apAdd sc id => Sys2Proof.Machine.execApAdd sc id s
  | .apMuli sc id => Sys2Proof.Machine.execApMuli sc id s
  | .apShri sc id => Sys2Proof.Machine.execApShri sc id s
  | .apAndi sc id => Sys2Proof.Machine.execApAndi sc id s
  | .apCtr sc id => Sys2Proof.Machine.execApCtr sc id s
  | .apLoop sc id => Sys2Proof.Machine.execApLoop sc id s
  | .apEndl sc id => Sys2Proof.Machine.execApEndl sc id s
  | .apIdx sc id => Sys2Proof.Machine.execApIdx sc id s
  | .apLdm sc id => Sys2Proof.Machine.execApLdm sc id s
  | .ldmReturn sc id => Sys2Proof.Machine.execLdmReturn sc id s
  | .apXfer sc id => Sys2Proof.Machine.execApXfer sc id s
  | .apXfera sc id => Sys2Proof.Machine.execApXfera sc id s
  | .apSlot sc id => Sys2Proof.Machine.execApSlot sc id s
  | .apFence sc id => Sys2Proof.Machine.execApFence sc id s
  | .apEnd sc id => Sys2Proof.Machine.execApEnd sc id s
  | .transferComplete sc x => Sys2Proof.Machine.execTransferComplete sc x s
  | .addI32 own b a operand => Sys2Proof.Machine.execAddI32 own b a operand s
  | .addI64 own b a operand => Sys2Proof.Machine.execAddI64 own b a operand s
  | .addF32 own b a operand => Sys2Proof.Machine.execAddF32 own b a operand s
  | .addBf16 own b a operand => Sys2Proof.Machine.execAddBf16 own b a operand s
  | .nmaOr own b a operand => Sys2Proof.Machine.execNmaOr own b a operand s
  | .nmaAnd own b a operand => Sys2Proof.Machine.execNmaAnd own b a operand s
  | .maxU64 own b a operand => Sys2Proof.Machine.execMaxU64 own b a operand s
  | .maxI32 own b a operand => Sys2Proof.Machine.execMaxI32 own b a operand s
  | .maxF32 own b a operand => Sys2Proof.Machine.execMaxF32 own b a operand s
  | .taddF32 own b a n operand => Sys2Proof.Machine.execTaddF32 own b a n operand s
  | .tskip own b a n => Sys2Proof.Machine.execTskip own b a n s
  | .treset own b a n => Sys2Proof.Machine.execTreset own b a n s
  | .retrainTrigger chan kind => Sys2Proof.Machine.execRetrainTrigger chan kind s
  | .oscillatorDriftSample chan drift limit => Sys2Proof.Machine.execOscillatorDriftSample chan drift limit s
  | .retrainWindowStart chan => Sys2Proof.Machine.execRetrainWindowStart chan s
  | .retrainDrainDone chan => Sys2Proof.Machine.execRetrainDrainDone chan s
  | .retrainTrainingDone chan bad => Sys2Proof.Machine.execRetrainTrainingDone chan bad s
  | .retrainWindowExpiry chan restored => Sys2Proof.Machine.execRetrainWindowExpiry chan restored s
  | .journalReplayDone chan => Sys2Proof.Machine.execJournalReplayDone chan s
  | .rowRebuild chan row => Sys2Proof.Machine.execRowRebuild chan row s
  | .stripeEntryLapse group row => Sys2Proof.Machine.execStripeEntryLapse group row s
  | .uncorrectableRowRepair chan row read rebuilt => Sys2Proof.Machine.execUncorrectableRowRepair chan row read rebuilt s
  | .laneFailure chan lane => Sys2Proof.Machine.execLaneFailure chan lane s
  | .patrolScrub chan row read rebuilt => Sys2Proof.Machine.execPatrolScrub chan row read rebuilt s
  | .failedChannelRebuild chan rows => Sys2Proof.Machine.execFailedChannelRebuild chan rows s
  | .refreshSampleL package rate isOver => Sys2Proof.Machine.execRefreshSampleL package rate isOver s
  | .refreshSampleF stack temp isOver => Sys2Proof.Machine.execRefreshSampleF stack temp isOver s
  | .wcbFlush chan key => Sys2Proof.Machine.execWcbFlush chan key s
  | .placementPeriodEnd b => Sys2Proof.Machine.execPlacementPeriodEnd b s
  | .placementFillDone ix unit => Sys2Proof.Machine.execPlacementFillDone ix unit s
  | .placementSpaceRelease b fAddr => Sys2Proof.Machine.execPlacementSpaceRelease b fAddr s
  | .mergePass ix lost => Sys2Proof.Machine.execMergePass ix lost s
  | .compactionPass ix n => Sys2Proof.Machine.execCompactionPass ix n s
  | .slotFreeRelease ix n => Sys2Proof.Machine.execSlotFreeRelease ix n s
  | .rewrite ix unit part reencode newCap => Sys2Proof.Machine.execRewrite ix unit part reencode newCap s
  | .prevCopyFree ix unit => Sys2Proof.Machine.execPrevCopyFree ix unit s
  | .rewriteRetry ix unit => Sys2Proof.Machine.execRewriteRetry ix unit s
  | .codebookFree ix => Sys2Proof.Machine.execCodebookFree ix s
  | .settleSweep ix => Sys2Proof.Machine.execSettleSweep ix s
  | .idMapTidy ix b => Sys2Proof.Machine.execIdMapTidy ix b s
  | .deltaTailAdvance ix => Sys2Proof.Machine.execDeltaTailAdvance ix s
  | .jobStep no => Sys2Proof.Machine.execJobStep no s
  | .checkpoint no => Sys2Proof.Machine.execCheckpoint no s
  | .jobPublish no => Sys2Proof.Machine.execJobPublish no s
  | .mailboxTailWrite f v => Sys2Proof.Machine.execMailboxTailWrite f v s
  | .mailboxHeadWrite f v => Sys2Proof.Machine.execMailboxHeadWrite f v s
  | .mailboxRequestWrite f off bs => Sys2Proof.Machine.execMailboxRequestWrite f off bs s
  | .sidebandRequest req data secured => Sys2Proof.Machine.execSidebandRequest req data secured s
  | .spdmRequest r => Sys2Proof.Machine.execSpdmRequest r s
  | .adminRequestStart => Sys2Proof.Machine.execAdminRequestStart s
  | .shedWindowEnd load => Sys2Proof.Machine.execShedWindowEnd load s
  | .identify mb slot io => Sys2Proof.Machine.execIdentify mb slot io s
  | .getLogPage mb slot io => Sys2Proof.Machine.execGetLogPage mb slot io s
  | .getFeature mb slot io => Sys2Proof.Machine.execGetFeature mb slot io s
  | .setFeature mb slot => Sys2Proof.Machine.execSetFeature mb slot s
  | .asyncEventRequest mb slot => Sys2Proof.Machine.execAsyncEventRequest mb slot s
  | .createQp mb slot io => Sys2Proof.Machine.execCreateQp mb slot io s
  | .deleteQp mb slot => Sys2Proof.Machine.execDeleteQp mb slot s
  | .configureFunction mb slot => Sys2Proof.Machine.execConfigureFunction mb slot s
  | .reset mb slot => Sys2Proof.Machine.execReset mb slot s
  | .writeGeometry mb slot io => Sys2Proof.Machine.execWriteGeometry mb slot io s
  | .geometryDeferred => Sys2Proof.Machine.execGeometryDeferred s
  | .setBurgeeKeys mb slot => Sys2Proof.Machine.execSetBurgeeKeys mb slot s
  | .createIndex mb slot io => Sys2Proof.Machine.execCreateIndex mb slot io s
  | .deleteIndex mb slot => Sys2Proof.Machine.execDeleteIndex mb slot s
  | .loadFilter mb slot io => Sys2Proof.Machine.execLoadFilter mb slot io s
  | .unloadFilter mb slot => Sys2Proof.Machine.execUnloadFilter mb slot s
  | .loadTransform mb slot io => Sys2Proof.Machine.execLoadTransform mb slot io s
  | .loadAdapter mb slot io => Sys2Proof.Machine.execLoadAdapter mb slot io s
  | .loadModel mb slot io => Sys2Proof.Machine.execLoadModel mb slot io s
  | .unloadModel mb slot => Sys2Proof.Machine.execUnloadModel mb slot s
  | .stageData mb slot io => Sys2Proof.Machine.execStageData mb slot io s
  | .retrainChannel mb slot => Sys2Proof.Machine.execRetrainChannel mb slot s
  | .submitJob mb slot io => Sys2Proof.Machine.execSubmitJob mb slot io s
  | .stopJob mb slot => Sys2Proof.Machine.execStopJob mb slot s
  | .resumeJob mb slot => Sys2Proof.Machine.execResumeJob mb slot s
  | .publishJob mb slot => Sys2Proof.Machine.execPublishJob mb slot s
  | .discardJob mb slot => Sys2Proof.Machine.execDiscardJob mb slot s
  | .selfTest mb slot => Sys2Proof.Machine.execSelfTest mb slot s
  | .abortSelfTest mb slot => Sys2Proof.Machine.execAbortSelfTest mb slot s
  | .segmentStart test res => Sys2Proof.Machine.execSegmentStart test res s
  | .segmentYield test res => Sys2Proof.Machine.execSegmentYield test res s
  | .segmentDone test res pass repaired subtest detail => Sys2Proof.Machine.execSegmentDone test res pass repaired subtest detail s
  | .format mb slot => Sys2Proof.Machine.execFormat mb slot s
  | .sanitise mb slot => Sys2Proof.Machine.execSanitise mb slot s
  | .sanitiseProgress => Sys2Proof.Machine.execSanitiseProgress s
  | .sanitiseComplete => Sys2Proof.Machine.execSanitiseComplete s
  | .sanitiseFailure => Sys2Proof.Machine.execSanitiseFailure s
  | .fwDownload mb slot io => Sys2Proof.Machine.execFwDownload mb slot io s
  | .fwCommit mb slot => Sys2Proof.Machine.execFwCommit mb slot s
  | .fwActivate mb slot => Sys2Proof.Machine.execFwActivate mb slot s
  | .shadowReady => Sys2Proof.Machine.execShadowReady s
  | .probationEnd => Sys2Proof.Machine.execProbationEnd s
  | .fwRollback mb slot => Sys2Proof.Machine.execFwRollback mb slot s
  | .bootHealthTimeout => Sys2Proof.Machine.execBootHealthTimeout s
  | .writeCounted mb slot => Sys2Proof.Machine.execWriteCounted mb slot s
  | .debugUnlock mb slot io => Sys2Proof.Machine.execDebugUnlock mb slot io s
  | .shoalForm mb slot io => Sys2Proof.Machine.execShoalForm mb slot io s
  | .shoalJoin mb slot io => Sys2Proof.Machine.execShoalJoin mb slot io s
  | .shoalLeave mb slot io => Sys2Proof.Machine.execShoalLeave mb slot io s
  | .shoalSetRoles mb slot io => Sys2Proof.Machine.execShoalSetRoles mb slot io s
  | .shoalCreateIndex mb slot io => Sys2Proof.Machine.execShoalCreateIndex mb slot io s
  | .shoalMoveCells mb slot io => Sys2Proof.Machine.execShoalMoveCells mb slot io s
  | .linkControl mb slot => Sys2Proof.Machine.execLinkControl mb slot s
  | .linkBringUp link p0 p1 partnerFull delay active => Sys2Proof.Machine.execLinkBringUp link p0 p1 partnerFull delay active s
  | .linkTrainTimeout link => Sys2Proof.Machine.execLinkTrainTimeout link s
  | .hailSend link lane => Sys2Proof.Machine.execHailSend link lane s
  | .hailReceived link payload => Sys2Proof.Machine.execHailReceived link payload s
  | .marginWindow link lane worst uncorrectable => Sys2Proof.Machine.execMarginWindow link lane worst uncorrectable s
  | .laneRetrainDone link lane probe => Sys2Proof.Machine.execLaneRetrainDone link lane probe s
  | .txeq link lane change => Sys2Proof.Machine.execTxeq link lane change s
  | .replayReq link seq => Sys2Proof.Machine.execReplayReq link seq s
  | .keepaliveSend link lane => Sys2Proof.Machine.execKeepaliveSend link lane s
  | .keepaliveMissed link => Sys2Proof.Machine.execKeepaliveMissed link s
  | .lossOfSignal link lanes => Sys2Proof.Machine.execLossOfSignal link lanes s
  | .entryRequest src tag resent payload => Sys2Proof.Machine.execEntryRequest src tag resent payload s
  | .entryReply src tag resent payload => Sys2Proof.Machine.execEntryReply src tag resent payload s
  | .shardTask src tag resent payload => Sys2Proof.Machine.execShardTask src tag resent payload s
  | .shardList src tag resent payload => Sys2Proof.Machine.execShardList src tag resent payload s
  | .refineRequest src tag resent payload => Sys2Proof.Machine.execRefineRequest src tag resent payload s
  | .refineReply src tag resent payload => Sys2Proof.Machine.execRefineReply src tag resent payload s
  | .cancel src tag resent payload => Sys2Proof.Machine.execCancel src tag resent payload s
  | .cancelHoldExpiry owner tag => Sys2Proof.Machine.execCancelHoldExpiry owner tag s
  | .writeForward src tag resent payload => Sys2Proof.Machine.execWriteForward src tag resent payload s
  | .writeReply src tag resent payload => Sys2Proof.Machine.execWriteReply src tag resent payload s
  | .writeForwardResend tag => Sys2Proof.Machine.execWriteForwardResend tag s
  | .getForward src tag resent payload => Sys2Proof.Machine.execGetForward src tag resent payload s
  | .getReply src tag resent payload => Sys2Proof.Machine.execGetReply src tag resent payload s
  | .assign src tag resent payload => Sys2Proof.Machine.execAssign src tag resent payload s
  | .assignReply src tag resent payload => Sys2Proof.Machine.execAssignReply src tag resent payload s
  | .ship src tag resent payload => Sys2Proof.Machine.execShip src tag resent payload s
  | .shipReply src tag resent payload => Sys2Proof.Machine.execShipReply src tag resent payload s
  | .mirror src tag resent payload => Sys2Proof.Machine.execMirror src tag resent payload s
  | .mirrorReply src tag resent payload => Sys2Proof.Machine.execMirrorReply src tag resent payload s
  | .train src tag resent payload => Sys2Proof.Machine.execTrain src tag resent payload s
  | .trainReply src tag resent payload => Sys2Proof.Machine.execTrainReply src tag resent payload s
  | .directory src tag resent payload => Sys2Proof.Machine.execDirectory src tag resent payload s
  | .notice src tag resent payload => Sys2Proof.Machine.execNotice src tag resent payload s
  | .probe src tag resent payload => Sys2Proof.Machine.execProbe src tag resent payload s
  | .deviceLost dev => Sys2Proof.Machine.execDeviceLost dev s
  | .holderIsolation => Sys2Proof.Machine.execHolderIsolation s
  | .restoreComplete dev => Sys2Proof.Machine.execRestoreComplete dev s
  | .fnDelSizeWrite f v => Sys2Proof.Machine.execFnDelSizeWrite f v s
  | .fnDelHeadWrite f v => Sys2Proof.Machine.execFnDelHeadWrite f v s
  | .fnEventStatusWrite f v => Sys2Proof.Machine.execFnEventStatusWrite f v s
  | .fnEventMaskWrite f v => Sys2Proof.Machine.execFnEventMaskWrite f v s
  | .sbAlertStatusWrite bs pecOk => Sys2Proof.Machine.execSbAlertStatusWrite bs pecOk s
  | .sbAlertMaskWrite bs pecOk => Sys2Proof.Machine.execSbAlertMaskWrite bs pecOk s
  | .smbusAlertResponse => Sys2Proof.Machine.execSmbusAlertResponse s
  | .bar0SplitRead f off => Sys2Proof.Machine.execBar0SplitRead f off s
  | .bar2Access f off n write => Sys2Proof.Machine.execBar2Access f off n write s
  | .registerWrite f off bs => Sys2Proof.Machine.execRegisterWrite f off bs s
  | .ltOff fn link pattern rate lanes => Sys2Proof.Machine.execLtOff fn link pattern rate lanes s
  | .ltNearSerial fn link pattern rate lanes seen => Sys2Proof.Machine.execLtNearSerial fn link pattern rate lanes seen s
  | .ltNearParallel fn link pattern rate lanes seen => Sys2Proof.Machine.execLtNearParallel fn link pattern rate lanes seen s
  | .ltTxOnly fn link pattern rate lanes => Sys2Proof.Machine.execLtTxOnly fn link pattern rate lanes s
  | .ltRxOnly fn link pattern rate lanes seen => Sys2Proof.Machine.execLtRxOnly fn link pattern rate lanes seen s
  | .tapReset => Sys2Proof.Machine.execTapReset s
  | .extest scan => Sys2Proof.Machine.execExtest scan s
  | .samplePreload scan => Sys2Proof.Machine.execSamplePreload scan s
  | .idcode => Sys2Proof.Machine.execIdcode s
  | .clamp scan => Sys2Proof.Machine.execClamp scan s
  | .highz scan => Sys2Proof.Machine.execHighz scan s
  | .extestPulse scan => Sys2Proof.Machine.execExtestPulse scan s
  | .extestTrain scan => Sys2Proof.Machine.execExtestTrain scan s
  | .bypass => Sys2Proof.Machine.execBypass s
  | .debugAccess => Sys2Proof.Machine.execDebugAccess s
  | .debugRead busy path addr => Sys2Proof.Machine.execDebugRead busy path addr s
  | .debugWrite busy path addr data seen => Sys2Proof.Machine.execDebugWrite busy path addr data seen s
  | .debugMpCommand busy cmd addr => Sys2Proof.Machine.execDebugMpCommand busy cmd addr s
  | .telemetrySnapshot group => Sys2Proof.Machine.execTelemetrySnapshot group s
  | .tokenBucketRefill => Sys2Proof.Machine.execTokenBucketRefill s
  | .remoteWaitAllowanceExpiry tag => Sys2Proof.Machine.execRemoteWaitAllowanceExpiry tag s
  | .flitReceipt link fec flit => Sys2Proof.Machine.execFlitReceipt link fec flit s
  | .railReturn rail mv => Sys2Proof.Machine.execRailReturn rail mv s
  | .vauxPowerUp smbAddr => Sys2Proof.Machine.execVauxPowerUp smbAddr s
  | .vauxRemoved => Sys2Proof.Machine.execVauxRemoved s

end Sys2Proof.Machine
end

