-- ==== Sys2Proof/Machine/Idle.lean ====
section
/-! DEFINITION. What passes while no command waits: the timebase counts (R337, R508). -/

namespace Sys2Proof.Machine

/-- One nanosecond of the timebase, which needs the reference clock of the memory PHYs and stands still while a COLD reset is held (R337,
R508, R552; DESIGN CHOICE, log entry 5). -/
def Device.idle (d : Device) : Device :=
  if d.aon.vaux && d.aon.memrefOk && d.phase != .held then { d with now := d.now + 1 } else d

end Sys2Proof.Machine
end

