-- ==== Sys2Proof/WellFormed.lean ====
section
/-! DEFINITION. Well-formed commands: the operands that name a resource name one the device has. A command that is not well formed
names nothing; the meanings leave the device as it is there. -/

namespace Sys2Proof

/-- A function number, 64n + k for function k of port n (R525). -/
def isFn (f : Nat) : Bool := decide (f < 256)
/-- A queue number of a function (R372, R533). -/
def isQueue (q : Nat) : Bool := decide (q < 1024)
/-- A mailbox: a function's, or 256 for the sideband's (R408). -/
def isMailbox (m : Nat) : Bool := decide (m ≤ 256)
/-- A slot of a mailbox (R408). -/
def isSlot (s : Nat) : Bool := decide (s < 32)
/-- An SC (R20). -/
def isSc (n : Nat) : Bool := decide (n < 64)
/-- An STE of an SC (R241). -/
def isSte (n : Nat) : Bool := decide (n < 4)
/-- A channel: 17g + p of the L-tier, or 68 + 32x + c of the F-tier (R573). -/
def isChannel (c : Nat) : Bool := decide (c < 196)
/-- A Swiold Link (R442). -/
def isLink (l : Nat) : Bool := decide (l < 32)
/-- A lane of a link (R442). -/
def isLane (l : Nat) : Bool := decide (l < 2)
/-- A mask of a link's lanes (R572). -/
def isLaneMask (m : Nat) : Bool := decide (m < 4)
/-- An index number: the directory has 1,024 records (R77). -/
def isIndex (i : Nat) : Bool := decide (i < 1024)
/-- A burgee (R342). -/
def isBurgee (b : Nat) : Bool := decide (b < 16)
/-- An address of the 48-bit internal address space (R304). -/
def isAddress (a : Nat) : Bool := decide (a < 2 ^ 48)
/-- A half, or its MP (R20, R33). -/
def isHalf (h : Nat) : Bool := decide (h < 2)
/-- A rail, in the row order of R480. -/
def isRail (r : Nat) : Bool := decide (r < 11)
/-- A host port (R366). -/
def isPort (p : Nat) : Bool := decide (p < 4)
/-- A quad of links (R442). -/
def isQuad (m : Nat) : Bool := decide (m < 16)
/-- The strapped SMBus address (R535). -/
def isSmbAddr (a : Nat) : Bool := decide (a < 4)
/-- A device number of a shoal: 256s + p (R458). -/
def isDevice (n : Nat) : Bool := decide (n < 512)
/-- An HBM4 stack (R308). -/
def isStack (s : Nat) : Bool := decide (s < 4)
/-- An L-tier package site (R313). -/
def isPackage (p : Nat) : Bool := decide (p < 17)
/-- A counter group of the TELEMETRY page (R575). -/
def isCounterGroup (g : Nat) : Bool := decide (1 ≤ g) && decide (g ≤ 4)
/-- An L-tier parity group (R542). -/
def isParityGroup (g : Nat) : Bool := decide (g < 4)
/-- A self-test segment's test (R571). -/
def isSegment (t : Nat) : Bool := decide (1 ≤ t) && decide (t ≤ 5)
/-- A stage of a search: 1 for A to 4 for D (R118). -/
def isStage (s : Nat) : Bool := decide (1 ≤ s) && decide (s ≤ 4)
/-- An offset of BAR2 (R307). -/
def isBar2Offset (o : Nat) : Bool := decide (o < 2 ^ 36)
/-- An offset of PF BAR0 (R504). -/
def isBar0Offset (o : Nat) : Bool := decide (o < 0x802000)
/-- A flit's length (R448). -/
def isFlit (bs : List Byte) : Bool := decide (bs.length = 256)
/-- A HAIL payload's length (R446). -/
def isHail (bs : List Byte) : Bool := decide (bs.length ≤ 256)
/-- A message's payload length (R451). -/
def isPayload (bs : List Byte) : Bool := decide (bs.length ≤ 65536)
/-- A boundary scan names cells of the boundary register (R566). -/
def isScan (b : BScan) : Bool := b.pins.all (fun p => decide (p.1 < 5803)) && b.load.all fun p => decide (p.1 < 5803)

/-- A command is well formed. -/
def Instr.wellFormed (i : Instr) : Bool :=
  match i with
  | .sysPwrokRise => true
  | .sysPwrokFall => true
  | .coldReset => true
  | .warmReset => true
  | .warmDrainDone _ _ => true
  | .mpReset mp => isHalf mp
  | .resetHoldRelease => true
  | .startUp _ => true
  | .railFault rail _ => isRail rail
  | .vcoreWarningCrossing half _ => isHalf half
  | .supplyWarnAssert _ => true
  | .vcoreResetLevel half _ => isHalf half
  | .brownoutRecovery _ _ => true
  | .brownoutEpisodeEnd _ _ => true
  | .quiesce _ => true
  | .quiesceEnd _ _ => true
  | .thermalTrip _ => true
  | .thermalTick _ _ => true
  | .powerSample _ _ _ _ => true
  | .envelopeTick => true
  | .avlTick half _ _ _ => isHalf half
  | .paceDeficit half => isHalf half
  | .paceDeficitDegraded half => isHalf half
  | .paceRestored half => isHalf half
  | .memrefclkLoss => true
  | .memrefclkReturn => true
  | .peRefclkLoss => true
  | .qclkLoss m => isQuad m
  | .qclkReturn m => isQuad m
  | .healthWordWrite mp _ => isHalf mp
  | .holderFailure => true
  | .doubleClaim => true
  | .ensignFenceEnd => true
  | .shadowFailure => true
  | .ensignVacant => true
  | .sqTailDoorbell f q _ => isFn f && isQueue q
  | .cqHeadDoorbell f q _ => isFn f && isQueue q
  | .sqeFetch f q _ => isFn f && isQueue q
  | .search _ => true
  | .msearch _ => true
  | .range _ => true
  | .get _ => true
  | .insert _ => true
  | .upsert _ => true
  | .delete _ => true
  | .attrSet _ => true
  | .fence _ => true
  | .writeAcceptance _ => true
  | .writeCompletion _ => true
  | .fenceCompletion _ => true
  | .interruptCoalesceTimer f q => isFn f && isQueue q
  | .hostLoss p => isPort p
  | .portRetrain p => isPort p
  | .busMasterEnableClear f => isFn f
  | .busMasterEnableSet f => isFn f
  | .functionLevelReset f => isFn f
  | .hoistBoundary b => isBurgee b
  | .stageStart _ stage => isStage stage
  | .dipPointSchedule sc _ _ _ _ => isSc sc
  | .spillDone sc => isSc sc
  | .contextFill _ => true
  | .unitEnd _ _ _ _ => true
  | .foldStep _ _ => true
  | .finalSelection _ => true
  | .deadlineCut _ => true
  | .remoteListsClose _ => true
  | .lockstepMismatch _ _ _ => true
  | .tagMismatch sc _ fAddr => isSc sc && fAddr.all isAddress
  | .uncorrectableRead sc _ => isSc sc
  | .transferTimeout sc _ => isSc sc
  | .tagLimitedExit sc ste => isSc sc && isSte ste
  | .progressSample sc => isSc sc
  | .remoteReplyArrival src _ _ => isDevice src
  | .backgroundReplyTimeout _ => true
  | .meScore sc _ => isSc sc
  | .meTable sc _ => isSc sc
  | .meDense sc _ => isSc sc
  | .meTrain sc _ => isSc sc
  | .scanPq sc _ => isSc sc
  | .scanHam sc _ => isSc sc
  | .gatherPq sc _ => isSc sc
  | .gatherHam sc _ => isSc sc
  | .walkLevel0 sc _ => isSc sc
  | .walkCentroid sc _ => isSc sc
  | .walkUpperDescent sc _ => isSc sc
  | .expansionCommit sc _ _ => isSc sc
  | .fuSlotBlock sc _ => isSc sc
  | .fuDelta sc _ => isSc sc
  | .fuNodeRecords sc _ => isSc sc
  | .fuCellSummaries sc _ => isSc sc
  | .veRun sc _ _ => isSc sc
  | .veMov sc _ _ => isSc sc
  | .veAdd sc _ _ => isSc sc
  | .veSub sc _ _ => isSc sc
  | .veMul sc _ _ => isSc sc
  | .veFma sc _ _ => isSc sc
  | .veMin sc _ _ => isSc sc
  | .veMax sc _ _ => isSc sc
  | .veAbs sc _ _ => isSc sc
  | .veNeg sc _ _ => isSc sc
  | .veDiv sc _ _ => isSc sc
  | .veExpo sc _ _ => isSc sc
  | .veScalb sc _ _ => isSc sc
  | .veRcp sc _ _ => isSc sc
  | .veRsqrt sc _ _ => isSc sc
  | .veSqrt sc _ _ => isSc sc
  | .veExp2 sc _ _ => isSc sc
  | .veLog2 sc _ _ => isSc sc
  | .veTanh sc _ _ => isSc sc
  | .veRelu sc _ _ => isSc sc
  | .veGeluTanh sc _ _ => isSc sc
  | .veSilu sc _ _ => isSc sc
  | .veSigmoid sc _ _ => isSc sc
  | .veCmpeq sc _ _ => isSc sc
  | .veCmplt sc _ _ => isSc sc
  | .veCmple sc _ _ => isSc sc
  | .veCmpun sc _ _ => isSc sc
  | .veSel sc _ _ => isSc sc
  | .veCvt sc _ _ => isSc sc
  | .veAttrf sc _ _ => isSc sc
  | .veAnd sc _ _ => isSc sc
  | .veOr sc _ _ => isSc sc
  | .veXor sc _ _ => isSc sc
  | .veShl sc _ _ => isSc sc
  | .veShr sc _ _ => isSc sc
  | .veShfx sc _ _ => isSc sc
  | .veShfi sc _ _ => isSc sc
  | .veBcastl sc _ _ => isSc sc
  | .veXmac sc _ _ => isSc sc
  | .veXclose sc _ _ => isSc sc
  | .veLdl sc _ _ => isSc sc
  | .veStl sc _ _ => isSc sc
  | .streamIn sc ste _ _ => isSc sc && isSte ste
  | .streamOut sc ste _ _ => isSc sc && isSte ste
  | .streamCopy sc ste _ _ => isSc sc && isSte ste
  | .mcastIn sc ste _ _ => isSc sc && isSte ste
  | .apSeti sc _ => isSc sc
  | .apAddi sc _ => isSc sc
  | .apAdd sc _ => isSc sc
  | .apMuli sc _ => isSc sc
  | .apShri sc _ => isSc sc
  | .apAndi sc _ => isSc sc
  | .apCtr sc _ => isSc sc
  | .apLoop sc _ => isSc sc
  | .apEndl sc _ => isSc sc
  | .apIdx sc _ => isSc sc
  | .apLdm sc _ => isSc sc
  | .ldmReturn sc _ => isSc sc
  | .apXfer sc _ => isSc sc
  | .apXfera sc _ => isSc sc
  | .apSlot sc _ => isSc sc
  | .apFence sc _ => isSc sc
  | .apEnd sc _ => isSc sc
  | .transferComplete sc _ => isSc sc
  | .addI32 _ b a _ => isBurgee b && isAddress a
  | .addI64 _ b a _ => isBurgee b && isAddress a
  | .addF32 _ b a _ => isBurgee b && isAddress a
  | .addBf16 _ b a _ => isBurgee b && isAddress a
  | .nmaOr _ b a _ => isBurgee b && isAddress a
  | .nmaAnd _ b a _ => isBurgee b && isAddress a
  | .maxU64 _ b a _ => isBurgee b && isAddress a
  | .maxI32 _ b a _ => isBurgee b && isAddress a
  | .maxF32 _ b a _ => isBurgee b && isAddress a
  | .taddF32 _ b a _ _ => isBurgee b && isAddress a
  | .tskip _ b a _ => isBurgee b && isAddress a
  | .treset _ b a _ => isBurgee b && isAddress a
  | .retrainTrigger chan _ => isChannel chan
  | .oscillatorDriftSample chan _ _ => isChannel chan
  | .retrainWindowStart chan => isChannel chan
  | .retrainDrainDone chan => isChannel chan
  | .retrainTrainingDone chan _ => isChannel chan
  | .retrainWindowExpiry chan _ => isChannel chan
  | .journalReplayDone chan => isChannel chan
  | .rowRebuild chan _ => isChannel chan
  | .stripeEntryLapse group _ => isParityGroup group
  | .uncorrectableRowRepair chan _ _ _ => isChannel chan
  | .laneFailure chan _ => isChannel chan
  | .patrolScrub chan _ _ _ => isChannel chan
  | .failedChannelRebuild chan _ => isChannel chan
  | .refreshSampleL package _ _ => isPackage package
  | .refreshSampleF stack _ _ => isStack stack
  | .wcbFlush chan _ => isChannel chan
  | .placementPeriodEnd b => isBurgee b
  | .placementFillDone i _ => isIndex i
  | .placementSpaceRelease b fAddr => isBurgee b && isAddress fAddr
  | .mergePass i _ => isIndex i
  | .compactionPass i _ => isIndex i
  | .slotFreeRelease i _ => isIndex i
  | .rewrite i _ _ _ _ => isIndex i
  | .prevCopyFree i _ => isIndex i
  | .rewriteRetry i _ => isIndex i
  | .codebookFree i => isIndex i
  | .settleSweep i => isIndex i
  | .idMapTidy i _ => isIndex i
  | .deltaTailAdvance i => isIndex i
  | .jobStep _ => true
  | .checkpoint _ => true
  | .jobPublish _ => true
  | .mailboxTailWrite f _ => isFn f
  | .mailboxHeadWrite f _ => isFn f
  | .mailboxRequestWrite f _ _ => isFn f
  | .sidebandRequest _ _ _ => true
  | .spdmRequest _ => true
  | .adminRequestStart => true
  | .shedWindowEnd _ => true
  | .identify mb slot _ => isMailbox mb && isSlot slot
  | .getLogPage mb slot _ => isMailbox mb && isSlot slot
  | .getFeature mb slot _ => isMailbox mb && isSlot slot
  | .setFeature mb slot => isMailbox mb && isSlot slot
  | .asyncEventRequest mb slot => isMailbox mb && isSlot slot
  | .createQp mb slot _ => isMailbox mb && isSlot slot
  | .deleteQp mb slot => isMailbox mb && isSlot slot
  | .configureFunction mb slot => isMailbox mb && isSlot slot
  | .reset mb slot => isMailbox mb && isSlot slot
  | .writeGeometry mb slot _ => isMailbox mb && isSlot slot
  | .geometryDeferred => true
  | .setBurgeeKeys mb slot => isMailbox mb && isSlot slot
  | .createIndex mb slot _ => isMailbox mb && isSlot slot
  | .deleteIndex mb slot => isMailbox mb && isSlot slot
  | .loadFilter mb slot _ => isMailbox mb && isSlot slot
  | .unloadFilter mb slot => isMailbox mb && isSlot slot
  | .loadTransform mb slot _ => isMailbox mb && isSlot slot
  | .loadAdapter mb slot _ => isMailbox mb && isSlot slot
  | .loadModel mb slot _ => isMailbox mb && isSlot slot
  | .unloadModel mb slot => isMailbox mb && isSlot slot
  | .stageData mb slot _ => isMailbox mb && isSlot slot
  | .retrainChannel mb slot => isMailbox mb && isSlot slot
  | .submitJob mb slot _ => isMailbox mb && isSlot slot
  | .stopJob mb slot => isMailbox mb && isSlot slot
  | .resumeJob mb slot => isMailbox mb && isSlot slot
  | .publishJob mb slot => isMailbox mb && isSlot slot
  | .discardJob mb slot => isMailbox mb && isSlot slot
  | .selfTest mb slot => isMailbox mb && isSlot slot
  | .abortSelfTest mb slot => isMailbox mb && isSlot slot
  | .segmentStart test _ => isSegment test
  | .segmentYield test _ => isSegment test
  | .segmentDone test _ _ _ _ _ => isSegment test
  | .format mb slot => isMailbox mb && isSlot slot
  | .sanitise mb slot => isMailbox mb && isSlot slot
  | .sanitiseProgress => true
  | .sanitiseComplete => true
  | .sanitiseFailure => true
  | .fwDownload mb slot _ => isMailbox mb && isSlot slot
  | .fwCommit mb slot => isMailbox mb && isSlot slot
  | .fwActivate mb slot => isMailbox mb && isSlot slot
  | .shadowReady => true
  | .probationEnd => true
  | .fwRollback mb slot => isMailbox mb && isSlot slot
  | .bootHealthTimeout => true
  | .writeCounted mb slot => isMailbox mb && isSlot slot
  | .debugUnlock mb slot _ => isMailbox mb && isSlot slot
  | .shoalForm mb slot _ => isMailbox mb && isSlot slot
  | .shoalJoin mb slot _ => isMailbox mb && isSlot slot
  | .shoalLeave mb slot _ => isMailbox mb && isSlot slot
  | .shoalSetRoles mb slot _ => isMailbox mb && isSlot slot
  | .shoalCreateIndex mb slot _ => isMailbox mb && isSlot slot
  | .shoalMoveCells mb slot _ => isMailbox mb && isSlot slot
  | .linkControl mb slot => isMailbox mb && isSlot slot
  | .linkBringUp link _ _ _ _ _ => isLink link
  | .linkTrainTimeout link => isLink link
  | .hailSend link lane => isLink link && isLane lane
  | .hailReceived link payload => isLink link && isHail payload
  | .marginWindow link lane _ _ => isLink link && isLane lane
  | .laneRetrainDone link lane _ => isLink link && isLane lane
  | .txeq link lane _ => isLink link && isLane lane
  | .replayReq link _ => isLink link
  | .keepaliveSend link lane => isLink link && isLane lane
  | .keepaliveMissed link => isLink link
  | .lossOfSignal link lanes => isLink link && isLaneMask lanes
  | .entryRequest src _ _ payload => isDevice src && isPayload payload
  | .entryReply src _ _ payload => isDevice src && isPayload payload
  | .shardTask src _ _ payload => isDevice src && isPayload payload
  | .shardList src _ _ payload => isDevice src && isPayload payload
  | .refineRequest src _ _ payload => isDevice src && isPayload payload
  | .refineReply src _ _ payload => isDevice src && isPayload payload
  | .cancel src _ _ payload => isDevice src && isPayload payload
  | .cancelHoldExpiry _ _ => true
  | .writeForward src _ _ payload => isDevice src && isPayload payload
  | .writeReply src _ _ payload => isDevice src && isPayload payload
  | .writeForwardResend _ => true
  | .getForward src _ _ payload => isDevice src && isPayload payload
  | .getReply src _ _ payload => isDevice src && isPayload payload
  | .assign src _ _ payload => isDevice src && isPayload payload
  | .assignReply src _ _ payload => isDevice src && isPayload payload
  | .ship src _ _ payload => isDevice src && isPayload payload
  | .shipReply src _ _ payload => isDevice src && isPayload payload
  | .mirror src _ _ payload => isDevice src && isPayload payload
  | .mirrorReply src _ _ payload => isDevice src && isPayload payload
  | .train src _ _ payload => isDevice src && isPayload payload
  | .trainReply src _ _ payload => isDevice src && isPayload payload
  | .directory src _ _ payload => isDevice src && isPayload payload
  | .notice src _ _ payload => isDevice src && isPayload payload
  | .probe src _ _ payload => isDevice src && isPayload payload
  | .deviceLost dev => isDevice dev
  | .holderIsolation => true
  | .restoreComplete dev => isDevice dev
  | .fnDelSizeWrite f _ => isFn f
  | .fnDelHeadWrite f _ => isFn f
  | .fnEventStatusWrite f _ => isFn f
  | .fnEventMaskWrite f _ => isFn f
  | .sbAlertStatusWrite _ _ => true
  | .sbAlertMaskWrite _ _ => true
  | .smbusAlertResponse => true
  | .bar0SplitRead f off => isFn f && isBar0Offset off
  | .bar2Access f off _ _ => isFn f && isBar2Offset off
  | .registerWrite f off _ => isFn f && isBar0Offset off
  | .ltOff fn link _ _ lanes => isFn fn && isLink link && isLaneMask lanes
  | .ltNearSerial fn link _ _ lanes _ => isFn fn && isLink link && isLaneMask lanes
  | .ltNearParallel fn link _ _ lanes _ => isFn fn && isLink link && isLaneMask lanes
  | .ltTxOnly fn link _ _ lanes => isFn fn && isLink link && isLaneMask lanes
  | .ltRxOnly fn link _ _ lanes _ => isFn fn && isLink link && isLaneMask lanes
  | .tapReset => true
  | .extest scan => isScan scan
  | .samplePreload scan => isScan scan
  | .idcode => true
  | .clamp scan => isScan scan
  | .highz scan => isScan scan
  | .extestPulse scan => isScan scan
  | .extestTrain scan => isScan scan
  | .bypass => true
  | .debugAccess => true
  | .debugRead _ _ addr => isAddress addr
  | .debugWrite _ _ addr _ _ => isAddress addr
  | .debugMpCommand _ _ _ => true
  | .telemetrySnapshot group => isCounterGroup group
  | .tokenBucketRefill => true
  | .remoteWaitAllowanceExpiry _ => true
  | .flitReceipt link _ flit => isLink link && isFlit flit
  | .railReturn rail _ => isRail rail
  | .vauxPowerUp smbAddr => isSmbAddr smbAddr
  | .vauxRemoved => true

end Sys2Proof
end

