-- ==== Sys2Proof/Safety.lean ====
section
/-! DEFINITION. The terms claims are stated in: what a command leaves unchanged, and what every step keeps. -/

namespace Sys2Proof.Machine

/-- The outcome of a command is a next state that differs from s in the device alone, by f. -/
def takes (c : Instr) (s : State) (f : Device → Device) : Prop := exec c s = .next { s with dev := f s.dev }

/-- The command answers a next state, which differs from s in the device alone, and of that device P holds. -/
def gives (c : Instr) (s : State) (P : Device → Prop) : Prop := ∃ e, exec c s = .next { s with dev := e } ∧ P e

/-- The last event that reached the sideband mailbox: every device event does (R413). -/
def Device.lastEvent (d : Device) : Option Event := d.sideMb.received.head?.map (·.2)
/-- A device event has reached the sideband mailbox (R413). -/
def Device.raised (d : Device) (e : Event) : Prop := ∃ t, (t, e) ∈ d.sideMb.received
/-- A device event of a type and INFO. -/
def devEvent (type info : Nat) : Event := ⟨type, none, BitVec.ofNat 32 info⟩
/-- INFO of a POWER_THERMAL event (R490). -/
def powerInfo (cause half : Nat) (value : Int) : Nat := cause + at_ 8 half + at_ 16 (twos 16 value)

/-- The device d with what reporting to hosts and to the sideband changes taken from e: mailboxes, function event registers and pending
vectors, what has been sent, its counters, the alert bits, and the count of BUSY_RETRY answers (R413, R414, R527, R537). -/
def Device.told (d e : Device) : Device :=
  { d with fns := e.fns, sideMb := e.sideMb, out := e.out, devCnt := { d.devCnt with msixSent := e.devCnt.msixSent },
           aon := { d.aon with alert := e.aon.alert }, mgmt := { d.mgmt with shed := { d.mgmt.shed with busy := e.mgmt.shed.busy } } }
/-- Of each function, reporting changes the mailbox, the event causes and the pending vectors alone. -/
def Device.fnsTold (d e : Device) : Prop :=
  ∀ f, e.fn f = { d.fn f with mb := (e.fn f).mb, evStatus := (e.fn f).evStatus, pba := (e.fn f).pba }

/-- Of each function, metering changes the account alone (R361). -/
def Device.fnsMetered (d e : Device) : Prop := ∀ f, e.fn f = { d.fn f with account := (e.fn f).account }
/-- Of each function, reporting and metering change the mailbox, the event causes, the pending vectors and the account alone. -/
def Device.fnsSent (d e : Device) : Prop :=
  ∀ f, e.fn f = { d.fn f with mb := (e.fn f).mb, evStatus := (e.fn f).evStatus, pba := (e.fn f).pba, account := (e.fn f).account }
/-- Of each burgee, metering changes the buckets and the accounts alone (R345, R361). -/
def Device.burgeesMetered (d e : Device) : Prop :=
  ∀ b, e.burgee b = { d.burgee b with buckets := (e.burgee b).buckets, bgAccount := (e.burgee b).bgAccount, readback := (e.burgee b).readback }

/-- What a COLD reset clears and what it keeps: nothing of the core is left, every memory byte reads 0 and the timebase counts from 0, while
the fuses, the flash and the record of the supplies stay (R494, R496, R519, R520). -/
def Device.coldFrom (d e : Device) : Prop :=
  e.now = 0 ∧ e.mem = [] ∧ e.tiers = { draws := d.tiers.draws } ∧ e.fns = [] ∧ e.cmds = [] ∧ e.ctxs = [] ∧ e.indexes = [] ∧ e.burgees = [] ∧
    e.jobs = [] ∧ e.models = [] ∧ e.links = [] ∧ e.shoal = {} ∧ e.ens = {} ∧ e.power = {} ∧ e.degraded = 0 ∧ e.quiesced = false ∧
    e.resets = [] ∧ e.mgmt.feat = {} ∧ e.fuses = d.fuses ∧ e.flash = d.flash ∧ e.aon.faults = d.aon.faults ∧
    e.aon.faultSeq = d.aon.faultSeq ∧ e.aon.vaux = d.aon.vaux ∧ e.aon.trip = d.aon.trip ∧ e.aon.smbAddr = d.aon.smbAddr ∧
    e.aon.bo.episodes = d.aon.bo.episodes ∧ e.aon.bo.episode = false ∧ e.aon.bo.frozen = false
/-- The COLD reset is recorded: its cause and rail, and one more in COLD_COUNT (R519). -/
def Device.coldCounted (d e : Device) (cause rail : Nat) : Prop :=
  e.aon.cause = cause ∧ e.aon.causeRail = rail ∧ e.aon.coldCount = min 65535 (d.aon.coldCount + 1)

/-- A completion has been posted on queue pair (f, q): one entry written at the pair's tail, with the command's CID, its status and SPEC, and one
more entry unread (R375, R390). -/
def Device.posted (d e : Device) (f q cid status spec : Nat) : Prop :=
  ∃ p p' bs, d.qp f q = some p ∧ e.qp f q = some p' ∧ p'.unread = p.unread + 1 ∧
    p'.cqTail = (if p.cqTail + 1 = p.cqSize then 0 else p.cqTail + 1) ∧ Emit.hostWrite f (p.cqBase + 32 * p.cqTail) false bs ∈ e.out ∧
    bs.length = 32 ∧ fieldAt bs 0 8 = spec % 2 ^ 64 ∧ fieldAt bs 20 2 = cid % 65536 ∧ fieldAt bs 28 2 = status % 65536
/-- The function's host is there to be written to (R402). -/
abbrev Device.hostThere (d : Device) (f : Nat) : Prop := f < 256 ∧ d.portUp f = true ∧ (d.fn f).bme = true

/-- The next instruction of a running stream is w, of opcode op, and nothing keeps the stream from executing it (R243, R248, R249). -/
abbrev Device.apNext (d : Device) (sc id op : Nat) (t : Stream) (w : W64) : Prop :=
  d.ready = true ∧ d.stream? sc id = some t ∧ (tget [] t.progSlot (d.str sc).progs)[t.pc]? = some w ∧ apOp w = op ∧ t.yielded = false ∧
    t.ended = false ∧ t.ldmWait = false ∧ (t.hasRing = false ∨ t.slot.isSome = true)
/-- One running stream becomes t'; every other stream, every semaphore pair and every transfer stays, and so does the rest of the device. -/
def Device.streamTo (d e : Device) (sc id : Nat) (t' : Stream) : Prop :=
  e.stream? sc id = some t' ∧ (∀ i, i ≠ id → e.stream? sc i = d.stream? sc i) ∧ (∀ k, k ≠ sc → e.str k = d.str k) ∧
    (∀ k, e.sem sc k = d.sem sc k) ∧ (e.str sc).xfers = (d.str sc).xfers ∧ e = { d with streams := e.streams }

/-- What moving semaphore pairs changes beside the streams: who holds a tile buffer (R217, R242). -/
def Device.pairsTo (d e : Device) : Prop :=
  e = { d with streams := e.streams, engines := e.engines } ∧ ∀ k, e.eng k = { d.eng k with tb := (e.eng k).tb } ∧
    ∀ b, tget {} b (e.eng k).tb = { tget {} b (d.eng k).tb with bySte := (tget {} b (e.eng k).tb).bySte }
/-- No descriptor waits for a place on an SC's STEs, and no ring there is to be filled again (R241, R260). -/
abbrev Device.noneWait (d : Device) (sc : Nat) : Prop := (∀ q ∈ (d.str sc).stes, q.waiting = []) ∧ (d.str sc).refills = []
/-- The ME and the CE of an SC keep no descriptor (R191, R195). -/
abbrev Device.enginesFree (d : Device) (sc : Nat) : Prop := (d.eng sc).meNext = none ∧ (d.eng sc).ceNext = none
/-- What reads asked of memory change: charges and counts (R251, R574). -/
def Device.readsCharged (d e : Device) : Prop :=
  e = { d with burgees := e.burgees, fns := e.fns, tiers := e.tiers } ∧ d.fnsMetered e ∧ d.burgeesMetered e

/-- Lane l of a Vector Engine register, in the lanes of a micro-op's TYPE (R216, R218). -/
def Ve.lane (v : Ve) (m : Micro) (r l : Nat) : Nat := (lanesOf (modeOfType m.typ) (tget 0 r v.v)).getD l 0
/-- What a source selector gives a micro-op on lane l (R219). -/
def Ve.source (v : Ve) (m : Micro) (s l : Nat) : Nat := ((({ v with mode := modeOfType m.typ } : Ve).src s).getD []).getD l 0
/-- A source selector gives every lane of a micro-op's TYPE a value (R219). -/
abbrev Ve.gives (v : Ve) (m : Micro) (s : Nat) : Prop :=
  ∃ xs, ({ v with mode := modeOfType m.typ } : Ve).src s = some xs ∧ xs.length = lanesN (modeOfType m.typ)
/-- A micro-op of an opcode keeps the rules of R218 to R220 on an SC, and the sources it reads are there. -/
abbrev Device.veReady (d : Device) (sc op : Nat) (m : Micro) : Prop :=
  let v := (d.eng sc).ve
  sc < 64 ∧ microOk (modeOfType m.typ) op m = true ∧ v.lineOut = [] ∧ (1 ≤ microArity op → v.gives m m.a) ∧ (2 ≤ microArity op → v.gives m m.b) ∧
    (3 ≤ microArity op → v.gives m m.c)
/-- A micro-op has written f l on each lane l that its predicate names, of its destination register or of its output port, and nothing else has
changed but the lane mode in force (R216 to R219). -/
def Device.veWrote (d e : Device) (sc : Nat) (m : Micro) (f : Nat → Nat) : Prop :=
  let w := modeOfType m.typ
  let v := (d.eng sc).ve
  let v' := (e.eng sc).ve
  (m.dst < 32 → (∀ l, l < lanesN w → v'.lane m m.dst l = if v.kBit m.mask l = true then f l % 2 ^ laneBits w else v.lane m m.dst l) ∧
      (∀ r, r ≠ m.dst → tget 0 r v'.v = tget 0 r v.v) ∧ v'.outs = v.outs) ∧
    (¬ m.dst < 32 → tfind (m.dst - 48) v'.outs =
        some ((List.range (lanesN w)).map fun l => if v.kBit m.mask l = true ∧ l < v.tail then some (f l) else none) ∧ v'.v = v.v) ∧
    e.eng sc = { d.eng sc with ve := { v with mode := w, v := v'.v, outs := v'.outs } } ∧ (∀ k, k ≠ sc → e.eng k = d.eng k) ∧
    e = { d with engines := e.engines }

/-- No placed copy of any index mirrors a byte of [a, a + n) (R114). -/
abbrev Device.noCopyIn (d : Device) (a n : Nat) : Prop :=
  ∀ p ∈ d.indexes, (∀ u ∈ (d.burgee p.2.burgee).placed, ∀ t ∈ p.2.copyParts u, t.1 + t.2.1 ≤ a ∨ a + n ≤ t.1) ∧
    ∀ b k, ∀ t ∈ p.2.fixedParts b k, t.2.1 + t.2.2.1 ≤ a ∨ a + n ≤ t.2.1
/-- No placed copy mirrors a write of n bytes at an address: it lies outside the L-tier, or no copy holds a byte of it (R114). -/
abbrev Device.noCopyAt (d : Device) (a n : Nat) : Prop := d.area a ≠ .lTier ∨ d.noCopyIn a n
/-- Index i becomes y; no other index changes, and beside it only what mirrors it: memory, the placed copies and the space they take. -/
def Device.indexTo (d e : Device) (i : Nat) (y : Index) : Prop :=
  tfind i e.indexes = some y ∧ (∀ j, j ≠ i → tfind j e.indexes = tfind j d.indexes) ∧
    e = { d with indexes := e.indexes, burgees := e.burgees, mem := e.mem, tiers := e.tiers, devBuckets := e.devBuckets }
/-- As indexTo, but a deferred error may be recorded (R396). -/
def Device.indexToTelling (d e : Device) (i : Nat) (y : Index) : Prop :=
  ({ d with fns := e.fns, out := e.out, devCnt := e.devCnt } : Device).indexTo e i y
/-- A deferred error of a delta entry has been recorded for its function: a record written at the log's tail, or counted where it cannot be
(R396, R397). -/
def Device.logged (d e : Device) (code : Nat) (v : DeltaEntry) (i target : Nat) : Prop :=
  let l := (d.fn v.fn).log
  let l' := (e.fn v.fn).log
  v.fn < 256 →
    ((l.size = 0 ∨ l.pending = l.size ∨ d.portUp v.fn = false) → l' = { l with lost := min 0xFFFFFFFF (l.lost + 1), lostRec := l.lostRec + 1 }) ∧
    (l.size ≠ 0 → l.pending ≠ l.size → d.hostThere v.fn → l'.recSeq = l.recSeq + 1 ∧ l'.pending = l.pending + 1 ∧
      ∃ bs, Emit.hostWrite v.fn (l.base + 64 * l.tail) false bs ∈ e.out ∧ bs.length = 64 ∧ fieldAt bs 0 8 = (l.recSeq + 1) % 2 ^ 64 ∧
        fieldAt bs 8 2 = code % 65536 ∧ fieldAt bs 14 2 = i % 65536 ∧ fieldAt bs 16 8 = v.logSeq % 2 ^ 64 ∧ fieldAt bs 24 8 = v.id.toNat ∧
        fieldAt bs 40 4 = target % 2 ^ 32)

/-- The request that a mailbox slot holds takes effect as this command now: it has been started with this opcode, nothing it waits for is open,
its turn has come, and its output buffer is well formed (R406, R409, R410). -/
abbrev Device.servesNow (d : Device) (op m slot : Nat) (io : AdminIo) : Prop :=
  d.ready = true ∧ d.seated = true ∧ m ≤ 256 ∧ slot < 32 ∧ d.startedAt m slot = true ∧ (d.adminAt m slot).op = op ∧
    d.adminWaits m slot = false ∧ d.turnOf m slot = true ∧ ((d.adminAt m slot).outSegs m io).isOk = true
/-- The request of a mailbox slot has been answered: its slot takes the response of R407 with this STATUS, DETAIL and RESULT, and its MB_DONE bit
sets, or at the sideband it is free again (R407, R408, R531). -/
def Device.answered (e : Device) (m slot status detail result : Nat) : Prop :=
  let bs := tget [] slot (e.mbox m).rsp
  tget SlotState.idle slot (e.mbox m).slots = (if m = 256 then .idle else .done) ∧ bs.length = 32 ∧ fieldAt bs 4 2 = status % 65536 ∧
    fieldAt bs 6 2 = detail % 65536 ∧ fieldAt bs 16 8 = (if status = 0 then result % 2 ^ 64 else 0)
/-- The output of a request: written along its buffer's segments, or sent with the response at the sideband (R380, R406, R407). -/
def Device.delivered (d e : Device) (m slot : Nat) (io : AdminIo) (out : List Byte) : Prop :=
  let r := d.adminAt m slot
  let bs := out.take r.outLen
  fieldAt (tget [] slot (e.mbox m).rsp) 12 4 = bs.length % 2 ^ 32 ∧ (m = 256 → Emit.sideband (tget [] slot e.sideMb.rsp ++ bs) ∈ e.out) ∧
    (d.hostThere m → ∀ segs, r.outSegs m io = .ok segs → ∀ p ∈ cutSegs segs bs, Emit.hostWrite m p.1 false p.2 ∈ e.out)
/-- An event of a burgee has reached the mailbox of each function with INDEX_ADMIN in it (R413). -/
def Device.raisedBrg (e : Device) (b type info : Nat) : Prop :=
  ∀ f, f < 256 → (e.fn f).assigned = true → (e.fn f).burgee = b → (e.fn f).permAdmin = true →
    ∃ t, (t, (⟨type, some b, BitVec.ofNat 32 info⟩ : Event)) ∈ (e.fn f).mb.received
/-- What work on training jobs may change: the jobs, the space of their training areas and checkpoint slots, their contexts on the SCs, and what is
told. -/
def Device.jobsTo (d e : Device) : Prop :=
  e = { d.told e with jobs := e.jobs, lastJob := e.lastJob, endedJobs := e.endedJobs, fresh := e.fresh, ctxs := e.ctxs, scs := e.scs,
                      engines := e.engines, streams := e.streams, tiers := { d.tiers with extF := e.tiers.extF, extL := e.tiers.extL } } ∧
    d.fnsTold e

/-- A message of a kind from a device is taken as its row says: the device is ready in a shoal, no message received over its links stands for this
one, and it is no repeat that the Message Record holds (R450, R457). -/
abbrev Device.hears (d : Device) (kind src tag : Nat) (resent : Bool) (bs : List Byte) : Prop :=
  d.inShoal = true ∧ d.ready = true ∧ (∀ m ∈ d.shoal.inbox, ¬ (m.kind = kind ∧ m.src = src ∧ m.tag = tag ∧ m.bytes = bs)) ∧
    (resent = true → (src, tag, kind) ∉ d.shoal.record)
/-- The device with a message entered in its Message Record (R457). -/
def Device.heard (d : Device) (kind src tag : Nat) : Device :=
  { d with shoal := { d.shoal with record := ((src, tag, kind) :: d.shoal.record).take 16384 } }
/-- What sending messages may change: the links, what the drop of one that cannot be routed tells, and what its flits are charged to (R251,
R461 to R463). -/
def Device.sentTo (d e : Device) : Prop :=
  e = { d.told e with links := e.links, burgees := e.burgees, devBuckets := e.devBuckets } ∧ d.fnsSent e ∧ d.burgeesMetered e
/-- A message has been sent, and nothing else has happened. -/
def Device.replied (d e : Device) (dst kind tag : Nat) (resent : Bool) (bs : List Byte) : Prop :=
  Emit.shoal dst kind tag resent bs ∈ e.out ∧ d.sentTo e

/-- Every byte of memory outside [a, a + n) reads as before (R304). -/
def Device.sameMemOutside (d e : Device) (a n : Nat) : Prop := ∀ x, (x < a ∨ a + n ≤ x) → e.byteAt x = d.byteAt x
/-- Every byte of memory reads as before (R304). -/
def Device.sameMem (d e : Device) : Prop := ∀ x, e.byteAt x = d.byteAt x

/-- The memory is in canonical form: one list for one content. -/
abbrev State.canonical (s : State) : Prop := Memory.wf s.dev.mem = true
/-- Every waiting command is well formed. -/
abbrev State.queueFormed (s : State) : Prop := ∀ c ∈ s.pending, c.wellFormed = true

end Sys2Proof.Machine
end

