-- ==== Sys2Proof/Certificates/Slice0/Obligations.lean ====
section
/-! DEFINITION. The statements for the provers. Each says what commands of one family do, or what every step keeps, in the terms of the spec's
rules; a clause that rests on a choice of the model says so and names its log entry. -/

open Sys2Proof Sys2Proof.Machine

/-! ### The step, the reset and the whole machine -/

/-- A step takes the command at the front of the queue and runs it on the state with the rest. -/
def Obligations.StepRunsFrontCommand : Prop :=
  ∀ (s : State) (c : Instr) (rest : List Instr), s.pending = c :: rest → step s = exec c { s with pending := rest }

/-- With nothing waiting the device idles: a nanosecond of its timebase passes, and nothing else changes; the timebase stands still while a
COLD reset is held, VAUX is out or MEMREFCLK is missing. Model's choice (log entry 5). -/
def Obligations.EmptyQueuePassesTime : Prop :=
  ∀ s : State, s.pending = [] → ∃ e, step s = .next { s with dev := e } ∧ e = { s.dev with now := e.now } ∧
    e.now = s.dev.now + (if s.dev.aon.vaux = true ∧ s.dev.aon.memrefOk = true ∧ s.dev.phase ≠ .held then 1 else 0)

/-- The registers as reset leaves them: DEV_STATUS shows the bounded admission and data path of a device not yet up, the timebase,
DEGRADED_CAUSE, the pace, voltage, rate, thermal, brown-out and reset-cause registers and the Ensign read as R508 to R521 say, SB_ALERT_STATUS
has RESET set (R537), no queue pair, index, command or job exists, the memory lists nothing, and the queue is empty. -/
def Obligations.ResetValues : Prop :=
  let d := State.reset.dev
  State.reset.pending = [] ∧ d.ready = false ∧ d.dataPath = false ∧ d.now = 0 ∧ d.degraded = 0 ∧
    (∀ h, h < 2 → d.paceReg h = 0 ∧ d.avlReg h = 780 * 65536) ∧ d.rateLimits = 44 * 0x1010101 ∧ d.powerReg = 0 ∧ d.thermalReg = 0 ∧
    d.brownoutReg = 0 ∧ d.resetCause = 0 ∧ (∀ n, d.supplyFault n = 0) ∧ d.ensignStatus = 0x80000000 ∧ d.ensignFences = 0 ∧
    d.ens.health0.word = 0 ∧ d.ens.health1.word = 0 ∧ d.aon.alert = 0x80 ∧ d.aon.alertMask = 0 ∧
    d.fns = [] ∧ d.cmds = [] ∧ d.indexes = [] ∧ d.jobs = [] ∧ d.mem = []

/-- The reset state is in form: its memory is canonical, and nothing waits, so that its queue is well formed. -/
def Obligations.ResetKeepsForms : Prop :=
  (State.reset.canonical) ∧
  (State.reset.queueFormed)

/-- Every step keeps the memory in canonical form: one list for one content. -/
def Obligations.StepKeepsMemoryCanonical : Prop :=
  ∀ s t : State, s.canonical → step s = .next t → t.canonical

/-- A step takes at most the front command out of the queue and puts none into it, so a queue of well-formed commands stays one. It stops in one case
alone: RAIL_FAULT with a reading beyond the absolute maximum ratings of R554 while VAUX is applied. No step is refused. -/
def Obligations.StepOutcomes : Prop :=
  (∀ s t : State, step s = .next t → t.pending = s.pending.tail ∧ (s.queueFormed → t.queueFormed)) ∧
  (∀ s : State, (∀ f, step s = .fault f → f = .beyondRating ∧ s.dev.aon.vaux = true ∧
      ∃ rail mv rest, s.pending = .railFault rail mv :: rest ∧ rail < 11 ∧ railMax rail < mv) ∧
    ∀ r, step s ≠ .refused r)

/-! ### Power, resets, brown-out and thermal limits (chapter 15) -/

/-- SYS_PWROK and MEMREFCLK (R482, R494, R496, R519, R552): a rising edge is a COLD reset with start-up next, recorded with cause 1; its fall and the
loss of MEMREFCLK hold the device in COLD reset; the clock's return acts as the rising edge; a latched trip keeps the device held. Start-up (R427,
R498, R548): after a COLD reset with a slot to boot and TEST_MODE low the device becomes READY, its loops run, the MP of the senior half holds the
Ensign and the other is its shadow, and both tiers are trained; with no slot no MP is seated and READY stays clear; with TEST_MODE it is held. After
a WARM reset it becomes READY from step 3. -/
def Obligations.PowerGoodAndStartUp : Prop :=
  (∀ s : State, let d := s.dev
    (d.aon.vaux = true → d.aon.sysPwrok = false → d.aon.memrefOk = true → d.tap.instr.boundary = false →
      gives .sysPwrokRise s fun e => d.coldFrom e ∧ d.coldCounted e 1 0 ∧ e.aon.sysPwrok = true ∧ e.tap = d.tap ∧
        e.phase = (if d.aon.trip then .held else .coldDone)) ∧
    (d.aon.sysPwrok = true →
      gives .sysPwrokFall s fun e => d.coldFrom e ∧ e.aon.sysPwrok = false ∧ e.phase = .held ∧ e.aon.cause = d.aon.cause ∧
        e.aon.coldCount = d.aon.coldCount) ∧
    (d.aon.memrefOk = true → d.aon.vaux = true → d.aon.sysPwrok = true →
      gives .memrefclkLoss s fun e => d.coldFrom e ∧ e.phase = .held ∧ e.aon.memrefOk = false ∧ e.aon.sysPwrok = true) ∧
    (d.aon.memrefOk = false → d.aon.vaux = true → d.aon.sysPwrok = true → d.tap.heldRise = false →
      gives .memrefclkReturn s fun e => d.coldFrom e ∧ d.coldCounted e 1 0 ∧ e.aon.memrefOk = true ∧
        e.phase = (if d.aon.trip then .held else .coldDone))) ∧
  (∀ (s : State) (b : BootInfo), let d := s.dev
    (d.phase = .coldDone → b.testMode = false → d.straps.sampled = false → (d.sampleStraps b).bootSlot b.badSlots ≠ none →
      gives (.startUp b) s fun e => e.phase = .ready ∧ e.power.h0.loopEn = true ∧ e.power.h1.loopEn = true ∧ e.tiers.trained = true ∧
        e.ens.holder = some d.fuses.seniority ∧ (e.ens.health (1 - d.fuses.seniority)).state = 1 ∧ e.mgmt.bootAt = none) ∧
    (d.phase = .coldDone → b.testMode = false → d.straps.sampled = false → (d.sampleStraps b).bootSlot b.badSlots = none →
      gives (.startUp b) s fun e => e.phase = .noImage ∧ e.ens.holder = d.ens.holder) ∧
    (d.phase = .coldDone → b.testMode = true →
      gives (.startUp b) s fun e => e.phase = .held ∧ e.aon.testMode = true ∧ e = { d with phase := .held, aon := e.aon, mgmt := e.mgmt }) ∧
    (d.phase = .warmDone → d.bootSlot b.badSlots ≠ none → gives (.startUp b) s fun e => e.phase = .ready ∧ e.tiers.trained = true))

/-- The COLD reset of RESET, the release of a held one, and the MP reset (R494, R495, R500): the reset asked for begins 1 ms after its response; a hold
for a rail ends with start-up next; an MP that does not hold the Ensign boots anew and the holder stays. The WARM reset (R496, R497): it begins by
ending the commands in flight and the contexts; the drain that keeps its bound leaves the always-on domain, the L-tier bytes, the indexes, the
geometry and the features, and forgets queue pairs and the F-tier's bytes; one that misses it is a COLD reset with cause 6. -/
def Obligations.RequestedAndWarmResets : Prop :=
  (∀ s : State, let d := s.dev
    (∀ r, d.resets.find? (fun r => r.cold) = some r → d.phase ≠ .held →
      gives .coldReset s fun e => d.coldFrom e ∧ d.coldCounted e r.cause 0 ∧ e.phase = .coldDone) ∧
    (d.aon.railHold = true → d.aon.vaux = true → d.aon.sysPwrok = true → d.aon.memrefOk = true → d.aon.trip = false →
      gives .resetHoldRelease s fun e => e.phase = .coldDone ∧ e.aon.railHold = false ∧ e.aon.coldCount = d.aon.coldCount ∧
        e = { d with phase := e.phase, aon := e.aon, mgmt := e.mgmt }) ∧
    (∀ m, m < 2 → d.phase = .ready → d.ens.holder ≠ some m →
      gives (.mpReset m) s fun e => e.ens.health m = { at_ := d.now } ∧ e.ens.health (1 - m) = d.ens.health (1 - m) ∧
        e.ens.holder = d.ens.holder ∧ e = { d with ens := e.ens })) ∧
  (∀ s : State, let d := s.dev
    (∀ r, d.resets.find? (fun r => !r.cold) = some r → d.phase = .ready →
      gives .warmReset s fun e => e.phase = .draining ∧ e.cmds = [] ∧ e.ctxs = [] ∧ e.resets = [] ∧ e.aon.cause = r.cause ∧
        e.aon.bo.frozen = false ∧ e.quiesced = false ∧ e.fuses = d.fuses ∧ e.geo = d.geo ∧ e.mgmt.feat = d.mgmt.feat) ∧
    (∀ unfinished, d.phase = .draining →
      gives (.warmDrainDone false unfinished) s fun e => e.phase = .warmDone ∧ e.now = d.now ∧ e.aon = d.aon ∧ e.cmds = [] ∧ e.ctxs = [] ∧
        e.ens.holder = none ∧ e.mgmt.feat = d.mgmt.feat ∧ e.geo = d.geo ∧ e.fuses = d.fuses ∧ e.flash = d.flash ∧
        e.indexes.map (·.1) = d.indexes.map (·.1) ∧ (∀ f, (e.fn f).qps = []) ∧
        ∀ a, lBase ≤ a → a < 0x800000000000 → memByte a e.mem = memByte a d.mem) ∧
    (∀ unfinished, d.phase = .draining →
      gives (.warmDrainDone true unfinished) s fun e => d.coldFrom e ∧ d.coldCounted e 6 0 ∧ e.phase = .coldDone))

/-- Supply monitors (R480, R481, R483, R494, R520): a reading out of tolerance is recorded, newest first, at most 16; VAUX or a rail of group C or P
resets the device and holds it; VIO or VFUSE refuses the sideband or the fuse writes until its return, with RAIL_FAULT told where an MP is seated. A
VCORE rail below its reset level is a supply fault and a held COLD reset with cause 3. VAUX and the thermal trip (R488, R494, R518, R537, R548):
VAUX starts the always-on domain, which samples SMB_ADDR; its removal clears the trip latch, the supply faults and the episode count; neither
touches the fuses or the flash. A temperature of 115 °C latches the trip and holds the device in COLD reset with cause 4. -/
def Obligations.RailFaultsVauxAndTrip : Prop :=
  (∀ (s : State) (rail mv : Nat), let d := s.dev
    (∀ kind, d.aon.vaux = true → rail < 11 → mv ≤ railMax rail → d.railOut rail mv = some kind → rail ≠ 1 → rail ≠ 2 →
      (rail = 0 ∨ d.aon.sysPwrok = true) → d.phase = .ready →
      gives (.railFault rail mv) s fun e => e.phase = .held ∧ e.aon.railHold = true ∧ e.aon.cause = 2 ∧ e.aon.causeRail = rail ∧
        e.aon.coldCount = min 65535 (d.aon.coldCount + 1) ∧ e.fns = [] ∧ e.cmds = [] ∧ e.mem = [] ∧ e.fuses = d.fuses ∧ e.flash = d.flash ∧
        e.aon.faults = (⟨d.aon.faultSeq + 1, rail, kind, mv⟩ :: d.aon.faults).take 16) ∧
    (∀ kind, d.aon.vaux = true → (rail = 1 ∨ rail = 2) → mv ≤ railMax rail → d.railOut rail mv = some kind →
      gives (.railFault rail mv) s fun e => e.aon.vioOut = (d.aon.vioOut || rail == 1) ∧ e.aon.vfuseOut = (d.aon.vfuseOut || rail == 2) ∧
        e.aon.faults = (⟨d.aon.faultSeq + 1, rail, kind, mv⟩ :: d.aon.faults).take 16 ∧
        (d.ens.holder.isSome = true → e.lastEvent = some (devEvent 0x11 (powerInfo 0x0E 3 rail))) ∧
        e = { d.told e with aon := { e.aon with vaux := d.aon.vaux, cause := d.aon.cause } } ∧ d.fnsTold e) ∧
    (d.railOut rail mv = none → rail = 1 ∨ rail = 2 →
      gives (.railReturn rail mv) s fun e => e.aon.vioOut = (d.aon.vioOut && rail != 1) ∧ e.aon.vfuseOut = (d.aon.vfuseOut && rail != 2) ∧
        e = { d with aon := { d.aon with vioOut := e.aon.vioOut, vfuseOut := e.aon.vfuseOut } }) ∧
    (∀ h, h < 2 → d.aon.vaux = true → d.aon.sysPwrok = true → d.phase = .ready → belowReset (d.power.half h).vset mv = true →
      gives (.vcoreResetLevel h mv) s fun e => e.phase = .held ∧ e.aon.railHold = true ∧ e.aon.cause = 3 ∧ e.aon.causeRail = 3 + h ∧
        e.aon.faults = (⟨d.aon.faultSeq + 1, 3 + h, 3, mv⟩ :: d.aon.faults).take 16 ∧ e.cmds = [] ∧ e.mem = [] ∧ e.fuses = d.fuses)) ∧
  (∀ s : State, let d := s.dev
    (∀ a, d.aon.vaux = false →
      gives (.vauxPowerUp a) s fun e => e.aon.vaux = true ∧ e.aon.smbAddr = a % 4 ∧ e.aon.trip = false ∧ e.aon.alert = 0x80 ∧ e.phase = .held ∧
        e.aon.faults = [] ∧ e.aon.bo.episodes = 0 ∧ e.fuses = d.fuses ∧ e.flash = d.flash ∧ e.mem = []) ∧
    (d.aon.vaux = true →
      gives .vauxRemoved s fun e => e.aon.vaux = false ∧ e.aon.trip = false ∧ e.aon.faults = [] ∧ e.aon.bo.episodes = 0 ∧ e.phase = .held ∧
        e.fuses = d.fuses ∧ e.flash = d.flash ∧ e.mem = [] ∧ e.fns = [] ∧ e.cmds = []) ∧
    (∀ t, d.aon.vaux = true → d.aon.trip = false → 460 ≤ t → d.phase ≠ .held →
      gives (.thermalTrip t) s fun e => e.phase = .held ∧ e.aon.trip = true ∧ d.coldCounted e 4 0 ∧ e.cmds = [] ∧ e.fns = [] ∧ e.mem = [] ∧
        e.fuses = d.fuses ∧ e.flash = d.flash) ∧
    (∀ t, d.aon.vaux = true → d.aon.trip = false → 460 ≤ t → d.phase = .held →
      gives (.thermalTrip t) s fun e => e.aon.trip = true ∧ e = { d with aon := { d.aon with trip := true, alert := d.aon.alert ||| 0x200 } }))

/-- A brown-out episode (R491, R492): the first warning crossing, or SUPPLY_WARN#, opens the episode and freezes admission with BROWNOUT_WARN; the
freeze lifts once both rails are above their recovery levels, and the episode ends with its length told; admitted commands stay. A quiesce and its
end (R424, R493): every GET, every write not yet accepted and every background context ends, the device reports QUIESCED, and once the rails have
recovered the data path resumes. -/
def Obligations.BrownOutAndQuiesce : Prop :=
  (∀ s : State, let d := s.dev
    (∀ h mv, h < 2 → belowWarn (d.power.half h).vset mv = true → d.powered = true → d.phase = .ready → d.aon.bo.frozen = false → d.quiesced = false →
      gives (.vcoreWarningCrossing h mv) s fun e => e.aon.bo.episode = true ∧ e.aon.bo.frozen = true ∧ e.aon.bo.since = d.now ∧
        (d.aon.bo.episode = false → e.aon.bo.trigger = h ∧ e.aon.bo.ts = d.now ∧ e.aon.bo.frozenNs = 0 ∧
          e.aon.bo.episodes = min 65535 (d.aon.bo.episodes + 1)) ∧
        e.lastEvent = some (devEvent 0x11 (0x08 + at_ 8 h + at_ 16 (mv % 65536))) ∧
        e.cmds.map (·.stamp) = d.cmds.map (·.stamp) ∧ e.mem = d.mem ∧ e.power.h0.vset = d.power.h0.vset ∧ e.power.h1.vset = d.power.h1.vset) ∧
    (∀ mv, d.aon.vaux = true → d.powered = true → d.phase = .ready → d.aon.bo.frozen = false → d.quiesced = false →
      gives (.supplyWarnAssert mv) s fun e => e.aon.bo.episode = true ∧ e.aon.bo.frozen = true ∧ e.aon.bo.warnPin = true ∧
        (d.aon.bo.episode = false → e.aon.bo.trigger = 2 ∧ e.aon.bo.ts = d.now) ∧
        e.lastEvent = some (devEvent 0x11 (0x08 + at_ 8 2 + at_ 16 (mv % 65536))) ∧ e.cmds.map (·.stamp) = d.cmds.map (·.stamp) ∧ e.mem = d.mem) ∧
    (∀ v0 v1, d.aon.bo.frozen = true → d.quiesced = false → d.recovered v0 v1 = true →
      d.aon.bo.frozenNs + (max d.now (d.aon.bo.since + 10000) - d.aon.bo.since) < 5000000 →
      gives (.brownoutRecovery v0 v1) s fun e => e.aon.bo.frozen = false ∧ e.aon.bo.episode = d.aon.bo.episode ∧ e.aon.bo.warnPin = false ∧
        e.now = max d.now (d.aon.bo.since + 10000) ∧ e.aon.bo.frozenNs = d.aon.bo.frozenNs + (e.now - d.aon.bo.since) ∧ e.mem = d.mem ∧
        e.cmds = d.cmds ∧ ((∀ p ∈ d.links, p.2.lane0.retrainDue = false ∧ p.2.lane1.retrainDue = false) →
          e = { d with now := e.now, aon := { d.aon with bo := e.aon.bo } })) ∧
    (∀ v0 v1, d.aon.bo.episode = true → d.aon.bo.frozen = false → d.recovered v0 v1 = true → d.phase = .ready →
      gives (.brownoutEpisodeEnd v0 v1) s fun e => e.aon.bo.episode = false ∧ e.now = max d.now (d.aon.bo.ts + 1000000) ∧
        e.lastEvent = some (devEvent 0x11 (powerInfo 0x09 d.aon.bo.trigger (min 65535 ((e.now - d.aon.bo.ts) / 1000)))) ∧
        e = { d.told e with now := e.now, aon := { d.aon with alert := e.aon.alert, bo := e.aon.bo } } ∧ d.fnsTold e)) ∧
  (∀ s : State, let d := s.dev
    (∀ mv, d.aon.bo.frozen = true → d.quiesced = false → d.phase = .ready → d.degraded.getLsbD 3 = false →
      gives (.quiesce mv) s fun e => e.quiesced = true ∧ e.now = max d.now (d.aon.bo.since + (5000000 - d.aon.bo.frozenNs)) ∧
        e.degraded.getLsbD 3 = true ∧ e.lastEvent = some (devEvent 0x11 (powerInfo 0x0A d.aon.bo.trigger mv)) ∧
        (∀ c ∈ e.cmds, c.op ≠ .get ∧ (c.op.isWrite = true → c.accepted ≠ none)) ∧ (∀ c ∈ e.ctxs, c.cmd ≠ none) ∧
        e.fuses = d.fuses ∧ e.flash = d.flash ∧ e.indexes = d.indexes) ∧
    (∀ v0 v1, d.quiesced = true → d.recovered v0 v1 = true →
      gives (.quiesceEnd v0 v1) s fun e => e.quiesced = false ∧ e.aon.bo.frozen = false ∧ e.now = max d.now (d.aon.bo.since + 100000000) ∧
        e.degraded.getLsbD 3 = false ∧ e.fuses = d.fuses ∧ e.indexes = d.indexes ∧ e.cmds = d.cmds))

/-- The adaptive voltage loop and pace (R23, R484, R486): a tick takes the half's lowest Pace Counter as its pace and moves its setpoint 5 mV up,
5 mV down or not at all, the other half unchanged; a deficit is raised after 100 µs, degrades the device after 100 ms, and ends after 1 s at the
floor, each told. -/
def Obligations.VoltageLoopAndPaceDeficit : Prop :=
  ∀ (s : State) (h : Nat), h < 2 → let d := s.dev; let p := d.power.half h
    (∀ counts vread iread, counts.length = 32 → p.loopEn = true →
      gives (.avlTick h counts vread iread) s fun e => ∃ n ∈ counts, (∀ c ∈ counts, n ≤ c) ∧ (e.power.half h).pace = n ∧
        (e.power.half h).vset = (if d.frozen = true then p.vset else if n < d.reff * 500 ∧ p.vset < 850 then p.vset + 5
          else if d.reff * 500 + 200 < n ∧ 620 < p.vset then p.vset - 5 else p.vset) ∧
        (e.power.half h).vread = vread ∧ (e.power.half h).iread = iread ∧ e.power.half (1 - h) = d.power.half (1 - h) ∧
        e.out = (if (e.power.half h).vset = p.vset then d.out else .avs h (e.power.half h).vset :: d.out) ∧
        e = { d with power := e.power, out := e.out, devCnt := e.devCnt }) ∧
    (∀ t, p.belowAt = some t → p.deficit = false →
      gives (.paceDeficit h) s fun e => (e.power.half h).deficit = true ∧ e.now = max d.now (t + 100000) ∧ e.boundSuspended = true ∧
        e.lastEvent = some (devEvent 0x11 (powerInfo 0x06 h (p.pace / 100 : Nat))) ∧ e.power.half (1 - h) = d.power.half (1 - h) ∧
        e.mem = d.mem ∧ e.cmds.map (·.stamp) = d.cmds.map (·.stamp)) ∧
    (p.deficit = true →
      gives (.paceDeficitDegraded h) s fun e => e.degraded.getLsbD 4 = true ∧ e.now = max d.now (p.deficitAt + 100000000) ∧
        (e.power.half h).deficit = true ∧ e = { d.told e with now := e.now, power := e.power, degraded := e.degraded } ∧ d.fnsTold e) ∧
    (∀ t, p.aboveAt = some t → p.deficit = true →
      gives (.paceRestored h) s fun e => (e.power.half h).deficit = false ∧ e.now = max d.now (t + 1000000000) ∧
        ((d.power.half (1 - h)).deficitDeg = false → e.degraded.getLsbD 4 = false) ∧
        e.lastEvent = some (devEvent 0x11 (powerInfo 0x07 h (p.pace / 100 : Nat))) ∧
        e = { d.told e with now := e.now, power := e.power, degraded := e.degraded } ∧ d.fnsTold e)

/-- The power envelope (R485, R487, R516, R520): a sample is the sum of the rails' voltages times currents, the newest of at most 100; the limit Renv
falls by one step while the mean of the samples exceeds the envelope and rises by one step after 100 calm samples, within 20 to 44 steps of 0.05e9;
its first fall tells THROTTLE_ON and its return to the top THROTTLE_OFF. Temperature (R488): a tick takes the highest of the 72 sensors as Tj and,
with the stacks 5 °C above their readings, as what the thresholds take; Rtherm falls a step while the throttle condition holds, to at most 1.60 from
105 °C and never below 1.00, and rises a step after ten ticks below 97 °C; cause THERMAL sets from 105 °C and clears below 103 °C. -/
def Obligations.PowerAndTemperatureLimits : Prop :=
  (∀ s : State, let d := s.dev; let p := d.power
    (∀ adc v0 v1 amps, d.phase = .ready → adc.length = 11 → amps.length = 11 →
      gives (.powerSample adc v0 v1 amps) s fun e => e.aon.railMv = adc ∧
        e.power.samples = (lsum ((List.range 11).map fun i => (if i = 3 then v0 else if i = 4 then v1 else adc.getD i 0) * amps.getD i 0) ::
          p.samples).take 100 ∧
        e = { d with aon := { d.aon with railMv := adc }, power := { p with samples := e.power.samples, calm := e.power.calm } }) ∧
    (d.phase = .ready →
      gives .envelopeTick s fun e =>
        e.power.renv = (if d.envelope * 10000 * p.samples.length < lsum p.samples ∧ 20 < p.renv then p.renv - 1
          else if 100 ≤ p.calm ∧ p.renv < 44 then p.renv + 1 else p.renv) ∧
        (p.renv = 44 → e.power.renv = 43 → 32 ≤ e.reff → e.lastEvent = some (devEvent 0x11 (powerInfo 0x01 2 43))) ∧
        (p.renv = 43 → e.power.renv = 44 → 32 ≤ e.reff → e.lastEvent = some (devEvent 0x11 (powerInfo 0x02 2 44))) ∧
        (e.power.renv ≠ p.renv → (e.power.deep = true ↔ e.reff < 32)) ∧ e.power.rtherm = p.rtherm ∧ e.power.samples = p.samples ∧
        e.mem = d.mem ∧ e.cmds.map (·.stamp) = d.cmds.map (·.stamp))) ∧
  (∀ (s : State) (sensors stackTemps : List Int), let d := s.dev; let p := d.power
    d.aon.vaux = true → sensors.length = 72 → stackTemps.length = 4 →
      gives (.thermalTick sensors stackTemps) s fun e => (∃ t ∈ sensors, (∀ x ∈ sensors, x ≤ t) ∧ e.power.tj = t) ∧
        e.power.eff = stackTemps.foldl (fun m t => max m (t + 20)) e.power.tj ∧ (e.power.tjLow = true ↔ e.power.tj < tjMin) ∧ e.mem = d.mem ∧
        (d.phase ≠ .ready → e = { d with power := { p with tj := e.power.tj, eff := e.power.eff, sensor := e.power.sensor, tjLow := e.power.tjLow } }) ∧
        (d.phase = .ready →
          (let hot := 400 ≤ e.power.eff ∨ p.hotF ≠ [] ∨ p.hotL ≠ []
           (hot → e.power.rtherm = max 20 (if 420 ≤ e.power.eff then min 32 (p.rtherm - 1) else p.rtherm - 1)) ∧
           (¬hot → e.power.rtherm = if e.power.eff < 388 ∧ 9 ≤ p.cool then min 44 (p.rtherm + 1) else p.rtherm)) ∧
          (420 ≤ e.power.eff → e.degraded.getLsbD 5 = true) ∧ (e.power.eff < 412 → e.degraded.getLsbD 5 = false) ∧ e.power.renv = p.renv))

/-- Reference clocks (R402, R552): losing PE_REFCLK takes every port down with its host lost; losing QCLKm puts both links of the quad in electrical
idle, and its return lets them train again. -/
def Obligations.ReferenceClockEvents : Prop :=
  ∀ s : State, let d := s.dev
    (d.phase ≠ .draining → d.phase ≠ .warmDone →
      gives .peRefclkLoss s fun e => (∀ p, p < 4 → (d.ports.getD p {}).up = true → (e.ports.getD p {}).up = false ∧ (e.ports.getD p {}).lost = true) ∧
        (∀ p, (d.ports.getD p {}).up = false → e.ports.getD p {} = d.ports.getD p {}) ∧ e.phase = d.phase ∧ e.flash = d.flash) ∧
    (∀ m, m < 16 →
      gives (.qclkLoss m) s fun e => (∀ l, l = 2 * m ∨ l = 2 * m + 1 → (e.link l).state = .off ∧ (e.link l).clock = false) ∧ e.ports = d.ports) ∧
    (∀ m, m < 16 →
      gives (.qclkReturn m) s fun e => (∀ l, l = 2 * m ∨ l = 2 * m + 1 → (e.link l).clock = true ∧
          ((d.link l).clock = false → (e.link l).state = .training ∧ (e.link l).startAt = d.now) ∧ ((d.link l).clock = true → e.link l = d.link l)) ∧
        (∀ l, l ≠ 2 * m → l ≠ 2 * m + 1 → e.link l = d.link l) ∧ e = { d with links := e.links })

/-- Health words and the seat of the Ensign (R33, R499, R500, R521): a word written reads back and leaves the other MP's; a healthy claim of a vacant
Ensign seats the MP; a failed holder gives way to a healthy shadow, counted, and is reset, or leaves the Ensign vacant; a failed shadow is reset and
the holder stays; with no holder for 100 ms both MPs are reset, and after three such resets a WARM reset with cause 8 is due. A double claim fences
both MPs and abandons a live activation; at its end the senior half's MP takes the Ensign unless only its word reports failure, the other is reset,
and the fence's length is told (R33, R410, R500, R521). -/
def Obligations.EnsignSeatTakeoverAndFence : Prop :=
  (∀ s : State, let d := s.dev
    (∀ m w, m < 2 → d.phase = .ready → d.ens.shadowHalted = false → w.toNat / 16 % 16 = 0 →
      gives (.healthWordWrite m w) s fun e => (e.ens.health m).word = w.toNat ∧ e.ens.health (1 - m) = d.ens.health (1 - m) ∧
        (d.ens.holder = none → d.ens.fenced = false → bits 15 8 w.toNat = 2 → w.toNat % 16 / 2 = 0 → bits 31 16 w.toNat ≠ (d.ens.health m).seq →
          e.ens.holder = some m) ∧
        (d.ens.holder ≠ none → e.ens.holder = d.ens.holder) ∧ e.mem = d.mem ∧ e.indexes = d.indexes ∧ e.cmds = d.cmds) ∧
    (∀ h, h < 2 → d.ens.holder = some h → d.ens.fenced = false → d.phase = .ready →
      gives .holderFailure s fun e => (e.ens.health h).state = 0 ∧ e.ens.activation = none ∧ e.mem = d.mem ∧ e.cmds = d.cmds ∧
        ((d.ens.health (1 - h)).failed (d.byFailure h).now = false → (d.ens.health (1 - h)).stale = false → (d.ens.health (1 - h)).state = 1 →
          e.ens.holder = some (1 - h) ∧ e.ens.takeovers = min 65535 (d.ens.takeovers + 1) ∧ e.ens.vacantResets = 0) ∧
        ((d.ens.health (1 - h)).stale = true ∨ (d.ens.health (1 - h)).state ≠ 1 → e.ens.holder = none ∧ e.ens.takeovers = d.ens.takeovers)) ∧
    (∀ h, h < 2 → d.ens.holder = some h → d.ens.fenced = false → d.phase = .ready →
      gives .shadowFailure s fun e => e.ens.holder = some h ∧ (e.ens.health (1 - h)).state = 0 ∧ e.ens.health h = d.ens.health h ∧ e.mem = d.mem ∧
        e.cmds = d.cmds) ∧
    (d.ens.holder = none → d.ens.fenced = false → d.phase = .ready →
      gives .ensignVacant s fun e => e.now = max d.now (d.ens.vacantAt + 100000000) ∧
        (d.ens.vacantResets < 3 → e.ens.vacantResets = d.ens.vacantResets + 1 ∧ e.ens.health0 = { at_ := e.now } ∧
          e.ens.health1 = { at_ := e.now } ∧ e = { d with now := e.now, ens := e.ens }) ∧
        (3 ≤ d.ens.vacantResets → e.resets = d.resets ++ [⟨false, 8, e.now⟩] ∧ e = { d with now := e.now, resets := e.resets }))) ∧
  (∀ s : State, let d := s.dev
    (d.ens.holder ≠ none → d.ens.fenced = false → d.phase = .ready →
      gives .doubleClaim s fun e => e = { d with ens := { d.ens with fenced := true, fencedAt := d.now, activation := none } }) ∧
    (d.ens.fenced = true → d.straps.senior < 2 →
      gives .ensignFenceEnd s fun e =>
        let f0 := (d.ens.health d.straps.senior).failed d.now
        let f1 := (d.ens.health (1 - d.straps.senior)).failed d.now
        let w := if f0 = true ∧ f1 = false then 1 - d.straps.senior else d.straps.senior
        e.ens.holder = some w ∧ e.ens.fenced = false ∧ e.ens.health (1 - w) = { at_ := d.now } ∧ e.ens.health w = d.ens.health w ∧
          e.ens.fences = min 65535 (d.ens.fences + 1) ∧ e.ens.lastUs = min 10000 ((d.now - d.ens.fencedAt) / 1000) ∧
          e.lastEvent = some (devEvent 0x01 e.ens.lastUs) ∧ (f0 = true → f1 = true → e.degraded.getLsbD 6 = true) ∧ e.mem = d.mem ∧ e.cmds = d.cmds))

/-- A live activation (R431, R432): when the shadow runs the new image the Ensign moves to it and probation of 60 s begins; at its end the former
holder is reset into the new image; a boot that does not reach health in 60 s makes the other valid slot the next. -/
def Obligations.LiveActivationAndBootHealth : Prop :=
  ∀ s : State, let d := s.dev
    (∀ a, d.ens.activation = some a → a.probation = false → d.ens.fenced = false → d.phase = .ready → d.ens.holder ≠ none →
      gives .shadowReady s fun e => e.ens.holder = some a.mp ∧ e.mgmt.slot = a.slot ∧ e.flash.nextBoot = some a.slot ∧
        e.ens.activation = some { a with probation := true, until_ := d.now + 60000000000 } ∧
        e.lastEvent = some (devEvent (if a.back = true then 0x0B else 0x0A) a.slot) ∧ e.mem = d.mem ∧ e.cmds = d.cmds) ∧
    (∀ a, d.ens.activation = some a → a.probation = true → a.mp < 2 → d.ens.holder = some a.mp → d.phase = .ready → (d.ens.health a.mp).state ≠ 4 →
      (d.ens.health a.mp).watchdog = false → (d.ens.health a.mp).memFault = false → (d.ens.health a.mp).imageFault = false →
      gives .probationEnd s fun e => e.ens.activation = none ∧ e.ens.holder = some a.mp ∧ e.now = max d.now a.until_ ∧
        e.ens.health (1 - a.mp) = { at_ := e.now } ∧ e = { d with now := e.now, ens := e.ens }) ∧
    (∀ t k o, (d.phase = .coldDone ∨ d.phase = .warmDone) → d.mgmt.bootAt = some t → d.bootSlot [] = some k → d.otherSlot k = some o →
      gives .bootHealthTimeout s fun e => e.flash.nextBoot = some o ∧ e.now = max d.now (t + 60000000000) ∧ e.mgmt.bootAt = some e.now ∧
        e.lastEvent = some (devEvent 0x0B o) ∧ e.flash.images = d.flash.images ∧ e.fuses = d.fuses ∧ e.phase = d.phase)

/-! ### Host interface and registers (chapters 12 and 16) -/

/-- Doorbells (R372, R373, R401): SQ_TAIL below SQ_SIZE is taken; a CQ_HEAD that consumes no more than is unread frees what it passes; any other
value puts the pair in ERROR and sets QP_ERROR, and a pair in ERROR fetches nothing but still posts. No other pair and no other function changes. -/
def Obligations.DoorbellsMovePointers : Prop :=
  ∀ (s : State) (f q v : Nat) (p : QueuePair), let d := s.dev; f < 256 → d.qp f q = some p →
    (v % 65536 < p.sqSize →
      gives (.sqTailDoorbell f q v) s fun e => e.qp f q = some { p with sqTail := v % 65536 } ∧ (∀ k, k ≠ f → e.fn k = d.fn k) ∧
        (∀ j, j ≠ q → e.qp f j = d.qp f j) ∧ e = { d with fns := e.fns }) ∧
    (p.sqSize ≤ v % 65536 →
      gives (.sqTailDoorbell f q v) s fun e => e.qp f q = some { p with err := true } ∧ (e.fn f).evStatus = (d.fn f).evStatus ||| 2 ∧
        (∀ k, k ≠ f → e.fn k = d.fn k) ∧ (∀ j, j ≠ q → e.qp f j = d.qp f j) ∧ e = d.told e) ∧
    (v % 65536 < p.cqSize → (v % 65536 + p.cqSize - p.cqHead) % p.cqSize ≤ p.unread →
      gives (.cqHeadDoorbell f q v) s fun e => (∃ p', e.qp f q = some p' ∧ p'.cqHead = v % 65536 ∧
          p'.unread = p.unread - (v % 65536 + p.cqSize - p.cqHead) % p.cqSize ∧ p'.sqTail = p.sqTail ∧ p'.sqHead = p.sqHead ∧
          p'.cqTail = p.cqTail ∧ p'.err = p.err) ∧
        (∀ k, k ≠ f → e.fn k = d.fn k) ∧ (∀ j, j ≠ q → e.qp f j = d.qp f j) ∧ e = d.told e) ∧
    (p.cqSize ≤ v % 65536 ∨ p.unread < (v % 65536 + p.cqSize - p.cqHead) % p.cqSize →
      gives (.cqHeadDoorbell f q v) s fun e => e.qp f q = some { p with err := true } ∧ (e.fn f).evStatus = (d.fn f).evStatus ||| 2 ∧
        (∀ k, k ≠ f → e.fn k = d.fn k) ∧ e = d.told e) ∧
    (p.err = true → (∀ h, gives (.sqeFetch f q h) s fun e => e = d) ∧
      ∀ k c, d.cmd? k = some c → c.fn = f → c.qid = q → c.remote = none → c.op.isWrite = true → c.applied = true → c.forwarded = [] → d.hostThere f →
        gives (.writeCompletion k) s fun e => d.posted e f q c.cid (c.status.getD 0) c.writeSeq)

/-- Function events (R526, R527): a 1 written to FN_EVENT_STATUS clears its bit, the mask keeps its six bits, vector 0 signals only while an unmasked
cause remains, and nothing but the function changes where none remains. The Deferred Error Log registers and the MSI-X table (R16, R528, R529,
R533): FN_DEL_BASE is taken while the ring is not configured; a size of 64 to 4,096 configures it and 0 unconfigures it; a head within the records
written consumes them; a 4 B write of an MSI-X entry changes that entry. Every other write of those values is discarded, and nothing but the
function changes. -/
def Obligations.FunctionEventAndLogRegisters : Prop :=
  (∀ (s : State) (f : Nat) (v : W32), let d := s.dev; d.barUp f = true →
    gives (.fnEventStatusWrite f v) s (fun e => (e.fn f).evStatus = (d.fn f).evStatus &&& ~~~v ∧ (e.fn f).evMask = (d.fn f).evMask ∧
      (e.fn f).qps = (d.fn f).qps ∧ (∀ k, k ≠ f → e.fn k = d.fn k) ∧ e = d.told e ∧
      ((e.fn f).evStatus &&& ~~~(e.fn f).evMask = 0 → e.out = d.out ∧ (e.fn f).pba = (d.fn f).pba)) ∧
    gives (.fnEventMaskWrite f v) s (fun e => (e.fn f).evMask = v &&& 0x3F ∧ (e.fn f).evStatus = (d.fn f).evStatus ∧
      (e.fn f).qps = (d.fn f).qps ∧ (∀ k, k ≠ f → e.fn k = d.fn k) ∧ e = d.told e ∧
      ((e.fn f).evStatus &&& ~~~(e.fn f).evMask = 0 → e.out = d.out ∧ (e.fn f).pba = (d.fn f).pba))) ∧
  (∀ (s : State) (f : Nat) (v : W32), let d := s.dev; let l := (d.fn f).log; d.barUp f = true →
    gives (.fnDelSizeWrite f v) s (fun e => (e.fn f).log = (if v.toNat % 8192 = 0 then { l with size := 0 }
        else if l.size = 0 ∧ 64 ≤ v.toNat % 8192 ∧ v.toNat % 8192 ≤ 4096 then { base := l.base, size := v.toNat % 8192 } else l) ∧
      (∀ k, k ≠ f → e.fn k = d.fn k) ∧ e = { d with fns := e.fns }) ∧
    (v.toNat % 4096 < l.size → (v.toNat % 4096 + l.size - l.head) % l.size ≤ l.pending →
      gives (.fnDelHeadWrite f v) s fun e =>
        (e.fn f).log = { l with head := v.toNat % 4096, pending := l.pending - (v.toNat % 4096 + l.size - l.head) % l.size } ∧
        (∀ k, k ≠ f → e.fn k = d.fn k) ∧ e = { d with fns := e.fns }) ∧
    (l.size ≤ v.toNat % 4096 →
      gives (.fnDelHeadWrite f v) s fun e => (e.fn f).log = l ∧ (∀ k, k ≠ f → e.fn k = d.fn k) ∧ e = { d with fns := e.fns }) ∧
    (∀ bs, bs.length = 8 →
      gives (.registerWrite f (if isPf f = true then 0x100020 else 0x20) bs) s fun e =>
        (e.fn f).log = (if l.size = 0 then { l with base := leNat bs / 4096 * 4096 } else l) ∧ (∀ k, k ≠ f → e.fn k = d.fn k) ∧
        e = { d with fns := e.fns }))

/-- Reads and the BAR2 window (R306, R307, R504, R506): a 4 B read of the lower half of a 64-bit register returns it and latches the upper half,
which the next read of that half returns; a BAR2 read within the function's burgee returns the bytes at APERTURE_BASE and changes no memory, and a
refused one returns zeros and is counted. -/
def Obligations.BarReads : Prop :=
  ∀ (s : State) (f off : Nat), let d := s.dev; d.barUp f = true →
    (∀ x, off % 4 = 0 → (∀ o w, (d.fn f).latch = some (o, w) → o + 4 ≠ off) → d.barReg f off = some (8, x) →
      gives (.bar0SplitRead f off) s fun e => e.out = .barRead f off (leBytes 4 (x % 2 ^ 32)) :: d.out ∧
        (e.fn f).latch = some (off, BitVec.ofNat 32 (x / 2 ^ 32)) ∧ (∀ k, k ≠ f → e.fn k = d.fn k) ∧ e = { d with fns := e.fns, out := e.out }) ∧
    (∀ w, off % 4 = 0 → 4 ≤ off → (d.fn f).latch = some (off - 4, w) →
      gives (.bar0SplitRead f off) s fun e => e.out = .barRead f off (leBytes 4 w.toNat) :: d.out ∧ e = { d with fns := e.fns, out := e.out }) ∧
    (∀ n, isPf f = true → off + n ≤ 0x1000000000 → d.mgmt.feat.bar2En = true → d.sanHeld = false → d.tiers.trained = true →
      (d.fn f).assigned = true → d.mayTouchAll false (d.fn f).burgee (d.mgmt.feat.bar2Base + off) n = true →
      d.area (d.mgmt.feat.bar2Base + off) = .fTier →
      gives (.bar2Access f off n none) s fun e => e.out = .barRead f off (d.read (d.mgmt.feat.bar2Base + off) n) :: d.out ∧ e.mem = d.mem) ∧
    (∀ bs, isPf f = true → off + bs.length ≤ 0x1000000000 → d.mgmt.feat.bar2En = true → d.sanHeld = false → d.tiers.trained = true →
      (d.fn f).assigned = true → d.mayTouchAll false (d.fn f).burgee (d.mgmt.feat.bar2Base + off) bs.length = true →
      d.area (d.mgmt.feat.bar2Base + off) = .fTier → d.tiers.erased = [] →
      gives (.bar2Access f off bs.length (some bs)) s fun e => (∀ i, i < bs.length → e.byteAt (d.mgmt.feat.bar2Base + off + i) = bs.getD i 0) ∧
        d.sameMemOutside e (d.mgmt.feat.bar2Base + off) bs.length ∧ e.out = d.out) ∧
    (∀ n, isPf f = true → off + n ≤ 0x1000000000 → d.mgmt.feat.bar2En = false →
      gives (.bar2Access f off n none) s fun e => e.out = .barRead f off (List.replicate n 0) :: d.out ∧
        e.devCnt.bar2Refused = d.devCnt.bar2Refused + 1 ∧ e.mem = d.mem)

/-- The sideband's alert registers (R14, R535, R537): a 4 B write with a right PEC clears the alert bits it gives as 1, or sets the ten mask bits, while
VAUX and VIO are in regulation; while an unmasked alert is set the Alert Response Address is answered with the device's own address, and no alert is
cleared by that. Interrupts and Bus Master Enable (R401, R402, R533): the coalescing timer's message goes out on the CQ's vector, and its count and
timer restart; clearing Bus Master Enable stops nothing else; setting it makes the held writes in their order. -/
def Obligations.AlertsCoalescingAndBusMaster : Prop :=
  (∀ s : State, let d := s.dev; d.aon.vaux = true → d.aon.vioOut = false →
    (∀ bs, bs.length = 4 →
      gives (.sbAlertStatusWrite bs true) s (fun e => e = { d with aon := { d.aon with alert := d.aon.alert &&& ~~~(BitVec.ofNat 32 (leNat bs)) } }) ∧
      gives (.sbAlertMaskWrite bs true) s (fun e => e = { d with aon := { d.aon with alertMask := e.aon.alertMask } } ∧
        ∀ i, e.aon.alertMask.getLsbD i = (decide (i < 10) && (BitVec.ofNat 32 (leNat bs)).getLsbD i))) ∧
    (∀ bs ok, bs.length ≠ 4 ∨ ok = false → gives (.sbAlertStatusWrite bs ok) s (fun e => e = d) ∧ gives (.sbAlertMaskWrite bs ok) s (fun e => e = d)) ∧
    (d.aon.alert &&& ~~~d.aon.alertMask ≠ 0 →
      gives .smbusAlertResponse s fun e => e = { d with aon := { d.aon with araAnswers := (0x48 + d.aon.smbAddr) :: d.aon.araAnswers } })) ∧
  (∀ (s : State) (f : Nat), let d := s.dev; f < 256 →
    (∀ q p t, d.qp f q = some p → p.irqEn = true → p.waitFrom = some t → d.portUp f = true → (d.fn f).bme = true →
      (tget ({} : MsixEntry) p.vector (d.fn f).msix).masked = false →
      gives (.interruptCoalesceTimer f q) s fun e => e.out = .msix f p.vector :: d.out ∧ e.now = max d.now (t + 1000 * p.aggTime) ∧
        e.qp f q = some { p with sinceMsg := 0, waitFrom := none } ∧ (∀ k, k ≠ f → e.fn k = d.fn k) ∧ (∀ j, j ≠ q → e.qp f j = d.qp f j) ∧
        e.devCnt.msixSent = d.devCnt.msixSent + 1 ∧ e = { d with now := e.now, fns := e.fns, out := e.out, devCnt := e.devCnt }) ∧
    gives (.busMasterEnableClear f) s (fun e => e.fn f = { d.fn f with bme := false } ∧ (∀ k, k ≠ f → e.fn k = d.fn k) ∧ e = { d with fns := e.fns }) ∧
    gives (.busMasterEnableSet f) s (fun e => (e.fn f).bme = true ∧ (e.fn f).heldOut = [] ∧ (e.fn f).qps = (d.fn f).qps ∧
      ((d.fn f).pba = [] → e.out = (d.fn f).heldOut.reverse ++ d.out) ∧ (∀ k, k ≠ f → e.fn k = d.fn k) ∧ e = d.told e))

/-- A port that loses its host and trains again, and a function-level reset (R402, R403, R534): the port is down with no write held and no message
pending to it; a port that returns leaves its functions at their reset values but for their assignment, with QUEUES_LOST set; a function reset
leaves the function with no queue pair, no account and an empty mailbox, its assignment kept. -/
def Obligations.HostLossAndFunctionReset : Prop :=
  ∀ s : State, let d := s.dev
    (∀ p, p < d.ports.length → d.phase ≠ .draining → d.phase ≠ .warmDone →
      gives (.hostLoss p) s fun e => (∃ k, e.ports[p]? = some k ∧ k.up = false ∧ k.lost = true) ∧ (∀ j, j ≠ p → e.ports[j]? = d.ports[j]?) ∧
        e.phase = d.phase ∧ e.flash = d.flash ∧ e.geo = d.geo) ∧
    (∀ p, p < d.ports.length → (d.phase = .draining ∨ d.phase = .warmDone) →
      gives (.hostLoss p) s fun e => (∃ k, e.ports[p]? = some k ∧ k.resetDue = true) ∧ e = { d with ports := e.ports }) ∧
    (∀ p k, d.ports[p]? = some k → k.lost = true →
      gives (.portRetrain p) s fun e => e.ports[p]? = some { k with up := true, lost := false } ∧ (∀ j, j ≠ p → e.ports[j]? = d.ports[j]?) ∧
        (∀ f, f < 256 → portOf f = p → (tfind f d.fns).isSome = true → (e.fn f).qps = [] ∧ (e.fn f).evStatus.getLsbD 5 = true ∧
          (e.fn f).assigned = (d.fn f).assigned ∧ (e.fn f).burgee = (d.fn f).burgee ∧ (e.fn f).qpMax = (d.fn f).qpMax) ∧
        (∀ f, portOf f ≠ p → e.fn f = d.fn f)) ∧
    (∀ f, f < 256 → f % 64 ≠ 0 →
      gives (.functionLevelReset f) s fun e => (e.fn f).qps = [] ∧ (e.fn f).account = {} ∧ (e.fn f).log = {} ∧ (e.fn f).bme = false ∧
        (e.fn f).mb.slots = [] ∧ (e.fn f).mb.tail = 0 ∧ (e.fn f).assigned = (d.fn f).assigned ∧ (e.fn f).burgee = (d.fn f).burgee ∧
        (∀ c ∈ e.cmds, c.remote = none → c.fn = f → ∀ q ∈ (d.fn f).qps, c.qid ≠ q.1)) ∧
    (∀ f, f < 256 → f % 64 = 0 →
      gives (.functionLevelReset f) s fun e => (e.fn f).qps = [] ∧ (e.fn f).vfEnable = false ∧ (e.fn f).bme = false ∧
        (e.fn f).assigned = (d.fn f).assigned)

/-! ### Queue pairs and writes (chapter 12) -/

/-- Fetching an entry (R374, R379, R404): at the pair's turn the entry is taken, stamped and checked; one that passes is in flight, one that fails
or meets a quiesce completes with its status, and one that cannot be read puts the pair in ERROR. -/
def Obligations.FetchTakesNextEntry : Prop :=
  ∀ (s : State) (f q : Nat) (h : HostAnswer), let d := s.dev; f < 256 → d.nextPair = some (f, q) →
    (∀ raw c, h.entry = some raw → raw.length = 64 → d.quiesced = false → d.dataPath = true →
      d.checkEntry f q (d.stamp + 1) raw h = .ok c →
      gives (.sqeFetch f q h) s fun e => e.cmds = d.cmds ++ [c] ∧ e.stamp = d.stamp + 1 ∧ c.stamp = d.stamp + 1 ∧ c.fn = f ∧ c.qid = q ∧
        c.cid = fieldAt raw 2 2 ∧ c.indexNo = fieldAt raw 4 2 ∧ ioOpOf (fieldAt raw 0 1) = some c.op ∧ c.t0 = d.now ∧
        (∃ p p', d.qp f q = some p ∧ e.qp f q = some p' ∧ p'.inFlight = p.inFlight + 1 ∧
          p'.sqHead = (if p.sqHead + 1 = p.sqSize then 0 else p.sqHead + 1) ∧ (c.op = .fence → p'.fencedBy = some (d.stamp + 1))) ∧
        (∀ k, k ≠ f → e.fn k = d.fn k) ∧ (∀ j, j ≠ q → e.qp f j = d.qp f j) ∧
        e = { d with stamp := e.stamp, lastQp := e.lastQp, fns := e.fns, cmds := e.cmds }) ∧
    (∀ raw st, h.entry = some raw → raw.length = 64 → d.quiesced = false → d.dataPath = true →
      d.checkEntry f q (d.stamp + 1) raw h = .error st →
      gives (.sqeFetch f q h) s fun e => d.posted e f q (fieldAt raw 2 2) st 0 ∧ e.cmds = d.cmds ∧ e.indexes = d.indexes ∧ e.mem = d.mem) ∧
    (∀ raw, h.entry = some raw → raw.length = 64 → d.quiesced = true →
      gives (.sqeFetch f q h) s fun e => d.posted e f q (fieldAt raw 2 2) stQuiesced 0 ∧ e.cmds = d.cmds ∧ e.indexes = d.indexes ∧ e.mem = d.mem) ∧
    (h.entry = none →
      gives (.sqeFetch f q h) s fun e => (∃ p', e.qp f q = some p' ∧ p'.err = true) ∧ e.cmds = d.cmds ∧ e.stamp = d.stamp ∧
        (∀ k, k ≠ f → e.fn k = d.fn k) ∧ (e.fn f).evStatus = (d.fn f).evStatus ||| 2)

/-- INSERT and UPSERT (R85, R106, R386): where the ID is absent (INSERT, UPSERT) or present (UPSERT), DELTA_HEAD takes a live entry with the next
WRITE_SEQ as its LOG_SEQ, an old copy in the delta segment is superseded at the present view, and the command has that WRITE_SEQ; a write whose rule
fails takes its status and nothing else changes. No other index changes, and of a function only its account, which metering moves (R361). -/
def Obligations.InsertAndUpsertAppend : Prop :=
  ∀ (s : State) (k : Nat) (c : Cmd) (x : Index), let d := s.dev
    d.cmd? k = some c → c.accepted.isSome = true → c.applied = false → c.forwarded = [] → d.unapplied c = false →
    d.index? c.indexNo = some x → d.shoalIndex? c.indexNo = none →
    let added := fun (e : Device) => ∃ y v, tfind c.indexNo e.indexes = some y ∧ y.writeSeq = x.writeSeq + 1 ∧ y.view = x.view ∧
      y.deltaHead = (x.deltaHead + 1) % x.deltaEntries ∧ y.deltaTail = x.deltaTail ∧ tfind x.deltaHead y.delta = some v ∧ v.id = c.id ∧
      v.state = 1 ∧ v.logSeq = x.writeSeq + 1 ∧ v.attrs = c.attrs ∧ v.upsert = (c.op == .upsert) ∧ v.stamp = c.stamp ∧
      (∀ j, j ≠ c.indexNo → tfind j e.indexes = tfind j d.indexes) ∧ d.fnsMetered e ∧ e.out = d.out ∧
      e.cmd? k = some { c with applied := true, writeSeq := x.writeSeq + 1, status := none }
    let ends := fun (st : Nat) (e : Device) => e.cmd? k = some { c with applied := true, writeSeq := 0, status := some st } ∧ e = { d with cmds := e.cmds }
    (c.op = .insert → x.lookup c.id = none → x.occupied < x.nCap → x.deltaFull = false →
      gives (.insert k) s fun e => added e ∧ ∀ y, tfind c.indexNo e.indexes = some y → ∀ j, j ≠ x.deltaHead → tfind j y.delta = tfind j x.delta) ∧
    (c.op = .upsert → x.lookup c.id = none → x.occupied < x.nCap → x.deltaFull = false →
      gives (.upsert k) s fun e => added e ∧ ∀ y, tfind c.indexNo e.indexes = some y → ∀ j, j ≠ x.deltaHead → tfind j y.delta = tfind j x.delta) ∧
    (∀ b p j v, c.op = .upsert → x.lookup c.id = some (b, p, .delta j) → x.away = [] → tfind j x.delta = some v → j ≠ x.deltaHead →
      x.deltaFull = false →
      gives (.upsert k) s fun e => added e ∧ ∀ y, tfind c.indexNo e.indexes = some y →
        tfind j y.delta = some { v with state := 3, endView := x.view } ∧ (∀ i, i ≠ j → i ≠ x.deltaHead → tfind i y.delta = tfind i x.delta)) ∧
    (c.op = .insert → (x.lookup c.id).isSome = true → gives (.insert k) s (ends stIdExists)) ∧
    (c.op = .insert → x.lookup c.id = none → x.nCap ≤ x.occupied → gives (.insert k) s (ends stCapacity)) ∧
    (c.op = .upsert → x.lookup c.id = none → x.nCap ≤ x.occupied → gives (.upsert k) s (ends stCapacity)) ∧
    (c.op = .upsert → (x.lookup c.id).isSome = true → x.deltaFull = true → gives (.upsert k) s (ends stDeltaFull))

/-- DELETE and ATTR_SET (R72, R95, R106, R386): a vector in a slot is tombstoned and N_LIVE falls by one, one in the delta segment ends at the present
view; ATTR_SET replaces the words its mask names; each takes the next WRITE_SEQ, and without the ID ID_NOT_FOUND changes nothing. No other index
changes. -/
def Obligations.DeleteAndAttrSetReachVector : Prop :=
  ∀ (s : State) (k : Nat) (c : Cmd) (x : Index), let d := s.dev
    d.cmd? k = some c → c.accepted.isSome = true → c.applied = false → c.forwarded = [] → d.unapplied c = false →
    d.index? c.indexNo = some x → d.shoalIndex? c.indexNo = none → x.away = [] →
    let next := fun (e : Device) => (∀ j, j ≠ c.indexNo → tfind j e.indexes = tfind j d.indexes) ∧ d.fnsMetered e ∧ e.out = d.out ∧
      e.cmd? k = some { c with applied := true, writeSeq := x.writeSeq + 1, status := none }
    let ends := fun (e : Device) => e.cmd? k = some { c with applied := true, writeSeq := 0, status := some stIdNotFound } ∧ e = { d with cmds := e.cmds }
    (∀ b p j v, c.op = .delete → x.lookup c.id = some (b, p, .delta j) → tfind j x.delta = some v →
      gives (.delete k) s fun e => next e ∧ ∃ y, tfind c.indexNo e.indexes = some y ∧ y.writeSeq = x.writeSeq + 1 ∧ y.occupied = x.occupied - 1 ∧
        tfind j y.delta = some { v with state := 2, endView := x.view } ∧ (∀ i, i ≠ j → tfind i y.delta = tfind i x.delta) ∧ y.cells = x.cells) ∧
    (∀ b p n t, c.op = .delete → x.lookup c.id = some (b, p, .slot n t) →
      gives (.delete k) s fun e => next e ∧ ∃ y, tfind c.indexNo e.indexes = some y ∧ y.writeSeq = x.writeSeq + 1 ∧ y.occupied = x.occupied - 1 ∧
        y.nLive = x.nLive - 1 ∧ t ∈ (y.cell n).cur.tombs ∧ (y.cell n).nLive = (x.cell n).nLive - 1 ∧ (y.cell n).cur.slots = (x.cell n).cur.slots ∧
        y.delta = x.delta) ∧
    (∀ b p j v, c.op = .attrSet → x.lookup c.id = some (b, p, .delta j) → tfind j x.delta = some v →
      gives (.attrSet k) s fun e => next e ∧ ∃ y, tfind c.indexNo e.indexes = some y ∧ y.writeSeq = x.writeSeq + 1 ∧ y.occupied = x.occupied ∧
        tfind j y.delta = some { v with attrs := maskWords c.flags c.attrs v.attrs } ∧ (∀ i, i ≠ j → tfind i y.delta = tfind i x.delta) ∧
        y.cells = x.cells) ∧
    (∀ b p n t v, c.op = .attrSet → x.lookup c.id = some (b, p, .slot n t) → tfind t (x.cell n).cur.slots = some v →
      gives (.attrSet k) s fun e => next e ∧ ∃ y, tfind c.indexNo e.indexes = some y ∧ y.writeSeq = x.writeSeq + 1 ∧ y.occupied = x.occupied ∧
        tfind t (y.cell n).cur.slots = some { v with attrs := maskWords c.flags c.attrs v.attrs } ∧
        (∀ u, u ≠ t → tfind u (y.cell n).cur.slots = tfind u (x.cell n).cur.slots) ∧ y.delta = x.delta) ∧
    (c.op = .delete → x.lookup c.id = none → gives (.delete k) s ends) ∧
    (c.op = .attrSet → x.lookup c.id = none → gives (.attrSet k) s ends)

/-- Acceptance, completion, GET and FENCE (R384, R388, R389, R391, R393): a write is accepted after every accepted one; its completion carries its
status and WRITE_SEQ; GET, once every earlier command of its queue pair and every write accepted before it has been applied, reads where the ID map
says and completes with the KIND and length of its output; FENCE takes the set of earlier commands of its scope and completes with their number once
none is in flight. None of them changes an index or memory. -/
def Obligations.AcceptanceCompletionGetFence : Prop :=
  ∀ (s : State) (k : Nat) (c : Cmd), let d := s.dev; d.cmd? k = some c → c.remote = none →
    (c.op.isWrite = true → c.accepted = none → d.writesAhead c = false → d.quiesced = false → (d.index? c.indexNo).isSome = true →
      d.shoalIndex? c.indexNo = none →
      gives (.writeAcceptance k) s fun e => (∃ n, e.cmd? k = some { c with accepted := some n, phase := .active } ∧
        ∀ a ∈ d.cmds, ∀ m, a.accepted = some m → m < n) ∧ e = { d with cmds := e.cmds }) ∧
    (c.op.isWrite = true → c.applied = true → c.forwarded = [] → d.hostThere c.fn → (d.qp c.fn c.qid).isSome = true →
      gives (.writeCompletion k) s fun e => d.posted e c.fn c.qid c.cid (c.status.getD 0) c.writeSeq ∧ e.cmd? k = none ∧ e.indexes = d.indexes ∧
        e.mem = d.mem) ∧
    (∀ x, c.op = .get → c.phase = .waiting → d.quiesced = false → d.index? c.indexNo = some x → d.shoalIndex? c.indexNo = none →
      (∀ a ∈ d.cmds, a.op.isWrite = true → a.indexNo = c.indexNo →
        ((a.fn = c.fn ∧ a.qid = c.qid ∧ a.stamp < c.stamp) ∨ a.accepted.isSome = true) → a.applied = true) →
      d.hostThere c.fn → (d.qp c.fn c.qid).isSome = true →
      (∀ b p l kind bs, x.lookup c.id = some (b, p, l) → x.getBytes c.id c.flags l = some (kind, bs) →
        gives (.get k) s fun e => d.posted e c.fn c.qid c.cid 0 (kind + bs.length * 2 ^ 32) ∧ e.cmd? k = none ∧ e.indexes = d.indexes ∧ e.mem = d.mem) ∧
      (x.lookup c.id = none →
        gives (.get k) s fun e => d.posted e c.fn c.qid c.cid stIdNotFound 0 ∧ e.cmd? k = none ∧ e.indexes = d.indexes ∧ e.mem = d.mem)) ∧
    (c.op = .fence → c.phase = .waiting →
      gives (.fence k) s fun e => (∃ w, e.cmd? k = some { c with phase := .active, fenceSet := w, fenceN := w.length } ∧
        ∀ t, t ∈ w ↔ ∃ a ∈ d.cmds, a.stamp = t ∧ a.remote = none ∧ t < c.stamp ∧ (a.op.isWrite = true ∨ (c.fflag 1 = true ∧ a.op ≠ .fence)) ∧
          (c.fflag 0 = true ∨ a.indexNo = c.indexNo) ∧ d.inScope c c.scope a.fn a.qid = true) ∧ e = { d with cmds := e.cmds }) ∧
    (c.op = .fence → c.phase = .active → (∀ t ∈ c.fenceSet, d.cmd? t = none) → (c.fflag 2 = false ∨ d.unsettled c = false) → d.hostThere c.fn →
      (d.qp c.fn c.qid).isSome = true →
      gives (.fenceCompletion k) s fun e => d.posted e c.fn c.qid c.cid 0 (min c.fenceN 0xFFFFFFFF) ∧ e.cmd? k = none ∧ e.indexes = d.indexes ∧
        e.mem = d.mem ∧ ∀ p, e.qp c.fn c.qid = some p → p.fencedBy ≠ some c.stamp)

/-! ### Searches (chapters 5 and 11) -/

/-- The stages of a search on an index of this device (R118, R133, R145, R147, R160, R161): stage A gives each vector its cells or its entry node; a
unit's list reaches the Merge Buffer and its context ends; a fold step takes the next list in order and clears the Merge Buffer's suspicion of the
command; stage C follows the folded stage B list, and stage D the stage C list. Stage D's free elements are numbered from the plain counter (log entry
50). No index and no function changes. -/
def Obligations.SearchStagesAdvance : Prop :=
  ∀ (s : State) (k : Nat) (c : Cmd) (x : Index), let d := s.dev
    d.cmd? k = some c → c.op.isSearch = true → c.remote = none → c.snap.isSome = true → d.index? c.indexNo = some x → d.shoalIndex? c.indexNo = none →
    (∀ j, c.phase = .active → d.quiesced = false → j < c.runs.length → j < c.vecs.length → j < 16 * c.chunks → (c.runs.getD j {}).stageA = false →
      gives (.stageStart k 1) s fun e => (∃ c', e.cmd? k = some c' ∧ 2 ≤ c'.stage ∧ (c'.runs.getD j {}).stageA = true ∧
        (c'.runs.getD j {}).cells = (c.probeList (d.ownCell c.indexNo) x (c.query j)).1 ∧ (c'.runs.getD j {}).entry = c.entryOf x (c.query j)) ∧
        e.indexes = d.indexes ∧ e.fns = d.fns ∧ (∀ i, i ≠ k → e.cmd? i = d.cmd? i)) ∧
    (∀ v u n t b, c.phase = .active → v < c.runs.length → (c.runs.getD v {}).units[u]? = some n → (c.runs.getD v {}).mayStart u = true →
      t ∈ d.ctxs → t.cmd = some k → t.vec = v → t.unit = u → t.started = true →
      gives (.unitEnd k v u b) s fun e => (∃ c', e.cmd? k = some c' ∧ tfind u (c'.runs.getD v {}).arrived = some (d.unitList c v n none)) ∧
        (∀ i ∈ e.ctxs, ¬(i.cmd = some k ∧ i.vec = v ∧ i.unit = u)) ∧ e.indexes = d.indexes ∧ e.fns = d.fns ∧ e.mem = d.mem) ∧
    (∀ v l, c.phase = .active → v < c.runs.length → c.shards = [] → (d.mb c.half).out = false →
      tfind (c.runs.getD v {}).nextFold (c.runs.getD v {}).arrived = some l →
      gives (.foldStep k v) s fun e => (∃ c' f, e.cmd? k = some c' ∧ (c'.runs.getD v {}).nextFold = (c.runs.getD v {}).nextFold + 1 ∧
        (c'.runs.getD v {}).fold = foldStep c.sp.beta f l ∧
        ((c.runs.getD v {}).nextFold ≠ 0 → f = (c.runs.getD v {}).fold) ∧
        (∀ w, w ≠ v → c'.runs.getD w {} = c.runs.getD w {})) ∧ e = { d with cmds := e.cmds, mbs := e.mbs } ∧
        (e.mb c.half).suspect ≠ some k ∧ ∀ h, e.mb h = { d.mb h with suspect := (e.mb h).suspect }) ∧
    (c.phase = .active → d.quiesced = false → d.folded c = true → c.stage ≤ 2 → (∀ o ∈ d.shoal.pending, o.stamp ≠ k) →
      gives (.stageStart k 3) s fun e => (∃ c', e.cmd? k = some c' ∧ c'.listB = d.stageBList c ∧
        (c.sp.stageC = true → c'.listC = some (d.runStageC c (d.stageBList c)).1) ∧ (c.sp.stageC = false → c'.listC = c.listC) ∧
        c'.stage = if c.sp.stageD = true then 4 else 5) ∧ e.indexes = d.indexes ∧ e.fns = d.fns ∧ e.mem = d.mem) ∧
    (c.phase = .active → d.quiesced = false → c.stage = 4 →
      gives (.stageStart k 4) s fun e => (∃ c', e.cmd? k = some c' ∧ c'.stage = 5 ∧
        c'.listD = some (d.runStageD c d.fresh (c.listC.getD c.listB)).1) ∧ e = { d with cmds := e.cmds, fresh := e.fresh })

/-- Final selection, and a search command on an index of this device (R118, R148, R150, R164, R391): once its scoring is complete the command's
completion is posted with SUCCESS and the number of entries returned, at most K, and the command is no longer in flight; SEARCH, MSEARCH and RANGE run
an admitted command through its stages to that completion. The indexes do not change. -/
def Obligations.SearchesRunToCompletion : Prop :=
  ∀ (s : State) (k : Nat) (c : Cmd), let d := s.dev
    d.cmd? k = some c → c.phase = .active → c.snap.isSome = true → c.remote = none → (d.index? c.indexNo).isSome = true →
    d.shoalIndex? c.indexNo = none → d.hostThere c.fn → (d.qp c.fn c.qid).isSome = true → 1 ≤ c.sp.k → c.sp.k ≤ 1024 →
    let completes := fun (e : Device) => (∃ spec, d.posted e c.fn c.qid c.cid 0 spec ∧ spec % 65536 ≤ c.sp.k) ∧ e.cmd? k = none ∧ e.indexes = d.indexes
    (c.op.isSearch = true → c.stage = 5 → gives (.finalSelection k) s completes) ∧
    (d.quiesced = false → (d.mb c.half).out = false → c.vecs.length ≤ 16 * c.chunks → c.runs.length = c.vecs.length → c.stage ≤ 2 →
      (∀ o ∈ d.shoal.pending, o.stamp ≠ k) →
      (c.op = .search → gives (.search k) s completes) ∧ (c.op = .msearch → gives (.msearch k) s completes) ∧
      (c.op = .range → gives (.range k) s completes))

/-- The Hoist boundary (R79, R122, R337, R338, R348, R492): the boundary's instant is the next multiple of H; with admission frozen no command is
admitted, and otherwise the one waiting command whose place, Merge Buffer space and index are there is admitted within 2 µs with its snapshot.
Regulator buckets (R345): at the next microsecond every HI bucket gains its rate up to its depth, and what it cannot hold passes to the LO bucket of
the same resource. No other state of a burgee changes. -/
def Obligations.HoistBoundaryAndBuckets : Prop :=
  (∀ (s : State) (b : Nat), let d := s.dev; let t := d.nextBoundary b
    d.ready = true → b < 16 → d.mgmt.geoWrite = none →
    ((d.frozen = true ∨ d.quiesced = true) →
      gives (.hoistBoundary b) s fun e => (e.burgee b).lastBound = t ∧ e.now = max d.now t ∧ e.cmds = d.cmds) ∧
    (∀ c, d.cmds = [c] → d.frozen = false → d.quiesced = false → (d.burgee b).enabled = true → d.dataPath = true → c.burgee = b →
      c.op.isSearch = true → c.op ≠ .msearch → c.phase = .waiting → c.remote = none → c.sp.filterId = 0 → c.sp.stageD = false → c.sp.boundOnly = false →
      (∀ u, c.deadline = some u → max d.now t < u) → (d.index? c.indexNo).isSome = true → d.shoalIndex? c.indexNo = none →
      d.mbFree c = true → d.places b < (d.burgee b).maxBatch →
      gives (.hoistBoundary b) s fun e => (e.burgee b).lastBound = t ∧ e.now = max (max d.now t) (t + 2000) ∧
        ∃ c', e.cmd? c.stamp = some c' ∧ c'.phase = .active ∧ c'.snap.isSome = true ∧ c'.admitted = t + 2000 ∧ c'.mbBytes = d.mbNeed c)) ∧
  (∀ s : State, let d := s.dev
    (∀ l, l < 32 → (d.link l).queue = []) → gives .tokenBucketRefill s fun e => e.now = max d.now ((d.now / 1000 + 1) * 1000) ∧
      e = { d with now := e.now, burgees := e.burgees, devBuckets := e.devBuckets } ∧
      ∀ b g, tfind b d.burgees = some g → g.buckets.length = 8 → ∃ g', tfind b e.burgees = some g' ∧ g' = { g with buckets := g'.buckets } ∧
        ∀ i, i < 4 →
          let hi := g.buckets.getD (2 * i) {}
          let lo := g.buckets.getD (2 * i + 1) {}
          let up : Int := hi.level + (hi.rate * 1000 : Nat)
          let cap := fun (k : Bucket) => ((k.rate * g.burst * 1000 : Nat) : Int)
          g'.buckets.getD (2 * i) {} = { hi with level := min up (cap hi) } ∧
          g'.buckets.getD (2 * i + 1) {} = { lo with level := min (lo.level + (lo.rate * 1000 : Nat) + max 0 (up - cap hi)) (cap lo) })

/-- Deadlines, lockstep and remote waits (R152, R155, R176, R358, R359): at its deadline an unadmitted command completes with STAGE_CUT 6 and an
admitted one is cut; 25 µs later its lists close; what is sent at a cut moves of a function only what reporting and metering move; a first mismatch re-runs
the step and a second takes the SC or Merge Buffer out with its event; a shard's reply joins its command once; a background request unanswered for 10
ms and a wait of RW end as their rules say. -/
def Obligations.CutsMismatchesAndReplies : Prop :=
  ∀ (s : State) (k : Nat) (c : Cmd), let d := s.dev; d.cmd? k = some c → c.op.isSearch = true → c.remote = none →
    (∀ t, c.phase = .waiting → c.deadline = some t → d.hostThere c.fn → (d.qp c.fn c.qid).isSome = true → c.sp.k ≤ 1024 →
      gives (.deadlineCut k) s fun e => (∃ spec, ({ d with now := max d.now t } : Device).posted e c.fn c.qid c.cid 0 spec ∧ spec / 2 ^ 32 % 256 = 6) ∧
        e.cmd? k = none ∧ e.now = max d.now t ∧ e.indexes = d.indexes) ∧
    (∀ t, c.phase = .active → c.deadline = some t →
      gives (.deadlineCut k) s fun e => (∃ c', e.cmd? k = some c' ∧ c'.phase = .cut ∧ c'.stageCut = d.cutCode c ∧ c'.runs = c.runs) ∧
        e.now = max d.now t ∧ e.indexes = d.indexes ∧ d.fnsSent e) ∧
    (∀ t, c.phase = .cut → c.deadline = some t → d.shoalIndex? c.indexNo = none →
      gives (.remoteListsClose k) s fun e => e.cmd? k = some { c with phase := .closed, missing := 0 } ∧ e.now = max d.now (t + 25000) ∧
        e.indexes = d.indexes ∧ d.fnsSent e) ∧
    (∀ n who, n < 64 → (d.sc n).out = false → (d.sc n).suspect ≠ some who →
      gives (.lockstepMismatch false n who) s fun e => (e.sc n).mismatch = (d.sc n).mismatch + 1 ∧ (e.sc n).suspect = some who ∧
        (e.sc n).out = false ∧ (e.cnt n).lockstep = (d.cnt n).lockstep + 1 ∧ (∀ m, m ≠ n → e.sc m = d.sc m)) ∧
    (∀ n who, n < 64 → (d.sc n).out = false → (d.sc n).suspect = some who →
      gives (.lockstepMismatch false n who) s fun e => (e.sc n).out = true ∧ (e.cnt n).lockstep = (d.cnt n).lockstep + 1 ∧
        e.lastEvent = some (devEvent 2 n)) ∧
    (∀ h, h < 2 → d.mbs.length = 2 → (d.mb h).out = false → (d.mb h).suspect ≠ some k →
      gives (.lockstepMismatch true h k) s fun e => (e.mb h).mismatch = (d.mb h).mismatch + 1 ∧ (e.mb h).out = false ∧
        e.devCnt.mbReruns = d.devCnt.mbReruns + 1 ∧ (∃ c', e.cmd? k = some c' ∧ c'.reruns = c.reruns + 1)) ∧
    (∀ o bs, d.shoal.pending.find? (fun p => p.tag == o.tag && p.dst == o.dst) = some o → o.kind = 0x03 → o.stamp = k →
      (∀ i ∈ d.ctxs, ∀ r ∈ i.rrt, r.tag ≠ o.tag) → (∀ p ∈ c.shardsIn, posOf p ≠ posOf o.dst) →
      gives (.remoteReplyArrival o.dst o.tag bs) s fun e => o ∉ e.shoal.pending ∧
        (∃ c' p, e.cmd? k = some c' ∧ posOf p = posOf o.dst ∧ c'.shardsIn = c.shardsIn ++ [p]) ∧ e.fns = d.fns ∧ e.indexes = d.indexes) ∧
    (∀ o, d.shoal.pending.find? (fun p => p.tag == o.tag && p.stamp == 0) = some o →
      gives (.backgroundReplyTimeout o.tag) s fun e => o ∉ e.shoal.pending ∧ e.shoal.bgTimeouts = d.shoal.bgTimeouts + 1 ∧
        e.now = max d.now (o.at_ + 10000000) ∧ e.indexes = d.indexes ∧ e.cmds = d.cmds) ∧
    (∀ o, d.shoal.pending.find? (fun p => p.tag == o.tag && p.stamp != 0) = some o → o.stamp = k → c.bound = true → c.voided = false →
      gives (.remoteWaitAllowanceExpiry o.tag) s fun e => e.cmd? k = some { c with voided := true, rank := 3 } ∧
        e.now = max d.now (o.at_ + 1000 * (d.burgee c.burgee).rw) ∧ e.shoal = d.shoal)

/-! ### Memory channels (chapter 10) -/

/-- Retrain windows (R312, R317, R320, R321, R324, R325): a trigger waits for its window; the window drains the channel, moves it to RETRAIN and is
counted; training ends it in REPLAY, in REBUILD for an L-tier channel that was FAILED, or in FAILED with two bad pins or with two bad lanes of one
pseudo-channel, whose position the repair record gets as it gets the lanes replaced (that reading is the model's, log entry 57); at 2 ms it ends by
the restored values; replay and rebuild end IN_SERVICE. Each change of state raises its event, and no other channel of a tier changes but the group's
parity channel. -/
def Obligations.RetrainWindowsRunTheirStates : Prop :=
  ∀ (s : State) (c : Nat), let d := s.dev; let k := d.chan c
    let moves := fun (st : ChState) (e : Device) => (e.chan c).state = st ∧ e.raised (devEvent 0x10 (st.code + 256 * c)) ∧
      e = { d.told e with now := e.now, tiers := e.tiers, devBuckets := e.devBuckets, degraded := e.degraded, flash := e.flash } ∧ d.fnsTold e
    let alone := fun (e : Device) => ∀ i, i ≠ c → e.chan i = d.chan i
    (∀ n t, triggerOf n = some t → k.state ≠ .absent → k.trigger = none →
      gives (.retrainTrigger c n) s fun e => e.chan c = { k with trigger := some t } ∧ alone e ∧ e = { d with tiers := e.tiers }) ∧
    (∀ drift limit, limit < drift → k.state ≠ .absent → k.trigger = none →
      gives (.oscillatorDriftSample c drift limit) s fun e => e.chan c = { k with trigger := some .drift } ∧ alone e ∧ e = { d with tiers := e.tiers }) ∧
    (∀ drift limit, drift ≤ limit → gives (.oscillatorDriftSample c drift limit) s fun e => e = d) ∧
    (k.trigger.isSome = true → (k.trigger ≠ some .request ∨ d.mgmt.shed.steps < 2) → (k.state = .inService ∨ k.state = .failed) →
      d.groupBusy c = false → d.frozen = false →
      gives (.retrainWindowStart c) s fun e => moves .retrain e ∧ e.now = (match k.lastAt with | some t => max d.now (t + 100000000) | none => d.now) ∧
        (e.chan c).windowAt = some e.now ∧ (e.chan c).drained = false ∧ (e.chan c).wcb = [] ∧
        (e.chan c).counters.windows = k.counters.windows + 1 ∧ e.mem = d.mem) ∧
    (k.state = .retrain → gives (.retrainDrainDone c) s fun e => e.chan c = { k with drained := true } ∧ alone e ∧ e = { d with tiers := e.tiers }) ∧
    (∀ t, k.state = .retrain → k.drained = true → k.windowAt = some t → d.now ≤ t + 2000000 →
      (∀ bad, c < 68 → 2 ≤ bad.eraseDups.length →
        gives (.retrainTrainingDone c bad) s fun e => moves .failed e ∧ alone e ∧ e.degraded.getLsbD 1 = true) ∧
      (∀ bad, c < 68 → bad.eraseDups.length < 2 → k.wasFailed = false →
        gives (.retrainTrainingDone c bad) s fun e => moves .replay e ∧ alone e ∧ (e.chan c).marks = bad.eraseDups ∧ (e.chan c).journal = k.journal) ∧
      (∀ bad, 68 ≤ c → lostHalves bad.eraseDups = [] →
        gives (.retrainTrainingDone c bad) s fun e => moves .replay e ∧ alone e ∧ (e.chan c).marks = bad.eraseDups ∧ (e.chan c).journal = k.journal ∧
          ∀ m ∈ k.marks, m ∉ bad → (c, 128 + m) ∈ e.flash.repairs) ∧
      (∀ bad pc, 68 ≤ c → pc ∈ lostHalves bad.eraseDups →
        gives (.retrainTrainingDone c bad) s fun e => moves .failed e ∧ alone e ∧ (256 + ((c - 68) % 32 + 32 * pc), 0) ∈ e.flash.repairs) ∧
      (∀ bad, c < 68 → bad.eraseDups.length < 2 → k.wasFailed = true →
        gives (.retrainTrainingDone c bad) s fun e => moves .rebuild e ∧ alone e ∧ (e.chan c).pointer = 0)) ∧
    (∀ t, k.state = .retrain → k.windowAt = some t →
      (k.wasFailed = false →
        gives (.retrainWindowExpiry c true) s fun e => moves .replay e ∧ alone e ∧ (e.chan c).counters.winFails = k.counters.winFails + 1 ∧
          e.now = max d.now (t + 2000000)) ∧
      gives (.retrainWindowExpiry c false) s fun e => moves .failed e ∧ alone e ∧ (e.chan c).trigger = none ∧ e.now = max d.now (t + 2000000)) ∧
    (k.state = .replay → d.frozen = false →
      gives (.journalReplayDone c) s fun e => moves .inService e ∧ alone e ∧ (e.chan c).journal = [] ∧ (e.chan c).lastAt = k.windowAt) ∧
    (∀ rows, k.state = .rebuild → k.pointer + rows < 2 ^ 23 →
      gives (.failedChannelRebuild c rows) s fun e => e.chan c = { k with pointer := k.pointer + rows } ∧ alone e ∧ e = { d with tiers := e.tiers }) ∧
    (∀ rows, k.state = .rebuild → 2 ^ 23 ≤ k.pointer + rows →
      gives (.failedChannelRebuild c rows) s fun e => moves .inService e ∧ alone e) ∧
    (∀ lane, 68 ≤ c → k.state ≠ .absent → Machine.isLane lane = true → lane ∉ k.marks →
      gives (.laneFailure c lane) s fun e => (e.chan c).marks = k.marks ++ [lane] ∧ (e.chan c).trigger.isSome = true ∧ (e.chan c).state = k.state ∧
        (c, lane) ∈ e.flash.repairs ∧ alone e ∧ e = { d with tiers := e.tiers, flash := e.flash })

/-- Rebuilds, repairs, scrub, refresh and the WCB (R319, R322, R327, R328, R488): a row of an out channel is rebuilt and counted, an accumulator entry
lapses 8 µs after its last use, a row that neither decodes nor can be rebuilt stays uncorrectable, a scrubbed row is counted as a read, refresh
follows the temperature, and a flushed entry leaves the WCB. Memory holds the same bytes. -/
def Obligations.RepairRefreshAndFlush : Prop :=
  ∀ (s : State) (c : Nat), let d := s.dev; let k := d.chan c
    let alone := fun (e : Device) => ∀ i, i ≠ c → e.chan i = d.chan i
    (∀ row, c < 68 → c % 17 ≠ 16 → k.out = true → (∀ p ∈ d.tiers.chans, p.1 / 17 = c / 17 → p.1 ≠ c → p.2.state ≠ .failed) →
      gives (.rowRebuild c row) s fun e => (e.chan c).counters.rebuilds = k.counters.rebuilds + 1 ∧ (e.chan c).state = k.state ∧
        e = { d with tiers := e.tiers }) ∧
    (∀ g row t, g < 4 → (d.chan (17 * g + 16)).stripes.find? (fun x => x.row == row) = some t →
      gives (.stripeEntryLapse g row) s fun e => e.now = max d.now (t.last + 8000) ∧
        e.chan (17 * g + 16) = { d.chan (17 * g + 16) with stripes := (d.chan (17 * g + 16)).stripes.filter fun x => x.row != row } ∧
        e = { d with now := e.now, tiers := e.tiers }) ∧
    (∀ row read rebuilt n ms, k.state = .inService → k.code c row = (n, ms) → rowDecode n ms read = none →
      (68 ≤ c ∨ d.groupBusy c = true ∨ rowDecode 32 [] rebuilt = none) →
      gives (.uncorrectableRowRepair c row read rebuilt) s fun e => row ∈ (e.chan c).bad ∧
        (e.chan c).counters.uncorr = k.counters.uncorr + 1 ∧ alone e ∧ e = { d with tiers := e.tiers }) ∧
    (∀ row read rebuilt n ms, k.state = .inService → k.code c row = (n, ms) → rowDecode n ms read = some [] →
      gives (.patrolScrub c row read rebuilt) s fun e => (e.chan c).scrubNext = row + 1 ∧
        (e.chan c).counters.readsLo = k.counters.readsLo + 1 ∧ (e.chan c).bad = k.bad ∧ alone e ∧ e.mem = d.mem) ∧
    (∀ p rate, p < d.tiers.refreshL.length → p < 17 → d.power.hotL = [] → d.power.hotF = [] → d.power.eff < 400 →
      gives (.refreshSampleL p rate false) s fun e => e.tiers.refreshL[p]? = some (max 1 rate) ∧ (∀ q, q ≠ p → e.tiers.refreshL[q]? = d.tiers.refreshL[q]?) ∧
        e = { d with tiers := { d.tiers with refreshL := e.tiers.refreshL }, power := { d.power with hot := false } }) ∧
    (∀ p rate, p < 17 → p ∉ d.power.hotL →
      gives (.refreshSampleL p rate true) s fun e => p ∈ e.power.hotL ∧ e.power.hot = true ∧ e.lastEvent = some (devEvent 0x11 (powerInfo 0x0D 3 (256 + p)))) ∧
    (∀ i (t : Int) r, i < 4 → d.tiers.refreshF[i]? = some r → d.power.hotL = [] → d.power.hotF = [] → d.power.eff < 400 →
      gives (.refreshSampleF i t false) s fun e => e.tiers.refreshF[i]? = some (if 340 < t then 2 else if t < 332 then 1 else r) ∧
        (∀ q, q ≠ i → e.tiers.refreshF[q]? = d.tiers.refreshF[q]?) ∧
        e = { d with tiers := { d.tiers with refreshF := e.tiers.refreshF }, power := { d.power with hot := false } }) ∧
    (∀ i (t : Int), i < 4 → i ∉ d.power.hotF →
      gives (.refreshSampleF i t true) s fun e => i ∈ e.power.hotF ∧ e.power.hot = true ∧ e.lastEvent = some (devEvent 0x11 (powerInfo 0x0D 3 i))) ∧
    (∀ key w, d.frozen = false → k.wcb.find? (fun x => x.key == key) = some w →
      gives (.wcbFlush c key) s fun e => (∀ x ∈ (e.chan c).wcb, x.key ≠ key) ∧
        (e.chan c).counters.wcbRmw = k.counters.wcbRmw + (if w.written = [(0, keyBytes c)] then 0 else 1) ∧
        e = { d with tiers := e.tiers, devBuckets := e.devBuckets }) ∧
    (∀ key, d.frozen = true → gives (.wcbFlush c key) s fun e => e = d)

/-! ### Near-Memory Atomics (chapter 10) -/

/-- Near-Memory Atomic operations (R221, R329, R330): each element of the block becomes the operation's result on its old value and the operand's
element, and no byte of memory outside the block changes where no placed copy mirrors it. Tagged accumulation (R331): TRESET zeroes the block and
opens it for a count of contributors; the expected contributor's TADD_F32 adds, and its TSKIP leaves, the block, and the next is expected or the block
closes; an early operation is held and an old one discarded, with memory unchanged; where the Tag Table or the hold area of the controller of four
channels (R308) is full it waits. -/
def Obligations.AtomicsAndTaggedBlocks : Prop :=
  (∀ (s : State) (own : Bool) (b a : Nat) (v : List Byte), let d := s.dev
    d.tiers.trained = true → d.tiers.erased = [] → d.noCopyAt a v.length →
    let becomes := fun (w : Nat) (f : Nat → Nat → Nat) (e : Device) =>
      (∀ i, i < v.length / w → fieldAt (e.read a v.length) (w * i) w = f (fieldAt (d.read a v.length) (w * i) w) (fieldAt v (w * i) w)) ∧
        d.sameMemOutside e a v.length ∧ e = { d with mem := e.mem, tiers := e.tiers, devBuckets := e.devBuckets }
    (d.nmaOk .addI32 own b a v = true → gives (.addI32 own b a v) s (becomes 4 fun x y => (x + y) % 2 ^ 32)) ∧
    (d.nmaOk .addI64 own b a v = true → gives (.addI64 own b a v) s (becomes 8 fun x y => (x + y) % 2 ^ 64)) ∧
    (d.nmaOk .addF32 own b a v = true →
      gives (.addF32 own b a v) s (becomes 4 fun x y => (f32Add (BitVec.ofNat 32 x) (BitVec.ofNat 32 y)).toNat)) ∧
    (d.nmaOk .addBf16 own b a v = true →
      gives (.addBf16 own b a v) s (becomes 2 fun x y => fPack fmtBF16 (vAdd (fDecode fmtBF16 x) (fDecode fmtBF16 y)) % 2 ^ 16)) ∧
    (d.nmaOk .or_ own b a v = true → gives (.nmaOr own b a v) s (becomes 8 fun x y => x ||| y)) ∧
    (d.nmaOk .and_ own b a v = true → gives (.nmaAnd own b a v) s (becomes 8 fun x y => x &&& y)) ∧
    (d.nmaOk .maxU64 own b a v = true → gives (.maxU64 own b a v) s (becomes 8 max)) ∧
    (d.nmaOk .maxI32 own b a v = true →
      gives (.maxI32 own b a v) s (becomes 4 fun x y => if (BitVec.ofNat 32 x).toInt < (BitVec.ofNat 32 y).toInt then y else x)) ∧
    (d.nmaOk .maxF32 own b a v = true →
      gives (.maxF32 own b a v) s (becomes 4 fun x y => (f32Max (BitVec.ofNat 32 x) (BitVec.ofNat 32 y)).toNat))) ∧
  (∀ (s : State) (own : Bool) (b a n : Nat), let d := s.dev
    d.tiers.trained = true → d.tiers.erased = [] → d.noCopyAt a 64 →
    ∀ c key, d.chanOf a = some (c, key) → let k := d.chan c
    let rest := fun (e : Device) => d.sameMemOutside e a 64 ∧ e = { d with mem := e.mem, tiers := e.tiers, devBuckets := e.devBuckets }
    (d.nmaOk .treset own b a [] = true → (d.tagsOpen c < 16384 ∨ ∃ t ∈ k.tags, t.addr = a) → k.heldTags = [] →
      gives (.treset own b a n) s fun e => rest e ∧ (∀ i, i < 64 → e.byteAt (a + i) = 0) ∧
        (e.chan c).tags = k.tags.filter (fun t => t.addr != a) ++ (if n = 0 then [] else [⟨a, 0, n⟩])) ∧
    (d.nmaOk .treset own b a [] = true → 16384 ≤ d.tagsOpen c → (∀ t ∈ k.tags, t.addr ≠ a) → gives (.treset own b a n) s fun e => e = d) ∧
    (∀ v, d.nmaOk .tadd own b a v = true → 512 ≤ d.tagsHeld c → (∀ t ∈ k.tags, t.addr = a → t.expected < n) →
      gives (.taddF32 own b a n v) s fun e => e = d) ∧
    (∀ t, t ∈ k.tags → t.addr = a → (∀ u ∈ k.tags, u.addr = a → u = t) → k.heldTags = [] →
      let next := if t.count ≤ t.expected + 1 then none else some { t with expected := t.expected + 1 }
      (∀ v, d.nmaOk .tadd own b a v = true → t.expected = n →
        gives (.taddF32 own b a n v) s fun e => rest e ∧ (e.chan c).tag? a = next ∧
          ∀ i, i < 16 → fieldAt (e.read a 64) (4 * i) 4 =
            (f32Add (BitVec.ofNat 32 (fieldAt (d.read a 64) (4 * i) 4)) (BitVec.ofNat 32 (fieldAt v (4 * i) 4))).toNat) ∧
      (d.nmaOk .tskip own b a [] = true → t.expected = n →
        gives (.tskip own b a n) s fun e => (e.chan c).tag? a = next ∧ e = { d with tiers := e.tiers }) ∧
      (∀ v, d.nmaOk .tadd own b a v = true → d.tagsHeld c < 512 → t.expected < n →
        gives (.taddF32 own b a n v) s fun e => (e.chan c).heldTags = [⟨a, n, some v⟩] ∧ (e.chan c).tag? a = some t ∧ e = { d with tiers := e.tiers }) ∧
      (∀ v, d.nmaOk .tadd own b a v = true → n < t.expected →
        gives (.taddF32 own b a n v) s fun e => (e.chan c).heldTags = [] ∧ (e.chan c).tag? a = some t ∧ e = { d with tiers := e.tiers })))

/-! ### Streams and address programs (chapter 8) -/

/-- A stream descriptor that keeps the rules (R241 to R246, R259): once its place and pair are free the stream runs with the descriptor's fields, an
IN or MCAST_IN stream with its first slot claimed in every SC it fills, and the space of its escape area (R263) is taken in the F-tier where no space
in use meets it. Streams of other rows and all of memory stay. That an escape area starts at ESC_BASE and is mirrored from there is the model's
reading (log entry 33). -/
def Obligations.StreamsStart : Prop :=
  ∀ (s : State) (sc ste : Nat) (prog : List W64) (desc : List Byte), let d := s.dev
    let t := parseStream (d.str sc).nextId ste desc
    let d1 := if prog.isEmpty = true then d else d.loadAp sc t.progSlot prog
    d.ready = true → (d.sc sc).out = false → sc < 64 → ste < 4 → d1.streamOk sc t = true → d1.streamFree sc t = true →
    let n := 2 * (t.nSlots * t.slotBytes)
    let free := ∀ x ∈ d.tiers.extF, ¬ (x.base < t.escBase + n ∧ t.escBase < x.base + x.len)
    let runs := fun (slot : Option Nat) (e : Device) => { t with slot := slot } ∈ (e.str sc).running ∧
      (∀ r ∈ (d.str sc).running, r ∈ (e.str sc).running) ∧ (e.str sc).xfers = (d.str sc).xfers ∧
      (t.opcode ≠ 3 → free → e.tiers.extF = ⟨t.escBase, n, if t.own = true then none else some t.burgee⟩ :: d.tiers.extF) ∧
      (t.opcode = 3 ∨ ¬ free → e.tiers.extF = d.tiers.extF) ∧
      (∀ i k, d.ctx? i = some k → ∃ es, e.ctx? i = some { k with escapes := es ++ k.escapes }) ∧
      ({ d with tiers := { d.tiers with extF := e.tiers.extF }, ctxs := e.ctxs } : Device).pairsTo e
    let bound := fun (e : Device) (k : Nat) => (e.sem k t.sem).active = true ∧ (e.sem k t.sem).ringAddr = t.ringAddr ∧
      (e.sem k t.sem).slotBytes = t.slotBytes ∧ (e.sem k t.sem).nSlots = t.prefetch + 1
    let claimed := fun (e : Device) (k : Nat) => (e.sem k t.sem).filling = 1 ∧ (e.sem k t.sem).empty = t.prefetch
    (t.opcode = 1 → t.chain = false → gives (.streamIn sc ste prog desc) s fun e => runs (some 0) e ∧ bound e sc ∧ claimed e sc) ∧
    (t.opcode = 2 → t.chain = false → gives (.streamOut sc ste prog desc) s fun e => runs none e ∧ bound e sc ∧ (e.sem sc t.sem).full = 0 ∧
      (e.sem sc t.sem).empty = t.prefetch + 1) ∧
    (t.opcode = 3 → gives (.streamCopy sc ste prog desc) s fun e => runs none e ∧ ∀ k, e.sem sc k = d.sem sc k) ∧
    (t.opcode = 4 → t.chain = false → gives (.mcastIn sc ste prog desc) s fun e => runs (some 0) e ∧
      ∀ k, k < 64 → t.mcMask.testBit k = true → bound e k ∧ claimed e k)

/-- Address-program arithmetic, loops and index entries (R248, R249): the next instruction writes its register, or opens, repeats or leaves its loop
level, and the program goes on; nothing else of the device changes but a ring's count when its last entry is taken. An entry is read from the held
slot of the index ring. -/
def Obligations.AddressProgramsCompute : Prop :=
  ∀ (s : State) (sc id : Nat) (t : Stream) (w : W64), let d := s.dev
    let x := t.regs.getD (apSa w) 0
    let sets := fun (v : W64) (e : Device) => d.streamTo e sc id { t with regs := t.regs.set (apDa w) v, pc := t.pc + 1, held := none }
    (d.apNext sc id 0x01 t w → gives (.apSeti sc id) s (sets (apImmS w))) ∧
    (d.apNext sc id 0x02 t w → gives (.apAddi sc id) s (sets (x + apImmS w))) ∧
    (d.apNext sc id 0x03 t w → gives (.apAdd sc id) s (sets (x + t.regs.getD (apSb w) 0))) ∧
    (d.apNext sc id 0x04 t w → gives (.apMuli sc id) s (sets (x * BitVec.ofNat 64 (apImm w)))) ∧
    (d.apNext sc id 0x05 t w → gives (.apShri sc id) s (sets (x >>> (apImm w % 64)))) ∧
    (d.apNext sc id 0x06 t w → gives (.apAndi sc id) s (sets (x &&& BitVec.ofNat 64 (apImm w)))) ∧
    (d.apNext sc id 0x07 t w → gives (.apCtr sc id) s (sets (BitVec.ofNat 64 (t.counters.getD (apLv w) 0)))) ∧
    (∀ n, d.apNext sc id 0x10 t w → n = (if apImm w = 0 then x.toNat else apImm w) → 0 < n → n < 2 ^ 24 →
      gives (.apLoop sc id) s fun e => d.streamTo e sc id
        { t with counters := t.counters.set (apLv w) 0, loops := ⟨apLv w, n, t.pc + 1⟩ :: t.loops, pc := t.pc + 1 }) ∧
    (∀ l ls, d.apNext sc id 0x11 t w → t.loops = l :: ls →
      let n := t.counters.getD (apLv w) 0 + 1
      (n < l.count → gives (.apEndl sc id) s fun e => d.streamTo e sc id { t with counters := t.counters.set (apLv w) n, pc := l.body }) ∧
      (l.count ≤ n →
        gives (.apEndl sc id) s fun e => d.streamTo e sc id { t with counters := t.counters.set (apLv w) n, pc := t.pc + 1, loops := ls })) ∧
    (∀ k, d.apNext sc id 0x18 t w → t.idxSem = some k → (d.sem sc k).held = true → (d.sem sc k).heldAt < 16 →
      t.idxTaken + 1 < (d.sem sc k).slotBytes / 4 →
      let bs := d.placeRead sc (d.sem sc k).ringAddr ((d.sem sc k).heldAt * (d.sem sc k).slotBytes) (d.sem sc k).slotBytes
      let v := BitVec.ofNat 64 (fieldAt bs (4 * t.idxTaken) 4)
      gives (.apIdx sc id) s fun e => d.streamTo e sc id
        { t with regs := t.regs.set (apDa w) v, pc := t.pc + 1, held := none, idxTaken := t.idxTaken + 1 }) ∧
    (d.apNext sc id 0x29 t w → d.outstanding sc id = [] →
      gives (.apFence sc id) s fun e => d.streamTo e sc id { t with pc := t.pc + 1, held := none })

/-- Address-program transfers, slots and the end (R243, R249 to R254, R259, R330): XFER, XFERA and LDM put a transfer outstanding with its address,
length and bytes, once for each SC that a multicast read fills, where it is the stream's turn and nothing holds it; held, the stream keeps its place
and the cause is noted; a completion stores a write's bytes where they go and a read's in the slot of its SC; the word of an LDM reaches its register;
SLOT closes the slot and END the stream. The statement is about SCs on which no descriptor waits and no engine waits for a slot. -/
def Obligations.AddressProgramsTransfer : Prop :=
  ∀ (s : State) (sc id : Nat) (t : Stream) (w : W64), let d := s.dev
    let ra := (t.regs.getD (apSa w) 0).toNat % 2 ^ 48
    let rb := (t.regs.getD (apSb w) 0).toNat % 2 ^ 48
    let n := apImm w % 4096
    let adds := fun (e : Device) (xs : List Transfer) (P : Transfer → Prop) => (e.str sc).xfers = (d.str sc).xfers ++ xs ∧
      (∀ x ∈ xs, (d.str sc).nextId ≤ x.id ∧ x.stream = id ∧ x.at_ = d.now ∧ P x) ∧ e.mem = d.mem ∧ (∀ k, e.sem sc k = d.sem sc k)
    let held := ((d.slotRead sc (d.pairOf sc t.sem t.ctx) (t.slot.getD 0)) : List Byte)
    let pass := fun (e : Device) => ∃ t', e.stream? sc id = some t' ∧ t'.pc = t.pc + 1 ∧ t'.regs = t.regs ∧ t'.placed = true
    (∀ mem other, d.apNext sc id 0x20 t w → t.skip = 0 → mem = (if t.opcode = 2 then rb else t.movedTo ra n) →
      other = (if t.opcode = 2 then ra else rb) → n % 32 = 0 → 32 ≤ n → n ≤ 2048 → mem % 32 = 0 → (t.opcode = 3 → other % 32 = 0) →
      (t.opcode ≠ 3 → other + n ≤ t.slotBytes) → d.mayTouchAll t.own t.burgee mem n = true →
      (t.opcode = 3 → d.mayTouchAll t.own t.burgee other n = true) → t.piecesOf w = [⟨mem, n, t.opcode == 2, other⟩] → t.unitReg = none →
      d.heldBy sc t (t.piecesOf w) = none → d.turnToIssue sc t = true →
      gives (.apXfer sc id) s fun e => pass e ∧ ∃ xs, xs.map (·.dst) = (if t.opcode = 4 then t.scs sc else [sc]) ∧
        adds e xs fun x => x.addr = mem ∧ x.len = n ∧ x.place = other ∧ x.write = (t.opcode == 2) ∧ x.slot = t.slot.getD 0 ∧ x.ldm = none ∧
          x.nma = none ∧ x.data = if t.opcode = 2 then (held.drop other).take n else d.read mem n) ∧
    (∀ c, d.apNext sc id 0x20 t w → t.skip = 0 → (t.xferOf w).2.1 % 32 = 0 → 32 ≤ n → n ≤ 2048 → (t.xferOf w).1 % 32 = 0 → t.opcode ≠ 3 →
      (t.xferOf w).2.2 + n ≤ t.slotBytes → d.mayTouchAll t.own t.burgee (t.xferOf w).1 n = true → d.heldBy sc t (t.piecesOf w) = some c →
      gives (.apXfer sc id) s fun e => e.stream? sc id = some { t with held := some c } ∧ (e.str sc).xfers = (d.str sc).xfers ∧ e.mem = d.mem) ∧
    (∀ o c, d.apNext sc id 0x21 t w → nmaOfCode (bits 15 12 (apImm w)) = some o → t.opcode = 2 → o.lenOk n = true → rb % n = 0 →
      ra + n ≤ t.slotBytes → d.chanOf rb = some c → d.mayTouchAll t.own t.burgee rb n = true → d.heldBy sc t (t.wants w) = none →
      d.turnToIssue sc t = true →
      gives (.apXfera sc id) s fun e => pass e ∧ ∃ x, adds e [x] fun x => x.addr = rb ∧ x.len = n ∧ x.write = true ∧
        x.nma = some (bits 15 12 (apImm w), (t.regs.getD (apSb w) 0).toNat / 2 ^ 48, (apImm w).testBit 16) ∧ x.data = (held.drop ra).take n) ∧
    (∀ a, d.apNext sc id 0x19 t w → a = t.movedTo ((t.regs.getD (apSa w) 0 + apImmS w).toNat % 2 ^ 48) 8 →
      d.mayTouchAll t.own t.burgee a 8 = true → t.unitReg = none → d.heldBy sc t [⟨a, 8, false, 0⟩] = none → d.turnToIssue sc t = true →
      gives (.apLdm sc id) s fun e => (∃ t', e.stream? sc id = some t' ∧ t'.pc = t.pc ∧ t'.regs = t.regs ∧ t'.ldmWait = true) ∧
        ∃ x, adds e [x] fun x => x.ldm = some (apDa w) ∧ x.addr = a ∧ x.len = 8 ∧ x.data = d.read a 8) ∧
    (∀ x, d.stream? sc id = some t → (d.outstanding sc id).find? (fun y => y.ldm.isSome) = some x →
      gives (.ldmReturn sc id) s fun e => e.stream? sc id =
          some { t with regs := t.regs.set (x.ldm.getD 0) (BitVec.ofNat 64 (leNat x.data)), pc := t.pc + 1, ldmWait := false, held := none } ∧
        (e.str sc).xfers = (d.str sc).xfers.filter (fun y => y.id != x.id) ∧ e = { d with streams := e.streams }) ∧
    (∀ x, d.ready = true → (d.str sc).xfers.find? (fun y => y.id == x.id) = some x → x.stream = id → d.stream? sc id = some t → x.ldm = none →
      x.nma = none → d.tiers.erased = [] → (d.area x.addr = .fTier ∨ ∀ p ∈ d.burgees, p.2.placed = []) → d.noneWait sc → d.enginesFree sc →
      (x.write = true →
        gives (.transferComplete sc x.id) s fun e => (∀ i, i < x.data.length → e.byteAt (x.addr + i) = x.data.getD i 0) ∧
          d.sameMemOutside e x.addr x.data.length ∧ (∀ y, y ∈ (e.str sc).xfers ↔ y ∈ (d.str sc).xfers ∧ y.id ≠ x.id)) ∧
      (x.write = false → (t.opcode = 1 ∨ t.opcode = 4) → inTile t.ringAddr = false →
        let a := scBase x.dst + t.ringAddr + (x.slot * t.slotBytes + x.place)
        gives (.transferComplete sc x.id) s fun e => (∀ i, i < x.data.length → e.byteAt (a + i) = x.data.getD i 0) ∧
          d.sameMemOutside e a x.data.length ∧ (∀ y, y ∈ (e.str sc).xfers ↔ y ∈ (d.str sc).xfers ∧ y.id ≠ x.id))) ∧
    (∀ k, d.apNext sc id 0x28 t w → t.hasRing = true → t.slot = some k → t.skip = 0 → (t.slotCount = 0 ∨ t.closed + 1 < t.slotCount) →
      d.noneWait sc →
      gives (.apSlot sc id) s fun e => (∃ t', e.stream? sc id = some t' ∧ t'.pc = t.pc + 1 ∧ t'.closed = t.closed + 1 ∧ t'.regs = t.regs) ∧
        (e.str sc).xfers = (d.str sc).xfers ∧ d.pairsTo e) ∧
    (d.apNext sc id 0x3F t w → d.outstanding sc id = [] → t.again = [] → d.noneWait sc →
      gives (.apEnd sc id) s fun e => e.stream? sc id = none ∧ (∀ i, i ≠ id → e.stream? sc i = d.stream? sc i) ∧
        (t.hasRing = true → ∀ n ∈ t.scs sc, (d.sem n t.sem).active = true → (d.sem n t.sem).ctx = t.ctx → (e.sem n t.sem).ended = true) ∧
        d.pairsTo e) ∧
    (d.apNext sc id 0x3F t w → d.outstanding sc id ≠ [] → d.noneWait sc →
      gives (.apEnd sc id) s fun e => (∃ t', e.stream? sc id = some t' ∧ t'.ended = true) ∧ d.pairsTo e)

/-- Faults of streams, dip points and spills (R208, R255, R262 to R265, R341, R355): at a first tag mismatch the streams of the context's input rings
restart at the slot not yet consumed, and a first poisoned read has its slot read again whole, or its word or piece; a second ends its command; a
timeout waits 400 µs; an STE leaves tag-limited mode when its transfers are done, unless its SC is withheld; the monitor takes a sample each µs, and
of a cycle of waits blocked over 50 µs drains the filled slots of the first ring in order that holds no escape; an idle SC takes its ready context;
spilled banks return with their bytes. Which filled slots a drain moves is the model's reading (log entry 34), and that later slots are kept (log
entry 36). -/
def Obligations.StreamFaultsAndDipPoints : Prop :=
  ∀ (s : State) (sc : Nat), let d := s.dev
    let ends := fun (m : Cmd) (st : Nat) (e : Device) => d.posted e m.fn m.qid m.cid st 0 ∧ e.cmd? m.stamp = none
    (∀ k t m, d.ctx? k = some t → t.cmd = some m.stamp → d.cmd? m.stamp = some m →
      (m.restarts = 0 → (∀ p ∈ (d.str sc).sems, p.2.active = true → p.2.ctx = k → p.2.isOut = true) → gives (.tagMismatch sc k none) s fun e => (e.eng sc).tagMiss = (d.eng sc).tagMiss + 1 ∧
        (∃ m', e.cmd? m.stamp = some m' ∧ m'.restarts = 1) ∧ e.ctxs = d.ctxs ∧ e.mem = d.mem) ∧
      (∀ r u, m.restarts = 0 → (d.str sc).sems.filter (fun p => p.2.active && p.2.ctx == k && !p.2.isOut) = [(r, d.sem sc r)] →
        d.fillerOf sc r = some (sc, u) → u.opcode = 1 → u.id < (d.str sc).nextId → t.spilled = [] → d.noneWait sc → u.ste < 4 →
        d.placeFree sc u.ste = true →
        let from_ := u.before + ((d.sem sc r).done + 2 ^ 32 - (d.sem sc r).first) % 2 ^ 32
        gives (.tagMismatch sc k none) s fun e => (e.eng sc).tagMiss = (d.eng sc).tagMiss + 1 ∧ e.stream? sc u.id = none ∧
          ∃ q ∈ (e.str sc).running, q.opcode = 1 ∧ q.sem = u.sem ∧ q.ctx = k ∧ q.ringAddr = u.ringAddr ∧ q.init = u.init ∧ q.regs = u.init ∧
            q.pc = 0 ∧ q.skip = from_) ∧
      (1 ≤ m.restarts → m.remote = none → d.hostThere m.fn → (d.qp m.fn m.qid).isSome = true → (∀ j, d.noneWait j) →
        gives (.tagMismatch sc k none) s fun e => (e.eng sc).tagMiss = (d.eng sc).tagMiss + 1 ∧ ends m stScaleSkew e)) ∧
    (∀ x t m k, (d.str sc).xfers.find? (fun y => y.id == x.id) = some x → d.stream? sc x.stream = some t → d.ctx? t.ctx = some k →
      k.cmd = some m.stamp → d.cmd? m.stamp = some m → t.ste < (d.str sc).stes.length →
      let again := fun (e : Device) => (e.cnt sc).poisoned = (d.cnt sc).poisoned + 1 ∧
        (∃ q, (e.str sc).stes[t.ste]? = some q ∧ q.limited = true ∧ q.recovery = some d.now) ∧
        (∃ m', e.cmd? m.stamp = some m' ∧ m'.restarts = 1) ∧ e.mem = d.mem
      (∀ p, x.write = false → m.restarts = 0 → d.copyAt x.addr = none → t.opcode = 1 → x.ldm = none → p.write = false →
        t.pieces.filter (fun q => q.1 == x.slot) = [(x.slot, p)] →
        gives (.uncorrectableRead sc x.id) s fun e => again e ∧
          (∀ y ∈ (e.str sc).xfers, y.stream = t.id → y.slot = x.slot → y.ldm = none → (d.str sc).nextId ≤ y.id) ∧
          ∃ y ∈ (e.str sc).xfers, y.stream = t.id ∧ y.slot = x.slot ∧ y.addr = t.movedTo p.addr p.len ∧ y.len = p.len ∧ y.place = p.place ∧
            y.data = d.read y.addr p.len) ∧
      (x.write = false → m.restarts = 0 → d.copyAt x.addr = none → (t.opcode = 3 ∨ x.ldm.isSome = true) →
        gives (.uncorrectableRead sc x.id) s fun e => again e ∧
          ∃ y ∈ (e.str sc).xfers, y = { x with id := (d.str sc).nextId, addr := t.movedTo x.addr x.len, data := d.read (t.movedTo x.addr x.len) x.len,
                                               at_ := d.now }) ∧
      (x.write = false → 1 ≤ m.restarts → m.remote = none → d.hostThere m.fn → (d.qp m.fn m.qid).isSome = true → (∀ j, d.noneWait j) →
        gives (.uncorrectableRead sc x.id) s fun e => (e.cnt sc).poisoned = (d.cnt sc).poisoned + 1 ∧ ends m stUncorrectable e) ∧
      (x.write = true → m.remote = none → d.hostThere m.fn → (d.qp m.fn m.qid).isSome = true → (∀ j, d.noneWait j) →
        gives (.transferTimeout sc x.id) s fun e => e.now = max d.now (x.at_ + 400000) ∧ (e.cnt sc).timeouts = (d.cnt sc).timeouts + 1 ∧
          ends m stUncorrectable e)) ∧
    (∀ i q r, (d.str sc).stes[i]? = some q → q.recovery = some r → (∀ x ∈ (d.str sc).xfers, x.id ∉ q.watch) →
      gives (.tagLimitedExit sc i) s fun e => (e.str sc).stes[i]? = some { q with limited := d.scWithheld sc, recovery := none, watch := [] } ∧
        e.now = max d.now (r + 1000000) ∧ (e.str sc).xfers = (d.str sc).xfers ∧ e = { d with now := e.now, streams := e.streams }) ∧
    (d.ready = true → d.waitCycles sc = [] → gives (.progressSample sc) s fun e => e.now = d.now + 1000 ∧ (e.str sc).blocked = [] ∧
      e = { d with now := e.now, streams := e.streams }) ∧
    (∀ ks k c, d.ready = true → d.waitCycles sc = [ks] → (d.str sc).blocked = [c] → c.rings = ks → c.seen = ks.map (d.ringSeen sc) →
      (∀ j ∈ ks, d.ringExcused sc j = false) → c.at_ + 50000 < c.blocked + (d.now + 1000) →
      (orderRings (d.ringBefore sc) (ks.filter fun j => decide (j < 64))).find? (fun j => (d.sem sc j).escape.isEmpty) = some k →
      let m := (d.sem sc k).filledLast
      gives (.progressSample sc) s fun e => e.now = d.now + 1000 ∧ (e.sem sc k).full = 0 ∧ (e.sem sc k).filling = (d.sem sc k).filling - m ∧
        (e.sem sc k).empty = (d.sem sc k).empty + (d.sem sc k).full + m ∧ (e.sem sc k).escape = (d.sem sc k).drainable) ∧
    (∀ cycles need ve tiles k, d.ready = true → sc < 64 → (d.sc sc).out = false → (d.sc sc).starting = none → (d.sc sc).running = none →
      d.ctxs = [k] → k.sc = sc → k.state ≠ .remote → d.ctxReady k = true → (∀ m, k.cmd.bind d.cmd? = some m → m.snap.bind (·.filter) = none) →
      (k.started = true ∨ need ≤ (d.freeBanks k).length) → d.noneWait sc → d.enginesFree sc → (d.eng sc).walkWait = [] →
      tget [] k.id (d.eng sc).savedAcc = [] → (∀ t ∈ (d.str sc).running, t.again = []) →
      gives (.dipPointSchedule sc cycles need ve tiles) s fun e => (e.sc sc).running = some k.id ∧ (e.sc sc).credit = d.credits sc cycles ∧
        (∃ k', e.ctxs = [k'] ∧ k'.id = k.id ∧ k'.state = .running ∧ k'.started = true ∧
          k'.banks = k.banks ++ (d.freeBanks k).take (if k.started = true then 0 else need)) ∧ e.mem = d.mem) ∧
    (∀ i, (d.sc sc).starting = some i →
      gives (.spillDone sc) s fun e => (e.sc sc).running = some i ∧ (e.sc sc).starting = none ∧
        (∀ k, d.ctx? i = some k → e.ctx? i = some { k with state := .running, started := true }) ∧ e = { d with scs := e.scs, ctxs := e.ctxs }) ∧
    (∀ k i n a, d.ctx? i = some k → k.state = .spilled → k.spilled = [(n, a)] → d.bankHolder k.sc n = none → (∀ r ∈ k.rrt, r.state ≠ .parked) →
      d.tiers.erased = [] → a % 2048 = 0 → a + 0x80000 ≤ d.fCap → (∀ m, k.cmd.bind d.cmd? = some m → m.snap.bind (·.filter) = none) →
      (∀ p ∈ tget [] i (d.str k.sc).saved, (d.sem k.sc p.1).active = false) → tget [] i (d.eng k.sc).savedAcc = [] →
      (∀ t ∈ (d.str k.sc).running, t.again = []) → d.noneWait k.sc →
      gives (.contextFill i) s fun e => (∀ j, j < 0x40000 → e.byteAt (scBase k.sc + 0x40000 * n + j) = d.byteAt (d.mirrorAt a j)) ∧
        d.sameMemOutside e (scBase k.sc + 0x40000 * n) 0x40000 ∧
        ∃ k', e.ctx? i = some k' ∧ k'.spilled = [] ∧ k'.banks = k.banks ++ [n] ∧
          k'.state = if (d.sc k.sc).running = none then .running else .yielded)

/-! ### The engines of a Search Cluster (chapter 6) -/

/-- The Matrix Engine (R62, R184 to R191, R207, R243): a descriptor that keeps the rules computes its tile, each cell the sum of its rows' chunks, or
in a TABLE for L2SQ the negated squared distance of R62, and delivers it to the Finished Tile Queue, or with its chunk count to scratchpad; positions
outside ROWS and COLS hold +0. No other memory changes. Where an operand's slot of a ring has not come, the descriptor waits for it and nothing is
computed. Where a block's header lies, and the squared distance's one chunk, are the model's (log entries 38 and 39). -/
def Obligations.MatrixEngineTiles : Prop :=
  ∀ (s : State) (sc : Nat) (desc : List Byte) (fa fb : VFmt), let d := s.dev; let m := parseMe desc
    sc < 64 → d.meOk sc m = true → (d.eng sc).ftqHeld = none → (d.eng sc).meNext = none → m.aFmt = some fa → m.bFmt = some fb →
    d.tiers.erased = [] →
    (∀ k p j, d.ringOver sc m.ctx m.aAddr = some (k, p, j) → p.isOut = false → p.holds = false → p.nextPlace = j → p.take = none →
      m.op = 1 → gives (.meScore sc desc) s fun e => (e.eng sc).meNext = some desc ∧ (e.sem sc k).engineWaits = true ∧
        (e.sem sc k).wait = (d.sem sc k).wait + 1 ∧ (e.eng sc).ftq = (d.eng sc).ftq ∧ e.mem = d.mem) ∧
    (d.meTagOk sc m = true → (∀ a ∈ m.touches, d.ringOver sc m.ctx a = none) →
    let cell := fun (i j : Nat) =>
      if i < m.rows ∧ j < m.cols then
        if m.op = 2 ∧ (d.ctxIndex m.ctx).any (·.metric == .l2sq) = true then
          meDist (d.meRow sc fa m.depth m.aAddr m.aStr m.aPar i) (d.meRow sc fb m.depth m.bAddr m.bStr m.bPar j)
        else meSum (if m.accIn = true then some (BitVec.ofNat 32 (fieldAt (d.spad sc m.acc 16384) (4 * (64 * i + j)) 4)) else none)
          (meChunks (d.meRow sc fa m.depth m.aAddr m.aStr m.aPar i) (d.meRow sc fb m.depth m.bAddr m.bStr m.bPar j))
      else 0
    let done := fun (e : Device) => (e.cnt sc).meTiles = (d.cnt sc).meTiles + 1 ∧ (∀ k, k ≠ sc → e.eng k = d.eng k) ∧
      (m.toSpad = false → (d.eng sc).ftq.length < 8 →
        (∃ t, (e.eng sc).ftq = (d.eng sc).ftq ++ [t] ∧ t.ctx = m.ctx ∧ t.unit = m.unit ∧ t.tile = m.tile ∧ t.opcode = m.op ∧ t.rows = m.rows ∧
          t.cols = m.cols ∧ ∀ i j, i < 64 → j < 64 → t.values.getD (64 * i + j) 0 = cell i j) ∧ e = { d with engines := e.engines, scCnt := e.scCnt }) ∧
      (m.toSpad = true →
        (∀ i j, i < 64 → j < 64 → fieldAt (e.spad sc m.out 16384) (4 * (64 * i + j)) 4 = (cell i j).toNat) ∧
          tget 0 m.out (e.eng sc).accTiles = m.chunk0 + ceilDiv m.depth 64 ∧ d.sameMemOutside e (scBase sc + m.out) 16384 ∧
          (e.eng sc).ftq = (d.eng sc).ftq)
    (m.op = 1 → gives (.meScore sc desc) s done) ∧ (m.op = 2 → gives (.meTable sc desc) s done) ∧
    (m.op = 3 → gives (.meDense sc desc) s done) ∧ (m.op = 4 → gives (.meTrain sc desc) s done))

/-- The Code Engine (R192 to R196, R199, R201): a scan pass puts a block's scores in the Code Score Queue, one for each position and query that its
masks admit, or offers them to the SE's lists where the command's index has no transform; a gather gives a score list for each request in turn, and
where its context walks, those of the expansions that still wait for one. The BASE of a request beyond N_Q is the model's choice (log entry 39). -/
def Obligations.CodeEnginePasses : Prop :=
  ∀ (s : State) (sc : Nat) (desc : List Byte), let d := s.dev; let c := parseCe desc
    let attrs := (d.ctxIndex c.ctx).elim 0 (·.attrWords)
    sc < 64 → c.ok attrs = true → (d.eng sc).ceNext = none → d.ringOver sc c.ctx c.code = none →
    let pass := d.cePass sc c attrs 0
    let scans := fun (e : Device) => e.mem = d.mem ∧ (∀ k, k ≠ sc → e.eng k = d.eng k) ∧
      (∀ i q, i < 64 → q < c.nq → pass.scores.getD (4 * i + q) none =
        if (leNat (d.spad sc (c.mask + 8 * q) 8)).testBit i = true then
          some (ceScore (tfind (c.slots.getD q 0) (d.eng sc).ceSlots) c.pq (c.base.getD q 0)
            (unpackCodes c.codeShape.1 c.codeShape.2.1 ((((d.spad sc c.code (576 + 64 * c.codeShape.2.2)).drop (64 + i * c.codeShape.2.2)).take
              c.codeShape.2.2))))
        else none) ∧
      (d.ctxCmd c.ctx = none → (e.eng sc).csq = (d.eng sc).csq ++ [pass] ∧ (e.cnt sc).cePasses = (d.cnt sc).cePasses + 1) ∧
      (∀ m x, d.ctxCmd c.ctx = some m → d.ctxIndex c.ctx = some x → m.transform x = [] → (e.eng sc).csq = (d.eng sc).csq ∧
        ∀ q, q < c.nq → (e.eng sc).seList m.sp.cap c.ctx c.unit q =
          (pass.offers q).foldl (fun u o => offer m.sp.beta u o.key o.entry) ((d.eng sc).seList m.sp.cap c.ctx c.unit q))
    let rs := (List.range c.n).filterMap (d.ceRequest sc c)
    let gathers := fun (e : Device) =>
      ((d.eng sc).walk? c.ctx c.unit = none → (e.eng sc).gathered = (d.eng sc).gathered ++ rs) ∧
      (∀ w, (d.eng sc).walk? c.ctx c.unit = some w →
        let asked := w.inFlight.filter fun x => if c.op = 4 then x.ham else x.pq
        (e.eng sc).gathered = (d.eng sc).gathered ++ (rs.zip asked).map fun p => { p.1 with node := some p.2.node }) ∧
      (e.cnt sc).cePasses = (d.cnt sc).cePasses + ceilDiv c.n c.nq ∧ e = { d with engines := e.engines, scCnt := e.scCnt }
    let one := c.n = 1 ∧ (d.eng sc).csq.length < 8 ∧ d.ceTagOk sc c attrs 0 = true ∧ ∃ x ∈ pass.scores, x.isSome = true
    let each := ∀ r, r < c.n → (d.ceRequest sc c r).isSome = true
    (c.op = 1 → one → gives (.scanPq sc desc) s scans) ∧ (c.op = 2 → one → gives (.scanHam sc desc) s scans) ∧
    (c.op = 3 → each → gives (.gatherPq sc desc) s gathers) ∧ (c.op = 4 → each → gives (.gatherHam sc desc) s gathers)

/-- The Walk Engine and the Filter Unit (R128, R129, R134, R137, R197 to R199, R202 to R206): a walk context starts from its entry node where its pool
is free and the burgee's walks keep within 28 banks, and waits else; a descent reaches its node; a commit whose records and scores have come expands
the best unexpanded entry of the beam; and the Filter Unit writes a mask bit for each candidate it admits or a verdict for each cell, tagged with its
context and unit. That TOMB_ADDR 0 names no bitmap is the model's choice (log entry 39). -/
def Obligations.WalksAndFilters : Prop :=
  ∀ (s : State) (sc : Nat) (desc : List Byte), let d := s.dev; let g := d.eng sc
    (∀ x, let w := parseWalk desc
      sc < 64 → walkOk desc w = true → d.index? w.index = some x → g.walkWait = [] →
      (w.mode = 0 → d.walkFits sc w = false → gives (.walkLevel0 sc desc) s fun e => (e.eng sc).walkWait = [(desc, d.now)] ∧
        (e.eng sc).walks = g.walks ∧ e = { d with engines := e.engines }) ∧
      (g.walks.length < 256 → (∀ o ∈ g.walks, rangesMeet o.pool o.bytes w.pool w.bytes = false) →
      lsum ((g.walks.filter fun o => (d.ctx? o.ctx).elim 0 (·.burgee) == (d.ctx? w.ctx).elim 0 (·.burgee)).map (·.bytes)) + w.bytes ≤ 28 * 0x40000 →
      let adds := fun (P : Walk → Prop) (e : Device) => ∃ w', (e.eng sc).walks = g.walks ++ [w'] ∧ w'.ctx = w.ctx ∧ w'.unit = w.unit ∧ w'.pool = w.pool ∧
        w'.bytes = w.bytes ∧ w'.mode = w.mode ∧ P w' ∧ (∀ k, k ≠ sc → e.eng k = d.eng k) ∧
        ({ d with engines := e.engines } : Device).readsCharged e
      let start := walkStart (w.view x) w.width (w.fin x g) (fieldAt desc 8 4)
      (w.mode = 0 → gives (.walkLevel0 sc desc) s (adds fun w' => w'.beam = start.beam ∧ w'.visited = start.visited)) ∧
      (w.mode = 1 → gives (.walkCentroid sc desc) s (adds fun w' => w'.beam = start.beam ∧ w'.visited = start.visited)) ∧
      (w.mode = 2 → gives (.walkUpperDescent sc desc) s (adds fun w' => w'.ended = true ∧
        w'.reached = descend (w.view x) (w.sk g) ((w.graph x).nNodes + 1) 1 (fieldAt desc 12 1) (fieldAt desc 8 4))))) ∧
    (∀ ctx unit w x b, g.walks.find? (fun w => w.ctx == ctx && w.unit == unit && !w.ended) = some w → d.index? w.index = some x →
      nextOf w.beam = some b → w.due = [] → d.expansionMiss x w b.node = none →
      let r := w.walked.expand (w.view x) 0 w.width w.keep (w.sk g) (w.fin x g) b.node
      gives (.expansionCommit sc ctx unit) s fun e => (∃ w' ∈ (e.eng sc).walks, w'.ctx = w.ctx ∧ w'.unit = w.unit ∧ w'.beam = r.beam ∧
          w'.visited = r.visited ∧ w'.expanded = r.expanded) ∧
        (e.cnt sc).weCommits = (d.cnt sc).weCommits + 1 ∧ (∀ k, k ≠ sc → e.eng k = d.eng k) ∧
        ({ d with engines := e.engines, scCnt := e.scCnt } : Device).readsCharged e) ∧
    (∀ x, let f := parseFu desc
      let base := (d.ctxCmd f.ctx).elim f.start fun c => if d.routed c.indexNo = true then c.shoalView else f.start
      sc < 64 → d.fuOk sc f = true → d.fuIndex sc f = some x → d.tiers.erased = [] → d.ringOver sc f.ctx f.src = none →
      let tagged := fun (e : Device) => (∀ k, k ≠ sc → e.eng k = d.eng k) ∧ e.eng sc = { g with outTags := tset f.mask (f.ctx, f.unit) g.outTags }
      let masks := fun (e : Device) => (∀ i q, i < 64 * ceilDiv f.count 64 → q < f.nSets →
          ((fieldAt (e.spad sc f.mask (8 * ceilDiv f.count 64 * f.nSets)) (8 * (i / 64 * f.nSets + q)) 8).testBit (i % 64) = true ↔
            i < f.count ∧ ∃ id words, d.fuCand sc f x base i = some (id, words) ∧ g.fu.admits f.prog (f.sets.getD q 0) id words = true)) ∧
        d.sameMemOutside e (scBase sc + f.mask) (8 * ceilDiv f.count 64 * f.nSets) ∧
        (e.cnt sc).fuGroups = (d.cnt sc).fuGroups + ceilDiv f.count 64 ∧ tagged e
      (f.source = 0 → gives (.fuSlotBlock sc desc) s masks) ∧ (f.source = 1 → gives (.fuDelta sc desc) s masks) ∧
      (f.source = 2 → gives (.fuNodeRecords sc desc) s masks) ∧
      (f.source = 3 → gives (.fuCellSummaries sc desc) s fun e => (∀ i q, i < f.count → q < f.nSets →
          (e.byteAt (scBase sc + f.mask + (i * f.nSets + q) / 4)).toNat / 4 ^ ((i * f.nSets + q) % 4) % 4 = d.fuVerdict sc f x i (f.sets.getD q 0)) ∧
        (e.cnt sc).fuGroups = (d.cnt sc).fuGroups + ceilDiv f.count 64 ∧ tagged e))

/-! ### The Vector Engine (chapter 7) -/

/-- Vector Engine arithmetic (R216 to R223): each lane that the predicate names takes the micro-op's result on the lane's sources, integer results
wrapping at the lane's width; the other lanes, the other registers and the rest of the device stay. -/
def Obligations.VectorArithmetic : Prop :=
  ∀ (s : State) (sc ctx : Nat) (m : Micro), let d := s.dev; let v := (d.eng sc).ve
    let a := v.source m m.a
    let b := v.source m m.b
    let c := v.source m m.c
    let x := fun (l : Nat) => fDecode fmtFP32 (a l)
    let y := fun (l : Nat) => fDecode fmtFP32 (b l)
    let n := laneBits (modeOfType m.typ)
    let tgts := m.dst < 32 ∨ (48 ≤ m.dst ∧ m.dst < 54)
    (d.veReady sc 0x01 m → tgts → gives (.veMov sc ctx m) s fun e => d.veWrote e sc m fun l => match typeFloat m.typ with | some f => fPack f (fDecode f (a l)) | none => a l % 2 ^ n) ∧
    (d.veReady sc 0x02 m → tgts → gives (.veAdd sc ctx m) s fun e => d.veWrote e sc m fun l => match typeFloat m.typ with | some f => fPack f (vAdd (fDecode f (a l)) (fDecode f (b l))) | none => (a l + b l) % 2 ^ n) ∧
    (d.veReady sc 0x03 m → tgts → gives (.veSub sc ctx m) s fun e => d.veWrote e sc m fun l => match typeFloat m.typ with | some f => fPack f (vSub (fDecode f (a l)) (fDecode f (b l))) | none => (a l + 2 ^ n - b l % 2 ^ n) % 2 ^ n) ∧
    (d.veReady sc 0x04 m → tgts → gives (.veMul sc ctx m) s fun e => d.veWrote e sc m fun l => match typeFloat m.typ with | some f => fPack f (vMul (fDecode f (a l)) (fDecode f (b l))) | none => a l * b l % 2 ^ n) ∧
    (d.veReady sc 0x05 m → tgts → gives (.veFma sc ctx m) s fun e => d.veWrote e sc m fun l => match typeFloat m.typ with | some f => fPack f (vAdd (vMul (fDecode f (a l)) (fDecode f (b l))) (fDecode f (c l))) | none => 0) ∧
    (d.veReady sc 0x06 m → tgts → gives (.veMin sc ctx m) s fun e => d.veWrote e sc m fun l => match typeFloat m.typ with | some f => fPack f (vMin (fDecode f (a l)) (fDecode f (b l))) | none => if signedOf n (a l) ≤ signedOf n (b l) then a l else b l) ∧
    (d.veReady sc 0x07 m → tgts → gives (.veMax sc ctx m) s fun e => d.veWrote e sc m fun l => match typeFloat m.typ with | some f => fPack f (vMax (fDecode f (a l)) (fDecode f (b l))) | none => if signedOf n (a l) ≤ signedOf n (b l) then b l else a l) ∧
    (d.veReady sc 0x08 m → tgts → gives (.veAbs sc ctx m) s fun e => d.veWrote e sc m fun l => match typeFloat m.typ with | some f => fPack f (vAbs (fDecode f (a l))) | none => 0) ∧
    (d.veReady sc 0x09 m → tgts → gives (.veNeg sc ctx m) s fun e => d.veWrote e sc m fun l => match typeFloat m.typ with | some f => fPack f (vNeg (fDecode f (a l))) | none => 0) ∧
    (d.veReady sc 0x0A m → tgts → gives (.veDiv sc ctx m) s fun e => d.veWrote e sc m fun l => fDiv fmtFP32 (x l) (y l)) ∧
    (d.veReady sc 0x0B m → tgts → gives (.veExpo sc ctx m) s fun e => d.veWrote e sc m fun l => twos 32 (vExpo (x l))) ∧
    (d.veReady sc 0x0C m → tgts → gives (.veScalb sc ctx m) s fun e => d.veWrote e sc m fun l => fPack fmtFP32 (vScale (x l) (max (-1000) (min 1000 (signedOf 32 (b l)))))) ∧
    (d.veReady sc 0x10 m → tgts → gives (.veRcp sc ctx m) s fun e => d.veWrote e sc m fun l => fDiv fmtFP32 (.fin false 1 0) (x l)) ∧
    (d.veReady sc 0x11 m → tgts → gives (.veRsqrt sc ctx m) s fun e => d.veWrote e sc m fun l => fRsqrt fmtFP32 (x l)) ∧
    (d.veReady sc 0x12 m → tgts → gives (.veSqrt sc ctx m) s fun e => d.veWrote e sc m fun l => fSqrt fmtFP32 (x l)) ∧
    (d.veReady sc 0x13 m → tgts → gives (.veExp2 sc ctx m) s fun e => d.veWrote e sc m fun l => (exp2Rn (x l)).toNat) ∧
    (d.veReady sc 0x14 m → tgts → gives (.veLog2 sc ctx m) s fun e => d.veWrote e sc m fun l => (f32Log2 (BitVec.ofNat 32 (a l))).toNat) ∧
    (d.veReady sc 0x15 m → tgts → gives (.veTanh sc ctx m) s fun e => d.veWrote e sc m fun l => (f32Tanh (BitVec.ofNat 32 (a l))).toNat) ∧
    (d.veReady sc 0x20 m → tgts → gives (.veRelu sc ctx m) s fun e => d.veWrote e sc m fun l => match typeFloat m.typ with | some f => fPack f (vMax (fDecode f (a l)) vZero) | none => 0) ∧
    (d.veReady sc 0x21 m → tgts → gives (.veGeluTanh sc ctx m) s fun e => d.veWrote e sc m fun l => (f32GeluTanh (BitVec.ofNat 32 (a l))).toNat) ∧
    (d.veReady sc 0x22 m → tgts → gives (.veSilu sc ctx m) s fun e => d.veWrote e sc m fun l => (f32Silu (BitVec.ofNat 32 (a l))).toNat) ∧
    (d.veReady sc 0x23 m → tgts → gives (.veSigmoid sc ctx m) s fun e => d.veWrote e sc m fun l => (f32Sigmoid (BitVec.ofNat 32 (a l))).toNat)

/-- Vector Engine compares, selection, conversion, bits and lane moves (R220, R221, R224, R226, R227): a compare writes a mask bit for each lane its
predicate names, with NaN unordered; the other micro-ops write their lane's value, a NaN of a floating TYPE as the canonical one; nothing else of the
device changes. -/
def Obligations.VectorComparesAndMoves : Prop :=
  ∀ (s : State) (sc ctx : Nat) (m : Micro), let d := s.dev; let v := (d.eng sc).ve
    let a := v.source m m.a
    let b := v.source m m.b
    let n := laneBits (modeOfType m.typ)
    let lanes := lanesN (modeOfType m.typ)
    let tgts := m.dst < 32 ∨ (48 ≤ m.dst ∧ m.dst < 54)
    let marks := fun (f : Nat → Bool) (e : Device) =>
      (∀ l, l < lanes → (e.eng sc).ve.kBit m.dst l = if v.kBit m.mask l = true then f l else v.kBit m.dst l) ∧
        (∀ k, k ≠ m.dst → ∀ l, (e.eng sc).ve.kBit k l = v.kBit k l) ∧
        e.eng sc = { d.eng sc with ve := { v with mode := modeOfType m.typ, k := (e.eng sc).ve.k } } ∧ (∀ k, k ≠ sc → e.eng k = d.eng k) ∧
        e = { d with engines := e.engines }
    (1 ≤ m.dst → m.dst ≤ 7 →
      (d.veReady sc 0x30 m → gives (.veCmpeq sc ctx m) s (marks fun l => match typeFloat m.typ with | some f => vEq (fDecode f (a l)) (fDecode f (b l)) | none => decide (signedOf n (a l) = signedOf n (b l)))) ∧
      (d.veReady sc 0x31 m → gives (.veCmplt sc ctx m) s (marks fun l => match typeFloat m.typ with | some f => vLt (fDecode f (a l)) (fDecode f (b l)) | none => decide (signedOf n (a l) < signedOf n (b l)))) ∧
      (d.veReady sc 0x32 m → gives (.veCmple sc ctx m) s (marks fun l => match typeFloat m.typ with | some f => vLe (fDecode f (a l)) (fDecode f (b l)) | none => decide (signedOf n (a l) ≤ signedOf n (b l)))) ∧
      (d.veReady sc 0x33 m → gives (.veCmpun sc ctx m) s (marks fun l => match typeFloat m.typ with | some f => fDecode f (a l) == .nan || fDecode f (b l) == .nan | none => false))) ∧
    (d.veReady sc 0x34 m → tgts → m.c < 8 →
      gives (.veSel sc ctx m) s fun e => d.veWrote e sc m fun l => canonLane m.typ (if v.kBit m.c l = true then a l else b l)) ∧
    (d.veReady sc 0x41 m → tgts → attrfOk m.imm = true →
      gives (.veAttrf sc ctx m) s fun e => d.veWrote e sc m fun l =>
        (attrF32 (bits 22 21 m.imm) (bits 20 15 m.imm) (bits 14 8 m.imm) ((tget [] l v.attrs).getD (bits 25 23 m.imm) 0)).toNat) ∧
    (∀ j, d.veReady sc 0x60 m → tgts → m.imm = 2 ^ j → 2 ^ j < lanes →
      gives (.veShfx sc ctx m) s fun e => d.veWrote e sc m fun l => canonLane m.typ (a (l ^^^ 2 ^ j))) ∧
    (d.veReady sc 0x62 m → tgts → m.imm < lanes → gives (.veBcastl sc ctx m) s fun e => d.veWrote e sc m fun _ => canonLane m.typ (a m.imm)) ∧
    (d.veReady sc 0x40 m → tgts → gives (.veCvt sc ctx m) s fun e => d.veWrote e sc m fun l => cvtLane (m.imm % 16) (a l)) ∧
    (d.veReady sc 0x50 m → tgts → gives (.veAnd sc ctx m) s fun e => d.veWrote e sc m fun l => a l &&& b l) ∧
    (d.veReady sc 0x51 m → tgts → gives (.veOr sc ctx m) s fun e => d.veWrote e sc m fun l => a l ||| b l) ∧
    (d.veReady sc 0x52 m → tgts → gives (.veXor sc ctx m) s fun e => d.veWrote e sc m fun l => a l ^^^ b l) ∧
    (d.veReady sc 0x53 m → tgts → gives (.veShl sc ctx m) s fun e => d.veWrote e sc m fun l => a l * 2 ^ (b l % 32) % 2 ^ 32) ∧
    (d.veReady sc 0x54 m → tgts → gives (.veShr sc ctx m) s fun e => d.veWrote e sc m fun l => a l / 2 ^ (b l % 32)) ∧
    (d.veReady sc 0x61 m → tgts → gives (.veShfi sc ctx m) s fun e => d.veWrote e sc m fun l => canonLane m.typ (a (b l % lanes)))

/-- Exact accumulation, tile-buffer lines and programs (R217, R225, R228, R231): XMAC adds each named lane's product to its accumulator; XCLOSE writes
the sums rounded once and clears them; LDL and STL move a line that no ring covers; VE_RUN runs its program's blocks over its lane groups. -/
def Obligations.VectorAccumulatorsLinesAndRuns : Prop :=
  ∀ (s : State) (sc ctx : Nat) (m : Micro), let d := s.dev; let g := d.eng sc; let v := g.ve
    let a := v.source m m.a
    let b := v.source m m.b
    let on := fun (l : Nat) => v.kBit m.mask l = true
    let acc := fun (v : Ve) (l : Nat) => tget ({} : LaneAcc) l v.acc
    let buf := bits 25 24 m.imm
    let ln := bits 23 17 m.imm
    (d.veReady sc 0x70 m → (∀ l, l < 128 → on l → (acc v l).count + 1 < 2 ^ 24) →
      gives (.veXmac sc ctx m) s fun e => (∀ l, l < 128 → acc (e.eng sc).ve l =
          if v.kBit m.mask l = true then { sum := vAdd (acc v l).sum (vMul (fDecode fmtFP32 (a l)) (fDecode fmtFP32 (b l))), count := (acc v l).count + 1 }
          else acc v l) ∧
        e.eng sc = { g with ve := { v with mode := 0, acc := (e.eng sc).ve.acc } } ∧ e = { d with engines := e.engines }) ∧
    (d.veReady sc 0x71 m → m.dst < 32 →
      gives (.veXclose sc ctx m) s fun e => (∀ l, l < 128 → (e.eng sc).ve.lane m m.dst l =
          (if v.kBit m.mask l = true then fPack fmtFP32 (acc v l).sum % 2 ^ 32 else v.lane m m.dst l) ∧
          (on l → acc (e.eng sc).ve l = {}) ∧ (¬ on l → acc (e.eng sc).ve l = acc v l)) ∧
        (∀ r, r ≠ m.dst → tget 0 r (e.eng sc).ve.v = tget 0 r v.v) ∧
        e.eng sc = { g with ve := { v with mode := 0, acc := (e.eng sc).ve.acc, v := (e.eng sc).ve.v } } ∧ e = { d with engines := e.engines }) ∧
    (d.veReady sc 0x80 m → (m.dst < 32 ∨ (48 ≤ m.dst ∧ m.dst < 54)) → g.tileOk ctx buf = true → g.tileHeld buf = false →
      d.ringOver sc ctx (microLine m) = none →
      gives (.veLdl sc ctx m) s fun e => d.veWrote e sc m fun l =>
        canonLane m.typ ((g.tileLine buf ln).toNat / 2 ^ (l * laneBits (modeOfType m.typ)) % 2 ^ laneBits (modeOfType m.typ))) ∧
    (d.veReady sc 0x81 m → m.dst = 0 → g.tileOk ctx buf = true → g.tileHeld buf = false →
      d.ringOver sc ctx (microLine m) = none →
      gives (.veStl sc ctx m) s fun e => (∀ l, l < lanesN (modeOfType m.typ) →
          let w := laneBits (modeOfType m.typ)
          ((e.eng sc).tileLine buf ln).toNat / 2 ^ (l * w) % 2 ^ w =
            if v.kBit m.mask l = true ∧ l < v.tail then a l % 2 ^ w else (g.tileLine buf ln).toNat / 2 ^ (l * w) % 2 ^ w) ∧
        (∀ t i, (t ≠ buf ∨ i ≠ ln) → (e.eng sc).tileLine t i = g.tileLine t i) ∧
        e.eng sc = { g with ve := { v with mode := modeOfType m.typ }, tb := (e.eng sc).tb } ∧ e = { d with engines := e.engines }) ∧
    (∀ desc w p, let q := parseVe desc
      p = { init := [], body := [w], end0 := [], end1 := [], end2 := [], consts := p.consts } → sc < 64 → q.op = 1 → q.ok = true → q.progOk p = true →
      q.n0 = 1 → q.n1 = 1 → q.n2 = 1 → q.extent ≤ lanesN q.mode → portsRead [w] = [] → usesTile (microOf w).1 = false →
      (microOf w).1 ≠ 0x41 → (∀ r ∈ q.ports, r.kind ≠ 1) → d.ctxCmd q.ctx = none → g.veNext = none → d.enginesFree sc →
      let xs := (p.consts.zipIdx.map fun k => (k.2, k.1)) ++ q.xinit.zipIdx.map fun k => (12 + k.2, k.1)
      let start : Ve := { v with progs := tset q.slot p v.progs, mode := q.mode, x := xs, ports := [], outs := [], lineOut := [], v := [], k := [], acc := [], tail := q.extent, loops := (0, 0, 0, 0) }
      ∀ v1, start.micro g.tileLine (microOf w).1 (microOf w).2 = some v1 → v1.outs = [] → v1.lineOut = [] →
        gives (.veRun sc desc (some p)) s fun e => (e.eng sc).ve = v1 ∧ e.fresh = d.fresh + 2048 ∧ e.mem = d.mem ∧ (∀ k, k ≠ sc → e.eng k = d.eng k))

/-! ### Placement, merges, rewrites and jobs (chapters 3, 9, 11) -/

/-- Placement (R113 to R115, R334 to R336): a period's end takes the heat, clears the probes and evicts what has none; while work is shed no copy
moves. A fill that completes makes its entry valid and its copy the unit's bytes, also of the entries past the units; the space of a left entry
returns once its view is released. -/
def Obligations.PlacementMovesCopies : Prop :=
  ∀ s : State, let d := s.dev
    let ended := fun (b : Nat) (e : Device) => e.now = max d.now ((d.burgee b).periodAt + (d.burgee b).period * 1000000) ∧
      (e.burgee b).periodAt = e.now ∧ (∀ h ∈ e.heat, (∃ x, d.index? h.index = some x ∧ x.burgee = b) → h.probes = 0) ∧ e.indexes = d.indexes
    (∀ b, d.ready = true → (d.burgee b).enabled = true → (d.mgmt.shed.steps < 2 ∧ d.quiesced = false ∧ d.frozen = false) →
      gives (.placementPeriodEnd b) s fun e => ended b e ∧
        (∀ p x, p ∈ (d.burgee b).placed → p.kind ≤ 2 → d.index? p.index = some x → x.indexNo = p.index → x.burgee = b →
          (∀ h ∈ d.heat, h.index = p.index → h.unit = p.unit → h.probes + h.prev / 2 = 0) →
          ∀ q ∈ (e.burgee b).placed, ¬ (q.index = p.index ∧ q.unit = p.unit ∧ q.kind ≤ 2)) ∧
        e = { d with now := e.now, heat := e.heat, burgees := e.burgees, mem := e.mem, tiers := e.tiers, devBuckets := e.devBuckets,
                     devCnt := { d.devCnt with evictions := e.devCnt.evictions } }) ∧
    (∀ b, d.ready = true → (d.burgee b).enabled = true → (2 ≤ d.mgmt.shed.steps ∨ d.quiesced = true ∨ d.frozen = true) →
      gives (.placementPeriodEnd b) s fun e => ended b e ∧ (e.burgee b).placed = (d.burgee b).placed ∧ (e.burgee b).left = (d.burgee b).left ∧
        e = { d with now := e.now, heat := e.heat, burgees := e.burgees, mem := e.mem, tiers := e.tiers, devBuckets := e.devBuckets }) ∧
    (∀ i unit x p, d.index? i = some x → d.placed? x unit = some p → p.valid = false → d.ready = true → d.mgmt.shed.steps < 2 →
      d.quiesced = false → d.frozen = false →
      gives (.placementFillDone i unit) s fun e => { p with valid := true, fromView := x.view } ∈ (e.burgee x.burgee).placed ∧
        p ∉ (e.burgee x.burgee).placed ∧ (∀ q, q ≠ p → q ∈ (d.burgee x.burgee).placed → q ∈ (e.burgee x.burgee).placed) ∧
        e.devCnt = { d.devCnt with fills := d.devCnt.fills + 1 } ∧
        (∀ k, d.tiers.erased = [] → k < (x.unitForm p.kind unit).length →
          (p.fAddr + k < x.placementBase + 16 * unit ∨ x.placementBase + 16 * unit + 16 ≤ p.fAddr + k) →
          e.byteAt (p.fAddr + k) = (x.unitForm p.kind unit).getD k 0) ∧
        e = { d with burgees := e.burgees, mem := e.mem, tiers := e.tiers, devCnt := e.devCnt }) ∧
    (∀ i x k, d.index? i = some x → k ≤ 2 → d.placed? x (x.units + k) = none → d.fixedState x k = 3 → d.ready = true → d.mgmt.shed.steps < 2 →
      d.quiesced = false → d.frozen = false →
      gives (.placementFillDone i (x.units + k)) s fun e => e.fixedState x k = 2 ∧ e.devCnt = { d.devCnt with fills := d.devCnt.fills + 1 } ∧
        d.burgeesMetered e ∧ e = { d with burgees := e.burgees, mem := e.mem, tiers := e.tiers, devCnt := e.devCnt }) ∧
    (∀ b a l, (d.burgee b).left.find? (·.fAddr == a) = some l → (d.released l.index l.view = true ∨ tfind l.index d.indexes = none) →
      gives (.placementSpaceRelease b a) s fun e => (e.burgee b).left = (d.burgee b).left.filter (· != l) ∧
        (∀ k ∈ e.tiers.extF, k.base ≠ a) ∧ (∀ k ∈ d.tiers.extF, k.base ≠ a → k ∈ e.tiers.extF) ∧ (∀ c, c ≠ b → e.burgee c = d.burgee c) ∧
        e = { d with burgees := e.burgees, tiers := { d.tiers with extF := e.tiers.extF } })

/-- A merge pass of a local index (R96 to R98, R104, R106, R395, R398): an entry takes the slot of its target cell, or the next node, at the next
view; its ID map entry and counts follow. An entry without a cell is marked MERGE_FAILED and recorded once, one without a slot starts a relocation,
whose new extent is taken at once, and one unreadable in both rings is lost. -/
def Obligations.MergePassPlacesEntries : Prop :=
  ∀ (s : State) (i ei : Nat) (x : Index) (v : DeltaEntry), let d := s.dev
    d.ready = true → d.quiesced = false → d.index? i = some x → d.shoalIndex? i = none → tfind ei x.delta = some v → x.liveEntries = [(ei, v)] →
    x.away = [] →
    let n := ((x.targetCell (formF32 v.vec)).getD 0)
    let t := (x.cell n).nextSlot
    let quiet := fun (e : Device) => v.reported = false → e.fns = d.fns ∧ e.out = d.out
    (∀ b p, x.kind ≠ .graph → d.mayAdvance i = true → x.targetCell (formF32 v.vec) = some n → (x.cell n).state ≠ 2 →
      t < 64 * (x.cell n).cur.capBlocks → d.released i (tget ({} : BlockHead) (t / 64) (x.cell n).cur.blocks).freshView = true →
      x.lookup v.id = some (b, p, .delta ei) → n < 2 ^ 26 → t < 2 ^ 20 →
      gives (.mergePass i []) s fun e => ∃ y, d.indexToTelling e i y ∧ quiet e ∧
        tfind t (y.cell n).cur.slots = some (x.slotOf n v) ∧ t ∉ (y.cell n).cur.tombs ∧ (y.cell n).nLive = (x.cell n).nLive + 1 ∧
        (y.cell n).mergeView = nextView x.view ∧ (y.cell n).nSlots = max (x.cell n).nSlots (t + 1) ∧
        (∀ k, k ≠ t → tfind k (y.cell n).cur.slots = tfind k (x.cell n).cur.slots) ∧ (∀ m, m ≠ n → tfind m y.cells = tfind m x.cells) ∧
        tfind ei y.delta = some { v with endView := nextView x.view, state := 4, target := n, slot := t, failed := false } ∧
        (∀ j, j ≠ ei → tfind j y.delta = tfind j x.delta) ∧ (y.lookup v.id).map (·.2.2) = some (.slot n t) ∧
        y = { x with cells := y.cells, delta := y.delta, idMap := y.idMap, nLive := x.nLive + 1, view := nextView x.view } ∧
        (v.reported = true → d.logged e 0x5002 v i n)) ∧
    (∀ m d', x.kind = .graph → d.mayAdvance i = true →
      (∀ g, tfind (x.graph.nNodes / 64) x.graph.groups = some g → g.state ≠ 2) → d.placeNode i (nextView x.view) v = some (m, d') →
      gives (.mergePass i []) s fun e => ∃ y, d.indexToTelling e i y ∧ quiet e ∧ m = x.graph.nNodes ∧ y.graph.nNodes = x.graph.nNodes + 1 ∧
        (y.graph.node? m).map (·.id) = some v.id ∧ (y.graph.node? m).map (·.view) = some (nextView x.view) ∧ y.nLive = x.nLive + 1 ∧
        y.view = nextView x.view ∧ (∀ j, j ≠ ei → tfind j y.delta = tfind j x.delta) ∧
        tfind ei y.delta = some { v with endView := nextView x.view, state := 4, target := m, slot := 0xFFFFFFFF, failed := false }) ∧
    (x.kind ≠ .graph → x.targetCell (formF32 v.vec) = none →
      gives (.mergePass i []) s fun e => ∃ y, d.indexToTelling e i y ∧ tfind ei y.delta = some { v with failed := true, reported := true } ∧
        (∀ j, j ≠ ei → tfind j y.delta = tfind j x.delta) ∧ y = { x with delta := y.delta } ∧
        (v.reported = true → e.fns = d.fns ∧ e.out = d.out) ∧ (v.reported = false → d.logged e 0x5001 v i 0xFFFFFFFF)) ∧
    (∀ base f, x.kind ≠ .graph → x.targetCell (formF32 v.vec) = some n → (x.cell n).state = 1 → 64 * (x.cell n).cur.capBlocks ≤ t →
      let bytes := x.extentBytes (grownCap (x.cell n).cur.capBlocks)
      bytes ≤ d.lFree → d.takeL (some x.burgee) bytes = some (base, f) →
      gives (.mergePass i []) s fun e => ∃ y, d.indexTo e i y ∧ (y.cell n).state = 2 ∧ y.delta = x.delta ∧ y.view = x.view ∧
        (y.cell n).rewrite = some ⟨false, grownCap (x.cell n).cur.capBlocks, base, bytes, false, []⟩ ∧ e.tiers.extL = f.tiers.extL ∧
        (y.cell n).cur = (x.cell n).cur ∧ (∀ m, m ≠ n → tfind m y.cells = tfind m x.cells)) ∧
    (∀ b p, v.state = 1 → x.lookup v.id = some (b, p, .delta ei) → x.delta = [(ei, v)] →
      gives (.mergePass i [ei]) s fun e => ∃ y, d.indexToTelling e i y ∧ tfind ei y.delta = some { v with state := 2, endView := x.view } ∧
        y.occupied = x.occupied - 1 ∧ idLoc (y.idEntry b p) = none ∧ y.cells = x.cells ∧ y.view = x.view ∧
        d.logged e 0x5003 v i 0xFFFFFFFF)

/-- Rewrites (R97, R108 to R110, R299): the first part takes the new extent and marks the unit rewriting, a re-encode where it is the unit's turn; the
last makes the new copy current in that extent and the old one previous at the next view, under TARGET_GEN for a re-encode, and the placed copy
invalid; the previous copy goes once CUT_VIEW is released, and an abandoned rewrite begins again after its 10 ms. That a rewrite waits for the release
of the previous copy is the model's choice (log entry 41): the statement is about units that have none. -/
def Obligations.RewritesCutOver : Prop :=
  ∀ (s : State) (i unit : Nat) (x : Index), let d := s.dev; let c := x.cell unit
    d.ready = true → d.quiesced = false → d.index? i = some x →
    let others := fun (y : Index) => ∀ m, m ≠ unit → tfind m y.cells = tfind m x.cells
    let groups := fun (y : Index) => ∀ m, m ≠ unit → tfind m y.graph.groups = tfind m x.graph.groups
    (∀ cap base f, x.kind ≠ .graph → unit < x.nCells → c.cur.capBlocks ≤ cap → cap ≤ 16384 → c.state = 1 → x.extentBytes cap ≤ d.lFree →
      d.takeL (some x.burgee) (x.extentBytes cap) = some (base, f) →
      gives (.rewrite i unit .begins false cap) s fun e => ∃ y, d.indexTo e i y ∧
        y.cell unit = { c with state := 2, rewrite := some ⟨false, cap, base, x.extentBytes cap, false, []⟩ } ∧ others y ∧
        e.tiers.extL = f.tiers.extL ∧
        y = { x with cells := y.cells, reserved := x.reserved + x.extentBytes cap }) ∧
    (∀ cap base f, x.kind ≠ .graph → d.mgmt.shed.steps < 2 → x.targetGen ≠ x.liveGen → c.state = 1 → x.nextReencode = some unit →
      x.windowUsed + x.unitExtent unit ≤ x.rewriteWindow → d.takeL (some x.burgee) (x.unitExtent unit) = some (base, f) →
      gives (.rewrite i unit .begins true cap) s fun e => ∃ y, d.indexTo e i y ∧
        y.cell unit = { c with state := 2, rewrite := some ⟨true, 0, base, x.unitExtent unit, true, []⟩ } ∧ others y ∧ e.tiers.extL = f.tiers.extL ∧
        y = { x with cells := y.cells, windowUsed := x.windowUsed + x.unitExtent unit }) ∧
    (∀ cap g base f, x.kind = .graph → tfind unit x.graph.groups = some g → d.mgmt.shed.steps < 2 → x.targetGen ≠ x.liveGen → g.state = 1 →
      x.nextReencode = some unit → x.windowUsed + x.unitExtent unit ≤ x.rewriteWindow →
      d.takeL (some x.burgee) (x.unitExtent unit) = some (base, f) →
      gives (.rewrite i unit .begins true cap) s fun e => ∃ y, d.indexTo e i y ∧ e.tiers.extL = f.tiers.extL ∧
        tfind unit y.graph.groups = some { g with state := 2, rewrite := some ⟨true, 0, base, x.unitExtent unit, true, []⟩ } ∧ groups y ∧
        y = { x with graph := { x.graph with groups := y.graph.groups }, windowUsed := x.windowUsed + x.unitExtent unit }) ∧
    (∀ cap, x.nextReencode ≠ some unit →
      gives (.rewrite i unit .begins true cap) s fun e => e = d) ∧
    (∀ re cap r, x.kind ≠ .graph → c.rewrite = some r → c.prev = none → d.mayAdvance i = true →
      gives (.rewrite i unit .finishes re cap) s fun e => ∃ y, d.indexTo e i y ∧ (y.cell unit).state = 1 ∧ (y.cell unit).prev = some c.cur ∧
        (y.cell unit).cutView = nextView x.view ∧ (y.cell unit).rewrite = none ∧ y.view = nextView x.view ∧ others y ∧
        (y.cell unit).cur.slotBase = r.base ∧ (y.cell unit).cur.seqBase = (c.cur.seqBase + 32768) % 65536 ∧
        (y.cell unit).cur.gen = (if r.reencode = true then x.targetGen else c.cur.gen) ∧
        (y.cell unit).cur.capBlocks = (if r.reencode = true then c.cur.capBlocks else r.newCap) ∧ (y.cell unit).cur.tombs = c.cur.tombs ∧
        (y.cell unit).cur.slots.map (fun p => (p.1, p.2.id, p.2.attrs)) = c.cur.slots.map (fun p => (p.1, p.2.id, p.2.attrs)) ∧
        (r.reencode = false → (y.cell unit).cur.slots = c.cur.slots) ∧ (y.cell unit).nLive = c.nLive ∧
        (∀ p ∈ (e.burgee x.burgee).placed, ¬ (p.index = x.indexNo ∧ p.unit = unit ∧ p.kind ≤ 2))) ∧
    (∀ re cap g r, x.kind = .graph → tfind unit x.graph.groups = some g → g.rewrite = some r → g.prev = none → d.mayAdvance i = true →
      gives (.rewrite i unit .finishes re cap) s fun e => ∃ y k, d.indexTo e i y ∧ tfind unit y.graph.groups = some k ∧ k.state = 1 ∧
        k.prev = some g.nodes ∧ k.prevGen = g.gen ∧ k.prevBase = g.curBase ∧ k.curBase = r.base ∧ k.gen = x.targetGen ∧ k.cutView = nextView x.view ∧ y.view = nextView x.view ∧ groups y ∧
        (k.nodes.map fun p => (p.1, p.2.id, p.2.nbrs, p.2.attrs)) = (g.nodes.map fun p => (p.1, p.2.id, p.2.nbrs, p.2.attrs))) ∧
    (∀ re cap s', exec (.rewrite i unit .begins re cap) s = .next s' →
      exec (.rewrite i unit .whole re cap) s = exec (.rewrite i unit .finishes re cap) s') ∧
    (∀ p, x.kind ≠ .graph → c.prev = some p → d.released i c.cutView = true → 0 < p.capBlocks * x.blockLen →
      gives (.prevCopyFree i unit) s fun e => ∃ y, d.indexTo e i y ∧ y.cell unit = { c with prev := none, prevBytes := 0, prevWindow := false } ∧
        others y ∧ (∀ k ∈ e.tiers.extL, ¬ (k.base ≤ p.slotBase ∧ p.slotBase < k.base + k.len)) ∧
        (c.prevWindow = true → y = { x with cells := y.cells, windowUsed := x.windowUsed - c.prevBytes }) ∧
        (c.prevWindow = false → y = { x with cells := y.cells, reserved := x.reserved - lsum ((x.setRanges p (p.refineBase != c.cur.refineBase)).map (·.2)) })) ∧
    (∀ g, x.kind = .graph → tfind unit x.graph.groups = some g → g.prev.isSome = true → d.released i g.cutView = true →
      gives (.prevCopyFree i unit) s fun e => ∃ y, d.indexTo e i y ∧
        tfind unit y.graph.groups = some { g with prev := none, prevBase := 0, prevBytes := 0, prevWindow := false } ∧ groups y) ∧
    (∀ t base f, x.kind ≠ .graph → c.retryAt = some t → c.failed = false → x.targetGen = x.liveGen → c.state = 1 →
      let cap := grownCap c.cur.capBlocks
      x.extentBytes cap ≤ d.lFree → d.takeL (some x.burgee) (x.extentBytes cap) = some (base, f) →
      gives (.rewriteRetry i unit) s fun e => ∃ y, ({ d with now := max d.now t } : Device).indexTo e i y ∧ (y.cell unit).state = 2 ∧
        (y.cell unit).retryAt = none ∧ (y.cell unit).rewrite = some ⟨false, cap, base, x.extentBytes cap, false, []⟩ ∧
        (y.cell unit).cur = c.cur ∧ others y) ∧
    (∀ t base f, x.kind ≠ .graph → c.retryAt = some t → c.failed = false → x.targetGen ≠ x.liveGen → c.state = 1 →
      x.nextReencode = some unit → x.windowUsed + x.unitExtent unit ≤ x.rewriteWindow →
      d.takeL (some x.burgee) (x.unitExtent unit) = some (base, f) →
      gives (.rewriteRetry i unit) s fun e => ∃ y, ({ d with now := max d.now t } : Device).indexTo e i y ∧ (y.cell unit).state = 2 ∧
        (y.cell unit).retryAt = none ∧ (y.cell unit).rewrite = some ⟨true, 0, base, x.unitExtent unit, true, []⟩ ∧ others y) ∧
    (∀ t g base f, x.kind = .graph → tfind unit x.graph.groups = some g → g.retryAt = some t → g.failed = false → x.targetGen ≠ x.liveGen →
      g.state = 1 → x.nextReencode = some unit → x.windowUsed + x.unitExtent unit ≤ x.rewriteWindow →
      d.takeL (some x.burgee) (x.unitExtent unit) = some (base, f) →
      gives (.rewriteRetry i unit) s fun e => ∃ y, ({ d with now := max d.now t } : Device).indexTo e i y ∧ groups y ∧
        tfind unit y.graph.groups = some { g with state := 2, rewrite := some ⟨true, 0, base, x.unitExtent unit, true, []⟩, retryAt := none })

/-- What waits for a view (R80, R81, R87, R95, R106, R109, R299): compaction records tombstoned slots with the present view and frees them once it is
released; the old codebook set goes and a pending one becomes the target; a sweep writes released views 0, in current and previous copies alike; a
tidy keeps every other bucket; and DELTA_TAIL passes released entries. -/
def Obligations.MaintenanceReleases : Prop :=
  ∀ (s : State) (i : Nat) (x : Index), let d := s.dev; d.index? i = some x →
    (∀ n, x.kind ≠ .graph → n < x.nCells → d.ready = true → d.quiesced = false →
      (∃ t ∈ (x.cell n).cur.tombs, t ∉ (x.cell n).free ∧ ∀ p ∈ (x.cell n).compact, t ∉ p.2) →
      gives (.compactionPass i n) s fun e => ∃ y new, tfind i e.indexes = some y ∧ (y.cell n).compact = (x.cell n).compact ++ [(x.view, new)] ∧
        (∀ t, t ∈ new ↔ t ∈ (x.cell n).cur.tombs ∧ t ∉ (x.cell n).free ∧ ∀ p ∈ (x.cell n).compact, t ∉ p.2) ∧ (y.cell n).free = (x.cell n).free ∧
        (y.cell n).cur = (x.cell n).cur ∧ (∀ m, m ≠ n → tfind m y.cells = tfind m x.cells) ∧ y = { x with cells := y.cells } ∧
        e = { d with indexes := e.indexes }) ∧
    (∀ n, (x.cell n).compact ≠ [] →
      gives (.slotFreeRelease i n) s fun e => ∃ y, tfind i e.indexes = some y ∧
        (∀ t, t ∈ (y.cell n).free ↔ t ∈ (x.cell n).free ∨ ∃ p ∈ (x.cell n).compact, d.released i p.1 = true ∧ t ∈ p.2) ∧
        (∀ p, p ∈ (y.cell n).compact ↔ p ∈ (x.cell n).compact ∧ d.released i p.1 = false) ∧ (y.cell n).cur = (x.cell n).cur ∧
        (∀ m, m ≠ n → tfind m y.cells = tfind m x.cells) ∧ y = { x with cells := y.cells } ∧ e = { d with indexes := e.indexes }) ∧
    (∀ gen v, x.oldBook = some (gen, v) → d.released i v = true →
      gives (.codebookFree i) s fun e => ∃ y, d.indexTo e i y ∧ y.oldBook = none ∧
        (∀ k, k ≠ gen → tfind k y.codebooks = tfind k x.codebooks) ∧ y.targetGen = (if x.pendingGen = 0 then x.targetGen else x.pendingGen) ∧
        y.pendingGen = 0 ∧ y = { x with oldBook := none, codebooks := y.codebooks, targetGen := y.targetGen, pendingGen := y.pendingGen }) ∧
    (d.ready = true → d.quiesced = false →
      gives (.settleSweep i) s fun e => ∃ y, d.indexTo e i y ∧ y.sweepFrom = x.view ∧ y.view = x.view ∧
        (∀ p ∈ y.cells, p.2.cutView = 0 ∨ p.2.prev.isSome = true ∨ d.released i p.2.cutView = false) ∧
        (∀ p ∈ y.cells, p.2.mergeView = 0 ∨ d.mergeReleased i p.2.mergeView = false) ∧
        (∀ p ∈ y.cells, ∀ b ∈ p.2.cur.blocks, (b.2.freshView = 0 ∧ b.2.freshMask = []) ∨ d.mergeReleased i b.2.freshView = false) ∧
        (∀ p ∈ y.cells, ∀ q, p.2.prev = some q → ∀ b ∈ q.blocks, (b.2.freshView = 0 ∧ b.2.freshMask = []) ∨ d.mergeReleased i b.2.freshView = false) ∧
        (∀ p ∈ y.graph.groups, ∀ q ∈ p.2.nodes, q.2.view = 0 ∨ d.released i q.2.view = false) ∧
        (∀ p ∈ y.graph.groups, ∀ ns, p.2.prev = some ns → ∀ q ∈ ns, q.2.view = 0 ∨ d.released i q.2.view = false) ∧
        (∀ p ∈ y.delta, p.2.state = 1 ∨ p.2.endView = 0 ∨
          (if p.2.state = 4 then d.mergeReleased i p.2.endView else d.released i p.2.endView) = false) ∧
        y.delta.map (fun p => (p.1, p.2.id, p.2.state)) = x.delta.map (fun p => (p.1, p.2.id, p.2.state)) ∧ y.idMap = x.idMap ∧ y.nLive = x.nLive) ∧
    (∀ b, b < x.idMapBuckets → d.ready = true → d.quiesced = false →
      let run := x.runFrom x.idMapBuckets (x.runStart x.idMapBuckets b)
      (∃ k ∈ run, ∃ p, p < 32 ∧ idLoc (x.idEntry k p) = none ∧ idEmpty (x.idEntry k p) = false) →
      gives (.idMapTidy i b) s fun e => ∃ y, d.indexTo e i y ∧ (∀ k p, k ∉ run → y.idEntry k p = x.idEntry k p) ∧ y = { x with idMap := y.idMap } ∧
        (∀ k ∈ run, ∀ p, p < 32 → y.idEntry k p = 0 ∨
          ∃ j ∈ run, ∃ q, q < 32 ∧ y.idEntry k p = x.idEntry j q ∧ idLoc (x.idEntry j q) ≠ none)) ∧
    (∀ v, tfind x.deltaTail x.delta = some v → x.deltaTail ≠ x.deltaHead → v.state ≠ 1 →
      d.endReleased i v = true → x.deltaTail < x.deltaEntries → 1 < x.deltaEntries →
      ((x.deltaTail + 1) % x.deltaEntries = x.deltaHead ∨ ∃ w, tfind ((x.deltaTail + 1) % x.deltaEntries) x.delta = some w ∧ w.state = 1) →
      gives (.deltaTailAdvance i) s fun e => ∃ y, d.indexTo e i y ∧ y.deltaTail = (x.deltaTail + 1) % x.deltaEntries ∧
        tfind x.deltaTail y.delta = none ∧ (∀ j, j ≠ x.deltaTail → tfind j y.delta = tfind j x.delta) ∧ y.deltaHead = x.deltaHead ∧
        y.idMap = x.idMap ∧ y.cells = x.cells)

/-- Training jobs (R273, R283 to R285, R290, R295 to R298, R301 to R303): a step advances the job by one on the rows it samples, counts what it skips,
leaves the tensors where none is used and writes no byte outside its reservation; the last leads to evaluation; a due checkpoint is written to its
slot with its header and replaces the older; after evaluation the result is held, refused by the loss test, or published. The place and bytes of a
slot and of the step's tensors are the model's (log entries 52 and 53). -/
def Obligations.TrainingJobsRun : Prop :=
  ∀ (s : State) (no : Nat) (j : Job) (x : Index), let d := s.dev
    d.job? no = some j → d.index? j.desc.indexNo = some x → d.ready = true → d.quiesced = false →
    let rows := d.rowsOfStep x j.desc j.step
    let used := (rows.filterMap id).length
    let steps := fun (e : Device) (st : JobState) => ∃ k, e.job? no = some k ∧ k.state = st ∧ k.step = j.step + 1 ∧ k.desc = j.desc ∧
      k.begun = true ∧ k.ckptDue = decide ((j.step + 1) % j.desc.ckpt = 0) ∧ k.log.rowsSkipped = j.log.rowsSkipped + (rows.length - used) ∧
      k.log.stepsEmpty = j.log.stepsEmpty + (if used = 0 then 1 else 0) ∧ (used = 0 → k.tensors = j.tensors ∧ k.applied = j.applied)
    let area := fun (e : Device) => (d.area j.area ≠ .lTier → d.burgeesMetered e ∧ d.sameMemOutside e j.area j.desc.stateBytes) ∧
      e = { d with mem := e.mem, tiers := e.tiers, burgees := e.burgees }
    (j.state = .running → j.ckptDue = false → (j.begun = true ∨ d.mgmt.shed.steps < 2) → rows ≠ [] → j.badRun < 7 →
      (j.step + 1) % j.desc.watchWindow ≠ 0 →
      (j.stopReq = [] → j.step + 1 < j.desc.steps → gives (.jobStep no) s fun e => steps e .running ∧
        (∀ k, k ≠ no → e.job? k = d.job? k) ∧ (used = 0 → e = { d with jobs := e.jobs }) ∧ area { e with jobs := d.jobs }) ∧
      (j.stopReq = [] → j.desc.steps ≤ j.step + 1 → gives (.jobStep no) s fun e => steps e .evaluate ∧
        (∀ k, k ≠ no → e.job? k = d.job? k) ∧ (used = 0 → e = { d with jobs := e.jobs }) ∧ area { e with jobs := d.jobs }) ∧
      (j.stopReq ≠ [] → gives (.jobStep no) s fun e => steps e (.ended 2) ∧ e.raisedBrg j.burgee 7 (no + 0x20000) ∧
        ∃ f, area f ∧ f.jobsTo e)) ∧
    (j.state = .running → j.ckptDue = false → (j.begun = true ∨ d.mgmt.shed.steps < 2) → rows = [] →
      gives (.jobStep no) s fun e => (e.job? no).map (·.state) = some (.ended 0x0A) ∧ e.raisedBrg j.burgee 7 (no + 0xA0000) ∧ d.jobsTo e) ∧
    (∀ a f, j.ckptDue = true → (j.state = .running ∨ j.state = .evaluate) → d.ckptSlot j = some (a, f) →
      gives (.checkpoint no) s fun e => (∃ k c, e.job? no = some k ∧ k = { j with ckptDue := false, ckpts := k.ckpts } ∧
        k.ckpts = (c :: j.ckpts).take 2 ∧ c.step = j.step ∧ c.applied = j.applied ∧ c.p1 = j.p1 ∧ c.p2 = j.p2 ∧ c.log = j.log ∧
        c.crc = j.desc.crc ∧ c.addr = a ∧ c.len = j.ckptLen ∧ c.tensors.map (·.master) = j.tensors.map (·.master) ∧
        (∀ n, n < 64 → e.byteAt (a + n) = c.header.getD n 0)) ∧
        (∀ i, i ≠ no → e.job? i = d.job? i) ∧ e.tiers.extL = f.tiers.extL ∧
        (d.noCopyIn a j.ckptLen → (j.checkpoint a).body.length + 64 ≤ j.ckptLen → d.burgeesMetered e ∧ d.sameMemOutside e a j.ckptLen) ∧
        e = { d with jobs := e.jobs, mem := e.mem, tiers := e.tiers, burgees := e.burgees }) ∧
    (∀ old new, j.state = .evaluate → j.ckptDue = false → d.mgmt.shed.steps < 2 → d.evalLosses x j = (old, new) →
      let g := { j with lossOld := old, lossNew := new }
      (j.desc.noPublish = true →
        gives (.jobPublish no) s fun e => (e.job? no).map (fun k => (k.state, k.lossOld, k.lossNew)) = some (.held, old, new) ∧
          e.raisedBrg j.burgee 7 no ∧ d.jobsTo e) ∧
      (j.desc.noPublish = false → j.desc.type = .rerankTune → j.model.map (·.1) ≠ some d.model →
        gives (.jobPublish no) s fun e => (e.job? no).map (·.state) = some (.ended 9) ∧ d.jobsTo e) ∧
      (j.desc.noPublish = false → (j.desc.type = .rerankTune → j.model.map (·.1) = some d.model) → g.gains = false →
        gives (.jobPublish no) s fun e => (e.job? no).map (·.state) = some (.ended 1) ∧ e.raisedBrg j.burgee 7 (no + 0x10000) ∧ d.jobsTo e) ∧
      (j.desc.noPublish = false → j.desc.type = .adapterTrain →
        gives (.jobPublish no) s fun e => (e.job? no).map (·.state) = some (.ended (if g.gains = true then 0 else 1)) ∧
          (g.gains = true → ∃ y, tfind j.desc.indexNo e.indexes = some y ∧ y.adapter.rank = j.desc.param ∧ y = { x with adapter := y.adapter }) ∧
          (∀ i, (i ≠ j.desc.indexNo ∨ g.gains = false) → tfind i e.indexes = tfind i d.indexes) ∧ e.mem = d.mem ∧ e.models = d.models) ∧
      (j.desc.noPublish = false → j.desc.type = .codebookFit → g.gains = true → x.targetGen ≠ x.liveGen →
        gives (.jobPublish no) s fun e => (e.job? no).map (·.state) = some (.ended 0) ∧
          (∃ y, tfind j.desc.indexNo e.indexes = some y ∧ y.lastGen = x.lastGen + 1 ∧ y.pendingGen = x.lastGen + 1 ∧ y.targetGen = x.targetGen ∧
            tfind (x.lastGen + 1) y.codebooks = some (x.bookOf ((j.tensors.headD noTensor).master))) ∧ e.mem = d.mem ∧ e.models = d.models) ∧
      (j.desc.noPublish = false → j.desc.type = .codebookFit → g.gains = true → x.targetGen = x.liveGen → x.oldBook = none → x.kind ≠ .graph →
        gives (.jobPublish no) s fun e => (e.job? no).map (·.state) = some (.ended 0) ∧
          (∃ y, tfind j.desc.indexNo e.indexes = some y ∧ y.lastGen = x.lastGen + 1 ∧ y.targetGen = x.lastGen + 1 ∧ y.liveGen = x.liveGen ∧
            tfind (x.lastGen + 1) y.codebooks = some (x.bookOf ((j.tensors.headD noTensor).master))) ∧ e.models = d.models) ∧
      (j.desc.noPublish = false → j.desc.type = .rerankTune → j.model.map (·.1) = some d.model →
        gives (.jobPublish no) s fun e => (e.job? no).map (·.state) = some (.ended (if g.gains = true then 0 else 1)) ∧
          (g.gains = true → e.model = d.lastModel + 1 ∧ tfind (d.lastModel + 1) e.models = some j.image) ∧
          (g.gains = false → e.model = d.model ∧ e.models = d.models) ∧ e.indexes = d.indexes ∧ e.mem = d.mem))

/-- Job commands (R276 to R278, R282, R296, R297, R419, R420): SUBMIT_JOB reserves the training area and answers the job's number, or refuses a
descriptor out of range, with a reserved value, or beyond a limit; STOP_JOB ends a job at its step's end; RESUME_JOB restarts it from its last valid
checkpoint; PUBLISH_JOB and DISCARD_JOB act on a held result. Each answers as stated. -/
def Obligations.JobCommandsAnswer : Prop :=
  ∀ (s : State) (mb slot : Nat), let d := s.dev; let r := d.adminAt mb slot
    (∀ io x bs j, d.servesNow 0x0040 mb slot io → d.index? r.target = some x → (mb = 256 ∨ (d.fn mb).burgee = x.burgee) →
      d.adminIn r mb slot (some x.burgee) io = .ok bs → bs.length = 256 → readJob bs = some j → fieldAt bs 1 1 < 4 → j.indexNo = x.indexNo →
      (∀ a d1, jobReservedOk bs = true → j.rangesOk = true → j.suits x = true → (j.src = 0 → d.area j.srcAddr = .fTier ∧ d.mayTouchAll false x.burgee j.srcAddr (j.srcCount * j.recordLen x) = true) →
        (j.type = .rerankTune → d.modelFits x = true) → d.jobLimit j.type x.indexNo = false →
        j.required x (startTensors x j (tget [] d.model d.models)) (tget [] d.model d.models) ≤ j.stateBytes →
        d.takeF (some x.burgee) j.stateBytes = some (a, d1) →
        gives (.submitJob mb slot io) s fun e => e.answered mb slot 0 0 d.nextJobNo ∧ e.lastJob = d.nextJobNo ∧
          (∃ k, k ∈ e.jobs ∧ k.id = d.nextJobNo ∧ k.desc = j ∧ k.state = .running ∧ k.step = 0 ∧ k.area = a ∧ k.burgee = x.burgee) ∧
          (∃ v ∈ e.tiers.extF, v.base = a ∧ v.len = j.stateBytes) ∧ (∀ k ∈ d.jobs, k ∈ e.jobs) ∧ d.jobsTo e) ∧
      (jobReservedOk bs = false ∨ j.rangesOk = false ∨ j.suits x = false → gives (.submitJob mb slot io) s fun e => e.answered mb slot stInvalidField 0 0 ∧ e = d.told e ∧ d.fnsTold e) ∧
      (jobReservedOk bs = true → j.rangesOk = true → j.suits x = true → j.src ≠ 0 → (j.type = .rerankTune → d.modelFits x = true) → d.jobLimit j.type x.indexNo = true →
        gives (.submitJob mb slot io) s fun e => e.answered mb slot stBusy 3 0 ∧ e = d.told e ∧ d.fnsTold e)) ∧
    (∀ j, d.job? r.target = some j → d.brgAdmin mb j.burgee = true →
      (d.servesNow 0x0041 mb slot noIo → j.state = .running → j.begun = true → j.ckptDue = false →
        gives (.stopJob mb slot) s fun e => e.job? r.target = some { j with stopReq := j.stopReq ++ [(mb, slot)] } ∧ e = { d with jobs := e.jobs }) ∧
      (d.servesNow 0x0041 mb slot noIo → (j.state = .evaluate ∨ (j.state = .running ∧ (j.begun = false ∨ j.ckptDue = true))) →
        gives (.stopJob mb slot) s fun e => e.answered mb slot 0 0 0 ∧ (e.job? r.target).map (·.state) = some (.ended 2) ∧
          (e.job? r.target).map (·.ckpts) = some j.ckpts ∧ d.jobsTo e) ∧
      (∀ c a d1, d.servesNow 0x0042 mb slot noIo → j.live = false → j.state ≠ .held → j.ckpts.head? = some c → d.ckptOk j c = true →
        (d.index? j.desc.indexNo).isSome = true → d.jobLimit j.desc.type j.desc.indexNo = false →
        d.takeF (some j.burgee) j.desc.stateBytes = some (a, d1) →
        gives (.resumeJob mb slot) s fun e => e.answered mb slot 0 0 0 ∧
          (∃ k, e.job? r.target = some k ∧ k.state = .running ∧ k.step = c.step ∧ k.applied = c.applied ∧ k.tensors = c.tensors ∧ k.area = a ∧
            k.desc = j.desc ∧ k.log = { c.log with restarts := j.log.restarts + 1 }) ∧ d.jobsTo e) ∧
      (d.servesNow 0x0042 mb slot noIo → j.live = true ∨ j.state = .held ∨ j.ckpts = [] →
        gives (.resumeJob mb slot) s fun e => e.answered mb slot stInvalidField 0 0 ∧ e = d.told e ∧ d.fnsTold e) ∧
      (∀ x, d.servesNow 0x0043 mb slot noIo → j.state = .held → d.mgmt.shed.steps < 2 → d.index? j.desc.indexNo = some x → j.desc.type ≠ .rerankTune →
        gives (.publishJob mb slot) s fun e => e.answered mb slot 0 0 0 ∧
          (e.job? r.target).map (·.state) = some (.ended (if j.gains = true then 0 else 1)) ∧ (j.gains = false → e.indexes = d.indexes)) ∧
      (d.servesNow 0x0043 mb slot noIo → j.state ≠ .held →
        gives (.publishJob mb slot) s fun e => e.answered mb slot stInvalidField 0 0 ∧ e = d.told e ∧ d.fnsTold e) ∧
      (d.servesNow 0x0044 mb slot noIo → j.live = false →
        gives (.discardJob mb slot) s fun e => e.answered mb slot 0 0 0 ∧ (∀ k ∈ e.jobs, k.id ≠ r.target) ∧
          (∀ k ∈ d.jobs, k.id ≠ r.target → k ∈ e.jobs) ∧ d.jobsTo e))

/-! ### Mailboxes and admin commands (chapters 13, 14) -/

/-- Mailboxes (R406 to R409, R413, R420, R440, R531, R532): TAIL submits requests or overflows, HEAD passes answered slots, a free slot takes a
request's bytes; the sideband takes a request or answers BUSY_RETRY; the holder starts the next waiting request or answers what its checks refuse;
a load window engages or releases one shedding step. -/
def Obligations.MailboxesTakeRequests : Prop :=
  ∀ (s : State) (f : Nat), let d := s.dev; let b := (d.fn f).mb
    let alone := fun (e : Device) => (∀ k, k ≠ f → e.fn k = d.fn k) ∧ (e.fn f = { d.fn f with mb := (e.fn f).mb, latch := none }) ∧
      e = { d with fns := e.fns }
    (∀ v, d.barUp f = true → let n := (v % 65536 + 65536 - b.tail) % 65536
      ((b.tail + 65536 - b.head) % 65536 + n ≤ 32 →
        gives (.mailboxTailWrite f v) s fun e => (e.fn f).mb = { b with tail := v % 65536, slots := (e.fn f).mb.slots } ∧
          (∀ i, i < n → tget SlotState.idle ((b.tail + i) % 32) (e.fn f).mb.slots = .waiting) ∧
          (∀ k, (∀ i, i < n → k ≠ (b.tail + i) % 32) → tget SlotState.idle k (e.fn f).mb.slots = tget SlotState.idle k b.slots) ∧ alone e) ∧
      (32 < (b.tail + 65536 - b.head) % 65536 + n →
        gives (.mailboxTailWrite f v) s fun e => (e.fn f).mb.overflow = true ∧ (e.fn f).mb.overflows = b.overflows + 1 ∧
          (e.fn f).mb.tail = b.tail ∧ (e.fn f).mb.head = b.head ∧ e.lastEvent = some (devEvent 0xF f))) ∧
    (∀ v, d.barUp f = true → let n := (v % 65536 + 65536 - b.head) % 65536
      (n ≤ 32 → n ≤ (b.tail + 65536 - b.head) % 65536 → (∀ i, i < n → tget SlotState.idle ((b.head + i) % 32) b.slots = .done) →
        gives (.mailboxHeadWrite f v) s fun e => (e.fn f).mb = { b with head := v % 65536, slots := (e.fn f).mb.slots } ∧
          (∀ i, i < n → tget SlotState.idle ((b.head + i) % 32) (e.fn f).mb.slots = .idle) ∧
          (∀ k, (∀ i, i < n → k ≠ (b.head + i) % 32) → tget SlotState.idle k (e.fn f).mb.slots = tget SlotState.idle k b.slots) ∧ alone e) ∧
      ((∃ i, i < n ∧ i < 33 ∧ tget SlotState.idle ((b.head + i) % 32) b.slots ≠ .done) →
        gives (.mailboxHeadWrite f v) s fun e => (e.fn f).mb = b ∧ alone e)) ∧
    (∀ off bs, d.barUp f = true → (bs.length = 4 ∨ bs.length = 8) → off % bs.length = 0 → off < 2048 →
      (b.outstanding (off / 64) = false →
        gives (.mailboxRequestWrite f off bs) s fun e => (e.fn f).mb = { b with req := (e.fn f).mb.req } ∧
          (∀ k, k < 64 → (tget [] (off / 64) (e.fn f).mb.req).getD k 0 =
            if off % 64 ≤ k ∧ k < off % 64 + bs.length then bs.getD (k - off % 64) 0 else (tget [] (off / 64) b.req).getD k 0) ∧
          (∀ k, k ≠ off / 64 → tget [] k (e.fn f).mb.req = tget [] k b.req) ∧ alone e) ∧
      (b.outstanding (off / 64) = true → gives (.mailboxRequestWrite f off bs) s fun e => (e.fn f).mb = b ∧ alone e)) ∧
    (∀ req data sec, d.sideband = true → d.ready = true → req.length = 64 →
      (d.mgmt.feat.sbSecure = false ∨ (adminReq req).deviceCmd = false ∨ (sec = true ∧ d.mgmt.sec.session = true)) →
      (d.sideMb.outstanding (d.sideMb.tail % 32) = false →
        gives (.sidebandRequest req data sec) s fun e => tget SlotState.idle (d.sideMb.tail % 32) e.sideMb.slots = .waiting ∧
          tget [] (d.sideMb.tail % 32) e.sideMb.req = req ∧ tget [] (d.sideMb.tail % 32) e.sideMb.data = data ∧
          e.sideMb.tail = (d.sideMb.tail + 1) % 65536 ∧ e = { d with sideMb := e.sideMb }) ∧
      ((∀ k, k < 32 → d.sideMb.outstanding k = true) →
        gives (.sidebandRequest req data sec) s fun e => e.sideMb.overflows = d.sideMb.overflows + 1 ∧
          e.lastEvent = some (devEvent 0xF 0xFFFF) ∧ (∃ bs, e.out.head? = some (.sideband bs) ∧ fieldAt bs 0 2 = fieldAt req 2 2 ∧
            fieldAt bs 4 2 = stBusy ∧ fieldAt bs 6 2 = 1 ∧ fieldAt bs 8 4 = 10))) ∧
    (∀ req data, d.sideband = true → d.ready = true → req.length = 64 → d.mgmt.feat.sbSecure = true → (adminReq req).deviceCmd = true →
      gives (.sidebandRequest req data false) s fun e => (∃ bs, e.out.head? = some (.sideband bs) ∧ fieldAt bs 4 2 = stAccessDenied ∧
        fieldAt bs 6 2 = 0x13) ∧ e = { d with out := e.out, fresh := e.fresh }) ∧
    (∀ m slot, d.ready = true → d.seated = true → m ≤ 256 → slot < 32 →
      (d.waitingMbs.find? fun k => decide (d.mgmt.nextMb ≤ k)).or d.waitingMbs.head? = some m →
      (((d.mbox m).order m).find? fun k => tget SlotState.idle k (d.mbox m).slots == .waiting) = some slot →
      (d.startCheck m (d.adminAt m slot) = none →
        gives .adminRequestStart s fun e => e.startedAt m slot = true ∧ (m, slot) ∈ e.mgmt.started ∧ e.mgmt.nextMb = m + 1 ∧
          (∀ k, k ≠ m → k ≤ 256 → e.mbox k = d.mbox k) ∧ (∀ k, k ≠ slot → tget SlotState.idle k (e.mbox m).slots = tget SlotState.idle k (d.mbox m).slots) ∧
          e = { d with fns := e.fns, sideMb := e.sideMb, mgmt := { d.mgmt with nextMb := m + 1, started := e.mgmt.started } }) ∧
      (∀ st det retry, d.startCheck m (d.adminAt m slot) = some (st, det, retry) → st ≠ 0 →
        gives .adminRequestStart s fun e => e.answered m slot st det 0 ∧ fieldAt (tget [] slot (e.mbox m).rsp) 8 4 = retry % 2 ^ 32) ∧
      ((d.adminAt m slot).scope = none →
        gives .adminRequestStart s fun e => e.answered m slot stInvalidField 0 0)) ∧
    (∀ load, d.ready = true → let k := d.mgmt.shed
      (8500 < load →
        gives (.shedWindowEnd load) s fun e => e.now = (d.now / 10000000 + 1) * 10000000 ∧ e.mgmt.shed.isOver = k.isOver + 1 ∧
          e.mgmt.shed.steps = max k.steps (min 4 (k.isOver + 1)) ∧ (e.mgmt.shed.steps ≠ k.steps → e.lastEvent = some (devEvent 0xE e.mgmt.shed.steps)) ∧
          e.indexes = d.indexes ∧ e.mem = d.mem ∧ e.cmds = d.cmds) ∧
      (7000 ≤ load → load ≤ 8500 →
        gives (.shedWindowEnd load) s fun e => e.mgmt.shed.isOver = 0 ∧ e.mgmt.shed.steps = k.steps ∧
          e = { d with now := e.now, mgmt := { d.mgmt with shed := e.mgmt.shed } }) ∧
      (load < 7000 →
        gives (.shedWindowEnd load) s fun e => e.mgmt.shed.isOver = 0 ∧ e.mgmt.shed.steps = k.steps - 1 ∧
          (0 < k.steps → e.lastEvent = some (devEvent 0xE (k.steps - 1))) ∧ e.indexes = d.indexes ∧ e.mem = d.mem ∧ e.cmds = d.cmds))

/-- SPDM, identity, pages, features and events (R411, R413, R414, R416, R438, R439): the responder keeps the order of the connection and gives the
measurements; IDENTIFY and GET_LOG_PAGE deliver their page and CLEAR clears; GET_FEATURE and SET_FEATURE read and change a feature within its range;
an event request takes the oldest event or holds its slot. -/
def Obligations.PagesFeaturesAndEvents : Prop :=
  ∀ s : State, let d := s.dev; let sec := d.mgmt.sec
    (d.sideband = true → d.ready = true →
      let sets := fun (e : Device) (t : Security) (r : SpdmReq) (bs : List Byte) =>
        e = { d with mgmt := { d.mgmt with sec := t }, out := .spdm r .response bs :: d.out }
      gives (.spdmRequest .unsupported) s (fun e => e = { d with out := .spdm .unsupported .errorUnsupported [] :: d.out }) ∧
      (∀ v, (v = 0x12 ∨ v = 0x13) → gives (.spdmRequest (.getCapabilities v)) s fun e =>
        sets e { sec with spdmVersion := v, spdmCaps := true, spdmAlgs := false } (.getCapabilities v) []) ∧
      (sec.spdmCaps = true → gives (.spdmRequest (.negotiateAlgorithms true)) s fun e => sets e { sec with spdmAlgs := true } (.negotiateAlgorithms true) []) ∧
      (∀ n, sec.spdmAlgs = false → gives (.spdmRequest (.getMeasurements n)) s fun e =>
        e = { d with out := .spdm (.getMeasurements n) .errorOther [] :: d.out }) ∧
      (∀ n, sec.spdmAlgs = true → 1 ≤ n → n ≤ 6 → gives (.spdmRequest (.getMeasurements n)) s fun e => sets e sec (.getMeasurements n) (d.measurement n)) ∧
      (sec.spdmExch = true → gives (.spdmRequest (.finish true)) s fun e => sets e { sec with spdmExch := false, session := true } (.finish true) []) ∧
      (sec.session = true → gives (.spdmRequest .endSession) s fun e => sets e { sec with session := false } .endSession [])) ∧
    (∀ m slot io, (m = 256 ∨ d.hostThere m) → let r := d.adminAt m slot
      let told := fun (e : Device) => e = d.told e ∧ d.fnsTold e
      let gets := fun (e : Device) (bs : List Byte) => e.answered m slot 0 0 0 ∧ d.delivered e m slot io bs
      (d.servesNow 0x0001 m slot io → gives (.identify m slot io) s fun e => gets e d.identity ∧ told e) ∧
      (d.servesNow 0x0002 m slot io → r.param 8 8 % 64 = 0 → r.param 1 1 = 0 →
        (∀ n bs, (n, bs) ∈ [(1, d.healthPage), (2, eventsPage (d.mbox m)), (3, d.firmwarePage), (4, d.ledgerPage r.target), (5, d.selfTestPage),
            (6, d.sanitisePage), (8, d.memoryPage), (12, d.loadPage), (13, d.linksPage), (14, d.shoalPage), (15, d.routesPage)] → r.param 0 1 = n →
          gives (.getLogPage m slot io) s fun e => gets e (bs.drop (r.param 8 8)) ∧ told e) ∧
        (∀ j, r.param 0 1 = 9 → d.job? r.target = some j → d.brgAdmin m j.burgee = true →
          gives (.getLogPage m slot io) s fun e => gets e (j.page.drop (r.param 8 8)) ∧ told e) ∧
        (∀ x, r.param 0 1 = 10 → d.index? r.target = some x → (m = 256 ∨ (d.fn m).burgee = x.burgee) →
          gives (.getLogPage m slot io) s fun e => gets e (x.page.drop (r.param 8 8)) ∧ told e) ∧
        (r.param 0 1 = 7 → r.target = m → m < 256 →
          gives (.getLogPage m slot io) s fun e => gets e ((d.accountPage (d.fn m).burgee (some m)).drop (r.param 8 8)) ∧ told e) ∧
        (r.param 0 1 = 11 → 1 ≤ r.target → r.target ≤ 4 →
          gives (.getLogPage m slot io) s fun e => gets e ((d.telemetryPage r.target).drop (r.param 8 8)) ∧ told e)) ∧
      (d.servesNow 0x0002 m slot io → r.param 8 8 % 64 = 0 → r.param 1 1 = 1 →
        (r.param 0 1 = 2 → gives (.getLogPage m slot io) s fun e => gets e ((eventsPage (d.mbox m)).drop (r.param 8 8)) ∧ (e.mbox m).evLost = 0) ∧
        (r.param 0 1 = 1 → gives (.getLogPage m slot io) s fun e => e.answered m slot stInvalidField 0 0 ∧ told e)) ∧
      (d.servesNow 0x0003 m slot io → featureOk (r.param 0 1) r.target = true →
        (isBurgeeFeature (r.param 0 1) = false ∨ d.devAdmin m = true ∨ (d.fn m).burgee = r.target) →
        gives (.getFeature m slot io) s fun e => let v := d.featureValue (r.param 0 1) r.target
          e.answered m slot 0 0 (fieldAt v 0 8) ∧ d.delivered e m slot io v ∧ told e)) ∧
    (∀ m slot, d.servesNow 0x0004 m slot noIo → let r := d.adminAt m slot; let v := (r.p.drop 8).take 24
      let done := fun (e : Device) => e.answered m slot 0 0 0
      let feats := fun (e : Device) (g : Features) => done e ∧ e = { d.told e with mgmt := { (d.told e).mgmt with feat := g } } ∧ d.fnsTold e
      let own := isBurgeeFeature (r.param 0 1) = true → d.brgAdmin m r.target = true ∧ r.target < 16
      (r.param 0 1 = 1 → 32 ≤ fieldAt v 0 2 → fieldAt v 0 2 ≤ 44 →
        gives (.setFeature m slot) s fun e => done e ∧ e.mgmt.feat = { d.mgmt.feat with targetRate := fieldAt v 0 2 } ∧ e.indexes = d.indexes ∧ e.mem = d.mem) ∧
      (r.param 0 1 = 1 → (fieldAt v 0 2 < 32 ∨ 44 < fieldAt v 0 2) →
        gives (.setFeature m slot) s fun e => e.answered m slot stInvalidField 0 0 ∧ e = d.told e ∧ d.fnsTold e) ∧
      (r.param 0 1 = 4 → own → 1 ≤ fieldAt v 4 2 → fieldAt v 4 2 ≤ 100 →
        gives (.setFeature m slot) s fun e => done e ∧ e.burgee r.target = { d.burgee r.target with quota := fieldAt v 0 4, period := fieldAt v 4 2 } ∧
          (∀ b, b ≠ r.target → e.burgee b = d.burgee b) ∧ e = { d.told e with burgees := e.burgees } ∧ d.fnsTold e) ∧
      (r.param 0 1 = 3 → own → d.ratesFit r.target ((List.range 8).map fun i => fieldAt v (2 * i) 2) = true →
        gives (.setFeature m slot) s fun e => done e ∧ (e.burgee r.target).rates = (List.range 8).map (fun i => fieldAt v (2 * i) 2) ∧
          (∀ b, b ≠ r.target → (e.burgee b).rates = (d.burgee b).rates)) ∧
      (r.param 0 1 = 5 → fieldAt v 0 1 % 16 ≠ 0 →
        gives (.setFeature m slot) s fun e => feats e { d.mgmt.feat with adminPorts := fieldAt v 0 1 % 16 }) ∧
      (r.param 0 1 = 6 → bits 2 1 (fieldAt v 0 1) ≠ 3 →
        gives (.setFeature m slot) s fun e =>
          feats e { d.mgmt.feat with bar2En := (fieldAt v 0 1).testBit 0, bar2Base := 0x1000000000 * bits 2 1 (fieldAt v 0 1) }) ∧
      (r.param 0 1 = 7 → gives (.setFeature m slot) s fun e => feats e { d.mgmt.feat with hostTime := fieldAt v 0 8 }) ∧
      (r.param 0 1 = 8 → gives (.setFeature m slot) s fun e => feats e { d.mgmt.feat with sbSecure := (fieldAt v 0 1).testBit 0 })) ∧
    (∀ m slot, d.servesNow 0x0005 m slot noIo → let b := d.mbox m
      (∀ v vs, b.events = v :: vs → gives (.asyncEventRequest m slot) s fun e => e.answered m slot 0 0 (eventWord v) ∧ (e.mbox m).events = vs ∧
        e = d.told e ∧ d.fnsTold e) ∧
      (b.events = [] → (b.eventSlots m).length < 4 →
        gives (.asyncEventRequest m slot) s fun e => tget SlotState.idle slot (e.mbox m).slots = .heldForEvent ∧ e.out = d.out ∧
          (∀ k, k ≠ slot → tget SlotState.idle k (e.mbox m).slots = tget SlotState.idle k b.slots) ∧ e = d.told e ∧ d.fnsTold e) ∧
      (b.events = [] → 4 ≤ (b.eventSlots m).length →
        gives (.asyncEventRequest m slot) s fun e => e.answered m slot stInvalidField 0x0E 0 ∧ e = d.told e ∧ d.fnsTold e))

/-- Queue pairs, functions and RESET (R364, R369 to R371, R411, R495): CREATE_QP makes the pair its block describes and DELETE_QP drops it with its
commands, which post nothing; CONFIGURE_FUNCTION assigns a function; RESET begins a reset 1 ms later or resets the shadow MP. -/
def Obligations.FunctionsAndTheirQueues : Prop :=
  ∀ (s : State) (m slot : Nat), let d := s.dev; let r := d.adminAt m slot
    (∀ io bs, m < 256 → d.servesNow 0x0010 m slot io → d.adminIn r m slot none io = .ok bs →
      (∀ q p, d.newQp m bs = some (q, p) →
        gives (.createQp m slot io) s fun e => e.answered m slot 0 0 0 ∧ q = fieldAt bs 0 2 ∧ e.qp m q = some p ∧ p.weight = fieldAt bs 3 1 ∧
          p.sqSize = fieldAt bs 4 4 ∧ p.cqSize = fieldAt bs 8 4 ∧ p.vector = fieldAt bs 12 2 ∧ p.sqBase = fieldAt bs 16 8 ∧ p.cqBase = fieldAt bs 24 8 ∧
          p.inFlight = 0 ∧ p.err = false ∧ (∀ k, k ≠ q → e.qp m k = d.qp m k) ∧ (∀ k, k ≠ m → e.qp k = d.qp k) ∧ e = d.told e) ∧
      (d.newQp m bs = none → gives (.createQp m slot io) s fun e => e.answered m slot stInvalidField 0 0 ∧ e = d.told e ∧ d.fnsTold e)) ∧
    (m < 256 → d.servesNow 0x0011 m slot noIo → (d.qp m r.target).isSome = true →
      gives (.deleteQp m slot) s fun e => e.answered m slot 0 0 0 ∧ e.qp m r.target = none ∧ (∀ k, k ≠ r.target → (e.qp m k).isSome = (d.qp m k).isSome) ∧
        ∀ c ∈ e.cmds, ¬ (c.remote = none ∧ c.fn = m ∧ c.qid = r.target)) ∧
    (m < 256 → d.servesNow 0x0011 m slot noIo → d.qp m r.target = none →
      gives (.deleteQp m slot) s fun e => e.answered m slot stInvalidField 0 0 ∧ e = d.told e ∧ d.fnsTold e) ∧
    (d.servesNow 0x0012 m slot noIo → let f := r.target
      let others := (d.fns.filter fun p => p.1 != f && p.2.assigned).map (·.2)
      f < 256 → r.param 0 1 < 16 → r.param 1 1 < 8 → r.param 2 2 ≤ 1024 → 1 ≤ r.param 4 2 → r.param 4 2 ≤ 2048 →
      r.param 2 2 + lsum (others.map (·.qpMax)) ≤ 4096 → r.param 4 2 + lsum (others.map (·.msixSize)) ≤ 2048 → (d.fn f).qps = [] →
      gives (.configureFunction m slot) s fun e => e.answered m slot 0 0 0 ∧ (e.fn f).assigned = true ∧ (e.fn f).burgee = r.param 0 1 ∧
        (e.fn f).permRead = (r.param 1 1).testBit 0 ∧ (e.fn f).permWrite = (r.param 1 1).testBit 1 ∧ (e.fn f).permAdmin = (r.param 1 1).testBit 2 ∧
        (e.fn f).qpMax = r.param 2 2 ∧ (e.fn f).msixSize = r.param 4 2 ∧ (e.fn f).log = (d.fn f).log ∧ e = d.told e ∧
        (∀ k, k ≠ f → (e.fn k).assigned = (d.fn k).assigned ∧ (e.fn k).burgee = (d.fn k).burgee ∧ (e.fn k).qps = (d.fn k).qps)) ∧
    (d.servesNow 0x0012 m slot noIo → (255 < r.target ∨ 15 < r.param 0 1 ∨ 1024 < r.param 2 2) →
      gives (.configureFunction m slot) s fun e => e.answered m slot stInvalidField 0 0 ∧ e = d.told e ∧ d.fnsTold e) ∧
    (d.servesNow 0x0013 m slot noIo →
      (r.target = 1 → gives (.reset m slot) s fun e => e.answered m slot 0 0 0 ∧ e.resets = d.resets ++ [⟨true, 5, d.now + 1000000⟩] ∧
        e = { d.told e with resets := e.resets } ∧ d.fnsTold e) ∧
      (r.target = 2 → gives (.reset m slot) s fun e => e.answered m slot 0 0 0 ∧ e.resets = d.resets ++ [⟨false, 7, d.now + 1000000⟩] ∧
        e = { d.told e with resets := e.resets } ∧ d.fnsTold e) ∧
      (∀ h, r.target = 3 → d.ens.holder = some h → h < 2 → (d.ens.health (1 - h)).state = 1 → (d.ens.health (1 - h)).failed d.now = false →
        gives (.reset m slot) s fun e => e.answered m slot 0 0 0 ∧ e.ens.holder = some h ∧ (e.ens.health (1 - h)).at_ = d.now ∧
          (e.ens.health (1 - h)).state = ({} : Health).state ∧ e.ens.health h = d.ens.health h ∧ e.indexes = d.indexes ∧ e.mem = d.mem) ∧
      ((r.target = 0 ∨ 3 < r.target) → gives (.reset m slot) s fun e => e.answered m slot stInvalidField 0 0 ∧ e = d.told e ∧ d.fnsTold e))

/-- Indexes and what is loaded (R126, R138, R236, R275, R302, R417, R418): CREATE_INDEX makes the empty index its specification describes under its
number; DELETE_INDEX ends its commands and jobs; LOAD and UNLOAD replace or remove a filter, transform, adapter or model; STAGE_DATA reserves, writes
or frees an area; RETRAIN_CHANNEL asks for a window. -/
def Obligations.IndexesAndLoads : Prop :=
  ∀ (s : State) (m slot : Nat), let d := s.dev; let r := d.adminAt m slot; let i := r.target
    let ok := fun (e : Device) => e.answered m slot 0 0 0
    let bad := fun (e : Device) => e.answered m slot stInvalidField 0 0 ∧ e = d.told e ∧ d.fnsTold e
    let sets := fun (e : Device) (y : Index) => ok e ∧ tfind i e.indexes = some y ∧ (∀ j, j ≠ i → tfind j e.indexes = tfind j d.indexes) ∧
      e = { d.told e with indexes := e.indexes } ∧ d.fnsTold e
    (∀ io b bs, d.servesNow 0x0030 m slot io → d.requestBurgee m (r.param 0 1) = some b → d.adminIn r m slot (some b) io = .ok bs →
      (∀ x n d1, parseSpec bs b = some x →
        (n = if x.indexNo = 0xFFFF then (d.freeIndexNo).getD 1024 else x.indexNo) → n < 1024 → tfind n d.indexes = none →
        d.createIndex { x with indexNo := n } = some d1 →
        gives (.createIndex m slot io) s fun e => e.answered m slot 0 0 n ∧ (∀ j, j ≠ n → tfind j e.indexes = tfind j d.indexes) ∧
          (∃ y, tfind n e.indexes = some y ∧ y.indexNo = n ∧ y.kind = x.kind ∧ y.metric = x.metric ∧ y.dim = x.dim ∧ y.nCap = x.nCap ∧
            y.nCells = x.nCells ∧ y.burgee = b ∧ y.view = 1 ∧ y.nLive = 0 ∧ y.delta = [] ∧ y.idMap = [] ∧ y.liveGen = 1 ∧ y.targetGen = 1 ∧
            y.centroids = x.centroids ∧ y.codebooks = x.codebooks ∧ y.deletedAt = none) ∧
          e = { d.told e with indexes := e.indexes, mem := e.mem, tiers := e.tiers, devBuckets := e.devBuckets, burgees := e.burgees } ∧ d.fnsTold e) ∧
      (∀ x n, parseSpec bs b = some x → (n = if x.indexNo = 0xFFFF then (d.freeIndexNo).getD 1024 else x.indexNo) → n < 1024 →
        tfind n d.indexes = none → d.createIndex { x with indexNo := n } = none →
        gives (.createIndex m slot io) s fun e => e.answered m slot stNoSpace 0 0 ∧ e = d.told e ∧ d.fnsTold e) ∧
      (parseSpec bs b = none → gives (.createIndex m slot io) s bad)) ∧
    (∀ x, d.index? i = some x → (m = 256 ∨ (d.fn m).burgee = x.burgee) →
      (d.servesNow 0x0031 m slot noIo → gives (.deleteIndex m slot) s fun e => ok e ∧ e.index? i = none ∧ (∀ c ∈ e.cmds, c.onIndex i = false) ∧
        ∀ j k k', d.job? j = some k → k.desc.indexNo = i → k.live = true → e.job? j = some k' → k'.state = .ended 8) ∧
      (∀ io bs, d.servesNow 0x0032 m slot io → d.adminIn r m slot (some x.burgee) io = .ok bs → let p := parseFilter bs
        (filterValid x.attrWords bs = true → p.filterId = r.param 0 2 → p.indexNo = i →
          gives (.loadFilter m slot io) s fun e => ∃ y, sets e y ∧ y = { x with filters := y.filters, filterLoads := y.filterLoads } ∧
            tfind p.filterId y.filters = some { p with version := tget 0 p.filterId x.filterLoads } ∧
            tget 0 p.filterId y.filterLoads = tget 0 p.filterId x.filterLoads + 1 ∧
            ∀ k, k ≠ p.filterId → tfind k y.filters = tfind k x.filters) ∧
        (filterValid x.attrWords bs = false ∨ p.filterId ≠ r.param 0 2 ∨ p.indexNo ≠ i → gives (.loadFilter m slot io) s bad)) ∧
      (d.servesNow 0x0033 m slot noIo →
        ((tfind (r.param 0 2) x.filters).isSome = true → gives (.unloadFilter m slot) s fun e => ∃ y, sets e y ∧ y = { x with filters := y.filters } ∧
          tfind (r.param 0 2) y.filters = none ∧ ∀ k, k ≠ r.param 0 2 → tfind k y.filters = tfind k x.filters) ∧
        (tfind (r.param 0 2) x.filters = none → gives (.unloadFilter m slot) s bad)) ∧
      (∀ io, d.servesNow 0x0034 m slot io →
        (∀ bs, r.param 0 1 ≠ 0 → d.adminIn r m slot (some x.burgee) io = .ok bs → elemValid x.attrWords bs = true → fieldAt bs 0 2 = i →
          d.oldTransforms x = [] → gives (.loadTransform m slot io) s fun e => ∃ y, sets e y ∧ y.transform = x.lastTransform + 1 ∧
            y.lastTransform = x.lastTransform + 1 ∧ tfind (x.lastTransform + 1) y.transforms = some bs ∧
            y = { x with transforms := y.transforms, transform := y.transform, lastTransform := y.lastTransform }) ∧
        (r.param 0 1 = 0 → d.oldTransforms x = [] → gives (.loadTransform m slot io) s fun e => ∃ y, sets e y ∧ y.transform = 0 ∧
          y = { x with transforms := y.transforms, transform := 0 }) ∧
        (r.param 0 1 = 0 → d.oldTransforms x ≠ [] → gives (.loadTransform m slot io) s fun e => e.answered m slot stBusy 4 0 ∧ e = d.told e ∧ d.fnsTold e)) ∧
      (∀ io bs a, d.servesNow 0x0035 m slot io → d.adminIn r m slot (some x.burgee) io = .ok bs → readAdapter x.dim bs = some a →
        gives (.loadAdapter m slot io) s fun e => sets e { x with adapter := a } ∧ a.rank = fieldAt bs 0 2)) ∧
    (∀ io bs, d.servesNow 0x0036 m slot io → d.adminIn r m slot none io = .ok bs →
      (modelValid bs = true → gives (.loadModel m slot io) s fun e => ok e ∧ e.model = d.lastModel + 1 ∧ tfind (d.lastModel + 1) e.models = some bs ∧
        e = { d.told e with models := e.models, model := e.model, lastModel := e.model } ∧ d.fnsTold e) ∧
      (modelValid bs = false → gives (.loadModel m slot io) s bad)) ∧
    (d.servesNow 0x0037 m slot noIo → gives (.unloadModel m slot) s fun e => ok e ∧ e.model = 0 ∧
      (∀ p ∈ d.models, (∃ c ∈ d.cmds, c.snap.elim 0 (·.model) = p.1) → p ∈ e.models) ∧
      e = { d.told e with models := e.models, model := 0 } ∧ d.fnsTold e) ∧
    (∀ io bs, d.servesNow 0x0038 m slot io → i < 16 → (d.burgee i).enabled = true → d.brgAdmin m i = true → d.adminIn r m slot (some i) io = .ok bs →
      (∀ n a d1, r.param 8 8 = 0 → (n = if r.param 16 8 = 0 then bs.length else r.param 16 8) → n ≠ 0 → bs.length ≤ n → d.takeF (some i) n = some (a, d1) →
        gives (.stageData m slot io) s fun e => e.answered m slot 0 0 a ∧ (∃ k ∈ tget [] i e.staged, k.addr = a ∧ k.len = n) ∧
          (∀ k, d.tiers.erased = [] → k < n → e.byteAt (a + k) = bs.getD k 0) ∧ (∀ b, b ≠ i → tget [] b e.staged = tget [] b d.staged)) ∧
      (∀ k, r.param 8 8 ≠ 0 → d.stagedAt i (r.param 8 8) = some k → r.dataLen ≠ 0 → r.param 24 8 % 64 = 0 → r.param 24 8 + bs.length ≤ k.len →
        gives (.stageData m slot io) s fun e => e.answered m slot 0 0 (r.param 8 8) ∧ e.staged = d.staged ∧
          (∀ j, d.tiers.erased = [] → j < bs.length → e.byteAt (r.param 8 8 + r.param 24 8 + j) = bs.getD j 0) ∧
          (∀ x, d.tiers.erased = [] → (x < r.param 8 8 + r.param 24 8 ∨ r.param 8 8 + r.param 24 8 + bs.length ≤ x) → e.byteAt x = d.byteAt x)) ∧
      (∀ k, r.param 8 8 ≠ 0 → d.stagedAt i (r.param 8 8) = some k → r.dataLen = 0 →
        gives (.stageData m slot io) s fun e => e.answered m slot 0 0 (r.param 8 8) ∧ k ∉ tget [] i e.staged ∧ (∀ x ∈ e.tiers.extF, x.base ≠ r.param 8 8) ∧
          e = { d.told e with staged := e.staged, tiers := { d.tiers with extF := e.tiers.extF } } ∧ d.fnsTold e) ∧
      (r.param 8 8 ≠ 0 → d.stagedAt i (r.param 8 8) = none → gives (.stageData m slot io) s bad)) ∧
    (d.servesNow 0x0039 m slot noIo →
      (i < 196 → (d.chan i).state ≠ .absent → gives (.retrainChannel m slot) s fun e => (e.chan i).trigger = (d.chan i).trigger.or (some .request) ∧
        (e.chan i).retrainReq = (d.chan i).retrainReq ++ [(m, slot)] ∧ (e.chan i).state = (d.chan i).state ∧ (∀ k, k ≠ i → e.chan k = d.chan k) ∧
        e = { d with tiers := e.tiers }) ∧
      (196 ≤ i → gives (.retrainChannel m slot) s bad))

/-- Counted settings, geometry, erasure and the debug lock (R342, R343, R424, R425, R433 to R437, R441): a counted write burns one fuse, appends
INTENT and COMMITTED and is told, and a write of L_TIER_POPULATION while R37 disables the data path leaves the L-tier zeroed (what training then finds
is the model's, log entry 44); a geometry write waits and is abandoned after 1 s; FORMAT and keys delete a burgee's indexes and erase its granules;
SANITISE leaves nothing; progress, end and failure are journalled; a token that verifies unlocks, any other voids the nonce. -/
def Obligations.SettingsAndErasure : Prop :=
  ∀ (s : State) (m slot : Nat), let d := s.dev; let r := d.adminAt m slot
    let ok := fun (e : Device) => e.answered m slot 0 0 0
    let wiped := fun (e : Device) => e.indexes = [] ∧ e.jobs = [] ∧ e.models = [] ∧ e.cmds = [] ∧ e.staged = [] ∧
      (∀ f q, f < 256 → e.qp f q = none) ∧ ∃ n, d.tiers.draws < n ∧ ∀ x, x < d.fCap → e.byteAt x = Config.erasedByte n x
    (d.servesNow 0x00A0 m slot noIo → let t := r.target; let v := r.param 0 8
      (d.settingCheck t v = none → d.aon.vfuseOut = false →
        gives (.writeCounted m slot) s fun e => ok e ∧ e.fuses = d.fuses.consume t v ∧ e.fuses.used t = d.fuses.used t + 1 ∧ e.fuses.value t = v ∧
          e.flash.ledger.map (fun k => (k.setting, k.lstate, k.writeNo, k.new)) = d.flash.ledger.map (fun k => (k.setting, k.lstate, k.writeNo, k.new)) ++
            [(t, 1, d.fuses.used t + 1, BitVec.ofNat 64 v), (t, 2, d.fuses.used t + 1, BitVec.ofNat 64 v)] ∧
          (t ≠ 6 → e.lastEvent = some (devEvent 0xC t)) ∧ e.indexes = d.indexes ∧ e.cmds = d.cmds ∧
          ((t ≠ 6 ∨ (d.popMis = false ∧ d.popFault = false)) → e.mem = d.mem) ∧
          (t = 6 → (d.popMis = true ∨ d.popFault = true) → ∀ c ∈ e.mem, c ∈ d.mem ∧ ¬ (lBase ≤ c.1 ∧ c.1 < 0x1E000000000))) ∧
      (∀ k, d.settingCheck t v = some k → gives (.writeCounted m slot) s fun e => e.answered m slot stInvalidField k.detail 0 ∧ e = d.told e ∧ d.fnsTold e) ∧
      (settingValueOk t v = true → d.fuses.used t < settingLimit t → d.fuses.value t = v →
        gives (.writeCounted m slot) s fun e => e.answered m slot stInvalidField 6 0 ∧ e = d.told e ∧ d.fnsTold e) ∧
      (settingValueOk t v = true → settingLimit t ≤ d.fuses.used t →
        gives (.writeCounted m slot) s fun e => e.answered m slot stInvalidField 5 0 ∧ e = d.told e ∧ d.fnsTold e)) ∧
    (∀ io g, d.servesNow 0x0020 m slot io → d.adminIn r m slot none io = .ok g → g.length = 4096 →
      let good := (∀ b, b < 16 → geoRecOk (geoSlice g b) = true) ∧ geoSumsOk g = true
      (good → d.floorsOk d.fresh g = true → d.fuses.geometryUsed < 255 → d.geoChanges g ≠ [] → d.aon.vfuseOut = false →
        gives (.writeGeometry m slot io) s fun e => e.mgmt.geoWrite = some (m, slot, g, d.now) ∧ (∀ b ∈ d.geoChanges g, (e.burgee b).geoWait = true) ∧
          e.startedAt m slot = true ∧ e.geo = d.geo ∧ e.fuses = d.fuses ∧
          e = { d with fresh := e.fresh, burgees := e.burgees, mgmt := { d.mgmt with geoWrite := e.mgmt.geoWrite } }) ∧
      (good → d.floorsOk d.fresh g = true → 255 ≤ d.fuses.geometryUsed →
        gives (.writeGeometry m slot io) s fun e => e.answered m slot stInvalidField 5 0 ∧ e.geo = d.geo ∧ e.burgees = d.burgees) ∧
      (¬ good → gives (.writeGeometry m slot io) s fun e => e.answered m slot stInvalidField 0 0 ∧ e = d.told e ∧ d.fnsTold e)) ∧
    (∀ g t, d.mgmt.geoWrite = some (m, slot, g, t) → m ≤ 256 → slot < 32 → d.startedAt m slot = true →
      gives .geometryDeferred s fun e => e.answered m slot stBusy 0x11 0 ∧ fieldAt (tget [] slot (e.mbox m).rsp) 8 4 = 10 ∧
        e.now = max d.now (t + 1000000000) ∧ e.mgmt.geoWrite = none ∧ (∀ b, (e.burgee b).geoWait = false) ∧ e.geo = d.geo) ∧
    (∀ bs ses, (d.servesNow 0x0080 m slot noIo ∧ r.param 0 1 ≤ 1 ∧ r.param 1 1 ≤ 2 ∧ ses = r.param 1 1 ∧ (r.param 0 1 = 1 → bs = List.range 16) ∧
        (r.param 0 1 = 0 → r.target < 16 ∧ bs = [r.target])) ∨ (d.servesNow 0x0021 m slot noIo ∧ r.target < 16 ∧ ses = 2 ∧ bs = [r.target]) →
      let formatted := fun (e : Device) => ok e ∧ (∀ i x, e.index? i = some x → x.burgee ∉ bs) ∧
        (ses = 1 → ∀ b ∈ bs, ∀ p ∈ e.granules b, ∀ x, p.1 ≤ x → x < p.1 + p.2 → e.byteAt x = 0) ∧
        (ses = 2 → ∀ b ∈ bs, ∀ p ∈ e.granules b, ∀ x, p.1 ≤ x → x < p.1 + p.2 → ∃ n, d.tiers.draws < n ∧ e.byteAt x = Config.erasedByte n x) ∧
        e.flash.sanitise.records = d.flash.sanitise.records ++ (if ses = 2 then [(1, 0), (2, 0), (4, 0)] else [(1, 0), (4, 0)]) ∧
        e.lastEvent = some (devEvent 9 0)
      (r.op = 0x0080 → gives (.format m slot) s formatted) ∧ (r.op = 0x0021 → gives (.setBurgeeKeys m slot) s formatted)) ∧
    (d.servesNow 0x0084 m slot noIo →
      (2 ≤ r.param 0 1 → r.param 0 1 ≤ 4 → gives (.sanitise m slot) s fun e => ok e ∧ wiped e ∧ e.flash.sanitise.state = 1 ∧
        e.flash.sanitise.action = r.param 0 1 ∧ e.flash.sanitise.keysDone = true ∧
        e.flash.sanitise.records = d.flash.sanitise.records ++ [(1, 0), (2, 0)] ∧ e.fuses = d.fuses ∧ e.flash.ledger = d.flash.ledger) ∧
      (r.param 0 1 = 1 → d.flash.sanitise.state = 3 → gives (.sanitise m slot) s fun e => ok e ∧ e.flash.sanitise.state = 0 ∧ e.indexes = d.indexes) ∧
      (r.param 0 1 = 0 ∨ 4 < r.param 0 1 → gives (.sanitise m slot) s fun e => e.answered m slot stInvalidField 0 0 ∧ e = d.told e ∧ d.fnsTold e)) ∧
    (let j := d.flash.sanitise; d.ready = true → j.state = 1 → j.keysDone = true →
      ((j.action = 2 ∨ j.action = 3) → j.offset + 0x1000000000 ≤ d.tierBytes →
        gives .sanitiseProgress s fun e => e.flash.sanitise = { j with offset := j.offset + 0x1000000000, records := j.records ++ [(3, j.offset + 0x1000000000)] } ∧
          (∀ x, j.offset ≤ x → x < j.offset + 0x1000000000 → x < d.fCap → e.byteAt x = 0) ∧ e = { d with flash := e.flash, mem := e.mem, tiers := e.tiers }) ∧
      gives .sanitiseComplete s (fun e => e.flash.sanitise.state = 2 ∧ e.flash.sanitise.endTime = d.hostTime ∧ e.lastEvent = some (devEvent 9 0) ∧
        ((j.action = 2 ∨ j.action = 3) → ∀ x, j.offset ≤ x → x < d.fCap → e.byteAt x = 0) ∧ e.indexes = d.indexes ∧ e.fuses = d.fuses) ∧
      ((j.action = 2 ∨ j.action = 3) → gives .sanitiseFailure s fun e => e.flash.sanitise = { j with state := 3, records := j.records ++ [(5, j.offset)] } ∧
        e.lastEvent = some (devEvent 9 1) ∧ e.mem = d.mem ∧ e.fuses = d.fuses)) ∧
    (∀ io, d.servesNow 0x00A1 m slot io → (m = 256 ∨ d.hostThere m) →
      (r.target = 1 → gives (.debugUnlock m slot io) s fun e => ok e ∧ (∃ n, n.length = 32 ∧ e.mgmt.sec.nonce = some n ∧ d.delivered e m slot io n) ∧
        e.mgmt.sec.unlocked = d.mgmt.sec.unlocked ∧ e.fuses = d.fuses) ∧
      (∀ t n, r.target = 2 → d.adminIn r m slot none io = .ok t → d.mgmt.sec.nonce = some n →
        (d.fuses.tokenOk t n = true → d.fuses.debugUsed < 8 → d.mgmt.sec.unlocked = none → d.aon.vfuseOut = false →
          gives (.debugUnlock m slot io) s fun e => ok e ∧ e.mgmt.sec.unlocked = some ((t.drop 48).take 16) ∧ e.mgmt.sec.nonce = none ∧
            e.fuses.debugUsed = d.fuses.debugUsed + 1 ∧ wiped e) ∧
        (d.fuses.tokenOk t n = false → gives (.debugUnlock m slot io) s fun e => e.answered m slot stInvalidField 0xA 0 ∧ e.mgmt.sec.nonce = none ∧
          e.fuses = d.fuses ∧ e.mgmt.sec.unlocked = d.mgmt.sec.unlocked)) ∧
      (∀ t, r.target = 2 → d.adminIn r m slot none io = .ok t → d.mgmt.sec.nonce = none →
        gives (.debugUnlock m slot io) s fun e => e.answered m slot stInvalidField 0xA 0 ∧ e = d.told e ∧ d.fnsTold e))

/-- Self-tests and firmware (R421 to R423, R427 to R432, R570): a test lists its segments; one takes its idle resource, yields to host work, and ends
counted, its failed resource leaving service, an SC with its STEs tag-limited; ABORT stops it. An image is placed in the staging area, written to a
slot once it passes its checks, booted next, or activated in the shadow MP. -/
def Obligations.SelfTestsAndFirmware : Prop :=
  ∀ (s : State) (m slot : Nat), let d := s.dev; let r := d.adminAt m slot; let t := d.mgmt.test
    let ok := fun (e : Device) => e.answered m slot 0 0 0
    (d.servesNow 0x0050 m slot noIo →
      (∀ k, r.param 0 1 = k → (k = 1 ∨ k = 2) → t.result ≠ 3 → gives (.selfTest m slot) s fun e => ok e ∧
        e.mgmt.test = { kind := k, result := 3, todo := d.testPlan k } ∧ e = { d.told e with mgmt := { (d.told e).mgmt with test := e.mgmt.test } } ∧ d.fnsTold e) ∧
      ((r.param 0 1 = 1 ∨ r.param 0 1 = 2) → t.result = 3 → gives (.selfTest m slot) s fun e => e.answered m slot stBusy 0xF 0 ∧ e = d.told e ∧ d.fnsTold e) ∧
      (r.param 0 1 = 0 ∨ 2 < r.param 0 1 → gives (.selfTest m slot) s fun e => e.answered m slot stInvalidField 0 0 ∧ e = d.told e ∧ d.fnsTold e)) ∧
    (d.servesNow 0x0051 m slot noIo →
      (t.result = 3 → gives (.abortSelfTest m slot) s fun e => ok e ∧ e.mgmt.test.result = 2 ∧ e.mgmt.test.todo = [] ∧ e.mgmt.test.running = [] ∧
        e.lastEvent = some (devEvent 8 2) ∧ e.indexes = d.indexes) ∧
      (t.result ≠ 3 → gives (.abortSelfTest m slot) s fun e => ok e ∧ e = d.told e ∧ d.fnsTold e)) ∧
    (∀ k res g, t.todo.find? (fun x => x.test == k && x.res == res) = some g → t.result = 3 → d.ready = true → d.mgmt.shed.steps < 3 →
      let runs := fun (e : Device) => e.mgmt.test.running = t.running ++ [g] ∧ e.mgmt.test.todo = t.todo.filter (· != g) ∧ e.mgmt.test.result = 3
      ((k = 1 ∨ k = 2) → t.todo.find? Segment.onSc = some g → (∀ x ∈ t.running, x.onSc = false) → d.scIdle res = true →
        gives (.segmentStart k res) s fun e => runs e ∧ (∀ x ∈ (e.str res).stes, x.limited = true) ∧ (∀ n, n ≠ res → e.str n = d.str n) ∧ e.mem = d.mem ∧
          e.indexes = d.indexes) ∧
      ((k = 3 ∨ k = 4) →
        (d.modChan res fun x => { x with trigger := x.trigger.or (some .request) }).mayRetrain res = true →
        gives (.segmentStart k res) s fun e => runs e ∧ (e.chan res).state = .retrain ∧ (e.chan res).windowAt = some e.now ∧ e.indexes = d.indexes) ∧
      (k = 5 → d.linkIdle res = true → res < 32 → gives (.segmentStart k res) s fun e => runs e ∧ e.mem = d.mem ∧ e.indexes = d.indexes) ∧
      (k = 5 → d.linkIdle res = false → gives (.segmentStart k res) s fun e =>
        (⟨g, true, false, 0xFFFF, 0⟩ : SegRec) ∈ e.mgmt.test.records ∧ g ∉ e.mgmt.test.todo ∧ e.mem = d.mem ∧ e.indexes = d.indexes)) ∧
    (∀ k res g, t.running.find? (fun x => x.test == k && x.res == res) = some g →
      (((k = 1 ∨ k = 2) ∧ (d.scIdle res = false ∨ 3 ≤ d.mgmt.shed.steps)) ∨ (k = 5 ∧ (d.linkIdle res = false ∨ 3 ≤ d.mgmt.shed.steps)) →
        gives (.segmentYield k res) s fun e => e.mgmt.test = { t with running := t.running.filter (· != g), todo := g :: t.todo } ∧ e.indexes = d.indexes) ∧
      (∀ rep sub det, ¬ (g.onChan = true ∧ (d.chan res).state = .retrain) → ¬ (g.onChan = true ∧ 1 < g.wins) →
        gives (.segmentDone k res true rep sub det) s fun e => e.mgmt.test.passed = t.passed + 1 ∧ e.mgmt.test.failed = t.failed ∧
          g ∉ e.mgmt.test.running ∧ (rep = true → (⟨g, false, true, sub % 65536, det⟩ : SegRec) ∈ e.mgmt.test.records) ∧ e.indexes = d.indexes) ∧
      (∀ rep sub det, g.onChan = true → 1 < g.wins → (d.chan res).state ≠ .retrain →
        gives (.segmentDone k res true rep sub det) s fun e => e.mgmt.test.todo = { g with wins := g.wins - 1 } :: t.todo ∧
          e.mgmt.test.running = t.running.filter (· != g) ∧ e.mgmt.test.passed = t.passed ∧ e.indexes = d.indexes) ∧
      (∀ rep sub det, ¬ (g.onChan = true ∧ (d.chan res).state = .retrain) →
        gives (.segmentDone k res false rep sub det) s fun e => e.mgmt.test.failed = t.failed + 1 ∧ e.mgmt.test.passed = t.passed ∧
          (⟨g, false, false, sub % 65536, det⟩ : SegRec) ∈ e.mgmt.test.records ∧ ((k = 1 ∨ k = 2) → (e.sc res).out = true ∧ ∀ x ∈ (e.str res).stes, x.limited = true) ∧
          ((k = 3 ∨ k = 4) → (e.chan res).state = .failed))) ∧
    (∀ io bs, d.servesNow 0x0090 m slot io → d.adminIn r m slot none io = .ok bs →
      (r.param 0 4 % 4096 = 0 → r.param 0 4 + bs.length ≤ 0x1000000 → gives (.fwDownload m slot io) s fun e => ok e ∧
        (∀ k, d.tiers.erased = [] → k < bs.length → e.byteAt (stageBase + r.param 0 4 + k) = bs.getD k 0) ∧
        (∀ x, d.tiers.erased = [] → (x < stageBase + r.param 0 4 ∨ stageBase + r.param 0 4 + bs.length ≤ x) → e.byteAt x = d.byteAt x) ∧
        e = { d.told e with mem := e.mem, tiers := e.tiers, devBuckets := e.devBuckets } ∧ d.fnsTold e) ∧
      (r.param 0 4 % 4096 ≠ 0 ∨ 0x1000000 < r.param 0 4 + bs.length →
        gives (.fwDownload m slot io) s fun e => e.answered m slot stInvalidField 0 0 ∧ e = d.told e ∧ d.fnsTold e)) ∧
    (let begins := fun (e : Device) (n : Nat) (back : Bool) => ∃ h a, d.ens.holder = some h ∧ e.ens.activation = some a ∧ a.slot = n ∧ a.old = d.mgmt.slot ∧
        a.mp = 1 - h ∧ a.probation = false ∧ a.back = back ∧ a.req = (m, slot) ∧ a.until_ = d.now + 30000000000 ∧ e.startedAt m slot = true ∧
        e.ens.holder = some h ∧ e.mgmt.slot = d.mgmt.slot ∧ e.indexes = d.indexes ∧ e.mem = d.mem
      let n := r.target
      (d.servesNow 0x0091 m slot noIo → (n = 1 ∨ n = 2) → n ≠ d.mgmt.slot →
        (d.imageCheck d.stagedImage = none → r.param 0 1 < 2 → gives (.fwCommit m slot) s fun e => ok e ∧ tfind n e.flash.images = some d.stagedImage ∧
          n ∈ e.flash.valid ∧ e.flash.nextBoot = (if r.param 0 1 = 1 then some n else d.flash.nextBoot) ∧
          (∀ k, k ≠ n → tfind k e.flash.images = tfind k d.flash.images) ∧ e = { d.told e with flash := e.flash } ∧ d.fnsTold e) ∧
        (d.imageCheck d.stagedImage = none → r.param 0 1 = 2 → d.ens.activation = none → d.ens.holder.isSome = true →
          gives (.fwCommit m slot) s fun e => tfind n e.flash.images = some d.stagedImage ∧ begins e n false) ∧
        (∀ k, d.imageCheck d.stagedImage = some k → r.param 0 1 < 2 → gives (.fwCommit m slot) s fun e => e.answered m slot stInvalidField k 0 ∧ e = d.told e ∧ d.fnsTold e)) ∧
      (d.servesNow 0x0091 m slot noIo → n = d.mgmt.slot → gives (.fwCommit m slot) s fun e => e.answered m slot stInvalidField 0 0 ∧ e = d.told e ∧ d.fnsTold e) ∧
      (d.servesNow 0x0092 m slot noIo →
        (d.bootable n = true → r.param 0 1 = 0 → gives (.fwActivate m slot) s fun e => ok e ∧ e.flash = { d.flash with nextBoot := some n } ∧
          e = { d.told e with flash := e.flash } ∧ d.fnsTold e) ∧
        (d.bootable n = true → r.param 0 1 = 1 → d.ens.activation = none → d.ens.holder.isSome = true → gives (.fwActivate m slot) s fun e => begins e n false) ∧
        (d.bootable n = false → gives (.fwActivate m slot) s fun e => e.answered m slot stInvalidField 0 0 ∧ e = d.told e ∧ d.fnsTold e)) ∧
      (d.servesNow 0x0093 m slot noIo →
        (∀ o, d.otherSlot d.mgmt.slot = some o → d.ens.activation = none → d.ens.holder.isSome = true → gives (.fwRollback m slot) s fun e => begins e o true) ∧
        (d.otherSlot d.mgmt.slot = none → gives (.fwRollback m slot) s fun e => e.answered m slot stInvalidField 0x12 0 ∧ e = d.told e ∧ d.fnsTold e)))

/-! ### Swiold Links (chapter 14) -/

/-- Links (R442 to R447, R456, R478): a bring-up chooses FULL or HALF, locks on its trained lanes, or gives up beyond the delay bound; a hail is sent at
its interval and judged by the first row that applies; a window is counted and three CRITICAL ones retrain the lane; keep-alives are sent, and their
loss or that of the signal drops the link into training. No other link changes. -/
def Obligations.LinksComeUpAndDrop : Prop :=
  ∀ (s : State) (l : Nat), let d := s.dev; let k := d.link l
    let alone := fun (e : Device) => ∀ i, i ≠ l → e.link i = d.link i
    let told := fun (e : Device) => e = { d.told e with links := e.links } ∧ d.fnsTold e
    let ev := fun (cause dev : Nat) => devEvent 0x12 (cause + at_ 8 l + at_ 16 dev)
    (∀ p0 p1 pf delay act, d.linkMayTrain l = true → k.state = .training →
      (900 < delay → gives (.linkBringUp l p0 p1 pf delay act) s fun e => e.link l = { k with state := .off, delay := delay, active := act } ∧
        e.lastEvent = some (ev 8 0xFFFF) ∧ alone e ∧ told e) ∧
      (delay ≤ 900 → let full := !k.capHalf && pf && decide (p0.loss ≤ 576) && decide (p1.loss ≤ 576) && laneTrains true p0 && laneTrains true p1
        gives (.linkBringUp l p0 p1 pf delay act) s fun e => (e.link l).full = full ∧ (e.link l).delay = delay ∧
          (e.link l).lane0.up = laneTrains full p0 ∧ (e.link l).lane1.up = laneTrains full p1 ∧
          ((e.link l).state = .locked ↔ laneTrains full p0 = true ∨ laneTrains full p1 = true) ∧
          ((e.link l).state = .training ↔ laneTrains full p0 = false ∧ laneTrains full p1 = false) ∧
          ((704 < p0.loss ∨ 704 < p1.loss) → e.lastEvent = some (ev 7 0xFFFF)) ∧ alone e ∧ told e)) ∧
    (∀ p, (laneTrains true p = true ↔ p.signal = true ∧ p.loss ≤ 576 ∧ p.passFull = true) ∧
      (laneTrains false p = true ↔ p.signal = true ∧ p.loss ≤ 704 ∧ p.passHalf = true)) ∧
    (d.linkMayTrain l = true → (k.state = .training ∨ k.state = .locked) →
      gives (.linkTrainTimeout l) s fun e => e.now = max d.now (k.startAt + (if k.active = true then 200000000 else 50000000)) ∧
        (e.link l).failures = k.failures + 1 ∧ (e.link l).state = .training ∧ (e.link l).startAt = e.now ∧ (e.link l).lane0.up = false ∧
        (e.link l).lane1.up = false ∧ alone e ∧ e = { d with now := e.now, links := e.links }) ∧
    (∀ lane, lane < 2 → k.state ≠ .training → k.state ≠ .off → (k.lane lane).up = true →
      gives (.hailSend l lane) s fun e =>
        e.now = (match (if lane = 0 then k.hailAt0 else k.hailAt1) with
          | some t => max d.now (t + if k.state = .held then 1000000000 else 100000) | none => d.now) ∧
        (if lane = 0 then (e.link l).hailAt0 else (e.link l).hailAt1) = some e.now ∧ alone e ∧ (e.link l).state = k.state ∧
        (∃ bs, e.out = .flit l lane 3 bs :: d.out ∧ bs.length = 256 ∧ fieldAt bs 0 1 = 3 ∧
          fieldAt bs 26 2 = (if d.inShoal = true then d.shoal.device % 65536 else 0xFFFF) ∧ fieldAt bs 28 1 = l % 256 ∧
          fieldAt bs 40 4 = d.shoal.epoch % 2 ^ 32) ∧ e = { d with now := e.now, links := e.links, out := e.out }) ∧
    (∀ p, k.state ≠ .training → k.state ≠ .off →
      let becomes := fun (st : LinkState) (e : Device) => (e.link l).state = st ∧
        (e.link l).partner = some ⟨fieldAt p 2 2, fieldAt p 4 1, fieldAt p 5 1, fieldAt p 6 1, fieldAt p 16 4, (p.drop 24).take 16⟩ ∧
        (e.link l).accept = (st == .up || st == .mgmtOnly) ∧ (e.link l).keepRx = d.now
      let good := fieldAt p 40 4 / 65536 = 1
      let ours := fieldAt p 8 8 = d.shoal.id.toNat ∧ (p.drop 64).take 32 = hailMac d.shoal (p.take 64)
      (¬ good → gives (.hailReceived l p) s fun e => becomes .held e ∧ (k.state ≠ .held → e.raised (ev 0xB (fieldAt p 2 2))) ∧ alone e) ∧
      (good → ¬ ours → gives (.hailReceived l p) s fun e => becomes .held e ∧ (k.state ≠ .held → e.raised (ev 9 (fieldAt p 2 2))) ∧ alone e) ∧
      (good → ours → fieldAt p 6 1 = 1 → d.inShoal = true → gives (.hailReceived l p) s fun e => becomes .mgmtOnly e ∧ alone e) ∧
      (good → ours → fieldAt p 6 1 ≠ 1 → d.inShoal = true → d.shoal.partnerOf l ≠ some (fieldAt p 2 2) →
        gives (.hailReceived l p) s fun e => becomes .held e ∧ (k.state ≠ .held → e.raised (ev 0xA (fieldAt p 2 2))) ∧ alone e) ∧
      (good → ours → (d.inShoal = false ∨ (fieldAt p 6 1 ≠ 1 ∧ d.shoal.partnerOf l = some (fieldAt p 2 2))) →
        gives (.hailReceived l p) s fun e => becomes .up e ∧ (k.state ≠ .up → e.raised (ev 1 (fieldAt p 2 2))) ∧
          (fieldAt p 16 4 ≤ d.shoal.epoch → alone e))) ∧
    (∀ lane worst, lane < 2 → k.state = .up → (k.lane lane).up = true → let a := k.lane lane
      let only := fun (e : Device) => alone e ∧ e = { d with links := e.links, out := e.out }
      (worst < 8 → gives (.marginWindow l lane worst false) s fun e => (e.link l).lane lane = { a with good := a.good + 1, critRun := 0 } ∧ only e ∧ e.out = d.out) ∧
      (8 ≤ worst → worst < 12 → gives (.marginWindow l lane worst false) s fun e =>
        (e.link l).lane lane = { a with low := a.low + 1, critRun := 0, txeqAt := if dueAfter a.txeqAt 1000000 d.now = true then some d.now else a.txeqAt } ∧
          (dueAfter a.txeqAt 1000000 d.now = true → ∃ bs, e.out = .flit l lane 5 bs :: d.out) ∧ only e) ∧
      (∀ u, (u = true ∨ 12 ≤ worst) → a.critRun + 1 < 3 → gives (.marginWindow l lane worst u) s fun e =>
        (e.link l).lane lane = { a with critical := a.critical + 1, critRun := a.critRun + 1 } ∧ only e ∧ e.out = d.out) ∧
      (∀ u, (u = true ∨ 12 ≤ worst) → 3 ≤ a.critRun + 1 → d.frozen = false → (k.lane (1 - lane)).up = true →
        gives (.marginWindow l lane worst u) s fun e => ((e.link l).lane lane).up = false ∧ ((e.link l).lane lane).retrainAt = some d.now ∧
          (e.link l).state = .up ∧ e.lastEvent = some (ev 5 0xFFFF) ∧ alone e ∧ told e) ∧
      (∀ u, (u = true ∨ 12 ≤ worst) → 3 ≤ a.critRun + 1 → d.frozen = true →
        gives (.marginWindow l lane worst u) s fun e => ((e.link l).lane lane).retrainDue = true ∧ ((e.link l).lane lane).up = true ∧ only e)) ∧
    (∀ lane p, lane < 2 → k.state = .up → (k.lane lane).retrainAt.isSome = true →
      (laneTrains k.full p = true → gives (.laneRetrainDone l lane p) s fun e => ((e.link l).lane lane).up = true ∧ ((e.link l).lane lane).loss = p.loss ∧
        ((e.link l).lane lane).retrainAt = none ∧ e.lastEvent = some (ev 6 0xFFFF) ∧ alone e ∧ told e) ∧
      (laneTrains k.full p = false → gives (.laneRetrainDone l lane p) s fun e => ((e.link l).lane lane).up = false ∧
        (704 < p.loss → e.lastEvent = some (ev 7 0xFFFF)) ∧ alone e ∧ told e)) ∧
    (∀ lane c, lane < 2 → k.state = .up → (k.lane lane).up = true →
      gives (.txeq l lane c) s fun e => (e.link l).lane lane = { k.lane lane with taps := (k.lane lane).taps ++ [c] } ∧
        (e.link l).lane (1 - lane) = k.lane (1 - lane) ∧ alone e ∧ e = { d with links := e.links }) ∧
    (∀ lane, lane < 2 → k.state = .up → (k.lane lane).up = true →
      gives (.keepaliveSend l lane) s fun e =>
        e.now = (match (if lane = 0 then k.keepAt0 else k.keepAt1) with | some t => max d.now (t + 10000) | none => d.now) ∧
        (if lane = 0 then (e.link l).keepAt0 else (e.link l).keepAt1) = some e.now ∧ alone e ∧
        (∃ bs, e.out = .flit l lane 2 bs :: d.out ∧ bs.length = 256 ∧ fieldAt bs 0 1 = 2) ∧ e = { d with now := e.now, links := e.links, out := e.out }) ∧
    ((k.state = .up ∨ k.state = .mgmtOnly) → let dropped := fun (e : Device) (cause : Nat) => (e.link l).state = .training ∧ (e.link l).partner = none ∧ (e.link l).credits = fullCredits ∧
        (e.link l).txSeq = 0 ∧ (e.link l).rxSeq = 0 ∧ (e.link l).sent = [] ∧ (e.link l).parts = [] ∧ (e.link l).lane0.up = false ∧ (e.link l).lane1.up = false ∧
        (k.queue = [] → k.unacked = [] → e.raised (ev cause ((k.partner.map (·.device)).getD 0))) ∧ e.indexes = d.indexes ∧ e.mem = d.mem
      gives (.keepaliveMissed l) s (fun e => dropped e 3 ∧ e.now = max d.now (k.keepRx + 30000)) ∧
        (∀ lane worst u, lane < 2 → k.state = .up → (k.lane lane).up = true → (k.lane (1 - lane)).up = false → (u = true ∨ 12 ≤ worst) →
          3 ≤ (k.lane lane).critRun + 1 → d.frozen = false → gives (.marginWindow l lane worst u) s fun e => dropped e 4 ∧ e.now = d.now) ∧
        ∀ lanes, (∀ i ∈ k.lanes, lanes.testBit i = true) → gives (.lossOfSignal l lanes) s fun e => dropped e 2 ∧ e.now = d.now)

/-- Flits, replay and link tests (R448 to R455, R457, R572): a REPLAY_REQ resends every unacknowledged flit from its SEQ; a flit that fails is asked
for again; a whole message for this device joins the inbox once, a damaged one is reported; a KEEPALIVE is noted, and the credits it brings may send
what waits. LT_CTRL from a device-admin PF sets the test, or is counted as refused on an UP link. -/
def Obligations.FlitsReplayAndLinkTests : Prop :=
  ∀ (s : State) (l : Nat), let d := s.dev; let k := d.link l
    let alone := fun (e : Device) => ∀ i, i ≠ l → e.link i = d.link i
    (∀ seq, (k.state = .up ∨ k.state = .mgmtOnly) → (k.replays.filter fun t => decide (d.now < t + 1000000)).length + 1 < 64 →
      gives (.replayReq l seq) s fun e => (∀ f ∈ k.sent, seqAcked f.seq ((seq % 4096 + 4095) % 4096) = false →
          Emit.flit l (if k.lane0.up then 0 else 1) 1 f.bytes ∈ e.out) ∧ (e.link l).sent = k.sent ∧ (e.link l).state = k.state ∧
        (e.link l).replays = d.now :: k.replays.filter (fun t => decide (d.now < t + 1000000)) ∧ alone e ∧ e = { d with links := e.links, out := e.out }) ∧
    (∀ seq, (k.state = .up ∨ k.state = .mgmtOnly) → 64 ≤ (k.replays.filter fun t => decide (d.now < t + 1000000)).length + 1 →
      gives (.replayReq l seq) s fun e => (e.link l).state = .training ∧ (e.link l).sent = [] ∧ e.indexes = d.indexes ∧ e.mem = d.mem) ∧
    (∀ bs : List Byte, bs.length = 256 → (k.state = .up ∨ k.state = .mgmtOnly) →
      let kept := fun (e : Device) => (e.link l).rxSeq = k.rxSeq ∧ e.shoal = d.shoal ∧ alone e ∧ e = { d with links := e.links, out := e.out }
      let good := (crc32 (bs.take 252)).toNat = fieldAt bs 252 4
      let whole := fieldAt bs 0 1 % 16 = 1 ∧ fieldAt bs 1 2 % 4096 = k.rxSeq ∧ fieldAt bs 15 1 % 4 = 3 ∧ fieldAt bs 8 2 = d.shoal.device
      let sound := (crc32c (((bs.drop 8).take 240).take 10 ++ [0] ++ ((bs.drop 8).take 240).drop 11)).toNat = fieldAt bs 248 4
      (k.reqAt = none → gives (.flitReceipt l false bs) s fun e => kept e ∧ (e.link l).reqAt = some d.now ∧
        ∃ q, e.out = .flit l (if k.lane0.up then 0 else 1) 4 q :: d.out ∧ fieldAt q 24 2 = k.rxSeq % 65536) ∧
      (∀ b, k.reqAt = none → ¬ good → gives (.flitReceipt l b bs) s fun e => kept e ∧ (e.link l).reqAt = some d.now) ∧
      (good → fieldAt bs 0 1 % 16 = 2 → gives (.flitReceipt l true bs) s fun e => (e.link l).rxSeq = k.rxSeq ∧ (e.link l).keepRx = d.now ∧ alone e ∧
        e = { d with links := e.links, out := e.out, fns := e.fns, burgees := e.burgees, devBuckets := e.devBuckets } ∧ d.fnsMetered e ∧
        d.burgeesMetered e ∧ (k.queue = [] → kept e)) ∧
      (good → whole → sound → kindVc (fieldAt bs 14 1) ≠ none → fieldAt bs 18 1 % 2 = 0 →
        gives (.flitReceipt l true bs) s fun e => (e.link l).rxSeq = (k.rxSeq + 1) % 4096 ∧ alone e ∧
          (∃ m, e.shoal.inbox = d.shoal.inbox ++ [m] ∧ m.src = fieldAt bs 10 2 ∧ m.dst = d.shoal.device ∧ m.tag = fieldAt bs 12 2 ∧
            m.kind = fieldAt bs 14 1 ∧ m.port = some l ∧ m.bytes = (bs.drop 24).take (min (fieldAt bs 17 1) 224) ∧
            e.shoal.record = ((m.src, m.tag, m.kind) :: d.shoal.record).take 16384) ∧ e.indexes = d.indexes ∧ e.mem = d.mem) ∧
      (good → whole → sound → kindVc (fieldAt bs 14 1) ≠ none → fieldAt bs 18 1 % 2 = 1 →
        (fieldAt bs 10 2, fieldAt bs 12 2, fieldAt bs 14 1) ∈ d.shoal.record →
        gives (.flitReceipt l true bs) s fun e => (e.link l).rxSeq = (k.rxSeq + 1) % 4096 ∧ e.shoal = d.shoal) ∧
      (good → whole → ¬ sound → gives (.flitReceipt l true bs) s fun e => (e.link l).rxSeq = (k.rxSeq + 1) % 4096 ∧ e.shoal = d.shoal ∧
        e.lastEvent = some (devEvent 0x12 (0xF + at_ 8 l + at_ 16 (fieldAt bs 10 2))))) ∧
    (∀ f pattern rate lanes seen, d.isAdminPf f = true → l < 32 → let t := k.test
      let sets := fun (mode : Nat) (e : Device) => (e.link l).test.mode = mode ∧ (e.link l).test.pattern = (if pattern < 4 then pattern else t.pattern) ∧
        (e.link l).test.rate = (if rate < 2 then rate else t.rate) ∧ (e.link l).test.lanes = lanes % 4 ∧ (e.link l).test.refused = t.refused ∧
        e.link l = { k with test := (e.link l).test } ∧ alone e ∧ e = { d with links := e.links }
      let reads := fun (e : Device) => (e.link l).test.locked = seen.locked % 4 ∧ (e.link l).test.err0 = BitVec.ofNat 64 seen.err0 ∧
        (e.link l).test.err1 = BitVec.ofNat 64 seen.err1 ∧ (e.link l).test.bits0 = BitVec.ofNat 64 seen.bits0 ∧
        (e.link l).test.bits1 = BitVec.ofNat 64 seen.bits1
      let refuses := fun (e : Device) => e.link l = { k with test := { t with refused := min 0xFFFF (t.refused + 1) } } ∧ alone e ∧ e = { d with links := e.links }
      gives (.ltOff f l pattern rate lanes) s (fun e => sets 0 e ∧ (e.link l).test.locked = 0 ∧ (e.link l).test.err0 = t.err0) ∧
      ((k.state ≠ .up ∨ k.ctlHold = true) →
        gives (.ltNearSerial f l pattern rate lanes seen) s (fun e => sets 1 e ∧ reads e) ∧
        gives (.ltNearParallel f l pattern rate lanes seen) s (fun e => sets 2 e ∧ reads e) ∧
        gives (.ltTxOnly f l pattern rate lanes) s (fun e => sets 3 e ∧ (e.link l).test.err0 = 0 ∧ (e.link l).test.bits0 = 0) ∧
        gives (.ltRxOnly f l pattern rate lanes seen) s (fun e => sets 4 e ∧ reads e)) ∧
      (k.state = .up → k.ctlHold = false →
        gives (.ltNearSerial f l pattern rate lanes seen) s refuses ∧ gives (.ltNearParallel f l pattern rate lanes seen) s refuses ∧
        gives (.ltTxOnly f l pattern rate lanes) s refuses ∧ gives (.ltRxOnly f l pattern rate lanes seen) s refuses))

/-! ### The shoal (chapter 15) -/

/-- The Message Record (R457): of every kind of message, one with RESENT set that the record names is dropped and counted; any other that arrives is
taken and enters the record, which holds the last 16,384; outside a shoal nothing is taken. The counter is model's choice (log entry 29). -/
def Obligations.MessageRecordDropsRepeats : Prop :=
  ∀ (s : State) (src tag : Nat) (resent : Bool) (b : List Byte), let d := s.dev
    (∀ p ∈ [(Instr.entryRequest src tag resent b, 0x01), (.entryReply src tag resent b, 0x02), (.shardTask src tag resent b, 0x03),
        (.shardList src tag resent b, 0x04), (.refineRequest src tag resent b, 0x05), (.refineReply src tag resent b, 0x06), (.cancel src tag resent b, 0x07),
        (.writeForward src tag resent b, 0x08), (.writeReply src tag resent b, 0x09), (.getForward src tag resent b, 0x0A), (.getReply src tag resent b, 0x0B),
        (.assign src tag resent b, 0x0C), (.assignReply src tag resent b, 0x0D), (.ship src tag resent b, 0x0E), (.shipReply src tag resent b, 0x0F),
        (.mirror src tag resent b, 0x10), (.mirrorReply src tag resent b, 0x11), (.train src tag resent b, 0x12), (.trainReply src tag resent b, 0x13),
        (.directory src tag resent b, 0x14), (.notice src tag resent b, 0x15), (.probe src tag resent b, 0x16)],
      ((d.inShoal = false ∨ d.ready = false) → gives p.1 s fun e => e = d) ∧
      (d.inShoal = true → d.ready = true → resent = true → (src, tag, p.2) ∈ d.shoal.record → d.shoal.inbox = [] →
        (d.link (d.portOfDev src tag)).counters.length = 16 → gives p.1 s fun e => e = { d with links := e.links } ∧
          (e.link (d.portOfDev src tag)).counters.getD 10 0 = (d.link (d.portOfDev src tag)).counters.getD 10 0 + 1) ∧
      (d.hears p.2 src tag resent b → gives p.1 s fun e => e.shoal.record = ((src, tag, p.2) :: d.shoal.record).take 16384))

/-- Queries of a shoal (R357, R358, R452, R467 to R471): a request becomes a command here with the header's parameters, or is dropped for an early CANCEL; a holder whose copy is incomplete passes it
on; a reply closes its request, is parked for a spilled context, or is dropped and counted; CANCEL ends the tasks of its request or is kept 1 ms. -/
def Obligations.ShoalQueries : Prop :=
  ∀ (s : State) (src tag : Nat) (resent : Bool) (b : List Byte), let d := s.dev
    let owner := fieldAt b 12 2; let t := fieldAt b 56 2; let i := fieldAt b 2 2
    let late := fun (kind : Nat) (e : Device) => e = { (d.heard kind src tag) with shoal := { (d.heard kind src tag).shoal with lateReplies := d.shoal.lateReplies + 1 } }
    let awaits := d.ctxs.find? (fun k => k.rrt.any fun r => r.tag == tag) = none ∧ (∃ o ∈ d.shoal.pending, o.tag = tag) ∨
      ∃ k r, d.ctxs.find? (fun k => k.rrt.any fun r => r.tag == tag) = some k ∧ k.rrt.find? (fun r => r.tag == tag) = some r ∧ k.state ≠ .spilled ∧ r.state = .waiting
    (∀ op x, ioOpOf (fieldAt b 0 1) = some op → op.isSearch = true → d.index? i = some x →
      let tasks := [(Instr.entryRequest src tag resent b, 0x01), (.shardTask src tag resent b, 0x03), (.refineRequest src tag resent b, 0x05)]
      (∀ p ∈ tasks, d.hears p.2 src tag resent b → d.quiesced = false → (p.2 = 1 → d.shoal.complete = true) → (p.2 = 3 → owner ≠ d.shoal.device) →
        (∀ c ∈ d.shoal.cancels, c.1 = owner → c.2.1 = t → c.2.2 + 1000000 < d.now) →
        gives p.1 s fun e => ∃ c r, e = { (d.heard p.2 src tag) with cmds := d.cmds ++ [c] } ∧ c.op = op ∧ c.indexNo = i ∧ c.burgee = x.burgee ∧
          c.deadline = some (d.now + fieldAt b 4 4) ∧ c.shoalView = fieldAt b 8 4 ∧ c.sp.k = fieldAt b 24 2 ∧ c.sp.probes = fieldAt b 26 2 ∧
          c.sp.beam = fieldAt b 28 2 ∧ c.sp.nvec = fieldAt b 40 2 ∧ c.sp.filterId = fieldAt b 14 2 ∧ c.remote = some r ∧ r.device = owner ∧ r.tag = t ∧
          r.kind = p.2 ∧ r.fetch = fieldAt b 48 8 ∧ r.bound = (fieldAt b 1 1).testBit 0 ∧ ∀ a ∈ d.cmds, a.stamp ≠ c.stamp) ∧
      (∀ p ∈ tasks, d.hears p.2 src tag resent b → (p.2 = 1 → d.shoal.complete = true) → (p.2 = 3 → owner ≠ d.shoal.device) →
        (∃ c ∈ d.shoal.cancels, c.1 = owner ∧ c.2.1 = t ∧ d.now ≤ c.2.2 + 1000000) →
        gives p.1 s fun e => e.cmds = d.cmds ∧ e = { (d.heard p.2 src tag) with shoal := { (d.heard p.2 src tag).shoal with cancels := e.shoal.cancels } } ∧
          ∀ c, c ∈ e.shoal.cancels ↔ c ∈ d.shoal.cancels ∧ ¬ (c.1 = owner ∧ c.2.1 = t ∧ d.now ≤ c.2.2 + 1000000)) ∧
      (∀ h, d.hears 0x01 src tag resent b → d.shoal.complete = false → d.holders.find? (fun h => h != d.shoal.device && d.serves h) = some h →
        gives (.entryRequest src tag resent b) s fun e => (d.heard 0x01 src tag).replied e h 0x01 tag false b) ∧
      (d.hears 0x03 src tag resent b → owner = d.shoal.device → gives (.shardTask src tag resent b) s fun e =>
        e = { (d.heard 0x03 src tag) with cmds := e.cmds } ∧ e.cmds.map (·.stamp) = d.cmds.map (·.stamp))) ∧
    (∀ p ∈ [(Instr.entryReply src tag resent b, 0x02, 0x01), (.refineReply src tag resent b, 0x06, 0x05), (.trainReply src tag resent b, 0x13, 0x12)],
      d.hears p.2.1 src tag resent b →
      ((∀ o ∈ d.shoal.pending, ¬ (o.kind = p.2.2 ∧ o.tag = tag)) → gives p.1 s (late p.2.1)) ∧
      (∀ o, d.shoal.pending.find? (fun o => o.kind == p.2.2 && o.tag == tag) = some o → o.dst = src →
        (awaits → gives p.1 s fun e => o ∉ e.shoal.pending ∧ (p.2.2 = 0x01 → ∀ c, d.cmd? o.stamp = some c → ∃ c', e.cmd? o.stamp = some c' ∧
          c'.shards = (List.range (fieldAt b 0 2)).map fun k => fieldAt b (2 + 2 * k) 2)) ∧
        (∀ k r, d.ctxs.find? (fun k => k.rrt.any fun r => r.tag == tag) = some k → k.rrt.find? (fun r => r.tag == tag) = some r →
          (r.state = .cancelled → gives p.1 s fun e => e.shoal.lateReplies = d.shoal.lateReplies + 1 ∧ e.shoal.pending = d.shoal.pending ∧
            e = { (d.heard p.2.1 src tag) with ctxs := e.ctxs, shoal := e.shoal }) ∧
          (r.state ≠ .cancelled → k.state = .spilled → gives p.1 s fun e => e.shoal = (d.heard p.2.1 src tag).shoal ∧ e.cmds = d.cmds ∧
            ∃ k' ∈ e.ctxs, k'.id = k.id ∧ ∃ r' ∈ k'.rrt, r'.tag = tag ∧ r'.state = .parked ∧ r'.reply = b)))) ∧
    (d.hears 0x04 src tag resent b →
      (∀ o c, d.shoal.pending.find? (fun o => o.kind == 0x03 && o.tag == tag && posOf o.dst == posOf src) = some o → awaits →
        d.cmd? o.stamp = some c → (∀ p ∈ c.shardsIn, posOf p ≠ posOf o.dst) →
        gives (.shardList src tag resent b) s fun e => o ∉ e.shoal.pending ∧ e = { (d.heard 0x04 src tag) with cmds := e.cmds, ctxs := e.ctxs, shoal := e.shoal } ∧
          ∃ c' p, e.cmd? o.stamp = some c' ∧ posOf p = posOf o.dst ∧ c'.shardsIn = c.shardsIn ++ [p] ∧ c'.shardCov.length = c.shardCov.length + 1 ∧
            c'.runs.length = c.runs.length) ∧
      ((∀ o ∈ d.shoal.pending, o.tag = tag → o.kind ≠ 0x01 ∧ o.kind ≠ 0x03) → gives (.shardList src tag resent b) s (late 0x04))) ∧
    (d.hears 0x07 src tag resent b → let mine := fun (c : Cmd) => ∃ r, c.remote = some r ∧ r.device = owner ∧ r.tag = t ∧ r.kind ≠ 0x08
      ((∀ c ∈ d.cmds, ¬ mine c) → gives (.cancel src tag resent b) s fun e =>
        e = { (d.heard 0x07 src tag) with shoal := { (d.heard 0x07 src tag).shoal with cancels := d.shoal.cancels ++ [(owner, t, d.now)] } }) ∧
      ((∃ c ∈ d.cmds, mine c) → gives (.cancel src tag resent b) s fun e => (∀ c ∈ e.cmds, ¬ mine c ∧ c ∈ d.cmds) ∧ e.shoal.cancels = d.shoal.cancels ∧
        ∀ f q, e.qp f q = d.qp f q)) ∧
    (∀ o n, (∀ c, d.shoal.cancels.find? (fun c => c.1 == o && c.2.1 == n) = some c → gives (.cancelHoldExpiry o n) s fun e =>
        e = { d with now := max d.now (c.2.2 + 1000000), shoal := { d.shoal with cancels := d.shoal.cancels.filter (· != c) } }) ∧
      ((∀ c ∈ d.shoal.cancels, ¬ (c.1 = o ∧ c.2.1 = n)) → gives (.cancelHoldExpiry o n) s fun e => e = d))

/-- Writes, GETs and shipments of a shoal index (R465, R472 to R474): the home takes writes in FWD_SEQ order, answers a repeat as before and keeps an
early one; a reply or an acceptance at its owner closes what awaited it; 1 ms without one resends; a twin applies a MIRROR in WRITE_SEQ order; a GET
is answered from where the vector lies, its reads charged; ASSIGN answers cells, SHIP is taken with its view pending or refused; TRAIN is taken with
no effect (log 29). -/
def Obligations.ShoalWritesAndShipments : Prop :=
  ∀ (s : State) (src tag : Nat) (resent : Bool) (b : List Byte), let d := s.dev; let w := fun (k : Nat) => fieldAt b (8 * k) 8
    let heard := fun (kind : Nat) => d.heard kind src tag
    let late := fun (kind : Nat) (e : Device) => e = { heard kind with shoal := { (heard kind).shoal with lateReplies := d.shoal.lateReplies + 1 } }
    (∀ seq i q, d.hears 0x08 src tag resent b → readWrite b = some (seq, i, q) → (∀ m ∈ d.shoal.inbox, ¬ (m.kind = 0x08 ∧ m.src = src)) →
      let next := tget 1 src d.shoal.fwdNext; let g := fun (e : Device) => e.indexes = d.indexes ∧ e.mem = d.mem
      (∀ k, seq < next → d.shoal.fwdKept.find? (fun k => k.1 == src && k.2.1 == seq) = some k →
        gives (.writeForward src tag resent b) s fun e => (heard 0x08).replied e src 0x09 tag false k.2.2) ∧
      (next < seq → gives (.writeForward src tag resent b) s fun e => e.out = d.out ∧ e.cmds = d.cmds ∧ g e ∧
        ∃ m, e.shoal.inbox = d.shoal.inbox ++ [m] ∧ m.kind = 0x08 ∧ m.src = src ∧ m.tag = tag ∧ m.bytes = b) ∧
      (seq = next → ∀ x si, d.index? i = some x → d.shoalIndex? i = some si → d.homeOf si q.id = some d.shoal.device →
        gives (.writeForward src tag resent b) s fun e => e.out = d.out ∧ g e ∧ tget 1 src e.shoal.fwdNext = next + 1 ∧
          ∃ c r, e.cmds = d.cmds ++ [c] ∧ c.op = q.op ∧ c.id = q.id ∧ c.indexNo = i ∧ c.vecs = [q.vec] ∧ c.attrs = q.attrs ∧ c.flags = q.mask ∧
            c.remote = some r ∧ r.device = src ∧ r.tag = tag ∧ r.fetch = seq ∧ r.kind = 0x08) ∧
      (seq = next → d.index? i = none → gives (.writeForward src tag resent b) s fun e => Emit.shoal src 0x09 tag false (words [stIndexDeleted, 0]) ∈ e.out ∧
        g e ∧ e.cmds = d.cmds ∧ tget 1 src e.shoal.fwdNext = next + 1) ∧
      (seq = next → ∀ x si, d.index? i = some x → d.shoalIndex? i = some si → d.homeOf si q.id ≠ some d.shoal.device → x.findSlot q.id = none →
        gives (.writeForward src tag resent b) s fun e => Emit.shoal src 0x09 tag false (words [0, 0]) ∈ e.out ∧ g e ∧ e.cmds = d.cmds)) ∧
    (d.hears 0x09 src tag resent b →
      ((∀ f ∈ d.shoal.forwarded, ¬ (f.tag = tag ∧ f.home = src)) → gives (.writeReply src tag resent b) s (late 0x09)) ∧
      (∀ f c, d.shoal.forwarded.find? (fun f => f.tag == tag && f.home == src) = some f → d.cmd? f.stamp = some c →
        gives (.writeReply src tag resent b) s fun e => f ∉ e.shoal.forwarded ∧ e = { heard 0x09 with cmds := e.cmds, shoal := e.shoal } ∧
          e.cmd? f.stamp = some (let c1 := { c with forwarded := c.forwarded.filter (· != tag) }
            if c.applied = true then c1 else { c1 with applied := true, writeSeq := w 1, status := if w 0 = 0 then none else some (w 0) }))) ∧
    (∀ t, (∀ f, d.shoal.forwarded.find? (fun f => f.tag == t) = some f → gives (.writeForwardResend t) s fun e => e.now = max d.now (f.at_ + 1000000) ∧
        Emit.shoal f.home 0x08 t true f.bytes ∈ e.out ∧ { f with at_ := e.now, resent := true } ∈ e.shoal.forwarded ∧ e.cmds = d.cmds ∧ e.indexes = d.indexes) ∧
      ((∀ f ∈ d.shoal.forwarded, f.tag ≠ t) → gives (.writeForwardResend t) s fun e => e = d)) ∧
    (∀ seq i q x, d.hears 0x10 src tag resent b → readWrite b = some (seq, i, q) → d.index? i = some x → (∀ m ∈ d.shoal.inbox, ¬ (m.kind = 0x10 ∧ m.src = src)) →
      (seq = x.writeSeq + 1 → gives (.mirror src tag resent b) s fun e => e.indexes = ((heard 0x10).applyWrite i q).2.2.indexes ∧
        Emit.shoal src 0x11 tag false (words [0]) ∈ e.out) ∧
      (seq ≤ x.writeSeq → gives (.mirror src tag resent b) s fun e => (heard 0x10).replied e src 0x11 tag false (words [0])) ∧
      (x.writeSeq + 1 < seq → gives (.mirror src tag resent b) s fun e => e.out = d.out ∧ e.indexes = d.indexes ∧ e.mem = d.mem ∧
        ∃ m, e.shoal.inbox = d.shoal.inbox ++ [m] ∧ m.kind = 0x10 ∧ m.src = src ∧ m.tag = tag ∧ m.bytes = b)) ∧
    (d.hears 0x11 src tag resent b →
      ((∀ o ∈ d.shoal.pending, ¬ (o.kind = 0x10 ∧ o.tag = tag ∧ o.dst = src)) → gives (.mirrorReply src tag resent b) s (late 0x11)) ∧
      (∀ o c, d.shoal.pending.find? (fun o => o.kind == 0x10 && o.tag == tag && o.dst == src) = some o → d.cmd? o.stamp = some c →
        gives (.mirrorReply src tag resent b) s fun e => o ∉ e.shoal.pending ∧ e.cmd? o.stamp = some { c with forwarded := c.forwarded.filter (· != tag) } ∧
          e = { heard 0x11 with cmds := e.cmds, shoal := e.shoal })) ∧
    (d.hears 0x0A src tag resent b → let id := BitVec.ofNat 64 (w 1)
      let answers := fun (st kind : Nat) (out : List Byte) => gives (.getForward src tag resent b) s fun e =>
        (heard 0x0A).replied e (w 3) 0x0B (w 4) false (words [st, kind] ++ out)
      (d.index? (w 0) = none → answers stIndexDeleted 0 []) ∧
      (∀ x si, d.index? (w 0) = some x → d.shoalIndex? (w 0) = some si → let loc := ((x.lookup id).map fun p => p.2.2).or (x.findSlot id)
        (d.quiesced = true → answers stQuiesced 0 []) ∧ (d.quiesced = false → loc = none → answers stIdNotFound 0 []) ∧
        (∀ l kind out, d.quiesced = false → loc = some l → (∀ q ∈ x.away, q.1 ≠ l) → x.getBytes id (w 2) l = some (kind, out) →
          gives (.getForward src tag resent b) s fun e => ∃ f, (heard 0x0A).readsCharged f ∧ f.replied e (w 3) 0x0B (w 4) false (words [0, kind] ++ out)) ∧
        (∀ l h, d.quiesced = false → loc = some l → (d.homeOf si id).any (fun h => posOf h == posOf d.shoal.device) = true → (∃ q ∈ x.away, q.1 = l) →
          d.holderOf si l = some h → d.serves h = true → gives (.getForward src tag resent b) s fun e => (heard 0x0A).replied e h 0x0A tag false b))) ∧
    (d.hears 0x0B src tag resent b →
      ((∀ o ∈ d.shoal.pending, ¬ (o.kind = 0x0A ∧ o.tag = tag)) → gives (.getReply src tag resent b) s (late 0x0B)) ∧
      (∀ o c, d.shoal.pending.find? (fun o => o.kind == 0x0A && o.tag == tag) = some o → d.cmd? o.stamp = some c → c.remote = none →
        d.hostThere c.fn → (d.qp c.fn c.qid).isSome = true → gives (.getReply src tag resent b) s fun e => e.cmd? c.stamp = none ∧ o ∉ e.shoal.pending ∧
          (w 0 ≠ 0 → d.posted e c.fn c.qid c.cid (w 0) 0) ∧ (w 0 = 0 → d.posted e c.fn c.qid c.cid 0 (w 1 + at_ 32 (b.length - 16))))) ∧
    (d.hears 0x0C src tag resent b →
      (∀ x, d.index? (w 0) = some x → gives (.assign src tag resent b) s fun e => ∃ out, out.length = 2 * w 1 ∧
        (heard 0x0C).replied e src 0x0D tag false (words (w 0 :: w 1 :: out)) ∧ ∀ k, k < w 1 → let o := 16 + (8 + 4 * x.dim) * k
          out.getD (2 * k) 0 = fieldAt b o 8 ∧ out.getD (2 * k + 1) 0 = x.assignCell ((List.range x.dim).map fun j => BitVec.ofNat 32 (fieldAt b (o + 8 + 4 * j) 4))) ∧
      (d.index? (w 0) = none → gives (.assign src tag resent b) s fun e => (heard 0x0C).replied e src 0x0D tag false (words [w 0, 0]))) ∧
    (d.hears 0x0D src tag resent b →
      ((∀ o ∈ d.shoal.pending, ¬ (o.kind = 0x0C ∧ o.tag = tag ∧ o.dst = src)) → gives (.assignReply src tag resent b) s (late 0x0D)) ∧
      (∀ o, d.shoal.pending.find? (fun o => o.kind == 0x0C && o.tag == tag && o.dst == src) = some o → (∀ k ∈ d.shoal.ships, k.tag ≠ tag) →
        gives (.assignReply src tag resent b) s fun e =>
          e = { heard 0x0D with shoal := { (heard 0x0D).shoal with pending := d.shoal.pending.filter (· != o) } })) ∧
    (d.hears 0x0E src tag resent b → let i := w 1
      let answers := fun (d1 : Device) (a : List Nat) => gives (.ship src tag resent b) s fun e => d1.replied e src 0x0F tag false (words a)
      let holding := fun (ss : List ShipSlot) => { heard 0x0E with shoal :=
        { (heard 0x0E).shoal with received := d.shoal.received ++ [({ src := src, tag := w 2, index := i, slots := ss } : Received)] } }
      (d.index? i = none → answers (heard 0x0E) [0]) ∧
      (∀ x, d.index? i = some x →
        (∀ ss, w 0 = 0 → (heard 0x0E).placesFor i x ((recordsOf x.itemLen (w 4) (b.drop 40)).map x.readItem) [] = some ss →
          ∃ a, a.length = 2 * w 4 ∧ (∀ k, k < w 4 → ss.length = w 4 → a.getD (2 * k + 1) 0 = (ss.map (·.slot)).getD k 0) ∧ answers (holding ss) (1 :: a)) ∧
        (w 0 = 0 → (heard 0x0E).placesFor i x ((recordsOf x.itemLen (w 4) (b.drop 40)).map x.readItem) [] = none →
          gives (.ship src tag resent b) s fun e => e.shoal.received = d.shoal.received ∧
            ∃ a, (a = 0 ∨ a = 2) ∧ Emit.shoal src 0x0F tag false (words [a]) ∈ e.out) ∧
        (w 0 = 2 → w 2 ≠ atOnce → ∃ ss : List ShipSlot, ss.length = w 4 ∧ answers (holding ss) [1]) ∧
        (6 ≤ w 0 → answers (heard 0x0E) [0]))) ∧
    (d.hears 0x0F src tag resent b →
      (d.shoal.pending.find? (fun o => o.kind == 0x0E && o.tag == tag && o.dst == src) = none → gives (.shipReply src tag resent b) s fun e => e = heard 0x0F) ∧
      (∀ o k es, d.shoal.pending.find? (fun o => o.kind == 0x0E && o.tag == tag && o.dst == src) = some o →
        d.shoal.ships.find? (fun k => k.waiting.any fun p => p.1 == tag) = some k → (∀ q ∈ d.shoal.ships, q.tag = k.tag → q = k) →
        k.waiting.find? (fun p => p.1 == tag) = some (tag, es) → (∃ p ∈ k.waiting, p.1 ≠ tag) →
        gives (.shipReply src tag resent b) s fun e => o ∉ e.shoal.pending ∧ ∃ q ∈ e.shoal.ships, q.tag = k.tag ∧ q.waiting = k.waiting.filter (fun p => p.1 != tag) ∧
          (w 0 = 1 → q.places = k.places ++ (es.zipIdx).map (fun p => (p.1, fieldAt b (8 + 16 * p.2) 8, fieldAt b (16 + 16 * p.2) 8, src)) ∧
            q.entries = k.entries) ∧ (w 0 ≠ 1 → q.places = k.places ∧ q.failed = true ∧ ∀ p ∈ q.entries, p.1 ∉ es))) ∧
    (d.hears 0x12 src tag resent b → gives (.train src tag resent b) s fun e => e = heard 0x12)

/-- The directory, liveness and the shoal commands (R411, R451, R464, R475, R476, R478): a directory message is answered, accepted or taken over; an
epoch is applied in order and told; a probe is answered; a LOST or restored device is published by the lead; isolation counts the others missing;
SHOAL_FORM sets this device's shoal, and an empty role set is an invalid field; the other commands go to the lead; LINK_CONTROL acts on its link.
Layouts are the model's (log 30). -/
def Obligations.ShoalDirectoryAndCommands : Prop :=
  ∀ (s : State) (src tag : Nat) (resent : Bool) (b : List Byte), let d := s.dev; let h := d.shoal; let self := h.device
    let ev := fun (cause dev : Nat) => devEvent 0x12 (cause + at_ 8 0xFF + at_ 16 dev)
    let part := fun (what total off : Nat) (body : List Byte) => words [what, total, off] ++ body
    let whole := fun (what : Nat) (body : List Byte) => part what body.length 0 body
    let sentDir := fun (e : Device) (dst kind what : Nat) (body : List Byte) => ∃ t, Emit.shoal dst kind t false (whole what body) ∈ e.out
    let m := fun (dev : Nat) => tget ({ state := 4 } : Member) dev h.dir
    let others := fun (dev : Nat) => d.holders.filter fun k => k != self && dev != k && d.serves k
    let sets := fun (dev st roles : Nat) (e : Device) => tget ({ state := 4 } : Member) dev e.shoal.dir = { state := st, roles := roles } ∧
      e.shoal.epoch = h.epoch + 1 ∧ e.raised (ev 0xE self)
    let asks := fun (dev st roles : Nat) (e : Device) => (∀ k ∈ others dev, sentDir e k 0x14 3 (words [0, dev, st, roles])) ∧ e.shoal.dir = h.dir ∧ e.shoal.epoch = h.epoch ∧
      ∃ c, e.shoal.changes = [c] ∧ c.what = 0 ∧ c.bytes = words [dev, st, roles] ∧ c.waiting = others dev ∧ c.sent = true
    let small := h.split = false ∧ self < 512 ∧ h.epoch + 1 < 2 ^ 32 ∧ h.changes = []
    (∀ what body, d.hears 0x14 src tag resent b → b = whole what body → what < 8 → body.length < 2 ^ 32 →
      (what = 0 → h.bytes.length ≤ 61440 → gives (.directory src tag resent b) s fun e => sentDir e src 0x14 5 h.bytes ∧ e.shoal.dir = h.dir ∧ e.shoal.epoch = h.epoch) ∧
      (what = 3 → gives (.directory src tag resent b) s fun e => sentDir e src 0x14 4 [] ∧ e.shoal.dir = h.dir ∧ e.shoal.epoch = h.epoch) ∧
      (what = 5 → h.epoch ≤ fieldAt body 0 8 → gives (.directory src tag resent b) s fun e => e.shoal.epoch = fieldAt body 0 8 ∧ e.shoal.split = false ∧ e.shoal.complete = true) ∧
      (what = 5 → fieldAt body 0 8 < h.epoch → gives (.directory src tag resent b) s fun e => e = d.heard 0x14 src tag)) ∧
    (∀ what total off body, d.hears 0x14 src tag resent b → b = part what total off body → what < 8 → total < 2 ^ 32 → off < 2 ^ 32 → body.length < total →
      (∀ a ∈ h.assembly, ¬ (a.src = src ∧ a.kind = 0x14 ∧ a.what = what ∧ a.total = total)) → gives (.directory src tag resent b) s fun e =>
        e = { (d.heard 0x14 src tag) with shoal := { (d.heard 0x14 src tag).shoal with assembly := h.assembly ++ [⟨src, 0x14, what, total, [(off, body)]⟩] } }) ∧
    (∀ what body, d.hears 0x15 src tag resent b → b = whole what body → what < 8 → body.length < 2 ^ 32 →
      (what = 3 → fieldAt body 0 8 = h.epoch + 1 → gives (.notice src tag resent b) s fun e => e.shoal.epoch = h.epoch + 1 ∧ e.shoal.split = false ∧ e.raised (ev 0xE self)) ∧
      (what = 3 → fieldAt body 0 8 ≤ h.epoch → gives (.notice src tag resent b) s fun e => e = d.heard 0x15 src tag) ∧
      (what = 3 → h.epoch + 1 < fieldAt body 0 8 → gives (.notice src tag resent b) s fun e => sentDir e src 0x14 0 (words [h.epoch]) ∧ e.shoal.epoch = h.epoch) ∧
      (what = 6 → gives (.notice src tag resent b) s fun e => e = { (d.heard 0x15 src tag) with shoal := { (d.heard 0x15 src tag).shoal with
        received := h.received.filter fun r => !(r.src == src && r.index == fieldAt body 0 8 && r.tag == fieldAt body 8 8) } })) ∧
    (d.hears 0x16 src tag resent b →
      (fieldAt b 0 8 = 0 → gives (.probe src tag resent b) s fun e => (d.heard 0x16 src tag).replied e src 0x16 tag false (words [1])) ∧
      (fieldAt b 0 8 ≠ 0 → gives (.probe src tag resent b) s fun e => e = { (d.heard 0x16 src tag) with shoal := { (d.heard 0x16 src tag).shoal with
        probes := h.probes.filter fun p => p.1 != src, reported := h.reported.filter fun p => p.2 != src } })) ∧
    (∀ dev, let next := ((d.holdersOf 0 ++ d.holdersOf 1).filter (· != dev)).head?
      (d.inShoal = true → d.ready = true → h.split = false → dev ≠ self → dev < 512 → (m dev).roles < 8 → next = some self → (m dev).state ≠ 4 → small →
        (others dev = [] → gives (.deviceLost dev) s fun e => sets dev 4 (m dev).roles e ∧ (h.pending = [] → h.forwarded = [] → e.raised (ev 0xC dev))) ∧
        (others dev ≠ [] → gives (.deviceLost dev) s (asks dev 4 (m dev).roles))) ∧
      ((d.inShoal = false ∨ d.ready = false ∨ h.split = true ∨ dev = self ∨ next ≠ some self) → gives (.deviceLost dev) s fun e => e = d) ∧
      (d.inShoal = true → d.ready = true → d.pairLead = some self → (m dev).state = 2 → dev < 512 → (m dev).roles < 8 → dev ≠ self → small →
        (others dev = [] → gives (.restoreComplete dev) s fun e => sets dev 0 (m dev).roles e ∧ e.raised (ev 0xD dev)) ∧
        (others dev ≠ [] → gives (.restoreComplete dev) s (asks dev 0 (m dev).roles))) ∧
      (∀ k, d.inShoal = true → d.ready = true → d.pairLead = some k → k ≠ self → (m self).state = 2 → dev = self →
        gives (.restoreComplete dev) s fun e => sentDir e k 0x14 7 (words [self]) ∧ e.shoal.dir = h.dir ∧ e.shoal.epoch = h.epoch)) ∧
    (∀ t, h.isolated = some t → d.inShoal = true → d.ready = true → h.split = false → gives .holderIsolation s fun e => e.now = max d.now (t + 1000000) ∧
      e.shoal.split = true ∧ (h.pending = [] → h.forwarded = [] → e.raised (ev 0x11 self)) ∧ e.shoal.epoch = h.epoch ∧ e.shoal.dir = h.dir) ∧
    (h.isolated = none → gives .holderIsolation s fun e => e = d) ∧
    (∀ mb slot, let r := d.adminAt mb slot
      let bad := fun (e : Device) => e.answered mb slot stInvalidField 0 0 ∧ e = d.told e ∧ d.fnsTold e
      (∀ io key, d.servesNow 0x00B0 mb slot io → d.adminIn r mb slot none io = .ok key →
        let id := r.param 0 8; let g := r.param 8 1; let n := r.param 9 1; let fl := r.param 10 1; let dev := r.param 12 2
        let good := id ≠ 0 ∧ 1 ≤ g ∧ g ≤ 16 ∧ 1 ≤ n ∧ n ≤ 16 ∧ 2 ≤ g * n ∧ posOf dev < g * n ∧ sideOf dev ≤ fl % 2 ∧ key ≠ [] ∧ fl < 4 ∧ 1 ≤ r.param 14 1 ∧ r.param 14 1 < 8
        (good → gives (.shoalForm mb slot io) s fun e => e.answered mb slot 0 0 0 ∧ e.shoal.id = BitVec.ofNat 64 id ∧ e.shoal.groups = g ∧ e.shoal.members = n ∧
          e.shoal.mirrored = fl.testBit 0 ∧ e.shoal.device = dev ∧ e.shoal.key = key ∧ e.shoal.epoch = (if fl.testBit 1 = true then 0 else 1) ∧
          e.shoal.dir = [(dev, { state := if fl.testBit 1 = true then 1 else 0, roles := r.param 14 1 })] ∧ e.raised (ev 0xE dev) ∧
          e.indexes = d.indexes ∧ e.mem = d.mem) ∧
        (¬ good → gives (.shoalForm mb slot io) s bad)) ∧
      (∀ io, ∀ p ∈ [(Instr.shoalJoin mb slot io, 0x00B1), (.shoalLeave mb slot io, 0x00B2), (.shoalSetRoles mb slot io, 0x00B3),
          (.shoalCreateIndex mb slot io, 0x00B4), (.shoalMoveCells mb slot io, 0x00B5)], d.servesNow p.2 mb slot io →
        (d.inShoal = false → gives p.1 s bad) ∧
        (∀ bs, d.inShoal = true → d.adminIn r mb slot none io = .ok bs →
          (d.pairLead = none → gives p.1 s fun e => e.answered mb slot stBusy 0 0 ∧ fieldAt (tget [] slot (e.mbox mb).rsp) 8 4 = 10 ∧ e = d.told e ∧ d.fnsTold e) ∧
          (∀ k, d.pairLead = some k → k ≠ self → (tget [] slot (d.mbox mb).req ++ bs).length ≤ 61440 → gives p.1 s fun e =>
            sentDir e k 0x14 1 (tget [] slot (d.mbox mb).req ++ bs) ∧ e.shoal.waitAdmin = some (mb, slot) ∧ e.startedAt mb slot = true ∧ e.shoal.dir = h.dir ∧ e.shoal.epoch = h.epoch))) ∧
      (∀ io bs, d.inShoal = true → d.pairLead = some self → d.adminIn r mb slot none io = .ok bs → small → let dev := r.target
        let known := posOf dev < h.size ∧ sideOf dev ≤ (if h.mirrored = true then 1 else 0) ∧ dev < 512
        let roles := r.param 0 1 % 8
        let ok := fun (e : Device) => e.answered mb slot 0 0 0
        (d.servesNow 0x00B1 mb slot io → known → ((m dev).state = 1 ∨ (m dev).state = 4) → roles ≠ 0 → others dev = [] → dev ≠ self →
          gives (.shoalJoin mb slot io) s fun e => ok e ∧ sets dev (if h.mirrored = true ∧ (m (twinOf dev)).state = 0 then 2 else 0) roles e) ∧
        (d.servesNow 0x00B3 mb slot io → known → (m dev).state < 4 → (m dev).state ≠ 1 → roles ≠ 0 → others dev = [] →
          gives (.shoalSetRoles mb slot io) s fun e => ok e ∧ sets dev (m dev).state roles e) ∧
        (d.servesNow 0x00B2 mb slot io → known → (m dev).state = 0 → (m dev).roles < 8 → others dev = [] → dev ≠ self → (∀ si ∈ h.indexes, si.routed = false) → h.epoch + 2 < 2 ^ 32 →
          gives (.shoalLeave mb slot io) s fun e => ok e ∧ tget ({ state := 4 } : Member) dev e.shoal.dir = { state := 4, roles := 0 } ∧ e.shoal.epoch = h.epoch + 2 ∧
            (h.pending = [] → h.forwarded = [] → e.raised (ev 0xC dev))) ∧
        (∀ x i si d1, d.servesNow 0x00B4 mb slot io → r.param 0 1 < 16 → (d.burgee (r.param 0 1)).enabled = true → r.param 8 8 ≤ bs.length →
          parseSpec (bs.take (r.param 8 8)) (r.param 0 1) = some x → (if x.indexNo = 0xFFFF then d.freeIndexNo = some i else i = x.indexNo) → i < 1024 →
          tfind i d.indexes = none → d.holders = [self] →
          d.readMaps { x with indexNo := i } (r.param 1 1 == 1) (bs.take (r.param 8 8)) (bs.drop (r.param 8 8)) = some si → d.createIndex { x with indexNo := i } = some d1 →
          gives (.shoalCreateIndex mb slot io) s fun e => e.answered mb slot 0 0 i ∧ (∃ k ∈ e.shoal.indexes, k.no = i ∧ k.routed = si.routed ∧ k.burgee = r.param 0 1 ∧ k.view = 1) ∧
            e.shoal.epoch = h.epoch + 1) ∧
        (d.servesNow 0x00B5 mb slot io → (d.shoalIndex? dev = none ∨ d.index? dev = none) →
          gives (.shoalMoveCells mb slot io) s fun e => e.answered mb slot stIndexAbsent 0 0 ∧ e.shoal.moves = h.moves) ∧
        (∀ si x, d.servesNow 0x00B5 mb slot io → d.shoalIndex? dev = some si → d.index? dev = some x → si.routed = true → let c := r.param 0 4; let n := r.param 4 4; let dst := r.param 8 2
          n ≠ 0 → c + n ≤ x.nCells → (m dst).state = 0 → (m dst).roles.testBit 0 = true → sideOf dst = sideOf self →
          ((∀ k, k < n → si.cellPos (c + k) = some (posOf dst)) → gives (.shoalMoveCells mb slot io) s fun e => ok e ∧ e.shoal.moves = h.moves) ∧
          (∀ p, p ≠ posOf dst → d.posDev p ≠ self → (∀ k, k < n → si.cellPos (c + k) = some p) → gives (.shoalMoveCells mb slot io) s fun e =>
            (∃ v, e.shoal.moves = h.moves ++ [v] ∧ v.index = dev ∧ v.left = 1 ∧ v.cells = (List.range n).map fun k => (c + k, posOf dst)) ∧
              e.startedAt mb slot = true ∧ (16 * n + 24 ≤ 61440 → sentDir e (d.posDev p) 0x15 7
                (words ([dev, h.nextMove, n] ++ (List.range n).flatMap fun k => [c + k, posOf dst]))))) ∧
        (known → roles = 0 → ∀ q ∈ [(Instr.shoalJoin mb slot io, 0x00B1), (.shoalSetRoles mb slot io, 0x00B3)], d.servesNow q.2 mb slot io →
          gives q.1 s fun e => e.answered mb slot stInvalidField 0 0 ∧ e.shoal.dir = h.dir ∧ e.shoal.epoch = h.epoch) ∧
        (¬ known → ∀ q ∈ [(Instr.shoalJoin mb slot io, 0x00B1), (.shoalLeave mb slot io, 0x00B2), (.shoalSetRoles mb slot io, 0x00B3)], d.servesNow q.2 mb slot io →
          dev < 512 → gives q.1 s fun e => e.answered mb slot stInvalidField 0 0 ∧ e.shoal.dir = h.dir ∧ e.shoal.epoch = h.epoch)) ∧
      (d.servesNow 0x00B6 mb slot noIo → let l := r.target; let k := d.link l; let a := r.param 0 1
        (l < 32 → (a = 0 ∨ a = 1 ∨ a = 3) → gives (.linkControl mb slot) s fun e => e.answered mb slot 0 0 0 ∧ (e.link l).startAt = d.now ∧
          (e.link l).state = (if k.state = .off then .off else .training) ∧ (e.link l).lane0.up = false ∧ (e.link l).lane1.up = false ∧
          (e.link l).ctlHold = (a == 1 || k.ctlHold) ∧ (e.link l).capHalf = (a == 3 || k.capHalf) ∧ e.indexes = d.indexes) ∧
        (l < 32 → a = 2 → gives (.linkControl mb slot) s fun e => e.answered mb slot 0 0 0 ∧ e.link l = { k with ctlHold := false, capHalf := false, startAt := d.now } ∧
          (∀ j, j ≠ l → e.link j = d.link j) ∧ e = { d.told e with links := e.links } ∧ d.fnsTold e) ∧
        ((32 ≤ l ∨ 4 ≤ a) → gives (.linkControl mb slot) s bad)))

/-! ### Boundary scan, debug and telemetry (chapter 17) -/

/-- The test access port (R561 to R568): with BSCAN_OK a boundary instruction captures, updates and drives as it says, else bypass is selected and
the pins stay functional; reset, IDCODE and BYPASS release every pin; IDCODE shifts the identification out. A debug operation outside its scope, while
one runs, or at an address that is not there ends with its STATUS; any other reads or writes, or acts on the shadow MP. Counters are snapshot. -/
def Obligations.TestAccessAndDebug : Prop :=
  ∀ s : State, let d := s.dev
    (∀ b : BScan, d.aon.vaux = true → d.tap.heldRise = false →
      let only := fun (e : Device) => e = { d with tap := e.tap } ∧ e.tap.heldRise = false ∧ e.tap.status = d.tap.status ∧ e.tap.data = d.tap.data
      let free := fun (e : Device) => only e ∧ e.tap.driven = [] ∧ e.tap.highz = false ∧ e.tap.pulsing = []
      let takes := fun (e : Device) => ((b.load.map (·.1)).Nodup → ∀ p ∈ b.load, isLatchCell p.1 = true → tget false p.1 e.tap.latches = p.2) ∧
        (∀ n, n ∉ b.load.map (·.1) → tget false n e.tap.latches = tget false n d.tap.latches) ∧
        ((b.pins.map (·.1)).Nodup → ∀ p ∈ b.pins, isInputCell p.1 = true → tget false p.1 e.tap.captured = p.2)
      let drives := fun (e : Device) (ok : Nat → Bool) => ∀ n, tget false (n + 1) e.tap.latches = true → cellKind (n + 1) = some .enable → ok n = true →
        tfind n e.tap.driven = some (tget false n e.tap.latches)
      (d.bscanOk b = true →
        gives (.extest b) s (fun e => only e ∧ e.tap.instr = .extest ∧ takes e ∧ drives e (fun _ => true) ∧ e.tap.highz = false) ∧
        gives (.clamp b) s (fun e => only e ∧ e.tap.instr = .clamp ∧ e.tap.latches = d.tap.latches ∧ drives e (fun _ => true) ∧ e.tap.highz = false) ∧
        gives (.highz b) s (fun e => only e ∧ e.tap.instr = .highz ∧ e.tap.latches = d.tap.latches ∧ e.tap.driven = [] ∧ e.tap.highz = true) ∧
        gives (.extestPulse b) s (fun e => only e ∧ e.tap.instr = .extestPulse ∧ takes e ∧ drives e (fun n => !acCell n) ∧
          ∀ n, tget false (n + 1) e.tap.latches = true → cellKind (n + 1) = some .enable → acCell n = true → n ∈ e.tap.pulsing) ∧
        gives (.extestTrain b) s (fun e => only e ∧ e.tap.instr = .extestTrain ∧ takes e ∧ drives e (fun n => !acCell n) ∧
          ∀ n, tget false (n + 1) e.tap.latches = true → cellKind (n + 1) = some .enable → acCell n = true → n ∈ e.tap.pulsing)) ∧
      (d.bscanOk b = false → let passes := fun (e : Device) => free e ∧ e.tap.instr = .bypass ∧ e.tap.latches = d.tap.latches ∧ e.tap.captured = d.tap.captured
        gives (.extest b) s passes ∧ gives (.clamp b) s passes ∧ gives (.highz b) s passes ∧ gives (.extestPulse b) s passes ∧
        gives (.extestTrain b) s passes) ∧
      (b.railsC = true → b.railsP = true → gives (.samplePreload b) s fun e => free e ∧ e.tap.instr = .samplePreload ∧
        ((b.load.map (·.1)).Nodup → ∀ p ∈ b.load, isLatchCell p.1 = true → tget false p.1 e.tap.latches = p.2) ∧
        ((b.pins.map (·.1)).Nodup → ∀ p ∈ b.pins, p.1 < boundaryCells → tget false p.1 e.tap.captured = p.2)) ∧
      (b.railsC = false ∨ b.railsP = false → gives (.samplePreload b) s fun e => free e ∧ e.tap.instr = .bypass ∧ e.tap.latches = d.tap.latches) ∧
      gives .tapReset s (fun e => free e ∧ e.tap.instr = .idcode ∧ e.tap.latches = []) ∧
      gives .bypass s (fun e => free e ∧ e.tap.instr = .bypass ∧ e.tap.latches = d.tap.latches) ∧
      gives .idcode s (fun e => e.tap.instr = .idcode ∧ e.tap.driven = [] ∧ e.tap.highz = false ∧ e.tap.latches = d.tap.latches ∧
        (∃ n, e.out = .tdo n :: d.out ∧ n % 2 = 1 ∧ n / 2 ^ 12 % 2 ^ 16 = 0x0E1A ∧ n / 2 ^ 29 = 0) ∧ e = { d with tap := e.tap, out := e.out }) ∧
      (d.mgmt.sec.unlocked.isSome = true → gives .debugAccess s fun e => e.tap.instr = .debugAccess ∧
        e.out = .tdo (at_ 64 d.tap.status + d.tap.data.toNat) :: d.out ∧ e = { d with tap := e.tap, out := e.out }) ∧
      (d.mgmt.sec.unlocked = none → gives .debugAccess s fun e => free e ∧ e.tap.instr = .bypass)) ∧
    (d.aon.vaux = true → d.tap.heldRise = true → d.aon.memrefOk = true →
      gives .bypass s fun e => d.coldFrom e ∧ d.coldCounted e 1 0 ∧ e.tap.instr = .bypass ∧ e.tap.heldRise = false ∧
        e.phase = (if d.aon.trip then .held else .coldDone)) ∧
    (∀ a v seen cmd path, d.atDebug = true →
      let ends := fun (st : Nat) (e : Device) => e = { d with tap := { d.tap with status := st } }
      gives (.debugRead true path a) s (ends 2) ∧ gives (.debugWrite true path a v seen) s (ends 2) ∧ gives (.debugMpCommand true cmd a) s (ends 2) ∧
      (d.scopeBit 0 = false → gives (.debugRead false .window a) s (ends 1)) ∧ (d.scopeBit 1 = false → gives (.debugRead false .memory a) s (ends 1)) ∧
      (d.scopeBit 2 = false → gives (.debugWrite false path a v seen) s (ends 1)) ∧
      (d.scopeBit 3 = false → gives (.debugMpCommand false cmd a) s (ends 1)) ∧
      (d.scopeBit 0 = true → 0x20000 ≤ a → a < 0x100000 → gives (.debugRead false .window a) s fun e =>
        e = { d with tap := { d.tap with status := 0, data := BitVec.ofNat 64 (((d.dbgReg a).map (·.2)).getD 0) } }) ∧
      (d.scopeBit 0 = true → (a < 0x20000 ∨ 0x100000 ≤ a) → gives (.debugRead false .window a) s (ends 3)) ∧
      (d.scopeBit 1 = true → d.debugReach a = true → gives (.debugRead false .memory a) s fun e => (e.tap = { d.tap with status := 0, data := e.tap.data } ∧ e.tap.data =
        BitVec.ofNat 64 (leNat (d.read a 8))) ∧ d.sameMem e ∧ e = { d with tap := e.tap, tiers := e.tiers }) ∧
      (d.scopeBit 1 = true → d.debugReach a = false → gives (.debugRead false .memory a) s (ends 3)) ∧
      (d.scopeBit 2 = true → 0x74000 ≤ a → a < 0x74800 → a % 0x40 = 0 → bits 15 12 v.toNat = 0 → gives (.debugWrite false .window a v seen) s fun e =>
        (e.link ((a - 0x74000) / 0x40)).test.mode = 0 ∧ (∀ k, k ≠ (a - 0x74000) / 0x40 → e.link k = d.link k) ∧
          e = { d with tap := { d.tap with status := 0 }, links := e.links }) ∧
      (d.scopeBit 2 = true → 0x20000 ≤ a → a < 0x100000 → (a < 0x74000 ∨ 0x74800 ≤ a ∨ a % 0x40 ≠ 0) →
        gives (.debugWrite false .window a v seen) s (ends 0)) ∧
      (d.scopeBit 2 = true → d.debugReach a = true → d.tiers.erased = [] → d.noCopyAt a 8 →
        gives (.debugWrite false .memory a v seen) s fun e => (∀ i, i < 8 → e.byteAt (a + i) = (leBytes 8 v.toNat).getD i 0) ∧ d.sameMemOutside e a 8 ∧
          e.tap = { d.tap with status := 0 } ∧ e.indexes = d.indexes) ∧
      (d.scopeBit 2 = true → d.debugReach a = false → gives (.debugWrite false .memory a v seen) s (ends 3)) ∧
      (d.scopeBit 3 = true → d.ens.holder.isSome = true → d.phase = .ready →
        gives (.debugMpCommand false .halt a) s (fun e => e = { d with tap := { d.tap with status := 0 }, ens := { d.ens with shadowHalted := true } }) ∧
        gives (.debugMpCommand false .read a) s (fun e => e.tap.status = 0 ∧ e = { d with tap := e.tap, fresh := e.fresh }) ∧
        (d.ens.shadowHalted = true → gives (.debugMpCommand false .step a) s fun e =>
          e = { d with tap := { d.tap with status := 0 }, fresh := e.fresh, ens := { d.ens with shadowPc := e.ens.shadowPc } }) ∧
        (d.ens.shadowHalted = false → gives (.debugMpCommand false .step a) s (ends 0))) ∧
      (d.scopeBit 3 = true → d.ens.holder = none → gives (.debugMpCommand false cmd a) s (ends 3))) ∧
    (∀ g, 1 ≤ g → g ≤ 4 → g ≤ d.telem.snaps.length → d.phase = .ready → d.ens.holder.isSome = true →
      let every := if 1 ≤ d.mgmt.shed.steps then 800 else 100
      gives (.telemetrySnapshot g) s fun e => e.now = max d.now ((d.telem.snaps.getD (g - 1) {}).at_ + 1000000 * every) ∧
        (e.telem.snaps.getD (g - 1) {}).at_ = e.now ∧ (e.telem.snaps.getD (g - 1) {}).every = every ∧
        (e.telem.snaps.getD (g - 1) {}).values = e.groupNow g ∧ (∀ k, k ≠ g - 1 → e.telem.snaps.getD k {} = d.telem.snaps.getD k {}) ∧
        e = { d with now := e.now, telem := e.telem })
end

