-- ==== Sys2Proof/Laws/State.lean ====
section
/-! SUPPORT. Each named update of the device leaves every other field as it was: one lemma per update, true by rfl, over all the fields it
does not write. -/

namespace Sys2Proof.Machine

/-- What modBurgee leaves unchanged. -/
@[simp] theorem Device.modBurgee_keeps (d : Device) (b : Nat) (g : Burgee → Burgee) :
    (d.modBurgee b g).now = d.now ∧ (d.modBurgee b g).fresh = d.fresh ∧ (d.modBurgee b g).out = d.out ∧ (d.modBurgee b g).mem = d.mem ∧
    (d.modBurgee b g).phase = d.phase ∧ (d.modBurgee b g).aon = d.aon ∧ (d.modBurgee b g).power = d.power ∧
    (d.modBurgee b g).ens = d.ens ∧ (d.modBurgee b g).straps = d.straps ∧ (d.modBurgee b g).resets = d.resets ∧
    (d.modBurgee b g).degraded = d.degraded ∧ (d.modBurgee b g).profMis = d.profMis ∧ (d.modBurgee b g).profUn = d.profUn ∧
    (d.modBurgee b g).popMis = d.popMis ∧ (d.modBurgee b g).popFault = d.popFault ∧ (d.modBurgee b g).strapFault = d.strapFault ∧
    (d.modBurgee b g).quiesced = d.quiesced ∧ (d.modBurgee b g).fuses = d.fuses ∧ (d.modBurgee b g).flash = d.flash ∧
    (d.modBurgee b g).mgmt = d.mgmt ∧ (d.modBurgee b g).fns = d.fns ∧ (d.modBurgee b g).ports = d.ports ∧
    (d.modBurgee b g).sideMb = d.sideMb ∧ (d.modBurgee b g).geo = d.geo ∧ (d.modBurgee b g).indexes = d.indexes ∧
    (d.modBurgee b g).models = d.models ∧ (d.modBurgee b g).model = d.model ∧ (d.modBurgee b g).lastModel = d.lastModel ∧
    (d.modBurgee b g).staged = d.staged ∧ (d.modBurgee b g).cmds = d.cmds ∧ (d.modBurgee b g).stamp = d.stamp ∧
    (d.modBurgee b g).lastQp = d.lastQp ∧ (d.modBurgee b g).ctxs = d.ctxs ∧ (d.modBurgee b g).scs = d.scs ∧
    (d.modBurgee b g).engines = d.engines ∧ (d.modBurgee b g).streams = d.streams ∧ (d.modBurgee b g).scCnt = d.scCnt ∧
    (d.modBurgee b g).mbs = d.mbs ∧ (d.modBurgee b g).devBuckets = d.devBuckets ∧ (d.modBurgee b g).heat = d.heat ∧
    (d.modBurgee b g).tiers = d.tiers ∧ (d.modBurgee b g).jobs = d.jobs ∧ (d.modBurgee b g).lastJob = d.lastJob ∧
    (d.modBurgee b g).endedJobs = d.endedJobs ∧ (d.modBurgee b g).links = d.links ∧ (d.modBurgee b g).shoal = d.shoal ∧
    (d.modBurgee b g).tap = d.tap ∧ (d.modBurgee b g).devCnt = d.devCnt ∧ (d.modBurgee b g).telem = d.telem :=
  ⟨rfl, rfl, rfl, rfl, rfl, rfl, rfl, rfl, rfl, rfl, rfl, rfl, rfl, rfl, rfl, rfl, rfl, rfl, rfl, rfl, rfl, rfl, rfl, rfl, rfl, rfl, rfl, rfl, rfl, rfl, rfl, rfl, rfl, rfl, rfl, rfl, rfl, rfl, rfl, rfl, rfl, rfl, rfl, rfl, rfl, rfl, rfl, rfl, rfl⟩
/-- What modSc leaves unchanged. -/
@[simp] theorem Device.modSc_keeps (d : Device) (n : Nat) (g : ScSched → ScSched) :
    (d.modSc n g).now = d.now ∧ (d.modSc n g).fresh = d.fresh ∧ (d.modSc n g).out = d.out ∧ (d.modSc n g).mem = d.mem ∧
    (d.modSc n g).phase = d.phase ∧ (d.modSc n g).aon = d.aon ∧ (d.modSc n g).power = d.power ∧ (d.modSc n g).ens = d.ens ∧
    (d.modSc n g).straps = d.straps ∧ (d.modSc n g).resets = d.resets ∧ (d.modSc n g).degraded = d.degraded ∧
    (d.modSc n g).profMis = d.profMis ∧ (d.modSc n g).profUn = d.profUn ∧ (d.modSc n g).popMis = d.popMis ∧
    (d.modSc n g).popFault = d.popFault ∧ (d.modSc n g).strapFault = d.strapFault ∧ (d.modSc n g).quiesced = d.quiesced ∧
    (d.modSc n g).fuses = d.fuses ∧ (d.modSc n g).flash = d.flash ∧ (d.modSc n g).mgmt = d.mgmt ∧ (d.modSc n g).fns = d.fns ∧
    (d.modSc n g).ports = d.ports ∧ (d.modSc n g).sideMb = d.sideMb ∧ (d.modSc n g).burgees = d.burgees ∧ (d.modSc n g).geo = d.geo ∧
    (d.modSc n g).indexes = d.indexes ∧ (d.modSc n g).models = d.models ∧ (d.modSc n g).model = d.model ∧
    (d.modSc n g).lastModel = d.lastModel ∧ (d.modSc n g).staged = d.staged ∧ (d.modSc n g).cmds = d.cmds ∧
    (d.modSc n g).stamp = d.stamp ∧ (d.modSc n g).lastQp = d.lastQp ∧ (d.modSc n g).ctxs = d.ctxs ∧ (d.modSc n g).engines = d.engines ∧
    (d.modSc n g).streams = d.streams ∧ (d.modSc n g).scCnt = d.scCnt ∧ (d.modSc n g).mbs = d.mbs ∧
    (d.modSc n g).devBuckets = d.devBuckets ∧ (d.modSc n g).heat = d.heat ∧ (d.modSc n g).tiers = d.tiers ∧
    (d.modSc n g).jobs = d.jobs ∧ (d.modSc n g).lastJob = d.lastJob ∧ (d.modSc n g).endedJobs = d.endedJobs ∧
    (d.modSc n g).links = d.links ∧ (d.modSc n g).shoal = d.shoal ∧ (d.modSc n g).tap = d.tap ∧ (d.modSc n g).devCnt = d.devCnt ∧
    (d.modSc n g).telem = d.telem :=
  ⟨rfl, rfl, rfl, rfl, rfl, rfl, rfl, rfl, rfl, rfl, rfl, rfl, rfl, rfl, rfl, rfl, rfl, rfl, rfl, rfl, rfl, rfl, rfl, rfl, rfl, rfl, rfl, rfl, rfl, rfl, rfl, rfl, rfl, rfl, rfl, rfl, rfl, rfl, rfl, rfl, rfl, rfl, rfl, rfl, rfl, rfl, rfl, rfl, rfl⟩
/-- What modEng leaves unchanged. -/
@[simp] theorem Device.modEng_keeps (d : Device) (n : Nat) (g : Engines → Engines) :
    (d.modEng n g).now = d.now ∧ (d.modEng n g).fresh = d.fresh ∧ (d.modEng n g).out = d.out ∧ (d.modEng n g).mem = d.mem ∧
    (d.modEng n g).phase = d.phase ∧ (d.modEng n g).aon = d.aon ∧ (d.modEng n g).power = d.power ∧ (d.modEng n g).ens = d.ens ∧
    (d.modEng n g).straps = d.straps ∧ (d.modEng n g).resets = d.resets ∧ (d.modEng n g).degraded = d.degraded ∧
    (d.modEng n g).profMis = d.profMis ∧ (d.modEng n g).profUn = d.profUn ∧ (d.modEng n g).popMis = d.popMis ∧
    (d.modEng n g).popFault = d.popFault ∧ (d.modEng n g).strapFault = d.strapFault ∧ (d.modEng n g).quiesced = d.quiesced ∧
    (d.modEng n g).fuses = d.fuses ∧ (d.modEng n g).flash = d.flash ∧ (d.modEng n g).mgmt = d.mgmt ∧ (d.modEng n g).fns = d.fns ∧
    (d.modEng n g).ports = d.ports ∧ (d.modEng n g).sideMb = d.sideMb ∧ (d.modEng n g).burgees = d.burgees ∧
    (d.modEng n g).geo = d.geo ∧ (d.modEng n g).indexes = d.indexes ∧ (d.modEng n g).models = d.models ∧
    (d.modEng n g).model = d.model ∧ (d.modEng n g).lastModel = d.lastModel ∧ (d.modEng n g).staged = d.staged ∧
    (d.modEng n g).cmds = d.cmds ∧ (d.modEng n g).stamp = d.stamp ∧ (d.modEng n g).lastQp = d.lastQp ∧ (d.modEng n g).ctxs = d.ctxs ∧
    (d.modEng n g).scs = d.scs ∧ (d.modEng n g).streams = d.streams ∧ (d.modEng n g).scCnt = d.scCnt ∧ (d.modEng n g).mbs = d.mbs ∧
    (d.modEng n g).devBuckets = d.devBuckets ∧ (d.modEng n g).heat = d.heat ∧ (d.modEng n g).tiers = d.tiers ∧
    (d.modEng n g).jobs = d.jobs ∧ (d.modEng n g).lastJob = d.lastJob ∧ (d.modEng n g).endedJobs = d.endedJobs ∧
    (d.modEng n g).links = d.links ∧ (d.modEng n g).shoal = d.shoal ∧ (d.modEng n g).tap = d.tap ∧ (d.modEng n g).devCnt = d.devCnt ∧
    (d.modEng n g).telem = d.telem :=
  ⟨rfl, rfl, rfl, rfl, rfl, rfl, rfl, rfl, rfl, rfl, rfl, rfl, rfl, rfl, rfl, rfl, rfl, rfl, rfl, rfl, rfl, rfl, rfl, rfl, rfl, rfl, rfl, rfl, rfl, rfl, rfl, rfl, rfl, rfl, rfl, rfl, rfl, rfl, rfl, rfl, rfl, rfl, rfl, rfl, rfl, rfl, rfl, rfl, rfl⟩
/-- What modStr leaves unchanged. -/
@[simp] theorem Device.modStr_keeps (d : Device) (n : Nat) (g : Streams → Streams) :
    (d.modStr n g).now = d.now ∧ (d.modStr n g).fresh = d.fresh ∧ (d.modStr n g).out = d.out ∧ (d.modStr n g).mem = d.mem ∧
    (d.modStr n g).phase = d.phase ∧ (d.modStr n g).aon = d.aon ∧ (d.modStr n g).power = d.power ∧ (d.modStr n g).ens = d.ens ∧
    (d.modStr n g).straps = d.straps ∧ (d.modStr n g).resets = d.resets ∧ (d.modStr n g).degraded = d.degraded ∧
    (d.modStr n g).profMis = d.profMis ∧ (d.modStr n g).profUn = d.profUn ∧ (d.modStr n g).popMis = d.popMis ∧
    (d.modStr n g).popFault = d.popFault ∧ (d.modStr n g).strapFault = d.strapFault ∧ (d.modStr n g).quiesced = d.quiesced ∧
    (d.modStr n g).fuses = d.fuses ∧ (d.modStr n g).flash = d.flash ∧ (d.modStr n g).mgmt = d.mgmt ∧ (d.modStr n g).fns = d.fns ∧
    (d.modStr n g).ports = d.ports ∧ (d.modStr n g).sideMb = d.sideMb ∧ (d.modStr n g).burgees = d.burgees ∧
    (d.modStr n g).geo = d.geo ∧ (d.modStr n g).indexes = d.indexes ∧ (d.modStr n g).models = d.models ∧
    (d.modStr n g).model = d.model ∧ (d.modStr n g).lastModel = d.lastModel ∧ (d.modStr n g).staged = d.staged ∧
    (d.modStr n g).cmds = d.cmds ∧ (d.modStr n g).stamp = d.stamp ∧ (d.modStr n g).lastQp = d.lastQp ∧ (d.modStr n g).ctxs = d.ctxs ∧
    (d.modStr n g).scs = d.scs ∧ (d.modStr n g).engines = d.engines ∧ (d.modStr n g).scCnt = d.scCnt ∧ (d.modStr n g).mbs = d.mbs ∧
    (d.modStr n g).devBuckets = d.devBuckets ∧ (d.modStr n g).heat = d.heat ∧ (d.modStr n g).tiers = d.tiers ∧
    (d.modStr n g).jobs = d.jobs ∧ (d.modStr n g).lastJob = d.lastJob ∧ (d.modStr n g).endedJobs = d.endedJobs ∧
    (d.modStr n g).links = d.links ∧ (d.modStr n g).shoal = d.shoal ∧ (d.modStr n g).tap = d.tap ∧ (d.modStr n g).devCnt = d.devCnt ∧
    (d.modStr n g).telem = d.telem :=
  ⟨rfl, rfl, rfl, rfl, rfl, rfl, rfl, rfl, rfl, rfl, rfl, rfl, rfl, rfl, rfl, rfl, rfl, rfl, rfl, rfl, rfl, rfl, rfl, rfl, rfl, rfl, rfl, rfl, rfl, rfl, rfl, rfl, rfl, rfl, rfl, rfl, rfl, rfl, rfl, rfl, rfl, rfl, rfl, rfl, rfl, rfl, rfl, rfl, rfl⟩
/-- What modSem can do: it changes the pair, and where the ring lies in a tile buffer the holding of that buffer. -/
theorem Device.modSem_cases (d : Device) (n k : Nat) (g : SemPair → SemPair) :
    ∃ e, d.modSem n k g = { d with streams := tmod {} n (fun s => { s with sems := tmod {} k g s.sems }) d.streams, engines := e } := by
  unfold Device.modSem
  dsimp only
  split
  · exact ⟨_, rfl⟩
  · exact ⟨_, rfl⟩
/-- What modSem leaves unchanged: all but the streams and, where the ring lies in a tile buffer, its holding. -/
@[simp] theorem Device.modSem_keeps (d : Device) (n k : Nat) (g : SemPair → SemPair) :
    (d.modSem n k g).now = d.now ∧ (d.modSem n k g).fresh = d.fresh ∧ (d.modSem n k g).out = d.out ∧ (d.modSem n k g).mem = d.mem ∧
    (d.modSem n k g).phase = d.phase ∧ (d.modSem n k g).aon = d.aon ∧ (d.modSem n k g).power = d.power ∧ (d.modSem n k g).ens = d.ens ∧
    (d.modSem n k g).straps = d.straps ∧ (d.modSem n k g).resets = d.resets ∧ (d.modSem n k g).degraded = d.degraded ∧
    (d.modSem n k g).profMis = d.profMis ∧ (d.modSem n k g).profUn = d.profUn ∧ (d.modSem n k g).popMis = d.popMis ∧
    (d.modSem n k g).popFault = d.popFault ∧ (d.modSem n k g).strapFault = d.strapFault ∧ (d.modSem n k g).quiesced = d.quiesced ∧
    (d.modSem n k g).fuses = d.fuses ∧ (d.modSem n k g).flash = d.flash ∧ (d.modSem n k g).mgmt = d.mgmt ∧
    (d.modSem n k g).fns = d.fns ∧ (d.modSem n k g).ports = d.ports ∧ (d.modSem n k g).sideMb = d.sideMb ∧
    (d.modSem n k g).burgees = d.burgees ∧ (d.modSem n k g).geo = d.geo ∧ (d.modSem n k g).indexes = d.indexes ∧
    (d.modSem n k g).models = d.models ∧ (d.modSem n k g).model = d.model ∧ (d.modSem n k g).lastModel = d.lastModel ∧
    (d.modSem n k g).staged = d.staged ∧ (d.modSem n k g).cmds = d.cmds ∧ (d.modSem n k g).stamp = d.stamp ∧
    (d.modSem n k g).lastQp = d.lastQp ∧ (d.modSem n k g).ctxs = d.ctxs ∧ (d.modSem n k g).scs = d.scs ∧
    (d.modSem n k g).scCnt = d.scCnt ∧ (d.modSem n k g).mbs = d.mbs ∧
    (d.modSem n k g).devBuckets = d.devBuckets ∧ (d.modSem n k g).heat = d.heat ∧ (d.modSem n k g).tiers = d.tiers ∧
    (d.modSem n k g).jobs = d.jobs ∧ (d.modSem n k g).lastJob = d.lastJob ∧ (d.modSem n k g).endedJobs = d.endedJobs ∧
    (d.modSem n k g).links = d.links ∧ (d.modSem n k g).shoal = d.shoal ∧ (d.modSem n k g).tap = d.tap ∧
    (d.modSem n k g).devCnt = d.devCnt ∧ (d.modSem n k g).telem = d.telem := by
  obtain ⟨e, h⟩ := d.modSem_cases n k g
  rw [h]
  exact ⟨rfl, rfl, rfl, rfl, rfl, rfl, rfl, rfl, rfl, rfl, rfl, rfl, rfl, rfl, rfl, rfl, rfl, rfl, rfl, rfl, rfl, rfl, rfl, rfl, rfl, rfl, rfl, rfl, rfl, rfl, rfl, rfl, rfl, rfl, rfl, rfl, rfl, rfl, rfl, rfl, rfl, rfl, rfl, rfl, rfl, rfl, rfl, rfl⟩
/-- What modCnt leaves unchanged. -/
@[simp] theorem Device.modCnt_keeps (d : Device) (n : Nat) (g : ScCounters → ScCounters) :
    (d.modCnt n g).now = d.now ∧ (d.modCnt n g).fresh = d.fresh ∧ (d.modCnt n g).out = d.out ∧ (d.modCnt n g).mem = d.mem ∧
    (d.modCnt n g).phase = d.phase ∧ (d.modCnt n g).aon = d.aon ∧ (d.modCnt n g).power = d.power ∧ (d.modCnt n g).ens = d.ens ∧
    (d.modCnt n g).straps = d.straps ∧ (d.modCnt n g).resets = d.resets ∧ (d.modCnt n g).degraded = d.degraded ∧
    (d.modCnt n g).profMis = d.profMis ∧ (d.modCnt n g).profUn = d.profUn ∧ (d.modCnt n g).popMis = d.popMis ∧
    (d.modCnt n g).popFault = d.popFault ∧ (d.modCnt n g).strapFault = d.strapFault ∧ (d.modCnt n g).quiesced = d.quiesced ∧
    (d.modCnt n g).fuses = d.fuses ∧ (d.modCnt n g).flash = d.flash ∧ (d.modCnt n g).mgmt = d.mgmt ∧ (d.modCnt n g).fns = d.fns ∧
    (d.modCnt n g).ports = d.ports ∧ (d.modCnt n g).sideMb = d.sideMb ∧ (d.modCnt n g).burgees = d.burgees ∧
    (d.modCnt n g).geo = d.geo ∧ (d.modCnt n g).indexes = d.indexes ∧ (d.modCnt n g).models = d.models ∧
    (d.modCnt n g).model = d.model ∧ (d.modCnt n g).lastModel = d.lastModel ∧ (d.modCnt n g).staged = d.staged ∧
    (d.modCnt n g).cmds = d.cmds ∧ (d.modCnt n g).stamp = d.stamp ∧ (d.modCnt n g).lastQp = d.lastQp ∧ (d.modCnt n g).ctxs = d.ctxs ∧
    (d.modCnt n g).scs = d.scs ∧ (d.modCnt n g).engines = d.engines ∧ (d.modCnt n g).streams = d.streams ∧ (d.modCnt n g).mbs = d.mbs ∧
    (d.modCnt n g).devBuckets = d.devBuckets ∧ (d.modCnt n g).heat = d.heat ∧ (d.modCnt n g).tiers = d.tiers ∧
    (d.modCnt n g).jobs = d.jobs ∧ (d.modCnt n g).lastJob = d.lastJob ∧ (d.modCnt n g).endedJobs = d.endedJobs ∧
    (d.modCnt n g).links = d.links ∧ (d.modCnt n g).shoal = d.shoal ∧ (d.modCnt n g).tap = d.tap ∧ (d.modCnt n g).devCnt = d.devCnt ∧
    (d.modCnt n g).telem = d.telem :=
  ⟨rfl, rfl, rfl, rfl, rfl, rfl, rfl, rfl, rfl, rfl, rfl, rfl, rfl, rfl, rfl, rfl, rfl, rfl, rfl, rfl, rfl, rfl, rfl, rfl, rfl, rfl, rfl, rfl, rfl, rfl, rfl, rfl, rfl, rfl, rfl, rfl, rfl, rfl, rfl, rfl, rfl, rfl, rfl, rfl, rfl, rfl, rfl, rfl, rfl⟩
/-- What modLink leaves unchanged. -/
@[simp] theorem Device.modLink_keeps (d : Device) (n : Nat) (g : Link → Link) :
    (d.modLink n g).now = d.now ∧ (d.modLink n g).fresh = d.fresh ∧ (d.modLink n g).out = d.out ∧ (d.modLink n g).mem = d.mem ∧
    (d.modLink n g).phase = d.phase ∧ (d.modLink n g).aon = d.aon ∧ (d.modLink n g).power = d.power ∧ (d.modLink n g).ens = d.ens ∧
    (d.modLink n g).straps = d.straps ∧ (d.modLink n g).resets = d.resets ∧ (d.modLink n g).degraded = d.degraded ∧
    (d.modLink n g).profMis = d.profMis ∧ (d.modLink n g).profUn = d.profUn ∧ (d.modLink n g).popMis = d.popMis ∧
    (d.modLink n g).popFault = d.popFault ∧ (d.modLink n g).strapFault = d.strapFault ∧ (d.modLink n g).quiesced = d.quiesced ∧
    (d.modLink n g).fuses = d.fuses ∧ (d.modLink n g).flash = d.flash ∧ (d.modLink n g).mgmt = d.mgmt ∧ (d.modLink n g).fns = d.fns ∧
    (d.modLink n g).ports = d.ports ∧ (d.modLink n g).sideMb = d.sideMb ∧ (d.modLink n g).burgees = d.burgees ∧
    (d.modLink n g).geo = d.geo ∧ (d.modLink n g).indexes = d.indexes ∧ (d.modLink n g).models = d.models ∧
    (d.modLink n g).model = d.model ∧ (d.modLink n g).lastModel = d.lastModel ∧ (d.modLink n g).staged = d.staged ∧
    (d.modLink n g).cmds = d.cmds ∧ (d.modLink n g).stamp = d.stamp ∧ (d.modLink n g).lastQp = d.lastQp ∧
    (d.modLink n g).ctxs = d.ctxs ∧ (d.modLink n g).scs = d.scs ∧ (d.modLink n g).engines = d.engines ∧
    (d.modLink n g).streams = d.streams ∧ (d.modLink n g).scCnt = d.scCnt ∧ (d.modLink n g).mbs = d.mbs ∧
    (d.modLink n g).devBuckets = d.devBuckets ∧ (d.modLink n g).heat = d.heat ∧ (d.modLink n g).tiers = d.tiers ∧
    (d.modLink n g).jobs = d.jobs ∧ (d.modLink n g).lastJob = d.lastJob ∧ (d.modLink n g).endedJobs = d.endedJobs ∧
    (d.modLink n g).shoal = d.shoal ∧ (d.modLink n g).tap = d.tap ∧ (d.modLink n g).devCnt = d.devCnt ∧
    (d.modLink n g).telem = d.telem :=
  ⟨rfl, rfl, rfl, rfl, rfl, rfl, rfl, rfl, rfl, rfl, rfl, rfl, rfl, rfl, rfl, rfl, rfl, rfl, rfl, rfl, rfl, rfl, rfl, rfl, rfl, rfl, rfl, rfl, rfl, rfl, rfl, rfl, rfl, rfl, rfl, rfl, rfl, rfl, rfl, rfl, rfl, rfl, rfl, rfl, rfl, rfl, rfl, rfl, rfl⟩
/-- What modChan leaves unchanged. -/
@[simp] theorem Device.modChan_keeps (d : Device) (n : Nat) (g : Channel → Channel) :
    (d.modChan n g).now = d.now ∧ (d.modChan n g).fresh = d.fresh ∧ (d.modChan n g).out = d.out ∧ (d.modChan n g).mem = d.mem ∧
    (d.modChan n g).phase = d.phase ∧ (d.modChan n g).aon = d.aon ∧ (d.modChan n g).power = d.power ∧ (d.modChan n g).ens = d.ens ∧
    (d.modChan n g).straps = d.straps ∧ (d.modChan n g).resets = d.resets ∧ (d.modChan n g).degraded = d.degraded ∧
    (d.modChan n g).profMis = d.profMis ∧ (d.modChan n g).profUn = d.profUn ∧ (d.modChan n g).popMis = d.popMis ∧
    (d.modChan n g).popFault = d.popFault ∧ (d.modChan n g).strapFault = d.strapFault ∧ (d.modChan n g).quiesced = d.quiesced ∧
    (d.modChan n g).fuses = d.fuses ∧ (d.modChan n g).flash = d.flash ∧ (d.modChan n g).mgmt = d.mgmt ∧ (d.modChan n g).fns = d.fns ∧
    (d.modChan n g).ports = d.ports ∧ (d.modChan n g).sideMb = d.sideMb ∧ (d.modChan n g).burgees = d.burgees ∧
    (d.modChan n g).geo = d.geo ∧ (d.modChan n g).indexes = d.indexes ∧ (d.modChan n g).models = d.models ∧
    (d.modChan n g).model = d.model ∧ (d.modChan n g).lastModel = d.lastModel ∧ (d.modChan n g).staged = d.staged ∧
    (d.modChan n g).cmds = d.cmds ∧ (d.modChan n g).stamp = d.stamp ∧ (d.modChan n g).lastQp = d.lastQp ∧
    (d.modChan n g).ctxs = d.ctxs ∧ (d.modChan n g).scs = d.scs ∧ (d.modChan n g).engines = d.engines ∧
    (d.modChan n g).streams = d.streams ∧ (d.modChan n g).scCnt = d.scCnt ∧ (d.modChan n g).mbs = d.mbs ∧
    (d.modChan n g).devBuckets = d.devBuckets ∧ (d.modChan n g).heat = d.heat ∧ (d.modChan n g).tiers.packages = d.tiers.packages ∧
    (d.modChan n g).tiers.sites = d.tiers.sites ∧ (d.modChan n g).tiers.disabled = d.tiers.disabled ∧
    (d.modChan n g).tiers.trained = d.tiers.trained ∧ (d.modChan n g).tiers.lFault = d.tiers.lFault ∧
    (d.modChan n g).tiers.extF = d.tiers.extF ∧ (d.modChan n g).tiers.extL = d.tiers.extL ∧
    (d.modChan n g).tiers.refreshL = d.tiers.refreshL ∧ (d.modChan n g).tiers.refreshF = d.tiers.refreshF ∧
    (d.modChan n g).tiers.erased = d.tiers.erased ∧ (d.modChan n g).tiers.draws = d.tiers.draws ∧ (d.modChan n g).jobs = d.jobs ∧
    (d.modChan n g).lastJob = d.lastJob ∧ (d.modChan n g).endedJobs = d.endedJobs ∧ (d.modChan n g).links = d.links ∧
    (d.modChan n g).shoal = d.shoal ∧ (d.modChan n g).tap = d.tap ∧ (d.modChan n g).devCnt = d.devCnt ∧
    (d.modChan n g).telem = d.telem :=
  ⟨rfl, rfl, rfl, rfl, rfl, rfl, rfl, rfl, rfl, rfl, rfl, rfl, rfl, rfl, rfl, rfl, rfl, rfl, rfl, rfl, rfl, rfl, rfl, rfl, rfl, rfl, rfl, rfl, rfl, rfl, rfl, rfl, rfl, rfl, rfl, rfl, rfl, rfl, rfl, rfl, rfl, rfl, rfl, rfl, rfl, rfl, rfl, rfl, rfl, rfl, rfl, rfl, rfl, rfl, rfl, rfl, rfl, rfl, rfl, rfl⟩
/-- What memCount leaves unchanged. -/
@[simp] theorem Device.memCount_keeps (d : Device) (n : Nat) (g : MemCounters → MemCounters) :
    (d.memCount n g).now = d.now ∧ (d.memCount n g).fresh = d.fresh ∧ (d.memCount n g).out = d.out ∧ (d.memCount n g).mem = d.mem ∧
    (d.memCount n g).phase = d.phase ∧ (d.memCount n g).aon = d.aon ∧ (d.memCount n g).power = d.power ∧ (d.memCount n g).ens = d.ens ∧
    (d.memCount n g).straps = d.straps ∧ (d.memCount n g).resets = d.resets ∧ (d.memCount n g).degraded = d.degraded ∧
    (d.memCount n g).profMis = d.profMis ∧ (d.memCount n g).profUn = d.profUn ∧ (d.memCount n g).popMis = d.popMis ∧
    (d.memCount n g).popFault = d.popFault ∧ (d.memCount n g).strapFault = d.strapFault ∧ (d.memCount n g).quiesced = d.quiesced ∧
    (d.memCount n g).fuses = d.fuses ∧ (d.memCount n g).flash = d.flash ∧ (d.memCount n g).mgmt = d.mgmt ∧
    (d.memCount n g).fns = d.fns ∧ (d.memCount n g).ports = d.ports ∧ (d.memCount n g).sideMb = d.sideMb ∧
    (d.memCount n g).burgees = d.burgees ∧ (d.memCount n g).geo = d.geo ∧ (d.memCount n g).indexes = d.indexes ∧
    (d.memCount n g).models = d.models ∧ (d.memCount n g).model = d.model ∧ (d.memCount n g).lastModel = d.lastModel ∧
    (d.memCount n g).staged = d.staged ∧ (d.memCount n g).cmds = d.cmds ∧ (d.memCount n g).stamp = d.stamp ∧
    (d.memCount n g).lastQp = d.lastQp ∧ (d.memCount n g).ctxs = d.ctxs ∧ (d.memCount n g).scs = d.scs ∧
    (d.memCount n g).engines = d.engines ∧ (d.memCount n g).streams = d.streams ∧ (d.memCount n g).scCnt = d.scCnt ∧
    (d.memCount n g).mbs = d.mbs ∧ (d.memCount n g).devBuckets = d.devBuckets ∧ (d.memCount n g).heat = d.heat ∧
    (d.memCount n g).tiers.packages = d.tiers.packages ∧ (d.memCount n g).tiers.sites = d.tiers.sites ∧
    (d.memCount n g).tiers.disabled = d.tiers.disabled ∧ (d.memCount n g).tiers.trained = d.tiers.trained ∧
    (d.memCount n g).tiers.lFault = d.tiers.lFault ∧ (d.memCount n g).tiers.extF = d.tiers.extF ∧
    (d.memCount n g).tiers.extL = d.tiers.extL ∧ (d.memCount n g).tiers.refreshL = d.tiers.refreshL ∧
    (d.memCount n g).tiers.refreshF = d.tiers.refreshF ∧ (d.memCount n g).tiers.erased = d.tiers.erased ∧
    (d.memCount n g).tiers.draws = d.tiers.draws ∧ (d.memCount n g).jobs = d.jobs ∧ (d.memCount n g).lastJob = d.lastJob ∧
    (d.memCount n g).endedJobs = d.endedJobs ∧ (d.memCount n g).links = d.links ∧ (d.memCount n g).shoal = d.shoal ∧
    (d.memCount n g).tap = d.tap ∧ (d.memCount n g).devCnt = d.devCnt ∧ (d.memCount n g).telem = d.telem :=
  ⟨rfl, rfl, rfl, rfl, rfl, rfl, rfl, rfl, rfl, rfl, rfl, rfl, rfl, rfl, rfl, rfl, rfl, rfl, rfl, rfl, rfl, rfl, rfl, rfl, rfl, rfl, rfl, rfl, rfl, rfl, rfl, rfl, rfl, rfl, rfl, rfl, rfl, rfl, rfl, rfl, rfl, rfl, rfl, rfl, rfl, rfl, rfl, rfl, rfl, rfl, rfl, rfl, rfl, rfl, rfl, rfl, rfl, rfl, rfl, rfl⟩
/-- What modCmd leaves unchanged. -/
@[simp] theorem Device.modCmd_keeps (d : Device) (n : Nat) (g : Cmd → Cmd) :
    (d.modCmd n g).now = d.now ∧ (d.modCmd n g).fresh = d.fresh ∧ (d.modCmd n g).out = d.out ∧ (d.modCmd n g).mem = d.mem ∧
    (d.modCmd n g).phase = d.phase ∧ (d.modCmd n g).aon = d.aon ∧ (d.modCmd n g).power = d.power ∧ (d.modCmd n g).ens = d.ens ∧
    (d.modCmd n g).straps = d.straps ∧ (d.modCmd n g).resets = d.resets ∧ (d.modCmd n g).degraded = d.degraded ∧
    (d.modCmd n g).profMis = d.profMis ∧ (d.modCmd n g).profUn = d.profUn ∧ (d.modCmd n g).popMis = d.popMis ∧
    (d.modCmd n g).popFault = d.popFault ∧ (d.modCmd n g).strapFault = d.strapFault ∧ (d.modCmd n g).quiesced = d.quiesced ∧
    (d.modCmd n g).fuses = d.fuses ∧ (d.modCmd n g).flash = d.flash ∧ (d.modCmd n g).mgmt = d.mgmt ∧ (d.modCmd n g).fns = d.fns ∧
    (d.modCmd n g).ports = d.ports ∧ (d.modCmd n g).sideMb = d.sideMb ∧ (d.modCmd n g).burgees = d.burgees ∧
    (d.modCmd n g).geo = d.geo ∧ (d.modCmd n g).indexes = d.indexes ∧ (d.modCmd n g).models = d.models ∧
    (d.modCmd n g).model = d.model ∧ (d.modCmd n g).lastModel = d.lastModel ∧ (d.modCmd n g).staged = d.staged ∧
    (d.modCmd n g).stamp = d.stamp ∧ (d.modCmd n g).lastQp = d.lastQp ∧ (d.modCmd n g).ctxs = d.ctxs ∧ (d.modCmd n g).scs = d.scs ∧
    (d.modCmd n g).engines = d.engines ∧ (d.modCmd n g).streams = d.streams ∧ (d.modCmd n g).scCnt = d.scCnt ∧
    (d.modCmd n g).mbs = d.mbs ∧ (d.modCmd n g).devBuckets = d.devBuckets ∧ (d.modCmd n g).heat = d.heat ∧
    (d.modCmd n g).tiers = d.tiers ∧ (d.modCmd n g).jobs = d.jobs ∧ (d.modCmd n g).lastJob = d.lastJob ∧
    (d.modCmd n g).endedJobs = d.endedJobs ∧ (d.modCmd n g).links = d.links ∧ (d.modCmd n g).shoal = d.shoal ∧
    (d.modCmd n g).tap = d.tap ∧ (d.modCmd n g).devCnt = d.devCnt ∧ (d.modCmd n g).telem = d.telem :=
  ⟨rfl, rfl, rfl, rfl, rfl, rfl, rfl, rfl, rfl, rfl, rfl, rfl, rfl, rfl, rfl, rfl, rfl, rfl, rfl, rfl, rfl, rfl, rfl, rfl, rfl, rfl, rfl, rfl, rfl, rfl, rfl, rfl, rfl, rfl, rfl, rfl, rfl, rfl, rfl, rfl, rfl, rfl, rfl, rfl, rfl, rfl, rfl, rfl, rfl⟩
/-- What modCtx leaves unchanged. -/
@[simp] theorem Device.modCtx_keeps (d : Device) (n : Nat) (g : Ctx → Ctx) :
    (d.modCtx n g).now = d.now ∧ (d.modCtx n g).fresh = d.fresh ∧ (d.modCtx n g).out = d.out ∧ (d.modCtx n g).mem = d.mem ∧
    (d.modCtx n g).phase = d.phase ∧ (d.modCtx n g).aon = d.aon ∧ (d.modCtx n g).power = d.power ∧ (d.modCtx n g).ens = d.ens ∧
    (d.modCtx n g).straps = d.straps ∧ (d.modCtx n g).resets = d.resets ∧ (d.modCtx n g).degraded = d.degraded ∧
    (d.modCtx n g).profMis = d.profMis ∧ (d.modCtx n g).profUn = d.profUn ∧ (d.modCtx n g).popMis = d.popMis ∧
    (d.modCtx n g).popFault = d.popFault ∧ (d.modCtx n g).strapFault = d.strapFault ∧ (d.modCtx n g).quiesced = d.quiesced ∧
    (d.modCtx n g).fuses = d.fuses ∧ (d.modCtx n g).flash = d.flash ∧ (d.modCtx n g).mgmt = d.mgmt ∧ (d.modCtx n g).fns = d.fns ∧
    (d.modCtx n g).ports = d.ports ∧ (d.modCtx n g).sideMb = d.sideMb ∧ (d.modCtx n g).burgees = d.burgees ∧
    (d.modCtx n g).geo = d.geo ∧ (d.modCtx n g).indexes = d.indexes ∧ (d.modCtx n g).models = d.models ∧
    (d.modCtx n g).model = d.model ∧ (d.modCtx n g).lastModel = d.lastModel ∧ (d.modCtx n g).staged = d.staged ∧
    (d.modCtx n g).cmds = d.cmds ∧ (d.modCtx n g).stamp = d.stamp ∧ (d.modCtx n g).lastQp = d.lastQp ∧ (d.modCtx n g).scs = d.scs ∧
    (d.modCtx n g).engines = d.engines ∧ (d.modCtx n g).streams = d.streams ∧ (d.modCtx n g).scCnt = d.scCnt ∧
    (d.modCtx n g).mbs = d.mbs ∧ (d.modCtx n g).devBuckets = d.devBuckets ∧ (d.modCtx n g).heat = d.heat ∧
    (d.modCtx n g).tiers = d.tiers ∧ (d.modCtx n g).jobs = d.jobs ∧ (d.modCtx n g).lastJob = d.lastJob ∧
    (d.modCtx n g).endedJobs = d.endedJobs ∧ (d.modCtx n g).links = d.links ∧ (d.modCtx n g).shoal = d.shoal ∧
    (d.modCtx n g).tap = d.tap ∧ (d.modCtx n g).devCnt = d.devCnt ∧ (d.modCtx n g).telem = d.telem :=
  ⟨rfl, rfl, rfl, rfl, rfl, rfl, rfl, rfl, rfl, rfl, rfl, rfl, rfl, rfl, rfl, rfl, rfl, rfl, rfl, rfl, rfl, rfl, rfl, rfl, rfl, rfl, rfl, rfl, rfl, rfl, rfl, rfl, rfl, rfl, rfl, rfl, rfl, rfl, rfl, rfl, rfl, rfl, rfl, rfl, rfl, rfl, rfl, rfl, rfl⟩
/-- What modMb leaves unchanged. -/
@[simp] theorem Device.modMb_keeps (d : Device) (n : Nat) (g : MergeBuf → MergeBuf) :
    (d.modMb n g).now = d.now ∧ (d.modMb n g).fresh = d.fresh ∧ (d.modMb n g).out = d.out ∧ (d.modMb n g).mem = d.mem ∧
    (d.modMb n g).phase = d.phase ∧ (d.modMb n g).aon = d.aon ∧ (d.modMb n g).power = d.power ∧ (d.modMb n g).ens = d.ens ∧
    (d.modMb n g).straps = d.straps ∧ (d.modMb n g).resets = d.resets ∧ (d.modMb n g).degraded = d.degraded ∧
    (d.modMb n g).profMis = d.profMis ∧ (d.modMb n g).profUn = d.profUn ∧ (d.modMb n g).popMis = d.popMis ∧
    (d.modMb n g).popFault = d.popFault ∧ (d.modMb n g).strapFault = d.strapFault ∧ (d.modMb n g).quiesced = d.quiesced ∧
    (d.modMb n g).fuses = d.fuses ∧ (d.modMb n g).flash = d.flash ∧ (d.modMb n g).mgmt = d.mgmt ∧ (d.modMb n g).fns = d.fns ∧
    (d.modMb n g).ports = d.ports ∧ (d.modMb n g).sideMb = d.sideMb ∧ (d.modMb n g).burgees = d.burgees ∧ (d.modMb n g).geo = d.geo ∧
    (d.modMb n g).indexes = d.indexes ∧ (d.modMb n g).models = d.models ∧ (d.modMb n g).model = d.model ∧
    (d.modMb n g).lastModel = d.lastModel ∧ (d.modMb n g).staged = d.staged ∧ (d.modMb n g).cmds = d.cmds ∧
    (d.modMb n g).stamp = d.stamp ∧ (d.modMb n g).lastQp = d.lastQp ∧ (d.modMb n g).ctxs = d.ctxs ∧ (d.modMb n g).scs = d.scs ∧
    (d.modMb n g).engines = d.engines ∧ (d.modMb n g).streams = d.streams ∧ (d.modMb n g).scCnt = d.scCnt ∧
    (d.modMb n g).devBuckets = d.devBuckets ∧ (d.modMb n g).heat = d.heat ∧ (d.modMb n g).tiers = d.tiers ∧
    (d.modMb n g).jobs = d.jobs ∧ (d.modMb n g).lastJob = d.lastJob ∧ (d.modMb n g).endedJobs = d.endedJobs ∧
    (d.modMb n g).links = d.links ∧ (d.modMb n g).shoal = d.shoal ∧ (d.modMb n g).tap = d.tap ∧ (d.modMb n g).devCnt = d.devCnt ∧
    (d.modMb n g).telem = d.telem :=
  ⟨rfl, rfl, rfl, rfl, rfl, rfl, rfl, rfl, rfl, rfl, rfl, rfl, rfl, rfl, rfl, rfl, rfl, rfl, rfl, rfl, rfl, rfl, rfl, rfl, rfl, rfl, rfl, rfl, rfl, rfl, rfl, rfl, rfl, rfl, rfl, rfl, rfl, rfl, rfl, rfl, rfl, rfl, rfl, rfl, rfl, rfl, rfl, rfl, rfl⟩
/-- What modJob leaves unchanged. -/
@[simp] theorem Device.modJob_keeps (d : Device) (n : Nat) (g : Job → Job) :
    (d.modJob n g).now = d.now ∧ (d.modJob n g).fresh = d.fresh ∧ (d.modJob n g).out = d.out ∧ (d.modJob n g).mem = d.mem ∧
    (d.modJob n g).phase = d.phase ∧ (d.modJob n g).aon = d.aon ∧ (d.modJob n g).power = d.power ∧ (d.modJob n g).ens = d.ens ∧
    (d.modJob n g).straps = d.straps ∧ (d.modJob n g).resets = d.resets ∧ (d.modJob n g).degraded = d.degraded ∧
    (d.modJob n g).profMis = d.profMis ∧ (d.modJob n g).profUn = d.profUn ∧ (d.modJob n g).popMis = d.popMis ∧
    (d.modJob n g).popFault = d.popFault ∧ (d.modJob n g).strapFault = d.strapFault ∧ (d.modJob n g).quiesced = d.quiesced ∧
    (d.modJob n g).fuses = d.fuses ∧ (d.modJob n g).flash = d.flash ∧ (d.modJob n g).mgmt = d.mgmt ∧ (d.modJob n g).fns = d.fns ∧
    (d.modJob n g).ports = d.ports ∧ (d.modJob n g).sideMb = d.sideMb ∧ (d.modJob n g).burgees = d.burgees ∧
    (d.modJob n g).geo = d.geo ∧ (d.modJob n g).indexes = d.indexes ∧ (d.modJob n g).models = d.models ∧
    (d.modJob n g).model = d.model ∧ (d.modJob n g).lastModel = d.lastModel ∧ (d.modJob n g).staged = d.staged ∧
    (d.modJob n g).cmds = d.cmds ∧ (d.modJob n g).stamp = d.stamp ∧ (d.modJob n g).lastQp = d.lastQp ∧ (d.modJob n g).ctxs = d.ctxs ∧
    (d.modJob n g).scs = d.scs ∧ (d.modJob n g).engines = d.engines ∧ (d.modJob n g).streams = d.streams ∧
    (d.modJob n g).scCnt = d.scCnt ∧ (d.modJob n g).mbs = d.mbs ∧ (d.modJob n g).devBuckets = d.devBuckets ∧
    (d.modJob n g).heat = d.heat ∧ (d.modJob n g).tiers = d.tiers ∧ (d.modJob n g).lastJob = d.lastJob ∧
    (d.modJob n g).endedJobs = d.endedJobs ∧ (d.modJob n g).links = d.links ∧ (d.modJob n g).shoal = d.shoal ∧
    (d.modJob n g).tap = d.tap ∧ (d.modJob n g).devCnt = d.devCnt ∧ (d.modJob n g).telem = d.telem :=
  ⟨rfl, rfl, rfl, rfl, rfl, rfl, rfl, rfl, rfl, rfl, rfl, rfl, rfl, rfl, rfl, rfl, rfl, rfl, rfl, rfl, rfl, rfl, rfl, rfl, rfl, rfl, rfl, rfl, rfl, rfl, rfl, rfl, rfl, rfl, rfl, rfl, rfl, rfl, rfl, rfl, rfl, rfl, rfl, rfl, rfl, rfl, rfl, rfl, rfl⟩
/-- What by leaves unchanged. -/
@[simp] theorem Device.by_keeps (d : Device) (t : Nat) :
    (d.by t).fresh = d.fresh ∧ (d.by t).out = d.out ∧ (d.by t).mem = d.mem ∧ (d.by t).phase = d.phase ∧ (d.by t).aon = d.aon ∧
    (d.by t).power = d.power ∧ (d.by t).ens = d.ens ∧ (d.by t).straps = d.straps ∧ (d.by t).resets = d.resets ∧
    (d.by t).degraded = d.degraded ∧ (d.by t).profMis = d.profMis ∧ (d.by t).profUn = d.profUn ∧ (d.by t).popMis = d.popMis ∧
    (d.by t).popFault = d.popFault ∧ (d.by t).strapFault = d.strapFault ∧ (d.by t).quiesced = d.quiesced ∧ (d.by t).fuses = d.fuses ∧
    (d.by t).flash = d.flash ∧ (d.by t).mgmt = d.mgmt ∧ (d.by t).fns = d.fns ∧ (d.by t).ports = d.ports ∧ (d.by t).sideMb = d.sideMb ∧
    (d.by t).burgees = d.burgees ∧ (d.by t).geo = d.geo ∧ (d.by t).indexes = d.indexes ∧ (d.by t).models = d.models ∧
    (d.by t).model = d.model ∧ (d.by t).lastModel = d.lastModel ∧ (d.by t).staged = d.staged ∧ (d.by t).cmds = d.cmds ∧
    (d.by t).stamp = d.stamp ∧ (d.by t).lastQp = d.lastQp ∧ (d.by t).ctxs = d.ctxs ∧ (d.by t).scs = d.scs ∧
    (d.by t).engines = d.engines ∧ (d.by t).streams = d.streams ∧ (d.by t).scCnt = d.scCnt ∧ (d.by t).mbs = d.mbs ∧
    (d.by t).devBuckets = d.devBuckets ∧ (d.by t).heat = d.heat ∧ (d.by t).tiers = d.tiers ∧ (d.by t).jobs = d.jobs ∧
    (d.by t).lastJob = d.lastJob ∧ (d.by t).endedJobs = d.endedJobs ∧ (d.by t).links = d.links ∧ (d.by t).shoal = d.shoal ∧
    (d.by t).tap = d.tap ∧ (d.by t).devCnt = d.devCnt ∧ (d.by t).telem = d.telem :=
  ⟨rfl, rfl, rfl, rfl, rfl, rfl, rfl, rfl, rfl, rfl, rfl, rfl, rfl, rfl, rfl, rfl, rfl, rfl, rfl, rfl, rfl, rfl, rfl, rfl, rfl, rfl, rfl, rfl, rfl, rfl, rfl, rfl, rfl, rfl, rfl, rfl, rfl, rfl, rfl, rfl, rfl, rfl, rfl, rfl, rfl, rfl, rfl, rfl, rfl⟩
/-- What emit leaves unchanged. -/
@[simp] theorem Device.emit_keeps (d : Device) (e : Emit) :
    (d.emit e).now = d.now ∧ (d.emit e).fresh = d.fresh ∧ (d.emit e).mem = d.mem ∧ (d.emit e).phase = d.phase ∧
    (d.emit e).aon = d.aon ∧ (d.emit e).power = d.power ∧ (d.emit e).ens = d.ens ∧ (d.emit e).straps = d.straps ∧
    (d.emit e).resets = d.resets ∧ (d.emit e).degraded = d.degraded ∧ (d.emit e).profMis = d.profMis ∧ (d.emit e).profUn = d.profUn ∧
    (d.emit e).popMis = d.popMis ∧ (d.emit e).popFault = d.popFault ∧ (d.emit e).strapFault = d.strapFault ∧
    (d.emit e).quiesced = d.quiesced ∧ (d.emit e).fuses = d.fuses ∧ (d.emit e).flash = d.flash ∧ (d.emit e).mgmt = d.mgmt ∧
    (d.emit e).fns = d.fns ∧ (d.emit e).ports = d.ports ∧ (d.emit e).sideMb = d.sideMb ∧ (d.emit e).burgees = d.burgees ∧
    (d.emit e).geo = d.geo ∧ (d.emit e).indexes = d.indexes ∧ (d.emit e).models = d.models ∧ (d.emit e).model = d.model ∧
    (d.emit e).lastModel = d.lastModel ∧ (d.emit e).staged = d.staged ∧ (d.emit e).cmds = d.cmds ∧ (d.emit e).stamp = d.stamp ∧
    (d.emit e).lastQp = d.lastQp ∧ (d.emit e).ctxs = d.ctxs ∧ (d.emit e).scs = d.scs ∧ (d.emit e).engines = d.engines ∧
    (d.emit e).streams = d.streams ∧ (d.emit e).scCnt = d.scCnt ∧ (d.emit e).mbs = d.mbs ∧ (d.emit e).devBuckets = d.devBuckets ∧
    (d.emit e).heat = d.heat ∧ (d.emit e).tiers = d.tiers ∧ (d.emit e).jobs = d.jobs ∧ (d.emit e).lastJob = d.lastJob ∧
    (d.emit e).endedJobs = d.endedJobs ∧ (d.emit e).links = d.links ∧ (d.emit e).shoal = d.shoal ∧ (d.emit e).tap = d.tap ∧
    (d.emit e).devCnt = d.devCnt ∧ (d.emit e).telem = d.telem :=
  ⟨rfl, rfl, rfl, rfl, rfl, rfl, rfl, rfl, rfl, rfl, rfl, rfl, rfl, rfl, rfl, rfl, rfl, rfl, rfl, rfl, rfl, rfl, rfl, rfl, rfl, rfl, rfl, rfl, rfl, rfl, rfl, rfl, rfl, rfl, rfl, rfl, rfl, rfl, rfl, rfl, rfl, rfl, rfl, rfl, rfl, rfl, rfl, rfl, rfl⟩
/-- What alert leaves unchanged. -/
@[simp] theorem Device.alert_keeps (d : Device) (b : Nat) :
    (d.alert b).now = d.now ∧ (d.alert b).fresh = d.fresh ∧ (d.alert b).out = d.out ∧ (d.alert b).mem = d.mem ∧
    (d.alert b).phase = d.phase ∧ (d.alert b).aon.vaux = d.aon.vaux ∧ (d.alert b).aon.sysPwrok = d.aon.sysPwrok ∧
    (d.alert b).aon.memrefOk = d.aon.memrefOk ∧ (d.alert b).aon.railHold = d.aon.railHold ∧ (d.alert b).aon.testMode = d.aon.testMode ∧
    (d.alert b).aon.trip = d.aon.trip ∧ (d.alert b).aon.smbAddr = d.aon.smbAddr ∧ (d.alert b).aon.coldCount = d.aon.coldCount ∧
    (d.alert b).aon.causeRail = d.aon.causeRail ∧ (d.alert b).aon.cause = d.aon.cause ∧ (d.alert b).aon.faults = d.aon.faults ∧
    (d.alert b).aon.faultSeq = d.aon.faultSeq ∧ (d.alert b).aon.railMv = d.aon.railMv ∧ (d.alert b).aon.vioOut = d.aon.vioOut ∧
    (d.alert b).aon.vfuseOut = d.aon.vfuseOut ∧ (d.alert b).aon.alertMask = d.aon.alertMask ∧ (d.alert b).aon.bo = d.aon.bo ∧
    (d.alert b).aon.araAnswers = d.aon.araAnswers ∧ (d.alert b).power = d.power ∧ (d.alert b).ens = d.ens ∧
    (d.alert b).straps = d.straps ∧ (d.alert b).resets = d.resets ∧ (d.alert b).degraded = d.degraded ∧
    (d.alert b).profMis = d.profMis ∧ (d.alert b).profUn = d.profUn ∧ (d.alert b).popMis = d.popMis ∧
    (d.alert b).popFault = d.popFault ∧ (d.alert b).strapFault = d.strapFault ∧ (d.alert b).quiesced = d.quiesced ∧
    (d.alert b).fuses = d.fuses ∧ (d.alert b).flash = d.flash ∧ (d.alert b).mgmt = d.mgmt ∧ (d.alert b).fns = d.fns ∧
    (d.alert b).ports = d.ports ∧ (d.alert b).sideMb = d.sideMb ∧ (d.alert b).burgees = d.burgees ∧ (d.alert b).geo = d.geo ∧
    (d.alert b).indexes = d.indexes ∧ (d.alert b).models = d.models ∧ (d.alert b).model = d.model ∧
    (d.alert b).lastModel = d.lastModel ∧ (d.alert b).staged = d.staged ∧ (d.alert b).cmds = d.cmds ∧ (d.alert b).stamp = d.stamp ∧
    (d.alert b).lastQp = d.lastQp ∧ (d.alert b).ctxs = d.ctxs ∧ (d.alert b).scs = d.scs ∧ (d.alert b).engines = d.engines ∧
    (d.alert b).streams = d.streams ∧ (d.alert b).scCnt = d.scCnt ∧ (d.alert b).mbs = d.mbs ∧ (d.alert b).devBuckets = d.devBuckets ∧
    (d.alert b).heat = d.heat ∧ (d.alert b).tiers = d.tiers ∧ (d.alert b).jobs = d.jobs ∧ (d.alert b).lastJob = d.lastJob ∧
    (d.alert b).endedJobs = d.endedJobs ∧ (d.alert b).links = d.links ∧ (d.alert b).shoal = d.shoal ∧ (d.alert b).tap = d.tap ∧
    (d.alert b).devCnt = d.devCnt ∧ (d.alert b).telem = d.telem :=
  ⟨rfl, rfl, rfl, rfl, rfl, rfl, rfl, rfl, rfl, rfl, rfl, rfl, rfl, rfl, rfl, rfl, rfl, rfl, rfl, rfl, rfl, rfl, rfl, rfl, rfl, rfl, rfl, rfl, rfl, rfl, rfl, rfl, rfl, rfl, rfl, rfl, rfl, rfl, rfl, rfl, rfl, rfl, rfl, rfl, rfl, rfl, rfl, rfl, rfl, rfl, rfl, rfl, rfl, rfl, rfl, rfl, rfl, rfl, rfl, rfl, rfl, rfl, rfl, rfl, rfl, rfl, rfl⟩
/-- What undegrade leaves unchanged. -/
@[simp] theorem Device.undegrade_keeps (d : Device) (b : Nat) :
    (d.undegrade b).now = d.now ∧ (d.undegrade b).fresh = d.fresh ∧ (d.undegrade b).out = d.out ∧ (d.undegrade b).mem = d.mem ∧
    (d.undegrade b).phase = d.phase ∧ (d.undegrade b).aon = d.aon ∧ (d.undegrade b).power = d.power ∧ (d.undegrade b).ens = d.ens ∧
    (d.undegrade b).straps = d.straps ∧ (d.undegrade b).resets = d.resets ∧ (d.undegrade b).profMis = d.profMis ∧
    (d.undegrade b).profUn = d.profUn ∧ (d.undegrade b).popMis = d.popMis ∧ (d.undegrade b).popFault = d.popFault ∧
    (d.undegrade b).strapFault = d.strapFault ∧ (d.undegrade b).quiesced = d.quiesced ∧ (d.undegrade b).fuses = d.fuses ∧
    (d.undegrade b).flash = d.flash ∧ (d.undegrade b).mgmt = d.mgmt ∧ (d.undegrade b).fns = d.fns ∧ (d.undegrade b).ports = d.ports ∧
    (d.undegrade b).sideMb = d.sideMb ∧ (d.undegrade b).burgees = d.burgees ∧ (d.undegrade b).geo = d.geo ∧
    (d.undegrade b).indexes = d.indexes ∧ (d.undegrade b).models = d.models ∧ (d.undegrade b).model = d.model ∧
    (d.undegrade b).lastModel = d.lastModel ∧ (d.undegrade b).staged = d.staged ∧ (d.undegrade b).cmds = d.cmds ∧
    (d.undegrade b).stamp = d.stamp ∧ (d.undegrade b).lastQp = d.lastQp ∧ (d.undegrade b).ctxs = d.ctxs ∧ (d.undegrade b).scs = d.scs ∧
    (d.undegrade b).engines = d.engines ∧ (d.undegrade b).streams = d.streams ∧ (d.undegrade b).scCnt = d.scCnt ∧
    (d.undegrade b).mbs = d.mbs ∧ (d.undegrade b).devBuckets = d.devBuckets ∧ (d.undegrade b).heat = d.heat ∧
    (d.undegrade b).tiers = d.tiers ∧ (d.undegrade b).jobs = d.jobs ∧ (d.undegrade b).lastJob = d.lastJob ∧
    (d.undegrade b).endedJobs = d.endedJobs ∧ (d.undegrade b).links = d.links ∧ (d.undegrade b).shoal = d.shoal ∧
    (d.undegrade b).tap = d.tap ∧ (d.undegrade b).devCnt = d.devCnt ∧ (d.undegrade b).telem = d.telem :=
  ⟨rfl, rfl, rfl, rfl, rfl, rfl, rfl, rfl, rfl, rfl, rfl, rfl, rfl, rfl, rfl, rfl, rfl, rfl, rfl, rfl, rfl, rfl, rfl, rfl, rfl, rfl, rfl, rfl, rfl, rfl, rfl, rfl, rfl, rfl, rfl, rfl, rfl, rfl, rfl, rfl, rfl, rfl, rfl, rfl, rfl, rfl, rfl, rfl, rfl⟩
/-- What write leaves unchanged. -/
@[simp] theorem Device.write_keeps (d : Device) (a : Nat) (bs : List Byte) :
    (d.write a bs).now = d.now ∧ (d.write a bs).fresh = d.fresh ∧ (d.write a bs).out = d.out ∧ (d.write a bs).phase = d.phase ∧
    (d.write a bs).aon = d.aon ∧ (d.write a bs).power = d.power ∧ (d.write a bs).ens = d.ens ∧ (d.write a bs).straps = d.straps ∧
    (d.write a bs).resets = d.resets ∧ (d.write a bs).degraded = d.degraded ∧ (d.write a bs).profMis = d.profMis ∧
    (d.write a bs).profUn = d.profUn ∧ (d.write a bs).popMis = d.popMis ∧ (d.write a bs).popFault = d.popFault ∧
    (d.write a bs).strapFault = d.strapFault ∧ (d.write a bs).quiesced = d.quiesced ∧ (d.write a bs).fuses = d.fuses ∧
    (d.write a bs).flash = d.flash ∧ (d.write a bs).mgmt = d.mgmt ∧ (d.write a bs).fns = d.fns ∧ (d.write a bs).ports = d.ports ∧
    (d.write a bs).sideMb = d.sideMb ∧ (d.write a bs).burgees = d.burgees ∧ (d.write a bs).geo = d.geo ∧
    (d.write a bs).indexes = d.indexes ∧ (d.write a bs).models = d.models ∧ (d.write a bs).model = d.model ∧
    (d.write a bs).lastModel = d.lastModel ∧ (d.write a bs).staged = d.staged ∧ (d.write a bs).cmds = d.cmds ∧
    (d.write a bs).stamp = d.stamp ∧ (d.write a bs).lastQp = d.lastQp ∧ (d.write a bs).ctxs = d.ctxs ∧ (d.write a bs).scs = d.scs ∧
    (d.write a bs).engines = d.engines ∧ (d.write a bs).streams = d.streams ∧ (d.write a bs).scCnt = d.scCnt ∧
    (d.write a bs).mbs = d.mbs ∧ (d.write a bs).devBuckets = d.devBuckets ∧ (d.write a bs).heat = d.heat ∧
    (d.write a bs).tiers.packages = d.tiers.packages ∧ (d.write a bs).tiers.sites = d.tiers.sites ∧
    (d.write a bs).tiers.disabled = d.tiers.disabled ∧ (d.write a bs).tiers.trained = d.tiers.trained ∧
    (d.write a bs).tiers.lFault = d.tiers.lFault ∧ (d.write a bs).tiers.extF = d.tiers.extF ∧
    (d.write a bs).tiers.extL = d.tiers.extL ∧ (d.write a bs).tiers.refreshL = d.tiers.refreshL ∧
    (d.write a bs).tiers.refreshF = d.tiers.refreshF ∧ (d.write a bs).tiers.draws = d.tiers.draws ∧
    (d.write a bs).tiers.chans = d.tiers.chans ∧ (d.write a bs).jobs = d.jobs ∧ (d.write a bs).lastJob = d.lastJob ∧
    (d.write a bs).endedJobs = d.endedJobs ∧ (d.write a bs).links = d.links ∧ (d.write a bs).shoal = d.shoal ∧
    (d.write a bs).tap = d.tap ∧ (d.write a bs).devCnt = d.devCnt ∧ (d.write a bs).telem = d.telem :=
  ⟨rfl, rfl, rfl, rfl, rfl, rfl, rfl, rfl, rfl, rfl, rfl, rfl, rfl, rfl, rfl, rfl, rfl, rfl, rfl, rfl, rfl, rfl, rfl, rfl, rfl, rfl, rfl, rfl, rfl, rfl, rfl, rfl, rfl, rfl, rfl, rfl, rfl, rfl, rfl, rfl, rfl, rfl, rfl, rfl, rfl, rfl, rfl, rfl, rfl, rfl, rfl, rfl, rfl, rfl, rfl, rfl, rfl, rfl, rfl⟩
/-- What zero leaves unchanged. -/
@[simp] theorem Device.zero_keeps (d : Device) (a n : Nat) :
    (d.zero a n).now = d.now ∧ (d.zero a n).fresh = d.fresh ∧ (d.zero a n).out = d.out ∧ (d.zero a n).phase = d.phase ∧
    (d.zero a n).aon = d.aon ∧ (d.zero a n).power = d.power ∧ (d.zero a n).ens = d.ens ∧ (d.zero a n).straps = d.straps ∧
    (d.zero a n).resets = d.resets ∧ (d.zero a n).degraded = d.degraded ∧ (d.zero a n).profMis = d.profMis ∧
    (d.zero a n).profUn = d.profUn ∧ (d.zero a n).popMis = d.popMis ∧ (d.zero a n).popFault = d.popFault ∧
    (d.zero a n).strapFault = d.strapFault ∧ (d.zero a n).quiesced = d.quiesced ∧ (d.zero a n).fuses = d.fuses ∧
    (d.zero a n).flash = d.flash ∧ (d.zero a n).mgmt = d.mgmt ∧ (d.zero a n).fns = d.fns ∧ (d.zero a n).ports = d.ports ∧
    (d.zero a n).sideMb = d.sideMb ∧ (d.zero a n).burgees = d.burgees ∧ (d.zero a n).geo = d.geo ∧ (d.zero a n).indexes = d.indexes ∧
    (d.zero a n).models = d.models ∧ (d.zero a n).model = d.model ∧ (d.zero a n).lastModel = d.lastModel ∧
    (d.zero a n).staged = d.staged ∧ (d.zero a n).cmds = d.cmds ∧ (d.zero a n).stamp = d.stamp ∧ (d.zero a n).lastQp = d.lastQp ∧
    (d.zero a n).ctxs = d.ctxs ∧ (d.zero a n).scs = d.scs ∧ (d.zero a n).engines = d.engines ∧ (d.zero a n).streams = d.streams ∧
    (d.zero a n).scCnt = d.scCnt ∧ (d.zero a n).mbs = d.mbs ∧ (d.zero a n).devBuckets = d.devBuckets ∧ (d.zero a n).heat = d.heat ∧
    (d.zero a n).tiers.packages = d.tiers.packages ∧ (d.zero a n).tiers.sites = d.tiers.sites ∧
    (d.zero a n).tiers.disabled = d.tiers.disabled ∧ (d.zero a n).tiers.trained = d.tiers.trained ∧
    (d.zero a n).tiers.lFault = d.tiers.lFault ∧ (d.zero a n).tiers.extF = d.tiers.extF ∧ (d.zero a n).tiers.extL = d.tiers.extL ∧
    (d.zero a n).tiers.refreshL = d.tiers.refreshL ∧ (d.zero a n).tiers.refreshF = d.tiers.refreshF ∧
    (d.zero a n).tiers.draws = d.tiers.draws ∧ (d.zero a n).tiers.chans = d.tiers.chans ∧ (d.zero a n).jobs = d.jobs ∧
    (d.zero a n).lastJob = d.lastJob ∧ (d.zero a n).endedJobs = d.endedJobs ∧ (d.zero a n).links = d.links ∧
    (d.zero a n).shoal = d.shoal ∧ (d.zero a n).tap = d.tap ∧ (d.zero a n).devCnt = d.devCnt ∧ (d.zero a n).telem = d.telem :=
  ⟨rfl, rfl, rfl, rfl, rfl, rfl, rfl, rfl, rfl, rfl, rfl, rfl, rfl, rfl, rfl, rfl, rfl, rfl, rfl, rfl, rfl, rfl, rfl, rfl, rfl, rfl, rfl, rfl, rfl, rfl, rfl, rfl, rfl, rfl, rfl, rfl, rfl, rfl, rfl, rfl, rfl, rfl, rfl, rfl, rfl, rfl, rfl, rfl, rfl, rfl, rfl, rfl, rfl, rfl, rfl, rfl, rfl, rfl, rfl⟩
/-- What erase leaves unchanged. -/
@[simp] theorem Device.erase_keeps (d : Device) (a n k : Nat) :
    (d.erase a n k).now = d.now ∧ (d.erase a n k).fresh = d.fresh ∧ (d.erase a n k).out = d.out ∧ (d.erase a n k).phase = d.phase ∧
    (d.erase a n k).aon = d.aon ∧ (d.erase a n k).power = d.power ∧ (d.erase a n k).ens = d.ens ∧ (d.erase a n k).straps = d.straps ∧
    (d.erase a n k).resets = d.resets ∧ (d.erase a n k).degraded = d.degraded ∧ (d.erase a n k).profMis = d.profMis ∧
    (d.erase a n k).profUn = d.profUn ∧ (d.erase a n k).popMis = d.popMis ∧ (d.erase a n k).popFault = d.popFault ∧
    (d.erase a n k).strapFault = d.strapFault ∧ (d.erase a n k).quiesced = d.quiesced ∧ (d.erase a n k).fuses = d.fuses ∧
    (d.erase a n k).flash = d.flash ∧ (d.erase a n k).mgmt = d.mgmt ∧ (d.erase a n k).fns = d.fns ∧ (d.erase a n k).ports = d.ports ∧
    (d.erase a n k).sideMb = d.sideMb ∧ (d.erase a n k).burgees = d.burgees ∧ (d.erase a n k).geo = d.geo ∧
    (d.erase a n k).indexes = d.indexes ∧ (d.erase a n k).models = d.models ∧ (d.erase a n k).model = d.model ∧
    (d.erase a n k).lastModel = d.lastModel ∧ (d.erase a n k).staged = d.staged ∧ (d.erase a n k).cmds = d.cmds ∧
    (d.erase a n k).stamp = d.stamp ∧ (d.erase a n k).lastQp = d.lastQp ∧ (d.erase a n k).ctxs = d.ctxs ∧ (d.erase a n k).scs = d.scs ∧
    (d.erase a n k).engines = d.engines ∧ (d.erase a n k).streams = d.streams ∧ (d.erase a n k).scCnt = d.scCnt ∧
    (d.erase a n k).mbs = d.mbs ∧ (d.erase a n k).devBuckets = d.devBuckets ∧ (d.erase a n k).heat = d.heat ∧
    (d.erase a n k).tiers.packages = d.tiers.packages ∧ (d.erase a n k).tiers.sites = d.tiers.sites ∧
    (d.erase a n k).tiers.disabled = d.tiers.disabled ∧ (d.erase a n k).tiers.trained = d.tiers.trained ∧
    (d.erase a n k).tiers.lFault = d.tiers.lFault ∧ (d.erase a n k).tiers.extF = d.tiers.extF ∧
    (d.erase a n k).tiers.extL = d.tiers.extL ∧ (d.erase a n k).tiers.refreshL = d.tiers.refreshL ∧
    (d.erase a n k).tiers.refreshF = d.tiers.refreshF ∧ (d.erase a n k).tiers.draws = d.tiers.draws ∧
    (d.erase a n k).tiers.chans = d.tiers.chans ∧ (d.erase a n k).jobs = d.jobs ∧ (d.erase a n k).lastJob = d.lastJob ∧
    (d.erase a n k).endedJobs = d.endedJobs ∧ (d.erase a n k).links = d.links ∧ (d.erase a n k).shoal = d.shoal ∧
    (d.erase a n k).tap = d.tap ∧ (d.erase a n k).devCnt = d.devCnt ∧ (d.erase a n k).telem = d.telem :=
  ⟨rfl, rfl, rfl, rfl, rfl, rfl, rfl, rfl, rfl, rfl, rfl, rfl, rfl, rfl, rfl, rfl, rfl, rfl, rfl, rfl, rfl, rfl, rfl, rfl, rfl, rfl, rfl, rfl, rfl, rfl, rfl, rfl, rfl, rfl, rfl, rfl, rfl, rfl, rfl, rfl, rfl, rfl, rfl, rfl, rfl, rfl, rfl, rfl, rfl, rfl, rfl, rfl, rfl, rfl, rfl, rfl, rfl, rfl, rfl⟩

end Sys2Proof.Machine
end

