-- ==== Sys2Proof/Laws/Tables.lean ====
section
/-! SUPPORT. Lookups after updates of tables and lists, and folds that keep a part of what they change. -/

namespace Sys2Proof.Machine

/-- A fold keeps what each of its steps keeps. -/
theorem foldl_keep {α β γ : Type} (P : α → γ) (f : α → β → α) (h : ∀ a b, P (f a b) = P a) (xs : List β) (a : α) :
    P (xs.foldl f a) = P a := by
  induction xs generalizing a with
  | nil => rfl
  | cons x xs ih => simp only [List.foldl_cons, ih, h]

/-- A key just set reads back. -/
@[simp] theorem tget_tset_same {α : Type} (d : α) (k : Nat) (v : α) (t : Tab α) : tget d k (tset k v t) = v := by
  induction t with
  | nil => simp [tset, tget]
  | cons p t ih =>
    obtain ⟨j, w⟩ := p
    simp only [tset]
    split
    · simp [tget]
    · split
      · simp [tget]
      · next h => simp [tget, h, ih]

/-- Every other key reads as before. -/
theorem tget_tset_other {α : Type} (d : α) (k j : Nat) (v : α) (t : Tab α) (h : j ≠ k) : tget d j (tset k v t) = tget d j t := by
  induction t with
  | nil => simp [tset, tget, Ne.symm h]
  | cons p t ih =>
    obtain ⟨i, w⟩ := p
    simp only [tset]
    split
    · simp [tget, Ne.symm h]
    · split
      · next hk => subst hk; simp [tget, Ne.symm h]
      · simp only [tget, ih]

/-- A key changed reads as the change of what it read. -/
@[simp] theorem tget_tmod_same {α : Type} (d : α) (k : Nat) (f : α → α) (t : Tab α) : tget d k (tmod d k f t) = f (tget d k t) := by
  simp [tmod]

/-- Every other key reads as before a change. -/
theorem tget_tmod_other {α : Type} (d : α) (k j : Nat) (f : α → α) (t : Tab α) (h : j ≠ k) : tget d j (tmod d k f t) = tget d j t := by
  simp [tmod, tget_tset_other _ _ _ _ _ h]

/-- A key just set is found. -/
@[simp] theorem tfind_tset_same {α : Type} (k : Nat) (v : α) (t : Tab α) : tfind k (tset k v t) = some v := by
  induction t with
  | nil => simp [tset, tfind]
  | cons p t ih =>
    obtain ⟨j, w⟩ := p
    simp only [tset]
    split
    · simp [tfind]
    · split
      · simp [tfind]
      · next h => simp [tfind, h, ih]

/-- Every other key is found as before. -/
theorem tfind_tset_other {α : Type} (k j : Nat) (v : α) (t : Tab α) (h : j ≠ k) : tfind j (tset k v t) = tfind j t := by
  induction t with
  | nil => simp [tset, tfind, Ne.symm h]
  | cons p t ih =>
    obtain ⟨i, w⟩ := p
    simp only [tset]
    split
    · simp [tfind, Ne.symm h]
    · split
      · next hk => subst hk; simp [tfind, Ne.symm h]
      · simp only [tfind, ih]

/-- A key that is found reads as what was found. -/
theorem tget_of_tfind {α : Type} (d : α) (k : Nat) (v : α) (t : Tab α) (h : tfind k t = some v) : tget d k t = v := by
  induction t with
  | nil => simp [tfind] at h
  | cons p t ih =>
    obtain ⟨j, w⟩ := p
    simp only [tfind, tget] at *
    split at h <;> simp_all

/-- A removed key is not found. -/
@[simp] theorem tfind_tdel_same {α : Type} (k : Nat) (t : Tab α) : tfind k (tdel k t) = none := by
  induction t with
  | nil => rfl
  | cons p t ih =>
    obtain ⟨j, w⟩ := p
    simp only [tdel]
    split
    · exact ih
    · next h => simp [tfind, h, ih]

/-- Every other key is found as before a removal. -/
theorem tfind_tdel_other {α : Type} (k j : Nat) (t : Tab α) (h : j ≠ k) : tfind j (tdel k t) = tfind j t := by
  induction t with
  | nil => rfl
  | cons p t ih =>
    obtain ⟨i, w⟩ := p
    simp only [tdel]
    split
    · next hk => subst hk; simp [tfind, Ne.symm h, ih]
    · simp [tfind, ih]

end Sys2Proof.Machine
end

