-- ==== Sys2Proof/Laws/Ops.lean ====
section
/-! SUPPORT. What each shared operation can change: one lemma for each, over all the fields it leaves as they were. -/

namespace Sys2Proof.Machine

/-- What modHalf leaves unchanged. -/
@[simp] theorem Device.modHalf_keeps (d : Device) (h : Nat) (g : HalfPower → HalfPower) :
    (d.modHalf h g).now = d.now ∧ (d.modHalf h g).fresh = d.fresh ∧ (d.modHalf h g).out = d.out ∧ (d.modHalf h g).mem = d.mem ∧
    (d.modHalf h g).phase = d.phase ∧ (d.modHalf h g).aon = d.aon ∧ (d.modHalf h g).power.renv = d.power.renv ∧
    (d.modHalf h g).power.rtherm = d.power.rtherm ∧ (d.modHalf h g).power.samples = d.power.samples ∧
    (d.modHalf h g).power.calm = d.power.calm ∧ (d.modHalf h g).power.cool = d.power.cool ∧ (d.modHalf h g).power.tj = d.power.tj ∧
    (d.modHalf h g).power.eff = d.power.eff ∧ (d.modHalf h g).power.sensor = d.power.sensor ∧
    (d.modHalf h g).power.tjLow = d.power.tjLow ∧ (d.modHalf h g).power.hot = d.power.hot ∧ (d.modHalf h g).power.hotF = d.power.hotF ∧
    (d.modHalf h g).power.hotL = d.power.hotL ∧ (d.modHalf h g).power.deep = d.power.deep ∧ (d.modHalf h g).ens = d.ens ∧
    (d.modHalf h g).straps = d.straps ∧ (d.modHalf h g).resets = d.resets ∧ (d.modHalf h g).degraded = d.degraded ∧
    (d.modHalf h g).profMis = d.profMis ∧ (d.modHalf h g).profUn = d.profUn ∧ (d.modHalf h g).popMis = d.popMis ∧
    (d.modHalf h g).popFault = d.popFault ∧ (d.modHalf h g).strapFault = d.strapFault ∧ (d.modHalf h g).quiesced = d.quiesced ∧
    (d.modHalf h g).fuses = d.fuses ∧ (d.modHalf h g).flash = d.flash ∧ (d.modHalf h g).mgmt = d.mgmt ∧ (d.modHalf h g).fns = d.fns ∧
    (d.modHalf h g).ports = d.ports ∧ (d.modHalf h g).sideMb = d.sideMb ∧ (d.modHalf h g).burgees = d.burgees ∧
    (d.modHalf h g).geo = d.geo ∧ (d.modHalf h g).indexes = d.indexes ∧ (d.modHalf h g).models = d.models ∧
    (d.modHalf h g).model = d.model ∧ (d.modHalf h g).lastModel = d.lastModel ∧ (d.modHalf h g).staged = d.staged ∧
    (d.modHalf h g).cmds = d.cmds ∧ (d.modHalf h g).stamp = d.stamp ∧ (d.modHalf h g).lastQp = d.lastQp ∧
    (d.modHalf h g).ctxs = d.ctxs ∧ (d.modHalf h g).scs = d.scs ∧ (d.modHalf h g).engines = d.engines ∧
    (d.modHalf h g).streams = d.streams ∧ (d.modHalf h g).scCnt = d.scCnt ∧ (d.modHalf h g).mbs = d.mbs ∧
    (d.modHalf h g).devBuckets = d.devBuckets ∧ (d.modHalf h g).heat = d.heat ∧ (d.modHalf h g).tiers = d.tiers ∧
    (d.modHalf h g).jobs = d.jobs ∧ (d.modHalf h g).lastJob = d.lastJob ∧ (d.modHalf h g).endedJobs = d.endedJobs ∧
    (d.modHalf h g).links = d.links ∧ (d.modHalf h g).shoal = d.shoal ∧ (d.modHalf h g).tap = d.tap ∧
    (d.modHalf h g).devCnt = d.devCnt ∧ (d.modHalf h g).telem = d.telem :=
  by refine ⟨?_, ?_, ?_, ?_, ?_, ?_, ?_, ?_, ?_, ?_, ?_, ?_, ?_, ?_, ?_, ?_, ?_, ?_, ?_, ?_, ?_, ?_, ?_, ?_, ?_, ?_, ?_, ?_, ?_, ?_, ?_, ?_, ?_, ?_, ?_, ?_, ?_, ?_, ?_, ?_, ?_, ?_, ?_, ?_, ?_, ?_, ?_, ?_, ?_, ?_, ?_, ?_, ?_, ?_, ?_, ?_, ?_, ?_, ?_, ?_, ?_, ?_⟩ <;> (unfold Device.modHalf; split <;> rfl)
/-- What since leaves unchanged. -/
@[simp] theorem Device.since_keeps (d : Device) (t : Option Nat) (k : Nat) :
    (d.since t k).fresh = d.fresh ∧ (d.since t k).out = d.out ∧ (d.since t k).mem = d.mem ∧ (d.since t k).phase = d.phase ∧
    (d.since t k).aon = d.aon ∧ (d.since t k).power = d.power ∧ (d.since t k).ens = d.ens ∧ (d.since t k).straps = d.straps ∧
    (d.since t k).resets = d.resets ∧ (d.since t k).degraded = d.degraded ∧ (d.since t k).profMis = d.profMis ∧
    (d.since t k).profUn = d.profUn ∧ (d.since t k).popMis = d.popMis ∧ (d.since t k).popFault = d.popFault ∧
    (d.since t k).strapFault = d.strapFault ∧ (d.since t k).quiesced = d.quiesced ∧ (d.since t k).fuses = d.fuses ∧
    (d.since t k).flash = d.flash ∧ (d.since t k).mgmt = d.mgmt ∧ (d.since t k).fns = d.fns ∧ (d.since t k).ports = d.ports ∧
    (d.since t k).sideMb = d.sideMb ∧ (d.since t k).burgees = d.burgees ∧ (d.since t k).geo = d.geo ∧
    (d.since t k).indexes = d.indexes ∧ (d.since t k).models = d.models ∧ (d.since t k).model = d.model ∧
    (d.since t k).lastModel = d.lastModel ∧ (d.since t k).staged = d.staged ∧ (d.since t k).cmds = d.cmds ∧
    (d.since t k).stamp = d.stamp ∧ (d.since t k).lastQp = d.lastQp ∧ (d.since t k).ctxs = d.ctxs ∧ (d.since t k).scs = d.scs ∧
    (d.since t k).engines = d.engines ∧ (d.since t k).streams = d.streams ∧ (d.since t k).scCnt = d.scCnt ∧ (d.since t k).mbs = d.mbs ∧
    (d.since t k).devBuckets = d.devBuckets ∧ (d.since t k).heat = d.heat ∧ (d.since t k).tiers = d.tiers ∧
    (d.since t k).jobs = d.jobs ∧ (d.since t k).lastJob = d.lastJob ∧ (d.since t k).endedJobs = d.endedJobs ∧
    (d.since t k).links = d.links ∧ (d.since t k).shoal = d.shoal ∧ (d.since t k).tap = d.tap ∧ (d.since t k).devCnt = d.devCnt ∧
    (d.since t k).telem = d.telem :=
  by refine ⟨?_, ?_, ?_, ?_, ?_, ?_, ?_, ?_, ?_, ?_, ?_, ?_, ?_, ?_, ?_, ?_, ?_, ?_, ?_, ?_, ?_, ?_, ?_, ?_, ?_, ?_, ?_, ?_, ?_, ?_, ?_, ?_, ?_, ?_, ?_, ?_, ?_, ?_, ?_, ?_, ?_, ?_, ?_, ?_, ?_, ?_, ?_, ?_, ?_⟩ <;> (cases t <;> rfl)
/-- What modFn leaves unchanged. -/
@[simp] theorem Device.modFn_keeps (d : Device) (f : Nat) (g : Fn → Fn) :
    (d.modFn f g).now = d.now ∧ (d.modFn f g).fresh = d.fresh ∧ (d.modFn f g).out = d.out ∧ (d.modFn f g).mem = d.mem ∧
    (d.modFn f g).phase = d.phase ∧ (d.modFn f g).aon = d.aon ∧ (d.modFn f g).power = d.power ∧ (d.modFn f g).ens = d.ens ∧
    (d.modFn f g).straps = d.straps ∧ (d.modFn f g).resets = d.resets ∧ (d.modFn f g).degraded = d.degraded ∧
    (d.modFn f g).profMis = d.profMis ∧ (d.modFn f g).profUn = d.profUn ∧ (d.modFn f g).popMis = d.popMis ∧
    (d.modFn f g).popFault = d.popFault ∧ (d.modFn f g).strapFault = d.strapFault ∧ (d.modFn f g).quiesced = d.quiesced ∧
    (d.modFn f g).fuses = d.fuses ∧ (d.modFn f g).flash = d.flash ∧ (d.modFn f g).mgmt = d.mgmt ∧ (d.modFn f g).ports = d.ports ∧
    (d.modFn f g).sideMb = d.sideMb ∧ (d.modFn f g).burgees = d.burgees ∧ (d.modFn f g).geo = d.geo ∧
    (d.modFn f g).indexes = d.indexes ∧ (d.modFn f g).models = d.models ∧ (d.modFn f g).model = d.model ∧
    (d.modFn f g).lastModel = d.lastModel ∧ (d.modFn f g).staged = d.staged ∧ (d.modFn f g).cmds = d.cmds ∧
    (d.modFn f g).stamp = d.stamp ∧ (d.modFn f g).lastQp = d.lastQp ∧ (d.modFn f g).ctxs = d.ctxs ∧ (d.modFn f g).scs = d.scs ∧
    (d.modFn f g).engines = d.engines ∧ (d.modFn f g).streams = d.streams ∧ (d.modFn f g).scCnt = d.scCnt ∧ (d.modFn f g).mbs = d.mbs ∧
    (d.modFn f g).devBuckets = d.devBuckets ∧ (d.modFn f g).heat = d.heat ∧ (d.modFn f g).tiers = d.tiers ∧
    (d.modFn f g).jobs = d.jobs ∧ (d.modFn f g).lastJob = d.lastJob ∧ (d.modFn f g).endedJobs = d.endedJobs ∧
    (d.modFn f g).links = d.links ∧ (d.modFn f g).shoal = d.shoal ∧ (d.modFn f g).tap = d.tap ∧ (d.modFn f g).devCnt = d.devCnt ∧
    (d.modFn f g).telem = d.telem :=
  by refine ⟨?_, ?_, ?_, ?_, ?_, ?_, ?_, ?_, ?_, ?_, ?_, ?_, ?_, ?_, ?_, ?_, ?_, ?_, ?_, ?_, ?_, ?_, ?_, ?_, ?_, ?_, ?_, ?_, ?_, ?_, ?_, ?_, ?_, ?_, ?_, ?_, ?_, ?_, ?_, ?_, ?_, ?_, ?_, ?_, ?_, ?_, ?_, ?_, ?_⟩ <;> (unfold Device.modFn; split <;> rfl)
/-- What modQp leaves unchanged. -/
@[simp] theorem Device.modQp_keeps (d : Device) (f q : Nat) (g : QueuePair → QueuePair) :
    (d.modQp f q g).now = d.now ∧ (d.modQp f q g).fresh = d.fresh ∧ (d.modQp f q g).out = d.out ∧ (d.modQp f q g).mem = d.mem ∧
    (d.modQp f q g).phase = d.phase ∧ (d.modQp f q g).aon = d.aon ∧ (d.modQp f q g).power = d.power ∧ (d.modQp f q g).ens = d.ens ∧
    (d.modQp f q g).straps = d.straps ∧ (d.modQp f q g).resets = d.resets ∧ (d.modQp f q g).degraded = d.degraded ∧
    (d.modQp f q g).profMis = d.profMis ∧ (d.modQp f q g).profUn = d.profUn ∧ (d.modQp f q g).popMis = d.popMis ∧
    (d.modQp f q g).popFault = d.popFault ∧ (d.modQp f q g).strapFault = d.strapFault ∧ (d.modQp f q g).quiesced = d.quiesced ∧
    (d.modQp f q g).fuses = d.fuses ∧ (d.modQp f q g).flash = d.flash ∧ (d.modQp f q g).mgmt = d.mgmt ∧
    (d.modQp f q g).ports = d.ports ∧ (d.modQp f q g).sideMb = d.sideMb ∧ (d.modQp f q g).burgees = d.burgees ∧
    (d.modQp f q g).geo = d.geo ∧ (d.modQp f q g).indexes = d.indexes ∧ (d.modQp f q g).models = d.models ∧
    (d.modQp f q g).model = d.model ∧ (d.modQp f q g).lastModel = d.lastModel ∧ (d.modQp f q g).staged = d.staged ∧
    (d.modQp f q g).cmds = d.cmds ∧ (d.modQp f q g).stamp = d.stamp ∧ (d.modQp f q g).lastQp = d.lastQp ∧
    (d.modQp f q g).ctxs = d.ctxs ∧ (d.modQp f q g).scs = d.scs ∧ (d.modQp f q g).engines = d.engines ∧
    (d.modQp f q g).streams = d.streams ∧ (d.modQp f q g).scCnt = d.scCnt ∧ (d.modQp f q g).mbs = d.mbs ∧
    (d.modQp f q g).devBuckets = d.devBuckets ∧ (d.modQp f q g).heat = d.heat ∧ (d.modQp f q g).tiers = d.tiers ∧
    (d.modQp f q g).jobs = d.jobs ∧ (d.modQp f q g).lastJob = d.lastJob ∧ (d.modQp f q g).endedJobs = d.endedJobs ∧
    (d.modQp f q g).links = d.links ∧ (d.modQp f q g).shoal = d.shoal ∧ (d.modQp f q g).tap = d.tap ∧
    (d.modQp f q g).devCnt = d.devCnt ∧ (d.modQp f q g).telem = d.telem :=
  by refine ⟨?_, ?_, ?_, ?_, ?_, ?_, ?_, ?_, ?_, ?_, ?_, ?_, ?_, ?_, ?_, ?_, ?_, ?_, ?_, ?_, ?_, ?_, ?_, ?_, ?_, ?_, ?_, ?_, ?_, ?_, ?_, ?_, ?_, ?_, ?_, ?_, ?_, ?_, ?_, ?_, ?_, ?_, ?_, ?_, ?_, ?_, ?_, ?_, ?_⟩ <;> (unfold Device.modQp; (try dsimp only); (repeat' split) <;> simp)
/-- What modIndex leaves unchanged. -/
@[simp] theorem Device.modIndex_keeps (d : Device) (i : Nat) (g : Index → Index) :
    (d.modIndex i g).now = d.now ∧ (d.modIndex i g).fresh = d.fresh ∧ (d.modIndex i g).out = d.out ∧ (d.modIndex i g).mem = d.mem ∧
    (d.modIndex i g).phase = d.phase ∧ (d.modIndex i g).aon = d.aon ∧ (d.modIndex i g).power = d.power ∧ (d.modIndex i g).ens = d.ens ∧
    (d.modIndex i g).straps = d.straps ∧ (d.modIndex i g).resets = d.resets ∧ (d.modIndex i g).degraded = d.degraded ∧
    (d.modIndex i g).profMis = d.profMis ∧ (d.modIndex i g).profUn = d.profUn ∧ (d.modIndex i g).popMis = d.popMis ∧
    (d.modIndex i g).popFault = d.popFault ∧ (d.modIndex i g).strapFault = d.strapFault ∧ (d.modIndex i g).quiesced = d.quiesced ∧
    (d.modIndex i g).fuses = d.fuses ∧ (d.modIndex i g).flash = d.flash ∧ (d.modIndex i g).mgmt = d.mgmt ∧
    (d.modIndex i g).fns = d.fns ∧ (d.modIndex i g).ports = d.ports ∧ (d.modIndex i g).sideMb = d.sideMb ∧
    (d.modIndex i g).burgees = d.burgees ∧ (d.modIndex i g).geo = d.geo ∧ (d.modIndex i g).models = d.models ∧
    (d.modIndex i g).model = d.model ∧ (d.modIndex i g).lastModel = d.lastModel ∧ (d.modIndex i g).staged = d.staged ∧
    (d.modIndex i g).cmds = d.cmds ∧ (d.modIndex i g).stamp = d.stamp ∧ (d.modIndex i g).lastQp = d.lastQp ∧
    (d.modIndex i g).ctxs = d.ctxs ∧ (d.modIndex i g).scs = d.scs ∧ (d.modIndex i g).engines = d.engines ∧
    (d.modIndex i g).streams = d.streams ∧ (d.modIndex i g).scCnt = d.scCnt ∧ (d.modIndex i g).mbs = d.mbs ∧
    (d.modIndex i g).devBuckets = d.devBuckets ∧ (d.modIndex i g).heat = d.heat ∧ (d.modIndex i g).tiers = d.tiers ∧
    (d.modIndex i g).jobs = d.jobs ∧ (d.modIndex i g).lastJob = d.lastJob ∧ (d.modIndex i g).endedJobs = d.endedJobs ∧
    (d.modIndex i g).links = d.links ∧ (d.modIndex i g).shoal = d.shoal ∧ (d.modIndex i g).tap = d.tap ∧
    (d.modIndex i g).devCnt = d.devCnt ∧ (d.modIndex i g).telem = d.telem :=
  by refine ⟨?_, ?_, ?_, ?_, ?_, ?_, ?_, ?_, ?_, ?_, ?_, ?_, ?_, ?_, ?_, ?_, ?_, ?_, ?_, ?_, ?_, ?_, ?_, ?_, ?_, ?_, ?_, ?_, ?_, ?_, ?_, ?_, ?_, ?_, ?_, ?_, ?_, ?_, ?_, ?_, ?_, ?_, ?_, ?_, ?_, ?_, ?_, ?_, ?_⟩ <;> (unfold Device.modIndex; split <;> rfl)
/-- What toHost leaves unchanged. -/
@[simp] theorem Device.toHost_keeps (d : Device) (f a : Nat) (r : Bool) (bs : List Byte) :
    (d.toHost f a r bs).now = d.now ∧ (d.toHost f a r bs).fresh = d.fresh ∧ (d.toHost f a r bs).mem = d.mem ∧
    (d.toHost f a r bs).phase = d.phase ∧ (d.toHost f a r bs).aon = d.aon ∧ (d.toHost f a r bs).power = d.power ∧
    (d.toHost f a r bs).ens = d.ens ∧ (d.toHost f a r bs).straps = d.straps ∧ (d.toHost f a r bs).resets = d.resets ∧
    (d.toHost f a r bs).degraded = d.degraded ∧ (d.toHost f a r bs).profMis = d.profMis ∧ (d.toHost f a r bs).profUn = d.profUn ∧
    (d.toHost f a r bs).popMis = d.popMis ∧ (d.toHost f a r bs).popFault = d.popFault ∧ (d.toHost f a r bs).strapFault = d.strapFault ∧
    (d.toHost f a r bs).quiesced = d.quiesced ∧ (d.toHost f a r bs).fuses = d.fuses ∧ (d.toHost f a r bs).flash = d.flash ∧
    (d.toHost f a r bs).mgmt = d.mgmt ∧ (d.toHost f a r bs).ports = d.ports ∧ (d.toHost f a r bs).sideMb = d.sideMb ∧
    (d.toHost f a r bs).burgees = d.burgees ∧ (d.toHost f a r bs).geo = d.geo ∧ (d.toHost f a r bs).indexes = d.indexes ∧
    (d.toHost f a r bs).models = d.models ∧ (d.toHost f a r bs).model = d.model ∧ (d.toHost f a r bs).lastModel = d.lastModel ∧
    (d.toHost f a r bs).staged = d.staged ∧ (d.toHost f a r bs).cmds = d.cmds ∧ (d.toHost f a r bs).stamp = d.stamp ∧
    (d.toHost f a r bs).lastQp = d.lastQp ∧ (d.toHost f a r bs).ctxs = d.ctxs ∧ (d.toHost f a r bs).scs = d.scs ∧
    (d.toHost f a r bs).engines = d.engines ∧ (d.toHost f a r bs).streams = d.streams ∧ (d.toHost f a r bs).scCnt = d.scCnt ∧
    (d.toHost f a r bs).mbs = d.mbs ∧ (d.toHost f a r bs).devBuckets = d.devBuckets ∧ (d.toHost f a r bs).heat = d.heat ∧
    (d.toHost f a r bs).tiers = d.tiers ∧ (d.toHost f a r bs).jobs = d.jobs ∧ (d.toHost f a r bs).lastJob = d.lastJob ∧
    (d.toHost f a r bs).endedJobs = d.endedJobs ∧ (d.toHost f a r bs).links = d.links ∧ (d.toHost f a r bs).shoal = d.shoal ∧
    (d.toHost f a r bs).tap = d.tap ∧ (d.toHost f a r bs).devCnt = d.devCnt ∧ (d.toHost f a r bs).telem = d.telem :=
  by refine ⟨?_, ?_, ?_, ?_, ?_, ?_, ?_, ?_, ?_, ?_, ?_, ?_, ?_, ?_, ?_, ?_, ?_, ?_, ?_, ?_, ?_, ?_, ?_, ?_, ?_, ?_, ?_, ?_, ?_, ?_, ?_, ?_, ?_, ?_, ?_, ?_, ?_, ?_, ?_, ?_, ?_, ?_, ?_, ?_, ?_, ?_, ?_, ?_⟩ <;> (unfold Device.toHost; (try dsimp only); (repeat' split) <;> simp)
/-- What msix leaves unchanged. -/
@[simp] theorem Device.msix_keeps (d : Device) (f v : Nat) :
    (d.msix f v).now = d.now ∧ (d.msix f v).fresh = d.fresh ∧ (d.msix f v).mem = d.mem ∧ (d.msix f v).phase = d.phase ∧
    (d.msix f v).aon = d.aon ∧ (d.msix f v).power = d.power ∧ (d.msix f v).ens = d.ens ∧ (d.msix f v).straps = d.straps ∧
    (d.msix f v).resets = d.resets ∧ (d.msix f v).degraded = d.degraded ∧ (d.msix f v).profMis = d.profMis ∧
    (d.msix f v).profUn = d.profUn ∧ (d.msix f v).popMis = d.popMis ∧ (d.msix f v).popFault = d.popFault ∧
    (d.msix f v).strapFault = d.strapFault ∧ (d.msix f v).quiesced = d.quiesced ∧ (d.msix f v).fuses = d.fuses ∧
    (d.msix f v).flash = d.flash ∧ (d.msix f v).mgmt = d.mgmt ∧ (d.msix f v).ports = d.ports ∧ (d.msix f v).sideMb = d.sideMb ∧
    (d.msix f v).burgees = d.burgees ∧ (d.msix f v).geo = d.geo ∧ (d.msix f v).indexes = d.indexes ∧ (d.msix f v).models = d.models ∧
    (d.msix f v).model = d.model ∧ (d.msix f v).lastModel = d.lastModel ∧ (d.msix f v).staged = d.staged ∧ (d.msix f v).cmds = d.cmds ∧
    (d.msix f v).stamp = d.stamp ∧ (d.msix f v).lastQp = d.lastQp ∧ (d.msix f v).ctxs = d.ctxs ∧ (d.msix f v).scs = d.scs ∧
    (d.msix f v).engines = d.engines ∧ (d.msix f v).streams = d.streams ∧ (d.msix f v).scCnt = d.scCnt ∧ (d.msix f v).mbs = d.mbs ∧
    (d.msix f v).devBuckets = d.devBuckets ∧ (d.msix f v).heat = d.heat ∧ (d.msix f v).tiers = d.tiers ∧ (d.msix f v).jobs = d.jobs ∧
    (d.msix f v).lastJob = d.lastJob ∧ (d.msix f v).endedJobs = d.endedJobs ∧ (d.msix f v).links = d.links ∧
    (d.msix f v).shoal = d.shoal ∧ (d.msix f v).tap = d.tap ∧ (d.msix f v).telem = d.telem :=
  by refine ⟨?_, ?_, ?_, ?_, ?_, ?_, ?_, ?_, ?_, ?_, ?_, ?_, ?_, ?_, ?_, ?_, ?_, ?_, ?_, ?_, ?_, ?_, ?_, ?_, ?_, ?_, ?_, ?_, ?_, ?_, ?_, ?_, ?_, ?_, ?_, ?_, ?_, ?_, ?_, ?_, ?_, ?_, ?_, ?_, ?_, ?_, ?_⟩ <;> (unfold Device.msix; (try dsimp only); (repeat' split) <;> simp)
/-- What fnEvent leaves unchanged. -/
@[simp] theorem Device.fnEvent_keeps (d : Device) (f b : Nat) :
    (d.fnEvent f b).now = d.now ∧ (d.fnEvent f b).fresh = d.fresh ∧ (d.fnEvent f b).mem = d.mem ∧ (d.fnEvent f b).phase = d.phase ∧
    (d.fnEvent f b).aon = d.aon ∧ (d.fnEvent f b).power = d.power ∧ (d.fnEvent f b).ens = d.ens ∧ (d.fnEvent f b).straps = d.straps ∧
    (d.fnEvent f b).resets = d.resets ∧ (d.fnEvent f b).degraded = d.degraded ∧ (d.fnEvent f b).profMis = d.profMis ∧
    (d.fnEvent f b).profUn = d.profUn ∧ (d.fnEvent f b).popMis = d.popMis ∧ (d.fnEvent f b).popFault = d.popFault ∧
    (d.fnEvent f b).strapFault = d.strapFault ∧ (d.fnEvent f b).quiesced = d.quiesced ∧ (d.fnEvent f b).fuses = d.fuses ∧
    (d.fnEvent f b).flash = d.flash ∧ (d.fnEvent f b).mgmt = d.mgmt ∧ (d.fnEvent f b).ports = d.ports ∧
    (d.fnEvent f b).sideMb = d.sideMb ∧ (d.fnEvent f b).burgees = d.burgees ∧ (d.fnEvent f b).geo = d.geo ∧
    (d.fnEvent f b).indexes = d.indexes ∧ (d.fnEvent f b).models = d.models ∧ (d.fnEvent f b).model = d.model ∧
    (d.fnEvent f b).lastModel = d.lastModel ∧ (d.fnEvent f b).staged = d.staged ∧ (d.fnEvent f b).cmds = d.cmds ∧
    (d.fnEvent f b).stamp = d.stamp ∧ (d.fnEvent f b).lastQp = d.lastQp ∧ (d.fnEvent f b).ctxs = d.ctxs ∧ (d.fnEvent f b).scs = d.scs ∧
    (d.fnEvent f b).engines = d.engines ∧ (d.fnEvent f b).streams = d.streams ∧ (d.fnEvent f b).scCnt = d.scCnt ∧
    (d.fnEvent f b).mbs = d.mbs ∧ (d.fnEvent f b).devBuckets = d.devBuckets ∧ (d.fnEvent f b).heat = d.heat ∧
    (d.fnEvent f b).tiers = d.tiers ∧ (d.fnEvent f b).jobs = d.jobs ∧ (d.fnEvent f b).lastJob = d.lastJob ∧
    (d.fnEvent f b).endedJobs = d.endedJobs ∧ (d.fnEvent f b).links = d.links ∧ (d.fnEvent f b).shoal = d.shoal ∧
    (d.fnEvent f b).tap = d.tap ∧ (d.fnEvent f b).telem = d.telem :=
  by refine ⟨?_, ?_, ?_, ?_, ?_, ?_, ?_, ?_, ?_, ?_, ?_, ?_, ?_, ?_, ?_, ?_, ?_, ?_, ?_, ?_, ?_, ?_, ?_, ?_, ?_, ?_, ?_, ?_, ?_, ?_, ?_, ?_, ?_, ?_, ?_, ?_, ?_, ?_, ?_, ?_, ?_, ?_, ?_, ?_, ?_, ?_, ?_⟩ <;> (unfold Device.fnEvent; (try dsimp only); (repeat' split) <;> simp)
/-- What modMbox leaves unchanged. -/
@[simp] theorem Device.modMbox_keeps (d : Device) (m : Nat) (g : Mailbox → Mailbox) :
    (d.modMbox m g).now = d.now ∧ (d.modMbox m g).fresh = d.fresh ∧ (d.modMbox m g).out = d.out ∧ (d.modMbox m g).mem = d.mem ∧
    (d.modMbox m g).phase = d.phase ∧ (d.modMbox m g).aon = d.aon ∧ (d.modMbox m g).power = d.power ∧ (d.modMbox m g).ens = d.ens ∧
    (d.modMbox m g).straps = d.straps ∧ (d.modMbox m g).resets = d.resets ∧ (d.modMbox m g).degraded = d.degraded ∧
    (d.modMbox m g).profMis = d.profMis ∧ (d.modMbox m g).profUn = d.profUn ∧ (d.modMbox m g).popMis = d.popMis ∧
    (d.modMbox m g).popFault = d.popFault ∧ (d.modMbox m g).strapFault = d.strapFault ∧ (d.modMbox m g).quiesced = d.quiesced ∧
    (d.modMbox m g).fuses = d.fuses ∧ (d.modMbox m g).flash = d.flash ∧ (d.modMbox m g).mgmt = d.mgmt ∧
    (d.modMbox m g).ports = d.ports ∧ (d.modMbox m g).burgees = d.burgees ∧ (d.modMbox m g).geo = d.geo ∧
    (d.modMbox m g).indexes = d.indexes ∧ (d.modMbox m g).models = d.models ∧ (d.modMbox m g).model = d.model ∧
    (d.modMbox m g).lastModel = d.lastModel ∧ (d.modMbox m g).staged = d.staged ∧ (d.modMbox m g).cmds = d.cmds ∧
    (d.modMbox m g).stamp = d.stamp ∧ (d.modMbox m g).lastQp = d.lastQp ∧ (d.modMbox m g).ctxs = d.ctxs ∧ (d.modMbox m g).scs = d.scs ∧
    (d.modMbox m g).engines = d.engines ∧ (d.modMbox m g).streams = d.streams ∧ (d.modMbox m g).scCnt = d.scCnt ∧
    (d.modMbox m g).mbs = d.mbs ∧ (d.modMbox m g).devBuckets = d.devBuckets ∧ (d.modMbox m g).heat = d.heat ∧
    (d.modMbox m g).tiers = d.tiers ∧ (d.modMbox m g).jobs = d.jobs ∧ (d.modMbox m g).lastJob = d.lastJob ∧
    (d.modMbox m g).endedJobs = d.endedJobs ∧ (d.modMbox m g).links = d.links ∧ (d.modMbox m g).shoal = d.shoal ∧
    (d.modMbox m g).tap = d.tap ∧ (d.modMbox m g).devCnt = d.devCnt ∧ (d.modMbox m g).telem = d.telem :=
  by refine ⟨?_, ?_, ?_, ?_, ?_, ?_, ?_, ?_, ?_, ?_, ?_, ?_, ?_, ?_, ?_, ?_, ?_, ?_, ?_, ?_, ?_, ?_, ?_, ?_, ?_, ?_, ?_, ?_, ?_, ?_, ?_, ?_, ?_, ?_, ?_, ?_, ?_, ?_, ?_, ?_, ?_, ?_, ?_, ?_, ?_, ?_, ?_, ?_⟩ <;> (unfold Device.modMbox; (try dsimp only); (repeat' split) <;> simp)
/-- What respondWith leaves unchanged. -/
@[simp] theorem Device.respondWith_keeps (d : Device) (m s a b c r : Nat) (o : List Byte) :
    (d.respondWith m s a b c r o).now = d.now ∧ (d.respondWith m s a b c r o).fresh = d.fresh ∧
    (d.respondWith m s a b c r o).mem = d.mem ∧ (d.respondWith m s a b c r o).phase = d.phase ∧
    (d.respondWith m s a b c r o).aon = d.aon ∧ (d.respondWith m s a b c r o).power = d.power ∧
    (d.respondWith m s a b c r o).ens = d.ens ∧ (d.respondWith m s a b c r o).straps = d.straps ∧
    (d.respondWith m s a b c r o).resets = d.resets ∧ (d.respondWith m s a b c r o).degraded = d.degraded ∧
    (d.respondWith m s a b c r o).profMis = d.profMis ∧ (d.respondWith m s a b c r o).profUn = d.profUn ∧
    (d.respondWith m s a b c r o).popMis = d.popMis ∧ (d.respondWith m s a b c r o).popFault = d.popFault ∧
    (d.respondWith m s a b c r o).strapFault = d.strapFault ∧ (d.respondWith m s a b c r o).quiesced = d.quiesced ∧
    (d.respondWith m s a b c r o).fuses = d.fuses ∧ (d.respondWith m s a b c r o).flash = d.flash ∧
    (d.respondWith m s a b c r o).mgmt.feat = d.mgmt.feat ∧ (d.respondWith m s a b c r o).mgmt.test = d.mgmt.test ∧
    (d.respondWith m s a b c r o).mgmt.sec = d.mgmt.sec ∧ (d.respondWith m s a b c r o).mgmt.slot = d.mgmt.slot ∧
    (d.respondWith m s a b c r o).mgmt.bootAt = d.mgmt.bootAt ∧ (d.respondWith m s a b c r o).mgmt.nextMb = d.mgmt.nextMb ∧
    (d.respondWith m s a b c r o).mgmt.started = d.mgmt.started ∧ (d.respondWith m s a b c r o).mgmt.geoWrite = d.mgmt.geoWrite ∧
    (d.respondWith m s a b c r o).ports = d.ports ∧ (d.respondWith m s a b c r o).burgees = d.burgees ∧
    (d.respondWith m s a b c r o).geo = d.geo ∧ (d.respondWith m s a b c r o).indexes = d.indexes ∧
    (d.respondWith m s a b c r o).models = d.models ∧ (d.respondWith m s a b c r o).model = d.model ∧
    (d.respondWith m s a b c r o).lastModel = d.lastModel ∧ (d.respondWith m s a b c r o).staged = d.staged ∧
    (d.respondWith m s a b c r o).cmds = d.cmds ∧ (d.respondWith m s a b c r o).stamp = d.stamp ∧
    (d.respondWith m s a b c r o).lastQp = d.lastQp ∧ (d.respondWith m s a b c r o).ctxs = d.ctxs ∧
    (d.respondWith m s a b c r o).scs = d.scs ∧ (d.respondWith m s a b c r o).engines = d.engines ∧
    (d.respondWith m s a b c r o).streams = d.streams ∧ (d.respondWith m s a b c r o).scCnt = d.scCnt ∧
    (d.respondWith m s a b c r o).mbs = d.mbs ∧ (d.respondWith m s a b c r o).devBuckets = d.devBuckets ∧
    (d.respondWith m s a b c r o).heat = d.heat ∧ (d.respondWith m s a b c r o).tiers = d.tiers ∧
    (d.respondWith m s a b c r o).jobs = d.jobs ∧ (d.respondWith m s a b c r o).lastJob = d.lastJob ∧
    (d.respondWith m s a b c r o).endedJobs = d.endedJobs ∧ (d.respondWith m s a b c r o).links = d.links ∧
    (d.respondWith m s a b c r o).shoal = d.shoal ∧ (d.respondWith m s a b c r o).tap = d.tap ∧
    (d.respondWith m s a b c r o).telem = d.telem :=
  by refine ⟨?_, ?_, ?_, ?_, ?_, ?_, ?_, ?_, ?_, ?_, ?_, ?_, ?_, ?_, ?_, ?_, ?_, ?_, ?_, ?_, ?_, ?_, ?_, ?_, ?_, ?_, ?_, ?_, ?_, ?_, ?_, ?_, ?_, ?_, ?_, ?_, ?_, ?_, ?_, ?_, ?_, ?_, ?_, ?_, ?_, ?_, ?_, ?_, ?_, ?_, ?_, ?_, ?_⟩ <;> (unfold Device.respondWith; (try dsimp only); (repeat' split) <;> simp <;> (repeat' split) <;> simp)
/-- What respond leaves unchanged. -/
@[simp] theorem Device.respond_keeps (d : Device) (m s a b c r : Nat) :
    (d.respond m s a b c r).now = d.now ∧ (d.respond m s a b c r).fresh = d.fresh ∧ (d.respond m s a b c r).mem = d.mem ∧
    (d.respond m s a b c r).phase = d.phase ∧ (d.respond m s a b c r).aon = d.aon ∧ (d.respond m s a b c r).power = d.power ∧
    (d.respond m s a b c r).ens = d.ens ∧ (d.respond m s a b c r).straps = d.straps ∧ (d.respond m s a b c r).resets = d.resets ∧
    (d.respond m s a b c r).degraded = d.degraded ∧ (d.respond m s a b c r).profMis = d.profMis ∧
    (d.respond m s a b c r).profUn = d.profUn ∧ (d.respond m s a b c r).popMis = d.popMis ∧
    (d.respond m s a b c r).popFault = d.popFault ∧ (d.respond m s a b c r).strapFault = d.strapFault ∧
    (d.respond m s a b c r).quiesced = d.quiesced ∧ (d.respond m s a b c r).fuses = d.fuses ∧ (d.respond m s a b c r).flash = d.flash ∧
    (d.respond m s a b c r).mgmt.feat = d.mgmt.feat ∧ (d.respond m s a b c r).mgmt.test = d.mgmt.test ∧
    (d.respond m s a b c r).mgmt.sec = d.mgmt.sec ∧ (d.respond m s a b c r).mgmt.slot = d.mgmt.slot ∧
    (d.respond m s a b c r).mgmt.bootAt = d.mgmt.bootAt ∧ (d.respond m s a b c r).mgmt.nextMb = d.mgmt.nextMb ∧
    (d.respond m s a b c r).mgmt.started = d.mgmt.started ∧ (d.respond m s a b c r).mgmt.geoWrite = d.mgmt.geoWrite ∧
    (d.respond m s a b c r).ports = d.ports ∧ (d.respond m s a b c r).burgees = d.burgees ∧ (d.respond m s a b c r).geo = d.geo ∧
    (d.respond m s a b c r).indexes = d.indexes ∧ (d.respond m s a b c r).models = d.models ∧ (d.respond m s a b c r).model = d.model ∧
    (d.respond m s a b c r).lastModel = d.lastModel ∧ (d.respond m s a b c r).staged = d.staged ∧
    (d.respond m s a b c r).cmds = d.cmds ∧ (d.respond m s a b c r).stamp = d.stamp ∧ (d.respond m s a b c r).lastQp = d.lastQp ∧
    (d.respond m s a b c r).ctxs = d.ctxs ∧ (d.respond m s a b c r).scs = d.scs ∧ (d.respond m s a b c r).engines = d.engines ∧
    (d.respond m s a b c r).streams = d.streams ∧ (d.respond m s a b c r).scCnt = d.scCnt ∧ (d.respond m s a b c r).mbs = d.mbs ∧
    (d.respond m s a b c r).devBuckets = d.devBuckets ∧ (d.respond m s a b c r).heat = d.heat ∧
    (d.respond m s a b c r).tiers = d.tiers ∧ (d.respond m s a b c r).jobs = d.jobs ∧ (d.respond m s a b c r).lastJob = d.lastJob ∧
    (d.respond m s a b c r).endedJobs = d.endedJobs ∧ (d.respond m s a b c r).links = d.links ∧
    (d.respond m s a b c r).shoal = d.shoal ∧ (d.respond m s a b c r).tap = d.tap ∧ (d.respond m s a b c r).telem = d.telem :=
  by refine ⟨?_, ?_, ?_, ?_, ?_, ?_, ?_, ?_, ?_, ?_, ?_, ?_, ?_, ?_, ?_, ?_, ?_, ?_, ?_, ?_, ?_, ?_, ?_, ?_, ?_, ?_, ?_, ?_, ?_, ?_, ?_, ?_, ?_, ?_, ?_, ?_, ?_, ?_, ?_, ?_, ?_, ?_, ?_, ?_, ?_, ?_, ?_, ?_, ?_, ?_, ?_, ?_, ?_⟩ <;> (unfold Device.respond; simp)
/-- What eventTo leaves unchanged. -/
@[simp] theorem Device.eventTo_keeps (d : Device) (e : Event) (m : Nat) :
    (d.eventTo e m).now = d.now ∧ (d.eventTo e m).fresh = d.fresh ∧ (d.eventTo e m).mem = d.mem ∧ (d.eventTo e m).phase = d.phase ∧
    (d.eventTo e m).aon.vaux = d.aon.vaux ∧ (d.eventTo e m).aon.sysPwrok = d.aon.sysPwrok ∧
    (d.eventTo e m).aon.memrefOk = d.aon.memrefOk ∧ (d.eventTo e m).aon.railHold = d.aon.railHold ∧
    (d.eventTo e m).aon.testMode = d.aon.testMode ∧ (d.eventTo e m).aon.trip = d.aon.trip ∧
    (d.eventTo e m).aon.smbAddr = d.aon.smbAddr ∧ (d.eventTo e m).aon.coldCount = d.aon.coldCount ∧
    (d.eventTo e m).aon.causeRail = d.aon.causeRail ∧ (d.eventTo e m).aon.cause = d.aon.cause ∧
    (d.eventTo e m).aon.faults = d.aon.faults ∧ (d.eventTo e m).aon.faultSeq = d.aon.faultSeq ∧
    (d.eventTo e m).aon.railMv = d.aon.railMv ∧ (d.eventTo e m).aon.vioOut = d.aon.vioOut ∧
    (d.eventTo e m).aon.vfuseOut = d.aon.vfuseOut ∧ (d.eventTo e m).aon.alertMask = d.aon.alertMask ∧
    (d.eventTo e m).aon.bo = d.aon.bo ∧ (d.eventTo e m).aon.araAnswers = d.aon.araAnswers ∧ (d.eventTo e m).power = d.power ∧
    (d.eventTo e m).ens = d.ens ∧ (d.eventTo e m).straps = d.straps ∧ (d.eventTo e m).resets = d.resets ∧
    (d.eventTo e m).degraded = d.degraded ∧ (d.eventTo e m).profMis = d.profMis ∧ (d.eventTo e m).profUn = d.profUn ∧
    (d.eventTo e m).popMis = d.popMis ∧ (d.eventTo e m).popFault = d.popFault ∧ (d.eventTo e m).strapFault = d.strapFault ∧
    (d.eventTo e m).quiesced = d.quiesced ∧ (d.eventTo e m).fuses = d.fuses ∧ (d.eventTo e m).flash = d.flash ∧
    (d.eventTo e m).mgmt.feat = d.mgmt.feat ∧ (d.eventTo e m).mgmt.test = d.mgmt.test ∧ (d.eventTo e m).mgmt.sec = d.mgmt.sec ∧
    (d.eventTo e m).mgmt.slot = d.mgmt.slot ∧ (d.eventTo e m).mgmt.bootAt = d.mgmt.bootAt ∧
    (d.eventTo e m).mgmt.nextMb = d.mgmt.nextMb ∧ (d.eventTo e m).mgmt.started = d.mgmt.started ∧
    (d.eventTo e m).mgmt.geoWrite = d.mgmt.geoWrite ∧ (d.eventTo e m).ports = d.ports ∧ (d.eventTo e m).burgees = d.burgees ∧
    (d.eventTo e m).geo = d.geo ∧ (d.eventTo e m).indexes = d.indexes ∧ (d.eventTo e m).models = d.models ∧
    (d.eventTo e m).model = d.model ∧ (d.eventTo e m).lastModel = d.lastModel ∧ (d.eventTo e m).staged = d.staged ∧
    (d.eventTo e m).cmds = d.cmds ∧ (d.eventTo e m).stamp = d.stamp ∧ (d.eventTo e m).lastQp = d.lastQp ∧
    (d.eventTo e m).ctxs = d.ctxs ∧ (d.eventTo e m).scs = d.scs ∧ (d.eventTo e m).engines = d.engines ∧
    (d.eventTo e m).streams = d.streams ∧ (d.eventTo e m).scCnt = d.scCnt ∧ (d.eventTo e m).mbs = d.mbs ∧
    (d.eventTo e m).devBuckets = d.devBuckets ∧ (d.eventTo e m).heat = d.heat ∧ (d.eventTo e m).tiers = d.tiers ∧
    (d.eventTo e m).jobs = d.jobs ∧ (d.eventTo e m).lastJob = d.lastJob ∧ (d.eventTo e m).endedJobs = d.endedJobs ∧
    (d.eventTo e m).links = d.links ∧ (d.eventTo e m).shoal = d.shoal ∧ (d.eventTo e m).tap = d.tap ∧ (d.eventTo e m).telem = d.telem :=
  by refine ⟨?_, ?_, ?_, ?_, ?_, ?_, ?_, ?_, ?_, ?_, ?_, ?_, ?_, ?_, ?_, ?_, ?_, ?_, ?_, ?_, ?_, ?_, ?_, ?_, ?_, ?_, ?_, ?_, ?_, ?_, ?_, ?_, ?_, ?_, ?_, ?_, ?_, ?_, ?_, ?_, ?_, ?_, ?_, ?_, ?_, ?_, ?_, ?_, ?_, ?_, ?_, ?_, ?_, ?_, ?_, ?_, ?_, ?_, ?_, ?_, ?_, ?_, ?_, ?_, ?_, ?_, ?_, ?_, ?_, ?_⟩ <;> (unfold Device.eventTo; (try dsimp only); (repeat' split) <;> simp)
/-- What raise leaves unchanged. -/
@[simp] theorem Device.raise_keeps (d : Device) (e : Event) :
    (d.raise e).now = d.now ∧ (d.raise e).fresh = d.fresh ∧ (d.raise e).mem = d.mem ∧ (d.raise e).phase = d.phase ∧
    (d.raise e).aon.vaux = d.aon.vaux ∧ (d.raise e).aon.sysPwrok = d.aon.sysPwrok ∧ (d.raise e).aon.memrefOk = d.aon.memrefOk ∧
    (d.raise e).aon.railHold = d.aon.railHold ∧ (d.raise e).aon.testMode = d.aon.testMode ∧ (d.raise e).aon.trip = d.aon.trip ∧
    (d.raise e).aon.smbAddr = d.aon.smbAddr ∧ (d.raise e).aon.coldCount = d.aon.coldCount ∧
    (d.raise e).aon.causeRail = d.aon.causeRail ∧ (d.raise e).aon.cause = d.aon.cause ∧ (d.raise e).aon.faults = d.aon.faults ∧
    (d.raise e).aon.faultSeq = d.aon.faultSeq ∧ (d.raise e).aon.railMv = d.aon.railMv ∧ (d.raise e).aon.vioOut = d.aon.vioOut ∧
    (d.raise e).aon.vfuseOut = d.aon.vfuseOut ∧ (d.raise e).aon.alertMask = d.aon.alertMask ∧ (d.raise e).aon.bo = d.aon.bo ∧
    (d.raise e).aon.araAnswers = d.aon.araAnswers ∧ (d.raise e).power = d.power ∧ (d.raise e).ens = d.ens ∧
    (d.raise e).straps = d.straps ∧ (d.raise e).resets = d.resets ∧ (d.raise e).degraded = d.degraded ∧
    (d.raise e).profMis = d.profMis ∧ (d.raise e).profUn = d.profUn ∧ (d.raise e).popMis = d.popMis ∧
    (d.raise e).popFault = d.popFault ∧ (d.raise e).strapFault = d.strapFault ∧ (d.raise e).quiesced = d.quiesced ∧
    (d.raise e).fuses = d.fuses ∧ (d.raise e).flash = d.flash ∧ (d.raise e).mgmt.feat = d.mgmt.feat ∧
    (d.raise e).mgmt.test = d.mgmt.test ∧ (d.raise e).mgmt.sec = d.mgmt.sec ∧ (d.raise e).mgmt.slot = d.mgmt.slot ∧
    (d.raise e).mgmt.bootAt = d.mgmt.bootAt ∧ (d.raise e).mgmt.nextMb = d.mgmt.nextMb ∧ (d.raise e).mgmt.started = d.mgmt.started ∧
    (d.raise e).mgmt.geoWrite = d.mgmt.geoWrite ∧ (d.raise e).ports = d.ports ∧ (d.raise e).burgees = d.burgees ∧
    (d.raise e).geo = d.geo ∧ (d.raise e).indexes = d.indexes ∧ (d.raise e).models = d.models ∧ (d.raise e).model = d.model ∧
    (d.raise e).lastModel = d.lastModel ∧ (d.raise e).staged = d.staged ∧ (d.raise e).cmds = d.cmds ∧ (d.raise e).stamp = d.stamp ∧
    (d.raise e).lastQp = d.lastQp ∧ (d.raise e).ctxs = d.ctxs ∧ (d.raise e).scs = d.scs ∧ (d.raise e).engines = d.engines ∧
    (d.raise e).streams = d.streams ∧ (d.raise e).scCnt = d.scCnt ∧ (d.raise e).mbs = d.mbs ∧ (d.raise e).devBuckets = d.devBuckets ∧
    (d.raise e).heat = d.heat ∧ (d.raise e).tiers = d.tiers ∧ (d.raise e).jobs = d.jobs ∧ (d.raise e).lastJob = d.lastJob ∧
    (d.raise e).endedJobs = d.endedJobs ∧ (d.raise e).links = d.links ∧ (d.raise e).shoal = d.shoal ∧ (d.raise e).tap = d.tap ∧
    (d.raise e).telem = d.telem :=
  by refine ⟨foldl_keep (fun (d : Device) => d.now) _ (fun d x => by simp) _ _, foldl_keep (fun (d : Device) => d.fresh) _ (fun d x => by simp) _ _, foldl_keep (fun (d : Device) => d.mem) _ (fun d x => by simp) _ _, foldl_keep (fun (d : Device) => d.phase) _ (fun d x => by simp) _ _, foldl_keep (fun (d : Device) => d.aon.vaux) _ (fun d x => by simp) _ _, foldl_keep (fun (d : Device) => d.aon.sysPwrok) _ (fun d x => by simp) _ _, foldl_keep (fun (d : Device) => d.aon.memrefOk) _ (fun d x => by simp) _ _, foldl_keep (fun (d : Device) => d.aon.railHold) _ (fun d x => by simp) _ _, foldl_keep (fun (d : Device) => d.aon.testMode) _ (fun d x => by simp) _ _, foldl_keep (fun (d : Device) => d.aon.trip) _ (fun d x => by simp) _ _, foldl_keep (fun (d : Device) => d.aon.smbAddr) _ (fun d x => by simp) _ _, foldl_keep (fun (d : Device) => d.aon.coldCount) _ (fun d x => by simp) _ _, foldl_keep (fun (d : Device) => d.aon.causeRail) _ (fun d x => by simp) _ _, foldl_keep (fun (d : Device) => d.aon.cause) _ (fun d x => by simp) _ _, foldl_keep (fun (d : Device) => d.aon.faults) _ (fun d x => by simp) _ _, foldl_keep (fun (d : Device) => d.aon.faultSeq) _ (fun d x => by simp) _ _, foldl_keep (fun (d : Device) => d.aon.railMv) _ (fun d x => by simp) _ _, foldl_keep (fun (d : Device) => d.aon.vioOut) _ (fun d x => by simp) _ _, foldl_keep (fun (d : Device) => d.aon.vfuseOut) _ (fun d x => by simp) _ _, foldl_keep (fun (d : Device) => d.aon.alertMask) _ (fun d x => by simp) _ _, foldl_keep (fun (d : Device) => d.aon.bo) _ (fun d x => by simp) _ _, foldl_keep (fun (d : Device) => d.aon.araAnswers) _ (fun d x => by simp) _ _, foldl_keep (fun (d : Device) => d.power) _ (fun d x => by simp) _ _, foldl_keep (fun (d : Device) => d.ens) _ (fun d x => by simp) _ _, foldl_keep (fun (d : Device) => d.straps) _ (fun d x => by simp) _ _, foldl_keep (fun (d : Device) => d.resets) _ (fun d x => by simp) _ _, foldl_keep (fun (d : Device) => d.degraded) _ (fun d x => by simp) _ _, foldl_keep (fun (d : Device) => d.profMis) _ (fun d x => by simp) _ _, foldl_keep (fun (d : Device) => d.profUn) _ (fun d x => by simp) _ _, foldl_keep (fun (d : Device) => d.popMis) _ (fun d x => by simp) _ _, foldl_keep (fun (d : Device) => d.popFault) _ (fun d x => by simp) _ _, foldl_keep (fun (d : Device) => d.strapFault) _ (fun d x => by simp) _ _, foldl_keep (fun (d : Device) => d.quiesced) _ (fun d x => by simp) _ _, foldl_keep (fun (d : Device) => d.fuses) _ (fun d x => by simp) _ _, foldl_keep (fun (d : Device) => d.flash) _ (fun d x => by simp) _ _, foldl_keep (fun (d : Device) => d.mgmt.feat) _ (fun d x => by simp) _ _, foldl_keep (fun (d : Device) => d.mgmt.test) _ (fun d x => by simp) _ _, foldl_keep (fun (d : Device) => d.mgmt.sec) _ (fun d x => by simp) _ _, foldl_keep (fun (d : Device) => d.mgmt.slot) _ (fun d x => by simp) _ _, foldl_keep (fun (d : Device) => d.mgmt.bootAt) _ (fun d x => by simp) _ _, foldl_keep (fun (d : Device) => d.mgmt.nextMb) _ (fun d x => by simp) _ _, foldl_keep (fun (d : Device) => d.mgmt.started) _ (fun d x => by simp) _ _, foldl_keep (fun (d : Device) => d.mgmt.geoWrite) _ (fun d x => by simp) _ _, foldl_keep (fun (d : Device) => d.ports) _ (fun d x => by simp) _ _, foldl_keep (fun (d : Device) => d.burgees) _ (fun d x => by simp) _ _, foldl_keep (fun (d : Device) => d.geo) _ (fun d x => by simp) _ _, foldl_keep (fun (d : Device) => d.indexes) _ (fun d x => by simp) _ _, foldl_keep (fun (d : Device) => d.models) _ (fun d x => by simp) _ _, foldl_keep (fun (d : Device) => d.model) _ (fun d x => by simp) _ _, foldl_keep (fun (d : Device) => d.lastModel) _ (fun d x => by simp) _ _, foldl_keep (fun (d : Device) => d.staged) _ (fun d x => by simp) _ _, foldl_keep (fun (d : Device) => d.cmds) _ (fun d x => by simp) _ _, foldl_keep (fun (d : Device) => d.stamp) _ (fun d x => by simp) _ _, foldl_keep (fun (d : Device) => d.lastQp) _ (fun d x => by simp) _ _, foldl_keep (fun (d : Device) => d.ctxs) _ (fun d x => by simp) _ _, foldl_keep (fun (d : Device) => d.scs) _ (fun d x => by simp) _ _, foldl_keep (fun (d : Device) => d.engines) _ (fun d x => by simp) _ _, foldl_keep (fun (d : Device) => d.streams) _ (fun d x => by simp) _ _, foldl_keep (fun (d : Device) => d.scCnt) _ (fun d x => by simp) _ _, foldl_keep (fun (d : Device) => d.mbs) _ (fun d x => by simp) _ _, foldl_keep (fun (d : Device) => d.devBuckets) _ (fun d x => by simp) _ _, foldl_keep (fun (d : Device) => d.heat) _ (fun d x => by simp) _ _, foldl_keep (fun (d : Device) => d.tiers) _ (fun d x => by simp) _ _, foldl_keep (fun (d : Device) => d.jobs) _ (fun d x => by simp) _ _, foldl_keep (fun (d : Device) => d.lastJob) _ (fun d x => by simp) _ _, foldl_keep (fun (d : Device) => d.endedJobs) _ (fun d x => by simp) _ _, foldl_keep (fun (d : Device) => d.links) _ (fun d x => by simp) _ _, foldl_keep (fun (d : Device) => d.shoal) _ (fun d x => by simp) _ _, foldl_keep (fun (d : Device) => d.tap) _ (fun d x => by simp) _ _, foldl_keep (fun (d : Device) => d.telem) _ (fun d x => by simp) _ _⟩
/-- What raiseDev leaves unchanged. -/
@[simp] theorem Device.raiseDev_keeps (d : Device) (t i : Nat) :
    (d.raiseDev t i).now = d.now ∧ (d.raiseDev t i).fresh = d.fresh ∧ (d.raiseDev t i).mem = d.mem ∧ (d.raiseDev t i).phase = d.phase ∧
    (d.raiseDev t i).aon.vaux = d.aon.vaux ∧ (d.raiseDev t i).aon.sysPwrok = d.aon.sysPwrok ∧
    (d.raiseDev t i).aon.memrefOk = d.aon.memrefOk ∧ (d.raiseDev t i).aon.railHold = d.aon.railHold ∧
    (d.raiseDev t i).aon.testMode = d.aon.testMode ∧ (d.raiseDev t i).aon.trip = d.aon.trip ∧
    (d.raiseDev t i).aon.smbAddr = d.aon.smbAddr ∧ (d.raiseDev t i).aon.coldCount = d.aon.coldCount ∧
    (d.raiseDev t i).aon.causeRail = d.aon.causeRail ∧ (d.raiseDev t i).aon.cause = d.aon.cause ∧
    (d.raiseDev t i).aon.faults = d.aon.faults ∧ (d.raiseDev t i).aon.faultSeq = d.aon.faultSeq ∧
    (d.raiseDev t i).aon.railMv = d.aon.railMv ∧ (d.raiseDev t i).aon.vioOut = d.aon.vioOut ∧
    (d.raiseDev t i).aon.vfuseOut = d.aon.vfuseOut ∧ (d.raiseDev t i).aon.alertMask = d.aon.alertMask ∧
    (d.raiseDev t i).aon.bo = d.aon.bo ∧ (d.raiseDev t i).aon.araAnswers = d.aon.araAnswers ∧ (d.raiseDev t i).power = d.power ∧
    (d.raiseDev t i).ens = d.ens ∧ (d.raiseDev t i).straps = d.straps ∧ (d.raiseDev t i).resets = d.resets ∧
    (d.raiseDev t i).degraded = d.degraded ∧ (d.raiseDev t i).profMis = d.profMis ∧ (d.raiseDev t i).profUn = d.profUn ∧
    (d.raiseDev t i).popMis = d.popMis ∧ (d.raiseDev t i).popFault = d.popFault ∧ (d.raiseDev t i).strapFault = d.strapFault ∧
    (d.raiseDev t i).quiesced = d.quiesced ∧ (d.raiseDev t i).fuses = d.fuses ∧ (d.raiseDev t i).flash = d.flash ∧
    (d.raiseDev t i).mgmt.feat = d.mgmt.feat ∧ (d.raiseDev t i).mgmt.test = d.mgmt.test ∧ (d.raiseDev t i).mgmt.sec = d.mgmt.sec ∧
    (d.raiseDev t i).mgmt.slot = d.mgmt.slot ∧ (d.raiseDev t i).mgmt.bootAt = d.mgmt.bootAt ∧
    (d.raiseDev t i).mgmt.nextMb = d.mgmt.nextMb ∧ (d.raiseDev t i).mgmt.started = d.mgmt.started ∧
    (d.raiseDev t i).mgmt.geoWrite = d.mgmt.geoWrite ∧ (d.raiseDev t i).ports = d.ports ∧ (d.raiseDev t i).burgees = d.burgees ∧
    (d.raiseDev t i).geo = d.geo ∧ (d.raiseDev t i).indexes = d.indexes ∧ (d.raiseDev t i).models = d.models ∧
    (d.raiseDev t i).model = d.model ∧ (d.raiseDev t i).lastModel = d.lastModel ∧ (d.raiseDev t i).staged = d.staged ∧
    (d.raiseDev t i).cmds = d.cmds ∧ (d.raiseDev t i).stamp = d.stamp ∧ (d.raiseDev t i).lastQp = d.lastQp ∧
    (d.raiseDev t i).ctxs = d.ctxs ∧ (d.raiseDev t i).scs = d.scs ∧ (d.raiseDev t i).engines = d.engines ∧
    (d.raiseDev t i).streams = d.streams ∧ (d.raiseDev t i).scCnt = d.scCnt ∧ (d.raiseDev t i).mbs = d.mbs ∧
    (d.raiseDev t i).devBuckets = d.devBuckets ∧ (d.raiseDev t i).heat = d.heat ∧ (d.raiseDev t i).tiers = d.tiers ∧
    (d.raiseDev t i).jobs = d.jobs ∧ (d.raiseDev t i).lastJob = d.lastJob ∧ (d.raiseDev t i).endedJobs = d.endedJobs ∧
    (d.raiseDev t i).links = d.links ∧ (d.raiseDev t i).shoal = d.shoal ∧ (d.raiseDev t i).tap = d.tap ∧
    (d.raiseDev t i).telem = d.telem :=
  by refine ⟨?_, ?_, ?_, ?_, ?_, ?_, ?_, ?_, ?_, ?_, ?_, ?_, ?_, ?_, ?_, ?_, ?_, ?_, ?_, ?_, ?_, ?_, ?_, ?_, ?_, ?_, ?_, ?_, ?_, ?_, ?_, ?_, ?_, ?_, ?_, ?_, ?_, ?_, ?_, ?_, ?_, ?_, ?_, ?_, ?_, ?_, ?_, ?_, ?_, ?_, ?_, ?_, ?_, ?_, ?_, ?_, ?_, ?_, ?_, ?_, ?_, ?_, ?_, ?_, ?_, ?_, ?_, ?_, ?_, ?_⟩ <;> (unfold Device.raiseDev; simp)
/-- What raiseBrg leaves unchanged. -/
@[simp] theorem Device.raiseBrg_keeps (d : Device) (b t i : Nat) :
    (d.raiseBrg b t i).now = d.now ∧ (d.raiseBrg b t i).fresh = d.fresh ∧ (d.raiseBrg b t i).mem = d.mem ∧
    (d.raiseBrg b t i).phase = d.phase ∧ (d.raiseBrg b t i).aon.vaux = d.aon.vaux ∧ (d.raiseBrg b t i).aon.sysPwrok = d.aon.sysPwrok ∧
    (d.raiseBrg b t i).aon.memrefOk = d.aon.memrefOk ∧ (d.raiseBrg b t i).aon.railHold = d.aon.railHold ∧
    (d.raiseBrg b t i).aon.testMode = d.aon.testMode ∧ (d.raiseBrg b t i).aon.trip = d.aon.trip ∧
    (d.raiseBrg b t i).aon.smbAddr = d.aon.smbAddr ∧ (d.raiseBrg b t i).aon.coldCount = d.aon.coldCount ∧
    (d.raiseBrg b t i).aon.causeRail = d.aon.causeRail ∧ (d.raiseBrg b t i).aon.cause = d.aon.cause ∧
    (d.raiseBrg b t i).aon.faults = d.aon.faults ∧ (d.raiseBrg b t i).aon.faultSeq = d.aon.faultSeq ∧
    (d.raiseBrg b t i).aon.railMv = d.aon.railMv ∧ (d.raiseBrg b t i).aon.vioOut = d.aon.vioOut ∧
    (d.raiseBrg b t i).aon.vfuseOut = d.aon.vfuseOut ∧ (d.raiseBrg b t i).aon.alertMask = d.aon.alertMask ∧
    (d.raiseBrg b t i).aon.bo = d.aon.bo ∧ (d.raiseBrg b t i).aon.araAnswers = d.aon.araAnswers ∧ (d.raiseBrg b t i).power = d.power ∧
    (d.raiseBrg b t i).ens = d.ens ∧ (d.raiseBrg b t i).straps = d.straps ∧ (d.raiseBrg b t i).resets = d.resets ∧
    (d.raiseBrg b t i).degraded = d.degraded ∧ (d.raiseBrg b t i).profMis = d.profMis ∧ (d.raiseBrg b t i).profUn = d.profUn ∧
    (d.raiseBrg b t i).popMis = d.popMis ∧ (d.raiseBrg b t i).popFault = d.popFault ∧ (d.raiseBrg b t i).strapFault = d.strapFault ∧
    (d.raiseBrg b t i).quiesced = d.quiesced ∧ (d.raiseBrg b t i).fuses = d.fuses ∧ (d.raiseBrg b t i).flash = d.flash ∧
    (d.raiseBrg b t i).mgmt.feat = d.mgmt.feat ∧ (d.raiseBrg b t i).mgmt.test = d.mgmt.test ∧
    (d.raiseBrg b t i).mgmt.sec = d.mgmt.sec ∧ (d.raiseBrg b t i).mgmt.slot = d.mgmt.slot ∧
    (d.raiseBrg b t i).mgmt.bootAt = d.mgmt.bootAt ∧ (d.raiseBrg b t i).mgmt.nextMb = d.mgmt.nextMb ∧
    (d.raiseBrg b t i).mgmt.started = d.mgmt.started ∧ (d.raiseBrg b t i).mgmt.geoWrite = d.mgmt.geoWrite ∧
    (d.raiseBrg b t i).ports = d.ports ∧ (d.raiseBrg b t i).burgees = d.burgees ∧ (d.raiseBrg b t i).geo = d.geo ∧
    (d.raiseBrg b t i).indexes = d.indexes ∧ (d.raiseBrg b t i).models = d.models ∧ (d.raiseBrg b t i).model = d.model ∧
    (d.raiseBrg b t i).lastModel = d.lastModel ∧ (d.raiseBrg b t i).staged = d.staged ∧ (d.raiseBrg b t i).cmds = d.cmds ∧
    (d.raiseBrg b t i).stamp = d.stamp ∧ (d.raiseBrg b t i).lastQp = d.lastQp ∧ (d.raiseBrg b t i).ctxs = d.ctxs ∧
    (d.raiseBrg b t i).scs = d.scs ∧ (d.raiseBrg b t i).engines = d.engines ∧ (d.raiseBrg b t i).streams = d.streams ∧
    (d.raiseBrg b t i).scCnt = d.scCnt ∧ (d.raiseBrg b t i).mbs = d.mbs ∧ (d.raiseBrg b t i).devBuckets = d.devBuckets ∧
    (d.raiseBrg b t i).heat = d.heat ∧ (d.raiseBrg b t i).tiers = d.tiers ∧ (d.raiseBrg b t i).jobs = d.jobs ∧
    (d.raiseBrg b t i).lastJob = d.lastJob ∧ (d.raiseBrg b t i).endedJobs = d.endedJobs ∧ (d.raiseBrg b t i).links = d.links ∧
    (d.raiseBrg b t i).shoal = d.shoal ∧ (d.raiseBrg b t i).tap = d.tap ∧ (d.raiseBrg b t i).telem = d.telem :=
  by refine ⟨?_, ?_, ?_, ?_, ?_, ?_, ?_, ?_, ?_, ?_, ?_, ?_, ?_, ?_, ?_, ?_, ?_, ?_, ?_, ?_, ?_, ?_, ?_, ?_, ?_, ?_, ?_, ?_, ?_, ?_, ?_, ?_, ?_, ?_, ?_, ?_, ?_, ?_, ?_, ?_, ?_, ?_, ?_, ?_, ?_, ?_, ?_, ?_, ?_, ?_, ?_, ?_, ?_, ?_, ?_, ?_, ?_, ?_, ?_, ?_, ?_, ?_, ?_, ?_, ?_, ?_, ?_, ?_, ?_, ?_⟩ <;> (unfold Device.raiseBrg; simp)
/-- What degrade leaves unchanged. -/
@[simp] theorem Device.degrade_keeps (d : Device) (b : Nat) :
    (d.degrade b).now = d.now ∧ (d.degrade b).fresh = d.fresh ∧ (d.degrade b).mem = d.mem ∧ (d.degrade b).phase = d.phase ∧
    (d.degrade b).aon.vaux = d.aon.vaux ∧ (d.degrade b).aon.sysPwrok = d.aon.sysPwrok ∧ (d.degrade b).aon.memrefOk = d.aon.memrefOk ∧
    (d.degrade b).aon.railHold = d.aon.railHold ∧ (d.degrade b).aon.testMode = d.aon.testMode ∧ (d.degrade b).aon.trip = d.aon.trip ∧
    (d.degrade b).aon.smbAddr = d.aon.smbAddr ∧ (d.degrade b).aon.coldCount = d.aon.coldCount ∧
    (d.degrade b).aon.causeRail = d.aon.causeRail ∧ (d.degrade b).aon.cause = d.aon.cause ∧ (d.degrade b).aon.faults = d.aon.faults ∧
    (d.degrade b).aon.faultSeq = d.aon.faultSeq ∧ (d.degrade b).aon.railMv = d.aon.railMv ∧ (d.degrade b).aon.vioOut = d.aon.vioOut ∧
    (d.degrade b).aon.vfuseOut = d.aon.vfuseOut ∧ (d.degrade b).aon.alertMask = d.aon.alertMask ∧ (d.degrade b).aon.bo = d.aon.bo ∧
    (d.degrade b).aon.araAnswers = d.aon.araAnswers ∧ (d.degrade b).power = d.power ∧ (d.degrade b).ens = d.ens ∧
    (d.degrade b).straps = d.straps ∧ (d.degrade b).resets = d.resets ∧ (d.degrade b).profMis = d.profMis ∧
    (d.degrade b).profUn = d.profUn ∧ (d.degrade b).popMis = d.popMis ∧ (d.degrade b).popFault = d.popFault ∧
    (d.degrade b).strapFault = d.strapFault ∧ (d.degrade b).quiesced = d.quiesced ∧ (d.degrade b).fuses = d.fuses ∧
    (d.degrade b).flash = d.flash ∧ (d.degrade b).mgmt.feat = d.mgmt.feat ∧ (d.degrade b).mgmt.test = d.mgmt.test ∧
    (d.degrade b).mgmt.sec = d.mgmt.sec ∧ (d.degrade b).mgmt.slot = d.mgmt.slot ∧ (d.degrade b).mgmt.bootAt = d.mgmt.bootAt ∧
    (d.degrade b).mgmt.nextMb = d.mgmt.nextMb ∧ (d.degrade b).mgmt.started = d.mgmt.started ∧
    (d.degrade b).mgmt.geoWrite = d.mgmt.geoWrite ∧ (d.degrade b).ports = d.ports ∧ (d.degrade b).burgees = d.burgees ∧
    (d.degrade b).geo = d.geo ∧ (d.degrade b).indexes = d.indexes ∧ (d.degrade b).models = d.models ∧ (d.degrade b).model = d.model ∧
    (d.degrade b).lastModel = d.lastModel ∧ (d.degrade b).staged = d.staged ∧ (d.degrade b).cmds = d.cmds ∧
    (d.degrade b).stamp = d.stamp ∧ (d.degrade b).lastQp = d.lastQp ∧ (d.degrade b).ctxs = d.ctxs ∧ (d.degrade b).scs = d.scs ∧
    (d.degrade b).engines = d.engines ∧ (d.degrade b).streams = d.streams ∧ (d.degrade b).scCnt = d.scCnt ∧ (d.degrade b).mbs = d.mbs ∧
    (d.degrade b).devBuckets = d.devBuckets ∧ (d.degrade b).heat = d.heat ∧ (d.degrade b).tiers = d.tiers ∧
    (d.degrade b).jobs = d.jobs ∧ (d.degrade b).lastJob = d.lastJob ∧ (d.degrade b).endedJobs = d.endedJobs ∧
    (d.degrade b).links = d.links ∧ (d.degrade b).shoal = d.shoal ∧ (d.degrade b).tap = d.tap ∧ (d.degrade b).telem = d.telem :=
  by refine ⟨?_, ?_, ?_, ?_, ?_, ?_, ?_, ?_, ?_, ?_, ?_, ?_, ?_, ?_, ?_, ?_, ?_, ?_, ?_, ?_, ?_, ?_, ?_, ?_, ?_, ?_, ?_, ?_, ?_, ?_, ?_, ?_, ?_, ?_, ?_, ?_, ?_, ?_, ?_, ?_, ?_, ?_, ?_, ?_, ?_, ?_, ?_, ?_, ?_, ?_, ?_, ?_, ?_, ?_, ?_, ?_, ?_, ?_, ?_, ?_, ?_, ?_, ?_, ?_, ?_, ?_, ?_, ?_, ?_⟩ <;> (unfold Device.degrade; (try dsimp only); (repeat' split) <;> simp)
/-- What powerEvent leaves unchanged. -/
@[simp] theorem Device.powerEvent_keeps (d : Device) (c h : Nat) (v : Int) :
    (d.powerEvent c h v).now = d.now ∧ (d.powerEvent c h v).fresh = d.fresh ∧ (d.powerEvent c h v).mem = d.mem ∧
    (d.powerEvent c h v).phase = d.phase ∧ (d.powerEvent c h v).aon.vaux = d.aon.vaux ∧
    (d.powerEvent c h v).aon.sysPwrok = d.aon.sysPwrok ∧ (d.powerEvent c h v).aon.memrefOk = d.aon.memrefOk ∧
    (d.powerEvent c h v).aon.railHold = d.aon.railHold ∧ (d.powerEvent c h v).aon.testMode = d.aon.testMode ∧
    (d.powerEvent c h v).aon.trip = d.aon.trip ∧ (d.powerEvent c h v).aon.smbAddr = d.aon.smbAddr ∧
    (d.powerEvent c h v).aon.coldCount = d.aon.coldCount ∧ (d.powerEvent c h v).aon.causeRail = d.aon.causeRail ∧
    (d.powerEvent c h v).aon.cause = d.aon.cause ∧ (d.powerEvent c h v).aon.faults = d.aon.faults ∧
    (d.powerEvent c h v).aon.faultSeq = d.aon.faultSeq ∧ (d.powerEvent c h v).aon.railMv = d.aon.railMv ∧
    (d.powerEvent c h v).aon.vioOut = d.aon.vioOut ∧ (d.powerEvent c h v).aon.vfuseOut = d.aon.vfuseOut ∧
    (d.powerEvent c h v).aon.alertMask = d.aon.alertMask ∧ (d.powerEvent c h v).aon.bo = d.aon.bo ∧
    (d.powerEvent c h v).aon.araAnswers = d.aon.araAnswers ∧ (d.powerEvent c h v).power = d.power ∧ (d.powerEvent c h v).ens = d.ens ∧
    (d.powerEvent c h v).straps = d.straps ∧ (d.powerEvent c h v).resets = d.resets ∧ (d.powerEvent c h v).degraded = d.degraded ∧
    (d.powerEvent c h v).profMis = d.profMis ∧ (d.powerEvent c h v).profUn = d.profUn ∧ (d.powerEvent c h v).popMis = d.popMis ∧
    (d.powerEvent c h v).popFault = d.popFault ∧ (d.powerEvent c h v).strapFault = d.strapFault ∧
    (d.powerEvent c h v).quiesced = d.quiesced ∧ (d.powerEvent c h v).fuses = d.fuses ∧ (d.powerEvent c h v).flash = d.flash ∧
    (d.powerEvent c h v).mgmt.feat = d.mgmt.feat ∧ (d.powerEvent c h v).mgmt.test = d.mgmt.test ∧
    (d.powerEvent c h v).mgmt.sec = d.mgmt.sec ∧ (d.powerEvent c h v).mgmt.slot = d.mgmt.slot ∧
    (d.powerEvent c h v).mgmt.bootAt = d.mgmt.bootAt ∧ (d.powerEvent c h v).mgmt.nextMb = d.mgmt.nextMb ∧
    (d.powerEvent c h v).mgmt.started = d.mgmt.started ∧ (d.powerEvent c h v).mgmt.geoWrite = d.mgmt.geoWrite ∧
    (d.powerEvent c h v).ports = d.ports ∧ (d.powerEvent c h v).burgees = d.burgees ∧ (d.powerEvent c h v).geo = d.geo ∧
    (d.powerEvent c h v).indexes = d.indexes ∧ (d.powerEvent c h v).models = d.models ∧ (d.powerEvent c h v).model = d.model ∧
    (d.powerEvent c h v).lastModel = d.lastModel ∧ (d.powerEvent c h v).staged = d.staged ∧ (d.powerEvent c h v).cmds = d.cmds ∧
    (d.powerEvent c h v).stamp = d.stamp ∧ (d.powerEvent c h v).lastQp = d.lastQp ∧ (d.powerEvent c h v).ctxs = d.ctxs ∧
    (d.powerEvent c h v).scs = d.scs ∧ (d.powerEvent c h v).engines = d.engines ∧ (d.powerEvent c h v).streams = d.streams ∧
    (d.powerEvent c h v).scCnt = d.scCnt ∧ (d.powerEvent c h v).mbs = d.mbs ∧ (d.powerEvent c h v).devBuckets = d.devBuckets ∧
    (d.powerEvent c h v).heat = d.heat ∧ (d.powerEvent c h v).tiers = d.tiers ∧ (d.powerEvent c h v).jobs = d.jobs ∧
    (d.powerEvent c h v).lastJob = d.lastJob ∧ (d.powerEvent c h v).endedJobs = d.endedJobs ∧ (d.powerEvent c h v).links = d.links ∧
    (d.powerEvent c h v).shoal = d.shoal ∧ (d.powerEvent c h v).tap = d.tap ∧ (d.powerEvent c h v).telem = d.telem :=
  by refine ⟨?_, ?_, ?_, ?_, ?_, ?_, ?_, ?_, ?_, ?_, ?_, ?_, ?_, ?_, ?_, ?_, ?_, ?_, ?_, ?_, ?_, ?_, ?_, ?_, ?_, ?_, ?_, ?_, ?_, ?_, ?_, ?_, ?_, ?_, ?_, ?_, ?_, ?_, ?_, ?_, ?_, ?_, ?_, ?_, ?_, ?_, ?_, ?_, ?_, ?_, ?_, ?_, ?_, ?_, ?_, ?_, ?_, ?_, ?_, ?_, ?_, ?_, ?_, ?_, ?_, ?_, ?_, ?_, ?_, ?_⟩ <;> (unfold Device.powerEvent; split <;> simp)
/-- What account leaves unchanged. -/
@[simp] theorem Device.account_keeps (d : Device) (c : Option Nat) (b : Nat) (g : Account → Account) :
    (d.account c b g).now = d.now ∧ (d.account c b g).fresh = d.fresh ∧ (d.account c b g).out = d.out ∧ (d.account c b g).mem = d.mem ∧
    (d.account c b g).phase = d.phase ∧ (d.account c b g).aon = d.aon ∧ (d.account c b g).power = d.power ∧
    (d.account c b g).ens = d.ens ∧ (d.account c b g).straps = d.straps ∧ (d.account c b g).resets = d.resets ∧
    (d.account c b g).degraded = d.degraded ∧ (d.account c b g).profMis = d.profMis ∧ (d.account c b g).profUn = d.profUn ∧
    (d.account c b g).popMis = d.popMis ∧ (d.account c b g).popFault = d.popFault ∧ (d.account c b g).strapFault = d.strapFault ∧
    (d.account c b g).quiesced = d.quiesced ∧ (d.account c b g).fuses = d.fuses ∧ (d.account c b g).flash = d.flash ∧
    (d.account c b g).mgmt = d.mgmt ∧ (d.account c b g).ports = d.ports ∧ (d.account c b g).sideMb = d.sideMb ∧
    (d.account c b g).geo = d.geo ∧ (d.account c b g).indexes = d.indexes ∧ (d.account c b g).models = d.models ∧
    (d.account c b g).model = d.model ∧ (d.account c b g).lastModel = d.lastModel ∧ (d.account c b g).staged = d.staged ∧
    (d.account c b g).cmds = d.cmds ∧ (d.account c b g).stamp = d.stamp ∧ (d.account c b g).lastQp = d.lastQp ∧
    (d.account c b g).ctxs = d.ctxs ∧ (d.account c b g).scs = d.scs ∧ (d.account c b g).engines = d.engines ∧
    (d.account c b g).streams = d.streams ∧ (d.account c b g).scCnt = d.scCnt ∧ (d.account c b g).mbs = d.mbs ∧
    (d.account c b g).devBuckets = d.devBuckets ∧ (d.account c b g).heat = d.heat ∧ (d.account c b g).tiers = d.tiers ∧
    (d.account c b g).jobs = d.jobs ∧ (d.account c b g).lastJob = d.lastJob ∧ (d.account c b g).endedJobs = d.endedJobs ∧
    (d.account c b g).links = d.links ∧ (d.account c b g).shoal = d.shoal ∧ (d.account c b g).tap = d.tap ∧
    (d.account c b g).devCnt = d.devCnt ∧ (d.account c b g).telem = d.telem :=
  by refine ⟨?_, ?_, ?_, ?_, ?_, ?_, ?_, ?_, ?_, ?_, ?_, ?_, ?_, ?_, ?_, ?_, ?_, ?_, ?_, ?_, ?_, ?_, ?_, ?_, ?_, ?_, ?_, ?_, ?_, ?_, ?_, ?_, ?_, ?_, ?_, ?_, ?_, ?_, ?_, ?_, ?_, ?_, ?_, ?_, ?_, ?_, ?_, ?_⟩ <;> (unfold Device.account; split <;> simp)
/-- What cqSignal leaves unchanged. -/
@[simp] theorem Device.cqSignal_keeps (d : Device) (f q : Nat) :
    (d.cqSignal f q).now = d.now ∧ (d.cqSignal f q).fresh = d.fresh ∧ (d.cqSignal f q).mem = d.mem ∧ (d.cqSignal f q).phase = d.phase ∧
    (d.cqSignal f q).aon = d.aon ∧ (d.cqSignal f q).power = d.power ∧ (d.cqSignal f q).ens = d.ens ∧
    (d.cqSignal f q).straps = d.straps ∧ (d.cqSignal f q).resets = d.resets ∧ (d.cqSignal f q).degraded = d.degraded ∧
    (d.cqSignal f q).profMis = d.profMis ∧ (d.cqSignal f q).profUn = d.profUn ∧ (d.cqSignal f q).popMis = d.popMis ∧
    (d.cqSignal f q).popFault = d.popFault ∧ (d.cqSignal f q).strapFault = d.strapFault ∧ (d.cqSignal f q).quiesced = d.quiesced ∧
    (d.cqSignal f q).fuses = d.fuses ∧ (d.cqSignal f q).flash = d.flash ∧ (d.cqSignal f q).mgmt = d.mgmt ∧
    (d.cqSignal f q).ports = d.ports ∧ (d.cqSignal f q).sideMb = d.sideMb ∧ (d.cqSignal f q).burgees = d.burgees ∧
    (d.cqSignal f q).geo = d.geo ∧ (d.cqSignal f q).indexes = d.indexes ∧ (d.cqSignal f q).models = d.models ∧
    (d.cqSignal f q).model = d.model ∧ (d.cqSignal f q).lastModel = d.lastModel ∧ (d.cqSignal f q).staged = d.staged ∧
    (d.cqSignal f q).cmds = d.cmds ∧ (d.cqSignal f q).stamp = d.stamp ∧ (d.cqSignal f q).lastQp = d.lastQp ∧
    (d.cqSignal f q).ctxs = d.ctxs ∧ (d.cqSignal f q).scs = d.scs ∧ (d.cqSignal f q).engines = d.engines ∧
    (d.cqSignal f q).streams = d.streams ∧ (d.cqSignal f q).scCnt = d.scCnt ∧ (d.cqSignal f q).mbs = d.mbs ∧
    (d.cqSignal f q).devBuckets = d.devBuckets ∧ (d.cqSignal f q).heat = d.heat ∧ (d.cqSignal f q).tiers = d.tiers ∧
    (d.cqSignal f q).jobs = d.jobs ∧ (d.cqSignal f q).lastJob = d.lastJob ∧ (d.cqSignal f q).endedJobs = d.endedJobs ∧
    (d.cqSignal f q).links = d.links ∧ (d.cqSignal f q).shoal = d.shoal ∧ (d.cqSignal f q).tap = d.tap ∧
    (d.cqSignal f q).telem = d.telem :=
  by refine ⟨?_, ?_, ?_, ?_, ?_, ?_, ?_, ?_, ?_, ?_, ?_, ?_, ?_, ?_, ?_, ?_, ?_, ?_, ?_, ?_, ?_, ?_, ?_, ?_, ?_, ?_, ?_, ?_, ?_, ?_, ?_, ?_, ?_, ?_, ?_, ?_, ?_, ?_, ?_, ?_, ?_, ?_, ?_, ?_, ?_, ?_, ?_⟩ <;> (unfold Device.cqSignal; (try dsimp only); (repeat' split) <;> simp)
/-- What post leaves unchanged. -/
@[simp] theorem Device.post_keeps (d : Device) (f q c i t st sp : Nat) (b u : Bool) :
    (d.post f q c i t st sp b u).now = d.now ∧ (d.post f q c i t st sp b u).fresh = d.fresh ∧
    (d.post f q c i t st sp b u).mem = d.mem ∧ (d.post f q c i t st sp b u).phase = d.phase ∧
    (d.post f q c i t st sp b u).aon = d.aon ∧ (d.post f q c i t st sp b u).power = d.power ∧
    (d.post f q c i t st sp b u).ens = d.ens ∧ (d.post f q c i t st sp b u).straps = d.straps ∧
    (d.post f q c i t st sp b u).resets = d.resets ∧ (d.post f q c i t st sp b u).degraded = d.degraded ∧
    (d.post f q c i t st sp b u).profMis = d.profMis ∧ (d.post f q c i t st sp b u).profUn = d.profUn ∧
    (d.post f q c i t st sp b u).popMis = d.popMis ∧ (d.post f q c i t st sp b u).popFault = d.popFault ∧
    (d.post f q c i t st sp b u).strapFault = d.strapFault ∧ (d.post f q c i t st sp b u).quiesced = d.quiesced ∧
    (d.post f q c i t st sp b u).fuses = d.fuses ∧ (d.post f q c i t st sp b u).flash = d.flash ∧
    (d.post f q c i t st sp b u).mgmt = d.mgmt ∧ (d.post f q c i t st sp b u).ports = d.ports ∧
    (d.post f q c i t st sp b u).sideMb = d.sideMb ∧ (d.post f q c i t st sp b u).burgees = d.burgees ∧
    (d.post f q c i t st sp b u).geo = d.geo ∧ (d.post f q c i t st sp b u).indexes = d.indexes ∧
    (d.post f q c i t st sp b u).models = d.models ∧ (d.post f q c i t st sp b u).model = d.model ∧
    (d.post f q c i t st sp b u).lastModel = d.lastModel ∧ (d.post f q c i t st sp b u).staged = d.staged ∧
    (d.post f q c i t st sp b u).cmds = d.cmds ∧ (d.post f q c i t st sp b u).stamp = d.stamp ∧
    (d.post f q c i t st sp b u).lastQp = d.lastQp ∧ (d.post f q c i t st sp b u).ctxs = d.ctxs ∧
    (d.post f q c i t st sp b u).scs = d.scs ∧ (d.post f q c i t st sp b u).engines = d.engines ∧
    (d.post f q c i t st sp b u).streams = d.streams ∧ (d.post f q c i t st sp b u).scCnt = d.scCnt ∧
    (d.post f q c i t st sp b u).mbs = d.mbs ∧ (d.post f q c i t st sp b u).devBuckets = d.devBuckets ∧
    (d.post f q c i t st sp b u).heat = d.heat ∧ (d.post f q c i t st sp b u).tiers = d.tiers ∧
    (d.post f q c i t st sp b u).jobs = d.jobs ∧ (d.post f q c i t st sp b u).lastJob = d.lastJob ∧
    (d.post f q c i t st sp b u).endedJobs = d.endedJobs ∧ (d.post f q c i t st sp b u).links = d.links ∧
    (d.post f q c i t st sp b u).shoal = d.shoal ∧ (d.post f q c i t st sp b u).tap = d.tap ∧
    (d.post f q c i t st sp b u).telem = d.telem :=
  by refine ⟨?_, ?_, ?_, ?_, ?_, ?_, ?_, ?_, ?_, ?_, ?_, ?_, ?_, ?_, ?_, ?_, ?_, ?_, ?_, ?_, ?_, ?_, ?_, ?_, ?_, ?_, ?_, ?_, ?_, ?_, ?_, ?_, ?_, ?_, ?_, ?_, ?_, ?_, ?_, ?_, ?_, ?_, ?_, ?_, ?_, ?_, ?_⟩ <;> (unfold Device.post; (try dsimp only); (repeat' split) <;> simp)
/-- What defError leaves unchanged. -/
@[simp] theorem Device.defError_keeps (d : Device) (f c q i n w : Nat) (id : W64) (t : Nat) :
    (d.defError f c q i n w id t).now = d.now ∧ (d.defError f c q i n w id t).fresh = d.fresh ∧
    (d.defError f c q i n w id t).mem = d.mem ∧ (d.defError f c q i n w id t).phase = d.phase ∧
    (d.defError f c q i n w id t).aon = d.aon ∧ (d.defError f c q i n w id t).power = d.power ∧
    (d.defError f c q i n w id t).ens = d.ens ∧ (d.defError f c q i n w id t).straps = d.straps ∧
    (d.defError f c q i n w id t).resets = d.resets ∧ (d.defError f c q i n w id t).degraded = d.degraded ∧
    (d.defError f c q i n w id t).profMis = d.profMis ∧ (d.defError f c q i n w id t).profUn = d.profUn ∧
    (d.defError f c q i n w id t).popMis = d.popMis ∧ (d.defError f c q i n w id t).popFault = d.popFault ∧
    (d.defError f c q i n w id t).strapFault = d.strapFault ∧ (d.defError f c q i n w id t).quiesced = d.quiesced ∧
    (d.defError f c q i n w id t).fuses = d.fuses ∧ (d.defError f c q i n w id t).flash = d.flash ∧
    (d.defError f c q i n w id t).mgmt = d.mgmt ∧ (d.defError f c q i n w id t).ports = d.ports ∧
    (d.defError f c q i n w id t).sideMb = d.sideMb ∧ (d.defError f c q i n w id t).burgees = d.burgees ∧
    (d.defError f c q i n w id t).geo = d.geo ∧ (d.defError f c q i n w id t).indexes = d.indexes ∧
    (d.defError f c q i n w id t).models = d.models ∧ (d.defError f c q i n w id t).model = d.model ∧
    (d.defError f c q i n w id t).lastModel = d.lastModel ∧ (d.defError f c q i n w id t).staged = d.staged ∧
    (d.defError f c q i n w id t).cmds = d.cmds ∧ (d.defError f c q i n w id t).stamp = d.stamp ∧
    (d.defError f c q i n w id t).lastQp = d.lastQp ∧ (d.defError f c q i n w id t).ctxs = d.ctxs ∧
    (d.defError f c q i n w id t).scs = d.scs ∧ (d.defError f c q i n w id t).engines = d.engines ∧
    (d.defError f c q i n w id t).streams = d.streams ∧ (d.defError f c q i n w id t).scCnt = d.scCnt ∧
    (d.defError f c q i n w id t).mbs = d.mbs ∧ (d.defError f c q i n w id t).devBuckets = d.devBuckets ∧
    (d.defError f c q i n w id t).heat = d.heat ∧ (d.defError f c q i n w id t).tiers = d.tiers ∧
    (d.defError f c q i n w id t).jobs = d.jobs ∧ (d.defError f c q i n w id t).lastJob = d.lastJob ∧
    (d.defError f c q i n w id t).endedJobs = d.endedJobs ∧ (d.defError f c q i n w id t).links = d.links ∧
    (d.defError f c q i n w id t).shoal = d.shoal ∧ (d.defError f c q i n w id t).tap = d.tap ∧
    (d.defError f c q i n w id t).telem = d.telem :=
  by unfold Device.defError; dsimp only; (repeat' split) <;> simp
/-- What charge leaves unchanged. -/
@[simp] theorem Device.charge_keeps (d : Device) (o : Bool) (c : Option Nat) (b : Nat) (r : Metered) (p n : Nat) :
    (d.charge o c b r p n).now = d.now ∧ (d.charge o c b r p n).fresh = d.fresh ∧ (d.charge o c b r p n).out = d.out ∧
    (d.charge o c b r p n).mem = d.mem ∧ (d.charge o c b r p n).phase = d.phase ∧ (d.charge o c b r p n).aon = d.aon ∧
    (d.charge o c b r p n).power = d.power ∧ (d.charge o c b r p n).ens = d.ens ∧ (d.charge o c b r p n).straps = d.straps ∧
    (d.charge o c b r p n).resets = d.resets ∧ (d.charge o c b r p n).degraded = d.degraded ∧
    (d.charge o c b r p n).profMis = d.profMis ∧ (d.charge o c b r p n).profUn = d.profUn ∧ (d.charge o c b r p n).popMis = d.popMis ∧
    (d.charge o c b r p n).popFault = d.popFault ∧ (d.charge o c b r p n).strapFault = d.strapFault ∧
    (d.charge o c b r p n).quiesced = d.quiesced ∧ (d.charge o c b r p n).fuses = d.fuses ∧ (d.charge o c b r p n).flash = d.flash ∧
    (d.charge o c b r p n).mgmt = d.mgmt ∧ (d.charge o c b r p n).ports = d.ports ∧ (d.charge o c b r p n).sideMb = d.sideMb ∧
    (d.charge o c b r p n).geo = d.geo ∧ (d.charge o c b r p n).indexes = d.indexes ∧ (d.charge o c b r p n).models = d.models ∧
    (d.charge o c b r p n).model = d.model ∧ (d.charge o c b r p n).lastModel = d.lastModel ∧
    (d.charge o c b r p n).staged = d.staged ∧ (d.charge o c b r p n).cmds = d.cmds ∧ (d.charge o c b r p n).stamp = d.stamp ∧
    (d.charge o c b r p n).lastQp = d.lastQp ∧ (d.charge o c b r p n).ctxs = d.ctxs ∧ (d.charge o c b r p n).scs = d.scs ∧
    (d.charge o c b r p n).engines = d.engines ∧ (d.charge o c b r p n).streams = d.streams ∧ (d.charge o c b r p n).scCnt = d.scCnt ∧
    (d.charge o c b r p n).mbs = d.mbs ∧ (d.charge o c b r p n).heat = d.heat ∧ (d.charge o c b r p n).tiers = d.tiers ∧
    (d.charge o c b r p n).jobs = d.jobs ∧ (d.charge o c b r p n).lastJob = d.lastJob ∧
    (d.charge o c b r p n).endedJobs = d.endedJobs ∧ (d.charge o c b r p n).links = d.links ∧ (d.charge o c b r p n).shoal = d.shoal ∧
    (d.charge o c b r p n).tap = d.tap ∧ (d.charge o c b r p n).devCnt = d.devCnt ∧ (d.charge o c b r p n).telem = d.telem :=
  by refine ⟨?_, ?_, ?_, ?_, ?_, ?_, ?_, ?_, ?_, ?_, ?_, ?_, ?_, ?_, ?_, ?_, ?_, ?_, ?_, ?_, ?_, ?_, ?_, ?_, ?_, ?_, ?_, ?_, ?_, ?_, ?_, ?_, ?_, ?_, ?_, ?_, ?_, ?_, ?_, ?_, ?_, ?_, ?_, ?_, ?_, ?_, ?_⟩ <;> (unfold Device.charge; split <;> simp)
/-- What voidBound leaves unchanged. -/
@[simp] theorem Device.voidBound_keeps (d : Device) (n : Nat) :
    (d.voidBound n).now = d.now ∧ (d.voidBound n).fresh = d.fresh ∧ (d.voidBound n).out = d.out ∧ (d.voidBound n).mem = d.mem ∧
    (d.voidBound n).phase = d.phase ∧ (d.voidBound n).aon = d.aon ∧ (d.voidBound n).power = d.power ∧ (d.voidBound n).ens = d.ens ∧
    (d.voidBound n).straps = d.straps ∧ (d.voidBound n).resets = d.resets ∧ (d.voidBound n).degraded = d.degraded ∧
    (d.voidBound n).profMis = d.profMis ∧ (d.voidBound n).profUn = d.profUn ∧ (d.voidBound n).popMis = d.popMis ∧
    (d.voidBound n).popFault = d.popFault ∧ (d.voidBound n).strapFault = d.strapFault ∧ (d.voidBound n).quiesced = d.quiesced ∧
    (d.voidBound n).fuses = d.fuses ∧ (d.voidBound n).flash = d.flash ∧ (d.voidBound n).mgmt = d.mgmt ∧
    (d.voidBound n).ports = d.ports ∧ (d.voidBound n).sideMb = d.sideMb ∧ (d.voidBound n).geo = d.geo ∧
    (d.voidBound n).indexes = d.indexes ∧ (d.voidBound n).models = d.models ∧ (d.voidBound n).model = d.model ∧
    (d.voidBound n).lastModel = d.lastModel ∧ (d.voidBound n).staged = d.staged ∧ (d.voidBound n).stamp = d.stamp ∧
    (d.voidBound n).lastQp = d.lastQp ∧ (d.voidBound n).ctxs = d.ctxs ∧ (d.voidBound n).scs = d.scs ∧
    (d.voidBound n).engines = d.engines ∧ (d.voidBound n).streams = d.streams ∧ (d.voidBound n).scCnt = d.scCnt ∧
    (d.voidBound n).mbs = d.mbs ∧ (d.voidBound n).devBuckets = d.devBuckets ∧ (d.voidBound n).heat = d.heat ∧
    (d.voidBound n).tiers = d.tiers ∧ (d.voidBound n).jobs = d.jobs ∧ (d.voidBound n).lastJob = d.lastJob ∧
    (d.voidBound n).endedJobs = d.endedJobs ∧ (d.voidBound n).links = d.links ∧ (d.voidBound n).shoal = d.shoal ∧
    (d.voidBound n).tap = d.tap ∧ (d.voidBound n).devCnt = d.devCnt ∧ (d.voidBound n).telem = d.telem :=
  by refine ⟨?_, ?_, ?_, ?_, ?_, ?_, ?_, ?_, ?_, ?_, ?_, ?_, ?_, ?_, ?_, ?_, ?_, ?_, ?_, ?_, ?_, ?_, ?_, ?_, ?_, ?_, ?_, ?_, ?_, ?_, ?_, ?_, ?_, ?_, ?_, ?_, ?_, ?_, ?_, ?_, ?_, ?_, ?_, ?_, ?_, ?_, ?_⟩ <;> (unfold Device.voidBound; (try dsimp only); (repeat' split) <;> simp)
/-- What voidAll leaves unchanged. -/
@[simp] theorem Device.voidAll_keeps (d : Device) :
    (d.voidAll).now = d.now ∧ (d.voidAll).fresh = d.fresh ∧ (d.voidAll).out = d.out ∧ (d.voidAll).mem = d.mem ∧
    (d.voidAll).phase = d.phase ∧ (d.voidAll).aon = d.aon ∧ (d.voidAll).power = d.power ∧ (d.voidAll).ens = d.ens ∧
    (d.voidAll).straps = d.straps ∧ (d.voidAll).resets = d.resets ∧ (d.voidAll).degraded = d.degraded ∧
    (d.voidAll).profMis = d.profMis ∧ (d.voidAll).profUn = d.profUn ∧ (d.voidAll).popMis = d.popMis ∧
    (d.voidAll).popFault = d.popFault ∧ (d.voidAll).strapFault = d.strapFault ∧ (d.voidAll).quiesced = d.quiesced ∧
    (d.voidAll).fuses = d.fuses ∧ (d.voidAll).flash = d.flash ∧ (d.voidAll).mgmt = d.mgmt ∧ (d.voidAll).ports = d.ports ∧
    (d.voidAll).sideMb = d.sideMb ∧ (d.voidAll).geo = d.geo ∧ (d.voidAll).indexes = d.indexes ∧ (d.voidAll).models = d.models ∧
    (d.voidAll).model = d.model ∧ (d.voidAll).lastModel = d.lastModel ∧ (d.voidAll).staged = d.staged ∧ (d.voidAll).stamp = d.stamp ∧
    (d.voidAll).lastQp = d.lastQp ∧ (d.voidAll).ctxs = d.ctxs ∧ (d.voidAll).scs = d.scs ∧ (d.voidAll).engines = d.engines ∧
    (d.voidAll).streams = d.streams ∧ (d.voidAll).scCnt = d.scCnt ∧ (d.voidAll).mbs = d.mbs ∧ (d.voidAll).devBuckets = d.devBuckets ∧
    (d.voidAll).heat = d.heat ∧ (d.voidAll).tiers = d.tiers ∧ (d.voidAll).jobs = d.jobs ∧ (d.voidAll).lastJob = d.lastJob ∧
    (d.voidAll).endedJobs = d.endedJobs ∧ (d.voidAll).links = d.links ∧ (d.voidAll).shoal = d.shoal ∧ (d.voidAll).tap = d.tap ∧
    (d.voidAll).devCnt = d.devCnt ∧ (d.voidAll).telem = d.telem :=
  by refine ⟨foldl_keep (fun (d : Device) => d.now) _ (fun d x => by simp) _ _, foldl_keep (fun (d : Device) => d.fresh) _ (fun d x => by simp) _ _, foldl_keep (fun (d : Device) => d.out) _ (fun d x => by simp) _ _, foldl_keep (fun (d : Device) => d.mem) _ (fun d x => by simp) _ _, foldl_keep (fun (d : Device) => d.phase) _ (fun d x => by simp) _ _, foldl_keep (fun (d : Device) => d.aon) _ (fun d x => by simp) _ _, foldl_keep (fun (d : Device) => d.power) _ (fun d x => by simp) _ _, foldl_keep (fun (d : Device) => d.ens) _ (fun d x => by simp) _ _, foldl_keep (fun (d : Device) => d.straps) _ (fun d x => by simp) _ _, foldl_keep (fun (d : Device) => d.resets) _ (fun d x => by simp) _ _, foldl_keep (fun (d : Device) => d.degraded) _ (fun d x => by simp) _ _, foldl_keep (fun (d : Device) => d.profMis) _ (fun d x => by simp) _ _, foldl_keep (fun (d : Device) => d.profUn) _ (fun d x => by simp) _ _, foldl_keep (fun (d : Device) => d.popMis) _ (fun d x => by simp) _ _, foldl_keep (fun (d : Device) => d.popFault) _ (fun d x => by simp) _ _, foldl_keep (fun (d : Device) => d.strapFault) _ (fun d x => by simp) _ _, foldl_keep (fun (d : Device) => d.quiesced) _ (fun d x => by simp) _ _, foldl_keep (fun (d : Device) => d.fuses) _ (fun d x => by simp) _ _, foldl_keep (fun (d : Device) => d.flash) _ (fun d x => by simp) _ _, foldl_keep (fun (d : Device) => d.mgmt) _ (fun d x => by simp) _ _, foldl_keep (fun (d : Device) => d.ports) _ (fun d x => by simp) _ _, foldl_keep (fun (d : Device) => d.sideMb) _ (fun d x => by simp) _ _, foldl_keep (fun (d : Device) => d.geo) _ (fun d x => by simp) _ _, foldl_keep (fun (d : Device) => d.indexes) _ (fun d x => by simp) _ _, foldl_keep (fun (d : Device) => d.models) _ (fun d x => by simp) _ _, foldl_keep (fun (d : Device) => d.model) _ (fun d x => by simp) _ _, foldl_keep (fun (d : Device) => d.lastModel) _ (fun d x => by simp) _ _, foldl_keep (fun (d : Device) => d.staged) _ (fun d x => by simp) _ _, foldl_keep (fun (d : Device) => d.stamp) _ (fun d x => by simp) _ _, foldl_keep (fun (d : Device) => d.lastQp) _ (fun d x => by simp) _ _, foldl_keep (fun (d : Device) => d.ctxs) _ (fun d x => by simp) _ _, foldl_keep (fun (d : Device) => d.scs) _ (fun d x => by simp) _ _, foldl_keep (fun (d : Device) => d.engines) _ (fun d x => by simp) _ _, foldl_keep (fun (d : Device) => d.streams) _ (fun d x => by simp) _ _, foldl_keep (fun (d : Device) => d.scCnt) _ (fun d x => by simp) _ _, foldl_keep (fun (d : Device) => d.mbs) _ (fun d x => by simp) _ _, foldl_keep (fun (d : Device) => d.devBuckets) _ (fun d x => by simp) _ _, foldl_keep (fun (d : Device) => d.heat) _ (fun d x => by simp) _ _, foldl_keep (fun (d : Device) => d.tiers) _ (fun d x => by simp) _ _, foldl_keep (fun (d : Device) => d.jobs) _ (fun d x => by simp) _ _, foldl_keep (fun (d : Device) => d.lastJob) _ (fun d x => by simp) _ _, foldl_keep (fun (d : Device) => d.endedJobs) _ (fun d x => by simp) _ _, foldl_keep (fun (d : Device) => d.links) _ (fun d x => by simp) _ _, foldl_keep (fun (d : Device) => d.shoal) _ (fun d x => by simp) _ _, foldl_keep (fun (d : Device) => d.tap) _ (fun d x => by simp) _ _, foldl_keep (fun (d : Device) => d.devCnt) _ (fun d x => by simp) _ _, foldl_keep (fun (d : Device) => d.telem) _ (fun d x => by simp) _ _⟩
/-- What releaseCtx leaves unchanged: of the tiers, all but the F-tier space in use. -/
@[simp] theorem Device.releaseCtx_keeps (d : Device) (n : Nat) :
    (d.releaseCtx n).now = d.now ∧ (d.releaseCtx n).fresh = d.fresh ∧ (d.releaseCtx n).out = d.out ∧ (d.releaseCtx n).mem = d.mem ∧
    (d.releaseCtx n).phase = d.phase ∧ (d.releaseCtx n).aon = d.aon ∧ (d.releaseCtx n).power = d.power ∧ (d.releaseCtx n).ens = d.ens ∧
    (d.releaseCtx n).straps = d.straps ∧ (d.releaseCtx n).resets = d.resets ∧ (d.releaseCtx n).degraded = d.degraded ∧
    (d.releaseCtx n).profMis = d.profMis ∧ (d.releaseCtx n).profUn = d.profUn ∧ (d.releaseCtx n).popMis = d.popMis ∧
    (d.releaseCtx n).popFault = d.popFault ∧ (d.releaseCtx n).strapFault = d.strapFault ∧ (d.releaseCtx n).quiesced = d.quiesced ∧
    (d.releaseCtx n).fuses = d.fuses ∧ (d.releaseCtx n).flash = d.flash ∧ (d.releaseCtx n).mgmt = d.mgmt ∧
    (d.releaseCtx n).fns = d.fns ∧ (d.releaseCtx n).ports = d.ports ∧ (d.releaseCtx n).sideMb = d.sideMb ∧
    (d.releaseCtx n).burgees = d.burgees ∧ (d.releaseCtx n).geo = d.geo ∧ (d.releaseCtx n).indexes = d.indexes ∧
    (d.releaseCtx n).models = d.models ∧ (d.releaseCtx n).model = d.model ∧ (d.releaseCtx n).lastModel = d.lastModel ∧
    (d.releaseCtx n).staged = d.staged ∧ (d.releaseCtx n).cmds = d.cmds ∧ (d.releaseCtx n).stamp = d.stamp ∧
    (d.releaseCtx n).lastQp = d.lastQp ∧ (d.releaseCtx n).scCnt = d.scCnt ∧ (d.releaseCtx n).mbs = d.mbs ∧
    (d.releaseCtx n).devBuckets = d.devBuckets ∧ (d.releaseCtx n).heat = d.heat ∧ (d.releaseCtx n).tiers.chans = d.tiers.chans ∧ (d.releaseCtx n).tiers.packages = d.tiers.packages ∧ (d.releaseCtx n).tiers.sites = d.tiers.sites ∧ (d.releaseCtx n).tiers.disabled = d.tiers.disabled ∧ (d.releaseCtx n).tiers.trained = d.tiers.trained ∧ (d.releaseCtx n).tiers.lFault = d.tiers.lFault ∧ (d.releaseCtx n).tiers.extL = d.tiers.extL ∧ (d.releaseCtx n).tiers.refreshL = d.tiers.refreshL ∧ (d.releaseCtx n).tiers.refreshF = d.tiers.refreshF ∧ (d.releaseCtx n).tiers.erased = d.tiers.erased ∧ (d.releaseCtx n).tiers.draws = d.tiers.draws ∧
    (d.releaseCtx n).jobs = d.jobs ∧ (d.releaseCtx n).lastJob = d.lastJob ∧ (d.releaseCtx n).endedJobs = d.endedJobs ∧
    (d.releaseCtx n).links = d.links ∧ (d.releaseCtx n).shoal = d.shoal ∧ (d.releaseCtx n).tap = d.tap ∧
    (d.releaseCtx n).devCnt = d.devCnt ∧ (d.releaseCtx n).telem = d.telem :=
  by refine ⟨?_, ?_, ?_, ?_, ?_, ?_, ?_, ?_, ?_, ?_, ?_, ?_, ?_, ?_, ?_, ?_, ?_, ?_, ?_, ?_, ?_, ?_, ?_, ?_, ?_, ?_, ?_, ?_, ?_, ?_, ?_, ?_, ?_, ?_, ?_, ?_, ?_, ?_, ?_, ?_, ?_, ?_, ?_, ?_, ?_, ?_, ?_, ?_, ?_, ?_, ?_, ?_, ?_, ?_, ?_, ?_⟩ <;> (unfold Device.releaseCtx; (try dsimp only); (repeat' split) <;> simp)
/-- What releaseCmdCtxs leaves unchanged: of the tiers, all but the F-tier space in use. -/
@[simp] theorem Device.releaseCmdCtxs_keeps (d : Device) (n : Nat) :
    (d.releaseCmdCtxs n).now = d.now ∧ (d.releaseCmdCtxs n).fresh = d.fresh ∧ (d.releaseCmdCtxs n).out = d.out ∧
    (d.releaseCmdCtxs n).mem = d.mem ∧ (d.releaseCmdCtxs n).phase = d.phase ∧ (d.releaseCmdCtxs n).aon = d.aon ∧
    (d.releaseCmdCtxs n).power = d.power ∧ (d.releaseCmdCtxs n).ens = d.ens ∧ (d.releaseCmdCtxs n).straps = d.straps ∧
    (d.releaseCmdCtxs n).resets = d.resets ∧ (d.releaseCmdCtxs n).degraded = d.degraded ∧ (d.releaseCmdCtxs n).profMis = d.profMis ∧
    (d.releaseCmdCtxs n).profUn = d.profUn ∧ (d.releaseCmdCtxs n).popMis = d.popMis ∧ (d.releaseCmdCtxs n).popFault = d.popFault ∧
    (d.releaseCmdCtxs n).strapFault = d.strapFault ∧ (d.releaseCmdCtxs n).quiesced = d.quiesced ∧
    (d.releaseCmdCtxs n).fuses = d.fuses ∧ (d.releaseCmdCtxs n).flash = d.flash ∧ (d.releaseCmdCtxs n).mgmt = d.mgmt ∧
    (d.releaseCmdCtxs n).fns = d.fns ∧ (d.releaseCmdCtxs n).ports = d.ports ∧ (d.releaseCmdCtxs n).sideMb = d.sideMb ∧
    (d.releaseCmdCtxs n).burgees = d.burgees ∧ (d.releaseCmdCtxs n).geo = d.geo ∧ (d.releaseCmdCtxs n).indexes = d.indexes ∧
    (d.releaseCmdCtxs n).models = d.models ∧ (d.releaseCmdCtxs n).model = d.model ∧ (d.releaseCmdCtxs n).lastModel = d.lastModel ∧
    (d.releaseCmdCtxs n).staged = d.staged ∧ (d.releaseCmdCtxs n).cmds = d.cmds ∧ (d.releaseCmdCtxs n).stamp = d.stamp ∧
    (d.releaseCmdCtxs n).lastQp = d.lastQp ∧ (d.releaseCmdCtxs n).scCnt = d.scCnt ∧ (d.releaseCmdCtxs n).mbs = d.mbs ∧
    (d.releaseCmdCtxs n).devBuckets = d.devBuckets ∧ (d.releaseCmdCtxs n).heat = d.heat ∧ (d.releaseCmdCtxs n).tiers.chans = d.tiers.chans ∧ (d.releaseCmdCtxs n).tiers.packages = d.tiers.packages ∧ (d.releaseCmdCtxs n).tiers.sites = d.tiers.sites ∧ (d.releaseCmdCtxs n).tiers.disabled = d.tiers.disabled ∧ (d.releaseCmdCtxs n).tiers.trained = d.tiers.trained ∧ (d.releaseCmdCtxs n).tiers.lFault = d.tiers.lFault ∧ (d.releaseCmdCtxs n).tiers.extL = d.tiers.extL ∧ (d.releaseCmdCtxs n).tiers.refreshL = d.tiers.refreshL ∧ (d.releaseCmdCtxs n).tiers.refreshF = d.tiers.refreshF ∧ (d.releaseCmdCtxs n).tiers.erased = d.tiers.erased ∧ (d.releaseCmdCtxs n).tiers.draws = d.tiers.draws ∧
    (d.releaseCmdCtxs n).jobs = d.jobs ∧ (d.releaseCmdCtxs n).lastJob = d.lastJob ∧ (d.releaseCmdCtxs n).endedJobs = d.endedJobs ∧
    (d.releaseCmdCtxs n).links = d.links ∧ (d.releaseCmdCtxs n).shoal = d.shoal ∧ (d.releaseCmdCtxs n).tap = d.tap ∧
    (d.releaseCmdCtxs n).devCnt = d.devCnt ∧ (d.releaseCmdCtxs n).telem = d.telem :=
  by refine ⟨foldl_keep (fun (d : Device) => d.now) _ (fun d x => by simp) _ _, foldl_keep (fun (d : Device) => d.fresh) _ (fun d x => by simp) _ _, foldl_keep (fun (d : Device) => d.out) _ (fun d x => by simp) _ _, foldl_keep (fun (d : Device) => d.mem) _ (fun d x => by simp) _ _, foldl_keep (fun (d : Device) => d.phase) _ (fun d x => by simp) _ _, foldl_keep (fun (d : Device) => d.aon) _ (fun d x => by simp) _ _, foldl_keep (fun (d : Device) => d.power) _ (fun d x => by simp) _ _, foldl_keep (fun (d : Device) => d.ens) _ (fun d x => by simp) _ _, foldl_keep (fun (d : Device) => d.straps) _ (fun d x => by simp) _ _, foldl_keep (fun (d : Device) => d.resets) _ (fun d x => by simp) _ _, foldl_keep (fun (d : Device) => d.degraded) _ (fun d x => by simp) _ _, foldl_keep (fun (d : Device) => d.profMis) _ (fun d x => by simp) _ _, foldl_keep (fun (d : Device) => d.profUn) _ (fun d x => by simp) _ _, foldl_keep (fun (d : Device) => d.popMis) _ (fun d x => by simp) _ _, foldl_keep (fun (d : Device) => d.popFault) _ (fun d x => by simp) _ _, foldl_keep (fun (d : Device) => d.strapFault) _ (fun d x => by simp) _ _, foldl_keep (fun (d : Device) => d.quiesced) _ (fun d x => by simp) _ _, foldl_keep (fun (d : Device) => d.fuses) _ (fun d x => by simp) _ _, foldl_keep (fun (d : Device) => d.flash) _ (fun d x => by simp) _ _, foldl_keep (fun (d : Device) => d.mgmt) _ (fun d x => by simp) _ _, foldl_keep (fun (d : Device) => d.fns) _ (fun d x => by simp) _ _, foldl_keep (fun (d : Device) => d.ports) _ (fun d x => by simp) _ _, foldl_keep (fun (d : Device) => d.sideMb) _ (fun d x => by simp) _ _, foldl_keep (fun (d : Device) => d.burgees) _ (fun d x => by simp) _ _, foldl_keep (fun (d : Device) => d.geo) _ (fun d x => by simp) _ _, foldl_keep (fun (d : Device) => d.indexes) _ (fun d x => by simp) _ _, foldl_keep (fun (d : Device) => d.models) _ (fun d x => by simp) _ _, foldl_keep (fun (d : Device) => d.model) _ (fun d x => by simp) _ _, foldl_keep (fun (d : Device) => d.lastModel) _ (fun d x => by simp) _ _, foldl_keep (fun (d : Device) => d.staged) _ (fun d x => by simp) _ _, foldl_keep (fun (d : Device) => d.cmds) _ (fun d x => by simp) _ _, foldl_keep (fun (d : Device) => d.stamp) _ (fun d x => by simp) _ _, foldl_keep (fun (d : Device) => d.lastQp) _ (fun d x => by simp) _ _, foldl_keep (fun (d : Device) => d.scCnt) _ (fun d x => by simp) _ _, foldl_keep (fun (d : Device) => d.mbs) _ (fun d x => by simp) _ _, foldl_keep (fun (d : Device) => d.devBuckets) _ (fun d x => by simp) _ _, foldl_keep (fun (d : Device) => d.heat) _ (fun d x => by simp) _ _, foldl_keep (fun (d : Device) => d.tiers.chans) _ (fun d x => by simp) _ _, foldl_keep (fun (d : Device) => d.tiers.packages) _ (fun d x => by simp) _ _, foldl_keep (fun (d : Device) => d.tiers.sites) _ (fun d x => by simp) _ _, foldl_keep (fun (d : Device) => d.tiers.disabled) _ (fun d x => by simp) _ _, foldl_keep (fun (d : Device) => d.tiers.trained) _ (fun d x => by simp) _ _, foldl_keep (fun (d : Device) => d.tiers.lFault) _ (fun d x => by simp) _ _, foldl_keep (fun (d : Device) => d.tiers.extL) _ (fun d x => by simp) _ _, foldl_keep (fun (d : Device) => d.tiers.refreshL) _ (fun d x => by simp) _ _, foldl_keep (fun (d : Device) => d.tiers.refreshF) _ (fun d x => by simp) _ _, foldl_keep (fun (d : Device) => d.tiers.erased) _ (fun d x => by simp) _ _, foldl_keep (fun (d : Device) => d.tiers.draws) _ (fun d x => by simp) _ _, foldl_keep (fun (d : Device) => d.jobs) _ (fun d x => by simp) _ _, foldl_keep (fun (d : Device) => d.lastJob) _ (fun d x => by simp) _ _, foldl_keep (fun (d : Device) => d.endedJobs) _ (fun d x => by simp) _ _, foldl_keep (fun (d : Device) => d.links) _ (fun d x => by simp) _ _, foldl_keep (fun (d : Device) => d.shoal) _ (fun d x => by simp) _ _, foldl_keep (fun (d : Device) => d.tap) _ (fun d x => by simp) _ _, foldl_keep (fun (d : Device) => d.devCnt) _ (fun d x => by simp) _ _, foldl_keep (fun (d : Device) => d.telem) _ (fun d x => by simp) _ _⟩

end Sys2Proof.Machine
end

