-- ==== Sys2Proof/Laws/Events.lean ====
section
/-! SUPPORT. Events and responses: where they reach, and that a device event always reaches the sideband mailbox. -/

namespace Sys2Proof.Machine

/-- A function changed reads back. -/
@[simp] theorem Device.fn_modFn_same (d : Device) (f : Nat) (g : Fn → Fn) (h : f < 256) : (d.modFn f g).fn f = g (d.fn f) := by
  simp [Device.modFn, Device.fn, h]
/-- Every other function reads as before. -/
theorem Device.fn_modFn_other (d : Device) (f k : Nat) (g : Fn → Fn) (h : k ≠ f) : (d.modFn f g).fn k = d.fn k := by
  unfold Device.modFn Device.fn
  split
  · exact tget_tmod_other _ _ _ _ _ h
  · rfl

/-- A function mailbox changed leaves the sideband mailbox as it was. -/
theorem Device.modMbox_sideMb (d : Device) (m : Nat) (g : Mailbox → Mailbox) (h : m ≠ sbMb) : (d.modMbox m g).sideMb = d.sideMb := by
  simp [Device.modMbox, h]

/-- A function mailbox's response leaves the sideband mailbox as it was. -/
theorem Device.respond_sideMb (d : Device) (m s a b c r : Nat) (h : m ≠ sbMb) : (d.respond m s a b c r).sideMb = d.sideMb := by
  unfold Device.respond Device.respondWith
  dsimp only
  split
  · rfl
  · simp only [Device.fnEvent_keeps, Device.modMbox_sideMb _ _ _ h]
    split <;> rfl

/-- An event delivered to a function mailbox leaves the sideband mailbox as it was. -/
theorem Device.eventTo_sideMb (d : Device) (e : Event) (m : Nat) (h : m ≠ sbMb) : (d.eventTo e m).sideMb = d.sideMb := by
  unfold Device.eventTo
  dsimp only
  split
  · simp only [Device.respond_sideMb _ _ _ _ _ _ _ h, Device.modMbox_sideMb _ _ _ h]
  · split <;> simp only [Device.modMbox_sideMb _ _ _ h]

/-- A fold that delivers an event to function mailboxes leaves the sideband mailbox as it was. -/
theorem Device.eventTo_fold_sideMb (e : Event) : ∀ (ms : List Nat) (d : Device), (∀ m ∈ ms, m ≠ sbMb) →
    (ms.foldl (fun d m => d.eventTo e m) d).sideMb = d.sideMb
  | [], _, _ => rfl
  | m :: ms, d, h => by
    rw [List.foldl_cons, Device.eventTo_fold_sideMb e ms _ (fun k hk => h k (List.mem_cons_of_mem _ hk)),
      Device.eventTo_sideMb _ _ _ (h m List.mem_cons_self)]

/-- An answered request at the sideband leaves the events received there as they were. -/
theorem Device.respond_received (d : Device) (s a b c r : Nat) :
    (d.respond sbMb s a b c r).sideMb.received = d.sideMb.received := by
  unfold Device.respond Device.respondWith
  dsimp only
  split
  · rfl
  · split
    · simp [Device.mbox]
    · next h => exact absurd rfl h

/-- An event that reaches the sideband mailbox is its newest. -/
theorem Device.eventTo_lastEvent (d : Device) (e : Event) : (d.eventTo e sbMb).lastEvent = some e := by
  unfold Device.eventTo Device.lastEvent
  dsimp only
  split
  · rw [Device.respond_received]; simp [Device.modMbox]
  · split <;> simp [Device.modMbox]

/-- The device-admin PFs are functions. -/
theorem Device.adminPfs_ne (d : Device) : ∀ m ∈ d.adminPfs, m ≠ sbMb := by
  intro m hm
  simp only [Device.adminPfs, List.mem_map, List.mem_filter, List.mem_range] at hm
  obtain ⟨p, ⟨hp, _⟩, rfl⟩ := hm
  simp only [sbMb]
  omega

/-- A device event is the newest one of the sideband mailbox (R413). -/
@[simp] theorem Device.raiseDev_lastEvent (d : Device) (t i : Nat) : (d.raiseDev t i).lastEvent = some (devEvent t i) := by
  show ((sbMb :: d.adminPfs).foldl (fun d m => d.eventTo (devEvent t i) m) d).lastEvent = _
  rw [List.foldl_cons]
  unfold Device.lastEvent
  rw [Device.eventTo_fold_sideMb _ _ _ (Device.adminPfs_ne d)]
  exact Device.eventTo_lastEvent d _

/-- An alert leaves the events as they were. -/
@[simp] theorem Device.alert_lastEvent (d : Device) (b : Nat) : (d.alert b).lastEvent = d.lastEvent := rfl

/-- A POWER_THERMAL event is the newest one of the sideband mailbox (R490, R413). -/
@[simp] theorem Device.powerEvent_lastEvent (d : Device) (c h : Nat) (v : Int) :
    (d.powerEvent c h v).lastEvent = some (devEvent 0x0011 (powerInfo c h v)) := by
  unfold Device.powerEvent
  dsimp only
  split <;> simp [powerInfo]

/-- A cause of DEGRADED set is set. -/
@[simp] theorem Device.degrade_bit (d : Device) (b : Nat) : (d.degrade b).degraded = d.degraded ||| BitVec.ofNat 32 (2 ^ b) ∨
    (d.degraded.getLsbD b = true ∧ (d.degrade b).degraded = d.degraded) := by
  unfold Device.degrade
  split
  · next h => exact .inr ⟨h, rfl⟩
  · left; simp

/-! ### What reporting leaves unchanged -/

/-- Two reports after one another report. -/
theorem Device.told_trans {d e f : Device} (h1 : e = d.told e) (h2 : f = e.told f) : f = d.told f := by
  rw [h2, h1]; rfl
/-- Nothing reported changes no function. -/
theorem Device.fnsTold_refl (d : Device) : d.fnsTold d := fun _ => rfl
/-- Two reports after one another change of functions what one changes. -/
theorem Device.fnsTold_trans {d e f : Device} (h1 : d.fnsTold e) (h2 : e.fnsTold f) : d.fnsTold f := by
  intro k
  rw [h2 k, h1 k]
/-- A function changed in its mailbox, event causes and pending vectors alone. -/
theorem Device.modFn_fnsTold (d : Device) (f : Nat) (g : Fn → Fn)
    (hg : ∀ n, g n = { n with mb := (g n).mb, evStatus := (g n).evStatus, pba := (g n).pba }) : d.fnsTold (d.modFn f g) := by
  intro k
  by_cases h : k = f ∧ f < 256
  · obtain ⟨rfl, h⟩ := h
    rw [Device.fn_modFn_same _ _ _ h]
    exact hg _
  · have : (d.modFn f g).fn k = d.fn k := by
      by_cases hk : k = f
      · subst hk
        have : ¬ k < 256 := fun hf => h ⟨rfl, hf⟩
        simp [Device.modFn, this]
      · exact Device.fn_modFn_other _ _ _ _ hk
    rw [this]

/-- A function changed is told. -/
theorem Device.modFn_told (d : Device) (f : Nat) (g : Fn → Fn) : d.modFn f g = d.told (d.modFn f g) := by
  unfold Device.modFn
  split <;> rfl

/-- A message of a vector reports. -/
theorem Device.msix_told (d : Device) (f v : Nat) : d.msix f v = d.told (d.msix f v) ∧ d.fnsTold (d.msix f v) := by
  unfold Device.msix
  dsimp only
  split
  · exact ⟨rfl, Device.fnsTold_refl d⟩
  · split
    · exact ⟨Device.modFn_told _ _ _, Device.modFn_fnsTold _ _ _ fun _ => rfl⟩
    · exact ⟨rfl, fun _ => rfl⟩

/-- A function event reports. -/
theorem Device.fnEvent_told (d : Device) (f b : Nat) : d.fnEvent f b = d.told (d.fnEvent f b) ∧ d.fnsTold (d.fnEvent f b) := by
  unfold Device.fnEvent
  dsimp only
  have h1 := Device.modFn_told d f fun n => { n with evStatus := (d.fn f).evStatus ||| BitVec.ofNat 32 (2 ^ b) }
  have h2 : d.fnsTold (d.modFn f fun n => { n with evStatus := (d.fn f).evStatus ||| BitVec.ofNat 32 (2 ^ b) }) :=
    Device.modFn_fnsTold _ _ _ fun _ => rfl
  split
  · exact ⟨Device.told_trans h1 (Device.msix_told _ _ _).1, Device.fnsTold_trans h2 (Device.msix_told _ _ _).2⟩
  · exact ⟨h1, h2⟩

/-- A mailbox changed is told. -/
theorem Device.modMbox_told (d : Device) (m : Nat) (g : Mailbox → Mailbox) :
    d.modMbox m g = d.told (d.modMbox m g) ∧ d.fnsTold (d.modMbox m g) := by
  unfold Device.modMbox
  split
  · exact ⟨rfl, fun _ => rfl⟩
  · exact ⟨Device.modFn_told _ _ _, Device.modFn_fnsTold _ _ _ fun _ => rfl⟩

/-- An alert is told. -/
theorem Device.alert_told (d : Device) (b : Nat) : d.alert b = d.told (d.alert b) ∧ d.fnsTold (d.alert b) :=
  ⟨rfl, fun _ => rfl⟩

/-- A response reports. -/
theorem Device.respondWith_told (d : Device) (m s a b c r : Nat) (o : List Byte) :
    d.respondWith m s a b c r o = d.told (d.respondWith m s a b c r o) ∧ d.fnsTold (d.respondWith m s a b c r o) := by
  unfold Device.respondWith
  dsimp only
  split
  · exact ⟨rfl, Device.fnsTold_refl d⟩
  · split
    · split <;> exact ⟨rfl, fun _ => rfl⟩
    · split
      · exact ⟨Device.told_trans (e := { d with mgmt := { d.mgmt with shed := { d.mgmt.shed with busy := d.mgmt.shed.busy + 1 } } }) rfl
            (Device.told_trans (Device.modMbox_told _ _ _).1 (Device.fnEvent_told _ _ _).1),
          Device.fnsTold_trans (e := { d with mgmt := { d.mgmt with shed := { d.mgmt.shed with busy := d.mgmt.shed.busy + 1 } } })
            (fun _ => rfl) (Device.fnsTold_trans (Device.modMbox_told _ _ _).2 (Device.fnEvent_told _ _ _).2)⟩
      · exact ⟨Device.told_trans (Device.modMbox_told _ _ _).1 (Device.fnEvent_told _ _ _).1,
          Device.fnsTold_trans (Device.modMbox_told _ _ _).2 (Device.fnEvent_told _ _ _).2⟩

/-- An event delivered reports. -/
theorem Device.eventTo_told (d : Device) (e : Event) (m : Nat) : d.eventTo e m = d.told (d.eventTo e m) ∧ d.fnsTold (d.eventTo e m) := by
  unfold Device.eventTo
  dsimp only
  have h := Device.modMbox_told d m fun b => { b with received := ((d.now, e) :: b.received).take 256 }
  split
  · exact ⟨Device.told_trans h.1 (Device.respondWith_told _ _ _ _ _ _ _ _).1, Device.fnsTold_trans h.2 (Device.respondWith_told _ _ _ _ _ _ _ _).2⟩
  · split
    · split
      · exact ⟨Device.told_trans (Device.told_trans h.1 (Device.modMbox_told _ _ _).1) (Device.alert_told _ _).1,
          Device.fnsTold_trans (Device.fnsTold_trans h.2 (Device.modMbox_told _ _ _).2) (Device.alert_told _ _).2⟩
      · exact ⟨Device.told_trans h.1 (Device.modMbox_told _ _ _).1, Device.fnsTold_trans h.2 (Device.modMbox_told _ _ _).2⟩
    · exact ⟨Device.told_trans h.1 (Device.modMbox_told _ _ _).1, Device.fnsTold_trans h.2 (Device.modMbox_told _ _ _).2⟩

/-- Reports in a row report. -/
theorem Device.foldl_told {α : Type} (f : Device → α → Device) (h : ∀ d x, f d x = d.told (f d x) ∧ d.fnsTold (f d x)) :
    ∀ (xs : List α) (d : Device), xs.foldl f d = d.told (xs.foldl f d) ∧ d.fnsTold (xs.foldl f d)
  | [], d => ⟨rfl, Device.fnsTold_refl d⟩
  | x :: xs, d => by
    have h1 := h d x
    have h2 := Device.foldl_told f h xs (f d x)
    exact ⟨Device.told_trans h1.1 h2.1, Device.fnsTold_trans h1.2 h2.2⟩

/-- An event raised reports and changes nothing else (R413). -/
theorem Device.raise_told (d : Device) (e : Event) : d.raise e = d.told (d.raise e) ∧ d.fnsTold (d.raise e) :=
  Device.foldl_told _ (fun d m => Device.eventTo_told d e m) _ d

/-- A POWER_THERMAL event reports and changes nothing else (R490). -/
theorem Device.powerEvent_told (d : Device) (c h : Nat) (v : Int) :
    d.powerEvent c h v = d.told (d.powerEvent c h v) ∧ d.fnsTold (d.powerEvent c h v) := by
  unfold Device.powerEvent
  dsimp only
  have hr := Device.raise_told d ⟨0x0011, none, BitVec.ofNat 32 (c + at_ 8 h + at_ 16 (twos 16 v))⟩
  split <;> first
    | exact ⟨Device.told_trans hr.1 (Device.alert_told _ _).1, Device.fnsTold_trans hr.2 (Device.alert_told _ _).2⟩
    | exact hr

end Sys2Proof.Machine
end

