-- ==== Sys2Proof/Laws/Memory.lean ====
section
/-! SUPPORT. Memory: every operation keeps the one canonical form, bytes just written read back, and every other byte reads as before. -/

namespace Sys2Proof.Machine

/-- The canonical form says that no cell lists 0 and that addresses strictly rise. -/
theorem Memory.wf_iff (m : List Host.Cell) : Memory.wf m = true ↔ (∀ c ∈ m, c.2 ≠ 0) ∧ m.Pairwise fun a b => a.1 < b.1 := by
  induction m with
  | nil => simp [Memory.wf]
  | cons c t ih =>
    cases t with
    | nil => simp [Memory.wf]
    | cons e t =>
      simp only [Memory.wf, Bool.and_eq_true, ih, bne_iff_ne, decide_eq_true_eq, List.pairwise_cons, List.forall_mem_cons]
      constructor
      · rintro ⟨⟨h0, hlt⟩, ⟨h1, h2⟩, h3, h4⟩
        exact ⟨⟨h0, h1, h2⟩, ⟨hlt, fun x hx => Nat.lt_trans hlt (h3 x hx)⟩, h3, h4⟩
      · rintro ⟨⟨h0, h1, h2⟩, ⟨hlt, _⟩, h3, h4⟩
        exact ⟨⟨h0, hlt⟩, ⟨h1, h2⟩, h3, h4⟩

/-- Leaving cells out keeps the form. -/
theorem Memory.wf_filter (p : Host.Cell → Bool) (m : List Host.Cell) (h : Memory.wf m = true) : Memory.wf (m.filter p) = true := by
  rw [Memory.wf_iff] at h ⊢
  exact ⟨fun c hc => h.1 c (List.mem_filter.1 hc).1, h.2.filter p⟩

/-- The cells of a run of bytes lie in its range and list no 0. -/
theorem mem_cellsOf (bs : List Byte) : ∀ (a : Nat) (c : Host.Cell), c ∈ cellsOf a bs → c.2 ≠ 0 ∧ a ≤ c.1 ∧ c.1 < a + bs.length := by
  induction bs with
  | nil => intro a c h; simp [cellsOf] at h
  | cons b bs ih =>
    intro a c h
    simp only [cellsOf] at h
    split at h
    · have := ih _ _ h; exact ⟨this.1, by omega, by simp only [List.length_cons]; omega⟩
    · next hb =>
      rcases List.mem_cons.1 h with rfl | h
      · exact ⟨hb, Nat.le_refl _, by simp⟩
      · have := ih _ _ h; exact ⟨this.1, by omega, by simp only [List.length_cons]; omega⟩

/-- Their addresses rise. -/
theorem cellsOf_pairwise (bs : List Byte) : ∀ a, (cellsOf a bs).Pairwise fun a b => a.1 < b.1 := by
  induction bs with
  | nil => intro a; simp [cellsOf]
  | cons b bs ih =>
    intro a
    simp only [cellsOf]
    split
    · exact ih _
    · exact List.pairwise_cons.2 ⟨fun c hc => (mem_cellsOf bs _ c hc).2.1, ih _⟩

/-- A store keeps the form. -/
theorem Memory.wf_memStore (a : Nat) (bs : List Byte) (m : List Host.Cell) (h : Memory.wf m = true) : Memory.wf (memStore a bs m) = true := by
  rw [Memory.wf_iff] at h ⊢
  refine ⟨fun c hc => ?_, List.pairwise_append.2 ⟨h.2.filter _, List.pairwise_append.2 ⟨cellsOf_pairwise _ _, h.2.filter _, ?_⟩, ?_⟩⟩
  · simp only [memStore, List.mem_append, List.mem_filter] at hc
    rcases hc with hc | hc | hc
    · exact h.1 c hc.1
    · exact (mem_cellsOf bs _ c hc).1
    · exact h.1 c hc.1
  · intro x hx y hy
    have := mem_cellsOf bs _ x hx
    simp only [List.mem_filter, decide_eq_true_eq] at hy
    omega
  · intro x hx y hy
    simp only [List.mem_filter, decide_eq_true_eq, List.mem_append] at hx hy
    rcases hy with hy | hy
    · have := mem_cellsOf bs _ y hy; omega
    · omega

/-- A write keeps the form. -/
theorem Device.write_wf (d : Device) (a : Nat) (bs : List Byte) (h : Memory.wf d.mem = true) : Memory.wf (d.write a bs).mem = true :=
  Memory.wf_memStore a bs d.mem h
/-- Zeroing keeps the form. -/
theorem Device.zero_wf (d : Device) (a n : Nat) (h : Memory.wf d.mem = true) : Memory.wf (d.zero a n).mem = true :=
  Memory.wf_filter _ d.mem h
/-- A key draw keeps the form. -/
theorem Device.erase_wf (d : Device) (a n k : Nat) (h : Memory.wf d.mem = true) : Memory.wf (d.erase a n k).mem = true :=
  Memory.wf_filter _ d.mem h

/-- A byte of a memory of which no cell is at the address reads 0. -/
theorem memByte_absent (a : Nat) (m : List Host.Cell) (h : ∀ c ∈ m, c.1 ≠ a) : memByte a m = 0 := by
  induction m with
  | nil => rfl
  | cons c m ih => simp [memByte, h c List.mem_cons_self, ih fun k hk => h k (List.mem_cons_of_mem _ hk)]

/-- A byte of two joined memories, the first of which does not list the address. -/
theorem memByte_append_right (a : Nat) (m n : List Host.Cell) (h : ∀ c ∈ m, c.1 ≠ a) : memByte a (m ++ n) = memByte a n := by
  induction m with
  | nil => rfl
  | cons c m ih => simp [memByte, h c List.mem_cons_self, ih fun k hk => h k (List.mem_cons_of_mem _ hk)]

/-- A byte of two joined memories, the second of which does not list the address. -/
theorem memByte_append_left (a : Nat) (m n : List Host.Cell) (h : ∀ c ∈ n, c.1 ≠ a) : memByte a (m ++ n) = memByte a m := by
  induction m with
  | nil => exact memByte_absent a n h
  | cons c m ih => simp only [List.cons_append, memByte, ih]

/-- Cells left out change no byte at an address they are not at. -/
theorem memByte_filter (a : Nat) (p : Host.Cell → Bool) (m : List Host.Cell) (h : ∀ v, p (a, v) = true) : memByte a (m.filter p) = memByte a m := by
  induction m with
  | nil => rfl
  | cons c m ih =>
    obtain ⟨b, v⟩ := c
    by_cases hb : b = a
    · subst hb; simp [List.filter, h, memByte]
    · simp only [List.filter]
      split <;> simp [memByte, hb, ih]

/-- A run of bytes reads back from its cells. -/
theorem memByte_cellsOf (bs : List Byte) : ∀ (a i : Nat), i < bs.length → memByte (a + i) (cellsOf a bs) = bs.getD i 0 := by
  induction bs with
  | nil => intro a i h; simp at h
  | cons b bs ih =>
    intro a i h
    cases i with
    | zero =>
      simp only [cellsOf]
      split
      · next hb =>
        rw [memByte_absent]
        · simp [hb]
        · intro c hc; have := mem_cellsOf bs _ c hc; omega
      · simp [memByte]
    | succ i =>
      have h' := ih (a + 1) i (by simpa using h)
      rw [show a + 1 + i = a + (i + 1) by omega] at h'
      simp only [cellsOf]
      split
      · simpa using h'
      · simp only [memByte]
        rw [if_neg (by omega)]
        simpa using h'

/-- The bytes of a store read back. -/
theorem memByte_memStore_in (a i : Nat) (bs : List Byte) (m : List Host.Cell) (h : i < bs.length) :
    memByte (a + i) (memStore a bs m) = bs.getD i 0 := by
  unfold memStore
  rw [memByte_append_right, memByte_append_left, memByte_cellsOf bs a i h]
  · intro c hc; simp only [List.mem_filter, decide_eq_true_eq] at hc; omega
  · intro c hc; simp only [List.mem_filter, decide_eq_true_eq] at hc; omega

/-- A store changes no byte outside its range. -/
theorem memByte_memStore_out (a x : Nat) (bs : List Byte) (m : List Host.Cell) (h : x < a ∨ a + bs.length ≤ x) :
    memByte x (memStore a bs m) = memByte x m := by
  unfold memStore
  rcases h with h | h
  · rw [memByte_append_left, memByte_filter _ _ _ (by simpa using h)]
    intro c hc
    rcases List.mem_append.1 hc with hc | hc
    · have := mem_cellsOf bs _ c hc; omega
    · simp only [List.mem_filter, decide_eq_true_eq] at hc; omega
  · rw [memByte_append_right, memByte_append_right, memByte_filter _ _ _ (by simpa using h)]
    · intro c hc; have := mem_cellsOf bs _ c hc; omega
    · intro c hc; simp only [List.mem_filter, decide_eq_true_eq] at hc; omega

/-- Nothing erased stays nothing erased when a range is written. -/
@[simp] theorem eraseTrim_nil (a n : Nat) : eraseTrim a n [] = [] := rfl

/-- The bytes of a write read back where no key draw has made memory unknown (R304). -/
theorem Device.byteAt_write_in (d : Device) (a i : Nat) (bs : List Byte) (he : d.tiers.erased = []) (h : i < bs.length) :
    (d.write a bs).byteAt (a + i) = bs.getD i 0 := by
  simp only [Device.byteAt, Device.write, he, eraseTrim_nil, List.find?_nil, memByte_memStore_in a i bs d.mem h]
/-- A write leaves every byte outside its range as it reads (R304). -/
theorem Device.byteAt_write_out (d : Device) (a x : Nat) (bs : List Byte) (he : d.tiers.erased = []) (h : x < a ∨ a + bs.length ≤ x) :
    (d.write a bs).byteAt x = d.byteAt x := by
  simp only [Device.byteAt, Device.write, he, eraseTrim_nil, List.find?_nil, memByte_memStore_out a x bs d.mem h]
/-- A zeroed range reads 0 where no key draw has made memory unknown (R424). -/
theorem Device.byteAt_zero_in (d : Device) (a n x : Nat) (he : d.tiers.erased = []) (h : a ≤ x ∧ x < a + n) : (d.zero a n).byteAt x = 0 := by
  simp only [Device.byteAt, Device.zero, he, eraseTrim_nil, List.find?_nil]
  refine memByte_absent _ _ fun c hc => ?_
  simp only [List.mem_filter, Bool.or_eq_true, decide_eq_true_eq] at hc
  omega
/-- Zeroing leaves every byte outside its range as it reads (R424). -/
theorem Device.byteAt_zero_out (d : Device) (a n x : Nat) (he : d.tiers.erased = []) (h : x < a ∨ a + n ≤ x) : (d.zero a n).byteAt x = d.byteAt x := by
  simp only [Device.byteAt, Device.zero, he, eraseTrim_nil, List.find?_nil]
  exact memByte_filter _ _ _ (by simpa using h)

/-- The device regulator is charged without a change of memory. -/
theorem Device.charge_mem (d : Device) (o : Bool) (c : Option Nat) (b : Nat) (r : Metered) (p n : Nat) : (d.charge o c b r p n).mem = d.mem := by simp
/-- A parity row takes its delta without a change of memory. -/
theorem Device.parityDelta_mem (d : Device) (c key : Nat) : (d.parityDelta c key).mem = d.mem := by
  unfold Device.parityDelta; split <;> rfl
/-- A counter of a channel changes no byte of memory. -/
theorem Device.memCount_mem (d : Device) (c : Nat) (g : MemCounters → MemCounters) : (d.memCount c g).mem = d.mem := rfl
/-- A flush of the write-combining buffer changes no byte of memory. -/
theorem Device.flush_mem (d : Device) (c key : Nat) : (d.flush c key).mem = d.mem := by
  unfold Device.flush
  split
  · rfl
  · dsimp only
    split <;> simp only [Device.charge_mem, Device.parityDelta_mem] <;> split <;> rfl
/-- Making room in a write-combining buffer changes no byte of memory. -/
theorem Device.wcbRoom_mem (d : Device) (c : Nat) : (d.wcbRoom c).mem = d.mem := by
  unfold Device.wcbRoom
  dsimp only
  split
  · rfl
  · cases oldestOf (d.ctrlWcb c) with
    | none => rfl
    | some o => exact Device.flush_mem _ _ _
/-- What a channel does on accepting part of a write changes no byte of memory. -/
theorem Device.acceptPart_mem (d : Device) (c key lo hi : Nat) : (d.acceptPart c key lo hi).mem = d.mem := by
  have j : ∀ e : Device, (if (e.chan c).journal.contains key then e else (e.modChan c fun k => { k with journal := k.journal ++ [key] }).memCount c
      fun m => { m with journal := m.journal + 1 }).mem = e.mem := by intro e; split <;> rfl
  unfold Device.acceptPart
  dsimp only
  split
  · rw [Device.parityDelta_mem, j]; rfl
  · split
    · rw [Device.parityDelta_mem]; rfl
    · rfl
  · split
    · rw [Device.parityDelta_mem]; rfl
    · rw [j]; rfl
  · have h : ∀ (b : Bool) (e : Device), (if b = true then e else e.wcbRoom c).mem = e.mem := by
      intro b e; split
      · rfl
      · exact Device.wcbRoom_mem _ _
    split
    · rw [Device.flush_mem]; exact h _ _
    · exact h _ _
/-- A write accepted by its controllers stores its bytes and nothing else in memory. -/
theorem Device.memWrite_mem (d : Device) (a : Nat) (bs : List Byte) : (d.memWrite a bs).mem = memStore a bs d.mem := by
  unfold Device.memWrite
  rw [foldl_keep Device.mem _ (fun d p => d.acceptPart_mem _ _ _ _)]
  rfl
/-- A write accepted by its controllers keeps the form. -/
theorem Device.memWrite_wf (d : Device) (a : Nat) (bs : List Byte) (h : Memory.wf d.mem = true) : Memory.wf (d.memWrite a bs).mem = true := by
  rw [Device.memWrite_mem]; exact Memory.wf_memStore a bs d.mem h

/-- A mirrored write keeps the form. -/
theorem Device.writeMirrored_wf (d : Device) (a b : Nat) (bs : List Byte) (h : Memory.wf d.mem = true) :
    Memory.wf (d.writeMirrored a b bs).mem = true := by
  unfold Device.writeMirrored
  generalize mirrorCuts _ b bs = ps
  induction ps generalizing d with
  | nil => exact h
  | cons p ps ih => exact ih _ (Device.memWrite_wf _ _ _ (Device.memWrite_wf _ _ _ h))
/-- Counting one mirror read changes no memory. -/
theorem Device.mirrorNote_mem (d : Device) (a : Nat) (e : Device) (i : Nat) : (d.mirrorNote a e i).mem = e.mem := by
  delta Device.mirrorNote
  split
  · rfl
  · generalize d.chanOf _ = o
    cases o with
    | none => rfl
    | some q => exact Device.memCount_mem e q.1 fun m => { m with rebuilds := m.rebuilds + 1 }
/-- Counting mirror reads changes no memory. -/
theorem Device.mirrorCount_mem (d : Device) (a n : Nat) : (d.mirrorCount a n).mem = d.mem := by
  delta Device.mirrorCount
  exact foldl_keep Device.mem (d.mirrorNote a) (Device.mirrorNote_mem d a) _ d

end Sys2Proof.Machine
end

