-- ==== Sys2Proof/Laws/Streams.lean ====
section
/-! SUPPORT. What moving semaphore pairs, streams and charges can change, in the terms of Safety: pairsTo for rings, burgeesMetered and
readsCharged for metering. -/

namespace Sys2Proof.Machine

/-! ### Streams and rings (R241 to R243) -/

/-- A stream's record is changed in the streams alone. -/
theorem Device.modStream_only (d : Device) (sc id : Nat) (g : Stream → Stream) :
    d.modStream sc id g = { d with streams := (d.modStream sc id g).streams } := rfl
/-- An STE's record is changed in the streams alone. -/
theorem Device.modSte_only (d : Device) (sc ste : Nat) (g : Ste → Ste) :
    d.modSte sc ste g = { d with streams := (d.modSte sc ste g).streams } := rfl
/-- A transfer is put outstanding in the streams alone. -/
theorem Device.addXfers_only (d : Device) (sc : Nat) (t : Stream) (x : Transfer) :
    d.addXfers sc t x = { d with streams := (d.addXfers sc t x).streams } := rfl

/-- Nothing moved. -/
theorem Device.pairsTo_refl (d : Device) : d.pairsTo d := ⟨rfl, fun _ => ⟨rfl, fun _ => rfl⟩⟩
/-- Movements follow one another. -/
theorem Device.pairsTo_trans {d e f : Device} (h : d.pairsTo e) (k : e.pairsTo f) : d.pairsTo f := by
  obtain ⟨h1, h2⟩ := h
  obtain ⟨k1, k2⟩ := k
  refine ⟨by rw [k1, h1], fun n => ⟨?_, fun b => ?_⟩⟩
  · rw [(k2 n).1, (h2 n).1]
  · rw [(k2 n).2 b, (h2 n).2 b]
/-- What changes the streams alone moves pairs. -/
theorem Device.pairsTo_modStr (d : Device) (sc : Nat) (g : Streams → Streams) : d.pairsTo (d.modStr sc g) :=
  ⟨rfl, fun _ => ⟨rfl, fun _ => rfl⟩⟩
/-- Who holds a tile buffer is all that follows a pair's movement. -/
theorem Device.pairsTo_syncTile (d : Device) (sc buf : Nat) : d.pairsTo (d.syncTile sc buf) := by
  refine ⟨rfl, fun k => ?_⟩
  simp only [Device.syncTile, Device.modEng, Device.eng]
  by_cases hk : k = sc
  · subst hk
    rw [tget_tmod_same]
    refine ⟨rfl, fun b => ?_⟩
    by_cases hb : b = buf
    · subst hb; dsimp only; rw [tget_tmod_same]
    · dsimp only; rw [tget_tmod_other _ _ _ _ _ hb]
  · rw [tget_tmod_other _ _ _ _ _ hk]
    exact ⟨rfl, fun _ => rfl⟩
/-- A semaphore pair's movement moves pairs. -/
theorem Device.pairsTo_modSem (d : Device) (sc k : Nat) (g : SemPair → SemPair) : d.pairsTo (d.modSem sc k g) := by
  unfold Device.modSem
  dsimp only
  split
  · exact Device.pairsTo_trans (d.pairsTo_modStr sc _) (Device.pairsTo_syncTile _ sc _)
  · exact d.pairsTo_modStr sc _
/-- So does that of a context's pair, spilled or not (R261). -/
theorem Device.pairsTo_modPair (d : Device) (sc k ctx : Nat) (g : SemPair → SemPair) : d.pairsTo (d.modPair sc k ctx g) := by
  unfold Device.modPair
  dsimp only
  split
  · exact d.pairsTo_modSem sc k g
  · exact d.pairsTo_modStr sc _

/-! ### Metering (R31, R251, R345) -/

/-- Metering changes of a burgee no more than buckets and accounts, and follows itself. -/
theorem Device.burgeesMetered_trans {d e f : Device} (h : d.burgeesMetered e) (k : e.burgeesMetered f) : d.burgeesMetered f := fun b => by
  rw [k b, h b]
/-- Metering changes of a function the account alone, and follows itself. -/
theorem Device.fnsMetered_trans {d e f : Device} (h : d.fnsMetered e) (k : e.fnsMetered f) : d.fnsMetered f := fun n => by
  rw [k n, h n]
/-- Reads charged follow one another. -/
theorem Device.readsCharged_trans {d e f : Device} (h : d.readsCharged e) (k : e.readsCharged f) : d.readsCharged f :=
  ⟨by rw [k.1, h.1], Device.fnsMetered_trans h.2.1 k.2.1, Device.burgeesMetered_trans h.2.2 k.2.2⟩
/-- Nothing is metered where nothing changes. -/
theorem Device.readsCharged_refl (d : Device) : d.readsCharged d := ⟨rfl, fun _ => rfl, fun _ => rfl⟩
/-- A change of a function's account is metering. -/
theorem Device.modFn_account_metered (d : Device) (f : Nat) (g : Account → Account) :
    d.readsCharged (d.modFn f fun n => { n with account := g n.account }) := by
  unfold Device.modFn
  split
  · refine ⟨rfl, fun n => ?_, fun _ => rfl⟩
    simp only [Device.fn]
    by_cases h : n = f
    · subst h; rw [tget_tmod_same]
    · rw [tget_tmod_other _ _ _ _ _ h]
  · exact d.readsCharged_refl
/-- A change of a burgee's buckets and accounts is metering. -/
theorem Device.modBurgee_metered (d : Device) (b : Nat) (g : Burgee → Burgee)
    (h : ∀ x, g x = { x with buckets := (g x).buckets, bgAccount := (g x).bgAccount, readback := (g x).readback }) :
    d.readsCharged (d.modBurgee b g) := by
  refine ⟨rfl, fun _ => rfl, fun n => ?_⟩
  simp only [Device.modBurgee, Device.burgee]
  by_cases hn : n = b
  · subst hn; rw [tget_tmod_same]; exact h _
  · rw [tget_tmod_other _ _ _ _ _ hn]
/-- Counting for a client is metering. -/
theorem Device.account_metered (d : Device) (c : Option Nat) (b : Nat) (g : Account → Account) : d.readsCharged (d.account c b g) := by
  unfold Device.account
  dsimp only
  cases c with
  | some f => exact Device.readsCharged_trans (d.modFn_account_metered f g) (Device.modBurgee_metered _ b _ fun _ => rfl)
  | none => exact Device.readsCharged_trans (d.modBurgee_metered b _ fun _ => rfl) (Device.modBurgee_metered _ b _ fun _ => rfl)
/-- A charge to a burgee is metering (R251, R345). -/
theorem Device.charge_metered (d : Device) (c : Option Nat) (b : Nat) (r : Metered) (p n : Nat) : d.readsCharged (d.charge false c b r p n) := by
  unfold Device.charge
  simp only [Bool.false_eq_true, if_false]
  exact Device.readsCharged_trans (d.modBurgee_metered b _ fun _ => rfl) (Device.account_metered _ c b _)
/-- Counts of controllers are metering (R574). -/
theorem Device.modChan_metered (d : Device) (c : Nat) (g : Channel → Channel) : d.readsCharged (d.modChan c g) :=
  ⟨rfl, fun _ => rfl, fun _ => rfl⟩
/-- What each step of a fold meters, the fold meters. -/
theorem Device.foldl_metered {β : Type} (f : Device → β → Device) (h : ∀ (d : Device) x, d.readsCharged (f d x)) (xs : List β) (d : Device) :
    d.readsCharged (xs.foldl f d) := by
  induction xs generalizing d with
  | nil => exact d.readsCharged_refl
  | cons x xs ih => exact Device.readsCharged_trans (h d x) (ih (f d x))
/-- A count of a controller is metering. -/
theorem Device.memCount_metered (d : Device) (c : Nat) (g : MemCounters → MemCounters) : d.readsCharged (d.memCount c g) :=
  d.modChan_metered c _
/-- What a rebuild notes of a read is metering (R322). -/
theorem Device.stripeNote_metered (d : Device) (c key : Nat) : d.readsCharged (d.stripeNote c key) := by
  unfold Device.stripeNote
  split
  · exact d.modChan_metered _ _
  · exact d.readsCharged_refl
/-- The accesses of a read counted are metering. -/
theorem Device.memReadCount_metered (d : Device) (a n p : Nat) : d.readsCharged (d.memReadCount a n p) := by
  unfold Device.memReadCount
  refine Device.foldl_metered _ (fun d q => ?_) _ d
  exact Device.readsCharged_trans (d.memCount_metered q.1 _) (Device.stripeNote_metered _ q.1 q.2.1)
/-- An access of a burgee's own traffic charged is metering (R251). -/
theorem Device.chargeAt_metered (d : Device) (t : Traffic) (a n : Nat) (w : Bool) (h : t.own = false) : d.readsCharged (d.chargeAt t a n w) := by
  unfold Device.chargeAt
  generalize d.tierCharge a n w = o
  cases o with
  | some q => dsimp only; rw [h]; exact d.charge_metered _ _ _ _ _
  | none => exact d.readsCharged_refl
/-- A read for a burgee's own traffic changes charges and counts alone (R251, R574). -/
theorem Device.readFor_metered (d : Device) (t : Traffic) (a n : Nat) (h : t.own = false) : d.readsCharged (d.readFor t a n) := by
  unfold Device.readFor
  exact Device.readsCharged_trans (d.chargeAt_metered t a n false h) (Device.memReadCount_metered _ a n t.pennant)

end Sys2Proof.Machine
end

