-- ==== Sys2Proof/Tests/Slice0.lean ====
section
/-! SUPPORT. Own tests: examples worked in the spec, ill-formed commands refused, and for every statement with hypotheses a state and operands
that meet them, clause by clause. -/

open Sys2Proof Sys2Proof.Machine
namespace Sys2Proof.Tests
set_option maxRecDepth 100000
set_option Elab.async false
/-! ### States and operands the witnesses use -/

/-- The value of a run, if it ends, satisfies a test. -/
def okAnd {ε α : Type} (r : Except ε α) (p : α → Bool) : Bool := match r with | .ok x => p x | .error _ => false
/-- The error of a run, if it stops, satisfies a test. -/
def errAnd {ε α : Type} (r : Except ε α) (p : ε → Bool) : Bool := match r with | .error x => p x | .ok _ => false
def st (d : Device) : State := { dev := d }
def d0 : Device := State.reset.dev
def dr : Device := { d0 with
  phase := .ready, aon := { d0.aon with sysPwrok := true, alert := 0 }, tiers := { d0.tiers with trained := true }, straps := { d0.straps with sampled := true, inForce := 2 }, ens := { d0.ens with holder := some 0, health0 := { state := 2 }, health1 := { state := 1 } } }
def boot (test : Bool) (bad : List Nat) : BootInfo := ⟨2, 0, test, bad, List.range 17, [], [], [], [], [], [], [0], []⟩
def dCold : Device := { d0 with phase := .coldDone, aon := { d0.aon with sysPwrok := true }, mgmt := { d0.mgmt with bootAt := some 0 } }
def dWarm : Device := { dr with phase := .warmDone, mgmt := { dr.mgmt with bootAt := some 5 }, flash := { dr.flash with valid := [0, 1, 2] } }
def dNoClk : Device := { dCold with phase := .held, aon := { dCold.aon with memrefOk := false } }
def dRst : Device := { dr with resets := [⟨true, 5, 9⟩, ⟨false, 7, 3⟩] }
def dHold : Device := { d0 with aon := { d0.aon with sysPwrok := true, railHold := true } }
def dDrain : Device := { dr with phase := .draining }
def dOff : Device := { d0 with aon := { d0.aon with vaux := false } }
def dBo : Device := { dr with aon := { dr.aon with bo := { episode := true, frozen := true, episodes := 1, ts := 5, since := 5 } } }
def dBoEnd : Device := { dr with aon := { dr.aon with bo := { episode := true, episodes := 1, ts := 5 } } }
def dQui : Device := { dBo with quiesced := true, degraded := 8 }
def dLoop : Device := { dr with power := { dr.power with h1 := { loopEn := true, belowAt := some 7, aboveAt := some 3 } } }
def dDef : Device := { dr with power := { dr.power with h1 := { loopEn := true, belowAt := some 7, aboveAt := some 3, deficit := true } } }
def dHot : Device := { dr with power := { dr.power with samples := [99999999], renv := 44 } }
def dVac : Device := { dr with ens := { dr.ens with holder := none } }
def dFence : Device := { dr with ens := { dr.ens with fenced := true } }
def act (p : Bool) : Activation := ⟨1, 0, 1, 5, p, 100, false, (256, 0)⟩
def dAct : Device := { dr with ens := { dr.ens with activation := some (act false) } }
def dProb : Device := { dr with ens := { dr.ens with activation := some (act true), holder := some 1 } }
def qp0 : QueuePair := { sqSize := 4, cqSize := 4, irqEn := true, sqTail := 2, sqBase := 0x10000, cqBase := 0x20000, vector := 1, aggTime := 5, aggCount := 8, unread := 2, cqTail := 2, inFlight := 1, waitFrom := some 5 }
def fn0 : Fn := { assigned := true, burgee := 1, permRead := true, permWrite := true, permAdmin := true, qpMax := 8, msixSize := 4, bme := true, qps := [(0, qp0), (1, { qp0 with err := true })], msix := [(1, { masked := false })], evStatus := 3, evMask := 1, log := { size := 64, pending := 4, base := 0x30000 } }
def x3 : Index :=
  let p := fun (id : W64) => idHash 4 id
  { indexNo := 3, kind := .cell, metric := .ham, dim := 64, inputFmt := .bin1, primaryFmt := .sign1, refine := none, attrWords := 1, subspaces := 0, headroom := 0, stageA := 0, burgee := 1, centroidFmt := .bin1, nCells := 2, nCap := 100, nLive := 1, hdrBase := lBase + 0x2000000, centroidBase := lBase + 0x2001000, codebookLiveBase := 0, codebookTargetBase := 0, idMapBase := lBase + 0x2002000, idMapBuckets := 4, deltaEntries := 16, deltaFBase := 0x1000000, deltaLogBase := lBase + 0x2010000, deltaHead := 5, deltaTail := 4, graphAuxBase := 0, refineBase := 0, placementBase := 0, rewriteWindow := 0, reserved := 0x100000,
    centroids := [.plain .bin1 (List.replicate 64 0), .plain .bin1 (List.replicate 64 1)], codebooks := [], writeSeq := 9, occupied := 2, view := 5,
    cells := [(0, { nSlots := 1, nLive := 1, cur := { capBlocks := 2, slotBase := lBase + 0x2003000, tombBase := lBase + 0x2008000, slots := [(0, ⟨7, List.replicate 64 1, [0x55], none, 0⟩)] } })],
    delta := [(4, ⟨9, 0, 1, false, false, 0xFFFFFFFF, 0xFFFFFFFF, 8, [0x66], .plain .sign1 (List.replicate 64 0), 0, 0, 77, 2, false⟩)],
    idMap := tset (p 7).2 (tset 0 (idWord (p 7).1 (.slot 0 0)) []) (tset (p 9).2 (tset 1 (idWord (p 9).1 (.delta 4)) (tget [] (p 9).2 (tset (p 7).2 (tset 0 (idWord (p 7).1 (.slot 0 0)) []) []))) []) }
def x3g : Index := let p := fun (id : W64) => idHash 4 id
  { x3 with idMap := let m1 := tset (p 7).2 (tset 0 (idWord (p 7).1 (.slot 0 0)) []) []; tset (p 9).2 (tset 1 (idWord (p 9).1 (.delta 4)) (tget [] (p 9).2 m1)) m1 }
def x3full : Index := { x3g with deltaTail := 6 }
def x3cap : Index := { x3g with nCap := 2 }
def dx : Device := { dr with ports := [{ up := true }, {}, {}, {}], fns := [(0, fn0)], burgees := [(1, { enabled := true })], indexes := [(3, x3g)], now := 1000000 }
def cmd (op : IoOp) (id : W64) : Cmd := { stamp := 4, fn := 0, qid := 0, half := 0, burgee := 1, cid := 0x1234, indexNo := 3, op := op, t0 := 5, deadline := none, out := [], id := id, vecs := [List.replicate 64 0x3F800000], attrs := [0x77], flags := 1 }
def dw (op : IoOp) (id : W64) (x : Index := x3g) : Device := { dx with indexes := [(3, x)], cmds := [{ cmd op id with accepted := some 1, phase := .active }] }
def dBar : Device := { dx with tiers := { dx.tiers with extF := [⟨0, 0x10000000, some 1⟩] }, mem := [⟨5, 9⟩], mgmt := { dx.mgmt with feat := { bar2En := true } } }
def dHeld : Device := { dx with fns := [(0, { fn0 with bme := false, heldOut := [.hostWrite 0 0x50 false [1]] })], aon := { dx.aon with alert := 0x90, alertMask := 0x10 } }
def dLost : Device := { dx with ports := [{ up := false, lost := true }, {}, {}, {}] }
def sqeF (op : Nat) (alls : Nat) : List Byte := leBytes 1 op ++ leBytes 1 0 ++ leBytes 2 0xAB ++ leBytes 2 3 ++ List.replicate 26 0 ++ leBytes 1 0 ++ leBytes 1 alls ++ List.replicate 30 0
def ans (op alls : Nat) : HostAnswer := ⟨some (sqeF op alls), [], [], none⟩
def sc (op : IoOp) : Cmd := { stamp := 7, fn := 0, qid := 0, half := 0, burgee := 1, cid := 0x1234, indexNo := 3, op := op, t0 := 5, deadline := some 90000000, out := [(0x5000, 4096)], vecs := [List.replicate 64 0x3F800000], sp := { k := 2, probes := 2, stageC := true } }
def dS0 (op : IoOp) : Device := { dx with cmds := [sc op], burgees := [(1, { enabled := true, scSet := 1, floor := List.replicate 64 100, call := List.replicate 64 100, share := List.replicate 64 1, buckets := List.replicate 8 { rate := 10, level := 0 } })] }
def dS1 (op : IoOp) : Device := hoistBoundaryEff 1 (dS0 op)
def dS2 (op : IoOp) : Device := let d := stageStartEff 7 2 (stageStartEff 7 1 (dS1 op)); { d with ctxs := d.ctxs.map fun k => { k with started := true } }
def dS3 (op : IoOp) : Device := unitEndEff 7 0 0 none (dS2 op)
def dS4 (op : IoOp) : Device := foldStepEff 7 0 (dS3 op)
def dS5 (op : IoOp) : Device := (List.range 8).foldl (fun d u => foldStepEff 7 0 (unitEndEff 7 0 u none d)) (dS2 op)
def dS6 (op : IoOp) : Device := stageStartEff 7 3 (dS5 op)
def dM : Device := { dx with tiers := { dx.tiers with packages := 17, chans := [(0, { state := .inService }), (16, { state := .inService }), (68, { state := .inService })], extF := [⟨0, 0x10000000, some 1⟩] }, burgees := [(1, { enabled := true, buckets := List.replicate 8 { rate := 10, level := 100000 } })] }
def chF : Nat := (dM.chanOf 0).elim 0 (·.1)
def dCh (k : Channel) (n : Nat := 0) : Device := { dM with tiers := { dM.tiers with chans := tset n k dM.tiers.chans } }
def dTag (k : Channel) : Device := dCh { k with state := .inService } chF
def ap (op da sa sb lv imm : Nat) : W64 := BitVec.ofNat 64 (op * 2 ^ 58 + da * 2 ^ 55 + sa * 2 ^ 52 + sb * 2 ^ 49 + lv * 2 ^ 46 + imm)
def strm (opc : Nat) : Stream := { id := 3, ste := 0, opcode := opc, progSlot := 1, own := false, burgee := 1, pennant := 4, prefetch := 2, sem := 5, idxSem := some 6, chain := false, ringAddr := 0x1000, slotBytes := 4096, slotCount := 0, unit := 0, ctx := 8, escBase := 0x4000, mcMask := 0, init := [0x100, 0x40, 7, 0, 0, 0, 0, 0], regs := [0x100, 0x40, 7, 0, 0, 0, 0, 0], slot := some 1, loops := [⟨2, 3, 1⟩] }
def strs (t : Stream) (ws : List W64) (xs : List Transfer := []) : Streams := { progs := [(1, ws)], running := [t, { t with id := 9 }], nextId := 20, xfers := xs, sems := [(5, { active := true, nSlots := 3, ringAddr := 0x1000, slotBytes := 4096, empty := 2, filling := 1, head := 1 }), (6, { active := true, nSlots := 3, ringAddr := 0x8000, slotBytes := 4096, held := true, tail := 1 })] }
def dAp (opc : Nat) (w : W64) (xs : List Transfer := []) : Device := { dM with streams := [(2, strs (strm opc) [w] xs)], ctxs := [{ id := 8, cmd := some 7, burgee := 1, rank := 3, sc := 2, banks := [0], started := true }], cmds := [sc .search] }
def areq (op flags target dataAddr dataLen outLen outAddr : Nat) (ps : List Byte := []) : List Byte :=
  fit 64 (leBytes 2 op ++ leBytes 2 0x77 ++ leBytes 1 flags ++ leBytes 1 0 ++ leBytes 2 target ++ leBytes 8 dataAddr ++ leBytes 4 dataLen ++ leBytes 4 outLen ++ leBytes 8 outAddr ++ ps)
def onMb (d : Device) (m : Nat) (req : List Byte) (data : List Byte := []) (st : SlotState := .started) : Device :=
  let b : Mailbox := { req := [(2, req)], slots := [(2, st)], tail := 3, head := 2, data := [(2, data)] }
  let d1 := { d with mgmt := { d.mgmt with started := [(m, 2)] } }
  if m = 256 then { d1 with sideMb := b } else { d1 with fns := d1.fns.map fun p => if p.1 = m then (p.1, { p.2 with mb := b }) else p }
def ioD (bs : List Byte) : AdminIo := ⟨some bs, [], []⟩
def jd (t : JobType) : JobDesc := { type := t, predicted := false, noPublish := false, indexNo := 3, steps := 5, batch := 64, watchN := 0, watchWindow := 4, drift := 0, guardShift := 8, src := 0, lr := 0x3C000000, beta1 := 0x3F000000, beta2 := 0x3F000000, eps := 0x32000000, decay := 0, driftLimit := 0x3F800000, warmup := 0, ckpt := 64, seed := 9, srcAddr := 0x80000, srcCount := 8, evalPct := 0, loss := if t == .codebookFit then 0 else 1, temp := if t == .codebookFit then 0 else 0x3F800000, minGain := 0, stateBytes := 0x1000000, param := if t == .codebookFit then 0 else 32, param2 := if t == .codebookFit then 0 else 1, crc := 0 }
def xj : Index := { x3g with metric := .ip, inputFmt := .fp32, primaryFmt := .pq4, subspaces := 2, centroidFmt := .bf16, centroids := [.plain .bf16 (List.replicate 64 0x3F80), .plain .bf16 (List.replicate 64 0x4000)], codebooks := [(1, (List.range 2).map fun m => (List.range 16).map fun c => (List.range 32).map fun i => 0x3F00 + 16 * c + i + m)], adapter := ⟨0, [], []⟩, cells := [(0, { nSlots := 1, nLive := 1, cur := { capBlocks := 2, slotBase := lBase + 0x2003000, tombBase := lBase + 0x2008000, slots := [(0, ⟨7, [3, 4], [0x55], none, 0⟩)] } })], delta := [(4, ⟨9, 0, 1, false, false, 0xFFFFFFFF, 0xFFFFFFFF, 8, [0x66], formOf .mxfp8e4m3 (List.replicate 64 0x3F800000), 0, 0, 77, 2, false⟩)] }
def rec1 (k : Nat) : List Byte := (List.range 64).flatMap fun i => leBytes 4 (0x3F000000 + 0x10000 * (i + k))
def dJ (j : Job) : Device := { dM with indexes := [(3, xj)], jobs := [j, { j with id := 9 }], lastJob := 9, mem := ((dM.write 0x80000 ((List.range 8).flatMap rec1)).mem) }
def job (t : JobType) : Job := { id := 5, fn := 0, burgee := 1, desc := jd t, tensors := startTensors xj (jd t) [], flows := startFlows (jd t) (startTensors xj (jd t) []) }
def dF : Device := { dx with fns := [(0, { fn0 with qps := [(0, { qp0 with unread := 0 })] })] }
def dD : Device := { dS0 .search with cmds := [{ sc .search with phase := .active, stage := 4, snap := some ⟨5, 9, 0, 0, 4, 5, none, 0, 0⟩, sp := { k := 2, stageD := true } }], models := [] }
def dCut : Device := deadlineCutEff 7 (dS4 .search)
def dSh : Device := { dS4 .search with shoal := { (dS4 .search).shoal with pending := [⟨9, 0x03, 7, 4, 100⟩, ⟨10, 0x0B, 0, 4, 100⟩] } }
def dSus : Device := { dS4 .search with scs := [(2, { suspect := some 5 })] }
/-- Four symbols of one codeword whose first three syndromes vanish, so that no two symbols explain them. -/
def errs : List (Nat × Nat × Nat) := [(0, 1, 133), (0, 2, 188), (0, 3, 101), (0, 4, 92)]
def v4 := (List.range 16).flatMap fun i => leBytes 4 (0x3F800000 + i * 65536)
def dMm : Device := dM.write 0 (v4 ++ v4)
def sdesc (op : Nat) (mc : Nat := 0) : List Byte := leBytes 1 op ++ leBytes 1 4 ++ leBytes 1 (1*8+4) ++ leBytes 1 2 ++ leBytes 1 7 ++ leBytes 3 0 ++ leBytes 4 0x1000 ++ leBytes 4 4096 ++ leBytes 4 0 ++ leBytes 4 0 ++ leBytes 4 8 ++ leBytes 4 0 ++ leBytes 8 0x4000 ++ leBytes 8 mc ++ List.replicate 80 0
def dStr : Device := let d := dAp 1 (ap 0x3F 0 0 0 0 0); { d with burgees := [(1, { enabled := true, scSet := 0xFF, buckets := List.replicate 8 { rate := 10, level := 100000 } })] }
def t11 : Stream := { strm 1 with counters := [0, 0, 2, 0, 0, 0] }
def xw : W64 := ap 0x20 0 0 1 0 64
def xa : W64 := ap 0x21 0 0 1 0 (64 + 0x2000)
def xl : Transfer := ⟨11, 3, 0, 2, true, false, some 2, none, 0x108, 8, 0, leBytes 8 77, 5⟩
def xr : Transfer := ⟨11, 3, 1, 2, true, false, none, none, 0x100, 32, 0x40, leBytes 32 77, 5⟩
def base : Device := dAp 1 (ap 0x3F 0 0 0 0 0)
def m0 : Cmd := sc .search
def m1 : Cmd := { m0 with restarts := 1 }
def bx (x : Transfer) (m : Cmd) : Device := { dAp 1 (ap 0x3F 0 0 0 0 0) [x] with cmds := [m] }
def ql : Ste := { recovery := some 50, watch := [99] }
def sq : SemPair := { active := true, nSlots := 3, full := 2, empty := 1, ringAddr := 0x1000, slotBytes := 64, tail := 1, escBase := 0x4000 }
def dq : Device := { base with streams := [(2, { sems := [(5, sq)], blocked := [⟨[5], [[1, 0, 2, 0, 0]], 5, 0⟩] })] }
/-- Two rings that wait on each other: the index ring 6 is full and its context waits for ring 5, whose stream waits for an index (R264). -/
def dCy0 : Device := { base with streams := [(2, { nextId := 20, running := [{ strm 1 with held := some .idxWait }, { strm 1 with id := 9, sem := 6, idxSem := none, held := some .semEmpty }], sems := [(5, { sq with ctx := 8, engineWaits := true, full := 0, filling := 1, filled := [1], empty := 2 }), (6, { sq with ctx := 8, ringAddr := 0x8000, full := 3, empty := 0 })] })] }
def cCy : BlockedCycle := ⟨[5, 6], [5, 6].map (dCy0.ringSeen 2), 49001, 1000000⟩
def dCy : Device := dCy0.modStr 2 fun s => { s with blocked := [cCy] }
/-- One running stream that fills the only ring of context 8 (R208). -/
def dTg : Device := { base with streams := [(2, { nextId := 20, running := [strm 1], sems := [(5, { sq with ctx := 8 })] })] }
/-- A transfer of a slot whose one piece the stream keeps (R262). -/
def dPc (m : Cmd) (x : Transfer) : Device := { bx x m with streams := [(2, strs { strm 1 with pieces := [(1, ⟨0x100, 32, false, 0x40⟩)] } [ap 0x3F 0 0 0 0 0] [x])] }
theorem noneWait_all (d : Device) (h : (d.streams.all fun p => (p.2.stes.all fun q => q.waiting.isEmpty) && p.2.refills.isEmpty) = true) : ∀ j, d.noneWait j := by
  intro j
  have key : ∀ t : Tab Streams, (t.all fun p => (p.2.stes.all fun q => q.waiting.isEmpty) && p.2.refills.isEmpty) = true →
      (∀ q ∈ (tget {} j t).stes, q.waiting = []) ∧ (tget {} j t).refills = [] := by
    intro t
    induction t with
    | nil => intro _; exact ⟨by simp [tget], rfl⟩
    | cons p t ih =>
      intro h
      obtain ⟨a, b⟩ := (Bool.and_eq_true _ _).mp (List.all_cons ▸ h)
      simp only [tget]
      split
      · simp only [Bool.and_eq_true, List.all_eq_true, List.isEmpty_iff] at a; exact a
      · exact ih b
  exact key d.streams h
def ky : Ctx := { id := 8, cmd := none, burgee := 1, rank := 3, sc := 2, banks := [], started := false }
def dk : Device := { base with ctxs := [ky] }
def ks : Ctx := { ky with state := .spilled, spilled := [(3, 0x40000)] }
def ln (xs : List Nat) : BitVec 4096 := BitVec.ofNat 4096 (leNat (xs.flatMap fun x => leBytes 4 x))
def ve0 : Ve := { v := [(1, ln ((List.range 128).map fun i => 0x3F800000 + i * 0x10204)), (2, ln ((List.range 128).map fun i => if i = 1 then 0x7FC00000 else if i = 2 then 0xBF812340 else 0x3F900000 + (127 - i) * 0x11803)), (3, ln ((List.range 128).map fun i => i * 0x01010107))], k := [(2, 5), (3, 0x3A)], x := [(1, 0x40000000)], acc := [(0, { sum := .fin false 3 0, count := 1 }), (2, { sum := .fin false 5 0, count := 2 })], attrs := [(0, [0x55, 0x1234]), (1, [7, 8])], ports := [(1, List.replicate 128 0x123456789)], tail := 100 }
def dVe : Device := { dM with engines := [(2, { ve := ve0, tb := [(1, { owner := some 8, lines := [(3, ln (List.range 128))] })] })] }
def vw : W64 := BitVec.ofNat 64 (2 * 2 ^ 56 + 4 * 2 ^ 46)
def vdesc : List Byte := leBytes 1 1 ++ leBytes 1 3 ++ leBytes 2 0 ++ leBytes 4 100 ++ leBytes 2 1 ++ leBytes 2 1 ++ leBytes 2 1 ++ List.replicate 114 0
def v1' : Option Ve := let q := parseVe vdesc; let p : VeProg := ⟨[], [vw], [], [], [], [1]⟩; let v := ve0
      let xs := (p.consts.zipIdx.map fun k => (k.2, k.1)) ++ q.xinit.zipIdx.map fun k => (12 + k.2, k.1)
      let start : Ve := { v with progs := tset q.slot p v.progs, mode := q.mode, x := xs, ports := [], outs := [], lineOut := [], v := [], k := [], acc := [], tail := q.extent, loops := (0, 0, 0, 0) }
      start.micro (dVe.eng 2).tileLine (microOf vw).1 (microOf vw).2
def dVe_2 : Device := { dM with engines := [(2, { ve := { attrs := [(0, [0x55, 0x1234]), (1, [7, 8])], tail := 100, v := [(1, 0x123456789ABCDEF0123456789)] } })] }
def me (op ctl depth chunk0 : Nat) : List Byte := leBytes 1 op ++ leBytes 1 1 ++ leBytes 1 1 ++ leBytes 1 ctl ++ leBytes 2 2 ++ leBytes 2 3 ++ leBytes 2 depth ++ leBytes 2 chunk0 ++ leBytes 4 0x1000 ++ leBytes 4 0x2000 ++ leBytes 2 256 ++ leBytes 2 256 ++ leBytes 8 0 ++ leBytes 4 0x8000 ++ leBytes 4 0x10000 ++ leBytes 4 5 ++ leBytes 4 6 ++ leBytes 4 8 ++ leBytes 4 0 ++ List.replicate 8 0
def dMe : Device := ((dM.spadWrite 2 0x1000 ((List.range 256).flatMap fun i => leBytes 2 (0x3F80 + i))).spadWrite 2 0x2000 ((List.range 384).flatMap fun i => leBytes 2 (0x3F80 + 3 * i))).modEng 2 fun g => { g with accTiles := [(0x8000, 4)] }
def ceD (op fmt m dim n : Nat) : List Byte := leBytes 1 op ++ leBytes 1 fmt ++ leBytes 2 m ++ leBytes 2 dim ++ leBytes 1 2 ++ leBytes 1 0 ++ leBytes 8 0x100 ++ leBytes 4 0x1000 ++ leBytes 2 n ++ leBytes 2 0 ++ List.replicate 16 0 ++ leBytes 4 0x8000 ++ leBytes 4 0 ++ leBytes 4 0 ++ leBytes 4 99 ++ List.replicate 8 0
def dCe : Device := (dMe.spadWrite 2 0x8000 (List.replicate 16 0x5F)).modEng 2 fun g => { g with ceSlots := [(0, .code (List.replicate 64 true))] }
def rq : List Byte := leBytes 4 0x3000 ++ leBytes 1 2 ++ leBytes 1 0 ++ leBytes 2 0
def dCe_2 : Device := ((dM.spadWrite 2 0x1000 (rq ++ rq ++ rq)).spadWrite 2 0x3000 (List.replicate 64 0x5F)).modEng 2 fun g => { g with ceSlots := [(0, .code (List.replicate 64 true))] }
def nd (id : W64) (nb : List Nat) : Node := { id := id, view := 1, upper := 0xFFFFFFFF, level := 0, nbrs := nb, sketch := List.replicate 64 (id == 6), code := [], attrs := [id] }
def xg : Index := { x3g with kind := .graph, graph := { groups := [(0, { nodes := [(0, nd 5 [1, 2]), (1, nd 6 [0]), (2, nd 7 [1])], nNodes := 3 })], nNodes := 3, entry := 0 }, cgraph := { groups := [(0, { nodes := [(0, nd 0 [1]), (1, nd 1 [0])], nNodes := 2 })], nNodes := 2, entry := 0 } }
def wk (mode : Nat) : List Byte := leBytes 1 mode ++ leBytes 1 4 ++ leBytes 1 16 ++ leBytes 1 1 ++ leBytes 2 16 ++ leBytes 2 100 ++ leBytes 4 0 ++ leBytes 4 0 ++ leBytes 4 5 ++ leBytes 4 0x10000 ++ leBytes 2 (if mode = 0 then 16 else 0) ++ leBytes 2 0 ++ leBytes 4 3 ++ leBytes 4 1 ++ leBytes 4 99
def dW : Device := { dM with indexes := [(3, xg)], engines := [(2, { ceSlots := [(0, .code (List.replicate 64 true))] })] }
def theW (m : Nat) : Walk := ((walkEff m 2 (wk m) dW).eng 2).walks.headD (parseWalk (wk 0))
def dW2 : Device := walkEff 0 2 (wk 0) dW
def fu (source : Nat) (n : Nat) : List Byte := leBytes 1 source ++ leBytes 1 0 ++ leBytes 1 2 ++ leBytes 1 0 ++ leBytes 4 0x0100 ++ leBytes 4 0x20000 ++ leBytes 4 n ++ leBytes 4 0 ++ leBytes 4 5 ++ leBytes 8 100 ++ leBytes 4 0x8000 ++ leBytes 4 0 ++ leBytes 4 99
def fp : FilterProg := { filterId := 1, indexNo := 3, nParams := 0, ops := [] }
def dFu : Device := (dM.spadWrite 2 0x20000 ((List.range 900).flatMap fun i => leBytes 8 (i * 0x100010001 + 1))).modEng 2 fun g => { g with fu := { progs := [(0, fp)], sets := [(0, 0, []), (1, 0, [])] } }
def P1 : Placed := ⟨3, 0, 0, 0x20000, 0x4000, true, 2⟩
def P2 : Placed := ⟨3, 0, 1, 0x30000, 0x4000, false, 0⟩
def dP : Device := { dM with indexes := [(3, x3g)], burgees := [(1, { enabled := true, quota := 1, placed := [P1, P2], left := [⟨3, 2, 0x40000, 512⟩], buckets := List.replicate 8 {} })], heat := [⟨3, 0, 1, 6, 3⟩, ⟨3, 0, 0, 0, 1⟩], tiers := { dM.tiers with extF := dM.tiers.extF ++ [⟨0x40000, 512, some 1⟩] } }
def V : DeltaEntry := (x3g.delta.headD (0, ⟨9, 0, 1, false, false, 0xFFFFFFFF, 0xFFFFFFFF, 8, [0x66], .plain .sign1 (List.replicate 64 0), 0, 0, 77, 2, false⟩)).2
def nd_2 (id : W64) (nb : List Nat) : Node := { id := id, view := 1, upper := 0xFFFFFFFF, level := 0, nbrs := nb, sketch := List.replicate 64 (id == 6), code := List.replicate 64 1, attrs := [id] }
def xg_2 : Index := { x3g with kind := .graph, graph := { groups := [(0, { nodes := [(0, nd_2 5 [1, 2]), (1, nd_2 6 [0]), (2, nd_2 7 [1])], nNodes := 3 })], nNodes := 3, entry := 0 } }
def dg : Device := { dM with indexes := [(3, xg_2)] }
def xFail : Index := { x3g with centroids := [] }
def C0 : Cell := { nSlots := 1, nLive := 1, cur := { capBlocks := 2, slotBase := lBase + 0x2003000, tombBase := lBase + 0x2008000, slots := [(0, ⟨7, List.replicate 64 1, [0x55], none, 0⟩)] } }
def wx (c : Cell) (f : Index → Index := id) : Device := { dM with indexes := [(3, f { x3g with rewriteWindow := 0x100000, cells := [(0, c), (1, {})] })] }
def G0 : Group := { nodes := [(0, nd_2 5 [1, 2]), (1, nd_2 6 [0]), (2, nd_2 7 [1])], nNodes := 3 }
def wg (g : Group) (f : Index → Index := id) : Device := { dM with indexes := [(3, f { x3g with rewriteWindow := 0x100000, kind := .graph, graph := { groups := [(0, g)], nNodes := 3, entry := 0 } })] }
def Cr (re : Bool) : Cell := { C0 with state := 2, rewrite := some ⟨re, 4, lBase + 0x2020000, 0x8000, re, []⟩ }
def Gr : Group := { G0 with state := 2, rewrite := some ⟨true, 0, lBase + 0x2020000, 0x8000, true, []⟩ }
def dd := wg Gr fun x => { x with targetGen := 2 }
def de := wg { G0 with retryAt := some 2000000 } fun x => { x with targetGen := 2 }
def cf := job .codebookFit
def cf0 := { cf with desc := { cf.desc with srcCount := 0 } }
def cfc := { cf with ckptDue := true, ckpts := [cf.checkpoint 0, cf.checkpoint 0x10000] }
def ev (f : Job → Job) : Job := f { cf with state := .evaluate, desc := { cf.desc with evalPct := 50 } }
def chkE (j : Job) := ((dJ j).evalLosses xj j)
def evn := ev fun j => { j with desc := { j.desc with noPublish := true } }
def evb := ev fun j => { j with desc := { j.desc with minGain := 0x3F000000 } }
def evr := { job .adapterTrain with state := .evaluate }
def rr := { job .adapterTrain with state := .evaluate, desc := { jd .adapterTrain with type := .rerankTune, loss := 3 } }
def rr2 := { rr with model := some (0, []) }
def enc (j : JobDesc) : List Byte := fit 256 (leBytes 1 (match j.type with | .codebookFit => 1 | .adapterTrain => 2 | .rerankTune => 3) ++ leBytes 1 0 ++ leBytes 2 j.indexNo ++ leBytes 4 j.steps ++ leBytes 2 j.batch ++ leBytes 2 j.watchN ++ leBytes 1 j.watchWindow ++ leBytes 1 j.drift ++ leBytes 1 j.guardShift ++ leBytes 1 j.src ++ leBytes 4 j.lr.toNat ++ leBytes 4 j.beta1.toNat ++ leBytes 4 j.beta2.toNat ++ leBytes 4 j.eps.toNat ++ leBytes 4 j.decay.toNat ++ leBytes 4 j.driftLimit.toNat ++ leBytes 4 j.warmup ++ leBytes 4 j.ckpt ++ leBytes 8 j.seed ++ leBytes 8 j.srcAddr ++ leBytes 4 j.srcCount ++ leBytes 1 j.evalPct ++ leBytes 1 j.loss ++ leBytes 2 0 ++ leBytes 4 j.temp.toNat ++ leBytes 4 j.minGain.toNat ++ leBytes 8 j.stateBytes ++ List.replicate 40 0 ++ leBytes 1 j.param)
def base_2 (js : List Job) : Device := { dM with indexes := [(3, xj)], jobs := js, lastJob := 9, mem := ((dM.write 0x80000 ((List.range 8).flatMap rec1)).mem) }
def sub (d : Device) (m : Nat) (bs : List Byte) := onMb d m (areq 0x40 0 3 0x1000 256 0 0) bs
def rd (bs : List Byte) : JobDesc := (readJob bs).getD cf.desc
def dS := sub (base_2 []) 0 []
def bad := enc { cf.desc with steps := 0 }
def lim := enc { cf.desc with src := 1, srcAddr := 0, srcCount := 0 }
def jc (op : Nat) (j : Job) (m : Nat := 0) : Device := onMb (base_2 [j, { cf with id := 9, state := .held }]) m (areq op 0 5 0 0 0 0)
def je : Job := { cf with state := .ended 2, ckpts := [cf.checkpoint 0] }
def mb0 : Mailbox := { head := 0xFFFE, tail := 1, slots := [(30, .done), (31, .done), (0, .waiting)], req := [(30, List.replicate 64 7)] }
def dm (b : Mailbox) : Device := { dM with fns := [(0, { fn0 with mb := b })] }
def rqd := areq 0x13 0 5 0 0 0 0
def dsb (n : Nat) : Device := { dM with straps := dM.straps, sideMb := { slots := (List.range n).map fun i => (i, .waiting), tail := n } }
def dsec : Device := { dsb 3 with mgmt := { (dsb 3).mgmt with feat := { sbSecure := true } } }
def dsh (k : Nat) : Device := { dM with mgmt := { dM.mgmt with shed := { steps := k, isOver := k } } }
def dsp (x : Security) : Device := { dM with mgmt := { dM.mgmt with sec := x } }
def dEv (vs : List Event) (h : Nat) : Device := let d := onMb dM 0 (areq 5 0 0 0 0 0 0); { d with fns := d.fns.map fun p => (p.1, { p.2 with mb := { p.2.mb with events := vs, slots := p.2.mb.slots ++ (List.range h).map fun i => (10 + i, .heldForEvent) } }) }
def qpb (q h w sq cq v b1 b2 : Nat) : List Byte := fit 64 (leBytes 2 q ++ leBytes 1 h ++ leBytes 1 w ++ leBytes 4 sq ++ leBytes 4 cq ++ leBytes 2 v ++ leBytes 1 8 ++ leBytes 1 5 ++ leBytes 8 b1 ++ leBytes 8 b2 ++ leBytes 1 1)
def cf_2 (b p q mm : Nat) : List Byte := fit 32 (leBytes 1 b ++ leBytes 1 p ++ leBytes 2 q ++ leBytes 2 mm)
def spec (no deltaE : Nat) : List Byte := fit 128 (leBytes 2 no ++ leBytes 1 0 ++ leBytes 1 3 ++ leBytes 2 64 ++ leBytes 1 0xF ++ leBytes 1 0xE ++ leBytes 1 0 ++ leBytes 1 1 ++ leBytes 2 0 ++ leBytes 1 0 ++ leBytes 1 0 ++ leBytes 2 0 ++ leBytes 4 1 ++ leBytes 4 deltaE ++ leBytes 8 1000 ++ leBytes 8 0x4000000)
def dL : Device := { dM with tiers := { dM.tiers with trained := true } }
def dSmall : Device := { dL with tiers := { dL.tiers with packages := 0 } }
def dJ2 : Device := dJ (job .codebookFit)
def fl (id ix : Nat) : List Byte := fit 40 (leBytes 2 id ++ leBytes 2 ix ++ leBytes 1 1 ++ leBytes 1 0 ++ leBytes 10 0 ++ leBytes 24 1)
def fp_2 (n : Nat) : List Byte := leBytes 32 n
def dFl : Device := loadD
where loadD := { dM with indexes := [(3, { x3g with filters := [(4, parseFilter (fl 4 3)), (5, parseFilter (fl 5 3))], transforms := [(2, leBytes 8 1)], transform := 2, lastTransform := 2 })] }
def el : List Byte := fit 56 (leBytes 2 3 ++ leBytes 1 1 ++ leBytes 1 1 ++ leBytes 1 0 ++ leBytes 43 0 ++ leBytes 8 (1 * 2^56 + 49 * 2^47 + 48 * 2^41))
def mkAd (r : Nat) : List Byte := leBytes 2 r ++ leBytes 14 0 ++ List.replicate (8 * r) 0
def md : List Byte := fit 64 (leBytes 2 1 ++ leBytes 1 1 ++ leBytes 1 0 ++ leBytes 4 65 ++ leBytes 8 256) ++ fit 1984 (leBytes 1 1 ++ leBytes 1 1 ++ leBytes 1 1 ++ leBytes 1 0 ++ leBytes 4 65 ++ leBytes 4 1 ++ leBytes 4 0 ++ leBytes 8 0 ++ leBytes 8 192 ++ leBytes 8 192) ++ List.replicate 256 0
def dMd : Device := { dM with models := [(1, md)], model := 1, lastModel := 1 }
def sd (a n o : Nat) : List Byte := leBytes 8 0 ++ leBytes 8 a ++ leBytes 8 n ++ leBytes 8 o
def dMstart (n : Nat) : Nat × Device := ((dM.takeF (some 1) n).elim (0, dM) id)
def dSg : Device := { (dMstart 128).2 with staged := [(1, [⟨(dMstart 128).1, 128⟩])] }
def aSg := (dMstart 128).1
def sg1 (a n o : Nat) := onMb dM 0 (areq 0x38 0 1 0x7000 5 0 0 (sd a n o)) [1,2,3,4,5]
def snp (t : Nat) : Snapshot := { startView := 5, startSeq := 0, entryNode := 0, topLevel := 0, deltaTail := 4, deltaHead := 5, filter := none, transform := t, model := 0 }
def dFo : Device := { dFl with cmds := [{ sc .search with phase := .active, snap := some (snp 1) }] }
def p8 (v : Nat) : List Byte := leBytes 32 v
def dF_2 (f : Fuses) : Device := { dM with fuses := f }
def s256 (d : Device) (op target : Nat) (ps : List Byte) (data : List Byte := []) : Device := onMb d 256 (areq op 0 target (if data = [] then 0 else 0x7000) data.length 0 0 ps) data
def gr (en : Nat) (set : Nat) (f c h : Nat) : List Byte := fit 256 (leBytes 1 en ++ leBytes 7 0 ++ leBytes 8 set ++ (List.range 64).flatMap (fun n => leBytes 1 (if set.testBit n then f else 0)) ++ (List.range 64).flatMap (fun n => leBytes 1 (if set.testBit n then c else 0)) ++ (List.range 64).flatMap (fun n => leBytes 1 (if set.testBit n then h else 0)))
def geo1 : List Byte := gr 0 0 0 0 0 ++ gr 1 3 4 2 8 ++ List.replicate (14*256) 0
def geo2 : List Byte := gr 0 0 0 0 0 ++ gr 1 3 4 2 17 ++ List.replicate (14*256) 0
def dNox : Device := { dM with indexes := [] }
def dGw : Device := let d := s256 dNox 0x20 0 (p8 0) geo1; { d with mgmt := { d.mgmt with geoWrite := some (256, 2, geo1, 1000000) }, burgees := [(1, { enabled := true, geoWait := true })] }
def dDat : Device := { dM with mem := [⟨5, 9⟩, ⟨0x20000005, 7⟩], cmds := [{ sc .search with phase := .active }], models := [(1, [1])], staged := [(1, [⟨0x100, 64⟩])] }
def fm (all ses : Nat) : List Byte := fit 32 (leBytes 1 all ++ leBytes 1 ses)
def dSan (a : Nat) : Device := { dDat with flash := { dDat.flash with sanitise := { state := 1, action := a, keysDone := true } } }
def tokSer : Nat := 0xf0e0d0c0b0a09080706050403020100
def tokR : Nat := 0xaa87ca22be8b05378eb1c71ef320ad746e1d3b628ba79b9859f741e082542a385502f25dbf55296c3a545e3872760ab7
def tokS : Nat := 0x268bd86a1fcbf9bfc8db3d43c0254b24eaaa1e2d69d8de402b1a920e2ab6889afd029e8c483316c3d1b38d3814df1497
def token : List Byte := leBytes 16 tokSer ++ List.replicate 32 7 ++ leBytes 16 5 ++ leBytes 48 tokR ++ leBytes 48 tokS
def dTok (nn : Option (List Byte)) : Device := let d := { dDat with fuses := { serial := BitVec.ofNat 128 tokSer, debugKey := BitVec.ofNat 768 (leNat (leBytes 48 ecGx ++ leBytes 48 ecGy)) } }; { d with mgmt := { d.mgmt with sec := { d.mgmt.sec with nonce := nn } } }
def kt (t : SelfTest) : Device := { dM with mgmt := { dM.mgmt with test := t } }
def pk (n : Nat) : List Byte := leBytes 32 n
def g1 : Segment := ⟨1, 3, 0⟩
def g2 : Segment := ⟨2, 3, 0⟩
def g3 : Segment := ⟨3, 16, 1⟩
def g3b : Segment := ⟨3, 16, 4⟩
def g5 : Segment := ⟨5, 6, 0⟩
def lkUp (d : Device) : Device := { d with links := [(6, { state := .up })] }
def rn (g : Segment) : SelfTest := { kind := 1, result := 3, todo := [g5], running := [g] }
def busySc (d : Device) : Device := { d with ctxs := [{ id := 8, cmd := some 7, burgee := 1, rank := 3, sc := 3, banks := [0], started := true }] }
def dat : List Byte := leBytes 5 0x123456789
def imgDig : Nat := 0x6b36f46e385e98d339da8dcafbca306cc657dc792eb8d970c7597084f8ce27319ee64fc2b6c8dbc24a43434c202d8e6e
def imR : Nat := 0xaa87ca22be8b05378eb1c71ef320ad746e1d3b628ba79b9859f741e082542a385502f25dbf55296c3a545e3872760ab7
def imS : Nat := 0x26f0c143b1e11353a11ac6f62dcc48ed5ce16e3e9611326569d46e1e1456dfd95a2fe6e291dd7d3a3f0c0db45f30e7eb
def imgB : List Byte := fit 160 (leBytes 2 1 ++ leBytes 2 256 ++ leBytes 4 0x01020003 ++ leBytes 1 3 ++ leBytes 1 7 ++ leBytes 2 1 ++ leBytes 4 0 ++ leBytes 48 ecGx ++ leBytes 48 ecGy) ++ leBytes 48 imR ++ leBytes 48 imS
def dIm : Device := { (dM.write stageBase imgB) with fuses := { imageDigest := BitVec.ofNat 384 imgDig }, straps := { dM.straps with inForce := 2 } }
def dVal : Device := { dM with flash := { dM.flash with valid := [0, 1, 2], images := [(1, imgB), (2, imgB)] }, mgmt := { dM.mgmt with slot := 1 } }
def dLk (k : Link) : Device := { dM with links := [(6, k)], shoal := { dM.shoal with id := 5, key := [1,2,3], groups := 1, members := 14, device := 5, epoch := 3, dir := [(5, { state := 0, roles := 7 }), (12, { state := 0 }), (6, {state := 0})] } }
def up1 (s : LinkState) : Link := { state := s, lane0 := { up := true }, lane1 := { up := true }, full := true, clock := true, partner := some ⟨12, 1, 7, 0, 3, List.replicate 16 0⟩, accept := true, keepRx := 5000, hailAt0 := some 400000 }
def pr (l : Nat) (f h : Bool) : LaneProbe := ⟨true, l, 1, 1, f, h⟩
def hl (dev spare epoch ver : Nat) (id : Nat) : List Byte := let h := fit 64 (leBytes 1 1 ++ leBytes 1 0 ++ leBytes 2 dev ++ leBytes 1 3 ++ leBytes 1 7 ++ leBytes 1 spare ++ leBytes 1 3 ++ leBytes 8 id ++ leBytes 4 epoch ++ leBytes 4 0 ++ leBytes 16 0x1234 ++ leBytes 4 ver); h ++ hailMac (dLk {}).shoal h
def pt := ((dLk {}).shoal.partnerOf 6).getD 0
def frz (d : Device) : Device := { d with aon := { d.aon with bo := { d.aon.bo with episode := true, frozen := true } } }
def fl0 (ty seq dst src tag kind ht len resent : Nat) : List Byte :=
  let pay := fit 240 (leBytes 2 dst ++ leBytes 2 src ++ leBytes 2 tag ++ leBytes 1 kind ++ leBytes 1 ht ++ leBytes 1 0 ++ leBytes 1 len ++ leBytes 1 resent ++ leBytes 5 0 ++ List.replicate 224 9)
  let a := leBytes 1 ty ++ leBytes 2 seq ++ leBytes 5 0 ++ pay ++ leBytes 4 (crc32c (pay.take 10 ++ [0] ++ pay.drop 11)).toNat
  a ++ leBytes 4 (crc32 a).toNat
def dRx : Device := dLk { up1 .up with rxSeq := 4 }
def dRx2 : Device := { dRx with shoal := { dRx.shoal with record := [(12, 77, 1)] } }
def badE : List Byte := let a := lmod 30 (fun _ => (1 : Byte)) ((fl0 1 4 5 12 77 0x01 3 224 0).take 252); a ++ leBytes 4 (crc32 a).toNat
def sh0 : Shoal := { id := 5, key := [1,2,3], groups := 1, members := 14, device := 5, epoch := 3, dir := [(5, { state := 0, roles := 7 }), (6, {state := 0, roles := 7}), (12, { state := 0, roles := 7 })], indexes := [⟨3, 1, false, [], List.replicate 256 5, [], 1, [], [], []⟩] }
def dSh_2 (h : Shoal) : Device := { dS0 .search with shoal := h, cmds := [] }
def dRec (h : Shoal) : Device := dSh_2 { h with record := [(12, 77, 1), (12, 77, 2), (12, 77, 3), (12, 77, 4), (12, 77, 5), (12, 77, 6), (12, 77, 7), (12, 77, 8), (12, 77, 9), (12, 77, 10), (12, 77, 11), (12, 77, 12), (12, 77, 13), (12, 77, 14), (12, 77, 15), (12, 77, 16), (12, 77, 17), (12, 77, 18), (12, 77, 19), (12, 77, 20), (12, 77, 21), (12, 77, 22)] }
def hd (op idx owner tag : Nat) (nv : Nat) : List Byte := fit 64 (leBytes 1 op ++ leBytes 1 3 ++ leBytes 2 idx ++ leBytes 4 100000 ++ leBytes 4 5 ++ leBytes 2 owner ++ leBytes 2 0 ++ leBytes 8 0 ++ leBytes 2 10 ++ leBytes 2 2 ++ leBytes 2 4 ++ leBytes 10 0 ++ leBytes 2 nv ++ leBytes 6 0 ++ leBytes 8 3 ++ leBytes 2 tag)
def hq : List Byte := hd 1 3 12 9 1 ++ (List.range 64).flatMap fun i => leBytes 4 (0x3F800000 + i)
def hq5 : List Byte := hd 1 3 5 9 1 ++ (List.range 64).flatMap fun i => leBytes 4 (0x3F800000 + i)
def dPend (k : Nat) (sp : List Outstanding := [⟨9, k, 7, 12, 5⟩]) : Device := { dS2 .search with shoal := { sh0 with pending := sp }, ctxs := [] }
def dRrt (k : Nat) (cs : CtxState) (rs : RrtState) : Device := { dPend k with ctxs := [{ id := 8, cmd := some 7, burgee := 1, rank := 3, sc := 2, state := cs, rrt := [⟨9, 12, 0, rs, 64, 0, 0, 0, []⟩] }] }
def rp : List Byte := leBytes 2 2 ++ leBytes 2 5 ++ leBytes 2 12 ++ leBytes 58 0
def dTask : Device := match execEntryRequest 12 77 false hq (st (dSh_2 sh0)) with | .next t => t.dev | _ => dSh_2 sh0
def wr (seq op idx id : Nat) (vec : Bool) : List Byte := words [seq, op, idx, id, 1, 1, if vec then 64 else 0, 0x99] ++ (if vec then (List.range 64).flatMap (fun i => leBytes 4 (0x3F800000 + i)) else [])
def dW_2 (h : Shoal) : Device := dSh_2 h
def shH : Shoal := { sh0 with indexes := [⟨3, 1, false, [], List.replicate 256 12, [], 1, [], [], []⟩] }
def fw1 : Forwarded := ⟨7, 12, 1, 77, 5, wr 1 0x08 3 1000 true, false⟩
def dFw : Device := { dW_2 { sh0 with forwarded := [fw1, { fw1 with tag := 78, home := 6 }] } with cmds := [{ cmd .insert 1000 with stamp := 7, forwarded := [77, 78], phase := .active }] }
def shM : Shoal := { sh0 with mirrored := true }
def dMr : Device := { dW_2 { shM with pending := [⟨77, 0x10, 7, 261, 5⟩] } with cmds := [{ cmd .insert 1000 with stamp := 7, forwarded := [77, 78], phase := .active }] }
def gf (i id fl owner tg : Nat) : List Byte := words [i, id, fl, owner, tg]
def siR : ShoalIndex := ⟨3, 1, true, [(12, [0])], List.replicate 256 5, [], 1, [], [], []⟩
def xAw : Index := { x3g with away := [(.slot 0 0, 7)] }
def dAw : Device := { dW_2 { sh0 with indexes := [siR] } with indexes := [(3, xAw)] }
def dGr : Device := { dW_2 { sh0 with pending := [⟨77, 0x0A, 7, 12, 5⟩] } with cmds := [{ cmd .get 7 with stamp := 7, phase := .active, out := [(0x5000, 4096)] }] }
def asg : List Byte := words [3, 2] ++ words [100] ++ (List.range 64).flatMap (fun i => leBytes 4 (if i < 2 then 0x3F800000 else 0)) ++ words [101] ++ (List.range 64).flatMap (fun _ => leBytes 4 0x3F800000)
def item (e c id : Nat) : List Byte := words [e, c, id, 0x44] ++ (List.range 64).flatMap (fun _ => leBytes 4 0x3F800000)
def shp (k i bt n : Nat) (body : List Byte) : List Byte := words [k, i, bt, 0, n] ++ body
def dxs : Device := dW_2 sh0
def shS (b : List Byte) : List ShipSlot := (match execShip 12 77 false b (st dxs) with | .next t => ((t.dev.shoal.received.getLast?).map (·.slots)).getD [] | _ => [])
def srec : List Byte := words [1] ++ List.replicate 300 0
def sb1 : ShipBatch := ⟨3, 55, [(4, 9)], [], [(77, [4]), (78, [5])], [], none, false⟩
def dSr : Device := dW_2 { sh0 with pending := [⟨77, 0x0E, 7, 12, 5⟩], ships := [sb1] }
def shQ (b : List Byte) : ShipBatch := (match execShipReply 12 77 false b (st dSr) with | .next t => t.dev.shoal.ships.headD sb1 | _ => sb1)
def wq (b : List Byte) : WriteReq := (readWrite b).elim ⟨.insert, 0, [], [], 0, 0, 0, 0, 0⟩ (·.2.2)
def getK (x : Index) (id : W64) (f : Nat) (l : Loc) : Nat × List Byte := (x.getBytes id f l).getD (0, [])
def wh (what : Nat) (b : List Byte) : List Byte := words [what, b.length, 0] ++ b
def pt0 (what tot off : Nat) (b : List Byte) : List Byte := words [what, tot, off] ++ b
def upL : Link := { state := .up, lane0 := { up := true }, lane1 := { up := true } }
def dD_2 (h : Shoal) : Device := { dSh_2 h with links := (List.range 30).map fun l => (l, upL) }
def newDir : List Byte := ({ sh0 with epoch := 9 } : Shoal).bytes
def chg (e : Nat) : List Byte := words [e, 0, 6, 4, 0]
def shA1 : Shoal := { sh0 with dir := [(5, { state := 0, roles := 7 }), (12, { state := 0, roles := 7 })] }
def shR1 : Shoal := { sh0 with dir := [(5, { state := 0, roles := 7 }), (12, { state := 2, roles := 7 })] }
def shR2 : Shoal := { sh0 with dir := [(5, { state := 2, roles := 7 }), (3, { state := 0, roles := 7 })] }
def shR3 : Shoal := { sh0 with dir := [(5, { state := 0, roles := 7 }), (6, { state := 0, roles := 7 }), (12, { state := 2, roles := 7 })] }
def key1 : List Byte := [1,2,3,4]
def fo (id g n fl dev roles : Nat) : List Byte := leBytes 8 id ++ leBytes 1 g ++ leBytes 1 n ++ leBytes 1 fl ++ leBytes 1 0 ++ leBytes 2 dev ++ leBytes 1 roles ++ leBytes 17 0
def ad_2 (d : Device) (op target : Nat) (ps data : List Byte) : Device := onMb d 256 (areq op 0 target (if data = [] then 0 else 0x7000) data.length 0 0 ps) data
def shNo : Shoal := { sh0 with dir := [(5, { state := 1, roles := 7 })] }
def shL : Shoal := { sh0 with dir := [(5, { state := 0, roles := 7 }), (8, { state := 1, roles := 0 }), (9, { state := 0, roles := 6 })], indexes := [] }
def maps : List Byte := (List.range 256).flatMap (fun _ => leBytes 1 5) ++ (List.range 256).flatMap (fun _ => leBytes 4 0)
def sp1 : List Byte := spec 5 0x100000 ++ maps
def ci : List Byte := leBytes 1 1 ++ leBytes 1 0 ++ leBytes 6 0 ++ leBytes 8 128 ++ leBytes 16 0
def dCi : Device := ad_2 (dD_2 shL) 0xB4 0 ci sp1
def xSp := ((parseSpec (spec 5 0x100000) 1).getD x3)
def mv (c n dst : Nat) : List Byte := leBytes 4 c ++ leBytes 4 n ++ leBytes 2 dst ++ leBytes 22 0
def siM : ShoalIndex := ⟨3, 1, true, [(5, [0]), (12, [1])], List.replicate 256 5, [], 1, [], [], []⟩
def dMv (h : Shoal) (t : Nat) (ps : List Byte) : Device := ad_2 (dD_2 { h with indexes := [siM] }) 0xB5 t ps []
def lc (l a : Nat) (k : Link) : Device := { ad_2 (dD_2 sh0) 0xB6 l (leBytes 1 a ++ leBytes 31 0) [] with links := [(6, k), (7, upL)] }
def maps_2 : List Byte := (List.range 256).flatMap (fun _ => leBytes 1 5) ++ (List.range 256).flatMap (fun _ => leBytes 4 0xFF)
def sp1_2 : List Byte := spec 5 0x100000 ++ maps_2
def dCi_2 : Device := ad_2 { dM with shoal := { shL with dir := [(5, { state := 0, roles := 7 })] } } 0xB4 0 ci sp1_2
def dB : Device := { d0 with tap := { d0.tap with latches := [(7, true)], driven := [(3, true)], highz := true } }
def b1 : BScan := ⟨true, true, [(2249, true), (2250, false), (2251, true), (5682, true), (5684, true)], [(2249, true), (2250, true), (2251, true), (5474, true), (5475, true), (5682, true), (5683, true)]⟩
def dbg (sc : Byte) (d : Device := dM) : Device := { d with tap := { d.tap with instr := .debugAccess, data := 55 }, mgmt := { d.mgmt with sec := { d.mgmt.sec with unlocked := some (sc :: List.replicate 15 0) } }, tiers := { d.tiers with trained := true } }

/-! ### Examples worked in the spec -/

/-- R310: byte 1,500 of a mirrored area lies in the second pair of KiB, and a write lands in both copies. -/
theorem test_mirror_place : primaryAt 0x800 1500 = 0x800 + 2048 + 476 ∧
    ((({} : Device).writeMirrored 0x800 1023 [7, 9]).read 0xBFF 1, (({} : Device).writeMirrored 0x800 1023 [7, 9]).read 0xFFF 1,
      (({} : Device).writeMirrored 0x800 1023 [7, 9]).read 0x1000 1, (({} : Device).writeMirrored 0x800 1023 [7, 9]).read 0x1400 1) =
      ([7], [7], [9], [9]) := by decide +kernel

/-- The L-tier example of chapter 10: data row 5,000,173 lies in group 1, position 11, channel row 78,127, in bank 10, rank 0, row 2,441. -/
theorem test_ltier_place : lPlace 16 (8960310896 / 1792) = (1, 11, 78127) ∧ lBankOf 78127 = (10, 0, 2441) := by decide +kernel
/-- The ID map entry of chapter 3 names cell 11,116, slot 3,361. -/
theorem test_id_entry : idLoc 0x3A7E4002B6C00D21 = some (.slot 11116 3361) ∧ idWord 0x3A7E (.slot 11116 3361) = 0x3A7E4002B6C00D21 := by decide +kernel
/-- The U8LOG example of R287: scale 0x74, code 0xF4 for 0.0003, and R66's zero. -/
theorem test_u8log : u8logScale [0x399D4952] = 0x74 ∧ u8logEncode 0x74 0x399D4952 = 0xF4 ∧ u8logEncode 0x74 0 = 0 := by decide +kernel
/-- The block score of R57's example: corr 32,656, score 0.498291015625. -/
theorem test_zp_corr :
    (15320 - 11 * (-1210) - (-3) * 2046 + 64 * (-3) * 11 : Int) = 32656 ∧ f32Of (vMul (vMul (f32Val 0x3C000000) (f32Val 0x3B000000)) (vInt 32656)) = 0x3EFF2000 := by
  decide +kernel
/-- The score keys of chapter 2's table. -/
theorem test_score_keys : [0x7F800000, 0x3FC00000, 0, 0x80000000, 0xBF400000, 0xC0000000, 0x7FC00000].map scoreKey =
    [some 0xFF800000, some 0xBFC00000, some 0x80000000, some 0x80000000, some 0x40BFFFFF, some 0x3FFFFFFF, none] := by decide +kernel
/-- The mass sums of chapter 5's example: the selected sum is (3, 2.7071068). -/
theorem test_mass_selected : ([0xC0400000, 0xC0200000, 0xC0000000, 0xC0000000].map (massTerm 0x3F800000)).foldl massAdd {} =
    { infN := 0, body := some (3, 0x402D413D) } := by decide +kernel
/-- And the sum over the rest with the tail (2, 3.0) is (2, 4.875). -/
theorem test_mass_out : ([0xC0000000, 0xBF800000, 0x80000000, 0x407FFFFF].map (massTerm 0x3F800000)).foldl massAdd { body := some (2, 0x40400000) } =
    { infN := 0, body := some (2, 0x409C0000) } := by decide +kernel
/-- The route of chapter 14's example, from device 5 to device 12 of 14: direct, with the detour over device 6. -/
theorem test_route : midCoord 14 5 12 = some 6 ∧ routeWord 12 6 1 2 1 = 0x0C060601 := by decide +kernel
/-- The trunks of device 5 in that example. -/
theorem test_trunks : [0, 2, 3, 5, 6, 14, 15, 23, 24, 26, 27, 29].map (slotOffset 30 14) =
    [1, 1, 2, 2, 3, 7, 7, 11, 12, 12, 13, 13].map some := by decide +kernel
/-- The brown-out levels of chapter 15's example, for 740 mV. -/
theorem test_brownout_levels : boReset 740 = 0x1892 ∧ boWarn 740 = 0x1A98 ∧ boRecover 740 = 0x1AFC ∧
    belowReset 740 629 = false ∧ belowReset 740 628 = true ∧ belowWarn 740 681 = false ∧ belowWarn 740 680 = true := by decide +kernel
/-- BROWNOUT and AVL_H1 as chapter 16's example reads them. -/
theorem test_brownout_registers :
    let d := { dr with aon := { dr.aon with bo := { episode := true, frozen := true, episodes := 3, trigger := 1 } }, power := { dr.power with h1 := { vset := 740, loopEn := true, vread := 660, iread := 4120 } } }
    d.brownoutReg = 0xC8000003 ∧ d.boLevel 1 = 0x000018921A981AFC ∧ d.avlReg 1 = 0x1018029402E4C000 := by decide +kernel
/-- Ball C59 carries L1_11_DQ3 (chapter 17), whose cells are an input, an output and an enable cell (chapter 18). -/
theorem test_ball_c59 : netAt 2 59 = some "L1_11_DQ3" ∧ (cellKind 2249, cellKind 2250, cellKind 2251) = (some .input, some .output, some .enable) := by decide +kernel
/-- The check symbols of a row codeword and of an access codeword make each a multiple of the generator, and an all-zero row has zero check symbols
(R311, R315). -/
theorem test_check_symbols : rsWordSyndromes (rsEncode (List.range 28)) = [0, 0, 0, 0] ∧ rsWordSyndromes (rsEncode ((List.range 32).map (7 * ·))) = [0, 0, 0, 0] ∧
    rsCheck (List.replicate 28 0) = [0, 0, 0, 0] ∧ rsGen.length = 5 := by decide +kernel
/-- A word spells no command: the table gives no row any bits. -/
theorem test_decode : decodeTableWord 8 0 = none ∧ State.reset.withFetchWord 8 0 = State.reset := ⟨rfl, rfl⟩

/-! ### Ill-formed commands, one for each check -/
theorem test_wf_isFn : Instr.wellFormed (.busMasterEnableClear 256) = false := by decide +kernel
theorem test_wf_isQueue : Instr.wellFormed (.interruptCoalesceTimer 0 1024) = false := by decide +kernel
theorem test_wf_isMailbox : Instr.wellFormed (.setFeature 257 0) = false := by decide +kernel
theorem test_wf_isSlot : Instr.wellFormed (.setFeature 0 32) = false := by decide +kernel
theorem test_wf_isSc : Instr.wellFormed (.spillDone 64) = false := by decide +kernel
theorem test_wf_isSte : Instr.wellFormed (.tagLimitedExit 0 4) = false := by decide +kernel
theorem test_wf_isChannel : Instr.wellFormed (.retrainWindowStart 196) = false := by decide +kernel
theorem test_wf_isLink : Instr.wellFormed (.linkTrainTimeout 32) = false := by decide +kernel
theorem test_wf_isLane : Instr.wellFormed (.hailSend 0 2) = false := by decide +kernel
theorem test_wf_isLaneMask : Instr.wellFormed (.lossOfSignal 0 4) = false := by decide +kernel
theorem test_wf_isIndex : Instr.wellFormed (.codebookFree 1024) = false := by decide +kernel
theorem test_wf_isBurgee : Instr.wellFormed (.hoistBoundary 16) = false := by decide +kernel
theorem test_wf_isAddress : Instr.wellFormed (.addI32 true 0 (2 ^ 48) []) = false := by decide +kernel
theorem test_wf_isHalf : Instr.wellFormed (.mpReset 2) = false := by decide +kernel
theorem test_wf_isRail : Instr.wellFormed (.railFault 11 0) = false := by decide +kernel
theorem test_wf_isPort : Instr.wellFormed (.hostLoss 4) = false := by decide +kernel
theorem test_wf_isQuad : Instr.wellFormed (.qclkLoss 16) = false := by decide +kernel
theorem test_wf_isSmbAddr : Instr.wellFormed (.vauxPowerUp 4) = false := by decide +kernel
theorem test_wf_isDevice : Instr.wellFormed (.deviceLost 512) = false := by decide +kernel
theorem test_wf_isStack : Instr.wellFormed (.refreshSampleF 4 0 false) = false := by decide +kernel
theorem test_wf_isPackage : Instr.wellFormed (.refreshSampleL 17 0 false) = false := by decide +kernel
theorem test_wf_isCounterGroup : Instr.wellFormed (.telemetrySnapshot 0) = false := by decide +kernel
theorem test_wf_isParityGroup : Instr.wellFormed (.stripeEntryLapse 4 0) = false := by decide +kernel
theorem test_wf_isSegment : Instr.wellFormed (.segmentStart 6 0) = false := by decide +kernel
theorem test_wf_isStage : Instr.wellFormed (.stageStart 0 5) = false := by decide +kernel
theorem test_wf_isBar2Offset : Instr.wellFormed (.bar2Access 0 (2 ^ 36) 4 none) = false := by decide +kernel
theorem test_wf_isBar0Offset : Instr.wellFormed (.bar0SplitRead 0 0x802000) = false := by decide +kernel
theorem test_wf_isFlit : Instr.wellFormed (.flitReceipt 0 true []) = false := by decide +kernel
theorem test_wf_isHail : Instr.wellFormed (.hailReceived 0 (List.replicate 257 0)) = false := by decide +kernel
theorem test_wf_isPayload : Instr.wellFormed (.entryRequest 0 0 false (List.replicate 65537 0)) = false := by
  simp only [Instr.wellFormed, isPayload, List.length_replicate]; decide +kernel
theorem test_wf_isScan : Instr.wellFormed (.extest ⟨true, true, [(5803, true)], []⟩) = false := by decide +kernel

/-! ### Witnesses: the hypotheses of every statement are met -/

/-- The hypothesis of StepRunsFrontCommand is met: a command waits. -/
theorem witness_StepRunsFrontCommand : ({ st dr with pending := [.sysPwrokFall, .bypass] } : State).pending = .sysPwrokFall :: [.bypass] := rfl

/-- The hypothesis of EmptyQueuePassesTime is met: the reset state has nothing waiting, and in a running device the timebase counts. -/
theorem witness_EmptyQueuePassesTime : State.reset.pending = [] ∧ (st dr).pending = [] ∧ dr.aon.vaux = true ∧ dr.aon.memrefOk = true ∧ dr.phase ≠ .held := by
  decide +kernel

/-- The hypotheses of StepKeepsMemoryCanonical are met by a state whose memory lists a byte. -/
theorem witness_StepKeepsMemoryCanonical : (st dBar).canonical ∧ step (st dBar) = .next (st { dBar with now := dBar.now + 1 }) :=
  ⟨by decide, rfl⟩

/-- The hypotheses of StepOutcomes are met: a next state from a well-formed queue, and a stop beyond the ratings. -/
theorem witness_StepOutcomes :
    (∃ t, step { st dr with pending := [.tapReset] } = .next t) ∧ ({ st dr with pending := [.tapReset] } : State).queueFormed ∧
    step { st dr with pending := [.railFault 10 (railMax 10 + 1)] } = .fault .beyondRating := by
  exact ⟨⟨_, rfl⟩, by decide, rfl⟩

/-- The second half of a latched register read. -/
theorem witness_BarReads_second :
    (let d := { dx with fns := [(0, { fn0 with latch := some (0x18, 7) })] }
     decide (d.barUp 0 = true ∧ 0x1C % 4 = 0 ∧ 4 ≤ 0x1C ∧ (d.fn 0).latch = some (0x1C - 4, 7))) = true := by decide +kernel

/-- A CREATE_QP whose input the device accepts. -/
theorem witness_FunctionsAndTheirQueues_created :
    let d := onMb dM 0 (areq 0x10 0 0 0x7000 64 0 0) (qpb 3 2 4 16 16 2 0x5000 0x7000)
    let io := ioD (qpb 3 2 4 16 16 2 0x5000 0x7000)
    d.servesNow 0x0010 0 2 io ∧ (okAnd (d.adminIn (d.adminAt 0 2) 0 2 none io) fun bs => decide ((d.newQp 0 bs).map (·.1) = some 3)) = true := by
  decide +kernel

/-- A unit that begins its rewrite. -/
theorem witness_RewritesCutOver_whole : ∃ t, exec (.rewrite 3 0 .begins false 4) (st dx) = .next t ∧ dx.ready = true ∧ dx.quiesced = false ∧
    (dx.index? 3).isSome = true := by
  refine ⟨_, rfl, ?_⟩; decide +kernel

/-- A test access port with its supply, nothing held. -/
theorem witness_TestAccessAndDebug_tap : dr.aon.vaux = true ∧ dr.tap.heldRise = false := by decide +kernel

/-- The hypotheses of ResetValues are met, clause by clause. -/
theorem witness_ResetValues :
    (decide ((0 < 2))) = true := by
  decide +kernel

/-- The hypotheses of PowerGoodAndStartUp are met, clause by clause. -/
theorem witness_PowerGoodAndStartUp :
    (decide ((d0.aon.vaux = true) ∧ (d0.aon.sysPwrok = false) ∧ (d0.aon.memrefOk = true) ∧ (d0.tap.instr.boundary = false))) = true ∧
    (decide ((dr.aon.sysPwrok = true) ∧
      (dr.aon.memrefOk = true) ∧ (dr.aon.vaux = true) ∧ (dr.aon.sysPwrok = true))) = true ∧
    (decide ((dNoClk.aon.memrefOk = false) ∧ (dNoClk.aon.vaux = true) ∧ (dNoClk.aon.sysPwrok = true) ∧ (dNoClk.tap.heldRise = false))) = true ∧
    (let b : BootInfo := boot false []; decide ((dCold.phase = Phase.coldDone) ∧ (b.testMode = false) ∧ (dCold.straps.sampled = false) ∧ ((dCold.sampleStraps b).bootSlot b.badSlots ≠ none))) = true ∧
    (let b : BootInfo := boot false [0]; decide ((dCold.phase = Phase.coldDone) ∧ (b.testMode = false) ∧ (dCold.straps.sampled = false) ∧ ((dCold.sampleStraps b).bootSlot b.badSlots = none))) = true ∧
    (let b : BootInfo := boot true []; decide ((dCold.phase = Phase.coldDone) ∧ (b.testMode = true))) = true ∧
    (let b : BootInfo := boot true []; decide ((dWarm.phase = Phase.warmDone) ∧ (dWarm.bootSlot b.badSlots ≠ none))) = true := by
  refine ⟨?_, ?_, ?_, ?_, ?_, ?_, ?_⟩ <;> decide +kernel

/-- The hypotheses of RequestedAndWarmResets are met, clause by clause. -/
theorem witness_RequestedAndWarmResets :
    (decide (((List.find? (fun r => r.cold) dRst.resets).any fun (r : PendingReset) => decide ((dRst.phase ≠ Phase.held))) = true ∧
      (1 < 2) ∧ (dRst.phase = Phase.ready) ∧ (dRst.ens.holder ≠ some 1) ∧
      ((List.find? (fun r => !r.cold) dRst.resets).any fun (r : PendingReset) => decide ((dRst.phase = Phase.ready))) = true)) = true ∧
    (decide ((dHold.aon.railHold = true) ∧ (dHold.aon.vaux = true) ∧ (dHold.aon.sysPwrok = true) ∧ (dHold.aon.memrefOk = true) ∧ (dHold.aon.trip = false))) = true ∧
    (decide ((dDrain.phase = Phase.draining))) = true := by
  refine ⟨?_, ?_, ?_⟩ <;> decide +kernel

/-- The hypotheses of RailFaultsVauxAndTrip are met, clause by clause. -/
theorem witness_RailFaultsVauxAndTrip :
    (let t : Int := (460 : Int); decide (((dr.railOut 8 100).any fun (kind : Nat) => decide ((dr.aon.vaux = true) ∧ (8 < 11) ∧ (100 ≤ railMax 8) ∧ (8 ≠ 1) ∧ (8 ≠ 2) ∧ (8 = 0 ∨ dr.aon.sysPwrok = true) ∧ (dr.phase = Phase.ready))) = true ∧
      (1 < 2) ∧ (dr.aon.vaux = true) ∧ (dr.aon.sysPwrok = true) ∧ (dr.phase = Phase.ready) ∧ (belowReset (dr.power.half 1).vset 100 = true) ∧
      (dr.aon.vaux = true) ∧
      (dr.aon.vaux = true) ∧ (dr.aon.trip = false) ∧ (460 ≤ t) ∧ (dr.phase ≠ Phase.held))) = true ∧
    (decide (((dr.railOut 1 1900).any fun (kind : Nat) => decide ((dr.aon.vaux = true) ∧ (1 = 1 ∨ 1 = 2) ∧ (1900 ≤ railMax 1))) = true)) = true ∧
    (decide ((dr.railOut 2 1800 = none) ∧ (2 = 1 ∨ 2 = 2))) = true ∧
    (decide ((dOff.aon.vaux = false))) = true ∧
    (let t : Int := (460 : Int); decide ((d0.aon.vaux = true) ∧ (d0.aon.trip = false) ∧ (460 ≤ t) ∧ (d0.phase = Phase.held))) = true := by
  refine ⟨?_, ?_, ?_, ?_, ?_⟩ <;> decide +kernel

/-- The hypotheses of BrownOutAndQuiesce are met, clause by clause. -/
theorem witness_BrownOutAndQuiesce :
    (decide ((1 < 2) ∧ (belowWarn (dr.power.half 1).vset 660 = true) ∧ (dr.powered = true) ∧ (dr.phase = Phase.ready) ∧ (dr.aon.bo.frozen = false) ∧ (dr.quiesced = false) ∧
      (dr.aon.vaux = true) ∧ (dr.powered = true) ∧ (dr.phase = Phase.ready) ∧ (dr.aon.bo.frozen = false) ∧ (dr.quiesced = false))) = true ∧
    (decide ((dBo.aon.bo.frozen = true) ∧ (dBo.quiesced = false) ∧ (dBo.recovered 760 760 = true) ∧ (dBo.aon.bo.frozenNs + (max dBo.now (dBo.aon.bo.since + 10000) - dBo.aon.bo.since) < 5000000) ∧
      (dBo.aon.bo.frozen = true) ∧ (dBo.quiesced = false) ∧ (dBo.phase = Phase.ready) ∧ (BitVec.getLsbD dBo.degraded 3 = false))) = true ∧
    (decide ((dBoEnd.aon.bo.episode = true) ∧ (dBoEnd.aon.bo.frozen = false) ∧ (dBoEnd.recovered 760 760 = true) ∧ (dBoEnd.phase = Phase.ready))) = true ∧
    (decide ((dQui.quiesced = true) ∧ (dQui.recovered 760 760 = true))) = true := by
  refine ⟨?_, ?_, ?_, ?_⟩ <;> decide +kernel

/-- The hypotheses of VoltageLoopAndPaceDeficit are met, clause by clause. -/
theorem witness_VoltageLoopAndPaceDeficit :
    (let counts : List Nat := List.replicate 31 15000 ++ [14000]; decide ((1 < 2) ∧ (counts.length = 32) ∧ ((dLoop.power.half 1).loopEn = true) ∧
      (1 < 2) ∧ (((dLoop.power.half 1).belowAt).any fun (t : Nat) => decide (((dLoop.power.half 1).deficit = false))) = true)) = true ∧
    (decide ((1 < 2) ∧ ((dDef.power.half 1).deficit = true) ∧
      (1 < 2) ∧ (((dDef.power.half 1).aboveAt).any fun (t : Nat) => decide (((dDef.power.half 1).deficit = true))) = true)) = true := by
  refine ⟨?_, ?_⟩ <;> decide +kernel

/-- The hypotheses of PowerAndTemperatureLimits are met, clause by clause. -/
theorem witness_PowerAndTemperatureLimits :
    (let adc : List Nat := List.range 11; let amps : List Nat := List.range 11; let sensors : List Int := List.replicate 71 (80 : Int) ++ [421]; let stackTemps : List Int := [80, 80, 80, (80 : Int)]; decide ((dHot.phase = Phase.ready) ∧ (adc.length = 11) ∧ (amps.length = 11) ∧
      (dHot.phase = Phase.ready) ∧
      (dHot.aon.vaux = true) ∧ (sensors.length = 72) ∧ (stackTemps.length = 4))) = true := by
  decide +kernel

/-- The hypotheses of ReferenceClockEvents are met, clause by clause. -/
theorem witness_ReferenceClockEvents :
    (decide ((dr.phase ≠ Phase.draining) ∧ (dr.phase ≠ Phase.warmDone) ∧
      (15 < 16))) = true := by
  decide +kernel

/-- The hypotheses of EnsignSeatTakeoverAndFence are met, clause by clause. -/
theorem witness_EnsignSeatTakeoverAndFence :
    (let w : W32 := (0x00010200 : W32); decide ((0 < 2) ∧ (dr.phase = Phase.ready) ∧ (dr.ens.shadowHalted = false) ∧ (BitVec.toNat w / 16 % 16 = 0) ∧
      (0 < 2) ∧ (dr.ens.holder = some 0) ∧ (dr.ens.fenced = false) ∧ (dr.phase = Phase.ready) ∧
      (dr.ens.holder ≠ none) ∧ (dr.ens.fenced = false) ∧ (dr.phase = Phase.ready))) = true ∧
    (decide ((dVac.ens.holder = none) ∧ (dVac.ens.fenced = false) ∧ (dVac.phase = Phase.ready))) = true ∧
    (decide ((dFence.ens.fenced = true) ∧ (dFence.straps.senior < 2))) = true := by
  refine ⟨?_, ?_, ?_⟩ <;> decide +kernel

/-- The hypotheses of LiveActivationAndBootHealth are met, clause by clause. -/
theorem witness_LiveActivationAndBootHealth :
    (decide (((dAct.ens.activation).any fun (a : Activation) => decide ((a.probation = false) ∧ (dAct.ens.fenced = false) ∧ (dAct.phase = Phase.ready) ∧ (dAct.ens.holder ≠ none))) = true)) = true ∧
    (decide (((dProb.ens.activation).any fun (a : Activation) => decide ((a.probation = true) ∧ (a.mp < 2) ∧ (dProb.ens.holder = some a.mp) ∧ (dProb.phase = Phase.ready) ∧ ((dProb.ens.health a.mp).state ≠ 4) ∧ ((dProb.ens.health a.mp).watchdog = false) ∧ ((dProb.ens.health a.mp).memFault = false) ∧ ((dProb.ens.health a.mp).imageFault = false))) = true)) = true ∧
    (decide (((dWarm.mgmt.bootAt).any fun (t : Nat) => decide (((dWarm.bootSlot []).any fun (k : Nat) => decide (((dWarm.otherSlot k).any fun (o : Nat) => decide ((dWarm.phase = Phase.coldDone ∨ dWarm.phase = Phase.warmDone))) = true)) = true)) = true)) = true := by
  refine ⟨?_, ?_, ?_⟩ <;> decide +kernel

/-- The hypotheses of DoorbellsMovePointers are met, clause by clause. -/
theorem witness_DoorbellsMovePointers :
    (decide (((dx.qp 0 0).any fun (p : QueuePair) => decide ((0 < 256) ∧ (3 % 65536 < p.sqSize))) = true ∧
      ((dx.qp 0 0).any fun (p : QueuePair) => decide ((0 < 256) ∧ (p.cqSize ≤ 3 % 65536 ∨ p.unread < (3 % 65536 + p.cqSize - p.cqHead) % p.cqSize))) = true)) = true ∧
    (decide (((dx.qp 0 0).any fun (p : QueuePair) => decide ((0 < 256) ∧ (p.sqSize ≤ 5 % 65536))) = true)) = true ∧
    (decide (((dx.qp 0 0).any fun (p : QueuePair) => decide ((0 < 256) ∧ (2 % 65536 < p.cqSize) ∧ ((2 % 65536 + p.cqSize - p.cqHead) % p.cqSize ≤ p.unread))) = true)) = true ∧
    (let d : Device := { dx with fns := [(0, { fn0 with qps := [(0, { qp0 with err := true })] })], cmds := [{ cmd .insert 11 with applied := true, writeSeq := 10 }] }; decide (((d.qp 0 0).any fun (p : QueuePair) => decide ((0 < 256) ∧ (p.err = true))) = true ∧
      ((d.qp 0 0).any fun (p : QueuePair) => decide ((0 < 256) ∧ (p.err = true) ∧ ((d.cmd? 4).any fun (c : Cmd) => decide ((c.fn = 0) ∧ (c.qid = 0) ∧ (c.remote = none) ∧ (c.op.isWrite = true) ∧ (c.applied = true) ∧ (c.forwarded = []) ∧ (d.hostThere 0))) = true)) = true)) = true := by
  refine ⟨?_, ?_, ?_, ?_⟩ <;> decide +kernel

/-- The hypotheses of FunctionEventAndLogRegisters are met, clause by clause. -/
theorem witness_FunctionEventAndLogRegisters :
    (let v : W32 := (3 : W32); let bs : List (BitVec 8) := leBytes 8 0x1234567; decide ((dx.barUp 0 = true) ∧
      (dx.barUp 0 = true) ∧ (BitVec.toNat v % 4096 < (dx.fn 0).log.size) ∧ ((BitVec.toNat v % 4096 + (dx.fn 0).log.size - (dx.fn 0).log.head) % (dx.fn 0).log.size ≤ (dx.fn 0).log.pending) ∧
      (dx.barUp 0 = true) ∧ (bs.length = 8))) = true ∧
    (let v : W32 := (65 : W32); decide ((dx.barUp 0 = true) ∧ ((dx.fn 0).log.size ≤ BitVec.toNat v % 4096))) = true := by
  refine ⟨?_, ?_⟩ <;> decide +kernel

/-- The hypotheses of BarReads are met, clause by clause. -/
theorem witness_BarReads :
    (let d : Device := { dx with fuses := { serial := 5 } }; decide ((d.barUp 0 = true) ∧ ((d.fn 0).latch = none) ∧ (d.barReg 0 16 = some (8, 0)) ∧
      (d.barUp 0 = true) ∧ (isPf 0 = true) ∧ (16 + 8 ≤ 68719476736) ∧ (d.mgmt.feat.bar2En = false))) = true ∧
    (let bs : List (BitVec 8) := leBytes 8 5; decide ((dBar.barUp 0 = true) ∧ (isPf 0 = true) ∧ (2 + 8 ≤ 68719476736) ∧ (dBar.mgmt.feat.bar2En = true) ∧ (dBar.sanHeld = false) ∧ (dBar.tiers.trained = true) ∧ ((dBar.fn 0).assigned = true) ∧ (dBar.mayTouchAll false (dBar.fn 0).burgee (dBar.mgmt.feat.bar2Base + 2) 8 = true) ∧ (dBar.area (dBar.mgmt.feat.bar2Base + 2) = Area.fTier) ∧
      (dBar.barUp 0 = true) ∧ (isPf 0 = true) ∧ (2 + bs.length ≤ 68719476736) ∧ (dBar.mgmt.feat.bar2En = true) ∧ (dBar.sanHeld = false) ∧ (dBar.tiers.trained = true) ∧ ((dBar.fn 0).assigned = true) ∧ (dBar.mayTouchAll false (dBar.fn 0).burgee (dBar.mgmt.feat.bar2Base + 2) bs.length = true) ∧ (dBar.area (dBar.mgmt.feat.bar2Base + 2) = Area.fTier) ∧ (dBar.tiers.erased = []))) = true := by
  refine ⟨?_, ?_⟩ <;> decide +kernel

/-- The hypotheses of AlertsCoalescingAndBusMaster are met, clause by clause. -/
theorem witness_AlertsCoalescingAndBusMaster :
    (let bs : List (BitVec 8) := leBytes 4 0x80; decide ((dx.aon.vaux = true) ∧ (dx.aon.vioOut = false) ∧ (bs.length = 4) ∧
      (dx.aon.vaux = true) ∧ (dx.aon.vioOut = false) ∧ (bs.length ≠ 4 ∨ false = false) ∧
      (0 < 256) ∧ ((dx.qp 0 0).any fun (p : QueuePair) => decide (((p.waitFrom).any fun (t : Nat) => decide ((p.irqEn = true) ∧ (dx.portUp 0 = true) ∧ ((dx.fn 0).bme = true) ∧ ((tget { } p.vector (dx.fn 0).msix).masked = false))) = true)) = true ∧
      (0 < 256))) = true ∧
    (decide ((dHeld.aon.vaux = true) ∧ (dHeld.aon.vioOut = false) ∧ (dHeld.aon.alert &&& ~~~dHeld.aon.alertMask ≠ 0))) = true := by
  refine ⟨?_, ?_⟩ <;> decide +kernel

/-- The hypotheses of HostLossAndFunctionReset are met, clause by clause. -/
theorem witness_HostLossAndFunctionReset :
    (decide ((0 < dx.ports.length) ∧ (dx.phase ≠ Phase.draining) ∧ (dx.phase ≠ Phase.warmDone) ∧
      (0 < 256))) = true ∧
    (let d : Device := { dx with phase := .draining }; decide ((0 < d.ports.length) ∧ (d.phase = Phase.draining ∨ d.phase = Phase.warmDone) ∧
      (1 < 256) ∧ (1 % 64 ≠ 0))) = true ∧
    (decide (((dLost.ports[0]?).any fun (k : Port) => decide ((k.lost = true))) = true)) = true := by
  refine ⟨?_, ?_, ?_⟩ <;> decide +kernel

/-- The hypotheses of FetchTakesNextEntry are met, clause by clause. -/
theorem witness_FetchTakesNextEntry :
    (let h : HostAnswer := ans 0x10 1; decide ((0 < 256) ∧ (dF.nextPair = some (0, 0)) ∧ ((h.entry).any fun (raw : List Byte) => decide ((okAnd (dF.checkEntry 0 0 (dF.stamp + 1) raw h) fun (c : Cmd) => decide ((raw.length = 64) ∧ (dF.quiesced = false) ∧ (dF.dataPath = true))) = true)) = true)) = true ∧
    (let h : HostAnswer := ans 0x04 0; decide ((0 < 256) ∧ (dF.nextPair = some (0, 0)) ∧ ((h.entry).any fun (raw : List Byte) => decide ((errAnd (dF.checkEntry 0 0 (dF.stamp + 1) raw h) fun (st : Nat) => decide ((raw.length = 64) ∧ (dF.quiesced = false) ∧ (dF.dataPath = true))) = true)) = true)) = true ∧
    (let d : Device := { dF with quiesced := true }; let h : HostAnswer := ans 0x00 1; decide ((0 < 256) ∧ (d.nextPair = some (0, 0)) ∧ ((h.entry).any fun (raw : List Byte) => decide ((raw.length = 64) ∧ (d.quiesced = true))) = true)) = true ∧
    (let h : HostAnswer := (⟨none, [], [], none⟩ : HostAnswer); decide ((0 < 256) ∧ (dF.nextPair = some (0, 0)) ∧ (h.entry = none))) = true := by
  refine ⟨?_, ?_, ?_, ?_⟩ <;> decide +kernel

/-- The hypotheses of InsertAndUpsertAppend are met, clause by clause. -/
theorem witness_InsertAndUpsertAppend :
    (let d : Device := (dw .insert 11); decide (((d.cmd? 4).any fun (c : Cmd) => decide (((d.index? c.indexNo).any fun (x : Index) => decide ((c.accepted.isSome = true) ∧ (c.applied = false) ∧ (c.forwarded = []) ∧ (d.unapplied c = false) ∧ (d.shoalIndex? c.indexNo = none) ∧ (c.op = IoOp.insert) ∧ (x.lookup c.id = none) ∧ (x.occupied < x.nCap) ∧ (x.deltaFull = false))) = true)) = true)) = true ∧
    (let d : Device := (dw .upsert 11); decide (((d.cmd? 4).any fun (c : Cmd) => decide (((d.index? c.indexNo).any fun (x : Index) => decide ((c.accepted.isSome = true) ∧ (c.applied = false) ∧ (c.forwarded = []) ∧ (d.unapplied c = false) ∧ (d.shoalIndex? c.indexNo = none) ∧ (c.op = IoOp.upsert) ∧ (x.lookup c.id = none) ∧ (x.occupied < x.nCap) ∧ (x.deltaFull = false))) = true)) = true)) = true ∧
    (let d : Device := (dw .upsert 9); decide (((d.cmd? 4).any fun (c : Cmd) => decide (((d.index? c.indexNo).any fun (x : Index) => decide ((c.accepted.isSome = true) ∧ (c.applied = false) ∧ (c.forwarded = []) ∧ (d.unapplied c = false) ∧ (d.shoalIndex? c.indexNo = none) ∧ ((tfind 4 x.delta).any fun (v : DeltaEntry) => decide ((c.op = IoOp.upsert) ∧ (x.lookup c.id = some (2, 1, Loc.delta 4)) ∧ (x.away = []) ∧ (4 ≠ x.deltaHead) ∧ (x.deltaFull = false))) = true)) = true)) = true)) = true ∧
    (let d : Device := (dw .insert 9); decide (((d.cmd? 4).any fun (c : Cmd) => decide (((d.index? c.indexNo).any fun (x : Index) => decide ((c.accepted.isSome = true) ∧ (c.applied = false) ∧ (c.forwarded = []) ∧ (d.unapplied c = false) ∧ (d.shoalIndex? c.indexNo = none) ∧ (c.op = IoOp.insert) ∧ ((x.lookup c.id).isSome = true))) = true)) = true)) = true ∧
    (let d : Device := (dw .insert 11 x3cap); decide (((d.cmd? 4).any fun (c : Cmd) => decide (((d.index? c.indexNo).any fun (x : Index) => decide ((c.accepted.isSome = true) ∧ (c.applied = false) ∧ (c.forwarded = []) ∧ (d.unapplied c = false) ∧ (d.shoalIndex? c.indexNo = none) ∧ (c.op = IoOp.insert) ∧ (x.lookup c.id = none) ∧ (x.nCap ≤ x.occupied))) = true)) = true)) = true ∧
    (let d : Device := (dw .upsert 11 x3cap); decide (((d.cmd? 4).any fun (c : Cmd) => decide (((d.index? c.indexNo).any fun (x : Index) => decide ((c.accepted.isSome = true) ∧ (c.applied = false) ∧ (c.forwarded = []) ∧ (d.unapplied c = false) ∧ (d.shoalIndex? c.indexNo = none) ∧ (c.op = IoOp.upsert) ∧ (x.lookup c.id = none) ∧ (x.nCap ≤ x.occupied))) = true)) = true)) = true ∧
    (let d : Device := (dw .upsert 9 x3full); decide (((d.cmd? 4).any fun (c : Cmd) => decide (((d.index? c.indexNo).any fun (x : Index) => decide ((c.accepted.isSome = true) ∧ (c.applied = false) ∧ (c.forwarded = []) ∧ (d.unapplied c = false) ∧ (d.shoalIndex? c.indexNo = none) ∧ (c.op = IoOp.upsert) ∧ ((x.lookup c.id).isSome = true) ∧ (x.deltaFull = true))) = true)) = true)) = true := by
  refine ⟨?_, ?_, ?_, ?_, ?_, ?_, ?_⟩ <;> decide +kernel

/-- The hypotheses of DeleteAndAttrSetReachVector are met, clause by clause. -/
theorem witness_DeleteAndAttrSetReachVector :
    (let d : Device := (dw .delete 9); decide (((d.cmd? 4).any fun (c : Cmd) => decide (((d.index? c.indexNo).any fun (x : Index) => decide ((c.accepted.isSome = true) ∧ (c.applied = false) ∧ (c.forwarded = []) ∧ (d.unapplied c = false) ∧ (d.shoalIndex? c.indexNo = none) ∧ (x.away = []) ∧ ((tfind 4 x.delta).any fun (v : DeltaEntry) => decide ((c.op = IoOp.delete) ∧ (x.lookup c.id = some (2, 1, Loc.delta 4)))) = true)) = true)) = true)) = true ∧
    (let d : Device := (dw .delete 7); decide (((d.cmd? 4).any fun (c : Cmd) => decide (((d.index? c.indexNo).any fun (x : Index) => decide ((c.accepted.isSome = true) ∧ (c.applied = false) ∧ (c.forwarded = []) ∧ (d.unapplied c = false) ∧ (d.shoalIndex? c.indexNo = none) ∧ (x.away = []) ∧ (c.op = IoOp.delete) ∧ (x.lookup c.id = some (0, 0, Loc.slot 0 0)))) = true)) = true)) = true ∧
    (let d : Device := (dw .attrSet 9); decide (((d.cmd? 4).any fun (c : Cmd) => decide (((d.index? c.indexNo).any fun (x : Index) => decide ((c.accepted.isSome = true) ∧ (c.applied = false) ∧ (c.forwarded = []) ∧ (d.unapplied c = false) ∧ (d.shoalIndex? c.indexNo = none) ∧ (x.away = []) ∧ ((tfind 4 x.delta).any fun (v : DeltaEntry) => decide ((c.op = IoOp.attrSet) ∧ (x.lookup c.id = some (2, 1, Loc.delta 4)))) = true)) = true)) = true)) = true ∧
    (let d : Device := (dw .attrSet 7); decide (((d.cmd? 4).any fun (c : Cmd) => decide (((d.index? c.indexNo).any fun (x : Index) => decide ((c.accepted.isSome = true) ∧ (c.applied = false) ∧ (c.forwarded = []) ∧ (d.unapplied c = false) ∧ (d.shoalIndex? c.indexNo = none) ∧ (x.away = []) ∧ ((tfind 0 (x.cell 0).cur.slots).any fun (v : Slot) => decide ((c.op = IoOp.attrSet) ∧ (x.lookup c.id = some (0, 0, Loc.slot 0 0)))) = true)) = true)) = true)) = true ∧
    (let d : Device := (dw .delete 12); decide (((d.cmd? 4).any fun (c : Cmd) => decide (((d.index? c.indexNo).any fun (x : Index) => decide ((c.accepted.isSome = true) ∧ (c.applied = false) ∧ (c.forwarded = []) ∧ (d.unapplied c = false) ∧ (d.shoalIndex? c.indexNo = none) ∧ (x.away = []) ∧ (c.op = IoOp.delete) ∧ (x.lookup c.id = none))) = true)) = true)) = true ∧
    (let d : Device := (dw .attrSet 12); decide (((d.cmd? 4).any fun (c : Cmd) => decide (((d.index? c.indexNo).any fun (x : Index) => decide ((c.accepted.isSome = true) ∧ (c.applied = false) ∧ (c.forwarded = []) ∧ (d.unapplied c = false) ∧ (d.shoalIndex? c.indexNo = none) ∧ (x.away = []) ∧ (c.op = IoOp.attrSet) ∧ (x.lookup c.id = none))) = true)) = true)) = true := by
  refine ⟨?_, ?_, ?_, ?_, ?_, ?_⟩ <;> decide +kernel

/-- The hypotheses of AcceptanceCompletionGetFence are met, clause by clause. -/
theorem witness_AcceptanceCompletionGetFence :
    (let d : Device := { dx with cmds := [cmd .insert 11] }; decide (((d.cmd? 4).any fun (c : Cmd) => decide ((c.remote = none) ∧ (c.op.isWrite = true) ∧ (c.accepted = none) ∧ (d.writesAhead c = false) ∧ (d.quiesced = false) ∧ ((d.index? c.indexNo).isSome = true) ∧ (d.shoalIndex? c.indexNo = none))) = true)) = true ∧
    (let d : Device := { dx with cmds := [{ cmd .insert 11 with applied := true, writeSeq := 10 }] }; decide (((d.cmd? 4).any fun (c : Cmd) => decide ((c.remote = none) ∧ (c.op.isWrite = true) ∧ (c.applied = true) ∧ (c.forwarded = []) ∧ (d.hostThere c.fn) ∧ ((d.qp c.fn c.qid).isSome = true))) = true)) = true ∧
    (let d : Device := { dx with cmds := [{ cmd .get 7 with out := [(0x1000, 4096)] }] }; let b : Nat := (idHash 4 7).2; let l : Loc := Loc.slot 0 0; let kind : Nat := ((x3g.getBytes 7 1 (.slot 0 0)).getD (5,[])).1; let bs : List Byte := ((x3g.getBytes 7 1 (.slot 0 0)).getD (5,[])).2; decide (((d.cmd? 4).any fun (c : Cmd) => decide ((c.remote = none) ∧ ((d.index? c.indexNo).any fun (x : Index) => decide ((c.op = IoOp.get) ∧ (c.phase = CmdPhase.waiting) ∧ (d.quiesced = false) ∧ (d.shoalIndex? c.indexNo = none) ∧ (∀ a ∈ d.cmds, a.op.isWrite = false) ∧ (d.hostThere c.fn) ∧ ((d.qp c.fn c.qid).isSome = true) ∧ (c.id = 7) ∧ (c.flags = 1) ∧ (x.lookup 7 = some (b, 0, l)) ∧ (x.getBytes 7 1 l = some (kind, bs)))) = true)) = true)) = true ∧
    (let d : Device := { dx with cmds := [{ cmd .get 12 with out := [(0x1000, 4096)] }] }; decide (((d.cmd? 4).any fun (c : Cmd) => decide ((c.remote = none) ∧ ((d.index? c.indexNo).any fun (x : Index) => decide ((c.op = IoOp.get) ∧ (c.phase = CmdPhase.waiting) ∧ (d.quiesced = false) ∧ (d.shoalIndex? c.indexNo = none) ∧ (∀ a ∈ d.cmds, a.op.isWrite = false) ∧ (d.hostThere c.fn) ∧ ((d.qp c.fn c.qid).isSome = true) ∧ (x.lookup c.id = none))) = true)) = true)) = true ∧
    (let d : Device := { dx with cmds := [cmd .fence 0, {cmd .insert 6 with stamp := 3}] }; decide (((d.cmd? 4).any fun (c : Cmd) => decide ((c.remote = none) ∧ (c.op = IoOp.fence) ∧ (c.phase = CmdPhase.waiting))) = true)) = true ∧
    (let d : Device := { dx with cmds := [{ cmd .fence 0 with phase := .active }] }; decide (((d.cmd? 4).any fun (c : Cmd) => decide ((c.remote = none) ∧ (c.op = IoOp.fence) ∧ (c.phase = CmdPhase.active) ∧ (∀ (t : Nat), t ∈ c.fenceSet → d.cmd? t = none) ∧ (c.fflag 2 = false ∨ d.unsettled c = false) ∧ (d.hostThere c.fn) ∧ ((d.qp c.fn c.qid).isSome = true))) = true)) = true := by
  refine ⟨?_, ?_, ?_, ?_, ?_, ?_⟩ <;> decide +kernel

/-- The hypotheses of SearchStagesAdvance are met, clause by clause. -/
theorem witness_SearchStagesAdvance :
    (let d : Device := (dS1 .search); decide (((d.cmd? 7).any fun (c : Cmd) => decide (((d.index? c.indexNo).any fun (x : Index) => decide ((c.op.isSearch = true) ∧ (c.remote = none) ∧ (c.snap.isSome = true) ∧ (d.shoalIndex? c.indexNo = none) ∧ (c.phase = CmdPhase.active) ∧ (d.quiesced = false) ∧ (0 < c.runs.length) ∧ (0 < c.vecs.length) ∧ (0 < 16 * c.chunks) ∧ ((c.runs.getD 0 { }).stageA = false))) = true)) = true)) = true ∧
    (let d : Device := (dS2 .search); decide (((d.cmd? 7).any fun (c : Cmd) => decide (((d.index? c.indexNo).any fun (x : Index) => decide ((c.op.isSearch = true) ∧ (c.remote = none) ∧ (c.snap.isSome = true) ∧ (d.shoalIndex? c.indexNo = none) ∧ (((c.runs.getD 0 { }).units[0]?).any fun (n : UnitId) => decide (((d.ctxs).any fun (t : Ctx) => decide ((c.phase = CmdPhase.active) ∧ (0 < c.runs.length) ∧ ((c.runs.getD 0 { }).mayStart 0 = true) ∧ (t.cmd = some 7) ∧ (t.vec = 0) ∧ (t.unit = 0) ∧ (t.started = true))) = true)) = true)) = true)) = true)) = true ∧
    (let d : Device := (dS3 .search); let l : UnitList := (tget { cap := 1 } 0 (((dS3 .search).cmds.headD (sc .search)).runs.getD 0 {}).arrived); decide (((d.cmd? 7).any fun (c : Cmd) => decide (((d.index? c.indexNo).any fun (x : Index) => decide ((c.op.isSearch = true) ∧ (c.remote = none) ∧ (c.snap.isSome = true) ∧ (d.shoalIndex? c.indexNo = none) ∧ (c.phase = CmdPhase.active) ∧ (0 < c.runs.length) ∧ (c.shards = []) ∧ ((d.mb c.half).out = false) ∧ (tfind (c.runs.getD 0 { }).nextFold (c.runs.getD 0 { }).arrived = some l))) = true)) = true)) = true ∧
    (let d : Device := (dS5 .search); decide (((d.cmd? 7).any fun (c : Cmd) => decide (((d.index? c.indexNo).any fun (x : Index) => decide ((c.op.isSearch = true) ∧ (c.remote = none) ∧ (c.snap.isSome = true) ∧ (d.shoalIndex? c.indexNo = none) ∧ (c.phase = CmdPhase.active) ∧ (d.quiesced = false) ∧ (d.folded c = true) ∧ (c.stage ≤ 2) ∧ (∀ (o : Outstanding), o ∈ d.shoal.pending → o.stamp ≠ 7))) = true)) = true)) = true ∧
    (decide (((dD.cmd? 7).any fun (c : Cmd) => decide (((dD.index? c.indexNo).any fun (x : Index) => decide ((c.op.isSearch = true) ∧ (c.remote = none) ∧ (c.snap.isSome = true) ∧ (dD.shoalIndex? c.indexNo = none) ∧ (c.phase = CmdPhase.active) ∧ (dD.quiesced = false) ∧ (c.stage = 4))) = true)) = true)) = true := by
  refine ⟨?_, ?_, ?_, ?_, ?_⟩ <;> decide +kernel

/-- The hypotheses of SearchesRunToCompletion are met, clause by clause. -/
theorem witness_SearchesRunToCompletion :
    (let d : Device := (dS6 .search); decide (((d.cmd? 7).any fun (c : Cmd) => decide ((c.phase = CmdPhase.active) ∧ (c.snap.isSome = true) ∧ (c.remote = none) ∧ ((d.index? c.indexNo).isSome = true) ∧ (d.shoalIndex? c.indexNo = none) ∧ (d.hostThere c.fn) ∧ ((d.qp c.fn c.qid).isSome = true) ∧ (1 ≤ c.sp.k) ∧ (c.sp.k ≤ 1024) ∧ (c.op.isSearch = true) ∧ (c.stage = 5))) = true)) = true ∧
    (let d : Device := (dS2 .search); decide (((d.cmd? 7).any fun (c : Cmd) => decide ((c.phase = CmdPhase.active) ∧ (c.snap.isSome = true) ∧ (c.remote = none) ∧ ((d.index? c.indexNo).isSome = true) ∧ (d.shoalIndex? c.indexNo = none) ∧ (d.hostThere c.fn) ∧ ((d.qp c.fn c.qid).isSome = true) ∧ (1 ≤ c.sp.k) ∧ (c.sp.k ≤ 1024) ∧ (d.quiesced = false) ∧ ((d.mb c.half).out = false) ∧ (c.vecs.length ≤ 16 * c.chunks) ∧ (c.runs.length = c.vecs.length) ∧ (c.stage ≤ 2) ∧ (∀ (o : Outstanding), o ∈ d.shoal.pending → o.stamp ≠ 7) ∧ (c.op = IoOp.search))) = true)) = true ∧
    (let d : Device := (dS1 .msearch); decide (((d.cmd? 7).any fun (c : Cmd) => decide ((c.phase = CmdPhase.active) ∧ (c.snap.isSome = true) ∧ (c.remote = none) ∧ ((d.index? c.indexNo).isSome = true) ∧ (d.shoalIndex? c.indexNo = none) ∧ (d.hostThere c.fn) ∧ ((d.qp c.fn c.qid).isSome = true) ∧ (1 ≤ c.sp.k) ∧ (c.sp.k ≤ 1024) ∧ (d.quiesced = false) ∧ ((d.mb c.half).out = false) ∧ (c.vecs.length ≤ 16 * c.chunks) ∧ (c.runs.length = c.vecs.length) ∧ (c.stage ≤ 2) ∧ (∀ (o : Outstanding), o ∈ d.shoal.pending → o.stamp ≠ 7) ∧ (c.op = IoOp.msearch))) = true)) = true ∧
    (let d : Device := (dS4 .range); decide (((d.cmd? 7).any fun (c : Cmd) => decide ((c.phase = CmdPhase.active) ∧ (c.snap.isSome = true) ∧ (c.remote = none) ∧ ((d.index? c.indexNo).isSome = true) ∧ (d.shoalIndex? c.indexNo = none) ∧ (d.hostThere c.fn) ∧ ((d.qp c.fn c.qid).isSome = true) ∧ (1 ≤ c.sp.k) ∧ (c.sp.k ≤ 1024) ∧ (d.quiesced = false) ∧ ((d.mb c.half).out = false) ∧ (c.vecs.length ≤ 16 * c.chunks) ∧ (c.runs.length = c.vecs.length) ∧ (c.stage ≤ 2) ∧ (∀ (o : Outstanding), o ∈ d.shoal.pending → o.stamp ≠ 7) ∧ (c.op = IoOp.range))) = true)) = true := by
  refine ⟨?_, ?_, ?_, ?_⟩ <;> decide +kernel

/-- The hypotheses of HoistBoundaryAndBuckets are met, clause by clause. -/
theorem witness_HoistBoundaryAndBuckets :
    (let d : Device := { dS0 .search with quiesced := true }; decide ((d.ready = true) ∧ (1 < 16) ∧ (d.mgmt.geoWrite = none) ∧ (d.frozen = true ∨ d.quiesced = true))) = true ∧
    (let d : Device := (dS0 .search); let c : Cmd := sc .search; decide ((d.ready = true) ∧ (1 < 16) ∧ (d.mgmt.geoWrite = none) ∧ (d.cmds = [c]) ∧ (d.frozen = false) ∧ (d.quiesced = false) ∧ ((d.burgee 1).enabled = true) ∧ (d.dataPath = true) ∧ (c.burgee = 1) ∧ (c.op.isSearch = true) ∧ (c.op ≠ IoOp.msearch) ∧ (c.phase = CmdPhase.waiting) ∧ (c.remote = none) ∧ (c.sp.filterId = 0) ∧ (c.sp.stageD = false) ∧ (c.sp.boundOnly = false) ∧ (∀ (u : Nat), c.deadline = some u → max d.now (d.nextBoundary 1) < u) ∧ ((d.index? c.indexNo).isSome = true) ∧ (d.shoalIndex? c.indexNo = none) ∧ (d.mbFree c = true) ∧ (d.places 1 < (d.burgee 1).maxBatch))) = true ∧
    (decide ((∀ l ∈ List.range 32, (dM.link l).queue = []) ∧ (dM.burgees.all fun p => decide (p.2.buckets.length = 8)) = true)) = true := by
  refine ⟨?_, ?_, ?_⟩ <;> decide +kernel

/-- The hypotheses of CutsMismatchesAndReplies are met, clause by clause. -/
theorem witness_CutsMismatchesAndReplies :
    (let d : Device := (dS0 .search); decide (((d.cmd? 7).any fun (c : Cmd) => decide ((c.op.isSearch = true) ∧ (c.remote = none) ∧ ((c.deadline).any fun (t : Nat) => decide ((c.phase = CmdPhase.waiting) ∧ (d.hostThere c.fn) ∧ ((d.qp c.fn c.qid).isSome = true) ∧ (c.sp.k ≤ 1024))) = true)) = true ∧
      ((d.cmd? 7).any fun (c : Cmd) => decide ((c.op.isSearch = true) ∧ (c.remote = none) ∧ (2 < 64) ∧ ((d.sc 2).out = false) ∧ ((d.sc 2).suspect ≠ some 5))) = true ∧
      ((d.cmd? 7).any fun (c : Cmd) => decide ((c.op.isSearch = true) ∧ (c.remote = none) ∧ (1 < 2) ∧ (d.mbs.length = 2) ∧ ((d.mb 1).out = false) ∧ ((d.mb 1).suspect ≠ some 7))) = true)) = true ∧
    (decide (((dSus.cmd? 7).any fun (c : Cmd) => decide ((c.op.isSearch = true) ∧ (c.remote = none) ∧ ((c.deadline).any fun (t : Nat) => decide ((c.phase = CmdPhase.active))) = true)) = true ∧
      ((dSus.cmd? 7).any fun (c : Cmd) => decide ((c.op.isSearch = true) ∧ (c.remote = none) ∧ (2 < 64) ∧ ((dSus.sc 2).out = false) ∧ ((dSus.sc 2).suspect = some 5))) = true)) = true ∧
    (decide (((dCut.cmd? 7).any fun (c : Cmd) => decide ((c.op.isSearch = true) ∧ (c.remote = none) ∧ ((c.deadline).any fun (t : Nat) => decide ((c.phase = CmdPhase.cut) ∧ (dCut.shoalIndex? c.indexNo = none))) = true)) = true)) = true ∧
    (let o : Outstanding := (⟨9, 0x03, 7, 4, 100⟩ : Outstanding); decide (((dSh.cmd? 7).any fun (c : Cmd) => decide ((c.op.isSearch = true) ∧ (c.remote = none) ∧ (List.find? (fun p => p.tag == o.tag && p.dst == o.dst) dSh.shoal.pending = some o) ∧ (o.kind = 3) ∧ (o.stamp = 7) ∧ (∀ (i : Ctx), i ∈ dSh.ctxs → ∀ (r : RrtEntry), r ∈ i.rrt → r.tag ≠ o.tag) ∧ (∀ (p : Nat), p ∈ c.shardsIn → posOf p ≠ posOf o.dst))) = true ∧
      ((dSh.cmd? 7).any fun (c : Cmd) => decide ((c.op.isSearch = true) ∧ (c.remote = none) ∧ (List.find? (fun p => p.tag == o.tag && p.stamp != 0) dSh.shoal.pending = some o) ∧ (o.stamp = 7) ∧ (c.bound = true) ∧ (c.voided = false))) = true)) = true ∧
    (let o : Outstanding := (⟨10, 0x0B, 0, 4, 100⟩ : Outstanding); decide (((dSh.cmd? 7).any fun (c : Cmd) => decide ((c.op.isSearch = true) ∧ (c.remote = none) ∧ (List.find? (fun p => p.tag == o.tag && p.stamp == 0) dSh.shoal.pending = some o))) = true)) = true := by
  refine ⟨?_, ?_, ?_, ?_, ?_⟩ <;> decide +kernel

/-- The hypotheses of RetrainWindowsRunTheirStates are met, clause by clause. -/
theorem witness_RetrainWindowsRunTheirStates :
    (decide (((triggerOf 1).any fun (t : Trigger) => decide (((dM.chan 0).state ≠ ChState.absent) ∧ ((dM.chan 0).trigger = none))) = true ∧
      (5 < 9) ∧ ((dM.chan 0).state ≠ ChState.absent) ∧ ((dM.chan 0).trigger = none))) = true ∧
    (decide ((4 ≤ 5) ∧
      (68 ≤ 68) ∧ ((dM.chan 68).state ≠ ChState.absent) ∧ (Machine.isLane 7 = true) ∧ (¬7 ∈ (dM.chan 68).marks))) = true ∧
    (let d : Device := (dCh { state := .inService, trigger := some .drift, lastAt := some 5 }); decide (((d.chan 0).trigger.isSome = true) ∧ ((d.chan 0).trigger ≠ some Trigger.request ∨ d.mgmt.shed.steps < 2) ∧ ((d.chan 0).state = ChState.inService ∨ (d.chan 0).state = ChState.failed) ∧ (d.groupBusy 0 = false) ∧ (d.frozen = false))) = true ∧
    (let d : Device := (dCh { state := .retrain, windowAt := some 999000, drained := true }); let bad : List Nat := [3, 4]; decide (((d.chan 0).state = ChState.retrain) ∧
      (((d.chan 0).windowAt).any fun (t : Nat) => decide (((d.chan 0).state = ChState.retrain) ∧ ((d.chan 0).drained = true) ∧ (d.now ≤ t + 2000000) ∧ (0 < 68) ∧ (2 ≤ bad.eraseDups.length))) = true ∧
      (((d.chan 0).windowAt).any fun (t : Nat) => decide (((d.chan 0).state = ChState.retrain) ∧ ((d.chan 0).wasFailed = false))) = true ∧
      (((d.chan 0).windowAt).any fun (t : Nat) => decide (((d.chan 0).state = ChState.retrain))) = true)) = true ∧
    (let d : Device := (dCh { state := .retrain, windowAt := some 999000, drained := true }); let bad : List Nat := [3]; decide ((((d.chan 0).windowAt).any fun (t : Nat) => decide (((d.chan 0).state = ChState.retrain) ∧ ((d.chan 0).drained = true) ∧ (d.now ≤ t + 2000000) ∧ (0 < 68) ∧ (bad.eraseDups.length < 2) ∧ ((d.chan 0).wasFailed = false))) = true)) = true ∧
    (let d : Device := (dCh { state := .retrain, windowAt := some 999000, drained := true, wasFailed := true }); let bad : List Nat := [3]; decide ((((d.chan 0).windowAt).any fun (t : Nat) => decide (((d.chan 0).state = ChState.retrain) ∧ ((d.chan 0).drained = true) ∧ (d.now ≤ t + 2000000) ∧ (0 < 68) ∧ (bad.eraseDups.length < 2) ∧ ((d.chan 0).wasFailed = true))) = true)) = true ∧
    (let d : Device := (dCh { state := .replay, windowAt := some 999000 }); decide (((d.chan 0).state = ChState.replay) ∧ (d.frozen = false))) = true ∧
    (let d : Device := (dCh { state := .rebuild, windowAt := some 999000 }); decide (((d.chan 0).state = ChState.rebuild) ∧ ((d.chan 0).pointer + 5 < 2 ^ 23))) = true ∧
    (let d : Device := (dCh { state := .rebuild, windowAt := some 999000 }); decide (((d.chan 0).state = ChState.rebuild) ∧ (2 ^ 23 ≤ (d.chan 0).pointer + 8388608))) = true ∧
    (let d : Device := (dCh { state := .retrain, windowAt := some 999000, drained := true, marks := [3, 70] } 68); decide ((((d.chan 68).windowAt).any fun (t : Nat) => decide (((d.chan 68).state = ChState.retrain) ∧ ((d.chan 68).drained = true) ∧ (d.now ≤ t + 2000000) ∧ (68 ≤ 68) ∧ (lostHalves ([3, 70] : List Nat).eraseDups = []) ∧ (3 ∈ (d.chan 68).marks) ∧ (70 ∈ (d.chan 68).marks) ∧ (lostHalves ([70] : List Nat).eraseDups = []) ∧ (¬3 ∈ ([70] : List Nat)) ∧ (1 ∈ lostHalves ([70, 3, 127, 70] : List Nat).eraseDups) ∧ (¬0 ∈ lostHalves ([70, 3, 127, 70] : List Nat).eraseDups))) = true)) = true := by
  refine ⟨?_, ?_, ?_, ?_, ?_, ?_, ?_, ?_, ?_, ?_⟩ <;> decide +kernel

theorem gfMulBits_zero_left (b n : Nat) : gfMulBits 0 b n = 0 := by
  induction n generalizing b with
  | zero => rfl
  | succ n ih => simp [gfMulBits, ih, gfDouble]
theorem gfMulBits_zero_right (a n : Nat) : gfMulBits a 0 n = 0 := by
  induction n with
  | zero => rfl
  | succ n ih => simp [gfMulBits, ih, gfDouble]
theorem gfPoly_length (l : List Nat) : (gfPoly l).length = l.length + 1 := by
  induction l with
  | nil => rfl
  | cons x xs ih => simp [gfPoly, ih]
/-- Syndromes whose first three vanish and whose last does not are explained by no two symbols. -/
theorem rsTry_beyond (n s : Nat) (hs : s ≠ 0) (ps : List Nat) (hp : ps.length ≤ 2) : rsTry n [0, 0, 0, s] ps = none := by
  have hz : (rsSolve n [0, 0, 0, s] ps).filter (fun p => p.2 != 0) = [] := by
    rw [List.filter_eq_nil_iff]
    intro x hx
    obtain ⟨p, -, rfl⟩ := List.mem_map.mp hx
    have hl : (gfPoly ((ps.filter (· != p)).map (rsLoc n))).length ≤ 3 := by
      rw [gfPoly_length, List.length_map]; have := List.length_filter_le (· != p) ps; omega
    have h0 : (List.zipWith gfMul (gfPoly ((ps.filter (· != p)).map (rsLoc n))) [0, 0, 0, s]).foldl (· ^^^ ·) 0 = 0 := by
      match gfPoly ((ps.filter (· != p)).map (rsLoc n)), hl with
      | [], _ => rfl
      | [a], _ => simp [gfMul, gfMulBits_zero_right]
      | [a, b], _ => simp [gfMul, gfMulBits_zero_right]
      | [a, b, c], _ => simp [gfMul, gfMulBits_zero_right]
    simp only [h0, gfMul, gfMulBits_zero_left]; decide
  simp only [rsTry, hz]
  rw [if_neg]; intro h; apply hs; have := congrArg (fun l => l.getD 3 0) h; simpa [rsSyndromes] using this.symm
theorem errs_syn : rsSyndromes 32 (errsOf 0 errs) = [0, 0, 0, 1] := by decide +kernel
theorem errs_words : wordsOf errs = [0] := by decide +kernel
/-- Syndromes that no two symbols explain leave the codeword unresolved. -/
theorem rsDecode_beyond (n : Nat) (es : SymErrs) (hs : rsSyndromes n es = [0, 0, 0, 1]) : rsDecode n [] es = none := by
  have h1 : ∀ i, rsTry n [0, 0, 0, 1] [i] = none := fun i => rsTry_beyond n 1 (by decide) [i] (by simp)
  have h2 : ∀ j i, rsTry n [0, 0, 0, 1] [j, i] = none := fun j i => rsTry_beyond n 1 (by decide) [j, i] (by simp)
  have h3 : ∀ (l : List Nat), l.findSome? (fun _ => (none : Option SymErrs)) = none := fun l => by
    rw [List.findSome?_eq_none_iff]; exact fun _ _ => rfl
  simp [rsDecode, hs, h1, h2, h3]
/-- A row read with four wrong symbols in a codeword that no decoder resolves. -/
theorem errs_beyond : rowDecode 32 [] errs = none := by
  simp only [rowDecode, errs_words, List.foldr, rsDecode_beyond 32 _ errs_syn]

/-- The hypotheses of RepairRefreshAndFlush are met, clause by clause. -/
theorem witness_RepairRefreshAndFlush :
    (let d : Device := (dCh { state := .failed }); decide ((0 < 68) ∧ (0 % 17 ≠ 16) ∧ ((d.chan 0).out = true) ∧ (∀ (p : Nat × Channel), p ∈ d.tiers.chans → p.fst / 17 = 0 / 17 → p.fst ≠ 0 → p.snd.state ≠ ChState.failed))) = true ∧
    (let d : Device := (dCh { state := .inService, stripes := [⟨4, [], 5⟩] } 16); decide (((List.find? (fun x => x.row == 4) (d.chan (17 * 0 + 16)).stripes).any fun (t : StripeEntry) => decide ((0 < 4))) = true)) = true ∧
    (decide (((dM.chan 0).state = ChState.inService) ∧ ((dM.chan 0).code 0 5 = (32, [])))) = true ∧ rowDecode 32 [] errs = none ∧
    (decide ((0 < dM.tiers.refreshL.length) ∧ (0 < 17) ∧ (dM.power.hotL = []) ∧ (dM.power.hotF = []) ∧ (dM.power.eff < 400) ∧
      (0 < 17) ∧ (¬0 ∈ dM.power.hotL))) = true ∧
    (let read : List (Nat × Nat × Nat) := ([] : List (Nat × Nat × Nat)); let ms : List Nat := ([] : List Nat); decide (((dM.chan 0).state = ChState.inService) ∧ ((dM.chan 0).code 0 5 = (32, ms)) ∧ (rowDecode 32 ms read = some []))) = true ∧
    (decide ((2 < 4) ∧ (dM.tiers.refreshF[2]? = some 1) ∧ (dM.power.hotL = []) ∧ (dM.power.hotF = []) ∧ (dM.power.eff < 400) ∧
      (2 < 4) ∧ (¬2 ∈ dM.power.hotF))) = true ∧
    (let d : Device := (dCh { state := .inService, wcb := [⟨4, 5, [(0, 512)]⟩] } 68); let w : WcbEntry := (⟨4, 5, [(0, 512)]⟩ : WcbEntry); decide ((d.frozen = false) ∧ (List.find? (fun x => x.key == 4) (d.chan 68).wcb = some w))) = true ∧
    (let d : Device := { dBo with now := 1}; decide ((d.frozen = true))) = true := by
  refine ⟨?_, ?_, ?_, errs_beyond, ?_, ?_, ?_, ?_, ?_⟩ <;> decide +kernel

/-- A channel whose Tag Table is full, of blocks other than the one at 0. -/
def dFull : Device := dTag { tags := (List.range 16384).map fun i => ⟨64 * i + 64, 2, 4⟩ }
theorem dFull_tags : 16384 ≤ dFull.tagsOpen 68 ∧ ∀ t ∈ (dFull.chan 68).tags, t.addr ≠ 0 := by
  have h : (dFull.chan 68).tags = (List.range 16384).map fun i => ⟨64 * i + 64, 2, 4⟩ := rfl
  have n : ctrlChans (chanCtrl 68) = [68, 69, 70, 71] := by decide
  rw [Device.tagsOpen, n]
  simp only [List.map_cons, List.map_nil, lsum, List.foldl_cons, List.foldl_nil, h, List.length_map, List.length_range]
  refine ⟨by omega, fun t ht => ?_⟩
  obtain ⟨i, -, rfl⟩ := List.mem_map.mp ht
  simp

/-- The hypotheses of AtomicsAndTaggedBlocks are met, clause by clause. -/
theorem witness_AtomicsAndTaggedBlocks :
    (decide ((dMm.tiers.trained = true) ∧ (dMm.tiers.erased = []) ∧ (dMm.area 0 ≠ Area.lTier) ∧ (dMm.nmaOk NmaOp.addI32 true 1 0 v4 = true) ∧
      (dMm.tiers.trained = true) ∧ (dMm.tiers.erased = []) ∧ (dMm.area 0 ≠ Area.lTier) ∧ (dMm.nmaOk NmaOp.addI64 true 1 0 v4 = true) ∧
      (dMm.tiers.trained = true) ∧ (dMm.tiers.erased = []) ∧ (dMm.area 0 ≠ Area.lTier) ∧ (dMm.nmaOk NmaOp.addF32 true 1 0 v4 = true) ∧
      (dMm.tiers.trained = true) ∧ (dMm.tiers.erased = []) ∧ (dMm.area 0 ≠ Area.lTier) ∧ (dMm.nmaOk NmaOp.addBf16 true 1 0 v4 = true) ∧
      (dMm.tiers.trained = true) ∧ (dMm.tiers.erased = []) ∧ (dMm.area 0 ≠ Area.lTier) ∧ (dMm.nmaOk NmaOp.or_ true 1 0 v4 = true) ∧
      (dMm.tiers.trained = true) ∧ (dMm.tiers.erased = []) ∧ (dMm.area 0 ≠ Area.lTier) ∧ (dMm.nmaOk NmaOp.and_ true 1 0 v4 = true) ∧
      (dMm.tiers.trained = true) ∧ (dMm.tiers.erased = []) ∧ (dMm.area 0 ≠ Area.lTier) ∧ (dMm.nmaOk NmaOp.maxU64 true 1 0 v4 = true) ∧
      (dMm.tiers.trained = true) ∧ (dMm.tiers.erased = []) ∧ (dMm.area 0 ≠ Area.lTier) ∧ (dMm.nmaOk NmaOp.maxI32 true 1 0 v4 = true) ∧
      (dMm.tiers.trained = true) ∧ (dMm.tiers.erased = []) ∧ (dMm.area 0 ≠ Area.lTier) ∧ (dMm.nmaOk NmaOp.maxF32 true 1 0 v4 = true) ∧
      (dMm.tiers.trained = true) ∧ (dMm.tiers.erased = []) ∧ (dMm.area 0 ≠ Area.lTier) ∧ (dMm.chanOf 0 = some (68, 0)) ∧ (dMm.nmaOk NmaOp.treset true 1 0 [] = true) ∧ (dMm.tagsOpen 68 < 16384) ∧ ((dMm.chan 68).heldTags = []))) = true ∧
    (let d : Device := dFull; decide ((d.tiers.trained = true) ∧ (d.tiers.erased = []) ∧ (d.area 0 ≠ Area.lTier) ∧ (d.chanOf 0 = some (68, 0)) ∧ (d.nmaOk NmaOp.treset true 1 0 [] = true))) = true ∧
    (16384 ≤ dFull.tagsOpen 68 ∧ ∀ t ∈ (dFull.chan 68).tags, t.addr ≠ 0) ∧
    (let d : Device := (dTag { tags := [⟨0, 2, 4⟩], heldTags := (List.range 512).map fun i => ⟨64 * i + 64, 9, none⟩ }); decide ((d.tiers.trained = true) ∧ (d.tiers.erased = []) ∧ (d.area 0 ≠ Area.lTier) ∧ (d.chanOf 0 = some (68, 0)) ∧ (d.nmaOk NmaOp.tadd true 1 0 v4 = true) ∧ (512 ≤ d.tagsHeld 68) ∧ (∀ (t : TagBlock), t ∈ (d.chan 68).tags → t.addr = 0 → t.expected < 3))) = true ∧
    (let d : Device := (dTag { tags := [⟨0, 2, 4⟩] }); let t : TagBlock := (⟨0, 2, 4⟩ : TagBlock); decide ((d.tiers.trained = true) ∧ (d.tiers.erased = []) ∧ (d.area 0 ≠ Area.lTier) ∧ (d.chanOf 0 = some (68, 0)) ∧ (t ∈ (d.chan 68).tags) ∧ (t.addr = 0) ∧ (∀ (u : TagBlock), u ∈ (d.chan 68).tags → u.addr = 0 → u = t) ∧ ((d.chan 68).heldTags = []) ∧ (d.nmaOk NmaOp.tadd true 1 0 v4 = true) ∧ (t.expected = 2) ∧
      (d.tiers.trained = true) ∧ (d.tiers.erased = []) ∧ (d.area 0 ≠ Area.lTier) ∧ (d.chanOf 0 = some (68, 0)) ∧ (t ∈ (d.chan 68).tags) ∧ (t.addr = 0) ∧ (∀ (u : TagBlock), u ∈ (d.chan 68).tags → u.addr = 0 → u = t) ∧ ((d.chan 68).heldTags = []) ∧ (d.nmaOk NmaOp.tskip true 1 0 [] = true) ∧ (t.expected = 2))) = true ∧
    (let d : Device := (dTag { tags := [⟨0, 2, 4⟩] }); let t : TagBlock := (⟨0, 2, 4⟩ : TagBlock); decide ((d.tiers.trained = true) ∧ (d.tiers.erased = []) ∧ (d.area 0 ≠ Area.lTier) ∧ (d.chanOf 0 = some (68, 0)) ∧ (t ∈ (d.chan 68).tags) ∧ (t.addr = 0) ∧ (∀ (u : TagBlock), u ∈ (d.chan 68).tags → u.addr = 0 → u = t) ∧ ((d.chan 68).heldTags = []) ∧ (d.nmaOk NmaOp.tadd true 1 0 v4 = true) ∧ (d.tagsHeld 68 < 512) ∧ (t.expected < 3))) = true ∧
    (let d : Device := (dTag { tags := [⟨0, 2, 4⟩] }); let t : TagBlock := (⟨0, 2, 4⟩ : TagBlock); decide ((d.tiers.trained = true) ∧ (d.tiers.erased = []) ∧ (d.area 0 ≠ Area.lTier) ∧ (d.chanOf 0 = some (68, 0)) ∧ (t ∈ (d.chan 68).tags) ∧ (t.addr = 0) ∧ (∀ (u : TagBlock), u ∈ (d.chan 68).tags → u.addr = 0 → u = t) ∧ ((d.chan 68).heldTags = []) ∧ (d.nmaOk NmaOp.tadd true 1 0 v4 = true) ∧ (1 < t.expected))) = true ∧
    (let d : Device := (dTag { tags := [⟨0, 2, 4⟩] }); decide ((d.nmaOk NmaOp.treset true 1 0 [] = true) ∧ (∃ t ∈ (d.chan 68).tags, t.addr = 0) ∧ ((d.chan 68).heldTags = []))) = true := by
  refine ⟨?_, ?_, dFull_tags, ?_, ?_, ?_, ?_, ?_⟩ <;> decide +kernel

/-- The hypotheses of StreamsStart are met, clause by clause. -/
theorem witness_StreamsStart :
    (let prog : List W64 := [ap 0x3F 0 0 0 0 0]; let desc : List Byte := sdesc 1; decide ((dStr.ready = true) ∧ ((dStr.sc 2).out = false) ∧ (2 < 64) ∧ (1 < 4) ∧ ((if prog.isEmpty = true then dStr else dStr.loadAp 2 (parseStream (dStr.str 2).nextId 1 desc).progSlot prog).streamOk 2 (parseStream (dStr.str 2).nextId 1 desc) = true) ∧ ((if prog.isEmpty = true then dStr else dStr.loadAp 2 (parseStream (dStr.str 2).nextId 1 desc).progSlot prog).streamFree 2 (parseStream (dStr.str 2).nextId 1 desc) = true) ∧ ((parseStream (dStr.str 2).nextId 1 desc).opcode = 1) ∧ ((parseStream (dStr.str 2).nextId 1 desc).chain = false))) = true ∧
    (let prog : List W64 := [ap 0x3F 0 0 0 0 0]; let desc : List Byte := sdesc 2; decide ((dStr.ready = true) ∧ ((dStr.sc 2).out = false) ∧ (2 < 64) ∧ (1 < 4) ∧ ((if prog.isEmpty = true then dStr else dStr.loadAp 2 (parseStream (dStr.str 2).nextId 1 desc).progSlot prog).streamOk 2 (parseStream (dStr.str 2).nextId 1 desc) = true) ∧ ((if prog.isEmpty = true then dStr else dStr.loadAp 2 (parseStream (dStr.str 2).nextId 1 desc).progSlot prog).streamFree 2 (parseStream (dStr.str 2).nextId 1 desc) = true) ∧ ((parseStream (dStr.str 2).nextId 1 desc).opcode = 2) ∧ ((parseStream (dStr.str 2).nextId 1 desc).chain = false))) = true ∧
    (let prog : List W64 := [ap 0x3F 0 0 0 0 0]; let desc : List Byte := sdesc 3; decide ((dStr.ready = true) ∧ ((dStr.sc 2).out = false) ∧ (2 < 64) ∧ (1 < 4) ∧ ((if prog.isEmpty = true then dStr else dStr.loadAp 2 (parseStream (dStr.str 2).nextId 1 desc).progSlot prog).streamOk 2 (parseStream (dStr.str 2).nextId 1 desc) = true) ∧ ((if prog.isEmpty = true then dStr else dStr.loadAp 2 (parseStream (dStr.str 2).nextId 1 desc).progSlot prog).streamFree 2 (parseStream (dStr.str 2).nextId 1 desc) = true) ∧ ((parseStream (dStr.str 2).nextId 1 desc).opcode = 3))) = true ∧
    (let prog : List W64 := [ap 0x3F 0 0 0 0 0]; let desc : List Byte := sdesc 4 6; decide ((dStr.ready = true) ∧ ((dStr.sc 2).out = false) ∧ (2 < 64) ∧ (1 < 4) ∧ ((if prog.isEmpty = true then dStr else dStr.loadAp 2 (parseStream (dStr.str 2).nextId 1 desc).progSlot prog).streamOk 2 (parseStream (dStr.str 2).nextId 1 desc) = true) ∧ ((if prog.isEmpty = true then dStr else dStr.loadAp 2 (parseStream (dStr.str 2).nextId 1 desc).progSlot prog).streamFree 2 (parseStream (dStr.str 2).nextId 1 desc) = true) ∧ ((parseStream (dStr.str 2).nextId 1 desc).opcode = 4) ∧ ((parseStream (dStr.str 2).nextId 1 desc).chain = false))) = true ∧
    (let t := parseStream (dStr.str 2).nextId 1 (sdesc 1); decide ((t.opcode ≠ 3) ∧ ((dStr.ctx? 8).isSome = true) ∧ (∀ x ∈ ({ dStr with tiers := { dStr.tiers with extF := [⟨0x8000000, 0x1000, some 1⟩] } } : Device).tiers.extF, ¬ (x.base < t.escBase + 2 * (t.nSlots * t.slotBytes) ∧ t.escBase < x.base + x.len)) ∧ ¬ (∀ x ∈ dStr.tiers.extF, ¬ (x.base < t.escBase + 2 * (t.nSlots * t.slotBytes) ∧ t.escBase < x.base + x.len)))) = true := by
  refine ⟨?_, ?_, ?_, ?_, ?_⟩ <;> decide +kernel

/-- The hypotheses of AddressProgramsCompute are met, clause by clause. -/
theorem witness_AddressProgramsCompute :
    (let d : Device := (dAp 1 (ap 1 2 0 1 0 0xFFFFFFFF)); let t : Machine.Stream := strm 1; let w : W64 := (ap 1 2 0 1 0 0xFFFFFFFF); decide ((d.apNext 2 3 1 t w))) = true ∧
    (let d : Device := (dAp 1 (ap 2 2 0 1 0 0xFFFFFFFF)); let t : Machine.Stream := strm 1; let w : W64 := (ap 2 2 0 1 0 0xFFFFFFFF); decide ((d.apNext 2 3 2 t w))) = true ∧
    (let d : Device := (dAp 1 (ap 3 2 0 1 0 0xFFFFFFFF)); let t : Machine.Stream := strm 1; let w : W64 := (ap 3 2 0 1 0 0xFFFFFFFF); decide ((d.apNext 2 3 3 t w))) = true ∧
    (let d : Device := (dAp 1 (ap 4 2 0 1 0 0xFFFFFFFF)); let t : Machine.Stream := strm 1; let w : W64 := (ap 4 2 0 1 0 0xFFFFFFFF); decide ((d.apNext 2 3 4 t w))) = true ∧
    (let d : Device := (dAp 1 (ap 5 2 0 1 0 3)); let t : Machine.Stream := strm 1; let w : W64 := (ap 5 2 0 1 0 3); decide ((d.apNext 2 3 5 t w))) = true ∧
    (let d : Device := (dAp 1 (ap 6 2 0 1 0 0xFFFFFFFF)); let t : Machine.Stream := strm 1; let w : W64 := (ap 6 2 0 1 0 0xFFFFFFFF); decide ((d.apNext 2 3 6 t w))) = true ∧
    (let d : Device := (dAp 1 (ap 7 2 0 1 0 0xFFFFFFFF)); let t : Machine.Stream := strm 1; let w : W64 := (ap 7 2 0 1 0 0xFFFFFFFF); decide ((d.apNext 2 3 7 t w))) = true ∧
    (let d : Device := (dAp 1 (ap 0x10 2 0 1 3 0)); let t : Machine.Stream := strm 1; let w : W64 := (ap 0x10 2 0 1 3 0); decide ((d.apNext 2 3 16 t w) ∧ (256 = if apImm w = 0 then BitVec.toNat (t.regs.getD (apSa w) 0) else apImm w) ∧ (0 < 256) ∧ (256 < 2 ^ 24))) = true ∧
    (let d : Device := (dAp 1 (ap 0x11 2 0 1 2 6)); let t : Machine.Stream := strm 1; let w : W64 := (ap 0x11 2 0 1 2 6); let l : LoopLevel := (⟨2, 3, 1⟩ : LoopLevel); let ls : List LoopLevel := ([] : List LoopLevel); decide ((d.apNext 2 3 17 t w) ∧ (t.loops = l :: ls) ∧ (t.counters.getD (apLv w) 0 + 1 < l.count))) = true ∧
    (let d : Device := { dAp 1 (ap 0x11 2 0 1 2 6) with streams := [(2, strs t11 [ap 0x11 2 0 1 2 6])] }; let w : W64 := (ap 0x11 2 0 1 2 6); let l : LoopLevel := (⟨2, 3, 1⟩ : LoopLevel); let ls : List LoopLevel := ([] : List LoopLevel); decide ((d.apNext 2 3 17 t11 w) ∧ (t11.loops = l :: ls) ∧ (l.count ≤ t11.counters.getD (apLv w) 0 + 1))) = true ∧
    (let d : Device := (dAp 1 (ap 0x18 2 0 1 3 6)); let t : Machine.Stream := strm 1; let w : W64 := (ap 0x18 2 0 1 3 6); decide ((d.apNext 2 3 24 t w) ∧ (t.idxSem = some 6) ∧ ((d.sem 2 6).held = true) ∧ ((d.sem 2 6).heldAt < 16) ∧ (t.idxTaken + 1 < (d.sem 2 6).slotBytes / 4))) = true ∧
    (let d : Device := (dAp 1 (ap 0x29 2 0 1 3 6)); let t : Machine.Stream := strm 1; let w : W64 := (ap 0x29 2 0 1 3 6); decide ((d.apNext 2 3 41 t w) ∧ (d.outstanding 2 3 = []))) = true := by
  refine ⟨?_, ?_, ?_, ?_, ?_, ?_, ?_, ?_, ?_, ?_, ?_, ?_⟩ <;> decide +kernel

/-- The hypotheses of AddressProgramsTransfer are met, clause by clause. -/
theorem witness_AddressProgramsTransfer :
    (let d : Device := (dAp 1 xw); let t : Machine.Stream := strm 1; decide ((d.apNext 2 3 32 t xw) ∧ (t.skip = 0) ∧ (256 = t.movedTo (BitVec.toNat (t.regs.getD (apSa xw) 0) % 2 ^ 48) (apImm xw % 4096)) ∧ (t.xferOf xw = (256, 64, 64)) ∧ (64 = if t.opcode = 2 then BitVec.toNat (t.regs.getD (apSa xw) 0) % 2 ^ 48 else BitVec.toNat (t.regs.getD (apSb xw) 0) % 2 ^ 48) ∧ (apImm xw % 4096 % 32 = 0) ∧ (32 ≤ apImm xw % 4096) ∧ (apImm xw % 4096 ≤ 2048) ∧ (t.opcode = 3 → 64 % 32 = 0) ∧ (t.opcode ≠ 3 → 64 + apImm xw % 4096 ≤ t.slotBytes) ∧ (d.mayTouchAll t.own t.burgee 256 (apImm xw % 4096) = true) ∧ (t.opcode = 3 → d.mayTouchAll t.own t.burgee 64 (apImm xw % 4096) = true) ∧ (t.piecesOf xw = [⟨256, apImm xw % 4096, t.opcode == 2, 64⟩]) ∧ (t.unitReg = none) ∧ (d.heldBy 2 t (t.piecesOf xw) = none) ∧ (d.turnToIssue 2 t = true))) = true ∧
    (let d : Device := (dAp 2 xa); let t : Machine.Stream := strm 2; let c : Nat × Nat := (68, 0); let o : NmaOp := (((nmaOfCode 2).getD .addI32)); decide ((d.apNext 2 3 33 t xa) ∧ (nmaOfCode (bits 15 12 (apImm xa)) = some o) ∧ (t.opcode = 2) ∧ (o.lenOk (apImm xa % 4096) = true) ∧ (BitVec.toNat (t.regs.getD (apSb xa) 0) % 2 ^ 48 % (apImm xa % 4096) = 0) ∧ (BitVec.toNat (t.regs.getD (apSa xa) 0) % 2 ^ 48 + apImm xa % 4096 ≤ t.slotBytes) ∧ (d.chanOf (BitVec.toNat (t.regs.getD (apSb xa) 0) % 2 ^ 48) = some c) ∧ (d.mayTouchAll t.own t.burgee (BitVec.toNat (t.regs.getD (apSb xa) 0) % 2 ^ 48) (apImm xa % 4096) = true) ∧ (d.heldBy 2 t (t.wants xa) = none) ∧ (d.turnToIssue 2 t = true))) = true ∧
    (let d : Device := (dAp 1 (ap 0x19 2 0 0 0 8)); let t : Machine.Stream := strm 1; let w : W64 := ap 0x19 2 0 0 0 8; decide ((d.apNext 2 3 25 t w) ∧ (264 = t.movedTo (BitVec.toNat (t.regs.getD (apSa w) 0 + apImmS w) % 2 ^ 48) 8) ∧ (d.mayTouchAll t.own t.burgee 264 8 = true) ∧ (t.unitReg = none) ∧ (d.heldBy 2 t [⟨264, 8, false, 0⟩] = none) ∧ (d.turnToIssue 2 t = true))) = true ∧
    (let d : Device := (dAp 1 (ap 0x19 2 0 0 0 8) [xl]); let t : Machine.Stream := strm 1; decide ((d.stream? 2 3 = some t) ∧ (List.find? (fun y => y.ldm.isSome) (d.outstanding 2 3) = some xl))) = true ∧
    (let d : Device := (dAp 2 (ap 0x28 2 0 0 0 8) [{ xr with write := true }]); let t : Machine.Stream := strm 2; let x : Transfer := { xr with write := true }; let w : W64 := ap 0x28 2 0 0 0 8; decide ((d.ready = true) ∧ (List.find? (fun y => y.id == x.id) (d.str 2).xfers = some x) ∧ (x.stream = 3) ∧ (d.stream? 2 3 = some t) ∧ (x.ldm = none) ∧ (x.nma = none) ∧ (d.tiers.erased = []) ∧ (d.area x.addr = Area.fTier ∨ ∀ (p : Nat × Burgee), p ∈ d.burgees → p.snd.placed = []) ∧ (d.noneWait 2) ∧ (d.enginesFree 2) ∧ (x.write = true) ∧
      (d.apNext 2 3 40 t w) ∧ (t.hasRing = true) ∧ (t.slot = some 1) ∧ (t.skip = 0) ∧ (t.slotCount = 0 ∨ t.closed + 1 < t.slotCount))) = true ∧
    (let d : Device := (dAp 1 (ap 0x3F 2 0 0 0 8) [xr]); let t : Machine.Stream := strm 1; let w : W64 := ap 0x3F 2 0 0 0 8; decide ((d.ready = true) ∧ (List.find? (fun y => y.id == xr.id) (d.str 2).xfers = some xr) ∧ (xr.stream = 3) ∧ (d.stream? 2 3 = some t) ∧ (xr.ldm = none) ∧ (xr.nma = none) ∧ (d.tiers.erased = []) ∧ (d.area xr.addr = Area.fTier ∨ ∀ (p : Nat × Burgee), p ∈ d.burgees → p.snd.placed = []) ∧ (d.noneWait 2) ∧ (d.enginesFree 2) ∧ (xr.write = false) ∧ (t.opcode = 1 ∨ t.opcode = 4) ∧ (inTile t.ringAddr = false) ∧
      (d.apNext 2 3 63 t w) ∧ (d.outstanding 2 3 ≠ []))) = true ∧
    (let d : Device := (dAp 1 (ap 0x3F 2 0 0 0 8)); let t : Machine.Stream := strm 1; let w : W64 := ap 0x3F 2 0 0 0 8; decide ((d.apNext 2 3 63 t w) ∧ (d.outstanding 2 3 = []) ∧ (t.again = []) ∧ (d.noneWait 2))) = true ∧
    (let t : Machine.Stream := strm 2; let d : Device := dAp 2 xw; decide ((d.apNext 2 3 32 t xw) ∧ (t.skip = 0) ∧ (t.piecesOf xw = [⟨64, 64, true, 256⟩]) ∧ (d.heldBy 2 t (t.piecesOf xw) = none) ∧ (d.turnToIssue 2 t = true) ∧ (d.mayTouchAll t.own t.burgee 64 64 = true))) = true ∧
    (let t : Machine.Stream := strm 1; let d : Device := { dAp 1 xw with burgees := [(1, { enabled := true, buckets := List.replicate 8 { rate := 10, level := -1 } })] }; decide ((d.apNext 2 3 32 t xw) ∧ (t.skip = 0) ∧ ((t.xferOf xw).2.1 % 32 = 0) ∧ (32 ≤ apImm xw % 4096) ∧ (apImm xw % 4096 ≤ 2048) ∧ ((t.xferOf xw).1 % 32 = 0) ∧ (t.opcode ≠ 3) ∧ ((t.xferOf xw).2.2 + apImm xw % 4096 ≤ t.slotBytes) ∧ (d.mayTouchAll t.own t.burgee (t.xferOf xw).1 (apImm xw % 4096) = true) ∧ (d.heldBy 2 t (t.piecesOf xw)).isSome = true)) = true := by
  refine ⟨?_, ?_, ?_, ?_, ?_, ?_, ?_, ?_, ?_⟩ <;> decide +kernel

/-- The hypotheses of StreamFaultsAndDipPoints are met, clause by clause. -/
theorem witness_StreamFaultsAndDipPoints :
    (decide (((base.ctx? 8).any fun (t : Ctx) => decide ((t.cmd = some m0.stamp) ∧ (base.cmd? m0.stamp = some m0) ∧ (m0.restarts = 0) ∧ (∀ p ∈ (base.str 2).sems, p.2.active = true → p.2.ctx = 8 → p.2.isOut = true))) = true ∧
      (base.ready = true) ∧ (base.waitCycles 2 = []))) = true ∧
    (let d : Device := { base with cmds := [m1] }; decide (((d.ctx? 8).any fun (t : Ctx) => decide ((t.cmd = some m1.stamp) ∧ (d.cmd? m1.stamp = some m1) ∧ (1 ≤ m1.restarts) ∧ (m1.remote = none) ∧ (d.hostThere m1.fn) ∧ ((d.qp m1.fn m1.qid).isSome = true))) = true)) = true ∧
    (let d : Device := (dPc m0 xr); decide (((d.stream? 2 xr.stream).any fun (t : Machine.Stream) => decide (((d.ctx? t.ctx).any fun (k : Ctx) => decide ((List.find? (fun y => y.id == xr.id) (d.str 2).xfers = some xr) ∧ (k.cmd = some m0.stamp) ∧ (d.cmd? m0.stamp = some m0) ∧ (t.ste < (d.str 2).stes.length) ∧ (xr.write = false) ∧ (m0.restarts = 0) ∧ (d.copyAt xr.addr = none) ∧ (t.opcode = 1) ∧ (xr.ldm = none) ∧ (t.pieces.filter (fun q => q.1 == xr.slot) = [(xr.slot, ⟨0x100, 32, false, 0x40⟩)]))) = true)) = true)) = true ∧
    (let d : Device := (bx xr m1); decide (((d.stream? 2 xr.stream).any fun (t : Machine.Stream) => decide (((d.ctx? t.ctx).any fun (k : Ctx) => decide ((List.find? (fun y => y.id == xr.id) (d.str 2).xfers = some xr) ∧ (k.cmd = some m1.stamp) ∧ (d.cmd? m1.stamp = some m1) ∧ (t.ste < (d.str 2).stes.length) ∧ (xr.write = false) ∧ (1 ≤ m1.restarts) ∧ (m1.remote = none) ∧ (d.hostThere m1.fn) ∧ ((d.qp m1.fn m1.qid).isSome = true))) = true)) = true)) = true ∧
    (let d : Device := (bx { xr with write := true } m1); let x : Transfer := { xr with write := true }; decide (((d.stream? 2 x.stream).any fun (t : Machine.Stream) => decide (((d.ctx? t.ctx).any fun (k : Ctx) => decide ((List.find? (fun y => y.id == x.id) (d.str 2).xfers = some x) ∧ (k.cmd = some m1.stamp) ∧ (d.cmd? m1.stamp = some m1) ∧ (t.ste < (d.str 2).stes.length) ∧ (x.write = true) ∧ (m1.remote = none) ∧ (d.hostThere m1.fn) ∧ ((d.qp m1.fn m1.qid).isSome = true))) = true)) = true)) = true ∧
    (let d : Device := { base with streams := [(2, { strs (strm 1) [] with stes := [ql, {}, {}, {}] })] }; decide (((d.str 2).stes[0]? = some ql) ∧ (ql.recovery = some 50) ∧ (∀ (x : Transfer), x ∈ (d.str 2).xfers → ¬x.id ∈ ql.watch))) = true ∧
    ((let ks : List Nat := [5, 6]; decide ((dCy.ready = true) ∧ (dCy.waitCycles 2 = [[5, 6]]) ∧ ((dCy.str 2).blocked = [cCy]) ∧ (cCy.rings = [5, 6]) ∧ (cCy.seen = [5, 6].map (dCy.ringSeen 2)) ∧ (∀ j ∈ ks, dCy.ringExcused 2 j = false) ∧ (cCy.at_ + 50000 < cCy.blocked + (dCy.now + 1000)) ∧ ((orderRings (dCy.ringBefore 2) ([5, 6].filter fun j => decide (j < 64))).find? (fun j => (dCy.sem 2 j).escape.isEmpty) = some 6)))) = true ∧
    (decide ((dk.ready = true) ∧ (2 < 64) ∧ ((dk.sc 2).out = false) ∧ ((dk.sc 2).starting = none) ∧ ((dk.sc 2).running = none) ∧ (dk.ctxs = [ky]) ∧ (ky.sc = 2) ∧ (ky.state ≠ CtxState.remote) ∧ (dk.ctxReady ky = true) ∧ (∀ (m : Cmd), ky.cmd.bind dk.cmd? = some m → (m.snap.bind fun x => x.filter) = none) ∧ (ky.started = true ∨ 3 ≤ (dk.freeBanks ky).length) ∧ (dk.noneWait 2) ∧ (dk.enginesFree 2) ∧ ((dk.eng 2).walkWait = []) ∧ (tget [] ky.id (dk.eng 2).savedAcc = []) ∧ (∀ t ∈ (dk.str 2).running, t.again = []))) = true ∧
    (let d : Device := { dk with scs := [(2, { starting := some 8 })] }; decide (((d.sc 2).starting = some 8))) = true ∧
    (let d : Device := { dk with ctxs := [ks], mem := [⟨0x40007, 9⟩, ⟨0x40000, 1⟩].reverse }; decide ((d.ctx? 8 = some ks) ∧ (ks.state = CtxState.spilled) ∧ (ks.spilled = [(3, 262144)]) ∧ (d.bankHolder ks.sc 3 = none) ∧ (∀ (r : RrtEntry), r ∈ ks.rrt → r.state ≠ RrtState.parked) ∧ (d.tiers.erased = []) ∧ (262144 % 2048 = 0) ∧ (262144 + 0x80000 ≤ d.fCap) ∧ (∀ (m : Cmd), ks.cmd.bind d.cmd? = some m → (m.snap.bind fun x => x.filter) = none) ∧ (∀ p ∈ tget [] 8 (d.str ks.sc).saved, (d.sem ks.sc p.1).active = false) ∧ (tget [] 8 (d.eng ks.sc).savedAcc = []) ∧ (∀ t ∈ (d.str ks.sc).running, t.again = []) ∧ (d.noneWait ks.sc))) = true ∧
    (decide (((dTg.ctx? 8).any fun (t : Ctx) => decide ((t.cmd = some m0.stamp) ∧ (dTg.cmd? m0.stamp = some m0) ∧ (m0.restarts = 0) ∧ ((dTg.str 2).sems.filter (fun p => p.2.active && p.2.ctx == 8 && !p.2.isOut) = [(5, dTg.sem 2 5)]) ∧ (dTg.fillerOf 2 5 = some (2, strm 1)) ∧ ((strm 1).opcode = 1) ∧ ((strm 1).id < (dTg.str 2).nextId) ∧ (t.spilled = []) ∧ (dTg.noneWait 2) ∧ ((strm 1).ste < 4) ∧ (dTg.placeFree 2 (strm 1).ste = true))) = true)) = true ∧
    (let d : Device := (bx xl m0); decide ((List.find? (fun y => y.id == xl.id) (d.str 2).xfers = some xl) ∧ (xl.write = false) ∧ (m0.restarts = 0) ∧ (d.copyAt xl.addr = none) ∧ (xl.ldm.isSome = true))) = true ∧
    (∀ j, ({ base with cmds := [m1] } : Device).noneWait j) ∧ (∀ j, (bx xr m1).noneWait j) ∧ (∀ j, (bx { xr with write := true } m1).noneWait j) := by
  refine ⟨?_, ?_, ?_, ?_, ?_, ?_, ?_, ?_, ?_, ?_, ?_, ?_, noneWait_all _ ?_, noneWait_all _ ?_, noneWait_all _ ?_⟩ <;> decide +kernel

/-- The hypotheses of MatrixEngineTiles are met, clause by clause. -/
theorem witness_MatrixEngineTiles :
    (let desc : List Byte := me 1 0 96 0; decide ((2 < 64) ∧ (dMe.meOk 2 (parseMe desc) = true) ∧ ((dMe.eng 2).ftqHeld = none) ∧ ((dMe.eng 2).meNext = none) ∧ (dMe.meTagOk 2 (parseMe desc) = true) ∧ (∀ a ∈ (parseMe desc).touches, dMe.ringOver 2 (parseMe desc).ctx a = none) ∧ ((parseMe desc).aFmt = some VFmt.bf16) ∧ ((parseMe desc).bFmt = some VFmt.bf16) ∧ (dMe.tiers.erased = []) ∧ ((parseMe desc).op = 1))) = true ∧
    (let desc : List Byte := me 2 0 33 0; decide ((2 < 64) ∧ (dMe.meOk 2 (parseMe desc) = true) ∧ ((dMe.eng 2).ftqHeld = none) ∧ ((dMe.eng 2).meNext = none) ∧ (dMe.meTagOk 2 (parseMe desc) = true) ∧ (∀ a ∈ (parseMe desc).touches, dMe.ringOver 2 (parseMe desc).ctx a = none) ∧ ((parseMe desc).aFmt = some VFmt.bf16) ∧ ((parseMe desc).bFmt = some VFmt.bf16) ∧ (dMe.tiers.erased = []) ∧ ((parseMe desc).op = 2))) = true ∧
    (let desc : List Byte := me 3 5 96 4; decide ((2 < 64) ∧ (dMe.meOk 2 (parseMe desc) = true) ∧ ((dMe.eng 2).ftqHeld = none) ∧ ((dMe.eng 2).meNext = none) ∧ (dMe.meTagOk 2 (parseMe desc) = true) ∧ (∀ a ∈ (parseMe desc).touches, dMe.ringOver 2 (parseMe desc).ctx a = none) ∧ ((parseMe desc).aFmt = some VFmt.bf16) ∧ ((parseMe desc).bFmt = some VFmt.bf16) ∧ (dMe.tiers.erased = []) ∧ ((parseMe desc).op = 3))) = true ∧
    (let desc : List Byte := me 4 1 96 0; decide ((2 < 64) ∧ (dMe.meOk 2 (parseMe desc) = true) ∧ ((dMe.eng 2).ftqHeld = none) ∧ ((dMe.eng 2).meNext = none) ∧ (dMe.meTagOk 2 (parseMe desc) = true) ∧ (∀ a ∈ (parseMe desc).touches, dMe.ringOver 2 (parseMe desc).ctx a = none) ∧ ((parseMe desc).aFmt = some VFmt.bf16) ∧ ((parseMe desc).bFmt = some VFmt.bf16) ∧ (dMe.tiers.erased = []) ∧ ((parseMe desc).op = 4))) = true ∧
    (let desc : List Byte := me 1 0 96 0; let p : SemPair := { active := true, nSlots := 2, empty := 1, filling := 1, ringAddr := 0x1000, slotBytes := 0x800, ctx := (parseMe desc).ctx }; let d : Device := dMe.modStr 2 fun s => { s with sems := [(7, p)] }; decide ((d.meOk 2 (parseMe desc) = true) ∧ ((d.eng 2).ftqHeld = none) ∧ ((d.eng 2).meNext = none) ∧ ((parseMe desc).aFmt = some VFmt.bf16) ∧ ((parseMe desc).bFmt = some VFmt.bf16) ∧ (d.tiers.erased = []) ∧ (d.ringOver 2 (parseMe desc).ctx (parseMe desc).aAddr = some (7, p, 0)) ∧ (p.isOut = false) ∧ (p.holds = false) ∧ (p.nextPlace = 0) ∧ (p.take = none) ∧ ((parseMe desc).op = 1))) = true ∧
    (let m := parseMe (me 2 0 33 0); decide ((m.op = 2) ∧ (({ dMe with ctxs := [{ id := m.ctx, cmd := some 7, burgee := 1, rank := 3, sc := 2 }], cmds := [Tests.sc .search], indexes := [(3, { x3g with metric := .l2sq })] } : Device).ctxIndex m.ctx).any (fun x => x.metric == .l2sq) = true)) = true := by
  refine ⟨?_, ?_, ?_, ?_, ?_, ?_⟩ <;> decide +kernel

/-- The hypotheses of CodeEnginePasses are met, clause by clause. -/
theorem witness_CodeEnginePasses :
    (let desc : List Byte := ceD 1 0x0C 8 0 1; decide ((2 < 64) ∧ ((parseCe desc).ok ((dCe.ctxIndex (parseCe desc).ctx).elim 0 fun x => x.attrWords) = true) ∧ ((dCe.eng 2).ceNext = none) ∧ (dCe.ringOver 2 (parseCe desc).ctx (parseCe desc).code = none) ∧ ((parseCe desc).op = 1) ∧ ((parseCe desc).n = 1) ∧ ((dCe.eng 2).csq.length < 8) ∧ (dCe.ceTagOk 2 (parseCe desc) ((dCe.ctxIndex (parseCe desc).ctx).elim 0 fun x => x.attrWords) 0 = true) ∧ (∃ x, x ∈ (dCe.cePass 2 (parseCe desc) ((dCe.ctxIndex (parseCe desc).ctx).elim 0 fun x => x.attrWords) 0).scores ∧ x.isSome = true))) = true ∧
    (let desc : List Byte := ceD 2 0x0E 0 64 1; decide ((2 < 64) ∧ ((parseCe desc).ok ((dCe.ctxIndex (parseCe desc).ctx).elim 0 fun x => x.attrWords) = true) ∧ ((dCe.eng 2).ceNext = none) ∧ (dCe.ringOver 2 (parseCe desc).ctx (parseCe desc).code = none) ∧ ((parseCe desc).op = 2) ∧ ((parseCe desc).n = 1) ∧ ((dCe.eng 2).csq.length < 8) ∧ (dCe.ceTagOk 2 (parseCe desc) ((dCe.ctxIndex (parseCe desc).ctx).elim 0 fun x => x.attrWords) 0 = true) ∧ (∃ x, x ∈ (dCe.cePass 2 (parseCe desc) ((dCe.ctxIndex (parseCe desc).ctx).elim 0 fun x => x.attrWords) 0).scores ∧ x.isSome = true))) = true ∧
    (let desc : List Byte := ceD 3 0x0C 8 0 3; decide ((2 < 64) ∧ ((parseCe desc).ok ((dCe_2.ctxIndex (parseCe desc).ctx).elim 0 fun x => x.attrWords) = true) ∧ ((dCe_2.eng 2).ceNext = none) ∧ (dCe_2.ringOver 2 (parseCe desc).ctx (parseCe desc).code = none) ∧ ((parseCe desc).op = 3) ∧ (∀ (r : Nat), r < (parseCe desc).n → (dCe_2.ceRequest 2 (parseCe desc) r).isSome = true))) = true ∧
    (let desc : List Byte := ceD 4 0x0E 0 64 0; decide ((2 < 64) ∧ ((parseCe desc).ok ((dCe.ctxIndex (parseCe desc).ctx).elim 0 fun x => x.attrWords) = true) ∧ ((dCe.eng 2).ceNext = none) ∧ (dCe.ringOver 2 (parseCe desc).ctx (parseCe desc).code = none) ∧ ((parseCe desc).op = 4) ∧ (∀ (r : Nat), r < (parseCe desc).n → (dCe.ceRequest 2 (parseCe desc) r).isSome = true))) = true ∧
    (let desc : List Byte := ceD 3 0x0C 8 0 3; let d : Device := dCe_2.modEng 2 fun g => { g with walks := [{ theW 0 with ctx := (parseCe desc).ctx, unit := (parseCe desc).unit }] }; decide ((d.eng 2).walk? (parseCe desc).ctx (parseCe desc).unit).isSome) = true := by
  refine ⟨?_, ?_, ?_, ?_, ?_⟩ <;> decide +kernel

/-- The hypotheses of WalksAndFilters are met, clause by clause. -/
theorem witness_WalksAndFilters :
    (let desc : List Byte := wk 0; decide (((dW.index? (parseWalk desc).index).any fun (x : Index) => decide ((2 < 64) ∧ (walkOk desc (parseWalk desc) = true) ∧ ((dW.eng 2).walkWait = []) ∧ ((dW.eng 2).walks.length < 256) ∧ (lsum (((dW.eng 2).walks.filter fun o => (dW.ctx? o.ctx).elim 0 (fun k => k.burgee) == (dW.ctx? (parseWalk desc).ctx).elim 0 (fun k => k.burgee)).map (fun o => o.bytes)) + (parseWalk desc).bytes ≤ 28 * 0x40000) ∧ (∀ (o : Walk), o ∈ (dW.eng 2).walks → rangesMeet o.pool o.bytes (parseWalk desc).pool (parseWalk desc).bytes = false) ∧ ((parseWalk desc).mode = 0))) = true)) = true ∧
    (let desc : List Byte := wk 1; decide (((dW.index? (parseWalk desc).index).any fun (x : Index) => decide ((2 < 64) ∧ (walkOk desc (parseWalk desc) = true) ∧ ((dW.eng 2).walkWait = []) ∧ ((dW.eng 2).walks.length < 256) ∧ (lsum (((dW.eng 2).walks.filter fun o => (dW.ctx? o.ctx).elim 0 (fun k => k.burgee) == (dW.ctx? (parseWalk desc).ctx).elim 0 (fun k => k.burgee)).map (fun o => o.bytes)) + (parseWalk desc).bytes ≤ 28 * 0x40000) ∧ (∀ (o : Walk), o ∈ (dW.eng 2).walks → rangesMeet o.pool o.bytes (parseWalk desc).pool (parseWalk desc).bytes = false) ∧ ((parseWalk desc).mode = 1))) = true)) = true ∧
    (let desc : List Byte := wk 2; decide (((dW.index? (parseWalk desc).index).any fun (x : Index) => decide ((2 < 64) ∧ (walkOk desc (parseWalk desc) = true) ∧ ((dW.eng 2).walkWait = []) ∧ ((dW.eng 2).walks.length < 256) ∧ (lsum (((dW.eng 2).walks.filter fun o => (dW.ctx? o.ctx).elim 0 (fun k => k.burgee) == (dW.ctx? (parseWalk desc).ctx).elim 0 (fun k => k.burgee)).map (fun o => o.bytes)) + (parseWalk desc).bytes ≤ 28 * 0x40000) ∧ (∀ (o : Walk), o ∈ (dW.eng 2).walks → rangesMeet o.pool o.bytes (parseWalk desc).pool (parseWalk desc).bytes = false) ∧ ((parseWalk desc).mode = 2))) = true)) = true ∧
    (let b : BeamEntry := ((nextOf (theW 0).beam).getD ⟨0,0,0,false⟩); decide (((List.find? (fun w => w.ctx == 99 && w.unit == 1 && !w.ended) (dW2.eng 2).walks).any fun (w : Walk) => decide (((dW2.index? w.index).any fun (x : Index) => decide ((nextOf w.beam = some b) ∧ (w.due = []) ∧ (dW2.expansionMiss x w b.node = none))) = true)) = true)) = true ∧
    (let desc : List Byte := fu 0 70; decide (((dFu.fuIndex 2 (parseFu desc)).any fun (x : Index) => decide ((2 < 64) ∧ (dFu.fuOk 2 (parseFu desc) = true) ∧ (dFu.tiers.erased = []) ∧ (dFu.ringOver 2 (parseFu desc).ctx (parseFu desc).src = none) ∧ ((parseFu desc).source = 0))) = true)) = true ∧
    (let desc : List Byte := fu 1 70; decide (((dFu.fuIndex 2 (parseFu desc)).any fun (x : Index) => decide ((2 < 64) ∧ (dFu.fuOk 2 (parseFu desc) = true) ∧ (dFu.tiers.erased = []) ∧ (dFu.ringOver 2 (parseFu desc).ctx (parseFu desc).src = none) ∧ ((parseFu desc).source = 1))) = true)) = true ∧
    (let desc : List Byte := fu 2 15; decide (((dFu.fuIndex 2 (parseFu desc)).any fun (x : Index) => decide ((2 < 64) ∧ (dFu.fuOk 2 (parseFu desc) = true) ∧ (dFu.tiers.erased = []) ∧ (dFu.ringOver 2 (parseFu desc).ctx (parseFu desc).src = none) ∧ ((parseFu desc).source = 2))) = true)) = true ∧
    (let desc : List Byte := fu 3 5; decide (((dFu.fuIndex 2 (parseFu desc)).any fun (x : Index) => decide ((2 < 64) ∧ (dFu.fuOk 2 (parseFu desc) = true) ∧ (dFu.tiers.erased = []) ∧ (dFu.ringOver 2 (parseFu desc).ctx (parseFu desc).src = none) ∧ ((parseFu desc).source = 3))) = true)) = true ∧
    (let desc : List Byte := wk 0; let d : Device := dW.modEng 2 fun g => { g with walks := [{ theW 0 with pool := 0, bytes := 0x700000 }] }; decide (((d.index? (parseWalk desc).index).any fun (x : Index) => decide ((walkOk desc (parseWalk desc) = true) ∧ ((d.eng 2).walkWait = []) ∧ ((parseWalk desc).mode = 0) ∧ (d.walkFits 2 (parseWalk desc) = false))) = true)) = true := by
  refine ⟨?_, ?_, ?_, ?_, ?_, ?_, ?_, ?_, ?_⟩ <;> decide +kernel

/-- The test of veReady by evaluation: the sources of a micro-op as lists. -/
def readyB (d : Device) (sc op : Nat) (m : Micro) : Bool :=
  let v := (d.eng sc).ve
  let has := fun (s : Nat) => ((({ v with mode := modeOfType m.typ } : Ve).src s).any fun xs => xs.length == lanesN (modeOfType m.typ))
  decide (sc < 64) && microOk (modeOfType m.typ) op m && v.lineOut.isEmpty && (decide (microArity op < 1) || has m.a) &&
    (decide (microArity op < 2) || has m.b) && (decide (microArity op < 3) || has m.c)
theorem veReady_of (d : Device) (sc op : Nat) (m : Micro) (h : readyB d sc op m = true) : d.veReady sc op m := by
  simp only [readyB, Bool.and_eq_true, Bool.or_eq_true, decide_eq_true_eq, List.isEmpty_iff, Option.any_eq_true, beq_iff_eq] at h
  obtain ⟨⟨⟨⟨⟨h1, h2⟩, h3⟩, h4⟩, h5⟩, h6⟩ := h
  exact ⟨h1, h2, h3, fun n => h4.resolve_left (by omega), fun n => h5.resolve_left (by omega), fun n => h6.resolve_left (by omega)⟩
theorem allReady_of (d : Device) (sc : Nat) (m : Micro) (ops : List Nat) (h : (ops.all fun op => readyB d sc op m) = true) :
    ∀ op ∈ ops, d.veReady sc op m := fun op hop => veReady_of d sc op m (List.all_eq_true.mp h op hop)

/-- The hypotheses of VectorArithmetic are met, for each micro-op it names. -/
theorem witness_VectorArithmetic : let m : Micro := ⟨0, 4, 1, 2, 3, 2, 0⟩
    (∀ op ∈ [1, 2, 3, 4, 5, 6, 7, 8, 9, 10, 11, 12, 16, 17, 18, 19, 20, 21, 32, 33, 34, 35], dVe.veReady 2 op m) ∧ (m.dst < 32 ∨ 48 ≤ m.dst ∧ m.dst < 54) :=
  ⟨allReady_of _ _ _ _ (by decide +kernel), by decide⟩

/-- The hypotheses of VectorComparesAndMoves are met, for each micro-op it names. -/
theorem witness_VectorComparesAndMoves :
    (let m : Micro := ⟨0, 3, 1, 2, 3, 2, 0⟩; (∀ op ∈ [48, 49, 50, 51, 52, 98, 64, 97], dVe.veReady 2 op m) ∧ 1 ≤ m.dst ∧ m.dst ≤ 7 ∧ m.c < 8 ∧
      m.imm < lanesN (modeOfType m.typ)) ∧
    (let m : Micro := ⟨0, 4, 1, 3, 3, 0, 8 * 256⟩; dVe_2.veReady 2 65 m ∧ m.dst < 32 ∧ attrfOk m.imm = true) ∧
    (let m : Micro := ⟨0, 4, 1, 3, 3, 2, 2⟩; dVe.veReady 2 96 m ∧ m.dst < 32 ∧ m.imm = 2 ^ 1 ∧ 2 ^ 1 < lanesN (modeOfType m.typ)) ∧
    (let m : Micro := ⟨1, 3, 1, 2, 3, 2, 0⟩; (∀ op ∈ [80, 81, 82, 83, 84], dVe.veReady 2 op m) ∧ m.dst < 32) :=
  ⟨⟨allReady_of _ _ _ _ (by decide +kernel), by decide, by decide, by decide, by decide⟩,
   ⟨veReady_of _ _ _ _ (by decide +kernel), by decide, by decide⟩, ⟨veReady_of _ _ _ _ (by decide +kernel), by decide, by decide, by decide⟩,
   allReady_of _ _ _ _ (by decide +kernel), by decide⟩

/-- The hypotheses of VectorAccumulatorsLinesAndRuns are met, clause by clause. -/
theorem witness_VectorAccumulatorsLinesAndRuns :
    (let m : Micro := ⟨0, 4, 1, 3, 3, 2, 0⟩; (∀ op ∈ [112, 113, 128], dVe.veReady 2 op m) ∧ m.dst < 32 ∧ (dVe.eng 2).tileOk 8 (bits 25 24 m.imm) = true ∧
      (dVe.eng 2).tileHeld (bits 25 24 m.imm) = false ∧ dVe.ringOver 2 8 (microLine m) = none ∧
      ((List.range 128).all fun l => decide ((tget ({} : LaneAcc) l (dVe.eng 2).ve.acc).count + 1 < 2 ^ 24)) = true) ∧
    (let m : Micro := ⟨0, 0, 1, 3, 3, 2, 0⟩; dVe.veReady 2 129 m ∧ m.dst = 0 ∧ (dVe.eng 2).tileOk 8 (bits 25 24 m.imm) = true ∧
      (dVe.eng 2).tileHeld (bits 25 24 m.imm) = false ∧ dVe.ringOver 2 8 (microLine m) = none) ∧
    (let p : VeProg := ⟨[], [vw], [], [], [], [1]⟩; let q := parseVe vdesc
      q.op = 1 ∧ q.ok = true ∧ q.progOk p = true ∧ q.n0 = 1 ∧ q.n1 = 1 ∧ q.n2 = 1 ∧ q.extent ≤ lanesN q.mode ∧ 2 < 64 ∧ p = { init := [], body := [vw], end0 := [], end1 := [], end2 := [], consts := p.consts } ∧
      portsRead [vw] = [] ∧ usesTile (microOf vw).1 = false ∧ (microOf vw).1 ≠ 0x41 ∧ (∀ r ∈ q.ports, r.kind ≠ 1) ∧ dVe.ctxCmd q.ctx = none ∧ (dVe.eng 2).veNext = none ∧ dVe.enginesFree 2 ∧
      (v1'.any fun v1 => decide (v1.outs = []) && decide (v1.lineOut = [])) = true) :=
  ⟨⟨allReady_of _ _ _ _ (by decide +kernel), by decide +kernel⟩, ⟨veReady_of _ _ _ _ (by decide +kernel), by decide +kernel⟩, by decide +kernel⟩

/-- The hypotheses of PlacementMovesCopies are met, clause by clause. -/
theorem witness_PlacementMovesCopies :
    (decide ((dP.ready = true) ∧ ((dP.burgee 1).enabled = true) ∧ (dP.mgmt.shed.steps < 2) ∧ (dP.quiesced = false) ∧ (dP.frozen = false))) = true ∧
    (let d : Device := { dP with quiesced := true }; decide ((d.ready = true) ∧ ((d.burgee 1).enabled = true) ∧ (2 ≤ d.mgmt.shed.steps ∨ d.quiesced = true ∨ d.frozen = true))) = true ∧
    (decide (((dP.index? 3).any fun (x : Index) => decide ((dP.placed? x 1 = some P2) ∧ (P2.valid = false) ∧ (dP.ready = true) ∧ (dP.mgmt.shed.steps < 2) ∧ (dP.quiesced = false) ∧ (dP.frozen = false))) = true ∧
      ((List.find? (fun x => x.fAddr == 262144) (dP.burgee 1).left).any fun (l : LeftSpace) => decide ((dP.released l.index l.view = true ∨ tfind l.index dP.indexes = none))) = true)) = true ∧
    (let d : Device := dP.memWrite ((x3g.fixedEntry 1 0).1 + 12) [3]; decide (((d.index? 3).any fun (x : Index) => decide ((1 ≤ 2) ∧ (d.placed? x (x.units + 1) = none) ∧ (d.fixedState x 1 = 3) ∧ (d.ready = true) ∧ (d.mgmt.shed.steps < 2) ∧ (d.quiesced = false) ∧ (d.frozen = false))) = true)) = true := by
  refine ⟨?_, ?_, ?_, ?_⟩ <;> decide +kernel

/-- The hypotheses of MergePassPlacesEntries are met, clause by clause. -/
theorem witness_MergePassPlacesEntries :
    (let b : Nat := (idHash 4 9).2; decide (((dM.index? 3).any fun (x : Index) => decide ((dM.ready = true) ∧ (dM.quiesced = false) ∧ (dM.shoalIndex? 3 = none) ∧ (tfind 4 x.delta = some V) ∧ (x.liveEntries = [(4, V)]) ∧ (x.away = []) ∧ (x.kind ≠ IndexKind.graph) ∧ (dM.mayAdvance 3 = true) ∧ (x.targetCell (formF32 V.vec) = some ((x.targetCell (formF32 V.vec)).getD 0)) ∧ ((x.cell ((x.targetCell (formF32 V.vec)).getD 0)).state ≠ 2) ∧ ((x.cell ((x.targetCell (formF32 V.vec)).getD 0)).nextSlot < 64 * (x.cell ((x.targetCell (formF32 V.vec)).getD 0)).cur.capBlocks) ∧ (dM.released 3 (tget { } ((x.cell ((x.targetCell (formF32 V.vec)).getD 0)).nextSlot / 64) (x.cell ((x.targetCell (formF32 V.vec)).getD 0)).cur.blocks).freshView = true) ∧ (x.lookup V.id = some (b, 1, Loc.delta 4)) ∧ ((x.targetCell (formF32 V.vec)).getD 0 < 2 ^ 26) ∧ ((x.cell ((x.targetCell (formF32 V.vec)).getD 0)).nextSlot < 2 ^ 20))) = true ∧
      ((dM.index? 3).any fun (x : Index) => decide ((dM.ready = true) ∧ (dM.quiesced = false) ∧ (dM.shoalIndex? 3 = none) ∧ (tfind 4 x.delta = some V) ∧ (x.liveEntries = [(4, V)]) ∧ (x.away = []) ∧ (V.state = 1) ∧ (x.lookup V.id = some (b, 1, Loc.delta 4)) ∧ (x.delta = [(4, V)]))) = true)) = true ∧
    ((dg.index? 3).any fun (x : Index) => decide ((dg.ready = true) ∧ (dg.quiesced = false) ∧ (dg.shoalIndex? 3 = none) ∧ (tfind 4 x.delta = some V) ∧ (x.liveEntries = [(4, V)]) ∧ (x.away = []) ∧ (x.kind = IndexKind.graph) ∧ (dg.mayAdvance 3 = true) ∧ ((tfind (x.graph.nNodes / 64) x.graph.groups).all (fun g => decide (g.state ≠ 2)) = true) ∧ (x.view = 5))) = true ∧
    (∃ d', dg.placeNode 3 (nextView 5) V = some (3, d')) ∧
    (let d : Device := { dM with indexes := [(3, xFail)] }; decide (((d.index? 3).any fun (x : Index) => decide ((d.ready = true) ∧ (d.quiesced = false) ∧ (d.shoalIndex? 3 = none) ∧ (tfind 4 x.delta = some V) ∧ (x.liveEntries = [(4, V)]) ∧ (x.away = []) ∧ (x.kind ≠ IndexKind.graph) ∧ (x.targetCell (formF32 V.vec) = none))) = true)) = true ∧
    (let d : Device := { dM with indexes := [(3, { x3g with cells := [(0, { cur := { capBlocks := 1 }, nSlots := 64 }), (1, { cur := { capBlocks := 1 }, nSlots := 64 })] })] }; decide (((d.index? 3).any fun (x : Index) => decide ((d.ready = true) ∧ (d.quiesced = false) ∧ (d.shoalIndex? 3 = none) ∧ (tfind 4 x.delta = some V) ∧ (x.liveEntries = [(4, V)]) ∧ (x.away = []) ∧ (x.kind ≠ IndexKind.graph) ∧ (x.targetCell (formF32 V.vec) = some ((x.targetCell (formF32 V.vec)).getD 0)) ∧ ((x.cell ((x.targetCell (formF32 V.vec)).getD 0)).state = 1) ∧ (64 * (x.cell ((x.targetCell (formF32 V.vec)).getD 0)).cur.capBlocks ≤ (x.cell ((x.targetCell (formF32 V.vec)).getD 0)).nextSlot) ∧ (x.extentBytes (grownCap (x.cell ((x.targetCell (formF32 V.vec)).getD 0)).cur.capBlocks) ≤ d.lFree) ∧ ((d.takeL (some x.burgee) (x.extentBytes (grownCap (x.cell ((x.targetCell (formF32 V.vec)).getD 0)).cur.capBlocks))).isSome = true))) = true)) = true := by
  refine ⟨?_, ?_, ?_, ?_, ?_⟩
  · decide +kernel
  · decide +kernel
  · have h : (dg.placeNode 3 (nextView 5) V).map (·.1) = some 3 := by decide +kernel
    obtain ⟨p, hp, h3⟩ := Option.map_eq_some_iff.mp h
    exact ⟨p.2, by rw [hp, ← h3]⟩
  · decide +kernel
  · decide +kernel

/-- The hypotheses of RewritesCutOver are met, clause by clause. -/
theorem witness_RewritesCutOver :
    (let d : Device := (wx C0); decide (((d.index? 3).any fun (x : Index) => decide ((d.ready = true) ∧ (d.quiesced = false) ∧ (x.kind ≠ IndexKind.graph) ∧ (0 < x.nCells) ∧ ((x.cell 0).cur.capBlocks ≤ 4) ∧ (4 ≤ 16384) ∧ ((x.cell 0).state = 1) ∧ (x.extentBytes 4 ≤ d.lFree) ∧ ((d.takeL (some x.burgee) (x.extentBytes 4)).isSome = true))) = true)) = true ∧
    (let d : Device := (wx C0 fun x => { x with targetGen := 2 }); decide (((d.index? 3).any fun (x : Index) => decide ((d.ready = true) ∧ (d.quiesced = false) ∧ (x.kind ≠ IndexKind.graph) ∧ (d.mgmt.shed.steps < 2) ∧ (x.targetGen ≠ x.liveGen) ∧ ((x.cell 0).state = 1) ∧ (x.nextReencode = some 0) ∧ (x.windowUsed + x.unitExtent 0 ≤ x.rewriteWindow) ∧ ((d.takeL (some x.burgee) (x.unitExtent 0)).isSome = true))) = true)) = true ∧
    (decide (((de.index? 3).any fun (x : Index) => decide ((de.ready = true) ∧ (de.quiesced = false) ∧ ((tfind 0 x.graph.groups).any fun (g : Group) => decide ((x.kind = IndexKind.graph) ∧ (de.mgmt.shed.steps < 2) ∧ (x.targetGen ≠ x.liveGen) ∧ (g.state = 1) ∧ (x.nextReencode = some 0) ∧ (x.windowUsed + x.unitExtent 0 ≤ x.rewriteWindow) ∧ ((de.takeL (some x.burgee) (x.unitExtent 0)).isSome = true))) = true)) = true ∧
      ((de.index? 3).any fun (x : Index) => decide ((de.ready = true) ∧ (de.quiesced = false) ∧ ((tfind 0 x.graph.groups).any fun (g : Group) => decide ((x.kind = IndexKind.graph) ∧ (g.retryAt = some 2000000) ∧ (g.failed = false) ∧ (x.targetGen ≠ x.liveGen) ∧ (g.state = 1) ∧ (x.nextReencode = some 0) ∧ (x.windowUsed + x.unitExtent 0 ≤ x.rewriteWindow) ∧ ((de.takeL (some x.burgee) (x.unitExtent 0)).isSome = true))) = true)) = true)) = true ∧
    (let d : Device := (wx (Cr false)); decide (((d.index? 3).any fun (x : Index) => decide ((d.ready = true) ∧ (d.quiesced = false) ∧ (((x.cell 0).rewrite).any fun (r : Rewrite) => decide ((x.kind ≠ IndexKind.graph) ∧ (d.mayAdvance 3 = true) ∧ ((x.cell 0).prev = none))) = true)) = true)) = true ∧
    (decide (((dd.index? 3).any fun (x : Index) => decide ((dd.ready = true) ∧ (dd.quiesced = false) ∧ ((tfind 0 x.graph.groups).any fun (g : Group) => decide (((g.rewrite).any fun (r : Rewrite) => decide ((x.kind = IndexKind.graph) ∧ (dd.mayAdvance 3 = true) ∧ (g.prev = none))) = true)) = true)) = true)) = true ∧
    (let d : Device := (wx { C0 with prev := some { slotBase := lBase + 0x9000, capBlocks := 2 }, prevBytes := 100, prevWindow := true, cutView := 0 }); decide (((d.index? 3).any fun (x : Index) => decide ((d.ready = true) ∧ (d.quiesced = false) ∧ (((x.cell 0).prev).any fun (p : CellSet) => decide ((x.kind ≠ IndexKind.graph) ∧ (d.released 3 (x.cell 0).cutView = true) ∧ (0 < p.capBlocks * x.blockLen))) = true)) = true)) = true ∧
    (let d : Device := (wg { G0 with prev := some [], prevBytes := 100, cutView := 0, prevWindow := true }); decide (((d.index? 3).any fun (x : Index) => decide ((d.ready = true) ∧ (d.quiesced = false) ∧ ((tfind 0 x.graph.groups).any fun (g : Group) => decide ((x.kind = IndexKind.graph) ∧ (g.prev.isSome = true) ∧ (d.released 3 g.cutView = true))) = true)) = true)) = true ∧
    (let d : Device := (wx { C0 with retryAt := some 2000000 }); decide (((d.index? 3).any fun (x : Index) => decide ((d.ready = true) ∧ (d.quiesced = false) ∧ (((x.cell 0).retryAt).any fun (t : Nat) => decide ((x.kind ≠ IndexKind.graph) ∧ ((x.cell 0).failed = false) ∧ (x.targetGen = x.liveGen) ∧ ((x.cell 0).state = 1) ∧ (x.extentBytes (grownCap (x.cell 0).cur.capBlocks) ≤ d.lFree) ∧ ((d.takeL (some x.burgee) (x.extentBytes (grownCap (x.cell 0).cur.capBlocks))).isSome = true))) = true)) = true)) = true ∧
    (let d : Device := (wx { C0 with retryAt := some 2000000 } fun x => { x with targetGen := 2 }); decide (((d.index? 3).any fun (x : Index) => decide ((d.ready = true) ∧ (d.quiesced = false) ∧ (((x.cell 0).retryAt).any fun (t : Nat) => decide ((x.kind ≠ IndexKind.graph) ∧ ((x.cell 0).failed = false) ∧ (x.targetGen ≠ x.liveGen) ∧ ((x.cell 0).state = 1) ∧ (x.nextReencode = some 0) ∧ ((d.takeL (some x.burgee) (x.unitExtent 0)).isSome = true) ∧ (x.windowUsed + x.unitExtent 0 ≤ x.rewriteWindow))) = true)) = true)) = true ∧
    (decide ((x3g.nextReencode ≠ some 0) ∧ ((dM.index? 3).any fun x => decide ((dM.ready = true) ∧ (dM.quiesced = false) ∧ (x.nextReencode ≠ some 0))) = true)) = true := by
  refine ⟨?_, ?_, ?_, ?_, ?_, ?_, ?_, ?_, ?_, ?_⟩ <;> decide +kernel

/-- The hypotheses of MaintenanceReleases are met, clause by clause. -/
theorem witness_MaintenanceReleases :
    (let d : Device := (wx { C0 with cur := { C0.cur with tombs := [0, 1] } }); decide (((d.index? 3).any fun (x : Index) => decide ((x.kind ≠ IndexKind.graph) ∧ (0 < x.nCells) ∧ (d.ready = true) ∧ (d.quiesced = false) ∧ (∃ t, t ∈ (x.cell 0).cur.tombs ∧ ¬t ∈ (x.cell 0).free ∧ ∀ (p : Nat × List Nat), p ∈ (x.cell 0).compact → ¬t ∈ p.snd))) = true ∧
      ((d.index? 3).any fun (x : Index) => decide ((d.ready = true) ∧ (d.quiesced = false))) = true)) = true ∧
    (let d : Device := (wx { C0 with compact := [(2, [4]), (5, [6])], free := [9] }); decide (((d.index? 3).any fun (x : Index) => decide (((x.cell 0).compact ≠ []))) = true)) = true ∧
    (let d : Device := (wx C0 fun x => { x with oldBook := some (1, 2), codebooks := [(1, []), (2, [])], liveGen := 2, targetGen := 2, pendingGen := 3 }); decide (((d.index? 3).any fun (x : Index) => decide ((x.oldBook = some (1, 2)) ∧ (d.released 3 2 = true))) = true)) = true ∧
    (let d : Device := (wx C0 fun x => { x with idMap := tset 0 [(3, 1), (5, idWord 9 (.delta 4))] x.idMap }); decide (((d.index? 3).any fun (x : Index) => decide ((0 < x.idMapBuckets) ∧ (d.ready = true) ∧ (d.quiesced = false) ∧ ((x.runFrom x.idMapBuckets (x.runStart x.idMapBuckets 0)).any fun k => (List.range 32).any fun p => decide (idLoc (x.idEntry k p) = none) && decide (idEmpty (x.idEntry k p) = false)) = true)) = true)) = true ∧
    (let d : Device := (wx C0 fun x => { x with delta := [(4, { (x.delta.headD (0, ⟨9, 0, 1, false, false, 0xFFFFFFFF, 0xFFFFFFFF, 8, [0x66], .plain .sign1 [], 0, 0, 77, 2, false⟩)).2 with state := 4, endView := 0 })] }); decide (((d.index? 3).any fun (x : Index) => decide (((tfind x.deltaTail x.delta).any fun (v : DeltaEntry) => decide ((x.deltaTail ≠ x.deltaHead) ∧ (v.state ≠ 1) ∧ (d.endReleased 3 v = true) ∧ (x.deltaTail < x.deltaEntries) ∧ (1 < x.deltaEntries) ∧ ((x.deltaTail + 1) % x.deltaEntries = x.deltaHead ∨ ∃ w, tfind ((x.deltaTail + 1) % x.deltaEntries) x.delta = some w ∧ w.state = 1))) = true)) = true)) = true := by
  refine ⟨?_, ?_, ?_, ?_, ?_⟩ <;> decide +kernel

/-- A small index with one record of samples, so that its losses are evaluated by hand. -/
def xq : Index := { xj with dim := 2, subspaces := 1, centroids := [.plain .bf16 [0x3F80, 0x3F80]], codebooks := [(1, [[[0x3F00, 0x3F10], [0x4000, 0xBF80]]])], nCells := 1, delta := [] }
/-- A job that evaluates, and one that runs. -/
def jq : Job := { id := 5, fn := 0, burgee := 1, desc := { jd .codebookFit with srcCount := 1, evalPct := 99 }, state := .evaluate, tensors := startTensors xq (jd .codebookFit) [] }
def jr : Job := { jq with state := .running, desc := { jq.desc with evalPct := 0 } }
def dLq (j : Job) : Device := { dM with indexes := [(3, xq)], jobs := [j], mem := (dM.write 0x80000 (leBytes 4 0x3F800000 ++ leBytes 4 0x40000000)).mem }
/-- The job with the losses its evaluation finds. -/
def lq (j : Job) : Job := let l := (dLq j).evalLosses xq j; { j with lossOld := l.1, lossNew := l.2 }

/-- No placed copy of the job's index lies in the L-tier's data space. -/
theorem dLq_noCopy (j : Job) (a n : Nat) (h : lBase ≤ a) : (dLq j).noCopyIn a n := by
  intro p hp
  obtain rfl : p = (3, xq) := by simpa [dLq] using hp
  refine ⟨fun u hu => ?_, fun b k t ht => ?_⟩
  · have e : ((dLq j).burgee xq.burgee).placed = [] := rfl
    simp [e] at hu
  · have c0 : (if (xq.kind == .graph) = true then xq.graph.nUppers else xq.cgraph.nUppers - xq.nCells) = 0 := rfl
    simp only [Index.fixedParts, c0, Nat.not_lt_zero, decide_false, Bool.false_and, Bool.false_eq_true, if_false, List.mem_append] at ht
    rcases ht with ht | ht
    · simp at ht
    · have k0 : xq.bookK = 16 := rfl
      have l0 : xq.codebookLiveBase = 0 ∧ xq.codebookTargetBase = 0 ∧ xq.bookLen ≤ 4096 := by decide +kernel
      simp only [k0, l0.1, l0.2.1] at ht
      have hb : 4096 ≤ lBase := by decide
      simp only [OfNat.ofNat_ne_zero, if_false, List.mem_cons, List.not_mem_nil, or_false] at ht
      rcases ht with rfl | rfl <;> exact .inl (by simp only; omega)

/-- The hypotheses of TrainingJobsRun are met, clause by clause. The losses of an evaluation exist for every job. -/
theorem witness_TrainingJobsRun :
    (let j : Job := jr; let d : Device := dLq j; decide ((d.job? 5 = some j) ∧ (d.index? j.desc.indexNo = some xq) ∧ (d.ready = true) ∧ (d.quiesced = false) ∧ (j.state = JobState.running) ∧ (j.ckptDue = false) ∧ (j.begun = true ∨ d.mgmt.shed.steps < 2) ∧ (d.rowsOfStep xq j.desc j.step ≠ []) ∧ (j.badRun < 7) ∧ ((j.step + 1) % j.desc.watchWindow ≠ 0) ∧ (j.stopReq = []) ∧ (j.step + 1 < j.desc.steps))) = true ∧
    (let j : Job := { jr with step := 5 }; let d : Device := dLq j; decide ((d.job? 5 = some j) ∧ (d.index? j.desc.indexNo = some xq) ∧ (d.ready = true) ∧ (d.quiesced = false) ∧ (j.state = JobState.running) ∧ (j.ckptDue = false) ∧ (j.begun = true ∨ d.mgmt.shed.steps < 2) ∧ (d.rowsOfStep xq j.desc j.step ≠ []) ∧ (j.badRun < 7) ∧ ((j.step + 1) % j.desc.watchWindow ≠ 0) ∧ (j.stopReq = []) ∧ (j.desc.steps ≤ j.step + 1))) = true ∧
    (let j : Job := { jr with step := 5, stopReq := [(0, 2)], begun := true }; let d : Device := onMb (dLq j) 0 (areq 0x41 0 5 0 0 0 0); decide ((d.job? 5 = some j) ∧ (d.index? j.desc.indexNo = some xq) ∧ (d.ready = true) ∧ (d.quiesced = false) ∧ (j.state = JobState.running) ∧ (j.ckptDue = false) ∧ (j.begun = true ∨ d.mgmt.shed.steps < 2) ∧ (d.rowsOfStep xq j.desc j.step ≠ []) ∧ (j.badRun < 7) ∧ ((j.step + 1) % j.desc.watchWindow ≠ 0) ∧ (j.stopReq ≠ []))) = true ∧
    (let j : Job := { jr with desc := { jr.desc with srcCount := 0 } }; let d : Device := dLq j; decide ((d.job? 5 = some j) ∧ (d.index? j.desc.indexNo = some xq) ∧ (d.ready = true) ∧ (d.quiesced = false) ∧ (j.state = JobState.running) ∧ (j.ckptDue = false) ∧ (j.begun = true ∨ d.mgmt.shed.steps < 2) ∧ (d.rowsOfStep xq j.desc j.step = []))) = true ∧
    (let j : Job := { jr with ckptDue := true, ckpts := [jr.checkpoint (lBase + 0x100000000), jr.checkpoint (lBase + 0x100400000)] }; let d : Device := dLq j; decide ((d.job? 5 = some j) ∧ (d.index? j.desc.indexNo = some xq) ∧ (d.ready = true) ∧ (d.quiesced = false) ∧ (j.ckptDue = true) ∧ (j.state = JobState.running ∨ j.state = JobState.evaluate) ∧ ((d.ckptSlot j).isSome = true) ∧ ((j.checkpoint (lBase + 0x100400000)).body.length + 64 ≤ j.ckptLen))) = true ∧
    (let j : Job := { jq with desc := { jq.desc with noPublish := true } }; let d : Device := dLq j; decide ((d.job? 5 = some j) ∧ (d.index? j.desc.indexNo = some xq) ∧ (d.ready = true) ∧ (d.quiesced = false) ∧ (j.state = JobState.evaluate) ∧ (j.ckptDue = false) ∧ (d.mgmt.shed.steps < 2) ∧ (j.desc.noPublish = true))) = true ∧
    (let j : Job := { jq with desc := { jd .rerankTune with noPublish := false } }; let d : Device := dLq j; decide ((d.job? 5 = some j) ∧ (d.index? j.desc.indexNo = some xq) ∧ (d.ready = true) ∧ (d.quiesced = false) ∧ (j.state = JobState.evaluate) ∧ (j.ckptDue = false) ∧ (d.mgmt.shed.steps < 2) ∧ (j.desc.noPublish = false) ∧ (j.desc.type = JobType.rerankTune) ∧ (j.model.map (·.1) ≠ some d.model))) = true ∧
    (let j : Job := { jq with desc := { jq.desc with minGain := 0x3F000000 } }; let d : Device := dLq j; decide ((d.job? 5 = some j) ∧ (d.index? j.desc.indexNo = some xq) ∧ (d.ready = true) ∧ (d.quiesced = false) ∧ (j.state = JobState.evaluate) ∧ (j.ckptDue = false) ∧ (d.mgmt.shed.steps < 2) ∧ (j.desc.noPublish = false) ∧ (j.desc.type ≠ JobType.rerankTune) ∧ ((lq j).gains = false))) = true ∧
    (let j : Job := { jq with desc := jd .adapterTrain }; let d : Device := dLq j; decide ((d.job? 5 = some j) ∧ (d.index? j.desc.indexNo = some xq) ∧ (d.ready = true) ∧ (d.quiesced = false) ∧ (j.state = JobState.evaluate) ∧ (j.ckptDue = false) ∧ (d.mgmt.shed.steps < 2) ∧ (j.desc.noPublish = false) ∧ (j.desc.type = JobType.adapterTrain))) = true ∧
    (let j : Job := jq; let x : Index := { xq with targetGen := 2 }; let d : Device := { dLq j with indexes := [(3, x)] }; let l := d.evalLosses x j; decide ((d.job? 5 = some j) ∧ (d.index? j.desc.indexNo = some x) ∧ (d.ready = true) ∧ (d.quiesced = false) ∧ (j.state = JobState.evaluate) ∧ (j.ckptDue = false) ∧ (d.mgmt.shed.steps < 2) ∧ (j.desc.noPublish = false) ∧ (j.desc.type = JobType.codebookFit) ∧ (({ j with lossOld := l.1, lossNew := l.2 } : Job).gains = true) ∧ (x.targetGen ≠ x.liveGen))) = true ∧
    (let j : Job := jq; let d : Device := dLq j; decide ((d.job? 5 = some j) ∧ (d.index? j.desc.indexNo = some xq) ∧ (d.ready = true) ∧ (d.quiesced = false) ∧ (j.state = JobState.evaluate) ∧ (j.ckptDue = false) ∧ (d.mgmt.shed.steps < 2) ∧ (j.desc.noPublish = false) ∧ (j.desc.type = JobType.codebookFit) ∧ ((lq j).gains = true) ∧ (xq.targetGen = xq.liveGen) ∧ (xq.oldBook = none) ∧ (xq.kind ≠ IndexKind.graph))) = true ∧
    (let j : Job := { jq with desc := jd .rerankTune, model := some (0, []) }; let d : Device := dLq j; decide ((d.job? 5 = some j) ∧ (d.index? j.desc.indexNo = some xq) ∧ (d.ready = true) ∧ (d.quiesced = false) ∧ (j.state = JobState.evaluate) ∧ (j.ckptDue = false) ∧ (d.mgmt.shed.steps < 2) ∧ (j.desc.noPublish = false) ∧ (j.desc.type = JobType.rerankTune) ∧ (j.model.map (·.1) = some d.model))) = true ∧
    (let j : Job := { jr with ckptDue := true }; let d : Device := dLq j; decide ((d.ckptSlot j).isSome)) = true ∧
    (decide ((dLq jr).area jr.area ≠ .lTier)) = true := by
  refine ⟨?_, ?_, ?_, ?_, ?_, ?_, ?_, ?_, ?_, ?_, ?_, ?_, ?_, ?_⟩ <;> decide +kernel

/-- The hypotheses of JobCommandsAnswer are met, clause by clause. -/
theorem witness_JobCommandsAnswer :
    (let io : AdminIo := ioD (enc cf.desc); let bs : List Byte := enc cf.desc; let j : JobDesc := rd (enc cf.desc); decide (((dS.index? (dS.adminAt 0 2).target).any fun (x : Index) => decide ((dS.servesNow 64 0 2 io) ∧ (0 = 256 ∨ (dS.fn 0).burgee = x.burgee) ∧ (dS.adminIn (dS.adminAt 0 2) 0 2 (some x.burgee) io = Except.ok bs) ∧ (bs.length = 256) ∧ (readJob bs = some j) ∧ (fieldAt bs 1 1 < 4) ∧ (j.indexNo = x.indexNo) ∧ (jobReservedOk bs = true) ∧ (j.rangesOk = true) ∧ (j.suits x = true) ∧ (j.src = 0 → dS.area j.srcAddr = Area.fTier ∧ dS.mayTouchAll false x.burgee j.srcAddr (j.srcCount * j.recordLen x) = true) ∧ (j.type = JobType.rerankTune → dS.modelFits x = true) ∧ (dS.jobLimit j.type x.indexNo = false) ∧ (j.required x (startTensors x j (tget [] dS.model dS.models)) (tget [] dS.model dS.models) ≤ j.stateBytes) ∧ ((dS.takeF (some x.burgee) j.stateBytes).isSome = true))) = true)) = true ∧
    (let d : Device := (sub (base_2 []) 0 []); let io : AdminIo := ioD bad; let j : JobDesc := rd bad; decide (((d.index? (d.adminAt 0 2).target).any fun (x : Index) => decide ((d.servesNow 64 0 2 io) ∧ (0 = 256 ∨ (d.fn 0).burgee = x.burgee) ∧ (d.adminIn (d.adminAt 0 2) 0 2 (some x.burgee) io = Except.ok bad) ∧ (bad.length = 256) ∧ (readJob bad = some j) ∧ (fieldAt bad 1 1 < 4) ∧ (j.indexNo = x.indexNo) ∧ (jobReservedOk bad = false ∨ j.rangesOk = false ∨ j.suits x = false))) = true)) = true ∧
    (let d : Device := (sub (base_2 [cf]) 0 []); let io : AdminIo := ioD lim; let j : JobDesc := rd lim; decide (((d.index? (d.adminAt 0 2).target).any fun (x : Index) => decide ((d.servesNow 64 0 2 io) ∧ (0 = 256 ∨ (d.fn 0).burgee = x.burgee) ∧ (d.adminIn (d.adminAt 0 2) 0 2 (some x.burgee) io = Except.ok lim) ∧ (lim.length = 256) ∧ (readJob lim = some j) ∧ (fieldAt lim 1 1 < 4) ∧ (j.indexNo = x.indexNo) ∧ (jobReservedOk lim = true) ∧ (j.rangesOk = true) ∧ (j.suits x = true) ∧ (j.src ≠ 0) ∧ (j.type = JobType.rerankTune → d.modelFits x = true) ∧ (d.jobLimit j.type x.indexNo = true))) = true)) = true ∧
    (let d : Device := (jc 0x41 { cf with begun := true }); decide (((d.job? (d.adminAt 0 2).target).any fun (j : Job) => decide ((d.brgAdmin 0 j.burgee = true) ∧ (d.servesNow 65 0 2 noIo) ∧ (j.state = JobState.running) ∧ (j.begun = true) ∧ (j.ckptDue = false))) = true)) = true ∧
    (let d : Device := (jc 0x41 { cf with begun := false }); decide (((d.job? (d.adminAt 0 2).target).any fun (j : Job) => decide ((d.brgAdmin 0 j.burgee = true) ∧ (d.servesNow 65 0 2 noIo) ∧ (j.state = JobState.evaluate ∨ j.state = JobState.running ∧ (j.begun = false ∨ j.ckptDue = true)))) = true)) = true ∧
    (let d : Device := (jc 0x42 je); decide (((d.job? (d.adminAt 0 2).target).any fun (j : Job) => decide ((d.brgAdmin 0 j.burgee = true) ∧ ((j.ckpts.head?).any fun (c : Checkpoint) => decide ((d.servesNow 66 0 2 noIo) ∧ (j.live = false) ∧ (j.state ≠ JobState.held) ∧ (d.ckptOk j c = true) ∧ ((d.index? j.desc.indexNo).isSome = true) ∧ (d.jobLimit j.desc.type j.desc.indexNo = false) ∧ ((d.takeF (some j.burgee) j.desc.stateBytes).isSome = true))) = true)) = true)) = true ∧
    (let d : Device := (jc 0x42 cf); decide (((d.job? (d.adminAt 0 2).target).any fun (j : Job) => decide ((d.brgAdmin 0 j.burgee = true) ∧ (d.servesNow 66 0 2 noIo) ∧ (j.live = true ∨ j.state = JobState.held ∨ j.ckpts = []))) = true)) = true ∧
    (let d : Device := (jc 0x43 { cf with state := .held }); decide (((d.job? (d.adminAt 0 2).target).any fun (j : Job) => decide ((d.brgAdmin 0 j.burgee = true) ∧ ((d.index? j.desc.indexNo).any fun (x : Index) => decide ((d.servesNow 67 0 2 noIo) ∧ (j.state = JobState.held) ∧ (d.mgmt.shed.steps < 2) ∧ (j.desc.type ≠ JobType.rerankTune))) = true)) = true)) = true ∧
    (let d : Device := (jc 0x43 { cf with state := .evaluate, lossNew := 0x3F800000 }); decide (((d.job? (d.adminAt 0 2).target).any fun (j : Job) => decide ((d.brgAdmin 0 j.burgee = true) ∧ (d.servesNow 67 0 2 noIo) ∧ (j.state ≠ JobState.held))) = true)) = true ∧
    (let d : Device := (jc 0x44 je); decide (((d.job? (d.adminAt 0 2).target).any fun (j : Job) => decide ((d.brgAdmin 0 j.burgee = true) ∧ (d.servesNow 68 0 2 noIo) ∧ (j.live = false))) = true)) = true ∧
    (jobReservedOk (enc cf.desc) = true ∧ jobReservedOk (lmod 127 (fun _ => (1 : Byte)) (enc cf.desc)) = false) := by
  refine ⟨?_, ?_, ?_, ?_, ?_, ?_, ?_, ?_, ?_, ?_, ?_⟩ <;> decide +kernel

/-- The hypotheses of MailboxesTakeRequests are met, clause by clause. -/
theorem witness_MailboxesTakeRequests :
    (let d : Device := (dm mb0); let bs : List (BitVec 8) := leBytes 4 0x1234567; decide ((d.barUp 0 = true) ∧ (((d.fn 0).mb.tail + 65536 - (d.fn 0).mb.head) % 65536 + (4 % 65536 + 65536 - (d.fn 0).mb.tail) % 65536 ≤ 32) ∧
      (d.barUp 0 = true) ∧ (∃ i, i < (4 % 65536 + 65536 - (d.fn 0).mb.head) % 65536 ∧ i < 33 ∧ tget SlotState.idle (((d.fn 0).mb.head + i) % 32) (d.fn 0).mb.slots ≠ SlotState.done) ∧
      (d.barUp 0 = true) ∧ (bs.length = 4 ∨ bs.length = 8) ∧ (68 % bs.length = 0) ∧ (68 < 2048) ∧ ((d.fn 0).mb.outstanding (68 / 64) = false) ∧
      (((List.find? (fun k => decide (d.mgmt.nextMb ≤ k)) d.waitingMbs).or d.waitingMbs.head?).any fun (m : Nat) => decide (((List.find? (fun k => tget SlotState.idle k (d.mbox m).slots == SlotState.waiting) (Mailbox.order m (d.mbox m))).any fun (slot : Nat) => decide ((d.ready = true) ∧ (d.seated = true) ∧ (m ≤ 256) ∧ (slot < 32) ∧ ((d.adminAt m slot).scope = none))) = true)) = true ∧
      (d.ready = true) ∧ (0 < 7000))) = true ∧
    (let d : Device := (dm mb0); decide ((d.barUp 0 = true) ∧ (32 < ((d.fn 0).mb.tail + 65536 - (d.fn 0).mb.head) % 65536 + (40 % 65536 + 65536 - (d.fn 0).mb.tail) % 65536))) = true ∧
    (let d : Device := (dsb 32); decide ((d.barUp 9 = true) ∧ ((0 % 65536 + 65536 - (d.fn 9).mb.head) % 65536 ≤ 32) ∧ ((0 % 65536 + 65536 - (d.fn 9).mb.head) % 65536 ≤ ((d.fn 9).mb.tail + 65536 - (d.fn 9).mb.head) % 65536) ∧ (∀ (i : Nat), i < (0 % 65536 + 65536 - (d.fn 9).mb.head) % 65536 → tget SlotState.idle (((d.fn 9).mb.head + i) % 32) (d.fn 9).mb.slots = SlotState.done))) = true ∧
    (let d : Device := (dm mb0); let bs : List (BitVec 8) := leBytes 8 0x1234567; decide ((d.barUp 0 = true) ∧ (bs.length = 4 ∨ bs.length = 8) ∧ (1928 % bs.length = 0) ∧ (1928 < 2048) ∧ ((d.fn 0).mb.outstanding (1928 / 64) = true))) = true ∧
    (let d : Device := (dsb 3); decide ((d.sideband = true) ∧ (d.ready = true) ∧ (rqd.length = 64) ∧ (d.mgmt.feat.sbSecure = false ∨ (adminReq rqd).deviceCmd = false ∨ false = true ∧ d.mgmt.sec.session = true) ∧ (d.sideMb.outstanding (d.sideMb.tail % 32) = false))) = true ∧
    (let d : Device := (dsb 32); decide ((d.sideband = true) ∧ (d.ready = true) ∧ (rqd.length = 64) ∧ (d.mgmt.feat.sbSecure = false ∨ (adminReq rqd).deviceCmd = false ∨ false = true ∧ d.mgmt.sec.session = true) ∧ (∀ (k : Nat), k < 32 → d.sideMb.outstanding k = true))) = true ∧
    (decide ((dsec.sideband = true) ∧ (dsec.ready = true) ∧ (rqd.length = 64) ∧ (dsec.mgmt.feat.sbSecure = true) ∧ ((adminReq rqd).deviceCmd = true))) = true ∧
    (let d : Device := (onMb dM 0 (areq 0x01 0 0 0 0 0 0) [] .waiting); decide ((d.ready = true) ∧ (d.seated = true) ∧ (0 ≤ 256) ∧ (2 < 32) ∧ ((List.find? (fun k => decide (d.mgmt.nextMb ≤ k)) d.waitingMbs).or d.waitingMbs.head? = some 0) ∧ (List.find? (fun k => tget SlotState.idle k (d.mbox 0).slots == SlotState.waiting) (Mailbox.order 0 (d.mbox 0)) = some 2) ∧ (d.startCheck 0 (d.adminAt 0 2) = none))) = true ∧
    (let d : Device := (onMb dM 0 (areq 0xA1 0 0 0 0 0 0) [] .waiting); decide ((d.ready = true) ∧ (d.seated = true) ∧ (0 ≤ 256) ∧ (2 < 32) ∧ ((List.find? (fun k => decide (d.mgmt.nextMb ≤ k)) d.waitingMbs).or d.waitingMbs.head? = some 0) ∧ (List.find? (fun k => tget SlotState.idle k (d.mbox 0).slots == SlotState.waiting) (Mailbox.order 0 (d.mbox 0)) = some 2) ∧ (d.startCheck 0 (d.adminAt 0 2) = some (stAccessDenied, 0, 0)) ∧ (stAccessDenied ≠ 0))) = true ∧
    (let d : Device := (dsh 2); decide ((d.ready = true) ∧ (8500 < 9000))) = true ∧
    (let d : Device := (dsh 2); decide ((d.ready = true) ∧ (7000 ≤ 8000) ∧ (8000 ≤ 8500))) = true := by
  refine ⟨?_, ?_, ?_, ?_, ?_, ?_, ?_, ?_, ?_, ?_, ?_⟩ <;> decide +kernel

/-- The hypotheses of PagesFeaturesAndEvents are met, clause by clause. -/
theorem witness_PagesFeaturesAndEvents :
    (let d : Device := (dsp {}); decide ((d.sideband = true) ∧ (d.ready = true) ∧
      (d.sideband = true) ∧ (d.ready = true) ∧ (18 = 18 ∨ 18 = 19) ∧
      (d.sideband = true) ∧ (d.ready = true) ∧ (d.mgmt.sec.spdmAlgs = false))) = true ∧
    (let d : Device := (dsp ⟨0x12, true, true, true, true, none, none⟩); decide ((d.sideband = true) ∧ (d.ready = true) ∧ (d.mgmt.sec.spdmCaps = true) ∧
      (d.sideband = true) ∧ (d.ready = true) ∧ (d.mgmt.sec.spdmAlgs = true) ∧ (1 ≤ 1) ∧ (1 ≤ 6) ∧
      (d.sideband = true) ∧ (d.ready = true) ∧ (d.mgmt.sec.spdmExch = true) ∧
      (d.sideband = true) ∧ (d.ready = true) ∧ (d.mgmt.sec.session = true))) = true ∧
    (let d : Device := (onMb (dM) 0 (areq 0x01 0 0 0 0 512 0x7000 ([]))); let io : AdminIo := ioD []; decide ((0 = 256 ∨ d.hostThere 0) ∧ (d.servesNow 1 0 2 io))) = true ∧
    (let d : Device := (onMb (dM) 256 (areq 0x02 0 0 0 0 512 0x7000 (leBytes 8 1 ++ leBytes 8 0))); let io : AdminIo := ioD []; let bs : List Byte := (onMb dM 256 []).healthPage; decide ((256 = 256 ∨ d.hostThere 256) ∧ (d.servesNow 2 256 2 io) ∧ ((d.adminAt 256 2).param 8 8 % 64 = 0) ∧ ((d.adminAt 256 2).param 1 1 = 0) ∧ ((1, bs) ∈ [(1, d.healthPage), (2, eventsPage (d.mbox 256)), (3, d.firmwarePage), (4, d.ledgerPage (d.adminAt 256 2).target), (5, d.selfTestPage), (6, d.sanitisePage), (8, d.memoryPage), (12, d.loadPage), (13, d.linksPage), (14, d.shoalPage), (15, d.routesPage)]) ∧ ((d.adminAt 256 2).param 0 1 = 1))) = true ∧
    (let d : Device := (onMb (dJ (job .codebookFit)) 0 (areq 0x02 0 5 0 0 512 0x7000 (leBytes 8 9 ++ leBytes 8 0))); let io : AdminIo := ioD []; decide ((0 = 256 ∨ d.hostThere 0) ∧ (d.servesNow 2 0 2 io) ∧ ((d.adminAt 0 2).param 8 8 % 64 = 0) ∧ ((d.adminAt 0 2).param 1 1 = 0) ∧ ((d.job? (d.adminAt 0 2).target).any fun (j : Job) => decide (((d.adminAt 0 2).param 0 1 = 9) ∧ (d.brgAdmin 0 j.burgee = true))) = true)) = true ∧
    (let d : Device := (onMb (dM) 0 (areq 0x02 0 3 0 0 512 0x7000 (leBytes 8 10 ++ leBytes 8 64))); let io : AdminIo := ioD []; decide ((0 = 256 ∨ d.hostThere 0) ∧ (d.servesNow 2 0 2 io) ∧ ((d.adminAt 0 2).param 8 8 % 64 = 0) ∧ ((d.adminAt 0 2).param 1 1 = 0) ∧ ((d.index? (d.adminAt 0 2).target).any fun (x : Index) => decide (((d.adminAt 0 2).param 0 1 = 10) ∧ (0 = 256 ∨ (d.fn 0).burgee = x.burgee))) = true)) = true ∧
    (let d : Device := (onMb (dM) 0 (areq 0x02 0 0 0 0 512 0x7000 (leBytes 8 7 ++ leBytes 8 0))); let io : AdminIo := ioD []; decide ((0 = 256 ∨ d.hostThere 0) ∧ (d.servesNow 2 0 2 io) ∧ ((d.adminAt 0 2).param 8 8 % 64 = 0) ∧ ((d.adminAt 0 2).param 1 1 = 0) ∧ ((d.adminAt 0 2).param 0 1 = 7) ∧ ((d.adminAt 0 2).target = 0) ∧ (0 < 256))) = true ∧
    (let d : Device := (onMb (dM) 0 (areq 0x02 0 2 0 0 512 0x7000 (leBytes 8 11 ++ leBytes 8 0))); let io : AdminIo := ioD []; decide ((0 = 256 ∨ d.hostThere 0) ∧ (d.servesNow 2 0 2 io) ∧ ((d.adminAt 0 2).param 8 8 % 64 = 0) ∧ ((d.adminAt 0 2).param 1 1 = 0) ∧ ((d.adminAt 0 2).param 0 1 = 11) ∧ (1 ≤ (d.adminAt 0 2).target) ∧ ((d.adminAt 0 2).target ≤ 4))) = true ∧
    (let d : Device := (onMb (dM) 0 (areq 0x02 0 0 0 0 512 0x7000 (leBytes 1 2 ++ leBytes 7 1 ++ leBytes 8 0))); let io : AdminIo := ioD []; decide ((0 = 256 ∨ d.hostThere 0) ∧ (d.servesNow 2 0 2 io) ∧ ((d.adminAt 0 2).param 8 8 % 64 = 0) ∧ ((d.adminAt 0 2).param 1 1 = 1) ∧ ((d.adminAt 0 2).param 0 1 = 2))) = true ∧
    (let d : Device := (onMb (dM) 0 (areq 0x02 0 0 0 0 512 0x7000 (leBytes 1 1 ++ leBytes 7 1 ++ leBytes 8 0))); let io : AdminIo := ioD []; decide ((0 = 256 ∨ d.hostThere 0) ∧ (d.servesNow 2 0 2 io) ∧ ((d.adminAt 0 2).param 8 8 % 64 = 0) ∧ ((d.adminAt 0 2).param 1 1 = 1) ∧ ((d.adminAt 0 2).param 0 1 = 1))) = true ∧
    (let d : Device := (onMb (dM) 0 (areq 0x03 0 0 0 0 512 0x7000 (leBytes 8 1))); let io : AdminIo := ioD []; decide ((0 = 256 ∨ d.hostThere 0) ∧ (d.servesNow 3 0 2 io) ∧ (featureOk ((d.adminAt 0 2).param 0 1) (d.adminAt 0 2).target = true) ∧ (isBurgeeFeature ((d.adminAt 0 2).param 0 1) = false ∨ d.devAdmin 0 = true ∨ (d.fn 0).burgee = (d.adminAt 0 2).target))) = true ∧
    (let d : Device := (onMb (dM) 0 (areq 0x04 0 0 0 0 0 0x7000 (leBytes 8 1 ++ leBytes 24 40))); decide ((d.servesNow 4 0 2 noIo) ∧ ((d.adminAt 0 2).param 0 1 = 1) ∧ (32 ≤ fieldAt (List.take 24 (List.drop 8 (d.adminAt 0 2).p)) 0 2) ∧ (fieldAt (List.take 24 (List.drop 8 (d.adminAt 0 2).p)) 0 2 ≤ 44))) = true ∧
    (let d : Device := (onMb (dM) 0 (areq 0x04 0 0 0 0 0 0x7000 (leBytes 8 1 ++ leBytes 24 50))); decide ((d.servesNow 4 0 2 noIo) ∧ ((d.adminAt 0 2).param 0 1 = 1) ∧ (fieldAt (List.take 24 (List.drop 8 (d.adminAt 0 2).p)) 0 2 < 32 ∨ 44 < fieldAt (List.take 24 (List.drop 8 (d.adminAt 0 2).p)) 0 2))) = true ∧
    (let d : Device := (onMb (dM) 0 (areq 0x04 0 1 0 0 0 0x7000 (leBytes 8 4 ++ leBytes 24 (2+7*2^32)))); decide ((d.servesNow 4 0 2 noIo) ∧ ((d.adminAt 0 2).param 0 1 = 4) ∧ (isBurgeeFeature ((d.adminAt 0 2).param 0 1) = true → d.brgAdmin 0 (d.adminAt 0 2).target = true ∧ (d.adminAt 0 2).target < 16) ∧ (1 ≤ fieldAt (List.take 24 (List.drop 8 (d.adminAt 0 2).p)) 4 2) ∧ (fieldAt (List.take 24 (List.drop 8 (d.adminAt 0 2).p)) 4 2 ≤ 100))) = true ∧
    (let d : Device := (onMb (dM) 0 (areq 0x04 0 1 0 0 0 0x7000 (leBytes 8 3 ++ leBytes 24 (5+5*2^16)))); decide ((d.servesNow 4 0 2 noIo) ∧ ((d.adminAt 0 2).param 0 1 = 3) ∧ (isBurgeeFeature ((d.adminAt 0 2).param 0 1) = true → d.brgAdmin 0 (d.adminAt 0 2).target = true ∧ (d.adminAt 0 2).target < 16) ∧ (d.ratesFit (d.adminAt 0 2).target (List.map (fun i => fieldAt (List.take 24 (List.drop 8 (d.adminAt 0 2).p)) (2 * i) 2) (List.range 8)) = true))) = true ∧
    (let d : Device := (onMb (dM) 0 (areq 0x04 0 0 0 0 0 0x7000 (leBytes 8 5 ++ leBytes 24 3))); decide ((d.servesNow 4 0 2 noIo) ∧ ((d.adminAt 0 2).param 0 1 = 5) ∧ (fieldAt (List.take 24 (List.drop 8 (d.adminAt 0 2).p)) 0 1 % 16 ≠ 0))) = true ∧
    (let d : Device := (onMb (dM) 0 (areq 0x04 0 0 0 0 0 0x7000 (leBytes 8 6 ++ leBytes 24 5))); decide ((d.servesNow 4 0 2 noIo) ∧ ((d.adminAt 0 2).param 0 1 = 6) ∧ (bits 2 1 (fieldAt (List.take 24 (List.drop 8 (d.adminAt 0 2).p)) 0 1) ≠ 3))) = true ∧
    (let d : Device := (onMb (dM) 0 (areq 0x04 0 0 0 0 0 0x7000 (leBytes 8 7 ++ leBytes 24 12345))); decide ((d.servesNow 4 0 2 noIo) ∧ ((d.adminAt 0 2).param 0 1 = 7))) = true ∧
    (let d : Device := (onMb (dM) 0 (areq 0x04 0 0 0 0 0 0x7000 (leBytes 8 8 ++ leBytes 24 1))); decide ((d.servesNow 4 0 2 noIo) ∧ ((d.adminAt 0 2).param 0 1 = 8))) = true ∧
    (let d : Device := (dEv [devEvent 5 6, devEvent 7 8] 0); let v : Event := devEvent 5 6; let vs : List Event := [devEvent 7 8]; decide ((d.servesNow 5 0 2 noIo) ∧ ((d.mbox 0).events = v :: vs))) = true ∧
    (let d : Device := (dEv [] 0); decide ((d.servesNow 5 0 2 noIo) ∧ ((d.mbox 0).events = []) ∧ ((Mailbox.eventSlots 0 (d.mbox 0)).length < 4))) = true ∧
    (let d : Device := (dEv [] 4); decide ((d.servesNow 5 0 2 noIo) ∧ ((d.mbox 0).events = []) ∧ (4 ≤ (Mailbox.eventSlots 0 (d.mbox 0)).length))) = true := by
  refine ⟨?_, ?_, ?_, ?_, ?_, ?_, ?_, ?_, ?_, ?_, ?_, ?_, ?_, ?_, ?_, ?_, ?_, ?_, ?_, ?_, ?_, ?_⟩ <;> decide +kernel

/-- The hypotheses of FunctionsAndTheirQueues are met, clause by clause. -/
theorem witness_FunctionsAndTheirQueues :
    (let d : Device := (onMb dM 0 (areq 0x10 0 0 0x7000 64 0 0) (qpb 3 2 4 16 16 2 0x5000 0x7000)); let io : AdminIo := ioD (qpb 9 2 4 16 16 2 0x5000 0x7000); decide ((okAnd (d.adminIn (d.adminAt 0 2) 0 2 none io) fun (bs : List Byte) => decide ((0 < 256) ∧ (d.servesNow 16 0 2 io) ∧ (d.newQp 0 bs = none))) = true)) = true ∧
    (let d : Device := (onMb dM 0 (areq 0x11 0 0 0 0 0 0)); decide ((0 < 256) ∧ (d.servesNow 17 0 2 noIo) ∧ ((d.qp 0 (d.adminAt 0 2).target).isSome = true))) = true ∧
    (let d : Device := (onMb dM 0 (areq 0x11 0 5 0 0 0 0)); decide ((0 < 256) ∧ (d.servesNow 17 0 2 noIo) ∧ (d.qp 0 (d.adminAt 0 2).target = none))) = true ∧
    (let d : Device := (onMb dM 256 (areq 0x12 0 3 0 0 0 0 (cf_2 1 5 16 8))); decide ((d.servesNow 18 256 2 noIo) ∧ ((d.adminAt 256 2).target < 256) ∧ ((d.adminAt 256 2).param 0 1 < 16) ∧ ((d.adminAt 256 2).param 1 1 < 8) ∧ ((d.adminAt 256 2).param 2 2 ≤ 1024) ∧ (1 ≤ (d.adminAt 256 2).param 4 2) ∧ ((d.adminAt 256 2).param 4 2 ≤ 2048) ∧ ((d.adminAt 256 2).param 2 2 + lsum (List.map (fun x => x.qpMax) (List.map (fun x => x.snd) (List.filter (fun p => p.fst != (d.adminAt 256 2).target && p.snd.assigned) d.fns))) ≤ 4096) ∧ ((d.adminAt 256 2).param 4 2 + lsum (List.map (fun x => x.msixSize) (List.map (fun x => x.snd) (List.filter (fun p => p.fst != (d.adminAt 256 2).target && p.snd.assigned) d.fns))) ≤ 2048) ∧ ((d.fn (d.adminAt 256 2).target).qps = []))) = true ∧
    (let d : Device := (onMb dM 256 (areq 0x12 0 3 0 0 0 0 (cf_2 16 5 16 8))); decide ((d.servesNow 18 256 2 noIo) ∧ (255 < (d.adminAt 256 2).target ∨ 15 < (d.adminAt 256 2).param 0 1 ∨ 1024 < (d.adminAt 256 2).param 2 2))) = true ∧
    (let d : Device := (onMb dM 256 (areq 0x13 0 1 0 0 0 0)); decide ((d.servesNow 19 256 2 noIo) ∧ ((d.adminAt 256 2).target = 1))) = true ∧
    (let d : Device := (onMb dM 256 (areq 0x13 0 2 0 0 0 0)); decide ((d.servesNow 19 256 2 noIo) ∧ ((d.adminAt 256 2).target = 2))) = true ∧
    (let d : Device := (onMb dM 256 (areq 0x13 0 3 0 0 0 0)); decide ((d.servesNow 19 256 2 noIo) ∧ ((d.adminAt 256 2).target = 3) ∧ (d.ens.holder = some 0) ∧ (0 < 2) ∧ ((d.ens.health (1 - 0)).state = 1) ∧ ((d.ens.health (1 - 0)).failed d.now = false))) = true ∧
    (let d : Device := (onMb dM 256 (areq 0x13 0 0 0 0 0 0)); decide ((d.servesNow 19 256 2 noIo) ∧ ((d.adminAt 256 2).target = 0 ∨ 3 < (d.adminAt 256 2).target))) = true := by
  refine ⟨?_, ?_, ?_, ?_, ?_, ?_, ?_, ?_, ?_⟩ <;> decide +kernel

/-- The hypotheses of IndexesAndLoads are met, clause by clause. -/
theorem witness_IndexesAndLoads :
    (let d : Device := (onMb dL 0 (areq 0x30 0 0 0x7000 128 0 0) (spec 5 0x100000)); let io : AdminIo := ioD (spec 5 0x100000); decide (((d.requestBurgee 0 ((d.adminAt 0 2).param 0 1)).any fun (b : Nat) => decide ((okAnd (d.adminIn (d.adminAt 0 2) 0 2 (some b) io) fun (bs : List Byte) => decide ((d.servesNow 48 0 2 io) ∧ ((parseSpec bs b).any fun (x : Index) => decide (((d.createIndex { x with indexNo := 5 }).any fun (d1 : Device) => decide ((5 = if x.indexNo = 65535 then d.freeIndexNo.getD 1024 else x.indexNo) ∧ (5 < 1024) ∧ (tfind 5 d.indexes = none))) = true)) = true)) = true)) = true)) = true ∧
    (let d : Device := (onMb dSmall 0 (areq 0x30 0 0 0x7000 128 0 0) (spec 5 0x100000)); let io : AdminIo := ioD (spec 5 0x100000); decide (((d.requestBurgee 0 ((d.adminAt 0 2).param 0 1)).any fun (b : Nat) => decide ((okAnd (d.adminIn (d.adminAt 0 2) 0 2 (some b) io) fun (bs : List Byte) => decide ((d.servesNow 48 0 2 io) ∧ ((parseSpec bs b).any fun (x : Index) => decide ((5 = if x.indexNo = 65535 then d.freeIndexNo.getD 1024 else x.indexNo) ∧ (5 < 1024) ∧ (tfind 5 d.indexes = none) ∧ (d.createIndex { x with indexNo := 5 } = none))) = true)) = true)) = true)) = true ∧
    (let d : Device := (onMb dL 0 (areq 0x30 0 0 0x7000 128 0 0) (spec 5 0x100001)); let io : AdminIo := ioD (spec 5 0x100001); decide (((d.requestBurgee 0 ((d.adminAt 0 2).param 0 1)).any fun (b : Nat) => decide ((okAnd (d.adminIn (d.adminAt 0 2) 0 2 (some b) io) fun (bs : List Byte) => decide ((d.servesNow 48 0 2 io) ∧ (parseSpec bs b = none))) = true)) = true)) = true ∧
    (let d : Device := (onMb dJ2 0 (areq 0x31 0 3 0 0 0 0)); decide (((d.index? (d.adminAt 0 2).target).any fun (x : Index) => decide ((0 = 256 ∨ (d.fn 0).burgee = x.burgee) ∧ (d.servesNow 49 0 2 noIo))) = true)) = true ∧
    (let d : Device := (onMb dM 0 (areq 0x32 0 3 0x7000 40 0 0 (fp_2 4)) (fl 4 3)); let io : AdminIo := ioD (fl 4 3); decide (((d.index? (d.adminAt 0 2).target).any fun (x : Index) => decide ((0 = 256 ∨ (d.fn 0).burgee = x.burgee) ∧ (okAnd (d.adminIn (d.adminAt 0 2) 0 2 (some x.burgee) io) fun (bs : List Byte) => decide ((d.servesNow 50 0 2 io) ∧ (filterValid x.attrWords bs = true) ∧ ((parseFilter bs).filterId = (d.adminAt 0 2).param 0 2) ∧ ((parseFilter bs).indexNo = (d.adminAt 0 2).target))) = true)) = true)) = true ∧
    (let d : Device := (onMb dM 0 (areq 0x32 0 3 0x7000 40 0 0 (fp_2 5)) (fl 4 3)); let io : AdminIo := ioD (fl 4 3); decide (((d.index? (d.adminAt 0 2).target).any fun (x : Index) => decide ((0 = 256 ∨ (d.fn 0).burgee = x.burgee) ∧ (okAnd (d.adminIn (d.adminAt 0 2) 0 2 (some x.burgee) io) fun (bs : List Byte) => decide ((d.servesNow 50 0 2 io) ∧ (filterValid x.attrWords bs = false ∨ (parseFilter bs).filterId ≠ (d.adminAt 0 2).param 0 2 ∨ (parseFilter bs).indexNo ≠ (d.adminAt 0 2).target))) = true)) = true)) = true ∧
    (let d : Device := (onMb dFl 0 (areq 0x33 0 3 0 0 0 0 (fp_2 4))); decide (((d.index? (d.adminAt 0 2).target).any fun (x : Index) => decide ((0 = 256 ∨ (d.fn 0).burgee = x.burgee) ∧ (d.servesNow 51 0 2 noIo) ∧ ((tfind ((d.adminAt 0 2).param 0 2) x.filters).isSome = true))) = true)) = true ∧
    (let d : Device := (onMb dFl 0 (areq 0x33 0 3 0 0 0 0 (fp_2 7))); decide (((d.index? (d.adminAt 0 2).target).any fun (x : Index) => decide ((0 = 256 ∨ (d.fn 0).burgee = x.burgee) ∧ (d.servesNow 51 0 2 noIo) ∧ (tfind ((d.adminAt 0 2).param 0 2) x.filters = none))) = true)) = true ∧
    (let d : Device := (onMb dFl 0 (areq 0x34 0 3 0x7000 56 0 0 (fp_2 1)) el); let io : AdminIo := ioD el; decide (((d.index? (d.adminAt 0 2).target).any fun (x : Index) => decide ((0 = 256 ∨ (d.fn 0).burgee = x.burgee) ∧ (d.servesNow 52 0 2 io) ∧ ((d.adminAt 0 2).param 0 1 ≠ 0) ∧ (d.adminIn (d.adminAt 0 2) 0 2 (some x.burgee) io = Except.ok el) ∧ (elemValid x.attrWords el = true) ∧ (fieldAt el 0 2 = (d.adminAt 0 2).target) ∧ (d.oldTransforms x = []))) = true)) = true ∧
    (let d : Device := (onMb dFl 0 (areq 0x34 0 3 0 0 0 0 (fp_2 0)) el); let io : AdminIo := ioD []; decide (((d.index? (d.adminAt 0 2).target).any fun (x : Index) => decide ((0 = 256 ∨ (d.fn 0).burgee = x.burgee) ∧ (d.servesNow 52 0 2 io) ∧ ((d.adminAt 0 2).param 0 1 = 0) ∧ (d.oldTransforms x = []))) = true)) = true ∧
    (let d : Device := (onMb dFo 0 (areq 0x34 0 3 0 0 0 0 (fp_2 0)) []); let io : AdminIo := ioD []; decide (((d.index? (d.adminAt 0 2).target).any fun (x : Index) => decide ((0 = 256 ∨ (d.fn 0).burgee = x.burgee) ∧ (d.servesNow 52 0 2 io) ∧ ((d.adminAt 0 2).param 0 1 = 0) ∧ (d.oldTransforms x ≠ []))) = true)) = true ∧
    (let d : Device := (onMb (dLq jq) 0 (areq 0x35 0 3 0x7000 (16 + 8 * 32) 0 0 (fp_2 0)) (mkAd 32)); let io : AdminIo := ioD (mkAd 32); decide (((d.index? (d.adminAt 0 2).target).any fun (x : Index) => decide ((0 = 256 ∨ (d.fn 0).burgee = x.burgee) ∧ (okAnd (d.adminIn (d.adminAt 0 2) 0 2 (some x.burgee) io) fun (bs : List Byte) => decide (((readAdapter x.dim bs).any fun (a : Adapter) => decide ((d.servesNow 53 0 2 io))) = true)) = true)) = true)) = true ∧
    (let d : Device := (onMb dM 256 (areq 0x36 0 0 0x7000 md.length 0 0 (fp_2 0)) md); let io : AdminIo := ioD md; decide ((okAnd (d.adminIn (d.adminAt 256 2) 256 2 none io) fun (bs : List Byte) => decide ((d.servesNow 54 256 2 io) ∧ (modelValid bs = true))) = true)) = true ∧
    (let d : Device := (onMb dM 256 (areq 0x36 0 0 0x7000 64 0 0 (fp_2 0)) (List.replicate 64 1)); let io : AdminIo := ioD (List.replicate 64 1); decide ((okAnd (d.adminIn (d.adminAt 256 2) 256 2 none io) fun (bs : List Byte) => decide ((d.servesNow 54 256 2 io) ∧ (modelValid bs = false))) = true)) = true ∧
    (let d : Device := (onMb dMd 256 (areq 0x37 0 0 0 0 0 0 (fp_2 0))); decide ((d.servesNow 55 256 2 noIo))) = true ∧
    (let d : Device := (sg1 0 128 0); let io : AdminIo := ioD [1,2,3,4,5]; decide ((okAnd (d.adminIn (d.adminAt 0 2) 0 2 (some (d.adminAt 0 2).target) io) fun (bs : List Byte) => decide ((d.servesNow 56 0 2 io) ∧ ((d.adminAt 0 2).target < 16) ∧ ((d.burgee (d.adminAt 0 2).target).enabled = true) ∧ (d.brgAdmin 0 (d.adminAt 0 2).target = true) ∧ ((d.adminAt 0 2).param 8 8 = 0) ∧ (128 = if (d.adminAt 0 2).param 16 8 = 0 then bs.length else (d.adminAt 0 2).param 16 8) ∧ (128 ≠ 0) ∧ (bs.length ≤ 128) ∧ ((d.takeF (some (d.adminAt 0 2).target) 128).isSome = true))) = true)) = true ∧
    (let d : Device := (onMb dSg 0 (areq 0x38 0 1 0x7000 5 0 0 (sd aSg 0 64)) [1,2,3,4,5]); let io : AdminIo := ioD [1,2,3,4,5]; decide ((okAnd (d.adminIn (d.adminAt 0 2) 0 2 (some (d.adminAt 0 2).target) io) fun (bs : List Byte) => decide ((d.servesNow 56 0 2 io) ∧ ((d.adminAt 0 2).target < 16) ∧ ((d.burgee (d.adminAt 0 2).target).enabled = true) ∧ (d.brgAdmin 0 (d.adminAt 0 2).target = true) ∧ ((d.stagedAt (d.adminAt 0 2).target ((d.adminAt 0 2).param 8 8)).any fun (k : Staged) => decide (((d.adminAt 0 2).param 8 8 ≠ 0) ∧ ((d.adminAt 0 2).dataLen ≠ 0) ∧ ((d.adminAt 0 2).param 24 8 % 64 = 0) ∧ ((d.adminAt 0 2).param 24 8 + bs.length ≤ k.len))) = true)) = true)) = true ∧
    (let d : Device := (onMb dSg 0 (areq 0x38 0 1 0 0 0 0 (sd aSg 0 0)) []); let io : AdminIo := ioD []; decide ((okAnd (d.adminIn (d.adminAt 0 2) 0 2 (some (d.adminAt 0 2).target) io) fun (bs : List Byte) => decide ((d.servesNow 56 0 2 io) ∧ ((d.adminAt 0 2).target < 16) ∧ ((d.burgee (d.adminAt 0 2).target).enabled = true) ∧ (d.brgAdmin 0 (d.adminAt 0 2).target = true) ∧ ((d.stagedAt (d.adminAt 0 2).target ((d.adminAt 0 2).param 8 8)).any fun (k : Staged) => decide (((d.adminAt 0 2).param 8 8 ≠ 0) ∧ ((d.adminAt 0 2).dataLen = 0))) = true)) = true)) = true ∧
    (let d : Device := (onMb dSg 0 (areq 0x38 0 1 0 0 0 0 (sd 0x4000 0 0)) []); let io : AdminIo := ioD []; decide ((okAnd (d.adminIn (d.adminAt 0 2) 0 2 (some (d.adminAt 0 2).target) io) fun (bs : List Byte) => decide ((d.servesNow 56 0 2 io) ∧ ((d.adminAt 0 2).target < 16) ∧ ((d.burgee (d.adminAt 0 2).target).enabled = true) ∧ (d.brgAdmin 0 (d.adminAt 0 2).target = true) ∧ ((d.adminAt 0 2).param 8 8 ≠ 0) ∧ (d.stagedAt (d.adminAt 0 2).target ((d.adminAt 0 2).param 8 8) = none))) = true)) = true ∧
    (let d : Device := (onMb dM 256 (areq 0x39 0 16 0 0 0 0 (fp_2 0))); decide ((d.servesNow 57 256 2 noIo) ∧ ((d.adminAt 256 2).target < 196) ∧ ((d.chan (d.adminAt 256 2).target).state ≠ ChState.absent))) = true ∧
    (let d : Device := (onMb dM 256 (areq 0x39 0 196 0 0 0 0 (fp_2 0))); decide ((d.servesNow 57 256 2 noIo) ∧ (196 ≤ (d.adminAt 256 2).target))) = true := by
  refine ⟨?_, ?_, ?_, ?_, ?_, ?_, ?_, ?_, ?_, ?_, ?_, ?_, ?_, ?_, ?_, ?_, ?_, ?_, ?_, ?_, ?_⟩ <;> decide +kernel

/-- The records of a good geometry: an empty one, an enabled one, and fourteen of zeros. -/
theorem geo1_slices : (List.range 16).map (geoSlice geo1) = [gr 0 0 0 0 0, gr 1 3 4 2 8] ++ List.replicate 14 (List.replicate 256 0) := by decide +kernel
theorem geo1_recs : ∀ b, b < 16 → geoRecOk (geoSlice geo1 b) = true := by
  have h : ((List.range 16).map (geoSlice geo1)).all geoRecOk = true := by rw [geo1_slices]; decide +kernel
  intro b hb
  exact List.all_eq_true.mp h _ (List.mem_map_of_mem (List.mem_range.mpr hb))
theorem geo1_sums : geoSumsOk geo1 = true := by
  have e : ∀ off, (List.range 16).map (fun b => fieldAt (geoSlice geo1 b) off 1) =
      ([gr 0 0 0 0 0, gr 1 3 4 2 8] ++ List.replicate 14 (List.replicate 256 0)).map fun r => fieldAt r off 1 := by
    intro off; rw [← geo1_slices, List.map_map]; rfl
  simp only [geoSumsOk, e]; decide +kernel
theorem geo1_good : geo1.length = 4096 ∧ (∀ b, b < 16 → geoRecOk (geoSlice geo1 b) = true) ∧ geoSumsOk geo1 = true :=
  ⟨by decide +kernel, geo1_recs, geo1_sums⟩

/-- The hypotheses of SettingsAndErasure are met, clause by clause. -/
theorem witness_SettingsAndErasure :
    (let d : Device := (s256 dM 0xA0 1 (p8 2)); decide ((d.servesNow 160 256 2 noIo) ∧ (d.settingCheck (d.adminAt 256 2).target ((d.adminAt 256 2).param 0 8) = none) ∧ (d.aon.vfuseOut = false))) = true ∧
    (let d : Device := (s256 dM 0xA0 3 (p8 0)); decide ((d.servesNow 160 256 2 noIo) ∧ ((d.settingCheck (d.adminAt 256 2).target ((d.adminAt 256 2).param 0 8)).any fun (k : SettingRefusal) => decide (True)) = true ∧
      (d.servesNow 160 256 2 noIo) ∧ (settingValueOk (d.adminAt 256 2).target ((d.adminAt 256 2).param 0 8) = true) ∧ (d.fuses.used (d.adminAt 256 2).target < settingLimit (d.adminAt 256 2).target) ∧ (d.fuses.value (d.adminAt 256 2).target = (d.adminAt 256 2).param 0 8))) = true ∧
    (let d : Device := (s256 (dF_2 { profile := 2, profileUsed := 4 }) 0xA0 1 (p8 1)); decide ((d.servesNow 160 256 2 noIo) ∧ (settingValueOk (d.adminAt 256 2).target ((d.adminAt 256 2).param 0 8) = true) ∧ (settingLimit (d.adminAt 256 2).target ≤ d.fuses.used (d.adminAt 256 2).target))) = true ∧
    (geo1.length = 4096 ∧ (∀ b, b < 16 → geoRecOk (geoSlice geo1 b) = true) ∧ geoSumsOk geo1 = true) ∧
    (let d : Device := (s256 dNox 0x20 0 (p8 0) geo1); let io : AdminIo := ioD geo1; d.servesNow 32 256 2 io ∧ d.adminIn (d.adminAt 256 2) 256 2 none io = .ok geo1 ∧
      d.floorsOk d.fresh geo1 = true ∧ d.fuses.geometryUsed < 255 ∧ d.geoChanges geo1 ≠ [] ∧ d.aon.vfuseOut = false) ∧
    (let d : Device := (s256 { dNox with fuses := { geometryUsed := 255 } } 0x20 0 (p8 0) geo1); let io : AdminIo := ioD geo1; d.servesNow 32 256 2 io ∧
      d.adminIn (d.adminAt 256 2) 256 2 none io = .ok geo1 ∧ d.floorsOk d.fresh geo1 = true ∧ 255 ≤ d.fuses.geometryUsed) ∧
    (let d : Device := (s256 dNox 0x20 0 (p8 0) geo2); let io : AdminIo := ioD geo2; decide ((okAnd (d.adminIn (d.adminAt 256 2) 256 2 none io) fun (g : List Byte) => decide ((d.servesNow 32 256 2 io) ∧ (g.length = 4096) ∧ (¬((∀ (b : Nat), b < 16 → geoRecOk (geoSlice g b) = true) ∧ geoSumsOk g = true)))) = true)) = true ∧
    (decide ((dGw.mgmt.geoWrite = some (256, 2, geo1, 1000000)) ∧ (256 ≤ 256) ∧ (2 < 32) ∧ (dGw.startedAt 256 2 = true))) = true ∧
    (let d : Device := (s256 dDat 0x80 1 (fm 0 1)); let bs : List Nat := [1]; decide ((d.servesNow 128 256 2 noIo ∧ (d.adminAt 256 2).param 0 1 ≤ 1 ∧ (d.adminAt 256 2).param 1 1 ≤ 2 ∧ 1 = (d.adminAt 256 2).param 1 1 ∧ ((d.adminAt 256 2).param 0 1 = 1 → bs = List.range 16) ∧ ((d.adminAt 256 2).param 0 1 = 0 → (d.adminAt 256 2).target < 16 ∧ bs = [(d.adminAt 256 2).target]) ∨ d.servesNow 33 256 2 noIo ∧ (d.adminAt 256 2).target < 16 ∧ 1 = 2 ∧ bs = [(d.adminAt 256 2).target]) ∧ ((d.adminAt 256 2).op = 128))) = true ∧
    (let d : Device := (s256 dDat 0x21 1 (fm 0 0)); let bs : List Nat := [1]; decide ((d.servesNow 128 256 2 noIo ∧ (d.adminAt 256 2).param 0 1 ≤ 1 ∧ (d.adminAt 256 2).param 1 1 ≤ 2 ∧ 2 = (d.adminAt 256 2).param 1 1 ∧ ((d.adminAt 256 2).param 0 1 = 1 → bs = List.range 16) ∧ ((d.adminAt 256 2).param 0 1 = 0 → (d.adminAt 256 2).target < 16 ∧ bs = [(d.adminAt 256 2).target]) ∨ d.servesNow 33 256 2 noIo ∧ (d.adminAt 256 2).target < 16 ∧ 2 = 2 ∧ bs = [(d.adminAt 256 2).target]) ∧ ((d.adminAt 256 2).op = 33))) = true ∧
    (let d : Device := (s256 dDat 0x84 0 (fm 2 0)); decide ((d.servesNow 132 256 2 noIo) ∧ (2 ≤ (d.adminAt 256 2).param 0 1) ∧ ((d.adminAt 256 2).param 0 1 ≤ 4))) = true ∧
    (let d : Device := (s256 { dDat with flash := { dDat.flash with sanitise := { state := 3 } } } 0x84 0 (fm 1 0)); decide ((d.servesNow 132 256 2 noIo) ∧ ((d.adminAt 256 2).param 0 1 = 1) ∧ (d.flash.sanitise.state = 3))) = true ∧
    (let d : Device := (s256 dDat 0x84 0 (fm 0 0)); decide ((d.servesNow 132 256 2 noIo) ∧ ((d.adminAt 256 2).param 0 1 = 0 ∨ 4 < (d.adminAt 256 2).param 0 1))) = true ∧
    (let d : Device := (dSan 2); decide ((d.ready = true) ∧ (d.flash.sanitise.state = 1) ∧ (d.flash.sanitise.keysDone = true) ∧ (d.flash.sanitise.action = 2 ∨ d.flash.sanitise.action = 3) ∧ (d.flash.sanitise.offset + 68719476736 ≤ d.tierBytes) ∧
      (d.ready = true) ∧ (d.flash.sanitise.state = 1) ∧ (d.flash.sanitise.keysDone = true) ∧
      (d.ready = true) ∧ (d.flash.sanitise.state = 1) ∧ (d.flash.sanitise.keysDone = true) ∧ (d.flash.sanitise.action = 2 ∨ d.flash.sanitise.action = 3))) = true ∧
    (let d : Device := (onMb (dTok none) 256 (areq 0xA1 0 1 0 0 32 0x7000)); let io : AdminIo := ioD []; decide ((d.servesNow 161 256 2 io) ∧ (256 = 256 ∨ d.hostThere 256) ∧ ((d.adminAt 256 2).target = 1))) = true ∧
    (let d : Device := (onMb (dTok (some (List.replicate 32 7))) 256 (areq 0xA1 0 2 0x7000 160 0 0) token); let io : AdminIo := ioD token; decide ((d.servesNow 161 256 2 io) ∧ (256 = 256 ∨ d.hostThere 256) ∧ (okAnd (d.adminIn (d.adminAt 256 2) 256 2 none io) fun (t : List Byte) => decide (((d.mgmt.sec.nonce).any fun (n_32 : List Byte) => decide (((d.adminAt 256 2).target = 2) ∧ (d.fuses.tokenOk t n_32 = true) ∧ (d.fuses.debugUsed < 8) ∧ (d.mgmt.sec.unlocked = none) ∧ (d.aon.vfuseOut = false))) = true)) = true)) = true ∧
    (let d : Device := (onMb (dTok (some (List.replicate 32 8))) 256 (areq 0xA1 0 2 0x7000 160 0 0) token); let io : AdminIo := ioD token; decide ((d.servesNow 161 256 2 io) ∧ (256 = 256 ∨ d.hostThere 256) ∧ (okAnd (d.adminIn (d.adminAt 256 2) 256 2 none io) fun (t : List Byte) => decide (((d.mgmt.sec.nonce).any fun (n : List Byte) => decide (((d.adminAt 256 2).target = 2) ∧ (d.fuses.tokenOk t n = false))) = true)) = true)) = true ∧
    (let d : Device := (onMb (dTok none) 256 (areq 0xA1 0 2 0x7000 160 0 0) token); let io : AdminIo := ioD token; decide ((d.servesNow 161 256 2 io) ∧ (256 = 256 ∨ d.hostThere 256) ∧ (okAnd (d.adminIn (d.adminAt 256 2) 256 2 none io) fun (t : List Byte) => decide (((d.adminAt 256 2).target = 2) ∧ (d.mgmt.sec.nonce = none))) = true)) = true ∧
    (let d : Device := (s256 { dM with popMis := true } 0xA0 6 (p8 1)); decide ((d.servesNow 160 256 2 noIo) ∧ ((d.adminAt 256 2).target = 6) ∧ (d.settingCheck (d.adminAt 256 2).target ((d.adminAt 256 2).param 0 8) = none) ∧ (d.aon.vfuseOut = false) ∧ (d.popMis = true ∨ d.popFault = true))) = true := by
  refine ⟨?_, ?_, ?_, geo1_good, ?_, ?_, ?_, ?_, ?_, ?_, ?_, ?_, ?_, ?_, ?_, ?_, ?_, ?_, ?_⟩ <;> decide +kernel

/-- The hypotheses of SelfTestsAndFirmware are met, clause by clause. -/
theorem witness_SelfTestsAndFirmware :
    (let d : Device := (s256 dM 0x50 0 (pk 1)); decide ((d.servesNow 80 256 2 noIo) ∧ ((d.adminAt 256 2).param 0 1 = 1 ∨ (d.adminAt 256 2).param 0 1 = 2) ∧ (d.mgmt.test.result ≠ 3))) = true ∧
    (let d : Device := (s256 (kt { result := 3 }) 0x50 0 (pk 2)); decide ((d.servesNow 80 256 2 noIo) ∧ ((d.adminAt 256 2).param 0 1 = 1 ∨ (d.adminAt 256 2).param 0 1 = 2) ∧ (d.mgmt.test.result = 3))) = true ∧
    (let d : Device := (s256 dM 0x50 0 (pk 3)); decide ((d.servesNow 80 256 2 noIo) ∧ ((d.adminAt 256 2).param 0 1 = 0 ∨ 2 < (d.adminAt 256 2).param 0 1))) = true ∧
    (let d : Device := (s256 (kt { result := 3 }) 0x51 0 (pk 2)); decide ((d.servesNow 81 256 2 noIo) ∧ (d.mgmt.test.result = 3))) = true ∧
    (let d : Device := (s256 (kt { result := 1 }) 0x51 0 (pk 2)); decide ((d.servesNow 81 256 2 noIo) ∧ (d.mgmt.test.result ≠ 3))) = true ∧
    (let d : Device := (kt { result := 3, todo := [g1, g2, g3, g5] }); decide ((List.find? (fun x => x.test == 1 && x.res == 3) d.mgmt.test.todo = some g1) ∧ (d.mgmt.test.result = 3) ∧ (d.ready = true) ∧ (d.mgmt.shed.steps < 3) ∧ (1 = 1 ∨ 1 = 2) ∧ (List.find? Segment.onSc d.mgmt.test.todo = some g1) ∧ (∀ (x : Segment), x ∈ d.mgmt.test.running → x.onSc = false) ∧ (d.scIdle 3 = true))) = true ∧
    (let d : Device := (kt { result := 3, todo := [g2, g3, g5] }); decide ((List.find? (fun x => x.test == 3 && x.res == 16) d.mgmt.test.todo = some g3) ∧ (d.mgmt.test.result = 3) ∧ (d.ready = true) ∧ (d.mgmt.shed.steps < 3) ∧ (3 = 3 ∨ 3 = 4) ∧ ((d.modChan 16 fun x => { x with trigger := x.trigger.or (some Trigger.request) }).mayRetrain 16 = true))) = true ∧
    (let d : Device := (kt { result := 3, todo := [g2, g3, g5] }); decide ((List.find? (fun x => x.test == 5 && x.res == 6) d.mgmt.test.todo = some g5) ∧ (d.mgmt.test.result = 3) ∧ (d.ready = true) ∧ (d.mgmt.shed.steps < 3) ∧ (d.linkIdle 6 = true) ∧ (6 < 32))) = true ∧
    (let d : Device := (lkUp (kt { result := 3, todo := [g2, g3, g5] })); decide ((List.find? (fun x => x.test == 5 && x.res == 6) d.mgmt.test.todo = some g5) ∧ (d.mgmt.test.result = 3) ∧ (d.ready = true) ∧ (d.mgmt.shed.steps < 3) ∧ (d.linkIdle 6 = false))) = true ∧
    (let d : Device := (busySc (kt (rn g1))); decide ((List.find? (fun x => x.test == 1 && x.res == 3) d.mgmt.test.running = some g1) ∧ ((1 = 1 ∨ 1 = 2) ∧ (d.scIdle 3 = false ∨ 3 ≤ d.mgmt.shed.steps) ∨ 1 = 5 ∧ (d.linkIdle 3 = false ∨ 3 ≤ d.mgmt.shed.steps)) ∧
      (List.find? (fun x => x.test == 1 && x.res == 3) d.mgmt.test.running = some g1) ∧ (¬(g1.onChan = true ∧ (d.chan 3).state = ChState.retrain)) ∧ (¬(g1.onChan = true ∧ 1 < g1.wins)) ∧
      (List.find? (fun x => x.test == 1 && x.res == 3) d.mgmt.test.running = some g1) ∧ (¬(g1.onChan = true ∧ (d.chan 3).state = ChState.retrain)))) = true ∧
    (let d : Device := (kt (rn g3b)); decide ((List.find? (fun x => x.test == 3 && x.res == 16) d.mgmt.test.running = some g3b) ∧ (g3b.onChan = true) ∧ (1 < g3b.wins) ∧ ((d.chan 16).state ≠ ChState.retrain))) = true ∧
    (let d : Device := (s256 dM 0x90 0 (pk 8192) dat); let io : AdminIo := ioD dat; decide ((okAnd (d.adminIn (d.adminAt 256 2) 256 2 none io) fun (bs : List Byte) => decide ((d.servesNow 144 256 2 io) ∧ ((d.adminAt 256 2).param 0 4 % 4096 = 0) ∧ ((d.adminAt 256 2).param 0 4 + bs.length ≤ 16777216))) = true)) = true ∧
    (let d : Device := (s256 dM 0x90 0 (pk 8193) dat); let io : AdminIo := ioD dat; decide ((okAnd (d.adminIn (d.adminAt 256 2) 256 2 none io) fun (bs : List Byte) => decide ((d.servesNow 144 256 2 io) ∧ ((d.adminAt 256 2).param 0 4 % 4096 ≠ 0 ∨ 16777216 < (d.adminAt 256 2).param 0 4 + bs.length))) = true)) = true ∧
    (let d : Device := (s256 dIm 0x91 1 (pk 0)); decide ((d.servesNow 145 256 2 noIo) ∧ ((d.adminAt 256 2).target = 1 ∨ (d.adminAt 256 2).target = 2) ∧ ((d.adminAt 256 2).target ≠ d.mgmt.slot) ∧ (d.imageCheck d.stagedImage = none) ∧ ((d.adminAt 256 2).param 0 1 < 2))) = true ∧
    (let d : Device := (s256 dIm 0x91 2 (pk 2)); decide ((d.servesNow 145 256 2 noIo) ∧ ((d.adminAt 256 2).target = 1 ∨ (d.adminAt 256 2).target = 2) ∧ ((d.adminAt 256 2).target ≠ d.mgmt.slot) ∧ (d.imageCheck d.stagedImage = none) ∧ ((d.adminAt 256 2).param 0 1 = 2) ∧ (d.ens.activation = none) ∧ (d.ens.holder.isSome = true))) = true ∧
    (let d : Device := (s256 dM 0x91 2 (pk 1)); decide ((d.servesNow 145 256 2 noIo) ∧ ((d.adminAt 256 2).target = 1 ∨ (d.adminAt 256 2).target = 2) ∧ ((d.adminAt 256 2).target ≠ d.mgmt.slot) ∧ ((d.imageCheck d.stagedImage).any fun (k : Nat) => decide (((d.adminAt 256 2).param 0 1 < 2))) = true)) = true ∧
    (let d : Device := (s256 dIm 0x91 0 (pk 1)); decide ((d.servesNow 145 256 2 noIo) ∧ ((d.adminAt 256 2).target = d.mgmt.slot))) = true ∧
    (let d : Device := (s256 dVal 0x92 2 (pk 0)); decide ((d.servesNow 146 256 2 noIo) ∧ (d.bootable (d.adminAt 256 2).target = true) ∧ ((d.adminAt 256 2).param 0 1 = 0))) = true ∧
    (let d : Device := (s256 dVal 0x92 2 (pk 1)); decide ((d.servesNow 146 256 2 noIo) ∧ (d.bootable (d.adminAt 256 2).target = true) ∧ ((d.adminAt 256 2).param 0 1 = 1) ∧ (d.ens.activation = none) ∧ (d.ens.holder.isSome = true))) = true ∧
    (let d : Device := (s256 dVal 0x92 0 (pk 1)); decide ((d.servesNow 146 256 2 noIo) ∧ (d.bootable (d.adminAt 256 2).target = false))) = true ∧
    (let d : Device := (s256 dVal 0x93 0 (pk 1)); decide ((d.servesNow 147 256 2 noIo) ∧ (d.otherSlot d.mgmt.slot = some 2) ∧ (d.ens.activation = none) ∧ (d.ens.holder.isSome = true))) = true ∧
    (let d : Device := (s256 dM 0x93 0 (pk 1)); decide ((d.servesNow 147 256 2 noIo) ∧ (d.otherSlot d.mgmt.slot = none))) = true := by
  refine ⟨?_, ?_, ?_, ?_, ?_, ?_, ?_, ?_, ?_, ?_, ?_, ?_, ?_, ?_, ?_, ?_, ?_, ?_, ?_, ?_, ?_, ?_⟩ <;> decide +kernel

/-- The hypotheses of LinksComeUpAndDrop are met, clause by clause. -/
theorem witness_LinksComeUpAndDrop :
    (let d : Device := (dLk {}); decide ((d.linkMayTrain 6 = true) ∧ ((d.link 6).state = LinkState.training) ∧ (900 < 901))) = true ∧
    (let d : Device := (dLk {}); decide ((d.linkMayTrain 6 = true) ∧ ((d.link 6).state = LinkState.training) ∧ (900 ≤ 900) ∧
      (d.linkMayTrain 6 = true) ∧ ((d.link 6).state = LinkState.training ∨ (d.link 6).state = LinkState.locked))) = true ∧
    (let d : Device := (dLk (up1 .locked)); decide ((0 < 2) ∧ ((d.link 6).state ≠ LinkState.training) ∧ ((d.link 6).state ≠ LinkState.off) ∧ (((d.link 6).lane 0).up = true))) = true ∧
    (let d : Device := (dLk (up1 .locked)); let p : List Byte := hl 12 0 3 0x20000 5; decide (((d.link 6).state ≠ LinkState.training) ∧ ((d.link 6).state ≠ LinkState.off) ∧ (¬fieldAt p 40 4 / 65536 = 1))) = true ∧
    (let d : Device := (dLk (up1 .locked)); let p : List Byte := hl 12 0 3 0x10000 6; decide (((d.link 6).state ≠ LinkState.training) ∧ ((d.link 6).state ≠ LinkState.off) ∧ (fieldAt p 40 4 / 65536 = 1) ∧ (¬(fieldAt p 8 8 = BitVec.toNat d.shoal.id ∧ List.take 32 (List.drop 64 p) = hailMac d.shoal (List.take 64 p))))) = true ∧
    (let d : Device := (dLk (up1 .locked)); let p : List Byte := hl 12 1 3 0x10000 5; decide (((d.link 6).state ≠ LinkState.training) ∧ ((d.link 6).state ≠ LinkState.off) ∧ (fieldAt p 40 4 / 65536 = 1) ∧ (fieldAt p 8 8 = BitVec.toNat d.shoal.id) ∧ (List.take 32 (List.drop 64 p) = hailMac d.shoal (List.take 64 p)) ∧ (fieldAt p 6 1 = 1) ∧ (d.inShoal = true))) = true ∧
    (let d : Device := (dLk (up1 .locked)); let p : List Byte := hl (pt+1) 0 3 0x10000 5; decide (((d.link 6).state ≠ LinkState.training) ∧ ((d.link 6).state ≠ LinkState.off) ∧ (fieldAt p 40 4 / 65536 = 1) ∧ (fieldAt p 8 8 = BitVec.toNat d.shoal.id) ∧ (List.take 32 (List.drop 64 p) = hailMac d.shoal (List.take 64 p)) ∧ (fieldAt p 6 1 ≠ 1) ∧ (d.inShoal = true) ∧ (d.shoal.partnerOf 6 ≠ some (fieldAt p 2 2)))) = true ∧
    (let d : Device := (dLk (up1 .locked)); let p : List Byte := hl pt 0 3 0x10000 5; decide (((d.link 6).state ≠ LinkState.training) ∧ ((d.link 6).state ≠ LinkState.off) ∧ (fieldAt p 40 4 / 65536 = 1) ∧ (fieldAt p 8 8 = BitVec.toNat d.shoal.id) ∧ (List.take 32 (List.drop 64 p) = hailMac d.shoal (List.take 64 p)) ∧ (d.inShoal = false ∨ fieldAt p 6 1 ≠ 1 ∧ d.shoal.partnerOf 6 = some (fieldAt p 2 2)))) = true ∧
    (let d : Device := (dLk (up1 .up)); decide ((1 < 2) ∧ ((d.link 6).state = LinkState.up) ∧ (((d.link 6).lane 1).up = true) ∧ (0 < 8) ∧
      (1 < 2) ∧ ((d.link 6).state = LinkState.up) ∧ (((d.link 6).lane 1).up = true) ∧ (true = true ∨ 12 ≤ 0) ∧ (((d.link 6).lane 1).critRun + 1 < 3) ∧
      (1 < 2) ∧ ((d.link 6).state = LinkState.up) ∧ (((d.link 6).lane 1).up = true) ∧
      ((d.link 6).state = LinkState.up ∨ (d.link 6).state = LinkState.mgmtOnly))) = true ∧
    (let d : Device := (dLk (up1 .up)); decide ((1 < 2) ∧ ((d.link 6).state = LinkState.up) ∧ (((d.link 6).lane 1).up = true) ∧ (8 ≤ 8) ∧ (8 < 12))) = true ∧
    (let d : Device := (dLk { up1 .up with lane1 := { up := true, critRun := 2 } }); decide ((1 < 2) ∧ ((d.link 6).state = LinkState.up) ∧ (((d.link 6).lane 1).up = true) ∧ (false = true ∨ 12 ≤ 12) ∧ (3 ≤ ((d.link 6).lane 1).critRun + 1) ∧ (d.frozen = false) ∧ (((d.link 6).lane (1 - 1)).up = true))) = true ∧
    (let d : Device := (frz (dLk { up1 .up with lane1 := { up := true, critRun := 2 } })); decide ((1 < 2) ∧ ((d.link 6).state = LinkState.up) ∧ (((d.link 6).lane 1).up = true) ∧ (false = true ∨ 12 ≤ 12) ∧ (3 ≤ ((d.link 6).lane 1).critRun + 1) ∧ (d.frozen = true))) = true ∧
    (let d : Device := (dLk { up1 .up with lane1 := { up := false, retrainAt := some 5 } }); let p : LaneProbe := pr 500 true true; decide ((1 < 2) ∧ ((d.link 6).state = LinkState.up) ∧ (((d.link 6).lane 1).retrainAt.isSome = true) ∧ (laneTrains (d.link 6).full p = true))) = true ∧
    (let d : Device := (dLk { up1 .up with lane1 := { up := false, retrainAt := some 5 } }); let p : LaneProbe := pr 705 true true; decide ((1 < 2) ∧ ((d.link 6).state = LinkState.up) ∧ (((d.link 6).lane 1).retrainAt.isSome = true) ∧ (laneTrains (d.link 6).full p = false))) = true ∧
    (let d : Device := (dLk { up1 .up with lane0 := {}, lane1 := { up := true, critRun := 2 } }); decide (((d.link 6).state = LinkState.up ∨ (d.link 6).state = LinkState.mgmtOnly) ∧ (1 < 2) ∧ ((d.link 6).state = LinkState.up) ∧ (((d.link 6).lane 1).up = true) ∧ (((d.link 6).lane (1 - 1)).up = false) ∧ (false = true ∨ 12 ≤ 12) ∧ (3 ≤ ((d.link 6).lane 1).critRun + 1) ∧ (d.frozen = false) ∧
      ((d.link 6).state = LinkState.up ∨ (d.link 6).state = LinkState.mgmtOnly) ∧ (∀ (i : Nat), i ∈ (d.link 6).lanes → Nat.testBit 2 i = true))) = true := by
  refine ⟨?_, ?_, ?_, ?_, ?_, ?_, ?_, ?_, ?_, ?_, ?_, ?_, ?_, ?_, ?_⟩ <;> decide +kernel

/-- The hypotheses of FlitsReplayAndLinkTests are met, clause by clause. -/
theorem witness_FlitsReplayAndLinkTests :
    (let bs : List Byte := fl0 1 4 5 12 77 0x14 3 20 0; decide (((dRx.link 6).state = LinkState.up ∨ (dRx.link 6).state = LinkState.mgmtOnly) ∧ ((List.filter (fun t => decide (dRx.now < t + 1000000)) (dRx.link 6).replays).length + 1 < 64) ∧
      (bs.length = 256) ∧ ((dRx.link 6).state = LinkState.up ∨ (dRx.link 6).state = LinkState.mgmtOnly) ∧ (BitVec.toNat (crc32 (List.take 252 bs)) = fieldAt bs 252 4) ∧ (fieldAt bs 0 1 % 16 = 1) ∧ (fieldAt bs 1 2 % 4096 = (dRx.link 6).rxSeq) ∧ (fieldAt bs 15 1 % 4 = 3) ∧ (fieldAt bs 8 2 = dRx.shoal.device) ∧ (BitVec.toNat (crc32c (List.take 10 (List.take 240 (List.drop 8 bs)) ++ [0] ++ List.drop 11 (List.take 240 (List.drop 8 bs)))) = fieldAt bs 248 4) ∧ (kindVc (fieldAt bs 14 1) ≠ none) ∧ (fieldAt bs 18 1 % 2 = 0))) = true ∧
    (let d : Device := (dLk { up1 .up with sent := [⟨5, 0, true, List.replicate 256 1, 3, true, false⟩], replays := List.replicate 63 600000 }); decide (((d.link 6).state = LinkState.up ∨ (d.link 6).state = LinkState.mgmtOnly) ∧ (64 ≤ (List.filter (fun t => decide (d.now < t + 1000000)) (d.link 6).replays).length + 1))) = true ∧
    (let bs : List Byte := fl0 1 4 5 12 77 0x14 3 20 0; decide ((bs.length = 256) ∧ ((dRx.link 6).state = LinkState.up ∨ (dRx.link 6).state = LinkState.mgmtOnly) ∧ ((dRx.link 6).reqAt = none))) = true ∧
    (let bs : List Byte := lmod 3 (fun _ => (1 : Byte)) (fl0 2 5 5 12 77 0x01 3 224 0); decide ((bs.length = 256) ∧ ((dRx.link 6).state = LinkState.up ∨ (dRx.link 6).state = LinkState.mgmtOnly) ∧ ((dRx.link 6).reqAt = none) ∧ (¬BitVec.toNat (crc32 (List.take 252 bs)) = fieldAt bs 252 4))) = true ∧
    (let bs : List Byte := fl0 2 5 5 12 77 0x01 3 224 0; decide ((bs.length = 256) ∧ ((dRx.link 6).state = LinkState.up ∨ (dRx.link 6).state = LinkState.mgmtOnly) ∧ (BitVec.toNat (crc32 (List.take 252 bs)) = fieldAt bs 252 4) ∧ (fieldAt bs 0 1 % 16 = 2))) = true ∧
    (let bs : List Byte := fl0 1 4 5 12 77 0x01 3 224 1; decide ((bs.length = 256) ∧ ((dRx2.link 6).state = LinkState.up ∨ (dRx2.link 6).state = LinkState.mgmtOnly) ∧ (BitVec.toNat (crc32 (List.take 252 bs)) = fieldAt bs 252 4) ∧ (fieldAt bs 0 1 % 16 = 1) ∧ (fieldAt bs 1 2 % 4096 = (dRx2.link 6).rxSeq) ∧ (fieldAt bs 15 1 % 4 = 3) ∧ (fieldAt bs 8 2 = dRx2.shoal.device) ∧ (BitVec.toNat (crc32c (List.take 10 (List.take 240 (List.drop 8 bs)) ++ [0] ++ List.drop 11 (List.take 240 (List.drop 8 bs)))) = fieldAt bs 248 4) ∧ (kindVc (fieldAt bs 14 1) ≠ none) ∧ (fieldAt bs 18 1 % 2 = 1) ∧ ((fieldAt bs 10 2, fieldAt bs 12 2, fieldAt bs 14 1) ∈ dRx2.shoal.record))) = true ∧
    (decide ((badE.length = 256) ∧ ((dRx.link 6).state = LinkState.up ∨ (dRx.link 6).state = LinkState.mgmtOnly) ∧ (BitVec.toNat (crc32 (List.take 252 badE)) = fieldAt badE 252 4) ∧ (fieldAt badE 0 1 % 16 = 1) ∧ (fieldAt badE 1 2 % 4096 = (dRx.link 6).rxSeq) ∧ (fieldAt badE 15 1 % 4 = 3) ∧ (fieldAt badE 8 2 = dRx.shoal.device) ∧ (¬BitVec.toNat (crc32c (List.take 10 (List.take 240 (List.drop 8 badE)) ++ [0] ++ List.drop 11 (List.take 240 (List.drop 8 badE)))) = fieldAt badE 248 4))) = true ∧
    (decide ((dRx.isAdminPf 0 = true) ∧ (6 < 32) ∧
      (dRx.isAdminPf 0 = true) ∧ (6 < 32) ∧ ((dRx.link 6).state = LinkState.up) ∧ ((dRx.link 6).ctlHold = false))) = true ∧
    (let d : Device := (dLk (up1 .held)); decide ((d.isAdminPf 0 = true) ∧ (6 < 32) ∧ ((d.link 6).state ≠ LinkState.up ∨ (d.link 6).ctlHold = true))) = true ∧
    (decide ((dRx.link 6).queue = [])) = true := by
  refine ⟨?_, ?_, ?_, ?_, ?_, ?_, ?_, ?_, ?_, ?_⟩ <;> decide +kernel

/-- The hypotheses of MessageRecordDropsRepeats are met, clause by clause. -/
theorem witness_MessageRecordDropsRepeats :
    (let d : Device := (dSh_2 {}); decide ((d.inShoal = false ∨ d.ready = false))) = true ∧
    (let d : Device := (dRec sh0); decide ((d.inShoal = true) ∧ (d.ready = true) ∧ ((12, 77, 1) ∈ d.shoal.record) ∧ (d.shoal.inbox = []) ∧ ((d.link (d.portOfDev 12 77)).counters.length = 16))) = true ∧
    (let d : Device := (dRec sh0); let b : List (BitVec 8) := leBytes 64 0; decide ((d.hears 1 12 77 false b))) = true := by
  refine ⟨?_, ?_, ?_⟩ <;> decide +kernel

/-- The hypotheses of ShoalQueries are met, clause by clause. -/
theorem witness_ShoalQueries :
    (let d : Device := (dSh_2 sh0); decide (((ioOpOf (fieldAt hq 0 1)).any fun (op : IoOp) => decide (((d.index? (fieldAt hq 2 2)).any fun (x : Index) => decide ((op.isSearch = true) ∧ (d.hears 1 12 77 false hq) ∧ (d.quiesced = false) ∧ (1 = 1 → d.shoal.complete = true) ∧ (1 = 3 → fieldAt hq 12 2 ≠ d.shoal.device) ∧ (∀ (c : Nat × Nat × Nat), c ∈ d.shoal.cancels → c.fst = fieldAt hq 12 2 → c.snd.fst = fieldAt hq 56 2 → c.snd.snd + 1000000 < d.now))) = true)) = true ∧
      (d.hears 2 12 77 false hq) ∧ (∀ (o : Outstanding), o ∈ d.shoal.pending → ¬(o.kind = 1 ∧ o.tag = 77)))) = true ∧
    (let d : Device := (dSh_2 sh0); decide ((d.hears 4 12 77 false hq) ∧ (∀ (o : Outstanding), o ∈ d.shoal.pending → o.tag = 77 → o.kind ≠ 1 ∧ o.kind ≠ 3) ∧
      (d.hears 7 12 77 false hq) ∧ (∀ (c : Cmd), c ∈ d.cmds → ¬∃ r, c.remote = some r ∧ r.device = fieldAt hq 12 2 ∧ r.tag = fieldAt hq 56 2 ∧ r.kind ≠ 8))) = true ∧
    (let d : Device := (dSh_2 sh0); decide ((∀ (c : Nat × Nat × Nat), c ∈ d.shoal.cancels → ¬(c.fst = 3 ∧ c.snd.fst = 3)))) = true ∧
    (let d : Device := (dSh_2 { sh0 with cancels := [(12, 9, 5), (12, 8, 4)] }); decide (((ioOpOf (fieldAt hq 0 1)).any fun (op : IoOp) => decide (((d.index? (fieldAt hq 2 2)).any fun (x : Index) => decide ((op.isSearch = true) ∧ (d.hears 1 12 77 false hq) ∧ (1 = 1 → d.shoal.complete = true) ∧ (1 = 3 → fieldAt hq 12 2 ≠ d.shoal.device) ∧ (∃ c, c ∈ d.shoal.cancels ∧ c.fst = fieldAt hq 12 2 ∧ c.snd.fst = fieldAt hq 56 2 ∧ d.now ≤ c.snd.snd + 1000000))) = true)) = true)) = true ∧
    (let d : Device := (dSh_2 { sh0 with complete := false }); decide (((ioOpOf (fieldAt hq 0 1)).any fun (op : IoOp) => decide (((d.index? (fieldAt hq 2 2)).any fun (x : Index) => decide ((op.isSearch = true) ∧ ((List.find? (fun h => h != d.shoal.device && d.serves h) d.holders).any fun (h : Nat) => decide ((d.hears 1 12 77 false hq) ∧ (d.shoal.complete = false))) = true)) = true)) = true)) = true ∧
    (let d : Device := (dSh_2 sh0); decide (((ioOpOf (fieldAt hq5 0 1)).any fun (op : IoOp) => decide (((d.index? (fieldAt hq5 2 2)).any fun (x : Index) => decide ((op.isSearch = true) ∧ (d.hears 3 12 77 false hq5) ∧ (fieldAt hq5 12 2 = d.shoal.device))) = true)) = true)) = true ∧
    (let d : Device := (dPend 1); decide ((d.hears 2 12 9 false rp) ∧ ((List.find? (fun o => o.kind == 1 && o.tag == 9) d.shoal.pending).any fun (o : Outstanding) => decide ((o.dst = 12) ∧ (List.find? (fun k => k.rrt.any fun r => r.tag == 9) d.ctxs = none ∧ ∃ o, o ∈ d.shoal.pending ∧ o.tag = 9))) = true)) = true ∧
    (let d : Device := (dRrt 1 .remote .cancelled); decide ((d.hears 2 12 9 false rp) ∧ ((List.find? (fun o => o.kind == 1 && o.tag == 9) d.shoal.pending).any fun (o : Outstanding) => decide ((o.dst = 12) ∧ ((List.find? (fun k => k.rrt.any fun r => r.tag == 9) d.ctxs).any fun (k : Ctx) => decide (((List.find? (fun r => r.tag == 9) k.rrt).any fun (r : RrtEntry) => decide ((r.state = RrtState.cancelled))) = true)) = true)) = true)) = true ∧
    (let d : Device := (dRrt 1 .spilled .waiting); decide ((d.hears 2 12 9 false rp) ∧ ((List.find? (fun o => o.kind == 1 && o.tag == 9) d.shoal.pending).any fun (o : Outstanding) => decide ((o.dst = 12) ∧ ((List.find? (fun k => k.rrt.any fun r => r.tag == 9) d.ctxs).any fun (k : Ctx) => decide (((List.find? (fun r => r.tag == 9) k.rrt).any fun (r : RrtEntry) => decide ((r.state ≠ RrtState.cancelled) ∧ (k.state = CtxState.spilled))) = true)) = true)) = true)) = true ∧
    (let d : Device := (dPend 3); decide ((d.hears 4 12 9 false rp) ∧ ((List.find? (fun o => o.kind == 3 && o.tag == 9 && posOf o.dst == posOf 12) d.shoal.pending).any fun (o : Outstanding) => decide (((d.cmd? o.stamp).any fun (c : Cmd) => decide ((List.find? (fun k => k.rrt.any fun r => r.tag == 9) d.ctxs = none ∧ ∃ o, o ∈ d.shoal.pending ∧ o.tag = 9) ∧ (∀ (p : Nat), p ∈ c.shardsIn → posOf p ≠ posOf o.dst))) = true)) = true)) = true ∧
    (let b : List Byte := hd 1 3 12 9 0; decide ((dTask.hears 7 12 78 false b) ∧ (∃ c, c ∈ dTask.cmds ∧ ∃ r, c.remote = some r ∧ r.device = fieldAt b 12 2 ∧ r.tag = fieldAt b 56 2 ∧ r.kind ≠ 8))) = true ∧
    (let d : Device := (dSh_2 { sh0 with cancels := [(12, 9, 500000), (12, 8, 4)] }); decide (((List.find? (fun c => c.fst == 12 && c.snd.fst == 9) d.shoal.cancels).any fun (c : Nat × Nat × Nat) => decide (True)) = true)) = true := by
  refine ⟨?_, ?_, ?_, ?_, ?_, ?_, ?_, ?_, ?_, ?_, ?_, ?_⟩ <;> decide +kernel

/-- The hypotheses of ShoalWritesAndShipments are met, clause by clause. -/
theorem witness_ShoalWritesAndShipments :
    (let d : Device := (dW_2 { sh0 with fwdNext := [(12, 3)], fwdKept := [(12, 1, [1, 2])] }); let b : List Byte := wr 1 0x08 3 1000 true; let q : WriteReq := wq (wr 1 0x08 3 1000 true); decide ((d.hears 8 12 77 false b) ∧ (readWrite b = some (1, 3, q)) ∧ (∀ (m : Msg), m ∈ d.shoal.inbox → ¬(m.kind = 8 ∧ m.src = 12)) ∧ ((List.find? (fun k => k.fst == 12 && k.snd.fst == 1) d.shoal.fwdKept).any fun (k : Nat × Nat × List Byte) => decide ((1 < tget 1 12 d.shoal.fwdNext))) = true)) = true ∧
    (let d : Device := (dW_2 sh0); let b : List Byte := wr 2 0x0A 3 1000 false; let m : Msg := (⟨12, 5, 77, 8, 0, tagsOf 8 0, true, false, false, 0, 0, 0, wr 2 0x0A 3 1000 false, none⟩ : Msg); let q : WriteReq := wq (wr 2 0x0A 3 1000 false); decide ((d.hears 8 12 77 false b) ∧ (readWrite b = some (2, 3, q)) ∧ (∀ (m : Msg), m ∈ d.shoal.inbox → ¬(m.kind = 8 ∧ m.src = 12)) ∧ (tget 1 12 d.shoal.fwdNext < 2))) = true ∧
    (let d : Device := (dW_2 sh0); let b : List Byte := wr 1 0x08 3 1000 true; let q : WriteReq := wq (wr 1 0x08 3 1000 true); decide ((d.hears 8 12 77 false b) ∧ (readWrite b = some (1, 3, q)) ∧ (∀ (m : Msg), m ∈ d.shoal.inbox → ¬(m.kind = 8 ∧ m.src = 12)) ∧ (1 = tget 1 12 d.shoal.fwdNext) ∧ ((d.index? 3).any fun (x : Index) => decide (((d.shoalIndex? 3).any fun (si : ShoalIndex) => decide ((d.homeOf si q.id = some d.shoal.device))) = true)) = true ∧
      ((d.index? 3).any fun (x : Index) => decide ((d.hears 16 12 77 false b) ∧ (readWrite b = some (1, 3, q)) ∧ (∀ (m : Msg), m ∈ d.shoal.inbox → ¬(m.kind = 16 ∧ m.src = 12)) ∧ (1 ≤ x.writeSeq))) = true)) = true ∧
    (let d : Device := (dW_2 sh0); let b : List Byte := wr 1 0x0A 4 1000 false; let q : WriteReq := wq (wr 1 0x0A 4 1000 false); decide ((d.hears 8 12 77 false b) ∧ (readWrite b = some (1, 4, q)) ∧ (∀ (m : Msg), m ∈ d.shoal.inbox → ¬(m.kind = 8 ∧ m.src = 12)) ∧ (1 = tget 1 12 d.shoal.fwdNext) ∧ (d.index? 4 = none))) = true ∧
    (let d : Device := (dW_2 shH); let b : List Byte := wr 1 0x0A 3 1000 false; let q : WriteReq := wq (wr 1 0x0A 3 1000 false); decide ((d.hears 8 12 77 false b) ∧ (readWrite b = some (1, 3, q)) ∧ (∀ (m : Msg), m ∈ d.shoal.inbox → ¬(m.kind = 8 ∧ m.src = 12)) ∧ (1 = tget 1 12 d.shoal.fwdNext) ∧ ((d.index? 3).any fun (x : Index) => decide (((d.shoalIndex? 3).any fun (si : ShoalIndex) => decide ((d.homeOf si q.id ≠ some d.shoal.device) ∧ (x.findSlot q.id = none))) = true)) = true)) = true ∧
    (let d : Device := (dW_2 sh0); let b : List Byte := wr 1 0x08 3 1000 true; decide ((d.hears 9 12 77 false b) ∧ (∀ (f : Forwarded), f ∈ d.shoal.forwarded → ¬(f.tag = 77 ∧ f.home = 12)) ∧
      (∀ (f : Forwarded), f ∈ d.shoal.forwarded → f.tag ≠ 1))) = true ∧
    (let d : Device := (dW_2 sh0); let b : List Byte := wr 1 0x08 3 1000 true; decide ((d.hears 17 12 77 false b) ∧ (∀ (o : Outstanding), o ∈ d.shoal.pending → ¬(o.kind = 16 ∧ o.tag = 77 ∧ o.dst = 12)) ∧
      (d.hears 10 12 77 false b) ∧ (d.index? (fieldAt b (8 * 0) 8) = none))) = true ∧
    (let d : Device := (dW_2 sh0); let b : List Byte := wr 1 0x08 3 1000 true; decide ((d.hears 11 12 77 false b) ∧ (∀ (o : Outstanding), o ∈ d.shoal.pending → ¬(o.kind = 10 ∧ o.tag = 77)) ∧
      (d.hears 12 12 77 false b) ∧ (d.index? (fieldAt b (8 * 0) 8) = none))) = true ∧
    (let d : Device := (dW_2 sh0); let b : List Byte := wr 1 0x08 3 1000 true; decide ((d.hears 13 12 77 false b) ∧ (∀ (o : Outstanding), o ∈ d.shoal.pending → ¬(o.kind = 12 ∧ o.tag = 77 ∧ o.dst = 12)) ∧
      (d.hears 14 12 77 false b) ∧ (d.index? (fieldAt b (8 * 1) 8) = none))) = true ∧
    (let d : Device := (dW_2 sh0); let b : List Byte := wr 1 0x08 3 1000 true; decide ((d.hears 15 12 77 false b) ∧ (List.find? (fun o => o.kind == 14 && o.tag == 77 && o.dst == 12) d.shoal.pending = none) ∧
      (d.hears 18 12 77 false b))) = true ∧
    (let b : List Byte := words [0, 10]; decide ((dFw.hears 9 12 77 false b) ∧ ((List.find? (fun f => f.tag == 77 && f.home == 12) dFw.shoal.forwarded).any fun (f : Forwarded) => decide (((dFw.cmd? f.stamp).any fun (c : Cmd) => decide (True)) = true)) = true ∧
      ((List.find? (fun f => f.tag == 77) dFw.shoal.forwarded).any fun (f : Forwarded) => decide (True)) = true)) = true ∧
    (let d : Device := (dW_2 shM); let b : List Byte := wr 10 0x08 3 1000 true; let q : WriteReq := wq (wr 10 0x08 3 1000 true); decide (((d.index? 3).any fun (x : Index) => decide ((d.hears 16 261 77 false b) ∧ (readWrite b = some (10, 3, q)) ∧ (∀ (m : Msg), m ∈ d.shoal.inbox → ¬(m.kind = 16 ∧ m.src = 261)) ∧ (10 = x.writeSeq + 1))) = true)) = true ∧
    (let d : Device := (dW_2 shM); let b : List Byte := wr 11 0x0A 3 1000 false; let m : Msg := (⟨261, 5, 77, 16, 0, tagsOf 16 0, true, false, false, 0, 0, 0, wr 11 0x0A 3 1000 false, none⟩ : Msg); let q : WriteReq := wq (wr 11 0x0A 3 1000 false); decide (((d.index? 3).any fun (x : Index) => decide ((d.hears 16 261 77 false b) ∧ (readWrite b = some (11, 3, q)) ∧ (∀ (m : Msg), m ∈ d.shoal.inbox → ¬(m.kind = 16 ∧ m.src = 261)) ∧ (x.writeSeq + 1 < 11))) = true)) = true ∧
    (let b : List Byte := words [0]; decide ((dMr.hears 17 261 77 false b) ∧ ((List.find? (fun o => o.kind == 16 && o.tag == 77 && o.dst == 261) dMr.shoal.pending).any fun (o : Outstanding) => decide (((dMr.cmd? o.stamp).any fun (c : Cmd) => decide (True)) = true)) = true)) = true ∧
    (let d : Device := { dW_2 sh0 with quiesced := true }; let b : List Byte := gf 3 7 3 12 99; decide ((d.hears 10 12 77 false b) ∧ ((d.index? (fieldAt b (8 * 0) 8)).any fun (x : Index) => decide (((d.shoalIndex? (fieldAt b (8 * 0) 8)).any fun (si : ShoalIndex) => decide ((d.quiesced = true))) = true)) = true)) = true ∧
    (let d : Device := (dW_2 sh0); let b : List Byte := gf 3 1000 3 12 99; decide ((d.hears 10 12 77 false b) ∧ ((d.index? (fieldAt b (8 * 0) 8)).any fun (x : Index) => decide (((d.shoalIndex? (fieldAt b (8 * 0) 8)).any fun (si : ShoalIndex) => decide ((d.quiesced = false) ∧ ((Option.map (fun p => p.snd.snd) (x.lookup (BitVec.ofNat 64 (fieldAt b (8 * 1) 8)))).or (x.findSlot (BitVec.ofNat 64 (fieldAt b (8 * 1) 8))) = none))) = true)) = true)) = true ∧
    (let d : Device := (dW_2 sh0); let b : List Byte := gf 3 7 3 12 99; let l : Loc := (Loc.slot 0 0); let kind : Nat := (getK x3g 7 3 (.slot 0 0)).1; let out : List Byte := (getK x3g 7 3 (.slot 0 0)).2; decide ((d.hears 10 12 77 false b) ∧ ((d.index? (fieldAt b (8 * 0) 8)).any fun (x : Index) => decide (((d.shoalIndex? (fieldAt b (8 * 0) 8)).any fun (si : ShoalIndex) => decide ((d.quiesced = false) ∧ ((Option.map (fun p => p.snd.snd) (x.lookup (BitVec.ofNat 64 (fieldAt b (8 * 1) 8)))).or (x.findSlot (BitVec.ofNat 64 (fieldAt b (8 * 1) 8))) = some l) ∧ (∀ (q : Loc × W64), q ∈ x.away → q.fst ≠ l) ∧ (x.getBytes (BitVec.ofNat 64 (fieldAt b (8 * 1) 8)) (fieldAt b (8 * 2) 8) l = some (kind, out)))) = true)) = true)) = true ∧
    (let b : List Byte := gf 3 7 1 6 99; let l : Loc := (Loc.slot 0 0); decide ((dAw.hears 10 6 77 false b) ∧ ((dAw.index? (fieldAt b (8 * 0) 8)).any fun (x : Index) => decide (((dAw.shoalIndex? (fieldAt b (8 * 0) 8)).any fun (si : ShoalIndex) => decide ((dAw.quiesced = false) ∧ ((Option.map (fun p => p.snd.snd) (x.lookup (BitVec.ofNat 64 (fieldAt b (8 * 1) 8)))).or (x.findSlot (BitVec.ofNat 64 (fieldAt b (8 * 1) 8))) = some l) ∧ (Option.any (fun h => posOf h == posOf dAw.shoal.device) (dAw.homeOf si (BitVec.ofNat 64 (fieldAt b (8 * 1) 8))) = true) ∧ (∃ q, q ∈ x.away ∧ q.fst = l) ∧ (dAw.holderOf si l = some 12) ∧ (dAw.serves 12 = true))) = true)) = true)) = true ∧
    (let b : List Byte := words [0, 2] ++ List.replicate 32 5; decide ((dGr.hears 11 12 77 false b) ∧ ((List.find? (fun o => o.kind == 10 && o.tag == 77) dGr.shoal.pending).any fun (o : Outstanding) => decide (((dGr.cmd? o.stamp).any fun (c : Cmd) => decide ((c.remote = none) ∧ (dGr.hostThere c.fn) ∧ ((dGr.qp c.fn c.qid).isSome = true))) = true)) = true)) = true ∧
    (let d : Device := (dW_2 sh0); decide ((d.hears 12 12 77 false asg) ∧ ((d.index? (fieldAt asg (8 * 0) 8)).any fun (x : Index) => decide (True)) = true)) = true ∧
    (let d : Device := (dW_2 { sh0 with pending := [⟨77, 0x0C, 7, 12, 5⟩] }); let b : List Byte := words [4, 0]; decide ((d.hears 13 12 77 false b) ∧ ((List.find? (fun o => o.kind == 12 && o.tag == 77 && o.dst == 12) d.shoal.pending).any fun (o : Outstanding) => decide ((∀ (k : ShipBatch), k ∈ d.shoal.ships → k.tag ≠ 77))) = true)) = true ∧
    (let b : List Byte := shp 0 3 55 2 (item 4 0 500 ++ item 5 0 501); let ss : List ShipSlot := shS (shp 0 3 55 2 (item 4 0 500 ++ item 5 0 501)); decide ((dxs.hears 14 12 77 false b) ∧ ((dxs.index? (fieldAt b (8 * 1) 8)).any fun (x : Index) => decide ((fieldAt b (8 * 0) 8 = 0) ∧ ((dxs.heard 14 12 77).placesFor (fieldAt b (8 * 1) 8) x (List.map x.readItem (recordsOf x.itemLen (fieldAt b (8 * 4) 8) (List.drop 40 b))) [] = some ss))) = true)) = true ∧
    (let b : List Byte := shp 0 3 55 2 (item 4 0 500 ++ item 5 2 501); decide ((dxs.hears 14 12 77 false b) ∧ ((dxs.index? (fieldAt b (8 * 1) 8)).any fun (x : Index) => decide ((fieldAt b (8 * 0) 8 = 0) ∧ ((dxs.heard 14 12 77).placesFor (fieldAt b (8 * 1) 8) x (List.map x.readItem (recordsOf x.itemLen (fieldAt b (8 * 4) 8) (List.drop 40 b))) [] = none))) = true)) = true ∧
    (let b : List Byte := shp 2 3 55 1 srec; decide ((dxs.hears 14 12 77 false b) ∧ ((dxs.index? (fieldAt b (8 * 1) 8)).any fun (x : Index) => decide ((fieldAt b (8 * 0) 8 = 2) ∧ (fieldAt b (8 * 2) 8 ≠ atOnce))) = true)) = true ∧
    (let b : List Byte := shp 6 3 55 2 (item 4 0 500 ++ item 5 2 501); decide ((dxs.hears 14 12 77 false b) ∧ ((dxs.index? (fieldAt b (8 * 1) 8)).any fun (x : Index) => decide ((6 ≤ fieldAt b (8 * 0) 8))) = true)) = true ∧
    (let b : List Byte := words [1, 0, 6]; let q : ShipBatch := shQ (words [1, 0, 6]); let es : List Nat := [4]; decide ((dSr.hears 15 12 77 false b) ∧ ((List.find? (fun o => o.kind == 14 && o.tag == 77 && o.dst == 12) dSr.shoal.pending).any fun (o : Outstanding) => decide (((List.find? (fun k => k.waiting.any fun p => p.fst == 77) dSr.shoal.ships).any fun (k : ShipBatch) => decide ((∀ (q : ShipBatch), q ∈ dSr.shoal.ships → q.tag = k.tag → q = k) ∧ (List.find? (fun p => p.fst == 77) k.waiting = some (77, es)) ∧ (∃ p, p ∈ k.waiting ∧ p.fst ≠ 77))) = true)) = true)) = true := by
  refine ⟨?_, ?_, ?_, ?_, ?_, ?_, ?_, ?_, ?_, ?_, ?_, ?_, ?_, ?_, ?_, ?_, ?_, ?_, ?_, ?_, ?_, ?_, ?_, ?_, ?_, ?_⟩ <;> decide +kernel

/-- The hypotheses of ShoalDirectoryAndCommands are met, clause by clause: the messages and the events. -/
theorem witness_ShoalDirectoryAndCommands :
    (let d : Device := (dD_2 sh0); let b : List Byte := wh 0 (words [2]); let body : List Byte := words [2]; decide ((d.hears 20 12 77 false b) ∧ (b = words [0, body.length, 0] ++ body) ∧ (0 < 8) ∧ (body.length < 2 ^ 32) ∧ (d.shoal.bytes.length ≤ 61440))) = true ∧
    (let d : Device := (dD_2 sh0); let b : List Byte := wh 3 (words [0, 6, 4, 0]); let body : List Byte := words [0, 6, 4, 0]; decide ((d.hears 20 12 77 false b) ∧ (b = words [3, body.length, 0] ++ body) ∧ (3 < 8) ∧ (body.length < 2 ^ 32))) = true ∧
    (let d : Device := (dD_2 sh0); let b : List Byte := wh 3 (words [0, 6, 4, 0]); let body : List Byte := words [0, 6, 4, 0]; decide ((d.hears 21 12 77 false b) ∧ (b = words [3, body.length, 0] ++ body) ∧ (3 < 8) ∧ (body.length < 2 ^ 32) ∧ (fieldAt body 0 8 ≤ d.shoal.epoch))) = true ∧
    (let d : Device := (dD_2 sh0); let b : List Byte := wh 3 (words [0, 6, 4, 0]); let body : List Byte := words [0, 6, 4, 0]; decide ((d.hears 22 12 77 false b) ∧ (fieldAt b 0 8 ≠ 0))) = true ∧
    (let d : Device := (dD_2 { sh0 with split := true, complete := false }); let b : List Byte := wh 5 newDir; decide ((d.hears 20 12 77 false b) ∧ (b = words [5, newDir.length, 0] ++ newDir) ∧ (5 < 8) ∧ (newDir.length < 2 ^ 32) ∧ (d.shoal.epoch ≤ fieldAt newDir 0 8) ∧
      (d.inShoal = false ∨ d.ready = false ∨ d.shoal.split = true ∨ 0 = d.shoal.device ∨ (List.filter (fun x => x != 0) (d.holdersOf 0 ++ d.holdersOf 1)).head? ≠ some d.shoal.device))) = true ∧
    (let d : Device := (dD_2 { sh0 with epoch := 10 }); let b : List Byte := wh 5 newDir; decide ((d.hears 20 12 77 false b) ∧ (b = words [5, newDir.length, 0] ++ newDir) ∧ (5 < 8) ∧ (newDir.length < 2 ^ 32) ∧ (fieldAt newDir 0 8 < d.shoal.epoch))) = true ∧
    (let d : Device := (dD_2 sh0); let b : List Byte := pt0 5 100 0 (words [1,2]); let body : List Byte := words [1,2]; decide ((d.hears 20 12 77 false b) ∧ (b = words [5, 100, 0] ++ body) ∧ (5 < 8) ∧ (100 < 2 ^ 32) ∧ (0 < 2 ^ 32) ∧ (body.length < 100) ∧ (∀ (a : Assembly), a ∈ d.shoal.assembly → ¬(a.src = 12 ∧ a.kind = 20 ∧ a.what = 5 ∧ a.total = 100)))) = true ∧
    (let d : Device := (dD_2 sh0); let b : List Byte := wh 3 (chg 4); let body : List Byte := chg 4; decide ((d.hears 21 12 77 false b) ∧ (b = words [3, body.length, 0] ++ body) ∧ (3 < 8) ∧ (body.length < 2 ^ 32) ∧ (fieldAt body 0 8 = d.shoal.epoch + 1))) = true ∧
    (let d : Device := (dD_2 sh0); let b : List Byte := wh 3 (chg 5); let body : List Byte := chg 5; decide ((d.hears 21 12 77 false b) ∧ (b = words [3, body.length, 0] ++ body) ∧ (3 < 8) ∧ (body.length < 2 ^ 32) ∧ (d.shoal.epoch + 1 < fieldAt body 0 8))) = true ∧
    (let d : Device := (dD_2 { sh0 with received := [⟨12, 9, 3, []⟩, ⟨12, 8, 3, []⟩] }); let b : List Byte := wh 6 (words [3, 9]); let body : List Byte := words [3, 9]; decide ((d.hears 21 12 77 false b) ∧ (b = words [6, body.length, 0] ++ body) ∧ (6 < 8) ∧ (body.length < 2 ^ 32))) = true ∧
    (let b : List Byte := words [0]; decide ((dCi.hears 22 12 77 false b) ∧ (fieldAt b 0 8 = 0) ∧
      (dCi.shoal.isolated = none))) = true ∧
    (let d : Device := (dD_2 shA1); decide ((d.inShoal = true) ∧ (d.ready = true) ∧ (d.shoal.split = false) ∧ (12 ≠ d.shoal.device) ∧ (12 < 512) ∧ ((tget { state := 4 } 12 d.shoal.dir).roles < 8) ∧ ((List.filter (fun x => x != 12) (d.holdersOf 0 ++ d.holdersOf 1)).head? = some d.shoal.device) ∧ ((tget { state := 4 } 12 d.shoal.dir).state ≠ 4) ∧ (d.shoal.split = false) ∧ (d.shoal.device < 512) ∧ (d.shoal.epoch + 1 < 2 ^ 32) ∧ (d.shoal.changes = []) ∧ (List.filter (fun k => k != d.shoal.device && 12 != k && d.serves k) d.holders = []))) = true ∧
    (let d : Device := (dD_2 sh0); decide ((d.inShoal = true) ∧ (d.ready = true) ∧ (d.shoal.split = false) ∧ (12 ≠ d.shoal.device) ∧ (12 < 512) ∧ ((tget { state := 4 } 12 d.shoal.dir).roles < 8) ∧ ((List.filter (fun x => x != 12) (d.holdersOf 0 ++ d.holdersOf 1)).head? = some d.shoal.device) ∧ ((tget { state := 4 } 12 d.shoal.dir).state ≠ 4) ∧ (d.shoal.split = false) ∧ (d.shoal.device < 512) ∧ (d.shoal.epoch + 1 < 2 ^ 32) ∧ (d.shoal.changes = []) ∧ (List.filter (fun k => k != d.shoal.device && 12 != k && d.serves k) d.holders ≠ []))) = true ∧
    (let d : Device := (dD_2 shR1); decide ((d.inShoal = true) ∧ (d.ready = true) ∧ (d.pairLead = some d.shoal.device) ∧ ((tget { state := 4 } 12 d.shoal.dir).state = 2) ∧ (12 < 512) ∧ ((tget { state := 4 } 12 d.shoal.dir).roles < 8) ∧ (12 ≠ d.shoal.device) ∧ (d.shoal.split = false) ∧ (d.shoal.device < 512) ∧ (d.shoal.epoch + 1 < 2 ^ 32) ∧ (d.shoal.changes = []) ∧ (List.filter (fun k => k != d.shoal.device && 12 != k && d.serves k) d.holders = []))) = true ∧
    (let d : Device := (dD_2 shR3); decide ((d.inShoal = true) ∧ (d.ready = true) ∧ (d.pairLead = some d.shoal.device) ∧ ((tget { state := 4 } 12 d.shoal.dir).state = 2) ∧ (12 < 512) ∧ ((tget { state := 4 } 12 d.shoal.dir).roles < 8) ∧ (12 ≠ d.shoal.device) ∧ (d.shoal.split = false) ∧ (d.shoal.device < 512) ∧ (d.shoal.epoch + 1 < 2 ^ 32) ∧ (d.shoal.changes = []) ∧ (List.filter (fun k => k != d.shoal.device && 12 != k && d.serves k) d.holders ≠ []))) = true ∧
    (let d : Device := (dD_2 shR2); decide ((d.inShoal = true) ∧ (d.ready = true) ∧ (d.pairLead = some 3) ∧ (3 ≠ d.shoal.device) ∧ ((tget { state := 4 } d.shoal.device d.shoal.dir).state = 2) ∧ (5 = d.shoal.device))) = true ∧
    (let d : Device := (dD_2 { sh0 with isolated := some 5 }); decide ((d.shoal.isolated = some 5) ∧ (d.inShoal = true) ∧ (d.ready = true) ∧ (d.shoal.split = false))) = true := by
  refine ⟨?_, ?_, ?_, ?_, ?_, ?_, ?_, ?_, ?_, ?_, ?_, ?_, ?_, ?_, ?_, ?_, ?_⟩ <;> decide +kernel

/-- The hypotheses of ShoalDirectoryAndCommands are met, clause by clause: the admin commands. -/
theorem witness_ShoalDirectoryAndCommands_admin :
    (let d : Device := (ad_2 dM 0xB0 0 (fo 77 1 14 0 5 7) key1); let io : AdminIo := ioD key1; decide ((okAnd (d.adminIn (d.adminAt 256 2) 256 2 none io) fun (key : List Byte) => decide ((d.servesNow 176 256 2 io) ∧ ((d.adminAt 256 2).param 0 8 ≠ 0) ∧ (1 ≤ (d.adminAt 256 2).param 8 1) ∧ ((d.adminAt 256 2).param 8 1 ≤ 16) ∧ (1 ≤ (d.adminAt 256 2).param 9 1) ∧ ((d.adminAt 256 2).param 9 1 ≤ 16) ∧ (2 ≤ (d.adminAt 256 2).param 8 1 * (d.adminAt 256 2).param 9 1) ∧ (posOf ((d.adminAt 256 2).param 12 2) < (d.adminAt 256 2).param 8 1 * (d.adminAt 256 2).param 9 1) ∧ (sideOf ((d.adminAt 256 2).param 12 2) ≤ (d.adminAt 256 2).param 10 1 % 2) ∧ (key ≠ []) ∧ ((d.adminAt 256 2).param 10 1 < 4) ∧ (1 ≤ (d.adminAt 256 2).param 14 1) ∧ ((d.adminAt 256 2).param 14 1 < 8))) = true)) = true ∧
    (let d : Device := (ad_2 dM 0xB0 0 (fo 77 16 16 2 511 0) key1); let io : AdminIo := ioD key1; decide ((okAnd (d.adminIn (d.adminAt 256 2) 256 2 none io) fun (key : List Byte) => decide ((d.servesNow 176 256 2 io) ∧ (¬((d.adminAt 256 2).param 0 8 ≠ 0 ∧ 1 ≤ (d.adminAt 256 2).param 8 1 ∧ (d.adminAt 256 2).param 8 1 ≤ 16 ∧ 1 ≤ (d.adminAt 256 2).param 9 1 ∧ (d.adminAt 256 2).param 9 1 ≤ 16 ∧ 2 ≤ (d.adminAt 256 2).param 8 1 * (d.adminAt 256 2).param 9 1 ∧ posOf ((d.adminAt 256 2).param 12 2) < (d.adminAt 256 2).param 8 1 * (d.adminAt 256 2).param 9 1 ∧ sideOf ((d.adminAt 256 2).param 12 2) ≤ (d.adminAt 256 2).param 10 1 % 2 ∧ key ≠ [] ∧ (d.adminAt 256 2).param 10 1 < 4 ∧ 1 ≤ (d.adminAt 256 2).param 14 1 ∧ (d.adminAt 256 2).param 14 1 < 8)))) = true)) = true ∧
    (let d : Device := (ad_2 dM 0xB1 6 (fo 7 0 0 0 0 0) []); let io : AdminIo := ioD []; decide ((d.servesNow 177 256 2 io) ∧ (d.inShoal = false))) = true ∧
    (let d : Device := (ad_2 (dD_2 shNo) 0xB1 6 (fo 7 0 0 0 0 0) []); let io : AdminIo := ioD []; decide ((d.servesNow 177 256 2 io) ∧ (okAnd (d.adminIn (d.adminAt 256 2) 256 2 none io) fun (bs : List Byte) => decide ((d.inShoal = true) ∧ (d.pairLead = none))) = true)) = true ∧
    (let d : Device := (ad_2 (dD_2 { sh0 with device := 12 }) 0xB2 6 (fo 7 0 0 0 0 0) []); let io : AdminIo := ioD []; decide ((d.servesNow 178 256 2 io) ∧ (okAnd (d.adminIn (d.adminAt 256 2) 256 2 none io) fun (bs : List Byte) => decide ((d.inShoal = true) ∧ (d.pairLead = some 5) ∧ (5 ≠ d.shoal.device) ∧ ((tget [] 2 (d.mbox 256).req ++ bs).length ≤ 61440))) = true)) = true ∧
    (let d : Device := (ad_2 (dD_2 shL) 0xB1 8 (fo 7 0 0 0 0 0) []); let io : AdminIo := ioD []; decide ((okAnd (d.adminIn (d.adminAt 256 2) 256 2 none io) fun (bs : List Byte) => decide ((d.inShoal = true) ∧ (d.pairLead = some d.shoal.device) ∧ (d.shoal.split = false) ∧ (d.shoal.device < 512) ∧ (d.shoal.epoch + 1 < 2 ^ 32) ∧ (d.shoal.changes = []) ∧ (d.servesNow 177 256 2 io) ∧ (posOf (d.adminAt 256 2).target < d.shoal.size) ∧ (sideOf (d.adminAt 256 2).target ≤ if d.shoal.mirrored = true then 1 else 0) ∧ ((d.adminAt 256 2).target < 512) ∧ ((tget { state := 4 } (d.adminAt 256 2).target d.shoal.dir).state = 1 ∨ (tget { state := 4 } (d.adminAt 256 2).target d.shoal.dir).state = 4) ∧ ((d.adminAt 256 2).param 0 1 % 8 ≠ 0) ∧ (List.filter (fun k => k != d.shoal.device && (d.adminAt 256 2).target != k && d.serves k) d.holders = []) ∧ ((d.adminAt 256 2).target ≠ d.shoal.device))) = true)) = true ∧
    (let d : Device := (ad_2 (dD_2 shL) 0xB3 9 (fo 5 0 0 0 0 0) []); let io : AdminIo := ioD []; decide ((okAnd (d.adminIn (d.adminAt 256 2) 256 2 none io) fun (bs : List Byte) => decide ((d.inShoal = true) ∧ (d.pairLead = some d.shoal.device) ∧ (d.shoal.split = false) ∧ (d.shoal.device < 512) ∧ (d.shoal.epoch + 1 < 2 ^ 32) ∧ (d.shoal.changes = []) ∧ (d.servesNow 179 256 2 io) ∧ (posOf (d.adminAt 256 2).target < d.shoal.size) ∧ (sideOf (d.adminAt 256 2).target ≤ if d.shoal.mirrored = true then 1 else 0) ∧ ((d.adminAt 256 2).target < 512) ∧ ((tget { state := 4 } (d.adminAt 256 2).target d.shoal.dir).state < 4) ∧ ((tget { state := 4 } (d.adminAt 256 2).target d.shoal.dir).state ≠ 1) ∧ ((d.adminAt 256 2).param 0 1 % 8 ≠ 0) ∧ (List.filter (fun k => k != d.shoal.device && (d.adminAt 256 2).target != k && d.serves k) d.holders = []))) = true)) = true ∧
    (let d : Device := (ad_2 (dD_2 shL) 0xB2 9 (fo 5 0 0 0 0 0) []); let io : AdminIo := ioD []; decide ((okAnd (d.adminIn (d.adminAt 256 2) 256 2 none io) fun (bs : List Byte) => decide ((d.inShoal = true) ∧ (d.pairLead = some d.shoal.device) ∧ (d.shoal.split = false) ∧ (d.shoal.device < 512) ∧ (d.shoal.epoch + 1 < 2 ^ 32) ∧ (d.shoal.changes = []) ∧ (d.servesNow 178 256 2 io) ∧ (posOf (d.adminAt 256 2).target < d.shoal.size) ∧ (sideOf (d.adminAt 256 2).target ≤ if d.shoal.mirrored = true then 1 else 0) ∧ ((d.adminAt 256 2).target < 512) ∧ ((tget { state := 4 } (d.adminAt 256 2).target d.shoal.dir).state = 0) ∧ ((tget { state := 4 } (d.adminAt 256 2).target d.shoal.dir).roles < 8) ∧ (List.filter (fun k => k != d.shoal.device && (d.adminAt 256 2).target != k && d.serves k) d.holders = []) ∧ ((d.adminAt 256 2).target ≠ d.shoal.device) ∧ (∀ (si : ShoalIndex), si ∈ d.shoal.indexes → si.routed = false) ∧ (d.shoal.epoch + 2 < 2 ^ 32))) = true)) = true ∧
    (let d : Device := (dMv sh0 4 (mv 0 1 12)); let io : AdminIo := ioD []; decide ((okAnd (d.adminIn (d.adminAt 256 2) 256 2 none io) fun (bs : List Byte) => decide ((d.inShoal = true) ∧ (d.pairLead = some d.shoal.device) ∧ (d.shoal.split = false) ∧ (d.shoal.device < 512) ∧ (d.shoal.epoch + 1 < 2 ^ 32) ∧ (d.shoal.changes = []) ∧ (d.servesNow 181 256 2 io) ∧ (d.shoalIndex? (d.adminAt 256 2).target = none ∨ d.index? (d.adminAt 256 2).target = none))) = true)) = true ∧
    (let d : Device := (dMv sh0 3 (mv 1 1 12)); let io : AdminIo := ioD []; decide ((okAnd (d.adminIn (d.adminAt 256 2) 256 2 none io) fun (bs : List Byte) => decide ((d.inShoal = true) ∧ (d.pairLead = some d.shoal.device) ∧ (d.shoal.split = false) ∧ (d.shoal.device < 512) ∧ (d.shoal.epoch + 1 < 2 ^ 32) ∧ (d.shoal.changes = []) ∧ ((d.shoalIndex? (d.adminAt 256 2).target).any fun (si : ShoalIndex) => decide (((d.index? (d.adminAt 256 2).target).any fun (x : Index) => decide ((d.servesNow 181 256 2 io) ∧ (si.routed = true) ∧ ((d.adminAt 256 2).param 4 4 ≠ 0) ∧ ((d.adminAt 256 2).param 0 4 + (d.adminAt 256 2).param 4 4 ≤ x.nCells) ∧ ((tget { state := 4 } ((d.adminAt 256 2).param 8 2) d.shoal.dir).state = 0) ∧ ((tget { state := 4 } ((d.adminAt 256 2).param 8 2) d.shoal.dir).roles.testBit 0 = true) ∧ (sideOf ((d.adminAt 256 2).param 8 2) = sideOf d.shoal.device) ∧ (∀ (k : Nat), k < (d.adminAt 256 2).param 4 4 → si.cellPos ((d.adminAt 256 2).param 0 4 + k) = some (posOf ((d.adminAt 256 2).param 8 2))))) = true)) = true)) = true)) = true ∧
    (let d : Device := (dMv sh0 3 (mv 1 1 5)); let io : AdminIo := ioD []; decide ((okAnd (d.adminIn (d.adminAt 256 2) 256 2 none io) fun (bs : List Byte) => decide ((d.inShoal = true) ∧ (d.pairLead = some d.shoal.device) ∧ (d.shoal.split = false) ∧ (d.shoal.device < 512) ∧ (d.shoal.epoch + 1 < 2 ^ 32) ∧ (d.shoal.changes = []) ∧ ((d.shoalIndex? (d.adminAt 256 2).target).any fun (si : ShoalIndex) => decide (((d.index? (d.adminAt 256 2).target).any fun (x : Index) => decide ((d.servesNow 181 256 2 io) ∧ (si.routed = true) ∧ ((d.adminAt 256 2).param 4 4 ≠ 0) ∧ ((d.adminAt 256 2).param 0 4 + (d.adminAt 256 2).param 4 4 ≤ x.nCells) ∧ ((tget { state := 4 } ((d.adminAt 256 2).param 8 2) d.shoal.dir).state = 0) ∧ ((tget { state := 4 } ((d.adminAt 256 2).param 8 2) d.shoal.dir).roles.testBit 0 = true) ∧ (sideOf ((d.adminAt 256 2).param 8 2) = sideOf d.shoal.device) ∧ (12 ≠ posOf ((d.adminAt 256 2).param 8 2)) ∧ (d.posDev 12 ≠ d.shoal.device) ∧ (∀ (k : Nat), k < (d.adminAt 256 2).param 4 4 → si.cellPos ((d.adminAt 256 2).param 0 4 + k) = some 12))) = true)) = true)) = true)) = true ∧
    (let d : Device := (ad_2 (dD_2 shL) 0xB1 14 (fo 7 0 0 0 0 0) []); let io : AdminIo := ioD []; decide ((okAnd (d.adminIn (d.adminAt 256 2) 256 2 none io) fun (bs : List Byte) => decide ((d.inShoal = true) ∧ (d.pairLead = some d.shoal.device) ∧ (d.shoal.split = false) ∧ (d.shoal.device < 512) ∧ (d.shoal.epoch + 1 < 2 ^ 32) ∧ (d.shoal.changes = []) ∧ (¬(posOf (d.adminAt 256 2).target < d.shoal.size ∧ (sideOf (d.adminAt 256 2).target ≤ if d.shoal.mirrored = true then 1 else 0) ∧ (d.adminAt 256 2).target < 512)) ∧ (d.servesNow 177 256 2 io) ∧ ((d.adminAt 256 2).target < 512))) = true)) = true ∧
    (let d : Device := (lc 6 0 upL); decide ((d.servesNow 182 256 2 noIo) ∧ ((d.adminAt 256 2).target < 32) ∧ ((d.adminAt 256 2).param 0 1 = 0 ∨ (d.adminAt 256 2).param 0 1 = 1 ∨ (d.adminAt 256 2).param 0 1 = 3))) = true ∧
    (let d : Device := (lc 6 2 { upL with state := .training, ctlHold := true }); decide ((d.servesNow 182 256 2 noIo) ∧ ((d.adminAt 256 2).target < 32) ∧ ((d.adminAt 256 2).param 0 1 = 2))) = true ∧
    (let d : Device := (lc 32 2 upL); decide ((d.servesNow 182 256 2 noIo) ∧ (32 ≤ (d.adminAt 256 2).target ∨ 4 ≤ (d.adminAt 256 2).param 0 1))) = true ∧
    (let d : Device := (ad_2 (dD_2 shL) 0xB1 8 (fo 0 0 0 0 0 0) []); let io : AdminIo := ioD []; decide ((okAnd (d.adminIn (d.adminAt 256 2) 256 2 none io) fun (bs : List Byte) => decide ((d.inShoal = true) ∧ (d.pairLead = some d.shoal.device) ∧ (d.shoal.split = false) ∧ (d.shoal.device < 512) ∧ (d.shoal.epoch + 1 < 2 ^ 32) ∧ (d.shoal.changes = []) ∧ (d.servesNow 177 256 2 io) ∧ (posOf (d.adminAt 256 2).target < d.shoal.size) ∧ (sideOf (d.adminAt 256 2).target ≤ if d.shoal.mirrored = true then 1 else 0) ∧ ((d.adminAt 256 2).target < 512) ∧ ((d.adminAt 256 2).param 0 1 % 8 = 0))) = true)) = true ∧
    (let d : Device := (ad_2 (dD_2 shL) 0xB3 9 (fo 0 0 0 0 0 0) []); let io : AdminIo := ioD []; decide ((okAnd (d.adminIn (d.adminAt 256 2) 256 2 none io) fun (bs : List Byte) => decide ((d.inShoal = true) ∧ (d.pairLead = some d.shoal.device) ∧ (d.shoal.split = false) ∧ (d.shoal.device < 512) ∧ (d.shoal.epoch + 1 < 2 ^ 32) ∧ (d.shoal.changes = []) ∧ (d.servesNow 179 256 2 io) ∧ (posOf (d.adminAt 256 2).target < d.shoal.size) ∧ (sideOf (d.adminAt 256 2).target ≤ if d.shoal.mirrored = true then 1 else 0) ∧ ((d.adminAt 256 2).target < 512) ∧ ((d.adminAt 256 2).param 0 1 % 8 = 0))) = true)) = true := by
  refine ⟨?_, ?_, ?_, ?_, ?_, ?_, ?_, ?_, ?_, ?_, ?_, ?_, ?_, ?_, ?_, ?_, ?_⟩ <;> decide +kernel

/-- A shoal index that the device can create. -/
theorem witness_ShoalDirectoryAndCommands_create :
    (let io : AdminIo := ioD sp1_2; let si : ShoalIndex := (dCi_2.readMaps xSp false (spec 5 0x100000) maps_2).getD siM; decide ((okAnd (dCi_2.adminIn (dCi_2.adminAt 256 2) 256 2 none io) fun (bs : List Byte) => decide ((dCi_2.inShoal = true) ∧ (dCi_2.pairLead = some dCi_2.shoal.device) ∧ (dCi_2.shoal.split = false) ∧ (dCi_2.shoal.device < 512) ∧ (dCi_2.shoal.epoch + 1 < 2 ^ 32) ∧ (dCi_2.shoal.changes = []) ∧ ((parseSpec (List.take ((dCi_2.adminAt 256 2).param 8 8) bs) ((dCi_2.adminAt 256 2).param 0 1)).any fun (x : Index) => decide (((dCi_2.createIndex { x with indexNo := 5 }).any fun (d1 : Device) => decide ((dCi_2.servesNow 180 256 2 io) ∧ ((dCi_2.adminAt 256 2).param 0 1 < 16) ∧ ((dCi_2.burgee ((dCi_2.adminAt 256 2).param 0 1)).enabled = true) ∧ ((dCi_2.adminAt 256 2).param 8 8 ≤ bs.length) ∧ (if x.indexNo = 65535 then dCi_2.freeIndexNo = some 5 else 5 = x.indexNo) ∧ (5 < 1024) ∧ (tfind 5 dCi_2.indexes = none) ∧ (dCi_2.holders = [dCi_2.shoal.device]) ∧ (dCi_2.readMaps { x with indexNo := 5 } ((dCi_2.adminAt 256 2).param 1 1 == 1) (List.take ((dCi_2.adminAt 256 2).param 8 8) bs) (List.drop ((dCi_2.adminAt 256 2).param 8 8) bs) = some si))) = true)) = true)) = true)) = true := by
  decide +kernel

/-- The hypotheses of TestAccessAndDebug are met, clause by clause. -/
theorem witness_TestAccessAndDebug :
    (decide ((dB.aon.vaux = true) ∧ (dB.tap.heldRise = false) ∧ (dB.bscanOk b1 = true) ∧
      (dB.aon.vaux = true) ∧ (dB.tap.heldRise = false) ∧ (b1.railsC = true) ∧ (b1.railsP = true) ∧
      (dB.aon.vaux = true) ∧ (dB.tap.heldRise = false) ∧
      (dB.aon.vaux = true) ∧ (dB.tap.heldRise = false) ∧ (dB.mgmt.sec.unlocked = none))) = true ∧
    (let b : BScan := { b1 with railsC := false }; decide ((dB.aon.vaux = true) ∧ (dB.tap.heldRise = false) ∧ (dB.bscanOk b = false) ∧
      (dB.aon.vaux = true) ∧ (dB.tap.heldRise = false) ∧ (b.railsC = false ∨ b.railsP = false))) = true ∧
    (let d : Device := (dbg 0); decide ((d.aon.vaux = true) ∧ (d.tap.heldRise = false) ∧ (d.mgmt.sec.unlocked.isSome = true) ∧
      (d.atDebug = true) ∧
      (d.atDebug = true) ∧ (d.scopeBit 0 = false) ∧
      (d.atDebug = true) ∧ (d.scopeBit 1 = false) ∧
      (d.atDebug = true) ∧ (d.scopeBit 2 = false) ∧
      (d.atDebug = true) ∧ (d.scopeBit 3 = false) ∧
      (1 ≤ 1) ∧ (1 ≤ 4) ∧ (1 ≤ d.telem.snaps.length) ∧ (d.phase = Phase.ready) ∧ (d.ens.holder.isSome = true))) = true ∧
    (let d : Device := { dB with tap := { dB.tap with heldRise := true, instr := .extest }, aon := { dB.aon with sysPwrok := true } }; decide ((d.aon.vaux = true) ∧ (d.tap.heldRise = true) ∧ (d.aon.memrefOk = true))) = true ∧
    (let d : Device := (dbg 15); decide ((d.atDebug = true) ∧ (d.scopeBit 0 = true) ∧ (131072 ≤ 131072) ∧ (131072 < 1048576) ∧
      (d.atDebug = true) ∧ (d.scopeBit 1 = true) ∧ (d.debugReach 131072 = true) ∧
      (d.atDebug = true) ∧ (d.scopeBit 2 = true) ∧ (131072 ≤ 131072) ∧ (131072 < 1048576) ∧ (131072 < 475136 ∨ 477184 ≤ 131072 ∨ 131072 % 64 ≠ 0) ∧
      (d.atDebug = true) ∧ (d.scopeBit 2 = true) ∧ (d.debugReach 131072 = true) ∧ (d.tiers.erased = []) ∧ (d.area 131072 ≠ Area.lTier) ∧
      (d.atDebug = true) ∧ (d.scopeBit 3 = true) ∧ (d.ens.holder.isSome = true) ∧ (d.phase = Phase.ready) ∧
      (d.atDebug = true) ∧ (d.scopeBit 3 = true) ∧ (d.ens.holder.isSome = true) ∧ (d.phase = Phase.ready) ∧ (d.ens.shadowHalted = false))) = true ∧
    (let d : Device := (dbg 15 { dM with ens := { dM.ens with shadowHalted := true }, burgees := [] }); let a : Nat := lBase + 0x1000; decide ((d.atDebug = true) ∧ (d.scopeBit 0 = true) ∧ (a < 131072 ∨ 1048576 ≤ a) ∧
      (d.atDebug = true) ∧ (d.scopeBit 3 = true) ∧ (d.ens.holder.isSome = true) ∧ (d.phase = Phase.ready) ∧ (d.ens.shadowHalted = true))) = true ∧
    (let d : Device := (dbg 15); decide ((d.atDebug = true) ∧ (d.scopeBit 1 = true) ∧ (d.debugReach 140737488355327 = false) ∧
      (d.atDebug = true) ∧ (d.scopeBit 2 = true) ∧ (d.debugReach 140737488355327 = false))) = true ∧
    (let d : Device := (dbg 15); let v : W64 := (0xFFF : W64); decide ((d.atDebug = true) ∧ (d.scopeBit 2 = true) ∧ (475136 ≤ 475328) ∧ (475328 < 477184) ∧ (bits 15 12 (BitVec.toNat v) = 0))) = true ∧
    (let d : Device := (dbg 15 { dM with ens := { dM.ens with holder := none } }); decide ((d.atDebug = true) ∧ (d.scopeBit 3 = true) ∧ (d.ens.holder = none))) = true := by
  refine ⟨?_, ?_, ?_, ?_, ?_, ?_, ?_, ?_, ?_⟩ <;> decide +kernel

end Sys2Proof.Tests
end

section
/-! Alerts of the sideband, interrupt coalescing and Bus Master Enable: what each of their commands does, and the statement about them all. -/

namespace Sys2Proof.Machine

/-- A command that changes the device by F gives whatever holds of the device changed. -/
theorem gives_of_onDev {c : Instr} {s : State} {F : Device → Device} {P : Device → Prop} (hc : exec c s = onDev F s)
    (hP : P (F s.dev)) : gives c s P :=
  ⟨F s.dev, hc, hP⟩

/-! ### The sideband's alert registers (R14, R535, R537) -/

/-- While VAUX and VIO are in regulation the sideband answers. -/
theorem Device.sideband_of_supplies {d : Device} (hv : d.aon.vaux = true) (ho : d.aon.vioOut = false) : d.sideband = true := by
  simp [Device.sideband, hv, ho]

/-- A block write of 4 bytes with a right PEC is accepted, and no other. -/
theorem Device.sbAccepts_iff {d : Device} (hs : d.sideband = true) (bs : List Byte) (ok : Bool) :
    d.sbAccepts bs ok = true ↔ bs.length = 4 ∧ ok = true := by
  simp [Device.sbAccepts, hs]

theorem sbAlertStatusWriteEff_accepted {d : Device} {bs : List Byte} {ok : Bool} (h : d.sbAccepts bs ok = true) :
    sbAlertStatusWriteEff bs ok d = { d with aon := { d.aon with alert := d.aon.alert &&& ~~~(BitVec.ofNat 32 (leNat bs)) } } := by
  simp [sbAlertStatusWriteEff, h]

theorem sbAlertMaskWriteEff_accepted {d : Device} {bs : List Byte} {ok : Bool} (h : d.sbAccepts bs ok = true) :
    sbAlertMaskWriteEff bs ok d = { d with aon := { d.aon with alertMask := BitVec.ofNat 32 (leNat bs % 1024) } } := by
  simp [sbAlertMaskWriteEff, h]

theorem sbAlertStatusWriteEff_refused {d : Device} {bs : List Byte} {ok : Bool} (h : d.sbAccepts bs ok = false) :
    sbAlertStatusWriteEff bs ok d = d := by
  simp [sbAlertStatusWriteEff, h]

theorem sbAlertMaskWriteEff_refused {d : Device} {bs : List Byte} {ok : Bool} (h : d.sbAccepts bs ok = false) :
    sbAlertMaskWriteEff bs ok d = d := by
  simp [sbAlertMaskWriteEff, h]

/-- The mask register has ten bits: those of the value written, and zeros above (R537). -/
theorem getLsbD_alertMask (n i : Nat) :
    (BitVec.ofNat 32 (n % 1024)).getLsbD i = (decide (i < 10) && (BitVec.ofNat 32 n).getLsbD i) := by
  have hbit : (n % 1024).testBit i = (decide (i < 10) && n.testBit i) := Nat.testBit_mod_two_pow n 10 i
  rw [BitVec.getLsbD_ofNat, BitVec.getLsbD_ofNat, hbit, Bool.and_left_comm]

/-- An unmasked alert asserts ALERT#. -/
theorem Device.alertPin_iff (d : Device) : d.alertPin = true ↔ d.aon.alert &&& ~~~d.aon.alertMask ≠ 0 := by
  simp [Device.alertPin]

theorem smbusAlertResponseEff_asserted {d : Device} (hs : d.sideband = true) (hp : d.alertPin = true) :
    smbusAlertResponseEff d = { d with aon := { d.aon with araAnswers := (0x48 + d.aon.smbAddr) :: d.aon.araAnswers } } := by
  simp [smbusAlertResponseEff, hs, hp]

/-! ### Functions and queue pairs changed -/

/-- The device with a function changed differs in its functions alone. -/
theorem Device.modFn_fns (d : Device) (f : Nat) (g : Fn → Fn) : d.modFn f g = { d with fns := (d.modFn f g).fns } := by
  unfold Device.modFn
  split <;> rfl

/-- Changing a queue pair that exists is a change of its function. -/
theorem Device.modQp_of_qp {d : Device} {f q : Nat} {p : QueuePair} (g : QueuePair → QueuePair) (h : d.qp f q = some p) :
    d.modQp f q g = d.modFn f fun n => { n with qps := tset q (g p) n.qps } := by
  simp only [Device.modQp, h]

/-- A queue pair changed reads back. -/
theorem Device.qp_modQp_same {d : Device} {f q : Nat} {p : QueuePair} (g : QueuePair → QueuePair) (hf : f < 256) (h : d.qp f q = some p) :
    (d.modQp f q g).qp f q = some (g p) := by
  rw [Device.modQp_of_qp g h, Device.qp, Device.fn_modFn_same _ _ _ hf, tfind_tset_same]

/-- Every other queue pair of the function reads as before. -/
theorem Device.qp_modQp_other (d : Device) {f q j : Nat} (g : QueuePair → QueuePair) (hf : f < 256) (hj : j ≠ q) :
    (d.modQp f q g).qp f j = d.qp f j := by
  cases hp : d.qp f q with
  | none => simp only [Device.modQp, hp]
  | some p => rw [Device.modQp_of_qp g hp, Device.qp, Device.fn_modFn_same _ _ _ hf, tfind_tset_other _ _ _ _ hj, Device.qp]

/-- Every other function reads as before a change of a queue pair. -/
theorem Device.fn_modQp_other (d : Device) {f q k : Nat} (g : QueuePair → QueuePair) (hk : k ≠ f) : (d.modQp f q g).fn k = d.fn k := by
  cases hp : d.qp f q with
  | none => simp only [Device.modQp, hp]
  | some p => rw [Device.modQp_of_qp g hp, Device.fn_modFn_other _ _ _ _ hk]

/-- A change of a queue pair leaves the rest of its function as it was. -/
theorem Device.fn_modQp_same (d : Device) {f q : Nat} (g : QueuePair → QueuePair) (hf : f < 256) :
    (d.modQp f q g).fn f = { d.fn f with qps := ((d.modQp f q g).fn f).qps } := by
  cases hp : d.qp f q with
  | none => simp only [Device.modQp, hp]
  | some p => rw [Device.modQp_of_qp g hp, Device.fn_modFn_same _ _ _ hf]

/-- A change of a queue pair is a change of functions. -/
theorem Device.modQp_fns (d : Device) (f q : Nat) (g : QueuePair → QueuePair) : d.modQp f q g = { d with fns := (d.modQp f q g).fns } := by
  unfold Device.modQp
  split
  · exact Device.modFn_fns _ _ _
  · rfl

/-! ### Messages (R401, R402, R533) -/

/-- Nothing keeps a message of a vector from its host: its port is up, Bus Master Enable is set and the vector is not masked. -/
def Device.msixOpen (d : Device) (f v : Nat) : Prop :=
  d.portUp f = true ∧ (d.fn f).bme = true ∧ (tget ({} : MsixEntry) v (d.fn f).msix).masked = false

/-- A message that nothing keeps is sent and counted. -/
theorem Device.msix_sent {d : Device} {f v : Nat} (h : d.msixOpen f v) :
    d.msix f v = { d with out := .msix f v :: d.out, devCnt := { d.devCnt with msixSent := d.devCnt.msixSent + 1 } } := by
  obtain ⟨hup, hbme, hmask⟩ := h
  unfold Device.msix
  dsimp only
  rw [if_neg (by simp [hup]), if_neg (by simp only [hbme, hmask]; decide)]
  rfl

/-- A change of a queue pair opens and closes no vector. -/
theorem Device.msixOpen_modQp {d : Device} {f q v : Nat} (g : QueuePair → QueuePair) (hf : f < 256) (h : d.msixOpen f v) :
    (d.modQp f q g).msixOpen f v := by
  obtain ⟨hup, hbme, hmask⟩ := h
  have hn := d.fn_modQp_same (q := q) g hf
  refine ⟨?_, ?_, ?_⟩
  · rw [Device.modQp_fns]; exact hup
  · rw [hn]; exact hbme
  · rw [hn]; exact hmask

/-- A message of a vector leaves every other function as it was. -/
theorem Device.fn_msix_other (d : Device) {f v k : Nat} (hk : k ≠ f) : (d.msix f v).fn k = d.fn k := by
  unfold Device.msix
  dsimp only
  split
  · rfl
  · split
    · exact Device.fn_modFn_other _ _ _ _ hk
    · rfl

/-- The pair's message goes out on its vector where nothing keeps it, and the pair's count and timer restart (R401). -/
theorem Device.cqSignal_sent {d : Device} {f q : Nat} {p : QueuePair} (hf : f < 256) (hp : d.qp f q = some p) (ho : d.msixOpen f p.vector) :
    d.cqSignal f q = { d with
      fns := (d.modQp f q fun p => { p with sinceMsg := 0, waitFrom := none }).fns
      out := .msix f p.vector :: d.out
      devCnt := { d.devCnt with msixSent := d.devCnt.msixSent + 1 } } := by
  simp only [Device.cqSignal, hp]
  rw [Device.msix_sent (Device.msixOpen_modQp _ hf ho), Device.modQp_fns]

/-- The coalescing timer of a pair whose completions have waited since t signals its CQ at the timer's end (R401). -/
theorem interruptCoalesceTimerEff_waiting {d : Device} {f q t : Nat} {p : QueuePair} (hp : d.qp f q = some p) (hi : p.irqEn = true)
    (hw : p.waitFrom = some t) : interruptCoalesceTimerEff f q d = (d.by (t + 1000 * p.aggTime)).cqSignal f q := by
  simp only [interruptCoalesceTimerEff, hp, hi, hw]

/-! ### Bus Master Enable (R402) -/

/-- What is sent in turn is sent in its order, and nothing else changes. -/
theorem Device.foldl_emit (es : List Emit) (d : Device) : es.foldl (fun d e => d.emit e) d = { d with out := es.reverse ++ d.out } := by
  induction es generalizing d with
  | nil => rfl
  | cons e es ih => rw [List.foldl_cons, ih]; simp [Device.emit]

/-- Sending the pending messages reports, and changes no other function. -/
theorem Device.sendPending_told (d : Device) (f : Nat) :
    d.sendPending f = d.told (d.sendPending f) ∧ d.fnsTold (d.sendPending f) ∧ ∀ k, k ≠ f → (d.sendPending f).fn k = d.fn k := by
  have hfold := Device.foldl_told (fun d v => d.msix f v) fun d v => d.msix_told f v
  refine ⟨Device.told_trans (d.modFn_told f _) (hfold _ _).1, Device.fnsTold_trans (d.modFn_fnsTold f _ fun _ => rfl) (hfold _ _).2,
    fun k hk => ?_⟩
  have hmsgs := foldl_keep (fun d : Device => d.fn k) (fun d v => d.msix f v) fun d v => d.fn_msix_other hk
  exact (hmsgs _ _).trans (Device.fn_modFn_other _ _ _ _ hk)

/-- With no message pending nothing is sent. -/
theorem Device.sendPending_out_of_none {d : Device} {f : Nat} (h : (d.fn f).pba = []) : (d.sendPending f).out = d.out := by
  simp [Device.sendPending, h]

/-- The device once Bus Master Enable is set and the held writes are made, before its pending messages go out. -/
def Device.heldMade (d : Device) (f : Nat) : Device :=
  { d.modFn f fun n => { n with bme := true, heldOut := [] } with out := (d.fn f).heldOut.reverse ++ d.out }

/-- BUS_MASTER_ENABLE_SET makes the held writes, then sends what is pending (R402). -/
theorem busMasterEnableSetEff_eq (d : Device) (f : Nat) : busMasterEnableSetEff f d = (d.heldMade f).sendPending f := by
  simp [busMasterEnableSetEff, Device.foldl_emit, Device.heldMade]

theorem Device.fn_heldMade_same (d : Device) {f : Nat} (hf : f < 256) :
    (d.heldMade f).fn f = { d.fn f with bme := true, heldOut := [] } :=
  Device.fn_modFn_same d f _ hf

theorem Device.fn_heldMade_other (d : Device) {f k : Nat} (hk : k ≠ f) : (d.heldMade f).fn k = d.fn k :=
  Device.fn_modFn_other d f k _ hk

theorem Device.heldMade_told (d : Device) (f : Nat) : d.heldMade f = d.told (d.heldMade f) :=
  Device.told_trans (d.modFn_told f _) rfl

/-! ### What each command gives -/

/-- An accepted write of the alert registers clears the bits given as 1, or sets the mask (R535, R537). -/
theorem gives_alertWrite_accepted (s : State) (hs : s.dev.sideband = true) (bs : List Byte) (hb : bs.length = 4) :
    gives (.sbAlertStatusWrite bs true) s (fun e => e = { s.dev with aon := { s.dev.aon with
      alert := s.dev.aon.alert &&& ~~~(BitVec.ofNat 32 (leNat bs)) } }) ∧
    gives (.sbAlertMaskWrite bs true) s (fun e => e = { s.dev with aon := { s.dev.aon with alertMask := e.aon.alertMask } } ∧
      ∀ i, e.aon.alertMask.getLsbD i = (decide (i < 10) && (BitVec.ofNat 32 (leNat bs)).getLsbD i)) := by
  have ha : s.dev.sbAccepts bs true = true := (Device.sbAccepts_iff hs bs true).2 ⟨hb, rfl⟩
  refine ⟨gives_of_onDev rfl (sbAlertStatusWriteEff_accepted ha), gives_of_onDev rfl ?_⟩
  rw [sbAlertMaskWriteEff_accepted ha]
  exact ⟨rfl, getLsbD_alertMask (leNat bs)⟩

/-- A write of another length, or with a wrong PEC, changes nothing (R535). -/
theorem gives_alertWrite_refused (s : State) (hs : s.dev.sideband = true) (bs : List Byte) (ok : Bool) (h : bs.length ≠ 4 ∨ ok = false) :
    gives (.sbAlertStatusWrite bs ok) s (fun e => e = s.dev) ∧ gives (.sbAlertMaskWrite bs ok) s (fun e => e = s.dev) := by
  have ha : s.dev.sbAccepts bs ok = false := by
    rw [← Bool.not_eq_true, Device.sbAccepts_iff hs]
    rintro ⟨hb, rfl⟩
    exact h.elim (· hb) Bool.noConfusion
  exact ⟨gives_of_onDev rfl (sbAlertStatusWriteEff_refused ha), gives_of_onDev rfl (sbAlertMaskWriteEff_refused ha)⟩

/-- The coalescing timer's message goes out on the CQ's vector; its count and timer restart, and no other pair or function changes (R401). -/
theorem gives_coalesceTimer (s : State) {f q t : Nat} {p : QueuePair} (hf : f < 256) (hp : s.dev.qp f q = some p) (hi : p.irqEn = true)
    (hw : p.waitFrom = some t) (ho : s.dev.msixOpen f p.vector) :
    gives (.interruptCoalesceTimer f q) s fun e => e.out = .msix f p.vector :: s.dev.out ∧ e.now = max s.dev.now (t + 1000 * p.aggTime) ∧
      e.qp f q = some { p with sinceMsg := 0, waitFrom := none } ∧ (∀ k, k ≠ f → e.fn k = s.dev.fn k) ∧
      (∀ j, j ≠ q → e.qp f j = s.dev.qp f j) ∧ e.devCnt.msixSent = s.dev.devCnt.msixSent + 1 ∧
      e = { s.dev with now := e.now, fns := e.fns, out := e.out, devCnt := e.devCnt } := by
  refine gives_of_onDev rfl ?_
  -- passing the time keeps every function, so what is known of the pair holds of the device at the timer's end
  let d1 : Device := s.dev.by (t + 1000 * p.aggTime)
  have hp1 : d1.qp f q = some p := hp
  rw [interruptCoalesceTimerEff_waiting hp hi hw, Device.cqSignal_sent hf hp1 ho]
  exact ⟨rfl, rfl, Device.qp_modQp_same _ hf hp1, fun _ hk => d1.fn_modQp_other _ hk, fun _ hj => d1.qp_modQp_other _ hf hj, rfl, rfl⟩

/-- Clearing Bus Master Enable changes that bit of the function alone (R402). -/
theorem gives_busMasterEnableClear (s : State) {f : Nat} (hf : f < 256) :
    gives (.busMasterEnableClear f) s (fun e => e.fn f = { s.dev.fn f with bme := false } ∧ (∀ k, k ≠ f → e.fn k = s.dev.fn k) ∧
      e = { s.dev with fns := e.fns }) :=
  gives_of_onDev rfl ⟨Device.fn_modFn_same _ _ _ hf, fun _ hk => Device.fn_modFn_other _ _ _ _ hk, Device.modFn_fns _ _ _⟩

/-- Setting Bus Master Enable makes the held writes in their order and reports, and changes no other function (R402). -/
theorem gives_busMasterEnableSet (s : State) {f : Nat} (hf : f < 256) :
    gives (.busMasterEnableSet f) s (fun e => (e.fn f).bme = true ∧ (e.fn f).heldOut = [] ∧ (e.fn f).qps = (s.dev.fn f).qps ∧
      ((s.dev.fn f).pba = [] → e.out = (s.dev.fn f).heldOut.reverse ++ s.dev.out) ∧ (∀ k, k ≠ f → e.fn k = s.dev.fn k) ∧
      e = s.dev.told e) := by
  refine gives_of_onDev rfl ?_
  obtain ⟨htold, hfns, hother⟩ := (s.dev.heldMade f).sendPending_told f
  have hmade := s.dev.fn_heldMade_same hf
  rw [busMasterEnableSetEff_eq]
  refine ⟨?_, ?_, ?_, fun hpba => ?_, fun k hk => ?_, Device.told_trans (s.dev.heldMade_told f) htold⟩
  · rw [hfns f, hmade]
  · rw [hfns f, hmade]
  · rw [hfns f, hmade]
  · exact Device.sendPending_out_of_none (by rw [hmade]; exact hpba)
  · rw [hother k hk, s.dev.fn_heldMade_other hk]

/-- Settles O19, from what each of its commands gives. -/
theorem alertsCoalescingAndBusMaster : Obligations.AlertsCoalescingAndBusMaster := by
  unfold Obligations.AlertsCoalescingAndBusMaster
  refine ⟨fun s hv ho => ?_, fun s f hf => ⟨fun q p t hp hi hw hup hbme hmask => ?_, gives_busMasterEnableClear s hf, gives_busMasterEnableSet s hf⟩⟩
  · have hs := Device.sideband_of_supplies hv ho
    refine ⟨gives_alertWrite_accepted s hs, gives_alertWrite_refused s hs, fun hpin => ?_⟩
    exact gives_of_onDev rfl (smbusAlertResponseEff_asserted hs (s.dev.alertPin_iff.2 hpin))
  · exact gives_coalesceTimer s hf hp hi hw ⟨hup, hbme, hmask⟩

end Sys2Proof.Machine
end

section
/-! The adaptive voltage loop and the pace deficit of a half: what a tick and each of the deficit's events do, and the statement about them all. -/

namespace Sys2Proof.Machine

/-! ### A half changed -/

/-- The half changed reads back. -/
theorem Device.half_modHalf_same (d : Device) {h : Nat} (g : HalfPower → HalfPower) : (d.modHalf h g).power.half h = g (d.power.half h) := by
  by_cases h0 : h = 0 <;> simp [Device.modHalf, Power.half, h0]

/-- The other half reads as before. -/
theorem Device.half_modHalf_other (d : Device) {h : Nat} (g : HalfPower → HalfPower) (hh : h < 2) :
    (d.modHalf h g).power.half (1 - h) = d.power.half (1 - h) := by
  by_cases h0 : h = 0
  · simp [Device.modHalf, Power.half, h0]
  · obtain rfl : h = 1 := by omega
    simp [Device.modHalf, Power.half]

/-- A pace deficit of either half suspends bounded admission (R489). -/
theorem Device.boundSuspended_of_deficit {d : Device} {h : Nat} (hd : (d.power.half h).deficit = true) : d.boundSuspended = true := by
  have hor : d.power.h0.deficit = true ∨ d.power.h1.deficit = true := by
    unfold Power.half at hd
    split at hd
    · exact .inl hd
    · exact .inr hd
  rcases hor with h0 | h1
  · simp [Device.boundSuspended, h0]
  · simp [Device.boundSuspended, h1]

/-! ### Causes of DEGRADED (R501) -/

theorem Device.degrade_getLsbD (d : Device) {b : Nat} (hb : b < 32) : (d.degrade b).degraded.getLsbD b = true := by
  rcases d.degrade_bit b with h | ⟨hset, h⟩
  · rw [h, BitVec.getLsbD_or, BitVec.getLsbD_ofNat, Nat.testBit_two_pow_self]
    simp [hb]
  · rw [h, hset]

theorem Device.undegrade_getLsbD (d : Device) (b : Nat) : (d.undegrade b).degraded.getLsbD b = false := by
  rw [Device.undegrade, BitVec.getLsbD_and, BitVec.getLsbD_not, BitVec.getLsbD_ofNat, Nat.testBit_two_pow_self]
  by_cases hb : b < 32
  · simp [hb]
  · simp [BitVec.getLsbD_of_ge _ _ (Nat.le_of_not_lt hb)]

/-- A cause of DEGRADED set reports, and changes the causes alone (R501). -/
theorem Device.degrade_told (d : Device) (b : Nat) :
    d.degrade b = { d.told (d.degrade b) with degraded := (d.degrade b).degraded } ∧ d.fnsTold (d.degrade b) := by
  unfold Device.degrade
  split
  · exact ⟨rfl, d.fnsTold_refl⟩
  · obtain ⟨htold, hfns⟩ := Device.raise_told (({ d with degraded := d.degraded ||| BitVec.ofNat 32 (2 ^ b) } : Device).alert 5)
      ⟨4, none, BitVec.ofNat 32 (d.degraded ||| BitVec.ofNat 32 (2 ^ b)).toNat⟩
    refine ⟨?_, hfns⟩
    unfold Device.raiseDev
    rw [htold]
    rfl

/-- A report after the instant, the halves' loops and the causes of DEGRADED changed. -/
theorem Device.told_after {d d1 e : Device} (h1 : d1 = { d with now := d1.now, power := d1.power, degraded := d1.degraded })
    (h : e = { d1.told e with degraded := e.degraded }) :
    e = { d.told e with now := e.now, power := e.power, degraded := e.degraded } := by
  rw [h, h1]; rfl

/-! ### The adaptive voltage loop (R23, R484) -/

/-- The value that the scan of a half's counts finds is the list's minimum. -/
theorem lowest_eq_min? (x : Nat) (xs : List Nat) : (x :: xs).min? = some (lowest (x :: xs)).2 := by
  have hxs : (List.range xs.length).map (xs.getD · 0) = xs := by
    refine List.ext_getElem (by simp) fun i _ hi => ?_
    simp [hi]
  rw [List.min?_cons']
  conv_lhs => rw [← hxs, List.foldl_map]
  refine congrArg some (List.foldl_hom (init := (0, x)) Prod.snd fun p i => ?_)
  split <;> omega

/-- The pace a tick takes is one of the counts, and none is lower (R23). -/
theorem lowest_isLeast {counts : List Nat} (hne : counts ≠ []) : (lowest counts).2 ∈ counts ∧ ∀ c ∈ counts, (lowest counts).2 ≤ c := by
  obtain ⟨x, xs, rfl⟩ := List.exists_cons_of_ne_nil hne
  exact (List.min?_eq_some_iff).1 (lowest_eq_min? x xs)

/-- A half's loop after a tick: the lowest count is its pace, and its setpoint follows from it (R484, R486). -/
def Device.halfTicked (d : Device) (h : Nat) (counts : List Nat) (vread iread : Nat) : HalfPower :=
  let p := d.power.half h
  let n := (lowest counts).2
  let v := avlNext d.frozen d.reff n p.vset
  { p with
    vset := v, vread := vread, iread := iread, pace := n, slowest := 32 * h + (lowest counts).1
    belowAt := if decide (850 ≤ v) && decide (n < 16000) && decide (32 ≤ d.reff) && !d.frozen then p.belowAt.or (some d.now) else none
    aboveAt := if 16000 ≤ n then p.aboveAt.or (some d.now) else none }

/-- A tick of a closed loop changes its half, and sends the setpoint to the regulator where it moved (R484). -/
theorem avlTickEff_ticked {d : Device} {h : Nat} {counts : List Nat} (vread iread : Nat) (hh : h < 2) (hc : counts.length = 32)
    (hl : (d.power.half h).loopEn = true) :
    let e := avlTickEff h counts vread iread d
    let v := (d.halfTicked h counts vread iread).vset
    e.power = (d.modHalf h fun _ => d.halfTicked h counts vread iread).power ∧
      e.out = (if v = (d.power.half h).vset then d.out else .avs h v :: d.out) ∧
      e = { d with power := e.power, out := e.out, devCnt := e.devCnt } := by
  have hguard : (decide (2 ≤ h) || counts.length != 32 || !(d.power.half h).loopEn) = false := by simp [hh, hc, hl]
  have hhalf : ∀ g : HalfPower → HalfPower, d.modHalf h g = d.modHalf h fun _ => g (d.power.half h) := fun g => by
    by_cases h0 : h = 0 <;> simp [Device.modHalf, Power.half, h0]
  simp only [avlTickEff, hguard, Bool.false_eq_true, if_false, hhalf]
  by_cases hv : avlNext d.frozen d.reff (lowest counts).2 (d.power.half h).vset = (d.power.half h).vset
  · simp only [hv, Device.halfTicked, if_true]
    exact ⟨trivial, rfl, rfl⟩
  · simp only [hv, Device.halfTicked, if_false]
    exact ⟨rfl, rfl, rfl⟩

/-- The setpoint moves 5 mV up, 5 mV down or not at all (R484). -/
theorem avlNext_eq (frozen : Bool) (reff n v : Nat) :
    avlNext frozen reff n v = if frozen = true then v else if n < reff * 500 ∧ v < 850 then v + 5
      else if reff * 500 + 200 < n ∧ 620 < v then v - 5 else v := by
  simp [avlNext]

/-! ### What each command gives -/

/-- A tick of a closed loop: the pace, the setpoint and the readings of its half, and nothing of the other (R23, R484). -/
theorem gives_avlTick (s : State) {h : Nat} {counts : List Nat} (vread iread : Nat) (hh : h < 2) (hc : counts.length = 32)
    (hl : (s.dev.power.half h).loopEn = true) :
    gives (.avlTick h counts vread iread) s fun e => e.power.half h = s.dev.halfTicked h counts vread iread ∧
      e.power.half (1 - h) = s.dev.power.half (1 - h) ∧
      e.out = (if (e.power.half h).vset = (s.dev.power.half h).vset then s.dev.out else .avs h (e.power.half h).vset :: s.dev.out) ∧
      e = { s.dev with power := e.power, out := e.out, devCnt := e.devCnt } := by
  refine gives_of_onDev rfl ?_
  obtain ⟨hpower, hout, hframe⟩ := avlTickEff_ticked vread iread hh hc hl
  have hhalf := s.dev.half_modHalf_same (h := h) fun _ => s.dev.halfTicked h counts vread iread
  rw [← hpower] at hhalf
  exact ⟨hhalf, by rw [hpower]; exact s.dev.half_modHalf_other _ hh, by rw [hhalf]; exact hout, hframe⟩

/-- Voiding a bound keeps every command's stamp. -/
theorem Device.voidBound_stamps (d : Device) (n : Nat) : (d.voidBound n).cmds.map (·.stamp) = d.cmds.map (·.stamp) := by
  have hmod (g : Cmd → Cmd) (hg : ∀ c, (g c).stamp = c.stamp) : (d.modCmd n g).cmds.map (·.stamp) = d.cmds.map (·.stamp) := by
    simp only [Device.modCmd, List.map_map]
    refine List.map_congr_left fun c _ => ?_
    dsimp only [Function.comp]
    split
    · exact hg c
    · rfl
  unfold Device.voidBound
  split
  · split
    · simpa only [Device.account_keeps] using hmod (fun c => { c with voided := true, rank := 3 }) fun _ => rfl
    · rfl
  · rfl

/-- Voiding every bound keeps every command's stamp. -/
theorem Device.voidAll_stamps (d : Device) : d.voidAll.cmds.map (·.stamp) = d.cmds.map (·.stamp) :=
  foldl_keep (fun d : Device => d.cmds.map (·.stamp)) _ Device.voidBound_stamps _ _

/-! ### The pace deficit (R486) -/

theorem paceDeficitEff_raised {d : Device} {h t : Nat} (hh : h < 2) (ht : (d.power.half h).belowAt = some t)
    (hd : (d.power.half h).deficit = false) :
    paceDeficitEff h d = ((d.by (t + 100000)).voidAll.modHalf h fun p =>
      { p with deficit := true, deficitAt := (d.by (t + 100000)).voidAll.now, deficitDeg := false }).powerEvent 0x06 h
        ((d.power.half h).pace / 100 : Nat) := by
  simp [paceDeficitEff, ht, hd, hh]

theorem paceDeficitDegradedEff_lasting {d : Device} {h : Nat} (hh : h < 2) (hd : (d.power.half h).deficit = true) :
    paceDeficitDegradedEff h d =
      ((d.by ((d.power.half h).deficitAt + 100000000)).modHalf h fun p => { p with deficitDeg := true }).degrade 4 := by
  simp [paceDeficitDegradedEff, hd, hh]

/-- The device at the end of a half's deficit: cause PACE_DEFICIT clears unless the other half's deficit has set it (R486). -/
def Device.deficitOver (d : Device) (h t : Nat) : Device :=
  let d1 := (d.by (t + 1000000000)).modHalf h fun p => { p with deficit := false, deficitDeg := false }
  if (d.power.half (1 - h)).deficitDeg then d1 else d1.undegrade 4

theorem paceRestoredEff_over {d : Device} {h t : Nat} (hh : h < 2) (ht : (d.power.half h).aboveAt = some t)
    (hd : (d.power.half h).deficit = true) :
    paceRestoredEff h d = (d.deficitOver h t).powerEvent 0x07 h ((d.power.half h).pace / 100 : Nat) := by
  simp [paceRestoredEff, Device.deficitOver, Device.half_modHalf_other, ht, hd, hh]

/-- The end of a deficit changes the instant, the halves' loops and the causes of DEGRADED. -/
theorem Device.deficitOver_only (d : Device) (h t : Nat) :
    d.deficitOver h t = { d with now := (d.deficitOver h t).now, power := (d.deficitOver h t).power, degraded := (d.deficitOver h t).degraded } := by
  unfold Device.deficitOver
  dsimp only
  split <;> rfl

theorem Device.deficitOver_now (d : Device) (h t : Nat) : (d.deficitOver h t).now = max d.now (t + 1000000000) := by
  unfold Device.deficitOver
  dsimp only
  split <;> rfl

theorem Device.deficitOver_half (d : Device) (h t : Nat) : ((d.deficitOver h t).power.half h).deficit = false := by
  unfold Device.deficitOver
  dsimp only
  split
  · rw [Device.half_modHalf_same]
  · simp only [Device.undegrade_keeps, Device.half_modHalf_same]

/-- With no deficit of the other half that has lasted 100 ms, cause PACE_DEFICIT clears (R486). -/
theorem Device.deficitOver_degraded {d : Device} {h : Nat} (t : Nat) (hother : (d.power.half (1 - h)).deficitDeg = false) :
    (d.deficitOver h t).degraded.getLsbD 4 = false := by
  simp only [Device.deficitOver, hother]
  exact Device.undegrade_getLsbD _ 4

/-- A deficit is raised once its condition has held for 100 µs: its event, and every bound void (R486, R489). -/
theorem gives_paceDeficit (s : State) {h t : Nat} (hh : h < 2) (ht : (s.dev.power.half h).belowAt = some t)
    (hd : (s.dev.power.half h).deficit = false) :
    gives (.paceDeficit h) s fun e => (e.power.half h).deficit = true ∧ e.now = max s.dev.now (t + 100000) ∧ e.boundSuspended = true ∧
      e.lastEvent = some (devEvent 0x11 (powerInfo 0x06 h ((s.dev.power.half h).pace / 100 : Nat))) ∧
      e.power.half (1 - h) = s.dev.power.half (1 - h) ∧ e.mem = s.dev.mem ∧ e.cmds.map (·.stamp) = s.dev.cmds.map (·.stamp) := by
  refine gives_of_onDev rfl ?_
  rw [paceDeficitEff_raised hh ht hd]
  have hdeficit (d : Device) (n : Nat) (i : Int) :
      (((d.modHalf h fun p => { p with deficit := true, deficitAt := n, deficitDeg := false }).powerEvent 0x06 h i).power.half h).deficit
        = true := by
    simp only [Device.powerEvent_keeps, Device.half_modHalf_same]
  refine ⟨hdeficit _ _ _, ?_, Device.boundSuspended_of_deficit (hdeficit _ _ _), Device.powerEvent_lastEvent _ _ _ _, ?_, ?_, ?_⟩
  · simp [Device.by]
  · simp [Device.half_modHalf_other _ _ hh]
  · simp
  · simp only [Device.powerEvent_keeps, Device.modHalf_keeps]
    exact Device.voidAll_stamps _

/-- A deficit of 100 ms degrades the device (R486). -/
theorem gives_paceDeficitDegraded (s : State) {h : Nat} (hh : h < 2) (hd : (s.dev.power.half h).deficit = true) :
    gives (.paceDeficitDegraded h) s fun e => e.degraded.getLsbD 4 = true ∧
      e.now = max s.dev.now ((s.dev.power.half h).deficitAt + 100000000) ∧ (e.power.half h).deficit = true ∧
      e = { s.dev.told e with now := e.now, power := e.power, degraded := e.degraded } ∧ s.dev.fnsTold e := by
  refine gives_of_onDev rfl ?_
  rw [paceDeficitDegradedEff_lasting hh hd]
  obtain ⟨htold, hfns⟩ := ((s.dev.by ((s.dev.power.half h).deficitAt + 100000000)).modHalf h fun p =>
    { p with deficitDeg := true }).degrade_told 4
  refine ⟨Device.degrade_getLsbD _ (by decide), ?_, ?_, Device.told_after rfl htold, hfns⟩
  · simp [Device.by]
  · simp [Device.half_modHalf_same, hd]

/-- A deficit ends once the rate has been at the floor for 1 s, and is told (R486). -/
theorem gives_paceRestored (s : State) {h t : Nat} (hh : h < 2) (ht : (s.dev.power.half h).aboveAt = some t)
    (hd : (s.dev.power.half h).deficit = true) :
    gives (.paceRestored h) s fun e => (e.power.half h).deficit = false ∧ e.now = max s.dev.now (t + 1000000000) ∧
      ((s.dev.power.half (1 - h)).deficitDeg = false → e.degraded.getLsbD 4 = false) ∧
      e.lastEvent = some (devEvent 0x11 (powerInfo 0x07 h ((s.dev.power.half h).pace / 100 : Nat))) ∧
      e = { s.dev.told e with now := e.now, power := e.power, degraded := e.degraded } ∧ s.dev.fnsTold e := by
  refine gives_of_onDev rfl ?_
  rw [paceRestoredEff_over hh ht hd]
  have honly := s.dev.deficitOver_only h t
  obtain ⟨htold, hfns⟩ := (s.dev.deficitOver h t).powerEvent_told 0x07 h ((s.dev.power.half h).pace / 100 : Nat)
  refine ⟨?_, ?_, fun hother => ?_, Device.powerEvent_lastEvent _ _ _ _, Device.told_after honly ?_, ?_⟩
  · simp only [Device.powerEvent_keeps, Device.deficitOver_half]
  · simp only [Device.powerEvent_keeps, Device.deficitOver_now]
  · simp only [Device.powerEvent_keeps, Device.deficitOver_degraded t hother]
  · rw [htold]; rfl
  · rw [honly] at hfns ⊢
    exact hfns

/-- Settles O11, from what each of its commands gives. -/
theorem voltageLoopAndPaceDeficit : Obligations.VoltageLoopAndPaceDeficit := by
  unfold Obligations.VoltageLoopAndPaceDeficit
  refine fun s h hh => ⟨fun counts vread iread hc hl => ?_, fun t ht hd => gives_paceDeficit s hh ht hd,
    fun hd => gives_paceDeficitDegraded s hh hd, fun t ht hd => gives_paceRestored s hh ht hd⟩
  obtain ⟨e, hstep, hhalf, hother, hout, hframe⟩ := gives_avlTick s vread iread hh hc hl
  obtain ⟨hmem, hleast⟩ := lowest_isLeast (counts := counts) (by rintro rfl; cases hc)
  refine ⟨e, hstep, (lowest counts).2, hmem, hleast, ?_, ?_, ?_, ?_, hother, hout, hframe⟩
  · rw [hhalf]; rfl
  · rw [hhalf]; exact avlNext_eq _ _ _ _
  · rw [hhalf]; rfl
  · rw [hhalf]; rfl

end Sys2Proof.Machine
end

section
/-! The Ensign: health words, its seat, takeovers, vacancy and fences (R499, R500, R521): what each event does, and the statement about them
all. -/

namespace Sys2Proof.Machine

/-! ### Health words (R499) -/

@[simp] theorem Ensign.health_modHealth_same (e : Ensign) (m : Nat) (g : Health → Health) : (e.modHealth m g).health m = g (e.health m) := by
  by_cases h : m = 0 <;> simp [Ensign.modHealth, Ensign.health, h]

theorem Ensign.health_modHealth_other (e : Ensign) {m k : Nat} (g : Health → Health) (hm : m < 2) (hk : k < 2) (hne : k ≠ m) :
    (e.modHealth m g).health k = e.health k := by
  by_cases h : m = 0
  · simp [Ensign.modHealth, Ensign.health, h, show k ≠ 0 by omega]
  · simp [Ensign.modHealth, Ensign.health, h, show k = 0 by omega]

/-- A health word changed changes the two words alone. -/
theorem Ensign.modHealth_only (e : Ensign) (m : Nat) (g : Health → Health) :
    e.modHealth m g = { e with health0 := (e.modHealth m g).health0, health1 := (e.modHealth m g).health1 } := by
  unfold Ensign.modHealth
  split <;> rfl

/-- What modHealth leaves unchanged. -/
@[simp] theorem Ensign.modHealth_keeps (e : Ensign) (m : Nat) (g : Health → Health) :
    (e.modHealth m g).holder = e.holder ∧ (e.modHealth m g).fenced = e.fenced := by
  rw [e.modHealth_only]
  exact ⟨rfl, rfl⟩

/-- The health that a word w of an MP reports, its SEQ last changed at t (R499). -/
def healthOf (w : W32) (t : Nat) : Health :=
  { seq := bits 31 16 w.toNat, state := bits 15 8 w.toNat, watchdog := w.toNat.testBit 3, memFault := w.toNat.testBit 2,
    imageFault := w.toNat.testBit 1, stale := w.toNat.testBit 0, at_ := t }

/-- A flag of a word at its place. -/
theorem flagAt_testBit (n i : Nat) : flagAt i (n.testBit i) = n / 2 ^ i % 2 * 2 ^ i := by
  rw [Nat.testBit_eq_decide_div_mod_eq, flagAt]
  rcases Nat.mod_two_eq_zero_or_one (n / 2 ^ i) with h | h <;> simp [h]

/-- A health word whose reserved bits are 0 reads back as it was written (R499). -/
theorem healthOf_word {w : W32} (t : Nat) (hw : w.toNat / 16 % 16 = 0) : (healthOf w t).word = w.toNat := by
  have hlt : w.toNat < 2 ^ 32 := w.isLt
  simp only [Health.word, healthOf, flagAt_testBit, at_, bits]
  omega

/-- A word with no failure bit and a STATE other than failed, written with a new SEQ, reports health (R499). -/
theorem healthOf_failed {w : W32} {t : Nat} (hs : bits 15 8 w.toNat = 2) (hf : w.toNat % 16 / 2 = 0) : (healthOf w t).failed t = false := by
  have hbit (i : Nat) (h : w.toNat / 2 ^ i % 2 = 0) : w.toNat.testBit i = false := by simp [Nat.testBit_eq_decide_div_mod_eq, h]
  have h1 := hbit 1 (by omega)
  have h2 := hbit 2 (by omega)
  have h3 := hbit 3 (by omega)
  simp [Health.failed, healthOf, hs, h1, h2, h3]

/-! ### An MP reset and an MP seated (R494, R500) -/

theorem Ensign.health_setVersion (e : Ensign) (m v k : Nat) : (e.setVersion m v).health k = e.health k := by
  unfold Ensign.setVersion
  split <;> rfl

@[simp] theorem Device.mpReset_health_same (d : Device) (m : Nat) : (d.mpReset m).ens.health m = { at_ := d.now } := by
  show ((d.ens.modHealth m _).setVersion m _).health m = _
  rw [Ensign.health_setVersion, Ensign.health_modHealth_same]

theorem Device.mpReset_health_other (d : Device) {m k : Nat} (hm : m < 2) (hk : k < 2) (hne : k ≠ m) :
    (d.mpReset m).ens.health k = d.ens.health k := by
  show ((d.ens.modHealth m _).setVersion m _).health k = _
  rw [Ensign.health_setVersion, Ensign.health_modHealth_other _ _ hm hk hne]

/-- An MP reset changes its health word, its version and the halt of a shadow alone. -/
theorem Device.mpReset_only (d : Device) (m : Nat) :
    d.mpReset m = { d with ens := { d.ens with
      health0 := (d.mpReset m).ens.health0, health1 := (d.mpReset m).ens.health1, version0 := (d.mpReset m).ens.version0
      version1 := (d.mpReset m).ens.version1, shadowHalted := false, shadowPc := 0 } } := by
  unfold Device.mpReset Ensign.modHealth Ensign.setVersion
  by_cases h : m = 0 <;> simp only [h, if_true, if_false]

/-- What mpReset leaves unchanged. -/
@[simp] theorem Device.mpReset_keeps (d : Device) (m : Nat) :
    (d.mpReset m).now = d.now ∧ (d.mpReset m).mem = d.mem ∧ (d.mpReset m).cmds = d.cmds ∧ (d.mpReset m).ens.holder = d.ens.holder ∧
      (d.mpReset m).ens.fences = d.ens.fences ∧ (d.mpReset m).ens.lastUs = d.ens.lastUs ∧
      (d.mpReset m).ens.takeovers = d.ens.takeovers ∧ (d.mpReset m).ens.activation = d.ens.activation ∧
      (d.mpReset m).ens.vacantResets = d.ens.vacantResets := by
  rw [d.mpReset_only]
  exact ⟨rfl, rfl, rfl, rfl, rfl, rfl, rfl, rfl, rfl⟩

@[simp] theorem Device.seat_ens (d : Device) (m : Nat) :
    (d.seat m).ens = { d.ens with holder := some m, fenced := false, vacantResets := 0 } := rfl

/-- What seat leaves unchanged. -/
@[simp] theorem Device.seat_keeps (d : Device) (m : Nat) :
    (d.seat m).now = d.now ∧ (d.seat m).mem = d.mem ∧ (d.seat m).indexes = d.indexes ∧ (d.seat m).cmds = d.cmds :=
  ⟨rfl, rfl, rfl, rfl⟩

/-- What byFailure leaves unchanged. -/
@[simp] theorem Device.byFailure_keeps (d : Device) (m : Nat) :
    (d.byFailure m).ens = d.ens ∧ (d.byFailure m).mem = d.mem ∧ (d.byFailure m).cmds = d.cmds := by
  unfold Device.byFailure
  dsimp only
  split <;> exact ⟨rfl, rfl, rfl⟩

/-- A rollback ends a live activation and changes nothing else of the Ensign. -/
@[simp] theorem Device.rollBack_ens (d : Device) : d.rollBack.ens = { d.ens with activation := none } := by
  unfold Device.rollBack
  split
  · split
    · simp only [Device.raiseDev_keeps]; rfl
    · rfl
  · next h => rw [← h]

/-- What rollBack leaves unchanged. -/
@[simp] theorem Device.rollBack_keeps (d : Device) : d.rollBack.now = d.now ∧ d.rollBack.mem = d.mem ∧ d.rollBack.cmds = d.cmds := by
  unfold Device.rollBack
  split
  · split
    · simp [Device.runSlot]
    · exact ⟨rfl, rfl, rfl⟩
  · exact ⟨rfl, rfl, rfl⟩

/-- What activationFails leaves unchanged: of the Ensign, all but the activation. -/
@[simp] theorem Device.activationFails_keeps (d : Device) :
    d.activationFails.now = d.now ∧ d.activationFails.mem = d.mem ∧ d.activationFails.cmds = d.cmds ∧
      d.activationFails.ens.holder = d.ens.holder ∧ ∀ m, d.activationFails.ens.health m = d.ens.health m := by
  unfold Device.activationFails
  split
  · split
    · simp
    · simp [Ensign.health]
  · simp

/-! ### What each command gives -/

/-- The health that MP m's writing of w gives it: its time is that of the last change of SEQ (R499). -/
def Device.healthWritten (d : Device) (m : Nat) (w : W32) : Health :=
  healthOf w (if bits 31 16 w.toNat = (d.ens.health m).seq then (d.ens.health m).at_ else d.now)

/-- The device with a health word written; one that reports health ends DEGRADED cause ENSIGN_UNHEALTHY (R500). -/
def Device.wordTaken (d : Device) (m : Nat) (w : W32) : Device :=
  let d1 := { d with ens := d.ens.modHealth m fun _ => d.healthWritten m w }
  if (d.healthWritten m w).failed d.now then d1 else d1.undegrade 6

theorem Device.wordTaken_only (d : Device) (m : Nat) (w : W32) :
    d.wordTaken m w = { d with ens := d.ens.modHealth m fun _ => d.healthWritten m w, degraded := (d.wordTaken m w).degraded } := by
  unfold Device.wordTaken
  dsimp only
  split <;> rfl

@[simp] theorem Device.wordTaken_ens (d : Device) (m : Nat) (w : W32) :
    (d.wordTaken m w).ens = d.ens.modHealth m fun _ => d.healthWritten m w := by
  rw [d.wordTaken_only]

/-- A word written while no shadow is halted: a healthy claim of a vacant Ensign seats the MP (R500). -/
theorem healthWordWriteEff_written {d : Device} {m : Nat} (w : W32) (hm : m < 2) (hr : d.phase = .ready) (hs : d.ens.shadowHalted = false) :
    healthWordWriteEff m w d =
      if bits 15 8 w.toNat = 2 ∧ d.ens.holder = none ∧ d.ens.fenced = false ∧ (d.healthWritten m w).failed d.now = false
        then (d.wordTaken m w).seat m else d.wordTaken m w := by
  have hguard : (decide (2 ≤ m) || !d.mpsRun || (d.ens.shadowHalted && d.ens.holder == some (1 - m))) = false := by
    simp [Device.mpsRun, hm, hr, hs]
  have heff : healthWordWriteEff m w d =
      if (d.healthWritten m w).state = 2 && (d.wordTaken m w).ens.holder.isNone && !(d.wordTaken m w).ens.fenced &&
        !(d.healthWritten m w).failed d.now then (d.wordTaken m w).seat m else d.wordTaken m w := by
    simp only [healthWordWriteEff, hguard, Bool.false_eq_true, if_false]
    rfl
  rw [heff, Device.wordTaken_ens]
  simp [Device.healthWritten, healthOf, and_assoc]

/-- A word written is the MP's, and the other MP's stays; a seat is taken where it is vacant and claimed in health, and only then (R499, R500). -/
theorem gives_healthWordWrite (s : State) {m : Nat} {w : W32} (hm : m < 2) (hr : s.dev.phase = .ready)
    (hs : s.dev.ens.shadowHalted = false) (hw : w.toNat / 16 % 16 = 0) :
    gives (.healthWordWrite m w) s fun e => (e.ens.health m).word = w.toNat ∧ e.ens.health (1 - m) = s.dev.ens.health (1 - m) ∧
      (s.dev.ens.holder = none → s.dev.ens.fenced = false → bits 15 8 w.toNat = 2 → w.toNat % 16 / 2 = 0 →
        bits 31 16 w.toNat ≠ (s.dev.ens.health m).seq → e.ens.holder = some m) ∧
      (s.dev.ens.holder ≠ none → e.ens.holder = s.dev.ens.holder) ∧ e.mem = s.dev.mem ∧ e.indexes = s.dev.indexes ∧
      e.cmds = s.dev.cmds := by
  refine gives_of_onDev rfl ?_
  rw [healthWordWriteEff_written w hm hr hs]
  have honly := s.dev.wordTaken_only m w
  have hread : ((s.dev.wordTaken m w).ens.health m).word = w.toNat := by
    rw [Device.wordTaken_ens, Ensign.health_modHealth_same]
    exact healthOf_word _ hw
  have hkept : (s.dev.wordTaken m w).ens.health (1 - m) = s.dev.ens.health (1 - m) := by
    rw [Device.wordTaken_ens, Ensign.health_modHealth_other _ _ hm (by omega) (by omega)]
  split
  · next hseat =>
    obtain ⟨_, hvacant, _⟩ := hseat
    refine ⟨hread, hkept, fun _ _ _ _ _ => rfl, fun hne => absurd hvacant hne, ?_⟩
    simp only [Device.seat_keeps]
    rw [honly]
    exact ⟨rfl, rfl, rfl⟩
  · next hseat =>
    refine ⟨hread, hkept, fun hnone hfree hstate hbits hseq => ?_, fun _ => ?_, ?_⟩
    · refine absurd ⟨hstate, hnone, hfree, ?_⟩ hseat
      rw [Device.healthWritten, if_neg hseq]
      exact healthOf_failed hstate hbits
    · simp only [Device.wordTaken_ens, Ensign.modHealth_keeps]
    · rw [honly]
      exact ⟨rfl, rfl, rfl⟩

/-- The device with its failed holder reset: a live activation ends with it (R432, R500). -/
def Device.holderReset (d : Device) (h : Nat) : Device := (d.byFailure h).rollBack.mpReset h

/-- The failed holder gives way: to the shadow, unless its word reports failure or staleness or another STATE than shadow (R500). -/
theorem holderFailureEff_held {d : Device} {h : Nat} (hh : d.ens.holder = some h) (hf : d.ens.fenced = false) (hr : d.phase = .ready) :
    holderFailureEff d =
      if (d.ens.health (1 - h)).failed (d.byFailure h).now || (d.ens.health (1 - h)).stale || (d.ens.health (1 - h)).state != 1
        then { d.holderReset h with ens := { (d.holderReset h).ens with holder := none, vacantAt := (d.holderReset h).now } }
        else ({ d.holderReset h with ens := { (d.holderReset h).ens with
          takeovers := min 65535 ((d.holderReset h).ens.takeovers + 1) } } : Device).seat (1 - h) := by
  have hs : (d.byFailure h).rollBack.ens.health (1 - h) = d.ens.health (1 - h) := by simp [Ensign.health]
  have hguard : (d.ens.fenced || !d.mpsRun) = false := by simp [Device.mpsRun, hf, hr]
  simp only [holderFailureEff, hh, hguard, hs, Device.rollBack_keeps, Bool.false_eq_true, if_false]
  rfl

/-- What the reset of a failed holder does and leaves unchanged. -/
theorem Device.holderReset_keeps (d : Device) (h : Nat) :
    ((d.holderReset h).ens.health h).state = 0 ∧ (d.holderReset h).ens.activation = none ∧
      (d.holderReset h).ens.takeovers = d.ens.takeovers ∧ (d.holderReset h).mem = d.mem ∧ (d.holderReset h).cmds = d.cmds := by
  simp [Device.holderReset]

/-- A failed holder is reset and gives way to a healthy shadow, counted, or leaves the Ensign vacant (R500, R521). -/
theorem gives_holderFailure (s : State) {h : Nat} (hh : s.dev.ens.holder = some h) (hf : s.dev.ens.fenced = false)
    (hr : s.dev.phase = .ready) :
    gives .holderFailure s fun e => (e.ens.health h).state = 0 ∧ e.ens.activation = none ∧ e.mem = s.dev.mem ∧ e.cmds = s.dev.cmds ∧
      ((s.dev.ens.health (1 - h)).failed (s.dev.byFailure h).now = false → (s.dev.ens.health (1 - h)).stale = false →
        (s.dev.ens.health (1 - h)).state = 1 →
          e.ens.holder = some (1 - h) ∧ e.ens.takeovers = min 65535 (s.dev.ens.takeovers + 1) ∧ e.ens.vacantResets = 0) ∧
      ((s.dev.ens.health (1 - h)).stale = true ∨ (s.dev.ens.health (1 - h)).state ≠ 1 →
        e.ens.holder = none ∧ e.ens.takeovers = s.dev.ens.takeovers) := by
  refine gives_of_onDev rfl ?_
  rw [holderFailureEff_held hh hf hr]
  obtain ⟨hstate, hact, htake, hmem, hcmds⟩ := s.dev.holderReset_keeps h
  split
  · next hunfit =>
    refine ⟨hstate, hact, hmem, hcmds, fun hfail hstale hone => ?_, fun _ => ⟨rfl, htake⟩⟩
    simp [hfail, hstale, hone] at hunfit
  · next hfit =>
    refine ⟨hstate, hact, hmem, hcmds, fun _ _ _ => ⟨rfl, by simp only [Device.seat_ens, htake], rfl⟩, fun hbad => ?_⟩
    rcases hbad with hstale | hone
    · simp [hstale] at hfit
    · simp [hone] at hfit

/-- A failed shadow is reset, and the holder stays (R500). -/
theorem gives_shadowFailure (s : State) {h : Nat} (hh2 : h < 2) (hh : s.dev.ens.holder = some h) (hf : s.dev.ens.fenced = false)
    (hr : s.dev.phase = .ready) :
    gives .shadowFailure s fun e => e.ens.holder = some h ∧ (e.ens.health (1 - h)).state = 0 ∧ e.ens.health h = s.dev.ens.health h ∧
      e.mem = s.dev.mem ∧ e.cmds = s.dev.cmds := by
  refine gives_of_onDev rfl ?_
  have heff : shadowFailureEff s.dev = (s.dev.byFailure (1 - h)).activationFails.mpReset (1 - h) := by
    simp [shadowFailureEff, Device.mpsRun, hh, hf, hr]
  rw [heff, Device.mpReset_health_other _ (m := 1 - h) (by omega) hh2 (by omega)]
  simp [hh]

/-! ### A vacant Ensign (R500) -/

/-- With no holder for 100 ms both MPs are reset; after three such resets a WARM reset with cause 8 is due (R500, R519). -/
theorem gives_ensignVacant (s : State) (hn : s.dev.ens.holder = none) (hf : s.dev.ens.fenced = false) (hr : s.dev.phase = .ready) :
    gives .ensignVacant s fun e => e.now = max s.dev.now (s.dev.ens.vacantAt + 100000000) ∧
      (s.dev.ens.vacantResets < 3 → e.ens.vacantResets = s.dev.ens.vacantResets + 1 ∧ e.ens.health0 = { at_ := e.now } ∧
        e.ens.health1 = { at_ := e.now } ∧ e = { s.dev with now := e.now, ens := e.ens }) ∧
      (3 ≤ s.dev.ens.vacantResets → e.resets = s.dev.resets ++ [⟨false, 8, e.now⟩] ∧
        e = { s.dev with now := e.now, resets := e.resets }) := by
  refine gives_of_onDev rfl ?_
  have hguard : (s.dev.ens.holder.isSome || s.dev.ens.fenced || !s.dev.mpsRun) = false := by simp [Device.mpsRun, hn, hf, hr]
  simp only [ensignVacantEff, hguard, Bool.false_eq_true, if_false, Device.by_keeps]
  split
  · next hfew => exact ⟨rfl, fun _ => ⟨rfl, rfl, rfl, rfl⟩, fun hmany => absurd hfew (Nat.not_lt.2 hmany)⟩
  · next hmany => exact ⟨rfl, fun hfew => absurd hfew hmany, fun _ => ⟨rfl, rfl⟩⟩

/-! ### A fence (R33, R500, R521) -/

theorem doubleClaimEff_held {d : Device} (hh : d.ens.holder ≠ none) (hf : d.ens.fenced = false) (hr : d.phase = .ready) :
    doubleClaimEff d = { d with ens := { d.ens with fenced := true, fencedAt := d.now, activation := none } } := by
  have hguard : (d.ens.holder.isNone || d.ens.fenced || !d.mpsRun) = false := by
    simp [Device.mpsRun, Option.isSome_iff_ne_none, hh, hf, hr]
  simp only [doubleClaimEff, hguard, Bool.false_eq_true, if_false]

/-- The MP that a fence seats: the senior half's, unless only its word reports failure (R500). -/
def Device.fenceWinner (d : Device) : Nat :=
  if (d.ens.health d.straps.senior).failed d.now = true ∧ (d.ens.health (1 - d.straps.senior)).failed d.now = false
    then 1 - d.straps.senior else d.straps.senior

/-- Both MPs' words report failure. -/
def Device.bothFailed (d : Device) : Bool := (d.ens.health 0).failed d.now && (d.ens.health 1).failed d.now

/-- The device once a fence has seated its winner and reset the other MP, before anything is reported. -/
def Device.fenceSeated (d : Device) : Device :=
  (({ d with ens := { d.ens with fences := min 65535 (d.ens.fences + 1), lastUs := min 10000 ((d.now - d.ens.fencedAt) / 1000) } } :
    Device).mpReset (1 - d.fenceWinner)).seat d.fenceWinner

theorem Device.bothFailed_eq {d : Device} (hs : d.straps.senior < 2) :
    d.bothFailed = ((d.ens.health d.straps.senior).failed d.now && (d.ens.health (1 - d.straps.senior)).failed d.now) := by
  have h01 : d.straps.senior = 0 ∨ d.straps.senior = 1 := by omega
  rcases h01 with h | h
  · rw [h]; rfl
  · rw [h]; exact Bool.and_comm _ _

theorem Device.fenceWinner_eq {d : Device} (hs : d.straps.senior < 2) :
    (if d.bothFailed then d.straps.senior else d.senior) = d.fenceWinner := by
  rw [Device.bothFailed_eq hs, Device.senior, Device.fenceWinner]
  cases (d.ens.health d.straps.senior).failed d.now <;> cases (d.ens.health (1 - d.straps.senior)).failed d.now <;> rfl

theorem Device.fenceWinner_lt {d : Device} (hs : d.straps.senior < 2) : d.fenceWinner < 2 := by
  unfold Device.fenceWinner
  split <;> omega

/-- A fence's end seats the winner, degrades the device where both MPs have failed, and reports the fence's length (R500, R521). -/
theorem ensignFenceEndEff_fenced {d : Device} (hf : d.ens.fenced = true) (hs : d.straps.senior < 2) :
    ensignFenceEndEff d = (if d.bothFailed then d.fenceSeated.degrade 6 else d.fenceSeated).raiseDev 0x0001
      (min 10000 ((d.now - d.ens.fencedAt) / 1000)) := by
  have hw : (if ((d.ens.health 0).failed d.now && (d.ens.health 1).failed d.now) = true then d.straps.senior else d.senior) = d.fenceWinner :=
    Device.fenceWinner_eq hs
  have hguard : (!d.ens.fenced) = false := by simp [hf]
  simp only [ensignFenceEndEff, hguard, Bool.false_eq_true, if_false, hw]
  rfl

/-- What a fence's end does to the Ensign, and what it leaves unchanged, before anything is reported. -/
theorem Device.fenceSeated_keeps {d : Device} (hs : d.straps.senior < 2) :
    d.fenceSeated.ens.holder = some d.fenceWinner ∧ d.fenceSeated.ens.fenced = false ∧
      d.fenceSeated.ens.health (1 - d.fenceWinner) = { at_ := d.now } ∧
      d.fenceSeated.ens.health d.fenceWinner = d.ens.health d.fenceWinner ∧ d.fenceSeated.ens.fences = min 65535 (d.ens.fences + 1) ∧
      d.fenceSeated.ens.lastUs = min 10000 ((d.now - d.ens.fencedAt) / 1000) ∧ d.fenceSeated.mem = d.mem ∧ d.fenceSeated.cmds = d.cmds := by
  have hw := Device.fenceWinner_lt hs
  refine ⟨rfl, rfl, Device.mpReset_health_same _ _, Device.mpReset_health_other _ (by omega) hw (by omega), ?_, ?_, ?_, ?_⟩ <;>
    simp [Device.fenceSeated]

/-- A double claim fences both MPs and ends a live activation (R410, R500). -/
theorem gives_doubleClaim (s : State) (hh : s.dev.ens.holder ≠ none) (hf : s.dev.ens.fenced = false) (hr : s.dev.phase = .ready) :
    gives .doubleClaim s fun e => e = { s.dev with ens := { s.dev.ens with fenced := true, fencedAt := s.dev.now, activation := none } } :=
  gives_of_onDev rfl (doubleClaimEff_held hh hf hr)

/-- At a fence's end the winner is seated, the other MP is reset, and the fence's length is told (R500, R521). -/
theorem gives_ensignFenceEnd (s : State) (hf : s.dev.ens.fenced = true) (hs : s.dev.straps.senior < 2) :
    gives .ensignFenceEnd s fun e => e.ens.holder = some s.dev.fenceWinner ∧ e.ens.fenced = false ∧
      e.ens.health (1 - s.dev.fenceWinner) = { at_ := s.dev.now } ∧
      e.ens.health s.dev.fenceWinner = s.dev.ens.health s.dev.fenceWinner ∧ e.ens.fences = min 65535 (s.dev.ens.fences + 1) ∧
      e.ens.lastUs = min 10000 ((s.dev.now - s.dev.ens.fencedAt) / 1000) ∧ e.lastEvent = some (devEvent 0x01 e.ens.lastUs) ∧
      (s.dev.bothFailed = true → e.degraded.getLsbD 6 = true) ∧ e.mem = s.dev.mem ∧ e.cmds = s.dev.cmds := by
  refine gives_of_onDev rfl ?_
  obtain ⟨hholder, hfree, hother, hwinner, hfences, hlast, hmem, hcmds⟩ := Device.fenceSeated_keeps hs
  rw [ensignFenceEndEff_fenced hf hs]
  split
  · simp only [Device.raiseDev_keeps, Device.degrade_keeps, Device.raiseDev_lastEvent, hlast]
    exact ⟨hholder, hfree, hother, hwinner, hfences, trivial, trivial, fun _ => Device.degrade_getLsbD _ (by decide), hmem, hcmds⟩
  · next hone =>
    simp only [Device.raiseDev_keeps, Device.raiseDev_lastEvent, hlast]
    exact ⟨hholder, hfree, hother, hwinner, hfences, trivial, trivial, fun hboth => absurd hboth hone, hmem, hcmds⟩

/-- Settles O14, from what each of its events gives. -/
theorem ensignSeatTakeoverAndFence : Obligations.EnsignSeatTakeoverAndFence := by
  unfold Obligations.EnsignSeatTakeoverAndFence
  refine ⟨fun s => ⟨fun m w hm hr hs hw => gives_healthWordWrite s hm hr hs hw, fun h _ hh hf hr => gives_holderFailure s hh hf hr,
    fun h hh2 hh hf hr => gives_shadowFailure s hh2 hh hf hr, fun hn hf hr => gives_ensignVacant s hn hf hr⟩,
    fun s => ⟨fun hh hf hr => gives_doubleClaim s hh hf hr, fun hf hs => ?_⟩⟩
  obtain ⟨e, hstep, hholder, hfree, hother, hwinner, hfences, hlast, hevent, hboth, hrest⟩ := gives_ensignFenceEnd s hf hs
  refine ⟨e, hstep, hholder, hfree, hother, hwinner, hfences, hlast, hevent, fun h0 h1 => hboth ?_, hrest⟩
  rw [Device.bothFailed_eq hs, h0, h1, Bool.and_self]

end Sys2Proof.Machine
end

section
/-! Words laid out as bytes and read back, and the engines, counters and semaphore pairs of an SC after an update. -/

namespace Sys2Proof.Machine

/-! ### Bytes and words (R13, R304) -/

/-- Bytes read are the bytes at their addresses. -/
theorem Device.read_eq_byteAt (d : Device) (a n : Nat) : d.read a n = (List.range n).map fun i => d.byteAt (a + i) := by
  unfold Device.read
  cases he : d.tiers.erased with
  | nil =>
    simp only [List.isEmpty_nil, if_true, Device.byteAt, he, List.find?_nil]
    refine List.map_congr_left fun i hi => ?_
    have hlt := List.mem_range.1 hi
    exact memByte_filter _ _ _ fun v => by simp [hlt]
  | cons e es => rfl

/-- Bytes just written read back where no key draw has made memory unknown. -/
theorem Device.read_write {d : Device} (a : Nat) (bs : List Byte) (he : d.tiers.erased = []) : (d.write a bs).read a bs.length = bs := by
  rw [Device.read_eq_byteAt]
  refine List.ext_getElem (by simp) fun i h _ => ?_
  have hi : i < bs.length := by simpa using h
  simp [d.byteAt_write_in a i bs he hi, hi]

/-- The little-endian bytes of a number give back what they hold of it. -/
theorem leNat_leBytes (n v : Nat) : leNat (leBytes n v) = v % 256 ^ n := by
  induction n generalizing v with
  | zero => simp [leBytes, leNat, Nat.mod_one]
  | succ n ih => simp only [leBytes, leNat, ih, BitVec.toNat_ofNat, Nat.pow_succ']; exact (Nat.mod_mul).symm

theorem length_leBytes (n v : Nat) : (leBytes n v).length = n := by
  induction n generalizing v with
  | zero => rfl
  | succ n ih => simp [leBytes, ih]

theorem length_f32Bytes (xs : List F32) : (f32Bytes xs).length = 4 * xs.length := by
  simp [f32Bytes, List.length_flatMap, length_leBytes, Nat.mul_comm]

/-- The word at position k of FP32 values laid out as bytes is the value there. -/
theorem fieldAt_f32Bytes (xs : List F32) (k : Nat) (hk : k < xs.length) : fieldAt (f32Bytes xs) (4 * k) 4 = (xs.getD k 0).toNat := by
  induction xs generalizing k with
  | nil => simp at hk
  | cons x xs ih =>
    have hx : f32Bytes (x :: xs) = leBytes 4 x.toNat ++ f32Bytes xs := rfl
    cases k with
    | zero =>
      have hword : fieldAt (f32Bytes (x :: xs)) (4 * 0) 4 = leNat (leBytes 4 x.toNat) := by
        simp [fieldAt, hx, length_leBytes]
      rw [hword, leNat_leBytes]
      exact Nat.mod_eq_of_lt x.isLt
    | succ k =>
      have hrest : fieldAt (f32Bytes (x :: xs)) (4 * (k + 1)) 4 = fieldAt (f32Bytes xs) (4 * k) 4 := by
        simp [fieldAt, hx, Nat.mul_succ, Nat.add_comm (4 * k) 4, List.drop_append, length_leBytes, List.drop_of_length_le]
      rw [hrest, ih k (by simpa using hk)]
      rfl

/-- The chunk at position k of a list cut into chunks. -/
theorem getD_chunksOf {α β : Type} (n : Nat) (g : List α → β) (z : β) (hz : g [] = z) (fuel k : Nat) (xs : List α) (hk : k < fuel) :
    ((chunksOf n fuel xs).map g).getD k z = g ((xs.drop (n * k)).take n) := by
  induction fuel generalizing k xs with
  | zero => omega
  | succ fuel ih =>
    unfold chunksOf
    cases xs with
    | nil => simp [hz]
    | cons x xs =>
      cases k with
      | zero => simp
      | succ k =>
        simp only [List.isEmpty_cons, Bool.false_eq_true, if_false, List.map_cons, List.getD_cons_succ, ih k _ (by omega)]
        rw [List.drop_drop, Nat.mul_succ, Nat.add_comm]

/-- The FP32 value at a position of bytes read as FP32 values. -/
theorem getD_f32sOf (n k : Nat) (bs : List Byte) (hk : k < n) : (f32sOf n bs).getD k 0 = BitVec.ofNat 32 (fieldAt bs (4 * k) 4) :=
  getD_chunksOf 4 (fun b => BitVec.ofNat 32 (leNat b)) 0 rfl n k bs hk

/-- The element of a table laid out row by row. -/
theorem getD_rows {α : Type} (f : Nat → Nat → α) (z : α) (m n i j : Nat) (hi : i < n) (hj : j < m) :
    ((List.range n).flatMap fun i => (List.range m).map (f i)).getD (m * i + j) z = f i j := by
  induction n with
  | zero => omega
  | succ n ih =>
    have hlen : ((List.range n).flatMap fun i => (List.range m).map (f i)).length = n * m := by simp [List.length_flatMap]
    rw [List.range_succ, List.flatMap_append]
    by_cases h : i < n
    · have hin : m * i + j < n * m := by nlinarith
      rw [List.getD_append _ _ _ _ (by rw [hlen]; exact hin), ih h]
    · obtain rfl : i = n := by omega
      rw [List.getD_append_right _ _ _ _ (by rw [hlen, Nat.mul_comm]; omega), hlen, Nat.mul_comm i m, Nat.add_sub_cancel_left]
      simp [hj]

/-! ### Parts of an SC changed -/

@[simp] theorem Device.eng_modEng_same (d : Device) (sc : Nat) (g : Engines → Engines) : (d.modEng sc g).eng sc = g (d.eng sc) :=
  tget_tmod_same _ _ _ _

theorem Device.eng_modEng_other (d : Device) {sc k : Nat} (g : Engines → Engines) (h : k ≠ sc) : (d.modEng sc g).eng k = d.eng k :=
  tget_tmod_other _ _ _ _ _ h

@[simp] theorem Device.cnt_modCnt_same (d : Device) (sc : Nat) (g : ScCounters → ScCounters) : (d.modCnt sc g).cnt sc = g (d.cnt sc) :=
  tget_tmod_same _ _ _ _

theorem Device.cnt_modEng (d : Device) (sc n : Nat) (g : Engines → Engines) : (d.modEng sc g).cnt n = d.cnt n := rfl

/-- A pair changed reads back as the change of what it read. -/
theorem Device.sem_modSem_same (d : Device) (sc k : Nat) (g : SemPair → SemPair) : (d.modSem sc k g).sem sc k = g (d.sem sc k) := by
  obtain ⟨e, he⟩ := d.modSem_cases sc k g
  simp [he, Device.sem, Device.str]

/-- Engines hold no semaphore pair. -/
theorem Device.sem_modEng (d : Device) (sc k n : Nat) (g : Engines → Engines) : (d.modEng n g).sem sc k = d.sem sc k := rfl

/-- An engine that waits says so on its pair; CONSUMER_WAIT counts the wait where the pair is an input's (R243, R267). -/
theorem Device.sem_engineWait (d : Device) (sc k : Nat) :
    (d.engineWait sc k).sem sc k =
      { d.sem sc k with engineWaits := true, wait := if (d.sem sc k).isOut then (d.sem sc k).wait else (d.sem sc k).wait + 1 } :=
  d.sem_modSem_same sc k _

end Sys2Proof.Machine
end

section
/-! The Matrix Engine: a descriptor that waits for a ring slot, a tile computed and delivered, and where the statement about them fails. -/

namespace Sys2Proof.Machine

/-! ### A descriptor that waits (R182, R243) -/

/-- An input slot that is next in its ring and has not come is waited for. -/
theorem RingWork.touch_waits {w : RingWork} {sc ctx a k j : Nat} {p : SemPair} (hring : w.dev.ringOver sc ctx a = some (k, p, j))
    (hnew : w.took = []) (hin : p.isOut = false) (hfree : p.holds = false) (hnext : p.nextPlace = j) (hnone : p.take = none) :
    w.touch sc ctx a = .error k := by
  have hnot : p.holdsPlace j = false := by
    have h := hfree
    simp only [SemPair.holds, Bool.or_eq_false_iff] at h
    simp [SemPair.holdsPlace, h]
  simp [RingWork.touch, hring, hnew, hin, hfree, hnext, hnone, hnot]

/-- A descriptor of the OPCODE asked for that passes its checks runs. -/
theorem Device.runDesc_runs {d : Device} {sc ctx op last : Nat} {f : Device → Device} (hsc : sc < 64) :
    d.runDesc sc ctx op op last true f = f d := by
  simp [Device.runDesc, Nat.not_le.mpr hsc]

/-- An ME that keeps no descriptor goes on with none. -/
theorem Device.meResume_none {d : Device} {sc : Nat} (h : (d.eng sc).meNext = none) : d.meResume sc = d := by
  simp [Device.meResume, h]

/-- An ME without work takes a descriptor that keeps the rules (R182). -/
theorem meEff_taken {d : Device} {sc op : Nat} {desc : List Byte} (hsc : sc < 64) (hop : (parseMe desc).op = op) (h0 : op ≠ 0)
    (hok : d.meOk sc (parseMe desc) = true) (hidle : (d.eng sc).meNext = none) : meEff op sc desc d = d.meGo sc desc := by
  subst hop
  simp [meEff, h0, hok, Device.runDesc_runs hsc, Device.meResume_none hidle, hidle]

/-- An ME whose first operand has not come waits for its slot and keeps the descriptor (R191, R243). -/
theorem Device.meGo_waits {d : Device} {sc k j : Nat} {desc : List Byte} {p : SemPair} (hroom : (d.eng sc).ftqHeld = none)
    (hring : d.ringOver sc (parseMe desc).ctx (parseMe desc).aAddr = some (k, p, j)) (hin : p.isOut = false) (hfree : p.holds = false)
    (hnext : p.nextPlace = j) (hnone : p.take = none) :
    d.meGo sc desc = (d.engineWait sc k).modEng sc fun g => { g with meNext := some desc } := by
  have htouch : ({ dev := d } : RingWork).touch sc (parseMe desc).ctx (parseMe desc).aAddr = .error k :=
    RingWork.touch_waits hring rfl hin hfree hnext hnone
  have htry : d.meTry sc (parseMe desc) = (d.engineWait sc k, false) := by
    simp [Device.meTry, hroom, Device.withRings, MeDesc.touches, RingWork.touchAll, htouch]
  have hctx : (d.engineWait sc k).ctx? (parseMe desc).ctx = d.ctx? (parseMe desc).ctx := by
    simp [Device.ctx?, Device.engineWait]
  have hstays : ((d.ctx? (parseMe desc).ctx).isSome && (d.ctx? (parseMe desc).ctx).isNone) = false := by
    cases d.ctx? (parseMe desc).ctx <;> rfl
  simp [Device.meGo, htry, hctx, hstays]

/-- A descriptor whose addresses lie in no ring takes and claims no slot. -/
theorem RingWork.touchAll_free {w : RingWork} {sc ctx : Nat} (as_ : List Nat) (h : ∀ a ∈ as_, w.dev.ringOver sc ctx a = none) :
    w.touchAll sc ctx as_ = .ok w := by
  induction as_ with
  | nil => rfl
  | cons a as_ ih =>
    have hfree : w.touch sc ctx a = .ok w := by simp only [RingWork.touch, h a List.mem_cons_self]
    simp only [RingWork.touchAll, hfree, ih fun b hb => h b (List.mem_cons_of_mem _ hb)]

/-- An ME with room whose operands are there computes the tile and delivers it (R187, R190). -/
theorem Device.meGo_runs {d : Device} {sc : Nat} {desc : List Byte} {fa fb : VFmt} (hroom : (d.eng sc).ftqHeld = none)
    (htag : d.meTagOk sc (parseMe desc) = true) (hfree : ∀ a ∈ (parseMe desc).touches, d.ringOver sc (parseMe desc).ctx a = none)
    (ha : (parseMe desc).aFmt = some fa) (hb : (parseMe desc).bFmt = some fb) : d.meGo sc desc = d.meTile sc (parseMe desc) fa fb := by
  have htry : d.meTry sc (parseMe desc) = (d.meTile sc (parseMe desc) fa fb, true) := by
    simp [Device.meTry, hroom, Device.withRings, RingWork.touchAll_free (w := { dev := d }) _ hfree, htag, ha, hb, RingWork.delivered,
      RingWork.restored]
  simp [Device.meGo, htry]

/-! ### A tile computed and delivered (R62, R185 to R191) -/

/-- Cell (i, j) of a descriptor's tile: inside ROWS and COLS the sum of the two rows' chunks, from the running sum under ACC_IN, or in a TABLE for L2SQ
their negated squared distance; +0 outside (R62, R185, R187, R189). -/
def Device.meCell (d : Device) (sc : Nat) (m : MeDesc) (fa fb : VFmt) (i j : Nat) : F32 :=
  if i < m.rows ∧ j < m.cols then
    if m.op = 2 ∧ (d.ctxIndex m.ctx).any (·.metric == .l2sq) = true then
      meDist (d.meRow sc fa m.depth m.aAddr m.aStr m.aPar i) (d.meRow sc fb m.depth m.bAddr m.bStr m.bPar j)
    else meSum (if m.accIn = true then some (BitVec.ofNat 32 (fieldAt (d.spad sc m.acc 16384) (4 * (64 * i + j)) 4)) else none)
      (meChunks (d.meRow sc fa m.depth m.aAddr m.aStr m.aPar i) (d.meRow sc fb m.depth m.bAddr m.bStr m.bPar j))
  else 0

theorem Device.length_meValues (d : Device) (sc : Nat) (m : MeDesc) (fa fb : VFmt) : (d.meValues sc m fa fb).length = 4096 := by
  simp [Device.meValues, List.length_flatMap]

/-- The values of a tile are its cells, row by row. -/
theorem Device.getD_meValues (d : Device) (sc : Nat) (m : MeDesc) (fa fb : VFmt) {i j : Nat} (hi : i < 64) (hj : j < 64) :
    (d.meValues sc m fa fb).getD (64 * i + j) 0 = d.meCell sc m fa fb i j := by
  unfold Device.meValues
  dsimp only
  rw [getD_rows _ 0 64 64 i j hi hj]
  unfold Device.meCell
  have hold : (f32sOf 4096 (d.spad sc m.acc 16384)).getD (64 * i + j) 0 =
      BitVec.ofNat 32 (fieldAt (d.spad sc m.acc 16384) (4 * (64 * i + j)) 4) := getD_f32sOf _ _ _ (by omega)
  by_cases hr : i < m.rows
  · by_cases hc : j < m.cols
    · simp only [List.getElem?_map, List.getElem?_range hr, List.getElem?_range hc, Option.map_some, Device.meDistances, Bool.and_eq_true,
        beq_iff_eq, hr, hc, and_self, if_true]
      split
      · rfl
      · cases hacc : m.accIn
        · rfl
        · simp only [if_true, hold]
    · simp [hc]
  · simp [hr]

/-- The device with a tile counted, and the running sums it went on from taken up (R187). -/
def Device.meCounted (d : Device) (sc : Nat) (m : MeDesc) (fa fb : VFmt) : Device :=
  let d1 := d.modCnt sc fun c => { c with meTiles := c.meTiles + 1, meBusy := c.meBusy + ceilDiv (m.depth * max (meCost2 fa) (meCost2 fb)) 2 }
  if m.accIn then d1.modEng sc fun g => { g with accTiles := tdel m.acc g.accTiles } else d1

/-- Counting a tile changes counters and the table of running sums alone. -/
theorem Device.meCounted_keeps (d : Device) (sc : Nat) (m : MeDesc) (fa fb : VFmt) :
    ((d.meCounted sc m fa fb).cnt sc).meTiles = (d.cnt sc).meTiles + 1 ∧ (∀ k, k ≠ sc → (d.meCounted sc m fa fb).eng k = d.eng k) ∧
      ((d.meCounted sc m fa fb).eng sc).ftq = (d.eng sc).ftq ∧
      d.meCounted sc m fa fb = { d with engines := (d.meCounted sc m fa fb).engines, scCnt := (d.meCounted sc m fa fb).scCnt } := by
  unfold Device.meCounted
  dsimp only
  split
  · refine ⟨?_, fun k hk => Device.eng_modEng_other _ _ hk, ?_, rfl⟩
    · rw [Device.cnt_modEng, Device.cnt_modCnt_same]
    · rw [Device.eng_modEng_same]
      rfl
  · refine ⟨?_, fun _ _ => rfl, rfl, rfl⟩
    rw [Device.cnt_modCnt_same]

/-- A descriptor's tile as the Finished Tile Queue holds it (R190). -/
def Device.meEntry (d : Device) (sc : Nat) (m : MeDesc) (fa fb : VFmt) : FtqEntry :=
  { ctx := m.ctx, unit := m.unit, tile := m.tile, opcode := m.op, rows := m.rows, cols := m.cols, values := d.meValues sc m fa fb }

/-- A tile that does not go to scratchpad goes to the Finished Tile Queue. -/
theorem Device.meTile_ftq {d : Device} {sc : Nat} {m : MeDesc} (fa fb : VFmt) (hspad : m.toSpad = false) :
    d.meTile sc m fa fb = (d.meCounted sc m fa fb).pushFtq sc (d.meEntry sc m fa fb) := by
  simp only [Device.meTile, hspad, Bool.false_eq_true, if_false]
  rfl

/-- A tile that goes to scratchpad is written there, with the count of its chunks and its tags (R181, R187). -/
theorem Device.meTile_spad {d : Device} {sc : Nat} {m : MeDesc} (fa fb : VFmt) (hspad : m.toSpad = true) :
    d.meTile sc m fa fb = ((d.meCounted sc m fa fb).spadWrite sc m.out (f32Bytes (d.meValues sc m fa fb))).modEng sc fun g =>
      { g with accTiles := tset m.out (m.chunk0 + ceilDiv m.depth 64) g.accTiles, outTags := tset m.out (m.ctx, m.unit) g.outTags } := by
  simp only [Device.meTile, hspad, if_true]
  rfl

/-- What a tile delivered by a descriptor is, wherever it goes: it is counted, no other SC's engines change, and either the Finished Tile Queue has it as
its newest entry and nothing else changes, or scratchpad has its cells and the count of its chunks, and no other byte of memory changes. -/
def Device.meDelivered (d e : Device) (sc : Nat) (m : MeDesc) (fa fb : VFmt) : Prop :=
  (e.cnt sc).meTiles = (d.cnt sc).meTiles + 1 ∧ (∀ k, k ≠ sc → e.eng k = d.eng k) ∧
    (m.toSpad = false → (d.eng sc).ftq.length < 8 →
      (∃ t, (e.eng sc).ftq = (d.eng sc).ftq ++ [t] ∧ t.ctx = m.ctx ∧ t.unit = m.unit ∧ t.tile = m.tile ∧ t.opcode = m.op ∧ t.rows = m.rows ∧
        t.cols = m.cols ∧ ∀ i j, i < 64 → j < 64 → t.values.getD (64 * i + j) 0 = d.meCell sc m fa fb i j) ∧
      e = { d with engines := e.engines, scCnt := e.scCnt }) ∧
    (m.toSpad = true →
      (∀ i j, i < 64 → j < 64 → fieldAt (e.spad sc m.out 16384) (4 * (64 * i + j)) 4 = (d.meCell sc m fa fb i j).toNat) ∧
        tget 0 m.out (e.eng sc).accTiles = m.chunk0 + ceilDiv m.depth 64 ∧ d.sameMemOutside e (scBase sc + m.out) 16384 ∧
        (e.eng sc).ftq = (d.eng sc).ftq)

/-- The queue after a push with room. -/
theorem Device.pushFtq_room {d : Device} {sc : Nat} (t : FtqEntry) (h : (d.eng sc).ftq.length < 8) :
    ((d.pushFtq sc t).eng sc).ftq = (d.eng sc).ftq ++ [t] := by
  simp [Device.pushFtq, h]

/-- A tile for the Finished Tile Queue is delivered (R190, R191). -/
theorem Device.meDelivered_ftq {d : Device} {sc : Nat} {m : MeDesc} {fa fb : VFmt} (hspad : m.toSpad = false) :
    d.meDelivered (d.meTile sc m fa fb) sc m fa fb := by
  obtain ⟨hcount, hother, hftq, honly⟩ := d.meCounted_keeps sc m fa fb
  rw [Device.meTile_ftq fa fb hspad]
  refine ⟨hcount, fun k hk => (Device.eng_modEng_other _ _ hk).trans (hother k hk), fun _ hroom => ⟨⟨d.meEntry sc m fa fb, ?_,
    rfl, rfl, rfl, rfl, rfl, rfl, fun i j hi hj => d.getD_meValues sc m fa fb hi hj⟩, ?_⟩, fun hto => absurd hto (by simp [hspad])⟩
  · rw [Device.pushFtq_room _ (by rw [hftq]; exact hroom), hftq]
  · rw [Device.pushFtq, Device.modEng, honly]

/-- A tile for scratchpad is delivered there (R187). -/
theorem Device.meDelivered_spad {d : Device} {sc : Nat} {m : MeDesc} {fa fb : VFmt} (hspad : m.toSpad = true) (he : d.tiers.erased = []) :
    d.meDelivered (d.meTile sc m fa fb) sc m fa fb := by
  obtain ⟨hcount, hother, hftq, honly⟩ := d.meCounted_keeps sc m fa fb
  have hlen : (f32Bytes (d.meValues sc m fa fb)).length = 16384 := by rw [length_f32Bytes, Device.length_meValues]
  have hclear : (d.meCounted sc m fa fb).tiers.erased = [] := by rw [honly]; exact he
  rw [Device.meTile_spad fa fb hspad]
  refine ⟨hcount, fun k hk => (Device.eng_modEng_other _ _ hk).trans (hother k hk), fun hto => absurd hto (by simp [hspad]),
    fun _ => ⟨fun i j hi hj => ?_, ?_, ?_, ?_⟩⟩
  · have hread := Device.read_write (scBase sc + m.out) (f32Bytes (d.meValues sc m fa fb)) hclear
    rw [hlen] at hread
    have hcells := fieldAt_f32Bytes (d.meValues sc m fa fb) (64 * i + j) (by rw [Device.length_meValues]; omega)
    rw [d.getD_meValues sc m fa fb hi hj] at hcells
    rw [← hcells]
    exact congrArg (fun bs => fieldAt bs (4 * (64 * i + j)) 4) hread
  · simp
  · intro x hx
    have hout := (d.meCounted sc m fa fb).byteAt_write_out (scBase sc + m.out) x (f32Bytes (d.meValues sc m fa fb)) hclear (by rw [hlen]; exact hx)
    have hsame : (d.meCounted sc m fa fb).byteAt x = d.byteAt x := by rw [honly]; rfl
    exact hout.trans hsame
  · rw [Device.eng_modEng_same]
    exact hftq

/-! ### What of the statement holds -/

/-- A descriptor that keeps the rules, with room and its operands there, is delivered, whatever its OPCODE (R187, R190). -/
theorem gives_meDelivered {s : State} {cmd : Instr} {op sc : Nat} {desc : List Byte} {fa fb : VFmt} (hc : exec cmd s = onDev (meEff op sc desc) s)
    (hsc : sc < 64) (hop : (parseMe desc).op = op) (h0 : op ≠ 0) (hok : s.dev.meOk sc (parseMe desc) = true) (hroom : (s.dev.eng sc).ftqHeld = none)
    (hidle : (s.dev.eng sc).meNext = none) (ha : (parseMe desc).aFmt = some fa) (hb : (parseMe desc).bFmt = some fb) (he : s.dev.tiers.erased = [])
    (htag : s.dev.meTagOk sc (parseMe desc) = true) (hfree : ∀ a ∈ (parseMe desc).touches, s.dev.ringOver sc (parseMe desc).ctx a = none) :
    gives cmd s fun e => s.dev.meDelivered e sc (parseMe desc) fa fb := by
  refine gives_of_onDev hc ?_
  rw [meEff_taken hsc hop h0 hok hidle, Device.meGo_runs hroom htag hfree ha hb]
  cases hspad : (parseMe desc).toSpad with
  | false => exact Device.meDelivered_ftq hspad
  | true => exact Device.meDelivered_spad hspad he

/-- A descriptor whose first operand lies in an input slot that has not come waits for it, and CONSUMER_WAIT counts the wait, where the pair found over
the operand is the one its number names (R191, R243, R267). -/
theorem gives_meWaits {s : State} {cmd : Instr} {op sc k j : Nat} {desc : List Byte} {p : SemPair} (hc : exec cmd s = onDev (meEff op sc desc) s)
    (hsc : sc < 64) (hop : (parseMe desc).op = op) (h0 : op ≠ 0) (hok : s.dev.meOk sc (parseMe desc) = true) (hroom : (s.dev.eng sc).ftqHeld = none)
    (hidle : (s.dev.eng sc).meNext = none) (hring : s.dev.ringOver sc (parseMe desc).ctx (parseMe desc).aAddr = some (k, p, j)) (hin : p.isOut = false)
    (hfree : p.holds = false) (hnext : p.nextPlace = j) (hnone : p.take = none) (hnamed : s.dev.sem sc k = p) :
    gives cmd s fun e => (e.eng sc).meNext = some desc ∧ (e.sem sc k).engineWaits = true ∧ (e.sem sc k).wait = (s.dev.sem sc k).wait + 1 ∧
      (e.eng sc).ftq = (s.dev.eng sc).ftq ∧ e.mem = s.dev.mem := by
  refine gives_of_onDev hc ?_
  rw [meEff_taken hsc hop h0 hok hidle, Device.meGo_waits hroom hring hin hfree hnext hnone]
  have htiles : (s.dev.engineWait sc k).eng sc = { s.dev.eng sc with tb := ((s.dev.engineWait sc k).eng sc).tb } :=
    ((s.dev.pairsTo_modSem sc k _).2 sc).1
  have hmem : (s.dev.engineWait sc k).mem = s.dev.mem := by simp [Device.engineWait]
  rw [Device.sem_modEng, Device.sem_engineWait, Device.eng_modEng_same, htiles, hnamed, hin]
  exact ⟨rfl, rfl, rfl, rfl, hmem⟩

/-! ### Where the statement fails -/

/-- What a command that changes the device by F gives holds of the device changed. -/
theorem effect_of_gives {c : Instr} {s : State} {F : Device → Device} {P : Device → Prop} (hc : exec c s = onDev F s) (h : gives c s P) :
    P (F s.dev) := by
  obtain ⟨e, he, hP⟩ := h
  rw [hc, onDev, Host.Outcome.next.injEq, State.mk.injEq] at he
  exact he.1 ▸ hP

/-- An input ring of one slot that lies over the first operand, of which nothing has come. -/
def emptyInput : SemPair := { active := true, nSlots := 1, slotBytes := 64 }
/-- An SC's table of semaphore pairs that lists pair 7 twice: first as an inactive output pair, then as the input ring. Updates from the reset
state's empty table list each pair once; the statement is about every state. -/
def pairListedTwice : Device := { streams := [(0, { sems := [(7, { isOut := true }), (7, emptyInput)] })] }
/-- An ME_SCORE descriptor of one BF16 row by one of depth 32, with both operands at offset 0 (R188). -/
def oneCellScore : List Byte := [1, 1, 1, 0, 1, 0, 1, 0, 32, 0, 0, 0] ++ List.replicate 52 0

/-- Refutes O36: the ring over an operand is found among the pairs of its context, while the wait is counted on the first pair listed under its
number; where a table lists the number twice, the first time as an output pair, CONSUMER_WAIT does not count the wait. -/
theorem not_matrixEngineTiles : ¬ Obligations.MatrixEngineTiles := by
  unfold Obligations.MatrixEngineTiles
  intro h
  have hring : pairListedTwice.ringOver 0 (parseMe oneCellScore).ctx (parseMe oneCellScore).aAddr = some (7, emptyInput, 0) := by decide +kernel
  have hok : pairListedTwice.meOk 0 (parseMe oneCellScore) = true := by decide +kernel
  have hop : (parseMe oneCellScore).op = 1 := by decide +kernel
  have hwaits := meEff_taken (by decide) hop (by decide) hok rfl
  rw [Device.meGo_waits rfl hring rfl rfl rfl rfl] at hwaits
  obtain ⟨-, -, hcount, -⟩ := effect_of_gives rfl <| (h { dev := pairListedTwice } 0 oneCellScore .bf16 .bf16 (by decide) hok rfl rfl
    (by decide +kernel) (by decide +kernel) rfl).1 7 emptyInput 0 hring rfl rfl rfl rfl hop
  rw [hwaits, Device.sem_modEng, Device.sem_engineWait] at hcount
  exact absurd hcount (by decide)

end Sys2Proof.Machine
end

section
/-! What bytes on their way to the tiers, and to the placed copies of what they change, can change. -/

namespace Sys2Proof.Machine

/-! ### Bytes written to the tiers (R114, R253, R328) -/

/-- What bytes on their way to the tiers change: memory, the controllers, the placed copies and the device regulator's buckets. -/
def Device.bytesTo (d e : Device) : Prop :=
  e = { d with burgees := e.burgees, mem := e.mem, tiers := e.tiers, devBuckets := e.devBuckets }

theorem Device.bytesTo_refl (d : Device) : d.bytesTo d := rfl

/-- Writes follow one another. -/
theorem Device.bytesTo_trans {d e f : Device} (h : d.bytesTo e) (k : e.bytesTo f) : d.bytesTo f := by
  unfold Device.bytesTo at *
  rw [k, h]

/-- What each step of a fold writes, the fold writes. -/
theorem Device.foldl_bytesTo {β : Type} (f : Device → β → Device) (h : ∀ (d : Device) x, d.bytesTo (f d x)) (xs : List β) (d : Device) :
    d.bytesTo (xs.foldl f d) := by
  induction xs generalizing d with
  | nil => exact d.bytesTo_refl
  | cons x xs ih => exact Device.bytesTo_trans (h d x) (ih (f d x))

theorem Device.modChan_bytesTo (d : Device) (c : Nat) (g : Channel → Channel) : d.bytesTo (d.modChan c g) := rfl

theorem Device.parityDelta_bytesTo (d : Device) (c key : Nat) : d.bytesTo (d.parityDelta c key) := by
  unfold Device.parityDelta
  split
  · exact d.modChan_bytesTo _ _
  · exact d.bytesTo_refl

/-- A flush is a change of channels, and for a parity row a charge to the device regulator (R318). -/
theorem Device.flush_bytesTo (d : Device) (c key : Nat) : d.bytesTo (d.flush c key) := by
  have hparity : ∀ e : Device, e.bytesTo (e.charge true none 0 .l 0 4096) := fun e => rfl
  unfold Device.flush
  split
  · exact d.bytesTo_refl
  · next e _ =>
    have hleft : d.bytesTo (if (e.written == [(0, keyBytes c)]) = true then d.modChan c fun k => { k with wcb := k.wcb.filter (·.key != key) }
        else (d.modChan c fun k => { k with wcb := k.wcb.filter (·.key != key) }).memCount c fun m => { m with wcbRmw := m.wcbRmw + 1 }) := by
      split <;> rfl
    dsimp only
    split
    · exact Device.bytesTo_trans hleft (hparity _)
    · exact Device.bytesTo_trans hleft (Device.parityDelta_bytesTo _ _ _)

theorem Device.wcbRoom_bytesTo (d : Device) (c : Nat) : d.bytesTo (d.wcbRoom c) := by
  unfold Device.wcbRoom
  dsimp only
  split
  · exact d.bytesTo_refl
  · cases oldestOf (d.ctrlWcb c) with
    | none => exact d.bytesTo_refl
    | some o => exact d.flush_bytesTo _ _

/-- A part of a row or unit accepted, in whichever state its channel is (R323, R326, R328). -/
theorem Device.acceptPart_bytesTo (d : Device) (c key lo hi : Nat) : d.bytesTo (d.acceptPart c key lo hi) := by
  have hcount : d.bytesTo (d.memCount c fun m => { m with writes := m.writes + 1 }) := rfl
  have hjournal : ∀ e : Device, e.bytesTo (if (e.chan c).journal.contains key then e
      else (e.modChan c fun k => { k with journal := k.journal ++ [key] }).memCount c fun m => { m with journal := m.journal + 1 }) := by
    intro e
    split <;> rfl
  unfold Device.acceptPart
  dsimp only
  split
  · exact Device.bytesTo_trans (Device.bytesTo_trans hcount (hjournal _)) (Device.parityDelta_bytesTo _ _ _)
  · split
    · exact Device.bytesTo_trans hcount (Device.parityDelta_bytesTo _ _ _)
    · exact hcount
  · split
    · exact Device.bytesTo_trans hcount (Device.parityDelta_bytesTo _ _ _)
    · exact Device.bytesTo_trans hcount (hjournal _)
  · have hroom : ∀ (b : Bool) (e : Device), e.bytesTo (if b = true then e else e.wcbRoom c) := by
      intro b e
      split
      · exact e.bytesTo_refl
      · exact e.wcbRoom_bytesTo c
    have hjoined := Device.bytesTo_trans hcount (hroom ((d.chan c).wcb.any (·.key == key)) _)
    split
    · exact Device.bytesTo_trans (Device.bytesTo_trans hjoined (Device.modChan_bytesTo _ _ _)) (Device.flush_bytesTo _ _ _)
    · exact Device.bytesTo_trans hjoined (Device.modChan_bytesTo _ _ _)

theorem Device.memWrite_bytesTo (d : Device) (a : Nat) (bs : List Byte) : d.bytesTo (d.memWrite a bs) :=
  Device.bytesTo_trans (e := d.write a bs) rfl (Device.foldl_bytesTo _ (fun d _ => d.acceptPart_bytesTo _ _ _ _) _ _)

theorem Device.writeMirrored_bytesTo (d : Device) (a b : Nat) (bs : List Byte) : d.bytesTo (d.writeMirrored a b bs) :=
  Device.foldl_bytesTo _ (fun d _ => Device.bytesTo_trans (d.memWrite_bytesTo _ _) (Device.memWrite_bytesTo _ _ _)) _ d

/-! ### Placed copies and structures written (R76, R90 to R95, R105, R114) -/

theorem Device.unplace_bytesTo (d : Device) (x : Index) (unit state : Nat) : d.bytesTo (d.unplace x unit state) := by
  unfold Device.unplace
  split
  · exact d.bytesTo_refl
  · exact Device.bytesTo_trans (e := d.modBurgee _ _) rfl (Device.memWrite_bytesTo _ _ _)

/-- What mirrors a write to the L-tier writes the copies, or makes them invalid (R114). -/
theorem Device.mirrorFor_bytesTo (d : Device) (x : Index) (a : Nat) (bs : List Byte) : d.bytesTo (d.mirrorFor x a bs) := by
  unfold Device.mirrorFor
  dsimp only
  refine Device.bytesTo_trans (Device.foldl_bytesTo _ (fun d p => ?_) _ d) (Device.foldl_bytesTo _ (fun d s => ?_) _ _)
  · split
    · exact d.bytesTo_refl
    · split
      · exact d.unplace_bytesTo _ _ _
      · exact Device.foldl_bytesTo _ (fun d w => d.memWrite_bytesTo _ _) _ d
  · split
    · exact d.bytesTo_refl
    · split <;> exact d.memWrite_bytesTo _ _

theorem Device.put_bytesTo (d : Device) (x : Index) (a : Nat) (bs : List Byte) : d.bytesTo (d.put x a bs) :=
  Device.bytesTo_trans (d.mirrorFor_bytesTo _ _ _) (Device.memWrite_bytesTo _ _ _)

theorem Device.syncRecord_bytesTo (d : Device) (i : Nat) : d.bytesTo (d.syncRecord i) := by
  unfold Device.syncRecord
  split
  · exact Device.bytesTo_trans (d.memWrite_bytesTo _ _) (Device.writeMirrored_bytesTo _ _ _ _)
  · exact d.bytesTo_refl

theorem Device.syncCell_bytesTo (d : Device) (i n : Nat) : d.bytesTo (d.syncCell i n) := by
  unfold Device.syncCell
  split
  · exact d.put_bytesTo _ _ _
  · exact d.bytesTo_refl

theorem Device.syncTomb_bytesTo (d : Device) (i n : Nat) : d.bytesTo (d.syncTomb i n) := by
  unfold Device.syncTomb
  split
  · exact d.put_bytesTo _ _ _
  · exact d.bytesTo_refl

theorem Device.putBlock_bytesTo (d : Device) (x : Index) (n b : Nat) (s : CellSet) : d.bytesTo (d.putBlock x n b s) := by
  unfold Device.putBlock
  dsimp only
  have hrefine : ∀ (a : Nat) (bs : List Byte), d.bytesTo (if x.refine.isSome = true then (d.put x (s.slotBase + b * x.blockLen) (x.slotBlock n s b)).memWrite a bs
      else d.put x (s.slotBase + b * x.blockLen) (x.slotBlock n s b)) := by
    intro a bs
    split
    · exact Device.bytesTo_trans (d.put_bytesTo _ _ _) (Device.memWrite_bytesTo _ _ _)
    · exact d.put_bytesTo _ _ _
  split
  · exact hrefine _ _
  · exact Device.bytesTo_trans (hrefine _ _) (Device.memWrite_bytesTo _ _ _)

theorem Device.syncBlock_bytesTo (d : Device) (i n b : Nat) : d.bytesTo (d.syncBlock i n b) := by
  unfold Device.syncBlock
  split
  · exact d.bytesTo_refl
  · exact d.putBlock_bytesTo _ _ _ _

theorem Device.syncDelta_bytesTo (d : Device) (i e : Nat) : d.bytesTo (d.syncDelta i e) := by
  unfold Device.syncDelta
  split
  · exact d.bytesTo_refl
  · split <;> exact Device.bytesTo_trans (d.memWrite_bytesTo _ _) (Device.memWrite_bytesTo _ _ _)

theorem Device.syncBucket_bytesTo (d : Device) (i b : Nat) : d.bytesTo (d.syncBucket i b) := by
  unfold Device.syncBucket
  split
  · exact d.memWrite_bytesTo _ _
  · exact d.bytesTo_refl

theorem Device.unitActive_bytesTo (d : Device) (x : Index) (unit : Nat) : d.bytesTo (d.unitActive x unit) := by
  unfold Device.unitActive
  split
  · rfl
  · exact Device.bytesTo_trans (e := d.write _ _) rfl (Device.foldl_bytesTo _ (fun d p => (rfl : d.bytesTo (d.write _ _))) _ _)

end Sys2Proof.Machine
end

section
/-! An index changed by a write: how changes follow one another, and what a rewrite under way leaves of the index. -/

namespace Sys2Proof.Machine

/-! ### An index changed (R361, R386) -/

/-- A write has made index i into y: no other index changes, and beside what mirrors it only the accounts of functions, which metering moves, and the
count of abandoned rewrites. -/
def Device.writtenTo (d e : Device) (i : Nat) (y : Index) : Prop :=
  ({ d with fns := e.fns, devCnt := e.devCnt } : Device).indexTo e i y ∧ d.fnsMetered e

/-- Writes to an index follow one another. -/
theorem Device.writtenTo_trans {d e f : Device} {i : Nat} {y z : Index} (h : d.writtenTo e i y) (k : e.writtenTo f i z) : d.writtenTo f i z := by
  obtain ⟨⟨-, hother, honly⟩, hfns⟩ := h
  obtain ⟨⟨kfound, kother, konly⟩, kfns⟩ := k
  refine ⟨⟨kfound, fun j hj => (kother j hj).trans (hother j hj), ?_⟩, Device.fnsMetered_trans hfns kfns⟩
  rw [konly, honly]

/-- Bytes written leave the index as it is. -/
theorem Device.writtenTo_of_bytesTo {d e : Device} {i : Nat} {x : Index} (hx : tfind i d.indexes = some x) (h : d.bytesTo e) : d.writtenTo e i x := by
  unfold Device.bytesTo at h
  rw [h]
  exact ⟨⟨hx, fun _ _ => rfl, rfl⟩, fun _ => rfl⟩

/-- Charges leave the index as it is. -/
theorem Device.writtenTo_of_readsCharged {d e : Device} {i : Nat} {x : Index} (hx : tfind i d.indexes = some x) (h : d.readsCharged e) :
    d.writtenTo e i x := by
  obtain ⟨honly, hfns, -⟩ := h
  refine ⟨?_, hfns⟩
  rw [honly]
  exact ⟨hx, fun _ _ => rfl, rfl⟩

/-- Bytes written after a write to the index leave what the write made of it. -/
theorem Device.writtenTo_bytes {d e f : Device} {i : Nat} {y : Index} (h : d.writtenTo e i y) (k : e.bytesTo f) : d.writtenTo f i y :=
  Device.writtenTo_trans h (Device.writtenTo_of_bytesTo h.1.1 k)

/-- The device with an index changed, where the index exists. -/
theorem Device.modIndex_found {d : Device} {i : Nat} {x : Index} (hx : tfind i d.indexes = some x) (g : Index → Index) :
    d.modIndex i g = { d with indexes := tset i (g x) d.indexes } := by
  simp only [Device.modIndex, hx]

/-- An index changed is written as the change of what it was. -/
theorem Device.writtenTo_modIndex {d : Device} {i : Nat} {x : Index} (hx : tfind i d.indexes = some x) (g : Index → Index) :
    d.writtenTo (d.modIndex i g) i (g x) := by
  rw [Device.modIndex_found hx]
  exact ⟨⟨tfind_tset_same _ _ _, fun j hj => tfind_tset_other _ _ _ _ hj, rfl⟩, fun _ => rfl⟩

/-- An index written is changed further. -/
theorem Device.writtenTo_mod {d e : Device} {i : Nat} {y : Index} (h : d.writtenTo e i y) (g : Index → Index) :
    d.writtenTo (e.modIndex i g) i (g y) :=
  Device.writtenTo_trans h (Device.writtenTo_modIndex h.1.1 g)

/-- The space of a rewrite given back changes of the index how much it has reserved or in use. -/
theorem Device.writtenTo_dropCopy {d e : Device} {i : Nat} {y : Index} (h : d.writtenTo e i y) (r : Option Rewrite) :
    ∃ n m, d.writtenTo (e.dropCopy i r) i { y with reserved := n, windowUsed := m } := by
  unfold Device.dropCopy
  cases r with
  | none => exact ⟨y.reserved, y.windowUsed, h⟩
  | some r =>
    have hfreed := Device.writtenTo_trans h (Device.writtenTo_of_bytesTo
      (e := { e with tiers := { e.tiers with extL := e.tiers.extL.filter (·.base != r.base) } }) h.1.1 rfl)
    have hback := Device.writtenTo_mod hfreed fun x => if r.window then { x with windowUsed := x.windowUsed - r.bytes }
      else { x with reserved := x.reserved - r.bytes }
    cases hw : r.window with
    | true => exact ⟨y.reserved, y.windowUsed - r.bytes, by simpa [hw] using hback⟩
    | false => exact ⟨y.reserved - r.bytes, y.windowUsed, by simpa [hw] using hback⟩

/-! ### Rewrites under way (R110) -/

/-- The index y holds the vectors that x holds: in its delta segment, and in each cell with its tombstones and its count; its own counts are the
same. -/
def Index.holdsSame (x y : Index) : Prop :=
  y.writeSeq = x.writeSeq ∧ y.occupied = x.occupied ∧ y.nLive = x.nLive ∧ y.delta = x.delta ∧
    ∀ n, (y.cell n).cur = (x.cell n).cur ∧ (y.cell n).nLive = (x.cell n).nLive

theorem Index.holdsSame_refl (x : Index) : x.holdsSame x := ⟨rfl, rfl, rfl, rfl, fun _ => ⟨rfl, rfl⟩⟩

/-- A cell changed reads back. -/
@[simp] theorem Index.cell_modCell_same (x : Index) (n : Nat) (g : Cell → Cell) : (x.modCell n g).cell n = g (x.cell n) := by
  simp only [Index.cell, Index.modCell, tfind_tset_same, Option.getD_some]

/-- Every other cell reads as before. -/
theorem Index.cell_modCell_other (x : Index) {n m : Nat} (g : Cell → Cell) (h : m ≠ n) : (x.modCell n g).cell m = x.cell m := by
  simp only [Index.cell, Index.modCell, tfind_tset_other _ _ _ _ h]
  rfl

/-- A cell changed in what a rewrite needs holds the same vectors. -/
theorem Index.holdsSame_modCell (x : Index) (n : Nat) (g : Cell → Cell) (hg : (g (x.cell n)).cur = (x.cell n).cur ∧ (g (x.cell n)).nLive = (x.cell n).nLive) :
    x.holdsSame (x.modCell n g) := by
  refine ⟨rfl, rfl, rfl, rfl, fun m => ?_⟩
  by_cases hm : m = n
  · subst hm
    rw [Index.cell_modCell_same]
    exact hg
  · rw [Index.cell_modCell_other _ _ hm]
    exact ⟨rfl, rfl⟩

/-- A rewrite abandoned leaves the vectors of the index (R110). -/
theorem Device.abandonRewrite_written {d : Device} {i : Nat} {x : Index} (unit : Nat) (hx : tfind i d.indexes = some x) :
    ∃ y, d.writtenTo (d.abandonRewrite i unit false) i y ∧ x.holdsSame y := by
  have hcount : d.writtenTo { d with devCnt := { d.devCnt with rewritesAbandoned := d.devCnt.rewritesAbandoned + 1 } } i x :=
    ⟨⟨hx, fun _ _ => rfl, rfl⟩, fun _ => rfl⟩
  have hkept : d.writtenTo d i x := Device.writtenTo_of_bytesTo hx d.bytesTo_refl
  simp only [Device.abandonRewrite, hx, Bool.false_eq_true, if_false, Nat.le_zero, decide_eq_true_eq, OfNat.ofNat_ne_zero, Bool.and_eq_true, false_and]
  split
  · split
    · exact ⟨x, hkept, x.holdsSame_refl⟩
    · obtain ⟨n, m, h⟩ := Device.writtenTo_dropCopy (Device.writtenTo_mod hcount _) _
      exact ⟨_, Device.writtenTo_bytes h (Device.unitActive_bytesTo _ _ _), rfl, rfl, rfl, rfl, fun _ => ⟨rfl, rfl⟩⟩
  · split
    · exact ⟨x, hkept, x.holdsSame_refl⟩
    · next c hc =>
      obtain ⟨n, m, h⟩ := Device.writtenTo_dropCopy (Device.writtenTo_mod hcount _) _
      refine ⟨_, Device.writtenTo_bytes h (Device.unitActive_bytesTo _ _ _), ?_⟩
      have hcell : x.cell unit = c := by simp [Index.cell, hc]
      exact x.holdsSame_modCell unit (fun _ => _) (by rw [hcell]; exact ⟨rfl, rfl⟩)

/-- A write that joins a catch-up list, or overflows it, leaves the vectors of the index (R110). -/
theorem Device.catchUp_written {d : Device} {i : Nat} {x : Index} (unit : Nat) (r : CatchUp) (hx : tfind i d.indexes = some x) :
    ∃ y, d.writtenTo (d.catchUp i unit r) i y ∧ x.holdsSame y := by
  have hkept : d.writtenTo d i x := Device.writtenTo_of_bytesTo hx d.bytesTo_refl
  simp only [Device.catchUp, hx]
  split
  · split
    · exact ⟨x, hkept, x.holdsSame_refl⟩
    · split
      · exact Device.abandonRewrite_written unit hx
      · refine ⟨_, Device.writtenTo_modIndex hx _, ?_⟩
        unfold Index.modGroup
        split
        · exact ⟨rfl, rfl, rfl, rfl, fun _ => ⟨rfl, rfl⟩⟩
        · exact x.holdsSame_refl
  · split
    · exact ⟨x, hkept, x.holdsSame_refl⟩
    · split
      · exact Device.abandonRewrite_written unit hx
      · exact ⟨_, Device.writtenTo_modIndex hx _, x.holdsSame_modCell unit _ ⟨rfl, rfl⟩⟩

end Sys2Proof.Machine
end

section
/-! DELETE and ATTR_SET: what they move, what they make of a vector where it lies, and the statement about both commands. -/

namespace Sys2Proof.Machine

/-! ### What a write moves (R30, R251, R361) -/

theorem Device.chargeNma_metered (d : Device) (t : Traffic) (n : Nat) (h : t.own = false) : d.readsCharged (d.chargeNma t n) := by
  unfold Device.chargeNma
  rw [h]
  exact d.charge_metered _ _ _ _ _

theorem Device.chargeEnd_metered (d : Device) (x : Index) (t : Traffic) (l : Loc) (h : t.own = false) : d.readsCharged (d.chargeEnd x t l) := by
  cases l with
  | slot n s => exact d.chargeNma_metered _ _ h
  | node n => exact d.chargeNma_metered _ _ h
  | delta e => exact Device.readsCharged_trans (d.chargeAt_metered _ _ _ _ h) (Device.chargeAt_metered _ _ _ _ _ h)

theorem Device.chargeAttrs_metered (d : Device) (x : Index) (t : Traffic) (mask : Nat) (l : Loc) (h : t.own = false) :
    d.readsCharged (d.chargeAttrs x t mask l) := by
  cases l with
  | slot n s =>
    exact Device.readsCharged_trans (Device.foldl_metered _ (fun d w => d.chargeAt_metered _ _ _ _ h) _ d) (Device.chargeNma_metered _ _ _ h)
  | node n => exact d.chargeAt_metered _ _ _ _ h
  | delta e => exact Device.readsCharged_trans (d.chargeAt_metered _ _ _ _ h) (Device.chargeAt_metered _ _ _ _ _ h)

/-- What meters with a location and without one meters. -/
theorem Device.elim_metered {d e : Device} {f : Loc → Device} (loc : Option Loc) (hnone : d.readsCharged e) (hsome : ∀ l, d.readsCharged (f l)) :
    d.readsCharged (loc.elim e f) := by
  cases loc with
  | none => exact hnone
  | some l => exact hsome l

/-- A data-path write is charged to its function and its burgee, never to the device (R30). -/
theorem Device.chargeWrite_metered (d : Device) (x : Index) (w : WriteReq) (loc : Option Loc) : d.readsCharged (d.chargeWrite x w loc) := by
  have hat : ∀ (e : Device) (a n : Nat), e.readsCharged (e.chargeAt (x.dataPath w) a n true) := fun e _ _ => e.chargeAt_metered _ _ _ _ rfl
  have hend : ∀ (e : Device) (l : Loc), e.readsCharged (e.chargeEnd x (x.dataPath w) l) := fun e _ => e.chargeEnd_metered _ _ _ rfl
  have hentry := Device.readsCharged_trans (hat d (x.deltaFBase + x.deltaHead * x.deltaLen) x.deltaLen)
    (hat _ (x.deltaLogBase + x.deltaHead * x.deltaLen) x.deltaLen)
  cases hop : w.op with
  | insert =>
    simp only [Device.chargeWrite, hop]
    exact Device.readsCharged_trans hentry (hat _ _ _)
  | upsert =>
    simp only [Device.chargeWrite, hop]
    have hadded := Device.readsCharged_trans hentry (hat _ (x.idMapBase + 256 * (idHash x.idMapBuckets w.id).2) 256)
    exact Device.elim_metered loc hadded fun l => Device.readsCharged_trans hadded (hend _ l)
  | delete =>
    simp only [Device.chargeWrite, hop]
    exact Device.elim_metered loc d.readsCharged_refl fun l => Device.readsCharged_trans (hat _ _ _) (hend _ l)
  | attrSet =>
    simp only [Device.chargeWrite, hop]
    exact Device.elim_metered loc d.readsCharged_refl fun l => d.chargeAttrs_metered _ _ _ l rfl
  | search | msearch | range | get | fence => simpa only [Device.chargeWrite, hop] using d.readsCharged_refl

/-! ### The effects on a vector (R72, R95, R106) -/

/-- The cell with a slot's tombstone bit set and N_LIVE one lower (R95). -/
def Cell.tombed (c : Cell) (s : Nat) : Cell :=
  { c with nLive := c.nLive - 1, cur := { c.cur with tombs := if c.cur.tombs.contains s then c.cur.tombs else c.cur.tombs ++ [s] } }
/-- The index with a slot tombstoned, and N_LIVE one lower (R95). -/
def Index.tombed (x : Index) (n s : Nat) : Index := { x.modCell n (Cell.tombed · s) with nLive := x.nLive - 1 }
/-- The index with a delta entry replaced (R105). -/
def Index.withDelta (x : Index) (e : Nat) (v : DeltaEntry) : Index := { x with delta := tset e v x.delta }
/-- The index with the attribute words of a slot replaced, and its cell's summary (R72, R91). -/
def Index.withAttrs (x : Index) (n s : Nat) (summary : Summary) (v : Slot) : Index :=
  x.modCell n fun c => { c with summary := summary, cur := { c.cur with slots := tset s v c.cur.slots } }

/-- DELETE of a vector in a slot tombstones the slot (R95). -/
theorem Device.tombSlot_written {d : Device} {i : Nat} {x : Index} (n s : Nat) (hx : tfind i d.indexes = some x) :
    ∃ y, d.writtenTo (d.tombSlot i n s) i y ∧ (x.tombed n s).holdsSame y := by
  have hmod := Device.writtenTo_modIndex hx (Index.tombed · n s)
  obtain ⟨y, hcatch, hsame⟩ := Device.catchUp_written n (.tomb s) hmod.1.1
  have hbits := Device.writtenTo_bytes (Device.writtenTo_trans hmod hcatch) (Device.syncTomb_bytesTo _ i n)
  exact ⟨y, Device.writtenTo_bytes (Device.writtenTo_bytes hbits (Device.syncCell_bytesTo _ i n)) (Device.syncRecord_bytesTo _ i), hsame⟩

/-- A delta entry ends at the present view (R106). -/
theorem Device.endDelta_written {d : Device} {i e state : Nat} {x : Index} {v : DeltaEntry} (hx : tfind i d.indexes = some x)
    (hv : tfind e x.delta = some v) : d.writtenTo (d.endDelta i e state) i (x.withDelta e { v with state := state, endView := x.view }) := by
  have hmod := Device.writtenTo_modIndex hx fun x => match tfind e x.delta with
    | some v => { x with delta := tset e { v with state := state, endView := x.view } x.delta }
    | none => x
  simp only [hv] at hmod
  exact Device.writtenTo_bytes hmod (Device.syncDelta_bytesTo _ i e)

/-- ATTR_SET of a vector in the delta segment replaces its words there (R72, R386). -/
theorem Device.setAttrs_delta_written {d : Device} {i e : Nat} {x : Index} {v : DeltaEntry} (mask : Nat) (ws : List W64)
    (hx : tfind i d.indexes = some x) (haway : x.away = []) (hv : tfind e x.delta = some v) :
    d.writtenTo (d.setAttrs i (.delta e) mask ws) i (x.withDelta e { v with attrs := maskWords mask ws v.attrs }) := by
  have hmod := Device.writtenTo_modIndex hx fun x => match tfind e x.delta with
    | some v => { x with delta := tset e { v with attrs := maskWords mask ws v.attrs } x.delta }
    | none => x
  simp only [hv] at hmod
  simp only [Device.setAttrs, hx, haway, List.any_nil, Bool.false_eq_true, if_false]
  exact Device.writtenTo_bytes hmod (Device.syncDelta_bytesTo _ i e)

/-- ATTR_SET of a vector in a slot replaces its words there and keeps the cell's summary true (R72, R91, R386). -/
theorem Device.setAttrs_slot_written {d : Device} {i n s : Nat} {x : Index} {v : Slot} (mask : Nat) (ws : List W64)
    (hx : tfind i d.indexes = some x) (haway : x.away = []) (hv : tfind s (x.cell n).cur.slots = some v) :
    ∃ m y, d.writtenTo (d.setAttrs i (.slot n s) mask ws) i y ∧
      (x.withAttrs n s m { v with attrs := maskWords mask ws v.attrs }).holdsSame y := by
  have hmod := Device.writtenTo_modIndex hx fun x =>
    x.withAttrs n s (d.summaryAfter x n (x.cell n).summary [maskWords mask ws v.attrs]) { v with attrs := maskWords mask ws v.attrs }
  obtain ⟨y, hcatch, hsame⟩ := Device.catchUp_written n (.attr s (maskWords mask ws v.attrs)) hmod.1.1
  have hblock := Device.writtenTo_bytes (Device.writtenTo_trans hmod hcatch) (Device.syncBlock_bytesTo _ i n (s / 64))
  simp only [Device.setAttrs, hx, haway, hv, List.any_nil, Bool.false_eq_true, if_false]
  exact ⟨_, y, Device.writtenTo_bytes hblock (Device.syncCell_bytesTo _ i n), hsame⟩

/-- Where an index names no other device's locations, a vector in a slot ends by its tombstone (R95). -/
theorem Device.endVector_slot {d : Device} {i : Nat} {x : Index} (hx : tfind i d.indexes = some x) (haway : x.away = []) (n s state : Nat) :
    d.endVector i (.slot n s) state = d.tombSlot i n s := by
  simp only [Device.endVector, hx, Option.bind_some, haway, List.find?_nil]

/-- And one in the delta segment by the end of its entry (R106). -/
theorem Device.endVector_delta {d : Device} {i : Nat} {x : Index} (hx : tfind i d.indexes = some x) (haway : x.away = []) (e state : Nat) :
    d.endVector i (.delta e) state = d.endDelta i e state := by
  simp only [Device.endVector, hx, Option.bind_some, haway, List.find?_nil]

/-- The index with an entry of its ID map vacated (R85). -/
def Index.vacated (x : Index) (b p : Nat) : Index :=
  { x with idMap := tset b (tset p 1 (tget [] b x.idMap)) x.idMap, occupied := x.occupied - 1 }

/-- An entry of the ID map is vacated, and one entry fewer is occupied (R85, R86). -/
theorem Device.idVacate_written {d e : Device} {i : Nat} {y : Index} (h : d.writtenTo e i y) (b p : Nat) :
    d.writtenTo (e.idVacate i b p) i (y.vacated b p) :=
  Device.writtenTo_mod (Device.writtenTo_bytes (Device.writtenTo_mod h _) (Device.syncBucket_bytesTo _ i b)) _

/-! ### A write applied to its index (R386) -/

theorem Device.tfind_of_index? {d : Device} {i : Nat} {x : Index} (h : d.index? i = some x) : tfind i d.indexes = some x := by
  unfold Device.index? at h
  split at h
  · next y hy =>
    split at h
    · rw [hy, ← h]
    · cases h
  · cases h

/-- The end of an applied write: WRITE_SEQ rises and the index record is written. -/
def Device.countWrite (d : Device) (i : Nat) : Device := (d.modIndex i fun x => { x with writeSeq := x.writeSeq + 1 }).syncRecord i

theorem Device.countWrite_written {d e : Device} {i : Nat} {y : Index} (h : d.writtenTo e i y) :
    d.writtenTo (e.countWrite i) i { y with writeSeq := y.writeSeq + 1 } :=
  Device.writtenTo_bytes (Device.writtenTo_mod h _) (Device.syncRecord_bytesTo _ i)

/-- DELETE of a vector that the ID map finds ends it and vacates its entry (R386). -/
theorem Device.applyWrite_delete {d : Device} {i b p : Nat} {x : Index} {w : WriteReq} {l : Loc} (hx : d.index? i = some x)
    (hop : w.op = .delete) (hl : x.lookup w.id = some (b, p, l)) :
    d.applyWrite i w = (0, x.writeSeq + 1, (((d.chargeWrite x w (some l)).endVector i l 2).idVacate i b p).countWrite i) := by
  simp [Device.applyWrite, hx, hl, hop, Index.writeStatus, Device.countWrite]

/-- ATTR_SET of a vector that the ID map finds replaces its words (R386). -/
theorem Device.applyWrite_attrSet {d : Device} {i b p : Nat} {x : Index} {w : WriteReq} {l : Loc} (hx : d.index? i = some x)
    (hop : w.op = .attrSet) (hl : x.lookup w.id = some (b, p, l)) :
    d.applyWrite i w = (0, x.writeSeq + 1, ((d.chargeWrite x w (some l)).setAttrs i l w.mask w.attrs).countWrite i) := by
  simp [Device.applyWrite, hx, hl, hop, Index.writeStatus, Device.countWrite]

/-- DELETE and ATTR_SET of an ID that the ID map does not find have the status ID_NOT_FOUND and no effect (R386). -/
theorem Device.applyWrite_notFound {d : Device} {i : Nat} {x : Index} {w : WriteReq} (hx : d.index? i = some x)
    (hop : w.op = .delete ∨ w.op = .attrSet) (hl : x.lookup w.id = none) : d.applyWrite i w = (stIdNotFound, 0, d) := by
  rcases hop with hop | hop <;> simp [Device.applyWrite, hx, hl, hop, Index.writeStatus, stIdNotFound]

/-! ### DELETE and ATTR_SET as commands (R386, R393) -/

/-- An accepted write of an opcode has its turn: it is not yet applied, was not forwarded, and no write accepted before it waits (R386, R393). -/
structure Device.appliesNow (d : Device) (op : IoOp) (k : Nat) (c : Cmd) : Prop where
  found    : d.cmd? k = some c
  opcode   : c.op = op
  accepted : c.accepted.isSome = true
  waiting  : c.applied = false
  ours     : c.forwarded = []
  first    : d.unapplied c = false
  local_   : d.shoalIndex? c.indexNo = none

/-- A command changed reads back, where its stamp stays. -/
theorem Device.cmd?_modCmd_same {d : Device} {k : Nat} {c : Cmd} (g : Cmd → Cmd) (hg : ∀ c, (g c).stamp = c.stamp) (h : d.cmd? k = some c) :
    (d.modCmd k g).cmd? k = some (g c) := by
  have hstamp : ∀ a : Cmd, ((if a.stamp == k then g a else a).stamp == k) = (a.stamp == k) := by
    intro a
    split <;> simp [hg]
  have hfound : d.cmds.find? (·.stamp == k) = some c := h
  have hk : (c.stamp == k) = true := List.find?_some (p := fun c : Cmd => c.stamp == k) hfound
  simp only [Device.cmd?, Device.modCmd, List.find?_map, Function.comp_def, hstamp, hfound, Option.map_some, hk, if_true]

theorem Device.shoalIndex?_of_shoal {d e : Device} (h : e.shoal = d.shoal) (i : Nat) : e.shoalIndex? i = d.shoalIndex? i := by
  unfold Device.shoalIndex? Device.inShoal
  rw [h]

/-- A command whose write has been applied, with its status and its WRITE_SEQ (R386). -/
def Cmd.settled (st seq : Nat) (c : Cmd) : Cmd := { c with applied := true, writeSeq := seq, status := if st = 0 then none else some st }

/-- On an index that is no shoal's, a write that is applied tells no other device (R472, R473). -/
theorem writeEff_applied {d : Device} {op : IoOp} {k st seq : Nat} {c : Cmd} {e : Device} (h : d.appliesNow op k c)
    (happly : d.applyWrite c.indexNo c.writeReq = (st, seq, e)) (hshoal : e.shoal = d.shoal) :
    writeEff op k d = e.modCmd k (Cmd.settled st seq) := by
  obtain ⟨hfound, hop, hacc, hwait, hours, hfirst, hlocal⟩ := h
  have hstill : (e.modCmd k (Cmd.settled st seq)).shoalIndex? c.indexNo = none := by
    rw [Device.shoalIndex?_of_shoal (d := d) (by simpa using hshoal), hlocal]
  have htell : ∀ l, (e.modCmd k (Cmd.settled st seq)).tellHolder c l = e.modCmd k (Cmd.settled st seq) := by
    intro l
    simp only [Device.tellHolder, hstill]
  have hmirror : (e.modCmd k (Cmd.settled st seq)).mirrorWrite c seq = e.modCmd k (Cmd.settled st seq) := by
    simp only [Device.mirrorWrite, hstill, Option.isNone_none, Bool.true_or, if_true]
  have hgoes : (c.op != op || c.accepted.isNone || c.applied || !c.forwarded.isEmpty || d.unapplied c) = false := by
    simp [hop, hwait, hours, hfirst, ← Option.not_isSome, hacc]
  simp only [writeEff, hfound, hgoes, happly, Bool.false_eq_true, if_false]
  split
  · next hst =>
    unfold Cmd.settled
    simp only [if_neg hst]
  · split
    · exact (congrArg (fun f : Device => f.mirrorWrite c seq) (htell _)).trans hmirror
    · exact hmirror

/-- What an applied DELETE or ATTR_SET changes beside its index: the command has the next WRITE_SEQ, functions are metered, no other index changes and
nothing is sent. -/
def Device.wroteNext (d e : Device) (k : Nat) (c : Cmd) (x : Index) : Prop :=
  (∀ j, j ≠ c.indexNo → tfind j e.indexes = tfind j d.indexes) ∧ d.fnsMetered e ∧ e.out = d.out ∧
    e.cmd? k = some { c with applied := true, writeSeq := x.writeSeq + 1, status := none }

/-- An applied DELETE or ATTR_SET takes the next WRITE_SEQ, and its index becomes what the write made of it. -/
theorem gives_applied {s : State} {cmd : Instr} {op : IoOp} {k : Nat} {c : Cmd} {x y : Index} {e : Device} (hc : exec cmd s = onDev (writeEff op k) s)
    (h : s.dev.appliesNow op k c) (happly : s.dev.applyWrite c.indexNo c.writeReq = (0, x.writeSeq + 1, e)) (hw : s.dev.writtenTo e c.indexNo y) :
    gives cmd s fun e => s.dev.wroteNext e k c x ∧ tfind c.indexNo e.indexes = some y := by
  obtain ⟨⟨hfound, hother, honly⟩, hfns⟩ := hw
  have hshoal : e.shoal = s.dev.shoal := by rw [honly]
  have hcmds : e.cmds = s.dev.cmds := by rw [honly]
  have hout : e.out = s.dev.out := by rw [honly]
  refine gives_of_onDev hc ?_
  rw [writeEff_applied h happly hshoal]
  exact ⟨⟨hother, hfns, hout, Device.cmd?_modCmd_same _ (fun _ => rfl) (by rw [Device.cmd?, hcmds]; exact h.found)⟩, hfound⟩

/-- DELETE and ATTR_SET without the ID end with ID_NOT_FOUND and change the command alone. -/
theorem gives_notFound {s : State} {cmd : Instr} {op : IoOp} {k : Nat} {c : Cmd} {x : Index} (hc : exec cmd s = onDev (writeEff op k) s)
    (h : s.dev.appliesNow op k c) (hop : op = .delete ∨ op = .attrSet) (hx : s.dev.index? c.indexNo = some x) (hl : x.lookup c.id = none) :
    gives cmd s fun e => e.cmd? k = some { c with applied := true, writeSeq := 0, status := some stIdNotFound } ∧ e = { s.dev with cmds := e.cmds } := by
  have happly : s.dev.applyWrite c.indexNo c.writeReq = (stIdNotFound, 0, s.dev) :=
    Device.applyWrite_notFound hx (by rw [Cmd.writeReq, h.opcode]; exact hop) hl
  refine gives_of_onDev hc ?_
  rw [writeEff_applied h happly rfl]
  exact ⟨Device.cmd?_modCmd_same _ (fun _ => rfl) h.found, rfl⟩

/-- Charging a write leaves its index as it was. -/
theorem Device.chargeWrite_written {d : Device} {i : Nat} {x : Index} (w : WriteReq) (loc : Option Loc) (hx : d.index? i = some x) :
    d.writtenTo (d.chargeWrite x w loc) i x :=
  Device.writtenTo_of_readsCharged (Device.tfind_of_index? hx) (d.chargeWrite_metered x w loc)

/-- DELETE of a vector in the delta segment: its entry ends at the present view (R106, R386). -/
theorem gives_delete_delta {s : State} {k b p j : Nat} {c : Cmd} {x : Index} {v : DeltaEntry} (h : s.dev.appliesNow .delete k c)
    (hx : s.dev.index? c.indexNo = some x) (haway : x.away = []) (hl : x.lookup c.id = some (b, p, .delta j)) (hv : tfind j x.delta = some v) :
    gives (.delete k) s fun e => s.dev.wroteNext e k c x ∧ ∃ y, tfind c.indexNo e.indexes = some y ∧ y.writeSeq = x.writeSeq + 1 ∧
      y.occupied = x.occupied - 1 ∧ tfind j y.delta = some { v with state := 2, endView := x.view } ∧
      (∀ i, i ≠ j → tfind i y.delta = tfind i x.delta) ∧ y.cells = x.cells := by
  have hcharged := Device.chargeWrite_written c.writeReq (some (.delta j)) hx
  have hended := Device.writtenTo_trans hcharged (Device.endDelta_written (state := 2) hcharged.1.1 hv)
  rw [← Device.endVector_delta hcharged.1.1 haway j 2] at hended
  obtain ⟨e, hstep, hnext, hfound⟩ := gives_applied (cmd := .delete k) rfl h (Device.applyWrite_delete hx h.opcode hl)
    (Device.countWrite_written (Device.idVacate_written hended b p))
  exact ⟨e, hstep, hnext, _, hfound, rfl, rfl, tfind_tset_same _ _ _, fun i hi => tfind_tset_other _ _ _ _ hi, rfl⟩

/-- The tombstone bit of a slot tombstoned is set (R95). -/
theorem Cell.mem_tombs_tombed (c : Cell) (s : Nat) : s ∈ (c.tombed s).cur.tombs := by
  unfold Cell.tombed
  dsimp only
  split
  · next hin => simpa using hin
  · simp

/-- The cell of a slot tombstoned. -/
theorem Index.cell_tombed (x : Index) (n s : Nat) : (x.tombed n s).cell n = (x.cell n).tombed s := x.cell_modCell_same n (Cell.tombed · s)

/-- DELETE of a vector in a slot: the slot is tombstoned and N_LIVE falls by one (R95, R386). -/
theorem gives_delete_slot {s : State} {k b p n t : Nat} {c : Cmd} {x : Index} (h : s.dev.appliesNow .delete k c)
    (hx : s.dev.index? c.indexNo = some x) (haway : x.away = []) (hl : x.lookup c.id = some (b, p, .slot n t)) :
    gives (.delete k) s fun e => s.dev.wroteNext e k c x ∧ ∃ y, tfind c.indexNo e.indexes = some y ∧ y.writeSeq = x.writeSeq + 1 ∧
      y.occupied = x.occupied - 1 ∧ y.nLive = x.nLive - 1 ∧ t ∈ (y.cell n).cur.tombs ∧ (y.cell n).nLive = (x.cell n).nLive - 1 ∧
      (y.cell n).cur.slots = (x.cell n).cur.slots ∧ y.delta = x.delta := by
  have hcharged := Device.chargeWrite_written c.writeReq (some (.slot n t)) hx
  obtain ⟨z, htombed, hseq, hocc, hlive, hdelta, hcells⟩ := Device.tombSlot_written n t hcharged.1.1
  have hended := Device.writtenTo_trans hcharged htombed
  rw [← Device.endVector_slot hcharged.1.1 haway n t 2] at hended
  obtain ⟨e, hstep, hnext, hfound⟩ := gives_applied (cmd := .delete k) rfl h (Device.applyWrite_delete hx h.opcode hl)
    (Device.countWrite_written (Device.idVacate_written hended b p))
  obtain ⟨hcur, hn⟩ := hcells n
  rw [Index.cell_tombed] at hcur hn
  have htomb : t ∈ (z.cell n).cur.tombs := hcur ▸ (x.cell n).mem_tombs_tombed t
  have hslots : (z.cell n).cur.slots = (x.cell n).cur.slots := by
    rw [hcur]
    rfl
  exact ⟨e, hstep, hnext, _, hfound, congrArg (· + 1) hseq, congrArg (· - 1) hocc, hlive, htomb, hn, hslots, hdelta⟩

/-- ATTR_SET of a vector in the delta segment: its words are replaced there (R72, R386). -/
theorem gives_attrSet_delta {s : State} {k b p j : Nat} {c : Cmd} {x : Index} {v : DeltaEntry} (h : s.dev.appliesNow .attrSet k c)
    (hx : s.dev.index? c.indexNo = some x) (haway : x.away = []) (hl : x.lookup c.id = some (b, p, .delta j)) (hv : tfind j x.delta = some v) :
    gives (.attrSet k) s fun e => s.dev.wroteNext e k c x ∧ ∃ y, tfind c.indexNo e.indexes = some y ∧ y.writeSeq = x.writeSeq + 1 ∧
      y.occupied = x.occupied ∧ tfind j y.delta = some { v with attrs := maskWords c.flags c.attrs v.attrs } ∧
      (∀ i, i ≠ j → tfind i y.delta = tfind i x.delta) ∧ y.cells = x.cells := by
  have hcharged := Device.chargeWrite_written c.writeReq (some (.delta j)) hx
  have hset := Device.writtenTo_trans hcharged (Device.setAttrs_delta_written c.flags c.attrs hcharged.1.1 haway hv)
  obtain ⟨e, hstep, hnext, hfound⟩ := gives_applied (cmd := .attrSet k) rfl h (Device.applyWrite_attrSet hx h.opcode hl)
    (Device.countWrite_written hset)
  exact ⟨e, hstep, hnext, _, hfound, rfl, rfl, tfind_tset_same _ _ _, fun i hi => tfind_tset_other _ _ _ _ hi, rfl⟩

/-- ATTR_SET of a vector in a slot: its words are replaced there, and every other slot of the cell stands (R72, R386). -/
theorem gives_attrSet_slot {s : State} {k b p n t : Nat} {c : Cmd} {x : Index} {v : Slot} (h : s.dev.appliesNow .attrSet k c)
    (hx : s.dev.index? c.indexNo = some x) (haway : x.away = []) (hl : x.lookup c.id = some (b, p, .slot n t))
    (hv : tfind t (x.cell n).cur.slots = some v) :
    gives (.attrSet k) s fun e => s.dev.wroteNext e k c x ∧ ∃ y, tfind c.indexNo e.indexes = some y ∧ y.writeSeq = x.writeSeq + 1 ∧
      y.occupied = x.occupied ∧ tfind t (y.cell n).cur.slots = some { v with attrs := maskWords c.flags c.attrs v.attrs } ∧
      (∀ u, u ≠ t → tfind u (y.cell n).cur.slots = tfind u (x.cell n).cur.slots) ∧ y.delta = x.delta := by
  have hcharged := Device.chargeWrite_written c.writeReq (some (.slot n t)) hx
  obtain ⟨m, z, hset, hseq, hocc, -, hdelta, hcells⟩ := Device.setAttrs_slot_written c.flags c.attrs hcharged.1.1 haway hv
  obtain ⟨e, hstep, hnext, hfound⟩ := gives_applied (cmd := .attrSet k) rfl h (Device.applyWrite_attrSet hx h.opcode hl)
    (Device.countWrite_written (Device.writtenTo_trans hcharged hset))
  have hslots : (z.cell n).cur.slots = tset t { v with attrs := maskWords c.flags c.attrs v.attrs } (x.cell n).cur.slots := by
    rw [(hcells n).1, Index.withAttrs, Index.cell_modCell_same]
  refine ⟨e, hstep, hnext, _, hfound, congrArg (· + 1) hseq, hocc, ?_, fun u hu => ?_, hdelta⟩
  · exact (congrArg (tfind t) hslots).trans (tfind_tset_same _ _ _)
  · exact (congrArg (tfind u) hslots).trans (tfind_tset_other _ _ _ _ hu)

/-- Settles O23, from what each command does to a vector in the delta segment, in a slot, and to an ID that is not there. -/
theorem deleteAndAttrSetReachVector : Obligations.DeleteAndAttrSetReachVector := by
  unfold Obligations.DeleteAndAttrSetReachVector
  intro s k c x d hfound hacc hwait hours hfirst hx hlocal haway next ends
  have hnow : ∀ op, c.op = op → d.appliesNow op k c := fun op hop => ⟨hfound, hop, hacc, hwait, hours, hfirst, hlocal⟩
  exact ⟨fun b p j v hop hl hv => gives_delete_delta (hnow _ hop) hx haway hl hv, fun b p n t hop hl => gives_delete_slot (hnow _ hop) hx haway hl,
    fun b p j v hop hl hv => gives_attrSet_delta (hnow _ hop) hx haway hl hv,
    fun b p n t v hop hl hv => gives_attrSet_slot (hnow _ hop) hx haway hl hv,
    fun hop hl => gives_notFound rfl (hnow _ hop) (.inl rfl) hx hl, fun hop hl => gives_notFound rfl (hnow _ hop) (.inr rfl) hx hl⟩

end Sys2Proof.Machine
end

section
/-! INSERT and UPSERT: the delta entry that they append, the ID map that names it, and the statement about both commands. -/

namespace Sys2Proof.Machine

/-! ### The ID map written (R85) -/

/-- The index with an entry of its ID map replaced. -/
def Index.withIdEntry (x : Index) (b p : Nat) (w : W64) : Index := { x with idMap := tset b (tset p w (tget [] b x.idMap)) x.idMap }

/-- An entry of the ID map written changes that entry alone (R85). -/
theorem Device.idPut_written {d e : Device} {i : Nat} {y : Index} (h : d.writtenTo e i y) (b p : Nat) (w : W64) :
    d.writtenTo (e.idPut i b p w) i (y.withIdEntry b p w) :=
  Device.writtenTo_bytes (Device.writtenTo_mod h (Index.withIdEntry · b p w)) (Device.syncBucket_bytesTo _ i b)

/-- An ID's entry moved in place changes the ID map alone (R85). -/
theorem Device.idMove_written {d e : Device} {i : Nat} {y : Index} (h : d.writtenTo e i y) (id : W64) (l : Loc) :
    ∃ m, d.writtenTo (e.idMove i id l) i { y with idMap := m } := by
  simp only [Device.idMove, h.1.1]
  split
  · exact ⟨_, Device.idPut_written h _ _ _⟩
  · exact ⟨y.idMap, h⟩

/-- An ID that takes an entry changes the ID map and how many of its entries are occupied (R85, R86). -/
theorem Device.idInsert_written {d e : Device} {i : Nat} {y : Index} (h : d.writtenTo e i y) (id : W64) (l : Loc) :
    ∃ m n, d.writtenTo (e.idInsert i id l) i { y with idMap := m, occupied := n } := by
  simp only [Device.idInsert, h.1.1]
  split
  · exact ⟨_, _, Device.writtenTo_mod (Device.idPut_written h _ _ _) _⟩
  · exact ⟨y.idMap, y.occupied, h⟩

/-! ### A delta entry appended (R105, R106) -/

/-- The index with the delta entry of a write at place e of its ring, and DELTA_HEAD past it (R105, R106). -/
def Index.appended (x : Index) (e : Nat) (w : WriteReq) : Index :=
  { x with delta := tset e (x.deltaOf w) x.delta, deltaHead := (e + 1) % x.deltaEntries, lastLogSeq := x.writeSeq + 1 }

/-- An appended entry changes beside the delta segment the ID map alone, and how many of its entries are occupied (R85, R106). -/
theorem Device.addDelta_written {d : Device} {i : Nat} {x : Index} (w : WriteReq) (found : Bool) (hx : tfind i d.indexes = some x) :
    ∃ m n, d.writtenTo (d.addDelta i w found) i { x.appended x.deltaHead w with idMap := m, occupied := n } := by
  have hring := Device.writtenTo_bytes (Device.writtenTo_modIndex hx (Index.appended · x.deltaHead w)) (Device.syncDelta_bytesTo _ i x.deltaHead)
  unfold Device.addDelta
  rw [hx]
  cases found with
  | true =>
    obtain ⟨m, hmoved⟩ := Device.idMove_written hring w.id (.delta x.deltaHead)
    exact ⟨m, x.occupied, hmoved⟩
  | false => exact Device.idInsert_written hring w.id (.delta x.deltaHead)

/-! ### INSERT and UPSERT applied (R386) -/

/-- INSERT or UPSERT of an ID that the ID map does not find appends its entry (R386). -/
theorem Device.applyWrite_absent {d : Device} {i : Nat} {x : Index} {w : WriteReq} (hx : d.index? i = some x)
    (hop : w.op = .insert ∨ w.op = .upsert) (hl : x.lookup w.id = none) (hcap : x.occupied < x.nCap) (hroom : x.deltaFull = false) :
    d.applyWrite i w = (0, x.writeSeq + 1, ((d.chargeWrite x w none).addDelta i w false).countWrite i) := by
  have hcap' := Nat.not_le.2 hcap
  rcases hop with hop | hop <;> simp [Device.applyWrite, hx, hl, hop, Index.writeStatus, Device.countWrite, hcap', hroom]

/-- UPSERT of an ID that the ID map finds appends its entry and supersedes the old copy (R386). -/
theorem Device.applyWrite_upsert_found {d : Device} {i b p : Nat} {x : Index} {w : WriteReq} {l : Loc} (hx : d.index? i = some x)
    (hop : w.op = .upsert) (hl : x.lookup w.id = some (b, p, l)) (hroom : x.deltaFull = false) :
    d.applyWrite i w = (0, x.writeSeq + 1, (((d.chargeWrite x w (some l)).addDelta i w true).endVector i l 3).countWrite i) := by
  simp [Device.applyWrite, hx, hl, hop, Index.writeStatus, Device.countWrite, hroom]

/-- A write whose rule fails has that rule's status and no effect (R386). -/
theorem Device.applyWrite_fails {d : Device} {i : Nat} {x : Index} {w : WriteReq} {st : Nat} (hx : d.index? i = some x)
    (hst : x.writeStatus w.op (x.lookup w.id).isSome = st) (hne : st ≠ 0) : d.applyWrite i w = (st, 0, d) := by
  simp only [Device.applyWrite, hx, hst]
  rw [if_pos hne]

/-! ### INSERT and UPSERT as commands (R85, R106, R386) -/

/-- A write whose rule fails ends with that rule's status and changes its command alone. -/
theorem gives_fails {s : State} {cmd : Instr} {op : IoOp} {k st : Nat} {c : Cmd} {x : Index} (hc : exec cmd s = onDev (writeEff op k) s)
    (h : s.dev.appliesNow op k c) (hx : s.dev.index? c.indexNo = some x) (hst : x.writeStatus op (x.lookup c.id).isSome = st) (hne : st ≠ 0) :
    gives cmd s fun e => e.cmd? k = some { c with applied := true, writeSeq := 0, status := some st } ∧ e = { s.dev with cmds := e.cmds } := by
  have happly : s.dev.applyWrite c.indexNo c.writeReq = (st, 0, s.dev) :=
    Device.applyWrite_fails hx (by rw [Cmd.writeReq, h.opcode]; exact hst) hne
  refine gives_of_onDev hc ?_
  rw [writeEff_applied h happly rfl]
  refine ⟨?_, rfl⟩
  rw [Device.cmd?_modCmd_same (Cmd.settled st 0) (fun _ => rfl) h.found, Cmd.settled, if_neg hne]

/-- What INSERT and UPSERT of a command make of its index and of the device around it. -/
def Device.appendsFor (d e : Device) (k : Nat) (c : Cmd) (x : Index) : Prop :=
  ∃ y v, tfind c.indexNo e.indexes = some y ∧ y.writeSeq = x.writeSeq + 1 ∧ y.view = x.view ∧
    y.deltaHead = (x.deltaHead + 1) % x.deltaEntries ∧ y.deltaTail = x.deltaTail ∧ tfind x.deltaHead y.delta = some v ∧ v.id = c.id ∧
    v.state = 1 ∧ v.logSeq = x.writeSeq + 1 ∧ v.attrs = c.attrs ∧ v.upsert = (c.op == .upsert) ∧ v.stamp = c.stamp ∧
    (∀ j, j ≠ c.indexNo → tfind j e.indexes = tfind j d.indexes) ∧ d.fnsMetered e ∧ e.out = d.out ∧
    e.cmd? k = some { c with applied := true, writeSeq := x.writeSeq + 1, status := none }

/-- An index appended to and counted, whatever else of its delta segment has changed, is what the command's write appends. -/
theorem Device.appendsFor_of_wrote {d e : Device} {k : Nat} {c : Cmd} {x y : Index} (h : d.wroteNext e k c x) (hy : tfind c.indexNo e.indexes = some y)
    (hdelta : tfind x.deltaHead y.delta = some (x.deltaOf c.writeReq))
    (hrest : y = { x.appended x.deltaHead c.writeReq with delta := y.delta, idMap := y.idMap, occupied := y.occupied, writeSeq := x.writeSeq + 1 }) :
    d.appendsFor e k c x := by
  obtain ⟨hother, hfns, hout, hcmd⟩ := h
  rw [hrest] at hy hdelta
  exact ⟨_, _, hy, rfl, rfl, rfl, rfl, hdelta, rfl, rfl, rfl, rfl, rfl, rfl, hother, hfns, hout, hcmd⟩

/-- INSERT or UPSERT of an absent ID: DELTA_HEAD takes its entry, and every other entry stands. -/
theorem gives_appends_absent {s : State} {cmd : Instr} {op : IoOp} {k : Nat} {c : Cmd} {x : Index} (hc : exec cmd s = onDev (writeEff op k) s)
    (h : s.dev.appliesNow op k c) (hop : op = .insert ∨ op = .upsert) (hx : s.dev.index? c.indexNo = some x) (hl : x.lookup c.id = none)
    (hcap : x.occupied < x.nCap) (hroom : x.deltaFull = false) :
    gives cmd s fun e => s.dev.appendsFor e k c x ∧
      ∀ y, tfind c.indexNo e.indexes = some y → ∀ j, j ≠ x.deltaHead → tfind j y.delta = tfind j x.delta := by
  have hcharged := Device.chargeWrite_written c.writeReq none hx
  obtain ⟨m, n, hadded⟩ := Device.addDelta_written c.writeReq false hcharged.1.1
  obtain ⟨e, hstep, hnext, hfound⟩ := gives_applied hc h
    (Device.applyWrite_absent hx (by rw [Cmd.writeReq, h.opcode]; exact hop) hl hcap hroom)
    (Device.countWrite_written (Device.writtenTo_trans hcharged hadded))
  refine ⟨e, hstep, Device.appendsFor_of_wrote hnext hfound (tfind_tset_same _ _ _) rfl, fun y hy j hj => ?_⟩
  obtain rfl := Option.some.inj (hfound.symm.trans hy)
  exact tfind_tset_other _ _ _ _ hj

/-- UPSERT of an ID whose copy lies in the delta segment: the old copy is superseded at the present view, DELTA_HEAD takes the new one, and every
other entry stands. -/
theorem gives_appends_superseding {s : State} {k b p j : Nat} {c : Cmd} {x : Index} {v : DeltaEntry} (h : s.dev.appliesNow .upsert k c)
    (hx : s.dev.index? c.indexNo = some x) (hl : x.lookup c.id = some (b, p, .delta j)) (haway : x.away = []) (hv : tfind j x.delta = some v)
    (hj : j ≠ x.deltaHead) (hroom : x.deltaFull = false) :
    gives (.upsert k) s fun e => s.dev.appendsFor e k c x ∧ ∀ y, tfind c.indexNo e.indexes = some y →
      tfind j y.delta = some { v with state := 3, endView := x.view } ∧ (∀ i, i ≠ j → i ≠ x.deltaHead → tfind i y.delta = tfind i x.delta) := by
  have hcharged := Device.chargeWrite_written c.writeReq (some (.delta j)) hx
  obtain ⟨m, n, hadded⟩ := Device.addDelta_written c.writeReq true hcharged.1.1
  have hold : tfind j (x.appended x.deltaHead c.writeReq).delta = some v := (tfind_tset_other _ _ _ _ hj).trans hv
  have hended := Device.writtenTo_trans (Device.writtenTo_trans hcharged hadded) (Device.endDelta_written (state := 3) hadded.1.1 hold)
  rw [← Device.endVector_delta hadded.1.1 haway j 3] at hended
  obtain ⟨e, hstep, hnext, hfound⟩ := gives_applied (cmd := .upsert k) rfl h (Device.applyWrite_upsert_found hx h.opcode hl hroom)
    (Device.countWrite_written hended)
  refine ⟨e, hstep, Device.appendsFor_of_wrote hnext hfound ((tfind_tset_other _ _ _ _ hj.symm).trans (tfind_tset_same _ _ _)) rfl, fun y hy => ?_⟩
  obtain rfl := Option.some.inj (hfound.symm.trans hy)
  exact ⟨tfind_tset_same _ _ _, fun i hi hhead => (tfind_tset_other _ _ _ _ hi).trans (tfind_tset_other _ _ _ _ hhead)⟩

/-- Settles O22, from what a write appends where its rule holds and how it ends where its rule fails. -/
theorem insertAndUpsertAppend : Obligations.InsertAndUpsertAppend := by
  unfold Obligations.InsertAndUpsertAppend
  intro s k c x d hfound hacc hwait hours hfirst hx hlocal added ends
  have hnow : ∀ op, c.op = op → d.appliesNow op k c := fun op hop => ⟨hfound, hop, hacc, hwait, hours, hfirst, hlocal⟩
  refine ⟨fun hop hl hcap hroom => gives_appends_absent rfl (hnow _ hop) (.inl rfl) hx hl hcap hroom,
    fun hop hl hcap hroom => gives_appends_absent rfl (hnow _ hop) (.inr rfl) hx hl hcap hroom,
    fun b p j v hop hl haway hv hj hroom => gives_appends_superseding (hnow _ hop) hx hl haway hv hj hroom,
    fun hop hl => gives_fails rfl (hnow _ hop) hx ?_ (by decide), fun hop hl hcap => gives_fails rfl (hnow _ hop) hx ?_ (by decide),
    fun hop hl hcap => gives_fails rfl (hnow _ hop) hx ?_ (by decide), fun hop hl hfull => gives_fails rfl (hnow _ hop) hx ?_ (by decide)⟩
  · simp [Index.writeStatus, hl]
  · simp [Index.writeStatus, hl, hcap]
  · simp [Index.writeStatus, hl, hcap]
  · simp [Index.writeStatus, hl, hfull]

end Sys2Proof.Machine
end

section
/-! Rewrites: a state in which a retry finds no free L-tier space, and the refutation of the statement about them. -/

namespace Sys2Proof.Machine

/-- A FLAT index of one cell of one slot block, whose abandoned relocation is due for its retry (R110), with a reservation of n GiB. -/
def retryDue (n : Nat) : Index :=
  { indexNo := 3, kind := .flat, metric := .ham, dim := 64, inputFmt := .fp32, primaryFmt := .sign1, refine := none, attrWords := 0, subspaces := 0,
    headroom := 0, stageA := 0, burgee := 0, centroidFmt := .bf16, nCells := 1, nCap := 64, hdrBase := lBase, centroidBase := 0,
    codebookLiveBase := 0, codebookTargetBase := 0, idMapBase := 0, idMapBuckets := 1, deltaEntries := 0, deltaFBase := 0, deltaLogBase := 0,
    graphAuxBase := 0, refineBase := 0, placementBase := 0, rewriteWindow := 0, centroids := [], codebooks := [],
    cells := [(0, { cur := { capBlocks := 1 }, retryAt := some 0 })], reserved := n * 0x40000000 }
/-- A table of indexes whose numbers do not rise: an update of index 3 is listed before index 5, and the old entry stays behind it. Updates from the
reset state's empty table keep the numbers in ascending order; the statement is about every state. -/
def indexListedLast : Device := { phase := .ready, tiers := { packages := 9 }, indexes := [(5, retryDue 0), (3, retryDue 300)] }

/-- Refutes O44: the retry first clears the cell's instant, and in a table whose numbers do not rise that update lists index 3 a second time; its 300
GiB of reservation then count twice against the 440 GiB of R116, and the relocation that had its space before finds none and does not begin. -/
theorem not_rewritesCutOver : ¬ Obligations.RewritesCutOver := by
  unfold Obligations.RewritesCutOver
  intro h
  obtain ⟨-, -, -, -, -, -, -, -, -, hretry, -⟩ := h { dev := indexListedLast } 3 0 (retryDue 300) (by decide +kernel) (by decide +kernel) (by decide +kernel)
  have hspace : (indexListedLast.takeL (some (retryDue 300).burgee) ((retryDue 300).extentBytes (grownCap 1))).isSome = true := by decide +kernel
  obtain ⟨⟨base, f⟩, htaken⟩ := Option.isSome_iff_exists.1 hspace
  obtain ⟨y, ⟨hfound, -⟩, hstate, -⟩ := effect_of_gives (F := rewriteRetryEff 3 0) rfl <|
    hretry 0 base f (by decide) rfl rfl rfl rfl (by decide +kernel) htaken
  have hkept : (tfind 3 (rewriteRetryEff 3 0 indexListedLast).indexes).map (fun y => (y.cell 0).state) = some 1 := by decide +kernel
  rw [hfound, Option.map_some, hstate] at hkept
  exact absurd hkept (by decide)

end Sys2Proof.Machine
end

section
/-! An index changed by its maintenance: how changes follow one another, what maintenance writes, and what a table gives after updates in a row. -/

namespace Sys2Proof.Machine

/-! ### An index changed (R96, R108) -/

/-- Bytes written leave the index as it is. -/
theorem Device.indexTo_of_bytesTo {d e : Device} {i : Nat} {x : Index} (hx : tfind i d.indexes = some x) (h : d.bytesTo e) : d.indexTo e i x := by
  unfold Device.bytesTo at h
  rw [h]
  exact ⟨hx, fun _ _ => rfl, rfl⟩

/-- Changes of an index follow one another. -/
theorem Device.indexTo_trans {d e f : Device} {i : Nat} {y z : Index} (h : d.indexTo e i y) (k : e.indexTo f i z) : d.indexTo f i z := by
  obtain ⟨-, hother, honly⟩ := h
  obtain ⟨kfound, kother, konly⟩ := k
  refine ⟨kfound, fun j hj => (kother j hj).trans (hother j hj), ?_⟩
  rw [konly, honly]

/-- Bytes written after a change of the index leave what the change made of it. -/
theorem Device.indexTo_bytes {d e f : Device} {i : Nat} {y : Index} (h : d.indexTo e i y) (k : e.bytesTo f) : d.indexTo f i y :=
  Device.indexTo_trans h (Device.indexTo_of_bytesTo h.1 k)

/-- An index is changed to the change of what it was, and the device in nothing else. -/
theorem Device.modIndex_changed {d : Device} {i : Nat} {x : Index} (hx : tfind i d.indexes = some x) (g : Index → Index) :
    tfind i (d.modIndex i g).indexes = some (g x) ∧ (∀ j, j ≠ i → tfind j (d.modIndex i g).indexes = tfind j d.indexes) ∧
      d.modIndex i g = { d with indexes := (d.modIndex i g).indexes } := by
  rw [Device.modIndex_found hx]
  exact ⟨tfind_tset_same _ _ _, fun j hj => tfind_tset_other _ _ _ _ hj, rfl⟩

theorem Device.indexTo_modIndex {d : Device} {i : Nat} {x : Index} (hx : tfind i d.indexes = some x) (g : Index → Index) :
    d.indexTo (d.modIndex i g) i (g x) := by
  rw [Device.modIndex_found hx]
  exact ⟨tfind_tset_same _ _ _, fun j hj => tfind_tset_other _ _ _ _ hj, rfl⟩

/-- An index changed is changed further. -/
theorem Device.indexTo_mod {d e : Device} {i : Nat} {y : Index} (h : d.indexTo e i y) (g : Index → Index) : d.indexTo (e.modIndex i g) i (g y) :=
  Device.indexTo_trans h (Device.indexTo_modIndex h.1 g)

/-! ### What maintenance writes (R81, R99, R102, R111) -/

theorem Device.syncFixed_bytesTo (d : Device) (i k state : Nat) : d.bytesTo (d.syncFixed i k state) := by
  unfold Device.syncFixed
  split
  · exact d.memWrite_bytesTo _ _
  · exact d.bytesTo_refl

theorem Device.syncBook_bytesTo (d : Device) (i slot gen : Nat) : d.bytesTo (d.syncBook i slot gen) := by
  unfold Device.syncBook
  split
  · exact d.bytesTo_refl
  · split
    · exact d.bytesTo_refl
    · exact Device.bytesTo_trans (Device.bytesTo_trans (d.memWrite_bytesTo _ _) (Device.memWrite_bytesTo _ _ _)) (Device.syncFixed_bytesTo _ _ _ _)

theorem Device.putRefine_bytesTo (d : Device) (x : Index) (q : Nat) (g : Group) : d.bytesTo (d.putRefine x q g) := by
  have hrefine : ∀ (a : Nat) (bs : List Byte), d.bytesTo (if x.refine.isSome = true then d.memWrite a bs else d) := by
    intro a bs
    split
    · exact d.memWrite_bytesTo _ _
    · exact d.bytesTo_refl
  unfold Device.putRefine
  dsimp only
  split
  · exact hrefine _ _
  · exact Device.bytesTo_trans (hrefine _ _) (Device.memWrite_bytesTo _ _ _)

theorem Device.putNode_bytesTo (d : Device) (x : Index) (n : Nat) (g : Group) : d.bytesTo (d.putNode x n g) := d.put_bytesTo _ _ _

theorem Device.syncNode_bytesTo (d : Device) (i n : Nat) : d.bytesTo (d.syncNode i n) := by
  unfold Device.syncNode
  split
  · exact d.bytesTo_refl
  · split
    · exact Device.bytesTo_trans (d.putNode_bytesTo _ _ _) (Device.putRefine_bytesTo _ _ _ _)
    · exact d.bytesTo_refl

theorem Device.syncGroup_bytesTo (d : Device) (i q : Nat) : d.bytesTo (d.syncGroup i q) := by
  unfold Device.syncGroup
  split
  · split
    · exact d.memWrite_bytesTo _ _
    · exact d.bytesTo_refl
  · exact d.bytesTo_refl

theorem Device.putUpper_bytesTo (d : Device) (x : Index) (u : UpperCopy) : d.bytesTo (d.putUpper x u) := by
  unfold Device.putUpper
  dsimp only
  split
  · exact Device.bytesTo_trans (d.put_bytesTo _ _ _) (Device.memWrite_bytesTo _ _ _)
  · exact d.put_bytesTo _ _ _

theorem Device.syncUpper_bytesTo (d : Device) (i b : Nat) : d.bytesTo (d.syncUpper i b) := by
  unfold Device.syncUpper
  split
  · exact d.bytesTo_refl
  · next x _ =>
    cases x.upperCopy b with
    | none => exact d.bytesTo_refl
    | some u => exact d.putUpper_bytesTo _ _

/-! ### Tables and orders after updates in a row -/

theorem tget_tdel_same {α : Type} (d : α) (k : Nat) (t : Tab α) : tget d k (tdel k t) = d := by
  induction t with
  | nil => rfl
  | cons p t ih =>
    obtain ⟨j, w⟩ := p
    simp only [tdel]
    split
    · exact ih
    · next h => simp [tget, h, ih]

theorem tget_tdel_other {α : Type} (d : α) {k j : Nat} (t : Tab α) (h : j ≠ k) : tget d j (tdel k t) = tget d j t := by
  induction t with
  | nil => rfl
  | cons p t ih =>
    obtain ⟨i, w⟩ := p
    simp only [tdel]
    split
    · next hk => simp [tget, hk, h.symm, ih]
    · simp [tget, ih]

/-- What a key reads as is the default or listed. -/
theorem tget_default_or_mem {α : Type} (d : α) (k : Nat) (t : Tab α) : tget d k t = d ∨ (k, tget d k t) ∈ t := by
  induction t with
  | nil => exact .inl rfl
  | cons p t ih =>
    obtain ⟨j, w⟩ := p
    by_cases h : j = k
    · exact .inr (by simp [tget, h])
    · simpa [tget, h] using ih.imp_right .inr

/-- A table without some of its keys finds every other key as before. -/
theorem tfind_filter_key {α : Type} (p : Nat → Bool) (k : Nat) (t : Tab α) :
    tfind k (t.filter fun q => p q.1) = if p k = true then tfind k t else none := by
  induction t with
  | nil => simp [tfind]
  | cons q t ih =>
    obtain ⟨j, w⟩ := q
    by_cases hj : p j = true <;> by_cases hk : j = k
    · subst hk
      simp [hj, tfind]
    · simpa [hj, hk, tfind] using ih
    · subst hk
      simpa [hj] using ih
    · simpa [hj, hk, tfind] using ih

/-- What a fold that sets elements of a list as values finds was there before or is one of them. -/
theorem tfind_foldl_tset {α : Type} {f : Tab α → Nat × α → Tab α} (hf : ∀ t e, f t e = t ∨ ∃ p, f t e = tset p e.2 t) {k : Nat} {w : α}
    (es : List (Nat × α)) (t : Tab α) (h : tfind k (es.foldl f t) = some w) : tfind k t = some w ∨ ∃ e ∈ es, e.2 = w := by
  induction es generalizing t with
  | nil => exact .inl h
  | cons e es ih =>
    rcases ih _ h with hstep | ⟨a, ha, hw⟩
    · rcases hf t e with hsame | ⟨p, hset⟩
      · exact .inl (hsame ▸ hstep)
      · rw [hset] at hstep
        by_cases hk : k = p
        · rw [hk, tfind_tset_same, Option.some.injEq] at hstep
          exact .inr ⟨e, List.mem_cons_self, hstep⟩
        · rw [tfind_tset_other _ _ _ _ hk] at hstep
          exact .inl hstep
    · exact .inr ⟨a, List.mem_cons_of_mem _ ha, hw⟩

/-- The rows of a table written one after another, a row without entries removed. -/
def writeRows {α : Type} (row : Nat × Nat → Tab α) (m : Tab (Tab α)) (r : Nat × Nat) : Tab (Tab α) :=
  if (row r).isEmpty then tdel r.1 m else tset r.1 (row r) m

theorem tget_writeRows_same {α : Type} (row : Nat × Nat → Tab α) (m : Tab (Tab α)) (r : Nat × Nat) : tget [] r.1 (writeRows row m r) = row r := by
  unfold writeRows
  split
  · next h => rw [tget_tdel_same, List.isEmpty_iff.1 h]
  · exact tget_tset_same _ _ _ _

theorem tget_writeRows_other {α : Type} (row : Nat × Nat → Tab α) (m : Tab (Tab α)) {r : Nat × Nat} {k : Nat} (h : k ≠ r.1) :
    tget [] k (writeRows row m r) = tget [] k m := by
  unfold writeRows
  split
  · exact tget_tdel_other _ _ h
  · exact tget_tset_other _ _ _ _ _ h

/-- Rows that are not written stand. -/
theorem tget_foldl_writeRows_other {α : Type} (row : Nat × Nat → Tab α) {k : Nat} (rs : List (Nat × Nat)) (m : Tab (Tab α)) (h : ∀ r ∈ rs, k ≠ r.1) :
    tget [] k (rs.foldl (writeRows row) m) = tget [] k m := by
  induction rs generalizing m with
  | nil => rfl
  | cons r rs ih =>
    rw [List.foldl_cons, ih _ fun a ha => h a (List.mem_cons_of_mem _ ha), tget_writeRows_other _ _ (h r List.mem_cons_self)]

/-- A row that is written is the last one written to its place. -/
theorem tget_foldl_writeRows_mem {α : Type} (row : Nat × Nat → Tab α) {k : Nat} (rs : List (Nat × Nat)) (m : Tab (Tab α)) (h : ∃ r ∈ rs, r.1 = k) :
    ∃ r ∈ rs, r.1 = k ∧ tget [] k (rs.foldl (writeRows row) m) = row r := by
  induction rs generalizing m with
  | nil => simp at h
  | cons r rs ih =>
    by_cases hlater : ∃ a ∈ rs, a.1 = k
    · obtain ⟨a, ha, hk, hrow⟩ := ih (writeRows row m r) hlater
      exact ⟨a, List.mem_cons_of_mem _ ha, hk, hrow⟩
    · have hr : r.1 = k := by
        obtain ⟨a, ha, hk⟩ := h
        rcases List.mem_cons.1 ha with rfl | ha
        · exact hk
        · exact absurd ⟨a, ha, hk⟩ hlater
      refine ⟨r, List.mem_cons_self, hr, ?_⟩
      rw [List.foldl_cons, tget_foldl_writeRows_other _ _ _ fun a ha hk => hlater ⟨a, ha, hk.symm⟩, ← hr, tget_writeRows_same]

theorem mem_insBy {α : Type} (before : α → α → Bool) (a x : α) (xs : List α) : a ∈ insBy before x xs ↔ a = x ∨ a ∈ xs := by
  induction xs with
  | nil => simp [insBy]
  | cons y ys ih =>
    simp only [insBy]
    split
    · exact List.mem_cons
    · rw [List.mem_cons, ih, List.mem_cons]
      exact or_left_comm

theorem mem_foldl_insBy {α : Type} (before : α → α → Bool) (a : α) (xs acc : List α) :
    a ∈ xs.foldl (fun acc x => insBy before x acc) acc ↔ a ∈ xs ∨ a ∈ acc := by
  induction xs generalizing acc with
  | nil => simp
  | cons x xs ih =>
    rw [List.foldl_cons, ih, mem_insBy, List.mem_cons]
    tauto

/-- Putting a list into an order keeps its elements. -/
theorem mem_sortBy {α : Type} (before : α → α → Bool) (a : α) (xs : List α) : a ∈ sortBy before xs ↔ a ∈ xs := by
  rw [sortBy, mem_foldl_insBy]
  simp

end Sys2Proof.Machine
end

section
/-! What waits for a view: compaction and its releases, codebook sets, settle sweeps, tidies of the ID map and DELTA_TAIL, and the statement about
them all. -/

namespace Sys2Proof.Machine

/-! ### Compaction (R95) -/

/-- Every other cell of an index is found as before a change of one. -/
theorem Index.tfind_modCell_other (x : Index) {n m : Nat} (g : Cell → Cell) (h : m ≠ n) : tfind m (x.modCell n g).cells = tfind m x.cells :=
  tfind_tset_other _ _ _ _ h

/-- A device changed in one cell of one index. -/
theorem Device.modCell_changed {d : Device} {i n : Nat} {x : Index} {G : Index → Index} {g : Cell → Cell} (hx : tfind i d.indexes = some x)
    (hG : G x = x.modCell n g) :
    ∃ y, tfind i (d.modIndex i G).indexes = some y ∧ y.cell n = g (x.cell n) ∧ (∀ m, m ≠ n → tfind m y.cells = tfind m x.cells) ∧
      y = { x with cells := y.cells } ∧ d.modIndex i G = { d with indexes := (d.modIndex i G).indexes } := by
  obtain ⟨hfound, -, honly⟩ := Device.modIndex_changed hx G
  rw [hG] at hfound
  exact ⟨_, hfound, x.cell_modCell_same n g, fun m hm => x.tfind_modCell_other g hm, rfl, honly⟩

/-- The tombstoned slots of a cell that no pass has recorded and that are not free (R95). -/
def Cell.unrecorded (c : Cell) : List Nat := c.cur.tombs.filter fun s => !(c.free ++ c.compact.flatMap (·.2)).contains s

theorem Cell.mem_unrecorded (c : Cell) (t : Nat) : t ∈ c.unrecorded ↔ t ∈ c.cur.tombs ∧ t ∉ c.free ∧ ∀ p ∈ c.compact, t ∉ p.2 := by
  simp [Cell.unrecorded]

/-- A compaction pass that finds such slots records them with the present view. -/
theorem compactionPassEff_records {d : Device} {i n : Nat} {x : Index} (hx : d.index? i = some x) (hk : x.kind ≠ .graph) (hn : n < x.nCells)
    (hr : d.ready = true) (hq : d.quiesced = false) (hnew : (x.cell n).unrecorded ≠ []) :
    compactionPassEff i n d =
      d.modIndex i fun x' => x'.modCell n fun c => { c with compact := c.compact ++ [(x'.view, (x.cell n).unrecorded)] } := by
  simp only [compactionPassEff, hx]
  refine if_neg ?_
  simp only [Device.bgOk, hr, hq, beq_eq_false_iff_ne.2 hk, Nat.not_le.2 hn, decide_false, Bool.not_false, Bool.and_self, Bool.not_true, Bool.false_or]
  exact fun h => hnew (List.isEmpty_iff.1 h)

/-- A cell whose recorded slots have become free where their view is released (R95). -/
def Cell.freed (rel : Nat → Bool) (c : Cell) : Cell :=
  { c with compact := (c.compact.partition fun p => rel p.1).2, free := c.free ++ (c.compact.partition fun p => rel p.1).1.flatMap (·.2) }

theorem slotFreeReleaseEff_frees {d : Device} {i n : Nat} {x : Index} (hx : d.index? i = some x) (hc : (x.cell n).compact ≠ []) :
    slotFreeReleaseEff i n d = d.modIndex i fun x => x.modCell n (Cell.freed (d.released i)) := by
  simp only [slotFreeReleaseEff, hx]
  exact if_neg fun h => hc (List.isEmpty_iff.1 h)

/-! ### Codebook sets (R109, R299) -/

/-- The index without its old codebook set, under the pending one where there is one (R109). -/
def Index.bookFreed (x : Index) (gen : Nat) : Index :=
  { x with oldBook := none, codebooks := tdel gen x.codebooks, targetGen := if x.pendingGen = 0 then x.targetGen else x.pendingGen, pendingGen := 0 }

/-- CODEBOOK_FREE of a set whose view is released. -/
theorem codebookFreeEff_indexTo {d : Device} {i gen v : Nat} {x : Index} (hx : tfind i d.indexes = some x) (hold : x.oldBook = some (gen, v))
    (hrel : d.released i v = true) : d.indexTo (codebookFreeEff i d) i (x.bookFreed gen) := by
  have hfreed := Device.indexTo_modIndex hx fun x => { x with oldBook := none, codebooks := tdel gen x.codebooks }
  simp only [codebookFreeEff, hx, hold, hrel, if_true]
  by_cases hp : x.pendingGen = 0
  · rw [if_pos hp]
    have hsame : x.bookFreed gen = { x with oldBook := none, codebooks := tdel gen x.codebooks } := by
      simp only [Index.bookFreed, hp, if_true]
    rw [hsame]
    exact Device.indexTo_bytes hfreed (Device.syncFixed_bytesTo _ _ _ _)
  · rw [if_neg hp]
    have htarget := Device.indexTo_mod hfreed fun x => { x with targetGen := x.pendingGen, pendingGen := 0 }
    have hsame : x.bookFreed gen =
        { x with oldBook := none, codebooks := tdel gen x.codebooks, targetGen := x.pendingGen, pendingGen := 0 } := by
      simp only [Index.bookFreed, hp, if_false]
    rw [hsame]
    exact Device.indexTo_bytes (Device.indexTo_bytes htarget (Device.syncBook_bytesTo _ _ _ _)) (Device.syncRecord_bytesTo _ _)

/-! ### Settle sweeps (R81) -/

/-- A node group whose released view fields have been written 0. -/
def Group.settle (rel : Nat → Bool) (g : Group) : Group :=
  { g with
    cutView := if g.prev.isNone && rel g.cutView then 0 else g.cutView
    nodes := settleNodes rel g.nodes, prev := g.prev.map (settleNodes rel) }
/-- A delta entry whose END_VIEW, where released, has been written 0. -/
def DeltaEntry.settle (rel merge : Nat → Bool) (e : DeltaEntry) : DeltaEntry :=
  if e.state != 1 && (if e.state = 4 then merge else rel) e.endView then { e with endView := 0 } else e

/-- It is settled: END_VIEW written 0; or it stays, being live or waiting for its view. -/
theorem DeltaEntry.settle_cases (rel merge : Nat → Bool) (e : DeltaEntry) :
    e.settle rel merge = { e with endView := 0 } ∨
      e.settle rel merge = e ∧ (e.state = 1 ∨ (if e.state = 4 then merge e.endView else rel e.endView) = false) := by
  unfold DeltaEntry.settle
  by_cases h : (e.state != 1 && (if e.state = 4 then merge else rel) e.endView) = true
  · exact .inl (if_pos h)
  · refine .inr ⟨if_neg h, ?_⟩
    by_cases hmerged : e.state = 4 <;> simpa [hmerged, or_iff_not_imp_left] using h
/-- An index after a sweep that found views released by rel, and those that a merge gave by merge. -/
def Index.settled (x : Index) (rel merge : Nat → Bool) : Index :=
  { x with cells := x.cells.map fun p => (p.1, p.2.settle rel merge), delta := x.delta.map fun p => (p.1, p.2.settle rel merge),
           graph := { x.graph with groups := x.graph.groups.map fun p => (p.1, p.2.settle rel) }, sweepFrom := x.view }

/-- What each step of a fold over a list that may be absent writes, the fold writes. -/
theorem Device.elim_foldl_bytesTo {β : Type} (f : Device → β → Device) (h : ∀ (d : Device) x, d.bytesTo (f d x)) (o : Option (List β)) (d : Device) :
    d.bytesTo (o.elim d fun xs => xs.foldl f d) := by
  cases o with
  | none => exact d.bytesTo_refl
  | some xs => exact Device.foldl_bytesTo f h xs d

/-- A sweep settles the index, and writes what it changed. -/
theorem settleSweepEff_indexTo {d : Device} {i : Nat} {x : Index} (hx : d.index? i = some x) (hr : d.ready = true) (hq : d.quiesced = false) :
    d.indexTo (settleSweepEff i d) i (x.settled (d.released i) (d.mergeReleased i)) := by
  have hbg : d.bgOk = true := by simp [Device.bgOk, hr, hq]
  simp only [settleSweepEff, hx, hbg, Bool.not_true, Bool.false_eq_true, if_false]
  refine Device.indexTo_bytes (Device.indexTo_modIndex (Device.tfind_of_index? hx) fun _ => x.settled (d.released i) (d.mergeReleased i)) ?_
  refine Device.bytesTo_trans ?_ (Device.foldl_bytesTo _ (fun d p => d.memWrite_bytesTo _ _) _ _)
  refine Device.bytesTo_trans ?_ (Device.foldl_bytesTo _ (fun d p => d.syncDelta_bytesTo _ _) _ _)
  refine Device.bytesTo_trans ?_ (Device.foldl_bytesTo _ (fun d p => d.syncUpper_bytesTo _ _) _ _)
  refine Device.bytesTo_trans ?_ (Device.foldl_bytesTo _ (fun d p => Device.bytesTo_trans ?_ (Device.syncGroup_bytesTo _ _ _)) _ _)
  · refine Device.foldl_bytesTo _ (fun d p => Device.bytesTo_trans ?_ (Device.syncCell_bytesTo _ _ _)) _ _
    exact Device.foldl_bytesTo _ (fun d s => Device.foldl_bytesTo _ (fun d b => d.putBlock_bytesTo _ _ _ _) _ d) _ d
  · exact Device.bytesTo_trans (Device.foldl_bytesTo _ (fun d q => d.syncNode_bytesTo i (64 * p.1 + q.1)) p.2.nodes d)
      (Device.elim_foldl_bytesTo _ (fun d q => d.memWrite_bytesTo _ _) p.2.prev _)

/-- A view field written 0 where its view is released is 0 or not released. -/
theorem settled_view (rel : Nat → Bool) (v : Nat) : (if rel v = true then 0 else v) = 0 ∨ rel (if rel v = true then 0 else v) = false := by
  split
  · exact .inl rfl
  · next h => exact .inr (by simpa using h)

/-- So are the views of a settled set's blocks, with no fresh slots where they are 0. -/
theorem CellSet.settle_blocks (merge : Nat → Bool) (s : CellSet) {b : Nat × BlockHead} (hb : b ∈ (s.settle merge).blocks) :
    (b.2.freshView = 0 ∧ b.2.freshMask = []) ∨ merge b.2.freshView = false := by
  obtain ⟨a, -, rfl⟩ := List.mem_map.1 hb
  split
  · exact .inl ⟨rfl, rfl⟩
  · next h => exact .inr (by simpa using h)

theorem settleNodes_views (rel : Nat → Bool) (ns : Tab Node) {q : Nat × Node} (hq : q ∈ settleNodes rel ns) : q.2.view = 0 ∨ rel q.2.view = false := by
  obtain ⟨a, -, rfl⟩ := List.mem_map.1 hq
  exact settled_view rel a.2.view

theorem Cell.settle_cutView (rel merge : Nat → Bool) (c : Cell) :
    (c.settle rel merge).cutView = 0 ∨ (c.settle rel merge).prev.isSome = true ∨ rel (c.settle rel merge).cutView = false := by
  simp only [Cell.settle, Option.isSome_map]
  cases c.prev with
  | none => simpa using (settled_view rel c.cutView)
  | some s => exact .inr (.inl rfl)

theorem DeltaEntry.settle_endView (rel merge : Nat → Bool) (e : DeltaEntry) :
    (e.settle rel merge).state = 1 ∨ (e.settle rel merge).endView = 0 ∨
      (if (e.settle rel merge).state = 4 then merge (e.settle rel merge).endView else rel (e.settle rel merge).endView) = false := by
  rcases e.settle_cases rel merge with h | ⟨h, hwaits⟩
  · exact .inr (.inl (by rw [h]))
  · rw [h]
    exact hwaits.imp_right .inr

theorem DeltaEntry.settle_keeps (rel merge : Nat → Bool) (e : DeltaEntry) : (e.settle rel merge).id = e.id ∧ (e.settle rel merge).state = e.state := by
  rcases e.settle_cases rel merge with h | ⟨h, -⟩ <;> rw [h] <;> exact ⟨rfl, rfl⟩

/-! ### Tidies of the ID map (R87) -/

/-- The words of a run of buckets. -/
def Index.runWords (x : Index) (run : List Nat) : List W64 := run.flatMap fun k => (List.range 32).map fun p => x.idEntry k p
/-- A word that names a vector, with the distance of its home bucket from the run's first. -/
def Index.homed (x : Index) (first : Nat) (w : W64) : Option (Nat × W64) :=
  (idLoc w).bind fun l => (x.idAt l).map fun id => (((idHash x.idMapBuckets id).2 + x.idMapBuckets - first) % x.idMapBuckets, w)
/-- A word put at the first position without one, in probe order from its home bucket. -/
def Index.seatWord (x : Index) (run : List Nat) (t : Tab W64) (e : Nat × W64) : Tab W64 :=
  match ((List.range (32 * run.length)).drop (32 * (e.1 % x.idMapBuckets)) ++ (List.range (32 * run.length)).take (32 * (e.1 % x.idMapBuckets))).find?
      fun p => (tfind p t).isNone with
  | some p => tset p e.2 t
  | none => t
/-- The words that stay, by position of the run. -/
def Index.seated (x : Index) (first : Nat) (run : List Nat) : Tab W64 :=
  (sortBy (fun (a b : Nat × W64) => decide (a.1 < b.1)) ((x.runWords run).filterMap (x.homed first))).foldl (x.seatWord run) []
/-- A bucket of the run after the tidy. -/
def Index.tidyRow (x : Index) (first : Nat) (run : List Nat) (r : Nat × Nat) : Tab W64 :=
  (List.range 32).filterMap fun p => (tfind (32 * r.2 + p) (x.seated first run)).map fun w => (p, w)
/-- The index with a run of its ID map tidied. -/
def Index.tidied (x : Index) (first : Nat) (run : List Nat) : Index :=
  { x with idMap := run.zipIdx.foldl (writeRows (x.tidyRow first run)) x.idMap }

/-- A tidy of a run that holds a vacated entry rewrites the run. -/
theorem idMapTidyEff_indexTo {d : Device} {i b : Nat} {x : Index} (hx : d.index? i = some x) (hb : b < x.idMapBuckets) (hr : d.ready = true)
    (hq : d.quiesced = false) {first : Nat} {run : List Nat} (hfirst : first = x.runStart x.idMapBuckets b) (hrun : run = x.runFrom x.idMapBuckets first)
    (hvacated : ∃ w ∈ x.runWords run, idLoc w = none ∧ idEmpty w = false) : d.indexTo (idMapTidyEff i b d) i (x.tidied first run) := by
  have hbg : d.bgOk = true := by simp [Device.bgOk, hr, hq]
  have hany : ((x.runWords run).any fun w => (idLoc w).isNone && !idEmpty w) = true := by
    obtain ⟨w, hw, hnone, hempty⟩ := hvacated
    exact List.any_eq_true.2 ⟨w, hw, by simp [hnone, hempty]⟩
  have hrewritten : idMapTidyEff i b d = run.foldl (fun d k => d.syncBucket i k) (d.modIndex i fun y => { y with idMap := (x.tidied first run).idMap }) := by
    simp only [idMapTidyEff, hx, hbg, ← hfirst, ← hrun, Bool.not_true, Bool.false_or, decide_eq_true_eq, Nat.not_le.2 hb, if_false]
    refine if_neg ?_
    rw [Bool.not_eq_true', Bool.not_eq_false]
    exact hany
  rw [hrewritten]
  exact Device.indexTo_bytes (Device.indexTo_modIndex (Device.tfind_of_index? hx) _) (Device.foldl_bytesTo _ (fun d k => d.syncBucket_bytesTo _ _) _ _)

theorem Index.mem_runWords {x : Index} {run : List Nat} {w : W64} : w ∈ x.runWords run ↔ ∃ k ∈ run, ∃ p, p < 32 ∧ x.idEntry k p = w := by
  simp [Index.runWords]

/-- A word that stays is a word of the run that names a vector. -/
theorem Index.seated_named {x : Index} {first k : Nat} {run : List Nat} {w : W64} (h : tfind k (x.seated first run) = some w) :
    w ∈ x.runWords run ∧ idLoc w ≠ none := by
  have hstep : ∀ t e, x.seatWord run t e = t ∨ ∃ p, x.seatWord run t e = tset p e.2 t := by
    intro t e
    unfold Index.seatWord
    split
    · exact .inr ⟨_, rfl⟩
    · exact .inl rfl
  rcases tfind_foldl_tset hstep _ _ h with hempty | ⟨e, he, rfl⟩
  · cases hempty
  · obtain ⟨w, hw, hplace⟩ := List.mem_filterMap.1 ((mem_sortBy _ _ _).1 he)
    obtain ⟨l, hl, hid⟩ := Option.bind_eq_some_iff.1 hplace
    obtain ⟨id, -, rfl⟩ := Option.map_eq_some_iff.1 hid
    exact ⟨hw, by simp [hl]⟩

/-- An entry of a tidied bucket is empty or one of the run's that names a vector. -/
theorem Index.tidyRow_entry (x : Index) (first : Nat) (run : List Nat) (r : Nat × Nat) (p : Nat) :
    tget 0 p (x.tidyRow first run r) = 0 ∨ ∃ j ∈ run, ∃ q, q < 32 ∧ tget 0 p (x.tidyRow first run r) = x.idEntry j q ∧ idLoc (x.idEntry j q) ≠ none := by
  rcases tget_default_or_mem (0 : W64) p (x.tidyRow first run r) with hempty | hmem
  · exact .inl hempty
  · obtain ⟨a, -, ha⟩ := List.mem_filterMap.1 hmem
    obtain ⟨w, hw, heq⟩ := Option.map_eq_some_iff.1 ha
    obtain ⟨hrun, hnamed⟩ := Index.seated_named hw
    obtain ⟨j, hj, q, hq, rfl⟩ := Index.mem_runWords.1 hrun
    exact .inr ⟨j, hj, q, hq, (congrArg Prod.snd heq).symm, hnamed⟩

/-- A tidy leaves the entries of every other bucket. -/
theorem Index.idEntry_tidied_other (x : Index) (first : Nat) {run : List Nat} {k : Nat} (p : Nat) (h : k ∉ run) :
    (x.tidied first run).idEntry k p = x.idEntry k p := by
  have hrows : ∀ r ∈ run.zipIdx, k ≠ r.1 := fun r hr hk => h (hk ▸ List.fst_mem_of_mem_zipIdx hr)
  simp only [Index.idEntry, Index.tidied, tget_foldl_writeRows_other _ _ _ hrows]

/-- And what it makes of the run's. -/
theorem Index.idEntry_tidied_mem (x : Index) (first : Nat) {run : List Nat} {k : Nat} (p : Nat) (h : k ∈ run) :
    (x.tidied first run).idEntry k p = 0 ∨
      ∃ j ∈ run, ∃ q, q < 32 ∧ (x.tidied first run).idEntry k p = x.idEntry j q ∧ idLoc (x.idEntry j q) ≠ none := by
  have hrows : ∃ r ∈ run.zipIdx, r.1 = k := by
    obtain ⟨n, hn, rfl⟩ := List.getElem_of_mem h
    exact ⟨(run[n], n), List.mk_mem_zipIdx_iff_getElem?.2 (List.getElem?_eq_getElem hn), rfl⟩
  obtain ⟨r, -, -, hrow⟩ := tget_foldl_writeRows_mem (x.tidyRow first run) run.zipIdx x.idMap hrows
  simp only [Index.idEntry, Index.tidied, hrow]
  exact x.tidyRow_entry first run r p

/-! ### DELTA_TAIL (R105, R106) -/

/-- The tail stays where it has reached DELTA_HEAD or a live entry. -/
theorem Index.tailPast_stops {x : Index} (gone : DeltaEntry → Bool) (fuel : Nat) {t : Nat}
    (h : t = x.deltaHead ∨ ∃ w, tfind t x.delta = some w ∧ w.state = 1) : x.tailPast gone fuel t = t := by
  cases fuel with
  | zero => rfl
  | succ fuel =>
    simp only [Index.tailPast]
    split
    · rfl
    · next hhead =>
      obtain ⟨w, hw, hlive⟩ := h.resolve_left hhead
      simp [hw, hlive]

/-- The tail passes an entry that is not live and whose END_VIEW is released. -/
theorem Index.tailPast_passes {x : Index} {gone : DeltaEntry → Bool} (fuel : Nat) {t : Nat} {v : DeltaEntry} (hv : tfind t x.delta = some v)
    (hhead : t ≠ x.deltaHead) (hlive : v.state ≠ 1) (hgone : gone v = true) :
    x.tailPast gone (fuel + 1) t = x.tailPast gone fuel ((t + 1) % x.deltaEntries) := by
  simp [Index.tailPast, hv, hhead, hlive, hgone]

/-- The index with DELTA_TAIL one entry on, which it leaves free. -/
def Index.tailMoved (x : Index) : Index :=
  { x with deltaTail := (x.deltaTail + 1) % x.deltaEntries, delta := x.delta.filter fun p => !([x.deltaTail].contains p.1) }

/-- In a ring of several entries a place differs from the next. -/
theorem ring_next_ne {t n : Nat} (ht : t < n) (hn : 1 < n) : (t + 1) % n ≠ t ∧ ((t + 1) % n + n - t) % n = 1 := by
  rcases Nat.lt_or_ge (t + 1) n with hin | hout
  · rw [Nat.mod_eq_of_lt hin]
    refine ⟨by omega, ?_⟩
    rw [show t + 1 + n - t = 1 + n by omega, Nat.add_mod_right, Nat.mod_eq_of_lt hn]
  · obtain rfl : n = t + 1 := by omega
    rw [Nat.mod_self]
    refine ⟨by omega, ?_⟩
    rw [show 0 + (t + 1) - t = 1 by omega, Nat.mod_eq_of_lt hn]

/-- DELTA_TAIL passes one released entry where the next is DELTA_HEAD or live. -/
theorem deltaTailAdvanceEff_indexTo {d : Device} {i : Nat} {x : Index} {v : DeltaEntry} (hx : d.index? i = some x)
    (hv : tfind x.deltaTail x.delta = some v) (hhead : x.deltaTail ≠ x.deltaHead) (hlive : v.state ≠ 1) (hgone : d.endReleased i v = true)
    (hin : x.deltaTail < x.deltaEntries) (hring : 1 < x.deltaEntries)
    (hnext : (x.deltaTail + 1) % x.deltaEntries = x.deltaHead ∨ ∃ w, tfind ((x.deltaTail + 1) % x.deltaEntries) x.delta = some w ∧ w.state = 1) :
    d.indexTo (deltaTailAdvanceEff i d) i x.tailMoved := by
  obtain ⟨hmoves, hone⟩ := ring_next_ne hin hring
  have htail : x.tailPast (d.endReleased i) (x.delta.length + 1) x.deltaTail = (x.deltaTail + 1) % x.deltaEntries := by
    rw [Index.tailPast_passes _ hv hhead hlive hgone, Index.tailPast_stops _ _ hnext]
  simp only [deltaTailAdvanceEff, hx, htail, hmoves, hone, if_false, List.range_one, List.map_cons, List.map_nil, Nat.add_zero, Nat.mod_eq_of_lt hin]
  refine Device.indexTo_bytes (Device.indexTo_bytes ?_ (Device.foldl_bytesTo _ (fun d e => d.syncDelta_bytesTo _ _) _ _)) (Device.syncRecord_bytesTo _ _)
  exact Device.indexTo_modIndex (Device.tfind_of_index? hx)
    fun y => { y with deltaTail := (x.deltaTail + 1) % x.deltaEntries, delta := y.delta.filter fun p => !([x.deltaTail].contains p.1) }

theorem Index.tfind_tailMoved (x : Index) (j : Nat) : tfind j x.tailMoved.delta = if j = x.deltaTail then none else tfind j x.delta := by
  rw [Index.tailMoved, tfind_filter_key fun k => !([x.deltaTail].contains k)]
  by_cases h : j = x.deltaTail <;> simp [h]

/-! ### The commands -/

/-- COMPACTION_PASS records the tombstoned slots of a cell with the present view. -/
theorem gives_compactionPass {s : State} {i n : Nat} {x : Index} (hx : s.dev.index? i = some x) (hk : x.kind ≠ .graph) (hn : n < x.nCells)
    (hr : s.dev.ready = true) (hq : s.dev.quiesced = false)
    (hnew : ∃ t ∈ (x.cell n).cur.tombs, t ∉ (x.cell n).free ∧ ∀ p ∈ (x.cell n).compact, t ∉ p.2) :
    gives (.compactionPass i n) s fun e => ∃ y new, tfind i e.indexes = some y ∧ (y.cell n).compact = (x.cell n).compact ++ [(x.view, new)] ∧
      (∀ t, t ∈ new ↔ t ∈ (x.cell n).cur.tombs ∧ t ∉ (x.cell n).free ∧ ∀ p ∈ (x.cell n).compact, t ∉ p.2) ∧ (y.cell n).free = (x.cell n).free ∧
      (y.cell n).cur = (x.cell n).cur ∧ (∀ m, m ≠ n → tfind m y.cells = tfind m x.cells) ∧ y = { x with cells := y.cells } ∧
      e = { s.dev with indexes := e.indexes } := by
  refine gives_of_onDev (F := compactionPassEff i n) rfl ?_
  obtain ⟨t, ht, hfree, hcompact⟩ := hnew
  have hsome : (x.cell n).unrecorded ≠ [] := List.ne_nil_of_mem (((x.cell n).mem_unrecorded t).2 ⟨ht, hfree, hcompact⟩)
  rw [compactionPassEff_records hx hk hn hr hq hsome]
  obtain ⟨y, hfound, hcell, hother, honly, hdev⟩ := Device.modCell_changed (Device.tfind_of_index? hx)
    (G := fun x' => x'.modCell n fun c => { c with compact := c.compact ++ [(x'.view, (x.cell n).unrecorded)] }) rfl
  rw [Index.ext_iff] at honly
  refine ⟨y, _, hfound, ?_, (x.cell n).mem_unrecorded, ?_, ?_, hother, Index.ext_iff.2 honly, hdev⟩ <;> rw [hcell]

/-- SLOT_FREE_RELEASE frees the recorded slots whose view is released. -/
theorem gives_slotFreeRelease {s : State} {i n : Nat} {x : Index} (hx : s.dev.index? i = some x) (hc : (x.cell n).compact ≠ []) :
    gives (.slotFreeRelease i n) s fun e => ∃ y, tfind i e.indexes = some y ∧
      (∀ t, t ∈ (y.cell n).free ↔ t ∈ (x.cell n).free ∨ ∃ p ∈ (x.cell n).compact, s.dev.released i p.1 = true ∧ t ∈ p.2) ∧
      (∀ p, p ∈ (y.cell n).compact ↔ p ∈ (x.cell n).compact ∧ s.dev.released i p.1 = false) ∧ (y.cell n).cur = (x.cell n).cur ∧
      (∀ m, m ≠ n → tfind m y.cells = tfind m x.cells) ∧ y = { x with cells := y.cells } ∧ e = { s.dev with indexes := e.indexes } := by
  refine gives_of_onDev (F := slotFreeReleaseEff i n) rfl ?_
  rw [slotFreeReleaseEff_frees hx hc]
  obtain ⟨y, hfound, hcell, hother, honly, hdev⟩ := Device.modCell_changed (Device.tfind_of_index? hx)
    (G := fun x => x.modCell n (Cell.freed (s.dev.released i))) rfl
  refine ⟨y, hfound, fun t => ?_, fun p => ?_, ?_, hother, honly, hdev⟩
  · rw [hcell]
    simp [Cell.freed, and_assoc]
  · rw [hcell]
    simp [Cell.freed]
  · rw [hcell, Cell.freed]

/-- SETTLE_SWEEP writes released view fields 0 and leaves what the index holds. -/
theorem gives_settleSweep {s : State} {i : Nat} {x : Index} (hx : s.dev.index? i = some x) (hr : s.dev.ready = true) (hq : s.dev.quiesced = false) :
    gives (.settleSweep i) s fun e => s.dev.indexTo e i (x.settled (s.dev.released i) (s.dev.mergeReleased i)) :=
  gives_of_onDev (F := settleSweepEff i) rfl (settleSweepEff_indexTo hx hr hq)

/-- Settles O45, from what each command makes of the index. -/
theorem maintenanceReleases : Obligations.MaintenanceReleases := by
  unfold Obligations.MaintenanceReleases
  intro s i x d hx
  have hfound : tfind i d.indexes = some x := Device.tfind_of_index? hx
  refine ⟨fun n hk hn hr hq hnew => gives_compactionPass hx hk hn hr hq hnew, fun n hc => gives_slotFreeRelease hx hc, fun gen v hold hrel => ?_,
    fun hr hq => ?_, ?_, fun v hv hhead hlive hgone hin hring hnext => ?_⟩
  · exact gives_of_onDev (F := codebookFreeEff i) rfl
      ⟨_, codebookFreeEff_indexTo hfound hold hrel, rfl, fun k hk => tfind_tdel_other _ _ _ hk, rfl, rfl, rfl⟩
  · obtain ⟨e, hstep, hsettled⟩ := gives_settleSweep hx hr hq
    refine ⟨e, hstep, _, hsettled, rfl, rfl, ?_, ?_, ?_, ?_, ?_, ?_, ?_, ?_, rfl, rfl⟩
    · exact List.forall_mem_map.2 fun p _ => p.2.settle_cutView _ _
    · exact List.forall_mem_map.2 fun p _ => settled_view _ p.2.mergeView
    · exact List.forall_mem_map.2 fun p _ b hb => p.2.cur.settle_blocks _ hb
    · refine List.forall_mem_map.2 fun p _ q hq' b hb => ?_
      obtain ⟨a, -, rfl⟩ := Option.map_eq_some_iff.1 hq'
      exact a.settle_blocks _ hb
    · exact List.forall_mem_map.2 fun p _ q hq' => settleNodes_views _ _ hq'
    · refine List.forall_mem_map.2 fun p _ ns hns q hq' => ?_
      obtain ⟨a, -, rfl⟩ := Option.map_eq_some_iff.1 hns
      exact settleNodes_views _ _ hq'
    · exact List.forall_mem_map.2 fun p _ => p.2.settle_endView _ _
    · simp [Index.settled, DeltaEntry.settle_keeps]
  · intro b hb hr hq run hvacated
    obtain ⟨k, hk, p, hp, hnone, hempty⟩ := hvacated
    exact gives_of_onDev (F := idMapTidyEff i b) rfl
      ⟨_, idMapTidyEff_indexTo hx hb hr hq rfl rfl ⟨_, Index.mem_runWords.2 ⟨k, hk, p, hp, rfl⟩, hnone, hempty⟩,
        fun k p hk => x.idEntry_tidied_other _ p hk, rfl, fun k hk p _ => x.idEntry_tidied_mem _ p hk⟩
  · refine gives_of_onDev (F := deltaTailAdvanceEff i) rfl
      ⟨_, deltaTailAdvanceEff_indexTo hx hv hhead hlive hgone hin hring hnext, rfl, ?_, fun j hj => ?_, rfl, rfl, rfl⟩
    · rw [Index.tfind_tailMoved, if_pos rfl]
    · rw [Index.tfind_tailMoved, if_neg hj]

end Sys2Proof.Machine
end

section
/-! Bytes stored in the tiers, seen more closely: the controllers take them, and neither a burgee nor a bucket changes. And what an index's upkeep
moves: it is charged to the index's burgee and to no client. -/

namespace Sys2Proof.Machine

/-! ### Channels that take written bytes (R313, R314) -/

/-- A group's parity channel (R314). -/
def isParity (c : Nat) : Bool := isL c && c % 17 == 16

theorem isParity_lChan {g p : Nat} (h : p < 16) : isParity (lChan g p) = false := by
  have hmod : (17 * g + p) % 17 = p := by omega
  simp [isParity, lChan, hmod, Nat.ne_of_lt h]

theorem isParity_of_ge {c : Nat} (h : 68 ≤ c) : isParity c = false := by simp [isParity, isL, Nat.not_lt.2 h]

/-- Every channel of a controller is a parity channel where the controller's own is. -/
theorem isParity_ctrlChans {c e : Nat} (hc : isParity c = false) (h : e ∈ ctrlChans (chanCtrl c)) : isParity e = false := by
  by_cases hl : c < 68
  · simp only [chanCtrl, hl, if_true, ctrlChans, List.mem_singleton] at h
    rwa [h]
  · have hge : ¬ 68 + (c - 68) / 4 * 4 < 68 := by omega
    simp only [chanCtrl, hl, if_false, ctrlChans, hge, List.mem_map] at h
    obtain ⟨k, -, rfl⟩ := h
    exact isParity_of_ge (by omega)

/-- No piece of a byte range lies on a parity channel (R314). -/
theorem Device.pieces_notParity {d : Device} {a n : Nat} {p : Nat × Nat × Nat × Nat} (h : p ∈ d.pieces a n) : isParity p.1 = false := by
  have hnp : d.np ≤ 16 ∧ 0 < d.np := by
    unfold Device.np
    split <;> omega
  unfold Device.pieces at h
  split at h
  · cases h
  · split at h
    · obtain ⟨i, -, rfl⟩ := List.mem_map.1 h
      exact isParity_lChan (Nat.lt_of_lt_of_le (Nat.mod_lt _ hnp.2) hnp.1)
    · obtain ⟨i, -, rfl⟩ := List.mem_map.1 h
      exact isParity_of_ge (by simp only [Device.fPlace, fChan]; omega)
    · cases h

theorem mem_of_oldestOf {ws : List (Nat × WcbEntry)} {o : Nat × WcbEntry} (h : oldestOf ws = some o) : o ∈ ws := by
  have hfold : ∀ (xs : List (Nat × WcbEntry)) (w : Nat × WcbEntry),
      xs.foldl (fun o x => if x.2.first < o.2.first then x else o) w ∈ w :: xs := by
    intro xs
    induction xs with
    | nil => exact fun w => List.mem_cons_self
    | cons x xs ih =>
      intro w
      rw [List.foldl_cons]
      rcases List.mem_cons.1 (ih (if x.2.first < w.2.first then x else w)) with h | h
      · rw [h]
        split <;> simp
      · exact List.mem_cons_of_mem _ (List.mem_cons_of_mem _ h)
  cases ws with
  | nil => cases h
  | cons w ws =>
    rw [oldestOf, Option.some.injEq] at h
    exact h ▸ hfold ws w

/-! ### What controllers do with written bytes (R253, R328) -/

/-- Only channels change. -/
def Device.channelsTo (d e : Device) : Prop := e = { d with tiers := { d.tiers with chans := e.tiers.chans } }

theorem Device.channelsTo_refl (d : Device) : d.channelsTo d := rfl

theorem Device.channelsTo_trans {d e f : Device} (h : d.channelsTo e) (k : e.channelsTo f) : d.channelsTo f := by
  unfold Device.channelsTo at *
  rw [k, h]

theorem Device.foldl_channelsTo {β : Type} (f : Device → β → Device) (xs : List β) (h : ∀ (d : Device), ∀ x ∈ xs, d.channelsTo (f d x)) (d : Device) :
    d.channelsTo (xs.foldl f d) := by
  induction xs generalizing d with
  | nil => exact d.channelsTo_refl
  | cons x xs ih => exact Device.channelsTo_trans (h d x List.mem_cons_self) (ih (fun d y hy => h d y (List.mem_cons_of_mem _ hy)) (f d x))

theorem Device.parityDelta_channelsTo (d : Device) (c key : Nat) : d.channelsTo (d.parityDelta c key) := by
  unfold Device.parityDelta
  split <;> rfl

/-- A data row flushed is charged to nobody (R318). -/
theorem Device.flush_channelsTo (d : Device) {c : Nat} (key : Nat) (hc : isParity c = false) : d.channelsTo (d.flush c key) := by
  unfold Device.flush
  split
  · exact d.channelsTo_refl
  · next e _ =>
    have hleft : d.channelsTo (if (e.written == [(0, keyBytes c)]) = true then d.modChan c fun k => { k with wcb := k.wcb.filter (·.key != key) }
        else (d.modChan c fun k => { k with wcb := k.wcb.filter (·.key != key) }).memCount c fun m => { m with wcbRmw := m.wcbRmw + 1 }) := by
      split <;> rfl
    unfold isParity at hc
    simp only [hc]
    exact Device.channelsTo_trans hleft (Device.parityDelta_channelsTo _ _ _)

theorem Device.wcbRoom_channelsTo (d : Device) {c : Nat} (hc : isParity c = false) : d.channelsTo (d.wcbRoom c) := by
  unfold Device.wcbRoom
  dsimp only
  split
  · exact d.channelsTo_refl
  · cases ho : oldestOf (d.ctrlWcb c) with
    | none => exact d.channelsTo_refl
    | some o =>
      obtain ⟨e, he, hw⟩ := List.mem_flatMap.1 (mem_of_oldestOf ho)
      obtain ⟨w, -, rfl⟩ := List.mem_map.1 hw
      exact d.flush_channelsTo _ (isParity_ctrlChans hc he)

/-- A part of a row or unit accepted, in whichever state its channel is (R323, R326, R328). -/
theorem Device.acceptPart_channelsTo (d : Device) {c : Nat} (key lo hi : Nat) (hc : isParity c = false) : d.channelsTo (d.acceptPart c key lo hi) := by
  have hcount : d.channelsTo (d.memCount c fun m => { m with writes := m.writes + 1 }) := rfl
  have hjournal : ∀ e : Device, e.channelsTo (if (e.chan c).journal.contains key then e
      else (e.modChan c fun k => { k with journal := k.journal ++ [key] }).memCount c fun m => { m with journal := m.journal + 1 }) := by
    intro e
    split <;> rfl
  have hparity := Device.channelsTo_trans hcount (Device.parityDelta_channelsTo _ c key)
  unfold Device.acceptPart
  dsimp only
  split
  · exact Device.channelsTo_trans (Device.channelsTo_trans hcount (hjournal _)) (Device.parityDelta_channelsTo _ _ _)
  · split
    · exact hparity
    · exact hcount
  · split
    · exact hparity
    · exact Device.channelsTo_trans hcount (hjournal _)
  · have hroom : ∀ (b : Bool) (e : Device), e.channelsTo (if b = true then e else e.wcbRoom c) := by
      intro b e
      split
      · exact e.channelsTo_refl
      · exact e.wcbRoom_channelsTo hc
    have hjoined := Device.channelsTo_trans hcount (hroom ((d.chan c).wcb.any (·.key == key)) _)
    have hentered : ∀ (e : Device) (g : Channel → Channel), e.channelsTo (e.modChan c g) := fun _ _ => rfl
    split
    · exact Device.channelsTo_trans (Device.channelsTo_trans hjoined (hentered _ _)) (Device.flush_channelsTo _ _ hc)
    · exact Device.channelsTo_trans hjoined (hentered _ _)

/-- What the controllers do with a write leaves it as stored (R253). -/
theorem Device.memWrite_channelsTo (d : Device) (a : Nat) (bs : List Byte) : (d.write a bs).channelsTo (d.memWrite a bs) :=
  Device.foldl_channelsTo _ _ (fun d _ hp => d.acceptPart_channelsTo _ _ _ (Device.pieces_notParity hp)) _

/-! ### Bytes stored (R253, R310, R328) -/

/-- What storing bytes changes: memory, what the channels hold, and which bytes are unknown. -/
def Device.stores (d e : Device) : Prop :=
  e = { d with mem := e.mem, tiers := { d.tiers with chans := e.tiers.chans, erased := e.tiers.erased } }

theorem Device.stores_refl (d : Device) : d.stores d := rfl

theorem Device.stores_trans {d e f : Device} (h : d.stores e) (k : e.stores f) : d.stores f := by
  unfold Device.stores at *
  rw [k, h]

theorem Device.foldl_stores {β : Type} (f : Device → β → Device) (h : ∀ (d : Device) x, d.stores (f d x)) (xs : List β) (d : Device) :
    d.stores (xs.foldl f d) := by
  induction xs generalizing d with
  | nil => exact d.stores_refl
  | cons x xs ih => exact Device.stores_trans (h d x) (ih (f d x))

theorem Device.memWrite_stores (d : Device) (a : Nat) (bs : List Byte) : d.stores (d.memWrite a bs) := by
  have h := d.memWrite_channelsTo a bs
  unfold Device.channelsTo at h
  rw [h]
  rfl

theorem Device.writeMirrored_stores (d : Device) (a b : Nat) (bs : List Byte) : d.stores (d.writeMirrored a b bs) :=
  Device.foldl_stores _ (fun d _ => Device.stores_trans (d.memWrite_stores _ _) (Device.memWrite_stores _ _ _)) _ d

theorem Device.syncRecord_stores (d : Device) (i : Nat) : d.stores (d.syncRecord i) := by
  unfold Device.syncRecord
  split
  · exact Device.stores_trans (d.memWrite_stores _ _) (Device.writeMirrored_stores _ _ _ _)
  · exact d.stores_refl

/-- What is stored is what bytes on their way to the tiers may change. -/
theorem Device.bytesTo_of_stores {d e : Device} (h : d.stores e) : d.bytesTo e := by
  unfold Device.stores at h
  unfold Device.bytesTo
  rw [h]

/-! ### Bytes read back (R253, R304, R437) -/

/-- No written byte is unknown (R437). -/
theorem eraseTrim_find {a n x : Nat} (es : List Erased) (h : a ≤ x ∧ x < a + n) :
    (eraseTrim a n es).find? (fun e => decide (e.base ≤ x) && decide (x < e.base + e.len)) = none := by
  refine List.find?_eq_none.2 fun e he hx => ?_
  obtain ⟨r, -, hr⟩ := List.mem_flatMap.1 he
  simp only [Bool.and_eq_true, decide_eq_true_eq] at hx
  rcases List.mem_append.1 hr with hr | hr <;> split at hr
  · cases hr
  · obtain rfl := List.mem_singleton.1 hr
    simp only at hx
    omega
  · obtain rfl := List.mem_singleton.1 hr
    simp only at hx
    omega
  · cases hr

/-- A written byte reads back. -/
theorem Device.byteAt_memWrite_in (d : Device) {a k : Nat} {bs : List Byte} (h : k < bs.length) : (d.memWrite a bs).byteAt (a + k) = bs.getD k 0 := by
  have hchans := d.memWrite_channelsTo a bs
  unfold Device.channelsTo at hchans
  rw [hchans]
  simp only [Device.byteAt, Device.write, eraseTrim_find d.tiers.erased ⟨Nat.le_add_right a k, Nat.add_lt_add_left h a⟩,
    memByte_memStore_in a k bs d.mem h]

/-- A byte outside what is written reads as before, where none is unknown (R304). -/
theorem Device.byteAt_memWrite_out (d : Device) {a x : Nat} {bs : List Byte} (he : d.tiers.erased = []) (h : x < a ∨ a + bs.length ≤ x) :
    (d.memWrite a bs).byteAt x = d.byteAt x := by
  have hchans := d.memWrite_channelsTo a bs
  unfold Device.channelsTo at hchans
  rw [hchans]
  exact d.byteAt_write_out a x bs he h

/-- Written bytes read back. -/
theorem Device.read_memWrite (d : Device) (a : Nat) (bs : List Byte) : (d.memWrite a bs).read a bs.length = bs := by
  rw [Device.read_eq_byteAt]
  refine List.ext_getElem (by simp) fun i h _ => ?_
  have hi : i < bs.length := by simpa using h
  simp [d.byteAt_memWrite_in hi, hi]

/-- A write leaves no byte unknown that was known. -/
theorem Device.erased_memWrite (d : Device) {a : Nat} {bs : List Byte} (he : d.tiers.erased = []) : (d.memWrite a bs).tiers.erased = [] := by
  have hchans := d.memWrite_channelsTo a bs
  unfold Device.channelsTo at hchans
  rw [hchans]
  simp [Device.write, he, eraseTrim]

/-! ### What an index's upkeep moves (R29, R251) -/

/-- What traffic of a burgee's own upkeep changes: what is charged to the burgee, and counts of channels. -/
def Device.asks (d e : Device) : Prop := e = { d with burgees := e.burgees, tiers := { d.tiers with chans := e.tiers.chans } } ∧ d.burgeesMetered e
/-- What a copy made by upkeep changes: beside its traffic the bytes it stores. -/
def Device.moves (d e : Device) : Prop :=
  e = { d with burgees := e.burgees, mem := e.mem, tiers := { d.tiers with chans := e.tiers.chans, erased := e.tiers.erased } } ∧ d.burgeesMetered e

theorem Device.asks_refl (d : Device) : d.asks d := ⟨rfl, fun _ => rfl⟩

theorem Device.asks_trans {d e f : Device} (h : d.asks e) (k : e.asks f) : d.asks f :=
  ⟨by rw [k.1, h.1], Device.burgeesMetered_trans h.2 k.2⟩

theorem Device.foldl_asks {β : Type} (f : Device → β → Device) (h : ∀ (d : Device) x, d.asks (f d x)) (xs : List β) (d : Device) :
    d.asks (xs.foldl f d) := by
  induction xs generalizing d with
  | nil => exact d.asks_refl
  | cons x xs ih => exact Device.asks_trans (h d x) (ih (f d x))

theorem Device.moves_refl (d : Device) : d.moves d := ⟨rfl, fun _ => rfl⟩

theorem Device.moves_trans {d e f : Device} (h : d.moves e) (k : e.moves f) : d.moves f :=
  ⟨by rw [k.1, h.1], Device.burgeesMetered_trans h.2 k.2⟩

theorem Device.foldl_moves {β : Type} (f : Device → β → Device) (h : ∀ (d : Device) x, d.moves (f d x)) (xs : List β) (d : Device) :
    d.moves (xs.foldl f d) := by
  induction xs generalizing d with
  | nil => exact d.moves_refl
  | cons x xs ih => exact Device.moves_trans (h d x) (ih (f d x))

theorem Device.moves_of_asks {d e : Device} (h : d.asks e) : d.moves e := ⟨by rw [h.1], h.2⟩

theorem Device.moves_of_stores {d e : Device} (h : d.stores e) : d.moves e := by
  unfold Device.stores at h
  rw [h]
  exact ⟨rfl, fun _ => rfl⟩

theorem Device.memReadCount_asks (d : Device) (a n p : Nat) : d.asks (d.memReadCount a n p) := by
  refine ⟨?_, (d.memReadCount_metered a n p).2.2⟩
  have hnote : ∀ (e : Device) (c key : Nat), e.channelsTo (e.stripeNote c key) := by
    intro e c key
    unfold Device.stripeNote
    split <;> rfl
  have hcounts : d.channelsTo (d.memReadCount a n p) := by
    unfold Device.memReadCount
    refine Device.foldl_channelsTo _ _ (fun e q _ => ?_) d
    exact Device.channelsTo_trans (e := e.memCount q.1 _) rfl (hnote _ _ _)
  unfold Device.channelsTo at hcounts
  rw [hcounts]

/-- Traffic of no client is charged to its burgee alone. -/
theorem Device.chargeAt_asks (d : Device) (x : Index) (a n : Nat) (w : Bool) : d.asks (d.chargeAt x.upkeep a n w) := by
  refine ⟨?_, (d.chargeAt_metered x.upkeep a n w rfl).2.2⟩
  unfold Device.chargeAt
  cases d.tierCharge a n w with
  | none => rfl
  | some q => rfl

theorem Device.readFor_asks (d : Device) (x : Index) (a n : Nat) : d.asks (d.readFor x.upkeep a n) :=
  Device.asks_trans (d.chargeAt_asks x a n false) (Device.memReadCount_asks _ _ _ _)

end Sys2Proof.Machine
end

section
/-! The Hoist boundary: what its cadence publishes, how the one command that waits is admitted, and the microsecond's tokens of the Regulator. -/

namespace Sys2Proof.Machine

/-! ### Publication at a boundary (R79, R81, R417) -/

/-- What a cadence may change: indexes, of which none that is there leaves, and of a burgee the placed copies alone. -/
def Device.publishes (d e : Device) : Prop :=
  e = { d with indexes := e.indexes, burgees := e.burgees, mem := e.mem, tiers := { e.tiers with lFault := d.tiers.lFault } } ∧
    (∀ b, e.burgee b = { d.burgee b with placed := (e.burgee b).placed, left := (e.burgee b).left }) ∧
    ∀ i, (d.index? i).isSome = true → (e.index? i).isSome = true

theorem Device.publishes_refl (d : Device) : d.publishes d := ⟨rfl, fun _ => rfl, fun _ => id⟩

theorem Device.publishes_trans {d e f : Device} (h : d.publishes e) (k : e.publishes f) : d.publishes f := by
  obtain ⟨honly, hburgees, hindexes⟩ := h
  obtain ⟨konly, kburgees, kindexes⟩ := k
  refine ⟨?_, fun b => ?_, fun i hi => kindexes i (hindexes i hi)⟩
  · rw [konly, honly]
  · rw [kburgees b, hburgees b]

/-- What each step of a fold may change at a cadence, the fold may. -/
theorem Device.foldl_publishes {β : Type} (f : Device → β → Device) (h : ∀ (d : Device) x, d.publishes (f d x)) (xs : List β) (d : Device) :
    d.publishes (xs.foldl f d) := by
  induction xs generalizing d with
  | nil => exact d.publishes_refl
  | cons x xs ih => exact Device.publishes_trans (h d x) (ih (f d x))

theorem Device.publishes_of_stores {d e : Device} (h : d.stores e) : d.publishes e := by
  unfold Device.stores at h
  rw [h]
  exact ⟨rfl, fun _ => rfl, fun _ => id⟩

/-- An index changed where it stays or goes as before. -/
theorem Device.modIndex_publishes (d : Device) (i : Nat) (g : Index → Index) (hg : ∀ x, (g x).deletedAt = x.deletedAt) : d.publishes (d.modIndex i g) := by
  cases hx : tfind i d.indexes with
  | none =>
    simp only [Device.modIndex, hx]
    exact d.publishes_refl
  | some x =>
    rw [Device.modIndex_found hx]
    refine ⟨rfl, fun _ => rfl, fun j hj => ?_⟩
    by_cases hij : j = i
    · subst hij
      simpa [Device.index?, hx, hg] using hj
    · simpa [Device.index?, tfind_tset_other _ _ _ _ hij] using hj

theorem Device.advanceView_publishes (d : Device) (i : Nat) : d.publishes (d.advanceView i) :=
  Device.publishes_trans (d.modIndex_publishes i (fun x => { x with view := nextView x.view }) fun _ => rfl)
    (Device.publishes_of_stores (Device.syncRecord_stores _ i))

/-- Copies of a burgee that go. -/
theorem Device.modBurgee_publishes (d : Device) (b : Nat) (p : List Placed → List Placed) (l : List LeftSpace → List LeftSpace) :
    d.publishes (d.modBurgee b fun g => { g with placed := p g.placed, left := l g.left }) := by
  refine ⟨rfl, fun k => ?_, fun _ => id⟩
  by_cases hk : k = b
  · subst hk
    simp [Device.burgee, Device.modBurgee]
  · simp [Device.burgee, Device.modBurgee, tget_tmod_other _ _ _ _ _ hk]

/-- An index that is gone leaves the table (R80, R417). -/
theorem Device.tdel_publishes {d : Device} {i : Nat} (h : d.index? i = none) : d.publishes { d with indexes := tdel i d.indexes } := by
  refine ⟨rfl, fun _ => rfl, fun j hj => ?_⟩
  have hij : j ≠ i := by
    rintro rfl
    simp [h] at hj
  simpa [Device.index?, tfind_tdel_other _ _ _ hij] using hj

theorem Device.freeL_publishes (d : Device) (a n : Nat) : d.publishes (d.freeL a n) := ⟨rfl, fun _ => rfl, fun _ => id⟩
theorem Device.freeF_publishes (d : Device) (a : Nat) : d.publishes (d.freeF a) := ⟨rfl, fun _ => rfl, fun _ => id⟩

/-- What a deletion gives back, and the index it takes out (R80, R417). -/
theorem Device.reap_publishes {d : Device} {i : Nat} {x : Index} (hx : tfind i d.indexes = some x) (hgone : x.deletedAt.isSome = true) :
    d.publishes (d.reap i) := by
  unfold Device.reap
  rw [hx]
  dsimp only
  split
  · exact d.publishes_refl
  · refine Device.publishes_trans (Device.publishes_trans (Device.publishes_trans
      (Device.foldl_publishes _ (fun d (s : Nat × Nat) => d.freeL_publishes s.1 s.2) _ d) (Device.foldl_publishes _ (fun d a => d.freeF_publishes a) _ _))
      (Device.modBurgee_publishes _ x.burgee (·.filter (·.index != i)) (·.filter (·.index != i)))) (Device.tdel_publishes ?_)
    simp only [Device.index?, Device.modBurgee]
    rw [foldl_keep Device.indexes Device.freeF fun _ _ => rfl, foldl_keep Device.indexes (fun (d : Device) (s : Nat × Nat) => d.freeL s.1 s.2) fun _ _ => rfl, hx]
    obtain ⟨v, hv⟩ := Option.isSome_iff_exists.1 hgone
    simp [hv]

/-- A cadence moves views, and takes out deleted indexes (R79, R81). -/
theorem Device.cadence_publishes (d : Device) (b : Nat) : d.publishes (d.cadence b) := by
  refine Device.foldl_publishes _ (fun d i => ?_) _ d
  split
  · exact d.publishes_refl
  · next x hx =>
    split
    · next hgone =>
      have hmoved := d.modIndex_publishes i (fun x => { x with view := nextView x.view }) fun _ => rfl
      refine Device.publishes_trans hmoved (Device.reap_publishes (x := { x with view := nextView x.view }) ?_ hgone)
      rw [Device.modIndex_found hx]
      exact tfind_tset_same _ _ _
    · dsimp only
      refine Device.publishes_trans ?_ (Device.modIndex_publishes _ i (fun x => { x with boundView := x.view }) fun _ => rfl)
      split
      · exact d.publishes_refl
      · split
        · exact d.advanceView_publishes i
        · exact d.modIndex_publishes i (fun x => { x with viewWaits := x.viewWaits + 1 }) fun _ => rfl

/-! ### Admission of the one command that waits (R122, R162, R339, R348) -/

/-- The one command of a device: a search of one vector that waits for burgee b, without a filter, stage D or a shoal, whose place, Merge Buffer space and
index are there. -/
structure Device.SoleCandidate (d : Device) (b : Nat) (c : Cmd) : Prop where
  listed     : d.cmds = [c]
  burgee     : c.burgee = b
  search     : c.op.isSearch = true
  single     : c.op ≠ .msearch
  waiting    : c.phase = .waiting
  own        : c.remote = none
  unfiltered : c.sp.filterId = 0
  unmodelled : c.sp.stageD = false
  anyBound   : c.sp.boundOnly = false
  known      : (d.index? c.indexNo).isSome = true
  alone      : d.shoalIndex? c.indexNo = none
  space      : d.mbFree c = true
  place      : d.places b < (d.burgee b).maxBatch

/-- A command has become c0 but for its units, and neither the timebase nor a boundary has moved. -/
def Device.entered (d e : Device) (k : Nat) (c0 : Cmd) : Prop :=
  e.now = d.now ∧ (∀ b, (e.burgee b).lastBound = (d.burgee b).lastBound) ∧ ∃ c', e.cmd? k = some c' ∧ c' = { c0 with runs := c'.runs }

/-- A burgee changed beside its last boundary leaves a command as it has become. -/
theorem Device.entered_modBurgee {d e : Device} {k : Nat} {c0 : Cmd} (h : d.entered e k c0) (b : Nat) (g : Burgee → Burgee)
    (hg : ∀ x, (g x).lastBound = x.lastBound) : d.entered (e.modBurgee b g) k c0 := by
  obtain ⟨hnow, hburgees, hcmd⟩ := h
  refine ⟨hnow, fun j => (?_ : _ = (e.burgee j).lastBound).trans (hburgees j), hcmd⟩
  by_cases hj : j = b
  · subst hj
    simp [Device.burgee, Device.modBurgee, hg]
  · simp [Device.burgee, Device.modBurgee, tget_tmod_other _ _ _ _ _ hj]

/-- Charges leave a command as it has become. -/
theorem Device.entered_charged {d e f : Device} {k : Nat} {c0 : Cmd} (h : d.entered e k c0) (hc : e.readsCharged f) : d.entered f k c0 := by
  obtain ⟨hnow, hburgees, hcmd⟩ := h
  obtain ⟨honly, -, hmetered⟩ := hc
  refine ⟨?_, fun b => ?_, ?_⟩
  · rw [honly]
    exact hnow
  · rw [hmetered b]
    exact hburgees b
  · rw [honly]
    exact hcmd

/-- Contexts for units leave everything else. -/
theorem Device.unitCtx_entered {d e : Device} {k : Nat} {c0 : Cmd} (h : d.entered e k c0) (c : Cmd) (j u : Nat) : d.entered (e.unitCtx c j u) k c0 := by
  unfold Device.unitCtx
  dsimp only
  split <;> exact h

/-- Units appended to a run of the command. -/
theorem Device.addUnits_entered {d e : Device} {c c0 : Cmd} (h : d.entered e c.stamp c0) (j : Nat) (us : List UnitId) :
    d.entered (e.addUnits c j us) c.stamp c0 := by
  obtain ⟨hnow, hburgees, c', hfound, honly⟩ := h
  have hunits : d.entered (e.modCmd c.stamp fun c => { c with runs := lmod j (fun r => { r with units := r.units ++ us }) c.runs }) c.stamp c0 := by
    refine ⟨hnow, hburgees, _, Device.cmd?_modCmd_same _ (fun _ => rfl) hfound, ?_⟩
    rw [honly]
  unfold Device.addUnits
  generalize (((e.cmd? c.stamp).elim [] (·.runs)).getD j {}).units.length = n
  exact List.foldlRecOn (motive := fun e => d.entered e c.stamp c0) _ _ hunits fun _ h k _ => Device.unitCtx_entered h c j (n + k)

/-- An admitted command enters with its Merge Buffer space, and its delta units where it has any (R122, R162). -/
theorem Device.enter_entered {d : Device} {c a : Cmd} (x : Index) (hc : d.cmds = [c]) (ha : a.stamp = c.stamp) :
    d.entered (d.enter x a) c.stamp { a with mbBytes := d.mbNeed a, half := d.foldHalf a } := by
  have hspace : d.entered ((d.modCmd a.stamp fun _ => { a with mbBytes := d.mbNeed a, half := d.foldHalf a }).modMb (d.foldHalf a) fun m =>
      { m with used := m.used + d.mbNeed a }) a.stamp { a with mbBytes := d.mbNeed a, half := d.foldHalf a } := by
    refine ⟨rfl, fun _ => rfl, { a with mbBytes := d.mbNeed a, half := d.foldHalf a }, ?_, rfl⟩
    simp [Device.cmd?, Device.modCmd, Device.modMb, hc, ha]
  rw [← ha]
  unfold Device.enter
  dsimp only
  split
  · split
    · exact hspace
    · exact List.foldlRecOn (motive := fun e => d.entered e a.stamp { a with mbBytes := d.mbNeed a, half := d.foldHalf a }) _ _ hspace fun _ h j _ => Device.addUnits_entered h j _
  · exact hspace

/-- A candidate that has a bound, or takes best effort, is admitted (R348, R352, R359). -/
theorem Device.admitChecked_entered {d : Device} {c a : Cmd} (x : Index) (ta : Nat) (hc : d.cmds = [c]) (ha : a.stamp = c.stamp)
    (hbest : a.sp.boundOnly = false) :
    (d.admitChecked x ta [] a).2 = [c.stamp] ∧ ∃ rank bound, d.entered (d.admitChecked x ta [] a).1 c.stamp
      { a with rank := rank, bound := bound, mbBytes := d.mbNeed a, half := d.foldHalf a } := by
  have haccount : ∀ (e : Device) (c0 : Cmd) (g : Account → Account) (b : Nat), d.entered e c.stamp c0 →
      d.entered (if a.remote.isNone = true then e.account (some a.fn) b g else e) c.stamp c0 := by
    intro e c0 g b h
    split
    · exact Device.entered_charged h (e.account_metered _ _ _)
    · exact h
  unfold Device.admitChecked
  dsimp only
  split
  · refine ⟨by simp [ha], 4, true, haccount _ _ _ _ (Device.entered_modBurgee ?_ _ _ fun _ => rfl)⟩
    exact Device.enter_entered (a := { a with bound := true, rank := 4 }) x hc ha
  · rw [hbest]
    refine ⟨by simp [ha], a.rank, a.bound, haccount _ _ _ _ (Device.entered_modBurgee ?_ _ _ fun _ => rfl)⟩
    exact Device.enter_entered x hc ha

theorem Device.recordWait_entered {d e : Device} {k : Nat} {c0 : Cmd} (h : d.entered e k c0) (c : Cmd) (ns : Nat) : d.entered (e.recordWait c ns) k c0 := by
  unfold Device.recordWait
  split
  · exact h
  · exact Device.entered_modBurgee h _ _ fun _ => rfl

/-- The instant of admission, the snapshot and the Merge Buffer space of an admitted command, with the timebase and the boundaries where they were. -/
def Device.admits (d e : Device) (c : Cmd) (ta : Nat) : Prop :=
  e.now = d.now ∧ (∀ b, (e.burgee b).lastBound = (d.burgee b).lastBound) ∧
    ∃ c', e.cmd? c.stamp = some c' ∧ c'.phase = .active ∧ c'.snap.isSome = true ∧ c'.admitted = ta ∧ c'.mbBytes = d.mbNeed c

/-- A sole candidate considered is admitted (R122, R348). -/
theorem Device.consider_admits {d : Device} {b : Nat} {c : Cmd} (h : d.SoleCandidate b c) (ta : Nat) :
    d.admits (Device.consider ta (d, []) c.stamp).1 c ta := by
  obtain ⟨x, hx⟩ := Option.isSome_iff_exists.1 h.known
  have hcmd : d.cmd? c.stamp = some c := by simp [Device.cmd?, h.listed]
  have hroom : ¬ (d.burgee c.burgee).maxBatch - d.places c.burgee < 1 := by
    have := h.place
    rw [h.burgee]
    omega
  have hsearch : c.op.isWrite = false := by
    have := h.search
    cases hop : c.op <;> simp_all [IoOp.isSearch, IoOp.isWrite]
  have hwrites : d.writesDone c = true := by simp [Device.writesDone, h.listed, hsearch]
  obtain ⟨hnew, rank, bound, hentered⟩ := Device.admitChecked_entered
    (a := d.asAdmitted x none ta ((d.burgee c.burgee).maxBatch - d.places c.burgee) c) x ta h.listed rfl h.anyBound
  have hkept : (Device.consider ta (d, []) c.stamp).1 =
      ((d.admitChecked x ta [] (d.asAdmitted x none ta ((d.burgee c.burgee).maxBatch - d.places c.burgee) c)).1.recordWait c (ta - c.t0)) := by
    simp [Device.consider, hcmd, hx, h.own, hwrites, h.single, hroom, h.space, h.unfiltered, h.unmodelled, hnew]
  have hrecorded := hkept ▸ Device.recordWait_entered hentered c (ta - c.t0)
  obtain ⟨hnow, hburgees, c', hfound, honly⟩ := hrecorded
  refine ⟨hnow, hburgees, c', hfound, ?_⟩
  rw [honly]
  exact ⟨rfl, rfl, rfl, rfl⟩

/-- The one command that waits is the one considered at a boundary (R339). -/
theorem Device.admission_admits {d : Device} {b : Nat} {c : Cmd} (h : d.SoleCandidate b c) (hdue : ∀ u, c.deadline = some u → d.now < u) (ta : Nat) :
    d.admits (d.admission b ta) c ta := by
  have hdue' : (c.deadline.elim true fun t => decide (d.now < t)) = true := by
    cases hdead : c.deadline with
    | none => rfl
    | some u => exact decide_eq_true (hdue u hdead)
  have hone : d.admission b ta = (Device.consider ta (d, []) c.stamp).1 := by
    simp [Device.admission, h.listed, h.burgee, h.search, h.waiting, hdue', sortBy, insBy]
  rw [hone]
  exact Device.consider_admits h ta

/-! ### HOIST_BOUNDARY (R337, R338) -/

/-- The device as a boundary's cadence has left it (R79, R337). -/
def Device.atBoundary (d : Device) (b : Nat) : Device :=
  ((d.by (d.nextBoundary b)).modBurgee b fun g => { g with lastBound := d.nextBoundary b }).cadence b

/-- A boundary has moved its instant and the timebase, and published. -/
theorem Device.atBoundary_moved (d : Device) (b : Nat) : ((d.atBoundary b).burgee b).lastBound = d.nextBoundary b ∧
    (d.atBoundary b).now = max d.now (d.nextBoundary b) := by
  obtain ⟨honly, hburgees, -⟩ := Device.cadence_publishes ((d.by (d.nextBoundary b)).modBurgee b fun g => { g with lastBound := d.nextBoundary b }) b
  constructor
  · rw [Device.atBoundary, hburgees]
    simp [Device.burgee, Device.modBurgee]
  · rw [Device.atBoundary, honly]
    rfl

/-- Beside indexes and burgees a boundary keeps what its admission reads. -/
theorem Device.atBoundary_keeps (d : Device) (b : Nat) : (d.atBoundary b).cmds = d.cmds ∧ (d.atBoundary b).shoal = d.shoal ∧ (d.atBoundary b).mbs = d.mbs ∧
    (d.atBoundary b).aon = d.aon ∧ (d.atBoundary b).quiesced = d.quiesced ∧ (d.atBoundary b).mgmt = d.mgmt ∧ (d.atBoundary b).dataPath = d.dataPath := by
  obtain ⟨honly, -, -⟩ := Device.cadence_publishes ((d.by (d.nextBoundary b)).modBurgee b fun g => { g with lastBound := d.nextBoundary b }) b
  rw [Device.atBoundary, honly]
  exact ⟨rfl, rfl, rfl, rfl, rfl, rfl, rfl⟩

/-- Of its burgee a boundary keeps the geometry's settings. -/
theorem Device.atBoundary_settings (d : Device) (b : Nat) : ((d.atBoundary b).burgee b).enabled = (d.burgee b).enabled ∧
    ((d.atBoundary b).burgee b).maxBatch = (d.burgee b).maxBatch := by
  obtain ⟨-, hburgees, -⟩ := Device.cadence_publishes ((d.by (d.nextBoundary b)).modBurgee b fun g => { g with lastBound := d.nextBoundary b }) b
  rw [Device.atBoundary, hburgees]
  constructor <;> simp [Device.burgee, Device.modBurgee, Device.by]

theorem Device.atBoundary_mbNeed (d : Device) (b : Nat) (c : Cmd) : (d.atBoundary b).mbNeed c = d.mbNeed c := by
  obtain ⟨-, hshoal, -⟩ := d.atBoundary_keeps b
  unfold Device.mbNeed Device.shoalIndex? Device.inShoal
  rw [hshoal]

/-- A boundary keeps what admission asks for. -/
theorem Device.SoleCandidate.atBoundary {d : Device} {b : Nat} {c : Cmd} (h : d.SoleCandidate b c) : (d.atBoundary b).SoleCandidate b c := by
  obtain ⟨-, -, hindexes⟩ :=
    Device.cadence_publishes ((d.by (d.nextBoundary b)).modBurgee b fun g => { g with lastBound := d.nextBoundary b }) b
  obtain ⟨hcmds, hshoal, hmbs, -⟩ := d.atBoundary_keeps b
  have hbatch := (d.atBoundary_settings b).2
  refine { h with listed := hcmds.trans h.listed, known := hindexes _ h.known, alone := ?_, space := ?_, place := ?_ }
  · unfold Device.shoalIndex? Device.inShoal
    rw [hshoal]
    exact h.alone
  · unfold Device.mbFree Device.mb Device.foldHalf Device.mb
    rw [Device.atBoundary_mbNeed, hmbs]
    exact h.space
  · simpa only [Device.places, hcmds, hbatch] using h.place

/-- While no geometry write waits, a boundary publishes, and admits unless it may not (R338). -/
theorem hoistBoundaryEff_eq {d : Device} {b : Nat} (hr : d.ready = true) (hb : b < 16) (hgeo : d.mgmt.geoWrite = none) :
    hoistBoundaryEff b d = if d.frozen || d.quiesced || !(d.burgee b).enabled || !d.dataPath then d.atBoundary b
      else ((d.atBoundary b).admission b (d.nextBoundary b + 2000)).by (d.nextBoundary b + 2000) := by
  obtain ⟨-, -, -, haon, hquiesced, hmgmt, hpath⟩ := d.atBoundary_keeps b
  have hfrozen : (d.atBoundary b).frozen = d.frozen := by simp only [Device.frozen, haon]
  have hholds : (d.atBoundary b).geoHolds b = false := by simp only [Device.geoHolds, hmgmt, hgeo]
  have haccept : ((d.by (d.nextBoundary b)).modBurgee b fun g => { g with lastBound := d.nextBoundary b }).geometryAccept =
      (d.by (d.nextBoundary b)).modBurgee b fun g => { g with lastBound := d.nextBoundary b } := by
    have hsame : ((d.by (d.nextBoundary b)).modBurgee b fun g => { g with lastBound := d.nextBoundary b }).mgmt.geoWrite = none := hgeo
    simp only [Device.geometryAccept, hsame]
  unfold hoistBoundaryEff
  dsimp only
  rw [haccept]
  change (if (!d.ready || decide (16 ≤ b)) = true then d else
    if (d.atBoundary b).frozen || (d.atBoundary b).quiesced || (d.atBoundary b).geoHolds b || !((d.atBoundary b).burgee b).enabled || !(d.atBoundary b).dataPath
      then d.atBoundary b else ((d.atBoundary b).admission b (d.nextBoundary b + 2000)).by (d.nextBoundary b + 2000)) = _
  simp [hr, Nat.not_le.2 hb, hfrozen, hquiesced, hholds, hpath, (d.atBoundary_settings b).1]

/-! ### TOKEN_BUCKET_REFILL (R345) -/

/-- A link without a message to send sends none. -/
theorem Device.pump_idle {d : Device} {l : Nat} (h : (d.link l).queue = []) : d.pump l = d := by simp [Device.pump, h, lsum]

/-- Every pair of buckets is refilled on its own. -/
theorem refillAll_getD (burst : Nat) (i : Nat) (ks : List Bucket) (h : 2 * i + 1 < ks.length) :
    [(refillAll burst ks).getD (2 * i) {}, (refillAll burst ks).getD (2 * i + 1) {}] = refillPair burst (ks.getD (2 * i) {}) (ks.getD (2 * i + 1) {}) := by
  induction i generalizing ks with
  | zero =>
    match ks, h with
    | hi :: lo :: t, _ => rfl
  | succ i ih =>
    match ks, h with
    | hi :: lo :: t, h =>
      have := ih t (by simp at h; omega)
      simpa [refillAll, refillPair, Nat.mul_add] using this

/-- A microsecond's tokens: with no message to send, the buckets alone change. -/
theorem tokenBucketRefillEff_idle {d : Device} (h : ∀ l, l < 32 → (d.link l).queue = []) :
    (tokenBucketRefillEff d).now = max d.now ((d.now / 1000 + 1) * 1000) ∧
      (tokenBucketRefillEff d).burgees = (d.burgees.map fun p => (p.1, { p.2 with buckets := refillAll p.2.burst p.2.buckets })) ∧
      tokenBucketRefillEff d = { d with now := (tokenBucketRefillEff d).now, burgees := (tokenBucketRefillEff d).burgees,
                                        devBuckets := (tokenBucketRefillEff d).devBuckets } := by
  have hidle : ∀ (e : Device) (n : Nat), e.links = d.links → n ≤ 32 → (List.range n).foldl Device.pump e = e := by
    intro e n he hn
    induction n with
    | zero => rfl
    | succ n ih =>
      rw [List.range_succ, List.foldl_append, ih (by omega)]
      refine Device.pump_idle ?_
      unfold Device.link
      rw [he]
      exact h n hn
  unfold tokenBucketRefillEff
  dsimp only
  rw [hidle _ 32 (by rfl) (Nat.le_refl _)]
  exact ⟨rfl, rfl, rfl⟩

/-- A table changed value by value finds the changed value. -/
theorem tfind_map {α β : Type} (g : α → β) (k : Nat) (t : Tab α) : tfind k (t.map fun p => (p.1, g p.2)) = (tfind k t).map g := by
  induction t with
  | nil => rfl
  | cons p t ih =>
    obtain ⟨j, w⟩ := p
    by_cases h : j = k <;> simp [tfind, h, ih]

/-! ### The statement -/

/-- With admission frozen or quiesced a boundary only publishes (R338, R492). -/
theorem gives_hoistBoundary_held {s : State} {b : Nat} (hr : s.dev.ready = true) (hb : b < 16) (hgeo : s.dev.mgmt.geoWrite = none)
    (hheld : s.dev.frozen = true ∨ s.dev.quiesced = true) :
    gives (.hoistBoundary b) s fun e => (e.burgee b).lastBound = s.dev.nextBoundary b ∧ e.now = max s.dev.now (s.dev.nextBoundary b) ∧
      e.cmds = s.dev.cmds := by
  refine gives_of_onDev (F := hoistBoundaryEff b) rfl ?_
  have hpublished : hoistBoundaryEff b s.dev = s.dev.atBoundary b := by
    rw [hoistBoundaryEff_eq hr hb hgeo, if_pos]
    rcases hheld with h | h <;> simp [h]
  rw [hpublished]
  obtain ⟨hbound, hnow⟩ := s.dev.atBoundary_moved b
  exact ⟨hbound, hnow, (s.dev.atBoundary_keeps b).1⟩

/-- The sole candidate of a boundary is admitted 2 µs later (R122, R338). -/
theorem gives_hoistBoundary_admits {s : State} {b : Nat} {c : Cmd} (hr : s.dev.ready = true) (hb : b < 16) (hgeo : s.dev.mgmt.geoWrite = none)
    (hfrozen : s.dev.frozen = false) (hquiesced : s.dev.quiesced = false) (henabled : (s.dev.burgee b).enabled = true) (hpath : s.dev.dataPath = true)
    (hc : s.dev.SoleCandidate b c) (hdue : ∀ u, c.deadline = some u → max s.dev.now (s.dev.nextBoundary b) < u) :
    gives (.hoistBoundary b) s fun e => (e.burgee b).lastBound = s.dev.nextBoundary b ∧
      e.now = max (max s.dev.now (s.dev.nextBoundary b)) (s.dev.nextBoundary b + 2000) ∧
      ∃ c', e.cmd? c.stamp = some c' ∧ c'.phase = .active ∧ c'.snap.isSome = true ∧ c'.admitted = s.dev.nextBoundary b + 2000 ∧
        c'.mbBytes = s.dev.mbNeed c := by
  refine gives_of_onDev (F := hoistBoundaryEff b) rfl ?_
  obtain ⟨hbound, hnow⟩ := s.dev.atBoundary_moved b
  obtain ⟨hstood, hkept, c', hfound, hactive, hsnap, hadmitted, hbytes⟩ :=
    Device.admission_admits hc.atBoundary (fun u hu => hnow ▸ hdue u hu) (s.dev.nextBoundary b + 2000)
  rw [hoistBoundaryEff_eq hr hb hgeo, if_neg (by simp [hfrozen, hquiesced, henabled, hpath])]
  refine ⟨(hkept b).trans hbound, ?_, c', hfound, hactive, hsnap, hadmitted, hbytes.trans (s.dev.atBoundary_mbNeed b c)⟩
  rw [← hnow, ← hstood]
  rfl

/-- Settles O27, from what a boundary publishes and admits and what a microsecond refills. -/
theorem hoistBoundaryAndBuckets : Obligations.HoistBoundaryAndBuckets := by
  unfold Obligations.HoistBoundaryAndBuckets
  constructor
  · intro s b d t hr hb hgeo
    refine ⟨gives_hoistBoundary_held hr hb hgeo, ?_⟩
    intro c hcmds hfrozen hquiesced henabled hpath hburgee hsearch hsingle hwaiting hown hfilter hstage hbest hdue hindex halone hspace hplace
    exact gives_hoistBoundary_admits hr hb hgeo hfrozen hquiesced henabled hpath
      ⟨hcmds, hburgee, hsearch, hsingle, hwaiting, hown, hfilter, hstage, hbest, hindex, halone, hspace, hplace⟩ hdue
  · intro s d hqueues
    refine gives_of_onDev (F := tokenBucketRefillEff) rfl ?_
    obtain ⟨hnow, hburgees, honly⟩ := tokenBucketRefillEff_idle hqueues
    refine ⟨hnow, honly, fun b g hg hlen => ?_⟩
    refine ⟨{ g with buckets := refillAll g.burst g.buckets }, ?_, rfl, fun i hi => ?_⟩
    · rw [hburgees]
      exact (tfind_map (fun g : Burgee => { g with buckets := refillAll g.burst g.buckets }) b d.burgees).trans (congrArg _ hg)
    · have hpair := refillAll_getD g.burst i g.buckets (by omega)
      simp only [refillPair, List.cons.injEq] at hpair
      exact ⟨hpair.1, hpair.2.1⟩

end Sys2Proof.Machine
end

section
/-! The placement loop: what copying a unit moves and writes, what evictions and fills leave of a placement map, and what a period's end makes of
both. -/

namespace Sys2Proof.Machine

/-! ### Bytes copied (R336) -/

/-- Bytes copied by upkeep. -/
theorem Device.copy_moves (d : Device) (x : Index) (src n a : Nat) (bs : List Byte) :
    d.moves (((d.readFor x.upkeep src n).chargeAt x.upkeep a n true).memWrite a bs) :=
  Device.moves_trans (Device.moves_of_asks (Device.asks_trans (d.readFor_asks x src n) (Device.chargeAt_asks _ x a n true)))
    (Device.moves_of_stores (Device.memWrite_stores _ a bs))

/-! ### Entries of a placement map (R113) -/

theorem length_placementEntry (a v st k p : Nat) : (placementEntry a v st k p).length = 16 := by
  simp [placementEntry, length_leBytes]

theorem fieldAt_placementEntry_state (a v st k p : Nat) : fieldAt (placementEntry a v st k p) 12 1 = st % 256 := by
  simp [fieldAt, placementEntry, leBytes, leNat]

theorem Device.mapEntry_stores (d : Device) (x : Index) (unit a v st kind : Nat) : d.stores (d.mapEntry x unit a v st kind) := d.memWrite_stores _ _

/-! ### Fills done (R114, R336) -/

/-- A filled unit's entry, valid from the index's present view on. -/
def Placed.filled (p : Placed) (x : Index) (q : Placed) : Placed := if q == p then { q with valid := true, fromView := x.view } else q

/-- What the copy of a unit asks of memory: the reads of its parts, and the write of its bytes charged (R336). -/
def Device.copyAsked (d : Device) (x : Index) (unit : Nat) (p : Placed) : Device :=
  ((x.copyParts p).foldl (fun d s => d.readFor x.upkeep s.1 s.2.1) d).chargeAt x.upkeep p.fAddr (x.unitForm p.kind unit).length true

theorem Device.copyAsked_asks (d : Device) (x : Index) (unit : Nat) (p : Placed) : d.asks (d.copyAsked x unit p) := by
  unfold Device.copyAsked
  refine Device.asks_trans (Device.foldl_asks _ (fun e s => ?_) _ d) (Device.chargeAt_asks _ _ _ _ _)
  exact e.readFor_asks _ _ _

/-- The device with a unit's bytes copied to the F-tier and its entry valid (R336). -/
def Device.filled (d : Device) (x : Index) (unit : Nat) (p : Placed) : Device :=
  ((((d.copyAsked x unit p).memWrite p.fAddr (x.unitForm p.kind unit)).modBurgee x.burgee fun g => { g with placed := g.placed.map (p.filled x) }).mapEntry x
    unit p.fAddr (x.cutViewOf unit) 2 p.kind)

/-- The device with one more fill counted (R336). -/
def Device.countFill (d : Device) : Device := { d with devCnt := { d.devCnt with fills := d.devCnt.fills + 1 } }

theorem Device.burgee_countFill (d : Device) (b : Nat) : d.countFill.burgee b = d.burgee b := rfl
theorem Device.byteAt_countFill (d : Device) (a : Nat) : d.countFill.byteAt a = d.byteAt a := rfl
theorem Device.devCnt_countFill (d : Device) : d.countFill.devCnt = { d.devCnt with fills := d.devCnt.fills + 1 } := rfl

/-- A fill that is done counts (R336). -/
theorem placementFillDoneEff_filled {d : Device} {i unit : Nat} {x : Index} {p : Placed} (hx : d.index? i = some x) (hp : d.placed? x unit = some p)
    (hvalid : p.valid = false) (hr : d.ready = true) (hshed : d.mgmt.shed.steps < 2) (hq : d.quiesced = false) (hf : d.frozen = false) :
    placementFillDoneEff i unit d = (d.filled x unit p).countFill := by
  have hshed' : d.shedHolds = false := by simpa [Device.shedHolds] using hshed
  have hgo : (!d.ready || p.valid || d.shedHolds || d.quiesced || d.frozen) = false := by simp [hr, hvalid, hshed', hq, hf]
  unfold placementFillDoneEff
  rw [hx]
  dsimp only
  rw [hp]
  dsimp only
  rw [hgo]
  rfl

/-- A filled unit moves its copy; of its burgee only the entry changes beside what metering moves. -/
theorem Device.filled_moves (d : Device) (x : Index) (unit : Nat) (p : Placed) :
    d.filled x unit p = { d with burgees := (d.filled x unit p).burgees, mem := (d.filled x unit p).mem, tiers := (d.filled x unit p).tiers } ∧
      ((d.filled x unit p).burgee x.burgee).placed = (d.burgee x.burgee).placed.map (p.filled x) := by
  obtain ⟨hasked, hmetered⟩ := d.copyAsked_asks x unit p
  have hcopied := (d.copyAsked x unit p).memWrite_stores p.fAddr (x.unitForm p.kind unit)
  have hentered := Device.mapEntry_stores (((d.copyAsked x unit p).memWrite p.fAddr (x.unitForm p.kind unit)).modBurgee x.burgee fun g =>
    { g with placed := g.placed.map (p.filled x) }) x unit p.fAddr (x.cutViewOf unit) 2 p.kind
  unfold Device.stores at hcopied hentered
  change d.filled x unit p = _ at hentered
  constructor
  · rw [hentered, hcopied, hasked]
    rfl
  · rw [hentered, hcopied]
    simp only [Device.burgee, Device.modBurgee, tget_tmod_same]
    rw [← Device.burgee, hmetered]
    rfl

/-- The bytes of a filled unit's copy, where its map entry does not lie on it (R114). -/
theorem Device.filled_byteAt {d : Device} {x : Index} {unit k : Nat} {p : Placed} (he : d.tiers.erased = []) (hk : k < (x.unitForm p.kind unit).length)
    (hout : p.fAddr + k < x.placementBase + 16 * unit ∨ x.placementBase + 16 * unit + 16 ≤ p.fAddr + k) :
    (d.filled x unit p).byteAt (p.fAddr + k) = (x.unitForm p.kind unit).getD k 0 := by
  have hasked : (d.copyAsked x unit p).tiers.erased = [] := by
    rw [(d.copyAsked_asks x unit p).1]
    exact he
  rw [← (d.copyAsked x unit p).byteAt_memWrite_in hk]
  unfold Device.filled Device.mapEntry
  refine Device.byteAt_memWrite_out _ ((d.copyAsked x unit p).erased_memWrite hasked) ?_
  rw [length_placementEntry]
  exact hout

/-! ### Entries past the units filled anew (R114, R334) -/

/-- The device with a fixed copy's bytes written again and its entry valid (R114). -/
theorem Device.fillFixed_moves (d : Device) (x : Index) (k : Nat) : ∃ e, d.moves e ∧ d.fillFixed x k =
    { e.memWrite (x.fixedEntry k 2).1 (x.fixedEntry k 2).2 with devCnt := { d.devCnt with fills := d.devCnt.fills + 1 } } := by
  have hupper : ∀ (e : Device) (u : Option UpperCopy), e.moves (u.elim e fun u => ((e.readFor x.upkeep u.addr (u.block ++ u.trailer).length).chargeAt x.upkeep
      u.fSlot (u.block ++ u.trailer).length true).memWrite u.fSlot (u.block ++ u.trailer)) := by
    intro e u
    cases u with
    | none => exact e.moves_refl
    | some u => exact e.copy_moves _ _ _ _ _
  have hkept : ∀ {e : Device}, d.moves e → { e.memWrite (x.fixedEntry k 2).1 (x.fixedEntry k 2).2 with
        devCnt := { (e.memWrite (x.fixedEntry k 2).1 (x.fixedEntry k 2).2).devCnt with
          fills := (e.memWrite (x.fixedEntry k 2).1 (x.fixedEntry k 2).2).devCnt.fills + 1 } } =
      { e.memWrite (x.fixedEntry k 2).1 (x.fixedEntry k 2).2 with devCnt := { d.devCnt with fills := d.devCnt.fills + 1 } } := by
    intro e he
    have hcnt : (e.memWrite (x.fixedEntry k 2).1 (x.fixedEntry k 2).2).devCnt = d.devCnt := by
      rw [(Device.moves_trans he (Device.moves_of_stores (e.memWrite_stores _ _))).1]
    rw [hcnt]
  unfold Device.fillFixed
  dsimp only
  split
  · have hcopied := Device.moves_trans (Device.foldl_moves _ (fun e (p : Nat × Nat × Nat × List Nat) => hupper e (x.upperCopy p.1)) x.graph.uppers d)
      (Device.foldl_moves _ (fun e (p : Nat × Nat × Nat × List Nat) => hupper e (x.centroidUpper p.1)) x.cgraph.uppers _)
    exact ⟨_, hcopied, hkept hcopied⟩
  · split
    · have hcopied := d.copy_moves x
      exact ⟨_, hcopied _ _ _ _, hkept (hcopied _ _ _ _)⟩
    · exact ⟨d, d.moves_refl, hkept d.moves_refl⟩

/-! ### Evictions and fills begun (R113, R115, R336) -/

/-- What the loop's marks may change: placement maps with their space, memory, and the count of evictions; no period begins. -/
def Device.loops (d e : Device) : Prop :=
  e = { d with burgees := e.burgees, mem := e.mem, tiers := e.tiers, devCnt := { d.devCnt with evictions := e.devCnt.evictions } } ∧
    ∀ b, (e.burgee b).periodAt = (d.burgee b).periodAt
/-- No cell or group numbered unit of index i has an entry in the placement map of a burgee. -/
def Device.unheld (d : Device) (b i unit : Nat) : Prop := ∀ q ∈ (d.burgee b).placed, ¬ (q.index = i ∧ q.unit = unit ∧ q.kind ≤ 2)

theorem Device.loops_refl (d : Device) : d.loops d := ⟨rfl, fun _ => rfl⟩

theorem Device.loops_trans {d e f : Device} (h : d.loops e) (k : e.loops f) : d.loops f :=
  ⟨by rw [k.1, h.1], fun b => (k.2 b).trans (h.2 b)⟩

theorem Device.foldl_loops {β : Type} (f : Device → β → Device) (h : ∀ (d : Device) x, d.loops (f d x)) (xs : List β) (d : Device) :
    d.loops (xs.foldl f d) := by
  induction xs generalizing d with
  | nil => exact d.loops_refl
  | cons x xs ih => exact Device.loops_trans (h d x) (ih (f d x))

theorem Device.loops_of_stores {d e : Device} (h : d.stores e) : d.loops e := by
  unfold Device.stores at h
  rw [h]
  exact ⟨rfl, fun _ => rfl⟩

/-- What is stored leaves every placement map. -/
theorem Device.stores_burgee {d e : Device} (h : d.stores e) (b : Nat) : e.burgee b = d.burgee b := by
  unfold Device.stores at h
  rw [h]
  rfl

theorem Device.burgee_modBurgee (d : Device) (b k : Nat) (g : Burgee → Burgee) :
    (d.modBurgee b g).burgee k = if k = b then g (d.burgee b) else d.burgee k := by
  by_cases h : k = b
  · subst h
    simp [Device.burgee, Device.modBurgee]
  · simp [Device.burgee, Device.modBurgee, h, tget_tmod_other _ _ _ _ _ h]

theorem Device.modBurgee_loops (d : Device) (b : Nat) (g : Burgee → Burgee) (hg : ∀ x, (g x).periodAt = x.periodAt) : d.loops (d.modBurgee b g) := by
  refine ⟨rfl, fun k => ?_⟩
  rw [Device.burgee_modBurgee]
  split
  · next h => rw [hg, h]
  · rfl

/-- A unit that leaves its burgee's placement map. -/
theorem Device.unplace_loops (d : Device) (x : Index) (unit st : Nat) : d.loops (d.unplace x unit st) := by
  unfold Device.unplace
  split
  · exact d.loops_refl
  · refine Device.loops_trans ?_ (Device.loops_of_stores (Device.mapEntry_stores _ _ _ _ _ _ _))
    exact d.modBurgee_loops _ _ fun _ => rfl

/-- A unit that leaves takes its entries out of its burgee's placement map, and no other entry. -/
theorem Device.placed_unplace (d : Device) (x : Index) (unit st b : Nat) (q : Placed) : q ∈ ((d.unplace x unit st).burgee b).placed ↔
    q ∈ (d.burgee b).placed ∧ ¬ (b = x.burgee ∧ q.index = x.indexNo ∧ q.unit = unit ∧ q.kind ≤ 2) := by
  unfold Device.unplace
  split
  · next hnone =>
    refine ⟨fun hq => ⟨hq, fun ⟨hb, hi, hu, hk⟩ => ?_⟩, And.left⟩
    subst hb
    simpa [hi, hu, hk] using List.find?_eq_none.1 hnone q hq
  · rw [Device.stores_burgee (Device.mapEntry_stores _ _ _ _ _ _ _), Device.burgee_modBurgee]
    split
    · next hb =>
      subst hb
      simp
      tauto
    · next hb => simp [hb]

theorem Device.evict_loops (d : Device) (r : Ranked) : d.loops (d.evict r) := by
  unfold Device.evict
  split
  · exact d.loops_refl
  · next x _ =>
    obtain ⟨honly, hperiods⟩ := d.unplace_loops x r.unit 0
    refine ⟨?_, hperiods⟩
    rw [honly]

/-- An eviction takes no new entry into a placement map. -/
theorem Device.unheld_evict {d : Device} {b i unit : Nat} (h : d.unheld b i unit) (r : Ranked) : (d.evict r).unheld b i unit := by
  unfold Device.evict
  split
  · exact h
  · exact fun q hq => h q ((d.placed_unplace _ _ _ _ q).1 hq).1

/-- A unit of an index of the burgee leaves by its eviction. -/
theorem Device.evict_unheld {d : Device} {r : Ranked} {x : Index} (hx : d.index? r.index = some x) (hno : x.indexNo = r.index) :
    (d.evict r).unheld x.burgee r.index r.unit := by
  simp only [Device.evict, hx]
  exact fun q hq hmine => ((d.placed_unplace _ _ _ _ q).1 hq).2 ⟨rfl, by rw [hno]; exact hmine⟩

/-- A unit evicted among others has left. -/
theorem Device.foldl_evict_unheld {r : Ranked} {x : Index} (hno : x.indexNo = r.index) (rs : List Ranked) (d : Device)
    (hx : d.index? r.index = some x) (h : r ∈ rs ∨ d.unheld x.burgee r.index r.unit) : (rs.foldl Device.evict d).unheld x.burgee r.index r.unit := by
  induction rs generalizing d with
  | nil => exact h.resolve_left (List.not_mem_nil)
  | cons a rs ih =>
    have hindexes : (d.evict a).indexes = d.indexes := by rw [(d.evict_loops a).1]
    refine ih _ ?_ ?_
    · simpa only [Device.index?, hindexes] using hx
    · rcases h with h | h
      · rcases List.mem_cons.1 h with rfl | h
        · exact .inr (Device.evict_unheld hx hno)
        · exact .inl h
      · exact .inr (Device.unheld_evict h a)

/-- A fill that begins takes space and an entry of its unit alone. -/
theorem Device.beginFill_loops (d : Device) (b : Nat) (r : Ranked) (kind : Nat) : d.loops (d.beginFill b r kind) ∧
    ∀ c, ∀ q ∈ ((d.beginFill b r kind).burgee c).placed, q ∈ (d.burgee c).placed ∨ (q.index = r.index ∧ q.unit = r.unit) := by
  unfold Device.beginFill
  split
  · exact ⟨d.loops_refl, fun _ _ => .inl⟩
  · dsimp only
    unfold Device.takeF
    split
    · exact ⟨d.loops_refl, fun _ _ => .inl⟩
    · next hspace =>
      split at hspace
      · obtain rfl := (Prod.mk.inj (Option.some.inj hspace)).2
        refine ⟨Device.loops_trans ?_ (Device.loops_of_stores (Device.mapEntry_stores _ _ _ _ _ _ _)), fun c q hq => ?_⟩
        · refine Device.loops_trans ?_ (Device.modBurgee_loops _ _ _ fun _ => rfl)
          exact ⟨rfl, fun _ => rfl⟩
        · rw [Device.stores_burgee (Device.mapEntry_stores _ _ _ _ _ _ _), Device.burgee_modBurgee] at hq
          split at hq
          · next hc =>
            subst hc
            rcases List.mem_append.1 hq with hq | hq
            · exact .inl hq
            · rw [List.mem_singleton.1 hq]
              exact .inr ⟨rfl, rfl⟩
          · exact .inl hq
      · cases hspace

/-- Fills of other units leave a unit without an entry. -/
theorem Device.foldl_beginFill_unheld {b c i unit : Nat} (kind : Ranked → Nat) (rs : List Ranked) (d : Device)
    (hrs : ∀ r ∈ rs, ¬ (r.index = i ∧ r.unit = unit)) (h : d.unheld c i unit) : (rs.foldl (fun d r => d.beginFill b r (kind r)) d).unheld c i unit := by
  induction rs generalizing d with
  | nil => exact h
  | cons r rs ih =>
    refine ih _ (fun a ha => hrs a (List.mem_cons_of_mem _ ha)) fun q hq hmine => ?_
    rcases (d.beginFill_loops b r (kind r)).2 c q hq with hold | hnew
    · exact h q hold hmine
    · exact hrs r List.mem_cons_self ⟨hnew.1.symm.trans hmine.1, hnew.2.symm.trans hmine.2.1⟩

/-! ### Ranking and marking units (R334, R335) -/

/-- A ranked unit without heat has no value. -/
theorem Device.value_of_mem_ranked {d : Device} {b : Nat} {r : Ranked} (hr : r ∈ d.ranked b)
    (hcold : ∀ h ∈ d.heat, h.index = r.index → h.unit = r.unit → h.probes + h.prev / 2 = 0) : r.value = 0 := by
  obtain ⟨⟨i, u⟩, -, hrank⟩ := List.mem_filterMap.1 ((mem_sortBy _ _ _).1 hr)
  dsimp only at hrank
  split at hrank
  · cases hrank
  · split at hrank
    · cases hrank
    · obtain rfl := Option.some.inj hrank
      dsimp only at hcold ⊢
      split
      · next h hfound =>
        have hmine := List.find?_some hfound
        simp only [Bool.and_eq_true, beq_iff_eq] at hmine
        rw [hcold h (List.mem_of_find?_eq_some hfound) hmine.1 hmine.2, Nat.zero_mul, Nat.zero_div]
      · rw [Nat.zero_mul, Nat.zero_div]

/-- A unit of an index as the loop ranks it (R335). -/
def Device.rankOf (d : Device) (x : Index) (i u : Nat) : Ranked :=
  let heat := match d.heat.find? (fun (h : Heat) => h.index == i && h.unit == u) with
    | some h => h.probes + h.prev / 2
    | none => 0
  let n := x.unitBytes (d.kindOf x u) u
  { index := i, kind := d.kindOf x u, unit := u, heat := heat, value := heat * 0x100000 / n, bytes := n }

/-- A placed unit of an index of the burgee is ranked. -/
theorem Device.placed_ranked {d : Device} {b : Nat} {p : Placed} {x : Index} (hp : p ∈ (d.burgee b).placed) (hk : p.kind ≤ 2)
    (hx : d.index? p.index = some x) (hb : x.burgee = b) : ∃ r ∈ d.ranked b, r.index = p.index ∧ r.unit = p.unit := by
  have hheld : (p.index, p.unit) ∈ (d.heat.map (fun h => (h.index, h.unit)) ++ (d.burgee b).placed.filterMap fun p =>
      if p.kind ≤ 2 then some (p.index, p.unit) else none).eraseDups :=
    List.mem_eraseDups.2 (List.mem_append_right _ (List.mem_filterMap.2 ⟨p, hp, by rw [if_pos hk]⟩))
  refine ⟨d.rankOf x p.index p.unit, (mem_sortBy _ _ _).2 (List.mem_filterMap.2 ⟨_, hheld, ?_⟩), rfl, rfl⟩
  simp only [hx, hb, bne_self_eq_false, Bool.false_eq_true, if_false]
  rfl

theorem mem_fitQuota {quota : Nat} {r : Ranked} (us : List Ranked) (used : Nat) (h : r ∈ fitQuota quota us used) : r ∈ us := by
  induction us generalizing used with
  | nil => exact h
  | cons u us ih =>
    simp only [fitQuota] at h
    split at h
    · rcases List.mem_cons.1 h with rfl | h
      · exact List.mem_cons_self
      · exact List.mem_cons_of_mem _ (ih _ h)
    · exact List.mem_cons_of_mem _ (ih _ h)

/-- Marks keep of the placed units and fill of the others. -/
theorem mem_markUnits {quota : Nat} {r : Ranked} (us : List Ranked) (used : Nat) (keep fill : List Ranked) :
    (r ∈ (markUnits quota us used keep fill).1 → r ∈ keep) ∧ (r ∈ (markUnits quota us used keep fill).2 → r ∈ fill ∨ r ∈ us) := by
  induction us generalizing used keep fill with
  | nil => exact ⟨id, .inl⟩
  | cons u us ih =>
    simp only [markUnits]
    split
    · exact ⟨id, .inl⟩
    · next used' out _ =>
      obtain ⟨hkeep, hfill⟩ := ih (used' + u.bytes) (keep.filter fun p => !out.contains p) (fill ++ [u])
      refine ⟨fun h => (List.mem_filter.1 (hkeep h)).1, fun h => ?_⟩
      rcases hfill h with h | h
      · rcases List.mem_append.1 h with h | h
        · exact .inl h
        · exact .inr (List.mem_cons.2 (.inl (List.mem_singleton.1 h)))
      · exact .inr (List.mem_cons_of_mem _ h)

/-! ### The end of a period (R335, R336) -/

/-- Heat of a burgee's own units. -/
def Device.ownHeat (d : Device) (b : Nat) (h : Heat) : Bool := (d.index? h.index).elim false fun x => x.burgee == b
/-- Heat as a period's end leaves it: of the burgee's own units the probes taken into the previous heat (R335). -/
def Device.coolHeat (d : Device) (b : Nat) : List Heat :=
  d.heat.filterMap fun h =>
    if !d.ownHeat b h then some h else if h.probes + h.prev / 2 = 0 then none else some { h with probes := 0, prev := h.probes + h.prev / 2 }
/-- The probes of units cleared in their placement map entries (R335). -/
def Device.clearProbes (d : Device) (hs : List Heat) : Device :=
  hs.foldl (fun d h => match d.index? h.index with
    | some x => d.memWrite (x.placementBase + 16 * h.unit + 14) (leBytes 2 0)
    | none => d) d
/-- The device at the end of a burgee's period, before its marks (R335). -/
def Device.periodEnded (d : Device) (b : Nat) : Device :=
  let t := max d.now ((d.burgee b).periodAt + (d.burgee b).period * 1000000)
  (({ d with now := t, heat := d.coolHeat b } : Device).clearProbes (d.heat.filter (d.ownHeat b))).modBurgee b fun g => { g with periodAt := t }

theorem Device.clearProbes_stores (d : Device) (hs : List Heat) : d.stores (d.clearProbes hs) := by
  refine Device.foldl_stores _ (fun e h => ?_) hs d
  split
  · exact e.memWrite_stores _ _
  · exact e.stores_refl

/-- A period's end takes heat, clears probes in the map, and begins the next period. -/
theorem Device.periodEnded_changes (d : Device) (b : Nat) :
    (d.periodEnded b).now = max d.now ((d.burgee b).periodAt + (d.burgee b).period * 1000000) ∧ (d.periodEnded b).heat = d.coolHeat b ∧
      (d.periodEnded b).burgee b = { d.burgee b with periodAt := (d.periodEnded b).now } ∧
      d.periodEnded b = { d with now := (d.periodEnded b).now, heat := (d.periodEnded b).heat, burgees := (d.periodEnded b).burgees,
                                 mem := (d.periodEnded b).mem, tiers := (d.periodEnded b).tiers } := by
  have hcleared := Device.clearProbes_stores
    { d with now := max d.now ((d.burgee b).periodAt + (d.burgee b).period * 1000000), heat := d.coolHeat b } (d.heat.filter (d.ownHeat b))
  unfold Device.periodEnded
  dsimp only
  generalize Device.clearProbes _ _ = c at hcleared ⊢
  unfold Device.stores at hcleared
  rw [hcleared]
  refine ⟨rfl, rfl, ?_, rfl⟩
  rw [Device.burgee_modBurgee, if_pos rfl]
  rfl

/-- Of its own units a burgee's period leaves no probes (R335). -/
theorem Device.coolHeat_probes {d : Device} {b : Nat} {h : Heat} (hh : h ∈ d.coolHeat b) {x : Index} (hx : d.index? h.index = some x)
    (hb : x.burgee = b) : h.probes = 0 := by
  obtain ⟨h0, -, hcooled⟩ := List.mem_filterMap.1 hh
  split at hcooled
  · next hother =>
    obtain rfl := Option.some.inj hcooled
    simp [Device.ownHeat, hx, hb] at hother
  · split at hcooled
    · cases hcooled
    · exact (Option.some.inj hcooled) ▸ rfl

/-- While marks are held, a period's end takes heat alone. -/
theorem placementPeriodEndEff_held {d : Device} {b : Nat} (hr : d.ready = true) (hen : (d.burgee b).enabled = true)
    (hheld : 2 ≤ d.mgmt.shed.steps ∨ d.quiesced = true ∨ d.frozen = true) : placementPeriodEndEff b d = d.periodEnded b := by
  obtain ⟨-, -, -, honly⟩ := d.periodEnded_changes b
  have hgo : ((d.periodEnded b).shedHolds || (d.periodEnded b).quiesced || (d.periodEnded b).frozen) = true := by
    rw [honly]
    rcases hheld with h | h | h <;> simp [Device.shedHolds, Device.frozen] at h ⊢ <;> simp [h]
  unfold placementPeriodEndEff
  rw [if_neg (by simp [hr, hen])]
  dsimp only
  exact if_pos hgo

/-- The marks of a period's end: units placed without value leave, and what is filled, whether anew or grown, has value. -/
theorem placementPeriodEndEff_marked {d : Device} {b : Nat} (hr : d.ready = true) (hen : (d.burgee b).enabled = true)
    (hshed : d.mgmt.shed.steps < 2) (hq : d.quiesced = false) (hf : d.frozen = false) :
    ∃ (out grow fill : List Ranked) (kind : Ranked → Nat),
      placementPeriodEndEff b d = fill.foldl (fun d r => d.beginFill b r (kind r)) (grow.foldl (fun d r => d.beginFill b r 1)
        ((out ++ grow).foldl Device.evict (d.periodEnded b))) ∧
      (∀ r ∈ d.ranked b, r.value = 0 → (∃ p ∈ (d.burgee b).placed, p.index = r.index ∧ p.unit = r.unit ∧ p.kind ≤ 2) → r ∈ out) ∧
      (∀ r ∈ grow ++ fill, r ∈ d.ranked b ∧ r.value ≠ 0) := by
  obtain ⟨-, -, -, honly⟩ := d.periodEnded_changes b
  have hgo : ¬ ((d.periodEnded b).shedHolds || (d.periodEnded b).quiesced || (d.periodEnded b).frozen) = true := by
    rw [honly]
    simp only [Device.frozen] at hf
    simp [Device.shedHolds, Device.frozen, Nat.not_le.2 hshed, hq, hf]
  unfold placementPeriodEndEff
  rw [if_neg (by simp [hr, hen])]
  dsimp only
  refine ⟨_, _, _, _, if_neg hgo, fun r hr hzero hplaced => ?_, fun r hr => ?_⟩
  · refine List.mem_filter.2 ⟨List.mem_filter.2 ⟨hr, ?_⟩, ?_⟩
    · obtain ⟨p, hp, hmine⟩ := hplaced
      exact List.any_eq_true.2 ⟨p, hp, by simpa [and_assoc] using hmine⟩
    · simp only [Bool.not_eq_true', List.contains_eq_mem, decide_eq_false_iff_not]
      intro hkept
      have hstayed := mem_fitQuota _ _ ((mem_markUnits _ _ _ _).1 hkept)
      simp [hzero] at hstayed
  · rcases List.mem_append.1 hr with hr | hr
    · have hstayed := mem_fitQuota _ _ ((mem_markUnits _ _ _ _).1 (List.mem_filter.1 hr).1)
      simp only [List.mem_filter, bne_iff_ne, ne_eq] at hstayed
      exact ⟨hstayed.1.1, hstayed.2⟩
    · have hfilled := ((mem_markUnits _ _ _ _).2 hr).resolve_left List.not_mem_nil
      simp only [List.mem_filter, Bool.and_eq_true, bne_iff_ne, ne_eq] at hfilled
      exact ⟨hfilled.1, hfilled.2.2⟩

/-- Marks move no period, and change placement maps, their space and the count of evictions alone. -/
theorem placementPeriodEndEff_loops {d : Device} {b : Nat} (hr : d.ready = true) (hen : (d.burgee b).enabled = true)
    (hshed : d.mgmt.shed.steps < 2) (hq : d.quiesced = false) (hf : d.frozen = false) : (d.periodEnded b).loops (placementPeriodEndEff b d) := by
  obtain ⟨out, grow, fill, kind, hmarked, -⟩ := placementPeriodEndEff_marked hr hen hshed hq hf
  rw [hmarked]
  exact Device.loops_trans (Device.loops_trans (Device.foldl_loops _ Device.evict_loops _ _)
    (Device.foldl_loops _ (fun d r => (d.beginFill_loops b r 1).1) _ _)) (Device.foldl_loops _ (fun d r => (d.beginFill_loops b r (kind r)).1) _ _)

/-- A placed unit without heat leaves its burgee's placement map at the period's end (R335, R336). -/
theorem placementPeriodEndEff_unheld {d : Device} {b : Nat} (hr : d.ready = true) (hen : (d.burgee b).enabled = true)
    (hshed : d.mgmt.shed.steps < 2) (hq : d.quiesced = false) (hf : d.frozen = false) {p : Placed} {x : Index} (hp : p ∈ (d.burgee b).placed)
    (hk : p.kind ≤ 2) (hx : d.index? p.index = some x) (hno : x.indexNo = p.index) (hb : x.burgee = b)
    (hcold : ∀ h ∈ d.heat, h.index = p.index → h.unit = p.unit → h.probes + h.prev / 2 = 0) :
    (placementPeriodEndEff b d).unheld b p.index p.unit := by
  obtain ⟨out, grow, fill, kind, hmarked, hout, hvalued⟩ := placementPeriodEndEff_marked hr hen hshed hq hf
  obtain ⟨-, -, -, honly⟩ := d.periodEnded_changes b
  obtain ⟨r, hranked, hi, hu⟩ := Device.placed_ranked hp hk hx hb
  have hzero := Device.value_of_mem_ranked hranked (hi ▸ hu ▸ hcold)
  have hindexes : (d.periodEnded b).indexes = d.indexes := by rw [honly]
  have hevicted := Device.foldl_evict_unheld (r := r) (hno.trans hi.symm) (out ++ grow) (d.periodEnded b)
    (by simpa only [Device.index?, hindexes, hi] using hx)
    (.inl (List.mem_append_left _ (hout r hranked hzero ⟨p, hp, hi.symm, hu.symm, hk⟩)))
  have hothers : ∀ a ∈ grow ++ fill, ¬ (a.index = p.index ∧ a.unit = p.unit) := by
    intro a ha hsame
    obtain ⟨haranked, havalued⟩ := hvalued a ha
    exact havalued (Device.value_of_mem_ranked haranked (hsame.1 ▸ hsame.2 ▸ hcold))
  rw [hi, hu, hb] at hevicted
  rw [hmarked]
  refine Device.foldl_beginFill_unheld kind fill _ (fun a ha => hothers a (List.mem_append_right _ ha)) ?_
  exact Device.foldl_beginFill_unheld (fun _ => 1) grow _ (fun a ha => hothers a (List.mem_append_left _ ha)) hevicted

/-! ### The statement -/

/-- PLACEMENT_PERIOD_END ends the period, and evicts what has no heat (R335, R336). -/
theorem gives_placementPeriodEnd_marks {s : State} {b : Nat} (hr : s.dev.ready = true) (hen : (s.dev.burgee b).enabled = true)
    (hshed : s.dev.mgmt.shed.steps < 2) (hq : s.dev.quiesced = false) (hf : s.dev.frozen = false) :
    gives (.placementPeriodEnd b) s fun e =>
      (e.now = max s.dev.now ((s.dev.burgee b).periodAt + (s.dev.burgee b).period * 1000000) ∧ (e.burgee b).periodAt = e.now ∧
        (∀ h ∈ e.heat, (∃ x, s.dev.index? h.index = some x ∧ x.burgee = b) → h.probes = 0) ∧ e.indexes = s.dev.indexes) ∧
      (∀ p x, p ∈ (s.dev.burgee b).placed → p.kind ≤ 2 → s.dev.index? p.index = some x → x.indexNo = p.index → x.burgee = b →
        (∀ h ∈ s.dev.heat, h.index = p.index → h.unit = p.unit → h.probes + h.prev / 2 = 0) → e.unheld b p.index p.unit) ∧
      e = { s.dev with now := e.now, heat := e.heat, burgees := e.burgees, mem := e.mem, tiers := e.tiers,
                       devCnt := { s.dev.devCnt with evictions := e.devCnt.evictions } } := by
  refine gives_of_onDev (F := placementPeriodEndEff b) rfl ?_
  obtain ⟨hnow, hheat, hburgee, honly⟩ := s.dev.periodEnded_changes b
  obtain ⟨hmarks, hperiods⟩ := placementPeriodEndEff_loops hr hen hshed hq hf
  have hnow' : (placementPeriodEndEff b s.dev).now = (s.dev.periodEnded b).now := by rw [hmarks]
  have hheat' : (placementPeriodEndEff b s.dev).heat = (s.dev.periodEnded b).heat := by rw [hmarks]
  refine ⟨⟨hnow'.trans hnow, ?_, fun h hh hmine => ?_, by rw [hmarks, honly]⟩, fun p x hp hk hx hno hb hcold => ?_, by rw [hmarks, honly]⟩
  · rw [hperiods, hburgee, hnow']
  · obtain ⟨x, hx, hb⟩ := hmine
    rw [hheat', hheat] at hh
    exact Device.coolHeat_probes hh hx hb
  · exact placementPeriodEndEff_unheld hr hen hshed hq hf hp hk hx hno hb hcold

/-- PLACEMENT_PERIOD_END ends the period alone while work is shed (R334). -/
theorem gives_placementPeriodEnd_held {s : State} {b : Nat} (hr : s.dev.ready = true) (hen : (s.dev.burgee b).enabled = true)
    (hheld : 2 ≤ s.dev.mgmt.shed.steps ∨ s.dev.quiesced = true ∨ s.dev.frozen = true) :
    gives (.placementPeriodEnd b) s fun e =>
      (e.now = max s.dev.now ((s.dev.burgee b).periodAt + (s.dev.burgee b).period * 1000000) ∧ (e.burgee b).periodAt = e.now ∧
        (∀ h ∈ e.heat, (∃ x, s.dev.index? h.index = some x ∧ x.burgee = b) → h.probes = 0) ∧ e.indexes = s.dev.indexes) ∧
      (e.burgee b).placed = (s.dev.burgee b).placed ∧ (e.burgee b).left = (s.dev.burgee b).left ∧
      e = { s.dev with now := e.now, heat := e.heat, burgees := e.burgees, mem := e.mem, tiers := e.tiers, devBuckets := e.devBuckets } := by
  refine gives_of_onDev (F := placementPeriodEndEff b) rfl ?_
  rw [placementPeriodEndEff_held hr hen hheld]
  obtain ⟨hnow, hheat, hburgee, honly⟩ := s.dev.periodEnded_changes b
  refine ⟨⟨hnow, by rw [hburgee], fun h hh hmine => ?_, by rw [honly]⟩, by rw [hburgee], by rw [hburgee], by rw [honly]⟩
  obtain ⟨x, hx, hb⟩ := hmine
  rw [hheat] at hh
  exact Device.coolHeat_probes hh hx hb

/-- PLACEMENT_FILL_DONE of a unit makes its entry valid and its copy the unit's bytes (R114, R336). -/
theorem gives_placementFillDone_unit {s : State} {i unit : Nat} {x : Index} {p : Placed} (hx : s.dev.index? i = some x)
    (hp : s.dev.placed? x unit = some p) (hvalid : p.valid = false) (hr : s.dev.ready = true) (hshed : s.dev.mgmt.shed.steps < 2)
    (hq : s.dev.quiesced = false) (hf : s.dev.frozen = false) :
    gives (.placementFillDone i unit) s fun e => { p with valid := true, fromView := x.view } ∈ (e.burgee x.burgee).placed ∧
      p ∉ (e.burgee x.burgee).placed ∧ (∀ q, q ≠ p → q ∈ (s.dev.burgee x.burgee).placed → q ∈ (e.burgee x.burgee).placed) ∧
      e.devCnt = { s.dev.devCnt with fills := s.dev.devCnt.fills + 1 } ∧
      (∀ k, s.dev.tiers.erased = [] → k < (x.unitForm p.kind unit).length →
        (p.fAddr + k < x.placementBase + 16 * unit ∨ x.placementBase + 16 * unit + 16 ≤ p.fAddr + k) →
        e.byteAt (p.fAddr + k) = (x.unitForm p.kind unit).getD k 0) ∧
      e = { s.dev with burgees := e.burgees, mem := e.mem, tiers := e.tiers, devCnt := e.devCnt } := by
  refine gives_of_onDev (F := placementFillDoneEff i unit) rfl ?_
  rw [placementFillDoneEff_filled hx hp hvalid hr hshed hq hf]
  obtain ⟨honly, hplaced⟩ := s.dev.filled_moves x unit p
  have hcnt : (s.dev.filled x unit p).devCnt = s.dev.devCnt := by rw [honly]
  simp only [Device.burgee_countFill, Device.byteAt_countFill, Device.devCnt_countFill, hplaced, hcnt]
  refine ⟨List.mem_map.2 ⟨p, List.mem_of_find?_eq_some hp, by simp [Placed.filled]⟩, fun hmem => ?_,
    fun q hne hq => List.mem_map.2 ⟨q, hq, by simp [Placed.filled, hne]⟩, trivial, fun k he hk hout => Device.filled_byteAt he hk hout, ?_⟩
  · obtain ⟨q, -, hfilled⟩ := List.mem_map.1 hmem
    unfold Placed.filled at hfilled
    split at hfilled
    · rw [← hfilled] at hvalid
      cases hvalid
    · next hne => exact hne (beq_iff_eq.2 hfilled)
  · unfold Device.countFill
    rw [honly]

/-- PLACEMENT_FILL_DONE of an entry past the units makes it valid (R114, R334). -/
theorem gives_placementFillDone_fixed {s : State} {i k : Nat} {x : Index} (hx : s.dev.index? i = some x) (hk : k ≤ 2)
    (hnone : s.dev.placed? x (x.units + k) = none) (hinvalid : s.dev.fixedState x k = 3) (hr : s.dev.ready = true) (hshed : s.dev.mgmt.shed.steps < 2)
    (hq : s.dev.quiesced = false) (hf : s.dev.frozen = false) :
    gives (.placementFillDone i (x.units + k)) s fun e => e.fixedState x k = 2 ∧ e.devCnt = { s.dev.devCnt with fills := s.dev.devCnt.fills + 1 } ∧
      s.dev.burgeesMetered e ∧ e = { s.dev with burgees := e.burgees, mem := e.mem, tiers := e.tiers, devCnt := e.devCnt } := by
  refine gives_of_onDev (F := placementFillDoneEff i (x.units + k)) rfl ?_
  have hfills : placementFillDoneEff i (x.units + k) s.dev = s.dev.fillFixed x k := by
    simp [placementFillDoneEff, hx, hnone, hk, hr, hinvalid, Device.shedHolds, Nat.not_le.2 hshed, hq, hf]
  obtain ⟨e, hmoved, hfilled⟩ := s.dev.fillFixed_moves x k
  obtain ⟨honly, hmetered⟩ := Device.moves_trans hmoved (Device.moves_of_stores (e.memWrite_stores (x.fixedEntry k 2).1 (x.fixedEntry k 2).2))
  rw [hfills, hfilled]
  refine ⟨?_, rfl, hmetered, by rw [honly]⟩
  have hread := e.read_memWrite (x.fixedEntry k 2).1 (x.fixedEntry k 2).2
  have hlen : (x.fixedEntry k 2).2.length = 16 := length_placementEntry _ _ _ _ _
  rw [hlen] at hread
  exact (congrArg (fieldAt · 12 1) hread).trans (fieldAt_placementEntry_state _ _ 2 _ _)

theorem Device.burgee_freeF (d : Device) (a b : Nat) : (d.freeF a).burgee b = d.burgee b := rfl

/-- PLACEMENT_SPACE_RELEASE gives back the space of a left entry whose view is released (R115). -/
theorem gives_placementSpaceRelease {s : State} {b a : Nat} {l : LeftSpace} (hl : (s.dev.burgee b).left.find? (·.fAddr == a) = some l)
    (hgone : s.dev.released l.index l.view = true ∨ tfind l.index s.dev.indexes = none) :
    gives (.placementSpaceRelease b a) s fun e => (e.burgee b).left = (s.dev.burgee b).left.filter (· != l) ∧
      (∀ k ∈ e.tiers.extF, k.base ≠ a) ∧ (∀ k ∈ s.dev.tiers.extF, k.base ≠ a → k ∈ e.tiers.extF) ∧ (∀ c, c ≠ b → e.burgee c = s.dev.burgee c) ∧
      e = { s.dev with burgees := e.burgees, tiers := { s.dev.tiers with extF := e.tiers.extF } } := by
  refine gives_of_onDev (F := placementSpaceReleaseEff b a) rfl ?_
  have hfreed : placementSpaceReleaseEff b a s.dev = (s.dev.modBurgee b fun g => { g with left := g.left.filter (· != l) }).freeF a := by
    simp only [placementSpaceReleaseEff, hl]
    rw [if_pos]
    rcases hgone with h | h <;> simp [h]
  rw [hfreed]
  refine ⟨?_, fun k hk => by simpa using (List.mem_filter.1 hk).2, fun k hk hne => List.mem_filter.2 ⟨hk, by simpa using hne⟩, fun c hc => ?_, rfl⟩
  · rw [Device.burgee_freeF, Device.burgee_modBurgee, if_pos rfl]
  · rw [Device.burgee_freeF, Device.burgee_modBurgee, if_neg hc]

/-- Settles O42, from what the period's end, fills done and releases of space change. -/
theorem placementMovesCopies : Obligations.PlacementMovesCopies := by
  unfold Obligations.PlacementMovesCopies
  intro s d ended
  refine ⟨fun b hr hen hgo => ?_, fun b hr hen hheld => gives_placementPeriodEnd_held hr hen hheld,
    fun i unit x p hx hp hvalid hr hshed hq hf => gives_placementFillDone_unit hx hp hvalid hr hshed hq hf,
    fun i x k hx hk hnone hinvalid hr hshed hq hf => gives_placementFillDone_fixed hx hk hnone hinvalid hr hshed hq hf,
    fun b a l hl hgone => gives_placementSpaceRelease hl hgone⟩
  obtain ⟨hshed, hq, hf⟩ := hgo
  obtain ⟨e, hstep, hended, hevicted, honly⟩ := gives_placementPeriodEnd_marks hr hen hshed hq hf
  refine ⟨e, hstep, hended, hevicted, ?_⟩
  rw [honly]

end Sys2Proof.Machine
end

section
/-! Deferred errors: what recording one changes, and what the record holds. -/

namespace Sys2Proof.Machine

/-! ### Function events (R526, R527) -/

/-- What telling a function changes: functions beside their logs, messages sent and their count. -/
def Device.tells (d e : Device) : Prop :=
  e = { d with fns := e.fns, out := e.out, devCnt := e.devCnt } ∧ (∀ k, (e.fn k).log = (d.fn k).log) ∧ ∀ a ∈ d.out, a ∈ e.out

theorem Device.tells_refl (d : Device) : d.tells d := ⟨rfl, fun _ => rfl, fun _ => id⟩

theorem Device.tells_trans {d e f : Device} (h : d.tells e) (k : e.tells f) : d.tells f := by
  obtain ⟨honly, hlog, hout⟩ := h
  obtain ⟨konly, klog, kout⟩ := k
  refine ⟨?_, fun n => (klog n).trans (hlog n), fun a ha => kout a (hout a ha)⟩
  rw [konly, honly]

theorem Device.modFn_only (d : Device) (f : Nat) (g : Fn → Fn) : d.modFn f g = { d with fns := (d.modFn f g).fns } := by
  unfold Device.modFn
  split <;> rfl

theorem Device.modFn_tells (d : Device) (f : Nat) (g : Fn → Fn) (hg : ∀ n, (g n).log = n.log) : d.tells (d.modFn f g) := by
  have honly := d.modFn_only f g
  refine ⟨?_, fun k => ?_, fun a ha => ?_⟩
  · rw [honly]
  · by_cases hk : k = f
    · subst hk
      by_cases hlt : k < 256
      · rw [Device.fn_modFn_same _ _ _ hlt, hg]
      · simp [Device.modFn, hlt]
    · rw [Device.fn_modFn_other _ _ _ _ hk]
  · rw [honly]
    exact ha

theorem Device.msix_tells (d : Device) (f v : Nat) : d.tells (d.msix f v) := by
  unfold Device.msix
  dsimp only
  split
  · exact d.tells_refl
  · split
    · exact d.modFn_tells f _ fun _ => rfl
    · exact ⟨rfl, fun _ => rfl, fun _ => List.mem_cons_of_mem _⟩

theorem Device.fnEvent_tells (d : Device) (f b : Nat) : d.tells (d.fnEvent f b) := by
  have hset : d.tells (d.modFn f fun n => { n with evStatus := (d.fn f).evStatus ||| BitVec.ofNat 32 (2 ^ b) }) := d.modFn_tells f _ fun _ => rfl
  unfold Device.fnEvent
  dsimp only
  split
  · exact Device.tells_trans hset (Device.msix_tells _ _ _)
  · exact hset

/-- A queue pair's next completion flagged (R399). -/
theorem Device.modQp_tells (d : Device) (f q : Nat) (g : QueuePair → QueuePair) : d.tells (d.modQp f q g) := by
  unfold Device.modQp
  split
  · exact d.modFn_tells f _ fun _ => rfl
  · exact d.tells_refl

/-! ### The record (R396, R397, R529) -/

/-- What a deferred error of an entry leaves of its function's log: what counts it where it cannot be written, or the log past its record. -/
def DefLog.recorded (l : DefLog) : DefLog :=
  let wrap := l.tail + 1 == l.size
  { l with tail := if wrap then 0 else l.tail + 1, phase := if wrap then !l.phase else l.phase, pending := l.pending + 1, lostRec := 0,
           recSeq := l.recSeq + 1 }

/-- A deferred error that cannot be written is counted (R396). -/
theorem Device.defError_lost {d : Device} {f : Nat} (code sqid cid i wseq : Nat) (id : W64) (target : Nat)
    (h : (d.fn f).log.size = 0 ∨ (d.fn f).log.pending = (d.fn f).log.size ∨ d.portUp f = false) :
    (d.modFn f fun n => { n with log := { (d.fn f).log with lost := min 0xFFFFFFFF ((d.fn f).log.lost + 1), lostRec := (d.fn f).log.lostRec + 1 } }).tells
      (d.defError f code sqid cid i wseq id target) := by
  have hlost : (decide ((d.fn f).log.size = 0) || decide ((d.fn f).log.pending = (d.fn f).log.size) || !d.portUp f) = true := by
    rcases h with h | h | h <;> simp [h]
  unfold Device.defError
  dsimp only
  rw [if_pos hlost]
  exact Device.fnEvent_tells _ _ _

/-- One that can is written at the log's tail (R396). -/
theorem Device.defError_recorded {d : Device} {f : Nat} (code sqid cid i wseq : Nat) (id : W64) (target : Nat) (hsize : (d.fn f).log.size ≠ 0)
    (hroom : (d.fn f).log.pending ≠ (d.fn f).log.size) (hup : d.portUp f = true) :
    ((d.toHost f ((d.fn f).log.base + 64 * (d.fn f).log.tail) false (defRecord (d.fn f).log code sqid cid i wseq id d.now target)).modFn f fun n =>
      { n with log := (d.fn f).log.recorded }).tells (d.defError f code sqid cid i wseq id target) := by
  have hkept : ¬ (decide ((d.fn f).log.size = 0) || decide ((d.fn f).log.pending = (d.fn f).log.size) || !d.portUp f) = true := by simp [hsize, hroom, hup]
  unfold Device.defError
  dsimp only
  rw [if_neg hkept]
  refine Device.tells_trans ?_ (Device.fnEvent_tells _ _ _)
  split
  · exact Device.modQp_tells _ _ _ _
  · split
    · exact Device.tells_refl _
    · exact Device.modFn_tells _ _ _ fun _ => rfl

/-- What may be told changes: functions, what is sent, and counts. -/
def Device.reports (d e : Device) : Prop := e = { d with fns := e.fns, out := e.out, devCnt := e.devCnt }

theorem Device.reports_of_tells {d e : Device} (h : d.tells e) : d.reports e := h.1

theorem Device.reports_trans {d e f : Device} (h : d.reports e) (k : e.reports f) : d.reports f := by
  unfold Device.reports at *
  rw [k, h]

theorem Device.modFn_reports (d : Device) (f : Nat) (g : Fn → Fn) : d.reports (d.modFn f g) := by
  unfold Device.modFn
  split <;> rfl

theorem Device.toHost_reports (d : Device) (f a : Nat) (r : Bool) (bs : List Byte) : d.reports (d.toHost f a r bs) := by
  unfold Device.toHost
  split
  · rfl
  · split
    · rfl
    · exact d.modFn_reports _ _

theorem Device.defError_reports (d : Device) (f code sqid cid i wseq : Nat) (id : W64) (target : Nat) :
    d.reports (d.defError f code sqid cid i wseq id target) := by
  by_cases hlost : (d.fn f).log.size = 0 ∨ (d.fn f).log.pending = (d.fn f).log.size ∨ d.portUp f = false
  · exact Device.reports_trans (d.modFn_reports _ _) (Device.reports_of_tells (Device.defError_lost code sqid cid i wseq id target hlost))
  · simp only [not_or, Bool.not_eq_false] at hlost
    obtain ⟨hsize, hroom, hup⟩ := hlost
    exact Device.reports_trans (Device.reports_trans (d.toHost_reports _ _ _ _) (Device.modFn_reports _ _ _))
      (Device.reports_of_tells (Device.defError_recorded code sqid cid i wseq id target hsize hroom hup))

theorem length_defRecord (l : DefLog) (code sqid cid i wseq : Nat) (id : W64) (now target : Nat) :
    (defRecord l code sqid cid i wseq id now target).length = 64 := by simp [defRecord, length_leBytes]

/-- A field behind the bytes of another. -/
theorem fieldAt_skip (m v : Nat) (bs : List Byte) (k n : Nat) : fieldAt (leBytes m v ++ bs) (m + k) n = fieldAt bs k n := by
  have hlen := length_leBytes m v
  rw [fieldAt, fieldAt, ← List.drop_drop, List.drop_left' hlen]

/-- A field at the front. -/
theorem fieldAt_front (n v : Nat) (bs : List Byte) : fieldAt (leBytes n v ++ bs) 0 n = v % 256 ^ n := by
  rw [fieldAt, List.drop_zero, List.take_left' (length_leBytes n v), leNat_leBytes]

/-- The fields of a record that name what it is about (R397). -/
theorem defRecord_fields (l : DefLog) (code sqid cid i wseq : Nat) (id : W64) (now target : Nat) :
    let bs := defRecord l code sqid cid i wseq id now target
    fieldAt bs 0 8 = (l.recSeq + 1) % 2 ^ 64 ∧ fieldAt bs 8 2 = code % 65536 ∧ fieldAt bs 14 2 = i % 65536 ∧ fieldAt bs 16 8 = wseq % 2 ^ 64 ∧
      fieldAt bs 24 8 = id.toNat ∧ fieldAt bs 40 4 = target % 2 ^ 32 := by
  dsimp only
  have hskips : (14 : Nat) = 8 + (2 + (2 + (2 + 0))) ∧ (16 : Nat) = 8 + (2 + (2 + (2 + (2 + 0)))) ∧
      (24 : Nat) = 8 + (2 + (2 + (2 + (2 + (8 + 0))))) ∧ (40 : Nat) = 8 + (2 + (2 + (2 + (2 + (8 + (8 + (8 + 0))))))) := by decide
  obtain ⟨h14, h16, h24, h40⟩ := hskips
  simp only [defRecord, List.append_assoc]
  refine ⟨fieldAt_front _ _ _, ?_, ?_, ?_, ?_, ?_⟩
  · exact (fieldAt_skip 8 _ _ 0 2).trans (fieldAt_front 2 _ _)
  · rw [h14]
    simp only [fieldAt_skip, fieldAt_front]
    rfl
  · rw [h16]
    simp only [fieldAt_skip, fieldAt_front]
    rfl
  · rw [h24]
    simp only [fieldAt_skip, fieldAt_front]
    exact Nat.mod_eq_of_lt id.isLt
  · rw [h40]
    simp only [fieldAt_skip, fieldAt_front]
    rfl

/-- A deferred error of a delta entry is recorded in its function's log (R396, R397). -/
theorem Device.defError_logged (d : Device) (v : DeltaEntry) (code i target : Nat) :
    d.logged (d.defError v.fn code v.sqid v.cid i v.logSeq v.id target) code v i target := by
  unfold Device.logged
  dsimp only
  intro hf
  refine ⟨fun hlost => ?_, fun hsize hroom hthere => ?_⟩
  · obtain ⟨-, hlog, -⟩ := Device.defError_lost code v.sqid v.cid i v.logSeq v.id target hlost
    rw [hlog, Device.fn_modFn_same _ _ _ hf]
  · obtain ⟨-, hup, hbme⟩ := hthere
    obtain ⟨-, hlog, hout⟩ := Device.defError_recorded code v.sqid v.cid i v.logSeq v.id target hsize hroom hup
    have hsent : d.toHost v.fn ((d.fn v.fn).log.base + 64 * (d.fn v.fn).log.tail) false
        (defRecord (d.fn v.fn).log code v.sqid v.cid i v.logSeq v.id d.now target) =
        d.emit (.hostWrite v.fn ((d.fn v.fn).log.base + 64 * (d.fn v.fn).log.tail) false
          (defRecord (d.fn v.fn).log code v.sqid v.cid i v.logSeq v.id d.now target)) := by
      simp [Device.toHost, hup, hbme]
    rw [hsent] at hlog hout
    rw [hlog, Device.fn_modFn_same _ _ _ hf]
    refine ⟨rfl, rfl, _, hout _ ?_, length_defRecord _ _ _ _ _ _ _ d.now _, defRecord_fields _ _ v.sqid v.cid _ _ _ _ _⟩
    rw [Device.modFn_only]
    exact List.mem_cons_self

end Sys2Proof.Machine
end

section
/-! What a merge makes of its index: the traffic of its entries, what is told of them, and the ID map entry that follows a merged vector. -/

namespace Sys2Proof.Machine

/-! ### An index changed and told of (R96, R398) -/

/-- A merge has made index i into y: beside what mirrors it nothing changes but counts of the device. -/
def Device.mergesTo (d e : Device) (i : Nat) (y : Index) : Prop := ({ d with devCnt := e.devCnt } : Device).indexTo e i y

theorem Device.mergesTo_of_indexTo {d e : Device} {i : Nat} {y : Index} (h : d.indexTo e i y) : d.mergesTo e i y := by
  obtain ⟨hfound, hother, honly⟩ := h
  refine ⟨hfound, hother, ?_⟩
  rw [honly]

theorem Device.mergesTo_trans {d e f : Device} {i : Nat} {y z : Index} (h : d.mergesTo e i y) (k : e.mergesTo f i z) : d.mergesTo f i z := by
  obtain ⟨-, hother, honly⟩ := h
  obtain ⟨kfound, kother, konly⟩ := k
  refine ⟨kfound, fun j hj => (kother j hj).trans (hother j hj), ?_⟩
  rw [konly, honly]

theorem Device.mergesTo_index {d e f : Device} {i : Nat} {y z : Index} (h : d.mergesTo e i y) (k : e.indexTo f i z) : d.mergesTo f i z :=
  Device.mergesTo_trans h (Device.mergesTo_of_indexTo k)

theorem Device.mergesTo_bytes {d e f : Device} {i : Nat} {y : Index} (h : d.mergesTo e i y) (k : e.bytesTo f) : d.mergesTo f i y :=
  Device.mergesTo_index h (Device.indexTo_of_bytesTo h.1 k)

/-- A deferred error of an entry, where it is to be recorded. -/
def Device.errorIf (d : Device) (told : Bool) (code : Nat) (v : DeltaEntry) (i target : Nat) : Device :=
  if told then d.defError v.fn code v.sqid v.cid i v.logSeq v.id target else d

/-- A merge that records an error in between: what it makes of the index, and what the record is. -/
theorem Device.mergesTo_errorIf {d e f : Device} {i : Nat} {y z : Index} {told : Bool} {code target : Nat} {v : DeltaEntry} (h : d.mergesTo e i y)
    (k : (e.errorIf told code v i target).mergesTo f i z) : d.indexToTelling f i z ∧ (told = false → f.fns = d.fns ∧ f.out = d.out) ∧
      (told = true → d.logged f code v i target) := by
  obtain ⟨-, hother, honly⟩ := h
  obtain ⟨kfound, kother, konly⟩ := k
  have hreports : e.reports (e.errorIf told code v i target) := by
    cases told with
    | false => rfl
    | true => exact e.defError_reports _ _ _ _ _ _ _ _
  unfold Device.reports at hreports
  refine ⟨⟨kfound, fun j hj => (kother j hj).trans (?_ : _ = tfind j e.indexes) |>.trans (hother j hj), ?_⟩, fun hquiet => ?_, fun htold => ?_⟩
  · rw [hreports]
  · rw [konly, hreports, honly]
  · subst hquiet
    simp only [Device.errorIf, Bool.false_eq_true, if_false] at konly
    rw [konly, honly]
    exact ⟨rfl, rfl⟩
  · subst htold
    simp only [Device.errorIf, if_true] at konly
    have hlogged := e.defError_logged v code i target
    rw [konly]
    rw [honly] at hlogged ⊢
    exact hlogged

/-! ### What a merge moves (R96, R104, R251) -/

theorem Device.bytesTo_of_asks {d e : Device} (h : d.asks e) : d.bytesTo e := by
  obtain ⟨honly, -⟩ := h
  unfold Device.bytesTo
  rw [honly]

theorem Device.chargeNma_asks (d : Device) (x : Index) (n : Nat) : d.asks (d.chargeNma x.upkeep n) :=
  ⟨rfl, (d.charge_metered x.upkeep.client x.upkeep.burgee .l x.upkeep.pennant (64 * n)).2.2⟩

theorem Device.asks_chargeAt {d e : Device} {x : Index} (h : d.asks e) (a n : Nat) (w : Bool) : d.asks (e.chargeAt x.upkeep a n w) :=
  Device.asks_trans h (e.chargeAt_asks x a n w)

theorem Device.asks_chargeNma {d e : Device} {x : Index} (h : d.asks e) (n : Nat) : d.asks (e.chargeNma x.upkeep n) :=
  Device.asks_trans h (e.chargeNma_asks x n)

theorem Device.chargeMerged_asks (d : Device) (x : Index) (e : Nat) : d.asks (d.chargeMerged x e) := by
  unfold Device.chargeMerged
  exact Device.asks_chargeAt (Device.asks_chargeAt (Device.asks_chargeAt (d.readFor_asks x _ _) _ _ _) _ _ _) _ _ _

/-- A batch is charged to its index's burgee (R96). -/
theorem Device.chargeBatch_asks (d : Device) (x : Index) (n blk : Nat) (ps : List (Nat × Nat)) : d.asks (d.chargeBatch x n blk ps) := by
  have hcharged : ∀ {e : Device} (p : Bool) (a k : Nat), d.asks e → d.asks (if p = true then e.chargeAt x.upkeep a k true else e) := by
    intro e p a k h
    split
    · exact Device.asks_chargeAt h _ _ _
    · exact h
  have hscaled : ∀ {e : Device} (a : Nat), d.asks e → d.asks (if x.scaleLen = 0 then e else e.chargeAt x.upkeep a x.scaleLen true) := by
    intro e a h
    split
    · exact h
    · exact Device.asks_chargeAt h _ _ _
  unfold Device.chargeBatch
  refine Device.asks_chargeAt (Device.asks_chargeNma (List.foldlRecOn (motive := d.asks) ps _ d.asks_refl fun e h p _ => ?_) 2) _ _ _
  have hcodes := Device.asks_trans h (e.chargeMerged_asks x p.1)
  exact Device.asks_chargeNma (hscaled _ (hcharged _ _ _ (Device.asks_chargeAt (Device.asks_chargeAt (Device.asks_chargeAt hcodes _ _ _) _ _ _) _ _ _))) _

/-! ### A delta entry that takes its place (R85, R96, R106) -/

/-- The index with the ID map entry of an ID, where it finds one, at a new location (R85). -/
def Index.idMoved (x : Index) (id : W64) (l : Loc) : Index :=
  match x.lookup id with
  | some (b, p, _) => x.withIdEntry b p (idWord (idHash x.idMapBuckets id).1 l)
  | none => x
/-- The index with a delta entry replaced. -/
def Index.withEntry (x : Index) (ei : Nat) (v : DeltaEntry) : Index := { x with delta := tset ei v x.delta }

theorem Index.idMoved_only (x : Index) (id : W64) (l : Loc) : x.idMoved id l = { x with idMap := (x.idMoved id l).idMap } := by
  unfold Index.idMoved
  split <;> rfl

theorem Device.idPut_indexTo {d : Device} {i : Nat} {x : Index} (hx : tfind i d.indexes = some x) (b p : Nat) (w : W64) :
    d.indexTo (d.idPut i b p w) i (x.withIdEntry b p w) :=
  Device.indexTo_bytes (Device.indexTo_modIndex hx (Index.withIdEntry · b p w)) (Device.syncBucket_bytesTo _ i b)

theorem Device.idMove_indexTo {d : Device} {i : Nat} {x : Index} (hx : tfind i d.indexes = some x) (id : W64) (l : Loc) :
    d.indexTo (d.idMove i id l) i (x.idMoved id l) := by
  cases hl : x.lookup id with
  | none =>
    simp only [Device.idMove, Index.idMoved, hx, hl]
    exact Device.indexTo_of_bytesTo hx d.bytesTo_refl
  | some q =>
    obtain ⟨b, p, l'⟩ := q
    simp only [Device.idMove, Index.idMoved, hx, hl]
    exact Device.idPut_indexTo hx _ _ _

/-- A delta entry replaced, with its bytes in both rings (R105, R106). -/
theorem Device.syncDelta_indexTo {d e : Device} {i : Nat} {y : Index} (h : d.indexTo e i y) (ei : Nat) (v : DeltaEntry) :
    d.indexTo ((e.modIndex i fun x => x.withEntry ei v).syncDelta i ei) i (y.withEntry ei v) :=
  Device.indexTo_bytes (Device.indexTo_mod h (Index.withEntry · ei v)) (Device.syncDelta_bytesTo _ i ei)

/-- An entry merged takes its ID map entry along, is recorded as merged, and its recovery is told (R96, R106, R398). -/
theorem Device.entryMerged_told {d : Device} {i ei : Nat} {x : Index} {v : DeltaEntry} (hx : tfind i d.indexes = some x) (hv : tfind ei x.delta = some v)
    (view target slot : Nat) (l : Loc) : ∃ e, d.indexTo e i ((x.idMoved v.id l).withEntry ei (v.merged view target slot)) ∧
      d.entryMerged i ei view target slot l = e.errorIf v.reported 0x5002 v i target := by
  refine ⟨_, Device.syncDelta_indexTo (Device.idMove_indexTo hx v.id l) ei (v.merged view target slot), ?_⟩
  simp only [Device.entryMerged, hx, Option.bind_some, hv]
  rfl

/-! ### Where a merged vector is found (R83, R84) -/

/-- A word names its location and its fingerprint (R83). -/
theorem idWord_slot {fp n t : Nat} (hfp : fp < 2 ^ 16) (hn : n < 2 ^ 26) (ht : t < 2 ^ 20) :
    idLoc (idWord fp (.slot n t)) = some (.slot n t) ∧ bits 63 48 (idWord fp (.slot n t)).toNat = fp := by
  have hword : (idWord fp (.slot n t)).toNat = fp * 2 ^ 48 + (2 ^ 46 + (n * 2 ^ 20 + t)) := by
    simp only [idWord, at_, BitVec.toNat_ofNat]
    omega
  have hkind : bits 47 46 (idWord fp (.slot n t)).toNat = 1 := by
    rw [hword, bits]
    omega
  have hplace : bits 45 0 (idWord fp (.slot n t)).toNat = n * 2 ^ 20 + t := by
    rw [hword, bits]
    omega
  constructor
  · have hcell : (n * 2 ^ 20 + t) / 2 ^ 20 = n := by omega
    have hslot : (n * 2 ^ 20 + t) % 2 ^ 20 = t := by omega
    simp only [idLoc, hkind, hplace, hcell, hslot]
  · rw [hword, bits]
    omega

theorem idHash_fp_lt (k : Nat) (id : W64) : (idHash k id).1 < 2 ^ 16 := by
  have := (mix64 id).isLt
  simp only [idHash]
  omega

/-- The ID stored at each location stays, but where an index takes an ID it stores one more location. -/
def Index.storesMore (x y : Index) (id : W64) : Prop :=
  y.idMap = x.idMap ∧ y.idMapBuckets = x.idMapBuckets ∧ ∀ l, x.idAt l = some id → y.idAt l = some id

/-- A position of a bucket that names an ID by its word (R84). -/
def Index.names (x : Index) (fp : Nat) (id : W64) (b p : Nat) : Option (Nat × Loc) :=
  match idLoc (x.idEntry b p) with
  | some l => if bits 63 48 (x.idEntry b p).toNat == fp && x.idAt l == some id then some (p, l) else none
  | none => none

theorem Index.bucketFind_eq (x : Index) (fp : Nat) (id : W64) (b : Nat) : x.bucketFind fp id b = (List.range 32).findSome? (x.names fp id b) := rfl

/-- A bucket that finds an ID finds it where more is stored. -/
theorem Index.bucketFind_storesMore {x y : Index} {fp : Nat} {id : W64} {b : Nat} (h : x.storesMore y id) (hf : (x.bucketFind fp id b).isSome = true) :
    (y.bucketFind fp id b).isSome = true := by
  obtain ⟨hmap, -, hat⟩ := h
  have hentry : ∀ p, y.idEntry b p = x.idEntry b p := fun p => by simp only [Index.idEntry, hmap]
  rw [Index.bucketFind_eq, List.findSome?_isSome_iff] at hf ⊢
  obtain ⟨p, hp, hnames⟩ := hf
  refine ⟨p, hp, ?_⟩
  unfold Index.names at hnames ⊢
  rw [hentry]
  split at hnames
  · next l hl =>
    split at hnames
    · next hboth =>
      simp only [Bool.and_eq_true, beq_iff_eq] at hboth
      simp [hboth.1, hat l hboth.2]
    · cases hnames
  · cases hnames

/-- An ID that is found is found where more is stored (R84). -/
theorem Index.lookup_storesMore {x y : Index} {id : W64} (h : x.storesMore y id) (hf : (x.lookup id).isSome = true) : (y.lookup id).isSome = true := by
  have hprobe : ∀ (fp fuel b : Nat), (x.probe fp id fuel b).isSome = true → (y.probe fp id fuel b).isSome = true := by
    intro fp fuel
    induction fuel with
    | zero => exact fun b hp => absurd hp (by simp [Index.probe])
    | succ fuel ih =>
      intro b hp
      have hopen : y.bucketOpen b = x.bucketOpen b := by simp only [Index.bucketOpen, Index.idEntry, h.1]
      simp only [Index.probe, hopen, h.2.1] at hp ⊢
      cases hy : y.bucketFind fp id b with
      | some q => rfl
      | none =>
        have hx : x.bucketFind fp id b = none := by
          cases hx : x.bucketFind fp id b with
          | none => rfl
          | some q =>
            have := Index.bucketFind_storesMore (fp := fp) (b := b) h (by rw [hx]; rfl)
            rw [hy] at this
            cases this
        simp only [hx] at hp
        split at hp
        · cases hp
        · next hclosed =>
          simp only [hclosed, Bool.false_eq_true, if_false]
          exact ih _ hp
  unfold Index.lookup at hf ⊢
  rw [h.2.1]
  exact hprobe _ _ _ hf

/-- A position written alone leaves every other position's word. -/
theorem Index.idEntry_withIdEntry (x : Index) (b p k q : Nat) (w : W64) :
    (x.withIdEntry b p w).idEntry k q = if k = b ∧ q = p then w else x.idEntry k q := by
  unfold Index.idEntry Index.withIdEntry
  by_cases hk : k = b
  · subst hk
    by_cases hq : q = p
    · subst hq
      simp
    · simp [hq, tget_tset_other _ _ _ _ _ hq]
  · simp [hk, tget_tset_other _ _ _ _ _ hk]

/-- A position that names an ID, past those that do not, is the one found. -/
theorem Index.bucketFind_withIdEntry {x : Index} {fp b p : Nat} {id : W64} {l l' : Loc} {w : W64} (hf : x.bucketFind fp id b = some (p, l'))
    (hw : idLoc w = some l ∧ bits 63 48 w.toNat = fp) (hat : x.idAt l = some id) : (x.withIdEntry b p w).bucketFind fp id b = some (p, l) := by
  have hself : (x.withIdEntry b p w).names fp id b p = some (p, l) := by
    have hat' : (x.withIdEntry b p w).idAt l = some id := hat
    simp [Index.names, Index.idEntry_withIdEntry, hw.1, hw.2, hat']
  have hothers : ∀ q, q ≠ p → (x.withIdEntry b p w).names fp id b q = x.names fp id b q := by
    intro q hq
    simp only [Index.names, Index.idEntry_withIdEntry, hq, and_false, if_false]
    rfl
  rw [Index.bucketFind_eq] at hf ⊢
  obtain ⟨before, q, after, hsplit, hq, hbefore⟩ := List.findSome?_eq_some_iff.1 hf
  have hqp : q = p := by
    unfold Index.names at hq
    split at hq
    · split at hq
      · exact (Prod.mk.inj (Option.some.inj hq)).1
      · cases hq
    · cases hq
  subst hqp
  refine List.findSome?_eq_some_iff.2 ⟨before, q, after, hsplit, hself, fun a ha => ?_⟩
  have hne : a ≠ q := by
    rintro rfl
    have := hbefore a ha
    rw [hq] at this
    cases this
  rw [hothers a hne]
  exact hbefore a ha

theorem Index.bucketFind_of_probe {x : Index} {fp fuel k b p : Nat} {id : W64} {l : Loc} (h : x.probe fp id fuel k = some (b, p, l)) :
    x.bucketFind fp id b = some (p, l) := by
  induction fuel generalizing k with
  | zero => cases h
  | succ fuel ih =>
    simp only [Index.probe] at h
    split at h
    · next hx =>
      obtain ⟨rfl, rfl, rfl⟩ := by simpa only [Option.some.injEq, Prod.mk.injEq] using h
      exact hx
    · split at h
      · cases h
      · exact ih h

/-- The entry of an ID moved in place is where the ID is found (R84, R85). -/
theorem Index.lookup_withIdEntry {x : Index} {b p : Nat} {id : W64} {l l' : Loc} {w : W64} (hf : x.lookup id = some (b, p, l'))
    (hw : idLoc w = some l ∧ bits 63 48 w.toNat = (idHash x.idMapBuckets id).1) (hat : x.idAt l = some id) :
    (x.withIdEntry b p w).lookup id = some (b, p, l) := by
  have hprobe : ∀ (fuel k : Nat), x.probe (idHash x.idMapBuckets id).1 id fuel k = some (b, p, l') →
      (x.withIdEntry b p w).probe (idHash x.idMapBuckets id).1 id fuel k = some (b, p, l) := by
    intro fuel
    induction fuel with
    | zero => exact fun k hk => absurd hk (by simp [Index.probe])
    | succ fuel ih =>
      intro k hk
      simp only [Index.probe] at hk ⊢
      cases hx : x.bucketFind (idHash x.idMapBuckets id).1 id k with
      | some q =>
        simp only [hx, Option.some.injEq, Prod.mk.injEq] at hk
        obtain ⟨rfl, rfl, rfl⟩ := hk
        simp only [Index.bucketFind_withIdEntry hx hw hat]
      | none =>
        simp only [hx] at hk
        split at hk
        · cases hk
        · next hclosed =>
          have hkb : k ≠ b := by
            rintro rfl
            rw [Index.bucketFind_of_probe hk] at hx
            cases hx
          have hentry : ∀ q, (x.withIdEntry b p w).idEntry k q = x.idEntry k q := fun q => by
            rw [Index.idEntry_withIdEntry, if_neg (fun h => hkb h.1)]
          have hfind : (x.withIdEntry b p w).bucketFind (idHash x.idMapBuckets id).1 id k = none := by
            rw [← hx, Index.bucketFind_eq, Index.bucketFind_eq]
            congr 1
            funext q
            unfold Index.names
            rw [hentry]
            rfl
          have hopen : (x.withIdEntry b p w).bucketOpen k = x.bucketOpen k := by simp only [Index.bucketOpen, hentry]
          simp only [hfind, hopen, hclosed]
          exact ih _ hk
  exact hprobe _ _ hf

/-- An ID that is found is found at its new location once its entry has moved there. -/
theorem Index.lookup_idMoved_slot {x : Index} {id : W64} {n t : Nat} (hf : (x.lookup id).isSome = true) (hat : x.idAt (.slot n t) = some id)
    (hn : n < 2 ^ 26) (ht : t < 2 ^ 20) : ((x.idMoved id (.slot n t)).lookup id).map (·.2.2) = some (.slot n t) := by
  obtain ⟨⟨b, p, l⟩, hl⟩ := Option.isSome_iff_exists.1 hf
  have hmoved : x.idMoved id (.slot n t) = x.withIdEntry b p (idWord (idHash x.idMapBuckets id).1 (.slot n t)) := by simp only [Index.idMoved, hl]
  rw [hmoved, Index.lookup_withIdEntry hl (idWord_slot (idHash_fp_lt _ _) hn ht) hat]
  rfl

/-- Where every location stores the same ID, an ID is found at the same place. -/
theorem Index.lookup_congr {x y : Index} (id : W64) (hmap : y.idMap = x.idMap) (hbuckets : y.idMapBuckets = x.idMapBuckets)
    (hat : ∀ l, y.idAt l = x.idAt l) : y.lookup id = x.lookup id := by
  have hentry : ∀ b p, y.idEntry b p = x.idEntry b p := fun b p => by simp only [Index.idEntry, hmap]
  have hnames : ∀ fp b, y.names fp id b = x.names fp id b := by
    intro fp b
    funext p
    unfold Index.names
    rw [hentry]
    split
    · rw [hat]
    · rfl
  have hopen : ∀ b, y.bucketOpen b = x.bucketOpen b := fun b => by simp only [Index.bucketOpen, hentry]
  have hprobe : ∀ (fp fuel b : Nat), y.probe fp id fuel b = x.probe fp id fuel b := by
    intro fp fuel
    induction fuel with
    | zero => exact fun b => rfl
    | succ fuel ih =>
      intro b
      simp only [Index.probe, Index.bucketFind_eq, hnames, hopen, hbuckets, ih]
  unfold Index.lookup
  rw [hbuckets]
  exact hprobe _ _ _

/-- A delta entry replaced under the same ID stores it still. -/
theorem Index.idAt_withEntry {x : Index} {ei : Nat} {v w : DeltaEntry} (hv : tfind ei x.delta = some v) (hid : w.id = v.id) (l : Loc) :
    (x.withEntry ei w).idAt l = x.idAt l := by
  unfold Index.idAt Index.withEntry
  dsimp only
  cases x.away.find? (fun p => p.1 == l) with
  | some p => rfl
  | none =>
    cases l with
    | slot n t => rfl
    | node n => rfl
    | delta e =>
      by_cases he : e = ei
      · subst he
        simp [hv, hid]
      · simp [tfind_tset_other _ _ _ _ he]

end Sys2Proof.Machine
end

section
/-! Merge passes over cells: an entry that takes a slot, one that fails or is lost, and one that waits for a relocation. -/

namespace Sys2Proof.Machine

/-! ### A vector that takes a slot (R91, R96) -/

/-- The vectors of a batch, each with its entry and its slot of cell n (R96). -/
def Index.newsOf (x : Index) (n : Nat) (ps : List (Nat × Nat)) : List (Nat × Nat × Slot) :=
  ps.filterMap fun p => (tfind p.1 x.delta).map fun e => (p.1, p.2, x.slotOf n e)
/-- A cell after a batch into its block blk, published at a view (R91, R96). -/
def Cell.batched (c : Cell) (blk view : Nat) (news : List (Nat × Nat × Slot)) (sum : Summary) : Cell :=
  let slots := news.foldl (fun t p => tset p.2.1 p.2.2 t) c.cur.slots
  let ns := news.foldl (fun m p => max m (p.2.1 + 1)) c.nSlots
  let used := min 64 (ns - 64 * blk)
  { c with
    nSlots := ns, nLive := c.nLive + news.length, mergeView := view, free := c.free.filter fun s => !(news.any fun p => p.2.1 == s), summary := sum
    cur := { c.cur with slots := slots, tombs := c.cur.tombs.filter fun s => !(news.any fun p => p.2.1 == s),
                        blocks := tset blk { used := used, freshMask := news.map fun p => p.2.1 % 64, freshView := view } c.cur.blocks } }
/-- An index after a batch into a block of cell n, its entries still to be merged. -/
def Device.batchedIndex (d : Device) (x : Index) (n blk : Nat) (news : List (Nat × Nat × Slot)) : Index :=
  { x.modCell n fun c => c.batched blk (nextView x.view) news (d.summaryAfter x n c.summary (news.map (·.2.2.attrs))) with nLive := x.nLive + news.length }
/-- The device after such a batch, with its traffic and bytes (R96, R251). -/
def Device.batched (d : Device) (i : Nat) (x : Index) (n blk : Nat) (news : List (Nat × Nat × Slot)) : Device :=
  ((((d.chargeBatch x n blk (news.map fun p => (p.1, p.2.1))).modIndex i fun _ => d.batchedIndex x n blk news).syncBlock i n blk).syncTomb i n).syncCell i n

theorem Device.batched_indexTo {d : Device} {i : Nat} {x : Index} (hx : tfind i d.indexes = some x) (n blk : Nat) (news : List (Nat × Nat × Slot)) :
    d.indexTo (d.batched i x n blk news) i (d.batchedIndex x n blk news) := by
  have hcharged := Device.indexTo_of_bytesTo hx (Device.bytesTo_of_asks (d.chargeBatch_asks x n blk (news.map fun p => (p.1, p.2.1))))
  have hslotted := Device.indexTo_mod hcharged fun _ => d.batchedIndex x n blk news
  exact Device.indexTo_bytes (Device.indexTo_bytes (Device.indexTo_bytes hslotted (Device.syncBlock_bytesTo _ i n blk))
    (Device.syncTomb_bytesTo _ i n)) (Device.syncCell_bytesTo _ i n)

/-- A batch writes its block, merges its entries in turn, and publishes (R96). -/
theorem Device.mergeBatch_eq {d : Device} {i n blk : Nat} {x : Index} (hx : tfind i d.indexes = some x) (hmay : d.mayAdvance i = true)
    (ps : List (Nat × Nat)) : d.mergeBatch i ((n, blk), ps) =
      ((x.newsOf n ps).foldl (fun d p => d.entryMerged i p.1 (nextView x.view) n p.2.1 (.slot n p.2.1)) (d.batched i x n blk (x.newsOf n ps))).advanceView i := by
  have hgo : ¬ (!d.mayAdvance i) = true := by simp [hmay]
  unfold Device.mergeBatch
  rw [hx]
  dsimp only
  exact if_neg hgo

theorem Index.cell_withNLive (x : Index) (k n : Nat) : ({ x with nLive := k } : Index).cell n = x.cell n := rfl

theorem Device.cell_batchedIndex_same (d : Device) (x : Index) (n blk : Nat) (news : List (Nat × Nat × Slot)) :
    (d.batchedIndex x n blk news).cell n =
      (x.cell n).batched blk (nextView x.view) news (d.summaryAfter x n (x.cell n).summary (news.map (·.2.2.attrs))) := by
  unfold Device.batchedIndex
  rw [Index.cell_withNLive, Index.cell_modCell_same]

theorem Device.cell_batchedIndex_other (d : Device) (x : Index) {n m : Nat} (blk : Nat) (news : List (Nat × Nat × Slot)) (h : m ≠ n) :
    (d.batchedIndex x n blk news).cell m = x.cell m := by
  unfold Device.batchedIndex
  rw [Index.cell_withNLive, Index.cell_modCell_other _ _ h]

/-- A batch stores the ID of its one vector at its slot, and every other ID where it was or not at all. -/
theorem Device.batchedIndex_storesMore (d : Device) {x : Index} (haway : x.away = []) (n t ei : Nat) (v : Slot) :
    x.storesMore (d.batchedIndex x n (t / 64) [(ei, t, v)]) v.id ∧ (d.batchedIndex x n (t / 64) [(ei, t, v)]).idAt (.slot n t) = some v.id := by
  have hslots : tfind t ((d.batchedIndex x n (t / 64) [(ei, t, v)]).cell n).cur.slots = some v := by
    rw [Device.cell_batchedIndex_same]
    exact tfind_tset_same _ _ _
  have haway' : (d.batchedIndex x n (t / 64) [(ei, t, v)]).away = [] := haway
  have hself : (d.batchedIndex x n (t / 64) [(ei, t, v)]).idAt (.slot n t) = some v.id := by
    simp only [Index.idAt, haway', List.find?_nil, hslots, Option.map_some]
  refine ⟨⟨rfl, rfl, fun l hl => ?_⟩, hself⟩
  by_cases hsame : l = .slot n t
  · rw [hsame]
    exact hself
  · rw [← hl]
    simp only [Index.idAt, haway', haway, List.find?_nil]
    cases l with
    | node m => rfl
    | delta e => rfl
    | slot m k =>
      have hcell : tfind k ((d.batchedIndex x n (t / 64) [(ei, t, v)]).cell m).cur.slots = tfind k (x.cell m).cur.slots := by
        by_cases hm : m = n
        · subst hm
          have hk : k ≠ t := by
            rintro rfl
            exact hsame rfl
          rw [Device.cell_batchedIndex_same]
          exact tfind_tset_other _ _ _ _ hk
        · rw [Device.cell_batchedIndex_other _ _ _ _ hm]
      dsimp only
      rw [hcell]

/-- The index after a delta entry has taken slot t of cell n, and its view is published. -/
def Device.mergedIndex (d : Device) (x : Index) (n t ei : Nat) (v : DeltaEntry) : Index :=
  { (((d.batchedIndex x n (t / 64) [(ei, t, x.slotOf n v)]).idMoved v.id (.slot n t)).withEntry ei (v.merged (nextView x.view) n t)) with
    view := nextView x.view }

theorem Index.lookup_withView (x : Index) (k : Nat) (id : W64) : ({ x with view := k } : Index).lookup id = x.lookup id :=
  Index.lookup_congr id rfl rfl fun _ => rfl

theorem Index.lookup_withEntry {x : Index} {ei : Nat} {v w : DeltaEntry} (hv : tfind ei x.delta = some v) (hid : w.id = v.id) (id : W64) :
    (x.withEntry ei w).lookup id = x.lookup id :=
  Index.lookup_congr id rfl rfl (Index.idAt_withEntry hv hid)

/-- The ID of a merged vector leads to its slot (R85, R96). -/
theorem Device.lookup_mergedIndex (d : Device) {x : Index} {n t ei : Nat} {v : DeltaEntry} (haway : x.away = []) (hv : tfind ei x.delta = some v)
    (hfound : (x.lookup v.id).isSome = true) (hn : n < 2 ^ 26) (ht : t < 2 ^ 20) :
    ((d.mergedIndex x n t ei v).lookup v.id).map (·.2.2) = some (.slot n t) := by
  obtain ⟨hmore, hat⟩ := d.batchedIndex_storesMore haway n t ei (x.slotOf n v)
  have hkept : tfind ei ((d.batchedIndex x n (t / 64) [(ei, t, x.slotOf n v)]).idMoved v.id (.slot n t)).delta = some v := by
    rw [Index.idMoved_only]
    exact hv
  unfold Device.mergedIndex
  rw [Index.lookup_withView, Index.lookup_withEntry (w := v.merged (nextView x.view) n t) hkept rfl]
  exact Index.lookup_idMoved_slot (Index.lookup_storesMore hmore hfound) hat hn ht

theorem Device.mergedIndex_only (d : Device) (x : Index) (n t ei : Nat) (v : DeltaEntry) : d.mergedIndex x n t ei v =
    { d.batchedIndex x n (t / 64) [(ei, t, x.slotOf n v)] with
      idMap := (d.mergedIndex x n t ei v).idMap, delta := tset ei (v.merged (nextView x.view) n t) x.delta, view := nextView x.view } := by
  unfold Device.mergedIndex
  rw [Index.idMoved_only]
  rfl

/-! ### A pass with one live entry (R97, R98) -/

/-- An index that a merge pass may work on. -/
structure Device.Mergeable (d : Device) (i ei : Nat) (x : Index) (v : DeltaEntry) : Prop where
  ready : d.ready = true
  going : d.quiesced = false
  found : d.index? i = some x
  local_ : d.shoalIndex? i = none
  entry : tfind ei x.delta = some v
  live : x.liveEntries = [(ei, v)]
  near : x.away = []

theorem Device.Mergeable.table {d : Device} {i ei : Nat} {x : Index} {v : DeltaEntry} (h : d.Mergeable i ei x v) : tfind i d.indexes = some x :=
  Device.tfind_of_index? h.found

/-- Where the one live entry of an index of cells goes (R97, R98). -/
def Device.placing (d : Device) (i ei : Nat) (x : Index) (v : DeltaEntry) : Placing :=
  Placing.step (fun v => d.mergeReleased i v) { x := x, space := d.lFree } (ei, v)

/-- A pass over cells applies what it has placed: batches, failures and relocations (R97). -/
theorem mergePassEff_placed {d : Device} {i ei : Nat} {x : Index} {v : DeltaEntry} (h : d.Mergeable i ei x v) (hkind : x.kind ≠ .graph) :
    mergePassEff i [] d = (d.placing i ei x v).relocate.foldl (fun d n => d.beginRelocation i n (grownCap (x.cell n).cur.capBlocks))
      ((d.placing i ei x v).fails.foldl (fun d f => d.entryFailed i f.1 f.2) ((d.placing i ei x v).batches.foldl (fun d b => d.mergeBatch i b) d)) := by
  have hgo : ¬ (!d.bgOk || (d.index? i).isNone) = true := by simp [Device.bgOk, h.ready, h.going, h.found]
  have hcells : ¬ (x.kind == .graph) = true := by simpa using hkind
  unfold mergePassEff
  rw [if_neg hgo, List.foldl_nil]
  dsimp only
  rw [h.found]
  dsimp only
  rw [if_neg hcells, h.live]
  rfl

/-- A pass over a graph places its one entry as a node (R104). -/
theorem mergePassEff_graph {d : Device} {i ei : Nat} {x : Index} {v : DeltaEntry} (h : d.Mergeable i ei x v) (hkind : x.kind = .graph) :
    mergePassEff i [] d = d.graphPass i [(ei, v)] := by
  have hgo : ¬ (!d.bgOk || (d.index? i).isNone) = true := by simp [Device.bgOk, h.ready, h.going, h.found]
  unfold mergePassEff
  rw [if_neg hgo, List.foldl_nil]
  dsimp only
  rw [h.found]
  dsimp only
  rw [if_pos (by simp [hkind]), h.live]

/-- An entry without a cell fails (R98). -/
theorem Device.placing_none {d : Device} {i ei : Nat} {x : Index} {v : DeltaEntry} (hcell : x.targetCell (formF32 v.vec) = none) :
    d.placing i ei x v = { x := x, space := d.lFree, fails := [(ei, 0xFFFFFFFF)] } := by
  simp [Device.placing, Placing.step, hcell]

/-- An entry whose cell has no slot left has the cell relocated, where the space is there (R97). -/
theorem Device.placing_relocates {d : Device} {i ei n : Nat} {x : Index} {v : DeltaEntry} (hcell : x.targetCell (formF32 v.vec) = some n)
    (hstate : (x.cell n).state = 1) (hfull : 64 * (x.cell n).cur.capBlocks ≤ (x.cell n).nextSlot)
    (hspace : x.extentBytes (grownCap (x.cell n).cur.capBlocks) ≤ d.lFree) :
    d.placing i ei x v = { x := x, space := d.lFree - x.extentBytes (grownCap (x.cell n).cur.capBlocks), relocate := [n] } := by
  simp [Device.placing, Placing.step, hcell, hstate, hfull, Nat.not_lt.2 hspace]

/-- An entry whose cell has a slot, in a block whose last vectors are to be seen by every reader, joins a batch of its own (R96, R98). -/
theorem Device.placing_batch {d : Device} {i ei n : Nat} {x : Index} {v : DeltaEntry} (hlocal : d.shoalIndex? i = none)
    (hcell : x.targetCell (formF32 v.vec) = some n) (hstate : (x.cell n).state ≠ 2) (hroom : (x.cell n).nextSlot < 64 * (x.cell n).cur.capBlocks)
    (hseen : d.released i (tget ({} : BlockHead) ((x.cell n).nextSlot / 64) (x.cell n).cur.blocks).freshView = true) :
    (d.placing i ei x v).batches = [((n, (x.cell n).nextSlot / 64), [(ei, (x.cell n).nextSlot)])] ∧ (d.placing i ei x v).fails = [] ∧
      (d.placing i ei x v).relocate = [] := by
  have hmerge : d.mergeReleased i (tget ({} : BlockHead) ((x.cell n).nextSlot / 64) (x.cell n).cur.blocks).freshView = true := by
    simpa [Device.mergeReleased, hlocal] using hseen
  have hplaced : d.placing i ei x v =
      { x := x.modCell n fun c => { c with free := c.free.filter (· != (x.cell n).nextSlot), nSlots := max c.nSlots ((x.cell n).nextSlot + 1) }
        space := d.lFree, batches := [((n, (x.cell n).nextSlot / 64), [(ei, (x.cell n).nextSlot)])] } := by
    simp [Device.placing, Placing.step, hcell, hstate, Nat.not_le.2 hroom, hmerge]
  rw [hplaced]
  exact ⟨rfl, rfl, rfl⟩

/-! ### Publication (R79) -/

theorem Device.advanceView_indexTo {d : Device} {i : Nat} {x : Index} (hx : tfind i d.indexes = some x) :
    d.indexTo (d.advanceView i) i { x with view := nextView x.view } :=
  Device.indexTo_bytes (Device.indexTo_modIndex hx fun x => { x with view := nextView x.view }) (Device.syncRecord_bytesTo _ i)

theorem Device.indexes_errorIf (d : Device) (told : Bool) (code : Nat) (v : DeltaEntry) (i target : Nat) :
    (d.errorIf told code v i target).indexes = d.indexes := by
  cases told with
  | false => rfl
  | true =>
    have hreports := d.defError_reports v.fn code v.sqid v.cid i v.logSeq v.id target
    unfold Device.reports at hreports
    have hkept := congrArg Device.indexes hreports
    exact hkept

/-- A pass whose entry takes a slot (R96). -/
theorem mergePassEff_slotted {d : Device} {i ei n : Nat} {x : Index} {v : DeltaEntry} (h : d.Mergeable i ei x v) (hkind : x.kind ≠ .graph)
    (hmay : d.mayAdvance i = true) (hcell : x.targetCell (formF32 v.vec) = some n) (hstate : (x.cell n).state ≠ 2)
    (hroom : (x.cell n).nextSlot < 64 * (x.cell n).cur.capBlocks)
    (hseen : d.released i (tget ({} : BlockHead) ((x.cell n).nextSlot / 64) (x.cell n).cur.blocks).freshView = true) :
    d.indexToTelling (mergePassEff i [] d) i (d.mergedIndex x n (x.cell n).nextSlot ei v) ∧
      (v.reported = false → (mergePassEff i [] d).fns = d.fns ∧ (mergePassEff i [] d).out = d.out) ∧
      (v.reported = true → d.logged (mergePassEff i [] d) 0x5002 v i n) := by
  obtain ⟨hbatches, hfails, hrelocate⟩ := Device.placing_batch (v := v) h.local_ hcell hstate hroom hseen (ei := ei)
  generalize ht : (x.cell n).nextSlot = t at *
  have hnews : x.newsOf n [(ei, t)] = [(ei, t, x.slotOf n v)] := by simp [Index.newsOf, h.entry]
  have hbatched := Device.batched_indexTo h.table n (t / 64) [(ei, t, x.slotOf n v)]
  obtain ⟨e, hmerged, htold⟩ := Device.entryMerged_told hbatched.1 h.entry (nextView x.view) n t (.slot n t)
  have hpass : mergePassEff i [] d = (e.errorIf v.reported 0x5002 v i n).advanceView i := by
    rw [mergePassEff_placed h hkind, hbatches, hfails, hrelocate, List.foldl_nil, List.foldl_nil, List.foldl_cons, List.foldl_nil,
      Device.mergeBatch_eq h.table hmay, hnews, List.foldl_cons, List.foldl_nil, htold]
  rw [hpass]
  refine Device.mergesTo_errorIf (Device.mergesTo_of_indexTo (Device.indexTo_trans hbatched hmerged)) (Device.mergesTo_of_indexTo ?_)
  have hpublished := Device.advanceView_indexTo (d := e.errorIf v.reported 0x5002 v i n) (i := i) (by rw [Device.indexes_errorIf]; exact hmerged.1)
  have hview : (((d.batchedIndex x n (t / 64) [(ei, t, x.slotOf n v)]).idMoved v.id (.slot n t)).withEntry ei
      (v.merged (nextView x.view) n t)).view = x.view := by
    rw [Index.idMoved_only]
    rfl
  rw [hview] at hpublished
  exact hpublished

/-! ### Entries that fail or are lost (R97, R98, R395, R398) -/

/-- What an error recorded last leaves of the index and of its record. -/
theorem Device.told_errorIf {d e : Device} {i : Nat} {y : Index} (told : Bool) (code target : Nat) (v : DeltaEntry) (h : d.indexTo e i y) :
    d.indexToTelling (e.errorIf told code v i target) i y ∧
      (told = false → (e.errorIf told code v i target).fns = d.fns ∧ (e.errorIf told code v i target).out = d.out) ∧
      (told = true → d.logged (e.errorIf told code v i target) code v i target) := by
  refine Device.mergesTo_errorIf (Device.mergesTo_of_indexTo h) (Device.mergesTo_of_indexTo (Device.indexTo_of_bytesTo ?_ (Device.bytesTo_refl _)))
  rw [Device.indexes_errorIf]
  exact h.1

/-- An entry that cannot merge is marked, and recorded the first time (R97, R398). -/
theorem Device.entryFailed_told {d : Device} {i ei : Nat} {x : Index} {v : DeltaEntry} (hx : tfind i d.indexes = some x) (hv : tfind ei x.delta = some v)
    (target : Nat) : ∃ e, d.indexTo e i (x.withEntry ei { v with failed := true, reported := true }) ∧
      d.entryFailed i ei target = e.errorIf (!v.reported) 0x5001 v i target := by
  refine ⟨_, Device.syncDelta_indexTo (Device.indexTo_of_bytesTo hx d.bytesTo_refl) ei { v with failed := true, reported := true }, ?_⟩
  simp only [Device.entryFailed, hx, Option.bind_some, hv]
  cases v.reported <;> rfl

/-- A live entry that neither ring can give is ended, its ID map entry vacated, and its loss recorded (R395). -/
theorem Device.entryLost_told {d : Device} {i ei b p : Nat} {x : Index} {v : DeltaEntry} {l : Loc} (hx : tfind i d.indexes = some x)
    (hv : tfind ei x.delta = some v) (hlive : v.state = 1) (hl : x.lookup v.id = some (b, p, l)) :
    ∃ e, d.indexTo e i ((x.vacated b p).withEntry ei { v with state := 2, endView := x.view }) ∧
      d.entryLost i ei = e.errorIf true 0x5003 v i 0xFFFFFFFF := by
  have hvacated : d.indexTo (d.idVacate i b p) i (x.vacated b p) :=
    Device.indexTo_mod (Device.idPut_indexTo hx b p 1) fun x => { x with occupied := x.occupied - 1 }
  have hended := Device.indexTo_bytes (Device.indexTo_mod hvacated fun y => { y with delta := tset ei { v with state := 2, endView := y.view } y.delta })
    (Device.syncDelta_bytesTo _ i ei)
  refine ⟨_, hended, ?_⟩
  simp only [Device.entryLost, hx, Option.bind_some, hv, Option.map_some, hlive, hl, Device.errorIf]
  rfl

/-- A pass whose entry finds no cell (R98, R398). -/
theorem mergePassEff_failed {d : Device} {i ei : Nat} {x : Index} {v : DeltaEntry} (h : d.Mergeable i ei x v) (hkind : x.kind ≠ .graph)
    (hcell : x.targetCell (formF32 v.vec) = none) : ∃ e, d.indexTo e i (x.withEntry ei { v with failed := true, reported := true }) ∧
      mergePassEff i [] d = e.errorIf (!v.reported) 0x5001 v i 0xFFFFFFFF := by
  obtain ⟨e, hfailed, htold⟩ := Device.entryFailed_told h.table h.entry 0xFFFFFFFF
  refine ⟨e, hfailed, ?_⟩
  rw [mergePassEff_placed h hkind, Device.placing_none hcell, List.foldl_nil, List.foldl_nil, List.foldl_cons, List.foldl_nil, htold]

/-- A table of one entry that is set anew. -/
theorem liveEntries_ended {x : Index} {ei : Nat} {v w : DeltaEntry} (hdelta : x.delta = [(ei, v)]) (hw : w.state ≠ 1) :
    (x.withEntry ei w).liveEntries = [] := by
  have hset : (x.withEntry ei w).delta = [(ei, w)] := by simp [Index.withEntry, hdelta, tset]
  simp [Index.liveEntries, hset, hw, sortBy]

/-- A pass over an index without live entries does nothing more than set its lost ones deleted (R395). -/
theorem mergePassEff_lost {d e : Device} {i ei : Nat} {x y : Index} {v : DeltaEntry} (h : d.Mergeable i ei x v) (hlost : d.entryLost i ei = e)
    (hy : e.index? i = some y) (hnone : y.liveEntries = []) : mergePassEff i [ei] d = e := by
  have hgo : ¬ (!d.bgOk || (d.index? i).isNone) = true := by simp [Device.bgOk, h.ready, h.going, h.found]
  unfold mergePassEff
  rw [if_neg hgo, List.foldl_cons, List.foldl_nil, hlost]
  dsimp only
  rw [hy]
  dsimp only
  rw [hnone]
  split
  · simp [Device.graphPass, Device.tfind_of_index? hy]
  · rfl

/-! ### A relocation begun (R97, R108) -/

/-- What writing an index's bytes and copies changes: no space of either tier. -/
def Device.copies (d e : Device) : Prop :=
  e = { d with burgees := e.burgees, mem := e.mem, tiers := { d.tiers with chans := e.tiers.chans, erased := e.tiers.erased } }

theorem Device.copies_refl (d : Device) : d.copies d := rfl

theorem Device.copies_trans {d e f : Device} (h : d.copies e) (k : e.copies f) : d.copies f := by
  unfold Device.copies at *
  rw [k, h]

theorem Device.foldl_copies {β : Type} (f : Device → β → Device) (h : ∀ (d : Device) x, d.copies (f d x)) (xs : List β) (d : Device) :
    d.copies (xs.foldl f d) := by
  induction xs generalizing d with
  | nil => exact d.copies_refl
  | cons x xs ih => exact Device.copies_trans (h d x) (ih (f d x))

theorem Device.memWrite_copies (d : Device) (a : Nat) (bs : List Byte) : d.copies (d.memWrite a bs) := by
  have h := d.memWrite_stores a bs
  unfold Device.stores at h
  rw [h]
  rfl

theorem Device.unplace_copies (d : Device) (x : Index) (unit state : Nat) : d.copies (d.unplace x unit state) := by
  unfold Device.unplace
  split
  · exact d.copies_refl
  · exact Device.copies_trans (e := d.modBurgee _ _) rfl (Device.memWrite_copies _ _ _)

/-- What mirrors a write to the L-tier takes no space (R114). -/
theorem Device.mirrorFor_copies (d : Device) (x : Index) (a : Nat) (bs : List Byte) : d.copies (d.mirrorFor x a bs) := by
  unfold Device.mirrorFor
  dsimp only
  refine Device.copies_trans (Device.foldl_copies _ (fun d p => ?_) _ d) (Device.foldl_copies _ (fun d s => ?_) _ _)
  · split
    · exact d.copies_refl
    · split
      · exact d.unplace_copies _ _ _
      · exact Device.foldl_copies _ (fun d w => d.memWrite_copies _ _) _ d
  · split
    · exact d.copies_refl
    · split <;> exact d.memWrite_copies _ _

theorem Device.syncCell_copies (d : Device) (i n : Nat) : d.copies (d.syncCell i n) := by
  unfold Device.syncCell
  split
  · exact Device.copies_trans (d.mirrorFor_copies _ _ _) (Device.memWrite_copies _ _ _)
  · exact d.copies_refl

/-- An index whose cell n has its new extent reserved (R108). -/
def Index.relocating (x : Index) (n cap base : Nat) : Index :=
  { x.modCell n fun c => { c with state := 2, rewrite := some ⟨false, cap, base, x.extentBytes cap, false, []⟩ } with
    reserved := x.reserved + x.extentBytes cap }

/-- A relocation begins with its whole new extent (R97, R108). -/
theorem Device.beginRelocation_begun {d f : Device} {i n cap base : Nat} {x : Index} (hx : tfind i d.indexes = some x) (hstate : (x.cell n).state = 1)
    (hspace : x.extentBytes cap ≤ d.lFree) (htake : d.takeL (some x.burgee) (x.extentBytes cap) = some (base, f)) :
    d.indexTo (d.beginRelocation i n cap) i (x.relocating n cap base) ∧ (d.beginRelocation i n cap).tiers.extL = f.tiers.extL := by
  have htaken : d.bytesTo f := by
    unfold Device.takeL at htake
    split at htake
    · obtain ⟨-, rfl⟩ := Prod.mk.inj (Option.some.inj htake)
      rfl
    · cases htake
  have hfx := (Device.indexTo_of_bytesTo hx htaken).1
  have hbegun : d.beginRelocation i n cap = (f.modIndex i fun _ => x.relocating n cap base).syncCell i n := by
    have hgo : ¬ (decide (d.lFree < x.extentBytes cap) || (x.cell n).state != 1) = true := by simp [Nat.not_lt.2 hspace, hstate]
    simp only [Device.beginRelocation, hx]
    rw [if_neg hgo, htake]
    dsimp only
    rw [Device.modIndex_found hfx, Device.modIndex_found hfx]
    rfl
  have hindexed := Device.indexTo_mod (Device.indexTo_of_bytesTo hx htaken) fun _ => x.relocating n cap base
  rw [hbegun]
  refine ⟨Device.indexTo_bytes hindexed (Device.syncCell_bytesTo _ i n), ?_⟩
  have hcopied := (f.modIndex i fun _ => x.relocating n cap base).syncCell_copies i n
  unfold Device.copies at hcopied
  rw [hcopied, Device.modIndex_found hfx]

end Sys2Proof.Machine
end

section
/-! Merge passes over graphs: the node that an entry becomes, the edges that link it, and what they leave of every other node. -/

namespace Sys2Proof.Machine

/-! ### Edges (R101, R104) -/

/-- What names a node, and from which view it is seen. -/
def Graph.nameOf (g : Graph) (n : Nat) : Option (W64 × Nat) := (g.node? n).map fun v => (v.id, v.view)
/-- The index y differs from x in the edges of its graph's nodes alone. -/
def Index.linksOnly (x y : Index) : Prop :=
  y = { x with graph := { x.graph with groups := y.graph.groups, uppers := y.graph.uppers } } ∧ ∀ m, y.graph.nameOf m = x.graph.nameOf m

theorem Index.linksOnly_refl (x : Index) : x.linksOnly x := ⟨rfl, fun _ => rfl⟩

theorem Index.linksOnly_trans {x y z : Index} (h : x.linksOnly y) (k : y.linksOnly z) : x.linksOnly z :=
  ⟨by rw [k.1, h.1], fun m => (k.2 m).trans (h.2 m)⟩

/-- A node changed in what does not name it. -/
theorem Index.modNode_linksOnly (x : Index) (n : Nat) (g : Node → Node) (hg : ∀ v, (g v).id = v.id ∧ (g v).view = v.view) : x.linksOnly (x.modNode n g) := by
  unfold Index.modNode Index.modGroup
  cases hq : tfind (n / 64) x.graph.groups with
  | none => exact x.linksOnly_refl
  | some q =>
    refine ⟨rfl, fun m => ?_⟩
    unfold Graph.nameOf Graph.node?
    dsimp only
    by_cases hm : m / 64 = n / 64
    · rw [hm, tfind_tset_same, hq, Option.bind_some, Option.bind_some]
      cases hv : tfind (n % 64) q.nodes with
      | none => rfl
      | some v =>
        dsimp only
        by_cases hk : m % 64 = n % 64
        · rw [hk, tfind_tset_same, hv, Option.map_some, Option.map_some, (hg v).1, (hg v).2]
        · rw [tfind_tset_other _ _ _ _ hk]
    · rw [tfind_tset_other _ _ _ _ hm]

theorem Index.setNbrs_linksOnly (x : Index) (n level : Nat) (ns : List Nat) : x.linksOnly (x.setNbrs n level ns) := by
  unfold Index.setNbrs
  split
  · exact x.modNode_linksOnly n _ fun _ => ⟨rfl, rfl⟩
  · split
    · exact ⟨rfl, fun _ => rfl⟩
    · exact x.linksOnly_refl

theorem Index.foldl_linksOnly {β : Type} (f : Index → β → Index) (h : ∀ (x : Index) b, x.linksOnly (f x b)) (bs : List β) (x : Index) :
    x.linksOnly (bs.foldl f x) := by
  induction bs generalizing x with
  | nil => exact x.linksOnly_refl
  | cons b bs ih => exact Index.linksOnly_trans (h x b) (ih (f x b))

/-- A node linked on a level. -/
theorem Index.link_linksOnly (x : Index) (s : Nat → Nat → W32) (level new : Nat) (cands : List Nat) : x.linksOnly (x.link s level new cands) :=
  Index.linksOnly_trans (x.setNbrs_linksOnly new level _) (Index.foldl_linksOnly _ (fun y _ => y.setNbrs_linksOnly _ _ _) _ _)

/-! ### The new node (R101, R104) -/

/-- The index y is x with node n of a name added, the last of its graph, and no vector of its delta segment moved. -/
def Index.nodeAdded (x y : Index) (n : Nat) (name : W64 × Nat) : Prop :=
  n = x.graph.nNodes ∧ y.graph.nNodes = x.graph.nNodes + 1 ∧ y.graph.nameOf n = some name ∧ y.nLive = x.nLive + 1 ∧ y.view = x.view ∧ y.delta = x.delta ∧
    y.kind = x.kind

/-- The generation of the group that the next node of a graph joins. -/
def Index.nextGen (x : Index) : Nat := (tfind (x.graph.nNodes / 64) x.graph.groups).elim x.targetGen (·.gen)
/-- The node that a delta entry becomes, seen from a view on, without edges (R101). -/
def Index.nextNode (x : Index) (view : Nat) (e : DeltaEntry) : Node :=
  let xs := formF32 e.vec
  let (r, nv) := x.refineFor xs
  { id := e.id, view := view, upper := if nodeLevel e.id = 0 then 0xFFFFFFFF else x.graph.nUppers, level := nodeLevel e.id, nbrs := [],
    sketch := (signSketch xs).take 1024, code := if x.metric == .ham then [] else pqEncode (x.book x.nextGen) xs, attrs := e.attrs, refine := r, norm := nv }
/-- The index with a node numbered next in its graph, without edges (R101). -/
def Index.withNode (x : Index) (base lvl : Nat) (node : Node) : Index :=
  let g := x.graph
  let q := g.nNodes / 64
  let groups := tmod ({ gen := x.nextGen, curBase := base } : Group) q
    (fun k => { k with nodes := tset (g.nNodes % 64) node k.nodes, nNodes := g.nNodes % 64 + 1 }) g.groups
  let uppers := (List.range lvl).foldl (fun t l => tset (g.nUppers + l) (g.nNodes, l + 1, []) t) g.uppers
  { x with nCells := if (tfind q g.groups).isSome then x.nCells else x.nCells + 1,
           graph := { g with groups := groups, uppers := uppers, nNodes := g.nNodes + 1, nUppers := g.nUppers + lvl } }
/-- The index with the next node linked on its levels (R104). -/
def Index.linkNode (x : Index) (base view : Nat) (e : DeltaEntry) : Index :=
  let g := x.graph
  let n := g.nNodes
  let lvl := nodeLevel e.id
  let xs := formF32 e.vec
  let sk := (signSketch xs).take 1024
  let x1 := x.withNode base lvl (x.nextNode view e)
  let fuel := n + 1
  if g.entry = 0xFFFFFFFF then x1
  else
    let w := g.viewAll
    let fin := fun m => (g.node? m).bind fun u => x.walkKey xs sk ((tfind (m / 64) g.groups).elim 0 (·.gen)) u
    let start := descend w sk fuel 1 g.top g.entry
    let beam := (runWalk w 0 128 512 16 sk fin start).beam.map (·.node)
    let s0 := if x.metric == .ham then x1.graph.sketchPair else x1.buildKey n xs
    let x2 := x1.link s0 0 n beam
    ((List.range (min lvl g.top)).reverse.map (· + 1)).foldl (fun x l =>
      let st := descend w sk fuel (l + 1) g.top g.entry
      let fl := fun m => (g.node? m).map (sketchKey sk)
      let b := (runWalk w l 32 512 32 sk fl st).beam.map (·.node)
      x.link x.graph.sketchPair l n b) x2
/-- The index y with node n, of a level, entered from now on where `up` says so, and one vector more (R100, R104). -/
def Index.entered (y : Index) (n lvl : Nat) (up : Bool) : Index :=
  let x3 := if up then { y with graph := { y.graph with entry := n, top := lvl } } else y
  { x3 with nLive := x3.nLive + 1 }
/-- The index with a delta entry placed as its graph's next node. -/
def Index.nodePlaced (x : Index) (base view : Nat) (e : DeltaEntry) : Index :=
  (x.linkNode base view e).entered x.graph.nNodes (nodeLevel e.id) (x.graph.entry = 0xFFFFFFFF || x.graph.top < nodeLevel e.id)

theorem Index.nameOf_withNode (x : Index) (base lvl : Nat) (node : Node) :
    (x.withNode base lvl node).graph.nameOf x.graph.nNodes = some (node.id, node.view) := by
  simp [Graph.nameOf, Graph.node?, Index.withNode, tmod]

theorem Index.linkNode_linksOnly (x : Index) (base view : Nat) (e : DeltaEntry) :
    (x.withNode base (nodeLevel e.id) (x.nextNode view e)).linksOnly (x.linkNode base view e) := by
  unfold Index.linkNode
  extract_lets
  split
  · exact Index.linksOnly_refl _
  · exact Index.linksOnly_trans (Index.link_linksOnly _ _ _ _ _) (Index.foldl_linksOnly _ (fun y l => y.link_linksOnly _ _ _ _) _ _)

/-- A node added and linked, whether or not the graph is entered there from now on. -/
theorem Index.entered_added {x y : Index} {base lvl : Nat} {node : Node} (h : (x.withNode base lvl node).linksOnly y) (up : Bool) :
    x.nodeAdded (y.entered x.graph.nNodes lvl up) x.graph.nNodes (node.id, node.view) := by
  obtain ⟨honly, hnames⟩ := h
  have hname := (hnames x.graph.nNodes).trans (x.nameOf_withNode base lvl node)
  have hadded : y.graph.nNodes = x.graph.nNodes + 1 ∧ y.nLive = x.nLive ∧ y.view = x.view ∧ y.delta = x.delta ∧ y.kind = x.kind := by
    rw [honly]
    exact ⟨rfl, rfl, rfl, rfl, rfl⟩
  obtain ⟨hnodes, hlive, hview, hdelta, hkind⟩ := hadded
  cases up <;> exact ⟨rfl, hnodes, hname, congrArg (· + 1) hlive, hview, hdelta, hkind⟩

theorem Index.nodePlaced_added (x : Index) (base view : Nat) (e : DeltaEntry) :
    x.nodeAdded (x.nodePlaced base view e) x.graph.nNodes (e.id, view) := Index.entered_added (x.linkNode_linksOnly base view e) _

/-- The extent that the group of an index's next node has or takes (R104, R116). -/
def Device.nodeRoom (d : Device) (x : Index) : Option (Nat × Device) :=
  if (tfind (x.graph.nNodes / 64) x.graph.groups).isSome then some (0, d) else d.takeL (some x.burgee) 28672

theorem Device.nodeRoom_bytesTo {d e : Device} {x : Index} {base : Nat} (h : d.nodeRoom x = some (base, e)) : d.bytesTo e := by
  unfold Device.nodeRoom at h
  split at h
  · obtain ⟨-, rfl⟩ := Prod.mk.inj (Option.some.inj h)
    exact d.bytesTo_refl
  · unfold Device.takeL at h
    split at h
    · obtain ⟨-, rfl⟩ := Prod.mk.inj (Option.some.inj h)
      rfl
    · cases h

/-- A delta entry is placed where a node number and the structures' places are left (R104, R116). -/
theorem Device.placeNode_eq {d : Device} {i view : Nat} {x : Index} {v : DeltaEntry} (hx : tfind i d.indexes = some x) : d.placeNode i view v =
    if 0xFFFFFFFE < x.graph.nNodes || x.maxGroups ≤ x.graph.nNodes / 64 || x.maxUppers < x.graph.nUppers + nodeLevel v.id then none
    else match d.nodeRoom x with
      | none => none
      | some (base, d0) => some (x.graph.nNodes, d0.modIndex i fun _ => x.nodePlaced base view v) := by
  unfold Device.placeNode
  rw [hx]
  rfl

/-- A delta entry placed as a node is the next node of the graph, under the entry's ID (R104). -/
theorem Device.placeNode_added {d e : Device} {i view n : Nat} {x : Index} {v : DeltaEntry} (hx : tfind i d.indexes = some x)
    (h : d.placeNode i view v = some (n, e)) : ∃ y, d.indexTo e i y ∧ x.nodeAdded y n (v.id, view) := by
  rw [Device.placeNode_eq hx] at h
  split at h
  · cases h
  · split at h
    · cases h
    · next base d0 hroom =>
      obtain ⟨rfl, rfl⟩ := Prod.mk.inj (Option.some.inj h)
      exact ⟨_, Device.indexTo_mod (Device.indexTo_of_bytesTo hx (Device.nodeRoom_bytesTo hroom)) fun _ => x.nodePlaced base view v,
        x.nodePlaced_added base view v⟩

/-! ### Groups under rewrite (R110) -/

/-- The index y has the nodes and the delta segment that x has. -/
def Index.nodesSame (x y : Index) : Prop :=
  y.graph.nNodes = x.graph.nNodes ∧ (∀ m, y.graph.node? m = x.graph.node? m) ∧ y.nLive = x.nLive ∧ y.view = x.view ∧ y.delta = x.delta ∧ y.kind = x.kind

theorem Index.nodesSame_refl (x : Index) : x.nodesSame x := ⟨rfl, fun _ => rfl, rfl, rfl, rfl, rfl⟩

theorem Index.nodesSame_trans {x y z : Index} (h : x.nodesSame y) (k : y.nodesSame z) : x.nodesSame z := by
  obtain ⟨hcount, hnodes, hlive, hview, hdelta, hkind⟩ := h
  obtain ⟨kcount, knodes, klive, kview, kdelta, kkind⟩ := k
  exact ⟨kcount.trans hcount, fun m => (knodes m).trans (hnodes m), klive.trans hlive, kview.trans hview, kdelta.trans hdelta, kkind.trans hkind⟩

/-- The index with a group replaced. -/
def Index.withGroup (x : Index) (q : Nat) (k : Group) : Index := { x with graph := { x.graph with groups := tset q k x.graph.groups } }

/-- A group replaced by one with its nodes. -/
theorem Index.withGroup_nodesSame {x : Index} {q : Nat} {g k : Group} (hg : tfind q x.graph.groups = some g) (hk : k.nodes = g.nodes) :
    x.nodesSame (x.withGroup q k) := by
  refine ⟨rfl, fun m => ?_, rfl, rfl, rfl, rfl⟩
  unfold Graph.node? Index.withGroup
  dsimp only
  by_cases hm : m / 64 = q
  · rw [hm, tfind_tset_same, hg, Option.bind_some, Option.bind_some, hk]
  · rw [tfind_tset_other _ _ _ _ hm]

/-- The space of a rewrite given back changes of the index how much it has reserved or in use. -/
theorem Device.dropCopy_indexTo {d : Device} {i : Nat} {y : Index} (hy : tfind i d.indexes = some y) (r : Option Rewrite) :
    ∃ z, d.indexTo (d.dropCopy i r) i z ∧ y.nodesSame z := by
  unfold Device.dropCopy
  cases r with
  | none => exact ⟨y, Device.indexTo_of_bytesTo hy d.bytesTo_refl, y.nodesSame_refl⟩
  | some r =>
    have hfreed : d.bytesTo { d with tiers := { d.tiers with extL := d.tiers.extL.filter (·.base != r.base) } } := rfl
    refine ⟨_, Device.indexTo_mod (Device.indexTo_of_bytesTo hy hfreed) _, ?_⟩
    split <;> exact y.nodesSame_refl

/-- A rewrite of a group abandoned leaves its nodes (R110). -/
theorem Device.abandonRewrite_merges {d : Device} {i : Nat} {x : Index} (q : Nat) (hx : tfind i d.indexes = some x) (hkind : x.kind = .graph) :
    ∃ y, d.mergesTo (d.abandonRewrite i q false) i y ∧ x.nodesSame y := by
  have hgraph : (x.kind == IndexKind.graph) = true := by simp [hkind]
  have hcount : d.mergesTo { d with devCnt := { d.devCnt with rewritesAbandoned := d.devCnt.rewritesAbandoned + 1 } } i x :=
    ⟨hx, fun _ _ => rfl, rfl⟩
  simp only [Device.abandonRewrite, hx, hgraph, if_true, Bool.false_eq_true, if_false, Nat.le_zero, OfNat.ofNat_ne_zero, decide_false, Bool.false_and,
    Bool.or_false]
  split
  · exact ⟨x, ⟨hx, fun _ _ => rfl, rfl⟩, x.nodesSame_refl⟩
  · next g hg =>
    have hgroup := Device.mergesTo_index hcount (Device.indexTo_modIndex hcount.1
      (Index.withGroup · q { g with rewrite := none, state := 1, retryAt := some (d.now + 10000000), skews := 0 }))
    obtain ⟨z, hdropped, hsame⟩ := Device.dropCopy_indexTo hgroup.1 g.rewrite
    refine ⟨z, Device.mergesTo_bytes (Device.mergesTo_index hgroup hdropped) (Device.unitActive_bytesTo _ _ _),
      Index.nodesSame_trans (Index.withGroup_nodesSame hg ?_) hsame⟩
    rfl

/-- A change to a group under rewrite joins its catch-up list, or ends the rewrite (R110). -/
theorem Device.catchUp_merges {d : Device} {i : Nat} {x : Index} (q : Nat) (r : CatchUp) (hx : tfind i d.indexes = some x) (hkind : x.kind = .graph) :
    ∃ y, d.mergesTo (d.catchUp i q r) i y ∧ x.nodesSame y := by
  have hgraph : (x.kind == IndexKind.graph) = true := by simp [hkind]
  have hkept : d.mergesTo d i x := ⟨hx, fun _ _ => rfl, rfl⟩
  simp only [Device.catchUp, hx, hgraph, if_true]
  split
  · exact ⟨x, hkept, x.nodesSame_refl⟩
  · split
    · exact Device.abandonRewrite_merges q hx hkind
    · refine ⟨_, Device.mergesTo_of_indexTo (Device.indexTo_modIndex hx _), ?_⟩
      unfold Index.modGroup
      split
      · next g hg => exact Index.withGroup_nodesSame hg rfl
      · exact x.nodesSame_refl

/-- The edges of a new node join the catch-up lists of the groups they touch (R110). -/
theorem Device.catchEdges_merges {d : Device} {i : Nat} {x : Index} (n : Nat) (hx : tfind i d.indexes = some x) (hkind : x.kind = .graph) :
    ∃ y, d.mergesTo (d.catchEdges i n) i y ∧ x.nodesSame y := by
  have hedges : ∀ (ns : List Nat) (e : Device) (y : Index), d.mergesTo e i y → x.nodesSame y →
      ∃ z, d.mergesTo (ns.foldl (fun d m => d.catchUp i (m / 64) (.edge m n)) e) i z ∧ x.nodesSame z := by
    intro ns
    induction ns with
    | nil => exact fun e y he hy => ⟨y, he, hy⟩
    | cons m ns ih =>
      intro e y he hy
      obtain ⟨-, -, -, -, -, hkind'⟩ := id hy
      obtain ⟨z, hcaught, hsame⟩ := Device.catchUp_merges (m / 64) (.edge m n) he.1 (hkind'.trans hkind)
      exact ih _ z (Device.mergesTo_trans he hcaught) (Index.nodesSame_trans hy hsame)
  have hkept : d.mergesTo d i x := ⟨hx, fun _ _ => rfl, rfl⟩
  unfold Device.catchEdges
  split
  · exact hedges _ d x hkept x.nodesSame_refl
  · exact ⟨x, hkept, x.nodesSame_refl⟩

/-! ### What a placed node writes (R100, R101, R104) -/

theorem Device.syncNodes_bytesTo (d : Device) (i q : Nat) : d.bytesTo (d.syncNodes i q) := by
  unfold Device.syncNodes
  split
  · exact d.bytesTo_refl
  · exact Device.bytesTo_trans (Device.foldl_bytesTo _ (fun e k => e.putNode_bytesTo _ _ _) _ d) (Device.putRefine_bytesTo _ _ _ _)

theorem Device.syncPlaced_bytesTo (d : Device) (i n : Nat) : d.bytesTo (d.syncPlaced i n) := by
  have hnew : d.bytesTo (if n % 64 = 0 then d.syncNodes i (n / 64) else d) := by
    split
    · exact d.syncNodes_bytesTo i _
    · exact d.bytesTo_refl
  unfold Device.syncPlaced
  split
  · exact d.bytesTo_refl
  · split
    · exact d.bytesTo_refl
    · extract_lets
      refine Device.bytesTo_trans (Device.bytesTo_trans (Device.bytesTo_trans ?_ (Device.foldl_bytesTo _ (fun e m => e.syncNode_bytesTo i m) _ _))
        (Device.foldl_bytesTo _ (fun e b => e.syncUpper_bytesTo i b) _ _)) (Device.syncGroup_bytesTo _ _ _)
      exact hnew

theorem Device.syncEntry_bytesTo (d : Device) (i n : Nat) : d.bytesTo (d.syncEntry i n) := by
  unfold Device.syncEntry
  split
  · exact Device.bytesTo_trans (d.syncNode_bytesTo i n) (Device.foldl_bytesTo _ (fun e _ => e.syncUpper_bytesTo i _) _ _)
  · exact d.bytesTo_refl

/-! ### A pass that adds a node (R104) -/

/-- What a delta entry that becomes a node moves, but for what the rings and the ID map move with it (R251). -/
theorem Device.nodeMerged_told {d : Device} {i ei n view : Nat} {x : Index} {v : DeltaEntry} (hx : tfind i d.indexes = some x) (hkind : x.kind = .graph)
    (hn : (x.graph.node? n).isSome = true) (hv : tfind ei x.delta = some v) : ∃ e y, x.nodesSame y ∧
      d.mergesTo e i ((y.idMoved v.id (.node n)).withEntry ei (v.merged view n 0xFFFFFFFF)) ∧
      d.nodeMerged i view n ei = e.errorIf v.reported 0x5002 v i n := by
  obtain ⟨k, hk⟩ := Option.isSome_iff_exists.1 hn
  have hcharged : ∀ (as : Nat → Nat) (b : Nat), d.asks (((List.range k.level).foldl (fun (d : Device) l =>
      d.chargeAt x.upkeep (x.graphAuxBase + 448 * (k.upper + l)) 448 true) (k.nbrs.foldl (fun (d : Device) m =>
        (d.chargeNma x.upkeep 1).chargeAt x.upkeep (as m + 32) 128 true) ((d.chargeMerged x ei).chargeAt x.upkeep b 448 true))).chargeNma x.upkeep 1) := by
    intro as b
    refine Device.asks_chargeNma (Device.asks_trans (Device.asks_trans (Device.asks_chargeAt (d.chargeMerged_asks x ei) _ _ _)
      (Device.foldl_asks _ (fun e m => ?_) _ _)) (Device.foldl_asks _ (fun e l => e.chargeAt_asks x _ _ _) _ _)) 1
    exact Device.asks_chargeAt (e.chargeNma_asks x 1) _ _ _
  have hasked := Device.mergesTo_of_indexTo (Device.indexTo_of_bytesTo hx (Device.bytesTo_of_asks (hcharged
    (fun m => (tfind (m / 64) x.graph.groups).elim 0 (·.curBase) + 448 * (m % 64)) ((tfind (n / 64) x.graph.groups).elim 0 (·.curBase) + 448 * (n % 64)))))
  obtain ⟨y, hcaught, hsame⟩ := Device.catchEdges_merges n hasked.1 hkind
  have hplaced := Device.mergesTo_bytes (Device.mergesTo_trans hasked hcaught) (Device.syncPlaced_bytesTo _ i n)
  obtain ⟨-, -, -, -, hdelta, -⟩ := id hsame
  obtain ⟨e, hmerged, htold⟩ := Device.entryMerged_told hplaced.1 (hdelta ▸ hv) view n 0xFFFFFFFF (.node n)
  refine ⟨e, y, hsame, Device.mergesTo_index hplaced hmerged, ?_⟩
  rw [← htold]
  simp only [Device.nodeMerged, hx, hk]

/-- One entry is placed unless its group is under rewrite (R104, R110). -/
theorem Device.placeAll_single {d d' : Device} {i ei m view : Nat} {x : Index} {v : DeltaEntry} (hx : tfind i d.indexes = some x)
    (hsteady : ∀ g, tfind (x.graph.nNodes / 64) x.graph.groups = some g → g.state ≠ 2) (hplace : d.placeNode i view v = some (m, d')) :
    Device.placeAll i view [(ei, v)] d = d'.nodeMerged i view m ei := by
  have hgo : ¬ ((tfind i d.indexes).any fun x => (tfind (x.graph.nNodes / 64) x.graph.groups).any fun g => g.state == 2) = true := by
    rw [hx, Option.any_some]
    cases hg : tfind (x.graph.nNodes / 64) x.graph.groups with
    | none => simp
    | some g => simpa using hsteady g hg
  rw [Device.placeAll, if_neg hgo, hplace]
  rfl

/-- A pass that has added a node publishes, the replaced entry node's flag cleared (R100, R104). -/
theorem Device.graphPass_published {d e : Device} {i ei : Nat} {x w : Index} {v : DeltaEntry} (hx : tfind i d.indexes = some x)
    (hmay : d.mayAdvance i = true) (hall : Device.placeAll i (nextView x.view) [(ei, v)] d = e) (hw : tfind i e.indexes = some w)
    (hcount : w.graph.nNodes ≠ x.graph.nNodes) :
    d.graphPass i [(ei, v)] = (if w.graph.entry = x.graph.entry then e else e.syncEntry i x.graph.entry).advanceView i := by
  unfold Device.graphPass
  rw [hx]
  dsimp only
  rw [if_neg (by simp), if_neg (by simp [hmay]), hall, hw]
  dsimp only
  rw [if_neg hcount]

/-- A pass whose entry becomes a node (R104, R106). -/
theorem mergePassEff_node {d d' : Device} {i ei m : Nat} {x : Index} {v : DeltaEntry} (h : d.Mergeable i ei x v) (hkind : x.kind = .graph)
    (hmay : d.mayAdvance i = true) (hsteady : ∀ g, tfind (x.graph.nNodes / 64) x.graph.groups = some g → g.state ≠ 2)
    (hplace : d.placeNode i (nextView x.view) v = some (m, d')) :
    ∃ y z, x.nodeAdded z m (v.id, nextView x.view) ∧ z.nodesSame y ∧
      d.indexToTelling (mergePassEff i [] d) i
        { (y.idMoved v.id (.node m)).withEntry ei (v.merged (nextView x.view) m 0xFFFFFFFF) with view := nextView x.view } ∧
      (v.reported = false → (mergePassEff i [] d).fns = d.fns ∧ (mergePassEff i [] d).out = d.out) := by
  obtain ⟨z, hadded, hz⟩ := Device.placeNode_added h.table hplace
  obtain ⟨hnum, hcount, hname, hlive, hview, hdelta, hkind'⟩ := id hz
  have hnode : (z.graph.node? m).isSome = true := by
    cases hnone : z.graph.node? m with
    | none => simp [Graph.nameOf, hnone] at hname
    | some k => rfl
  obtain ⟨e, y, hsame, hmerged, htold⟩ := Device.nodeMerged_told (view := nextView x.view) hadded.1 (hkind'.trans hkind) hnode (hdelta ▸ h.entry)
  obtain ⟨ycount, -, -, yview, -, -⟩ := id hsame
  have hall := (Device.placeAll_single (ei := ei) h.table hsteady hplace).trans htold
  have htable := (congrArg (tfind i) (e.indexes_errorIf v.reported 0x5002 v i m)).trans hmerged.1
  have hgrown : ((y.idMoved v.id (.node m)).withEntry ei (v.merged (nextView x.view) m 0xFFFFFFFF)).graph.nNodes ≠ x.graph.nNodes := by
    rw [Index.idMoved_only]
    change y.graph.nNodes ≠ x.graph.nNodes
    omega
  have hpass := (mergePassEff_graph h hkind).trans (Device.graphPass_published h.table hmay hall htable hgrown)
  have hseen : ((y.idMoved v.id (.node m)).withEntry ei (v.merged (nextView x.view) m 0xFFFFFFFF)).view = x.view := by
    rw [Index.idMoved_only]
    exact yview.trans hview
  have hentry : (e.errorIf v.reported 0x5002 v i m).bytesTo (if ((y.idMoved v.id (.node m)).withEntry ei
      (v.merged (nextView x.view) m 0xFFFFFFFF)).graph.entry = x.graph.entry then e.errorIf v.reported 0x5002 v i m
      else (e.errorIf v.reported 0x5002 v i m).syncEntry i x.graph.entry) := by
    split
    · exact Device.bytesTo_refl _
    · exact Device.syncEntry_bytesTo _ _ _
  have hwritten := Device.indexTo_of_bytesTo htable hentry
  have hpublished := Device.indexTo_trans hwritten (Device.advanceView_indexTo hwritten.1)
  rw [hseen] at hpublished
  obtain ⟨hindex, hquiet, -⟩ := Device.mergesTo_errorIf (Device.mergesTo_trans (Device.mergesTo_of_indexTo hadded) hmerged)
    (Device.mergesTo_of_indexTo hpublished)
  rw [hpass]
  exact ⟨y, z, hz, hsame, hindex, hquiet⟩

end Sys2Proof.Machine
end

section
/-! The statement about merge passes: what each kind of pass makes of the index, and what it records. -/

namespace Sys2Proof.Machine

/-- A pass leaves the membership of its device alone, and so ships nothing of an index that is placed here (R474). -/
theorem Device.shipRefine_local {d e : Device} {i : Nat} {y : Index} (hlocal : d.shoalIndex? i = none) (h : d.indexToTelling e i y)
    (es : List (Nat × DeltaEntry)) : e.shipRefine i es = e := by
  obtain ⟨-, -, honly⟩ := h
  have hnone : e.shoalIndex? i = none := by
    rw [honly]
    exact hlocal
  unfold Device.shipRefine
  rw [hnone]
  cases e.index? i <;> rfl

/-- MERGE_PASS of an index placed here gives what its pass makes of the device. -/
theorem gives_mergePass {s : State} {e : Device} {i : Nat} {y : Index} {lost : List Nat} {P : Device → Prop} (hlocal : s.dev.shoalIndex? i = none)
    (hpass : mergePassEff i lost s.dev = e) (hindex : s.dev.indexToTelling e i y) (hP : P e) : gives (.mergePass i lost) s P := by
  have hrouted : s.dev.routed i = false := by
    unfold Device.routed
    rw [hlocal]
    rfl
  have hstep : mergePassStep i lost s.dev = e := by
    unfold mergePassStep
    rw [hrouted, hpass, Device.shipRefine_local hlocal hindex]
    rfl
  refine gives_of_onDev (F := mergePassStep i lost) rfl ?_
  rw [hstep]
  exact hP

/-- What becomes of an index without any record becomes of it with records allowed. -/
theorem Device.indexToTelling_of_indexTo {d e : Device} {i : Nat} {y : Index} (h : d.indexTo e i y) : d.indexToTelling e i y := by
  obtain ⟨hfound, hother, honly⟩ := h
  refine ⟨hfound, hother, ?_⟩
  rw [honly]

/-- What a merge into slot t of cell n leaves of the cell, and of every other (R96). -/
theorem Device.mergedIndex_cells (d : Device) (x : Index) (n t ei : Nat) (v : DeltaEntry) : let c := (d.mergedIndex x n t ei v).cell n
    tfind t c.cur.slots = some (x.slotOf n v) ∧ t ∉ c.cur.tombs ∧ c.nLive = (x.cell n).nLive + 1 ∧ c.mergeView = nextView x.view ∧
      c.nSlots = max (x.cell n).nSlots (t + 1) ∧ (∀ k, k ≠ t → tfind k c.cur.slots = tfind k (x.cell n).cur.slots) ∧
      ∀ m, m ≠ n → tfind m (d.mergedIndex x n t ei v).cells = tfind m x.cells := by
  have hcell : (d.mergedIndex x n t ei v).cell n = (x.cell n).batched (t / 64) (nextView x.view) [(ei, t, x.slotOf n v)]
      (d.summaryAfter x n (x.cell n).summary [(x.slotOf n v).attrs]) := by
    rw [Device.mergedIndex_only]
    exact d.cell_batchedIndex_same x n (t / 64) [(ei, t, x.slotOf n v)]
  dsimp only
  rw [hcell]
  refine ⟨tfind_tset_same _ _ _, by simp [Cell.batched], rfl, rfl, rfl, fun k hk => tfind_tset_other _ _ _ _ hk, fun m hm => ?_⟩
  rw [Device.mergedIndex_only]
  exact tfind_tset_other _ _ _ _ hm

/-- MERGE_PASS of an entry whose cell has a slot (R96). -/
theorem gives_mergePass_slotted {s : State} {i ei n b p : Nat} {x : Index} {v : DeltaEntry} (h : s.dev.Mergeable i ei x v) (hkind : x.kind ≠ .graph)
    (hmay : s.dev.mayAdvance i = true) (hcell : x.targetCell (formF32 v.vec) = some n) (hstate : (x.cell n).state ≠ 2)
    (hroom : (x.cell n).nextSlot < 64 * (x.cell n).cur.capBlocks)
    (hseen : s.dev.released i (tget ({} : BlockHead) ((x.cell n).nextSlot / 64) (x.cell n).cur.blocks).freshView = true)
    (hfound : x.lookup v.id = some (b, p, .delta ei)) (hn : n < 2 ^ 26) (ht : (x.cell n).nextSlot < 2 ^ 20) :
    gives (.mergePass i []) s fun e => ∃ y, s.dev.indexToTelling e i y ∧ (v.reported = false → e.fns = s.dev.fns ∧ e.out = s.dev.out) ∧
      tfind (x.cell n).nextSlot (y.cell n).cur.slots = some (x.slotOf n v) ∧ (x.cell n).nextSlot ∉ (y.cell n).cur.tombs ∧
      (y.cell n).nLive = (x.cell n).nLive + 1 ∧ (y.cell n).mergeView = nextView x.view ∧
      (y.cell n).nSlots = max (x.cell n).nSlots ((x.cell n).nextSlot + 1) ∧
      (∀ k, k ≠ (x.cell n).nextSlot → tfind k (y.cell n).cur.slots = tfind k (x.cell n).cur.slots) ∧
      (∀ m, m ≠ n → tfind m y.cells = tfind m x.cells) ∧
      tfind ei y.delta = some { v with endView := nextView x.view, state := 4, target := n, slot := (x.cell n).nextSlot, failed := false } ∧
      (∀ j, j ≠ ei → tfind j y.delta = tfind j x.delta) ∧ (y.lookup v.id).map (·.2.2) = some (.slot n (x.cell n).nextSlot) ∧
      y = { x with cells := y.cells, delta := y.delta, idMap := y.idMap, nLive := x.nLive + 1, view := nextView x.view } ∧
      (v.reported = true → s.dev.logged e 0x5002 v i n) := by
  obtain ⟨hindex, hquiet, hlogged⟩ := mergePassEff_slotted h hkind hmay hcell hstate hroom hseen
  refine gives_mergePass h.local_ rfl hindex ?_
  obtain ⟨hslot, htomb, hlive, hview, hslots, hothers, hcells⟩ := s.dev.mergedIndex_cells x n (x.cell n).nextSlot ei v
  have honly := s.dev.mergedIndex_only x n (x.cell n).nextSlot ei v
  have hdelta : (s.dev.mergedIndex x n (x.cell n).nextSlot ei v).delta = tset ei (v.merged (nextView x.view) n (x.cell n).nextSlot) x.delta := by
    rw [honly]
  refine ⟨_, hindex, hquiet, hslot, htomb, hlive, hview, hslots, hothers, hcells, ?_, fun j hj => ?_,
    s.dev.lookup_mergedIndex h.near h.entry (by rw [hfound]; rfl) hn ht, ?_, hlogged⟩
  · rw [hdelta]
    exact tfind_tset_same _ _ _
  · rw [hdelta]
    exact tfind_tset_other _ _ _ _ hj
  · rw [honly]
    rfl

/-- MERGE_PASS of an entry into a graph (R104). -/
theorem gives_mergePass_node {s : State} {d' : Device} {i ei m : Nat} {x : Index} {v : DeltaEntry} (h : s.dev.Mergeable i ei x v) (hkind : x.kind = .graph)
    (hmay : s.dev.mayAdvance i = true) (hsteady : ∀ g, tfind (x.graph.nNodes / 64) x.graph.groups = some g → g.state ≠ 2)
    (hplace : s.dev.placeNode i (nextView x.view) v = some (m, d')) :
    gives (.mergePass i []) s fun e => ∃ y, s.dev.indexToTelling e i y ∧ (v.reported = false → e.fns = s.dev.fns ∧ e.out = s.dev.out) ∧
      m = x.graph.nNodes ∧ y.graph.nNodes = x.graph.nNodes + 1 ∧ (y.graph.node? m).map (·.id) = some v.id ∧
      (y.graph.node? m).map (·.view) = some (nextView x.view) ∧ y.nLive = x.nLive + 1 ∧ y.view = nextView x.view ∧
      (∀ j, j ≠ ei → tfind j y.delta = tfind j x.delta) ∧
      tfind ei y.delta = some { v with endView := nextView x.view, state := 4, target := m, slot := 0xFFFFFFFF, failed := false } := by
  obtain ⟨y, z, hz, hsame, hindex, hquiet⟩ := mergePassEff_node h hkind hmay hsteady hplace
  obtain ⟨hnum, hcount, hname, hlive, -, hdelta, -⟩ := hz
  obtain ⟨ycount, ynodes, ylive, -, ydelta, -⟩ := hsame
  rw [Index.idMoved_only] at hindex
  refine gives_mergePass h.local_ rfl hindex ?_
  have hnode : (y.graph.node? m).map (fun k => (k.id, k.view)) = some (v.id, nextView x.view) := by
    rw [ynodes]
    exact hname
  obtain ⟨k, hk, hpair⟩ := Option.map_eq_some_iff.1 hnode
  obtain ⟨hid, hview⟩ := Prod.mk.inj hpair
  refine ⟨_, hindex, hquiet, hnum, ycount.trans hcount, ?_, ?_, ylive.trans hlive, rfl, fun j hj => ?_, tfind_tset_same _ _ _⟩
  · exact Option.map_eq_some_iff.2 ⟨k, hk, hid⟩
  · exact Option.map_eq_some_iff.2 ⟨k, hk, hview⟩
  · exact (tfind_tset_other _ _ _ _ hj).trans (congrArg (tfind j) (ydelta.trans hdelta))

/-- MERGE_PASS of an entry that finds no cell (R98, R398). -/
theorem gives_mergePass_failed {s : State} {i ei : Nat} {x : Index} {v : DeltaEntry} (h : s.dev.Mergeable i ei x v) (hkind : x.kind ≠ .graph)
    (hcell : x.targetCell (formF32 v.vec) = none) :
    gives (.mergePass i []) s fun e => ∃ y, s.dev.indexToTelling e i y ∧ tfind ei y.delta = some { v with failed := true, reported := true } ∧
      (∀ j, j ≠ ei → tfind j y.delta = tfind j x.delta) ∧ y = { x with delta := y.delta } ∧
      (v.reported = true → e.fns = s.dev.fns ∧ e.out = s.dev.out) ∧ (v.reported = false → s.dev.logged e 0x5001 v i 0xFFFFFFFF) := by
  obtain ⟨e, hfailed, hpass⟩ := mergePassEff_failed h hkind hcell
  obtain ⟨hindex, hquiet, hlogged⟩ := Device.told_errorIf (!v.reported) 0x5001 0xFFFFFFFF v hfailed
  refine gives_mergePass h.local_ hpass hindex ?_
  exact ⟨_, hindex, tfind_tset_same _ _ _, fun j hj => tfind_tset_other _ _ _ _ hj, rfl, fun hr => hquiet (by simp [hr]),
    fun hr => hlogged (by simp [hr])⟩

/-- MERGE_PASS of an entry whose cell has no slot left begins its relocation (R97). -/
theorem gives_mergePass_relocates {s : State} {f : Device} {i ei n base : Nat} {x : Index} {v : DeltaEntry} (h : s.dev.Mergeable i ei x v)
    (hkind : x.kind ≠ .graph) (hcell : x.targetCell (formF32 v.vec) = some n) (hstate : (x.cell n).state = 1)
    (hfull : 64 * (x.cell n).cur.capBlocks ≤ (x.cell n).nextSlot) (hspace : x.extentBytes (grownCap (x.cell n).cur.capBlocks) ≤ s.dev.lFree)
    (htake : s.dev.takeL (some x.burgee) (x.extentBytes (grownCap (x.cell n).cur.capBlocks)) = some (base, f)) :
    gives (.mergePass i []) s fun e => ∃ y, s.dev.indexTo e i y ∧ (y.cell n).state = 2 ∧ y.delta = x.delta ∧ y.view = x.view ∧
      (y.cell n).rewrite = some ⟨false, grownCap (x.cell n).cur.capBlocks, base, x.extentBytes (grownCap (x.cell n).cur.capBlocks), false, []⟩ ∧
      e.tiers.extL = f.tiers.extL ∧ (y.cell n).cur = (x.cell n).cur ∧ ∀ m, m ≠ n → tfind m y.cells = tfind m x.cells := by
  obtain ⟨hindex, hspaces⟩ := Device.beginRelocation_begun h.table hstate hspace htake
  have hpass : mergePassEff i [] s.dev = s.dev.beginRelocation i n (grownCap (x.cell n).cur.capBlocks) := by
    rw [mergePassEff_placed h hkind, Device.placing_relocates hcell hstate hfull hspace]
    rfl
  have hself : (x.relocating n (grownCap (x.cell n).cur.capBlocks) base).cell n = { x.cell n with
      state := 2, rewrite := some ⟨false, grownCap (x.cell n).cur.capBlocks, base, x.extentBytes (grownCap (x.cell n).cur.capBlocks), false, []⟩ } :=
    x.cell_modCell_same n fun c => { c with
      state := 2, rewrite := some ⟨false, grownCap (x.cell n).cur.capBlocks, base, x.extentBytes (grownCap (x.cell n).cur.capBlocks), false, []⟩ }
  refine gives_mergePass h.local_ hpass (Device.indexToTelling_of_indexTo hindex) ?_
  refine ⟨_, hindex, ?_, rfl, rfl, ?_, hspaces, ?_, fun m hm => tfind_tset_other _ _ _ _ hm⟩ <;> rw [hself]

/-- MERGE_PASS with an entry that neither ring can give (R395). -/
theorem gives_mergePass_lost {s : State} {i ei b p : Nat} {x : Index} {v : DeltaEntry} (h : s.dev.Mergeable i ei x v) (hlive : v.state = 1)
    (hfound : x.lookup v.id = some (b, p, .delta ei)) (hdelta : x.delta = [(ei, v)]) :
    gives (.mergePass i [ei]) s fun e => ∃ y, s.dev.indexToTelling e i y ∧ tfind ei y.delta = some { v with state := 2, endView := x.view } ∧
      y.occupied = x.occupied - 1 ∧ idLoc (y.idEntry b p) = none ∧ y.cells = x.cells ∧ y.view = x.view ∧ s.dev.logged e 0x5003 v i 0xFFFFFFFF := by
  obtain ⟨e, hlost, htold⟩ := Device.entryLost_told h.table h.entry hlive hfound
  obtain ⟨hindex, -, hlogged⟩ := Device.told_errorIf true 0x5003 0xFFFFFFFF v hlost
  have hpresent : x.deletedAt.isNone = true := by
    have hx := h.found
    unfold Device.index? at hx
    rw [h.table] at hx
    by_contra hgone
    simp [hgone] at hx
  have hkept : (e.errorIf true 0x5003 v i 0xFFFFFFFF).index? i = some ((x.vacated b p).withEntry ei { v with state := 2, endView := x.view }) := by
    unfold Device.index?
    rw [Device.indexes_errorIf, hlost.1]
    exact if_pos hpresent
  have hended : ((x.vacated b p).withEntry ei { v with state := 2, endView := x.view }).liveEntries = [] :=
    liveEntries_ended (x := x.vacated b p) (v := v) hdelta (by simp)
  refine gives_mergePass h.local_ (mergePassEff_lost h htold hkept hended) hindex ?_
  refine ⟨_, hindex, tfind_tset_same _ _ _, rfl, ?_, rfl, rfl, hlogged rfl⟩
  have hword : ((x.vacated b p).withEntry ei { v with state := 2, endView := x.view }).idEntry b p = 1 := by
    simp [Index.idEntry, Index.withEntry, Index.vacated]
  rw [hword]
  rfl

/-- Settles O43, by the kind of pass. -/
theorem mergePassPlacesEntries : Obligations.MergePassPlacesEntries := by
  unfold Obligations.MergePassPlacesEntries
  intro s i ei x v d hr hq hx hlocal hv hlive haway n t quiet
  have h : s.dev.Mergeable i ei x v := ⟨hr, hq, hx, hlocal, hv, hlive, haway⟩
  refine ⟨fun b p hkind hmay hcell hstate hroom hseen hfound hn ht => gives_mergePass_slotted h hkind hmay hcell hstate hroom hseen hfound hn ht,
    fun m d' hkind hmay hsteady hplace => gives_mergePass_node h hkind hmay hsteady hplace, fun hkind hcell => gives_mergePass_failed h hkind hcell, ?_,
    fun b p hstate hfound hdelta => gives_mergePass_lost h hstate hfound hdelta⟩
  intro base f hkind hcell hstate hfull bytes hspace htake
  exact gives_mergePass_relocates h hkind hcell hstate hfull hspace htake

end Sys2Proof.Machine
end

section
/-! What messages over the links, requests withdrawn and contexts released change; and how a command leaves the device with its completion. -/

namespace Sys2Proof.Machine

/-! ### Messages sent (R345, R452 to R463) -/

theorem Device.fnsSent_refl (d : Device) : d.fnsSent d := fun _ => rfl

/-- Reports and charges of functions follow one another. -/
theorem Device.fnsSent_trans {d e f : Device} (h : d.fnsSent e) (k : e.fnsSent f) : d.fnsSent f := fun n => by
  rw [k n, h n]

theorem Device.sentTo_refl (d : Device) : d.sentTo d := ⟨rfl, d.fnsSent_refl, fun _ => rfl⟩

/-- Messages follow one another. -/
theorem Device.sentTo_trans {d e f : Device} (h : d.sentTo e) (k : e.sentTo f) : d.sentTo f := by
  obtain ⟨honly, hfns, hburgees⟩ := h
  obtain ⟨konly, kfns, kburgees⟩ := k
  refine ⟨?_, Device.fnsSent_trans hfns kfns, Device.burgeesMetered_trans hburgees kburgees⟩
  rw [konly, honly]
  rfl

theorem Device.foldl_sentTo {β : Type} (f : Device → β → Device) (h : ∀ (d : Device) x, d.sentTo (f d x)) (xs : List β) (d : Device) :
    d.sentTo (xs.foldl f d) := by
  induction xs generalizing d with
  | nil => exact d.sentTo_refl
  | cons x xs ih => exact Device.sentTo_trans (h d x) (ih (f d x))

/-- What reports only, a message may do. -/
theorem Device.sentTo_of_told {d e : Device} (h : e = d.told e ∧ d.fnsTold e) : d.sentTo e := by
  obtain ⟨honly, hfns⟩ := h
  refine ⟨?_, fun n => ?_, fun b => ?_⟩
  · rw [honly]; rfl
  · rw [hfns n]
  · rw [honly]; rfl

/-- What meters only, a message may do where the tiers stay. -/
theorem Device.sentTo_of_readsCharged {d e : Device} (h : d.readsCharged e) (ht : e.tiers = d.tiers) : d.sentTo e := by
  obtain ⟨honly, hfns, hburgees⟩ := h
  refine ⟨?_, fun n => ?_, hburgees⟩
  · rw [honly, ht]; rfl
  · rw [hfns n]

theorem Device.modLink_sentTo (d : Device) (l : Nat) (g : Link → Link) : d.sentTo (d.modLink l g) := ⟨rfl, d.fnsSent_refl, fun _ => rfl⟩

theorem Device.linkCount_sentTo (d : Device) (l c n : Nat) : d.sentTo (d.linkCount l c n) := d.modLink_sentTo l _

theorem Device.emit_sentTo (d : Device) (e : Emit) : d.sentTo (d.emit e) := ⟨rfl, d.fnsSent_refl, fun _ => rfl⟩

/-- A flit is charged to a burgee and its client, or to the device regulator (R251, R345). -/
theorem Device.charge_sentTo (d : Device) (own : Bool) (client : Option Nat) (b : Nat) (r : Metered) (p n : Nat) :
    d.sentTo (d.charge own client b r p n) := by
  cases own with
  | false => exact Device.sentTo_of_readsCharged (d.charge_metered client b r p n) (by simp)
  | true => exact ⟨rfl, d.fnsSent_refl, fun _ => rfl⟩

theorem Device.chargeFlit_sentTo (d : Device) (m : Msg) : d.sentTo (d.chargeFlit m) := by
  unfold Device.chargeFlit
  split
  · exact d.sentTo_refl
  · exact d.charge_sentTo _ _ _ _ _ _

theorem Device.sendFlit_sentTo (d : Device) (l : Nat) : d.sentTo (d.sendFlit l) := by
  unfold Device.sendFlit
  dsimp only
  split
  · exact d.sentTo_refl
  · split
    · exact d.sentTo_refl
    · exact Device.sentTo_trans (Device.sentTo_trans (Device.sentTo_trans (d.modLink_sentTo _ _) (Device.linkCount_sentTo _ _ _ _))
        (Device.chargeFlit_sentTo _ _)) (Device.emit_sentTo _ _)

theorem Device.pump_sentTo (d : Device) (l : Nat) : d.sentTo (d.pump l) := by
  refine Device.foldl_sentTo _ (fun d _ => ?_) _ d
  split
  · exact d.sendFlit_sentTo l
  · exact d.sentTo_refl

theorem Device.onLink_sentTo (d : Device) (l : Nat) (m : Msg) : d.sentTo (d.onLink l m) :=
  Device.sentTo_trans (d.modLink_sentTo _ _) (Device.pump_sentTo _ _)

/-- A message that cannot go on is counted and reported (R461, R462). -/
theorem Device.dropMsg_sentTo (d : Device) (m : Msg) (l : Nat) : d.sentTo (d.dropMsg m l) :=
  Device.sentTo_trans (d.linkCount_sentTo _ _ _) (Device.sentTo_of_told (Device.raise_told _ _))

theorem Device.overTrunk_sentTo (d : Device) (m : Msg) (ls : List Nat) : d.sentTo (d.overTrunk m ls) := by
  unfold Device.overTrunk
  split
  · exact d.onLink_sentTo _ _
  · exact d.dropMsg_sentTo _ _

/-- Whichever way a message takes, by its primary trunk, by the detour or dropped (R461, R462). -/
theorem Device.route_sentTo (d : Device) (m : Msg) : d.sentTo (d.route m) := by
  have hdetour : ∀ (m : Msg) (ls : List Nat) (l : Nat), d.sentTo ((d.overTrunk m ls).linkCount l 14 1) := fun m ls l =>
    Device.sentTo_trans (d.overTrunk_sentTo m ls) (Device.linkCount_sentTo _ _ _ _)
  unfold Device.route
  dsimp only
  split
  · split
    · exact d.overTrunk_sentTo _ _
    · split
      · exact d.dropMsg_sentTo _ _
      · exact d.overTrunk_sentTo _ _
  · split
    · split
      · exact d.overTrunk_sentTo _ _
      · split
        · exact hdetour _ _ _
        · exact d.dropMsg_sentTo _ _
    · split
      · split
        · exact hdetour _ _ _
        · exact d.overTrunk_sentTo _ _
      · exact hdetour _ _ _
      · exact d.dropMsg_sentTo _ _

theorem Device.send_sentTo (d : Device) (dst kind tag burgee : Nat) (resent : Bool) (bs : List Byte) :
    d.sentTo (d.send dst kind tag burgee resent bs) :=
  Device.sentTo_trans (d.emit_sentTo _) (Device.route_sentTo _ _)

/-- Withdrawing every request of a command forgets them and sends CANCELs (R358, R471). -/
theorem Device.cancelRemote_sentTo (d : Device) (c : Cmd) :
    ({ d with shoal := { d.shoal with pending := d.shoal.pending.filter (·.stamp != c.stamp) } } : Device).sentTo (d.cancelRemote c) :=
  Device.foldl_sentTo _ (fun _ _ => Device.send_sentTo _ _ _ _ _ _ _) _ _

/-- The device with a command's requests of some kinds withdrawn, before their CANCELs go out (R152, R358). -/
def Device.withdrawn (d : Device) (c : Cmd) (kinds : List Nat) : Device :=
  let mine := d.shoal.pending.filter fun o => o.stamp == c.stamp && kinds.contains o.kind
  let cut := fun (e : RrtEntry) => if (mine.map (·.tag)).contains e.tag then { e with state := .cancelled } else e
  { d with shoal := { d.shoal with pending := d.shoal.pending.filter fun o => !mine.contains o }, ctxs := d.ctxs.map fun k => { k with rrt := k.rrt.map cut } }

theorem Device.cancelKinds_sentTo (d : Device) (c : Cmd) (kinds : List Nat) : (d.withdrawn c kinds).sentTo (d.cancelKinds c kinds) :=
  Device.foldl_sentTo _ (fun _ _ => Device.send_sentTo _ _ _ _ _ _ _) _ _

/-! ### What lies between a command and its completion -/

/-- The ports, the clock, the indexes, and of every function its queue pairs and Bus Master Enable are as they were. -/
def Device.keepsQueues (d e : Device) : Prop :=
  e.ports = d.ports ∧ e.now = d.now ∧ e.indexes = d.indexes ∧ ∀ f, (e.fn f).qps = (d.fn f).qps ∧ (e.fn f).bme = (d.fn f).bme

theorem Device.keepsQueues_refl (d : Device) : d.keepsQueues d := ⟨rfl, rfl, rfl, fun _ => ⟨rfl, rfl⟩⟩

theorem Device.keepsQueues_trans {d e f : Device} (h : d.keepsQueues e) (k : e.keepsQueues f) : d.keepsQueues f := by
  obtain ⟨hports, hnow, hindexes, hfns⟩ := h
  obtain ⟨kports, know, kindexes, kfns⟩ := k
  exact ⟨kports.trans hports, know.trans hnow, kindexes.trans hindexes, fun n => ⟨(kfns n).1.trans (hfns n).1, (kfns n).2.trans (hfns n).2⟩⟩

theorem Device.foldl_keepsQueues {β : Type} (f : Device → β → Device) (h : ∀ (d : Device) x, d.keepsQueues (f d x)) (xs : List β) (d : Device) :
    d.keepsQueues (xs.foldl f d) := by
  induction xs generalizing d with
  | nil => exact d.keepsQueues_refl
  | cons x xs ih => exact Device.keepsQueues_trans (h d x) (ih (f d x))

theorem Device.keepsQueues_of_sentTo {d e : Device} (h : d.sentTo e) : d.keepsQueues e := by
  obtain ⟨honly, hfns, -⟩ := h
  refine ⟨by rw [honly]; rfl, by rw [honly]; rfl, by rw [honly]; rfl, fun n => ?_⟩
  rw [hfns n]
  exact ⟨rfl, rfl⟩

theorem Device.keepsQueues_of_readsCharged {d e : Device} (h : d.readsCharged e) : d.keepsQueues e := by
  obtain ⟨honly, hfns, -⟩ := h
  refine ⟨by rw [honly], by rw [honly], by rw [honly], fun n => ?_⟩
  rw [hfns n]
  exact ⟨rfl, rfl⟩

/-- A write to the host, made or held, touches no queue pair. -/
theorem Device.toHost_keepsQueues (d : Device) (f a : Nat) (r : Bool) (bs : List Byte) : d.keepsQueues (d.toHost f a r bs) := by
  refine ⟨by simp, by simp, by simp, fun n => ?_⟩
  unfold Device.toHost
  split
  · exact ⟨rfl, rfl⟩
  · split
    · exact ⟨rfl, rfl⟩
    · by_cases hn : n = f
      · subst hn
        by_cases hlt : n < 256
        · rw [Device.fn_modFn_same _ _ _ hlt]
          exact ⟨rfl, rfl⟩
        · simp [Device.modFn, hlt]
      · rw [Device.fn_modFn_other _ _ _ _ hn]
        exact ⟨rfl, rfl⟩

/-- A host that is there stays there. -/
theorem Device.keepsQueues_hostThere {d e : Device} (h : d.keepsQueues e) {f : Nat} (hh : d.hostThere f) : e.hostThere f := by
  obtain ⟨hports, -, -, hfns⟩ := h
  obtain ⟨hlt, hup, hbme⟩ := hh
  refine ⟨hlt, ?_, (hfns f).2.trans hbme⟩
  unfold Device.portUp at *
  rw [hports]
  exact hup

theorem Device.keepsQueues_qp {d e : Device} (h : d.keepsQueues e) (f q : Nat) : e.qp f q = d.qp f q := by
  unfold Device.qp
  rw [(h.2.2.2 f).1]

/-- A command that leaves gives back its contexts, its requests and its place in the Merge Buffer (R364). -/
theorem Device.dropCmd_keepsQueues (d : Device) (c : Cmd) : d.keepsQueues (d.dropCmd c) := by
  have hctxs : d.keepsQueues ({ d.releaseCmdCtxs c.stamp with shoal := { (d.releaseCmdCtxs c.stamp).shoal with
      pending := (d.releaseCmdCtxs c.stamp).shoal.pending.filter (·.stamp != c.stamp) } } : Device) :=
    ⟨by simp, by simp, by simp, fun n => by simp [Device.fn]⟩
  exact Device.keepsQueues_trans (Device.keepsQueues_trans hctxs (Device.keepsQueues_of_sentTo (Device.cancelRemote_sentTo _ c)))
    ⟨rfl, rfl, rfl, fun _ => ⟨rfl, rfl⟩⟩

theorem Device.dropCmd_cmds (d : Device) (c : Cmd) : (d.dropCmd c).cmds = d.cmds.filter (·.stamp != c.stamp) := by
  have hsent := (Device.cancelRemote_sentTo (d.releaseCmdCtxs c.stamp) c).1
  have hcmds : ((d.releaseCmdCtxs c.stamp).cancelRemote c).cmds = d.cmds := by
    rw [hsent]
    show (d.releaseCmdCtxs c.stamp).cmds = d.cmds
    simp
  unfold Device.dropCmd
  simp [hcmds]

/-! ### A completion posted (R375, R390, R401) -/

/-- What was posted stays posted where the pair keeps its tail and its unread entries and nothing sent is taken back. -/
theorem Device.posted_trans {d e e' : Device} {f q cid status spec : Nat} (h : d.posted e f q cid status spec)
    (hqp : ∀ p, e.qp f q = some p → ∃ p', e'.qp f q = some p' ∧ p'.unread = p.unread ∧ p'.cqTail = p.cqTail) (hout : ∀ x ∈ e.out, x ∈ e'.out) :
    d.posted e' f q cid status spec := by
  obtain ⟨p, p', bs, hp, hp', hunread, htail, hsent, hrest⟩ := h
  obtain ⟨p'', hp'', hu, ht⟩ := hqp p' hp'
  exact ⟨p, p'', bs, hp, hp'', hu.trans hunread, ht.trans htail, hout _ hsent, hrest⟩

/-- A posting on a pair that stood as it does here is a posting here. -/
theorem Device.posted_of_qp {d d' e : Device} {f q cid status spec : Nat} (hqp : d'.qp f q = d.qp f q) (h : d'.posted e f q cid status spec) :
    d.posted e f q cid status spec := by
  unfold Device.posted at *
  rw [hqp] at h
  exact h

theorem Device.posted_modQp {d e : Device} {f q cid status spec : Nat} (hf : f < 256) (g : QueuePair → QueuePair)
    (hg : ∀ p, (g p).unread = p.unread ∧ (g p).cqTail = p.cqTail) (h : d.posted e f q cid status spec) :
    d.posted (e.modQp f q g) f q cid status spec := by
  refine Device.posted_trans h (fun p hp => ⟨g p, Device.qp_modQp_same g hf hp, hg p⟩) fun x hx => ?_
  rw [Device.modQp_fns]
  exact hx

theorem Device.posted_msix {d e : Device} {f q cid status spec v : Nat} (h : d.posted e f q cid status spec) :
    d.posted (e.msix f v) f q cid status spec := by
  refine Device.posted_trans h (fun p hp => ⟨p, ?_, rfl, rfl⟩) (e.msix_tells f v).2.2
  have hfn := (e.msix_told f v).2 f
  unfold Device.qp at *
  rw [hfn]
  exact hp

/-- A change of a function that keeps its queue pairs. -/
theorem Device.qp_modFn (d : Device) (f : Nat) (g : Fn → Fn) (hg : ∀ n, (g n).qps = n.qps) (f' q : Nat) :
    (d.modFn f g).qp f' q = d.qp f' q := by
  unfold Device.qp
  by_cases hf : f' = f
  · subst hf
    by_cases hlt : f' < 256
    · rw [Device.fn_modFn_same _ _ _ hlt, hg]
    · simp [Device.modFn, hlt]
  · rw [Device.fn_modFn_other _ _ _ _ hf]

/-- The completion is counted and the function's deferred error told with it (R399). -/
theorem Device.posted_counted {d e : Device} {f q cid status spec : Nat} (h : d.posted e f q cid status spec) :
    d.posted ({ e.modFn f (fun n => { n with deferred := false }) with
      devCnt := { (e.modFn f fun n => { n with deferred := false }).devCnt with
        completions := (e.modFn f fun n => { n with deferred := false }).devCnt.completions + 1 } }) f q cid status spec := by
  refine Device.posted_trans h (fun p hp => ⟨p, ?_, rfl, rfl⟩) fun x hx => ?_
  · exact (Device.qp_modFn e f (fun n => { n with deferred := false }) (fun _ => rfl) f q).trans hp
  · rw [Device.modFn_fns]
    exact hx

/-- The interrupt of the CQ fires after the completion (R401). -/
theorem Device.posted_cqSignal {d e : Device} {f q cid status spec : Nat} (hf : f < 256) (h : d.posted e f q cid status spec) :
    d.posted (e.cqSignal f q) f q cid status spec := by
  unfold Device.cqSignal
  split
  · exact Device.posted_msix (Device.posted_modQp hf _ (fun _ => ⟨rfl, rfl⟩) h)
  · exact h

/-- The fields of the 32 bytes of a completion (R390). -/
theorem completionBytes_fields (spec elapsed pending sqhd sqid cid index status flags : Nat) :
    let bs := completionBytes spec elapsed pending sqhd sqid cid index status flags
    bs.length = 32 ∧ fieldAt bs 0 8 = spec % 2 ^ 64 ∧ fieldAt bs 20 2 = cid % 65536 ∧ fieldAt bs 28 2 = status % 65536 := by
  simp only [completionBytes, List.append_assoc]
  refine ⟨by simp [length_leBytes], fieldAt_front 8 _ _, ?_, ?_⟩
  · rw [show (20 : Nat) = 8 + (4 + (2 + (2 + (2 + (2 + 0))))) from rfl]
    simp only [fieldAt_skip, fieldAt_front]
    rfl
  · rw [show (28 : Nat) = 8 + (4 + (2 + (2 + (2 + (2 + (2 + (2 + (4 + 0)))))))) from rfl]
    simp only [fieldAt_skip, fieldAt_front]
    rfl

/-- The bytes of a completion stand in its entry at the pair's tail, and the pair counts one more unread (R375, R390). -/
theorem Device.post_posted {d : Device} {f q : Nat} {p : QueuePair} (cid index t0 status spec : Nat) (bound trunc : Bool)
    (hh : d.hostThere f) (hq : d.qp f q = some p) : d.posted (d.post f q cid index t0 status spec bound trunc) f q cid status spec := by
  obtain ⟨hf, hup, hbme⟩ := hh
  unfold Device.post
  simp only [hq, Device.toHost, hup, hbme, Bool.not_true, Bool.false_eq_true, if_false, if_true]
  generalize hflags : flagAt 15 p.phase + flagAt 14 (p.deferred || (d.fn f).deferred) + flagAt 13 bound + flagAt 12 trunc = flags
  generalize hbs : completionBytes spec ((d.now - t0) / 1000) (d.fn f).log.pending p.sqHead q cid index status flags = bs
  have hfields := completionBytes_fields spec ((d.now - t0) / 1000) (d.fn f).log.pending p.sqHead q cid index status flags
  rw [hbs] at hfields
  have hqe : (d.emit (.hostWrite f (p.cqBase + 32 * p.cqTail) false bs)).qp f q = some p := hq
  have hwritten : d.posted ((d.emit (.hostWrite f (p.cqBase + 32 * p.cqTail) false bs)).modQp f q fun r => { r with
      cqTail := if (p.cqTail + 1 == p.cqSize) = true then 0 else r.cqTail + 1
      phase := if (p.cqTail + 1 == p.cqSize) = true then !r.phase else r.phase
      unread := r.unread + 1, inFlight := r.inFlight - 1, deferred := false, sinceMsg := r.sinceMsg + 1, waitFrom := r.waitFrom.or (some d.now) })
      f q cid status spec := by
    refine ⟨p, _, bs, hq, Device.qp_modQp_same _ hf hqe, rfl, ?_, ?_, hfields⟩
    · simp
    · rw [Device.modQp_fns]
      exact List.mem_cons_self
  have hcounted := Device.posted_counted hwritten
  split
  · exact Device.posted_cqSignal hf hcounted
  · exact hcounted

/-- A command of this device has left with a completion of a status and SPEC, nothing else of the indexes and the clock having changed. -/
def Device.completed (d e : Device) (c : Cmd) (status spec : Nat) : Prop :=
  d.posted e c.fn c.qid c.cid status spec ∧ e.cmd? c.stamp = none ∧ e.now = d.now ∧ e.indexes = d.indexes

/-- A command dropped is in flight no longer. -/
theorem cmd?_filter (cs : List Cmd) (k : Nat) : (cs.filter (·.stamp != k)).find? (·.stamp == k) = none := by
  simp [List.find?_eq_none]

/-- A command of this device that finishes posts its completion and leaves (R364, R375, R390). -/
theorem Device.finishCmd_completed {d : Device} {c : Cmd} (status spec : Nat) (trunc : Bool) (hr : c.remote = none) (hh : d.hostThere c.fn)
    (hq : (d.qp c.fn c.qid).isSome = true) : d.completed (d.finishCmd c status spec trunc) c status spec := by
  obtain ⟨p, hp⟩ := Option.isSome_iff_exists.1 hq
  have hdrop := d.dropCmd_keepsQueues c
  obtain ⟨-, hnow, hindexes, -⟩ := d.dropCmd_keepsQueues c
  have hqp := Device.keepsQueues_qp hdrop c.fn c.qid
  unfold Device.completed Device.finishCmd
  simp only [hr]
  refine ⟨?_, ?_, ?_, ?_⟩
  · exact Device.posted_of_qp hqp (Device.posted_modQp hh.1 _ (fun _ => ⟨rfl, rfl⟩)
      (Device.post_posted _ _ _ _ _ _ _ (Device.keepsQueues_hostThere hdrop hh) (hqp.trans hp)))
  · unfold Device.cmd?
    simp [Device.dropCmd_cmds]
  · simp [hnow]
  · simp [hindexes]

/-! ### The result of a search (R164, R177, R391) -/

theorem Device.account_keepsQueues (d : Device) (client : Option Nat) (b : Nat) (g : Account → Account) : d.keepsQueues (d.account client b g) :=
  Device.keepsQueues_of_readsCharged (d.account_metered client b g)

theorem Device.groupsLeave_keepsQueues (d : Device) (b stamp : Nat) : d.keepsQueues (d.groupsLeave b stamp) := ⟨rfl, rfl, rfl, fun _ => ⟨rfl, rfl⟩⟩

/-- A device that stands where it did but for other parts sees the same completion. -/
theorem Device.completed_of_keepsQueues {d d' e : Device} {c : Cmd} {status spec : Nat} (h : d.keepsQueues d') (k : d'.completed e c status spec) :
    d.completed e c status spec := by
  obtain ⟨hposted, hgone, hnow, hindexes⟩ := k
  exact ⟨Device.posted_of_qp (Device.keepsQueues_qp h _ _) hposted, hgone, hnow.trans h.2.1, hindexes.trans h.2.2.1⟩

/-- A search of this device that selects completes with SUCCESS, the number of its entries and the stage it was cut in (R151, R164, R391). -/
theorem Device.postResult_completed {d : Device} {c : Cmd} (hr : c.remote = none) (hh : d.hostThere c.fn) (hq : (d.qp c.fn c.qid).isSome = true)
    (hk : c.sp.k ≤ 1024) : ∃ spec, d.completed (d.postResult c) c 0 spec ∧ spec % 65536 ≤ c.sp.k ∧ (c.stageCut = 6 → spec / 2 ^ 32 % 256 = 6) := by
  unfold Device.postResult
  dsimp only
  generalize hparts : cutSegs _ _ ++ cutSegs _ _ = parts
  generalize hret : (finalSelect _ _ _).returned.length = n
  generalize hflags : rflags _ _ = fl
  generalize hd1 : parts.foldl _ d = d1
  have hwritten : d.keepsQueues d1 := hd1 ▸ Device.foldl_keepsQueues _ (fun d p => d.toHost_keepsQueues _ _ _ _) parts d
  have hready : d.keepsQueues ((if (c.stageCut != 0) = true then d1.account (some c.fn) c.burgee fun a => { a with truncated := a.truncated + 1 } else d1).groupsLeave
      c.burgee c.stamp) := by
    refine Device.keepsQueues_trans hwritten (Device.keepsQueues_trans ?_ (Device.groupsLeave_keepsQueues _ _ _))
    split
    · exact d1.account_keepsQueues _ _ _
    · exact d1.keepsQueues_refl
  refine ⟨_, Device.completed_of_keepsQueues hready (Device.finishCmd_completed (c := d.closeFolds c) 0 _ _ hr (Device.keepsQueues_hostThere hready hh)
    ((congrArg Option.isSome (Device.keepsQueues_qp hready _ _)).trans hq)), ?_, fun h6 => ?_⟩
  · simp only [at_]
    have : (d.closeFolds c).sp.k = c.sp.k := rfl
    omega
  · have hcov : d.coverage c (c.stageCut != 0) = 0 := by simp [Device.coverage, h6]
    have hk' : (d.closeFolds c).sp.k = c.sp.k := rfl
    have hcut : (d.closeFolds c).stageCut = 6 := h6
    rw [hcov, hcut]
    simp only [at_]
    omega

end Sys2Proof.Machine
end

section
/-! Commands in flight, and the runs of their vectors: what each stage of a search makes of its command, and what it changes beside it. -/

namespace Sys2Proof.Machine

/-! ### Lists changed at a place -/

@[simp] theorem length_lmod {α : Type} (k : Nat) (f : α → α) (xs : List α) : (lmod k f xs).length = xs.length := by
  induction xs generalizing k with
  | nil => simp [lmod]
  | cons x xs ih => cases k <;> simp [lmod, ih]

/-- The place changed reads as the change of what it read, and every other as before. -/
theorem getD_lmod {α : Type} (k v : Nat) (f : α → α) (xs : List α) (z : α) :
    (lmod k f xs).getD v z = if v = k ∧ k < xs.length then f (xs.getD k z) else xs.getD v z := by
  induction xs generalizing k v with
  | nil => simp [lmod]
  | cons x xs ih => cases k <;> cases v <;> simp_all [lmod, -List.getD_eq_getElem?_getD, List.getD_cons_zero, List.getD_cons_succ]

theorem getD_lmod_same {α : Type} {k : Nat} (f : α → α) {xs : List α} (z : α) (h : k < xs.length) :
    (lmod k f xs).getD k z = f (xs.getD k z) := by rw [getD_lmod, if_pos ⟨rfl, h⟩]

theorem getD_lmod_other {α : Type} {k v : Nat} (f : α → α) (xs : List α) (z : α) (h : v ≠ k) : (lmod k f xs).getD v z = xs.getD v z := by
  rw [getD_lmod, if_neg fun hv => h hv.1]

/-! ### Commands changed -/

theorem Device.stamp_of_cmd? {d : Device} {k : Nat} {c : Cmd} (h : d.cmd? k = some c) : c.stamp = k := by
  simpa using List.find?_some h

/-- Every other command stands as before a change of one. -/
theorem Device.cmd?_modCmd_other (d : Device) {k i : Nat} (g : Cmd → Cmd) (hg : ∀ c, (g c).stamp = c.stamp) (h : i ≠ k) :
    (d.modCmd k g).cmd? i = d.cmd? i := by
  unfold Device.modCmd Device.cmd?
  dsimp only
  induction d.cmds with
  | nil => rfl
  | cons c cs ih =>
    rw [List.map_cons, List.find?_cons, List.find?_cons, ih]
    by_cases hc : c.stamp = k
    · have hne : (k == i) = false := by simpa using fun hk : k = i => h hk.symm
      simp only [hc, hg, hne, beq_self_eq_true, if_true]
    · simp [hc]

theorem Device.cmd?_of_cmds {d e : Device} (h : e.cmds = d.cmds) (k : Nat) : e.cmd? k = d.cmd? k := by
  unfold Device.cmd?
  rw [h]

/-! ### What stages change -/

/-- What the stages of a search change: the command and its contexts, what these hold on the SCs and in the tiers, the probes counted, the batch groups, the
Merge Buffer's suspicion and the free values drawn. -/
def Device.stagesTo (d e : Device) : Prop :=
  e = { d with cmds := e.cmds, ctxs := e.ctxs, scs := e.scs, engines := e.engines, streams := e.streams, tiers := e.tiers, mem := e.mem, heat := e.heat,
               burgees := e.burgees, devBuckets := e.devBuckets, mbs := e.mbs, fresh := e.fresh }

theorem Device.stagesTo_refl (d : Device) : d.stagesTo d := rfl

theorem Device.stagesTo_trans {d e f : Device} (h : d.stagesTo e) (k : e.stagesTo f) : d.stagesTo f := by
  unfold Device.stagesTo at *
  rw [k, h]

theorem Device.stagesTo_of_bytesTo {d e : Device} (h : d.bytesTo e) : d.stagesTo e := by
  unfold Device.bytesTo Device.stagesTo at *
  rw [h]

/-- The stages leave the way to the host, what the shoal holds and whether the device is quiesced. -/
theorem Device.stagesTo_keeps {d e : Device} (h : d.stagesTo e) :
    d.keepsQueues e ∧ e.fns = d.fns ∧ e.shoal = d.shoal ∧ e.quiesced = d.quiesced ∧ e.indexes = d.indexes := by
  unfold Device.stagesTo at h
  rw [h]
  exact ⟨⟨rfl, rfl, rfl, fun _ => ⟨rfl, rfl⟩⟩, rfl, rfl, rfl, rfl⟩

/-- The stages turn the commands of a stamp by G, and no other command. -/
def Device.turns (d e : Device) (k : Nat) (G : Cmd → Cmd) : Prop :=
  d.stagesTo e ∧ e.cmds = (d.modCmd k G).cmds ∧ ∀ b, (G b).stamp = b.stamp

theorem Device.turns_modCmd (d : Device) (k : Nat) (G : Cmd → Cmd) (hG : ∀ b, (G b).stamp = b.stamp) : d.turns (d.modCmd k G) k G := ⟨rfl, rfl, hG⟩

/-- What changes no command turns none. -/
theorem Device.turns_of_cmds {d e : Device} (k : Nat) (h : d.stagesTo e) (hc : e.cmds = d.cmds) : d.turns e k id := by
  refine ⟨h, ?_, fun _ => rfl⟩
  simp [hc, Device.modCmd]

theorem Device.turns_refl (d : Device) (k : Nat) : d.turns d k id := Device.turns_of_cmds k rfl rfl

theorem Device.turns_trans {d e f : Device} {k : Nat} {G H : Cmd → Cmd} (h : d.turns e k G) (k' : e.turns f k H) : d.turns f k (H ∘ G) := by
  obtain ⟨hstages, hcmds, hG⟩ := h
  obtain ⟨kstages, kcmds, hH⟩ := k'
  refine ⟨Device.stagesTo_trans hstages kstages, ?_, fun b => (hH _).trans (hG b)⟩
  rw [kcmds]
  simp only [Device.modCmd] at hcmds ⊢
  rw [hcmds, List.map_map]
  refine List.map_congr_left fun b _ => ?_
  by_cases hb : b.stamp = k
  · simp [hb, hG]
  · simp [hb]

/-- What changes no command afterwards leaves them turned as they were. -/
theorem Device.turns_after {d e f : Device} {k : Nat} {G : Cmd → Cmd} (h : d.turns e k G) (hs : e.stagesTo f) (hc : f.cmds = e.cmds) : d.turns f k G :=
  ⟨Device.stagesTo_trans h.1 hs, hc.trans h.2.1, h.2.2⟩

theorem Device.turns_cmd? {d e : Device} {k : Nat} {G : Cmd → Cmd} {c : Cmd} (h : d.turns e k G) (hc : d.cmd? k = some c) : e.cmd? k = some (G c) :=
  (Device.cmd?_of_cmds h.2.1 k).trans (Device.cmd?_modCmd_same G h.2.2 hc)

theorem Device.turns_other {d e : Device} {k i : Nat} {G : Cmd → Cmd} (h : d.turns e k G) (hi : i ≠ k) : e.cmd? i = d.cmd? i :=
  (Device.cmd?_of_cmds h.2.1 i).trans (d.cmd?_modCmd_other G h.2.2 hi)

/-! ### STAGE_START -/

/-- An admitted command of this device that is not cut starts the stage named. -/
structure Device.Searching (d : Device) (k : Nat) (c : Cmd) (x : Index) : Prop where
  found    : d.cmd? k = some c
  search   : c.op.isSearch = true
  active   : c.phase = .active
  admitted : c.snap.isSome = true
  own      : c.remote = none
  index    : d.index? c.indexNo = some x
  alone    : d.shoalIndex? c.indexNo = none
  awake    : d.quiesced = false

theorem Device.Searching.runs? {d : Device} {k : Nat} {c : Cmd} {x : Index} (h : d.Searching k c x) : c.runs? = true := by
  simp [Cmd.runs?, h.search, h.active, h.admitted]

theorem stageStartEff_A {d : Device} {k : Nat} {c : Cmd} {x : Index} (h : d.Searching k c x) : stageStartEff k 1 d = d.startA c x := by
  simp [stageStartEff, h.found, h.runs?, h.awake, h.index, h.own]

theorem stageStartEff_B {d : Device} {k : Nat} {c : Cmd} {x : Index} (h : d.Searching k c x) : stageStartEff k 2 d = d.stageB c x := by
  simp [stageStartEff, h.found, h.runs?, h.awake, h.index]

theorem stageStartEff_C {d : Device} {k : Nat} {c : Cmd} {x : Index} (h : d.Searching k c x) : stageStartEff k 3 d = (d.startC c).endC k := by
  simp [stageStartEff, h.found, h.runs?, h.awake, h.index]

theorem stageStartEff_D {d : Device} {k : Nat} {c : Cmd} {x : Index} (h : d.Searching k c x) : stageStartEff k 4 d = d.startD c := by
  simp [stageStartEff, h.found, h.runs?, h.awake, h.index]

/-! ### Stage A (R127 to R130) -/

/-- A command b after stage A of vector j, as the command c it was started for gives its cells and its entry node. -/
def Cmd.probing (c : Cmd) (own : Nat → Bool) (x : Index) (b : Cmd) (j : Nat) : Cmd :=
  { b with
    nanExtra := b.nanExtra + (c.probeList own x (c.query j)).2
    runs := lmod j (fun r => { r with stageA := true, cells := (c.probeList own x (c.query j)).1, entry := c.entryOf x (c.query j) }) b.runs }

/-- The vectors that stage A runs for: those admitted for which it has not run. -/
def Cmd.unprobed (c : Cmd) : List Nat := c.admittedVecs.filter fun j => !(c.runs.getD j {}).stageA

/-- The command after stage A of vectors js. -/
def Cmd.probedFor (c : Cmd) (own : Nat → Bool) (x : Index) (js : List Nat) (b : Cmd) : Cmd := js.foldl (c.probing own x) b

@[simp] theorem Cmd.length_probedFor (c : Cmd) (own : Nat → Bool) (x : Index) (js : List Nat) (b : Cmd) :
    (c.probedFor own x js b).runs.length = b.runs.length := by
  induction js generalizing b with
  | nil => rfl
  | cons j js ih => exact (ih _).trans (length_lmod _ _ _)

/-- A vector that stage A ran for has its cells and its entry node; every other vector's run stays. -/
theorem Cmd.getD_probedFor (c : Cmd) (own : Nat → Bool) (x : Index) (js : List Nat) (b : Cmd) (v : Nat) :
    (c.probedFor own x js b).runs.getD v {} =
      if v ∈ js ∧ v < b.runs.length then
        { b.runs.getD v {} with stageA := true, cells := (c.probeList own x (c.query v)).1, entry := c.entryOf x (c.query v) }
      else b.runs.getD v {} := by
  induction js generalizing b with
  | nil => simp [Cmd.probedFor]
  | cons j js ih =>
    have hstep : c.probedFor own x (j :: js) b = c.probedFor own x js (c.probing own x b j) := rfl
    have hlen : (c.probing own x b j).runs.length = b.runs.length := length_lmod _ _ _
    have hrun : (c.probing own x b j).runs.getD v {} = if v = j ∧ j < b.runs.length then
        { b.runs.getD j {} with stageA := true, cells := (c.probeList own x (c.query j)).1, entry := c.entryOf x (c.query j) }
        else b.runs.getD v {} := getD_lmod _ _ _ _ _
    rw [hstep, ih, hlen, hrun]
    by_cases hv : v = j
    · subst hv
      by_cases hlt : v < b.runs.length <;> simp [hlt]
    · simp [hv]

theorem Device.ownCell_of_shoal {d e : Device} (h : e.shoal = d.shoal) (i : Nat) : e.ownCell i = d.ownCell i := by
  funext n
  unfold Device.ownCell
  rw [Device.shoalIndex?_of_shoal h, h]

/-- A probe counted changes no command. -/
theorem Device.probe_turns (d : Device) (x : Index) (u k : Nat) : d.turns (d.probe x u) k id := by
  have hbytes := fun (e : Device) bs => e.memWrite_bytesTo (x.placementBase + 16 * u + 14) bs
  unfold Device.probe
  refine Device.turns_of_cmds k (Device.stagesTo_trans ?_ (Device.stagesTo_of_bytesTo (hbytes _ _))) ?_
  · rfl
  · dsimp only
    rw [hbytes]

theorem Device.foldl_turns_id {β : Type} {k : Nat} (f : Device → β → Device) (h : ∀ (d : Device) b, d.turns (f d b) k id) (bs : List β) (d : Device) :
    d.turns (bs.foldl f d) k id := by
  induction bs generalizing d with
  | nil => exact d.turns_refl k
  | cons b bs ih => exact Device.turns_trans (h d b) (ih (f d b))

theorem Device.stageA_turns (d : Device) (c : Cmd) (x : Index) :
    d.turns (d.stageA c x) c.stamp (c.probedFor (d.ownCell c.indexNo) x c.unprobed) := by
  unfold Device.stageA Cmd.probedFor
  show d.turns (List.foldl _ d c.unprobed) _ _
  generalize c.unprobed = js
  suffices hfold : ∀ (e : Device), e.shoal = d.shoal → e.turns (js.foldl _ e) c.stamp (js.foldl (c.probing (d.ownCell c.indexNo) x) ·) from hfold d rfl
  induction js with
  | nil => exact fun e _ => e.turns_refl _
  | cons j js ih =>
    intro e he
    have hprobed : e.turns (e.modCmd c.stamp fun b => c.probing (d.ownCell c.indexNo) x b j) c.stamp fun b => c.probing (d.ownCell c.indexNo) x b j :=
      e.turns_modCmd _ _ fun _ => rfl
    have hcounted := Device.foldl_turns_id (k := c.stamp) (fun (d : Device) (p : Nat × F32) => d.probe x p.1) (fun d p => d.probe_turns x p.1 _)
      (c.probeList (d.ownCell c.indexNo) x (c.query j)).1 (e.modCmd c.stamp fun b => c.probing (d.ownCell c.indexNo) x b j)
    have hfirst := Device.turns_trans hprobed hcounted
    have hshoal := (Device.stagesTo_keeps hfirst.1).2.2.1
    have hrest := ih _ (hshoal.trans he)
    rw [List.foldl_cons]
    simp only [Device.ownCell_of_shoal he]
    exact Device.turns_trans hfirst hrest

theorem Device.groupDone_turns (d : Device) (b stamp : Nat) (steps : List Nat) (k : Nat) : d.turns (d.groupDone b stamp steps) k id :=
  Device.turns_of_cmds k rfl rfl

/-- A command whose stage A has run for a vector is in stage B at least. -/
def Cmd.pastA (done : Bool) (c : Cmd) : Cmd :=
  { c with
    stage := if done then max 2 c.stage else c.stage
    work := if done then piecesDone 6 0xFFFFFFFF (piecesDone 4 0xFFFFFFFF c.work) else c.work }

theorem Device.startA_turns {d : Device} {k : Nat} {c : Cmd} {x : Index} (h : d.Searching k c x) :
    let p := c.probedFor (d.ownCell c.indexNo) x c.unprobed
    d.turns (d.startA c x) k (Cmd.pastA ((p c).runs.any (·.stageA)) ∘ p) := by
  intro p
  have hk := Device.stamp_of_cmd? h.found
  subst hk
  have hA := d.stageA_turns c x
  have hfound := Device.turns_cmd? hA h.found
  unfold Device.startA
  simp only [h.alone, hfound, Option.elim_some]
  exact Device.turns_trans hA (Device.turns_trans (Device.groupDone_turns _ _ _ _ _) (Device.turns_modCmd _ _ (Cmd.pastA _) fun _ => rfl))

/-- Stage A has run for every admitted vector of a command with a run. -/
theorem gives_stageA {s : State} {k j : Nat} {c : Cmd} {x : Index} (h : s.dev.Searching k c x) (hrun : j < c.runs.length) (hvec : j < c.vecs.length)
    (hchunk : j < 16 * c.chunks) (hnot : (c.runs.getD j {}).stageA = false) :
    gives (.stageStart k 1) s fun e => (∃ c', e.cmd? k = some c' ∧ 2 ≤ c'.stage ∧ (c'.runs.getD j {}).stageA = true ∧
      (c'.runs.getD j {}).cells = (c.probeList (s.dev.ownCell c.indexNo) x (c.query j)).1 ∧ (c'.runs.getD j {}).entry = c.entryOf x (c.query j)) ∧
      e.indexes = s.dev.indexes ∧ e.fns = s.dev.fns ∧ ∀ i, i ≠ k → e.cmd? i = s.dev.cmd? i := by
  refine gives_of_onDev (F := stageStartEff k 1) rfl ?_
  have hturns := Device.startA_turns h
  obtain ⟨-, hfns, -, -, hindexes⟩ := Device.stagesTo_keeps hturns.1
  have hmem : j ∈ c.unprobed := by
    have hadmitted : j ∈ c.admittedVecs := by simp [Cmd.admittedVecs, hvec, hchunk]
    exact List.mem_filter.2 ⟨hadmitted, by rw [hnot]; rfl⟩
  have hprobed := c.getD_probedFor (s.dev.ownCell c.indexNo) x c.unprobed c j
  rw [if_pos ⟨hmem, hrun⟩] at hprobed
  rw [stageStartEff_A h]
  refine ⟨⟨_, Device.turns_cmd? hturns h.found, ?_, ?_, ?_, ?_⟩, hindexes, hfns, fun i hi => Device.turns_other hturns hi⟩
  · have hany : ((c.probedFor (s.dev.ownCell c.indexNo) x c.unprobed c).runs.any (·.stageA)) = true := by
      have hlt : j < (c.probedFor (s.dev.ownCell c.indexNo) x c.unprobed c).runs.length := by simpa using hrun
      refine List.any_eq_true.2 ⟨_, List.getElem_mem hlt, ?_⟩
      rw [← List.getD_eq_getElem _ {} hlt, hprobed]
    simp [Cmd.pastA, hany]
  all_goals
    simp only [Function.comp_apply, Cmd.pastA]
    rw [hprobed]

end Sys2Proof.Machine
end

section
/-! The stages of a search on an index of this device: units that end, fold steps, stages C and D; and O25. -/

namespace Sys2Proof.Machine

/-! ### One run of a command changed -/

/-- A command with the run of vector j changed. -/
def Cmd.onRun (j : Nat) (g : VecRun → VecRun) (b : Cmd) : Cmd := { b with runs := lmod j g b.runs }

theorem Cmd.run_onRun_same {j : Nat} (g : VecRun → VecRun) {b : Cmd} (h : j < b.runs.length) : (b.onRun j g).runs.getD j {} = g (b.runs.getD j {}) :=
  getD_lmod_same g {} h

theorem Cmd.run_onRun_other {j w : Nat} (g : VecRun → VecRun) (b : Cmd) (h : w ≠ j) : (b.onRun j g).runs.getD w {} = b.runs.getD w {} :=
  getD_lmod_other g b.runs {} h

@[simp] theorem Cmd.length_onRun (j : Nat) (g : VecRun → VecRun) (b : Cmd) : (b.onRun j g).runs.length = b.runs.length := length_lmod j g b.runs

/-! ### A unit's list arrives (R160) -/

/-- A context that ends gives back what it holds, and changes no command. -/
theorem Device.releaseCtx_turns (d : Device) (i k : Nat) : d.turns (d.releaseCtx i) k id := by
  refine Device.turns_of_cmds k ?_ (by simp)
  unfold Device.releaseCtx
  split <;> rfl

theorem Device.releaseCtx_ctxs (d : Device) (id : Nat) : (d.releaseCtx id).ctxs = d.ctxs.filter (·.id != id) := by
  unfold Device.releaseCtx
  split
  case h_1 hnone =>
    refine (List.filter_eq_self.2 fun c hc => ?_).symm
    simpa using List.find?_eq_none.1 hnone c hc
  case h_2 => rfl

/-- No context ended stands on. -/
theorem Device.releaseCtxs_ctxs (ids : List Ctx) (d : Device) {i : Ctx} (h : i ∈ (ids.foldl (fun d (k : Ctx) => d.releaseCtx k.id) d).ctxs) :
    i ∈ d.ctxs ∧ ∀ t ∈ ids, i.id ≠ t.id := by
  induction ids generalizing d with
  | nil => exact ⟨h, by simp⟩
  | cons t ts ih =>
    obtain ⟨hin, hothers⟩ := ih _ h
    rw [Device.releaseCtx_ctxs, List.mem_filter] at hin
    obtain ⟨hctx, hne⟩ := hin
    exact ⟨hctx, by simpa using ⟨by simpa using hne, hothers⟩⟩

/-- The list of unit u has come. -/
def VecRun.gets (u : Nat) (l : UnitList) (r : VecRun) : VecRun := { r with arrived := tset u l r.arrived }

/-- A command's list of unit u of vector j has come, and its work w is done. -/
def Cmd.gets (j u : Nat) (l : UnitList) (w : List Demand → List Demand) (b : Cmd) : Cmd := { b.onRun j (VecRun.gets u l) with work := w b.work }

/-- A unit's list arrives: its command has it, and its contexts end (R160, R351). -/
theorem Device.unitArrives_gets (d : Device) (c : Cmd) (j u : Nat) (l : UnitList) :
    (∃ w, d.turns (d.unitArrives c j u l) c.stamp (Cmd.gets j u l w)) ∧ (d.unitArrives c j u l).mem = d.mem ∧
      ∀ i ∈ (d.unitArrives c j u l).ctxs, ¬(i.cmd = some c.stamp ∧ i.vec = j ∧ i.unit = u) := by
  have hcame : d.turns (d.modCmd c.stamp (Cmd.onRun j (VecRun.gets u l))) c.stamp (Cmd.onRun j (VecRun.gets u l)) := d.turns_modCmd _ _ fun _ => rfl
  have hfreed := Device.turns_trans hcame (Device.foldl_turns_id (fun d (k : Ctx) => d.releaseCtx k.id) (fun d k => d.releaseCtx_turns k.id c.stamp)
    (d.ctxs.filter fun k => k.cmd == some c.stamp && k.vec == j && k.unit == u) _)
  have hmem := foldl_keep Device.mem (fun d (k : Ctx) => d.releaseCtx k.id) (fun d k => by simp)
    (d.ctxs.filter fun k => k.cmd == some c.stamp && k.vec == j && k.unit == u) (d.modCmd c.stamp (Cmd.onRun j (VecRun.gets u l)))
  have hctxs := fun i hi => Device.releaseCtxs_ctxs (i := i) (d.ctxs.filter fun k => k.cmd == some c.stamp && k.vec == j && k.unit == u)
    (d.modCmd c.stamp (Cmd.onRun j (VecRun.gets u l))) hi
  have hended : ∀ i, (i ∈ d.ctxs ∧ ∀ t ∈ d.ctxs.filter fun k => k.cmd == some c.stamp && k.vec == j && k.unit == u, i.id ≠ t.id) →
      ¬(i.cmd = some c.stamp ∧ i.vec = j ∧ i.unit = u) := by
    rintro i ⟨hi, hne⟩ ⟨hcmd, hvec, hunit⟩
    exact hne i (List.mem_filter.2 ⟨hi, by simp [hcmd, hvec, hunit]⟩) rfl
  have hworked : ∀ (e : Device) (step n : Nat), d.turns e c.stamp (Cmd.gets j u l id) → d.turns (e.workDone c.stamp step n) c.stamp (Cmd.gets j u l (piecesDone step n)) :=
    fun e step n h => Device.turns_trans h (e.turns_modCmd _ (fun c => { c with work := piecesDone step n c.work }) fun _ => rfl)
  unfold Device.unitArrives
  dsimp only
  split
  · exact ⟨⟨_, hworked _ _ _ hfreed⟩, hmem, fun i hi => hended i (hctxs i hi)⟩
  · exact ⟨⟨_, hworked _ _ _ hfreed⟩, hmem, fun i hi => hended i (hctxs i hi)⟩
  · exact ⟨⟨id, hfreed⟩, hmem, fun i hi => hended i (hctxs i hi)⟩

/-- A unit of an active command that has started and may still end sends its whole list (R160). -/
theorem unitEndEff_active {d : Device} {k v u : Nat} {c : Cmd} {n : UnitId} {b : Option Nat} {t : Ctx} (hc : d.cmd? k = some c) (hphase : c.phase = .active)
    (hunit : (c.runs.getD v {}).units[u]? = some n) (hmay : (c.runs.getD v {}).mayStart u = true) (ht : t ∈ d.ctxs) (hcmd : t.cmd = some k)
    (hvec : t.vec = v) (hno : t.unit = u) (hstarted : t.started = true) :
    unitEndEff k v u b d = d.unitArrives c v u (d.unitList c v n none) := by
  have hk := Device.stamp_of_cmd? hc
  have hany : (d.ctxs.any fun i => i.cmd == some k && i.vec == v && i.unit == u && i.started) = true :=
    List.any_eq_true.2 ⟨t, ht, by simp [hcmd, hvec, hno, hstarted]⟩
  obtain ⟨⟨w, hturns⟩, -, -⟩ := d.unitArrives_gets c v u (d.unitList c v n none)
  have hfound := Device.turns_cmd? (hk ▸ hturns) hc
  have hphase' : (Cmd.gets v u (d.unitList c v n none) w c).phase = .active := hphase
  simp only [unitEndEff, hc, hany, hmay, hphase, hunit, beq_self_eq_true, Bool.not_true, Bool.true_or, Bool.or_self, Bool.false_eq_true, if_false, if_true]
  rw [hfound]
  simp [hphase']

/-- A unit's list reaches the Merge Buffer and its contexts end. -/
theorem gives_unitEnd {s : State} {k v u : Nat} {c : Cmd} {n : UnitId} {b : Option Nat} {t : Ctx} (hc : s.dev.cmd? k = some c) (hphase : c.phase = .active)
    (hrun : v < c.runs.length) (hunit : (c.runs.getD v {}).units[u]? = some n) (hmay : (c.runs.getD v {}).mayStart u = true) (ht : t ∈ s.dev.ctxs)
    (hcmd : t.cmd = some k) (hvec : t.vec = v) (hno : t.unit = u) (hstarted : t.started = true) :
    gives (.unitEnd k v u b) s fun e => (∃ c', e.cmd? k = some c' ∧ tfind u (c'.runs.getD v {}).arrived = some (s.dev.unitList c v n none)) ∧
      (∀ i ∈ e.ctxs, ¬(i.cmd = some k ∧ i.vec = v ∧ i.unit = u)) ∧ e.indexes = s.dev.indexes ∧ e.fns = s.dev.fns ∧ e.mem = s.dev.mem := by
  refine gives_of_onDev (F := unitEndEff k v u b) rfl ?_
  have hk := Device.stamp_of_cmd? hc
  subst hk
  obtain ⟨⟨w, hturns⟩, hmem, hctxs⟩ := s.dev.unitArrives_gets c v u (s.dev.unitList c v n none)
  obtain ⟨-, hfns, -, -, hindexes⟩ := Device.stagesTo_keeps hturns.1
  rw [unitEndEff_active hc hphase hunit hmay ht hcmd hvec hno hstarted]
  refine ⟨⟨_, Device.turns_cmd? hturns hc, ?_⟩, hctxs, hindexes, hfns, hmem⟩
  have hgot : ((Cmd.gets v u (s.dev.unitList c v n none) w c).runs.getD v {}) = VecRun.gets u (s.dev.unitList c v n none) (c.runs.getD v {}) :=
    Cmd.run_onRun_same _ hrun
  rw [hgot]
  exact tfind_tset_same _ _ _

/-! ### A fold step (R161, R163, R176) -/

/-- One step of a run's fold: its own next unit list, or the next shard list. -/
def Cmd.foldsRun (c : Cmd) (r : VecRun) : VecRun :=
  if (tfind r.nextFold r.arrived).isSome then r.foldNext c.sp.cap c.sp.beta else r.joinNext c.sp.cap c.sp.beta c.shards (c.phase == .closed)

/-- The owner's own shard list as `ownShard` sets it in a command. -/
def Cmd.ownListed (self : Nat) (c : Cmd) : Cmd :=
  if c.shards.contains self && c.remote.isNone && c.runs.all (fun r => r.stageA && decide (r.units.length ≤ r.nextFold)) then
    { c with runs := c.runs.map fun (r : VecRun) => if (tfind self r.shards).isSome then r else { r with shards := tset self r.fold.sent r.shards } }
  else c

@[simp] theorem Cmd.ownListed_stamp (self : Nat) (c : Cmd) : (c.ownListed self).stamp = c.stamp := by
  unfold Cmd.ownListed
  split <;> rfl

/-- A fold step that takes a list: the command's run, and the Merge Buffer's suspicion of it. -/
theorem Device.foldStepOf_eq {d : Device} {c : Cmd} {v : Nat}
    (h : ((tfind (c.runs.getD v {}).nextFold (c.runs.getD v {}).arrived).isNone && c.shards.isEmpty) = false) :
    d.foldStepOf c v = ((d.modCmd c.stamp (Cmd.onRun v c.foldsRun)).modCmd c.stamp (Cmd.ownListed d.shoal.device)).modMb c.half fun m =>
      { m with suspect := m.suspect.filter (· != c.stamp) } := by
  unfold Device.foldStepOf
  simp only [h, Bool.false_eq_true, if_false]
  rfl

theorem Device.foldStepOf_turns {d : Device} {c : Cmd} {v : Nat}
    (h : ((tfind (c.runs.getD v {}).nextFold (c.runs.getD v {}).arrived).isNone && c.shards.isEmpty) = false) :
    d.turns (d.foldStepOf c v) c.stamp (Cmd.ownListed d.shoal.device ∘ Cmd.onRun v c.foldsRun) := by
  have hstep := Device.turns_trans (d.turns_modCmd c.stamp (Cmd.onRun v c.foldsRun) fun _ => rfl)
    ((d.modCmd c.stamp (Cmd.onRun v c.foldsRun)).turns_modCmd c.stamp (Cmd.ownListed d.shoal.device) fun _ => Cmd.ownListed_stamp _ _)
  rw [Device.foldStepOf_eq h]
  exact Device.turns_after hstep rfl rfl

/-- A Merge Buffer changed in its suspicion alone. -/
theorem Device.mb_modMb_suspect (d : Device) (n k h : Nat) :
    let e := d.modMb n fun m => { m with suspect := m.suspect.filter (· != k) }
    e.mb h = { d.mb h with suspect := (e.mb h).suspect } ∧ (e.mb n).suspect ≠ some k := by
  have hread : ∀ i, (d.modMb n fun m => { m with suspect := m.suspect.filter (· != k) }).mb i =
      if i = n ∧ n < d.mbs.length then { d.mb n with suspect := (d.mb n).suspect.filter (· != k) } else d.mb i := fun i => getD_lmod n i _ d.mbs {}
  refine ⟨?_, ?_⟩
  · rw [hread h]
    split
    case isTrue hn => rw [hn.1]
    case isFalse => rfl
  · rw [hread n]
    split
    case isTrue => simp [Option.filter_eq_some_iff]
    case isFalse hn =>
      have hout : d.mb n = {} := by
        unfold Device.mb
        exact List.getD_eq_default _ _ (by omega)
      simp [hout]

/-- A fold step takes the next list in order and clears the Merge Buffer's suspicion of the command. -/
theorem gives_foldStep {s : State} {k v : Nat} {c : Cmd} {l : UnitList} (hc : s.dev.cmd? k = some c) (hsearch : c.op.isSearch = true)
    (hphase : c.phase = .active) (hrun : v < c.runs.length) (hshards : c.shards = []) (hmb : (s.dev.mb c.half).out = false)
    (hnext : tfind (c.runs.getD v {}).nextFold (c.runs.getD v {}).arrived = some l) :
    gives (.foldStep k v) s fun e => (∃ c' f, e.cmd? k = some c' ∧ (c'.runs.getD v {}).nextFold = (c.runs.getD v {}).nextFold + 1 ∧
      (c'.runs.getD v {}).fold = foldStep c.sp.beta f l ∧ ((c.runs.getD v {}).nextFold ≠ 0 → f = (c.runs.getD v {}).fold) ∧
      (∀ w, w ≠ v → c'.runs.getD w {} = c.runs.getD w {})) ∧ e = { s.dev with cmds := e.cmds, mbs := e.mbs } ∧
      (e.mb c.half).suspect ≠ some k ∧ ∀ h, e.mb h = { s.dev.mb h with suspect := (e.mb h).suspect } := by
  refine gives_of_onDev (F := foldStepEff k v) rfl ?_
  have hk := Device.stamp_of_cmd? hc
  subst hk
  have hstep : foldStepEff c.stamp v s.dev = s.dev.foldStepOf c v := by simp [foldStepEff, hc, hsearch, hphase, hmb]
  have hsome : ((tfind (c.runs.getD v {}).nextFold (c.runs.getD v {}).arrived).isNone && c.shards.isEmpty) = false := by rw [hnext]; rfl
  have hfound := Device.turns_cmd? (Device.foldStepOf_turns hsome) hc
  have hown : Cmd.ownListed s.dev.shoal.device (c.onRun v c.foldsRun) = c.onRun v c.foldsRun := by
    have hnone : (c.onRun v c.foldsRun).shards = [] := hshards
    simp [Cmd.ownListed, hnone]
  have hfolds : c.foldsRun (c.runs.getD v {}) = (c.runs.getD v {}).foldNext c.sp.cap c.sp.beta := by
    unfold Cmd.foldsRun
    rw [hnext]
    rfl
  rw [hstep]
  refine ⟨⟨c.onRun v c.foldsRun, if (c.runs.getD v {}).nextFold = 0 then { (c.runs.getD v {}).fold with list := { (c.runs.getD v {}).fold.list with cap := c.sp.cap } }
      else (c.runs.getD v {}).fold, hfound.trans (congrArg some hown), ?_, ?_, fun h0 => if_neg h0, fun w hw => Cmd.run_onRun_other _ _ hw⟩, ?_, ?_, fun h => ?_⟩
  · rw [Cmd.run_onRun_same _ hrun, hfolds]
    simp only [VecRun.foldNext, hnext]
  · rw [Cmd.run_onRun_same _ hrun, hfolds]
    simp only [VecRun.foldNext, hnext]
  · rw [Device.foldStepOf_eq hsome]
    rfl
  · rw [Device.foldStepOf_eq hsome]
    exact (Device.mb_modMb_suspect _ c.half c.stamp c.half).2
  · rw [Device.foldStepOf_eq hsome]
    exact (Device.mb_modMb_suspect ((s.dev.modCmd c.stamp (Cmd.onRun v c.foldsRun)).modCmd c.stamp (Cmd.ownListed s.dev.shoal.device)) c.half c.stamp h).1

/-! ### Stages C and D (R133, R145, R147) -/

/-- A command whose stage B list b stands. -/
def Cmd.listed (b : List Entry) (c : Cmd) : Cmd := { c with listB := b, stage := if c.sp.stageC then 3 else if c.sp.stageD then 4 else 5 }
/-- A command with its stage C list, and n NaN scores more. -/
def Cmd.refinedTo (l : List Entry) (n : Nat) (c : Cmd) : Cmd := { c with listC := some l, nanExtra := c.nanExtra + n }
/-- A command whose stage C has ended where its list stands. -/
def Cmd.endsC (c : Cmd) : Cmd :=
  if c.stage == 3 && c.listC.isSome then { c with stage := if c.sp.stageD then 4 else 5, work := piecesDone 8 0xFFFFFFFF c.work } else c

@[simp] theorem Cmd.endsC_stamp (c : Cmd) : c.endsC.stamp = c.stamp := by
  unfold Cmd.endsC
  split <;> rfl

/-- With no request of the command outstanding, stage C ends. -/
theorem Device.endC_eq {d e : Device} {k : Nat} (h : ∀ o ∈ d.shoal.pending, o.stamp ≠ k) (hs : e.shoal = d.shoal) : e.endC k = e.modCmd k Cmd.endsC := by
  have hnone : (e.shoal.pending.any fun o => o.stamp == k && o.kind == 0x05) = false := by
    rw [hs, List.any_eq_false]
    intro o ho
    simp [h o ho]
  unfold Device.endC
  simp only [hnone, Bool.not_false, Bool.and_true]
  rfl

/-- The stages of a search read nothing of a group's pieces or of its commands. -/
theorem Device.runStageC_of_indexes {d e : Device} (h : e.indexes = d.indexes) (c : Cmd) (es : List Entry) : e.runStageC c es = d.runStageC c es := by
  have hindex : ∀ i, e.index? i = d.index? i := fun i => by unfold Device.index?; rw [h]
  have hscores : ∀ x, e.refineScores c x = d.refineScores c x := fun x => by
    unfold Device.refineScores Device.storedOf
    simp only [hindex]
  unfold Device.runStageC
  simp only [hscores]

/-- Stage C of a folded command of this device: the stage B list stands, stage C follows where asked for, and ends. -/
theorem stageC_turns {d : Device} {k : Nat} {c : Cmd} {x : Index} (h : d.Searching k c x) (hfolded : d.folded c = true) (hstage : c.stage ≤ 2)
    (hnone : ∀ o ∈ d.shoal.pending, o.stamp ≠ k) :
    let b := d.stageBList c
    let G := if c.sp.stageC then Cmd.endsC ∘ (Cmd.refinedTo (d.runStageC c b).1 (d.runStageC c b).2 ∘ Cmd.listed b) else Cmd.endsC ∘ Cmd.listed b
    d.turns (stageStartEff k 3 d) k G ∧ (stageStartEff k 3 d).mem = d.mem := by
  intro b G
  have hk := Device.stamp_of_cmd? h.found
  subst hk
  rw [stageStartEff_C h]
  have hlisted : d.turns ((d.groupDone c.burgee c.stamp [3]).modCmd c.stamp (Cmd.listed b)) c.stamp (Cmd.listed b) :=
    Device.turns_trans (d.groupDone_turns _ _ _ _) (Device.turns_modCmd _ _ (Cmd.listed b) fun _ => rfl)
  have hstart : d.startC c = if c.sp.stageC then ((d.groupDone c.burgee c.stamp [3]).modCmd c.stamp (Cmd.listed b)).modCmd c.stamp
      (Cmd.refinedTo (d.runStageC c b).1 (d.runStageC c b).2) else (d.groupDone c.burgee c.stamp [3]).modCmd c.stamp (Cmd.listed b) := by
    have h3 : ¬ 3 ≤ c.stage := by omega
    have hrun : ((d.groupDone c.burgee c.stamp [3]).modCmd c.stamp (Cmd.listed b)).runStageC c b = d.runStageC c b := Device.runStageC_of_indexes rfl c b
    have halone : ((d.groupDone c.burgee c.stamp [3]).modCmd c.stamp (Cmd.listed b)).shoalIndex? c.indexNo = none := h.alone
    unfold Device.startC
    simp only [h.own, hfolded, h3, h.alone]
    cases hC : c.sp.stageC with
    | false => simp; rfl
    | true =>
      simp
      exact congrArg (fun p => ((d.groupDone c.burgee c.stamp [3]).modCmd c.stamp (Cmd.listed b)).modCmd c.stamp (Cmd.refinedTo p.1 p.2)) hrun
  rw [hstart]
  cases hC : c.sp.stageC with
  | false =>
    simp only [G, hC, Bool.false_eq_true, if_false]
    rw [Device.endC_eq hnone (by rfl)]
    exact ⟨Device.turns_trans hlisted (Device.turns_modCmd _ _ _ fun _ => Cmd.endsC_stamp _), rfl⟩
  | true =>
    simp only [G, hC, if_true]
    rw [Device.endC_eq hnone (by rfl)]
    exact ⟨Device.turns_trans (Device.turns_trans hlisted (Device.turns_modCmd _ _ _ fun _ => rfl)) (Device.turns_modCmd _ _ _ fun _ => Cmd.endsC_stamp _), rfl⟩

/-- Stage C follows the folded stage B list. -/
theorem gives_stageC {s : State} {k : Nat} {c : Cmd} {x : Index} (h : s.dev.Searching k c x) (hfolded : s.dev.folded c = true) (hstage : c.stage ≤ 2)
    (hnone : ∀ o ∈ s.dev.shoal.pending, o.stamp ≠ k) :
    gives (.stageStart k 3) s fun e => (∃ c', e.cmd? k = some c' ∧ c'.listB = s.dev.stageBList c ∧
      (c.sp.stageC = true → c'.listC = some (s.dev.runStageC c (s.dev.stageBList c)).1) ∧ (c.sp.stageC = false → c'.listC = c.listC) ∧
      c'.stage = if c.sp.stageD = true then 4 else 5) ∧ e.indexes = s.dev.indexes ∧ e.fns = s.dev.fns ∧ e.mem = s.dev.mem := by
  refine gives_of_onDev (F := stageStartEff k 3) rfl ?_
  obtain ⟨hturns, hmem⟩ := stageC_turns h hfolded hstage hnone
  obtain ⟨-, hfns, -, -, hindexes⟩ := Device.stagesTo_keeps hturns.1
  refine ⟨⟨_, Device.turns_cmd? hturns h.found, ?_⟩, hindexes, hfns, hmem⟩
  cases hC : c.sp.stageC with
  | false =>
    have hne : ((if c.sp.stageD = true then 4 else 5) == 3) = false := by split <;> rfl
    simp [Cmd.endsC, Cmd.listed, hC, hne]
  | true => simp [Cmd.endsC, Cmd.listed, Cmd.refinedTo, hC]

/-- A command with its stage D list, and n NaN scores more. -/
def Cmd.modelledTo (l : List Entry) (n : Nat) (c : Cmd) : Cmd :=
  { c with listD := some l, nanExtra := c.nanExtra + n, stage := 5, work := piecesDone 9 0xFFFFFFFF c.work }

/-- Stage D of a command in it: the model's list stands, its free elements drawn. -/
theorem stageD_eq {d : Device} {k : Nat} {c : Cmd} {x : Index} (h : d.Searching k c x) (hstage : c.stage = 4) :
    let es := c.listC.getD c.listB
    stageStartEff k 4 d = ({ d with fresh := d.fresh + (c.query 0).length * es.length } : Device).modCmd k
      (Cmd.modelledTo (d.runStageD c d.fresh es).1 (d.runStageD c d.fresh es).2) := by
  have hk := Device.stamp_of_cmd? h.found
  subst hk
  rw [stageStartEff_D h]
  unfold Device.startD
  simp only [hstage, h.own]
  rfl

theorem stageD_turns {d : Device} {k : Nat} {c : Cmd} {x : Index} (h : d.Searching k c x) (hstage : c.stage = 4) :
    let es := c.listC.getD c.listB
    d.turns (stageStartEff k 4 d) k (Cmd.modelledTo (d.runStageD c d.fresh es).1 (d.runStageD c d.fresh es).2) := by
  intro es
  rw [stageD_eq h hstage]
  exact ⟨rfl, rfl, fun _ => rfl⟩

/-- Stage D follows the stage C list. -/
theorem gives_stageD {s : State} {k : Nat} {c : Cmd} {x : Index} (h : s.dev.Searching k c x) (hstage : c.stage = 4) :
    gives (.stageStart k 4) s fun e => (∃ c', e.cmd? k = some c' ∧ c'.stage = 5 ∧
      c'.listD = some (s.dev.runStageD c s.dev.fresh (c.listC.getD c.listB)).1) ∧ e = { s.dev with cmds := e.cmds, fresh := e.fresh } := by
  refine gives_of_onDev (F := stageStartEff k 4) rfl ⟨⟨_, Device.turns_cmd? (stageD_turns h hstage) h.found, rfl, rfl⟩, ?_⟩
  rw [stageD_eq h hstage]
  rfl

/-- Settles O25, one lemma for each stage: what the stage makes of the command, and what it leaves. -/
theorem searchStagesAdvance : Obligations.SearchStagesAdvance := by
  unfold Obligations.SearchStagesAdvance
  intro s k c x d hc hsearch hown hsnap hindex halone
  have hruns : c.phase = .active → d.quiesced = false → d.Searching k c x := fun hphase hawake => ⟨hc, hsearch, hphase, hsnap, hown, hindex, halone, hawake⟩
  refine ⟨fun j hphase hawake hrun hvec hchunk hnot => gives_stageA (hruns hphase hawake) hrun hvec hchunk hnot,
    fun v u n t b hphase hrun hunit hmay ht hcmd hvec hno hstarted => gives_unitEnd hc hphase hrun hunit hmay ht hcmd hvec hno hstarted,
    fun v l hphase hrun hshards hmb hnext => gives_foldStep hc hsearch hphase hrun hshards hmb hnext,
    fun hphase hawake hfolded hstage hnone => gives_stageC (hruns hphase hawake) hfolded hstage hnone,
    fun hphase hawake hstage => gives_stageD (hruns hphase hawake) hstage⟩

end Sys2Proof.Machine
end

section
/-! A search run through its stages to its completion (R118, R148, R150): what every step carries on, the units of a vector, all the vectors; and O26. -/

namespace Sys2Proof.Machine

/-! ### What a search carries on -/

/-- The command c' is c further on: only what its stages find has changed. -/
def Cmd.onward (c c' : Cmd) : Prop :=
  c' = { c with runs := c'.runs, stage := c'.stage, listB := c'.listB, listC := c'.listC, listD := c'.listD, nanExtra := c'.nanExtra, work := c'.work }

theorem Cmd.onward_refl (c : Cmd) : c.onward c := rfl

theorem Cmd.onward_trans {a b c : Cmd} (h : a.onward b) (k : b.onward c) : a.onward c := by
  unfold Cmd.onward at *
  rw [k, h]

/-- What a command's stages find, does not name another command, nor another place for its result. -/
theorem Cmd.onward_keeps {c c' : Cmd} (h : c.onward c') :
    c'.stamp = c.stamp ∧ c'.op = c.op ∧ c'.phase = c.phase ∧ c'.snap = c.snap ∧ c'.remote = c.remote ∧ c'.indexNo = c.indexNo ∧ c'.sp = c.sp ∧
      c'.vecs = c.vecs ∧ c'.chunks = c.chunks ∧ c'.fn = c.fn ∧ c'.qid = c.qid ∧ c'.cid = c.cid := by
  unfold Cmd.onward at h
  rw [h]
  exact ⟨rfl, rfl, rfl, rfl, rfl, rfl, rfl, rfl, rfl, rfl, rfl, rfl⟩

/-- The stages turn the commands of a stamp so that each stands in a relation to what it was. -/
def Device.carries (R : Cmd → Cmd → Prop) (d e : Device) (k : Nat) : Prop := ∃ G, d.turns e k G ∧ ∀ b, R b (G b)

theorem Device.carries_refl {R : Cmd → Cmd → Prop} (hR : ∀ b, R b b) (d : Device) (k : Nat) : d.carries R d k := ⟨id, d.turns_refl k, hR⟩

theorem Device.carries_trans {R : Cmd → Cmd → Prop} (hR : ∀ a b c, R a b → R b c → R a c) {d e f : Device} {k : Nat} (h : d.carries R e k)
    (h' : e.carries R f k) : d.carries R f k := by
  obtain ⟨G, hG, hRG⟩ := h
  obtain ⟨H, hH, hRH⟩ := h'
  exact ⟨H ∘ G, Device.turns_trans hG hH, fun b => hR _ _ _ (hRG b) (hRH (G b))⟩

theorem Device.carries_cmd? {R : Cmd → Cmd → Prop} {d e : Device} {k : Nat} {c : Cmd} (h : d.carries R e k) (hc : d.cmd? k = some c) :
    ∃ c', e.cmd? k = some c' ∧ R c c' := by
  obtain ⟨G, hG, hRG⟩ := h
  exact ⟨G c, Device.turns_cmd? hG hc, hRG c⟩

/-- What a search starts from, it still has after steps that carry its command on. -/
theorem Device.Searching.after {d e : Device} {k : Nat} {c c' : Cmd} {x : Index} (h : d.Searching k c x) (hs : d.stagesTo e) (hc : e.cmd? k = some c')
    (ho : c.onward c') : e.Searching k c' x := by
  obtain ⟨-, -, hshoal, hquiesced, hindexes⟩ := Device.stagesTo_keeps hs
  obtain ⟨-, hop, hphase, hsnap, hremote, hno, -⟩ := Cmd.onward_keeps ho
  refine ⟨hc, hop ▸ h.search, hphase ▸ h.active, hsnap ▸ h.admitted, hremote ▸ h.own, ?_, ?_, hquiesced ▸ h.awake⟩
  · rw [hno, ← h.index]
    unfold Device.index?
    rw [hindexes]
  · rw [hno, ← h.alone, Device.shoalIndex?_of_shoal hshoal]

/-! ### Stages A and B -/

/-- Stage A has run for every vector. -/
def Cmd.probed (c : Cmd) : Prop := ∀ v, v < c.runs.length → (c.runs.getD v {}).stageA = true

/-- Stage A of some vectors carries the command on within its stage. -/
theorem Cmd.probedFor_onward (c : Cmd) (own : Nat → Bool) (x : Index) (js : List Nat) (b : Cmd) :
    b.onward (c.probedFor own x js b) ∧ (c.probedFor own x js b).stage = b.stage := by
  induction js generalizing b with
  | nil => exact ⟨b.onward_refl, rfl⟩
  | cons j js ih =>
    obtain ⟨ho, hstage⟩ := ih (c.probing own x b j)
    exact ⟨Cmd.onward_trans (b := c.probing own x b j) rfl ho, hstage⟩

/-- Stage A, of a command all of whose chunks are admitted, runs for every vector. -/
theorem stageA_probes {d : Device} {k : Nat} {c : Cmd} {x : Index} (h : d.Searching k c x) (hchunks : c.vecs.length ≤ 16 * c.chunks)
    (hruns : c.runs.length = c.vecs.length) (hstage : c.stage ≤ 2) :
    d.stagesTo (stageStartEff k 1 d) ∧ ∃ c', (stageStartEff k 1 d).cmd? k = some c' ∧ c.onward c' ∧ c'.runs.length = c.vecs.length ∧ c'.probed ∧ c'.stage ≤ 2 := by
  have hturns := Device.startA_turns h
  rw [stageStartEff_A h]
  obtain ⟨honward, hsame⟩ := c.probedFor_onward (d.ownCell c.indexNo) x c.unprobed c
  have hlength := c.length_probedFor (d.ownCell c.indexNo) x c.unprobed c
  have hread := c.getD_probedFor (d.ownCell c.indexNo) x c.unprobed c
  generalize c.probedFor (d.ownCell c.indexNo) x c.unprobed = p at hturns honward hsame hlength hread
  refine ⟨hturns.1, _, Device.turns_cmd? hturns h.found, Cmd.onward_trans honward rfl, hlength.trans hruns, fun v hv => ?_, ?_⟩
  · have hlt : v < c.runs.length := lt_of_lt_of_eq hv hlength
    show ((p c).runs.getD v {}).stageA = true
    rw [hread v]
    split
    case isTrue => rfl
    case isFalse hnot =>
      have hadmitted : v ∈ c.admittedVecs := by
        rw [Cmd.admittedVecs, List.mem_range]
        omega
      by_contra hA
      exact hnot ⟨List.mem_filter.2 ⟨hadmitted, by simpa using hA⟩, hlt⟩
  · simp only [Function.comp_apply, Cmd.pastA, hsame]
    split <;> omega

/-- A command whose runs may have got more units. -/
def Cmd.grows (c c' : Cmd) : Prop :=
  c.onward c' ∧ c'.stage = c.stage ∧ c'.runs.length = c.runs.length ∧ ∀ v, (c'.runs.getD v {}).stageA = (c.runs.getD v {}).stageA

theorem Cmd.grows_refl (c : Cmd) : c.grows c := ⟨rfl, rfl, rfl, fun _ => rfl⟩

theorem Cmd.grows_trans (a b c : Cmd) (h : a.grows b) (k : b.grows c) : a.grows c := by
  obtain ⟨ho, hstage, hlength, hA⟩ := h
  obtain ⟨ko, kstage, klength, kA⟩ := k
  exact ⟨Cmd.onward_trans ho ko, kstage.trans hstage, klength.trans hlength, fun v => (kA v).trans (hA v)⟩

/-- A property that a change of one run keeps, every run has. -/
theorem Cmd.run_onRun (j v : Nat) (g : VecRun → VecRun) (b : Cmd) (P : VecRun → VecRun → Prop) (hrefl : ∀ r, P r r) (hg : ∀ r, P r (g r)) :
    P (b.runs.getD v {}) ((b.onRun j g).runs.getD v {}) := by
  have hread : (b.onRun j g).runs.getD v {} = if v = j ∧ j < b.runs.length then g (b.runs.getD j {}) else b.runs.getD v {} := getD_lmod j v g b.runs {}
  rw [hread]
  split
  case isTrue hv =>
    rw [hv.1]
    exact hg _
  case isFalse => exact hrefl _

/-- Contexts placed for units change no command. -/
theorem Device.unitCtx_turns (d : Device) (c : Cmd) (j u k : Nat) : d.turns (d.unitCtx c j u) k id := by
  unfold Device.unitCtx
  dsimp only
  split
  · exact d.turns_refl k
  · exact Device.turns_of_cmds k rfl rfl

theorem Device.addUnits_carries (d : Device) (c : Cmd) (j : Nat) (us : List UnitId) : d.carries Cmd.grows (d.addUnits c j us) c.stamp := by
  have hadded : d.turns (d.modCmd c.stamp (Cmd.onRun j fun r => { r with units := r.units ++ us })) c.stamp (Cmd.onRun j fun r => { r with units := r.units ++ us }) :=
    d.turns_modCmd _ _ fun _ => rfl
  refine ⟨_, Device.turns_trans hadded (Device.foldl_turns_id _ (fun d u => Device.unitCtx_turns d c j _ _) _ _), fun b => ⟨rfl, rfl, Cmd.length_onRun _ _ _, fun v => ?_⟩⟩
  exact Cmd.run_onRun j v (fun r => { r with units := r.units ++ us }) b (fun r r' => r'.stageA = r.stageA) (fun _ => rfl) fun _ => rfl

theorem Device.foldl_carries {β : Type} {R : Cmd → Cmd → Prop} (hrefl : ∀ b, R b b) (htrans : ∀ a b c, R a b → R b c → R a c) {k : Nat}
    (f : Device → β → Device) (h : ∀ (d : Device) b, d.carries R (f d b) k) (bs : List β) (d : Device) : d.carries R (bs.foldl f d) k := by
  induction bs generalizing d with
  | nil => exact d.carries_refl hrefl k
  | cons b bs ih => exact Device.carries_trans htrans (h d b) (ih (f d b))

theorem Device.stageB_carries (d : Device) (c : Cmd) (x : Index) : d.carries Cmd.grows (d.stageB c x) c.stamp := by
  refine Device.foldl_carries Cmd.grows_refl Cmd.grows_trans _ (fun d j => ?_) _ d
  dsimp only
  split
  · exact d.carries_refl Cmd.grows_refl _
  · exact d.addUnits_carries c j _

/-! ### The units of a vector -/

/-- A command whose runs keep their units and whose folds go on. -/
def Cmd.foldsOn (c c' : Cmd) : Prop :=
  c.onward c' ∧ c'.stage = c.stage ∧ c'.runs.length = c.runs.length ∧ ∀ v, (c'.runs.getD v {}).stageA = (c.runs.getD v {}).stageA ∧
    (c'.runs.getD v {}).units = (c.runs.getD v {}).units ∧ (c.runs.getD v {}).nextFold ≤ (c'.runs.getD v {}).nextFold

/-- A run that keeps its units and whose fold goes on. -/
def VecRun.foldsOn (r r' : VecRun) : Prop := r'.stageA = r.stageA ∧ r'.units = r.units ∧ r.nextFold ≤ r'.nextFold

theorem VecRun.foldsOn_refl (r : VecRun) : r.foldsOn r := ⟨rfl, rfl, le_rfl⟩

theorem Cmd.foldsOn_refl (c : Cmd) : c.foldsOn c := ⟨rfl, rfl, rfl, fun _ => VecRun.foldsOn_refl _⟩

theorem Cmd.foldsOn_trans (a b c : Cmd) (h : a.foldsOn b) (k : b.foldsOn c) : a.foldsOn c := by
  obtain ⟨ho, hstage, hlength, hruns⟩ := h
  obtain ⟨ko, kstage, klength, kruns⟩ := k
  refine ⟨Cmd.onward_trans ho ko, kstage.trans hstage, klength.trans hlength, fun v => ?_⟩
  obtain ⟨hA, hunits, hnext⟩ := hruns v
  obtain ⟨kA, kunits, knext⟩ := kruns v
  exact ⟨kA.trans hA, kunits.trans hunits, hnext.trans knext⟩

theorem VecRun.foldNext_foldsOn (cap : Nat) (beta : F32) (r : VecRun) : r.foldsOn (r.foldNext cap beta) := by
  unfold VecRun.foldNext
  split
  · exact r.foldsOn_refl
  · exact ⟨rfl, rfl, Nat.le_succ _⟩

theorem VecRun.joinNext_foldsOn (cap : Nat) (beta : F32) (shards : List Nat) (closed : Bool) (r : VecRun) :
    r.foldsOn (r.joinNext cap beta shards closed) ∧ (r.joinNext cap beta shards closed).nextFold = r.nextFold := by
  unfold VecRun.joinNext
  split
  · exact ⟨r.foldsOn_refl, rfl⟩
  · split
    · exact ⟨r.foldsOn_refl, rfl⟩
    · exact ⟨⟨rfl, rfl, le_rfl⟩, rfl⟩

theorem Cmd.foldsRun_foldsOn (c : Cmd) (r : VecRun) : VecRun.foldsOn r (c.foldsRun r) := by
  unfold Cmd.foldsRun
  split
  · exact r.foldNext_foldsOn _ _
  · exact (VecRun.joinNext_foldsOn _ _ _ _ r).1

theorem Cmd.onRun_foldsOn (j : Nat) (g : VecRun → VecRun) (hg : ∀ r, VecRun.foldsOn r (g r)) (b : Cmd) : b.foldsOn (b.onRun j g) :=
  ⟨rfl, rfl, b.length_onRun j g, fun v => b.run_onRun j v g VecRun.foldsOn VecRun.foldsOn_refl hg⟩

/-- The owner's shard list set leaves every run's units and fold. -/
theorem Cmd.ownListed_foldsOn (self : Nat) (b : Cmd) :
    b.foldsOn (b.ownListed self) ∧ ∀ v, ((b.ownListed self).runs.getD v {}).nextFold = (b.runs.getD v {}).nextFold := by
  unfold Cmd.ownListed
  split
  case isFalse => exact ⟨b.foldsOn_refl, fun _ => rfl⟩
  case isTrue =>
    have hread : ∀ v, VecRun.foldsOn (b.runs.getD v {}) ((b.runs.map fun r => if (tfind self r.shards).isSome then r else
        { r with shards := tset self r.fold.sent r.shards }).getD v {}) ∧ ((b.runs.map fun r => if (tfind self r.shards).isSome then r else
        { r with shards := tset self r.fold.sent r.shards }).getD v {}).nextFold = (b.runs.getD v {}).nextFold := fun v => by
      by_cases hv : v < b.runs.length
      · rw [List.getD_eq_getElem _ _ hv, List.getD_eq_getElem _ _ (by simpa using hv), List.getElem_map]
        split
        · exact ⟨VecRun.foldsOn_refl _, rfl⟩
        · exact ⟨⟨rfl, rfl, le_rfl⟩, rfl⟩
      · rw [List.getD_eq_default _ _ (by omega), List.getD_eq_default _ _ (by simpa using hv)]
        exact ⟨VecRun.foldsOn_refl _, rfl⟩
    exact ⟨⟨rfl, rfl, List.length_map _, fun v => (hread v).1⟩, fun v => (hread v).2⟩

/-- A fold step goes on. -/
theorem Device.foldStepOf_carries (d : Device) (c : Cmd) (v : Nat) : d.carries Cmd.foldsOn (d.foldStepOf c v) c.stamp := by
  cases hnone : (tfind (c.runs.getD v {}).nextFold (c.runs.getD v {}).arrived).isNone && c.shards.isEmpty with
  | true =>
    have hsame : d.foldStepOf c v = d := by
      unfold Device.foldStepOf
      simp only [hnone, if_true]
    rw [hsame]
    exact d.carries_refl Cmd.foldsOn_refl _
  | false =>
    exact ⟨_, Device.foldStepOf_turns hnone, fun b => Cmd.foldsOn_trans _ _ _ (Cmd.onRun_foldsOn v c.foldsRun c.foldsRun_foldsOn b) (Cmd.ownListed_foldsOn _ _).1⟩

/-- Where the list the fold waits for has come, the fold step takes it. -/
theorem Device.foldStepOf_takes {d : Device} {k v : Nat} {c : Cmd} (hc : d.cmd? k = some c) (hrun : v < c.runs.length)
    (hcame : (tfind (c.runs.getD v {}).nextFold (c.runs.getD v {}).arrived).isSome = true) :
    ∃ c', (d.foldStepOf c v).cmd? k = some c' ∧ c.foldsOn c' ∧ (c'.runs.getD v {}).nextFold = (c.runs.getD v {}).nextFold + 1 := by
  have hk := Device.stamp_of_cmd? hc
  subst hk
  have hsome : ((tfind (c.runs.getD v {}).nextFold (c.runs.getD v {}).arrived).isNone && c.shards.isEmpty) = false := by
    rw [← Option.not_isSome, hcame]
    rfl
  refine ⟨_, Device.turns_cmd? (Device.foldStepOf_turns hsome) hc,
    Cmd.foldsOn_trans _ _ _ (Cmd.onRun_foldsOn v c.foldsRun c.foldsRun_foldsOn c) (Cmd.ownListed_foldsOn _ _).1, ?_⟩
  obtain ⟨l, hl⟩ := Option.isSome_iff_exists.1 hcame
  rw [Function.comp_apply, (Cmd.ownListed_foldsOn _ _).2, Cmd.run_onRun_same _ hrun, Cmd.foldsRun, if_pos hcame, VecRun.foldNext, hl]

theorem Device.unitArrives_carries (d : Device) (c : Cmd) (j u : Nat) (l : UnitList) : d.carries Cmd.foldsOn (d.unitArrives c j u l) c.stamp := by
  obtain ⟨⟨w, hturns⟩, -, -⟩ := d.unitArrives_gets c j u l
  exact ⟨_, hturns, fun b => Cmd.foldsOn_trans _ _ _ (b.onRun_foldsOn j (VecRun.gets u l) fun _ => ⟨rfl, rfl, le_rfl⟩)
    ⟨rfl, rfl, rfl, fun _ => VecRun.foldsOn_refl _⟩⟩

/-- Unit u of a vector as `runUnits` runs it: its list comes where it has not, and the fold takes a step. -/
def Device.runsUnit (k v : Nat) (d : Device) (u : Nat) : Device :=
  match d.cmd? k with
  | none => d
  | some c =>
    let r := c.runs.getD v {}
    let d1 := if r.ended u then d else match r.units[u]? with
      | some n => d.unitArrives c v u (d.unitList c v n none)
      | none => d
    match d1.cmd? k with
    | some c1 => d1.foldStepOf c1 v
    | none => d1

theorem Device.runUnits_eq (d : Device) (k v : Nat) :
    d.runUnits k v = (List.range (((d.cmd? k).elim [] (·.runs)).getD v {}).units.length).foldl (Device.runsUnit k v) d := rfl

/-- With every lower unit folded, running unit u leaves unit u folded too. -/
theorem Device.runsUnit_folds {d : Device} {k v u : Nat} {c : Cmd} (hc : d.cmd? k = some c) (hrun : v < c.runs.length) (hunit : u < (c.runs.getD v {}).units.length)
    (hlower : u ≤ (c.runs.getD v {}).nextFold) :
    d.carries Cmd.foldsOn (Device.runsUnit k v d u) k ∧ ∃ c', (Device.runsUnit k v d u).cmd? k = some c' ∧ c.foldsOn c' ∧ u < (c'.runs.getD v {}).nextFold := by
  have hk := Device.stamp_of_cmd? hc
  subst hk
  obtain ⟨d1, hd1⟩ : ∃ d1, d1 = (if (c.runs.getD v {}).ended u then d else match (c.runs.getD v {}).units[u]? with
      | some n => d.unitArrives c v u (d.unitList c v n none)
      | none => d) := ⟨_, rfl⟩
  have hcame : d.carries Cmd.foldsOn d1 c.stamp ∧ ∃ c1, d1.cmd? c.stamp = some c1 ∧ c.foldsOn c1 ∧
      (u < (c1.runs.getD v {}).nextFold ∨ (u = (c1.runs.getD v {}).nextFold ∧ (tfind u (c1.runs.getD v {}).arrived).isSome = true)) := by
    cases hended : (c.runs.getD v {}).ended u with
    | true =>
      rw [hended, if_pos rfl] at hd1
      subst hd1
      refine ⟨d1.carries_refl Cmd.foldsOn_refl _, c, hc, c.foldsOn_refl, ?_⟩
      simp only [VecRun.ended, Bool.or_eq_true, decide_eq_true_eq] at hended
      rcases hended with hfolded | hcame
      · exact .inl hfolded
      · exact (Nat.lt_or_eq_of_le hlower).imp id fun hu => ⟨hu, hcame⟩
    | false =>
      rw [hended, List.getElem?_eq_getElem hunit] at hd1
      simp only [Bool.false_eq_true, if_false] at hd1
      subst hd1
      obtain ⟨⟨w, hturns⟩, -, -⟩ := d.unitArrives_gets c v u (d.unitList c v (c.runs.getD v {}).units[u] none)
      have hgot : (Cmd.gets v u (d.unitList c v (c.runs.getD v {}).units[u] none) w c).runs.getD v {} = VecRun.gets u _ (c.runs.getD v {}) :=
        Cmd.run_onRun_same _ hrun
      have hon := d.unitArrives_carries c v u (d.unitList c v (c.runs.getD v {}).units[u] none)
      have hfolds : c.foldsOn (Cmd.gets v u (d.unitList c v (c.runs.getD v {}).units[u] none) w c) :=
        Cmd.foldsOn_trans _ _ _ (c.onRun_foldsOn v (VecRun.gets u _) fun _ => ⟨rfl, rfl, le_rfl⟩) ⟨rfl, rfl, rfl, fun _ => VecRun.foldsOn_refl _⟩
      refine ⟨hon, _, Device.turns_cmd? hturns hc, hfolds, ?_⟩
      rw [hgot]
      exact (Nat.lt_or_eq_of_le hlower).imp id fun hu => ⟨hu, by simp [VecRun.gets]⟩
  obtain ⟨hcarries, c1, hc1, hfolds, hnext⟩ := hcame
  have hstep : Device.runsUnit c.stamp v d u = d1.foldStepOf c1 v := by
    unfold Device.runsUnit
    simp only [hc]
    rw [← hd1, hc1]
  have hk1 := Device.stamp_of_cmd? hc1
  have hrun1 : v < c1.runs.length := lt_of_lt_of_eq hrun hfolds.2.2.1.symm
  have hfold := hk1 ▸ d1.foldStepOf_carries c1 v
  rw [hstep]
  refine ⟨Device.carries_trans Cmd.foldsOn_trans hcarries hfold, ?_⟩
  rcases hnext with hpast | ⟨hat, hcame⟩
  · obtain ⟨c2, hc2, hfolds2⟩ := Device.carries_cmd? hfold hc1
    exact ⟨c2, hc2, Cmd.foldsOn_trans _ _ _ hfolds hfolds2, hpast.trans_le (hfolds2.2.2.2 v).2.2⟩
  · obtain ⟨c2, hc2, hfolds2, hnext2⟩ := Device.foldStepOf_takes hc1 hrun1 (hat ▸ hcame)
    exact ⟨c2, hc2, Cmd.foldsOn_trans _ _ _ hfolds hfolds2, by omega⟩

/-- Running the units of a vector leaves every one of them folded. -/
theorem Device.runUnits_folds {d : Device} {k v : Nat} {c : Cmd} (hc : d.cmd? k = some c) (hrun : v < c.runs.length) :
    d.carries Cmd.foldsOn (d.runUnits k v) k ∧ ∃ c', (d.runUnits k v).cmd? k = some c' ∧ c.foldsOn c' ∧
      (c'.runs.getD v {}).units.length ≤ (c'.runs.getD v {}).nextFold := by
  have hupto : ∀ m, m ≤ (c.runs.getD v {}).units.length → d.carries Cmd.foldsOn ((List.range m).foldl (Device.runsUnit k v) d) k ∧
      ∃ c', ((List.range m).foldl (Device.runsUnit k v) d).cmd? k = some c' ∧ c.foldsOn c' ∧ m ≤ (c'.runs.getD v {}).nextFold := by
    intro m hm
    induction m with
    | zero => exact ⟨d.carries_refl Cmd.foldsOn_refl k, c, hc, c.foldsOn_refl, Nat.zero_le _⟩
    | succ m ih =>
      obtain ⟨hcarries, c', hc', hfolds, hnext⟩ := ih (by omega)
      obtain ⟨-, -, hlength, hruns⟩ := id hfolds
      obtain ⟨hstep, c2, hc2, hfolds2, hnext2⟩ := Device.runsUnit_folds (u := m) hc' (lt_of_lt_of_eq hrun hlength.symm) (by rw [(hruns v).2.1]; omega) hnext
      rw [List.range_succ, List.foldl_append]
      exact ⟨Device.carries_trans Cmd.foldsOn_trans hcarries hstep, c2, hc2, Cmd.foldsOn_trans _ _ _ hfolds hfolds2, hnext2⟩
  obtain ⟨hcarries, c', hc', hfolds, hnext⟩ := hupto _ le_rfl
  have hlast : d.runUnits k v = (List.range (c.runs.getD v {}).units.length).foldl (Device.runsUnit k v) d := by
    rw [Device.runUnits_eq, hc]
    rfl
  rw [hlast]
  exact ⟨hcarries, c', hc', hfolds, by rw [(hfolds.2.2.2 v).2.1]; exact hnext⟩

/-- Running the units of the first n vectors leaves each of those folded. -/
theorem Device.runVectors_folds {d : Device} {k : Nat} {c : Cmd} (hc : d.cmd? k = some c) (n : Nat) (hn : n ≤ c.runs.length) :
    d.carries Cmd.foldsOn ((List.range n).foldl (fun d j => d.runUnits k j) d) k ∧
      ∃ c', ((List.range n).foldl (fun d j => d.runUnits k j) d).cmd? k = some c' ∧ c.foldsOn c' ∧
        ∀ v, v < n → (c'.runs.getD v {}).units.length ≤ (c'.runs.getD v {}).nextFold := by
  induction n with
  | zero => exact ⟨d.carries_refl Cmd.foldsOn_refl k, c, hc, c.foldsOn_refl, fun v hv => absurd hv (Nat.not_lt_zero v)⟩
  | succ n ih =>
    obtain ⟨hcarries, c', hc', hfolds, hdone⟩ := ih (by omega)
    obtain ⟨hstep, c2, hc2, hfolds2, hdone2⟩ := Device.runUnits_folds (v := n) hc' (by rw [hfolds.2.2.1]; omega)
    rw [List.range_succ, List.foldl_append]
    refine ⟨Device.carries_trans Cmd.foldsOn_trans hcarries hstep, c2, hc2, Cmd.foldsOn_trans _ _ _ hfolds hfolds2, fun v hv => ?_⟩
    rcases Nat.lt_succ_iff_lt_or_eq.1 hv with hlt | rfl
    · obtain ⟨-, hunits, hnext⟩ := hfolds2.2.2.2 v
      rw [hunits]
      exact (hdone v hlt).trans hnext
    · exact hdone2

/-! ### The whole search -/

/-- A command of a lone index whose every run has had stage A and is folded, is folded. -/
theorem Device.folded_of_runs {d : Device} {c : Cmd} (hchunks : c.vecs.length ≤ 16 * c.chunks) (halone : d.shoalIndex? c.indexNo = none) (hA : c.probed)
    (hdone : ∀ v, v < c.runs.length → (c.runs.getD v {}).units.length ≤ (c.runs.getD v {}).nextFold) : d.folded c = true := by
  have hall : ∀ r ∈ c.runs, r.stageA = true ∧ r.units.length ≤ r.nextFold := fun r hr => by
    obtain ⟨v, hv, rfl⟩ := List.getElem_of_mem hr
    have hread := List.getD_eq_getElem c.runs {} hv
    exact ⟨hread ▸ hA v hv, hread ▸ hdone v hv⟩
  simp only [Device.folded, halone, hchunks, decide_true, Bool.true_and, List.all_eq_true, Option.isNone_none, Bool.or_true, Bool.true_or, Bool.and_true,
    Bool.and_eq_true, decide_eq_true_eq]
  exact hall

/-- The end of stage C carries a command on. -/
theorem Cmd.endsC_onward (c : Cmd) : c.onward c.endsC := by
  unfold Cmd.endsC
  split <;> rfl

theorem Cmd.listed_onward (c : Cmd) (b : List Entry) : c.onward (c.listed b) := rfl

theorem Cmd.refinedTo_onward (c : Cmd) (l : List Entry) (n : Nat) : c.onward (c.refinedTo l n) := rfl

/-- Stage C of a folded command of a lone index leads to stage D or to the final selection. -/
theorem stageC_leads {d : Device} {k : Nat} {c : Cmd} {x : Index} (h : d.Searching k c x) (hfolded : d.folded c = true) (hstage : c.stage ≤ 2)
    (hnone : ∀ o ∈ d.shoal.pending, o.stamp ≠ k) :
    d.stagesTo (stageStartEff k 3 d) ∧ ∃ c', (stageStartEff k 3 d).cmd? k = some c' ∧ c.onward c' ∧ (c'.stage = 4 ∨ c'.stage = 5) := by
  obtain ⟨hturns, -⟩ := stageC_turns h hfolded hstage hnone
  refine ⟨hturns.1, _, Device.turns_cmd? hturns h.found, ?_, ?_⟩
  · cases hC : c.sp.stageC with
    | false => exact Cmd.onward_trans (c.listed_onward _) (Cmd.endsC_onward _)
    | true => exact Cmd.onward_trans (Cmd.onward_trans (c.listed_onward _) (Cmd.refinedTo_onward _ _ _)) (Cmd.endsC_onward _)
  · cases hC : c.sp.stageC with
    | false =>
      have hne : ((if c.sp.stageD = true then 4 else 5) == 3) = false := by split <;> rfl
      simp [Cmd.endsC, Cmd.listed, hC, hne]
    | true => simp [Cmd.endsC, Cmd.listed, Cmd.refinedTo, hC]

/-- Stage D, where the command is in it, leads to the final selection; a command past it stays. -/
theorem stageD_leads {d : Device} {k : Nat} {c : Cmd} {x : Index} (h : d.Searching k c x) (hstage : c.stage = 4 ∨ c.stage = 5) :
    d.stagesTo (stageStartEff k 4 d) ∧ ∃ c', (stageStartEff k 4 d).cmd? k = some c' ∧ c.onward c' ∧ c'.stage = 5 := by
  rcases hstage with h4 | h5
  · have hturns := stageD_turns h h4
    exact ⟨hturns.1, _, Device.turns_cmd? hturns h.found, rfl, rfl⟩
  · have hsame : stageStartEff k 4 d = d := by
      rw [stageStartEff_D h]
      simp [Device.startD, h5]
    rw [hsame]
    exact ⟨d.stagesTo_refl, c, h.found, c.onward_refl, h5⟩

/-- A search command runs through its stages to its result. -/
theorem searchEff_stages {d : Device} {k : Nat} {c : Cmd} {x : Index} (h : d.Searching k c x) (hmb : (d.mb c.half).out = false)
    (hchunks : c.vecs.length ≤ 16 * c.chunks) (hruns : c.runs.length = c.vecs.length) (hstage : c.stage ≤ 2) (hnone : ∀ o ∈ d.shoal.pending, o.stamp ≠ k) :
    ∃ e c', searchEff c.op k d = e.postResult c' ∧ d.stagesTo e ∧ c.onward c' := by
  obtain ⟨hs1, c1, hc1, ho1, hlen1, hA1, hstage1⟩ := stageA_probes h hchunks hruns hstage
  have h1 := h.after hs1 hc1 ho1
  have hgrown : (stageStartEff k 1 d).carries Cmd.grows (stageStartEff k 2 (stageStartEff k 1 d)) k := by
    rw [stageStartEff_B h1]
    exact Device.stamp_of_cmd? hc1 ▸ Device.stageB_carries _ c1 x
  obtain ⟨c2, hc2, ho2, hstage2, hlen2, hA2⟩ := Device.carries_cmd? hgrown hc1
  have hs2 : d.stagesTo (stageStartEff k 2 (stageStartEff k 1 d)) := Device.stagesTo_trans hs1 hgrown.choose_spec.1.1
  obtain ⟨hran, c3, hc3, ⟨ho3, hstage3, hlen3, hruns3⟩, hdone⟩ := Device.runVectors_folds hc2 c.vecs.length (by omega)
  have hs3 := Device.stagesTo_trans hs2 hran.choose_spec.1.1
  have hto3 : c.onward c3 := Cmd.onward_trans ho1 (Cmd.onward_trans ho2 ho3)
  have h3 := h.after hs3 hc3 hto3
  obtain ⟨-, -, -, -, -, -, -, hvecs3, hchunks3, -⟩ := Cmd.onward_keeps hto3
  have hfolded := Device.folded_of_runs (c := c3) (by rw [hvecs3, hchunks3]; exact hchunks) h3.alone
    (fun v hv => by rw [(hruns3 v).1, hA2 v]; exact hA1 v (by omega)) fun v hv => hdone v (by omega)
  obtain ⟨-, -, hshoal3, -⟩ := Device.stagesTo_keeps hs3
  obtain ⟨hs4, c4, hc4, ho4, hstage4⟩ := stageC_leads h3 hfolded (by omega) (by rw [hshoal3]; exact hnone)
  have h4 := h3.after hs4 hc4 ho4
  obtain ⟨hs5, c5, hc5, ho5, hstage5⟩ := stageD_leads h4 hstage4
  have h5 := h4.after hs5 hc5 ho5
  refine ⟨_, c5, ?_, Device.stagesTo_trans hs3 (Device.stagesTo_trans hs4 hs5), Cmd.onward_trans hto3 (Cmd.onward_trans ho4 ho5)⟩
  simp only [searchEff, h.found, h.runs?, h.awake, hmb]
  simp only [bne_self_eq_false, Bool.not_true, Bool.or_self, Bool.false_eq_true, if_false, hc5]
  rw [if_pos (by simp [h5.active, h5.own, hstage5])]

/-- The result of a command carried on is a completion of the command as it was. -/
theorem Device.postResult_completes {d e : Device} {k : Nat} {c c' : Cmd} (hk : c.stamp = k) (hs : d.stagesTo e) (ho : c.onward c') (hown : c.remote = none)
    (hh : d.hostThere c.fn) (hq : (d.qp c.fn c.qid).isSome = true) (hle : c.sp.k ≤ 1024) :
    (∃ spec, d.posted (e.postResult c') c.fn c.qid c.cid 0 spec ∧ spec % 65536 ≤ c.sp.k) ∧ (e.postResult c').cmd? k = none ∧
      (e.postResult c').indexes = d.indexes := by
  obtain ⟨hkeeps, -⟩ := Device.stagesTo_keeps hs
  obtain ⟨hstamp, -, -, -, hremote, -, hsp, -, -, hfn, hqid, hcid⟩ := Cmd.onward_keeps ho
  obtain ⟨spec, hcompleted, hcount, -⟩ := Device.postResult_completed (d := e) (c := c') (hremote.trans hown) (hfn ▸ Device.keepsQueues_hostThere hkeeps hh)
    (by rw [hfn, hqid, Device.keepsQueues_qp hkeeps]; exact hq) (hsp ▸ hle)
  obtain ⟨hposted, hgone, -, hindexes⟩ := Device.completed_of_keepsQueues hkeeps hcompleted
  rw [hfn, hqid, hcid] at hposted
  exact ⟨⟨spec, hposted, hsp ▸ hcount⟩, by rw [← hk, ← hstamp]; exact hgone, hindexes⟩

/-- Settles O26: every stage carries the command on, no index and no queue pair changes before the result, and the result posts the completion. -/
theorem searchesRunToCompletion : Obligations.SearchesRunToCompletion := by
  unfold Obligations.SearchesRunToCompletion
  intro s k c d hc hphase hsnap hown hindex halone hh hq _ hle completes
  have hk := Device.stamp_of_cmd? hc
  refine ⟨fun hsearch hstage => ?_, fun hawake hmb hchunks hruns hstage hnone => ?_⟩
  · have hfinal : finalSelectionEff k d = d.postResult c := by simp [finalSelectionEff, hc, hsearch, hphase, hown, hstage]
    refine gives_of_onDev (F := finalSelectionEff k) rfl ?_
    show completes (finalSelectionEff k d)
    rw [hfinal]
    exact Device.postResult_completes hk d.stagesTo_refl c.onward_refl hown hh hq hle
  · obtain ⟨x, hx⟩ := Option.isSome_iff_exists.1 hindex
    have hruns? : c.op.isSearch = true → completes (searchEff c.op k d) := fun hsearch => by
      obtain ⟨e, c', heff, hs, ho⟩ := searchEff_stages ⟨hc, hsearch, hphase, hsnap, hown, hx, halone, hawake⟩ hmb hchunks hruns hstage hnone
      rw [heff]
      exact Device.postResult_completes hk hs ho hown hh hq hle
    refine ⟨fun hop => ?_, fun hop => ?_, fun hop => ?_⟩
    all_goals
      rw [hop] at hruns?
      exact gives_of_onDev (F := searchEff _ k) rfl (hruns? rfl)

end Sys2Proof.Machine
end

section
/-! Deadlines, lockstep mismatches and remote waits (R152, R155, R176, R358, R359); and O28. -/

namespace Sys2Proof.Machine

/-! ### The bound of a command voided (R359) -/

/-- A command whose bound is void: it goes on at rank 3. -/
def Cmd.unbound (c : Cmd) : Cmd := { c with voided := true, rank := 3 }

/-- Voiding a bound changes the command, where it had one, and what it has had counted. -/
theorem Device.voidBound_eq {d : Device} {k : Nat} {c : Cmd} (hc : d.cmd? k = some c) :
    d.voidBound k = if c.bound && !c.voided then (d.modCmd k Cmd.unbound).account (some c.fn) c.burgee fun a => { a with boundVoid := a.boundVoid + 1 } else d := by
  unfold Device.voidBound
  simp only [hc]
  rfl

/-- Voiding a bound leaves a command that had none, and makes unbound one that had. -/
theorem Device.voidBound_cmd? {d : Device} {k : Nat} {c : Cmd} (hc : d.cmd? k = some c) :
    (d.voidBound k).cmd? k = some (if c.bound && !c.voided then c.unbound else c) := by
  rw [Device.voidBound_eq hc]
  split
  · exact (Device.cmd?_of_cmds (by simp) k).trans (Device.cmd?_modCmd_same Cmd.unbound (fun _ => rfl) hc)
  · exact hc

/-! ### Deadlines (R151 to R155) -/

/-- A command cut before its admission completes with STAGE_CUT 6 at its deadline (R152, R155). -/
theorem deadlineCutEff_waiting {d : Device} {k t : Nat} {c : Cmd} (hc : d.cmd? k = some c) (hsearch : c.op.isSearch = true) (hown : c.remote = none)
    (hphase : c.phase = .waiting) (ht : c.deadline = some t) (hh : d.hostThere c.fn) (hq : (d.qp c.fn c.qid).isSome = true) (hk : c.sp.k ≤ 1024) :
    ∃ spec, (d.by t).completed (deadlineCutEff k d) c 0 spec ∧ spec / 2 ^ 32 % 256 = 6 := by
  have heff : deadlineCutEff k d = (((d.by t).recordWait c ((d.by t).now - c.t0)).account (some c.fn) c.burgee fun a => { a with notAdm := a.notAdm + 1 }).postResult
      { c with stageCut := 6, chunks := 0 } := by
    simp [deadlineCutEff, hc, ht, hsearch, hphase, Device.cutCmd, hown]
  have hrecorded : (d.by t).keepsQueues ((d.by t).recordWait c ((d.by t).now - c.t0)) := by
    unfold Device.recordWait
    split
    · exact Device.keepsQueues_refl _
    · exact ⟨rfl, rfl, rfl, fun _ => ⟨rfl, rfl⟩⟩
  have hready := Device.keepsQueues_trans hrecorded (Device.account_keepsQueues _ (some c.fn) c.burgee fun a => { a with notAdm := a.notAdm + 1 })
  obtain ⟨spec, hdone, -, hsix⟩ := Device.postResult_completed (c := { c with stageCut := 6, chunks := 0 }) hown (Device.keepsQueues_hostThere hready hh)
    ((congrArg Option.isSome (Device.keepsQueues_qp hready c.fn c.qid)).trans hq) hk
  rw [heff]
  exact ⟨spec, Device.completed_of_keepsQueues hready hdone, hsix rfl⟩

/-- What withdrawing requests of a command changes: the commands and the indexes stand, and of each function reporting and metering alone move. -/
theorem Device.cancelKinds_keeps (d : Device) (c : Cmd) (kinds : List Nat) :
    (d.cancelKinds c kinds).cmds = d.cmds ∧ (d.cancelKinds c kinds).now = d.now ∧ (d.cancelKinds c kinds).indexes = d.indexes ∧ d.fnsSent (d.cancelKinds c kinds) := by
  obtain ⟨honly, hfns, -⟩ := d.cancelKinds_sentTo c kinds
  refine ⟨by rw [honly]; rfl, by rw [honly]; rfl, by rw [honly]; rfl, hfns⟩

/-- An admitted command reaches its deadline: it is cut where it stands, and its requests are withdrawn (R152). -/
theorem deadlineCutEff_active {d : Device} {k t : Nat} {c : Cmd} (hc : d.cmd? k = some c) (hsearch : c.op.isSearch = true) (hown : c.remote = none)
    (hphase : c.phase = .active) (ht : c.deadline = some t) :
    ∃ b, deadlineCutEff k d = ((d.by t).cancelKinds c [0x01, 0x05]).modCmd k fun c' => { c' with phase := .cut, stageCut := d.cutCode c, listB := b } := by
  have hk := Device.stamp_of_cmd? hc
  subst hk
  refine ⟨if c.listB.isEmpty && decide (3 ≤ (d.by t).cutCode c) then (d.by t).stageBList c else c.listB, ?_⟩
  simp [deadlineCutEff, hc, ht, hsearch, hphase, Device.cutCmd, hown]
  rfl

theorem gives_deadlineCut_active {s : State} {k t : Nat} {c : Cmd} (hc : s.dev.cmd? k = some c) (hsearch : c.op.isSearch = true) (hown : c.remote = none)
    (hphase : c.phase = .active) (ht : c.deadline = some t) :
    gives (.deadlineCut k) s fun e => (∃ c', e.cmd? k = some c' ∧ c'.phase = .cut ∧ c'.stageCut = s.dev.cutCode c ∧ c'.runs = c.runs) ∧
      e.now = max s.dev.now t ∧ e.indexes = s.dev.indexes ∧ s.dev.fnsSent e := by
  refine gives_of_onDev (F := deadlineCutEff k) rfl ?_
  obtain ⟨b, heff⟩ := deadlineCutEff_active hc hsearch hown hphase ht
  obtain ⟨hcmds, hnow, hindexes, hfns⟩ := (s.dev.by t).cancelKinds_keeps c [0x01, 0x05]
  have hfound : ((s.dev.by t).cancelKinds c [0x01, 0x05]).cmd? k = some c := (Device.cmd?_of_cmds hcmds k).trans hc
  rw [heff]
  exact ⟨⟨_, Device.cmd?_modCmd_same _ (fun _ => rfl) hfound, rfl, rfl, rfl⟩, hnow, hindexes, hfns⟩

/-- The lists of a cut command of a lone index close 25 µs after its deadline (R152). -/
theorem remoteListsCloseEff_eq {d : Device} {k t : Nat} {c : Cmd} (hc : d.cmd? k = some c) (hown : c.remote = none) (hphase : c.phase = .cut)
    (ht : c.deadline = some t) (halone : d.shoalIndex? c.indexNo = none) :
    remoteListsCloseEff k d = ((d.by (t + 25000)).cancelKinds c [0x03]).modCmd k fun c' => { c' with phase := .closed, missing := 0 } := by
  simp [remoteListsCloseEff, hc, hown, hphase, ht, halone]

theorem gives_remoteListsClose {s : State} {k t : Nat} {c : Cmd} (hc : s.dev.cmd? k = some c) (hown : c.remote = none) (hphase : c.phase = .cut)
    (ht : c.deadline = some t) (halone : s.dev.shoalIndex? c.indexNo = none) :
    gives (.remoteListsClose k) s fun e => e.cmd? k = some { c with phase := .closed, missing := 0 } ∧ e.now = max s.dev.now (t + 25000) ∧
      e.indexes = s.dev.indexes ∧ s.dev.fnsSent e := by
  refine gives_of_onDev (F := remoteListsCloseEff k) rfl ?_
  obtain ⟨hcmds, hnow, hindexes, hfns⟩ := (s.dev.by (t + 25000)).cancelKinds_keeps c [0x03]
  have hfound : ((s.dev.by (t + 25000)).cancelKinds c [0x03]).cmd? k = some c := (Device.cmd?_of_cmds hcmds k).trans hc
  rw [remoteListsCloseEff_eq hc hown hphase ht halone]
  exact ⟨Device.cmd?_modCmd_same _ (fun _ => rfl) hfound, hnow, hindexes, hfns⟩

/-! ### Lockstep (R176) -/

/-- The device with a step re-run of the command that owns it, if one does: counted, and its bound voided. -/
def Device.reruns (d : Device) (st : Option Nat) : Device :=
  match st with
  | some k => (d.modCmd k fun c => { c with reruns := c.reruns + 1 }).voidBound k
  | none => d

theorem Device.reruns_keeps (d : Device) (st : Option Nat) : (d.reruns st).scs = d.scs ∧ (d.reruns st).scCnt = d.scCnt := by
  cases st with
  | none => exact ⟨rfl, rfl⟩
  | some k => simp [Device.reruns]

/-- A mismatch of an SC's step as it is counted, before the step re-runs. -/
def Device.seCounted (d : Device) (sc ctx : Nat) : Device :=
  ((d.modSc sc fun s => { s with mismatch := s.mismatch + 1, suspect := some ctx, rerun := false }).modCnt sc fun c => { c with lockstep := c.lockstep + 1 }).modEng
    sc fun e => { e with se := e.se.filter (fun p => p.ctx != ctx) ++ e.seKept.filter (fun p => p.ctx == ctx) }

/-- Two mismatches of one step take the SC out; one re-runs it. -/
theorem Device.seMismatch_eq (d : Device) (sc ctx : Nat) :
    d.seMismatch sc ctx = if (d.sc sc).suspect == some ctx then
      ((d.seCounted sc ctx).reruns (((d.seCounted sc ctx).ctx? ctx).bind (·.cmd))).scOut sc
      else (d.seCounted sc ctx).reruns (((d.seCounted sc ctx).ctx? ctx).bind (·.cmd)) := rfl

theorem Device.sc_modSc_same (d : Device) (n : Nat) (g : ScSched → ScSched) : (d.modSc n g).sc n = g (d.sc n) := tget_tmod_same _ _ _ _

theorem Device.sc_modSc_other (d : Device) {n m : Nat} (g : ScSched → ScSched) (h : m ≠ n) : (d.modSc n g).sc m = d.sc m := tget_tmod_other _ _ _ _ _ h

/-- What leaves the SCs' scheduling leaves each. -/
theorem Device.sc_of_scs {d e : Device} (h : e.scs = d.scs) (n : Nat) : e.sc n = d.sc n := by
  unfold Device.sc
  rw [h]

theorem Device.cnt_of_scCnt {d e : Device} (h : e.scCnt = d.scCnt) (n : Nat) : e.cnt n = d.cnt n := by
  unfold Device.cnt
  rw [h]

@[simp] theorem Device.sc_modEng (d : Device) (m n : Nat) (g : Engines → Engines) : (d.modEng m g).sc n = d.sc n := rfl
@[simp] theorem Device.sc_modStr (d : Device) (m n : Nat) (g : Streams → Streams) : (d.modStr m g).sc n = d.sc n := rfl
@[simp] theorem Device.sc_modCnt (d : Device) (m n : Nat) (g : ScCounters → ScCounters) : (d.modCnt m g).sc n = d.sc n := rfl
@[simp] theorem Device.sc_modCtx (d : Device) (i n : Nat) (g : Ctx → Ctx) : (d.modCtx i g).sc n = d.sc n := rfl
@[simp] theorem Device.sc_dropSc (d : Device) (m n : Nat) : (d.dropSc m).sc n = d.sc n := rfl

theorem Device.sc_seCounted_same (d : Device) (sc ctx : Nat) :
    (d.seCounted sc ctx).sc sc = { d.sc sc with mismatch := (d.sc sc).mismatch + 1, suspect := some ctx, rerun := false } := by
  simp only [Device.seCounted, Device.sc_modEng, Device.sc_modCnt, Device.sc_modSc_same]

theorem Device.sc_seCounted_other (d : Device) {sc n : Nat} (ctx : Nat) (h : n ≠ sc) : (d.seCounted sc ctx).sc n = d.sc n := by
  simp only [Device.seCounted, Device.sc_modEng, Device.sc_modCnt, Device.sc_modSc_other _ _ h]

theorem Device.cnt_seCounted (d : Device) (sc ctx : Nat) : ((d.seCounted sc ctx).cnt sc).lockstep = (d.cnt sc).lockstep + 1 := by
  simp only [Device.seCounted, Device.cnt_modEng, Device.cnt_modCnt_same]
  rfl

/-- The first mismatch of a step re-runs it. -/
theorem gives_firstMismatch {s : State} {n who : Nat} (hn : n < 64) (hin : (s.dev.sc n).out = false) (hnot : (s.dev.sc n).suspect ≠ some who) :
    gives (.lockstepMismatch false n who) s fun e => (e.sc n).mismatch = (s.dev.sc n).mismatch + 1 ∧ (e.sc n).suspect = some who ∧
      (e.sc n).out = false ∧ (e.cnt n).lockstep = (s.dev.cnt n).lockstep + 1 ∧ ∀ m, m ≠ n → e.sc m = s.dev.sc m := by
  refine gives_of_onDev (F := lockstepMismatchEff false n who) rfl ?_
  have hstep : lockstepMismatchEff false n who s.dev = (s.dev.seCounted n who).reruns (((s.dev.seCounted n who).ctx? who).bind (·.cmd)) := by
    have hsuspect : ((s.dev.sc n).suspect == some who) = false := by simpa using hnot
    have hn' : ¬ 64 ≤ n := by omega
    simp [lockstepMismatchEff, hn', hin, Device.seMismatch_eq, hsuspect]
  obtain ⟨hscs, hcnt⟩ := (s.dev.seCounted n who).reruns_keeps (((s.dev.seCounted n who).ctx? who).bind (·.cmd))
  rw [hstep]
  refine ⟨?_, ?_, ?_, ?_, fun m hm => (Device.sc_of_scs hscs m).trans (Device.sc_seCounted_other _ who hm)⟩
  · rw [Device.sc_of_scs hscs, Device.sc_seCounted_same]
  · rw [Device.sc_of_scs hscs, Device.sc_seCounted_same]
  · rw [Device.sc_of_scs hscs, Device.sc_seCounted_same]
    exact hin
  · rw [Device.cnt_of_scCnt hcnt]
    exact s.dev.cnt_seCounted n who

/-- A context that goes to another SC takes no SC out of service or back into it. -/
theorem Device.replaceCtx_keeps (d : Device) (t : Ctx) (n : Nat) :
    ((d.replaceCtx t).sc n).out = (d.sc n).out ∧ (d.replaceCtx t).scCnt = d.scCnt ∧ (d.replaceCtx t).sideMb = d.sideMb := by
  unfold Device.replaceCtx
  split
  · exact ⟨rfl, rfl, rfl⟩
  · refine ⟨?_, by simp, by simp⟩
    simp only [Device.sc_modEng, Device.sc_modStr, Device.sc_modCtx]
    by_cases hn : n = t.sc
    · subst hn
      rw [Device.sc_modSc_same]
    · rw [Device.sc_modSc_other _ _ hn]

/-- The SC as it is reported and dropped, before its contexts go to others. -/
def Device.scLeaves (d : Device) (n : Nat) : Device :=
  ((d.modSc n fun s => { s with out := true, suspect := none, rerun := false }).raiseDev 0x0002 n).dropSc n

theorem Device.scLeaves_out (d : Device) (n : Nat) :
    ((d.scLeaves n).sc n).out = true ∧ (d.scLeaves n).scCnt = d.scCnt ∧ (d.scLeaves n).lastEvent = some (devEvent 2 n) := by
  refine ⟨?_, ?_, Device.raiseDev_lastEvent _ _ _⟩
  · rw [Device.scLeaves, Device.sc_dropSc]
    refine (congrArg ScSched.out (Device.sc_of_scs (d := d.modSc n fun s => { s with out := true, suspect := none, rerun := false }) ?_ n)).trans ?_
    · simp only [Device.raiseDev_keeps]
    · rw [Device.sc_modSc_same]
  · show ((d.modSc n fun s => { s with out := true, suspect := none, rerun := false }).raiseDev 0x0002 n).scCnt = d.scCnt
    simp only [Device.raiseDev_keeps, Device.modSc_keeps]

/-- An SC that leaves service is out, and its event is the last. -/
theorem Device.scOut_out (d : Device) (n : Nat) :
    ((d.scOut n).sc n).out = true ∧ (d.scOut n).scCnt = d.scCnt ∧ (d.scOut n).lastEvent = some (devEvent 2 n) := by
  have heq : d.scOut n = ((d.scLeaves n).ctxs.filter fun t => t.sc == n).foldl (fun d t => d.replaceCtx t)
      ((d.scLeaves n).modStr n fun s => { s with refills := [] }) := rfl
  have hkeep := fun (ts : List Ctx) (e : Device) => foldl_keep (fun d : Device => ((d.sc n).out, d.scCnt, d.sideMb)) (fun d t => d.replaceCtx t)
    (fun d t => by simp only [(d.replaceCtx_keeps t n).1, (d.replaceCtx_keeps t n).2.1, (d.replaceCtx_keeps t n).2.2]) ts e
  simp only [Prod.mk.injEq] at hkeep
  obtain ⟨hout, hcnt, hside⟩ := hkeep ((d.scLeaves n).ctxs.filter fun t => t.sc == n) ((d.scLeaves n).modStr n fun s => { s with refills := [] })
  obtain ⟨hleft, hsame, hlast⟩ := d.scLeaves_out n
  rw [heq]
  refine ⟨hout.trans hleft, hcnt.trans hsame, ?_⟩
  unfold Device.lastEvent at hlast ⊢
  rw [hside]
  exact hlast

/-- The second mismatch of a step takes the SC out of service. -/
theorem gives_secondMismatch {s : State} {n who : Nat} (hn : n < 64) (hin : (s.dev.sc n).out = false) (hsuspect : (s.dev.sc n).suspect = some who) :
    gives (.lockstepMismatch false n who) s fun e => (e.sc n).out = true ∧ (e.cnt n).lockstep = (s.dev.cnt n).lockstep + 1 ∧
      e.lastEvent = some (devEvent 2 n) := by
  refine gives_of_onDev (F := lockstepMismatchEff false n who) rfl ?_
  have hstep : lockstepMismatchEff false n who s.dev = ((s.dev.seCounted n who).reruns (((s.dev.seCounted n who).ctx? who).bind (·.cmd))).scOut n := by
    have hn' : ¬ 64 ≤ n := by omega
    simp [lockstepMismatchEff, hn', hin, Device.seMismatch_eq, hsuspect]
  obtain ⟨hout, hcnt, hlast⟩ := ((s.dev.seCounted n who).reruns (((s.dev.seCounted n who).ctx? who).bind (·.cmd))).scOut_out n
  have hcounted := ((s.dev.seCounted n who).reruns_keeps (((s.dev.seCounted n who).ctx? who).bind (·.cmd))).2
  rw [hstep]
  refine ⟨hout, ?_, hlast⟩
  rw [Device.cnt_of_scCnt hcnt, Device.cnt_of_scCnt hcounted]
  exact s.dev.cnt_seCounted n who

/-- The first mismatch of a fold step re-runs it in its Merge Buffer. -/
theorem gives_firstMergeMismatch {s : State} {h k : Nat} {c : Cmd} (hc : s.dev.cmd? k = some c) (hh : h < 2) (hlen : s.dev.mbs.length = 2)
    (hin : (s.dev.mb h).out = false) (hnot : (s.dev.mb h).suspect ≠ some k) :
    gives (.lockstepMismatch true h k) s fun e => (e.mb h).mismatch = (s.dev.mb h).mismatch + 1 ∧ (e.mb h).out = false ∧
      e.devCnt.mbReruns = s.dev.devCnt.mbReruns + 1 ∧ ∃ c', e.cmd? k = some c' ∧ c'.reruns = c.reruns + 1 := by
  refine gives_of_onDev (F := lockstepMismatchEff true h k) rfl ?_
  obtain ⟨d1, hd1⟩ : ∃ d1 : Device, d1 = { s.dev.modMb h (fun m => { m with mismatch := m.mismatch + 1, suspect := some k }) with
      devCnt := { s.dev.devCnt with mbReruns := s.dev.devCnt.mbReruns + 1 } } := ⟨_, rfl⟩
  have hstep : lockstepMismatchEff true h k s.dev = (d1.modCmd k fun c => { c with reruns := c.reruns + 1 }).voidBound k := by
    have hsuspect : ((s.dev.mb h).suspect == some k) = false := by simpa using hnot
    have hh' : ¬ 2 ≤ h := by omega
    simp [lockstepMismatchEff, hh', hin, Device.mbMismatch, hsuspect, hd1]
  have hmb : ((d1.modCmd k fun c => { c with reruns := c.reruns + 1 }).voidBound k).mb h =
      { s.dev.mb h with mismatch := (s.dev.mb h).mismatch + 1, suspect := some k } := by
    unfold Device.mb
    simp only [Device.voidBound_keeps, hd1]
    exact getD_lmod_same _ _ (by omega)
  have hfound : (d1.modCmd k fun c => { c with reruns := c.reruns + 1 }).cmd? k = some { c with reruns := c.reruns + 1 } :=
    Device.cmd?_modCmd_same _ (fun _ => rfl) (hd1 ▸ hc)
  rw [hstep, hmb]
  refine ⟨rfl, hin, ?_, _, Device.voidBound_cmd? hfound, ?_⟩
  · simp [hd1]
  · split <;> rfl

/-! ### Replies and waits (R358, R359) -/

/-- A shard's reply joins its command once. -/
theorem gives_shardReply {s : State} {k : Nat} {c : Cmd} {o : Outstanding} {bs : List Byte} (hc : s.dev.cmd? k = some c)
    (ho : s.dev.shoal.pending.find? (fun p => p.tag == o.tag && p.dst == o.dst) = some o) (hkind : o.kind = 0x03) (hstamp : o.stamp = k)
    (hrrt : ∀ i ∈ s.dev.ctxs, ∀ r ∈ i.rrt, r.tag ≠ o.tag) (hin : ∀ p ∈ c.shardsIn, posOf p ≠ posOf o.dst) :
    gives (.remoteReplyArrival o.dst o.tag bs) s fun e => o ∉ e.shoal.pending ∧
      (∃ c' p, e.cmd? k = some c' ∧ posOf p = posOf o.dst ∧ c'.shardsIn = c.shardsIn ++ [p]) ∧ e.fns = s.dev.fns ∧ e.indexes = s.dev.indexes := by
  refine gives_of_onDev (F := fun d => d.replyFrom o.dst o.tag bs) rfl ?_
  have htake : s.dev.takeReply o.tag bs = (true, s.dev) := by
    have hnone : (s.dev.ctxs.find? fun t => t.rrt.any fun e => e.tag == o.tag) = none := by
      rw [List.find?_eq_none]
      intro i hi
      simpa using hrrt i hi
    have hpending : (s.dev.shoal.pending.any fun p => p.tag == o.tag) = true := List.any_eq_true.2 ⟨o, List.mem_of_find?_eq_some ho, by simp⟩
    unfold Device.takeReply
    simp only [hnone, hpending]
  have hreply : s.dev.replyFrom o.dst o.tag bs = s.dev.consume o bs := by
    unfold Device.replyFrom
    simp only [ho, htake, if_true]
  have hnew : (c.shardsIn.any fun p => posOf p == posOf o.dst) = false := by
    rw [List.any_eq_false]
    intro p hp
    simpa using hin p hp
  have hk := Device.stamp_of_cmd? hc
  have hc' : ({ s.dev with shoal := { s.dev.shoal with pending := s.dev.shoal.pending.filter fun p => p != o } } : Device).cmd? k = some c := hc
  have hshard : posOf ((c.shards.find? fun p => posOf p == posOf o.dst).getD o.dst) = posOf o.dst := by
    cases hfind : c.shards.find? fun p => posOf p == posOf o.dst with
    | none => rfl
    | some p => simpa using List.find?_some hfind
  rw [hreply]
  unfold Device.consume
  simp only [hstamp, hc', hkind, hnew, hk, Bool.false_eq_true, if_false]
  refine ⟨by simp, ⟨_, _, Device.cmd?_modCmd_same _ (fun _ => rfl) hc', hshard, ?_⟩, by simp, by simp⟩
  rfl

/-- A message of the directory and its parts: no request, command or index is changed. -/
theorem Device.sendDir_keeps (d : Device) (dst kind what : Nat) (bs : List Byte) :
    let e := d.sendDir dst kind what bs
    e.shoal.pending = d.shoal.pending ∧ e.shoal.bgTimeouts = d.shoal.bgTimeouts ∧ e.now = d.now ∧ e.indexes = d.indexes ∧ e.cmds = d.cmds := by
  have hpart : ∀ (d : Device) (tag : Nat) (bs : List Byte),
      let e := (d.newTag).2.send dst kind tag 0 false bs
      (e.shoal.pending, e.shoal.bgTimeouts, e.now, e.indexes, e.cmds) = (d.shoal.pending, d.shoal.bgTimeouts, d.now, d.indexes, d.cmds) := fun d tag bs => by
    intro e
    obtain ⟨honly, -, -⟩ := Device.send_sentTo (d.newTag).2 dst kind tag 0 false bs
    show (e.shoal.pending, e.shoal.bgTimeouts, e.now, e.indexes, e.cmds) = _
    rw [show e = _ from honly]
    rfl
  have hall : _ = _ := foldl_keep (fun e : Device => (e.shoal.pending, e.shoal.bgTimeouts, e.now, e.indexes, e.cmds)) _
    (fun (d : Device) (i : Nat) => hpart d d.shoal.nextTag (leBytes 8 what ++ leBytes 8 bs.length ++ leBytes 8 (61440 * i) ++ (bs.drop (61440 * i)).take 61440))
    (List.range (max 1 ((bs.length + 61439) / 61440))) d
  simp only [Prod.mk.injEq] at hall
  exact hall

/-- A background request unanswered for 10 ms is given up. -/
theorem gives_backgroundReplyTimeout {s : State} {o : Outstanding} (ho : s.dev.shoal.pending.find? (fun p => p.tag == o.tag && p.stamp == 0) = some o) :
    gives (.backgroundReplyTimeout o.tag) s fun e => o ∉ e.shoal.pending ∧ e.shoal.bgTimeouts = s.dev.shoal.bgTimeouts + 1 ∧
      e.now = max s.dev.now (o.at_ + 10000000) ∧ e.indexes = s.dev.indexes ∧ e.cmds = s.dev.cmds := by
  refine gives_of_onDev (F := backgroundReplyTimeoutEff o.tag) rfl ?_
  unfold backgroundReplyTimeoutEff
  simp only [ho]
  generalize (List.filter _ (List.flatMap _ _)) = told
  have hkeep := fun e : Device => foldl_keep (fun e : Device => (e.shoal.pending, e.shoal.bgTimeouts, e.now, e.indexes, e.cmds))
    (fun (d : Device) (p : Nat × Nat × Nat) => d.sendDir p.1 0x15 6 (leBytes 8 p.2.1 ++ leBytes 8 p.2.2))
    (fun d p => by simpa only [Prod.mk.injEq] using d.sendDir_keeps p.1 0x15 6 (leBytes 8 p.2.1 ++ leBytes 8 p.2.2)) told e
  simp only [Prod.mk.injEq] at hkeep
  obtain ⟨hpending, htimeouts, hnow, hindexes, hcmds⟩ := hkeep _
  rw [hpending, htimeouts, hnow, hindexes, hcmds]
  exact ⟨by simp, rfl, rfl, rfl, rfl⟩

/-- A wait of RW voids the bound of its command. -/
theorem gives_remoteWaitAllowanceExpiry {s : State} {k : Nat} {c : Cmd} {o : Outstanding} (hc : s.dev.cmd? k = some c)
    (ho : s.dev.shoal.pending.find? (fun p => p.tag == o.tag && p.stamp != 0) = some o) (hstamp : o.stamp = k) (hbound : c.bound = true)
    (hvoided : c.voided = false) :
    gives (.remoteWaitAllowanceExpiry o.tag) s fun e => e.cmd? k = some { c with voided := true, rank := 3 } ∧
      e.now = max s.dev.now (o.at_ + 1000 * (s.dev.burgee c.burgee).rw) ∧ e.shoal = s.dev.shoal := by
  refine gives_of_onDev (F := remoteWaitAllowanceExpiryEff o.tag) rfl ?_
  subst hstamp
  have hk := Device.stamp_of_cmd? hc
  have hc' : (s.dev.by (o.at_ + 1000 * (s.dev.burgee c.burgee).rw)).cmd? c.stamp = some c := hk ▸ hc
  have hvoid := Device.voidBound_cmd? hc'
  simp only [hbound, hvoided, Bool.not_false, Bool.and_self, if_true] at hvoid
  unfold remoteWaitAllowanceExpiryEff
  simp only [ho, hc]
  refine ⟨?_, by simp; rfl, by simp⟩
  rw [← hk]
  exact hvoid

/-- Settles O28, one lemma for each clause. -/
theorem cutsMismatchesAndReplies : Obligations.CutsMismatchesAndReplies := by
  unfold Obligations.CutsMismatchesAndReplies
  intro s k c d hc hsearch hown
  refine ⟨fun t hphase ht hh hq hk => ?_, fun t hphase ht => gives_deadlineCut_active hc hsearch hown hphase ht,
    fun t hphase ht halone => gives_remoteListsClose hc hown hphase ht halone, fun n who hn hin hnot => gives_firstMismatch hn hin hnot,
    fun n who hn hin hsuspect => gives_secondMismatch hn hin hsuspect, fun h hh hlen hin hnot => gives_firstMergeMismatch hc hh hlen hin hnot,
    fun o bs ho hkind hstamp hrrt hin => gives_shardReply hc ho hkind hstamp hrrt hin, fun o ho => gives_backgroundReplyTimeout ho,
    fun o ho hstamp hbound hvoided => gives_remoteWaitAllowanceExpiry hc ho hstamp hbound hvoided⟩
  obtain ⟨spec, ⟨hposted, hgone, hnow, hindexes⟩, hsix⟩ := deadlineCutEff_waiting hc hsearch hown hphase ht hh hq hk
  exact gives_of_onDev (F := deadlineCutEff k) rfl ⟨⟨spec, hposted, hsix⟩, Device.stamp_of_cmd? hc ▸ hgone, hnow, hindexes⟩

end Sys2Proof.Machine
end

section
/-! The Walk Engine: walks that wait, walks that start, and commits (R128, R129, R134, R137, R197 to R199). -/

namespace Sys2Proof.Machine

/-! ### What a walk keeps as its expansions are asked for -/

/-- The walk w' is w but for the expansions in flight, what it has offered and whether it has ended. -/
def Walk.sameWalk (w w' : Walk) : Prop :=
  w' = { w with inFlight := w'.inFlight, due := w'.due, ended := w'.ended, squashed := w'.squashed, result := w'.result }

theorem Walk.sameWalk_trans {a b c : Walk} (h : a.sameWalk b) (k : b.sameWalk c) : a.sameWalk c := by
  unfold Walk.sameWalk at *
  rw [k, h]

/-- What a walk is identified by, where it lies and what it has committed stand. -/
theorem Walk.sameWalk_keeps {w w' : Walk} (h : w.sameWalk w') :
    w'.ctx = w.ctx ∧ w'.unit = w.unit ∧ w'.pool = w.pool ∧ w'.bytes = w.bytes ∧ w'.mode = w.mode ∧ w'.beam = w.beam ∧ w'.visited = w.visited ∧
      w'.expanded = w.expanded := by
  unfold Walk.sameWalk at h
  rw [h]
  exact ⟨rfl, rfl, rfl, rfl, rfl, rfl, rfl, rfl⟩

theorem Walk.refill_sameWalk (w : Walk) : w.sameWalk w.refill.1 := by
  unfold Walk.refill
  split <;> rfl

/-- The reads of new expansions are charged, and the walk waits for them. -/
theorem Device.askRead_metered (d : Device) (sc ctx : Nat) (r : Nat × Nat) : d.readsCharged (d.askRead sc ctx r) := by
  unfold Device.askRead
  dsimp only
  split
  · exact Device.readsCharged_trans (Device.charge_metered _ _ _ _ _ _) (Device.memReadCount_metered _ _ _ _)
  · exact Device.memReadCount_metered _ _ _ _

theorem Device.ask_keeps (d : Device) (sc : Nat) (x : Index) (w : Walk) (new : List Nat) :
    d.readsCharged (d.ask sc x w new).1 ∧ w.sameWalk (d.ask sc x w new).2 := by
  unfold Device.ask
  dsimp only
  split
  · exact ⟨d.readsCharged_refl, rfl⟩
  · exact ⟨Device.foldl_metered _ (fun d r => d.askRead_metered sc w.ctx r) _ _, rfl⟩

/-! ### A walk starts, or waits (R197, R198) -/

/-- Metering leaves the engines and their counters, whatever they are beside it. -/
theorem Device.readsCharged_engines {d d1 : Device} (h : d.readsCharged d1) (es : Tab Engines) :
    ({ d with engines := es } : Device).readsCharged { d1 with engines := es } := by
  obtain ⟨honly, hfns, hburgees⟩ := h
  refine ⟨?_, hfns, hburgees⟩
  conv_lhs => rw [honly]

theorem Device.readsCharged_scCnt {d d1 : Device} (h : d.readsCharged d1) (cs : Tab ScCounters) :
    ({ d with scCnt := cs } : Device).readsCharged { d1 with scCnt := cs } := by
  obtain ⟨honly, hfns, hburgees⟩ := h
  refine ⟨?_, hfns, hburgees⟩
  conv_lhs => rw [honly]

/-- A walk placed after the reads of its expansions: it is the last of its SC, and nothing but metering is beside it. -/
theorem Device.walkPlaced {d d1 : Device} {sc : Nat} (w : Walk) (h : d.readsCharged d1) :
    let e := d1.modEng sc fun g => { g with walks := g.walks ++ [w] }
    (e.eng sc).walks = (d.eng sc).walks ++ [w] ∧ (∀ k, k ≠ sc → e.eng k = d.eng k) ∧ ({ d with engines := e.engines } : Device).readsCharged e := by
  intro e
  have heng : ∀ k, d1.eng k = d.eng k := fun k => by rw [h.1]; rfl
  refine ⟨?_, fun k hk => (d1.eng_modEng_other _ hk).trans (heng k), Device.readsCharged_engines h _⟩
  rw [Device.eng_modEng_same, heng]

/-- A walk's W fits where the SC holds fewer than 256, its place is free and its burgee keeps within 28 banks (R197). -/
theorem Device.walkFits_iff (d : Device) (sc : Nat) (w : Walk) :
    d.walkFits sc w = true ↔ (d.eng sc).walks.length < 256 ∧ (∀ o ∈ (d.eng sc).walks, rangesMeet o.pool o.bytes w.pool w.bytes = false) ∧
      lsum (((d.eng sc).walks.filter fun o => (d.ctx? o.ctx).elim 0 (·.burgee) == (d.ctx? w.ctx).elim 0 (·.burgee)).map (·.bytes)) + w.bytes ≤ 28 * 0x40000 := by
  unfold Device.walkFits walkPoolBytes
  simp [and_assoc]

/-- A descriptor of a walk, its checks passed, finds no other walk waiting: it starts where its W fits, and waits where not. -/
theorem walkEff_eq {d : Device} {mode sc : Nat} {desc : List Byte} {x : Index} (hsc : sc < 64) (hmode : (parseWalk desc).mode = mode)
    (hok : walkOk desc (parseWalk desc) = true) (hx : d.index? (parseWalk desc).index = some x) (hwait : (d.eng sc).walkWait = []) :
    walkEff mode sc desc d = if d.walkFits sc (parseWalk desc) then d.startWalk sc desc
      else d.modEng sc fun g => { g with walkWait := g.walkWait ++ [(desc, d.now)] } := by
  have hidle : d.startWalks sc = d := by
    unfold Device.startWalks
    rw [hwait]
    rfl
  unfold walkEff
  dsimp only
  rw [hmode, hok, hx]
  simp only [Option.isSome_some, Bool.and_self, Device.runDesc_runs hsc, hidle, hwait, List.isEmpty_nil, Bool.true_and]

/-- A walk of a level or of the centroid graph starts from its entry node. -/
theorem Device.startWalk_starts {d : Device} {sc : Nat} {desc : List Byte} {x : Index} (hx : d.index? (parseWalk desc).index = some x)
    (hmode : (parseWalk desc).mode ≠ 2) :
    let w := parseWalk desc
    let start := walkStart (w.view x) w.width (w.fin x (d.eng sc)) (fieldAt desc 8 4)
    ∃ d1 w', d.readsCharged d1 ∧ d.startWalk sc desc = d1.modEng sc (fun g => { g with walks := g.walks ++ [w'] }) ∧
      w'.ctx = w.ctx ∧ w'.unit = w.unit ∧ w'.pool = w.pool ∧ w'.bytes = w.bytes ∧ w'.mode = w.mode ∧ w'.beam = start.beam ∧ w'.visited = start.visited := by
  intro w start
  obtain ⟨w1, hw1⟩ : ∃ w1, w1 = w.took x (d.eng sc) (d.ctxBeta w.ctx) (d.ctxTransform w.ctx x) d.shoal.device start := ⟨_, rfl⟩
  obtain ⟨hcharged, hasked⟩ := d.ask_keeps sc x w1.refill.1 w1.refill.2.2
  obtain ⟨hctx, hunit, hpool, hbytes, hsame, hbeam, hvisited, -⟩ := Walk.sameWalk_keeps (Walk.sameWalk_trans w1.refill_sameWalk hasked)
  refine ⟨(d.ask sc x w1.refill.1 w1.refill.2.2).1, (d.ask sc x w1.refill.1 w1.refill.2.2).2, hcharged, ?_, ?_⟩
  · unfold Device.startWalk
    simp only [hx, hmode, if_false]
    rw [hw1]
  · rw [hctx, hunit, hpool, hbytes, hsame, hbeam, hvisited, hw1]
    exact ⟨rfl, rfl, rfl, rfl, rfl, rfl, rfl⟩

/-! ### A commit (R134, R137) -/

/-- The walk under way of a context and unit is one of the SC's walks, of that context and unit. -/
theorem Engines.walk?_mem {g : Engines} {ctx unit : Nat} {w : Walk} (h : g.walk? ctx unit = some w) :
    w ∈ g.walks ∧ w.ctx = ctx ∧ w.unit = unit ∧ w.ended = false := by
  obtain ⟨⟨hctx, hunit⟩, hended⟩ : (w.ctx = ctx ∧ w.unit = unit) ∧ w.ended = false := by simpa using List.find?_some h
  exact ⟨List.mem_of_find?_eq_some h, hctx, hunit, hended⟩

@[simp] theorem Device.eng_modCnt (d : Device) (m n : Nat) (g : ScCounters → ScCounters) : (d.modCnt m g).eng n = d.eng n := rfl

/-- A commit expands the entry: the walk's committed state is that of the expansion, and one commit more is counted. -/
theorem Device.commitWalk_commits {d : Device} {sc ctx unit : Nat} {x : Index} {w : Walk} (hw : (d.eng sc).walk? ctx unit = some w) (n : Nat) :
    let r := w.walked.expand (w.view x) 0 w.width w.keep (w.sk (d.eng sc)) (w.fin x (d.eng sc)) n
    let e := d.commitWalk sc x w n
    (∃ w' ∈ (e.eng sc).walks, w'.ctx = w.ctx ∧ w'.unit = w.unit ∧ w'.beam = r.beam ∧ w'.visited = r.visited ∧ w'.expanded = r.expanded) ∧
      (e.cnt sc).weCommits = (d.cnt sc).weCommits + 1 ∧ (∀ k, k ≠ sc → e.eng k = d.eng k) ∧
      ({ d with engines := e.engines, scCnt := e.scCnt } : Device).readsCharged e := by
  intro r e
  obtain ⟨w1, hw1⟩ : ∃ w1 : Walk, w1 = { (w.took x (d.eng sc) (d.ctxBeta w.ctx) (d.ctxTransform w.ctx x) d.shoal.device r) with
    inFlight := w.inFlight.filter (·.node != n) } := ⟨_, rfl⟩
  obtain ⟨w2, hw2⟩ : ∃ w2 : Walk, w2 = { w1.refill.1 with squashed := w1.refill.1.squashed + w1.refill.2.1.length } := ⟨_, rfl⟩
  obtain ⟨hcharged, hasked⟩ := d.ask_keeps sc x w2 w1.refill.2.2
  obtain ⟨w3, hw3⟩ : ∃ w3 : Walk, w3 = (d.ask sc x w2 w1.refill.2.2).2 := ⟨_, rfl⟩
  have hcommit : e = ((d.ask sc x w2 w1.refill.2.2).1.modEng sc fun g => { g.modWalk w.ctx w.unit (fun _ => w3) with
      gathered := g.gathered.filter fun o => !(o.ctx == w.ctx && o.unit == w.unit && (o.node.elim true fun m => m == n || w1.refill.2.1.contains m)) }).modCnt sc
      fun k => { k with weCommits := k.weCommits + 1, weSquashes := k.weSquashes + w1.refill.2.1.length } := by
    rw [hw3, hw2, hw1]
    rfl
  obtain ⟨hmem, hctx, hunit, hended⟩ := Engines.walk?_mem hw
  have heng : ∀ k, (d.ask sc x w2 w1.refill.2.2).1.eng k = d.eng k := fun k => by rw [hcharged.1]; rfl
  have hcnt : (d.ask sc x w2 w1.refill.2.2).1.cnt sc = d.cnt sc := Device.cnt_of_scCnt (by rw [hcharged.1]) sc
  have hsame : w1.sameWalk w3 := by
    refine Walk.sameWalk_trans (Walk.sameWalk_trans w1.refill_sameWalk (b := w1.refill.1) (c := w2) ?_) (hw3 ▸ hasked)
    rw [hw2]
    rfl
  obtain ⟨kctx, kunit, -, -, -, kbeam, kvisited, kexpanded⟩ := Walk.sameWalk_keeps hsame
  have hwalks : (e.eng sc).walks = (d.eng sc).walks.map fun o => if o.ctx == w.ctx && o.unit == w.unit && !o.ended then w3 else o := by
    rw [hcommit, Device.eng_modCnt, Device.eng_modEng_same, heng]
    rfl
  refine ⟨⟨w3, ?_, ?_⟩, ?_, fun k hk => ?_, ?_⟩
  · rw [hwalks]
    exact List.mem_map.2 ⟨w, hmem, by simp [hended]⟩
  · rw [kctx, kunit, kbeam, kvisited, kexpanded, hw1]
    exact ⟨rfl, rfl, rfl, rfl, rfl⟩
  · rw [hcommit, Device.cnt_modCnt_same, Device.cnt_modEng, hcnt]
  · rw [hcommit, Device.eng_modCnt, Device.eng_modEng_other _ _ hk, heng]
  · rw [hcommit]
    exact Device.readsCharged_scCnt (Device.readsCharged_engines hcharged _) _

/-- EXPANSION_COMMIT of a walk whose records have come, and check, is its commit. -/
theorem expansionCommitEff_eq {d : Device} {sc ctx unit : Nat} {w : Walk} {x : Index} {b : BeamEntry} (hw : (d.eng sc).walk? ctx unit = some w)
    (hx : d.index? w.index = some x) (hb : nextOf w.beam = some b) (hdue : w.due = []) (hmiss : d.expansionMiss x w b.node = none) :
    expansionCommitEff sc ctx unit d = d.commitWalk sc x w b.node := by
  obtain ⟨-, hctx, hunit, -⟩ := Engines.walk?_mem hw
  have htake : d.takeDue sc w b.node (w.due.length + 1) = .ok d := by
    simp only [Device.takeDue, hctx, hunit, hw, hdue, List.contains_nil, Bool.not_false, if_true]
  unfold expansionCommitEff
  simp only [hw, hx, hb, htake, hmiss, Option.getD_some]

/-! ### The walk clauses of O38 -/

/-- A walk of a property has been added to an SC, and nothing but metering is beside it. -/
def Device.addsWalk (d : Device) (sc : Nat) (w : Walk) (P : Walk → Prop) (e : Device) : Prop :=
  ∃ w', (e.eng sc).walks = (d.eng sc).walks ++ [w'] ∧ w'.ctx = w.ctx ∧ w'.unit = w.unit ∧ w'.pool = w.pool ∧ w'.bytes = w.bytes ∧ w'.mode = w.mode ∧
    P w' ∧ (∀ k, k ≠ sc → e.eng k = d.eng k) ∧ ({ d with engines := e.engines } : Device).readsCharged e

/-- A walk whose W fits starts from its entry node. -/
theorem walkEff_starts {d : Device} {mode sc : Nat} {desc : List Byte} {x : Index} (hsc : sc < 64) (hmode : (parseWalk desc).mode = mode) (hnot : mode ≠ 2)
    (hok : walkOk desc (parseWalk desc) = true) (hx : d.index? (parseWalk desc).index = some x) (hwait : (d.eng sc).walkWait = [])
    (hfits : d.walkFits sc (parseWalk desc) = true) :
    let w := parseWalk desc
    let start := walkStart (w.view x) w.width (w.fin x (d.eng sc)) (fieldAt desc 8 4)
    d.addsWalk sc w (fun w' => w'.beam = start.beam ∧ w'.visited = start.visited) (walkEff mode sc desc d) := by
  intro w start
  obtain ⟨d1, w', hcharged, hstart, hctx, hunit, hpool, hbytes, hsame, hbeam, hvisited⟩ := Device.startWalk_starts hx (hmode ▸ hnot)
  obtain ⟨hwalks, hothers, hrest⟩ := Device.walkPlaced (sc := sc) w' hcharged
  rw [walkEff_eq hsc hmode hok hx hwait, if_pos hfits, hstart]
  exact ⟨w', hwalks, hctx, hunit, hpool, hbytes, hsame, ⟨hbeam, hvisited⟩, hothers, hrest⟩

/-- Changes of an SC's engines that agree on them as they stand are one change. -/
theorem Device.modEng_congr {d : Device} {sc : Nat} {f g : Engines → Engines} (h : f (d.eng sc) = g (d.eng sc)) : d.modEng sc f = d.modEng sc g := by
  unfold Device.modEng tmod
  exact congrArg (fun e => ({ d with engines := tset sc e d.engines } : Device)) h

/-- A descent whose W fits reaches its node at once. -/
theorem walkEff_descends {d : Device} {sc : Nat} {desc : List Byte} {x : Index} (hsc : sc < 64) (hmode : (parseWalk desc).mode = 2)
    (hok : walkOk desc (parseWalk desc) = true) (hx : d.index? (parseWalk desc).index = some x) (hwait : (d.eng sc).walkWait = [])
    (hfits : d.walkFits sc (parseWalk desc) = true) :
    let w := parseWalk desc
    d.addsWalk sc w (fun w' => w'.ended = true ∧
      w'.reached = descend (w.view x) (w.sk (d.eng sc)) ((w.graph x).nNodes + 1) 1 (fieldAt desc 12 1) (fieldAt desc 8 4)) (walkEff 2 sc desc d) := by
  intro w
  obtain ⟨hwalks, hothers, hrest⟩ := Device.walkPlaced (sc := sc) { w with
    reached := descend (w.view x) (w.sk (d.eng sc)) ((w.graph x).nNodes + 1) 1 (fieldAt desc 12 1) (fieldAt desc 8 4), ended := true } d.readsCharged_refl
  have hstart : d.startWalk sc desc = d.modEng sc fun g => { g with walks := g.walks ++ [{ w with
      reached := descend (w.view x) (w.sk (d.eng sc)) ((w.graph x).nNodes + 1) 1 (fieldAt desc 12 1) (fieldAt desc 8 4), ended := true }] } := by
    unfold Device.startWalk
    simp only [hx]
    rw [if_pos hmode]
    exact Device.modEng_congr rfl
  rw [walkEff_eq hsc hmode hok hx hwait, if_pos hfits, hstart]
  exact ⟨_, hwalks, rfl, rfl, rfl, rfl, rfl, ⟨rfl, rfl⟩, hothers, hrest⟩

/-- A walk whose W does not fit waits. -/
theorem walkEff_waits {d : Device} {mode sc : Nat} {desc : List Byte} {x : Index} (hsc : sc < 64) (hmode : (parseWalk desc).mode = mode)
    (hok : walkOk desc (parseWalk desc) = true) (hx : d.index? (parseWalk desc).index = some x) (hwait : (d.eng sc).walkWait = [])
    (hfull : d.walkFits sc (parseWalk desc) = false) :
    let e := walkEff mode sc desc d
    (e.eng sc).walkWait = [(desc, d.now)] ∧ (e.eng sc).walks = (d.eng sc).walks ∧ e = { d with engines := e.engines } := by
  rw [walkEff_eq hsc hmode hok hx hwait, hfull, if_neg Bool.false_ne_true]
  refine ⟨?_, ?_, rfl⟩
  · rw [Device.eng_modEng_same, hwait]
    rfl
  · rw [Device.eng_modEng_same]

end Sys2Proof.Machine
end

section
/-! The Filter Unit's masks and verdicts, bit by bit and cell by cell (R202 to R206); and O38. -/

namespace Sys2Proof.Machine

/-! ### Bits and codes packed in words and bytes -/

theorem lsum_append (xs : List Nat) (n : Nat) : lsum (xs ++ [n]) = lsum xs + n := by simp [lsum]

/-- A sum of powers of two, one for each number below n that a predicate takes, has exactly their bits. -/
theorem testBit_lsum_pow (p : Nat → Bool) (n : Nat) :
    lsum ((List.range n).map fun j => if p j then 2 ^ j else 0) < 2 ^ n ∧
      ∀ j, (lsum ((List.range n).map fun j => if p j then 2 ^ j else 0)).testBit j = (decide (j < n) && p j) := by
  induction n with
  | zero => exact ⟨by simp [lsum], fun j => by simp [lsum]⟩
  | succ n ih =>
    obtain ⟨hlt, hbits⟩ := ih
    rw [List.range_succ, List.map_append, List.map_singleton, lsum_append]
    generalize hs : lsum ((List.range n).map fun j => if p j then 2 ^ j else 0) = S at hlt hbits
    cases hp : p n with
    | false =>
      refine ⟨by simpa using hlt.trans (Nat.pow_lt_pow_right (by decide) n.lt_succ_self), fun j => ?_⟩
      simp only [Bool.false_eq_true, if_false, Nat.add_zero, hbits]
      by_cases hj : j = n
      · simp [hj, hp]
      · have hiff : j < n + 1 ↔ j < n := by omega
        simp only [hiff]
    | true =>
      refine ⟨by simp only [if_true, Nat.pow_succ]; omega, fun j => ?_⟩
      simp only [if_true, Nat.add_comm S]
      rcases Nat.lt_trichotomy j n with hj | rfl | hj
      · rw [Nat.testBit_two_pow_add_gt hj, hbits]
        simp [hj, hj.trans n.lt_succ_self]
      · rw [Nat.testBit_two_pow_add_eq, Nat.testBit_lt_two_pow hlt]
        simp [hp]
      · rw [Nat.testBit_lt_two_pow (by
          calc 2 ^ n + S < 2 ^ n + 2 ^ n := by omega
            _ = 2 ^ (n + 1) := by rw [Nat.pow_succ]; omega
            _ ≤ 2 ^ j := Nat.pow_le_pow_right (by decide) hj)]
        simp [show ¬ j < n + 1 by omega]

/-- The word at position k of words laid out as bytes is the word there. -/
theorem fieldAt_words (xs : List Nat) (k : Nat) (hk : k < xs.length) : fieldAt (xs.flatMap (leBytes 8)) (8 * k) 8 = xs.getD k 0 % 2 ^ 64 := by
  induction xs generalizing k with
  | nil => simp at hk
  | cons x xs ih =>
    cases k with
    | zero => exact fieldAt_front 8 x _
    | succ k =>
      rw [show 8 * (k + 1) = 8 + 8 * k by omega, List.flatMap_cons, fieldAt_skip, ih k (by simpa using hk), List.getD_cons_succ]

/-- A chunk that begins within a list is there. -/
theorem lt_length_chunksOf {α : Type} {n k fuel : Nat} {xs : List α} (hfuel : k < fuel) (hk : n * k < xs.length) : k < (chunksOf n fuel xs).length := by
  induction fuel generalizing k xs with
  | zero => omega
  | succ fuel ih =>
    have hne : xs.isEmpty = false := by
      cases xs with
      | nil => simp at hk
      | cons => rfl
    unfold chunksOf
    rw [hne, if_neg Bool.false_ne_true, List.length_cons]
    cases k with
    | zero => omega
    | succ k =>
      rw [Nat.mul_succ] at hk
      exact Nat.succ_lt_succ (ih (by omega) (by rw [List.length_drop]; omega))

/-- The sum that packs at most four two-bit codes. -/
theorem sum_codes (c : List Nat) (hc : c.length ≤ 4) : (c.zipIdx.map fun p => p.1 % 2 ^ 2 * 2 ^ (2 * p.2)).foldl (· + ·) 0 =
    c.getD 0 0 % 4 + c.getD 1 0 % 4 * 4 + c.getD 2 0 % 4 * 16 + c.getD 3 0 % 4 * 64 := by
  match c, hc with
  | [], _ => simp
  | [_], _ => simp
  | [_, _], _ => simp
  | [_, _, _], _ => simp
  | [_, _, _, _], _ => simp

/-- Two-bit codes of one byte, of at most four, read back each from its place. -/
theorem codesOfByte (c : List Nat) (hc : c.length ≤ 4) {j : Nat} (hj : j < 4) :
    (BitVec.ofNat 8 ((c.zipIdx.map fun p => p.1 % 2 ^ 2 * 2 ^ (2 * p.2)).foldl (· + ·) 0)).toNat / 4 ^ j % 4 = c.getD j 0 % 4 := by
  rw [sum_codes c hc, BitVec.toNat_ofNat]
  interval_cases j <;> omega

/-- Two-bit codes packed read back each from its place in its byte. -/
theorem getD_packCodes {xs : List Nat} {k : Nat} (hk : k < xs.length) :
    k / 4 < (packCodes 2 xs).length ∧ ((packCodes 2 xs).getD (k / 4) 0).toNat / 4 ^ (k % 4) % 4 = xs.getD k 0 % 4 := by
  have hpack : packCodes 2 xs = (chunksOf 4 xs.length xs).map fun g =>
      BitVec.ofNat 8 ((g.zipIdx.map fun p => p.1 % 2 ^ 2 * 2 ^ (2 * p.2)).foldl (· + ·) 0) := rfl
  have hchunk : k / 4 < xs.length := by omega
  refine ⟨?_, ?_⟩
  · rw [hpack, List.length_map]
    exact lt_length_chunksOf hchunk (by omega)
  · rw [hpack, getD_chunksOf 4 _ 0 rfl _ _ _ hchunk, codesOfByte _ (by simp) (Nat.mod_lt _ (by decide))]
    congr 1
    simp only [List.getD_eq_getElem?_getD, List.getElem?_take, List.getElem?_drop, Nat.mod_lt k (by decide : 4 > 0), if_true]
    rw [Nat.div_add_mod]

/-! ### Masks (R204) -/

/-- Candidate i is one of the descriptor's, may be read, and passes a parameter set. -/
def Device.fuTakes (d : Device) (sc : Nat) (f : FuDesc) (x : Index) (base set i : Nat) : Bool :=
  decide (i < f.count) && (d.fuCand sc f x base i).elim false fun p => (d.eng sc).fu.admits f.prog set p.1 p.2

theorem Device.fuTakes_iff (d : Device) (sc : Nat) (f : FuDesc) (x : Index) (base set i : Nat) :
    d.fuTakes sc f x base set i = true ↔ i < f.count ∧ ∃ id words, d.fuCand sc f x base i = some (id, words) ∧ (d.eng sc).fu.admits f.prog set id words = true := by
  unfold Device.fuTakes
  cases hcand : d.fuCand sc f x base i with
  | none => simp
  | some p =>
    have hadmits : (∃ id words, some p = some (id, words) ∧ (d.eng sc).fu.admits f.prog set id words = true) ↔ (d.eng sc).fu.admits f.prog set p.1 p.2 = true :=
      ⟨fun ⟨_, _, hp, h⟩ => by cases hp; exact h, fun h => ⟨p.1, p.2, rfl, h⟩⟩
    rw [hadmits]
    simp

/-- A group's mask is the sum of the bits of the candidates taken. -/
theorem Device.fuMask_eq (d : Device) (sc : Nat) (f : FuDesc) (x : Index) (base g set : Nat) :
    d.fuMask sc f x base g set = lsum ((List.range 64).map fun j => if d.fuTakes sc f x base set (64 * g + j) then 2 ^ j else 0) := by
  unfold Device.fuMask
  refine congrArg lsum (List.map_congr_left fun j _ => ?_)
  unfold Device.fuTakes
  dsimp only
  cases hcand : d.fuCand sc f x base (64 * g + j) with
  | none => simp
  | some p =>
    by_cases hlt : 64 * g + j < f.count
    · simp [hlt]
    · simp [hlt]

theorem Device.testBit_fuMask (d : Device) (sc : Nat) (f : FuDesc) (x : Index) (base g set j : Nat) (hj : j < 64) :
    d.fuMask sc f x base g set < 2 ^ 64 ∧ (d.fuMask sc f x base g set).testBit j = d.fuTakes sc f x base set (64 * g + j) := by
  obtain ⟨hlt, hbits⟩ := testBit_lsum_pow (fun j => d.fuTakes sc f x base set (64 * g + j)) 64
  rw [Device.fuMask_eq]
  exact ⟨hlt, by rw [hbits]; simp [hj]⟩

/-- The view that freshness is compared with for a descriptor (R123, R465). -/
def Device.fuBase (d : Device) (f : FuDesc) : Nat := (d.ctxCmd f.ctx).elim f.start fun c => if d.routed c.indexNo = true then c.shoalView else f.start

/-- The masks of a descriptor, group by group and set by set. -/
def Device.fuMasks (d : Device) (sc : Nat) (f : FuDesc) (x : Index) : List Nat :=
  (List.range (ceilDiv f.count 64)).flatMap fun g => (List.range f.nSets).map fun q => d.fuMask sc f x (d.fuBase f) g (f.sets.getD q 0)

@[simp] theorem Device.length_fuMasks (d : Device) (sc : Nat) (f : FuDesc) (x : Index) : (d.fuMasks sc f x).length = ceilDiv f.count 64 * f.nSets := by
  simp [Device.fuMasks, List.length_flatMap]

/-- The first sets of a list of sets. -/
theorem take_eq_map_getD (xs : List Nat) (n : Nat) (h : n ≤ xs.length) : xs.take n = (List.range n).map fun q => xs.getD q 0 := by
  refine List.ext_getElem (by simpa using h) fun q hq _ => ?_
  have hlt : q < xs.length := by
    rw [List.length_take] at hq
    omega
  simp [hlt]

theorem Device.fuOut_masks {d : Device} {sc : Nat} {f : FuDesc} {x : Index} (hsource : f.source ≠ 3) (hsets : f.nSets ≤ f.sets.length) :
    d.fuOut sc f x = (d.fuMasks sc f x).flatMap (leBytes 8) := by
  unfold Device.fuOut Device.fuMasks
  rw [if_neg hsource, take_eq_map_getD _ _ hsets, List.flatMap_assoc]
  refine List.flatMap_congr fun g _ => ?_
  rw [List.flatMap_map, List.flatMap_map]
  rfl

/-- The verdicts of a descriptor, cell by cell and set by set. -/
def Device.fuVerdicts (d : Device) (sc : Nat) (f : FuDesc) (x : Index) : List Nat :=
  (List.range f.count).flatMap fun c => (List.range f.nSets).map fun q => d.fuVerdict sc f x c (f.sets.getD q 0)

@[simp] theorem Device.length_fuVerdicts (d : Device) (sc : Nat) (f : FuDesc) (x : Index) : (d.fuVerdicts sc f x).length = f.count * f.nSets := by
  simp [Device.fuVerdicts, List.length_flatMap]

theorem Device.fuOut_verdicts {d : Device} {sc : Nat} {f : FuDesc} {x : Index} (hsource : f.source = 3) (hsets : f.nSets ≤ f.sets.length) :
    d.fuOut sc f x = packCodes 2 (d.fuVerdicts sc f x) := by
  unfold Device.fuOut Device.fuVerdicts
  rw [if_pos hsource, take_eq_map_getD _ _ hsets]
  refine congrArg (packCodes 2) (List.flatMap_congr fun c _ => ?_)
  rw [List.map_map]
  rfl

theorem Device.fuVerdict_lt (d : Device) (sc : Nat) (f : FuDesc) (x : Index) (c set : Nat) : d.fuVerdict sc f x c set < 4 := by
  unfold Device.fuVerdict
  dsimp only
  split <;> decide

/-! ### What a descriptor of the Filter Unit leaves -/

/-- The checks of R205 bound the sets of a descriptor by the four it has room for. -/
theorem Device.fuOk_sets {d : Device} {sc : Nat} {desc : List Byte} (h : d.fuOk sc (parseFu desc) = true) :
    (parseFu desc).nSets ≤ (parseFu desc).sets.length := by
  have hlen : (parseFu desc).sets.length = 4 := by simp [parseFu]
  unfold Device.fuOk at h
  simp only [Bool.and_eq_true, decide_eq_true_eq] at h
  omega

/-- A descriptor whose checks pass, and whose source no ring brings, runs at once. -/
theorem fuEff_runs {d : Device} {source sc : Nat} {desc : List Byte} {x : Index} (hsc : sc < 64) (hsource : (parseFu desc).source = source)
    (hok : d.fuOk sc (parseFu desc) = true) (hx : d.fuIndex sc (parseFu desc) = some x)
    (hfree : d.ringOver sc (parseFu desc).ctx (parseFu desc).src = none) : fuEff source sc desc d = d.fuGo sc (parseFu desc) x := by
  have htouch : ({ dev := d } : RingWork).touchAll sc (parseFu desc).ctx [(parseFu desc).src] = .ok { dev := d } :=
    RingWork.touchAll_free _ fun a ha => by simpa [List.mem_singleton.1 ha] using hfree
  unfold fuEff
  dsimp only
  rw [hsource, hok, Device.runDesc_runs hsc]
  simp only [hx]
  split
  · unfold Device.withRings
    simp only [htouch, if_true]
    rfl
  · simp [Device.afterRings, hfree]

/-- What the Filter Unit writes is tagged with its context and unit, and its groups are counted. -/
theorem Device.fuGo_keeps (d : Device) (sc : Nat) (f : FuDesc) (x : Index) :
    let e := d.fuGo sc f x
    (e.cnt sc).fuGroups = (d.cnt sc).fuGroups + ceilDiv f.count 64 ∧ (∀ k, k ≠ sc → e.eng k = d.eng k) ∧
      e.eng sc = { d.eng sc with outTags := tset f.mask (f.ctx, f.unit) (d.eng sc).outTags } := by
  refine ⟨?_, fun k hk => ?_, ?_⟩
  · unfold Device.fuGo
    rw [Device.cnt_modCnt_same]
    rfl
  · unfold Device.fuGo
    rw [Device.eng_modCnt, Device.eng_modEng_other _ _ hk]
    rfl
  · unfold Device.fuGo
    rw [Device.eng_modCnt, Device.eng_modEng_same]
    rfl

/-- What the Filter Unit writes lies at the mask's place, and no other byte of memory changes. -/
theorem Device.fuGo_bytes {d : Device} (sc : Nat) (f : FuDesc) (x : Index) (he : d.tiers.erased = []) :
    (d.fuGo sc f x).spad sc f.mask (d.fuOut sc f x).length = d.fuOut sc f x ∧
      (∀ k, k < (d.fuOut sc f x).length → (d.fuGo sc f x).byteAt (scBase sc + f.mask + k) = (d.fuOut sc f x).getD k 0) ∧
      d.sameMemOutside (d.fuGo sc f x) (scBase sc + f.mask) (d.fuOut sc f x).length :=
  ⟨Device.read_write _ _ he, fun k hk => d.byteAt_write_in _ k _ he hk, fun a ha => d.byteAt_write_out _ a _ he ha⟩

/-- Each bit of the masks written says of its candidate and set. -/
theorem Device.fuGo_masks {d : Device} {sc : Nat} {f : FuDesc} {x : Index} (hsource : f.source ≠ 3) (hsets : f.nSets ≤ f.sets.length)
    (he : d.tiers.erased = []) :
    let e := d.fuGo sc f x
    (∀ i q, i < 64 * ceilDiv f.count 64 → q < f.nSets →
      ((fieldAt (e.spad sc f.mask (8 * ceilDiv f.count 64 * f.nSets)) (8 * (i / 64 * f.nSets + q)) 8).testBit (i % 64) = true ↔
        i < f.count ∧ ∃ id words, d.fuCand sc f x (d.fuBase f) i = some (id, words) ∧ (d.eng sc).fu.admits f.prog (f.sets.getD q 0) id words = true)) ∧
      d.sameMemOutside e (scBase sc + f.mask) (8 * ceilDiv f.count 64 * f.nSets) := by
  intro e
  have hout := Device.fuOut_masks (d := d) (sc := sc) (x := x) hsource hsets
  have hlen : (d.fuOut sc f x).length = 8 * ceilDiv f.count 64 * f.nSets := by
    rw [hout, List.length_flatMap]
    simp only [length_leBytes, List.map_const', List.sum_replicate, Device.length_fuMasks, smul_eq_mul]
    ring
  obtain ⟨hread, -, houtside⟩ := Device.fuGo_bytes sc f x he
  rw [hlen] at hread houtside
  refine ⟨fun i q hi hq => ?_, houtside⟩
  have hg : i / 64 < ceilDiv f.count 64 := by omega
  have hpos : i / 64 * f.nSets + q < (d.fuMasks sc f x).length := by
    rw [Device.length_fuMasks]
    calc i / 64 * f.nSets + q < i / 64 * f.nSets + f.nSets := by omega
      _ = (i / 64 + 1) * f.nSets := by ring
      _ ≤ ceilDiv f.count 64 * f.nSets := Nat.mul_le_mul_right _ hg
  have hmask : (d.fuMasks sc f x).getD (i / 64 * f.nSets + q) 0 = d.fuMask sc f x (d.fuBase f) (i / 64) (f.sets.getD q 0) := by
    rw [Nat.mul_comm]
    exact getD_rows (fun g q => d.fuMask sc f x (d.fuBase f) g (f.sets.getD q 0)) 0 f.nSets _ _ _ hg hq
  obtain ⟨hlt, hbit⟩ := d.testBit_fuMask sc f x (d.fuBase f) (i / 64) (f.sets.getD q 0) (i % 64) (Nat.mod_lt _ (by decide))
  rw [hread, hout, fieldAt_words _ _ hpos, hmask, Nat.mod_eq_of_lt hlt, hbit, Nat.div_add_mod]
  exact d.fuTakes_iff sc f x _ _ i

/-- Each verdict written says of its cell and set. -/
theorem Device.fuGo_verdicts {d : Device} {sc : Nat} {f : FuDesc} {x : Index} (hsource : f.source = 3) (hsets : f.nSets ≤ f.sets.length)
    (he : d.tiers.erased = []) {i q : Nat} (hi : i < f.count) (hq : q < f.nSets) :
    ((d.fuGo sc f x).byteAt (scBase sc + f.mask + (i * f.nSets + q) / 4)).toNat / 4 ^ ((i * f.nSets + q) % 4) % 4 = d.fuVerdict sc f x i (f.sets.getD q 0) := by
  have hout := Device.fuOut_verdicts (d := d) (sc := sc) (x := x) hsource hsets
  have hpos : i * f.nSets + q < (d.fuVerdicts sc f x).length := by
    rw [Device.length_fuVerdicts]
    calc i * f.nSets + q < i * f.nSets + f.nSets := by omega
      _ = (i + 1) * f.nSets := by ring
      _ ≤ f.count * f.nSets := Nat.mul_le_mul_right _ hi
  have hverdict : (d.fuVerdicts sc f x).getD (i * f.nSets + q) 0 = d.fuVerdict sc f x i (f.sets.getD q 0) := by
    rw [Nat.mul_comm]
    exact getD_rows (fun c q => d.fuVerdict sc f x c (f.sets.getD q 0)) 0 f.nSets _ _ _ hi hq
  obtain ⟨hin, hcode⟩ := getD_packCodes hpos
  obtain ⟨-, hbytes, -⟩ := Device.fuGo_bytes sc f x he
  rw [hbytes _ (hout ▸ hin), hout, hcode, hverdict, Nat.mod_eq_of_lt (d.fuVerdict_lt sc f x i _)]

/-- Settles O38: a walk waits or starts by `walkFits_iff`, a commit is its expansion, and every bit and verdict of the Filter Unit reads back. -/
theorem walksAndFilters : Obligations.WalksAndFilters := by
  unfold Obligations.WalksAndFilters
  intro s sc desc d g
  refine ⟨?_, fun ctx unit w x b hw hx hb hdue hmiss => ?_, ?_⟩
  · intro x w hsc hok hx hwait
    refine ⟨fun hmode hfull => gives_of_onDev (F := walkEff 0 sc desc) rfl (walkEff_waits hsc hmode hok hx hwait hfull), fun hplaces hapart hbanks => ?_⟩
    have hfits : d.walkFits sc (parseWalk desc) = true := (d.walkFits_iff sc (parseWalk desc)).2 ⟨hplaces, hapart, hbanks⟩
    exact ⟨fun hmode => gives_of_onDev (F := walkEff 0 sc desc) rfl (walkEff_starts hsc hmode (by decide) hok hx hwait hfits),
      fun hmode => gives_of_onDev (F := walkEff 1 sc desc) rfl (walkEff_starts hsc hmode (by decide) hok hx hwait hfits),
      fun hmode => gives_of_onDev (F := walkEff 2 sc desc) rfl (walkEff_descends hsc hmode hok hx hwait hfits)⟩
  · refine gives_of_onDev (F := expansionCommitEff sc ctx unit) rfl ?_
    rw [expansionCommitEff_eq hw hx hb hdue hmiss]
    exact Device.commitWalk_commits hw b.node
  · intro x f base hsc hok hx he hfree
    have hsets := Device.fuOk_sets hok
    obtain ⟨hgroups, hothers, htags⟩ := d.fuGo_keeps sc f x
    have hmasks := fun hnot : f.source ≠ 3 => Device.fuGo_masks (sc := sc) (x := x) hnot hsets he
    have hruns := fun source (hsource : f.source = source) => fuEff_runs hsc hsource hok hx hfree
    refine ⟨fun hsource => ?_, fun hsource => ?_, fun hsource => ?_, fun hsource => ?_⟩
    · obtain ⟨hbits, hrest⟩ := hmasks (by omega)
      exact gives_of_onDev (F := fuEff 0 sc desc) rfl (hruns 0 hsource ▸ ⟨hbits, hrest, hgroups, hothers, htags⟩)
    · obtain ⟨hbits, hrest⟩ := hmasks (by omega)
      exact gives_of_onDev (F := fuEff 1 sc desc) rfl (hruns 1 hsource ▸ ⟨hbits, hrest, hgroups, hothers, htags⟩)
    · obtain ⟨hbits, hrest⟩ := hmasks (by omega)
      exact gives_of_onDev (F := fuEff 2 sc desc) rfl (hruns 2 hsource ▸ ⟨hbits, hrest, hgroups, hothers, htags⟩)
    · refine gives_of_onDev (F := fuEff 3 sc desc) rfl ?_
      rw [hruns 3 hsource]
      exact ⟨fun i q hi hq => Device.fuGo_verdicts hsource hsets he hi hq, hgroups, hothers, htags⟩

end Sys2Proof.Machine
end

section
/-! SUPPORT. Admin commands that act now: what the response to a started request leaves in its slot, and what a command answers by its meaning
(R406 to R409). -/

namespace Sys2Proof.Machine

/-! ### The response of a request (R407) -/

/-- A field behind other bytes. -/
theorem fieldAt_append_right (xs bs : List Byte) (k n : Nat) : fieldAt (xs ++ bs) (xs.length + k) n = fieldAt bs k n := by
  rw [fieldAt, fieldAt, ← List.drop_drop, List.drop_left]

/-- A response is 32 bytes, with STATUS, DETAIL and RESULT in their places (R407). -/
theorem responseBytes_fields (rq : List Byte) (status detail retry written result : Nat) (phase : Bool) :
    let bs := responseBytes rq status detail retry written result phase
    bs.length = 32 ∧ fieldAt bs 4 2 = status % 65536 ∧ fieldAt bs 6 2 = detail % 65536 ∧
      fieldAt bs 16 8 = if status = 0 then result % 2 ^ 64 else 0 := by
  let ids := ((rq ++ List.replicate 4 0).drop 2).take 2 ++ (rq ++ List.replicate 4 0).take 2
  let rest := leBytes 6 0 ++ leBytes 2 (flagAt 15 phase)
  let value := if status = 0 then result else 0
  have hids : ids.length = 4 := by simp [ids]
  have hbs : responseBytes rq status detail retry written result phase =
      ids ++ (leBytes 2 status ++ (leBytes 2 detail ++ (leBytes 4 retry ++ (leBytes 4 written ++ (leBytes 8 value ++ rest))))) := by
    simp only [responseBytes, List.append_assoc, ids, rest, value]
  have hbehind : ∀ (k n : Nat) (xs : List Byte), fieldAt (ids ++ xs) (4 + k) n = fieldAt xs k n := fun k n xs =>
    hids ▸ fieldAt_append_right ids xs k n
  dsimp only
  rw [hbs]
  refine ⟨?_, ?_, ?_, ?_⟩
  · simp [hids, length_leBytes, rest]
  · rw [hbehind 0, fieldAt_front]
    rfl
  · rw [hbehind 2, fieldAt_skip 2 status _ 0, fieldAt_front]
    rfl
  · rw [hbehind 12, fieldAt_skip 2 status _ 10, fieldAt_skip 2 detail _ 8, fieldAt_skip 4 retry _ 4, fieldAt_skip 4 written _ 0, fieldAt_front]
    by_cases hok : status = 0
    · simp [value, hok]
    · simp [value, hok]

/-- A function changed in something else than its mailbox leaves every mailbox as it was. -/
theorem Device.modFn_mb (d : Device) (f k : Nat) (g : Fn → Fn) (hg : ∀ n, (g n).mb = n.mb) : ((d.modFn f g).fn k).mb = (d.fn k).mb := by
  by_cases hk : k = f
  · subst hk
    by_cases hf : k < 256
    · rw [Device.fn_modFn_same _ _ _ hf, hg]
    · simp [Device.modFn, hf]
  · rw [Device.fn_modFn_other _ _ _ _ hk]

/-- A vector's message leaves every mailbox as it was. -/
theorem Device.msix_mb (d : Device) (f v k : Nat) : ((d.msix f v).fn k).mb = (d.fn k).mb := by
  unfold Device.msix
  dsimp only
  split
  · rfl
  · split
    · exact d.modFn_mb f k _ fun _ => rfl
    · rfl

/-- A function event leaves every mailbox as it was. -/
theorem Device.fnEvent_mb (d : Device) (f b k : Nat) : ((d.fnEvent f b).fn k).mb = (d.fn k).mb := by
  unfold Device.fnEvent
  dsimp only
  split
  · exact (Device.msix_mb _ _ _ _).trans (d.modFn_mb f k _ fun _ => rfl)
  · exact d.modFn_mb f k _ fun _ => rfl

/-- The mailbox of a request as its response leaves it: at the sideband the slot is free again and its input gone (R407, R408). -/
def Mailbox.responded (b : Mailbox) (m slot : Nat) (bs : List Byte) : Mailbox :=
  if m = sbMb then { b with rsp := tset slot bs b.rsp, slots := tset slot .idle b.slots, data := tdel slot b.data }
  else { b with rsp := tset slot bs b.rsp, slots := tset slot .done b.slots }

/-- A started request is answered in its slot. -/
theorem Device.respondWith_mbox {d : Device} {m slot : Nat} (hm : m ≤ 256) (hs : d.startedAt m slot = true)
    (status detail retry result : Nat) (out : List Byte) :
    (d.respondWith m slot status detail retry result out).mbox m = (d.mbox m).responded m slot
      (responseBytes (tget [] slot (d.mbox m).req) status detail retry out.length result ((d.mbox m).countOf m slot / 32 % 2 == 0)) := by
  have hstate : tget SlotState.idle slot (d.mbox m).slots = .started := by simpa [Device.startedAt] using hs
  have hnot : (SlotState.started != .started && SlotState.started != .heldForEvent) = false := by decide
  unfold Device.respondWith Mailbox.responded
  simp only [hstate, hnot, Bool.false_eq_true, if_false]
  by_cases hsb : m = sbMb
  · simp [hsb, Device.mbox]
  · have hf : m < 256 := by simp only [sbMb] at hsb; omega
    simp only [if_neg hsb]
    rw [show ∀ e : Device, e.mbox m = (e.fn m).mb from fun e => by simp [Device.mbox, hsb], Device.fnEvent_mb, Device.modMbox, if_neg hsb,
      Device.fn_modFn_same _ _ _ hf]
    split <;> simp [Device.mbox, hsb, Device.fn]

/-- A started request takes its response (R407, R408). -/
theorem Device.respondWith_answered {d : Device} {m slot : Nat} (hm : m ≤ 256) (hs : d.startedAt m slot = true)
    (status detail retry result : Nat) (out : List Byte) :
    (d.respondWith m slot status detail retry result out).answered m slot status detail result := by
  unfold Device.answered
  dsimp only
  rw [Device.respondWith_mbox hm hs]
  have hfields := responseBytes_fields (tget [] slot (d.mbox m).req) status detail retry out.length result ((d.mbox m).countOf m slot / 32 % 2 == 0)
  unfold Mailbox.responded
  by_cases hsb : m = 256
  · simpa [hsb, sbMb] using hfields
  · simpa [hsb, sbMb] using hfields

/-! ### The answer of an admin command (R406, R407, R409) -/

/-- A command without output that acts now answers by its meaning, with no output. -/
theorem Device.adminCmd_serves {d : Device} {op m slot : Nat} {io : AdminIo} (h : d.servesNow op m slot io) (f : AdminReq → Reply)
    (hout : (f (d.adminAt m slot)).out = []) : d.adminCmd op m slot io f =
      if (f (d.adminAt m slot)).waits = true then (f (d.adminAt m slot)).dev
      else (f (d.adminAt m slot)).dev.respondWith m slot (f (d.adminAt m slot)).status (f (d.adminAt m slot)).detail
        (f (d.adminAt m slot)).retry (f (d.adminAt m slot)).result [] := by
  obtain ⟨hready, hseated, hm, hslot, hstart, hop, hwait, hturn, hsegs⟩ := h
  have hput : ∀ (e : Device) segs, e.putSegs m segs [] = e := by
    intro e segs
    cases segs <;> rfl
  obtain ⟨segs, hsegs⟩ : ∃ segs, (d.adminAt m slot).outSegs m io = .ok segs := by
    cases hcase : (d.adminAt m slot).outSegs m io with
    | error e => rw [hcase] at hsegs; cases hsegs
    | ok segs => exact ⟨segs, rfl⟩
  have hopen : (!d.ready || !d.seated || decide (256 < m) || decide (32 ≤ slot) || !d.startedAt m slot || (d.adminAt m slot).op != op ||
      d.adminWaits m slot || !d.turnOf m slot) = false := by
    simp [hready, hseated, hstart, hop, hwait, hturn]; omega
  unfold Device.adminCmd
  simp only [hopen, Bool.false_eq_true, if_false, hsegs, hout, List.take_nil, ite_self, hput]

section
variable {c : Instr} {s : State} {op m slot : Nat} {io : AdminIo} {f : AdminReq → Reply} {a : Reply}

/-- What holds of the answer of a command that acts now and does not wait: the response follows what it has done. -/
theorem Device.gives_of_serves {P : Device → Prop} (h : s.dev.servesNow op m slot io) (hc : exec c s = .next { s with dev := s.dev.adminCmd op m slot io f })
    (ha : f (s.dev.adminAt m slot) = a) (hwaits : a.waits = false) (hout : a.out = [])
    (hstart : a.dev.startedAt m slot = true)
    (hP : ∀ e, e.answered m slot a.status a.detail a.result → e = a.dev.told e → a.dev.fnsTold e → P e) : gives c s P := by
  obtain ⟨_, _, hm, _⟩ := id h
  refine ⟨_, hc, ?_⟩
  rw [Device.adminCmd_serves h _ (by rw [ha, hout]), ha, hwaits, if_neg (by decide)]
  obtain ⟨htold, hfns⟩ := a.dev.respondWith_told m slot a.status a.detail a.retry a.result []
  exact hP _ (Device.respondWith_answered hm hstart _ _ _ _ _) htold hfns

/-- A command whose response comes later gives what it has done. -/
theorem Device.gives_of_waits {d1 : Device} {P : Device → Prop} (h : s.dev.servesNow op m slot io)
    (hc : exec c s = .next { s with dev := s.dev.adminCmd op m slot io f }) (ha : f (s.dev.adminAt m slot) = d1.waits) (hP : P d1) :
    gives c s P := by
  refine ⟨_, hc, ?_⟩
  rw [Device.adminCmd_serves h _ (by rw [ha]; rfl), ha]
  exact hP

/-- A command that is refused changes what reporting changes alone. -/
theorem Device.gives_of_refused {status detail retry : Nat} (h : s.dev.servesNow op m slot io) (hc : exec c s = .next { s with dev := s.dev.adminCmd op m slot io f })
   
    (ha : f (s.dev.adminAt m slot) = { dev := s.dev, status := status, detail := detail, retry := retry }) :
    gives c s fun e => e.answered m slot status detail 0 ∧ e = s.dev.told e ∧ s.dev.fnsTold e := by
  obtain ⟨_, _, _, _, hstart, _⟩ := id h
  exact Device.gives_of_serves h hc ha rfl rfl hstart fun e hans htold hfns => ⟨hans, htold, hfns⟩

/-- The request is answered SUCCESS, and of the device index i alone has changed, into y, beside what reporting changes. -/
def Device.setsIndex (d e : Device) (m slot i : Nat) (y : Index) : Prop :=
  e.answered m slot 0 0 0 ∧ tfind i e.indexes = some y ∧ (∀ j, j ≠ i → tfind j e.indexes = tfind j d.indexes) ∧
    e = { d.told e with indexes := e.indexes } ∧ d.fnsTold e

/-- A command that changes the index it names and answers SUCCESS. -/
theorem Device.gives_of_indexSet {i : Nat} {x : Index} (g : Index → Index) (h : s.dev.servesNow op m slot io) (hc : exec c s = .next { s with dev := s.dev.adminCmd op m slot io f })
    (hx : tfind i s.dev.indexes = some x)
    (ha : f (s.dev.adminAt m slot) = (s.dev.modIndex i g).done) : gives c s fun e => s.dev.setsIndex e m slot i (g x) := by
  rw [Device.modIndex_found hx] at ha
  obtain ⟨_, _, _, _, hstart, _⟩ := id h
  refine Device.gives_of_serves h hc ha rfl rfl hstart fun e hans htold hfns => ⟨hans, ?_, fun j hj => ?_, ?_, hfns⟩
  · rw [htold]; exact tfind_tset_same _ _ _
  · rw [htold]; exact tfind_tset_other _ _ _ _ hj
  · rw [htold]; rfl

end

end Sys2Proof.Machine
end

section
/-! Loading commands: filter programs, score transforms, adapters, the resident model, staged areas, and RETRAIN_CHANNEL (R126, R138, R236, R275,
R302, R321, R418). -/

namespace Sys2Proof.Machine

/-! ### What a loading command reads -/

/-- The index that a request names, where its sender may see it (R379, R411). -/
theorem Device.withIndex_found {d : Device} {m i : Nat} {x : Index} (hx : d.index? i = some x) (hm : m = 256 ∨ (d.fn m).burgee = x.burgee)
    (f : Index → Reply) : d.withIndex m i f = f x := by
  have hsees : (m != sbMb && (d.fn m).burgee != x.burgee) = false := by
    rcases hm with rfl | h
    · rfl
    · simp [h]
  simp [Device.withIndex, hx, hsees]

/-- The input data of a request, where it can be read. -/
theorem Device.withInput_ok {d : Device} {r : AdminReq} {m slot : Nat} {b : Option Nat} {io : AdminIo} {bs : List Byte}
    (h : d.adminIn r m slot b io = .ok bs) (f : List Byte → Reply) : d.withInput r m slot b io f = f bs := by
  simp [Device.withInput, h]

section
variable {s : State} {m slot : Nat} {x : Index} {io : AdminIo} {bs : List Byte} {r : AdminReq} (hr : s.dev.adminAt m slot = r)
  (hx : s.dev.index? r.target = some x) (hm : m = 256 ∨ (s.dev.fn m).burgee = x.burgee)
include hr hx hm

/-! ### Filter programs (R126, R138, R418) -/

/-- The index with a filter program loaded, under the version after its last one. -/
def Index.withFilter (x : Index) (p : FilterProg) : Index :=
  { x with filters := tset p.filterId { p with version := tget 0 p.filterId x.filterLoads } x.filters,
           filterLoads := tset p.filterId (tget 0 p.filterId x.filterLoads + 1) x.filterLoads }

/-- LOAD_FILTER of a valid image. -/
theorem gives_loadFilter (h : s.dev.servesNow 0x0032 m slot io) (hin : s.dev.adminIn r m slot (some x.burgee) io = .ok bs)
    (hvalid : filterValid x.attrWords bs = true) (hid : (parseFilter bs).filterId = r.param 0 2) (hix : (parseFilter bs).indexNo = r.target) :
    gives (.loadFilter m slot io) s fun e => s.dev.setsIndex e m slot r.target (x.withFilter (parseFilter bs)) := by
  subst hr
  refine Device.gives_of_indexSet (fun y => { y with
    filters := tset (parseFilter bs).filterId { parseFilter bs with version := tget 0 (parseFilter bs).filterId x.filterLoads } y.filters,
    filterLoads := tset (parseFilter bs).filterId (tget 0 (parseFilter bs).filterId x.filterLoads + 1) y.filterLoads })
    h rfl (Device.tfind_of_index? hx) ?_
  rw [Device.withIndex_found hx hm, Device.withInput_ok hin]
  dsimp only
  rw [if_neg (by simp [hvalid, hid, hix])]

/-- LOAD_FILTER of any other image. -/
theorem gives_loadFilter_bad (h : s.dev.servesNow 0x0032 m slot io) (hin : s.dev.adminIn r m slot (some x.burgee) io = .ok bs)
    (hbad : filterValid x.attrWords bs = false ∨ (parseFilter bs).filterId ≠ r.param 0 2 ∨ (parseFilter bs).indexNo ≠ r.target) :
    gives (.loadFilter m slot io) s fun e => e.answered m slot stInvalidField 0 0 ∧ e = s.dev.told e ∧ s.dev.fnsTold e := by
  subst hr
  refine Device.gives_of_refused (retry := 0) h rfl ?_
  rw [Device.withIndex_found hx hm, Device.withInput_ok hin]
  dsimp only
  rw [if_pos (by simpa [or_assoc] using hbad)]
  rfl

/-- UNLOAD_FILTER of a program that is loaded. -/
theorem gives_unloadFilter (h : s.dev.servesNow 0x0033 m slot noIo) (hthere : (tfind (r.param 0 2) x.filters).isSome = true) :
    gives (.unloadFilter m slot) s fun e => s.dev.setsIndex e m slot r.target { x with filters := tdel (r.param 0 2) x.filters } := by
  subst hr
  refine Device.gives_of_indexSet (fun y => { y with filters := tdel ((s.dev.adminAt m slot).param 0 2) y.filters })
    h rfl (Device.tfind_of_index? hx) ?_
  have hloaded : ¬ (tfind ((s.dev.adminAt m slot).param 0 2) x.filters).isNone = true := by
    rw [Option.isNone_eq_false_iff.mpr hthere]; decide
  rw [Device.withIndex_found hx hm]
  exact if_neg hloaded

/-- UNLOAD_FILTER of a program that is not. -/
theorem gives_unloadFilter_bad (h : s.dev.servesNow 0x0033 m slot noIo) (hnone : tfind (r.param 0 2) x.filters = none) :
    gives (.unloadFilter m slot) s fun e => e.answered m slot stInvalidField 0 0 ∧ e = s.dev.told e ∧ s.dev.fnsTold e := by
  subst hr
  refine Device.gives_of_refused (retry := 0) h rfl ?_
  rw [Device.withIndex_found hx hm]
  exact if_pos (Option.isNone_iff_eq_none.mpr hnone)

/-! ### Score transforms and adapters (R236, R275, R418) -/

/-- The index with its transform changed: of its images the current one before and after stay. -/
def Index.withTransform (x : Index) (v last : Nat) (ts : Tab (List Byte)) : Index :=
  { x with transforms := ts.filter fun (p : Nat × List Byte) => p.1 == v || p.1 == x.transform, transform := v, lastTransform := last }

/-- LOAD_TRANSFORM of a valid image, where no command holds an older version. -/
theorem gives_loadTransform (h : s.dev.servesNow 0x0034 m slot io) (hset : r.param 0 1 ≠ 0)
    (hin : s.dev.adminIn r m slot (some x.burgee) io = .ok bs) (hvalid : elemValid x.attrWords bs = true) (hix : fieldAt bs 0 2 = r.target)
    (hfree : s.dev.oldTransforms x = []) :
    gives (.loadTransform m slot io) s fun e => s.dev.setsIndex e m slot r.target
      (x.withTransform (x.lastTransform + 1) (x.lastTransform + 1) (tset (x.lastTransform + 1) bs x.transforms)) := by
  subst hr
  refine Device.gives_of_indexSet (fun y => { y with
    transforms := (tset (x.lastTransform + 1) bs x.transforms).filter fun (p : Nat × List Byte) => p.1 == x.lastTransform + 1 || p.1 == y.transform,
    transform := x.lastTransform + 1, lastTransform := x.lastTransform + 1 }) h rfl (Device.tfind_of_index? hx) ?_
  rw [Device.withIndex_found hx hm]
  dsimp only
  rw [if_neg hset, Device.withInput_ok hin, if_neg (by simp [hvalid, hix]), if_neg (by simp [hfree])]

/-- LOAD_TRANSFORM that removes the transform, where no command holds an older version. -/
theorem gives_removeTransform (h : s.dev.servesNow 0x0034 m slot io) (hset : r.param 0 1 = 0) (hfree : s.dev.oldTransforms x = []) :
    gives (.loadTransform m slot io) s fun e => s.dev.setsIndex e m slot r.target (x.withTransform 0 x.lastTransform x.transforms) := by
  subst hr
  refine Device.gives_of_indexSet (fun y => { y with
    transforms := x.transforms.filter fun (p : Nat × List Byte) => p.1 == 0 || p.1 == y.transform,
    transform := 0, lastTransform := x.lastTransform }) h rfl (Device.tfind_of_index? hx) ?_
  rw [Device.withIndex_found hx hm]
  dsimp only
  rw [if_pos hset, if_pos (by simp [hfree])]

/-- LOAD_TRANSFORM while a command holds an older version is told to come back (R420). -/
theorem gives_removeTransform_held (h : s.dev.servesNow 0x0034 m slot io) (hset : r.param 0 1 = 0) (hheld : s.dev.oldTransforms x ≠ []) :
    gives (.loadTransform m slot io) s fun e => e.answered m slot stBusy 4 0 ∧ e = s.dev.told e ∧ s.dev.fnsTold e := by
  subst hr
  refine Device.gives_of_refused (retry := s.dev.heldRetry (s.dev.oldTransforms x)) h rfl ?_
  rw [Device.withIndex_found hx hm]
  dsimp only
  rw [if_pos hset, if_neg (by simpa using hheld)]
  rfl

/-- LOAD_ADAPTER of a valid image. -/
theorem gives_loadAdapter {a : Adapter} (h : s.dev.servesNow 0x0035 m slot io) (hin : s.dev.adminIn r m slot (some x.burgee) io = .ok bs)
    (ha : readAdapter x.dim bs = some a) :
    gives (.loadAdapter m slot io) s fun e => s.dev.setsIndex e m slot r.target { x with adapter := a } := by
  subst hr
  refine Device.gives_of_indexSet (fun y => { y with adapter := a }) h rfl (Device.tfind_of_index? hx) ?_
  rw [Device.withIndex_found hx hm, Device.withInput_ok hin, ha]

end

/-- An adapter has the rank its image names. -/
theorem readAdapter_rank {dim : Nat} {bs : List Byte} {a : Adapter} (h : readAdapter dim bs = some a) : a.rank = fieldAt bs 0 2 := by
  unfold readAdapter at h
  dsimp only at h
  split at h
  · cases h; rfl
  · cases h

section
variable {s : State} {m slot : Nat} {io : AdminIo} {bs : List Byte}

/-! ### The resident model (R126, R210, R302) -/

/-- LOAD_MODEL of a valid image: models that no admitted command holds are freed. -/
theorem gives_loadModel (h : s.dev.servesNow 0x0036 m slot io) (hin : s.dev.adminIn (s.dev.adminAt m slot) m slot none io = .ok bs)
    (hvalid : modelValid bs = true) : gives (.loadModel m slot io) s fun e => e.answered m slot 0 0 0 ∧ e.model = s.dev.lastModel + 1 ∧
      tfind (s.dev.lastModel + 1) e.models = some bs ∧
      e = { s.dev.told e with models := e.models, model := e.model, lastModel := e.model } ∧ s.dev.fnsTold e := by
  obtain ⟨_, _, _, _, hstart, _⟩ := id h
  refine Device.gives_of_serves (a := (s.dev.installModel bs).freeModels.done) h rfl ?_ rfl rfl hstart
    fun e hans htold hfns => ⟨hans, ?_, ?_, ?_, hfns⟩
  · rw [Device.withInput_ok hin]
    exact if_pos hvalid
  · rw [htold]; rfl
  · have hkept := tfind_filter_key (fun k => k == s.dev.lastModel + 1 || s.dev.cmds.any fun c => c.snap.elim 0 (·.model) == k)
      (s.dev.lastModel + 1) (tset (s.dev.lastModel + 1) bs s.dev.models)
    rw [if_pos (by simp), tfind_tset_same] at hkept
    rw [htold]
    exact hkept
  · rw [htold]; rfl

/-- LOAD_MODEL of any other image. -/
theorem gives_loadModel_bad (h : s.dev.servesNow 0x0036 m slot io) (hin : s.dev.adminIn (s.dev.adminAt m slot) m slot none io = .ok bs)
    (hbad : modelValid bs = false) :
    gives (.loadModel m slot io) s fun e => e.answered m slot stInvalidField 0 0 ∧ e = s.dev.told e ∧ s.dev.fnsTold e := by
  refine Device.gives_of_refused (retry := 0) h rfl ?_
  rw [Device.withInput_ok hin]
  exact if_neg (by simp [hbad])

/-- UNLOAD_MODEL: commands admitted before keep the model they hold. -/
theorem gives_unloadModel (h : s.dev.servesNow 0x0037 m slot noIo) : gives (.unloadModel m slot) s fun e => e.answered m slot 0 0 0 ∧ e.model = 0 ∧
    (∀ p ∈ s.dev.models, (∃ c ∈ s.dev.cmds, c.snap.elim 0 (·.model) = p.1) → p ∈ e.models) ∧
    e = { s.dev.told e with models := e.models, model := 0 } ∧ s.dev.fnsTold e := by
  obtain ⟨_, _, _, _, hstart, _⟩ := id h
  refine Device.gives_of_serves (a := ({ s.dev with model := 0 } : Device).freeModels.done) h rfl rfl rfl rfl hstart
    fun e hans htold hfns => ⟨hans, ?_, fun p hp hheld => ?_, ?_, hfns⟩
  · rw [htold]; rfl
  · obtain ⟨c, hc, hmodel⟩ := hheld
    rw [htold]
    refine List.mem_filter.mpr ⟨hp, ?_⟩
    simp only [Bool.or_eq_true, List.any_eq_true, beq_iff_eq]
    exact .inr ⟨c, hc, hmodel⟩
  · rw [htold]; rfl

/-! ### Staged areas (R418) -/

/-- STAGE_DATA for an enabled burgee whose areas its sender may change acts by its data. -/
theorem stageData_reply {i : Nat} (hlt : i < 16) (hon : (s.dev.burgee i).enabled = true) (hadmin : s.dev.brgAdmin m i = true)
    {r : AdminReq} (hi : r.target = i) (hin : s.dev.adminIn r m slot (some i) io = .ok bs) :
    (if (decide (15 < r.target) || !(s.dev.burgee r.target).enabled) = true then s.dev.badField
      else if (!s.dev.brgAdmin m r.target) = true then s.dev.refuse stAccessDenied 0
      else s.dev.withInput r m slot (some r.target) io (s.dev.stageData r r.target)) = s.dev.stageData r i bs := by
  subst hi
  rw [if_neg (by simp [hon]; omega), if_neg (by simp [hadmin]), Device.withInput_ok hin]

/-- Bytes on their way to the tiers answer no request. -/
theorem Device.startedAt_of_bytesTo {d e : Device} (h : d.bytesTo e) (m slot : Nat) : e.startedAt m slot = d.startedAt m slot := by
  rw [show e = _ from h]
  rfl

section
variable {i : Nat} (hi : (s.dev.adminAt m slot).target = i) (h : s.dev.servesNow 0x0038 m slot io) (hlt : i < 16)
  (hon : (s.dev.burgee i).enabled = true) (hadmin : s.dev.brgAdmin m i = true)
  (hin : s.dev.adminIn (s.dev.adminAt m slot) m slot (some i) io = .ok bs)
include hi h hlt hon hadmin hin

/-- STAGE_DATA reserves an area, zeroes it and writes its first bytes. -/
theorem gives_stageReserved {n a : Nat} {d1 : Device} (hnew : (s.dev.adminAt m slot).param 8 8 = 0)
    (hn : n = if (s.dev.adminAt m slot).param 16 8 = 0 then bs.length else (s.dev.adminAt m slot).param 16 8) (hpos : n ≠ 0)
    (hfits : bs.length ≤ n) (htake : s.dev.takeF (some i) n = some (a, d1)) : gives (.stageData m slot io) s fun e =>
      e.answered m slot 0 0 a ∧ (∃ k ∈ tget [] i e.staged, k.addr = a ∧ k.len = n) ∧
      (∀ k, s.dev.tiers.erased = [] → k < n → e.byteAt (a + k) = bs.getD k 0) ∧ (∀ b, b ≠ i → tget [] b e.staged = tget [] b s.dev.staged) := by
  obtain ⟨_, _, _, _, hstart, _⟩ := id h
  have hd1 : d1 = { s.dev with tiers := { s.dev.tiers with extF := d1.tiers.extF } } := by
    unfold Device.takeF at htake
    split at htake
    · cases htake; rfl
    · cases htake
  let d2 : Device := { d1 with staged := tmod [] i (fun l => l ++ [⟨a, n⟩]) d1.staged }
  have hbytes := Device.memWrite_bytesTo (d2.zero a n) a bs
  have hstaged : ((d2.zero a n).memWrite a bs).staged = tmod [] i (fun l => l ++ [⟨a, n⟩]) s.dev.staged := by
    rw [show (d2.zero a n).memWrite a bs = _ from hbytes]
    show tmod [] i (fun l => l ++ [⟨a, n⟩]) d1.staged = _
    rw [hd1]
  refine Device.gives_of_serves (a := ((d2.zero a n).memWrite a bs).result a) h rfl ?_ rfl rfl ?_ fun e hans htold _ =>
    ⟨hans, ?_, fun k herased hk => ?_, fun b hb => ?_⟩
  · refine (stageData_reply hlt hon hadmin hi hin).trans ?_
    unfold Device.stageData
    dsimp only
    rw [if_pos hnew, ← hn, if_neg (by simp [hpos, hfits]), htake]
  · refine (Device.startedAt_of_bytesTo hbytes m slot).trans (Eq.trans ?_ hstart)
    show d1.startedAt m slot = _
    rw [hd1]
    rfl
  · rw [htold]
    show ∃ k ∈ tget [] i ((d2.zero a n).memWrite a bs).staged, _
    rw [hstaged, tget_tmod_same]
    exact ⟨⟨a, n⟩, List.mem_append_right _ List.mem_cons_self, rfl, rfl⟩
  · have herased2 : d2.tiers.erased = [] := by
      show d1.tiers.erased = []
      rw [hd1]
      exact herased
    have hzeroed : (d2.zero a n).tiers.erased = [] := by
      show eraseTrim a n d2.tiers.erased = []
      rw [herased2, eraseTrim_nil]
    rw [htold]
    show ((d2.zero a n).memWrite a bs).byteAt (a + k) = _
    by_cases hin : k < bs.length
    · exact Device.byteAt_memWrite_in _ hin
    · rw [Device.byteAt_memWrite_out _ hzeroed (by omega), Device.byteAt_zero_in _ _ _ _ herased2 (by omega), List.getD_eq_default _ _ (by omega)]
  · rw [htold]
    show tget [] b ((d2.zero a n).memWrite a bs).staged = _
    rw [hstaged, tget_tmod_other _ _ _ _ _ hb]

/-- STAGE_DATA writes a piece into an area. -/
theorem gives_stageWritten {k : Staged} (hold : (s.dev.adminAt m slot).param 8 8 ≠ 0)
    (hk : s.dev.stagedAt i ((s.dev.adminAt m slot).param 8 8) = some k) (hdata : (s.dev.adminAt m slot).dataLen ≠ 0)
    (halign : (s.dev.adminAt m slot).param 24 8 % 64 = 0) (hfits : (s.dev.adminAt m slot).param 24 8 + bs.length ≤ k.len) :
    gives (.stageData m slot io) s fun e => let r := s.dev.adminAt m slot
      e.answered m slot 0 0 (r.param 8 8) ∧ e.staged = s.dev.staged ∧
      (∀ j, s.dev.tiers.erased = [] → j < bs.length → e.byteAt (r.param 8 8 + r.param 24 8 + j) = bs.getD j 0) ∧
      (∀ x, s.dev.tiers.erased = [] → (x < r.param 8 8 + r.param 24 8 ∨ r.param 8 8 + r.param 24 8 + bs.length ≤ x) → e.byteAt x = s.dev.byteAt x) := by
  obtain ⟨_, _, _, _, hstart, _⟩ := id h
  have hbytes := s.dev.memWrite_bytesTo ((s.dev.adminAt m slot).param 8 8 + (s.dev.adminAt m slot).param 24 8) bs
  refine Device.gives_of_serves (a := (s.dev.memWrite ((s.dev.adminAt m slot).param 8 8 + (s.dev.adminAt m slot).param 24 8) bs).result
    ((s.dev.adminAt m slot).param 8 8)) h rfl ?_ rfl rfl ((Device.startedAt_of_bytesTo hbytes m slot).trans hstart) fun e hans htold _ =>
    ⟨hans, ?_, fun j _ hj => ?_, fun x herased hx => ?_⟩
  · refine (stageData_reply hlt hon hadmin hi hin).trans ?_
    unfold Device.stageData
    dsimp only
    rw [if_neg hold, hk]
    dsimp only
    rw [if_neg hdata, if_neg (by simp [halign, hfits])]
  · rw [htold]
    show (s.dev.memWrite _ bs).staged = _
    rw [show s.dev.memWrite _ bs = _ from hbytes]
  · rw [htold]
    exact Device.byteAt_memWrite_in s.dev hj
  · rw [htold]
    exact Device.byteAt_memWrite_out s.dev herased hx

/-- STAGE_DATA without data frees an area. -/
theorem gives_stageFreed {k : Staged} (hold : (s.dev.adminAt m slot).param 8 8 ≠ 0)
    (hk : s.dev.stagedAt i ((s.dev.adminAt m slot).param 8 8) = some k) (hdata : (s.dev.adminAt m slot).dataLen = 0) :
    gives (.stageData m slot io) s fun e => e.answered m slot 0 0 ((s.dev.adminAt m slot).param 8 8) ∧ k ∉ tget [] i e.staged ∧
      (∀ x ∈ e.tiers.extF, x.base ≠ (s.dev.adminAt m slot).param 8 8) ∧
      e = { s.dev.told e with staged := e.staged, tiers := { s.dev.tiers with extF := e.tiers.extF } } ∧ s.dev.fnsTold e := by
  obtain ⟨_, _, _, _, hstart, _⟩ := id h
  refine Device.gives_of_serves (a := (({ s.dev with staged := tmod [] i (fun l => l.filter (· != k)) s.dev.staged } : Device).freeF
    ((s.dev.adminAt m slot).param 8 8)).result ((s.dev.adminAt m slot).param 8 8)) h rfl ?_ rfl rfl hstart fun e hans htold hfns =>
    ⟨hans, ?_, fun x hx => ?_, ?_, hfns⟩
  · refine (stageData_reply hlt hon hadmin hi hin).trans ?_
    unfold Device.stageData
    dsimp only
    rw [if_neg hold, hk]
    exact if_pos hdata
  · rw [htold]
    show k ∉ tget [] i (tmod [] i (fun l => l.filter (· != k)) s.dev.staged)
    rw [tget_tmod_same]
    simp
  · rw [htold] at hx
    have hkept := (List.mem_filter.mp hx).2
    simpa using hkept
  · rw [htold]; rfl

/-- STAGE_DATA of an area that is not there. -/
theorem gives_stageData_bad (hold : (s.dev.adminAt m slot).param 8 8 ≠ 0) (hnone : s.dev.stagedAt i ((s.dev.adminAt m slot).param 8 8) = none) :
    gives (.stageData m slot io) s fun e => e.answered m slot stInvalidField 0 0 ∧ e = s.dev.told e ∧ s.dev.fnsTold e := by
  refine Device.gives_of_refused (retry := 0) h rfl ?_
  refine (stageData_reply hlt hon hadmin hi hin).trans ?_
  unfold Device.stageData
  dsimp only
  rw [if_neg hold, hnone]
  rfl

end

/-! ### RETRAIN_CHANNEL (R321, R411) -/

/-- RETRAIN_CHANNEL of a channel that is there: the response waits for the start of its window. -/
theorem gives_retrainChannel {i : Nat} (hi : (s.dev.adminAt m slot).target = i) (h : s.dev.servesNow 0x0039 m slot noIo) (hlt : i < 196)
    (hthere : (s.dev.chan i).state ≠ .absent) : gives (.retrainChannel m slot) s fun e =>
      (e.chan i).trigger = (s.dev.chan i).trigger.or (some .request) ∧ (e.chan i).retrainReq = (s.dev.chan i).retrainReq ++ [(m, slot)] ∧
      (e.chan i).state = (s.dev.chan i).state ∧ (∀ k, k ≠ i → e.chan k = s.dev.chan k) ∧ e = { s.dev with tiers := e.tiers } := by
  have hgood : ¬ (decide (196 ≤ i) || (s.dev.chan i).state == .absent) = true := by simp [hthere]; omega
  refine Device.gives_of_waits
    (d1 := s.dev.modChan i fun k => { k with trigger := k.trigger.or (some .request), retrainReq := k.retrainReq ++ [(m, slot)] })
    h rfl (by rw [hi]; exact if_neg hgood) ?_
  have hsame : (s.dev.modChan i fun k => { k with trigger := k.trigger.or (some .request), retrainReq := k.retrainReq ++ [(m, slot)] }).chan i =
      { s.dev.chan i with trigger := (s.dev.chan i).trigger.or (some .request), retrainReq := (s.dev.chan i).retrainReq ++ [(m, slot)] } := by
    simp [Device.modChan, Device.chan]
  refine ⟨?_, ?_, ?_, fun k hk => ?_, rfl⟩
  · exact congrArg Channel.trigger hsame
  · exact congrArg Channel.retrainReq hsame
  · exact (congrArg Channel.state hsame).trans rfl
  · unfold Device.chan Device.modChan
    dsimp only
    rw [tget_tmod_other _ _ _ _ _ hk]

/-- RETRAIN_CHANNEL of a number that no channel has. -/
theorem gives_retrainChannel_bad {i : Nat} (hi : (s.dev.adminAt m slot).target = i) (h : s.dev.servesNow 0x0039 m slot noIo) (hge : 196 ≤ i) :
    gives (.retrainChannel m slot) s fun e => e.answered m slot stInvalidField 0 0 ∧ e = s.dev.told e ∧ s.dev.fnsTold e := by
  refine Device.gives_of_refused (retry := 0) h rfl ?_
  rw [hi]
  exact if_pos (by simp [hge])

end

end Sys2Proof.Machine
end

section
/-! CREATE_INDEX: the index that a specification describes, the space it takes and the structures written for it (R77, R116, R417). -/

namespace Sys2Proof.Machine

/-! ### The index of a specification (R77, R417) -/

/-- An index as CREATE_INDEX makes it for a burgee: view 1, generation 1, and no entry (R417). -/
structure Index.Fresh (x : Index) (b : Nat) : Prop where
  burgee : x.burgee = b
  view : x.view = 1
  nLive : x.nLive = 0
  delta : x.delta = []
  idMap : x.idMap = []
  liveGen : x.liveGen = 1
  targetGen : x.targetGen = 1
  deletedAt : x.deletedAt = none

/-- A specification describes a fresh index. -/
theorem specIndex_fresh {bs : List Byte} {b : Nat} {x : Index} (h : specIndex bs b = some x) : x.Fresh b := by
  unfold specIndex at h
  dsimp only at h
  split at h
  · cases h
    exact ⟨rfl, rfl, rfl, rfl, rfl, rfl, rfl, rfl⟩
  · cases h

/-- A fresh index stays fresh with the centroids and the codebook that have been read. -/
theorem Index.fresh_of_read {x z : Index} {b : Nat} (hx : x.Fresh b) (cells : Option (List VForm)) (book : Option Codebook)
    (h : (match cells, book with
      | some cs, some cb => some { x with centroids := cs, codebooks := [(1, cb)] }
      | _, _ => none) = some z) : z.Fresh b := by
  obtain ⟨hburgee, hview, hlive, hdelta, hmap, hgen, htarget, hdeleted⟩ := hx
  cases cells with
  | none => cases h
  | some cs =>
    cases book with
    | none => cases h
    | some cb =>
      cases h
      exact ⟨hburgee, hview, hlive, hdelta, hmap, hgen, htarget, hdeleted⟩

/-- The input data of CREATE_INDEX describe a fresh index. -/
theorem parseSpec_fresh {bs : List Byte} {b : Nat} {x : Index} (h : parseSpec bs b = some x) : x.Fresh b := by
  unfold parseSpec at h
  dsimp only at h
  split at h
  · cases h
  · next y hy =>
    simp only [Option.ite_none_left_eq_some] at h
    obtain ⟨-, h⟩ := h
    exact Index.fresh_of_read (specIndex_fresh hy) _ _ h

/-! ### The space and the structures of a new index (R116, R417) -/

/-- Space taken changes the record of the space in use alone. -/
theorem Device.takeL_tiers {d e : Device} {owner : Option Nat} {n a : Nat} (h : d.takeL owner n = some (a, e)) :
    e = { d with tiers := e.tiers } := by
  unfold Device.takeL at h
  split at h
  · cases h; rfl
  · cases h

theorem Device.takeF_tiers {d e : Device} {owner : Option Nat} {n a : Nat} (h : d.takeF owner n = some (a, e)) :
    e = { d with tiers := e.tiers } := by
  unfold Device.takeF at h
  split at h
  · cases h; rfl
  · cases h

theorem Device.takeParts_tiers {owner : Option Nat} (ns : List Nat) {d e : Device} {ls : List Nat} (h : d.takeParts owner ns = some (ls, e)) :
    e = { d with tiers := e.tiers } := by
  induction ns generalizing d ls with
  | nil => cases h; rfl
  | cons n ns ih =>
    cases n with
    | zero =>
      simp only [Device.takeParts, Option.map_eq_some_iff] at h
      obtain ⟨⟨ks, f⟩, hrest, heq⟩ := h
      cases heq
      exact ih hrest
    | succ n =>
      simp only [Device.takeParts] at h
      split at h
      · cases h
      · next a d1 htake =>
        simp only [Option.map_eq_some_iff] at h
        obtain ⟨⟨ks, f⟩, hrest, heq⟩ := h
        cases heq
        rw [ih hrest, Device.takeL_tiers htake]

/-- Zeroing is bytes on their way to the tiers. -/
theorem Device.zero_bytesTo (d : Device) (a n : Nat) : d.bytesTo (d.zero a n) := rfl

theorem Device.syncSet_bytesTo (d : Device) (i n : Nat) : d.bytesTo (d.syncSet i n) := by
  unfold Device.syncSet
  split
  · exact d.bytesTo_refl
  · exact Device.foldl_bytesTo _ (fun d _ => d.syncBlock_bytesTo _ _ _) _ d

theorem Device.syncCentroidGraph_bytesTo (d : Device) (i : Nat) : d.bytesTo (d.syncCentroidGraph i) := by
  unfold Device.syncCentroidGraph
  split
  · exact d.bytesTo_refl
  · next x _ =>
    refine Device.bytesTo_trans (Device.foldl_bytesTo _ (fun d n => ?_) _ d) (Device.foldl_bytesTo _ (fun d p => ?_) _ _)
    · split
      · exact d.memWrite_bytesTo _ _
      · exact d.bytesTo_refl
    · cases x.centroidUpper p.1 with
      | none => exact d.bytesTo_refl
      | some u => exact d.putUpper_bytesTo _ _

/-- A step taken or left out writes bytes where the step does. -/
theorem Device.ite_bytesTo {d e f : Device} (p : Prop) [Decidable p] (he : d.bytesTo e) (hf : d.bytesTo f) : d.bytesTo (if p then e else f) := by
  split
  · exact he
  · exact hf

/-- CREATE_INDEX adds the index under its number, placed in the space it has taken; beside it only the tiers and what meters them change. -/
theorem Device.createIndex_only {d d1 : Device} {x : Index} (h : d.createIndex x = some d1) :
    ∃ y ls f, y = { x.placedAt ls f with cgraph := y.cgraph } ∧
      d1 = { d with indexes := tset x.indexNo y d.indexes, mem := d1.mem, tiers := d1.tiers, devBuckets := d1.devBuckets, burgees := d1.burgees } := by
  unfold Device.createIndex at h
  split at h
  · cases h
  · split at h
    · cases h
    · next ls d2 hparts =>
      split at h
      · cases h
      · next f d3 hf =>
        let x1 := x.placedAt ls f
        let y := if x1.stageA = 1 then { x1 with cgraph := x1.centroidGraph } else x1
        have hy : y = { x.placedAt ls f with cgraph := y.cgraph } := by
          unfold y
          split <;> rfl
        have hno : y.indexNo = x.indexNo := by rw [hy]; rfl
        let d4 := ((ls.zip y.parts).foldl (fun d s => d.zero s.1 s.2) d3).zero f (y.fParts.getLastD 0)
        have hzero : d3.bytesTo d4 := Device.bytesTo_trans (Device.foldl_bytesTo _ (fun d s => d.zero_bytesTo _ _) _ d3) (Device.zero_bytesTo _ _ _)
        let d5 : Device := { d4 with indexes := tset y.indexNo y d4.indexes }
        let d6 := if y.kind == .graph then d5 else (List.range y.nCells).foldl (fun d n => (d.syncSet y.indexNo n).syncCell y.indexNo n) d5
        have hcells : d5.bytesTo d6 := Device.ite_bytesTo _ d5.bytesTo_refl (Device.foldl_bytesTo _
          (fun d n => Device.bytesTo_trans (d.syncSet_bytesTo _ _) (Device.syncCell_bytesTo _ _ _)) _ d5)
        let d7 := if y.kind == .cell then d6.memWrite y.centroidBase (y.centroids.flatMap fun c => formBytes c ++ formScales c) else d6
        have hcentres : d6.bytesTo d7 := Device.ite_bytesTo _ (d6.memWrite_bytesTo _ _) d6.bytesTo_refl
        let d8 := if y.bookK = 0 then d7 else d7.syncBook y.indexNo 0 1
        have hbook : d7.bytesTo d8 := Device.ite_bytesTo _ d7.bytesTo_refl (d7.syncBook_bytesTo _ _ _)
        let d9 := if y.kind == .graph || y.stageA = 1 then d8.syncFixed y.indexNo 0 2 else d8
        have hfixed : d8.bytesTo d9 := Device.ite_bytesTo _ (d8.syncFixed_bytesTo _ _ _) d8.bytesTo_refl
        have hbytes : d5.bytesTo d1 := by
          cases h
          exact Device.bytesTo_trans (Device.bytesTo_trans (Device.bytesTo_trans (Device.bytesTo_trans (Device.bytesTo_trans hcells hcentres) hbook)
            hfixed) (d9.syncCentroidGraph_bytesTo _)) (Device.syncRecord_bytesTo _ _)
        refine ⟨y, ls, f, hy, ?_⟩
        rw [show d1 = _ from hbytes]
        show { d5 with burgees := d1.burgees, mem := d1.mem, tiers := d1.tiers, devBuckets := d1.devBuckets } = _
        have hd3 : d3 = { d with tiers := d3.tiers } := by
          rw [Device.takeF_tiers hf, Device.takeParts_tiers _ hparts]
        have hd4 : d4 = { d with burgees := d4.burgees, mem := d4.mem, tiers := d4.tiers, devBuckets := d4.devBuckets } := by
          rw [show d4 = _ from hzero, hd3]
        show { d4 with indexes := tset y.indexNo y d4.indexes, burgees := d1.burgees, mem := d1.mem, tiers := d1.tiers, devBuckets := d1.devBuckets } = _
        rw [hd4, hno]

/-! ### What CREATE_INDEX answers (R417) -/

/-- The number that a new index takes: the one it names, or the lowest that is free. -/
theorem Device.newIndexNo {d : Device} {x : Index} {n : Nat} (hn : n = if x.indexNo = 0xFFFF then (d.freeIndexNo).getD 1024 else x.indexNo) (hlt : n < 1024)
    (hfree : tfind n d.indexes = none) :
    (if x.indexNo = 0xFFFF then d.freeIndexNo else if (tfind x.indexNo d.indexes).isSome then none else some x.indexNo) = some n := by
  by_cases hany : x.indexNo = 0xFFFF
  · rw [if_pos hany] at hn ⊢
    cases hno : d.freeIndexNo with
    | none => rw [hno] at hn; simp only [Option.getD_none] at hn; omega
    | some k => rw [hno] at hn; rw [hn]; rfl
  · rw [if_neg hany] at hn ⊢
    rw [← hn, hfree]
    rfl

section
variable {s : State} {m slot b n : Nat} {io : AdminIo} {bs : List Byte} (h : s.dev.servesNow 0x0030 m slot io)
  (hb : s.dev.requestBurgee m ((s.dev.adminAt m slot).param 0 1) = some b)
  (hin : s.dev.adminIn (s.dev.adminAt m slot) m slot (some b) io = .ok bs)
include h hb hin

/-- CREATE_INDEX of data that break its checks. -/
theorem gives_createIndex_bad (hbad : parseSpec bs b = none) :
    gives (.createIndex m slot io) s fun e => e.answered m slot stInvalidField 0 0 ∧ e = s.dev.told e ∧ s.dev.fnsTold e := by
  refine Device.gives_of_refused (retry := 0) h rfl ?_
  rw [hb]
  dsimp only
  rw [Device.withInput_ok hin, hbad]
  rfl

/-- CREATE_INDEX where space is short (R116). -/
theorem gives_createIndex_noSpace {x : Index} (hx : parseSpec bs b = some x)
    (hn : n = if x.indexNo = 0xFFFF then (s.dev.freeIndexNo).getD 1024 else x.indexNo) (hlt : n < 1024)
    (hfree : tfind n s.dev.indexes = none) (hnone : s.dev.createIndex { x with indexNo := n } = none) :
    gives (.createIndex m slot io) s fun e => e.answered m slot stNoSpace 0 0 ∧ e = s.dev.told e ∧ s.dev.fnsTold e := by
  refine Device.gives_of_refused (retry := 0) h rfl ?_
  rw [hb]
  dsimp only
  rw [Device.withInput_ok hin, hx]
  dsimp only
  rw [Device.newIndexNo hn hlt hfree]
  dsimp only
  rw [hnone]
  rfl

/-- CREATE_INDEX makes the index its specification describes under its number. -/
theorem gives_createIndex {x : Index} {d1 : Device} (hx : parseSpec bs b = some x)
    (hn : n = if x.indexNo = 0xFFFF then (s.dev.freeIndexNo).getD 1024 else x.indexNo) (hlt : n < 1024)
    (hfree : tfind n s.dev.indexes = none) (hmade : s.dev.createIndex { x with indexNo := n } = some d1) :
    gives (.createIndex m slot io) s fun e => e.answered m slot 0 0 n ∧ (∀ j, j ≠ n → tfind j e.indexes = tfind j s.dev.indexes) ∧
      (∃ y, tfind n e.indexes = some y ∧ y.indexNo = n ∧ y.kind = x.kind ∧ y.metric = x.metric ∧ y.dim = x.dim ∧ y.nCap = x.nCap ∧
        y.nCells = x.nCells ∧ y.burgee = b ∧ y.view = 1 ∧ y.nLive = 0 ∧ y.delta = [] ∧ y.idMap = [] ∧ y.liveGen = 1 ∧ y.targetGen = 1 ∧
        y.centroids = x.centroids ∧ y.codebooks = x.codebooks ∧ y.deletedAt = none) ∧
      e = { s.dev.told e with indexes := e.indexes, mem := e.mem, tiers := e.tiers, devBuckets := e.devBuckets, burgees := e.burgees } ∧
      s.dev.fnsTold e := by
  obtain ⟨_, _, _, _, hstart, _⟩ := id h
  obtain ⟨y, ls, f, hy, hd1⟩ := Device.createIndex_only hmade
  obtain ⟨hburgee, hview, hlive, hdelta, hmap, hgen, htarget, hdeleted⟩ := parseSpec_fresh hx
  refine Device.gives_of_serves (a := d1.result n) h rfl ?_ rfl rfl ?_ fun e hans htold hfns => ⟨hans, fun j hj => ?_, ⟨y, ?_, ?_⟩, ?_, ?_⟩
  · rw [hb]
    dsimp only
    rw [Device.withInput_ok hin, hx]
    dsimp only
    rw [Device.newIndexNo hn hlt hfree]
    dsimp only
    rw [hmade]
  · refine Eq.trans ?_ hstart
    show d1.startedAt m slot = _
    rw [hd1]
    rfl
  · rw [htold]
    show tfind j d1.indexes = _
    rw [hd1]
    exact tfind_tset_other _ _ _ _ hj
  · rw [htold]
    show tfind n d1.indexes = _
    rw [hd1]
    exact tfind_tset_same _ _ _
  · rw [hy]
    exact ⟨rfl, rfl, rfl, rfl, rfl, rfl, hburgee, hview, hlive, hdelta, hmap, hgen, htarget, rfl, rfl, hdeleted⟩
  · rw [htold]
    show d1.told e = _
    rw [hd1]
    rfl
  · intro k
    have hk := hfns k
    rw [hd1] at hk
    exact hk

end

end Sys2Proof.Machine
end

section
/-! What messages, completions and applied writes leave of the requests in the mailboxes, of the jobs and of the indexes there. -/

namespace Sys2Proof.Machine

/-! ### Started requests, jobs and indexes kept -/

/-- Started requests stay started, the jobs are the same, and an index is there, waiting for its release or absent as before. -/
structure Device.keepsAdmin (d e : Device) : Prop where
  started : ∀ m slot, d.startedAt m slot = true → e.startedAt m slot = true
  jobs : e.jobs = d.jobs
  there : ∀ i, (tfind i e.indexes).map (·.deletedAt) = (tfind i d.indexes).map (·.deletedAt)

theorem Device.keepsAdmin_refl (d : Device) : d.keepsAdmin d := ⟨fun _ _ => id, rfl, fun _ => rfl⟩

theorem Device.keepsAdmin_trans {d e f : Device} (h : d.keepsAdmin e) (k : e.keepsAdmin f) : d.keepsAdmin f :=
  ⟨fun m slot hs => k.started m slot (h.started m slot hs), k.jobs.trans h.jobs, fun i => (k.there i).trans (h.there i)⟩

theorem Device.foldl_keepsAdmin {β : Type} (f : Device → β → Device) (h : ∀ (d : Device) x, d.keepsAdmin (f d x)) (xs : List β) (d : Device) :
    d.keepsAdmin (xs.foldl f d) := by
  induction xs generalizing d with
  | nil => exact d.keepsAdmin_refl
  | cons x xs ih => exact Device.keepsAdmin_trans (h d x) (ih (f d x))

theorem Device.ite_keepsAdmin {d e f : Device} (p : Prop) [Decidable p] (he : d.keepsAdmin e) (hf : d.keepsAdmin f) :
    d.keepsAdmin (if p then e else f) := by
  split
  · exact he
  · exact hf

/-- What touches no mailbox, no job and no index. -/
theorem Device.keepsAdmin_of_eq {d e : Device} (hmb : ∀ k, (e.fn k).mb = (d.fn k).mb) (hside : e.sideMb = d.sideMb) (hjobs : e.jobs = d.jobs)
    (hindexes : e.indexes = d.indexes) : d.keepsAdmin e := by
  refine ⟨fun m slot hs => ?_, hjobs, fun i => by rw [hindexes]⟩
  unfold Device.startedAt Device.mbox at *
  rw [hside, hmb]
  exact hs

theorem Device.keepsAdmin_of_bytesTo {d e : Device} (h : d.bytesTo e) : d.keepsAdmin e := by
  rw [show e = _ from h]
  exact Device.keepsAdmin_of_eq (fun _ => rfl) rfl rfl rfl

theorem Device.keepsAdmin_of_readsCharged {d e : Device} (h : d.readsCharged e) : d.keepsAdmin e := by
  obtain ⟨honly, hfns, -⟩ := h
  refine Device.keepsAdmin_of_eq (fun k => by rw [hfns k]) ?_ ?_ ?_ <;> rw [honly]

/-- An index changed stays there. -/
theorem Device.modIndex_keepsAdmin (d : Device) (i : Nat) (g : Index → Index) (hg : ∀ x, (g x).deletedAt = x.deletedAt := by intro _; rfl) :
    d.keepsAdmin (d.modIndex i g) := by
  cases hx : tfind i d.indexes with
  | none =>
    simp only [Device.modIndex, hx]
    exact d.keepsAdmin_refl
  | some x =>
    rw [Device.modIndex_found hx]
    refine ⟨fun _ _ => id, rfl, fun j => ?_⟩
    by_cases hj : j = i
    · subst hj
      simp [hx, hg]
    · rw [tfind_tset_other _ _ _ _ hj]

/-- A function changed in something else than its mailbox. -/
theorem Device.modFn_keepsAdmin (d : Device) (f : Nat) (g : Fn → Fn) (hg : ∀ n, (g n).mb = n.mb := by intro _; rfl) :
    d.keepsAdmin (d.modFn f g) :=
  Device.keepsAdmin_of_eq (fun k => d.modFn_mb f k g hg) (by simp) (by simp) (by simp)

/-! ### Events (R413) -/

/-- A mailbox changed reads as it was, or it is the one changed. -/
theorem Device.mbox_modMbox (d : Device) (m k : Nat) (g : Mailbox → Mailbox) :
    (d.modMbox m g).mbox k = d.mbox k ∨ k = m ∧ (d.modMbox m g).mbox k = g (d.mbox k) := by
  by_cases hm : m = sbMb
  · subst hm
    by_cases hk : k = sbMb
    · exact .inr ⟨hk, by simp [Device.modMbox, Device.mbox, hk]⟩
    · exact .inl (by simp [Device.modMbox, Device.mbox, hk, Device.fn])
  · by_cases hk : k = m
    · subst hk
      by_cases hlt : k < 256
      · exact .inr ⟨rfl, by simp [Device.modMbox, Device.mbox, hm, Device.fn_modFn_same _ _ _ hlt]⟩
      · exact .inl (by simp [Device.modMbox, Device.mbox, hm, Device.modFn, hlt])
    · refine .inl ?_
      simp only [Device.modMbox, Device.mbox, if_neg hm, Device.fn_modFn_other _ _ _ _ hk, Device.modFn_keeps]

/-- A mailbox changed in something else than its slots. -/
theorem Device.modMbox_keepsAdmin (d : Device) (m : Nat) (g : Mailbox → Mailbox) (hg : ∀ b, (g b).slots = b.slots := by intro _; rfl) :
    d.keepsAdmin (d.modMbox m g) := by
  refine ⟨fun k slot hs => ?_, by simp, fun i => by simp⟩
  unfold Device.startedAt at *
  rcases d.mbox_modMbox m k g with h | ⟨-, h⟩
  · rw [h]; exact hs
  · rw [h, hg]; exact hs

theorem Device.fnEvent_keepsAdmin (d : Device) (f b : Nat) : d.keepsAdmin (d.fnEvent f b) :=
  Device.keepsAdmin_of_eq (d.fnEvent_mb f b) (by simp) (by simp) (by simp)

/-- A response leaves the other requests started. -/
theorem Device.respondWith_started {d : Device} {k j : Nat} (hs : d.startedAt k j = true) (m slot status detail retry result : Nat) (out : List Byte)
    (hne : ¬ (k = m ∧ j = slot)) : (d.respondWith m slot status detail retry result out).startedAt k j = true := by
  have hslots : ∀ (t : Tab SlotState) (v : SlotState), k = m → tget SlotState.idle j (tset slot v t) = tget SlotState.idle j t := fun t v hk =>
    tget_tset_other _ _ _ _ _ fun hj => hne ⟨hk, hj⟩
  let d1 : Device := if status = 0x2004 then
    { d with mgmt := { d.mgmt with shed := { d.mgmt.shed with busy := d.mgmt.shed.busy + 1 } } } else d
  have hcount : ∀ n, d1.mbox n = d.mbox n := by
    intro n
    unfold d1
    split <;> rfl
  unfold Device.respondWith
  dsimp only
  split
  · exact hs
  · split
    · next hm =>
      unfold Device.startedAt at *
      by_cases hk : k = sbMb
      · simp only [Device.mbox, if_pos hk, hm, hslots _ _ (hk.trans hm.symm)] at hs ⊢
        exact hs
      · rw [← hcount] at hs
        simp only [Device.mbox, if_neg hk] at hs ⊢
        exact hs
    · refine (Device.fnEvent_keepsAdmin _ _ _).started k j ?_
      unfold Device.startedAt at *
      rw [← hcount] at hs
      rcases d1.mbox_modMbox m k _ with h | ⟨hk, h⟩
      · exact (congrArg (fun b : Mailbox => tget SlotState.idle j b.slots == .started) h).trans hs
      · refine (congrArg (fun b : Mailbox => tget SlotState.idle j b.slots == .started) h).trans ?_
        simp only [hslots _ _ hk]
        exact hs

theorem Device.alert_keepsAdmin (d : Device) (b : Nat) : d.keepsAdmin (d.alert b) := Device.keepsAdmin_of_eq (fun _ => rfl) rfl rfl rfl

/-- An event takes a request that waits for one, and no other (R413). -/
theorem Device.eventTo_keepsAdmin (d : Device) (e : Event) (m : Nat) : d.keepsAdmin (d.eventTo e m) := by
  have hrecv := d.modMbox_keepsAdmin m (fun b => { b with received := ((d.now, e) :: b.received).take 256 }) fun _ => rfl
  refine Device.keepsAdmin_trans hrecv ?_
  unfold Device.eventTo
  dsimp only
  split
  · next s rest hslots =>
    have hheld : tget SlotState.idle s ((d.modMbox m fun b => { b with received := ((d.now, e) :: b.received).take 256 }).mbox m).slots = .heldForEvent := by
      have hmem : s ∈ s :: rest := List.mem_cons_self
      rw [← hslots] at hmem
      simpa using (List.mem_filter.mp hmem).2
    refine ⟨fun k j hs => Device.respondWith_started hs _ _ _ _ _ _ _ fun hkj => ?_, by simp, fun i => by simp⟩
    obtain ⟨rfl, rfl⟩ := hkj
    unfold Device.startedAt at hs
    rw [hheld] at hs
    cases hs
  · refine Device.ite_keepsAdmin _ ?_ (Device.modMbox_keepsAdmin _ _ _)
    exact Device.ite_keepsAdmin _ (Device.keepsAdmin_trans (Device.modMbox_keepsAdmin _ _ _)
      (Device.alert_keepsAdmin _ _)) (Device.modMbox_keepsAdmin _ _ _)

theorem Device.raise_keepsAdmin (d : Device) (e : Event) : d.keepsAdmin (d.raise e) :=
  Device.foldl_keepsAdmin _ (fun d m => d.eventTo_keepsAdmin e m) _ d

/-! ### Messages (R345, R452 to R463) -/

theorem Device.charge_keepsAdmin (d : Device) (own : Bool) (client : Option Nat) (b : Nat) (r : Metered) (p n : Nat) :
    d.keepsAdmin (d.charge own client b r p n) := by
  cases own with
  | false => exact Device.keepsAdmin_of_readsCharged (d.charge_metered client b r p n)
  | true => exact Device.keepsAdmin_of_eq (fun _ => rfl) rfl rfl rfl

theorem Device.modLink_keepsAdmin (d : Device) (l : Nat) (g : Link → Link) : d.keepsAdmin (d.modLink l g) :=
  Device.keepsAdmin_of_eq (fun _ => rfl) rfl rfl rfl

theorem Device.emit_keepsAdmin (d : Device) (e : Emit) : d.keepsAdmin (d.emit e) := Device.keepsAdmin_of_eq (fun _ => rfl) rfl rfl rfl

theorem Device.sendFlit_keepsAdmin (d : Device) (l : Nat) : d.keepsAdmin (d.sendFlit l) := by
  have hcharge : ∀ (d : Device) (m : Msg), d.keepsAdmin (d.chargeFlit m) := by
    intro d m
    unfold Device.chargeFlit
    split
    · exact d.keepsAdmin_refl
    · exact d.charge_keepsAdmin _ _ _ _ _ _
  unfold Device.sendFlit
  dsimp only
  split
  · exact d.keepsAdmin_refl
  · split
    · exact d.keepsAdmin_refl
    · exact Device.keepsAdmin_trans (Device.keepsAdmin_trans (Device.keepsAdmin_trans (d.modLink_keepsAdmin _ _) (Device.modLink_keepsAdmin _ _ _))
        (hcharge _ _)) (Device.emit_keepsAdmin _ _)

theorem Device.onLink_keepsAdmin (d : Device) (l : Nat) (m : Msg) : d.keepsAdmin (d.onLink l m) :=
  Device.keepsAdmin_trans (d.modLink_keepsAdmin _ _)
    (Device.foldl_keepsAdmin _ (fun d _ => Device.ite_keepsAdmin _ (d.sendFlit_keepsAdmin l) d.keepsAdmin_refl) _ _)

theorem Device.dropMsg_keepsAdmin (d : Device) (m : Msg) (l : Nat) : d.keepsAdmin (d.dropMsg m l) :=
  Device.keepsAdmin_trans (d.modLink_keepsAdmin l _) (Device.raise_keepsAdmin _ _)

theorem Device.overTrunk_keepsAdmin (d : Device) (m : Msg) (ls : List Nat) : d.keepsAdmin (d.overTrunk m ls) := by
  unfold Device.overTrunk
  split
  · exact d.onLink_keepsAdmin _ _
  · exact d.dropMsg_keepsAdmin _ _

/-- Whichever way a message takes, by its primary trunk, by the detour or dropped (R461, R462). -/
theorem Device.route_keepsAdmin (d : Device) (m : Msg) : d.keepsAdmin (d.route m) := by
  have hdetour : ∀ (m : Msg) (ls : List Nat) (l : Nat), d.keepsAdmin ((d.overTrunk m ls).linkCount l 14 1) := fun m ls l =>
    Device.keepsAdmin_trans (d.overTrunk_keepsAdmin m ls) (Device.modLink_keepsAdmin _ _ _)
  unfold Device.route
  dsimp only
  split
  · exact Device.ite_keepsAdmin _ (d.overTrunk_keepsAdmin _ _)
      (Device.ite_keepsAdmin _ (d.dropMsg_keepsAdmin _ _) (d.overTrunk_keepsAdmin _ _))
  · refine Device.ite_keepsAdmin _ (Device.ite_keepsAdmin _ (d.overTrunk_keepsAdmin _ _)
      (Device.ite_keepsAdmin _ (hdetour _ _ _) (d.dropMsg_keepsAdmin _ _))) ?_
    split
    · exact Device.ite_keepsAdmin _ (hdetour _ _ _) (d.overTrunk_keepsAdmin _ _)
    · exact hdetour _ _ _
    · exact d.dropMsg_keepsAdmin _ _

theorem Device.send_keepsAdmin (d : Device) (dst kind tag burgee : Nat) (resent : Bool) (bs : List Byte) :
    d.keepsAdmin (d.send dst kind tag burgee resent bs) :=
  Device.keepsAdmin_trans (d.emit_keepsAdmin _) (Device.route_keepsAdmin _ _)

/-! ### Commands that end (R364, R375, R390) -/

theorem Device.msix_keepsAdmin (d : Device) (f v : Nat) : d.keepsAdmin (d.msix f v) :=
  Device.keepsAdmin_of_eq (d.msix_mb f v) (by simp) (by simp) (by simp)

theorem Device.modQp_keepsAdmin (d : Device) (f q : Nat) (g : QueuePair → QueuePair) : d.keepsAdmin (d.modQp f q g) := by
  unfold Device.modQp
  split
  · exact d.modFn_keepsAdmin _ _
  · exact d.keepsAdmin_refl

theorem Device.toHost_keepsAdmin (d : Device) (f a : Nat) (r : Bool) (bs : List Byte) : d.keepsAdmin (d.toHost f a r bs) := by
  unfold Device.toHost
  exact Device.ite_keepsAdmin _ d.keepsAdmin_refl (Device.ite_keepsAdmin _ (d.emit_keepsAdmin _) (d.modFn_keepsAdmin _ _))

theorem Device.cqSignal_keepsAdmin (d : Device) (f q : Nat) : d.keepsAdmin (d.cqSignal f q) := by
  unfold Device.cqSignal
  split
  · exact Device.keepsAdmin_trans (d.modQp_keepsAdmin _ _ _) (Device.msix_keepsAdmin _ _ _)
  · exact d.keepsAdmin_refl

theorem Device.post_keepsAdmin (d : Device) (f q cid index t0 status spec : Nat) (bound trunc : Bool) :
    d.keepsAdmin (d.post f q cid index t0 status spec bound trunc) := by
  have hcount : ∀ d : Device, d.keepsAdmin { d with devCnt := { d.devCnt with completions := d.devCnt.completions + 1 } } := fun _ =>
    Device.keepsAdmin_of_eq (fun _ => rfl) rfl rfl rfl
  unfold Device.post
  split
  · exact d.keepsAdmin_refl
  · dsimp only
    refine Device.keepsAdmin_trans ?_ (Device.ite_keepsAdmin _ (Device.cqSignal_keepsAdmin _ _ _) (Device.keepsAdmin_refl _))
    exact Device.keepsAdmin_trans (Device.keepsAdmin_trans (Device.keepsAdmin_trans (d.toHost_keepsAdmin _ _ _ _)
      (Device.modQp_keepsAdmin _ _ _ _)) (Device.modFn_keepsAdmin _ _ _)) (hcount _)

theorem Device.dropCmd_keepsAdmin (d : Device) (c : Cmd) : d.keepsAdmin (d.dropCmd c) := by
  have hctxs : d.keepsAdmin (d.releaseCmdCtxs c.stamp) := Device.keepsAdmin_of_eq (fun _ => by simp [Device.fn]) (by simp) (by simp) (by simp)
  have hcancel : ∀ d : Device, d.keepsAdmin (d.cancelRemote c) := fun d =>
    Device.keepsAdmin_trans
      (e := { d with shoal := { d.shoal with pending := d.shoal.pending.filter (·.stamp != c.stamp) } })
      (Device.keepsAdmin_of_eq (fun _ => rfl) rfl rfl rfl) (Device.foldl_keepsAdmin _ (fun _ _ => Device.send_keepsAdmin _ _ _ _ _ _ _) _ _)
  exact Device.keepsAdmin_trans (Device.keepsAdmin_trans hctxs (hcancel _)) (Device.keepsAdmin_of_eq (fun _ => rfl) rfl rfl rfl)

/-- A command that ends with a status leaves, and no request is answered by it. -/
theorem Device.endCmd_keepsAdmin (d : Device) (k status : Nat) : d.keepsAdmin (d.endCmd k status) := by
  unfold Device.endCmd
  split
  · exact d.keepsAdmin_refl
  · next c _ =>
    refine Device.keepsAdmin_trans (d.dropCmd_keepsAdmin c) ?_
    have hanswer : ∀ (d : Device) (r : RemoteOrigin), d.keepsAdmin (d.answerWrite c r status 0) := fun d r =>
      Device.keepsAdmin_trans
        (e := { d with shoal := { d.shoal with fwdKept := d.shoal.fwdKept ++ [(r.device, r.fetch, leBytes 8 status ++ leBytes 8 0)] } })
        (Device.keepsAdmin_of_eq (fun _ => rfl) rfl rfl rfl) (Device.send_keepsAdmin _ _ _ _ _ _ _)
    dsimp only
    split
    · exact Device.ite_keepsAdmin _ (hanswer _ _) (Device.keepsAdmin_refl _)
    · exact Device.keepsAdmin_trans (Device.post_keepsAdmin _ _ _ _ _ _ _ _ _ _) (Device.modQp_keepsAdmin _ _ _ _)

/-- And no command with its stamp is in flight any more. -/
theorem Device.endCmd_cmds (d : Device) (k status : Nat) : (d.endCmd k status).cmds = d.cmds.filter (·.stamp != k) := by
  unfold Device.endCmd
  cases hc : d.cmd? k with
  | none =>
    refine (List.filter_eq_self.mpr fun c hmem => ?_).symm
    have hnot := List.find?_eq_none.mp hc c hmem
    simpa using hnot
  | some c =>
    have hk : c.stamp = k := by simpa using List.find?_some (p := fun c : Cmd => c.stamp == k) hc
    have hdrop := d.dropCmd_cmds c
    rw [hk] at hdrop
    dsimp only
    split
    · split
      · refine Eq.trans ?_ hdrop
        unfold Device.answerWrite
        rw [(Device.send_sentTo _ _ _ _ _ _ _).1]
        rfl
      · exact hdrop
    · simpa using hdrop

/-! ### Writes applied (R365, R386, R393) -/

theorem Device.dropCopy_keepsAdmin (d : Device) (i : Nat) (r : Option Rewrite) : d.keepsAdmin (d.dropCopy i r) := by
  unfold Device.dropCopy
  split
  · exact d.keepsAdmin_refl
  · next r =>
    refine Device.keepsAdmin_trans (e := { d with tiers := { d.tiers with extL := d.tiers.extL.filter (·.base != r.base) } })
      (Device.keepsAdmin_of_eq (fun _ => rfl) rfl rfl rfl) (Device.modIndex_keepsAdmin _ _ _ fun x => ?_)
    split <;> rfl

theorem Device.abandonRewrite_keepsAdmin (d : Device) (i unit : Nat) : d.keepsAdmin (d.abandonRewrite i unit false) := by
  have hcount : d.keepsAdmin { d with devCnt := { d.devCnt with rewritesAbandoned := d.devCnt.rewritesAbandoned + 1 } } :=
    Device.keepsAdmin_of_eq (fun _ => rfl) rfl rfl rfl
  have hdrop : ∀ (g : Index → Index) (r : Option Rewrite) (x : Index), (∀ y, (g y).deletedAt = y.deletedAt) →
      d.keepsAdmin (((({ d with devCnt := { d.devCnt with rewritesAbandoned := d.devCnt.rewritesAbandoned + 1 } } : Device).modIndex i g).dropCopy i r).unitActive x unit) :=
    fun g r x hg => Device.keepsAdmin_trans (Device.keepsAdmin_trans (Device.keepsAdmin_trans hcount (Device.modIndex_keepsAdmin _ _ _ hg))
      (Device.dropCopy_keepsAdmin _ _ _)) (Device.keepsAdmin_of_bytesTo (Device.unitActive_bytesTo _ _ _))
  unfold Device.abandonRewrite
  split
  · exact d.keepsAdmin_refl
  · simp only [Bool.false_eq_true, if_false, Nat.le_zero, decide_eq_true_eq, OfNat.ofNat_ne_zero, Bool.and_eq_true, false_and]
    split
    · split
      · exact d.keepsAdmin_refl
      · exact hdrop _ _ _ fun _ => rfl
    · split
      · exact d.keepsAdmin_refl
      · exact hdrop _ _ _ fun _ => rfl

theorem Device.catchUp_keepsAdmin (d : Device) (i unit : Nat) (r : CatchUp) : d.keepsAdmin (d.catchUp i unit r) := by
  unfold Device.catchUp
  split
  · exact d.keepsAdmin_refl
  · dsimp only
    split
    · split
      · exact d.keepsAdmin_refl
      · refine Device.ite_keepsAdmin _ (d.abandonRewrite_keepsAdmin _ _) (d.modIndex_keepsAdmin _ _ fun x => ?_)
        unfold Index.modGroup
        split <;> rfl
    · split
      · exact d.keepsAdmin_refl
      · exact Device.ite_keepsAdmin _ (d.abandonRewrite_keepsAdmin _ _) (d.modIndex_keepsAdmin _ _)

theorem Device.tombSlot_keepsAdmin (d : Device) (i n s : Nat) : d.keepsAdmin (d.tombSlot i n s) :=
  Device.keepsAdmin_trans (Device.keepsAdmin_trans (d.modIndex_keepsAdmin _ _) (Device.catchUp_keepsAdmin _ _ _ _))
    (Device.keepsAdmin_of_bytesTo (Device.bytesTo_trans (Device.bytesTo_trans (Device.syncTomb_bytesTo _ _ _) (Device.syncCell_bytesTo _ _ _))
      (Device.syncRecord_bytesTo _ _)))

theorem Device.tombNode_keepsAdmin (d : Device) (i n : Nat) : d.keepsAdmin (d.tombNode i n) := by
  have hbits : ∀ d : Device, d.bytesTo (d.syncNodeTomb i n) := by
    intro d
    unfold Device.syncNodeTomb
    split
    · exact d.bytesTo_refl
    · exact d.memWrite_bytesTo _ _
  exact Device.keepsAdmin_trans (Device.keepsAdmin_trans (d.modIndex_keepsAdmin _ _) (Device.catchUp_keepsAdmin _ _ _ _))
    (Device.keepsAdmin_of_bytesTo (Device.bytesTo_trans (hbits _) (Device.syncRecord_bytesTo _ _)))

theorem Device.endDelta_keepsAdmin (d : Device) (i e state : Nat) : d.keepsAdmin (d.endDelta i e state) := by
  refine Device.keepsAdmin_trans (d.modIndex_keepsAdmin _ _ fun x => ?_) (Device.keepsAdmin_of_bytesTo (Device.syncDelta_bytesTo _ _ _))
  split <;> rfl

theorem Device.endVector_keepsAdmin (d : Device) (i : Nat) (l : Loc) (state : Nat) : d.keepsAdmin (d.endVector i l state) := by
  unfold Device.endVector
  split
  · exact d.modIndex_keepsAdmin _ _
  · cases l with
    | slot n s => exact d.tombSlot_keepsAdmin _ _ _
    | node n => exact d.tombNode_keepsAdmin _ _
    | delta e => exact d.endDelta_keepsAdmin _ _ _

theorem Device.setAttrs_keepsAdmin (d : Device) (i : Nat) (l : Loc) (mask : Nat) (ws : List W64) : d.keepsAdmin (d.setAttrs i l mask ws) := by
  unfold Device.setAttrs
  split
  · exact d.keepsAdmin_refl
  · refine Device.ite_keepsAdmin _ d.keepsAdmin_refl ?_
    cases l with
    | slot n s =>
      dsimp only
      split
      · exact d.keepsAdmin_refl
      · exact Device.keepsAdmin_trans (Device.keepsAdmin_trans (d.modIndex_keepsAdmin _ _) (Device.catchUp_keepsAdmin _ _ _ _))
          (Device.keepsAdmin_of_bytesTo (Device.bytesTo_trans (Device.syncBlock_bytesTo _ _ _ _) (Device.syncCell_bytesTo _ _ _)))
    | node n =>
      dsimp only
      split
      · exact d.keepsAdmin_refl
      · refine Device.keepsAdmin_trans (Device.keepsAdmin_trans (d.modIndex_keepsAdmin _ _ fun x => ?_) (Device.catchUp_keepsAdmin _ _ _ _))
          (Device.keepsAdmin_of_bytesTo (Device.syncNode_bytesTo _ _ _))
        unfold Index.modNode Index.modGroup
        split <;> rfl
    | delta e =>
      refine Device.keepsAdmin_trans (d.modIndex_keepsAdmin _ _ fun x => ?_) (Device.keepsAdmin_of_bytesTo (Device.syncDelta_bytesTo _ _ _))
      split <;> rfl

theorem Device.idPut_keepsAdmin (d : Device) (i b p : Nat) (w : W64) : d.keepsAdmin (d.idPut i b p w) :=
  Device.keepsAdmin_trans (d.modIndex_keepsAdmin _ _) (Device.keepsAdmin_of_bytesTo (Device.syncBucket_bytesTo _ _ _))

theorem Device.addDelta_keepsAdmin (d : Device) (i : Nat) (w : WriteReq) (found : Bool) : d.keepsAdmin (d.addDelta i w found) := by
  have hmove : ∀ (d : Device) (l : Loc), d.keepsAdmin (d.idMove i w.id l) := by
    intro d l
    unfold Device.idMove
    split
    · exact d.keepsAdmin_refl
    · split
      · exact d.idPut_keepsAdmin _ _ _ _
      · exact d.keepsAdmin_refl
  have hinsert : ∀ (d : Device) (l : Loc), d.keepsAdmin (d.idInsert i w.id l) := by
    intro d l
    unfold Device.idInsert
    split
    · exact d.keepsAdmin_refl
    · dsimp only
      split
      · exact Device.keepsAdmin_trans (d.idPut_keepsAdmin _ _ _ _) (Device.modIndex_keepsAdmin _ _ _)
      · exact d.keepsAdmin_refl
  have hentered : ∀ (g : Index → Index) (e : Nat), (hg : ∀ x, (g x).deletedAt = x.deletedAt := by intro _; rfl) →
      d.keepsAdmin ((d.modIndex i g).syncDelta i e) := fun g e hg =>
    Device.keepsAdmin_trans (d.modIndex_keepsAdmin i g hg) (Device.keepsAdmin_of_bytesTo (Device.syncDelta_bytesTo _ _ _))
  unfold Device.addDelta
  split
  · exact d.keepsAdmin_refl
  · exact Device.ite_keepsAdmin _ (Device.keepsAdmin_trans (hentered _ _) (hmove _ _)) (Device.keepsAdmin_trans (hentered _ _) (hinsert _ _))

/-- A write applied keeps the index it is made to. -/
theorem Device.applyWrite_keepsAdmin (d : Device) (i : Nat) (w : WriteReq) : d.keepsAdmin (d.applyWrite i w).2.2 := by
  unfold Device.applyWrite
  split
  · exact d.keepsAdmin_refl
  · next x _ =>
    dsimp only
    split
    · exact d.keepsAdmin_refl
    · have hcharged := Device.keepsAdmin_of_readsCharged (d.chargeWrite_metered x w ((x.lookup w.id).map (·.2.2)))
      refine Device.keepsAdmin_trans (Device.keepsAdmin_trans ?_ (Device.modIndex_keepsAdmin _ _ _))
        (Device.keepsAdmin_of_bytesTo (Device.syncRecord_bytesTo _ _))
      split
      · exact Device.keepsAdmin_trans hcharged (Device.addDelta_keepsAdmin _ _ _ _)
      · exact Device.keepsAdmin_trans hcharged (Device.addDelta_keepsAdmin _ _ _ _)
      · exact Device.keepsAdmin_trans hcharged
          (Device.keepsAdmin_trans (Device.addDelta_keepsAdmin _ _ _ _) (Device.endVector_keepsAdmin _ _ _ _))
      · exact Device.keepsAdmin_trans hcharged (Device.keepsAdmin_trans (Device.endVector_keepsAdmin _ _ _ _)
          (Device.keepsAdmin_trans (Device.idPut_keepsAdmin _ _ _ _ _) (Device.modIndex_keepsAdmin _ _ _)))
      · exact Device.keepsAdmin_trans hcharged (Device.setAttrs_keepsAdmin _ _ _ _ _)
      · exact hcharged

theorem Device.modCmd_keepsAdmin (d : Device) (k : Nat) (g : Cmd → Cmd) : d.keepsAdmin (d.modCmd k g) :=
  Device.keepsAdmin_of_eq (fun _ => rfl) rfl rfl rfl

/-- Work of the shoal noted changes no request, job or index. -/
theorem Device.shoal_keepsAdmin (d : Device) (w : Shoal) : d.keepsAdmin { d with shoal := w } := Device.keepsAdmin_of_eq (fun _ => rfl) rfl rfl rfl

theorem Device.forwardWrite_keepsAdmin (d : Device) (c : Cmd) (home : Nat) : d.keepsAdmin (d.forwardWrite c home) :=
  Device.keepsAdmin_trans (Device.keepsAdmin_trans (Device.shoal_keepsAdmin _ _) (Device.send_keepsAdmin _ _ _ _ _ _ _))
    (Device.modCmd_keepsAdmin _ _ _)

theorem Device.noteShipped_keepsAdmin (d : Device) (i e : Nat) (w : WriteReq) : d.keepsAdmin (d.noteShipped i e w) := by
  have htaken : d.keepsAdmin (if (d.shippedTo i e).contains (some d.shoal.device) then d.shippedWrite i w else d) :=
    Device.ite_keepsAdmin _ (d.shoal_keepsAdmin _) d.keepsAdmin_refl
  exact Device.ite_keepsAdmin _ (Device.keepsAdmin_trans htaken (Device.shoal_keepsAdmin _ _)) htaken

theorem Device.tellHolder_keepsAdmin (d : Device) (c : Cmd) (l : Loc) : d.keepsAdmin (d.tellHolder c l) := by
  unfold Device.tellHolder
  split
  · exact d.keepsAdmin_refl
  · cases l with
    | slot n s => exact Device.foldl_keepsAdmin _ (fun d h => d.forwardWrite_keepsAdmin c h) _ _
    | node n => exact Device.foldl_keepsAdmin _ (fun d h => d.forwardWrite_keepsAdmin c h) _ _
    | delta e => exact Device.keepsAdmin_trans (d.noteShipped_keepsAdmin _ _ _) (Device.foldl_keepsAdmin _ (fun d h => d.forwardWrite_keepsAdmin c h) _ _)

theorem Device.mirrorWrite_keepsAdmin (d : Device) (c : Cmd) (seq : Nat) : d.keepsAdmin (d.mirrorWrite c seq) :=
  Device.ite_keepsAdmin _ d.keepsAdmin_refl (Device.keepsAdmin_trans
    (Device.keepsAdmin_trans (Device.shoal_keepsAdmin _ _) (Device.modCmd_keepsAdmin _ _ _)) (Device.send_keepsAdmin _ _ _ _ _ _ _))

theorem writeEff_keepsAdmin (op : IoOp) (k : Nat) (d : Device) : d.keepsAdmin (writeEff op k d) := by
  unfold writeEff
  split
  · exact d.keepsAdmin_refl
  · next c _ =>
    split
    · exact d.keepsAdmin_refl
    · dsimp only
      have happlied : ∀ g : Cmd → Cmd, d.keepsAdmin ((d.applyWrite c.indexNo c.writeReq).2.2.modCmd k g) := fun g =>
        Device.keepsAdmin_trans (d.applyWrite_keepsAdmin c.indexNo c.writeReq) (Device.modCmd_keepsAdmin _ _ _)
      split
      · exact happlied _
      · split
        · exact Device.keepsAdmin_trans (Device.keepsAdmin_trans (happlied _) (Device.tellHolder_keepsAdmin _ _ _)) (Device.mirrorWrite_keepsAdmin _ _ _)
        · exact Device.keepsAdmin_trans (happlied _) (Device.mirrorWrite_keepsAdmin _ _ _)

theorem Device.applyAccepted_keepsAdmin (d : Device) : d.keepsAdmin d.applyAccepted :=
  Device.foldl_keepsAdmin _ (fun d _ => writeEff_keepsAdmin _ _ d) _ d

end Sys2Proof.Machine
end

section
/-! DELETE_INDEX: its commands complete, its jobs end, and it is gone (R80, R296, R303, R417, R419). -/

namespace Sys2Proof.Machine

/-! ### Jobs of a number (R303, R419) -/

/-- The first job of a number is not over. -/
def jobOpen (js : List Job) (j : Nat) : Prop := ∃ k, js.find? (·.id == j) = some k ∧ k.isOver = false
/-- Every job of a number has ended with a result. -/
def jobsEnded (js : List Job) (j r : Nat) : Prop := ∀ k ∈ js, k.id = j → k.state = .ended r

/-- A change of jobs of another number. -/
theorem jobOpen_map {js : List Job} {j : Nat} {g : Job → Job} (hid : ∀ a, (g a).id = a.id) (hsame : ∀ a, a.id = j → g a = a)
    (h : jobOpen js j) : jobOpen (js.map g) j := by
  obtain ⟨k, hk, hover⟩ := h
  have hkj : k.id = j := by simpa using List.find?_some (p := fun a : Job => a.id == j) hk
  refine ⟨k, ?_, hover⟩
  simp only [List.find?_map, Function.comp_def, hid, hk, Option.map_some, hsame k hkj]

/-- A filter that keeps what is not over. -/
theorem jobOpen_filter {js : List Job} {j : Nat} {p : Job → Bool} (hp : ∀ a, a.isOver = false → p a = true) (h : jobOpen js j) :
    jobOpen (js.filter p) j := by
  obtain ⟨k, hk, hover⟩ := h
  refine ⟨k, ?_, hover⟩
  obtain ⟨hkj, before, after, hjs, hbefore⟩ := List.find?_eq_some_iff_append.mp hk
  rw [hjs, List.filter_append, List.filter_cons_of_pos (hp k hover)]
  exact List.find?_eq_some_iff_append.mpr ⟨hkj, _, _, rfl, fun a ha => hbefore a (List.mem_filter.mp ha).1⟩

theorem jobsEnded_map {js : List Job} {j r : Nat} {g : Job → Job} (hid : ∀ a, (g a).id = a.id)
    (hstate : ∀ a, a.id = j → a.state = .ended r → (g a).state = .ended r) (h : jobsEnded js j r) : jobsEnded (js.map g) j r := by
  intro k hk hkj
  obtain ⟨a, ha, rfl⟩ := List.mem_map.mp hk
  rw [hid] at hkj
  exact hstate a hkj (h a ha hkj)

theorem jobsEnded_filter {js : List Job} {j r : Nat} (p : Job → Bool) (h : jobsEnded js j r) : jobsEnded (js.filter p) j r :=
  fun k hk => h k (List.mem_filter.mp hk).1

/-! ### A job that ends (R282, R295, R303, R419) -/

/-- What ending the jobs of number j with result r does to the jobs, and what it leaves of the commands and the requests that no job answers. -/
structure Device.endsJob (d e : Device) (j r : Nat) : Prop where
  cmds : e.cmds = d.cmds
  started : ∀ m slot, d.startedAt m slot = true → (∀ a ∈ d.jobs, (m, slot) ∉ a.stopReq) → e.startedAt m slot = true
  stops : ∀ q, (∀ a ∈ d.jobs, q ∉ a.stopReq) → ∀ a ∈ e.jobs, q ∉ a.stopReq
  others : ∀ k, k ≠ j → jobOpen d.jobs k → jobOpen e.jobs k
  stays : ∀ k, jobsEnded d.jobs k r → jobsEnded e.jobs k r
  ends : jobOpen d.jobs j → jobsEnded e.jobs j r

theorem Device.quitJob_jobs (d : Device) (x : Job) :
    (d.quitJob x).jobs = d.jobs.map fun y => if y.id == x.id then { y with stopReq := [] } else y := by
  unfold Device.quitJob
  dsimp only
  rw [foldl_keep (fun d : Device => d.jobs) _ (fun d q => by simp)]
  unfold Device.modJob
  dsimp only
  rw [foldl_keep (fun d : Device => d.jobs) _ (fun d q => by simp)]

theorem Device.quitJob_cmds (d : Device) (x : Job) : (d.quitJob x).cmds = d.cmds := by
  unfold Device.quitJob
  dsimp only
  rw [foldl_keep (fun d : Device => d.cmds) _ (fun d q => by simp)]
  unfold Device.modJob
  dsimp only
  rw [foldl_keep (fun d : Device => d.cmds) _ (fun d q => by simp)]

/-- A job's contexts that stop answer no request. -/
theorem Device.releaseCtx_keepsAdmin (d : Device) (n : Nat) : d.keepsAdmin (d.releaseCtx n) :=
  Device.keepsAdmin_of_eq (fun _ => by simp [Device.fn]) (by simp) (by simp) (by simp)

/-- A job that stops answers the STOP_JOB requests that waited for it, and no other request. -/
theorem Device.quitJob_started {d : Device} {x : Job} {m slot : Nat} (hs : d.startedAt m slot = true) (hx : (m, slot) ∉ x.stopReq) :
    (d.quitJob x).startedAt m slot = true := by
  have hanswers : ∀ (qs : List (Nat × Nat)) (d : Device), d.startedAt m slot = true → (m, slot) ∉ qs →
      (qs.foldl (fun d q => d.respond q.1 q.2 0 0 0 0) d).startedAt m slot = true := by
    intro qs
    induction qs with
    | nil => exact fun _ hd _ => hd
    | cons q qs ih =>
      intro d hd hq
      obtain ⟨hne, hrest⟩ := not_or.mp (List.mem_cons.not.mp hq)
      exact ih _ (Device.respondWith_started hd _ _ _ _ _ _ _ fun hkj => hne (Prod.ext hkj.1 hkj.2)) hrest
  refine hanswers _ _ ?_ hx
  exact (Device.foldl_keepsAdmin _ (fun d n => d.releaseCtx_keepsAdmin n) _ d).started m slot hs

theorem Device.retireJobs_jobs (d : Device) (j : Nat) : (d.retireJobs j).jobs =
    (d.jobs.map fun x => if x.id == j then { x with endNo := d.endedJobs + 1 } else x).filter
      fun x => !(x.isOver && decide (x.endNo + 64 ≤ d.endedJobs + 1)) := by
  simp only [Device.retireJobs, Device.freeCkpts, Device.freeJobs, List.partition_eq_filter_filter]
  rfl

theorem Device.retireJobs_cmds (d : Device) (j : Nat) : (d.retireJobs j).cmds = d.cmds := rfl

theorem Device.retireJobs_started (d : Device) (j m slot : Nat) : (d.retireJobs j).startedAt m slot = d.startedAt m slot := rfl

/-- A job with its end, as R303 leaves it. -/
def Job.endedAs (j r : Nat) (x : Job) : Job :=
  if x.id == j then { x with state := .ended r, area := 0, ckpts := if r ≤ 1 then [] else x.ckpts } else x
/-- A job with the number of its end among those that have ended. -/
def Job.numbered (j n : Nat) (x : Job) : Job := if x.id == j then { x with endNo := n } else x
/-- A job whose STOP_JOB requests have been answered. -/
def Job.unstopped (j : Nat) (x : Job) : Job := if x.id == j then { x with stopReq := [] } else x

/-- Where no job of a number is open, nothing ends. -/
theorem Device.endsJob_self {d : Device} {j : Nat} (r : Nat) (h : ¬ jobOpen d.jobs j) : d.endsJob d j r :=
  ⟨rfl, fun _ _ hs _ => hs, fun _ hq => hq, fun _ _ ho => ho, fun _ he => he, fun ho => absurd ho h⟩

/-- The device with a job ended, its training area and the checkpoints it does not keep given back. -/
def Device.jobEnded (d : Device) (j r : Nat) (x : Job) : Device :=
  ((d.modJob j fun x => { x with state := .ended r, area := 0, ckpts := if r ≤ 1 then [] else x.ckpts }).freeJobs [x]).freeCkpts
    (if r ≤ 1 then x.ckpts else [])

theorem Device.jobEnded_jobs (d : Device) (j r : Nat) (x : Job) : (d.jobEnded j r x).jobs = d.jobs.map (Job.endedAs j r) := rfl
theorem Device.jobEnded_cmds (d : Device) (j r : Nat) (x : Job) : (d.jobEnded j r x).cmds = d.cmds := rfl
theorem Device.jobEnded_endedJobs (d : Device) (j r : Nat) (x : Job) : (d.jobEnded j r x).endedJobs = d.endedJobs := rfl
theorem Device.jobEnded_started (d : Device) (j r : Nat) (x : Job) (m slot : Nat) :
    (d.jobEnded j r x).startedAt m slot = d.startedAt m slot := rfl

/-- A job that has no result yet ends with one. -/
theorem Device.endJob_of_open {d : Device} {j : Nat} (r : Nat) {x : Job} (hx : d.job? j = some x) (hopen : ∀ n, x.state ≠ .ended n) :
    d.endJob j r = (((d.jobEnded j r x).retireJobs j).raiseBrg x.burgee 0x0007 (j + at_ 16 r)).quitJob x := by
  unfold Device.endJob
  simp only [hx]
  cases hstate : x.state with
  | ended n => exact absurd hstate (hopen n)
  | _ => rfl

/-- The jobs after one has ended. -/
theorem Device.endJob_jobs {d : Device} {j r : Nat} {x : Job} (hx : d.job? j = some x) (hopen : ∀ n, x.state ≠ .ended n) :
    ∃ (n : Nat) (p : Job → Bool), (∀ a, a.isOver = false → p a = true) ∧
      (d.endJob j r).jobs = (((d.jobs.map (Job.endedAs j r)).map (Job.numbered j n)).filter p).map (Job.unstopped j) := by
  have hxj : x.id = j := by simpa using List.find?_some (p := fun a : Job => a.id == j) hx
  refine ⟨d.endedJobs + 1, fun x => !(x.isOver && decide (x.endNo + 64 ≤ d.endedJobs + 1)), fun a ha => by simp [ha], ?_⟩
  rw [Device.endJob_of_open r hx hopen, Device.quitJob_jobs, hxj]
  simp only [Device.raiseBrg_keeps, Device.retireJobs_jobs, Device.jobEnded_jobs, Device.jobEnded_endedJobs]
  rfl

/-- A training job ends with a result. -/
theorem Device.endJob_endsJob (d : Device) (j r : Nat) : d.endsJob (d.endJob j r) j r := by
  cases hx : d.job? j with
  | none =>
    have hnone : d.endJob j r = d := by simp only [Device.endJob, hx]
    rw [hnone]
    refine Device.endsJob_self r fun ⟨k, hk, _⟩ => ?_
    exact absurd (hk.symm.trans hx) (by simp)
  | some x =>
    by_cases hended : ∃ n, x.state = .ended n
    · obtain ⟨n, hn⟩ := hended
      have hsame : d.endJob j r = d := by simp only [Device.endJob, hx, hn]
      rw [hsame]
      refine Device.endsJob_self r fun ⟨k, hk, hover⟩ => ?_
      obtain rfl : k = x := Option.some.inj (hk.symm.trans hx)
      simp [Job.isOver, hn] at hover
    · have hopen : ∀ n, x.state ≠ .ended n := not_exists.mp hended
      have hxmem : x ∈ d.jobs := List.mem_of_find?_eq_some hx
      obtain ⟨n, p, hp, hjobs⟩ := d.endJob_jobs (r := r) hx hopen
      have hid1 : ∀ a, (Job.endedAs j r a).id = a.id := fun a => by unfold Job.endedAs; split <;> rfl
      have hid2 : ∀ a, (Job.numbered j n a).id = a.id := fun a => by unfold Job.numbered; split <;> rfl
      have hid3 : ∀ a, (Job.unstopped j a).id = a.id := fun a => by unfold Job.unstopped; split <;> rfl
      have hstate2 : ∀ a, (Job.numbered j n a).state = a.state := fun a => by unfold Job.numbered; split <;> rfl
      have hstate3 : ∀ a, (Job.unstopped j a).state = a.state := fun a => by unfold Job.unstopped; split <;> rfl
      have hstops : ∀ a q, q ∉ a.stopReq → q ∉ (Job.unstopped j (Job.numbered j n (Job.endedAs j r a))).stopReq := by
        intro a q hnot
        unfold Job.unstopped Job.numbered Job.endedAs
        by_cases haj : a.id = j
        · simp [haj]
        · simpa [haj] using hnot
      have hlast : ∀ k, jobsEnded (d.jobs.map (Job.endedAs j r)) k r → jobsEnded (d.endJob j r).jobs k r := by
        intro k hk
        rw [hjobs]
        exact jobsEnded_map hid3 (fun a _ h => (hstate3 a).trans h)
          (jobsEnded_filter p (jobsEnded_map hid2 (fun a _ h => (hstate2 a).trans h) hk))
      refine ⟨?_, fun m slot hs hstop => ?_, fun q hq a ha => ?_, fun k hk ho => ?_, fun k he => hlast k ?_, fun _ => hlast j ?_⟩
      · rw [Device.endJob_of_open r hx hopen, Device.quitJob_cmds]
        simp only [Device.raiseBrg_keeps, Device.retireJobs_cmds, Device.jobEnded_cmds]
      · rw [Device.endJob_of_open r hx hopen]
        refine Device.quitJob_started ((Device.raise_keepsAdmin _ _).started m slot ?_) (hstop x hxmem)
        rw [Device.retireJobs_started, Device.jobEnded_started]
        exact hs
      · rw [hjobs] at ha
        simp only [List.mem_map, List.mem_filter] at ha
        obtain ⟨a3, ⟨⟨a2, ⟨a1, ha1, rfl⟩, rfl⟩, -⟩, rfl⟩ := ha
        exact hstops a1 q (hq a1 ha1)
      · rw [hjobs]
        refine jobOpen_map hid3 (fun a ha => ?_) (jobOpen_filter hp (jobOpen_map hid2 (fun a ha => ?_) (jobOpen_map hid1 (fun a ha => ?_) ho)))
        · simp [Job.unstopped, ha, hk]
        · simp [Job.numbered, ha, hk]
        · simp [Job.endedAs, ha, hk]
      · refine jobsEnded_map hid1 (fun a _ h => ?_) he
        unfold Job.endedAs
        split
        · rfl
        · exact h
      · intro a ha haj
        obtain ⟨b, hb, rfl⟩ := List.mem_map.mp ha
        rw [hid1] at haj
        simp [Job.endedAs, haj]

/-- Jobs that end one after another: each job that was open has ended, and no request is answered but those the jobs held. -/
theorem Device.foldl_endJob (js : List Nat) (r : Nat) (d : Device) :
    (js.foldl (fun d j => d.endJob j r) d).cmds = d.cmds ∧
    (∀ m slot, d.startedAt m slot = true → (∀ a ∈ d.jobs, (m, slot) ∉ a.stopReq) → (js.foldl (fun d j => d.endJob j r) d).startedAt m slot = true) ∧
    ∀ k, (jobOpen d.jobs k ∧ k ∈ js) ∨ jobsEnded d.jobs k r → jobsEnded (js.foldl (fun d j => d.endJob j r) d).jobs k r := by
  induction js generalizing d with
  | nil => exact ⟨rfl, fun _ _ hs _ => hs, fun k h => h.elim (fun h => absurd h.2 List.not_mem_nil) id⟩
  | cons j js ih =>
    obtain ⟨hcmds, hstarted, hstops, hothers, hstays, hends⟩ := d.endJob_endsJob j r
    obtain ⟨kcmds, kstarted, kended⟩ := ih (d.endJob j r)
    refine ⟨kcmds.trans hcmds, fun m slot hs hstop => kstarted m slot (hstarted m slot hs hstop) (hstops _ hstop), fun k h => kended k ?_⟩
    rcases h with ⟨hopen, hmem⟩ | hended
    · by_cases hkj : k = j
      · subst hkj
        exact .inr (hends hopen)
      · exact .inl ⟨hothers k hkj hopen, (List.mem_cons.mp hmem).resolve_left hkj⟩
    · exact .inr (hstays k hended)

/-! ### The work on an index ended (R80, R417) -/

/-- The device with the commands in flight on an index completed, after the writes that it has accepted. -/
def Device.cmdsEnded (d : Device) (i : Nat) : Device :=
  ((d.applyAccepted.cmds.filter (·.onIndex i)).map (·.stamp)).foldl (fun d s => d.endCmd s stIndexDeleted) d.applyAccepted
/-- The device with the commands on an index completed and its jobs ended. -/
def Device.jobsOff (d : Device) (i : Nat) : Device :=
  (((d.cmdsEnded i).jobs.filter fun j => j.desc.indexNo == i).map (·.id)).foldl (fun d j => d.endJob j 0x08) (d.cmdsEnded i)
/-- The device with every work on an index ended. -/
def Device.workEnded (d : Device) (i : Nat) : Device :=
  (((d.jobsOff i).ctxs.filter fun k => k.cmd.isNone && k.task.onIndex i).map (·.id)).foldl (fun d k => d.releaseCtx k) (d.jobsOff i)

/-- Commands that end by their stamps leave those of other stamps. -/
theorem Device.mem_foldl_endCmd {ss : List Nat} {d : Device} {status : Nat} {c : Cmd}
    (h : c ∈ (ss.foldl (fun d s => d.endCmd s status) d).cmds) : c ∈ d.cmds ∧ c.stamp ∉ ss := by
  induction ss generalizing d with
  | nil => exact ⟨h, List.not_mem_nil⟩
  | cons s ss ih =>
    obtain ⟨hmem, hrest⟩ := ih h
    rw [Device.endCmd_cmds] at hmem
    obtain ⟨hmem, hne⟩ := List.mem_filter.mp hmem
    refine ⟨hmem, fun hin => ?_⟩
    rcases List.mem_cons.mp hin with heq | hin
    · simp [heq] at hne
    · exact hrest hin

/-- No command on the index is left. -/
theorem Device.cmdsEnded_offIndex {d : Device} {i : Nat} {c : Cmd} (h : c ∈ (d.cmdsEnded i).cmds) : c.onIndex i = false := by
  obtain ⟨hmem, hstamp⟩ := Device.mem_foldl_endCmd h
  by_contra hon
  exact hstamp (List.mem_map_of_mem (List.mem_filter.mpr ⟨hmem, by simpa using hon⟩))

theorem Device.cmdsEnded_keepsAdmin (d : Device) (i : Nat) : d.keepsAdmin (d.cmdsEnded i) :=
  Device.keepsAdmin_trans d.applyAccepted_keepsAdmin (Device.foldl_keepsAdmin _ (fun d s => d.endCmd_keepsAdmin s _) _ _)

/-- What is left once the work on an index has ended. -/
theorem Device.workEnded_spec (d : Device) (i : Nat) : (∀ c ∈ (d.workEnded i).cmds, c.onIndex i = false) ∧
    (∀ m slot, d.startedAt m slot = true → (∀ a ∈ d.jobs, (m, slot) ∉ a.stopReq) → (d.workEnded i).startedAt m slot = true) ∧
    ∀ j k, d.job? j = some k → k.desc.indexNo = i → k.live = true → jobsEnded (d.workEnded i).jobs j 8 := by
  have hadmin := d.cmdsEnded_keepsAdmin i
  obtain ⟨hcmds, hstarted, hended⟩ :=
    Device.foldl_endJob (((d.cmdsEnded i).jobs.filter fun j => j.desc.indexNo == i).map (·.id)) 8 (d.cmdsEnded i)
  have hctxs : (d.jobsOff i).keepsAdmin (d.workEnded i) := Device.foldl_keepsAdmin _ (fun d n => d.releaseCtx_keepsAdmin n) _ _
  have hsame : (d.workEnded i).cmds = (d.jobsOff i).cmds := foldl_keep (fun d : Device => d.cmds) _ (fun d n => by simp) _ _
  refine ⟨fun c hc => ?_, fun m slot hs hstop => ?_, fun j k hk hix hlive => ?_⟩
  · rw [hsame] at hc
    exact Device.cmdsEnded_offIndex (hcmds ▸ hc)
  · exact hctxs.started m slot (hstarted m slot (hadmin.started m slot hs) (by rw [hadmin.jobs]; exact hstop))
  · rw [hctxs.jobs]
    have hopen : jobOpen (d.cmdsEnded i).jobs j := by
      rw [hadmin.jobs]
      refine ⟨k, hk, ?_⟩
      unfold Job.live at hlive
      unfold Job.isOver
      cases hstate : k.state <;> simp_all
    have hkj : k.id = j := by simpa using List.find?_some (p := fun a : Job => a.id == j) hk
    have hmem : k ∈ (d.cmdsEnded i).jobs := by
      rw [hadmin.jobs]
      exact List.mem_of_find?_eq_some hk
    exact hended j (.inl ⟨hopen, List.mem_map.mpr ⟨k, List.mem_filter.mpr ⟨hmem, by simp [hix]⟩, hkj⟩⟩)

/-- What is kept of a deleted index until its view is released, under a number past those of the indexes. -/
def Index.buried (x : Index) (n : Nat) : Index :=
  { x with indexNo := n, deletedAt := some x.view, delta := [], filters := [], transforms := [], transform := 0, adapter := ⟨0, [], []⟩, pendingGen := 0 }

/-- The device with an index moved out of its number, and with it what is placed and what its jobs' checkpoints held (R417). -/
def Device.indexRemoved (d : Device) (i : Nat) (x : Index) : Device :=
  let n := d.graveNo
  let d4 := d.modBurgee x.burgee fun b => { b with
    placed := b.placed.map fun (p : Placed) => if p.index == i then { p with index := n } else p,
    left := b.left.map fun (p : LeftSpace) => if p.index == i then { p with index := n } else p,
    groups := b.groups.filter (·.index != i) }
  let d5 := d4.freeCkpts ((d4.jobs.filter (·.desc.indexNo == i)).flatMap (·.ckpts))
  { d5 with indexes := tset n (x.buried n) (tdel i d5.indexes), heat := d5.heat.filter (·.index != i),
            jobs := d5.jobs.map fun (j : Job) => if j.desc.indexNo == i then { j with ckpts := [] } else j }

/-- DELETE_INDEX ends the work on the index and removes it; beside that only its record's bytes change. -/
theorem Device.deleteIndex_removes {d : Device} {i : Nat} {x : Index} (hx : d.applyAccepted.index? i = some x) :
    ((d.workEnded i).indexRemoved i x).bytesTo (d.deleteIndex i) := by
  have heq : d.deleteIndex i =
      (((d.workEnded i).indexRemoved i x).zero (recordAddr i) 256).writeMirrored recordCopyArea (256 * i) (List.replicate 256 0) := by
    unfold Device.deleteIndex
    simp only [hx]
    rfl
  rw [heq]
  exact Device.bytesTo_trans (Device.zero_bytesTo _ _ _) (Device.writeMirrored_bytesTo _ _ _ _)

/-- The number of a removed index is free. -/
theorem Device.indexRemoved_index? (d : Device) (i : Nat) (x : Index) : (d.indexRemoved i x).index? i = none := by
  have hindexes : (d.indexRemoved i x).indexes = tset d.graveNo (x.buried d.graveNo) (tdel i d.indexes) := rfl
  unfold Device.index?
  rw [hindexes]
  by_cases hn : i = d.graveNo
  · rw [← hn, tfind_tset_same]
    rfl
  · rw [tfind_tset_other _ _ _ _ hn, tfind_tdel_same]

theorem Device.indexRemoved_jobs (d : Device) (i : Nat) (x : Index) :
    (d.indexRemoved i x).jobs = d.jobs.map fun j => if j.desc.indexNo == i then { j with ckpts := [] } else j := rfl
theorem Device.indexRemoved_cmds (d : Device) (i : Nat) (x : Index) : (d.indexRemoved i x).cmds = d.cmds := rfl
theorem Device.indexRemoved_started (d : Device) (i : Nat) (x : Index) (m slot : Nat) :
    (d.indexRemoved i x).startedAt m slot = d.startedAt m slot := rfl

/-- An index that is there is still there after the writes accepted. -/
theorem Device.index?_of_keepsAdmin {d e : Device} {i : Nat} {x : Index} (h : d.keepsAdmin e) (hx : d.index? i = some x) :
    ∃ y, e.index? i = some y := by
  have hthere := h.there i
  have hfound := Device.tfind_of_index? hx
  have hlive : x.deletedAt = none := by
    unfold Device.index? at hx
    rw [hfound] at hx
    by_contra hgone
    simp [hgone] at hx
  rw [hfound, Option.map_some, hlive, Option.map_eq_some_iff] at hthere
  obtain ⟨y, hy, hnone⟩ := hthere
  exact ⟨y, by simp [Device.index?, hy, hnone]⟩

/-- An index deleted is not there, no command in flight is on it, and its jobs have ended with INDEX_GONE; the request that deletes it still waits
for its answer. -/
theorem Device.deleteIndex_spec {d : Device} {i m slot : Nat} {x : Index} (hx : d.index? i = some x) (hs : d.startedAt m slot = true)
    (hstop : ∀ a ∈ d.jobs, (m, slot) ∉ a.stopReq) : (d.deleteIndex i).startedAt m slot = true ∧ (d.deleteIndex i).index? i = none ∧
      (∀ c ∈ (d.deleteIndex i).cmds, c.onIndex i = false) ∧
      ∀ j k k', d.job? j = some k → k.desc.indexNo = i → k.live = true → (d.deleteIndex i).job? j = some k' → k'.state = .ended 8 := by
  obtain ⟨hcmds, hstarted, hjobs⟩ := d.workEnded_spec i
  obtain ⟨y, hy⟩ := Device.index?_of_keepsAdmin d.applyAccepted_keepsAdmin hx
  have hbytes := Device.deleteIndex_removes hy
  have hindexes : (d.deleteIndex i).indexes = ((d.workEnded i).indexRemoved i y).indexes := by rw [show d.deleteIndex i = _ from hbytes]
  have hjobsAre : (d.deleteIndex i).jobs = ((d.workEnded i).indexRemoved i y).jobs := by rw [show d.deleteIndex i = _ from hbytes]
  have hcmdsAre : (d.deleteIndex i).cmds = ((d.workEnded i).indexRemoved i y).cmds := by rw [show d.deleteIndex i = _ from hbytes]
  refine ⟨?_, ?_, fun c hc => hcmds c ?_, fun j k k' hk hix hlive hk' => ?_⟩
  · rw [Device.startedAt_of_bytesTo hbytes, Device.indexRemoved_started]
    exact hstarted m slot hs hstop
  · have hnone := (d.workEnded i).indexRemoved_index? i y
    unfold Device.index? at *
    rw [hindexes]
    exact hnone
  · rwa [hcmdsAre, Device.indexRemoved_cmds] at hc
  · have hended := jobsEnded_map (g := fun j => if j.desc.indexNo == i then { j with ckpts := [] } else j)
      (fun a => by split <;> rfl) (fun a _ ha => by split <;> exact ha) (hjobs j k hk hix hlive)
    unfold Device.job? at hk'
    rw [hjobsAre, Device.indexRemoved_jobs] at hk'
    exact hended k' (List.mem_of_find?_eq_some hk') (by simpa using List.find?_some (p := fun a : Job => a.id == j) hk')

/-! ### What DELETE_INDEX answers (R417) -/

/-- DELETE_INDEX of an index that its sender may see. -/
theorem gives_deleteIndex {s : State} {m slot : Nat} {x : Index} (hx : s.dev.index? (s.dev.adminAt m slot).target = some x)
    (hm : m = 256 ∨ (s.dev.fn m).burgee = x.burgee) (h : s.dev.servesNow 0x0031 m slot noIo) :
    gives (.deleteIndex m slot) s fun e => let i := (s.dev.adminAt m slot).target
      e.answered m slot 0 0 0 ∧ e.index? i = none ∧ (∀ c ∈ e.cmds, c.onIndex i = false) ∧
      ∀ j k k', s.dev.job? j = some k → k.desc.indexNo = i → k.live = true → e.job? j = some k' → k'.state = .ended 8 := by
  obtain ⟨_, _, _, _, hstart, _, hwaits, _⟩ := id h
  have hstop : ∀ a ∈ s.dev.jobs, (m, slot) ∉ a.stopReq := by
    simp only [Device.adminWaits, Bool.or_eq_false_iff, List.any_eq_false, List.contains_iff_mem] at hwaits
    obtain ⟨⟨-, hjobs⟩, -⟩ := hwaits
    exact hjobs
  obtain ⟨hstarted, hnone, hcmds, hjobs⟩ := Device.deleteIndex_spec hx hstart hstop
  refine Device.gives_of_serves (a := (s.dev.deleteIndex (s.dev.adminAt m slot).target).done) h rfl ?_ rfl rfl hstarted
    fun e hans htold _ => ⟨hans, ?_, ?_, ?_⟩
  · exact Device.withIndex_found hx hm _
  · rw [htold]; exact hnone
  · rw [htold]; exact hcmds
  · rw [htold]; exact hjobs

end Sys2Proof.Machine
end

section
/-! The statement about indexes and what is loaded for them. -/

namespace Sys2Proof.Machine

/-- What a loading command has made of an index, with the fields that it may change read from the index as it is. -/
theorem gives_indexIs {c : Instr} {s : State} {m slot i : Nat} {y : Index} {P : Device → Index → Prop}
    (h : gives c s fun e => s.dev.setsIndex e m slot i y) (hP : ∀ e, s.dev.setsIndex e m slot i y → P e y) : gives c s fun e => ∃ y, P e y := by
  obtain ⟨e, hexec, hset⟩ := h
  exact ⟨e, hexec, y, hP e hset⟩

/-- Settles O51: each command by what its reply does to the device; for DELETE_INDEX, the writes accepted before it keep the jobs and the request
that waits, its commands leave by their stamps, and its jobs end one after another. -/
theorem indexesAndLoads : Obligations.IndexesAndLoads := by
  unfold Obligations.IndexesAndLoads
  intro s m slot
  refine ⟨fun io b bs hserve hb hin => ⟨?_, ?_, ?_⟩, fun x hx hm => ⟨?_, ?_, ?_, ?_, ?_⟩, fun io bs hserve hin => ⟨?_, ?_⟩, ?_,
    fun io bs hserve hlt hon hadmin hin => ⟨?_, ?_, ?_, ?_⟩, fun hserve => ⟨?_, ?_⟩⟩
  · exact fun x n d1 hx hn hlt hfree hmade => gives_createIndex hserve hb hin hx hn hlt hfree hmade
  · exact fun x n hx hn hlt hfree hnone => gives_createIndex_noSpace hserve hb hin hx hn hlt hfree hnone
  · exact fun hbad => gives_createIndex_bad hserve hb hin hbad
  · exact fun hserve => gives_deleteIndex hx hm hserve
  · refine fun io bs hserve hin => ⟨fun hvalid hid hix => ?_, fun hbad => ?_⟩
    · refine gives_indexIs (gives_loadFilter rfl hx hm hserve hin hvalid hid hix) fun e hset => ⟨hset, rfl, ?_, ?_, fun k hk => ?_⟩
      · exact tfind_tset_same _ _ _
      · exact tget_tset_same _ _ _ _
      · exact tfind_tset_other _ _ _ _ hk
    · exact gives_loadFilter_bad rfl hx hm hserve hin hbad
  · refine fun hserve => ⟨fun hthere => ?_, fun hnone => ?_⟩
    · refine gives_indexIs (gives_unloadFilter rfl hx hm hserve hthere) fun e hset => ⟨hset, rfl, ?_, fun k hk => ?_⟩
      · exact tfind_tdel_same _ _
      · exact tfind_tdel_other _ _ _ hk
    · exact gives_unloadFilter_bad rfl hx hm hserve hnone
  · refine fun io hserve => ⟨fun bs hset hin hvalid hix hfree => ?_, fun hset hfree => ?_, fun hset hheld => ?_⟩
    · refine gives_indexIs (gives_loadTransform rfl hx hm hserve hset hin hvalid hix hfree) fun e hsets => ⟨hsets, rfl, rfl, ?_, rfl⟩
      have hkept := tfind_filter_key (fun k => k == x.lastTransform + 1 || k == x.transform) (x.lastTransform + 1)
        (tset (x.lastTransform + 1) bs x.transforms)
      rwa [if_pos (by simp), tfind_tset_same] at hkept
    · exact gives_indexIs (gives_removeTransform rfl hx hm hserve hset hfree) fun e hsets => ⟨hsets, rfl, rfl⟩
    · exact gives_removeTransform_held rfl hx hm hserve hset hheld
  · intro io bs a hserve hin ha
    obtain ⟨e, hexec, hset⟩ := gives_loadAdapter rfl hx hm hserve hin ha
    exact ⟨e, hexec, hset, readAdapter_rank ha⟩
  · exact fun hvalid => gives_loadModel hserve hin hvalid
  · exact fun hbad => gives_loadModel_bad hserve hin hbad
  · exact fun hserve => gives_unloadModel hserve
  · exact fun n a d1 hnew hn hpos hfits htake => gives_stageReserved rfl hserve hlt hon hadmin hin hnew hn hpos hfits htake
  · exact fun k hold hk hdata halign hfits => gives_stageWritten rfl hserve hlt hon hadmin hin hold hk hdata halign hfits
  · exact fun k hold hk hdata => gives_stageFreed rfl hserve hlt hon hadmin hin hold hk hdata
  · exact fun hold hnone => gives_stageData_bad rfl hserve hlt hon hadmin hin hold hnone
  · exact fun hlt hthere => gives_retrainChannel rfl hserve hlt hthere
  · exact fun hge => gives_retrainChannel_bad rfl hserve hge

end Sys2Proof.Machine
end

section
/-! The Code Engine: the passes of a scan, delivered to the Code Score Queue or offered to the SE's lists, and the score lists of a gather (R192 to R196,
R199, R201); and O37. -/

namespace Sys2Proof.Machine

/-! ### A CE that takes a descriptor (R182, R195) -/

/-- A CE that keeps no descriptor goes on with none. -/
theorem Device.ceResume_none {d : Device} {sc : Nat} (h : (d.eng sc).ceNext = none) : d.ceResume sc = d := by
  simp [Device.ceResume, h]

/-- Attribute words of the index that the command of a descriptor's context reads: they lie in each slot block (R92). -/
def Device.ceAttrs (d : Device) (c : CeDesc) : Nat := (d.ctxIndex c.ctx).elim 0 (·.attrWords)

/-- The CE of an SC keeps no descriptor, and takes this one, which is the row's and keeps the rules (R182, R192, R193, R196). -/
structure Device.CeTakes (d : Device) (sc op : Nat) (desc : List Byte) : Prop where
  onSc   : sc < 64
  opcode : (parseCe desc).op = op
  named  : op ≠ 0
  ok     : (parseCe desc).ok (d.ceAttrs (parseCe desc)) = true
  idle   : (d.eng sc).ceNext = none

/-- A CE without work runs a scan that keeps the rules, from its first block on (R193). -/
theorem ceEff_scans {d : Device} {sc op : Nat} {desc : List Byte} (h : d.CeTakes sc op desc) (hscan : (parseCe desc).gathers = false) :
    ceEff op sc desc d = d.ceRun sc desc (parseCe desc) (d.ceAttrs (parseCe desc)) (parseCe desc).n 0 := by
  obtain ⟨hsc, rfl, h0, hok, hidle⟩ := h
  unfold Device.ceAttrs at *
  simp [ceEff, h0, hok, Device.runDesc_runs hsc, Device.ceResume_none hidle, hidle, hscan]

/-- A CE without work answers a gather whose requests all keep their ranges (R193, R199). -/
theorem ceEff_gathers {d : Device} {sc op : Nat} {desc : List Byte} (h : d.CeTakes sc op desc) (hgather : (parseCe desc).gathers = true)
    (heach : ∀ r, r < (parseCe desc).n → (d.ceRequest sc (parseCe desc) r).isSome = true) :
    ceEff op sc desc d =
      (d.modEng sc fun g => g.gather (parseCe desc) ((List.range (parseCe desc).n).filterMap (d.ceRequest sc (parseCe desc)))).modCnt sc
        fun k => { k with cePasses := k.cePasses + ceilDiv (parseCe desc).n (parseCe desc).nq } := by
  obtain ⟨hsc, rfl, h0, hok, hidle⟩ := h
  have hall : ((List.range (parseCe desc).n).map (d.ceRequest sc (parseCe desc))).any (·.isNone) = false := by
    refine List.any_eq_false.2 fun o ho => ?_
    obtain ⟨r, hr, rfl⟩ := List.mem_map.1 ho
    simpa [Option.isSome_iff_ne_none] using heach r (List.mem_range.1 hr)
  unfold Device.ceAttrs at hok
  simp only [ceEff, h0, if_false, hok, Device.runDesc_runs hsc, Device.ceResume_none hidle, hidle, hgather, Option.isSome_none, Bool.false_eq_true, if_true,
    hall, List.filterMap_map, Function.id_comp]

theorem CeDesc.gathers_iff (c : CeDesc) : c.gathers = true ↔ c.op = 3 ∨ c.op = 4 := by simp [CeDesc.gathers]

/-- A scan's descriptor serves at most four queries (R193). -/
theorem CeDesc.nq_le_of_scan {c : CeDesc} {attrs : Nat} (hok : c.ok attrs = true) (hop : c.op ≠ 4) : c.nq ≤ 4 := by
  simp only [CeDesc.ok, Bool.and_eq_true, decide_eq_true_eq, CeDesc.maxQ, hop, if_false] at hok
  omega

/-! ### A scan pass (R193 to R195) -/

/-- The score of position i and query q of a pass, where the mask of that query admits the position (R194, R195; log entry 21). -/
theorem Device.getD_cePass_scores (d : Device) (sc : Nat) {c : CeDesc} (attrs : Nat) {i q : Nat} (hi : i < 64) (hq : q < c.nq) (hfour : c.nq ≤ 4) :
    (d.cePass sc c attrs 0).scores.getD (4 * i + q) none =
      if (leNat (d.spad sc (c.mask + 8 * q) 8)).testBit i = true then
        some (ceScore (tfind (c.slots.getD q 0) (d.eng sc).ceSlots) c.pq (c.base.getD q 0)
          (unpackCodes c.codeShape.1 c.codeShape.2.1 ((((d.spad sc c.code (576 + 64 * c.codeShape.2.2)).drop (64 + i * c.codeShape.2.2)).take
            c.codeShape.2.2))))
      else none := by
  unfold Device.cePass
  dsimp only
  rw [getD_rows _ none 4 64 i q hi (by omega)]
  simp [hq]

/-- A pass over one block, where the CSQ has room, no ring is waited for and the block's tag is the one expected (R194, R207, R243). -/
theorem Device.ceRun_one {d : Device} {sc : Nat} {desc : List Byte} {c : CeDesc} {attrs : Nat} (hroom : (d.eng sc).csq.length < 8)
    (hfree : d.ringOver sc c.ctx c.code = none) (htag : d.ceTagOk sc c attrs 0 = true) :
    d.ceRun sc desc c attrs 1 0 = d.cePassEff sc c attrs 0 := by
  have htouch : ({ dev := d } : RingWork).touchAll sc c.ctx [c.code] = .ok { dev := d } :=
    RingWork.touchAll_free [c.code] (by simpa using hfree)
  simp [Device.ceRun, Nat.not_le.mpr hroom, Device.withRings, htouch, htag, RingWork.delivered, RingWork.restored]

/-- A pass that admits a position is delivered and counted (R194, R195). -/
theorem Device.cePassEff_delivers {d : Device} {sc : Nat} {c : CeDesc} {attrs : Nat} (hsome : ∃ x ∈ (d.cePass sc c attrs 0).scores, x.isSome = true) :
    d.cePassEff sc c attrs 0 = (d.ceDeliver sc c (d.cePass sc c attrs 0)).modCnt sc fun k => { k with cePasses := k.cePasses + 1 } := by
  obtain ⟨x, hx, hs⟩ := hsome
  have hnot : (d.cePass sc c attrs 0).scores.all (·.isNone) = false :=
    List.all_eq_false.2 ⟨x, hx, by simpa [Option.isSome_iff_ne_none] using hs⟩
  simp [Device.cePassEff, hnot]

/-! ### Candidates offered to the SE (R156 to R159) -/

/-- Offering candidates to a list leaves the Code Score Queue. -/
theorem Engines.seOffer_csq (g : Engines) (cap : Nat) (beta : F32) (ctx unit q : Nat) (os : List Offer) :
    (g.seOffer cap beta ctx unit q os).csq = g.csq := by
  unfold Engines.seOffer
  split <;> rfl

/-- The list of the query offered to takes the candidates in order (R158). -/
theorem Engines.seList_seOffer_same (g : Engines) (cap : Nat) (beta : F32) (ctx unit q : Nat) (os : List Offer) :
    (g.seOffer cap beta ctx unit q os).seList cap ctx unit q =
      os.foldl (fun u o => offer beta u o.key o.entry) (g.seList cap ctx unit q) := by
  unfold Engines.seOffer
  split
  · next hempty => rw [List.isEmpty_iff.1 hempty]; rfl
  · have hgone : (g.se.filter fun l => !(l.ctx == ctx && l.unit == unit && l.query == q)).find?
        (fun l => l.ctx == ctx && l.unit == unit && l.query == q) = none := by
      refine List.find?_eq_none.2 fun l hl => ?_
      exact Bool.eq_false_iff.1 (Bool.not_eq_true' _ ▸ (List.mem_filter.1 hl).2)
    simp only [Engines.seList, List.find?_append, hgone, Option.none_or, List.find?_cons, beq_self_eq_true, Bool.and_self]
    rfl

/-- The list of another query stays. -/
theorem Engines.seList_seOffer_other (g : Engines) (cap : Nat) (beta : F32) (ctx unit : Nat) {q r : Nat} (os : List Offer) (hr : r ≠ q) :
    (g.seOffer cap beta ctx unit q os).seList cap ctx unit r = g.seList cap ctx unit r := by
  unfold Engines.seOffer
  split
  · rfl
  · have hkept : (g.se.filter fun l => !(l.ctx == ctx && l.unit == unit && l.query == q)).find?
        (fun l => l.ctx == ctx && l.unit == unit && l.query == r) = g.se.find? fun l => l.ctx == ctx && l.unit == unit && l.query == r := by
      rw [List.find?_filter]
      refine congrArg (fun p => g.se.find? p) (funext fun l => ?_)
      by_cases hl : l.query = r
      · simp [hl, hr, Bool.beq_eq_decide_eq]
      · simp [hl]
    have hnew : (q == r) = false := by simpa using Ne.symm hr
    simp only [Engines.seList, List.find?_append, hkept, List.find?_cons, hnew, Bool.and_false, List.find?_nil, Option.or_none]

/-- The first n queries of a pass offered in turn: the queue stays, and each of their lists takes its own candidates. -/
theorem Engines.foldl_seOffer (g : Engines) (cap : Nat) (beta : F32) (ctx unit : Nat) (os : Nat → List Offer) (n : Nat) :
    let g' := (List.range n).foldl (fun g q => g.seOffer cap beta ctx unit q (os q)) g
    g'.csq = g.csq ∧ ∀ q, g'.seList cap ctx unit q =
      if q < n then (os q).foldl (fun u o => offer beta u o.key o.entry) (g.seList cap ctx unit q) else g.seList cap ctx unit q := by
  induction n with
  | zero => exact ⟨rfl, fun _ => rfl⟩
  | succ n ih =>
    obtain ⟨hcsq, hlists⟩ := ih
    simp only [List.range_succ, List.foldl_append, List.foldl_cons, List.foldl_nil]
    refine ⟨(Engines.seOffer_csq _ _ _ _ _ _ _).trans hcsq, fun q => ?_⟩
    by_cases hq : q = n
    · subst hq
      rw [Engines.seList_seOffer_same, hlists q]
      simp
    · rw [Engines.seList_seOffer_other _ _ _ _ _ _ hq, hlists q]
      simp only [show q < n + 1 ↔ q < n by omega]

/-! ### A pass delivered (R195) -/

/-- Without a command to rank for, a pass goes to the Code Score Queue. -/
theorem Device.ceDeliver_queued {d : Device} {sc : Nat} {c : CeDesc} (e : CsqEntry) (hnone : d.ctxCmd c.ctx = none) :
    d.ceDeliver sc c e = d.modEng sc fun g => { g with csq := g.csq ++ [e] } := by
  simp [Device.ceDeliver, hnone]

/-- Where the command's index has no transform, a pass is offered to the SE's lists. -/
theorem Device.ceDeliver_offered {d : Device} {sc : Nat} {c : CeDesc} {m : Cmd} {x : Index} (e : CsqEntry) (hm : d.ctxCmd c.ctx = some m)
    (hx : d.ctxIndex c.ctx = some x) (hplain : m.transform x = []) :
    d.ceDeliver sc c e = d.modEng sc fun g => (List.range c.nq).foldl (fun g q => g.seOffer m.sp.cap m.sp.beta c.ctx c.unit q (e.offers q)) g := by
  simp [Device.ceDeliver, hm, hx, hplain]

/-- Delivering a pass changes the SC's engines alone. -/
theorem Device.ceDeliver_only (d : Device) (sc : Nat) (c : CeDesc) (e : CsqEntry) : ∃ f, d.ceDeliver sc c e = d.modEng sc f := by
  unfold Device.ceDeliver
  split
  · split
    · exact ⟨_, rfl⟩
    · exact ⟨_, rfl⟩
  · exact ⟨_, rfl⟩

/-- A scan of one block whose pass the CE can deliver: the queue has room, no ring is waited for, the block is the one expected, and a position is admitted
(R194, R195, R207). -/
structure Device.CeScansOne (d : Device) (sc : Nat) (c : CeDesc) : Prop where
  scan  : c.gathers = false
  free  : d.ringOver sc c.ctx c.code = none
  one   : c.n = 1
  room  : (d.eng sc).csq.length < 8
  tag   : d.ceTagOk sc c (d.ceAttrs c) 0 = true
  admitted : ∃ x ∈ (d.cePass sc c (d.ceAttrs c) 0).scores, x.isSome = true

/-- A pass of a scan delivered: no memory and no other SC changes, and the pass is in the queue, or in the lists of its queries (R195). -/
def Device.scanDelivered (d e : Device) (sc : Nat) (c : CeDesc) (pass : CsqEntry) : Prop :=
  e.mem = d.mem ∧ (∀ k, k ≠ sc → e.eng k = d.eng k) ∧
    (d.ctxCmd c.ctx = none → (e.eng sc).csq = (d.eng sc).csq ++ [pass] ∧ (e.cnt sc).cePasses = (d.cnt sc).cePasses + 1) ∧
    ∀ m x, d.ctxCmd c.ctx = some m → d.ctxIndex c.ctx = some x → m.transform x = [] → (e.eng sc).csq = (d.eng sc).csq ∧
      ∀ q, q < c.nq → (e.eng sc).seList m.sp.cap c.ctx c.unit q =
        (pass.offers q).foldl (fun u o => offer m.sp.beta u o.key o.entry) ((d.eng sc).seList m.sp.cap c.ctx c.unit q)

/-- A pass delivered and counted is delivered. -/
theorem Device.ceDeliver_scanDelivered (d : Device) (sc : Nat) (c : CeDesc) (pass : CsqEntry) :
    d.scanDelivered ((d.ceDeliver sc c pass).modCnt sc fun k => { k with cePasses := k.cePasses + 1 }) sc c pass := by
  obtain ⟨f, hf⟩ := d.ceDeliver_only sc c pass
  refine ⟨by simp [hf], fun k hk => ?_, fun hnone => ?_, fun m x hm hx hplain => ?_⟩
  · rw [Device.eng_modCnt, hf, Device.eng_modEng_other _ _ hk]
  · rw [Device.eng_modCnt, Device.cnt_modCnt_same, Device.ceDeliver_queued pass hnone, Device.eng_modEng_same, Device.cnt_modEng]
    exact ⟨rfl, rfl⟩
  · rw [Device.eng_modCnt, Device.ceDeliver_offered pass hm hx hplain, Device.eng_modEng_same]
    obtain ⟨hcsq, hlists⟩ := (d.eng sc).foldl_seOffer m.sp.cap m.sp.beta c.ctx c.unit pass.offers c.nq
    exact ⟨hcsq, fun q hq => (hlists q).trans (if_pos hq)⟩

theorem gives_scan {s : State} {cmd : Instr} {op sc : Nat} {desc : List Byte} (hc : exec cmd s = onDev (ceEff op sc desc) s)
    (h : s.dev.CeTakes sc op desc) (hone : s.dev.CeScansOne sc (parseCe desc)) :
    gives cmd s fun e => s.dev.scanDelivered e sc (parseCe desc) (s.dev.cePass sc (parseCe desc) (s.dev.ceAttrs (parseCe desc)) 0) := by
  refine gives_of_onDev hc ?_
  rw [ceEff_scans h hone.scan, hone.one, Device.ceRun_one hone.room hone.free hone.tag, Device.cePassEff_delivers hone.admitted]
  exact s.dev.ceDeliver_scanDelivered _ _ _

/-! ### A gather answered (R193, R199, R201) -/

/-- A list pairs with no more of another than its own length. -/
theorem zip_take_length {α β : Type} (xs : List α) (ys : List β) : xs.zip (ys.take xs.length) = xs.zip ys := by
  induction xs generalizing ys with
  | nil => rfl
  | cons x xs ih => cases ys with
    | nil => rfl
    | cons y ys => simp [ih]

/-- Without a walk of the context and unit, the lists of a gather wait as they are. -/
theorem Engines.gather_unasked {g : Engines} {c : CeDesc} (rs : List CsqEntry) (hnone : g.walk? c.ctx c.unit = none) :
    (g.gather c rs).gathered = g.gathered ++ rs := by
  unfold Engines.walk? at hnone
  simp [Engines.gather, hnone]

/-- A walk takes the lists of a gather in the order of its expansions that still wait for one. -/
theorem Engines.gather_asked {g : Engines} {c : CeDesc} {w : Walk} (rs : List CsqEntry) (hw : g.walk? c.ctx c.unit = some w) :
    (g.gather c rs).gathered = g.gathered ++ (rs.zip (w.inFlight.filter fun x => if c.op = 4 then x.ham else x.pq)).map
      fun p => { p.1 with node := some p.2.node } := by
  unfold Engines.walk? at hw
  simp only [Engines.gather, hw]
  rw [zip_take_length]

/-- A gather's lists delivered: they wait for the walk of their context and unit, or answer its expansions, and nothing but engines and counts changes. -/
def Device.gatherDelivered (d e : Device) (sc : Nat) (c : CeDesc) (rs : List CsqEntry) : Prop :=
  ((d.eng sc).walk? c.ctx c.unit = none → (e.eng sc).gathered = (d.eng sc).gathered ++ rs) ∧
    (∀ w, (d.eng sc).walk? c.ctx c.unit = some w → (e.eng sc).gathered = (d.eng sc).gathered ++
      (rs.zip (w.inFlight.filter fun x => if c.op = 4 then x.ham else x.pq)).map fun p => { p.1 with node := some p.2.node }) ∧
    (e.cnt sc).cePasses = (d.cnt sc).cePasses + ceilDiv c.n c.nq ∧ e = { d with engines := e.engines, scCnt := e.scCnt }

theorem gives_gather {s : State} {cmd : Instr} {op sc : Nat} {desc : List Byte} (hc : exec cmd s = onDev (ceEff op sc desc) s)
    (h : s.dev.CeTakes sc op desc) (hgather : (parseCe desc).gathers = true)
    (heach : ∀ r, r < (parseCe desc).n → (s.dev.ceRequest sc (parseCe desc) r).isSome = true) :
    gives cmd s fun e => s.dev.gatherDelivered e sc (parseCe desc) ((List.range (parseCe desc).n).filterMap (s.dev.ceRequest sc (parseCe desc))) := by
  refine gives_of_onDev hc ?_
  rw [ceEff_gathers h hgather heach]
  refine ⟨fun hnone => ?_, fun w hw => ?_, ?_, rfl⟩
  · rw [Device.eng_modCnt, Device.eng_modEng_same, Engines.gather_unasked _ hnone]
  · rw [Device.eng_modCnt, Device.eng_modEng_same, Engines.gather_asked _ hw]
  · rw [Device.cnt_modCnt_same, Device.cnt_modEng]

/-- Settles O37: a scan by the scores of its pass and by where the pass is delivered, a gather by whom its lists answer. -/
theorem codeEnginePasses : Obligations.CodeEnginePasses := by
  unfold Obligations.CodeEnginePasses
  intro s sc desc d c attrs hsc hok hidle hfree pass scans rs gathers one each
  have takes : ∀ op, op ≠ 0 → c.op = op → d.CeTakes sc op desc := fun op h0 hop => ⟨hsc, hop, h0, hok, hidle⟩
  have scan : ∀ op cmd, exec cmd s = onDev (ceEff op sc desc) s → (op = 1 ∨ op = 2) → c.op = op → one → gives cmd s scans := by
    rintro op cmd hc hop hc_op ⟨hn, hroom, htag, hadmit⟩
    have hfour : c.nq ≤ 4 := CeDesc.nq_le_of_scan hok (by omega)
    have hscan : c.gathers = false := Bool.eq_false_iff.2 fun hg => by
      have := c.gathers_iff.1 hg
      omega
    obtain ⟨e, hexec, hmem, hother, hdelivered⟩ := gives_scan hc (takes op (by omega) hc_op) ⟨hscan, hfree, hn, hroom, htag, hadmit⟩
    exact ⟨e, hexec, hmem, hother, fun i q hi hq => d.getD_cePass_scores sc attrs hi hq hfour, hdelivered⟩
  refine ⟨scan 1 _ rfl (.inl rfl), scan 2 _ rfl (.inr rfl), fun hop heach => ?_, fun hop heach => ?_⟩
  · exact gives_gather rfl (takes 3 (by decide) hop) (c.gathers_iff.2 (.inl hop)) heach
  · exact gives_gather rfl (takes 4 (by decide) hop) (c.gathers_iff.2 (.inr hop)) heach

end Sys2Proof.Machine
end

section
/-! Faults of a context: events counted for its command, and its teardown with the command's completion (R182, R208, R262, R364). -/

namespace Sys2Proof.Machine

/-! ### Streams and engines of an SC changed -/

@[simp] theorem Device.str_modStr_same (d : Device) (sc : Nat) (g : Streams → Streams) : (d.modStr sc g).str sc = g (d.str sc) :=
  tget_tmod_same _ _ _ _

theorem Device.str_modStr_other (d : Device) {sc n : Nat} (g : Streams → Streams) (h : n ≠ sc) : (d.modStr sc g).str n = d.str n :=
  tget_tmod_other _ _ _ _ _ h

theorem Device.str_of_streams {d e : Device} (h : e.streams = d.streams) (n : Nat) : e.str n = d.str n := by
  unfold Device.str
  rw [h]

theorem Device.sem_of_streams {d e : Device} (h : e.streams = d.streams) (n k : Nat) : e.sem n k = d.sem n k := by
  unfold Device.sem
  rw [Device.str_of_streams h]

theorem Device.eng_of_engines {d e : Device} (h : e.engines = d.engines) (n : Nat) : e.eng n = d.eng n := by
  unfold Device.eng
  rw [h]

theorem Device.ctx?_of_ctxs {d e : Device} (h : e.ctxs = d.ctxs) (k : Nat) : e.ctx? k = d.ctx? k := by
  unfold Device.ctx?
  rw [h]

/-- The first ring of an SC that can be filled again (R241, R260). -/
def Device.refillNext (d : Device) (sc : Nat) : Option (Nat × Stream × List W64 × Nat) :=
  (d.str sc).refills.find? fun r => (d.ctx? r.1).any (fun k => k.spilled.isEmpty) && !(d.sem sc r.2.1.sem).active &&
    (List.range 4).any (d.placeFree sc)

/-- Where no descriptor waits, what starts is the refill that can (R241, R260). -/
theorem Device.startWaiting_noDescriptors {d : Device} {sc : Nat} (hstes : ∀ q ∈ (d.str sc).stes, q.waiting = []) :
    d.startWaiting sc = (d.refillNext sc).elim d fun r =>
      (d.modStr sc fun s => { s with refills := s.refills.filter (· != r) }).startRefill sc r.1 r.2.1 r.2.2.1 r.2.2.2 := by
  have hhead : ∀ e : Nat, ((d.str sc).stes[e]?).bind (fun q : Ste => q.waiting.head?) = none := by
    intro e
    cases hq : (d.str sc).stes[e]? with
    | none => rfl
    | some q => simp [hstes q (List.mem_of_getElem? hq)]
  unfold Device.startWaiting Device.refillNext
  dsimp only
  rw [List.foldl_fixed' fun e => by rw [hhead e]]
  cases (d.str sc).refills.find? _ <;> rfl

/-- Where nothing waits on an SC, nothing starts there (R241, R260). -/
theorem Device.startWaiting_idle {d : Device} {sc : Nat} (h : d.noneWait sc) : d.startWaiting sc = d := by
  rw [Device.startWaiting_noDescriptors h.1, Device.refillNext, h.2]
  rfl

/-- What else changes leaves an SC on which nothing waits. -/
theorem Device.noneWait_of_streams {d e : Device} (h : e.streams = d.streams) {n : Nat} (hn : d.noneWait n) : e.noneWait n := by
  unfold Device.noneWait at *
  rw [Device.str_of_streams h]
  exact hn

/-! ### An event counted for a command (R208, R262, R353) -/

/-- A context's command, which this device serves. -/
structure Device.Serves (d : Device) (ctx : Nat) (t : Ctx) (m : Cmd) : Prop where
  ctx : d.ctx? ctx = some t
  cmd : t.cmd = some m.stamp
  live : d.cmd? m.stamp = some m

theorem Device.Serves.restartsOf {d : Device} {ctx : Nat} {t : Ctx} {m : Cmd} (h : d.Serves ctx t m) : d.restartsOf ctx = m.restarts := by
  simp [Device.restartsOf, h.ctx, h.cmd, h.live]

/-- A command with one more event counted; a bound it had is void (R353). -/
def Cmd.recounted (m : Cmd) : Cmd :=
  if m.bound && !m.voided then Cmd.unbound { m with restarts := m.restarts + 1 } else { m with restarts := m.restarts + 1 }

/-- Of a command counted for, where it completes stays. -/
theorem Cmd.recounted_keeps (m : Cmd) : m.recounted.stamp = m.stamp ∧ m.recounted.restarts = m.restarts + 1 ∧ m.recounted.fn = m.fn ∧
    m.recounted.qid = m.qid ∧ m.recounted.cid = m.cid ∧ m.recounted.remote = m.remote := by
  unfold Cmd.recounted
  split <;> exact ⟨rfl, rfl, rfl, rfl, rfl, rfl⟩

/-- What counting an event changes: commands, and what is counted for them. -/
def Device.counts (d e : Device) : Prop := e = { d with cmds := e.cmds, fns := e.fns, burgees := e.burgees } ∧ d.fnsMetered e ∧ d.burgeesMetered e

theorem Device.voidBound_counts (d : Device) (k : Nat) : d.counts (d.voidBound k) := by
  unfold Device.voidBound
  split
  · split
    · obtain ⟨-, hfns, hburgees⟩ := (d.modCmd k fun c => { c with voided := true, rank := 3 }).account_metered (some _) _
        fun a => { a with boundVoid := a.boundVoid + 1 }
      refine ⟨?_, hfns, hburgees⟩
      rw [Device.account, Device.modFn_only]
      rfl
    · exact ⟨rfl, fun _ => rfl, fun _ => rfl⟩
  · exact ⟨rfl, fun _ => rfl, fun _ => rfl⟩

theorem Device.Serves.countRestart {d : Device} {ctx : Nat} {t : Ctx} {m : Cmd} (h : d.Serves ctx t m) :
    d.countRestart ctx = (d.modCmd m.stamp fun m => { m with restarts := m.restarts + 1 }).voidBound m.stamp := by
  simp [Device.countRestart, h.ctx, h.cmd]

/-- Counting an event for a context's command changes that command. -/
theorem Device.Serves.counts {d : Device} {ctx : Nat} {t : Ctx} {m : Cmd} (h : d.Serves ctx t m) :
    d.counts (d.countRestart ctx) ∧ (d.countRestart ctx).cmd? m.stamp = some m.recounted := by
  have hlive := Device.cmd?_modCmd_same (fun m : Cmd => { m with restarts := m.restarts + 1 }) (fun _ => rfl) h.live
  rw [h.countRestart]
  obtain ⟨honly, hfns, hburgees⟩ := (d.modCmd m.stamp fun m => { m with restarts := m.restarts + 1 }).voidBound_counts m.stamp
  refine ⟨⟨?_, hfns, hburgees⟩, (Device.voidBound_cmd? hlive).trans rfl⟩
  rw [honly]
  rfl

/-- A context goes on serving the command counted for. -/
theorem Device.Serves.after {d e : Device} {ctx : Nat} {t : Ctx} {m m' : Cmd} (h : d.Serves ctx t m) (hctxs : e.ctxs = d.ctxs)
    (hm : e.cmd? m.stamp = some m') (hstamp : m'.stamp = m.stamp) : e.Serves ctx t m' :=
  ⟨(Device.ctx?_of_ctxs hctxs ctx).trans h.ctx, by rw [h.cmd, hstamp], by rw [hstamp]; exact hm⟩

theorem Device.counts_keepsQueues {d e : Device} (h : d.counts e) : d.keepsQueues e := by
  obtain ⟨honly, hfns, -⟩ := h
  refine ⟨by rw [honly], by rw [honly], by rw [honly], fun n => ?_⟩
  rw [hfns n]
  exact ⟨rfl, rfl⟩

/-! ### Teardown (R208, R262, R364) -/

/-- What a command that leaves keeps of the SCs: their counters, the tag mismatches counted, and that nothing waits there; and the clock. -/
structure Device.settlesOn (d e : Device) : Prop where
  now   : e.now = d.now
  cnt   : e.scCnt = d.scCnt
  tags  : ∀ n, (e.eng n).tagMiss = (d.eng n).tagMiss
  waits : ∀ n, d.noneWait n → e.noneWait n

theorem Device.settlesOn_trans {d e f : Device} (h : d.settlesOn e) (k : e.settlesOn f) : d.settlesOn f :=
  ⟨k.now.trans h.now, k.cnt.trans h.cnt, fun n => (k.tags n).trans (h.tags n), fun n hn => k.waits n (h.waits n hn)⟩

/-- What changes neither clock, counters, engines nor streams. -/
theorem Device.settlesOn_of_eq {d e : Device} (hnow : e.now = d.now) (hcnt : e.scCnt = d.scCnt) (heng : e.engines = d.engines)
    (hstr : e.streams = d.streams) : d.settlesOn e :=
  ⟨hnow, hcnt, fun n => by rw [Device.eng_of_engines heng], fun _ hn => Device.noneWait_of_streams hstr hn⟩

theorem Device.settlesOn_of_sentTo {d e : Device} (h : d.sentTo e) : d.settlesOn e := by
  obtain ⟨honly, -, -⟩ := h
  refine Device.settlesOn_of_eq ?_ ?_ ?_ ?_ <;> rw [honly] <;> rfl

theorem Device.modEng_settlesOn (d : Device) (sc : Nat) {g : Engines → Engines} (hg : (g (d.eng sc)).tagMiss = (d.eng sc).tagMiss) :
    d.settlesOn (d.modEng sc g) := by
  refine ⟨rfl, rfl, fun n => ?_, fun _ hn => Device.noneWait_of_streams rfl hn⟩
  by_cases hne : n = sc
  · subst hne
    rw [Device.eng_modEng_same, hg]
  · rw [Device.eng_modEng_other _ _ hne]

/-- A change of an SC's streams that makes nothing wait there. -/
theorem Device.modStr_noneWait (d : Device) (sc : Nat) {g : Streams → Streams}
    (hg : d.noneWait sc → (∀ q ∈ (g (d.str sc)).stes, q.waiting = []) ∧ (g (d.str sc)).refills = []) {n : Nat} (hn : d.noneWait n) :
    (d.modStr sc g).noneWait n := by
  unfold Device.noneWait
  by_cases hne : n = sc
  · subst hne
    rw [Device.str_modStr_same]
    exact hg hn
  · rw [Device.str_modStr_other _ _ hne]
    exact hn

/-- A context released gives back its streams, refills and engine work (R364). -/
theorem Device.releaseCtx_settlesOn (d : Device) (id : Nat) : d.settlesOn (d.releaseCtx id) := by
  unfold Device.releaseCtx
  split
  · exact Device.settlesOn_of_eq rfl rfl rfl rfl
  · next c hc =>
    generalize hd1 : d.modSc c.sc _ = d1
    have hsched : d.settlesOn d1 := hd1 ▸ Device.settlesOn_of_eq rfl rfl rfl rfl
    have hstreams : d1.settlesOn (d1.modStr c.sc (·.release id)) :=
      ⟨rfl, rfl, fun _ => rfl, fun _ hn => d1.modStr_noneWait c.sc (fun h => ⟨h.1, by simp [Streams.release, h.2]⟩) hn⟩
    have hengines : (d1.modStr c.sc (·.release id)).settlesOn ((d1.modStr c.sc (·.release id)).modEng c.sc (·.release id)) :=
      Device.modEng_settlesOn _ _ rfl
    exact Device.settlesOn_trans (Device.settlesOn_trans (Device.settlesOn_trans hsched hstreams) hengines) (Device.settlesOn_of_eq rfl rfl rfl rfl)

theorem Device.releaseCmdCtxs_settlesOn (d : Device) (stamp : Nat) : d.settlesOn (d.releaseCmdCtxs stamp) := by
  unfold Device.releaseCmdCtxs
  generalize ((d.ctxs.filter (·.cmd == some stamp)).map (·.id)) = ids
  induction ids generalizing d with
  | nil => exact Device.settlesOn_of_eq rfl rfl rfl rfl
  | cons i ids ih => exact Device.settlesOn_trans (d.releaseCtx_settlesOn i) (ih _)

theorem Device.cancelRemote_settlesOn (d : Device) (c : Cmd) : d.settlesOn (d.cancelRemote c) := by
  obtain ⟨honly, -, -⟩ := Device.cancelRemote_sentTo d c
  refine Device.settlesOn_of_eq ?_ ?_ ?_ ?_ <;> rw [honly] <;> rfl

theorem Device.dropCmd_settlesOn (d : Device) (c : Cmd) : d.settlesOn (d.dropCmd c) :=
  Device.settlesOn_trans (Device.settlesOn_trans (d.releaseCmdCtxs_settlesOn _) (Device.cancelRemote_settlesOn _ c))
    (Device.settlesOn_of_eq rfl rfl rfl rfl)

/-- A command of this device that ends with a status posts its completion and leaves (R364, R391). -/
theorem Device.endCmd_completes {d : Device} {c : Cmd} (status : Nat) (hc : d.cmd? c.stamp = some c) (hr : c.remote = none) (hh : d.hostThere c.fn)
    (hq : (d.qp c.fn c.qid).isSome = true) :
    d.posted (d.endCmd c.stamp status) c.fn c.qid c.cid status 0 ∧ (d.endCmd c.stamp status).cmd? c.stamp = none ∧
      d.settlesOn (d.endCmd c.stamp status) := by
  obtain ⟨p, hp⟩ := Option.isSome_iff_exists.1 hq
  have hdrop := d.dropCmd_keepsQueues c
  have hqp := Device.keepsQueues_qp hdrop c.fn c.qid
  refine ⟨?_, ?_, ?_⟩
  · unfold Device.endCmd
    simp only [hc, hr]
    exact Device.posted_of_qp hqp (Device.posted_modQp hh.1 _ (fun _ => ⟨rfl, rfl⟩)
      (Device.post_posted _ _ _ _ _ _ _ (Device.keepsQueues_hostThere hdrop hh) (hqp.trans hp)))
  · unfold Device.cmd?
    rw [Device.endCmd_cmds]
    exact cmd?_filter _ _
  · unfold Device.endCmd
    simp only [hc, hr]
    exact Device.settlesOn_trans (d.dropCmd_settlesOn c) (Device.settlesOn_of_eq (by simp) (by simp) (by simp) (by simp))

/-- A context of a command of this device torn down: the command ends with the status, and on the SCs nothing that waited starts (R208, R262, R364). -/
theorem Device.Serves.tornDown {d : Device} {ctx : Nat} {t : Ctx} {m : Cmd} (h : d.Serves ctx t m) (status : Nat) (hr : m.remote = none)
    (hh : d.hostThere m.fn) (hq : (d.qp m.fn m.qid).isSome = true) (hnone : ∀ j, d.noneWait j) :
    d.posted (d.tornDown ctx status) m.fn m.qid m.cid status 0 ∧ (d.tornDown ctx status).cmd? m.stamp = none ∧ d.settlesOn (d.tornDown ctx status) := by
  obtain ⟨info, hd2⟩ : ∃ info, d.tearDown ctx status =
      ((d.account (d.clientOf ctx) t.burgee fun a => { a with teardowns := a.teardowns + 1 }).raiseBrg t.burgee 0x0005 info).endCmd m.stamp status := by
    simp only [Device.tearDown, h.ctx, h.cmd]
    exact ⟨_, rfl⟩
  generalize hd1 : d.account (d.clientOf ctx) t.burgee (fun a => { a with teardowns := a.teardowns + 1 }) = d1 at hd2
  have hmet : d.readsCharged d1 := hd1 ▸ d.account_metered _ _ _
  have htold : d1.sentTo (d1.raiseBrg t.burgee 0x0005 info) := Device.sentTo_of_told (d1.raise_told _)
  have hkept : d.keepsQueues (d1.raiseBrg t.burgee 0x0005 info) :=
    Device.keepsQueues_trans (Device.keepsQueues_of_readsCharged hmet) (Device.keepsQueues_of_sentTo htold)
  have hsettled : d.settlesOn (d1.raiseBrg t.burgee 0x0005 info) :=
    Device.settlesOn_trans (Device.settlesOn_of_eq (by rw [hmet.1]) (by rw [hmet.1]) (by rw [hmet.1]) (by rw [hmet.1])) (Device.settlesOn_of_sentTo htold)
  have hlive : (d1.raiseBrg t.burgee 0x0005 info).cmd? m.stamp = some m := by
    refine (Device.cmd?_of_cmds (d := d) ?_ _).trans h.live
    simp [← hd1]
  obtain ⟨hposted, hgone, hends⟩ := Device.endCmd_completes status hlive hr (Device.keepsQueues_hostThere hkept hh)
    ((congrArg Option.isSome (Device.keepsQueues_qp hkept _ _)).trans hq)
  rw [← hd2] at hposted hgone hends
  have hall := Device.settlesOn_trans hsettled hends
  have hidle : d.tornDown ctx status = d.tearDown ctx status := by
    unfold Device.tornDown
    generalize d.tearDown ctx status = e at hall
    dsimp only
    exact List.foldl_fixed' (fun n => Device.startWaiting_idle (hall.waits n (hnone n))) _
  rw [hidle]
  exact ⟨Device.posted_of_qp (Device.keepsQueues_qp hkept _ _) hposted, hgone, hall⟩

/-- An event counted for a context's command, which is then torn down. -/
theorem Device.Serves.tornDownCounted {d : Device} {ctx : Nat} {t : Ctx} {m : Cmd} (h : d.Serves ctx t m) (status : Nat) (hr : m.remote = none)
    (hh : d.hostThere m.fn) (hq : (d.qp m.fn m.qid).isSome = true) (hnone : ∀ j, d.noneWait j) :
    d.posted ((d.countRestart ctx).tornDown ctx status) m.fn m.qid m.cid status 0 ∧ ((d.countRestart ctx).tornDown ctx status).cmd? m.stamp = none ∧
      d.settlesOn ((d.countRestart ctx).tornDown ctx status) := by
  obtain ⟨hcounts, hcmd⟩ := h.counts
  have hkept := Device.counts_keepsQueues hcounts
  obtain ⟨honly, -, -⟩ := hcounts
  obtain ⟨hstamp, -, hfn, hqid, hcid, hremote⟩ := m.recounted_keeps
  generalize d.countRestart ctx = d1 at *
  have hserves : d1.Serves ctx t m.recounted := h.after (by rw [honly]) hcmd hstamp
  have hstreams : d1.streams = d.streams := by rw [honly]
  obtain ⟨hposted, hgone, hsettled⟩ := hserves.tornDown status (hremote.trans hr) (by rw [hfn]; exact Device.keepsQueues_hostThere hkept hh)
    (by rw [hfn, hqid, Device.keepsQueues_qp hkept]; exact hq) fun j => Device.noneWait_of_streams hstreams (hnone j)
  rw [hfn, hqid, hcid] at hposted
  rw [hstamp] at hgone
  exact ⟨Device.posted_of_qp (Device.keepsQueues_qp hkept _ _) hposted, hgone,
    Device.settlesOn_trans (Device.settlesOn_of_eq (by rw [honly]) (by rw [honly]) (by rw [honly]) hstreams) hsettled⟩

end Sys2Proof.Machine
end

section
/-! A tag mismatch: the streams of a context's input rings restart at the slot not yet consumed, or its command ends (R208, R260). -/

namespace Sys2Proof.Machine

/-! ### Streams begun -/

/-- What moving semaphore pairs keeps: the streams that run, and the tag mismatches counted. -/
def Device.sameRuns (d e : Device) : Prop :=
  (∀ n, (e.str n).running = (d.str n).running) ∧ ∀ n, (e.eng n).tagMiss = (d.eng n).tagMiss

theorem Device.sameRuns_refl (d : Device) : d.sameRuns d := ⟨fun _ => rfl, fun _ => rfl⟩

theorem Device.sameRuns_trans {d e f : Device} (h : d.sameRuns e) (k : e.sameRuns f) : d.sameRuns f :=
  ⟨fun n => (k.1 n).trans (h.1 n), fun n => (k.2 n).trans (h.2 n)⟩

theorem Device.modSem_sameRuns (d : Device) (sc k : Nat) (g : SemPair → SemPair) : d.sameRuns (d.modSem sc k g) := by
  refine ⟨fun n => ?_, fun n => ?_⟩
  · obtain ⟨e, he⟩ := d.modSem_cases sc k g
    rw [he]
    by_cases hn : n = sc
    · subst hn
      simp [Device.str]
    · simp [Device.str, tget_tmod_other _ _ _ _ _ hn]
  · rw [((d.pairsTo_modSem sc k g).2 n).1]

theorem Device.foldl_modSem_sameRuns (k : Nat) (g : SemPair → SemPair) (ns : List Nat) (d : Device) :
    d.sameRuns (ns.foldl (fun d n => d.modSem n k g) d) := by
  induction ns generalizing d with
  | nil => exact d.sameRuns_refl
  | cons n ns ih => exact Device.sameRuns_trans (d.modSem_sameRuns n k g) (ih _)

theorem Device.acquire_sameRuns {d e : Device} {sc s : Nat} {t : Stream} (h : d.acquire sc t = some (s, e)) : d.sameRuns e := by
  unfold Device.acquire at h
  dsimp only at h
  split at h
  · split at h
    · obtain ⟨-, rfl⟩ := Prod.mk.inj (Option.some.inj h)
      exact d.modSem_sameRuns _ _ _
    · cases h
  · split at h
    · obtain ⟨-, rfl⟩ := Prod.mk.inj (Option.some.inj h)
      exact Device.foldl_modSem_sameRuns _ _ _ _
    · cases h

/-- The device with a starting stream's escape reservation taken, where no other space in use meets it (R263). -/
def Device.reserveEscape (d : Device) (t : Stream) : Device :=
  let n := 2 * (t.nSlots * t.slotBytes)
  if !t.hasRing || d.tiers.extF.any (fun e => decide (e.base < t.escBase + n) && decide (t.escBase < e.base + e.len)) then d
  else ({ d with tiers := { d.tiers with extF := ⟨t.escBase, n, if t.own then none else some t.burgee⟩ :: d.tiers.extF } } : Device).modCtx t.ctx
    fun k => { k with escapes := t.escBase :: k.escapes }

/-- The device with a starting stream bound to the pairs of its rings (R241, R246). -/
def Device.bindRings (d : Device) (sc : Nat) (t : Stream) : Device :=
  if t.hasRing then (t.scs sc).foldl (fun d n => d.modSem n t.sem (·.bind t)) (d.reserveEscape t) else d.reserveEscape t

theorem Device.bindRings_sameRuns (d : Device) (sc : Nat) (t : Stream) : d.sameRuns (d.bindRings sc t) := by
  have hreserve : d.sameRuns (d.reserveEscape t) := by
    unfold Device.reserveEscape
    dsimp only
    split <;> exact d.sameRuns_refl
  unfold Device.bindRings
  split
  · exact Device.sameRuns_trans hreserve (Device.foldl_modSem_sameRuns _ _ _ _)
  · exact hreserve

/-- A stream that starts runs after those that ran, on the slot it could take (R241, R246). -/
theorem Device.startStream_runs (d : Device) (sc : Nat) (t : Stream) :
    (∃ slot, ((d.startStream sc t).str sc).running = (d.str sc).running ++ [{ t with slot := slot }]) ∧
      ∀ n, ((d.startStream sc t).eng n).tagMiss = (d.eng n).tagMiss := by
  have hbound := d.bindRings_sameRuns sc t
  unfold Device.startStream
  dsimp only
  split
  next s e hacq =>
    split at hacq
    · cases hacq
    · have htaken := Device.sameRuns_trans hbound (Device.acquire_sameRuns hacq)
      exact ⟨⟨some s, by rw [Device.str_modStr_same]; exact congrArg (· ++ _) (htaken.1 sc)⟩, htaken.2⟩
  next => exact ⟨⟨t.slot, by rw [Device.str_modStr_same]; exact congrArg (· ++ _) (hbound.1 sc)⟩, hbound.2⟩

/-! ### Rings filled again (R208, R260) -/

/-- The stream that fills again the ring of another, from one of its slots (R208, R260). -/
def Stream.refill (u : Stream) (id ste slot ctx start : Nat) : Stream :=
  { id := id, ste := ste, opcode := 1, progSlot := slot, own := u.own, burgee := u.burgee, pennant := u.pennant,
    prefetch := u.prefetch, sem := u.sem, idxSem := u.idxSem, chain := false, ringAddr := u.ringAddr, slotBytes := u.slotBytes,
    slotCount := u.slotCount, unit := u.unit, ctx := ctx, escBase := u.escBase, mcMask := 0, init := u.init, regs := u.init,
    skip := start, before := start, moved := u.moved }

theorem Device.startRefill_starts (d : Device) (sc ctx : Nat) (u : Stream) (prog : List W64) (start : Nat) :
    ∃ ste slot, d.startRefill sc ctx u prog start =
      (d.modStr sc fun s => { s with progs := tset slot prog s.progs }).startStream sc (u.refill (d.str sc).nextId ste slot ctx start) :=
  ⟨_, _, rfl⟩

theorem Device.startRefill_runs (d : Device) (sc ctx : Nat) (u : Stream) (prog : List W64) (start : Nat) :
    (∃ ste slot taken, ((d.startRefill sc ctx u prog start).str sc).running =
      (d.str sc).running ++ [{ u.refill (d.str sc).nextId ste slot ctx start with slot := taken }]) ∧
      ∀ n, ((d.startRefill sc ctx u prog start).eng n).tagMiss = (d.eng n).tagMiss := by
  obtain ⟨ste, slot, hstart⟩ := d.startRefill_starts sc ctx u prog start
  obtain ⟨⟨taken, hruns⟩, htags⟩ := (d.modStr sc fun s => { s with progs := tset slot prog s.progs }).startStream_runs sc
    (u.refill (d.str sc).nextId ste slot ctx start)
  rw [Device.str_modStr_same] at hruns
  rw [hstart]
  exact ⟨⟨ste, slot, taken, hruns⟩, htags⟩

/-! ### A stream gives up its ring (R208, R260) -/

theorem Device.fillerOf_of_streams {d e : Device} (h : e.streams = d.streams) (sc k : Nat) : e.fillerOf sc k = d.fillerOf sc k := by
  unfold Device.fillerOf
  rw [Device.sem_of_streams h, Device.str_of_streams h, h]

/-- The stream that fills a ring is bound to its pair, for the pair's context. -/
theorem Device.fillerOf_bound {d : Device} {sc k on : Nat} {u : Stream} (h : d.fillerOf sc k = some (on, u)) : u.sem = k ∧ u.ctx = (d.sem sc k).ctx := by
  unfold Device.fillerOf at h
  rw [Option.or_eq_some_iff] at h
  obtain h | ⟨-, h⟩ := h
  · obtain ⟨s, -, hs⟩ := List.exists_of_findSome?_eq_some h
    obtain ⟨v, hv, hvu⟩ := Option.map_eq_some_iff.1 hs
    obtain ⟨-, rfl⟩ := Prod.mk.inj hvu
    have := List.find?_some hv
    simp only [Bool.and_eq_true, beq_iff_eq] at this
    exact ⟨this.1.1.2, this.1.2⟩
  · obtain ⟨v, hv, hvu⟩ := Option.map_eq_some_iff.1 h
    obtain ⟨-, rfl⟩ := Prod.mk.inj hvu
    have := List.find?_some hv
    simp only [Bool.and_eq_true, beq_iff_eq] at this
    exact ⟨this.1.2, this.2⟩

theorem Device.backToL_copies (d : Device) (a : Nat) : d.copies (d.backToL a).2 := by
  unfold Device.backToL
  split
  · exact d.unplace_copies _ _ _
  · exact d.copies_refl

/-- An IN stream that gives up its own SC's ring stops; the ring's pair is free, and its refill waits after those that waited (R208). -/
theorem Device.giveUpRing_in (d : Device) (sc k ctx : Nat) (u : Stream) (moved : List (Nat × Nat × Nat)) (hop : u.opcode = 1) :
    ((d.giveUpRing sc sc k ctx u moved).str sc).running = (d.str sc).running.filter (·.id != u.id) ∧
    ((d.giveUpRing sc sc k ctx u moved).str sc).stes = (d.str sc).stes ∧ ((d.giveUpRing sc sc k ctx u moved).str sc).nextId = (d.str sc).nextId ∧
    ((d.giveUpRing sc sc k ctx u moved).str sc).refills = (d.str sc).refills ++ [(ctx, { u with moved := moved ++ u.moved },
      tget [] u.progSlot (d.str sc).progs, u.before + ((d.sem sc k).done + 0x100000000 - (d.sem sc k).first) % 0x100000000)] ∧
    ((d.giveUpRing sc sc k ctx u moved).sem sc k).active = false ∧ (d.giveUpRing sc sc k ctx u moved).ctxs = d.ctxs ∧
    ∀ n, ((d.giveUpRing sc sc k ctx u moved).eng n).tagMiss = (d.eng n).tagMiss := by
  have hmulti : (decide (u.opcode = 4) && (u.scs sc).any (· != sc)) = false := by simp [hop]
  unfold Device.giveUpRing
  dsimp only
  simp only [hop]
  generalize hd1 : d.modStr sc _ = d1
  generalize hd2 : (if inTile (d.sem sc k).ringAddr = true then d1.syncTile sc (bits 17 16 (d.sem sc k).ringAddr) else d1) = d2
  have hkept : d1.pairsTo d2 ∧ d2.streams = d1.streams := by
    rw [← hd2]
    split
    · exact ⟨Device.pairsTo_syncTile _ _ _, rfl⟩
    · exact ⟨Device.pairsTo_refl _, rfl⟩
  obtain ⟨htile, hstr⟩ := hkept
  rw [if_neg (by simp)]
  have hstr' : d2.str sc = d1.str sc := Device.str_of_streams hstr sc
  refine ⟨?_, ?_, ?_, ?_, ?_, ?_, fun n => ?_⟩
  · rw [Device.str_modStr_same, Device.str_modStr_same, hstr', ← hd1, Device.str_modStr_same]
  · rw [Device.str_modStr_same, Device.str_modStr_same, hstr', ← hd1, Device.str_modStr_same]
  · rw [Device.str_modStr_same, Device.str_modStr_same, hstr', ← hd1, Device.str_modStr_same]
  · rw [Device.str_modStr_same, Device.str_modStr_same, hstr', ← hd1, Device.str_modStr_same]
  · unfold Device.sem
    rw [Device.str_modStr_same, Device.str_modStr_same, hstr', ← hd1, Device.str_modStr_same]
    simp
  · show d2.ctxs = d.ctxs
    rw [htile.1, ← hd1]
    rfl
  · show (d2.eng n).tagMiss = _
    rw [(htile.2 n).1, ← hd1]
    rfl

/-- The copies the pieces came from become invalid, one after another. -/
theorem Device.foldl_backToL_copies (as : List Nat) (p : List (Nat × Nat × Nat) × Device) :
    p.2.copies (as.foldl (fun x a => ((x.2.backToL a).1 ++ x.1, (x.2.backToL a).2)) p).2 := by
  induction as generalizing p with
  | nil => exact p.2.copies_refl
  | cons a as ih => exact Device.copies_trans (p.2.backToL_copies a) (ih _)

/-- A ring whose own IN stream gave it up is filled again at once where a place is free: from the first slot not released (R208, R260). -/
theorem Device.restartRing_refills {d : Device} {sc r : Nat} {u : Stream} {t : Ctx} (hfill : d.fillerOf sc r = some (sc, u)) (hop : u.opcode = 1)
    (hnew : u.id < (d.str sc).nextId) (ht : d.ctx? (d.sem sc r).ctx = some t) (hspilled : t.spilled = []) (hnone : d.noneWait sc) (hste : u.ste < 4)
    (hplace : d.placeFree sc u.ste = true) :
    (∀ n, ((d.restartRing sc r).eng n).tagMiss = (d.eng n).tagMiss) ∧ (d.restartRing sc r).stream? sc u.id = none ∧
      ∃ q ∈ ((d.restartRing sc r).str sc).running, q.opcode = 1 ∧ q.sem = u.sem ∧ q.ctx = (d.sem sc r).ctx ∧ q.ringAddr = u.ringAddr ∧ q.init = u.init ∧
        q.regs = u.init ∧ q.pc = 0 ∧ q.skip = u.before + ((d.sem sc r).done + 2 ^ 32 - (d.sem sc r).first) % 2 ^ 32 := by
  obtain ⟨hsem, hctx⟩ := Device.fillerOf_bound hfill
  unfold Device.restartRing
  rw [hfill]
  dsimp only
  generalize hfold : List.foldl _ _ _ = p
  have hcopies : d.copies p.2 := hfold ▸ Device.foldl_backToL_copies _ _
  obtain ⟨moved, d1⟩ := p
  change d.copies d1 at hcopies
  have hstreams : d1.streams = d.streams := by rw [hcopies]
  have hstr : d1.str sc = d.str sc := Device.str_of_streams hstreams sc
  have hsemEq : d1.sem sc r = d.sem sc r := Device.sem_of_streams hstreams sc r
  have hengEq : d1.engines = d.engines := by rw [hcopies]
  obtain ⟨hruns, hstes, hnext, hrefills, hactive, hctxs, htags⟩ := d1.giveUpRing_in sc r (d.sem sc r).ctx u moved hop
  generalize d1.giveUpRing sc sc r (d.sem sc r).ctx u moved = d2 at *
  have hfree : d2.placeFree sc u.ste = true := by
    unfold Device.placeFree at hplace ⊢
    rw [decide_eq_true_iff] at hplace ⊢
    rw [hruns, hstr]
    exact lt_of_le_of_lt (List.Sublist.length_le (List.filter_sublist.filter _)) hplace
  have hctx2 : d2.ctx? (d.sem sc r).ctx = some t := by
    rw [Device.ctx?_of_ctxs (d := d) (hctxs.trans (by rw [hcopies])), ht]
  have hrefill : d2.refillNext sc = some ((d.sem sc r).ctx, { u with moved := moved ++ u.moved }, tget [] u.progSlot (d1.str sc).progs,
      u.before + ((d1.sem sc r).done + 0x100000000 - (d1.sem sc r).first) % 0x100000000) := by
    unfold Device.refillNext
    rw [hrefills, hstr, hnone.2, List.nil_append, List.find?_cons_of_pos]
    simp only [hctx2, hsem, hactive, Option.any_some, hspilled, List.isEmpty_nil, Bool.not_false, Bool.and_true, Bool.true_and, List.any_eq_true]
    exact ⟨u.ste, List.mem_range.2 hste, hfree⟩
  rw [Device.startWaiting_noDescriptors (by rw [hstes, hstr]; exact hnone.1), hrefill]
  rw [Option.elim_some]
  obtain ⟨⟨ste, slot, taken, hrun⟩, htag⟩ := (d2.modStr sc _).startRefill_runs sc (d.sem sc r).ctx { u with moved := moved ++ u.moved }
    (tget [] u.progSlot (d1.str sc).progs) (u.before + ((d1.sem sc r).done + 0x100000000 - (d1.sem sc r).first) % 0x100000000)
  rw [Device.str_modStr_same] at hrun
  refine ⟨fun n => (htag n).trans ((htags n).trans (by rw [Device.eng_of_engines hengEq])), ?_, _, hrun ▸ List.mem_append_right _ (List.mem_singleton_self _), ?_⟩
  · unfold Device.stream?
    rw [hrun, hruns, hnext, hstr, List.find?_eq_none]
    intro v hv
    obtain hv | hv := List.mem_append.1 hv
    · simpa using (List.mem_filter.1 hv).2
    · rw [List.mem_singleton.1 hv]
      show ¬ ((d.str sc).nextId == u.id) = true
      simp only [beq_iff_eq]
      omega
  · rw [hsemEq]
    exact ⟨rfl, rfl, rfl, rfl, rfl, rfl, rfl, rfl⟩

/-! ### TAG_MISMATCH (R208) -/

/-- The rings by which the input of a context comes on an SC. -/
def Device.inputRings (d : Device) (sc ctx : Nat) : List Nat :=
  ((d.str sc).sems.filter fun p => p.2.active && p.2.ctx == ctx && !p.2.isOut).map (·.1)

theorem tagMismatchEff_none {d : Device} {sc ctx : Nat} {t : Ctx} (ht : d.ctx? ctx = some t) :
    tagMismatchEff sc ctx none d = d.tagMiss sc ctx (d.inputRings sc ctx) := by
  unfold tagMismatchEff
  rw [ht]
  cases decide (d.restartsOf ctx < 1) <;> rfl

/-- The device with one more tag mismatch counted on an SC (R208). -/
def Device.tagCounted (d : Device) (sc : Nat) : Device := d.modEng sc fun e => { e with tagMiss := e.tagMiss + 1 }

theorem Device.tagCounted_tagMiss (d : Device) (sc : Nat) : ((d.tagCounted sc).eng sc).tagMiss = (d.eng sc).tagMiss + 1 := by
  rw [Device.tagCounted, Device.eng_modEng_same]

theorem Device.Serves.tagCounted {d : Device} {ctx : Nat} {t : Ctx} {m : Cmd} (h : d.Serves ctx t m) (sc : Nat) : (d.tagCounted sc).Serves ctx t m :=
  ⟨h.ctx, h.cmd, h.live⟩

/-- At a command's first event the context's rings restart; at the next the command ends (R208). -/
theorem Device.Serves.tagMiss {d : Device} {ctx : Nat} {t : Ctx} {m : Cmd} (h : d.Serves ctx t m) (sc : Nat) (rings : List Nat) :
    d.tagMiss sc ctx rings = if 1 ≤ m.restarts then ((d.tagCounted sc).countRestart ctx).tornDown ctx stScaleSkew
      else rings.foldl (fun d k => d.restartRing sc k) ((d.tagCounted sc).countRestart ctx) := by
  unfold Device.tagMiss
  rw [h.restartsOf]
  rfl

section
variable {s : State} {sc k : Nat} {t : Ctx} {m : Cmd} (h : s.dev.Serves k t m)
include h

theorem gives_tagMismatch_noRings (hfirst : m.restarts = 0) (hrings : s.dev.inputRings sc k = []) :
    gives (.tagMismatch sc k none) s fun e => (e.eng sc).tagMiss = (s.dev.eng sc).tagMiss + 1 ∧
      (∃ m', e.cmd? m.stamp = some m' ∧ m'.restarts = 1) ∧ e.ctxs = s.dev.ctxs ∧ e.mem = s.dev.mem := by
  refine gives_of_onDev (F := tagMismatchEff sc k none) rfl ?_
  rw [tagMismatchEff_none h.ctx, h.tagMiss, hrings, if_neg (by omega), List.foldl_nil]
  obtain ⟨⟨honly, -, -⟩, hcmd⟩ := (h.tagCounted sc).counts
  refine ⟨?_, ⟨_, hcmd, by rw [m.recounted_keeps.2.1, hfirst]⟩, ?_, ?_⟩
  · rw [honly]
    exact s.dev.tagCounted_tagMiss sc
  · rw [honly]
    rfl
  · rw [honly]
    rfl

theorem gives_tagMismatch_restarts {r : Nat} {u : Stream} (hfirst : m.restarts = 0)
    (hring : (s.dev.str sc).sems.filter (fun p => p.2.active && p.2.ctx == k && !p.2.isOut) = [(r, s.dev.sem sc r)])
    (hfill : s.dev.fillerOf sc r = some (sc, u)) (hop : u.opcode = 1) (hnew : u.id < (s.dev.str sc).nextId) (hspilled : t.spilled = [])
    (hnone : s.dev.noneWait sc) (hste : u.ste < 4) (hplace : s.dev.placeFree sc u.ste = true) :
    gives (.tagMismatch sc k none) s fun e => (e.eng sc).tagMiss = (s.dev.eng sc).tagMiss + 1 ∧ e.stream? sc u.id = none ∧
      ∃ q ∈ (e.str sc).running, q.opcode = 1 ∧ q.sem = u.sem ∧ q.ctx = k ∧ q.ringAddr = u.ringAddr ∧ q.init = u.init ∧ q.regs = u.init ∧
        q.pc = 0 ∧ q.skip = u.before + ((s.dev.sem sc r).done + 2 ^ 32 - (s.dev.sem sc r).first) % 2 ^ 32 := by
  have hctx : (s.dev.sem sc r).ctx = k := by
    have hmem : (r, s.dev.sem sc r) ∈ (s.dev.str sc).sems.filter (fun p => p.2.active && p.2.ctx == k && !p.2.isOut) := hring ▸ List.mem_singleton_self _
    simpa using (Bool.and_eq_true_iff.1 (Bool.and_eq_true_iff.1 (List.mem_filter.1 hmem).2).1).2
  refine gives_of_onDev (F := tagMismatchEff sc k none) rfl ?_
  rw [tagMismatchEff_none h.ctx, h.tagMiss, if_neg (by omega), Device.inputRings, hring, List.map_singleton, List.foldl_cons, List.foldl_nil]
  obtain ⟨⟨honly, -, -⟩, -⟩ := (h.tagCounted sc).counts
  generalize (s.dev.tagCounted sc).countRestart k = d1 at honly
  have hstreams : d1.streams = s.dev.streams := by rw [honly]; rfl
  have htag : (d1.eng sc).tagMiss = (s.dev.eng sc).tagMiss + 1 := by
    rw [honly]
    exact s.dev.tagCounted_tagMiss sc
  have hsem := Device.sem_of_streams hstreams sc r
  have hctx1 : d1.ctx? (d1.sem sc r).ctx = some t := by
    rw [hsem, hctx, Device.ctx?_of_ctxs (d := s.dev) (by rw [honly]; rfl), h.ctx]
  have hplace1 : d1.placeFree sc u.ste = true := by
    rw [← hplace]
    unfold Device.placeFree
    rw [Device.str_of_streams hstreams]
  obtain ⟨htags, hgone, hruns⟩ := Device.restartRing_refills ((Device.fillerOf_of_streams hstreams sc r).trans hfill) hop
    (Device.str_of_streams hstreams sc ▸ hnew) hctx1 hspilled (Device.noneWait_of_streams hstreams hnone) hste hplace1
  rw [hsem, hctx] at hruns
  exact ⟨(htags sc).trans htag, hgone, hruns⟩

theorem gives_tagMismatch_ends (hagain : 1 ≤ m.restarts) (hr : m.remote = none) (hh : s.dev.hostThere m.fn) (hq : (s.dev.qp m.fn m.qid).isSome = true)
    (hnone : ∀ j, s.dev.noneWait j) :
    gives (.tagMismatch sc k none) s fun e => (e.eng sc).tagMiss = (s.dev.eng sc).tagMiss + 1 ∧
      s.dev.posted e m.fn m.qid m.cid stScaleSkew 0 ∧ e.cmd? m.stamp = none := by
  refine gives_of_onDev (F := tagMismatchEff sc k none) rfl ?_
  rw [tagMismatchEff_none h.ctx, h.tagMiss, if_pos hagain]
  obtain ⟨hposted, hgone, hsettled⟩ := (h.tagCounted sc).tornDownCounted stScaleSkew hr hh hq hnone
  exact ⟨(hsettled.tags sc).trans (s.dev.tagCounted_tagMiss sc), hposted, hgone⟩

end

end Sys2Proof.Machine
end

section
/-! A failed transfer of a stream: its slot, its word or its piece is read again, or its command ends (R208, R255, R262). -/

namespace Sys2Proof.Machine

/-! ### What a read asked of memory keeps (R241, R250, R251) -/

/-- What asking for a read keeps: the STEs of an SC, commands, memory and counters. -/
structure Device.keepsStes (d e : Device) (sc : Nat) : Prop where
  stes : (e.str sc).stes = (d.str sc).stes
  cmds : e.cmds = d.cmds
  mem  : e.mem = d.mem
  cnt  : e.scCnt = d.scCnt

/-- What asking for a read keeps until it is outstanding: the transfers of an SC as well. -/
structure Device.keepsTransfers (d e : Device) (sc : Nat) : Prop extends d.keepsStes e sc where
  xfers  : (e.str sc).xfers = (d.str sc).xfers
  nextId : (e.str sc).nextId = (d.str sc).nextId

theorem Device.keepsStes_trans {d e f : Device} {sc : Nat} (h : d.keepsStes e sc) (k : e.keepsStes f sc) : d.keepsStes f sc :=
  ⟨k.stes.trans h.stes, k.cmds.trans h.cmds, k.mem.trans h.mem, k.cnt.trans h.cnt⟩

theorem Device.keepsTransfers_refl (d : Device) (sc : Nat) : d.keepsTransfers d sc := ⟨⟨rfl, rfl, rfl, rfl⟩, rfl, rfl⟩

theorem Device.keepsTransfers_trans {d e f : Device} {sc : Nat} (h : d.keepsTransfers e sc) (k : e.keepsTransfers f sc) : d.keepsTransfers f sc :=
  ⟨Device.keepsStes_trans h.tokeepsStes k.tokeepsStes, k.xfers.trans h.xfers, k.nextId.trans h.nextId⟩

theorem Device.keepsTransfers_of_streams {d e : Device} (hstr : e.streams = d.streams) (hcmds : e.cmds = d.cmds) (hmem : e.mem = d.mem)
    (hcnt : e.scCnt = d.scCnt) (sc : Nat) : d.keepsTransfers e sc := by
  refine ⟨⟨?_, hcmds, hmem, hcnt⟩, ?_, ?_⟩ <;> rw [Device.str_of_streams hstr]

theorem Device.modStream_keepsTransfers (d : Device) (sc id : Nat) (g : Stream → Stream) : d.keepsTransfers (d.modStream sc id g) sc := by
  refine ⟨⟨?_, rfl, rfl, rfl⟩, ?_, ?_⟩ <;> rw [Device.modStream, Device.str_modStr_same]

theorem Device.chargeStream_keepsTransfers (d : Device) (sc : Nat) (t : Stream) (o : Option (Metered × Nat)) :
    d.keepsTransfers (d.chargeStream sc t o) sc := by
  cases o with
  | none => exact d.keepsTransfers_refl sc
  | some m =>
    exact Device.keepsTransfers_trans (Device.keepsTransfers_of_streams (by simp) (by simp) (by simp) (by simp) sc) (Device.modStream_keepsTransfers _ _ _ _)

theorem Device.memReadCount_keepsTransfers (d : Device) (a n p sc : Nat) : d.keepsTransfers (d.memReadCount a n p) sc := by
  have honly := (d.memReadCount_metered a n p).1
  exact Device.keepsTransfers_of_streams (by rw [honly]) (by rw [honly]) (by rw [honly]) (by rw [honly]) sc

/-! ### A running stream changed -/

theorem Device.stream?_modStream {d : Device} {sc id : Nat} {t : Stream} (g : Stream → Stream) (hg : ∀ u, (g u).id = u.id)
    (h : d.stream? sc id = some t) : (d.modStream sc id g).stream? sc id = some (g t) := by
  have hid : t.id = id := by simpa using List.find?_some h
  have hsame : ((fun u : Stream => u.id == id) ∘ fun u => if u.id == id then g u else u) = fun u => u.id == id := by
    funext u
    by_cases hu : u.id = id <;> simp [hu, hg]
  unfold Device.stream? at h ⊢
  rw [Device.modStream, Device.str_modStr_same]
  dsimp only
  rw [List.find?_map, hsame, h, Option.map_some, if_pos (by simp [hid])]

theorem Device.stream?_id {d : Device} {sc id : Nat} {t : Stream} (h : d.stream? sc id = some t) : t.id = id := by
  simpa using List.find?_some h

theorem Device.read_of {d e : Device} (hmem : e.mem = d.mem) (htiers : e.tiers = d.tiers) (a n : Nat) : e.read a n = d.read a n := by
  simp only [Device.read, Device.byteAt, hmem, htiers]

/-- A piece of an IN stream's read, which no unit register serves, is outstanding with the bytes it reads (R250 to R252). -/
theorem Device.issuePiece_reads {d : Device} {sc id : Nat} {t : Stream} (slot : Nat) {p : Piece} (ht : d.stream? sc id = some t) (hop : t.opcode = 1)
    (hreg : t.unitReg = none) (hp : p.write = false) :
    ∃ (e : Device) (x : Transfer), d.keepsTransfers e sc ∧ d.issuePiece sc id slot p = e.addXfers sc t x ∧
      x.stream = id ∧ x.slot = slot ∧ x.addr = p.addr ∧ x.len = p.len ∧ x.place = p.place ∧ x.data = d.read p.addr p.len := by
  have hring : (t.hasRing && t.opcode != 2) = true := by simp [Stream.hasRing, hop]
  have hunit : (if t.opcode = 2 then none else d.fromUnit t p) = none := by simp [Device.fromUnit, hreg]
  unfold Device.issuePiece
  rw [ht]
  dsimp only
  rw [if_pos hring, hunit, if_neg (c := t.opcode = 3) (by omega), hp, if_neg Bool.false_ne_true]
  dsimp only
  generalize hd0 : d.modStream sc id _ = d0
  have h0 : d.keepsTransfers d0 sc := hd0 ▸ d.modStream_keepsTransfers sc id _
  generalize hd1 : d0.chargeStream sc t _ = d1
  have h1 : d.keepsTransfers d1 sc := Device.keepsTransfers_trans h0 (hd1 ▸ d0.chargeStream_keepsTransfers sc t _)
  generalize hd2 : d1.memReadCount p.addr p.len t.pennant = d2
  have h2 : d.keepsTransfers d2 sc := Device.keepsTransfers_trans h1 (hd2 ▸ d1.memReadCount_keepsTransfers _ _ _ sc)
  have hreg2 : ∀ g, d.keepsTransfers (d2.modStream sc id g) sc := fun g => Device.keepsTransfers_trans h2 (d2.modStream_keepsTransfers sc id g)
  cases d.unitAt p.addr p.len with
  | none => exact ⟨_, _, hreg2 _, rfl, rfl, rfl, rfl, rfl, rfl, rfl⟩
  | some u =>
    obtain ⟨b, n⟩ := u
    exact ⟨_, _, hreg2 _, rfl, rfl, rfl, rfl, rfl, rfl, rfl⟩

/-- A transfer of a stream that fills one SC's ring is outstanding under the next number (R241). -/
theorem Device.addXfers_one (d : Device) (sc : Nat) {t : Stream} (hop : t.opcode = 1) (x : Transfer) :
    d.addXfers sc t x = d.modStr sc fun s => { s with nextId := s.nextId + 1, xfers := s.xfers ++ [{ x with id := s.nextId, dst := sc, lead := true }] } := by
  unfold Device.addXfers
  rw [if_neg (by omega)]
  rfl

/-- A slot of one piece read again: the transfers outstanding for it are dropped, and its piece issues again (R262). -/
theorem Device.readAgain_one {d : Device} {sc slot : Nat} {t : Stream} {p : Piece} (ht : d.stream? sc t.id = some t) (hop : t.opcode = 1)
    (hp : p.write = false) (hpieces : t.pieces.filter (fun q => q.1 == slot) = [(slot, p)]) :
    d.keepsStes (d.readAgain sc t.id slot) sc ∧ ∃ y : Transfer, ((d.readAgain sc t.id slot).str sc).xfers =
        ((d.str sc).xfers.filter fun x => !(x.stream == t.id && x.slot == slot && x.ldm.isNone)) ++ [y] ∧ y.id = (d.str sc).nextId ∧ y.stream = t.id ∧
      y.slot = slot ∧ y.addr = t.movedTo p.addr p.len ∧ y.len = p.len ∧ y.place = p.place ∧ y.data = d.read y.addr p.len := by
  unfold Device.readAgain
  rw [ht]
  dsimp only
  rw [hpieces, List.map_singleton, List.foldl_cons, List.foldl_nil]
  generalize hd1 : d.modStr sc (fun s : Streams => { s with xfers := s.xfers.filter fun x => !(x.stream == t.id && x.slot == slot && x.ldm.isNone) }) = d1
  have hstream : d1.stream? sc t.id = some t := by
    rw [← ht, ← hd1]
    unfold Device.stream?
    rw [Device.str_modStr_same]
  have hkept : d.keepsStes d1 sc ∧ (d1.str sc).nextId = (d.str sc).nextId ∧
      (d1.str sc).xfers = (d.str sc).xfers.filter fun x => !(x.stream == t.id && x.slot == slot && x.ldm.isNone) := by
    rw [← hd1]
    refine ⟨⟨?_, rfl, rfl, rfl⟩, ?_, ?_⟩ <;> rw [Device.str_modStr_same]
  obtain ⟨hkept, hnext, hxfers⟩ := hkept
  have hread : ∀ a n, d1.read a n = d.read a n := fun a n => by
    rw [← hd1]
    rfl
  generalize hg : (fun u : Stream => { u with pieces := u.pieces.filter fun q => q.1 != slot, unitReg := none, again := u.again.filter fun q => q != slot }) = g
  have hd2 := d1.modStream_keepsTransfers sc t.id g
  have hstream2 := Device.stream?_modStream g (fun u => by rw [← hg]) hstream
  obtain ⟨e, x, hissued, heq, hxs, hxslot, hxaddr, hxlen, hxplace, hxdata⟩ := Device.issuePiece_reads slot
    (p := { p with addr := t.movedTo p.addr p.len }) hstream2 (by rw [← hg]; exact hop) (by rw [← hg]) hp
  have hall := Device.keepsTransfers_trans hd2 hissued
  rw [heq, Device.addXfers_one _ _ (by rw [← hg]; exact hop)]
  refine ⟨Device.keepsStes_trans (Device.keepsStes_trans hkept hall.tokeepsStes) ⟨?_, rfl, rfl, rfl⟩,
    { x with id := (e.str sc).nextId, dst := sc, lead := true }, ?_, ?_, hxs, hxslot, hxaddr, hxlen, hxplace, ?_⟩
  · rw [Device.str_modStr_same]
  · rw [Device.str_modStr_same, hall.xfers, hxfers]
  · exact hall.nextId.trans hnext
  · show x.data = d.read x.addr p.len
    rw [hxdata, hxaddr]
    exact hread _ _

/-! ### Recovery of an STE (R255) -/

/-- An STE in recovery from an instant on, until the transfers it watches are done (R255). -/
def Ste.recovering (q : Ste) (now : Nat) (watch : List Nat) : Ste := { q with limited := true, recovery := some now, watch := watch }

theorem Device.recover_eq (d : Device) (sc i x : Nat) : ∃ watch, d.recover sc i x = d.modSte sc i fun q => q.recovering d.now watch := ⟨_, rfl⟩

theorem getElem?_lmod_same {α : Type} (k : Nat) (f : α → α) (xs : List α) : (lmod k f xs)[k]? = xs[k]?.map f := by
  induction xs generalizing k with
  | nil => simp [lmod]
  | cons x xs ih =>
    cases k with
    | zero => rfl
    | succ k => simpa [lmod] using ih k

theorem mem_lmod {α : Type} {k : Nat} {f : α → α} {xs : List α} {y : α} (h : y ∈ lmod k f xs) : y ∈ xs ∨ ∃ x ∈ xs, y = f x := by
  induction xs generalizing k with
  | nil => simp [lmod] at h
  | cons x xs ih =>
    cases k with
    | zero =>
      rw [lmod, List.mem_cons] at h
      obtain rfl | h := h
      · exact Or.inr ⟨x, List.mem_cons_self, rfl⟩
      · exact Or.inl (List.mem_cons_of_mem x h)
    | succ k =>
      rw [lmod, List.mem_cons] at h
      obtain rfl | h := h
      · exact Or.inl List.mem_cons_self
      · obtain hy | ⟨z, hz, hy⟩ := ih h
        · exact Or.inl (List.mem_cons_of_mem x hy)
        · exact Or.inr ⟨z, List.mem_cons_of_mem x hz, hy⟩

theorem Device.recover_noneWait {d : Device} (sc i x : Nat) {n : Nat} (hn : d.noneWait n) : (d.recover sc i x).noneWait n := by
  obtain ⟨watch, hrec⟩ := d.recover_eq sc i x
  rw [hrec]
  refine d.modStr_noneWait sc (fun h => ⟨fun q hq => ?_, h.2⟩) hn
  obtain hq | ⟨q', hq', rfl⟩ := mem_lmod hq
  · exact h.1 q hq
  · exact h.1 q' hq'

/-! ### A first event (R262) -/

/-- The device with a poisoned read noted: counted, and its STE in recovery (R255, R262). -/
def Device.poisonNoted (d : Device) (sc ste x : Nat) : Device := (d.modCnt sc fun c => { c with poisoned := c.poisoned + 1 }).recover sc ste x

theorem Device.poisonNoted_poisoned (d : Device) (sc ste x : Nat) : ((d.poisonNoted sc ste x).cnt sc).poisoned = (d.cnt sc).poisoned + 1 := by
  show ((d.modCnt sc fun c => { c with poisoned := c.poisoned + 1 }).cnt sc).poisoned = _
  rw [Device.cnt_modCnt_same]

/-- What a command's first poisoned read does, wherever it is read again (R255, R262). -/
structure Device.retries (d e : Device) (sc ste : Nat) (m : Cmd) : Prop where
  poisoned : (e.cnt sc).poisoned = (d.cnt sc).poisoned + 1
  ste      : ∃ q, (e.str sc).stes[ste]? = some q ∧ q.limited = true ∧ q.recovery = some d.now
  cmd      : ∃ m', e.cmd? m.stamp = some m' ∧ m'.restarts = 1
  mem      : e.mem = d.mem

theorem Device.retries_of_keepsStes {d e f : Device} {sc i : Nat} {m : Cmd} (h : d.retries e sc i m) (k : e.keepsStes f sc) : d.retries f sc i m := by
  refine ⟨?_, ?_, ?_, k.mem.trans h.mem⟩
  · rw [Device.cnt, k.cnt]
    exact h.poisoned
  · rw [k.stes]
    exact h.ste
  · rw [Device.cmd?_of_cmds k.cmds]
    exact h.cmd

theorem Device.copyAt_of_metered {d e : Device} (hidx : e.indexes = d.indexes) (hb : d.burgeesMetered e) (a : Nat) : e.copyAt a = d.copyAt a := by
  have hplaced : ∀ b, (e.burgee b).placed = (d.burgee b).placed := fun b => by rw [hb b]
  unfold Device.copyAt
  simp only [hidx, hplaced]

/-- A poisoned read noted for its command: nothing of the streams but its STE changes. -/
theorem Device.Serves.retries {d : Device} {ctx : Nat} {t : Ctx} {m : Cmd} (h : d.Serves ctx t m) {sc i : Nat} (x : Nat) (hfirst : m.restarts = 0)
    (hi : i < (d.str sc).stes.length) :
    let e := (d.poisonNoted sc i x).countRestart ctx
    d.retries e sc i m ∧ (∀ a, e.copyAt a = d.copyAt a) ∧ (∀ y, e.stream? sc y = d.stream? sc y) ∧ (e.str sc).xfers = (d.str sc).xfers ∧
      (e.str sc).nextId = (d.str sc).nextId ∧ ∀ a n, e.read a n = d.read a n := by
  have hnoted : (d.poisonNoted sc i x).Serves ctx t m := ⟨h.ctx, h.cmd, h.live⟩
  obtain ⟨⟨honly, -, hburgees⟩, hcmd⟩ := hnoted.counts
  dsimp only
  generalize (d.poisonNoted sc i x).countRestart ctx = e at *
  obtain ⟨watch, hrec⟩ := (d.modCnt sc fun c => { c with poisoned := c.poisoned + 1 }).recover_eq sc i x
  have hstr : e.str sc = { d.str sc with stes := lmod i (fun q => q.recovering d.now watch) (d.str sc).stes } := by
    rw [Device.str_of_streams (d := d.poisonNoted sc i x) (by rw [honly]), Device.poisonNoted, hrec, Device.modSte, Device.str_modStr_same]
    rfl
  refine ⟨⟨?_, ?_, ?_, by rw [honly]; rfl⟩, Device.copyAt_of_metered (by rw [honly]; rfl) hburgees, fun y => ?_, by rw [hstr], by rw [hstr], ?_⟩
  · rw [Device.cnt, honly]
    exact d.poisonNoted_poisoned sc i x
  · rw [hstr]
    refine ⟨_, (getElem?_lmod_same _ _ _).trans (by rw [List.getElem?_eq_getElem hi]; rfl), rfl, rfl⟩
  · exact ⟨_, hcmd, by rw [m.recounted_keeps.2.1, hfirst]⟩
  · unfold Device.stream?
    rw [hstr]
  · exact fun a n => Device.read_of (by rw [honly]; rfl) (by rw [honly]; rfl) a n

/-! ### A poisoned read (R262) -/

/-- What a poisoned read of memory itself does: of the first event, the read again, of the next the teardown (R262). -/
theorem Device.Serves.badRead_first {d : Device} {sc : Nat} {u : Stream} {t : Ctx} {m : Cmd} (h : d.Serves u.ctx t m) (x : Transfer)
    (hfirst : m.restarts = 0) (hi : u.ste < (d.str sc).stes.length) (hcopy : d.copyAt x.addr = none) :
    d.badRead sc u x =
      let e := ((d.poisonNoted sc u.ste x.id).countRestart u.ctx).modStream sc u.id fun u => { u with moved := [] ++ u.moved }
      if u.opcode = 3 || x.ldm.isSome then
        (e.chargeStream sc u (e.meter sc (u.movedTo x.addr x.len) x.len false)).modStr sc fun s => { s with
          nextId := s.nextId + 1, xfers := s.xfers.map fun y => if y.id == x.id then
            { y with id := s.nextId, addr := u.movedTo x.addr x.len, data := e.read (u.movedTo x.addr x.len) y.len, at_ := d.now } else y }
      else e.readAgain sc u.id x.slot := by
  obtain ⟨-, hcopies, -⟩ := h.retries (sc := sc) x.id hfirst hi
  have hback : ((d.poisonNoted sc u.ste x.id).countRestart u.ctx).backToL x.addr = ([], (d.poisonNoted sc u.ste x.id).countRestart u.ctx) := by
    unfold Device.backToL
    rw [hcopies, hcopy]
  unfold Device.badRead
  rw [h.restartsOf, if_neg (by omega)]
  dsimp only
  rw [show (d.modCnt sc fun c => { c with poisoned := c.poisoned + 1 }).recover sc u.ste x.id = d.poisonNoted sc u.ste x.id from rfl, hback]
  rfl

theorem Device.str_trainingLost (d : Device) (a n : Nat) : (d.trainingLost a).str n = d.str n := rfl

/-- A job whose state is lost leaves the STEs, commands and memory alone (R296). -/
theorem Device.trainingLost_keepsStes (d : Device) (a sc : Nat) : d.keepsStes (d.trainingLost a) sc := ⟨rfl, rfl, rfl, rfl⟩

theorem Device.backToL_keepsQueues (d : Device) (a : Nat) : d.keepsQueues (d.backToL a).2 := by
  have hcopies := d.backToL_copies a
  exact ⟨by rw [hcopies], by rw [hcopies], by rw [hcopies], fun n => by rw [hcopies]; exact ⟨rfl, rfl⟩⟩

section
variable {s : State} {sc : Nat} {x : Transfer} {u : Stream} {t : Ctx} {m : Cmd}
  (hx : (s.dev.str sc).xfers.find? (fun y => y.id == x.id) = some x) (hu : s.dev.stream? sc x.stream = some u) (h : s.dev.Serves u.ctx t m)
include hx hu

/-- What an uncorrectable read of a stream gives, beside the jobs whose state it loses. -/
theorem gives_uncorrectableRead_of {P : Device → Prop} (hread : x.write = false) (hP : P ((s.dev.badRead sc u x).trainingLost (s.dev.readAddr sc x.id))) :
    gives (.uncorrectableRead sc x.id) s P := by
  refine gives_of_onDev (F := fun d => (uncorrectableReadEff sc x.id d).trainingLost (d.readAddr sc x.id)) rfl ?_
  unfold uncorrectableReadEff
  rw [hx]
  dsimp only
  rw [hu]
  dsimp only
  rwa [if_neg (by simp [hread])]

include h

theorem gives_uncorrectableRead_slot {p : Piece} (hread : x.write = false) (hfirst : m.restarts = 0) (hi : u.ste < (s.dev.str sc).stes.length)
    (hcopy : s.dev.copyAt x.addr = none) (hop : u.opcode = 1) (hldm : x.ldm = none) (hp : p.write = false)
    (hpieces : u.pieces.filter (fun q => q.1 == x.slot) = [(x.slot, p)]) :
    gives (.uncorrectableRead sc x.id) s fun e => s.dev.retries e sc u.ste m ∧
      (∀ y ∈ (e.str sc).xfers, y.stream = u.id → y.slot = x.slot → y.ldm = none → (s.dev.str sc).nextId ≤ y.id) ∧
      ∃ y ∈ (e.str sc).xfers, y.stream = u.id ∧ y.slot = x.slot ∧ y.addr = u.movedTo p.addr p.len ∧ y.len = p.len ∧ y.place = p.place ∧
        y.data = s.dev.read y.addr p.len := by
  refine gives_uncorrectableRead_of hx hu hread ?_
  rw [h.badRead_first x hfirst hi hcopy]
  dsimp only
  rw [if_neg (by simp [hop, hldm])]
  obtain ⟨hretries, -, hstreams, hxfers, hnext, hmem⟩ := h.retries (sc := sc) x.id hfirst hi
  generalize (s.dev.poisonNoted sc u.ste x.id).countRestart u.ctx = d1 at *
  have hid : u.id = x.stream := Device.stream?_id hu
  have hstream : d1.stream? sc u.id = some u := by rw [hstreams, hid, hu]
  have hkept := d1.modStream_keepsTransfers sc u.id fun u => { u with moved := [] ++ u.moved }
  have htiers : (d1.modStream sc u.id fun u => { u with moved := [] ++ u.moved }).tiers = d1.tiers := rfl
  obtain ⟨hstes, y, hys, hyid, hystream, hyslot, hyaddr, hylen, hyplace, hydata⟩ := Device.readAgain_one (sc := sc) (slot := x.slot)
    (Device.stream?_modStream (fun u => { u with moved := [] ++ u.moved }) (fun _ => rfl) hstream) hop hp hpieces
  generalize (d1.modStream sc u.id fun u => { u with moved := [] ++ u.moved }) = d2 at *
  refine ⟨Device.retries_of_keepsStes (Device.retries_of_keepsStes hretries (Device.keepsStes_trans hkept.tokeepsStes hstes))
    (Device.trainingLost_keepsStes _ _ sc), fun z hz hzs hzslot hzldm => ?_, y, ?_, hystream, hyslot, hyaddr, hylen, hyplace, ?_⟩
  · change z ∈ ((d2.readAgain sc u.id x.slot).str sc).xfers at hz
    rw [hys] at hz
    obtain hz | hz := List.mem_append.1 hz
    · have hdropped := (List.mem_filter.1 hz).2
      simp [hzs, hzslot, hzldm] at hdropped
    · rw [List.mem_singleton.1 hz, hyid, hkept.nextId, hnext]
  · show y ∈ ((d2.readAgain sc u.id x.slot).str sc).xfers
    rw [hys]
    exact List.mem_append_right _ (List.mem_singleton_self y)
  · rw [hydata, ← hmem]
    exact Device.read_of hkept.mem htiers _ _

theorem gives_uncorrectableRead_piece (hread : x.write = false) (hfirst : m.restarts = 0) (hi : u.ste < (s.dev.str sc).stes.length)
    (hcopy : s.dev.copyAt x.addr = none) (hop : u.opcode = 3 ∨ x.ldm.isSome = true) :
    gives (.uncorrectableRead sc x.id) s fun e => s.dev.retries e sc u.ste m ∧
      ∃ y ∈ (e.str sc).xfers, y = { x with id := (s.dev.str sc).nextId, addr := u.movedTo x.addr x.len,
                                           data := s.dev.read (u.movedTo x.addr x.len) x.len, at_ := s.dev.now } := by
  refine gives_uncorrectableRead_of hx hu hread ?_
  rw [h.badRead_first x hfirst hi hcopy]
  dsimp only
  rw [if_pos (by simpa using hop)]
  obtain ⟨hretries, -, -, hxfers, hnext, hmem⟩ := h.retries (sc := sc) x.id hfirst hi
  generalize (s.dev.poisonNoted sc u.ste x.id).countRestart u.ctx = d1 at *
  have hkept := d1.modStream_keepsTransfers sc u.id fun u => { u with moved := [] ++ u.moved }
  have hread2 : ∀ a n, (d1.modStream sc u.id fun u => { u with moved := [] ++ u.moved }).read a n = s.dev.read a n := hmem
  generalize (d1.modStream sc u.id fun u => { u with moved := [] ++ u.moved }) = d2 at *
  have hcharged := Device.keepsTransfers_trans hkept (d2.chargeStream_keepsTransfers sc u (d2.meter sc (u.movedTo x.addr x.len) x.len false))
  generalize d2.chargeStream sc u (d2.meter sc (u.movedTo x.addr x.len) x.len false) = d3 at *
  refine ⟨Device.retries_of_keepsStes (Device.retries_of_keepsStes hretries hcharged.tokeepsStes) ⟨?_, rfl, rfl, rfl⟩, _, ?_, rfl⟩
  · rw [Device.str_trainingLost, Device.str_modStr_same]
  · rw [Device.str_trainingLost, Device.str_modStr_same]
    dsimp only
    rw [hcharged.nextId, hnext, hcharged.xfers, hxfers]
    refine List.mem_map.2 ⟨x, List.mem_of_find?_eq_some hx, ?_⟩
    rw [if_pos (by simp), hread2]

theorem gives_uncorrectableRead_ends (hread : x.write = false) (hagain : 1 ≤ m.restarts) (hr : m.remote = none) (hh : s.dev.hostThere m.fn)
    (hq : (s.dev.qp m.fn m.qid).isSome = true) (hnone : ∀ j, s.dev.noneWait j) :
    gives (.uncorrectableRead sc x.id) s fun e => (e.cnt sc).poisoned = (s.dev.cnt sc).poisoned + 1 ∧
      s.dev.posted e m.fn m.qid m.cid stUncorrectable 0 ∧ e.cmd? m.stamp = none := by
  refine gives_uncorrectableRead_of hx hu hread ?_
  have hnoted : (s.dev.poisonNoted sc u.ste x.id).Serves u.ctx t m := ⟨h.ctx, h.cmd, h.live⟩
  obtain ⟨hposted, hgone, hsettled⟩ := hnoted.tornDownCounted stUncorrectable hr hh hq fun j => Device.recover_noneWait _ _ _ (hnone j)
  unfold Device.badRead
  rw [h.restartsOf, if_pos hagain]
  refine ⟨?_, hposted, hgone⟩
  show ((((s.dev.poisonNoted sc u.ste x.id).countRestart u.ctx).tornDown u.ctx stUncorrectable).cnt sc).poisoned = _
  rw [Device.cnt_of_scCnt hsettled.cnt]
  exact s.dev.poisonNoted_poisoned _ _ _

theorem gives_transferTimeout_ends (hwrite : x.write = true) (hr : m.remote = none) (hh : s.dev.hostThere m.fn)
    (hq : (s.dev.qp m.fn m.qid).isSome = true) (hnone : ∀ j, s.dev.noneWait j) :
    gives (.transferTimeout sc x.id) s fun e => e.now = max s.dev.now (x.at_ + 400000) ∧ (e.cnt sc).timeouts = (s.dev.cnt sc).timeouts + 1 ∧
      s.dev.posted e m.fn m.qid m.cid stUncorrectable 0 ∧ e.cmd? m.stamp = none := by
  refine gives_of_onDev (F := fun d => (transferTimeoutEff sc x.id d).trainingLost (d.readAddr sc x.id)) rfl ?_
  unfold transferTimeoutEff
  rw [hx]
  dsimp only
  rw [hu]
  dsimp only
  rw [if_pos hwrite]
  generalize hd1 : ((s.dev.by (x.at_ + 400000)).modCnt sc fun c => { c with timeouts := c.timeouts + 1 }).recover sc u.ste x.id = d1
  have hnone1 : ∀ j, d1.noneWait j := fun j => hd1 ▸ Device.recover_noneWait _ _ _ (hnone j)
  have hserves1 : d1.Serves u.ctx t m := hd1 ▸ ⟨h.ctx, h.cmd, h.live⟩
  have hhost1 : d1.hostThere m.fn := hd1 ▸ hh
  have hqp1 : d1.qp m.fn m.qid = s.dev.qp m.fn m.qid := hd1 ▸ rfl
  have hcnt1 : (d1.cnt sc).timeouts = (s.dev.cnt sc).timeouts + 1 := by
    rw [← hd1]
    show (((s.dev.by (x.at_ + 400000)).modCnt sc fun c => { c with timeouts := c.timeouts + 1 }).cnt sc).timeouts = _
    rw [Device.cnt_modCnt_same]
    rfl
  have hnow1 : d1.now = max s.dev.now (x.at_ + 400000) := hd1 ▸ rfl
  have hcopies := d1.backToL_copies x.addr
  have hkept := d1.backToL_keepsQueues x.addr
  generalize (d1.backToL x.addr).2 = d2 at *
  have hstreams : d2.streams = d1.streams := by rw [hcopies]
  have hserves2 : d2.Serves u.ctx t m := by
    rw [hcopies]
    exact ⟨hserves1.ctx, hserves1.cmd, hserves1.live⟩
  obtain ⟨hposted, hgone, hsettled⟩ := hserves2.tornDownCounted stUncorrectable hr (Device.keepsQueues_hostThere hkept hhost1)
    (by rw [Device.keepsQueues_qp hkept, hqp1]; exact hq) fun j => Device.noneWait_of_streams hstreams (hnone1 j)
  refine ⟨(hsettled.now.trans hkept.2.1).trans hnow1, ?_, Device.posted_of_qp ((Device.keepsQueues_qp hkept _ _).trans hqp1) hposted, hgone⟩
  show (((d2.countRestart u.ctx).tornDown u.ctx stUncorrectable).cnt sc).timeouts = _
  rw [Device.cnt_of_scCnt hsettled.cnt, Device.cnt_of_scCnt (by rw [hcopies] : d2.scCnt = d1.scCnt), hcnt1]

end

end Sys2Proof.Machine
end

section
/-! Tag-limited mode ends, and the progress monitor's sample of an SC (R255, R264, R265). -/

namespace Sys2Proof.Machine

/-! ### TAG_LIMITED_EXIT (R255) -/

theorem gives_tagLimitedExit {s : State} {sc i r : Nat} {q : Ste} (hq : (s.dev.str sc).stes[i]? = some q) (hr : q.recovery = some r)
    (hdone : ∀ x ∈ (s.dev.str sc).xfers, x.id ∉ q.watch) :
    gives (.tagLimitedExit sc i) s fun e => (e.str sc).stes[i]? = some { q with limited := s.dev.scWithheld sc, recovery := none, watch := [] } ∧
      e.now = max s.dev.now (r + 1000000) ∧ (e.str sc).xfers = (s.dev.str sc).xfers ∧ e = { s.dev with now := e.now, streams := e.streams } := by
  refine gives_of_onDev (F := tagLimitedExitEff sc i) rfl ?_
  have hopen : (q.recovery.isNone || (s.dev.str sc).xfers.any fun x => q.watch.contains x.id) = false := by
    simpa [hr] using hdone
  unfold tagLimitedExitEff
  rw [hq]
  dsimp only
  rw [hopen, if_neg Bool.false_ne_true, hr]
  refine ⟨?_, rfl, ?_, rfl⟩
  · rw [Device.modSte, Device.str_modStr_same]
    exact (getElem?_lmod_same _ _ _).trans (congrArg _ hq)
  · rw [Device.modSte, Device.str_modStr_same]
    rfl

/-! ### PROGRESS_SAMPLE (R264, R265) -/

theorem gives_progressSample_free {s : State} {sc : Nat} (hready : s.dev.ready = true) (hnone : s.dev.waitCycles sc = []) :
    gives (.progressSample sc) s fun e => e.now = s.dev.now + 1000 ∧ (e.str sc).blocked = [] ∧
      e = { s.dev with now := e.now, streams := e.streams } := by
  refine gives_of_onDev (F := progressSampleEff sc) rfl ?_
  unfold progressSampleEff
  rw [if_neg (by simp [hready]), hnone]
  refine ⟨Nat.max_eq_right (Nat.le_add_right _ _), ?_, rfl⟩
  show ((Device.modStr _ sc _).str sc).blocked = []
  rw [Device.str_modStr_same]
  rfl

theorem Device.sem_modStr {d : Device} {sc : Nat} {g : Streams → Streams} (hg : ∀ s, (g s).sems = s.sems) (n k : Nat) :
    (d.modStr sc g).sem n k = d.sem n k := by
  unfold Device.sem
  by_cases hn : n = sc
  · subst hn
    rw [Device.str_modStr_same, hg]
  · rw [Device.str_modStr_other _ _ hn]

theorem Device.voidBound_streams (d : Device) (k : Nat) : (d.voidBound k).streams = d.streams := by
  rw [(d.voidBound_counts k).1]

/-- What a drain leaves of the ring's pair: its filled slots stand in its escape area (R263, R265; log entry 34). -/
theorem Device.drainRing_sem (d : Device) (sc k : Nat) :
    (d.drainRing sc k).sem sc k = (d.sem sc k).drained ∧ (d.drainRing sc k).now = d.now := by
  have hstored : ∀ hs : List HeldSlot, d.stores (hs.foldl (fun e h => e.writeMirrored (d.sem sc k).escBase (h.slot * (d.sem sc k).slotBytes)
      (e.placeRead sc (d.sem sc k).ringAddr (h.slot * (d.sem sc k).slotBytes) (d.sem sc k).slotBytes)) d) :=
    fun hs => Device.foldl_stores _ (fun e h => e.writeMirrored_stores _ _ _) hs d
  have hall := hstored (d.sem sc k).drainable
  unfold Device.drainRing
  dsimp only
  generalize List.foldl _ d (d.sem sc k).drainable = e at *
  constructor
  · rw [Device.sem_modSem_same, Device.sem_of_streams (d := d) (by rw [hall])]
  · rw [(e.modSem_keeps sc k _).1, hall]

/-- A cycle blocked for too long drains the first of its rings in order that holds no escape (R265). -/
theorem Device.unblock_drains {d : Device} {sc k : Nat} {c : BlockedCycle}
    (hk : (orderRings (d.ringBefore sc) (c.rings.filter fun j => decide (j < 64))).find? (fun j => (d.sem sc j).escape.isEmpty) = some k) :
    (d.unblock sc c).sem sc k = (d.sem sc k).drained ∧ (d.unblock sc c).now = d.now := by
  unfold Device.unblock
  dsimp only
  rw [hk]
  dsimp only
  generalize hd1 : d.account _ _ _ = d1
  have hsem1 : d1.sem sc k = d.sem sc k := Device.sem_of_streams (by simp [← hd1]) sc k
  obtain ⟨hsem2, hnow2⟩ := d1.drainRing_sem sc k
  generalize hd3 : (d1.drainRing sc k).stall sc _ _ = d3
  have hsem3 : d3.sem sc k = (d.sem sc k).drained := by
    rw [← hd3, ← hsem1, ← hsem2]
    exact Device.sem_modStr (by intro; rfl) sc k
  have hnow3 : d3.now = d.now := by
    rw [← hd3]
    exact hnow2.trans (by simp [← hd1])
  split
  · next st _ =>
    exact ⟨(Device.sem_of_streams (d3.voidBound_streams st) sc k).trans hsem3, by rw [(d3.voidBound_counts st).1]; exact hnow3⟩
  · exact ⟨hsem3, hnow3⟩

theorem Device.ringBefore_modStr {d : Device} {sc : Nat} {g : Streams → Streams} (hg : ∀ s, (g s).sems = s.sems) :
    (d.modStr sc g).ringBefore sc = d.ringBefore sc := by
  funext a b
  unfold Device.ringBefore
  rw [Device.sem_modStr hg, Device.sem_modStr hg]

/-- The one cycle of an SC's wait-for graph, as a sample finds it blocked (R264). -/
def BlockedCycle.sampled (c : BlockedCycle) (now : Nat) : BlockedCycle := { c with blocked := c.blocked + (now - c.at_), at_ := now }

theorem progressSampleEff_late {d : Device} {sc : Nat} {c : BlockedCycle} (hready : d.ready = true) (hcycle : d.waitCycles sc = [c.rings])
    (hold : (d.str sc).blocked = [c]) (hseen : c.seen = c.rings.map (d.ringSeen sc)) (hexcused : ∀ j ∈ c.rings, d.ringExcused sc j = false)
    (hlate : c.at_ + 50000 < c.blocked + (d.now + 1000)) :
    progressSampleEff sc d = Device.unblock ((d.by (d.now + 1000)).modStr sc fun s => { s with blocked := [] }) sc (c.sampled (d.by (d.now + 1000)).now) := by
  have hnow : (d.by (d.now + 1000)).now = d.now + 1000 := Nat.max_eq_right (Nat.le_add_right _ _)
  have hfree : c.rings.any (d.ringExcused sc) = false := by
    rw [List.any_eq_false]
    exact fun j hj => by simp [hexcused j hj]
  have hblocked : decide (50000 < (c.sampled (d.by (d.now + 1000)).now).blocked) = true := by
    rw [decide_eq_true_iff, hnow, BlockedCycle.sampled]
    dsimp only
    omega
  unfold progressSampleEff
  rw [if_neg (by simp [hready]), hcycle, hold]
  dsimp only
  rw [List.map_singleton, List.find?_cons_of_pos (by simp [hseen]), hfree]
  dsimp only
  rw [if_neg Bool.false_ne_true]
  have hlateOnly : [c.sampled (d.by (d.now + 1000)).now].filter (fun c => decide (50000 < c.blocked)) = [c.sampled (d.by (d.now + 1000)).now] := by
    exact List.filter_cons_of_pos (by exact hblocked)
  change List.foldl (fun d c => d.unblock sc c) (Device.modStr _ sc fun s => { s with blocked := ([c.sampled (d.by (d.now + 1000)).now].filter
    fun c' => !([c.sampled (d.by (d.now + 1000)).now].filter fun c => decide (50000 < c.blocked)).contains c') })
    ([c.sampled (d.by (d.now + 1000)).now].filter fun c => decide (50000 < c.blocked)) = _
  rw [hlateOnly, List.foldl_cons, List.foldl_nil, List.filter_cons_of_neg (by simp), List.filter_nil]

theorem gives_progressSample_drains {s : State} {sc k : Nat} {c : BlockedCycle} (hready : s.dev.ready = true) (hcycle : s.dev.waitCycles sc = [c.rings])
    (hold : (s.dev.str sc).blocked = [c]) (hseen : c.seen = c.rings.map (s.dev.ringSeen sc)) (hexcused : ∀ j ∈ c.rings, s.dev.ringExcused sc j = false)
    (hlate : c.at_ + 50000 < c.blocked + (s.dev.now + 1000))
    (hk : (orderRings (s.dev.ringBefore sc) (c.rings.filter fun j => decide (j < 64))).find? (fun j => (s.dev.sem sc j).escape.isEmpty) = some k) :
    gives (.progressSample sc) s fun e => e.now = s.dev.now + 1000 ∧ (e.sem sc k).full = 0 ∧
      (e.sem sc k).filling = (s.dev.sem sc k).filling - (s.dev.sem sc k).filledLast ∧
      (e.sem sc k).empty = (s.dev.sem sc k).empty + (s.dev.sem sc k).full + (s.dev.sem sc k).filledLast ∧
      (e.sem sc k).escape = (s.dev.sem sc k).drainable := by
  refine gives_of_onDev (F := progressSampleEff sc) rfl ?_
  rw [progressSampleEff_late hready hcycle hold hseen hexcused hlate]
  have hnow : (s.dev.by (s.dev.now + 1000)).now = s.dev.now + 1000 := Nat.max_eq_right (Nat.le_add_right _ _)
  have hescape : (s.dev.sem sc k).escape = [] := by simpa using List.find?_some hk
  generalize hd1 : (s.dev.by (s.dev.now + 1000)).modStr sc (fun s => { s with blocked := [] }) = d1
  have hsem : ∀ j, d1.sem sc j = s.dev.sem sc j := fun j => by
    rw [← hd1]
    exact Device.sem_modStr (by intro; rfl) sc j
  have hbefore : d1.ringBefore sc = s.dev.ringBefore sc := by
    rw [← hd1]
    exact Device.ringBefore_modStr (by intro; rfl)
  obtain ⟨hdrained, hnow1⟩ := Device.unblock_drains (d := d1) (k := k) (c := c.sampled (s.dev.by (s.dev.now + 1000)).now) (by
    rw [hbefore, ← hk]
    exact congrArg (fun f => List.find? f _) (funext fun j => by rw [hsem]))
  rw [hdrained, hsem, hnow1, ← hd1]
  exact ⟨hnow, rfl, rfl, rfl, by rw [SemPair.drained, hescape]; rfl⟩

end Sys2Proof.Machine
end

section
/-! A context takes its SC: what it goes over with, its dip point, its spill done and its banks filled again (R341, R355). -/

namespace Sys2Proof.Machine

/-! ### SPILL_DONE (R355) -/

theorem Device.ctx?_modCtx_same {d : Device} {id : Nat} {k : Ctx} (g : Ctx → Ctx) (hg : ∀ c, c.id = id → (g c).id = id) (h : d.ctx? id = some k) :
    (d.modCtx id g).ctx? id = some (g k) := by
  have hid : k.id = id := by simpa using List.find?_some h
  have hsame : ((fun c : Ctx => c.id == id) ∘ fun c => if c.id == id then g c else c) = fun c => c.id == id := by
    funext c
    by_cases hc : c.id = id
    · simp [hc, hg c hc]
    · simp [hc]
  unfold Device.ctx? at h ⊢
  rw [Device.modCtx]
  dsimp only
  rw [List.find?_map, hsame, h, Option.map_some, if_pos (by simp [hid])]

theorem gives_spillDone {s : State} {sc i : Nat} (hi : (s.dev.sc sc).starting = some i) :
    gives (.spillDone sc) s fun e => (e.sc sc).running = some i ∧ (e.sc sc).starting = none ∧
      (∀ k, s.dev.ctx? i = some k → e.ctx? i = some { k with state := .running, started := true }) ∧
      e = { s.dev with scs := e.scs, ctxs := e.ctxs } := by
  refine gives_of_onDev (F := spillDoneEff sc) rfl ?_
  unfold spillDoneEff
  rw [hi]
  dsimp only
  rw [Device.sc_modCtx, Device.sc_modSc_same]
  refine ⟨rfl, rfl, fun k hk => ?_, rfl⟩
  exact Device.ctx?_modCtx_same (d := s.dev.modSc sc _) _ (fun _ hc => hc) hk

/-! ### A context takes its SC's engines again (R191, R239, R261) -/

/-- What a context that takes an SC again keeps: the contexts, the SCs' schedulers and memory. -/
structure Device.keepsPlaces (d e : Device) : Prop where
  ctxs  : e.ctxs = d.ctxs
  scs   : e.scs = d.scs
  mem   : e.mem = d.mem
  tiers : e.tiers = d.tiers

/-- What moving the engines' state to its contexts' spill areas keeps: the streams and the running sums spilled as well. -/
structure Device.goesOver (d e : Device) : Prop extends d.keepsPlaces e where
  streams : e.streams = d.streams
  acc     : ∀ n, (e.eng n).savedAcc = (d.eng n).savedAcc

theorem Device.keepsPlaces_trans {d e f : Device} (h : d.keepsPlaces e) (k : e.keepsPlaces f) : d.keepsPlaces f :=
  ⟨k.ctxs.trans h.ctxs, k.scs.trans h.scs, k.mem.trans h.mem, k.tiers.trans h.tiers⟩

theorem Device.goesOver_refl (d : Device) : d.goesOver d := ⟨⟨rfl, rfl, rfl, rfl⟩, rfl, fun _ => rfl⟩

theorem Device.goesOver_trans {d e f : Device} (h : d.goesOver e) (k : e.goesOver f) : d.goesOver f :=
  ⟨Device.keepsPlaces_trans h.tokeepsPlaces k.tokeepsPlaces, k.streams.trans h.streams, fun n => (k.acc n).trans (h.acc n)⟩

theorem Device.modEng_goesOver (d : Device) (sc : Nat) {g : Engines → Engines} (hg : (g (d.eng sc)).savedAcc = (d.eng sc).savedAcc) :
    d.goesOver (d.modEng sc g) := by
  refine ⟨⟨rfl, rfl, rfl, rfl⟩, rfl, fun n => ?_⟩
  by_cases hn : n = sc
  · subst hn
    rw [Device.eng_modEng_same, hg]
  · rw [Device.eng_modEng_other _ _ hn]

theorem Device.countSpill_goesOver (d : Device) (sc ctx n : Nat) : d.goesOver (d.countSpill sc ctx n) := by
  unfold Device.countSpill
  split
  · exact d.goesOver_refl
  · next k _ =>
    split
    · exact d.goesOver_refl
    · exact ⟨⟨by simp, by simp, by simp, by simp⟩, by simp, fun n => by rw [Device.eng_of_engines (d := d) (by simp)]⟩

theorem Device.spillVe_goesOver (d : Device) (sc ctx : Nat) : d.goesOver (d.spillVe sc ctx) := by
  unfold Device.spillVe
  split
  · exact d.goesOver_refl
  · split
    · exact d.goesOver_refl
    · exact Device.goesOver_trans (d.modEng_goesOver sc rfl) (Device.countSpill_goesOver _ _ _ _)

theorem Device.spillTiles_goesOver (d : Device) (sc ctx : Nat) (tiles : List Nat) : d.goesOver (d.spillTiles sc ctx tiles) := by
  unfold Device.spillTiles
  induction tiles generalizing d with
  | nil => exact d.goesOver_refl
  | cons b tiles ih =>
    rw [List.foldl_cons]
    refine Device.goesOver_trans ?_ (ih _)
    split
    · split
      · split
        · exact d.goesOver_refl
        · exact Device.goesOver_trans (d.modEng_goesOver sc rfl) (Device.countSpill_goesOver _ _ _ _)
      · exact d.goesOver_refl
    · exact d.goesOver_refl

/-- Rings return where no slot is to be read again and nothing waits on the SC. -/
theorem Device.fillRings_keepsPlaces {d : Device} {sc : Nat} (ctx : Nat) (hagain : ∀ t ∈ (d.str sc).running, t.again = []) (hnone : d.noneWait sc) :
    d.keepsPlaces (d.fillRings sc ctx) := by
  unfold Device.fillRings
  dsimp only
  generalize hd1 : d.modStr sc _ = d1
  have hnone1 : d1.noneWait sc := hd1 ▸ d.modStr_noneWait sc (fun h => h) hnone
  have hlist : (((d1.str sc).running.filter (·.ctx == ctx)).flatMap fun t => t.again.map fun s => (t.id, s)) = [] := by
    rw [List.flatMap_eq_nil_iff]
    intro t ht
    have hrun := (List.mem_filter.1 ht).1
    rw [← hd1, Device.str_modStr_same] at hrun
    obtain ⟨u, hu, rfl⟩ := List.mem_map.1 hrun
    have hnever : (if u.ctx == ctx then { u with yielded := false } else u).again = [] := by
      split <;> exact hagain u hu
    rw [hnever]
    rfl
  rw [hlist, List.foldl_nil, Device.startWaiting_idle hnone1, ← hd1]
  exact ⟨rfl, rfl, rfl, rfl⟩

/-- A context without running sums to fill, slots to read again or streams that wait takes its SC again. -/
theorem Device.resumeOn_keepsPlaces {d : Device} {sc : Nat} {k : Ctx} (hacc : tget [] k.id (d.eng sc).savedAcc = [])
    (hagain : ∀ t ∈ (d.str sc).running, t.again = []) (hnone : d.noneWait sc) : d.keepsPlaces (d.resumeOn sc k) := by
  unfold Device.resumeOn
  dsimp only
  generalize hd1 : (if k.usesVe = true then d.spillVe sc k.id else d) = d1
  have h1 : d.goesOver d1 := by
    rw [← hd1]
    split
    · exact d.spillVe_goesOver sc k.id
    · exact d.goesOver_refl
  have h2 := Device.goesOver_trans h1 (d1.spillTiles_goesOver sc k.id ((tget [] k.id (d1.eng sc).savedTb).map (·.1)))
  generalize d1.spillTiles sc k.id ((tget [] k.id (d1.eng sc).savedTb).map (·.1)) = d2 at *
  rw [h2.acc, hacc, List.foldl_nil]
  generalize hd4 : d2.modEng sc _ = d4
  have hstreams : d4.streams = d.streams := by rw [← hd4]; exact h2.streams
  have h4 : d.keepsPlaces d4 := by
    rw [← hd4]
    exact ⟨h2.ctxs, h2.scs, h2.mem, h2.tiers⟩
  refine Device.keepsPlaces_trans h4 (Device.fillRings_keepsPlaces _ ?_ (Device.noneWait_of_streams hstreams hnone))
  rw [Device.str_of_streams hstreams]
  exact hagain

/-- A unit whose command has no filter needs no slot of the Filter Unit (R203). -/
theorem Device.takeFu_unfiltered {d : Device} {k : Ctx} (h : ∀ m, k.cmd.bind d.cmd? = some m → m.snap.bind (·.filter) = none) (sc : Nat) :
    d.takeFu sc k = some d := by
  have hnone : ((k.cmd.bind d.cmd?).bind fun c => (c.snap.bind (·.filter)).map fun p => (p, c.ps)) = none := by
    cases hm : k.cmd.bind d.cmd? with
    | none => rfl
    | some m => rw [Option.bind_some, h m hm]; rfl
  unfold Device.takeFu
  rw [hnone]

/-! ### Mirrored areas read (R310) -/

/-- Counting the reads of a mirrored area changes its channels' counters alone. -/
theorem Device.mirrorCount_only (d : Device) (a n : Nat) :
    d.mirrorCount a n = { d with tiers := { d.tiers with chans := (d.mirrorCount a n).tiers.chans } } := by
  have hnote : ∀ (e : Device) (i : Nat), d.mirrorNote a e i = { e with tiers := { e.tiers with chans := (d.mirrorNote a e i).tiers.chans } } := by
    intro e i
    unfold Device.mirrorNote
    split
    · rfl
    · cases d.chanOf (primaryAt a (512 * i)) <;> rfl
  have hfold : ∀ (is : List Nat) (e : Device),
      is.foldl (d.mirrorNote a) e = { e with tiers := { e.tiers with chans := (is.foldl (d.mirrorNote a) e).tiers.chans } } := by
    intro is
    induction is with
    | nil => exact fun _ => rfl
    | cons i is ih =>
      intro e
      rw [List.foldl_cons, ih, hnote]
  exact hfold _ d

theorem Device.chanOf_unit {d : Device} {a b : Nat} (ha : a < d.fCap) (hb : b < d.fCap) (h : a / 512 = b / 512) : d.chanOf a = d.chanOf b := by
  simp only [Device.chanOf, Device.area, if_pos ha, if_pos hb, h]

/-- A unit of a mirrored area is read from one copy, byte for byte (R310). -/
theorem Device.mirrorAt_unit {d : Device} {a : Nat} (halign : a % 2048 = 0) (hcap : a + 0x80000 ≤ d.fCap) {j : Nat} (hj : j < 0x40000) :
    d.mirrorAt a (512 * (j / 512)) + j % 512 = d.mirrorAt a j := by
  have hprimary : primaryAt a (512 * (j / 512)) + j % 512 = primaryAt a j := by
    unfold primaryAt
    omega
  have hserves : d.unitServes (primaryAt a (512 * (j / 512))) = d.unitServes (primaryAt a j) := by
    unfold Device.unitServes
    rw [Device.chanOf_unit (a := primaryAt a (512 * (j / 512))) (b := primaryAt a j)] <;> unfold primaryAt <;> omega
  unfold Device.mirrorAt
  rw [hserves]
  split <;> omega

/-- The bytes of a bank's spill area, each where its unit is read (R310). -/
theorem Device.getD_mirrorRead {d : Device} {a : Nat} (halign : a % 2048 = 0) (hcap : a + 0x80000 ≤ d.fCap) {j : Nat} (hj : j < 0x40000) :
    (d.mirrorRead a bankBytes).getD j 0 = d.byteAt (d.mirrorAt a j) := by
  have hsplit : j = 512 * (j / 512) + j % 512 := by omega
  have hrows : d.mirrorRead a bankBytes = (List.range 512).flatMap fun i => (List.range 512).map fun r => d.byteAt (d.mirrorAt a (512 * i) + r) := by
    unfold Device.mirrorRead
    simp only [Device.read_eq_byteAt]
    rfl
  rw [hrows]
  conv_lhs => rw [hsplit]
  rw [getD_rows (fun i r => d.byteAt (d.mirrorAt a (512 * i) + r)) 0 512 512 (j / 512) (j % 512) (by omega) (by omega), Device.mirrorAt_unit halign hcap hj]

theorem bankBytes_eq : bankBytes = 0x40000 := rfl

theorem Device.length_mirrorRead (d : Device) (a : Nat) : (d.mirrorRead a bankBytes).length = bankBytes := by
  have hlen : ∀ n, (d.mirrorRead a n).length = n / 512 * 512 := fun n => by
    simp [Device.mirrorRead, Device.read_eq_byteAt, List.length_flatMap]
  rw [hlen, bankBytes_eq]

/-! ### CONTEXT_FILL (R355) -/

/-- The device with a spilled bank's bytes back in their place, and its spill area free (R355). -/
def Device.bankFilled (d : Device) (sc n a : Nat) : Device :=
  ((d.mirrorCount a bankBytes).write (scBase sc + bankBytes * n) (d.mirrorRead a bankBytes)).freeF a

theorem Device.byteAt_freeF (d : Device) (a x : Nat) : (d.freeF a).byteAt x = d.byteAt x := rfl

/-- Filling a bank changes memory and the tiers alone. -/
theorem Device.bankFilled_only (d : Device) (sc n a : Nat) : ∃ mem tiers, d.bankFilled sc n a = { d with mem := mem, tiers := tiers } := by
  unfold Device.bankFilled
  rw [d.mirrorCount_only]
  exact ⟨_, _, rfl⟩

/-- The bank's bytes are those of its spill area, and no other byte changes. -/
theorem Device.bankFilled_bytes {d : Device} {a : Nat} (sc n : Nat) (herased : d.tiers.erased = []) (halign : a % 2048 = 0) (hcap : a + 0x80000 ≤ d.fCap) :
    (∀ j, j < bankBytes → (d.bankFilled sc n a).byteAt (scBase sc + bankBytes * n + j) = d.byteAt (d.mirrorAt a j)) ∧
      d.sameMemOutside (d.bankFilled sc n a) (scBase sc + bankBytes * n) bankBytes := by
  have hcount := d.mirrorCount_only a bankBytes
  have hmem := d.mirrorCount_mem a bankBytes
  have hlen := d.length_mirrorRead a
  have herased1 : (d.mirrorCount a bankBytes).tiers.erased = [] := by rw [hcount]; exact herased
  have hbyte : ∀ x, (d.mirrorCount a bankBytes).byteAt x = d.byteAt x := fun x => by
    unfold Device.byteAt
    rw [herased1, herased, hmem]
  have hfreed : ∀ x, (d.bankFilled sc n a).byteAt x =
      ((d.mirrorCount a bankBytes).write (scBase sc + bankBytes * n) (d.mirrorRead a bankBytes)).byteAt x := fun x => Device.byteAt_freeF _ a x
  refine ⟨fun j hj => ?_, fun x hx => ?_⟩
  · have hin : j < 0x40000 := by
      rw [bankBytes_eq] at hj
      exact hj
    rw [hfreed, Device.byteAt_write_in _ _ _ _ herased1 (by rw [hlen]; exact hj), Device.getD_mirrorRead halign hcap hin]
  · rw [hfreed, Device.byteAt_write_out _ _ _ _ herased1 (by rw [hlen]; exact hx), hbyte]

/-- A context of one spilled bank with its bank and pairs back, before it resumes (R355). -/
def Ctx.filledBack (k : Ctx) (n : Nat) : Ctx :=
  { k with banks := k.banks ++ [n], spilled := [], rrt := k.rrt.filter (fun r => r.state != .parked), state := .yielded }

/-- The device with a context's one spilled bank back and the context ready to resume. -/
def Device.contextBack (d : Device) (k : Ctx) (i n a : Nat) : Device := (d.bankFilled k.sc n a).modCtx i fun _ => k.filledBack n

/-- A spilled context whose bank is free resumes where its SC is free, and otherwise waits for its dip point (R203, R355). -/
theorem contextFillEff_one {d : Device} {k : Ctx} {i n a : Nat} (hk : d.ctx? i = some k) (hstate : k.state = .spilled) (hspilled : k.spilled = [(n, a)])
    (hbank : d.bankHolder k.sc n = none) (hrrt : ∀ r ∈ k.rrt, r.state ≠ .parked)
    (hfilter : ∀ m, k.cmd.bind d.cmd? = some m → m.snap.bind (·.filter) = none)
    (hpairs : ∀ p ∈ tget [] i (d.str k.sc).saved, (d.sem k.sc p.1).active = false) :
    contextFillEff i d = if ((d.contextBack k i n a).sc k.sc).running.isSome then d.contextBack k i n a
      else (((d.contextBack k i n a).resumeOn k.sc (k.filledBack n)).modCtx i fun k => { k with state := .running }).modSc k.sc
        fun s => { s with running := some i } := by
  have hparked : (k.rrt.filter fun r => r.state == .parked) = [] := by
    rw [List.filter_eq_nil_iff]
    exact fun r hr => by simpa using hrrt r hr
  have hpairsFree : ((tget [] i (d.str k.sc).saved).all fun p => !(d.sem k.sc p.1).active) = true := by
    rw [List.all_eq_true]
    exact fun p hp => by rw [hpairs p hp]; rfl
  have hbankFree : (k.spilled.all fun p => (d.bankHolder k.sc p.1).isNone) = true := by rw [hspilled]; simp [hbank]
  have hcmds : (d.contextBack k i n a).cmds = d.cmds := by
    obtain ⟨mem, tiers, hfilled⟩ := d.bankFilled_only k.sc n a
    rw [Device.contextBack, hfilled]
    rfl
  have hfu : (d.contextBack k i n a).takeFu k.sc (k.filledBack n) = some (d.contextBack k i n a) :=
    Device.takeFu_unfiltered (fun m hm => hfilter m (by
      rw [← hm]
      exact congrArg k.cmd.bind (funext fun c => (Device.cmd?_of_cmds hcmds c).symm))) k.sc
  have hback : { k with banks := k.banks ++ [n], spilled := [], rrt := k.rrt.filter (fun r => r.state != .parked), state := .yielded } =
      k.filledBack n := rfl
  unfold contextFillEff
  rw [hk]
  dsimp only
  rw [hbankFree, hpairsFree, hstate, if_neg (by decide), hparked, List.foldl_nil, hspilled, List.foldl_cons, List.foldl_nil, List.map_singleton, hback]
  rw [show (((d.mirrorCount a bankBytes).write (scBase k.sc + bankBytes * n) (d.mirrorRead a bankBytes)).freeF a).modCtx i (fun _ => k.filledBack n) =
    d.contextBack k i n a from rfl, hfu]

theorem Device.byteAt_of {d e : Device} (hmem : e.mem = d.mem) (htiers : e.tiers = d.tiers) (x : Nat) : e.byteAt x = d.byteAt x := by
  unfold Device.byteAt
  rw [hmem, htiers]

/-- A context of one spilled bank, whose bank is free and whose area is aligned and within the F-tier: what CONTEXT_FILL needs to fill it (R355). -/
structure Device.CanFill (d : Device) (k : Ctx) (i n a : Nat) : Prop where
  live    : d.ctx? i = some k
  state   : k.state = .spilled
  spilled : k.spilled = [(n, a)]
  bank    : d.bankHolder k.sc n = none
  replies : ∀ r ∈ k.rrt, r.state ≠ .parked
  known   : d.tiers.erased = []
  aligned : a % 2048 = 0
  inside  : a + 0x80000 ≤ d.fCap
  filter  : ∀ m, k.cmd.bind d.cmd? = some m → m.snap.bind (·.filter) = none
  pairs   : ∀ p ∈ tget [] i (d.str k.sc).saved, (d.sem k.sc p.1).active = false
  sums    : tget [] i (d.eng k.sc).savedAcc = []
  slots   : ∀ t ∈ (d.str k.sc).running, t.again = []
  waits   : d.noneWait k.sc

theorem Device.CanFill.id_eq {d : Device} {k : Ctx} {i n a : Nat} (h : d.CanFill k i n a) : k.id = i := by
  simpa using List.find?_some h.live

/-- Filling changes memory, the tiers, the contexts and the scheduler of the context's SC, and memory as the bank's filling does. -/
theorem Device.CanFill.resumes {d : Device} {k : Ctx} {i n a : Nat} (h : d.CanFill k i n a) :
    (contextFillEff i d).mem = (d.bankFilled k.sc n a).mem ∧ (contextFillEff i d).tiers = (d.bankFilled k.sc n a).tiers ∧
      (contextFillEff i d).ctx? i = some { k.filledBack n with state := if (d.sc k.sc).running = none then .running else .yielded } := by
  have hid : (k.filledBack n).id = i := h.id_eq
  have hctx : (d.contextBack k i n a).ctx? i = some (k.filledBack n) := by
    obtain ⟨mem, tiers, hfilled⟩ := d.bankFilled_only k.sc n a
    exact Device.ctx?_modCtx_same (fun _ => k.filledBack n) (fun _ _ => hid) (by rw [hfilled]; exact h.live)
  rw [contextFillEff_one h.live h.state h.spilled h.bank h.replies h.filter h.pairs]
  obtain ⟨mem, tiers, hfilled⟩ := d.bankFilled_only k.sc n a
  have hback : d.contextBack k i n a = ({ d with mem := mem, tiers := tiers } : Device).modCtx i fun _ => k.filledBack n := by
    rw [Device.contextBack, hfilled]
  rw [hfilled]
  generalize d.contextBack k i n a = e at *
  have hsc : e.sc k.sc = d.sc k.sc := by rw [hback]; rfl
  rw [hsc]
  cases hrun : (d.sc k.sc).running with
  | some v =>
    rw [if_pos (c := (some v).isSome = true) rfl, hctx, if_neg (c := some v = none) nofun]
    exact ⟨by rw [hback]; rfl, by rw [hback]; rfl, rfl⟩
  | none =>
    rw [if_neg (c := (none : Option Nat).isSome = true) nofun, if_pos (c := (none : Option Nat) = none) rfl]
    have hkept : e.keepsPlaces (e.resumeOn k.sc (k.filledBack n)) := by
      refine Device.resumeOn_keepsPlaces ?_ ?_ ?_
      · rw [hid, hback]
        exact h.sums
      · rw [hback]
        exact h.slots
      · rw [hback]
        exact h.waits
    generalize e.resumeOn k.sc (k.filledBack n) = f at *
    refine ⟨hkept.mem.trans (by rw [hback]; rfl), hkept.tiers.trans (by rw [hback]; rfl), ?_⟩
    have hctx2 : f.ctx? i = some (k.filledBack n) := (Device.ctx?_of_ctxs hkept.ctxs i).trans hctx
    exact Device.ctx?_modCtx_same (fun k : Ctx => { k with state := .running }) (fun _ hc => hc) hctx2

theorem gives_contextFill {s : State} {k : Ctx} {i n a : Nat} (h : s.dev.CanFill k i n a) :
    gives (.contextFill i) s fun e => (∀ j, j < bankBytes → e.byteAt (scBase k.sc + bankBytes * n + j) = s.dev.byteAt (s.dev.mirrorAt a j)) ∧
      s.dev.sameMemOutside e (scBase k.sc + bankBytes * n) bankBytes ∧
      ∃ k', e.ctx? i = some k' ∧ k'.spilled = [] ∧ k'.banks = k.banks ++ [n] ∧
        k'.state = if (s.dev.sc k.sc).running = none then .running else .yielded := by
  refine gives_of_onDev (F := contextFillEff i) rfl ?_
  obtain ⟨hmem, htiers, hctx⟩ := h.resumes
  obtain ⟨hin, hout⟩ := Device.bankFilled_bytes k.sc n h.known h.aligned h.inside
  have hbyte := Device.byteAt_of hmem htiers
  exact ⟨fun j hj => (hbyte _).trans (hin j hj), fun x hx => (hbyte x).trans (hout x hx), _, hctx, rfl, rfl, rfl⟩

end Sys2Proof.Machine
end

section
/-! A dip point of an idle SC with one ready context, which takes it (R240, R341, R355, R360). -/

namespace Sys2Proof.Machine

/-! ### What a dip point settles (R176, R240, R341) -/

/-- What settling an SC at its dip point keeps: all but engines and schedulers, what waits for an engine, and what runs. -/
structure Device.settlesSc (d e : Device) (sc : Nat) : Prop where
  only    : ∃ engines scs, e = { d with engines := engines, scs := scs }
  walks   : (e.eng sc).walkWait = (d.eng sc).walkWait
  me      : (e.eng sc).meNext = (d.eng sc).meNext
  ce      : (e.eng sc).ceNext = (d.eng sc).ceNext
  sums    : (e.eng sc).savedAcc = (d.eng sc).savedAcc
  running : (e.sc sc).running = (d.sc sc).running

theorem Device.settlesSc_trans {d e f : Device} {sc : Nat} (h : d.settlesSc e sc) (k : e.settlesSc f sc) : d.settlesSc f sc := by
  obtain ⟨⟨engines, scs, honly⟩, hwalks, hme, hce, hsums, hrun⟩ := h
  obtain ⟨⟨engines', scs', konly⟩, kwalks, kme, kce, ksums, krun⟩ := k
  exact ⟨⟨engines', scs', by rw [konly, honly]⟩, kwalks.trans hwalks, kme.trans hme, kce.trans hce, ksums.trans hsums, krun.trans hrun⟩

/-- The VE of an SC without work counts its idle cycles (R240). -/
def Engines.idleFor (e : Engines) (busy : Bool) (cycles : Nat) : Engines :=
  if busy then e else { e with ve := { e.ve with stalls := lmod 5 (· + cycles) e.ve.stalls } }

theorem Device.idleFor_settlesSc (d : Device) (sc : Nat) (busy : Bool) (cycles : Nat) : d.settlesSc (d.modEng sc (·.idleFor busy cycles)) sc := by
  refine ⟨⟨_, _, rfl⟩, ?_, ?_, ?_, ?_, rfl⟩ <;> rw [Device.eng_modEng_same] <;> cases busy <;> rfl

theorem Device.seStep_settlesSc (d : Device) (sc : Nat) : d.settlesSc (d.seStep sc) sc := by
  have hkept : d.settlesSc (d.modEng sc fun e => { e with seKept := e.se }) sc := by
    refine ⟨⟨_, _, rfl⟩, ?_, ?_, ?_, ?_, rfl⟩ <;> rw [Device.eng_modEng_same]
  unfold Device.seStep
  dsimp only
  split
  · exact hkept
  · refine Device.settlesSc_trans hkept ⟨⟨_, _, rfl⟩, rfl, rfl, rfl, rfl, ?_⟩
    rw [Device.sc_modSc_same]

theorem Device.modSc_settlesSc (d : Device) (sc : Nat) {g : ScSched → ScSched} (hg : (g (d.sc sc)).running = (d.sc sc).running) :
    d.settlesSc (d.modSc sc g) sc :=
  ⟨⟨_, _, rfl⟩, rfl, rfl, rfl, rfl, by rw [Device.sc_modSc_same, hg]⟩

theorem Device.startWalks_none {d : Device} {sc : Nat} (h : (d.eng sc).walkWait = []) : d.startWalks sc = d := by
  unfold Device.startWalks
  rw [h, List.foldl_nil]

theorem Device.enginesResume_free {d : Device} {sc : Nat} (hme : (d.eng sc).meNext = none) (hce : (d.eng sc).ceNext = none) : d.enginesResume sc = d := by
  rw [Device.enginesResume, Device.meResume_none hme, Device.ceResume_none hce]

/-! ### The one context (R341, R360) -/

/-- An SC steals nothing where every context is its own (R360). -/
theorem Device.steal_none {d : Device} {sc : Nat} (h : ∀ k ∈ d.ctxs, k.sc = sc) (b : Nat) : d.steal sc b = d := by
  have hopen : ∀ p : Ctx → Bool, (∀ k : Ctx, k.sc = sc → p k = false) → d.ctxs.filter p = [] := fun p hp =>
    List.filter_eq_nil_iff.2 fun k hk => by simp [hp k (h k hk)]
  unfold Device.steal
  dsimp only
  split
  · rfl
  · rw [hopen _ fun k hk => by simp [hk]]
    rfl

/-- The one context of a device is chosen on its SC where it is ready (R341). -/
theorem Device.nextCtx_one {d : Device} {sc : Nat} {k : Ctx} (h : d.ctxs = [k]) (hsc : k.sc = sc) (hready : d.ctxReady k = true) (hlocal : k.state ≠ .remote) :
    d.nextCtx sc = some k := by
  have hpool : d.ctxs.filter (fun k => k.sc == sc && d.ctxReady k && k.state != .remote) = [k] := by
    rw [h]
    exact List.filter_cons_of_pos (by simp [hsc, hready, hlocal])
  unfold Device.nextCtx
  rw [hpool]
  by_cases hrank : 3 ≤ k.rank
  · simp [hrank, sortBy, insBy]
  · simp [hrank, sortBy, insBy]

/-! ### A context takes an idle SC (R203, R355) -/

/-- A unit that ends its wait for the Filter Unit changes in that alone, and its wait is recorded (R203). -/
theorem Device.gotFu_keeps {d : Device} {k : Ctx} (h : d.ctxs = [k]) :
    (∃ w, (d.gotFu k).ctxs = [{ k with fuWait := w }]) ∧ (d.gotFu k).scs = d.scs ∧ (d.gotFu k).mem = d.mem ∧ (d.gotFu k).streams = d.streams ∧
      (d.gotFu k).engines = d.engines := by
  unfold Device.gotFu
  split
  · next t c _ _ =>
    have hrecorded : ∃ burgees, d.recordWait c (d.now - t) = { d with burgees := burgees } := by
      unfold Device.recordWait
      split
      · exact ⟨_, rfl⟩
      · exact ⟨_, rfl⟩
    obtain ⟨burgees, hrecorded⟩ := hrecorded
    rw [hrecorded]
    refine ⟨⟨none, ?_⟩, rfl, rfl, rfl, rfl⟩
    show d.ctxs.map _ = _
    rw [h, List.map_singleton, if_pos (by simp)]
  · exact ⟨⟨k.fuWait, h⟩, rfl, rfl, rfl, rfl⟩

theorem Device.yieldCtx_idle {d : Device} {sc : Nat} (h : (d.sc sc).running = none) (k : Ctx) : d.yieldCtx sc k = d := by
  unfold Device.yieldCtx
  rw [h]
  rfl

theorem Device.loadTables_goesOver (d : Device) (sc : Nat) (k : Ctx) : d.goesOver (d.loadTables sc k) := by
  have hput : ∀ (e : Device) (t n : Nat) (c : CeSlot), e.goesOver (e.modEng sc (·.putSlot t n c)) := fun e t n c => e.modEng_goesOver sc rfl
  unfold Device.loadTables
  dsimp only
  split
  · exact d.goesOver_refl
  · split
    · exact d.goesOver_refl
    · split
      · split
        · exact hput _ _ _ _
        · exact hput _ _ _ _
      · exact Device.goesOver_trans (hput _ _ _ _) (Device.modEng_goesOver _ sc rfl)
      · split
        · exact hput _ _ _ _
        · exact d.goesOver_refl
      · exact d.goesOver_refl

/-- The context as it runs on the SC it took, in free banks (R355). -/
def Ctx.taken (k : Ctx) (banks : List Nat) (usesVe : Bool) (tiles : List Nat) (need order : Nat) : Ctx :=
  { k with banks := k.banks ++ banks, tiles := if k.started then k.tiles else tiles, usesVe := k.usesVe || usesVe,
           need := if k.started then k.need else need, order := if k.started then k.order else order, state := .running, started := true }

/-- A context with its banks free and no filter takes an idle SC: it resumes or starts there, and runs. -/
theorem Device.takeSc_idle {d : Device} {sc need : Nat} {usesVe : Bool} {tiles : List Nat} {k : Ctx} (hctxs : d.ctxs = [k])
    (hrun : (d.sc sc).running = none) (hfilter : ∀ m, k.cmd.bind d.cmd? = some m → m.snap.bind (·.filter) = none)
    (hbanks : k.started = true ∨ need ≤ (d.freeBanks k).length) (hnone : d.noneWait sc) (hsums : tget [] k.id (d.eng sc).savedAcc = [])
    (hagain : ∀ t ∈ (d.str sc).running, t.again = []) :
    ((d.takeSc sc need usesVe tiles k).sc sc).running = some k.id ∧ ((d.takeSc sc need usesVe tiles k).sc sc).credit = (d.sc sc).credit ∧
      (∃ k', (d.takeSc sc need usesVe tiles k).ctxs = [k'] ∧ k'.id = k.id ∧ k'.state = .running ∧ k'.started = true ∧
        k'.banks = k.banks ++ (d.freeBanks k).take (if k.started = true then 0 else need)) ∧ (d.takeSc sc need usesVe tiles k).mem = d.mem := by
  obtain ⟨⟨w, hgotCtxs⟩, hgotScs, hgotMem, hgotStr, hgotEng⟩ := Device.gotFu_keeps hctxs
  have hgotSc : (d.gotFu k).sc sc = d.sc sc := Device.sc_of_scs hgotScs sc
  have hlen : ((d.freeBanks k).take (if k.started = true then 0 else need)).length = if k.started = true then 0 else need := by
    rw [List.length_take]
    obtain hs | hn := hbanks
    · simp [hs]
    · split <;> omega
  unfold Device.takeSc
  rw [if_neg (by simp [hrun]), Device.takeFu_unfiltered hfilter]
  dsimp only
  rw [hlen, Nat.sub_self, List.take_zero, if_neg (by simp), Device.yieldCtx_idle (by rw [hgotSc, hrun])]
  dsimp only [Device.spillAll]
  generalize (d.freeBanks k).take (if k.started = true then 0 else need) = banks
  generalize hd1 : (if k.started = true then (d.gotFu k).resumeOn sc k else _) = d1
  have hkept : (d.gotFu k).keepsPlaces d1 := by
    rw [← hd1]
    split
    · refine Device.resumeOn_keepsPlaces ?_ ?_ (Device.noneWait_of_streams hgotStr hnone)
      · rw [Device.eng_of_engines hgotEng]
        exact hsums
      · rw [Device.str_of_streams hgotStr]
        exact hagain
    · refine (Device.goesOver_trans (Device.goesOver_trans (Device.goesOver_trans ?_ (Device.spillTiles_goesOver _ sc k.id tiles))
        (Device.loadTables_goesOver _ sc k)) (Device.modEng_goesOver _ sc rfl)).tokeepsPlaces
      split
      · exact Device.spillVe_goesOver _ _ _
      · exact Device.goesOver_refl _
  have hd1Sc : d1.sc sc = d.sc sc := (Device.sc_of_scs hkept.scs sc).trans hgotSc
  have htaken : d1.ctxs.map (fun c => if c.id == k.id then c.taken banks usesVe tiles need ((d.gotFu k).sc sc).dips else c) =
      [({ k with fuWait := w } : Ctx).taken banks usesVe tiles need ((d.gotFu k).sc sc).dips] := by
    rw [hkept.ctxs, hgotCtxs, List.map_singleton, if_pos (by simp)]
  refine ⟨?_, ?_, ⟨({ k with fuWait := w } : Ctx).taken banks usesVe tiles need ((d.gotFu k).sc sc).dips, ?_, rfl, rfl, rfl, rfl⟩, hkept.mem.trans hgotMem⟩
  · rw [Device.sc_modSc_same]
    rfl
  · rw [Device.sc_modSc_same, Device.sc_modCtx, hd1Sc]
    rfl
  · rw [← htaken]
    exact List.map_congr_left fun c _ => by simp [Ctx.taken]

/-! ### DIP_POINT_SCHEDULE (R341) -/

/-- What an idle SC with one ready context needs for it to take the SC at a dip point (R203, R341, R355). -/
structure Device.DipsAlone (d : Device) (sc need : Nat) (k : Ctx) : Prop where
  ready   : d.ready = true
  inRange : sc < 64
  inUse   : (d.sc sc).out = false
  settled : (d.sc sc).starting = none
  idle    : (d.sc sc).running = none
  alone   : d.ctxs = [k]
  here    : k.sc = sc
  isLocal : k.state ≠ .remote
  runs    : d.ctxReady k = true
  filter  : ∀ m, k.cmd.bind d.cmd? = some m → m.snap.bind (·.filter) = none
  banks   : k.started = true ∨ need ≤ (d.freeBanks k).length
  waits   : d.noneWait sc
  engines : d.enginesFree sc
  walks   : (d.eng sc).walkWait = []
  sums    : tget [] k.id (d.eng sc).savedAcc = []
  slots   : ∀ t ∈ (d.str sc).running, t.again = []

/-- The device with the credits of an SC settled at its dip point, and the dip counted (R341). -/
def Device.credited (d : Device) (sc : Nat) (credit : Tab Int) : Device := d.modSc sc fun s => { s with credit := credit, dips := s.dips + 1 }

theorem Device.credited_settlesSc (d : Device) (sc : Nat) (credit : Tab Int) : d.settlesSc (d.credited sc credit) sc := d.modSc_settlesSc sc rfl

/-- The device with an idle SC's dip point begun: its VE's idle cycles and its SE's step counted, and what waited there started (R176, R240). -/
def Device.dipBegun (d : Device) (sc cycles : Nat) : Device :=
  ((((d.modEng sc (·.idleFor (d.eng sc).veNext.isSome cycles)).seStep sc).startWaiting sc).startWalks sc).enginesResume sc

theorem Device.DipsAlone.due {d : Device} {sc need : Nat} {k : Ctx} (h : d.DipsAlone sc need k) (cycles : Nat) (usesVe : Bool) (tiles : List Nat) :
    dipPointScheduleEff sc cycles need usesVe tiles d =
      let d3 := (List.range 16).foldl (fun d b => d.steal sc b) ((d.dipBegun sc cycles).credited sc (d.credits sc cycles))
      (d3.nextCtx sc).elim d3 (d3.takeSc sc need usesVe tiles) := by
  have hbusy : (fun e : Engines => if ((d.eng sc).veNext.isSome || (none : Option Ctx).any (·.usesVe)) = true then e
      else { e with ve := { e.ve with stalls := lmod 5 (· + cycles) e.ve.stalls } }) = (·.idleFor (d.eng sc).veNext.isSome cycles) := by
    funext e
    simp [Engines.idleFor]
  unfold dipPointScheduleEff Device.dipBegun Device.credited
  rw [if_neg (by simp [h.ready, h.inUse, h.settled, h.inRange]), h.idle, Option.bind_none]
  dsimp only
  rw [hbusy]
  generalize List.foldl (fun (d : Device) (b : Nat) => d.steal sc b) _ (List.range 16) = d3
  cases d3.nextCtx sc <;> rfl

/-- A dip point there settles the SC. -/
theorem Device.DipsAlone.begins {d : Device} {sc need : Nat} {k : Ctx} (h : d.DipsAlone sc need k) (cycles : Nat) :
    d.settlesSc (d.dipBegun sc cycles) sc := by
  obtain ⟨hme, hce⟩ := h.engines
  have hstep := Device.settlesSc_trans (d.idleFor_settlesSc sc (d.eng sc).veNext.isSome cycles) (Device.seStep_settlesSc _ sc)
  unfold Device.dipBegun
  generalize (d.modEng sc (·.idleFor (d.eng sc).veNext.isSome cycles)).seStep sc = d1 at *
  obtain ⟨engines, scs, honly⟩ := hstep.only
  have hnone : d1.noneWait sc := Device.noneWait_of_streams (by rw [honly]) h.waits
  rw [Device.startWaiting_idle hnone, Device.startWalks_none (hstep.walks.trans h.walks),
    Device.enginesResume_free (hstep.me.trans hme) (hstep.ce.trans hce)]
  exact hstep

/-- The context takes the SC so settled. -/
theorem Device.DipsAlone.takes {d : Device} {sc need : Nat} {k : Ctx} (h : d.DipsAlone sc need k) (cycles : Nat) (usesVe : Bool) (tiles : List Nat) :
    ∃ e, d.settlesSc e sc ∧ (e.sc sc).credit = d.credits sc cycles ∧
      dipPointScheduleEff sc cycles need usesVe tiles d = e.takeSc sc need usesVe tiles k := by
  have hcredited : d.settlesSc ((d.dipBegun sc cycles).credited sc (d.credits sc cycles)) sc :=
    Device.settlesSc_trans (h.begins cycles) (Device.credited_settlesSc _ sc _)
  have hcredit : (((d.dipBegun sc cycles).credited sc (d.credits sc cycles)).sc sc).credit = d.credits sc cycles := by
    rw [Device.credited, Device.sc_modSc_same]
  rw [h.due]
  generalize (d.dipBegun sc cycles).credited sc (d.credits sc cycles) = e at *
  obtain ⟨engines, scs, honly⟩ := hcredited.only
  have halone : e.ctxs = [k] := by rw [honly]; exact h.alone
  have hready : e.ctxReady k = true := by rw [honly]; exact h.runs
  dsimp only
  rw [List.foldl_fixed' (Device.steal_none (by simp [halone, h.here])), Device.nextCtx_one halone h.here hready h.isLocal]
  exact ⟨e, hcredited, hcredit, rfl⟩

theorem gives_dipPointSchedule {s : State} {sc need : Nat} {k : Ctx} (h : s.dev.DipsAlone sc need k) (cycles : Nat) (usesVe : Bool) (tiles : List Nat) :
    gives (.dipPointSchedule sc cycles need usesVe tiles) s fun e => (e.sc sc).running = some k.id ∧ (e.sc sc).credit = s.dev.credits sc cycles ∧
      (∃ k', e.ctxs = [k'] ∧ k'.id = k.id ∧ k'.state = .running ∧ k'.started = true ∧
        k'.banks = k.banks ++ (s.dev.freeBanks k).take (if k.started = true then 0 else need)) ∧ e.mem = s.dev.mem := by
  refine gives_of_onDev (F := dipPointScheduleEff sc cycles need usesVe tiles) rfl ?_
  obtain ⟨e, hsettled, hcredit, htakes⟩ := h.takes cycles usesVe tiles
  rw [htakes]
  obtain ⟨engines, scs, honly⟩ := hsettled.only
  have hbanks : e.freeBanks k = s.dev.freeBanks k := by rw [honly]; rfl
  have hmem : e.mem = s.dev.mem := by rw [honly]
  have hstreams : e.streams = s.dev.streams := by rw [honly]
  have hcmd : e.cmd? = s.dev.cmd? := by rw [honly]; rfl
  obtain ⟨hrun, hcr, hctx, hm⟩ := Device.takeSc_idle (d := e) (sc := sc) (need := need) (usesVe := usesVe) (tiles := tiles) (k := k)
    (by rw [honly]; exact h.alone) (hsettled.running.trans h.idle) (by rw [hcmd]; exact h.filter) (by rw [hbanks]; exact h.banks)
    (Device.noneWait_of_streams hstreams h.waits) (by rw [hsettled.sums]; exact h.sums) (by rw [Device.str_of_streams hstreams]; exact h.slots)
  rw [hbanks] at hctx
  exact ⟨hrun, hcr.trans hcredit, hctx, hm.trans hmem⟩

end Sys2Proof.Machine
end

section
/-! Faults of streams, dip points and spills: the clauses put together (R208, R255, R262 to R265, R341, R355). -/

namespace Sys2Proof.Machine

/-- Settles O35, clause by clause: each event leaves what its lemma says, and a second event of a command goes through its teardown. -/
theorem streamFaultsAndDipPoints : Obligations.StreamFaultsAndDipPoints := by
  unfold Obligations.StreamFaultsAndDipPoints
  intro s sc d ends
  refine ⟨fun k t m hk ht hm => ⟨?_, ?_, ?_⟩, fun x u m k hx hu hk hkm hm hi => ⟨?_, ?_, ?_, ?_⟩, ?_, ?_, ?_, ?_, ?_, ?_⟩
  · intro hfirst hrings
    refine gives_tagMismatch_noRings ⟨hk, ht, hm⟩ hfirst (List.map_eq_nil_iff.2 (List.filter_eq_nil_iff.2 fun p hp => ?_))
    simp only [Bool.and_eq_true, beq_iff_eq, Bool.not_eq_true', not_and, Bool.not_eq_false, and_imp]
    exact hrings p hp
  · intro r u hfirst hring hfill hop hnew hspilled hnone hste hplace
    exact gives_tagMismatch_restarts ⟨hk, ht, hm⟩ hfirst hring hfill hop hnew hspilled hnone hste hplace
  · intro hagain hr hh hq hnone
    exact gives_tagMismatch_ends ⟨hk, ht, hm⟩ hagain hr hh hq hnone
  · intro p hread hfirst hcopy hop hldm hp hpieces
    obtain ⟨e, he, hretries, hdropped, hagain⟩ := gives_uncorrectableRead_slot hx hu ⟨hk, hkm, hm⟩ hread hfirst hi hcopy hop hldm hp hpieces
    exact ⟨e, he, ⟨hretries.poisoned, hretries.ste, hretries.cmd, hretries.mem⟩, hdropped, hagain⟩
  · intro hread hfirst hcopy hop
    obtain ⟨e, he, hretries, hagain⟩ := gives_uncorrectableRead_piece hx hu ⟨hk, hkm, hm⟩ hread hfirst hi hcopy hop
    exact ⟨e, he, ⟨hretries.poisoned, hretries.ste, hretries.cmd, hretries.mem⟩, hagain⟩
  · intro hread hagain hr hh hq hnone
    exact gives_uncorrectableRead_ends hx hu ⟨hk, hkm, hm⟩ hread hagain hr hh hq hnone
  · intro hwrite hr hh hq hnone
    exact gives_transferTimeout_ends hx hu ⟨hk, hkm, hm⟩ hwrite hr hh hq hnone
  · exact fun i q r hq hr hdone => gives_tagLimitedExit hq hr hdone
  · exact gives_progressSample_free
  · rintro ks k c hready hcycle hold rfl hseen hexcused hlate hk
    exact gives_progressSample_drains hready hcycle hold hseen hexcused hlate hk
  · intro cycles need ve tiles k hready hsc hout hstarting hrun hctxs hhere hlocal hruns hfilter hbanks hnone hengines hwalks hsums hslots
    exact gives_dipPointSchedule ⟨hready, hsc, hout, hstarting, hrun, hctxs, hhere, hlocal, hruns, hfilter, hbanks, hnone, hengines, hwalks, hsums, hslots⟩
      cycles ve tiles
  · exact fun i hi => gives_spillDone hi
  · intro k i n a hk hstate hspilled hbank hrrt herased halign hcap hfilter hpairs hsums hslots hnone
    have hfill := gives_contextFill (s := s) ⟨hk, hstate, hspilled, hbank, hrrt, herased, halign, hcap, hfilter, hpairs, hsums, hslots, hnone⟩
    rw [bankBytes_eq] at hfill
    exact hfill

end Sys2Proof.Machine
end

section
/-! The Vector Engine's registers lane by lane: a register from its lanes and back, its masks bit by bit, and what a micro-op's sources give
(R216 to R219). -/

namespace Sys2Proof.Machine

/-! ### Registers and their lanes (R216) -/

/-- The lanes of a register fill it in every mode. -/
theorem lanesN_mul_laneBits (mode : Nat) : laneBits mode * lanesN mode = 4096 := by
  unfold laneBits lanesN
  split
  · rfl
  · split <;> rfl

/-- The numbers below n with their positions. -/
theorem zipIdx_map_range {α : Type} (n : Nat) (f : Nat → α) : ((List.range n).map f).zipIdx = (List.range n).map fun l => (f l, l) :=
  List.ext_getElem (by simp) fun i h _ => by simp

/-- Digits of b bits joined into a number are that number's digits. -/
theorem foldr_digits (b : Nat) (xs : List Nat) :
    let n := xs.foldr (fun x acc => x % 2 ^ b + acc * 2 ^ b) 0
    n < 2 ^ (b * xs.length) ∧ ∀ l, n / 2 ^ (l * b) % 2 ^ b = xs.getD l 0 % 2 ^ b := by
  have hpos : 0 < 2 ^ b := Nat.two_pow_pos b
  induction xs with
  | nil => simp
  | cons x xs ih =>
    obtain ⟨hlt, hdigit⟩ := ih
    have hx : x % 2 ^ b < 2 ^ b := Nat.mod_lt _ hpos
    refine ⟨?_, fun l => ?_⟩
    · rw [List.foldr_cons, List.length_cons, Nat.mul_succ, Nat.pow_add]
      nlinarith
    · cases l with
      | zero => simp
      | succ l =>
        have hhigh (n : Nat) : (x % 2 ^ b + n * 2 ^ b) / 2 ^ b = n := by
          rw [Nat.add_mul_div_right _ _ hpos, Nat.div_eq_of_lt hx, Nat.zero_add]
        have hshift : 2 ^ ((l + 1) * b) = 2 ^ b * 2 ^ (l * b) := by rw [Nat.succ_mul, Nat.add_comm, Nat.pow_add]
        rw [List.foldr_cons, hshift, ← Nat.div_div_eq_div_mul, hhigh, hdigit, List.getD_cons_succ]

/-- A register put together from all its lanes has them, each cut to the lane's width. -/
theorem lanesOf_ofLanes (mode : Nat) (f : Nat → Nat) :
    lanesOf mode (ofLanes mode ((List.range (lanesN mode)).map f)) = (List.range (lanesN mode)).map fun l => f l % 2 ^ laneBits mode := by
  obtain ⟨hlt, hdigit⟩ := foldr_digits (laneBits mode) ((List.range (lanesN mode)).map f)
  rw [List.length_map, List.length_range, lanesN_mul_laneBits] at hlt
  refine List.map_congr_left fun l hl => ?_
  rw [ofLanes, BitVec.toNat_ofNat, Nat.mod_eq_of_lt hlt, hdigit]
  simp [List.mem_range.1 hl]

theorem getD_lanesOf {mode l : Nat} (v : BitVec 4096) (hl : l < lanesN mode) :
    (lanesOf mode v).getD l 0 = v.toNat / 2 ^ (l * laneBits mode) % 2 ^ laneBits mode := by
  simp [lanesOf, hl]

/-- No lane exceeds its width. -/
theorem getD_lanesOf_mod {mode l : Nat} (v : BitVec 4096) (hl : l < lanesN mode) :
    (lanesOf mode v).getD l 0 % 2 ^ laneBits mode = (lanesOf mode v).getD l 0 := by
  rw [getD_lanesOf v hl, Nat.mod_mod]

/-- Lane l of a register that takes new values on some lanes and keeps its old ones elsewhere. -/
theorem getD_lanesOf_ofLanes_under {mode l : Nat} (v : BitVec 4096) (f : Nat → Nat) (on : Nat → Bool) (hl : l < lanesN mode) :
    (lanesOf mode (ofLanes mode ((List.range (lanesN mode)).map fun l => if on l then f l else (lanesOf mode v).getD l 0))).getD l 0 =
      if on l then f l % 2 ^ laneBits mode else (lanesOf mode v).getD l 0 := by
  rw [lanesOf_ofLanes]
  simp only [List.getD_eq_getElem?_getD, List.getElem?_map, List.getElem?_range hl, Option.map_some, Option.getD_some]
  split
  · rfl
  · simpa using getD_lanesOf_mod v hl

/-- A register's lanes, position by position. -/
theorem lanesOf_eq_range (mode : Nat) (v : BitVec 4096) :
    lanesOf mode v = (List.range (lanesN mode)).map fun l => (lanesOf mode v).getD l 0 :=
  List.map_congr_left fun _ hl => (getD_lanesOf v (List.mem_range.1 hl)).symm

/-! ### What a micro-op's sources give (R219, R220) -/

/-- Source k of an opcode that reads n sources, on lane l: what its selector gives, or zero where the opcode does not read it. -/
def Ve.operand (v : Ve) (m : Micro) (n k s l : Nat) : Nat := if k ≤ n then v.source m s l else 0

/-- A selector that gives every lane a value gives those of its lanes. -/
theorem Ve.src_of_gives {v : Ve} {m : Micro} {s : Nat} (h : v.gives m s) :
    ({ v with mode := modeOfType m.typ } : Ve).src s = some ((List.range (lanesN (modeOfType m.typ))).map (v.source m s)) := by
  obtain ⟨xs, hxs, hlen⟩ := h
  rw [hxs]
  refine congrArg some (List.ext_getElem (by simp [hlen]) fun i h _ => ?_)
  simp [Ve.source, hxs, h]

/-- The sources of a micro-op that is ready, lane by lane. -/
theorem Device.srcs_of_veReady {d : Device} {sc op : Nat} {m : Micro} (h : d.veReady sc op m) :
    let v := (d.eng sc).ve
    let lanes := (List.range (lanesN (modeOfType m.typ))).map
    ({ v with mode := modeOfType m.typ } : Ve).srcs op m =
      some (lanes (v.operand m (microArity op) 1 m.a), lanes (v.operand m (microArity op) 2 m.b), lanes (v.operand m (microArity op) 3 m.c)) := by
  intro v lanes
  obtain ⟨-, -, -, ha, hb, hc⟩ := h
  have hread (k s : Nat) (hs : k ≤ microArity op → v.gives m s) :
      (if k ≤ microArity op then ({ v with mode := modeOfType m.typ } : Ve).src s else some (List.replicate (lanesN (modeOfType m.typ)) 0)) =
        some (lanes (v.operand m (microArity op) k s)) := by
    unfold Ve.operand
    split
    · next hk => exact Ve.src_of_gives (hs hk)
    · simp [lanes, List.map_const']
  simp only [Ve.srcs, hread 1 m.a ha, hread 2 m.b hb, hread 3 m.c hc]

/-- A micro-op that is ready has a TYPE of its opcode. -/
theorem Device.typ_of_veReady {d : Device} {sc op : Nat} {m : Micro} (h : d.veReady sc op m) : m.typ ∈ microTypes op := by
  obtain ⟨-, hok, -⟩ := h
  simp only [microOk, Bool.and_eq_true, List.contains_iff_mem] at hok
  exact hok.1.1

/-! ### Lanes written under a predicate (R216 to R219) -/

/-- A predicate names the same lanes in every mode. -/
theorem Ve.kBit_mode (v : Ve) (w k l : Nat) : ({ v with mode := w } : Ve).kBit k l = v.kBit k l := rfl

/-- A register written takes, lane by lane, the value given where the predicate names the lane, and its old lane elsewhere. -/
theorem Ve.put_register {e : Ve} {dst mask : Nat} (f : Nat → Nat) (hdst : dst < 32) :
    e.put dst mask ((List.range (lanesN e.mode)).map f) = some { e with v := tset dst (ofLanes e.mode ((List.range (lanesN e.mode)).map fun l =>
      if e.kBit mask l then f l else (lanesOf e.mode (tget 0 dst e.v)).getD l 0)) e.v } := by
  conv_lhs => rw [Ve.put, if_pos hdst, lanesOf_eq_range]
  simp only [zipIdx_map_range, List.zip_map', List.map_map]
  rfl

/-- An output port takes the values given for the lanes that the predicate names and that are no tail lanes. -/
theorem Ve.put_port {e : Ve} {dst mask : Nat} (f : Nat → Nat) (n : Nat) (hlo : 48 ≤ dst) (hhi : dst < 54) :
    e.put dst mask ((List.range n).map f) = some { e with outs := tset (dst - 48) ((List.range n).map fun l =>
      if e.kBit mask l = true ∧ l < e.tail then some (f l) else none) e.outs } := by
  rw [Ve.put, if_neg (by omega), if_pos ⟨hlo, hhi⟩]
  simp only [zipIdx_map_range, List.map_map]
  simp only [Function.comp_def, Bool.and_eq_true, decide_eq_true_eq]

/-- The device with a Vector Engine that has run one micro-op, its lines written (R217). -/
def Device.veSet (d : Device) (sc : Nat) (v : Ve) : Device := d.modEng sc fun g => ({ g with ve := v } : Engines).commitLines

/-- A Vector Engine that writes no line is all that changes. -/
theorem Device.eng_veSet {d : Device} {sc : Nat} {v : Ve} (hline : v.lineOut = []) : (d.veSet sc v).eng sc = { d.eng sc with ve := v } := by
  have hv : ({ v with lineOut := [] } : Ve) = v := by rw [← hline]
  simp [Device.veSet, Engines.commitLines, hline, hv]

theorem Device.eng_veSet_other (d : Device) {sc k : Nat} (v : Ve) (hk : k ≠ sc) : (d.veSet sc v).eng k = d.eng k :=
  d.eng_modEng_other _ hk

/-- Values written under a micro-op's predicate to its register or port, and nothing else. -/
theorem Device.veWrote_of_put {d : Device} {sc : Nat} {m : Micro} (f : Nat → Nat) (hline : (d.eng sc).ve.lineOut = [])
    (htgt : m.dst < 32 ∨ (48 ≤ m.dst ∧ m.dst < 54)) :
    ∃ v, ({ (d.eng sc).ve with mode := modeOfType m.typ } : Ve).put m.dst m.mask ((List.range (lanesN (modeOfType m.typ))).map f) = some v ∧
      d.veWrote (d.veSet sc v) sc m f := by
  rcases htgt with hdst | ⟨hlo, hhi⟩
  · refine ⟨_, Ve.put_register f hdst, ?_⟩
    refine ⟨fun _ => ⟨fun l hl => ?_, fun r hr => ?_, ?_⟩, fun h => absurd hdst h, ?_, fun k hk => d.eng_veSet_other _ hk, rfl⟩
    · rw [Device.eng_veSet (by exact hline), Ve.lane, tget_tset_same]
      exact getD_lanesOf_ofLanes_under _ f _ hl
    · rw [Device.eng_veSet (by exact hline)]
      exact tget_tset_other _ _ _ _ _ hr
    · rw [Device.eng_veSet (by exact hline)]
    · rw [Device.eng_veSet (by exact hline)]
  · refine ⟨_, Ve.put_port f _ hlo hhi, ?_⟩
    refine ⟨fun h => by omega, fun _ => ⟨?_, ?_⟩, ?_, fun k hk => d.eng_veSet_other _ hk, rfl⟩
    · rw [Device.eng_veSet (by exact hline)]
      exact tfind_tset_same _ _ _
    · rw [Device.eng_veSet (by exact hline)]
    · rw [Device.eng_veSet (by exact hline)]

/-! ### A micro-op as a command (R217) -/

/-- The tile-buffer line that a micro-op names may be used by the context, no stream holds its buffer, and no ring lies over it (R217, R243). -/
def Device.lineFree (d : Device) (sc ctx : Nat) (m : Micro) : Prop :=
  (d.eng sc).tileOk ctx (bits 25 24 m.imm) = true ∧ (d.eng sc).tileHeld (bits 25 24 m.imm) = false ∧ d.ringOver sc ctx (microLine m) = none

/-- A micro-op that uses no line, or a free one, and that keeps the rules takes effect at once. -/
theorem veEff_runs {d : Device} {op sc ctx : Nat} {m : Micro} {v : Ve} (hsc : sc < 64) (hfree : usesTile op = true → d.lineFree sc ctx m)
    (hv : ({ (d.eng sc).ve with mode := modeOfType m.typ } : Ve).micro (d.eng sc).tileLine op m = some v) : veEff op sc ctx m d = d.veSet sc v := by
  cases huse : usesTile op with
  | false =>
    simp [veEff, Nat.not_le.mpr hsc, huse, Device.withRings, RingWork.touchAll, hv, RingWork.delivered, RingWork.restored, Device.veSet]
  | true =>
    obtain ⟨hok, hheld, hring⟩ := hfree huse
    have htouch : ({ dev := d } : RingWork).touchAll sc ctx [microLine m] = .ok { dev := d } :=
      RingWork.touchAll_free [microLine m] (by simpa using hring)
    simp [veEff, Nat.not_le.mpr hsc, huse, hok, hheld, Device.withRings, htouch, hv, RingWork.delivered, RingWork.restored, Device.veSet]

/-- A micro-op whose effect is to write values under its predicate gives just that. -/
theorem gives_veWrote {c : Instr} {s : State} {op sc ctx : Nat} {m : Micro} (f : Nat → Nat) (hc : exec c s = onDev (veEff op sc ctx m) s)
    (hr : s.dev.veReady sc op m) (hfree : usesTile op = true → s.dev.lineFree sc ctx m) (htgt : m.dst < 32 ∨ (48 ≤ m.dst ∧ m.dst < 54))
    (hv : let e : Ve := { (s.dev.eng sc).ve with mode := modeOfType m.typ }
      e.micro (s.dev.eng sc).tileLine op m = e.put m.dst m.mask ((List.range (lanesN (modeOfType m.typ))).map f)) :
    gives c s fun e => s.dev.veWrote e sc m f := by
  obtain ⟨hsc, -, hline, -⟩ := hr
  obtain ⟨v, hput, hwrote⟩ := Device.veWrote_of_put f hline htgt
  exact gives_of_onDev hc (veEff_runs hsc hfree (hv.trans hput) ▸ hwrote)

end Sys2Proof.Machine
end

section
/-! Vector Engine micro-ops that compute a value from each lane alone (R220 to R224): what each writes, and O39. -/

namespace Sys2Proof.Machine

/-! ### Micro-ops lane by lane -/

/-- An opcode whose micro-op writes each lane a value of that lane's sources (R220). -/
def laneOp (op : Nat) : Bool := !microCompares op && !([0x41, 0x60, 0x61, 0x62, 0x70, 0x71, 0x80, 0x81].contains op)

theorem usesTile_of_laneOp {op : Nat} (h : laneOp op = true) : usesTile op = false := by
  rw [Bool.eq_false_iff]
  intro huse
  simp only [usesTile, Bool.or_eq_true, beq_iff_eq] at huse
  rcases huse with rfl | rfl <;> exact absurd h (by decide)

/-- What such a micro-op writes. -/
theorem Device.micro_lane {d : Device} {sc op : Nat} {m : Micro} (hr : d.veReady sc op m) (hop : laneOp op = true) (hsel : op = 0x34 → m.c < 8)
    (line : Nat → Nat → BitVec 4096) :
    let v := (d.eng sc).ve
    let e : Ve := { v with mode := modeOfType m.typ }
    e.micro line op m = e.put m.dst m.mask ((List.range (lanesN (modeOfType m.typ))).map fun l =>
      valueLane op m.typ m.imm 0 (v.kBit m.c l) (v.operand m (microArity op) 1 m.a l) (v.operand m (microArity op) 2 m.b l)
        (v.operand m (microArity op) 3 m.c l)) := by
  intro v e
  have hsrcs := Device.srcs_of_veReady hr
  obtain ⟨-, hok, -⟩ := hr
  have hcmp : microCompares op = false := by
    simp only [laneOp, Bool.and_eq_true, Bool.not_eq_true'] at hop
    exact hop.1
  have hnone : (op = 0x34 && 8 ≤ m.c : Bool) = false := by
    simp only [Bool.and_eq_false_iff, decide_eq_false_iff_not, Nat.not_le]
    exact or_iff_not_imp_left.2 fun h => hsel (not_not.1 h)
  unfold Ve.micro
  simp only [e, v, hok, hsrcs, hcmp, Bool.not_true, Bool.false_eq_true, if_false]
  split
  case h_9 =>
    simp only [hnone, Bool.false_eq_true, if_false, List.zip_map', zipIdx_map_range, List.map_map]
    rfl
  all_goals exact absurd hop (by decide)

/-- A micro-op that computes a value from each lane alone gives the lanes that its predicate names that value. -/
theorem gives_laneOp {c : Instr} {s : State} {op sc ctx : Nat} {m : Micro} (hc : exec c s = onDev (veEff op sc ctx m) s)
    (hr : s.dev.veReady sc op m) (htgt : m.dst < 32 ∨ (48 ≤ m.dst ∧ m.dst < 54)) (hop : laneOp op = true) (hsel : op = 0x34 → m.c < 8) :
    gives c s fun e => s.dev.veWrote e sc m fun l =>
      let v := (s.dev.eng sc).ve
      valueLane op m.typ m.imm 0 (v.kBit m.c l) (v.operand m (microArity op) 1 m.a l) (v.operand m (microArity op) 2 m.b l)
        (v.operand m (microArity op) 3 m.c l) :=
  gives_veWrote _ hc hr (fun h => by rw [usesTile_of_laneOp hop] at h; cases h) htgt (Device.micro_lane hr hop hsel _)

/-! ### Arithmetic (R220 to R223) -/

/-- An opcode whose value is that of the TYPE's arithmetic: no selection and no conversion (R220). -/
def arithOp (op : Nat) : Bool := laneOp op && op != 0x34 && op != 0x40

/-- A lane's result in the arithmetic of a TYPE: of its floating format, or of integers of its width (R220, R221). -/
def arithLane (op typ a b c : Nat) : Nat :=
  match typeFloat typ with
  | some f => floatLane f op a b c
  | none => intLane (laneBits (modeOfType typ)) op a b

theorem valueLane_of_arithOp {op : Nat} (h : arithOp op = true) (typ imm : Nat) (attr : W64) (k : Bool) (a b c : Nat) :
    valueLane op typ imm attr k a b c = arithLane op typ a b c := by
  simp only [arithOp, laneOp, Bool.and_eq_true, Bool.not_eq_true', bne_iff_ne, ne_eq] at h
  obtain ⟨⟨⟨-, hlist⟩, hsel⟩, hcvt⟩ := h
  have hattr : op ≠ 0x41 := by
    rintro rfl
    exact absurd hlist (by decide)
  rw [valueLane, if_neg hsel, if_neg hcvt, if_neg hattr]
  rfl

section
variable {c : Instr} {s : State} {op sc ctx : Nat} {m : Micro}

/-- An arithmetic micro-op gives each lane that its predicate names the result on the lane's sources. -/
theorem gives_arith (hc : exec c s = onDev (veEff op sc ctx m) s) (hr : s.dev.veReady sc op m) (htgt : m.dst < 32 ∨ (48 ≤ m.dst ∧ m.dst < 54))
    (hop : arithOp op = true) :
    gives c s fun e => s.dev.veWrote e sc m fun l =>
      let v := (s.dev.eng sc).ve
      arithLane op m.typ (v.operand m (microArity op) 1 m.a l) (v.operand m (microArity op) 2 m.b l) (v.operand m (microArity op) 3 m.c l) := by
  have hlane : laneOp op = true := by
    simp only [arithOp, Bool.and_eq_true] at hop
    exact hop.1.1
  have hsel : op = 0x34 → m.c < 8 := by
    rintro rfl
    exact absurd hop (by decide)
  simpa only [valueLane_of_arithOp hop] using gives_laneOp hc hr htgt hlane hsel

/-- So does one whose TYPEs are all floating, in the TYPE's format (R220). -/
theorem gives_float (hc : exec c s = onDev (veEff op sc ctx m) s) (hr : s.dev.veReady sc op m) (htgt : m.dst < 32 ∨ (48 ≤ m.dst ∧ m.dst < 54))
    (hop : arithOp op = true) (htypes : ∀ t ∈ microTypes op, (typeFloat t).isSome = true) :
    gives c s fun e => s.dev.veWrote e sc m fun l =>
      let v := (s.dev.eng sc).ve
      match typeFloat m.typ with
      | some f => floatLane f op (v.operand m (microArity op) 1 m.a l) (v.operand m (microArity op) 2 m.b l) (v.operand m (microArity op) 3 m.c l)
      | none => 0 := by
  have h := gives_arith hc hr htgt hop
  obtain ⟨f, hf⟩ := Option.isSome_iff_exists.1 (htypes _ (Device.typ_of_veReady hr))
  simp only [arithLane, hf] at h ⊢
  exact h

/-- So does one of FP32 alone. -/
theorem gives_fp32 (hc : exec c s = onDev (veEff op sc ctx m) s) (hr : s.dev.veReady sc op m) (htgt : m.dst < 32 ∨ (48 ≤ m.dst ∧ m.dst < 54))
    (hop : arithOp op = true) (htypes : microTypes op = [0]) :
    gives c s fun e => s.dev.veWrote e sc m fun l =>
      let v := (s.dev.eng sc).ve
      floatLane fmtFP32 op (v.operand m (microArity op) 1 m.a l) (v.operand m (microArity op) 2 m.b l) (v.operand m (microArity op) 3 m.c l) := by
  have h := gives_arith hc hr htgt hop
  have htyp : m.typ = 0 := by simpa [htypes] using Device.typ_of_veReady hr
  simp only [arithLane, htyp, typeFloat] at h
  exact h

/-- So does one of integers alone, at its TYPE's width (R220). -/
theorem gives_int (hc : exec c s = onDev (veEff op sc ctx m) s) (hr : s.dev.veReady sc op m) (htgt : m.dst < 32 ∨ (48 ≤ m.dst ∧ m.dst < 54))
    (hop : arithOp op = true) (htypes : ∀ t ∈ microTypes op, typeFloat t = none) :
    gives c s fun e => s.dev.veWrote e sc m fun l =>
      let v := (s.dev.eng sc).ve
      intLane (laneBits (modeOfType m.typ)) op (v.operand m (microArity op) 1 m.a l) (v.operand m (microArity op) 2 m.b l) := by
  have h := gives_arith hc hr htgt hop
  simp only [arithLane, htypes _ (Device.typ_of_veReady hr)] at h
  exact h

end

/-- Settles O39: each micro-op is a row of `arithLane`, at its opcode's sources. -/
theorem vectorArithmetic : Obligations.VectorArithmetic := by
  unfold Obligations.VectorArithmetic
  intro s sc ctx m d v a b c x y n tgts
  refine ⟨?_, ?_, ?_, ?_, ?_, ?_, ?_, ?_, ?_, ?_, ?_, ?_, ?_, ?_, ?_, ?_, ?_, ?_, ?_, ?_, ?_, ?_⟩
  · exact fun hr ht => gives_arith (op := 0x01) rfl hr ht rfl
  · exact fun hr ht => gives_arith (op := 0x02) rfl hr ht rfl
  · exact fun hr ht => gives_arith (op := 0x03) rfl hr ht rfl
  · exact fun hr ht => gives_arith (op := 0x04) rfl hr ht rfl
  · exact fun hr ht => gives_float (op := 0x05) rfl hr ht rfl (by decide)
  · exact fun hr ht => gives_arith (op := 0x06) rfl hr ht rfl
  · exact fun hr ht => gives_arith (op := 0x07) rfl hr ht rfl
  · exact fun hr ht => gives_float (op := 0x08) rfl hr ht rfl (by decide)
  · exact fun hr ht => gives_float (op := 0x09) rfl hr ht rfl (by decide)
  · exact fun hr ht => gives_fp32 (op := 0x0A) rfl hr ht rfl rfl
  · exact fun hr ht => gives_fp32 (op := 0x0B) rfl hr ht rfl rfl
  · exact fun hr ht => gives_fp32 (op := 0x0C) rfl hr ht rfl rfl
  · exact fun hr ht => gives_fp32 (op := 0x10) rfl hr ht rfl rfl
  · exact fun hr ht => gives_fp32 (op := 0x11) rfl hr ht rfl rfl
  · exact fun hr ht => gives_fp32 (op := 0x12) rfl hr ht rfl rfl
  · exact fun hr ht => gives_fp32 (op := 0x13) rfl hr ht rfl rfl
  · exact fun hr ht => gives_fp32 (op := 0x14) rfl hr ht rfl rfl
  · exact fun hr ht => gives_fp32 (op := 0x15) rfl hr ht rfl rfl
  · exact fun hr ht => gives_float (op := 0x20) rfl hr ht rfl (by decide)
  · exact fun hr ht => gives_fp32 (op := 0x21) rfl hr ht rfl rfl
  · exact fun hr ht => gives_fp32 (op := 0x22) rfl hr ht rfl rfl
  · exact fun hr ht => gives_fp32 (op := 0x23) rfl hr ht rfl rfl

end Sys2Proof.Machine
end

section
/-! Vector Engine compares, selection, conversion, bits and lane moves (R220, R221, R224, R226, R227): what each writes, and O40. -/

namespace Sys2Proof.Machine

/-! ### Mask bits (R216, R220, R221) -/

/-- A mask register written takes, bit by bit, the value given where the predicate names the lane, and its old bit elsewhere. -/
theorem Ve.putMask_bits {e : Ve} {dst mask n : Nat} (p : Nat → Bool) (hn : n ≤ 512) (hlo : 1 ≤ dst) (hhi : dst ≤ 7) :
    ∃ k : BitVec 512, e.putMask dst mask ((List.range n).map p) = some { e with k := tset dst k e.k } ∧
      ∀ l, l < n → k.getLsbD l = if e.kBit mask l = true then p l else e.kBit dst l := by
  obtain ⟨-, hbits⟩ := testBit_lsum_pow (fun l => if e.kBit mask l = true then p l else e.kBit dst l) n
  refine ⟨BitVec.ofNat 512 (lsum ((List.range n).map fun l => if (if e.kBit mask l = true then p l else e.kBit dst l) = true then 2 ^ l else 0)),
    ?_, fun l hl => ?_⟩
  · rw [Ve.putMask, if_pos ⟨hlo, hhi⟩]
    simp only [zipIdx_map_range, List.map_map]
    rfl
  · rw [BitVec.getLsbD_ofNat, hbits]
    simp [hl, Nat.lt_of_lt_of_le hl hn]

/-- A mask register written reads as written. -/
theorem Ve.kBit_tset_same (e : Ve) {dst : Nat} (k : BitVec 512) (l : Nat) (hdst : 1 ≤ dst) :
    ({ e with k := tset dst k e.k } : Ve).kBit dst l = k.getLsbD l := by
  simp [Ve.kBit, show dst ≠ 0 by omega]

/-- Every other mask register reads as before. -/
theorem Ve.kBit_tset_other (e : Ve) {dst j : Nat} (k : BitVec 512) (l : Nat) (hj : j ≠ dst) :
    ({ e with k := tset dst k e.k } : Ve).kBit j l = e.kBit j l := by
  simp [Ve.kBit, tget_tset_other _ _ _ _ _ hj]

/-- A compare has written p l to bit l of its mask register for each lane l that its predicate names, and nothing else has changed but the lane mode
in force. -/
def Device.veMarked (d e : Device) (sc : Nat) (m : Micro) (p : Nat → Bool) : Prop :=
  let v := (d.eng sc).ve
  (∀ l, l < lanesN (modeOfType m.typ) → (e.eng sc).ve.kBit m.dst l = if v.kBit m.mask l = true then p l else v.kBit m.dst l) ∧
    (∀ k, k ≠ m.dst → ∀ l, (e.eng sc).ve.kBit k l = v.kBit k l) ∧
    e.eng sc = { d.eng sc with ve := { v with mode := modeOfType m.typ, k := (e.eng sc).ve.k } } ∧ (∀ k, k ≠ sc → e.eng k = d.eng k) ∧
    e = { d with engines := e.engines }

section
variable {c : Instr} {s : State} {op sc ctx : Nat} {m : Micro}

/-- A compare marks each lane that its predicate names with the outcome on the lane's sources. -/
theorem gives_compare (hc : exec c s = onDev (veEff op sc ctx m) s) (hr : s.dev.veReady sc op m) (hop : microCompares op = true)
    (hlo : 1 ≤ m.dst) (hhi : m.dst ≤ 7) :
    gives c s fun e => s.dev.veMarked e sc m fun l =>
      let v := (s.dev.eng sc).ve
      compareLane op m.typ (v.operand m (microArity op) 1 m.a l) (v.operand m (microArity op) 2 m.b l) := by
  have hsrcs := Device.srcs_of_veReady hr
  obtain ⟨hsc, hok, hline, -⟩ := hr
  have hlanes : lanesN (modeOfType m.typ) ≤ 512 := by
    unfold lanesN
    split
    · decide
    · split <;> decide
  have hplain : usesTile op = true → s.dev.lineFree sc ctx m := by
    intro huse
    simp only [usesTile, Bool.or_eq_true, beq_iff_eq] at huse
    rcases huse with rfl | rfl <;> exact absurd hop (by decide)
  obtain ⟨k, hput, hbits⟩ := Ve.putMask_bits (e := { (s.dev.eng sc).ve with mode := modeOfType m.typ }) (mask := m.mask)
    (fun l => compareLane op m.typ ((s.dev.eng sc).ve.operand m (microArity op) 1 m.a l) ((s.dev.eng sc).ve.operand m (microArity op) 2 m.b l))
    hlanes hlo hhi
  have hmicro : ({ (s.dev.eng sc).ve with mode := modeOfType m.typ } : Ve).micro (s.dev.eng sc).tileLine op m =
      some { (s.dev.eng sc).ve with mode := modeOfType m.typ, k := tset m.dst k (s.dev.eng sc).ve.k } := by
    unfold Ve.micro
    simp only [hok, hsrcs, hop, Bool.not_true, Bool.false_eq_true, if_false, if_true, List.zip_map', List.map_map]
    exact hput
  refine gives_of_onDev hc ?_
  rw [veEff_runs hsc hplain hmicro]
  have heng := Device.eng_veSet (d := s.dev) (sc := sc) (v := { (s.dev.eng sc).ve with mode := modeOfType m.typ, k := tset m.dst k (s.dev.eng sc).ve.k })
    hline
  refine ⟨fun l hl => ?_, fun j hj l => ?_, ?_, fun j hj => s.dev.eng_veSet_other _ hj, rfl⟩
  · rw [heng]
    exact (Ve.kBit_tset_same _ k l hlo).trans (hbits l hl)
  · rw [heng]
    exact Ve.kBit_tset_other _ k l hj
  · rw [heng]

end

/-! ### Lane moves and candidate fields (R226, R227) -/

/-- A source that is there reads the same as a list and lane by lane. -/
theorem Ve.getD_source {v : Ve} {m : Micro} {s : Nat} (h : v.gives m s) (l : Nat) :
    ((List.range (lanesN (modeOfType m.typ))).map (v.source m s)).getD l 0 = v.source m s l := by
  conv_rhs => rw [Ve.source, Ve.src_of_gives h]
  rfl

section
variable {d : Device} {sc : Nat} {m : Micro} (line : Nat → Nat → BitVec 4096)

/-- SHFX gives lane l the source's lane l XOR K, for K a power of two below the lanes (R227). -/
theorem Device.micro_shfx {j : Nat} (hr : d.veReady sc 0x60 m) (himm : m.imm = 2 ^ j) (hj : 2 ^ j < lanesN (modeOfType m.typ)) :
    let e : Ve := { (d.eng sc).ve with mode := modeOfType m.typ }
    e.micro line 0x60 m = e.put m.dst m.mask ((List.range (lanesN (modeOfType m.typ))).map fun l =>
      canonLane m.typ ((d.eng sc).ve.source m m.a (l ^^^ 2 ^ j))) := by
  intro e
  have hsrcs := Device.srcs_of_veReady hr
  obtain ⟨-, hok, -, ha, -⟩ := hr
  have hk : m.imm % 512 = 2 ^ j := by
    simp only [microOk, immOk, Bool.and_eq_true] at hok
    rw [Nat.mod_eq_of_lt (by simpa using hok.2), himm]
  unfold Ve.micro
  simp only [e, hok, hsrcs, hk, hj, Nat.two_pow_pos, Nat.log2_two_pow, Bool.not_true, Bool.false_eq_true, if_false, decide_true, Bool.and_true, beq_self_eq_true,
    if_true, show microCompares 0x60 = false from rfl]
  refine congrArg (Ve.put _ m.dst m.mask) (List.map_congr_left fun l _ => ?_)
  exact congrArg (canonLane m.typ) (Ve.getD_source (ha (by decide)) _)

/-- SHFI gives lane l the lane of A that B's lane names, modulo the lanes (R227). -/
theorem Device.micro_shfi (hr : d.veReady sc 0x61 m) :
    let e : Ve := { (d.eng sc).ve with mode := modeOfType m.typ }
    e.micro line 0x61 m = e.put m.dst m.mask ((List.range (lanesN (modeOfType m.typ))).map fun l =>
      canonLane m.typ ((d.eng sc).ve.source m m.a ((d.eng sc).ve.source m m.b l % lanesN (modeOfType m.typ)))) := by
  intro e
  have hsrcs := Device.srcs_of_veReady hr
  obtain ⟨-, hok, -, ha, -⟩ := hr
  unfold Ve.micro
  simp only [e, hok, hsrcs, Bool.not_true, Bool.false_eq_true, if_false, List.map_map, show microCompares 0x61 = false from rfl]
  refine congrArg (Ve.put _ m.dst m.mask) (List.map_congr_left fun l _ => ?_)
  exact congrArg (canonLane m.typ) (Ve.getD_source (ha (by decide)) _)

/-- BCASTL gives every lane the source's lane that IMM names (R227). -/
theorem Device.micro_bcastl (hr : d.veReady sc 0x62 m) (himm : m.imm < lanesN (modeOfType m.typ)) :
    let e : Ve := { (d.eng sc).ve with mode := modeOfType m.typ }
    e.micro line 0x62 m = e.put m.dst m.mask ((List.range (lanesN (modeOfType m.typ))).map fun _ => canonLane m.typ ((d.eng sc).ve.source m m.a m.imm)) := by
  intro e
  have hsrcs := Device.srcs_of_veReady hr
  obtain ⟨-, hok, -, ha, -⟩ := hr
  have hk : m.imm % 512 = m.imm := by
    simp only [microOk, immOk, Bool.and_eq_true] at hok
    exact Nat.mod_eq_of_lt (by simpa using hok.2)
  unfold Ve.micro
  simp only [e, hok, hsrcs, hk, himm, Bool.not_true, Bool.false_eq_true, if_false, if_true, show microCompares 0x62 = false from rfl]
  rw [List.map_const', List.length_range]
  exact congrArg (fun x => Ve.put _ _ _ (List.replicate _ (canonLane m.typ x))) (Ve.getD_source (ha (by decide)) _)

/-- ATTRF gives each lane a field of its candidate's word as FP32 (R226). -/
theorem Device.micro_attrf (hr : d.veReady sc 0x41 m) (hfield : attrfOk m.imm = true) :
    let e : Ve := { (d.eng sc).ve with mode := modeOfType m.typ }
    e.micro line 0x41 m = e.put m.dst m.mask ((List.range (lanesN (modeOfType m.typ))).map fun l =>
      (attrF32 (bits 22 21 m.imm) (bits 20 15 m.imm) (bits 14 8 m.imm) ((tget [] l (d.eng sc).ve.attrs).getD (bits 25 23 m.imm) 0)).toNat) := by
  intro e
  have hsrcs := Device.srcs_of_veReady hr
  obtain ⟨-, hok, -⟩ := hr
  unfold Ve.micro
  simp only [e, hok, hsrcs, hfield, Bool.not_true, Bool.false_eq_true, if_false, if_true]
  rfl

end

/-- Settles O40: compares by the mask bits they write, the others by the lanes they write. -/
theorem vectorComparesAndMoves : Obligations.VectorComparesAndMoves := by
  unfold Obligations.VectorComparesAndMoves
  intro s sc ctx m d v a b n lanes tgts marks
  have hnone {op : Nat} (h : usesTile op = false) : usesTile op = true → s.dev.lineFree sc ctx m := fun h' => by rw [h] at h'; cases h'
  refine ⟨fun hlo hhi => ⟨?_, ?_, ?_, ?_⟩, ?_, ?_, ?_, ?_, ?_, ?_, ?_, ?_, ?_, ?_, ?_⟩
  · exact fun hr => gives_compare (op := 0x30) rfl hr rfl hlo hhi
  · exact fun hr => gives_compare (op := 0x31) rfl hr rfl hlo hhi
  · exact fun hr => gives_compare (op := 0x32) rfl hr rfl hlo hhi
  · intro hr
    obtain ⟨f, hf⟩ : ∃ f, typeFloat m.typ = some f :=
      Option.isSome_iff_exists.1 ((by decide : ∀ t ∈ microTypes 0x33, (typeFloat t).isSome = true) _ (Device.typ_of_veReady hr))
    have h := gives_compare (ctx := ctx) (c := .veCmpun sc ctx m) rfl hr rfl hlo hhi
    simp only [compareLane, hf] at h ⊢
    exact h
  · exact fun hr ht hsel => gives_laneOp (op := 0x34) rfl hr ht rfl fun _ => hsel
  · exact fun hr ht hfield => gives_veWrote _ rfl hr (hnone rfl) ht (Device.micro_attrf _ hr hfield)
  · exact fun j hr ht himm hj => gives_veWrote _ rfl hr (hnone rfl) ht (Device.micro_shfx _ hr himm hj)
  · exact fun hr ht himm => gives_veWrote _ rfl hr (hnone rfl) ht (Device.micro_bcastl _ hr himm)
  · exact fun hr ht => gives_laneOp (op := 0x40) rfl hr ht rfl fun h => absurd h (by decide)
  · exact fun hr ht => gives_int (op := 0x50) rfl hr ht rfl (by decide)
  · exact fun hr ht => gives_int (op := 0x51) rfl hr ht rfl (by decide)
  · exact fun hr ht => gives_int (op := 0x52) rfl hr ht rfl (by decide)
  · intro hr ht
    have h := gives_int (c := .veShl sc ctx m) (ctx := ctx) rfl hr ht rfl (by decide)
    have htyp : m.typ = 1 := by simpa [show microTypes 0x53 = [1] from rfl] using Device.typ_of_veReady hr
    simp only [htyp] at h
    exact h
  · exact fun hr ht => gives_int (op := 0x54) rfl hr ht rfl (by decide)
  · exact fun hr ht => gives_veWrote _ rfl hr (hnone rfl) ht (Device.micro_shfi _ hr)

end Sys2Proof.Machine
end

section
/-! Exact accumulators and tile-buffer lines of the Vector Engine (R217, R220, R225). -/

namespace Sys2Proof.Machine

/-! ### Exact accumulation (R225) -/

/-- An accumulator with one more product. -/
def LaneAcc.plus (q : LaneAcc) (a b : Nat) : LaneAcc := { sum := vAdd q.sum (vMul (fDecode fmtFP32 a) (fDecode fmtFP32 b)), count := q.count + 1 }

/-- XMAC on one lane: none where its accumulator takes its 2^24th product. -/
def Ve.xmacLane (e : Ve) (mask : Nat) (a b : Nat → Nat) (t : Tab LaneAcc) (l : Nat) : Option (Tab LaneAcc) :=
  if !e.kBit mask l then some t
  else if (tget ({} : LaneAcc) l t).count + 1 < 2 ^ 24 then some (tset l ((tget ({} : LaneAcc) l t).plus (a l) (b l)) t) else none

/-- XMAC goes through its lanes in turn. -/
theorem Ve.xmac_eq (e : Ve) (mask n : Nat) (a b : Nat → Nat) :
    e.xmac mask ((List.range n).map a) ((List.range n).map b) =
      ((List.range n).foldl (fun t l => t.bind fun t => e.xmacLane mask a b t l) (some e.acc)).map fun t => { e with acc := t } := by
  unfold Ve.xmac
  simp only [List.zip_map', zipIdx_map_range, List.foldl_map]
  rfl

/-- The accumulators after n lanes of XMAC, where each has room for a product. -/
theorem Ve.xmac_lanes {e : Ve} {mask n : Nat} (a b : Nat → Nat)
    (hroom : ∀ l, l < n → e.kBit mask l = true → (tget ({} : LaneAcc) l e.acc).count + 1 < 2 ^ 24) :
    ∃ t, (List.range n).foldl (fun t l => t.bind fun t => e.xmacLane mask a b t l) (some e.acc) = some t ∧
      ∀ l, tget ({} : LaneAcc) l t = if l < n ∧ e.kBit mask l = true then (tget ({} : LaneAcc) l e.acc).plus (a l) (b l) else tget ({} : LaneAcc) l e.acc := by
  induction n with
  | zero => exact ⟨e.acc, rfl, fun l => by simp⟩
  | succ n ih =>
    obtain ⟨t, hfold, hlanes⟩ := ih fun l hl => hroom l (Nat.lt_succ_of_lt hl)
    have hold : tget ({} : LaneAcc) n t = tget ({} : LaneAcc) n e.acc := by rw [hlanes, if_neg (by omega)]
    rw [List.range_succ, List.foldl_append, hfold]
    simp only [List.foldl_cons, List.foldl_nil, Option.bind_some, Ve.xmacLane, hold]
    cases hn : e.kBit mask n with
    | false =>
      refine ⟨t, rfl, fun l => ?_⟩
      rw [hlanes]
      by_cases hl : l = n
      · simp [hl, hn]
      · simp [show l < n + 1 ↔ l < n by omega]
    | true =>
      refine ⟨_, by rw [Bool.not_true, if_neg Bool.false_ne_true, if_pos (hroom n n.lt_succ_self hn)], fun l => ?_⟩
      by_cases hl : l = n
      · simp [hl, hn]
      · rw [tget_tset_other _ _ _ _ _ hl, hlanes]
        simp [show l < n + 1 ↔ l < n by omega]

/-- Entries of a table left out by their keys. -/
theorem tget_filter_key {α : Type} (p : Nat → Bool) (z : α) (k : Nat) (t : Tab α) :
    tget z k (t.filter fun q => p q.1) = if p k = true then tget z k t else z := by
  induction t with
  | nil => simp [tget]
  | cons q t ih =>
    obtain ⟨j, v⟩ := q
    rw [List.filter_cons]
    by_cases hj : j = k
    · subst hj
      split
      · simp [tget]
      · next hp => simpa [hp] using ih
    · split
      · simpa [tget, hj] using ih
      · simpa [tget, hj] using ih

/-- XCLOSE to a register: the sums rounded once where the predicate names the lane, whose accumulators go. -/
theorem Ve.xclose_register (e : Ve) {dst : Nat} (mask : Nat) (hdst : dst < 32) :
    e.xclose dst mask = some { e with
      v := tset dst (ofLanes e.mode ((List.range (lanesN e.mode)).map fun l =>
        if e.kBit mask l then fPack fmtFP32 (tget ({} : LaneAcc) l e.acc).sum else (lanesOf e.mode (tget 0 dst e.v)).getD l 0)) e.v
      acc := e.acc.filter fun p => !e.kBit mask p.1 } := by
  simp only [Ve.xclose, Ve.put_register _ hdst, Option.map_some]

section
variable {s : State} {sc ctx : Nat} {m : Micro}

/-- XMAC adds its product to the accumulator of each lane that its predicate names. -/
theorem gives_veXmac (hr : s.dev.veReady sc 0x70 m)
    (hroom : ∀ l, l < 128 → (s.dev.eng sc).ve.kBit m.mask l = true → (tget ({} : LaneAcc) l (s.dev.eng sc).ve.acc).count + 1 < 2 ^ 24) :
    gives (.veXmac sc ctx m) s fun e =>
      let v := (s.dev.eng sc).ve
      (∀ l, l < 128 → tget ({} : LaneAcc) l (e.eng sc).ve.acc =
        if v.kBit m.mask l = true then (tget ({} : LaneAcc) l v.acc).plus (v.source m m.a l) (v.source m m.b l) else tget ({} : LaneAcc) l v.acc) ∧
        e.eng sc = { s.dev.eng sc with ve := { v with mode := 0, acc := (e.eng sc).ve.acc } } ∧ e = { s.dev with engines := e.engines } := by
  have hsrcs := Device.srcs_of_veReady hr
  have htyp : m.typ = 0 := by simpa [show microTypes 0x70 = [0] from rfl] using Device.typ_of_veReady hr
  obtain ⟨hsc, hok, hline, -⟩ := hr
  have hmode : modeOfType m.typ = 0 := by rw [htyp]; rfl
  obtain ⟨t, hfold, hlanes⟩ := Ve.xmac_lanes (e := { (s.dev.eng sc).ve with mode := modeOfType m.typ }) (n := lanesN (modeOfType m.typ))
    ((s.dev.eng sc).ve.source m m.a) ((s.dev.eng sc).ve.source m m.b) (by rw [hmode]; exact hroom)
  have hmicro : ({ (s.dev.eng sc).ve with mode := modeOfType m.typ } : Ve).micro (s.dev.eng sc).tileLine 0x70 m =
      some { (s.dev.eng sc).ve with mode := modeOfType m.typ, acc := t } := by
    unfold Ve.micro
    simp only [hok, hsrcs, Bool.not_true, Bool.false_eq_true, if_false, show microCompares 0x70 = false from rfl]
    exact (Ve.xmac_eq _ _ _ _ _).trans (congrArg (Option.map _) hfold)
  refine gives_of_onDev (F := veEff 0x70 sc ctx m) rfl ?_
  rw [veEff_runs hsc (fun h => absurd h (by decide)) hmicro]
  have heng := Device.eng_veSet (d := s.dev) (sc := sc) (v := { (s.dev.eng sc).ve with mode := modeOfType m.typ, acc := t }) hline
  rw [hmode] at hlanes
  refine ⟨fun l hl => ?_, ?_, rfl⟩
  · rw [heng]
    exact (hlanes l).trans (if_congr (and_iff_right hl) rfl rfl)
  · rw [heng, hmode]

/-- XCLOSE writes each sum that its predicate names rounded once and clears its accumulator. -/
theorem gives_veXclose (hr : s.dev.veReady sc 0x71 m) (hdst : m.dst < 32) :
    gives (.veXclose sc ctx m) s fun e =>
      let v := (s.dev.eng sc).ve
      let v' := (e.eng sc).ve
      (∀ l, l < 128 → v'.lane m m.dst l =
          (if v.kBit m.mask l = true then fPack fmtFP32 (tget ({} : LaneAcc) l v.acc).sum % 2 ^ 32 else v.lane m m.dst l) ∧
        (v.kBit m.mask l = true → tget ({} : LaneAcc) l v'.acc = {}) ∧
        (¬ v.kBit m.mask l = true → tget ({} : LaneAcc) l v'.acc = tget ({} : LaneAcc) l v.acc)) ∧
      (∀ r, r ≠ m.dst → tget 0 r v'.v = tget 0 r v.v) ∧
      e.eng sc = { s.dev.eng sc with ve := { v with mode := 0, acc := v'.acc, v := v'.v } } ∧ e = { s.dev with engines := e.engines } := by
  have hsrcs := Device.srcs_of_veReady hr
  have htyp : m.typ = 0 := by simpa [show microTypes 0x71 = [0] from rfl] using Device.typ_of_veReady hr
  obtain ⟨hsc, hok, hline, -⟩ := hr
  have hmode : modeOfType m.typ = 0 := by rw [htyp]; rfl
  let v : Ve := { (s.dev.eng sc).ve with mode := modeOfType m.typ }
  have hmicro : v.micro (s.dev.eng sc).tileLine 0x71 m = v.xclose m.dst m.mask := by
    unfold Ve.micro
    simp only [v, hok, hsrcs, Bool.not_true, Bool.false_eq_true, if_false, show microCompares 0x71 = false from rfl]
  refine gives_of_onDev (F := veEff 0x71 sc ctx m) rfl ?_
  rw [veEff_runs hsc (fun h => absurd h (by decide)) (hmicro.trans (v.xclose_register m.mask hdst)), Device.eng_veSet (by exact hline)]
  have hacc (l : Nat) := tget_filter_key (fun l => !v.kBit m.mask l) ({} : LaneAcc) l v.acc
  refine ⟨fun l hl => ⟨?_, fun hon => ?_, fun hoff => ?_⟩, fun r hr => tget_tset_other _ _ _ _ _ hr, ?_, rfl⟩
  · rw [Ve.lane, tget_tset_same]
    rw [← show lanesN (modeOfType m.typ) = 128 by rw [hmode]; rfl] at hl
    refine (getD_lanesOf_ofLanes_under _ _ _ hl).trans ?_
    rw [show laneBits (modeOfType m.typ) = 32 by rw [hmode]; rfl]
    rfl
  · exact (hacc l).trans (if_neg (by rw [show v.kBit m.mask l = true from hon]; decide))
  · exact (hacc l).trans (if_pos (by rw [show v.kBit m.mask l = false from Bool.eq_false_iff.2 hoff]; rfl))
  · rw [show v.mode = 0 from hmode]

end

/-! ### Tile-buffer lines (R217, R220) -/

/-- Lane l of a line merged under the bits of whole lanes: the new lane where its bits are set, and the old one elsewhere. -/
theorem lane_merged {mode l : Nat} (x y : BitVec 4096) (on : Nat → Bool) (hl : l < lanesN mode) :
    let w := laneBits mode
    let k := ofLanes mode ((List.range (lanesN mode)).map fun l => if on l then 2 ^ w - 1 else 0)
    ((x &&& ~~~k) ||| (y &&& k)).toNat / 2 ^ (l * w) % 2 ^ w = (if on l then y else x).toNat / 2 ^ (l * w) % 2 ^ w := by
  intro w k
  have hlane (v : BitVec 4096) : v.toNat / 2 ^ (l * w) % 2 ^ w = (v.extractLsb' (l * w) w).toNat := by
    rw [BitVec.extractLsb'_toNat, Nat.shiftRight_eq_div_pow]
  have hk : (k.extractLsb' (l * w) w).toNat = if on l then 2 ^ w - 1 else 0 := by
    have h := congrArg (fun xs => xs.getD l 0) (lanesOf_ofLanes mode fun l => if on l then 2 ^ w - 1 else 0)
    simp only [getD_lanesOf _ hl] at h
    rw [← hlane, h]
    simp only [List.getD_eq_getElem?_getD, List.getElem?_map, List.getElem?_range hl, Option.map_some, Option.getD_some]
    split
    · exact Nat.mod_eq_of_lt (Nat.sub_lt (Nat.two_pow_pos w) Nat.one_pos)
    · exact Nat.zero_mod _
  have hbit (i : Nat) (hi : i < w) : k.getLsbD (l * w + i) = on l := by
    have h : (k.extractLsb' (l * w) w).getLsbD i = k.getLsbD (l * w + i) := by simp [hi]
    rw [← h, BitVec.getLsbD, hk]
    cases on l <;> simp [Nat.testBit_two_pow_sub_one, hi]
  rw [hlane, hlane]
  refine congrArg BitVec.toNat (BitVec.eq_of_getLsbD_eq fun i hi => ?_)
  have hwide : l * w + i < 4096 := by
    rw [← lanesN_mul_laneBits mode]
    nlinarith
  simp only [BitVec.getLsbD_extractLsb', hi, decide_true, Bool.true_and, BitVec.getLsbD_or, BitVec.getLsbD_and, BitVec.getLsbD_not, hwide, hbit i hi]
  cases on l <;> simp

/-- One line written: it takes the bits written, and every other line stays. -/
theorem Engines.commitLines_one {g : Engines} {buf ln : Nat} {x k : BitVec 4096} (h : g.ve.lineOut = [(buf, ln, x, k)]) :
    g.commitLines.tileLine buf ln = (g.tileLine buf ln &&& ~~~k) ||| (x &&& k) ∧
      (∀ t i, (t ≠ buf ∨ i ≠ ln) → g.commitLines.tileLine t i = g.tileLine t i) ∧
      g.commitLines = { g with ve := { g.ve with lineOut := [] }, tb := g.commitLines.tb } := by
  have htb : g.commitLines.tb = tmod ({} : TileBuf) buf (fun b => { b with
      lines := tset ln ((tget 0 ln b.lines &&& ~~~k) ||| (x &&& k)) b.lines }) g.tb := by
    simp [Engines.commitLines, h]
  refine ⟨?_, fun t i hne => ?_, rfl⟩
  · simp [Engines.tileLine, htb]
  · by_cases ht : t = buf
    · have hi : i ≠ ln := hne.resolve_left (not_not.2 ht)
      subst ht
      simp [Engines.tileLine, htb, tget_tset_other _ _ _ _ _ hi]
    · simp [Engines.tileLine, htb, tget_tmod_other _ _ _ _ _ ht]

section
variable {s : State} {sc ctx : Nat} {m : Micro}

/-- LDL gives each lane that its predicate names the line's lane. -/
theorem gives_veLdl (hr : s.dev.veReady sc 0x80 m) (htgt : m.dst < 32 ∨ (48 ≤ m.dst ∧ m.dst < 54)) (hfree : s.dev.lineFree sc ctx m) :
    gives (.veLdl sc ctx m) s fun e => s.dev.veWrote e sc m fun l => canonLane m.typ
      (((s.dev.eng sc).tileLine (bits 25 24 m.imm) (bits 23 17 m.imm)).toNat / 2 ^ (l * laneBits (modeOfType m.typ)) % 2 ^ laneBits (modeOfType m.typ)) := by
  refine gives_veWrote (op := 0x80) _ rfl hr (fun _ => hfree) htgt ?_
  have hsrcs := Device.srcs_of_veReady hr
  obtain ⟨-, hok, -⟩ := hr
  unfold Ve.micro
  simp only [hok, hsrcs, Bool.not_true, Bool.false_eq_true, if_false, lanesOf, List.map_map]
  rfl

/-- STL writes each lane that its predicate names, and that is no tail lane, to the line. -/
theorem gives_veStl (hr : s.dev.veReady sc 0x81 m) (hdst : m.dst = 0) (hfree : s.dev.lineFree sc ctx m) :
    gives (.veStl sc ctx m) s fun e =>
      let g := s.dev.eng sc
      let buf := bits 25 24 m.imm
      let ln := bits 23 17 m.imm
      (∀ l, l < lanesN (modeOfType m.typ) →
        let w := laneBits (modeOfType m.typ)
        ((e.eng sc).tileLine buf ln).toNat / 2 ^ (l * w) % 2 ^ w =
          if g.ve.kBit m.mask l = true ∧ l < g.ve.tail then g.ve.source m m.a l % 2 ^ w else (g.tileLine buf ln).toNat / 2 ^ (l * w) % 2 ^ w) ∧
      (∀ t i, (t ≠ buf ∨ i ≠ ln) → (e.eng sc).tileLine t i = g.tileLine t i) ∧
      e.eng sc = { g with ve := { g.ve with mode := modeOfType m.typ }, tb := (e.eng sc).tb } ∧ e = { s.dev with engines := e.engines } := by
  have hsrcs := Device.srcs_of_veReady hr
  obtain ⟨hsc, hok, hline, -⟩ := hr
  let g := s.dev.eng sc
  let x := ofLanes (modeOfType m.typ) ((List.range (lanesN (modeOfType m.typ))).map (g.ve.source m m.a))
  let on := fun l => g.ve.kBit m.mask l && decide (l < g.ve.tail)
  let k := ofLanes (modeOfType m.typ) ((List.range (lanesN (modeOfType m.typ))).map fun l => if on l then 2 ^ laneBits (modeOfType m.typ) - 1 else 0)
  have hmicro : ({ g.ve with mode := modeOfType m.typ } : Ve).micro g.tileLine 0x81 m =
      some { g.ve with mode := modeOfType m.typ, lineOut := g.ve.lineOut ++ [(bits 25 24 m.imm, bits 23 17 m.imm, x, k)] } := by
    unfold Ve.micro
    simp only [g, hok, hsrcs, hdst, Bool.not_true, Bool.false_eq_true, if_false, not_true, ne_eq, show microCompares 0x81 = false from rfl]
    rfl
  refine gives_of_onDev (F := veEff 0x81 sc ctx m) rfl ?_
  rw [veEff_runs hsc (fun _ => hfree) hmicro]
  obtain ⟨hwritten, hothers, honly⟩ := Engines.commitLines_one
    (g := { g with ve := { g.ve with mode := modeOfType m.typ, lineOut := g.ve.lineOut ++ [(bits 25 24 m.imm, bits 23 17 m.imm, x, k)] } })
    (buf := bits 25 24 m.imm) (ln := bits 23 17 m.imm) (x := x) (k := k) (by simp only [g, hline, List.nil_append])
  rw [Device.veSet, Device.eng_modEng_same]
  refine ⟨fun l hl => ?_, hothers, ?_, rfl⟩
  · have hx : x.toNat / 2 ^ (l * laneBits (modeOfType m.typ)) % 2 ^ laneBits (modeOfType m.typ) = g.ve.source m m.a l % 2 ^ laneBits (modeOfType m.typ) := by
      rw [← getD_lanesOf x hl, lanesOf_ofLanes]
      simp [hl]
    rw [hwritten]
    refine (lane_merged _ _ on hl).trans ?_
    rw [apply_ite fun v : BitVec 4096 => v.toNat / 2 ^ (l * laneBits (modeOfType m.typ)) % 2 ^ laneBits (modeOfType m.typ), hx]
    exact if_congr (by simp [on, g]) rfl rfl
  · rw [honly]
    simp only [g, hline]

end

end Sys2Proof.Machine
end

section
/-! A Vector Engine program of one micro-op over one lane group (R228, R231): its block, its run and its end; and O41. -/

namespace Sys2Proof.Machine

/-! ### One block (R217, R226, R231) -/

/-- A micro-op word that reads no port, uses no tile-buffer line and takes no field of a candidate's word. -/
structure PlainOp (w : W64) : Prop where
  ports : portsRead [w] = []
  tile  : usesTile (microOf w).1 = false
  attr  : (microOf w).1 ≠ 0x41

/-- The end of a block: its writes to ports and lines. -/
def VeRunning.written (r : VeRunning) (sc : Nat) (q : VeDesc) (g i0 i1 i2 : Nat) : VeRunning :=
  let r3 := r.ve.outs.foldl (fun r o => r.writePort sc q g i0 i1 i2 o) r
  let e := ({ r3.dev.eng sc with ve := r3.ve } : Engines).commitLines
  { r3 with dev := r3.dev.modEng sc (fun _ => e), ve := e.ve }

/-- A block that gives no port a value and writes no line leaves its registers. -/
theorem VeRunning.written_none {r : VeRunning} {sc : Nat} {q : VeDesc} (g i0 i1 i2 : Nat) (houts : r.ve.outs = []) (hline : r.ve.lineOut = []) :
    r.written sc q g i0 i1 i2 = { r with dev := r.dev.veSet sc r.ve } := by
  have hempty : ({ r.ve with lineOut := [] } : Ve) = r.ve := by rw [← hline]
  have hset : r.dev.modEng sc (fun _ => ({ r.dev.eng sc with ve := r.ve } : Engines).commitLines) = r.dev.veSet sc r.ve := rfl
  simp only [VeRunning.written, houts, List.foldl_nil, hset]
  simp only [Engines.commitLines, hempty]

/-- A word that uses no line runs as its micro-op. -/
theorem VeRunning.op_plain {r : VeRunning} {sc ctx : Nat} {w : W64} {v : Ve} (hstop : r.stop.isSome = false) (htile : usesTile (microOf w).1 = false)
    (hv : r.ve.micro (r.dev.eng sc).tileLine (microOf w).1 (microOf w).2 = some v) : r.op sc ctx w = { r with ve := v } := by
  simp only [VeRunning.op, hstop, htile, Bool.false_and, Bool.false_eq_true, if_false, hv]

/-- A block of one such word is its micro-op, its lines written. -/
theorem VeRunning.block_one {r : VeRunning} {sc : Nat} {q : VeDesc} {w : W64} {v1 : Ve} (g i0 i1 i2 : Nat) (hw : PlainOp w) (hstop : r.stop.isSome = false)
    (hv : ({ r.ve with outs := [], loops := (i0, i1, i2, g) } : Ve).micro (r.dev.eng sc).tileLine (microOf w).1 (microOf w).2 = some v1)
    (houts : v1.outs = []) (hline : v1.lineOut = []) :
    r.block sc q [w] g i0 i1 i2 = { r with dev := r.dev.veSet sc v1, ve := v1 } := by
  have hany : ([w].any fun w => (microOf w).1 == 0x41) = false := by simpa using hw.attr
  have hblock : r.block sc q [w] g i0 i1 i2 =
      (({ r with ve := { r.ve with outs := [], loops := (i0, i1, i2, g) } } : VeRunning).op sc q.ctx w).written sc q g i0 i1 i2 := by
    unfold VeRunning.block
    simp only [hw.ports, hany, hstop, List.isEmpty_cons, Bool.or_false, Bool.false_eq_true, if_false, List.foldl_nil, List.foldl_cons]
    rfl
  have hop : ({ r with ve := { r.ve with outs := [], loops := (i0, i1, i2, g) } } : VeRunning).op sc q.ctx w = { r with ve := v1 } :=
    VeRunning.op_plain hstop hw.tile hv
  rw [hblock, hop]
  exact VeRunning.written_none g i0 i1 i2 houts hline

/-- A program whose one block is its body. -/
structure BodyOnly (p : VeProg) (ws : List W64) : Prop where
  init : p.init = []
  body : p.body = ws
  end0 : p.end0 = []
  end1 : p.end1 = []
  end2 : p.end2 = []

/-- Loops of one iteration each, over one lane group. -/
structure OneGroup (q : VeDesc) : Prop where
  n0     : q.n0 = 1
  n1     : q.n1 = 1
  n2     : q.n2 = 1
  pos    : 1 ≤ q.extent
  extent : q.extent ≤ lanesN q.mode

theorem VeRunning.block_nil (r : VeRunning) (sc : Nat) (q : VeDesc) (g i0 i1 i2 : Nat) : r.block sc q [] g i0 i1 i2 = r := rfl

/-- The one lane group of such a program is its body's one execution. -/
theorem VeRunning.group_one {r : VeRunning} {sc : Nat} {q : VeDesc} {p : VeProg} {ws : List W64} (hp : BodyOnly p ws) (hq : OneGroup q) :
    r.group sc q p 0 = ({ r with ve := { r.ve with v := [], k := [], acc := [], tail := q.extent } } : VeRunning).block sc q ws 0 0 0 0 := by
  obtain ⟨hinit, hbody, h0, h1, h2⟩ := hp
  have htail : min (lanesN q.mode) (q.extent - 0 * lanesN q.mode) = q.extent := by
    rw [Nat.zero_mul, Nat.sub_zero]
    exact Nat.min_eq_right hq.extent
  simp only [VeRunning.group, hinit, hbody, h0, h1, h2, hq.n0, hq.n1, hq.n2, htail, VeRunning.block_nil, List.range_one, List.foldl_cons, List.foldl_nil]

/-! ### A descriptor's run (R228, R231, R240) -/

/-- The registers as the one block of a program finds them. -/
def Ve.begun (v : Ve) (q : VeDesc) (p : VeProg) : Ve :=
  { v with mode := q.mode, x := (p.consts.zipIdx.map fun k => (k.2, k.1)) ++ q.xinit.zipIdx.map fun k => (12 + k.2, k.1),
           ports := [], outs := [], lineOut := [], v := [], k := [], acc := [], tail := q.extent, loops := (0, 0, 0, 0) }

theorem VeDesc.groups_one {q : VeDesc} (hq : OneGroup q) : ceilDiv q.extent (lanesN q.mode) = 1 := by
  have hsome := hq.pos
  have hfits := hq.extent
  rw [ceilDiv, Nat.div_eq_of_lt_le (k := 1)] <;> omega

/-- Such a program runs to its end. -/
theorem Device.veStart_one {d : Device} {sc : Nat} {q : VeDesc} {p : VeProg} {w : W64} {v1 : Ve} (hp : BodyOnly p [w]) (hq : OneGroup q) (hw : PlainOp w)
    (hv : ((d.eng sc).ve.begun q p).micro (d.eng sc).tileLine (microOf w).1 (microOf w).2 = some v1) (houts : v1.outs = []) (hline : v1.lineOut = []) :
    d.veStart sc q p ([], []) = { dev := d.veSet sc v1, ve := v1, ftq := (d.eng sc).ftq, csq := (d.eng sc).csq } := by
  simp only [Device.veStart, VeDesc.groups_one hq, List.range_one, List.foldl_cons, List.foldl_nil, List.nil_append]
  rw [VeRunning.group_one hp hq]
  exact VeRunning.block_one 0 0 0 0 hw rfl hv houts hline

/-- Tiles that find room in the FTQ move nothing else of the engines (R191). -/
theorem Engines.unsaveFtq_unholdFtq_keeps (g : Engines) (ctx : Nat) :
    (g.unholdFtq.unsaveFtq ctx).ve = g.ve ∧ (g.unholdFtq.unsaveFtq ctx).meNext = g.meNext ∧ (g.unholdFtq.unsaveFtq ctx).ceNext = g.ceNext := by
  have hunhold : g.unholdFtq.ve = g.ve ∧ g.unholdFtq.meNext = g.meNext ∧ g.unholdFtq.ceNext = g.ceNext := by
    unfold Engines.unholdFtq
    split
    · split <;> exact ⟨rfl, rfl, rfl⟩
    · exact ⟨rfl, rfl, rfl⟩
  have hunsave (e : Engines) : (e.unsaveFtq ctx).ve = e.ve ∧ (e.unsaveFtq ctx).meNext = e.meNext ∧ (e.unsaveFtq ctx).ceNext = e.ceNext := by
    unfold Engines.unsaveFtq
    dsimp only
    split <;> exact ⟨rfl, rfl, rfl⟩
  obtain ⟨hve, hme, hce⟩ := hunsave g.unholdFtq
  exact ⟨hve.trans hunhold.1, hme.trans hunhold.2.1, hce.trans hunhold.2.2⟩

/-- Where no entry leaves the queues and the ME and the CE keep no descriptor, only tiles that waited for room move (R191). -/
theorem Device.veLeave_none {d : Device} {sc : Nat} (ctx : Nat) (hfree : d.enginesFree sc) :
    d.veLeave sc ctx 0 0 = d.modEng sc fun g => g.unholdFtq.unsaveFtq ctx := by
  obtain ⟨-, hme, hce⟩ := (d.eng sc).unsaveFtq_unholdFtq_keeps ctx
  simp only [Device.veLeave, List.take_zero, List.foldl_nil, List.drop_zero]
  exact Device.enginesResume_free (by rw [Device.eng_modEng_same]; exact hme.trans hfree.1) (by rw [Device.eng_modEng_same]; exact hce.trans hfree.2)

/-- The device once a run that read no queue and took no ring has ended: its registers stand, and no descriptor waits. -/
def VeRunning.kept (r : VeRunning) (sc : Nat) : Device := r.dev.modEng sc fun g => { g with ve := r.ve, veNext := none }

/-- What a run that read no queue and took no ring leaves at its end, its context being nobody's. -/
theorem VeRunning.finish_plain {r : VeRunning} {sc : Nat} {q : VeDesc} (htook : r.took = []) (hput : r.put = []) (hftq : r.ftqAt = none)
    (hcsq : r.csqAt = none) (hcmd : r.dev.ctxCmd q.ctx = none) (hfree : r.dev.enginesFree sc) :
    let e := r.finish sc q ([], [])
    (e.eng sc).ve = r.ve ∧ e.fresh = r.dev.fresh + 2048 ∧ e.mem = r.dev.mem ∧ ∀ k, k ≠ sc → e.eng k = r.dev.eng k := by
  have heng : (r.kept sc).eng sc = { r.dev.eng sc with ve := r.ve, veNext := none } := Device.eng_modEng_same _ _ _
  have hfree0 : (r.kept sc).enginesFree sc := by
    unfold Device.enginesFree
    rw [heng]
    exact hfree
  have hend : r.finish sc q ([], []) = { (r.kept sc).modEng sc fun g => g.unholdFtq.unsaveFtq q.ctx with fresh := r.dev.fresh + 2048 } := by
    have hleave := Device.veLeave_none q.ctx hfree0
    simp only [VeRunning.kept] at hleave
    simp only [VeRunning.finish, htook, hput, hftq, hcsq, RingWork.delivered, RingWork.restored, List.isEmpty_nil, List.foldl_nil, Option.elim_none,
      List.length_nil, Nat.sub_zero, if_true, hleave]
    split
    · next c hc => exact absurd (hc.symm.trans hcmd) (Option.some_ne_none c)
    · rfl
  rw [hend]
  refine ⟨?_, rfl, rfl, fun k hk => ?_⟩
  · calc _ = (((r.kept sc).eng sc).unholdFtq.unsaveFtq q.ctx).ve := congrArg Engines.ve ((r.kept sc).eng_modEng_same sc fun g => g.unholdFtq.unsaveFtq q.ctx)
      _ = ((r.kept sc).eng sc).ve := (Engines.unsaveFtq_unholdFtq_keeps _ _).1
      _ = r.ve := by rw [heng]
  · calc _ = (r.kept sc).eng k := (r.kept sc).eng_modEng_other (fun g => g.unholdFtq.unsaveFtq q.ctx) hk
      _ = r.dev.eng k := r.dev.eng_modEng_other _ hk

/-- The device with a program loaded (R228). -/
def Device.veLoad (d : Device) (sc slot : Nat) (p : VeProg) : Device :=
  d.modEng sc fun g => { g with ve := { g.ve with progs := tset slot p g.ve.progs } }

/-- A descriptor within its limits runs with the program that comes with it, where none waits (R228, R232). -/
theorem veRunEff_runs {d : Device} {sc : Nat} {desc : List Byte} {p : VeProg} (hsc : sc < 64) (hop : (parseVe desc).op = 1)
    (hok : (parseVe desc).ok = true) (hprog : (parseVe desc).progOk p = true) (hports : ∀ r ∈ (parseVe desc).ports, r.kind ≠ 1)
    (hnext : (d.eng sc).veNext = none) : veRunEff sc desc (some p) d = (d.veLoad sc (parseVe desc).slot p).veGo sc desc p 16 ([], []) := by
  have heng : (d.veLoad sc (parseVe desc).slot p).eng sc = _ := Device.eng_modEng_same d sc _
  have hwaits : ((d.veLoad sc (parseVe desc).slot p).eng sc).veNext = none := by rw [heng]; exact hnext
  have hthere : tfind (parseVe desc).slot ((d.veLoad sc (parseVe desc).slot p).eng sc).ve.progs = some p := by rw [heng]; exact tfind_tset_same _ _ _
  have hresume : (d.veLoad sc (parseVe desc).slot p).veResume sc = d.veLoad sc (parseVe desc).slot p := by
    simp only [Device.veResume, hwaits]
  have hmine : ((parseVe desc).ports.all fun r => r.kind != 1 ||
      ((d.veLoad sc (parseVe desc).slot p).eng sc).tileOk (parseVe desc).ctx (bits 17 16 r.addr)) = true :=
    List.all_eq_true.2 fun r hr => by simp [hports r hr]
  unfold Device.veLoad at hresume hwaits hthere hmine ⊢
  simp only [veRunEff, if_neg (Nat.not_le.mpr hsc), hresume, hwaits, hthere, hmine, hop, hok, hprog]
  simp

/-- A program of one such micro-op runs as that micro-op. -/
theorem gives_veRun {s : State} {sc : Nat} {desc : List Byte} {p : VeProg} {w : W64} {v1 : Ve} (hp : BodyOnly p [w]) (hq : OneGroup (parseVe desc))
    (hw : PlainOp w) (hsc : sc < 64) (hop : (parseVe desc).op = 1) (hok : (parseVe desc).ok = true) (hprog : (parseVe desc).progOk p = true)
    (hports : ∀ r ∈ (parseVe desc).ports, r.kind ≠ 1) (hnext : (s.dev.eng sc).veNext = none) (hfree : s.dev.enginesFree sc)
    (hcmd : s.dev.ctxCmd (parseVe desc).ctx = none)
    (hv : (({ (s.dev.eng sc).ve with progs := tset (parseVe desc).slot p (s.dev.eng sc).ve.progs } : Ve).begun (parseVe desc) p).micro
      (s.dev.eng sc).tileLine (microOf w).1 (microOf w).2 = some v1) (houts : v1.outs = []) (hline : v1.lineOut = []) :
    gives (.veRun sc desc (some p)) s fun e =>
      (e.eng sc).ve = v1 ∧ e.fresh = s.dev.fresh + 2048 ∧ e.mem = s.dev.mem ∧ ∀ k, k ≠ sc → e.eng k = s.dev.eng k := by
  refine gives_of_onDev (F := veRunEff sc desc (some p)) rfl ?_
  rw [veRunEff_runs hsc hop hok hprog hports hnext]
  let d1 := s.dev.veLoad sc (parseVe desc).slot p
  have heng : d1.eng sc = { s.dev.eng sc with ve := { (s.dev.eng sc).ve with progs := tset (parseVe desc).slot p (s.dev.eng sc).ve.progs } } :=
    Device.eng_modEng_same s.dev sc _
  have hrun := Device.veStart_one (d := d1) (sc := sc) hp hq hw (by rw [heng]; exact hv) houts hline
  have heng1 : (d1.veSet sc v1).eng sc = { d1.eng sc with ve := v1 } := Device.eng_veSet hline
  have hfree1 : (d1.veSet sc v1).enginesFree sc := by
    unfold Device.enginesFree
    rw [heng1, heng]
    exact hfree
  obtain ⟨hve, hfresh, hmem, hothers⟩ := VeRunning.finish_plain (r := { dev := d1.veSet sc v1, ve := v1, ftq := (d1.eng sc).ftq, csq := (d1.eng sc).csq })
    (sc := sc) (q := parseVe desc) rfl rfl rfl rfl hcmd hfree1
  have hgo : d1.veGo sc desc p 16 ([], []) = (d1.veStart sc (parseVe desc) p ([], [])).finish sc (parseVe desc) ([], []) := by
    rw [Device.veGo]
    simp only [hrun]
  rw [show s.dev.veLoad sc (parseVe desc).slot p = d1 from rfl, hgo, hrun]
  exact ⟨hve, hfresh, hmem, fun k hk => (hothers k hk).trans ((d1.eng_veSet_other v1 hk).trans (s.dev.eng_modEng_other _ hk))⟩

/-- Settles O41: accumulators and lines by the lanes they take, a program by its one micro-op. -/
theorem vectorAccumulatorsLinesAndRuns : Obligations.VectorAccumulatorsLinesAndRuns := by
  unfold Obligations.VectorAccumulatorsLinesAndRuns
  intro s sc ctx m d g v a b on acc buf ln
  refine ⟨fun hr hroom => gives_veXmac hr hroom, fun hr hdst => gives_veXclose hr hdst,
    fun hr htgt hok hheld hring => gives_veLdl hr htgt ⟨hok, hheld, hring⟩, fun hr hdst hok hheld hring => gives_veStl hr hdst ⟨hok, hheld, hring⟩, ?_⟩
  intro desc w p q hp hsc hop hok hprog hn0 hn1 hn2 hextent hports htile hattr hkinds hcmd hnext hfree xs start v1 hv houts hline
  have hbody : BodyOnly p [w] := ⟨congrArg VeProg.init hp, congrArg VeProg.body hp, congrArg VeProg.end0 hp, congrArg VeProg.end1 hp, congrArg VeProg.end2 hp⟩
  have hsome : 1 ≤ q.extent := by
    have h := hok
    simp only [VeDesc.ok, Bool.and_eq_true, decide_eq_true_eq] at h
    omega
  exact gives_veRun hbody ⟨hn0, hn1, hn2, hsome, hextent⟩ ⟨hports, htile, hattr⟩ hsc hop hok hprog hkinds hnext hfree hcmd hv houts hline

end Sys2Proof.Machine
end

section
/-! Near-Memory Atomic operations at their controller (R221, R329, R330): the block element by element, and the memory around it. -/

namespace Sys2Proof.Machine

/-! ### Fields of bytes laid out one after another -/

/-- The number at position k of numbers laid out as bytes, w bytes each, is the number there. -/
theorem fieldAt_flatMap_leBytes (w : Nat) (xs : List Nat) (k : Nat) (hk : k < xs.length) :
    fieldAt (xs.flatMap (leBytes w)) (w * k) w = xs.getD k 0 % 256 ^ w := by
  induction xs generalizing k with
  | nil => simp at hk
  | cons x xs ih =>
    cases k with
    | zero => exact fieldAt_front w x _
    | succ k =>
      rw [Nat.mul_succ, Nat.add_comm, List.flatMap_cons, fieldAt_skip, ih k (by simpa using hk), List.getD_cons_succ]

theorem leNat_lt (bs : List Byte) : leNat bs < 256 ^ bs.length := by
  induction bs with
  | nil => simp [leNat]
  | cons b bs ih =>
    have hb : b.toNat < 256 := b.isLt
    rw [leNat, List.length_cons, Nat.pow_succ]
    omega

/-- A field of n bytes is a number of n bytes. -/
theorem fieldAt_lt (bs : List Byte) (off n : Nat) : fieldAt bs off n < 256 ^ n :=
  (leNat_lt _).trans_le (Nat.pow_le_pow_right (by decide) (by simp))

/-! ### A block after an operation (R329) -/

/-- An operation's block is a whole number of its elements. -/
theorem NmaOp.width_dvd_of_lenOk {o : NmaOp} {n : Nat} (h : o.lenOk n = true) : o.width ∣ n := by
  cases o <;> simp only [NmaOp.lenOk, NmaOp.width, Bool.or_eq_true, beq_iff_eq, Bool.false_eq_true, or_false] at h ⊢ <;> omega

theorem NmaOp.length_block (o : NmaOp) {old : List Byte} (v : List Byte) (h : o.width ∣ old.length) : (o.block old v).length = old.length := by
  simp only [NmaOp.block, List.length_flatMap, length_leBytes, List.map_const', List.sum_replicate, List.length_range, smul_eq_mul]
  exact Nat.div_mul_cancel h

/-- Each element of the block becomes the operation's result on its old value and the operand's element. -/
theorem NmaOp.fieldAt_block (o : NmaOp) {old : List Byte} (v : List Byte) {i : Nat} (hi : i < old.length / o.width) :
    fieldAt (o.block old v) (o.width * i) o.width =
      o.elem (fieldAt old (o.width * i) o.width) (fieldAt v (o.width * i) o.width) % 256 ^ o.width := by
  have h := fieldAt_flatMap_leBytes o.width ((List.range (old.length / o.width)).map fun i =>
    o.elem (fieldAt old (o.width * i) o.width) (fieldAt v (o.width * i) o.width)) i (by simpa using hi)
  rw [List.flatMap_map] at h
  refine h.trans ?_
  simp [hi]

/-! ### Memory that no copy mirrors (R114) -/

/-- A fold leaves what none of its members changes. -/
theorem foldl_of_fixed {α β : Type} {f : β → α → β} {b : β} {xs : List α} (h : ∀ x ∈ xs, f b x = b) : xs.foldl f b = b := by
  induction xs with
  | nil => rfl
  | cons x xs ih =>
    rw [List.foldl_cons, h x List.mem_cons_self]
    exact ih fun y hy => h y (List.mem_cons_of_mem x hy)

/-- What no placed copy holds is written to none. -/
theorem Device.mirrorFor_none {d : Device} {x : Index} {a : Nat} {bs : List Byte}
    (hunits : ∀ u ∈ (d.burgee x.burgee).placed, ∀ t ∈ x.copyParts u, t.1 + t.2.1 ≤ a ∨ a + bs.length ≤ t.1)
    (hfixed : ∀ t ∈ x.fixedParts a bs.length, t.2.1 + t.2.2.1 ≤ a ∨ a + bs.length ≤ t.2.1) : d.mirrorFor x a bs = d := by
  have hmiss (lo n : Nat) (h : lo + n ≤ a ∨ a + bs.length ≤ lo) : (decide (lo < a + bs.length) && decide (a < lo + n)) = false := by
    rw [Bool.and_eq_false_iff, decide_eq_false_iff_not, decide_eq_false_iff_not]
    omega
  have hparts : ((x.fixedParts a bs.length).filter fun t => decide (t.2.1 < a + bs.length) && decide (a < t.2.1 + t.2.2.1)) = [] :=
    List.filter_eq_nil_iff.2 fun t ht => by rw [hmiss _ _ (hfixed t ht)]; exact Bool.false_ne_true
  unfold Device.mirrorFor
  simp only [hparts, List.foldl_nil]
  refine foldl_of_fixed fun u hu => ?_
  have hputs : ((x.copyParts u).filter fun t => decide (t.1 < a + bs.length) && decide (a < t.1 + t.2.1)) = [] :=
    List.filter_eq_nil_iff.2 fun t ht => by rw [hmiss _ _ (hunits u (List.mem_of_mem_filter hu) t ht)]; exact Bool.false_ne_true
  simp only [hputs, List.map_nil, List.isEmpty_nil, if_true]

/-- What no placed copy holds is written to memory alone. -/
theorem Device.memWriteAll_noCopy {d : Device} {a : Nat} {bs : List Byte} (h : d.noCopyAt a bs.length) : d.memWriteAll a bs = d.memWrite a bs := by
  have hmirror : d.mirror a bs = d := by
    unfold Device.mirror
    split
    · rfl
    · next harea =>
      have hnone := h.resolve_left (not_not.2 (by simpa using harea))
      exact foldl_of_fixed fun p hp => Device.mirrorFor_none (hnone p hp).1 ((hnone p hp).2 a bs.length)
  rw [Device.memWriteAll, hmirror]

end Sys2Proof.Machine
end

section
/-! What controllers do with written bytes leaves the Tag Tables; Near-Memory Atomic commands (R329, R330). -/

namespace Sys2Proof.Machine

@[simp] theorem Device.chan_modChan_same (d : Device) (c : Nat) (g : Channel → Channel) : (d.modChan c g).chan c = g (d.chan c) :=
  tget_tmod_same _ _ _ _

theorem Device.chan_modChan_other (d : Device) {c k : Nat} (g : Channel → Channel) (h : k ≠ c) : (d.modChan c g).chan k = d.chan k :=
  tget_tmod_other _ _ _ _ _ h

theorem Device.byteAt_modChan (d : Device) (c : Nat) (g : Channel → Channel) (x : Nat) : (d.modChan c g).byteAt x = d.byteAt x := rfl

/-! ### Bytes on their way through the controllers (R323, R326, R328) -/

/-- The Tag Tables stay, and so does what their controllers hold. -/
def Device.keepsTags (d e : Device) : Prop := ∀ c, (e.chan c).tags = (d.chan c).tags ∧ (e.chan c).heldTags = (d.chan c).heldTags

theorem Device.keepsTags_refl (d : Device) : d.keepsTags d := fun _ => ⟨rfl, rfl⟩

theorem Device.keepsTags_trans {d e f : Device} (h : d.keepsTags e) (k : e.keepsTags f) : d.keepsTags f := fun c =>
  ⟨(k c).1.trans (h c).1, (k c).2.trans (h c).2⟩

theorem Device.foldl_keepsTags {β : Type} (f : Device → β → Device) (h : ∀ (d : Device) x, d.keepsTags (f d x)) (xs : List β) (d : Device) :
    d.keepsTags (xs.foldl f d) := by
  induction xs generalizing d with
  | nil => exact d.keepsTags_refl
  | cons x xs ih => exact Device.keepsTags_trans (h d x) (ih (f d x))

theorem Device.modChan_keepsTags (d : Device) (c : Nat) {g : Channel → Channel}
    (h : ∀ k, (g k).tags = k.tags ∧ (g k).heldTags = k.heldTags) : d.keepsTags (d.modChan c g) := fun k => by
  by_cases hk : k = c
  · subst hk
    rw [Device.chan_modChan_same]
    exact h _
  · rw [Device.chan_modChan_other _ _ hk]
    exact ⟨rfl, rfl⟩

theorem Device.memCount_keepsTags (d : Device) (c : Nat) (g : MemCounters → MemCounters) : d.keepsTags (d.memCount c g) :=
  d.modChan_keepsTags c fun _ => ⟨rfl, rfl⟩

theorem Device.parityDelta_keepsTags (d : Device) (c key : Nat) : d.keepsTags (d.parityDelta c key) := by
  unfold Device.parityDelta
  split
  · refine d.modChan_keepsTags _ fun k => ?_
    split <;> exact ⟨rfl, rfl⟩
  · exact d.keepsTags_refl

theorem Device.flush_keepsTags (d : Device) (c key : Nat) : d.keepsTags (d.flush c key) := by
  have hparity : ∀ e : Device, e.keepsTags (e.charge true none 0 .l 0 4096) := fun e _ => ⟨rfl, rfl⟩
  unfold Device.flush
  split
  · exact d.keepsTags_refl
  · next e _ =>
    have hleft : d.keepsTags (d.modChan c fun k => { k with wcb := k.wcb.filter (·.key != key) }) := d.modChan_keepsTags c fun _ => ⟨rfl, rfl⟩
    have hcounted (b : Bool) : d.keepsTags (if b = true then d.modChan c fun k => { k with wcb := k.wcb.filter (·.key != key) }
        else (d.modChan c fun k => { k with wcb := k.wcb.filter (·.key != key) }).memCount c fun m => { m with wcbRmw := m.wcbRmw + 1 }) := by
      split
      · exact hleft
      · exact Device.keepsTags_trans hleft (Device.memCount_keepsTags _ _ _)
    dsimp only
    split
    · exact Device.keepsTags_trans (hcounted _) (hparity _)
    · exact Device.keepsTags_trans (hcounted _) (Device.parityDelta_keepsTags _ _ _)

theorem Device.wcbRoom_keepsTags (d : Device) (c : Nat) : d.keepsTags (d.wcbRoom c) := by
  unfold Device.wcbRoom
  dsimp only
  split
  · exact d.keepsTags_refl
  · cases oldestOf (d.ctrlWcb c) with
    | none => exact d.keepsTags_refl
    | some o => exact d.flush_keepsTags _ _

theorem Device.acceptPart_keepsTags (d : Device) (c key lo hi : Nat) : d.keepsTags (d.acceptPart c key lo hi) := by
  have hentered (e : Device) (f : Channel → List WcbEntry) : e.keepsTags (e.modChan c fun k => { k with wcb := f k }) :=
    e.modChan_keepsTags c fun _ => ⟨rfl, rfl⟩
  have hcount : d.keepsTags (d.memCount c fun m => { m with writes := m.writes + 1 }) := d.memCount_keepsTags _ _
  have hjournal (e : Device) : e.keepsTags (if (e.chan c).journal.contains key then e
      else (e.modChan c fun k => { k with journal := k.journal ++ [key] }).memCount c fun m => { m with journal := m.journal + 1 }) := by
    split
    · exact e.keepsTags_refl
    · exact Device.keepsTags_trans (e.modChan_keepsTags c (g := fun k => { k with journal := k.journal ++ [key] }) fun _ => ⟨rfl, rfl⟩)
        (Device.memCount_keepsTags _ _ _)
  have hparity := Device.keepsTags_trans hcount (Device.parityDelta_keepsTags _ c key)
  unfold Device.acceptPart
  dsimp only
  split
  · exact Device.keepsTags_trans (Device.keepsTags_trans hcount (hjournal _)) (Device.parityDelta_keepsTags _ _ _)
  · split
    · exact hparity
    · exact hcount
  · split
    · exact hparity
    · exact Device.keepsTags_trans hcount (hjournal _)
  · have hroom (b : Bool) (e : Device) : e.keepsTags (if b = true then e else e.wcbRoom c) := by
      split
      · exact e.keepsTags_refl
      · exact e.wcbRoom_keepsTags c
    have hjoined (f : Channel → List WcbEntry) := Device.keepsTags_trans (Device.keepsTags_trans hcount (hroom ((d.chan c).wcb.any (·.key == key)) _))
      (hentered _ f)
    split
    · exact Device.keepsTags_trans (hjoined _) (Device.flush_keepsTags _ _ _)
    · exact hjoined _

theorem Device.memWrite_keepsTags (d : Device) (a : Nat) (bs : List Byte) : d.keepsTags (d.memWrite a bs) :=
  Device.keepsTags_trans (e := d.write a bs) (fun _ => ⟨rfl, rfl⟩) (Device.foldl_keepsTags _ (fun d _ => d.acceptPart_keepsTags _ _ _ _) _ _)

/-! ### One operation (R329, R330) -/

/-- An operation that is well formed is aligned, of a length of its own, and has a controller. -/
theorem Device.nmaOk_operand {d : Device} {o : NmaOp} {own : Bool} {b a : Nat} {v : List Byte} (h : d.nmaOk o own b a v = true)
    (hop : o.hasOperand = true) : o.lenOk v.length = true ∧ ∃ p, d.chanOf a = some p := by
  simp only [Device.nmaOk, hop, if_true, Bool.and_eq_true] at h
  exact ⟨h.1.1.1, Option.isSome_iff_exists.1 h.1.2⟩

theorem nmaEff_taken {d e : Device} {o : NmaOp} {own : Bool} {b a n : Nat} {v : List Byte} (htrained : d.tiers.trained = true)
    (hok : d.nmaOk o own b a v = true) (h : d.nma o a n v = .taken e) : nmaEff o own b a n v d = e := by
  simp [nmaEff, htrained, hok, h]

theorem nmaEff_waits {d : Device} {o : NmaOp} {own : Bool} {b a n : Nat} {v : List Byte} (htrained : d.tiers.trained = true)
    (hok : d.nmaOk o own b a v = true) (h : d.nma o a n v = .waits) : nmaEff o own b a n v d = d := by
  simp [nmaEff, htrained, hok, h]

/-- The device with one more operation counted at a channel's controller (R574). -/
def Device.nmaCounted (d : Device) (c : Nat) : Device := d.memCount c fun m => { m with nmaOps := m.nmaOps + 1 }

theorem Device.nmaCounted_keepsTags (d : Device) (c : Nat) : d.keepsTags (d.nmaCounted c) := d.memCount_keepsTags c _

/-- Bytes written to a block that no copy mirrors read back, every other byte reads as before, and only memory and its controllers change. -/
theorem Device.nmaWritten {d : Device} {c a : Nat} {bs : List Byte} (herased : d.tiers.erased = []) (hcopy : d.noCopyAt a bs.length) :
    let e := (d.nmaCounted c).memWriteAll a bs
    e.read a bs.length = bs ∧ (∀ i, i < bs.length → e.byteAt (a + i) = bs.getD i 0) ∧ d.sameMemOutside e a bs.length ∧
      d.keepsTags e ∧
      e = { d with mem := e.mem, tiers := e.tiers } := by
  intro e
  have he : e = (d.nmaCounted c).memWrite a bs := Device.memWriteAll_noCopy hcopy
  rw [he]
  refine ⟨Device.read_memWrite _ a bs, fun i hi => Device.byteAt_memWrite_in _ hi, fun x hx => Device.byteAt_memWrite_out (d.nmaCounted c) herased hx,
    Device.keepsTags_trans (d.memCount_keepsTags _ _) (Device.memWrite_keepsTags _ _ _), ?_⟩
  · have h := (d.nmaCounted c).memWrite_stores a bs
    unfold Device.stores at h
    rw [h]
    rfl

/-- The block at a has become f of its old elements and the operand's, w bytes each, and nothing else has changed. -/
def Device.nmaBecame (d e : Device) (a : Nat) (v : List Byte) (w : Nat) (f : Nat → Nat → Nat) : Prop :=
  (∀ i, i < v.length / w → fieldAt (e.read a v.length) (w * i) w = f (fieldAt (d.read a v.length) (w * i) w) (fieldAt v (w * i) w)) ∧
    d.sameMemOutside e a v.length ∧ e = { d with mem := e.mem, tiers := e.tiers, devBuckets := e.devBuckets }

theorem Device.length_read (d : Device) (a n : Nat) : (d.read a n).length = n := by simp [Device.read_eq_byteAt]

/-- An operation's block written. -/
theorem Device.nmaBecame_block {d : Device} {o : NmaOp} {c a : Nat} {v : List Byte} {f : Nat → Nat → Nat} (herased : d.tiers.erased = [])
    (hcopy : d.noCopyAt a v.length) (hlen : o.lenOk v.length = true)
    (hf : ∀ x y, x < 256 ^ o.width → y < 256 ^ o.width → o.elem x y % 256 ^ o.width = f x y) :
    d.nmaBecame ((d.nmaCounted c).memWriteAll a (o.block (d.read a v.length) v)) a v o.width f := by
  have hold := d.length_read a v.length
  have hblock : (o.block (d.read a v.length) v).length = v.length := (o.length_block v (hold.symm ▸ NmaOp.width_dvd_of_lenOk hlen)).trans hold
  obtain ⟨hread, -, hout, -, honly⟩ := Device.nmaWritten (c := c) (bs := o.block (d.read a v.length) v) herased (by rwa [hblock])
  rw [hblock] at hread hout
  refine ⟨fun i hi => ?_, hout, ?_⟩
  · rw [hread, o.fieldAt_block v (by rwa [hold]), hf _ _ (fieldAt_lt _ _ _) (fieldAt_lt _ _ _)]
  · rw [honly]

/-- An operation of R329 that is not tagged. -/
def NmaOp.plain : NmaOp → Bool
  | .tadd | .tskip | .treset => false
  | _ => true

theorem Device.nma_plain {d : Device} {o : NmaOp} {c key a n : Nat} {v : List Byte} (ho : o.plain = true) (hc : d.chanOf a = some (c, key)) :
    d.nma o a n v = .taken ((d.nmaCounted c).memWriteAll a (o.block (d.read a v.length) v)) := by
  cases o with
  | tadd | tskip | treset => cases ho
  | _ =>
    simp only [Device.nma, hc]
    rfl

/-- A Near-Memory Atomic that is well formed makes each element the operation's result, and changes no other byte. -/
theorem gives_nma {cmd : Instr} {s : State} {o : NmaOp} {own : Bool} {b a : Nat} {v : List Byte} {f : Nat → Nat → Nat}
    (hcmd : exec cmd s = onDev (nmaEff o own b a 0 v) s) (ho : o.plain = true) (htrained : s.dev.tiers.trained = true)
    (herased : s.dev.tiers.erased = []) (hcopy : s.dev.noCopyAt a v.length) (hok : s.dev.nmaOk o own b a v = true)
    (hf : ∀ x y, x < 256 ^ o.width → y < 256 ^ o.width → o.elem x y % 256 ^ o.width = f x y) :
    gives cmd s fun e => s.dev.nmaBecame e a v o.width f := by
  have hop : o.hasOperand = true := by
    cases o with
    | tadd | tskip | treset => cases ho
    | _ => rfl
  obtain ⟨hlen, ⟨c, key⟩, hc⟩ := Device.nmaOk_operand hok hop
  refine gives_of_onDev hcmd ?_
  rw [nmaEff_taken htrained hok (Device.nma_plain ho hc)]
  exact Device.nmaBecame_block herased hcopy hlen hf

/-- Numbers of 32 bits in two's complement order as words do. -/
theorem signedOf_32 (x : Nat) : signedOf 32 x = (BitVec.ofNat 32 x).toInt := by
  rw [signedOf, BitVec.toInt_eq_msb_cond, BitVec.msb_eq_getLsbD_last, BitVec.getLsbD_ofNat, BitVec.toNat_ofNat]
  rfl

/-- MAX_I32 takes the larger number in two's complement. -/
theorem NmaOp.elem_maxI32 {x y : Nat} (hx : x < 2 ^ 32) (hy : y < 2 ^ 32) :
    NmaOp.maxI32.elem x y % 2 ^ 32 = if (BitVec.ofNat 32 x).toInt < (BitVec.ofNat 32 y).toInt then y else x := by
  simp only [NmaOp.elem, signedOf_32]
  split
  · exact Nat.mod_eq_of_lt hy
  · exact Nat.mod_eq_of_lt hx

end Sys2Proof.Machine
end

section
/-! Tagged accumulation in contributor order (R331); and O31. -/

namespace Sys2Proof.Machine

/-! ### The Tag Table (R331) -/

/-- The one open block of an address is the one found. -/
theorem Channel.tag?_of_mem {k : Channel} {a : Nat} {t : TagBlock} (ht : t ∈ k.tags) (ha : t.addr = a) (hone : ∀ u ∈ k.tags, u.addr = a → u = t) :
    k.tag? a = some t := by
  obtain ⟨u, hu⟩ : ∃ u, k.tags.find? (·.addr == a) = some u :=
    Option.isSome_iff_exists.1 (List.find?_isSome.2 ⟨t, ht, by simpa using ha⟩)
  rw [Channel.tag?, hu, hone u (List.mem_of_find?_eq_some hu) (by simpa using List.find?_some hu)]

theorem Channel.tag?_none {k : Channel} {a : Nat} (h : ∀ t ∈ k.tags, t.addr ≠ a) : k.tag? a = none :=
  List.find?_eq_none.2 fun t ht => by simpa using h t ht

theorem Channel.tag?_some {k : Channel} {a : Nat} {t : TagBlock} (h : k.tag? a = some t) : t ∈ k.tags ∧ t.addr = a :=
  ⟨List.mem_of_find?_eq_some h, by simpa using List.find?_some h⟩

/-- The block found depends on the Tag Table alone. -/
theorem Channel.tag?_congr {k l : Channel} (h : k.tags = l.tags) (a : Nat) : k.tag? a = l.tag? a := by
  rw [Channel.tag?, Channel.tag?, h]

/-- A block with its next contributor expected; none where the last one has come. -/
def TagBlock.next (t : TagBlock) : Option TagBlock := if t.count ≤ t.expected + 1 then none else some { t with expected := t.expected + 1 }

/-- A contribution makes the block expect the next contributor, or closes it. -/
theorem Device.tag?_tagAdvance {d : Device} {c a : Nat} {t : TagBlock} (ht : t ∈ (d.chan c).tags) (ha : t.addr = a)
    (hone : ∀ u ∈ (d.chan c).tags, u.addr = a → u = t) : ((d.tagAdvance c a).chan c).tag? a = t.next := by
  rw [Device.tagAdvance, Device.chan_modChan_same]
  have hmem (u : TagBlock) (hu : u.addr = a) : u ∈ ((d.chan c).tags.filterMap fun t =>
      if t.addr == a then (if t.count ≤ t.expected + 1 then none else some { t with expected := t.expected + 1 }) else some t) ↔ t.next = some u := by
    rw [List.mem_filterMap]
    constructor
    · rintro ⟨x, hx, hxu⟩
      by_cases hxa : x.addr = a
      · rw [← hone x hx hxa, TagBlock.next]
        simpa [hxa] using hxu
      · simp only [beq_iff_eq, hxa, if_false, Option.some.injEq] at hxu
        exact absurd (hxu ▸ hu) hxa
    · exact fun h => ⟨t, ht, by simpa [ha, TagBlock.next] using h⟩
  cases hnext : t.next with
  | none => exact Channel.tag?_none fun u hu hua => by rw [hmem u hua, hnext] at hu; cases hu
  | some u =>
    have hua : u.addr = a := by
      unfold TagBlock.next at hnext
      split at hnext
      · cases hnext
      · cases hnext
        exact ha
    exact Channel.tag?_of_mem ((hmem u hua).2 hnext) hua fun x hx hxa => Option.some.inj (((hmem x hxa).1 hx).symm.trans hnext)

/-- Where nothing is held, nothing is applied in its turn. -/
theorem Device.tagDrain_none {d : Device} {c a : Nat} (n : Nat) (h : (d.chan c).heldTags = []) : d.tagDrain c a n = d := by
  cases n with
  | zero => rfl
  | succ n =>
    rw [Device.tagDrain]
    cases (d.chan c).tag? a with
    | none => rfl
    | some t => simp [h]

/-! ### A tagged operation at its controller (R331) -/

section
variable {d : Device} {c key a n : Nat} {t : TagBlock}

/-- The expected contributor's operation is applied, and what was held for its turn after it. -/
theorem Device.nma_expected (hc : d.chanOf a = some (c, key)) (ht : (d.chan c).tag? a = some t) (hn : t.expected = n) (v : List Byte) :
    d.nma .tadd a n v = .taken (((d.nmaCounted c).tagApply c a (some v)).tagDrain c a ((d.chan c).heldTags.length + 1)) ∧
      d.nma .tskip a n v = .taken (((d.nmaCounted c).tagApply c a none).tagDrain c a ((d.chan c).heldTags.length + 1)) := by
  simp only [Device.nma, hc, ht, hn, if_true]
  exact ⟨rfl, rfl⟩

/-- An operation of a contributor that has had its turn is discarded. -/
theorem Device.nma_old (hc : d.chanOf a = some (c, key)) (ht : (d.chan c).tag? a = some t) (hn : n < t.expected) (v : List Byte) :
    d.nma .tadd a n v = .taken (d.nmaCounted c) := by
  simp only [Device.nma, hc, ht, if_neg hn.ne', if_pos hn]
  rfl

/-- An early operation is held where its controller has room. -/
theorem Device.nma_held (hc : d.chanOf a = some (c, key)) (ht : (d.chan c).tag? a = some t) (hn : t.expected < n) (hroom : d.tagsHeld c < 512)
    (v : List Byte) :
    d.nma .tadd a n v = .taken (((d.nmaCounted c).modChan c fun k => { k with heldTags := k.heldTags ++ [⟨a, n, some v⟩] }).memCount c
      fun m => { m with tagHolds := m.tagHolds + 1 }) := by
  simp only [Device.nma, hc, ht, if_neg hn.ne, if_neg hn.not_gt, if_pos (show d.tagsHeld c < tagHoldSize from hroom)]
  rfl

/-- An early operation waits where its controller holds all it can. -/
theorem Device.nma_full (hc : d.chanOf a = some (c, key)) (hfull : 512 ≤ d.tagsHeld c)
    (hearly : ∀ t ∈ (d.chan c).tags, t.addr = a → t.expected < n) (v : List Byte) : d.nma .tadd a n v = .waits := by
  have hheld : ¬ d.tagsHeld c < tagHoldSize := hfull.not_gt
  cases ht : (d.chan c).tag? a with
  | none => simp only [Device.nma, hc, ht, if_neg hheld]
  | some t =>
    obtain ⟨hmem, ha⟩ := Channel.tag?_some ht
    have hn := hearly t hmem ha
    simp only [Device.nma, hc, ht, if_neg hn.ne, if_neg hn.not_gt, if_neg hheld]

/-- TRESET zeroes the block and opens it for its contributors, where the Tag Table has an entry for it. -/
theorem Device.nma_treset (hc : d.chanOf a = some (c, key)) (hroom : d.tagsOpen c < 16384 ∨ ∃ t ∈ (d.chan c).tags, t.addr = a) (v : List Byte) :
    d.nma .treset a n v = .taken ((((d.nmaCounted c).memWriteAll a (List.replicate 64 0)).modChan c fun k =>
      { k with tags := k.tags.filter (·.addr != a) ++ (if n = 0 then [] else [⟨a, 0, n⟩]) }).tagDrain c a ((d.chan c).heldTags.length + 1)) := by
  have hfits : (((d.chan c).tag? a).isNone && decide (tagTableSize ≤ d.tagsOpen c)) = false := by
    rw [Bool.and_eq_false_iff]
    rcases hroom with h | ⟨t, ht, ha⟩
    · exact .inr (decide_eq_false h.not_ge)
    · refine .inl ?_
      rw [Option.isNone_eq_false_iff]
      exact List.find?_isSome.2 ⟨t, ht, by simpa using ha⟩
  simp only [Device.nma, hc, hfits, Bool.false_eq_true, if_false]
  rfl

/-- TRESET waits where the Tag Table is full. -/
theorem Device.nma_treset_full (hc : d.chanOf a = some (c, key)) (hfull : 16384 ≤ d.tagsOpen c) (hnone : ∀ t ∈ (d.chan c).tags, t.addr ≠ a)
    (v : List Byte) : d.nma .treset a n v = .waits := by
  simp only [Device.nma, hc, Channel.tag?_none hnone, tagTableSize, hfull, decide_true, Option.isNone_none, Bool.and_self, if_true]

end

/-! ### What tagged operations give (R331) -/

/-- A block at a that no copy mirrors, on a channel of a tier whose memory is known; and what a command on it leaves. -/
structure Device.TagBlockAt (d : Device) (c key a : Nat) : Prop where
  trained : d.tiers.trained = true
  erased  : d.tiers.erased = []
  copies  : d.noCopyAt a 64
  place   : d.chanOf a = some (c, key)

/-- Only the block of 64 bytes at a has changed in memory. -/
def Device.blockOnly (d e : Device) (a : Nat) : Prop :=
  d.sameMemOutside e a 64 ∧ e = { d with mem := e.mem, tiers := e.tiers, devBuckets := e.devBuckets }

section
variable {s : State} {c key a n b : Nat} {own : Bool} {t : TagBlock}

theorem gives_treset (h : s.dev.TagBlockAt c key a) (hok : s.dev.nmaOk .treset own b a [] = true)
    (hroom : s.dev.tagsOpen c < 16384 ∨ ∃ t ∈ (s.dev.chan c).tags, t.addr = a) (hnone : (s.dev.chan c).heldTags = []) :
    gives (.treset own b a n) s fun e => s.dev.blockOnly e a ∧ (∀ i, i < 64 → e.byteAt (a + i) = 0) ∧
      (e.chan c).tags = (s.dev.chan c).tags.filter (fun t => t.addr != a) ++ (if n = 0 then [] else [⟨a, 0, n⟩]) := by
  refine gives_of_onDev (F := nmaEff .treset own b a n []) rfl ?_
  rw [nmaEff_taken h.trained hok (Device.nma_treset h.place hroom [])]
  have hlen : (List.replicate 64 (0 : Byte)).length = 64 := List.length_replicate
  obtain ⟨-, hbytes, hout, htags, honly⟩ := Device.nmaWritten (c := c) (bs := List.replicate 64 0) h.erased (hlen.symm ▸ h.copies)
  rw [hlen] at hbytes hout
  rw [Device.tagDrain_none _ (by rw [Device.chan_modChan_same]; exact (htags c).2.trans hnone)]
  refine ⟨⟨hout, ?_⟩, fun i hi => ?_, ?_⟩
  · rw [Device.modChan, honly]
  · rw [Device.byteAt_modChan, hbytes i hi, List.getD_eq_getElem?_getD, List.getElem?_replicate, if_pos hi, Option.getD_some]
  · rw [Device.chan_modChan_same, (htags c).1]

/-- The expected TADD_F32 adds element by element. -/
theorem gives_taddF32_expected {v : List Byte} (h : s.dev.TagBlockAt c key a) (ht : t ∈ (s.dev.chan c).tags) (ha : t.addr = a)
    (hone : ∀ u ∈ (s.dev.chan c).tags, u.addr = a → u = t) (hnone : (s.dev.chan c).heldTags = [])
    (hok : s.dev.nmaOk .tadd own b a v = true) (hn : t.expected = n) :
    gives (.taddF32 own b a n v) s fun e => s.dev.blockOnly e a ∧ (e.chan c).tag? a = t.next ∧
      ∀ i, i < 16 → fieldAt (e.read a 64) (4 * i) 4 =
        (f32Add (BitVec.ofNat 32 (fieldAt (s.dev.read a 64) (4 * i) 4)) (BitVec.ofNat 32 (fieldAt v (4 * i) 4))).toNat := by
  obtain ⟨hlen, -⟩ := Device.nmaOk_operand hok rfl
  have hlen64 : v.length = 64 := by simpa [NmaOp.lenOk] using hlen
  refine gives_of_onDev (F := nmaEff .tadd own b a n v) rfl ?_
  rw [nmaEff_taken h.trained hok (Device.nma_expected h.place (Channel.tag?_of_mem ht ha hone) hn v).1]
  have hblock : (NmaOp.tadd.block (s.dev.read a 64) v).length = 64 := by
    rw [NmaOp.length_block _ _ (by rw [Device.length_read]; decide), Device.length_read]
  obtain ⟨hread, -, hout, htags, honly⟩ := Device.nmaWritten (c := c) (bs := NmaOp.tadd.block (s.dev.read a 64) v) h.erased (hblock.symm ▸ h.copies)
  rw [hblock] at hread hout
  have happly : (s.dev.nmaCounted c).tagApply c a (some v) = ((s.dev.nmaCounted c).memWriteAll a (NmaOp.tadd.block (s.dev.read a 64) v)).tagAdvance c a := rfl
  obtain ⟨htagsc, hheldc⟩ := htags c
  rw [happly, Device.tagDrain_none _ (by rw [Device.tagAdvance, Device.chan_modChan_same]; exact hheldc.trans hnone)]
  refine ⟨⟨hout, ?_⟩, Device.tag?_tagAdvance (htagsc ▸ ht) ha (htagsc ▸ hone), fun i hi => ?_⟩
  · rw [Device.tagAdvance, Device.modChan, honly]
  · refine (congrArg (fun bs => fieldAt bs (4 * i) 4) hread).trans ((NmaOp.tadd.fieldAt_block v (by rw [Device.length_read]; exact hi)).trans ?_)
    exact Nat.mod_eq_of_lt (BitVec.isLt _)

/-- The expected TSKIP leaves the block. -/
theorem gives_tskip_expected (h : s.dev.TagBlockAt c key a) (ht : t ∈ (s.dev.chan c).tags) (ha : t.addr = a)
    (hone : ∀ u ∈ (s.dev.chan c).tags, u.addr = a → u = t) (hnone : (s.dev.chan c).heldTags = [])
    (hok : s.dev.nmaOk .tskip own b a [] = true) (hn : t.expected = n) :
    gives (.tskip own b a n) s fun e => (e.chan c).tag? a = t.next ∧ e = { s.dev with tiers := e.tiers } := by
  refine gives_of_onDev (F := nmaEff .tskip own b a n []) rfl ?_
  rw [nmaEff_taken h.trained hok (Device.nma_expected h.place (Channel.tag?_of_mem ht ha hone) hn []).2]
  obtain ⟨htags, hheld⟩ := s.dev.nmaCounted_keepsTags c c
  have happly : (s.dev.nmaCounted c).tagApply c a none = (s.dev.nmaCounted c).tagAdvance c a := rfl
  rw [happly, Device.tagDrain_none _ (by rw [Device.tagAdvance, Device.chan_modChan_same]; exact hheld.trans hnone)]
  exact ⟨Device.tag?_tagAdvance (htags ▸ ht) ha (htags ▸ hone), rfl⟩

/-- An early TADD_F32 is held. -/
theorem gives_taddF32_held {v : List Byte} (h : s.dev.TagBlockAt c key a) (ht : (s.dev.chan c).tag? a = some t) (hnone : (s.dev.chan c).heldTags = [])
    (hok : s.dev.nmaOk .tadd own b a v = true) (hroom : s.dev.tagsHeld c < 512) (hn : t.expected < n) :
    gives (.taddF32 own b a n v) s fun e => (e.chan c).heldTags = [⟨a, n, some v⟩] ∧ (e.chan c).tag? a = some t ∧ e = { s.dev with tiers := e.tiers } := by
  refine gives_of_onDev (F := nmaEff .tadd own b a n v) rfl ?_
  rw [nmaEff_taken h.trained hok (Device.nma_held h.place ht hn hroom v)]
  obtain ⟨htags, hheld⟩ := s.dev.nmaCounted_keepsTags c c
  obtain ⟨htags1, hheld1⟩ := ((s.dev.nmaCounted c).modChan c fun k => { k with heldTags := k.heldTags ++ [⟨a, n, some v⟩] }).memCount_keepsTags c
    (fun m => { m with tagHolds := m.tagHolds + 1 }) c
  rw [Device.chan_modChan_same] at htags1 hheld1
  refine ⟨hheld1.trans ?_, (Channel.tag?_congr (htags1.trans htags) a).trans ht, rfl⟩
  rw [hheld, hnone, List.nil_append]

/-- A TADD_F32 whose turn has passed is discarded. -/
theorem gives_taddF32_old {v : List Byte} (h : s.dev.TagBlockAt c key a) (ht : (s.dev.chan c).tag? a = some t) (hnone : (s.dev.chan c).heldTags = [])
    (hok : s.dev.nmaOk .tadd own b a v = true) (hn : n < t.expected) :
    gives (.taddF32 own b a n v) s fun e => (e.chan c).heldTags = [] ∧ (e.chan c).tag? a = some t ∧ e = { s.dev with tiers := e.tiers } := by
  refine gives_of_onDev (F := nmaEff .tadd own b a n v) rfl ?_
  rw [nmaEff_taken h.trained hok (Device.nma_old h.place ht hn v)]
  obtain ⟨htags, hheld⟩ := s.dev.nmaCounted_keepsTags c c
  exact ⟨hheld.trans hnone, (Channel.tag?_congr htags a).trans ht, rfl⟩

end

/-- Settles O31: plain operations by their elements, tagged ones by what their controller does with them. -/
theorem atomicsAndTaggedBlocks : Obligations.AtomicsAndTaggedBlocks := by
  unfold Obligations.AtomicsAndTaggedBlocks
  refine ⟨fun s own b a v htrained herased hcopy => ?_, fun s own b a n htrained herased hcopy c key hplace => ?_⟩
  · intro becomes
    have hplain {cmd : Instr} {o : NmaOp} {f : Nat → Nat → Nat} (hcmd : exec cmd s = onDev (nmaEff o own b a 0 v) s) (ho : o.plain = true)
        (hf : ∀ x y, x < 256 ^ o.width → y < 256 ^ o.width → o.elem x y % 256 ^ o.width = f x y) (hok : s.dev.nmaOk o own b a v = true) :
        gives cmd s (becomes o.width f) := gives_nma hcmd ho htrained herased hcopy hok hf
    refine ⟨?_, ?_, ?_, ?_, ?_, ?_, ?_, ?_, ?_⟩
    · exact hplain (o := .addI32) rfl rfl fun x y _ _ => Nat.mod_mod _ _
    · exact hplain (o := .addI64) rfl rfl fun x y _ _ => Nat.mod_mod _ _
    · exact hplain (o := .addF32) rfl rfl fun x y _ _ => Nat.mod_eq_of_lt (BitVec.isLt _)
    · exact hplain (o := .addBf16) rfl rfl fun x y _ _ => rfl
    · exact hplain (o := .or_) rfl rfl fun x y hx hy => Nat.mod_eq_of_lt (Nat.or_lt_two_pow (n := 64) hx hy)
    · exact hplain (o := .and_) rfl rfl fun x y hx _ => Nat.mod_eq_of_lt (Nat.and_le_left.trans_lt hx)
    · exact hplain (o := .maxU64) rfl rfl fun x y hx hy => Nat.mod_eq_of_lt (max_lt hx hy)
    · exact hplain (o := .maxI32) rfl rfl fun x y hx hy => NmaOp.elem_maxI32 hx hy
    · exact hplain (o := .maxF32) rfl rfl fun x y _ _ => Nat.mod_eq_of_lt (BitVec.isLt _)
  · have h : s.dev.TagBlockAt c key a := ⟨htrained, herased, hcopy, hplace⟩
    intro k rest
    refine ⟨fun hok hroom hnone => gives_treset h hok hroom hnone, fun hok hfull hnone => ?_, fun v hok hfull hearly => ?_, fun t ht ha hone hnone => ?_⟩
    · exact gives_of_onDev (F := nmaEff .treset own b a n []) rfl (nmaEff_waits htrained hok (Device.nma_treset_full hplace hfull hnone []))
    · exact gives_of_onDev (F := nmaEff .tadd own b a n v) rfl (nmaEff_waits htrained hok (Device.nma_full hplace hfull hearly v))
    · have htag := Channel.tag?_of_mem ht ha hone
      intro next
      refine ⟨fun v hok hn => gives_taddF32_expected h ht ha hone hnone hok hn, fun hok hn => gives_tskip_expected h ht ha hone hnone hok hn,
        fun v hok hroom hn => ?_, fun v hok hn => ?_⟩
      · exact gives_taddF32_held h htag hnone hok hroom hn
      · exact gives_taddF32_old h htag hnone hok hn

end Sys2Proof.Machine
end
